-- ==== Sys2Proof/Word.lean ====
section
/-!
DEFINITION. The word types of the FL1640: 32-bit registers and parameter words, and bytes (spec/00_scope.md, R3, R5).
-/
namespace Sys2Proof

/-- A BAR0 register, a packet parameter word. -/
abbrev W32 := BitVec 32
/-- A byte of memory. -/
abbrev Byte := BitVec 8

end Sys2Proof
end

