-- ==== Sys2Proof/Config.lean ====
section
/-!
DEFINITION. What an implementation fixes and the spec leaves open. A constant without a body is a free value:
nothing in Lean can see it, so a claim holds whatever it is (notes/assumptions).
-/
namespace Sys2Proof

/-- All that the coding of a CTU row depends on (spec/12, R253, R256). -/
structure CodeIn where
  /-- Profile, words 1 to 3 of CDC_STREAM_CREATE, and the coded width and height. -/
  settings : List Nat
  /-- Search range in luma samples (R263), the row, whether the picture is IRAP, and the QP of each CTU (R261). -/
  search : Nat
  row : Nat
  irap : Bool
  qps : List Nat
  /-- The row's source samples: planes, lines, samples. -/
  source : List (List (List Nat))
  /-- Each reference picture: how many slots back it lies, and its pool buffer. -/
  refs : List (Nat × List Byte)
  /-- What the rows above left of the picture's reconstruction, as offsets in its buffer and bytes. -/
  above : List (Nat × List Byte)
deriving DecidableEq, Repr

end Sys2Proof

namespace Sys2Proof.Config
open Sys2Proof

/-- Width in bytes, less 1, of field `k` of a DLT entry's body where Table 4-3 gives none, by TYPE (spec/04; log 3). -/
opaque dltWidth : Nat → Nat → BitVec 3
/-- What the DLT says and the spec does not: BLOCK version and CAPS (0 and 1, by INDEX); the entry condition codes of PS0 to PS3 and VP0
to VP3 (2); SPACE and base of the internal mailbox window (3, 4); the identifier of the pipeline's LIMIT (5) (log 3). -/
opaque dltValue : Nat → Nat → W32

/-- The n-th value the spec leaves undefined where the machine goes on (log 4). -/
opaque free : Nat → W32

/-- The quotient of a number and 0 where the spec divides by a count that can be 0 and states no result (log 13). -/
opaque divByZero : Nat → Nat

/-- Former contents of the vault byte at a DPA that no record names (spec/21, R401; log 14). -/
opaque former : Nat → Byte

/-- Byte of the Rind asset area, by offset; its format is not given (spec/14, R303; log 23). -/
opaque assetByte : Nat → Byte

/-- What the Rind's font draws at a pixel: element (0 timecode, 1 fault card text), the value shown, x, y; 0 where it draws
nothing, else the colour plus 1. The asset area's format is not given (spec/14, R303, R304; log 23). -/
opaque rindPixel : Nat → Nat → Nat → Nat → Nat

/-- Compression (spec/18, R357; log 40). The spec fixes what a choice depends on and leaves the search open: the match taken at a place,
length and distance, from chain depth and lazy matching, the window newest byte first, and the input ahead; the code lengths of a dynamic
block from the symbols it uses; and how its header spells them. -/
opaque matchAt : Nat × Bool → List Byte → List Byte → Nat × Nat
opaque dynLengths : List Nat → List Nat → List Nat × List Nat
opaque dynHeader : List Nat → List Nat → List Bool
/-- How many of the bytes that are fixed have been written once an input has been taken and more is to follow; and how much of an input has
been taken when the first `n` bytes have been written. -/
opaque deflatePart : List Byte → Nat → Nat → Nat
opaque deflateTaken : List Byte → Nat → Nat → Nat → Nat
/-- Source bytes taken when a header was found bad (spec/18, R360). -/
opaque headerTaken : List Byte → Nat
/-- The inside of a resume state (spec/18, R363), from word 0, the source taken and the count produced; and what a state
that no job of this run wrote holds (log 40). -/
opaque resumeImage : Nat → List Byte → Nat → List Byte
opaque resumeHeld : List Byte → Nat × List Byte × Nat

/-- Coding decisions of the pixel engine (spec/12, R246, R248, R256): the spec fixes what they depend on and leaves the choice among H.265's
tools open (log 99). The bins of the newest CTU of a row, given which CTUs so far are minimal ones; a CTU's syntax record; the
writes to the reconstruction, by offset in the picture's buffer; and the slice data that an entropy engine makes of the row. -/
opaque ctuBins : CodeIn → List Bool → Nat
opaque ctuRecord : CodeIn → List Bool → Nat → List Byte
opaque rowRecon : CodeIn → List Bool → List (Nat × List Byte)
opaque sliceData : CodeIn → List Bool → List Byte
/-- Values of H.265 syntax elements that the spec does not state, by number (spec/12, R248, R249; log 99). -/
opaque syntaxValue : Nat → Nat

/-- What checking a slot's package gives, from the slot and what has been staged in it: its version, or none when header or
CRC is wrong. The header's field offsets and the shipped contents are not given (spec/21, R405; log 41). -/
opaque fwPackage : Nat → List (Nat × List Byte) → Option (BitVec 24)

/-- Spares in all of SRAM (2) and DRAM (3) (spec/22, R421; log 42). -/
opaque spareTotal : Nat → BitVec 8

end Sys2Proof.Config
end

