-- ==== Sys2Proof/Syntax.lean ====
section
/-!
DEFINITION. The commands of the FL1640: one constructor per row of spec/opcode_table.json, with the row's operands.
The first 108 rows are command packets (spec/02_command_packets.md); the others are register accesses, bus requests
and events that arrive from outside the block or fall due inside it.
-/
namespace Sys2Proof

/-- The bytes a bulk read of host memory returns, as the outside world supplies them (spec/02, R30; spec/03, R62). -/
inductive HostRead where
  /-- The read ended in error; `poisoned` when the data came back poisoned. -/
  | failed (addr : Nat) (poisoned : Bool)
  | bytes (b : List Byte)
deriving DecidableEq, Repr

/-- A feature that a capability structure can report (spec/03, Tables 3-1 and 3-2). -/
inductive Cap where
  | powerManagement | pciExpress | msix | aer | doe | dvsecCxlDevice | dvsecFlexBusPort | dvsecRegisterLocator
  | ats | pasid | pri | srIov | cxlReset | gpf | mld | hotPlug | viral | biasFlip
deriving DecidableEq, Repr

/-- A field of the configuration space or of the CXL component registers that the spec names without an offset (spec/03, R48 to R52,
R54, R61, R64, R65). -/
inductive CfgField where
  /-- Identity (Table 3-2), and whether a capability is reported. -/
  | vendorId | deviceId | revisionId | classCode
  | has (c : Cap)
  /-- The CXL Device DVSEC (Table 3-3, R51). -/
  | cacheCapable | ioCapable | memCapable | memHwInitMode | hdmCount | cacheSizeUnit | cacheSize | cxlResetCapable | viralCapable
  | rangeSize (r : Fin 2) | memInfoValid (r : Fin 2) | memActive (r : Fin 2)
  /-- Link status: mode (0 CXL, 1 fallback), width, rate (R49). -/
  | linkMode | linkWidth | linkRate
  /-- Size of a base address register (Table 3-4), by number. -/
  | barSize (n : Nat)
  /-- Function control: bus mastering, MSI-X enable; DEVCTL and the limits of Table 3-6. -/
  | busMaster | msixEnable | enableNoSnoop | enableRelaxed | maxPayloadSupported | maxPayload | maxReadRequest | timeoutRanges
  | completionTimeoutUs | tags | readCompletionBoundary
  /-- AER and RAS status (Table 3-8), cleared by a write of other than 0. -/
  | aerCorrectable | aerAdvisory | aerUncorrInternal | rasMemPoison | rasCacheDataParity | rasCacheAddrParity
  /-- HDM decoders (R54). -/
  | hdmCommitted (d : Fin 2) | hdmCommitErr (d : Fin 2) | hdmBase (d : Fin 2) | hdmSize (d : Fin 2) | hdmWays (d : Fin 2)
deriving DecidableEq, Repr

/-- Where a register access goes: an offset in a BAR (spec/03, Table 3-4), or a named field. -/
inductive Loc where
  | bar0 (addr : Nat)
  | bar2 (addr : Nat)
  | bar4 (addr : Nat)
  | cfg (f : CfgField)
deriving DecidableEq, Repr

/-- A fetched command packet with its opcode known (spec/02, Table 2-1), and what the host holds behind its
buffer reference. -/
structure Pkt where
  ring : Fin 4
  seq : W32
  flags : BitVec 16
  target : BitVec 16
  params : List W32
  buf : HostRead
deriving DecidableEq, Repr

/-- A command slot as CMD reads it from a ring (spec/02, Table 2-1): the read failed (R26), or a header and
parameters. -/
inductive Slot where
  | failed (addr : Nat) (poisoned : Bool)
  | packet (opcode flags : BitVec 16) (seq : W32) (len target : BitVec 16) (reserved : W32) (params : List W32)
deriving DecidableEq, Repr

/-- What a slice segment header tells the decoder (spec/13, R278 to R283), as H.265 defines it. -/
structure SliceHdr where
  /-- first_slice_segment_in_pic_flag. -/
  first : Bool
  poc : Int
  /-- The picture is IRAP; it starts a coded video sequence (NoRaslOutputFlag); it is a RASL picture of the first CRA. -/
  irap : Bool
  starts : Bool
  rasl : Bool
  /-- PicOutputFlag, and NoOutputOfPriorPicsFlag. -/
  output : Bool
  noPrior : Bool
  /-- The PPS differs from the current picture's. -/
  newPps : Bool
  addr : Nat
  width : Nat
  height : Nat
  fmt422 : Bool
  depth : Nat
  ctb : Nat
  /-- Limits of C.5.2: reorder pictures, latency pictures (0: none), DPB size. -/
  reorder : Nat
  latency : Nat
  dpbSize : Nat
  /-- RPS entries: POC, and long-term. -/
  rps : List (Int × Bool)
deriving DecidableEq, Repr

/-- What an entropy engine makes of the next NAL unit of a session's bitstream ring (spec/13, Table 13-3), whose place and header the device
reads itself: nothing, where its header says all. -/
inductive DecItem where
  | plain
  /-- A parameter set: its syntax is in range and inside the subset; an SPS gives coded and cropped sizes. -/
  | paramSet (good : Bool) (sps : Option (Nat × Nat × Nat × Nat))
  /-- A picture hash SEI. -/
  | hash (mismatch : Bool)
  /-- A slice of `total` CTUs, `decoded` of them without error; `code` 0, or 3, 4 or 5 of Table 13-3. -/
  | slice (h : SliceHdr) (decoded total code : Nat)
deriving DecidableEq, Repr

/-- What an entropy engine finishes: the slice of a stream's row, or an item of a decode session. -/
inductive EntropyOut where
  | coded (engine : Fin 2)
  | parsed (session : Fin 2) (item : DecItem)
deriving DecidableEq, Repr

/-- What the pixel engine leaves of a row of a decoded picture: bytes it writes to the working region, and luma lines that are final. -/
structure RowOut where
  writes : List (Nat × List Byte)
  final : Nat
deriving DecidableEq, Repr

/-- How a transfer on a sensor control channel ends (spec/05, R103): with the bytes read, or at byte `index` on a NACK or a
stretch beyond the limit. -/
inductive XferEnd where
  | done (data : List Byte)
  | nack (index : Nat)
deriving DecidableEq, Repr

/-- One sample of an audio channel, with its V, U and C bits and a parity error (spec/16, R324, R329). -/
structure AudSub where
  smp : BitVec 24 := 0
  v : Bool := false
  u : Bool := false
  c : Bool := false
  p : Bool := false
deriving DecidableEq, Repr

/-- An audio frame: channel A and channel B (spec/16, R323). -/
structure AudFrame where
  a : AudSub := {}
  b : AudSub := {}
deriving DecidableEq, Repr

/-- What host memory holds for the next descriptor of a network ring, and for its buffer (spec/17, Table 17-2). -/
structure NetFetch where
  desc : HostRead
  data : HostRead
deriving DecidableEq, Repr

/-- A submission slot as the VQ fetches it (spec/11, R225): the read failed, or the 64 bytes of Table 11-1. -/
inductive VqSlot where
  | failed (addr : Nat) (poisoned : Bool)
  | entry (bytes : List Byte)
deriving DecidableEq, Repr

/-- How far an ABORT's target has come (spec/11, R237; log 39): whether its last sector has been issued, the sectors moved with the data a
WRITE moved, and, for a target in a host-memory queue that is not fetched yet, where its slot lies: the pair, and how far past the head. -/
structure AbortAt where
  issued : Bool := false
  moved : Nat := 0
  data : HostRead := .bytes []
  slot : Option (Fin 16 × Nat) := none
deriving DecidableEq, Repr

/-- A hardware port that issues DRAM requests, by the members of Table 1-7 (spec/01, R17). -/
inductive DramUser where
  | captureWrite | indexUpdate | pinUpdate
  | composerFetch | rindFetch | audioBuffer
  | readBack | displayTap | codingTap | zoneStats
  | cdcTraffic | syntaxBuffer | visionTap | writeBack
  | cxlMem | vqCommand | ioDma
  | deflate | bist | staging
deriving DecidableEq, Repr

/-- A burst of 64 bytes asked of the DRAM controller in a budget tick (spec/19): who asks and at which of its ports, the DPA, and, in
quarters of a ns from the tick's start, when the request arrives and from when bank timing allows it. -/
structure DmcReq where
  user : DramUser
  port : Nat
  dpa : Nat
  arrives : Nat
  ready : Nat
deriving DecidableEq, Repr

/-- What reaches the DRAM controller in a budget tick (spec/19, spec/20): its requests in the order of their arrival, and how many reads
had a corrected error. -/
structure DmcTick where
  reqs : List DmcReq := []
  corrected : Nat := 0
deriving DecidableEq, Repr

/-- What a boot meets outside the block's state: flash, silicon, link (spec/21, R399 to R403; spec/22, R414). -/
structure BootRep where
  /-- FAIL_CODEs 1 to 3 of the attempts before, oldest first (R403). -/
  fails : List Nat := []
  /-- The last step completed when a reset stops the boot (R402); 10 when none does. -/
  upTo : Nat := 10
  /-- The boot slot's image fails its CRC. -/
  fallback : Bool := false
  /-- The package's policy section (spec/14, Table 14-1). -/
  policy : List Byte := []
  /-- The two copies of the calibration record in flash (spec/19, Table 19-3). -/
  cal : List Byte × List Byte := ([], [])
  /-- The repair records' header CRC fails: the entries as the flash holds them (R416, Table 22-5). -/
  recordsBad : Option (List Byte) := none
  /-- Repairs appended by this boot: kind, instance, address (R414, Table 22-5). -/
  repairs : List (Nat × Nat × Nat) := []
  /-- Raw and pipeline lanes failed; SRAM spares used; a failure that no spare covers. -/
  rawFailed : Nat := 0
  pipeFailed : Nat := 0
  sramUsed : Nat := 0
  sramFailed : Bool := false
  /-- DRAM spares used; on a clearing boot the sector remap (sector, spare) and the sectors that the usable end has lost (R185). -/
  dramUsed : Nat := 0
  /-- Block instances fused off, by DLT INDEX (spec/04, Table 4-2). -/
  fused : List Nat := []
  remap : List (Nat × Nat) := []
  lost : Nat := 0
  /-- Failing item of the native analogue BIST (R411). -/
  analogue : Option Nat := none
  /-- Rebuild: sectors whose identity lines are broken, take slots with a bad CRC, an area not done in time (spec/09, R204). -/
  broken : List Nat := []
  lostTakes : List Nat := []
  late : Option Nat := none
  /-- BOOT_TIME in ms, and FAB ticks from the release of the logic to DEVICE_READY. -/
  ms : Nat := 0
  ticks : Nat := 0
  /-- The link as it trained: CXL negotiated in full, width, rate in GT/s; none while it is down (R49, R50). -/
  link : Option (Bool × Nat × Nat) := none
deriving DecidableEq, Repr

/-- How a test ended (spec/22, R411 to R415). -/
structure TestEnd where
  /-- Analogue: the item passed; its ERRS and bits. -/
  pass : Bool := true
  errs : Nat := 0
  bits : Nat := 0
  /-- Logic BIST: a signature for RAW, PIPE, CDC, OUT, and the signature-table entry's, if there is one. -/
  sigs : List W32 := []
  table : List (Option W32) := []
  /-- MBIST: failures, repairs made (kind, instance, address), and a failure that no spare can cover. -/
  failures : Nat := 0
  repairs : List (Nat × Nat × Nat) := []
  uncovered : Bool := false
deriving DecidableEq, Repr

/-- The commands, one constructor per row of spec/opcode_table.json. -/
inductive Instr where
  /-- NOP: Command that does nothing and replies OK with a timebase sample. (R407) -/
  | nop (p : Pkt)
  /-- DEV_STATUS: Command that returns device status words sampled at one instant. (R407) -/
  | devStatus (p : Pkt)
  /-- DEV_RESET: Command that writes its reply and then performs a warm reset, with an optional vault clear. (R400) -/
  | devReset (p : Pkt)
  /-- DEV_SET_PSTATE: Command that enters PS2 or PS3 when the entry conditions hold. (R396) -/
  | devSetPstate (p : Pkt)
  /-- DEV_GET_FINGERPRINT: Command that returns the device fingerprint, the target's fingerprint and COMMIT_SEQ. (R74) -/
  | devGetFingerprint (p : Pkt)
  /-- FW_STAGE: Command that writes a buffer into the inactive firmware slot. (R405) -/
  | fwStage (p : Pkt)
  /-- FW_VERIFY: Command that checks the header and CRC of the inactive slot. (R407) -/
  | fwVerify (p : Pkt)
  /-- FW_ACTIVATE: Command that switches the control cores to the verified slot while capture runs. (R406) -/
  | fwActivate (p : Pkt)
  /-- EVT_DRAIN: Command that copies live, error or post-mortem log entries to a buffer. (R434) -/
  | evtDrain (p : Pkt)
  /-- LNK_CONFIG_PORT: Command that sets the configuration, frame timeout and rate of a stopped sensor port. (R102) -/
  | lnkConfigPort (p : Pkt)
  /-- LNK_MAP_QUADS: Command that assigns quads to sensor ports. (R83) -/
  | lnkMapQuads (p : Pkt)
  /-- LNK_START: Command that enables a port, sends START_STREAM and replies at LOCKED. (R90) -/
  | lnkStart (p : Pkt)
  /-- LNK_STOP: Command that sends STOP_STREAM and closes or awaits the frame in progress. (R108) -/
  | lnkStop (p : Pkt)
  /-- SNS_LOAD_PROFILE: Command that loads and checks a sensor profile. (R451) -/
  | snsLoadProfile (p : Pkt)
  /-- SNS_CTRL_XFER: Command that performs an I2C or SPI control transfer on the sensor channel. (R104) -/
  | snsCtrlXfer (p : Pkt)
  /-- SNS_QUEUE_SETTINGS: Command that queues a tagged settings set for the port. (R105) -/
  | snsQueueSettings (p : Pkt)
  /-- LNK_PATTERN: Command that configures lane pattern generators and checkers. (R109) -/
  | lnkPattern (p : Pkt)
  /-- LNK_STATUS: Command that returns the port status registers. (R108) -/
  | lnkStatus (p : Pkt)
  /-- RAW_SET_LIN: Command that loads a linearisation table. (R113) -/
  | rawSetLin (p : Pkt)
  /-- RAW_SET_BLACK: Command that loads a black table and BLACK_ADJ. (R114) -/
  | rawSetBlack (p : Pkt)
  /-- RAW_SET_MERGE: Command that sets or arms the merge and ghost settings. (R126) -/
  | rawSetMerge (p : Pkt)
  /-- RAW_LOAD_DEFECTS: Command that loads the defect map and the dynamic defect settings. (R119) -/
  | rawLoadDefects (p : Pkt)
  /-- RAW_SET_FORMAT: Command that sets the storage format, lanes, line period and Press parameters. (R112) -/
  | rawSetFormat (p : Pkt)
  /-- RAW_GET_STATS: Command that returns the latched ingest statistics block. (R128) -/
  | rawGetStats (p : Pkt)
  /-- CTX_CONFIGURE: Command that writes the context size, budget and frame period to the shadow set. (R150) -/
  | ctxConfigure (p : Pkt)
  /-- CTX_COMMIT: Command that checks the shadow set and makes a pending committed image. (R134) -/
  | ctxCommit (p : Pkt)
  /-- CTX_START: Command that moves a context to RUNNING. (R133) -/
  | ctxStart (p : Pkt)
  /-- CTX_STOP: Command that schedules the end of capture or of processing. (R133) -/
  | ctxStop (p : Pkt)
  /-- CTX_SET_POLICY: Command that sets the policy and PRIO at once, subject to the load check. (R141) -/
  | ctxSetPolicy (p : Pkt)
  /-- CTX_PLAYBACK_SOURCE: Command that names the source of a playback context. (R147) -/
  | ctxPlaybackSource (p : Pkt)
  /-- CTX_STATUS: Command that returns the context status. (R150) -/
  | ctxStatus (p : Pkt)
  /-- CLR_SET_SHADING: Command that loads the shading grid and sets SHADE_EN. (R153) -/
  | clrSetShading (p : Pkt)
  /-- CLR_SET_WB_MATRIX: Command that sets the white balance, camera matrix, offsets and demosaic settings. (R182) -/
  | clrSetWbMatrix (p : Pkt)
  /-- CLR_SET_WORKSPACE: Command that sets the working space and the luma coefficients. (R160) -/
  | clrSetWorkspace (p : Pkt)
  /-- TAP_CONFIGURE: Command that writes the tap shadow settings and takes ownership of the engine. (R164) -/
  | tapConfigure (p : Pkt)
  /-- TAP_LOAD_LUT: Command that loads a shaper, 3D LUT, output LUT or scaler table into the shadow bank. (R180) -/
  | tapLoadLut (p : Pkt)
  /-- TAP_ENABLE: Command that sets the shadow enable of a tap. (R164) -/
  | tapEnable (p : Pkt)
  /-- TAP_DISABLE: Command that clears the shadow enable of a tap. (R182) -/
  | tapDisable (p : Pkt)
  /-- CLR_GET_ZONESTATS: Command that returns the latched zone statistics block. (R163) -/
  | clrGetZonestats (p : Pkt)
  /-- VLT_SET_LAYOUT: Command that sets W, RING_UNITS and EMB_SECT and clears the vault. (R184) -/
  | vltSetLayout (p : Pkt)
  /-- TAKE_OPEN: Command that opens a take and pins its frames. (R198) -/
  | takeOpen (p : Pkt)
  /-- TAKE_CLOSE: Command that closes a take at the newest assigned FID. (R199) -/
  | takeClose (p : Pkt)
  /-- VLT_PIN: Command that pins a range of FIDs of a sensor context. (R196) -/
  | vltPin (p : Pkt)
  /-- VLT_UNPIN: Command that frees a pin slot or a closed take slot. (R205) -/
  | vltUnpin (p : Pkt)
  /-- VLT_QUERY_FRAME: Command that returns the index information of a frame. (R205) -/
  | vltQueryFrame (p : Pkt)
  /-- VQ_CREATE_QUEUE: Command that creates a VQ submission and completion queue pair with its tag range. (R223) -/
  | vqCreateQueue (p : Pkt)
  /-- VQ_DELETE_QUEUE: Command that frees a queue pair that has no outstanding commands. (R239) -/
  | vqDeleteQueue (p : Pkt)
  /-- VQ_RESET_QUEUE: Command that ends every outstanding command of a pair and resets its indices. (R239) -/
  | vqResetQueue (p : Pkt)
  /-- VLT_SET_VPSTATE: Command that enters or leaves VP3 and sets AUTO_MAX. (R244) -/
  | vltSetVpstate (p : Pkt)
  /-- REC_CONFIG: Command that sets the REC button, UB and tally settings. (R454) -/
  | recConfig (p : Pkt)
  /-- CDC_STREAM_CREATE: Command that creates or replaces a stopped encode stream after checks. (R252) -/
  | cdcStreamCreate (p : Pkt)
  /-- CDC_STREAM_START: Command that starts a stream at the next slot with an IRAP. (R271) -/
  | cdcStreamStart (p : Pkt)
  /-- CDC_STREAM_STOP: Command that stops a stream after the picture in progress. (R271) -/
  | cdcStreamStop (p : Pkt)
  /-- CDC_SET_RATE: Command that changes TGT_BR, MAX_BR and CPB. (R271) -/
  | cdcSetRate (p : Pkt)
  /-- CDC_SET_ROI: Command that sets the ROI rectangles of a stream. (R262) -/
  | cdcSetRoi (p : Pkt)
  /-- CDC_FORCE_IRAP: Command that requests an IRAP picture. (R255) -/
  | cdcForceIrap (p : Pkt)
  /-- CDC_DECODE_OPEN: CDC_DECODE_SUBMIT action OPEN, which opens a decode session with its reservation. (R276) -/
  | cdcDecodeOpen (p : Pkt)
  /-- CDC_DECODE_DATA: CDC_DECODE_SUBMIT action DATA, which copies a bitstream chunk into the ring. (R277) -/
  | cdcDecodeData (p : Pkt)
  /-- CDC_DECODE_CLOSE: CDC_DECODE_SUBMIT action CLOSE, which drains or discards and closes a session. (R284) -/
  | cdcDecodeClose (p : Pkt)
  /-- SET_HOST: CDC_REF_MARK action that sets the HOST mark of a pool buffer. (R274) -/
  | setHost (p : Pkt)
  /-- CLEAR_HOST: CDC_REF_MARK action that clears the HOST mark. (R274) -/
  | clearHost (p : Pkt)
  /-- CLEAR_OUT: CDC_REF_MARK action that clears an OUT mark. (R274) -/
  | clearOut (p : Pkt)
  /-- CDC_STREAMER_TEMPLATE: Command that sets the streamer header template, PKT_MAX, sequence number and pacing. (R267) -/
  | cdcStreamerTemplate (p : Pkt)
  /-- CMP_CONFIGURE_LAYER: Command that writes the shadow settings of a layer or the Rind selections. (R308) -/
  | cmpConfigureLayer (p : Pkt)
  /-- CMP_LOAD_LUT: Command that loads a pre-blend or post-blend LUT. (R291) -/
  | cmpLoadLut (p : Pkt)
  /-- CMP_COMMIT: Command that checks the shadow and makes a commit set for the next latch. (R291) -/
  | cmpCommit (p : Pkt)
  /-- CMP_FLIP: Command that gives a MEM layer a new buffer, pending or deferred. (R293) -/
  | cmpFlip (p : Pkt)
  /-- CMP_SET_WRITEBACK: Command that sets the write-back shadow settings. (R302) -/
  | cmpSetWriteback (p : Pkt)
  /-- CMP_RIND_STATUS: Command that returns the Rind policy status. (R308) -/
  | cmpRindStatus (p : Pkt)
  /-- DSP_SET_TIMING: Command that sets a timing generator's raster, lock and timecode. (R310) -/
  | dspSetTiming (p : Pkt)
  /-- DSP_ROUTE: Command that sets the crossbar from composers to generators to ports. (R309) -/
  | dspRoute (p : Pkt)
  /-- DSP_PORT_ENABLE: Command that enables an output port. (R319) -/
  | dspPortEnable (p : Pkt)
  /-- DSP_PORT_DISABLE: Command that disables an output port. (R321) -/
  | dspPortDisable (p : Pkt)
  /-- DSP_DCS_XFER: Command that sends a DCS command to a DSI panel. (R318) -/
  | dspDcsXfer (p : Pkt)
  /-- DSP_SDI_ANC: Command that queues a host ancillary packet for SDI. (R316) -/
  | dspSdiAnc (p : Pkt)
  /-- DSP_STATUS: Command that returns port and generator status. (R321) -/
  | dspStatus (p : Pkt)
  /-- AUD_CONFIGURE_PORT: Command that configures a stopped audio port. (R337) -/
  | audConfigurePort (p : Pkt)
  /-- AUD_START: Command that starts the ports of a mask together at one instant. (R334) -/
  | audStart (p : Pkt)
  /-- AUD_STOP: Command that stops a port at its next block boundary. (R337) -/
  | audStop (p : Pkt)
  /-- AUD_SET_CHSTATUS: Command that sets the channel status of an AES3 output. (R324) -/
  | audSetChstatus (p : Pkt)
  /-- AUD_STATUS: Command that returns audio port status. (R337) -/
  | audStatus (p : Pkt)
  /-- TIM_SET_ADDEND: Command that sets the timebase ADDEND within 1,000 ppm. (R339) -/
  | timSetAddend (p : Pkt)
  /-- TIM_STEP: Command that steps the timebase, or is refused above TB_STEP_LIMIT without FORCE. (R343) -/
  | timStep (p : Pkt)
  /-- TIM_GET: Command that returns the timebase from one tick and the ADDEND. (R340) -/
  | timGet (p : Pkt)
  /-- FCG_CONFIGURE: Command that configures a frame cadence generator. (R346) -/
  | fcgConfigure (p : Pkt)
  /-- NET_CONFIGURE: Command that configures the network port, addresses and rings. (R347) -/
  | netConfigure (p : Pkt)
  /-- NET_LINK_CONTROL: Command that brings the network link up or down. (R353) -/
  | netLinkControl (p : Pkt)
  /-- NET_SET_PTP: Command that sets the board time-stamp adjustments. (R350) -/
  | netSetPtp (p : Pkt)
  /-- DFL_SUBMIT: Command that queues a DEFLATE job. (R354) -/
  | dflSubmit (p : Pkt)
  /-- DFL_RESUME: Command that queues the continuation of a resumable job. (R364) -/
  | dflResume (p : Pkt)
  /-- DFL_ABORT: Command that aborts a queued or running DEFLATE job. (R366) -/
  | dflAbort (p : Pkt)
  /-- DFL_STATUS: Command that returns the state of a DEFLATE job. (R368) -/
  | dflStatus (p : Pkt)
  /-- PWR_SET_INPUT_LIMIT: Command that sets the host power limit and VIN_WARN_MV. (R391) -/
  | pwrSetInputLimit (p : Pkt)
  /-- PWR_AX_CONFIGURE: Command that configures an accessory port. (R381) -/
  | pwrAxConfigure (p : Pkt)
  /-- PWR_AX_SWITCH: Command that turns an accessory port on or off. (R381) -/
  | pwrAxSwitch (p : Pkt)
  /-- PWR_GET_HK: Command that returns one complete housekeeping round and the budget figures. (R398) -/
  | pwrGetHk (p : Pkt)
  /-- THM_GET_BAND: Command that returns the band, temperature and band settings. (R398) -/
  | thmGetBand (p : Pkt)
  /-- TST_RUN_ANALOGUE: Command that starts an analogue test item. (R410) -/
  | tstRunAnalogue (p : Pkt)
  /-- TST_RUN_LBIST: Command that starts a logic BIST run over partitions. (R412) -/
  | tstRunLbist (p : Pkt)
  /-- TST_RUN_MBIST: Command that starts SRAM MBIST, with optional repair. (R415) -/
  | tstRunMbist (p : Pkt)
  /-- TST_GET_RESULT: Command that returns the result of a held test run. (R421) -/
  | tstGetResult (p : Pkt)
  /-- TST_SET_TMUX: Command that sets the test multiplexer selection. (R420) -/
  | tstSetTmux (p : Pkt)
  /-- RPR_GET_STATUS: Command that returns the repair status per unit. (R421) -/
  | rprGetStatus (p : Pkt)
  /-- RPR_COMMIT_PPR: Command that turns soft DRAM repairs into hard repairs and clears the vault. (R417) -/
  | rprCommitPpr (p : Pkt)
  /-- MBX_BIND: Command that binds a mailbox channel to two masters. (R76) -/
  | mbxBind (p : Pkt)
  /-- MBX_LOCK: Command that locks the mailbox binding table. (R76) -/
  | mbxLock (p : Pkt)
  /-- DLT_REFRESH: Command that republishes the DLT and writes an export. (R68) -/
  | dltRefresh (p : Pkt)
  /-- SEM_FORCE_RELEASE: Command that frees semaphores whatever their owner. (R82) -/
  | semForceRelease (p : Pkt)
  /-- PACKET_FETCH: CMD fetches the next packet of a ring, makes the header checks and starts it. (R25) -/
  | packetFetch (ring : Fin 4) (slot : Slot)
  /-- PACKET_COMPLETE: A firmware-path packet finishes and its reply is written. (R34) -/
  | packetComplete (ring : Fin 4) (seq : W32)
  /-- REPLY_BOUND_EXPIRY: The bound of a started packet expires and a TIMEOUT reply is written. (R41) -/
  | replyBoundExpiry (ring : Fin 4) (seq : W32) (opcode : BitVec 16)
  /-- CMD_LATE_DONE: A packet that received TIMEOUT with LATE_POSSIBLE completes and its outcome is logged. (R41) -/
  | cmdLateDone (ring : Fin 4) (seq : W32)
  /-- FWQ_URGENT_AGE: A packet that has waited 20 ms in the firmware queue becomes urgent. (R37) -/
  | fwqUrgentAge (ring : Fin 4) (seq : W32)
  /-- CMD_RP_STALL: A reply ring stays full for more than 10 ms and the event is raised. (R32) -/
  | cmdRpStall (ring : Fin 4)
  /-- CMD_DB: Host write of a new tail index to a command ring doorbell. (R24) -/
  | cmdDb (ring : Fin 4) (v : W32)
  /-- CMD_RP_HEAD: Host write that returns reply slots and lets pending replies and starts proceed. (R32) -/
  | cmdRpHead (ring : Fin 4) (v : W32)
  /-- REGISTER_WRITE: Host write to a register that has no row of its own, under its access code. (R9) -/
  | registerWrite (master : Byte) (loc : Loc) (v : W32)
  /-- READ_CLEAR: Read of an RC register, which returns the value and clears it. (R9) -/
  | readClear (master : Byte) (loc : Loc)
  /-- LOW_WORD_READ: Read of the low word of a 64-bit pair, which latches the high word. (R6) -/
  | lowWordRead (master : Byte) (loc : Loc)
  /-- MSIX_UNMASK: Host unmasks an MSI-X vector and a pending message is sent. (R64) -/
  | msixUnmask (v : Fin 64)
  /-- TX_DATA: Write that queues one mailbox word toward the other side, or is dropped when full. (R77) -/
  | txData (m : Byte) (ch : Fin 16) (w : W32)
  /-- RX_WORD_LO: Read that pops the oldest mailbox word and latches its flags. (R80) -/
  | rxWordLo (m : Byte) (ch : Fin 16)
  /-- SEM_ACQUIRE: Read of SEMn_ACQ, which acquires a free semaphore or returns the owner. (R81) -/
  | semAcquire (m : Byte) (n : Fin 32)
  /-- SEM_RELEASE: Write of SEMn_REL, which frees the semaphore if written by its owner. (R82) -/
  | semRelease (m : Byte) (n : Fin 32)
  /-- MBX_CTRL_LOCK: Write of 1 to MBX_CTRL.LOCK, which locks the binding table. (R76) -/
  | mbxCtrlLock
  /-- MBX_TMO: A mailbox word stays unread longer than TMO_US. (R78) -/
  | mbxTmo (ch : Fin 16) (toB : Bool)
  /-- CORE_RESET: A control core is reset, a master reset for its mailboxes and semaphores. (R79) -/
  | coreReset (core : Fin 4)
  /-- HVM_BRIDGE_RESTART: The HVM bridge restarts, a master reset for its mailboxes and semaphores. (R79) -/
  | hvmBridgeRestart
  /-- INJECT_SINGLE: Write of SINGLE that inverts the next generated pattern bit. (R110) -/
  | injectSingle (lane : Fin 24)
  /-- INJECT_BURST: Write of BURST that inverts the next BURST_LEN + 1 generated bits. (R110) -/
  | injectBurst (lane : Fin 24) (len : Fin 64)
  /-- TAP_HOLD_SET: Host write that sets HOLD bits of tap buffers. (R177) -/
  | tapHoldSet (tap : Fin 10) (v : W32)
  /-- WB_HOLD_SET: Host write that sets HOLD bits of write-back buffers. (R302) -/
  | wbHoldSet (composer : Fin 4) (v : W32)
  /-- DLY_LOCK: Write of 1 to DMC_CTRL.DLY_LOCK, which locks the delays and offsets. (R375) -/
  | dlyLock
  /-- EVT_ERR_CLEAR: Write that empties the error log. (R427) -/
  | evtErrClear
  /-- TIM_NOW_NS: Read that samples the whole timebase at one tick and latches epoch and fraction. (R340) -/
  | timNowNs (master : Byte)
  /-- TST_START_ANALOGUE: TST_CTRL.START with KIND analogue, which starts an analogue test. (R408) -/
  | tstStartAnalogue (master : Byte) (item : BitVec 6)
  /-- TST_START_LBIST: TST_CTRL.START with KIND logic BIST, which starts a logic BIST run. (R408) -/
  | tstStartLbist (master : Byte) (item : BitVec 6)
  /-- TST_START_MBIST: TST_CTRL.START with KIND MBIST, which starts an MBIST run. (R408) -/
  | tstStartMbist (master : Byte) (item : BitVec 6)
  /-- TST_ADMIT_EXPIRY: A register-started test is not admitted within 2 ms and ends DEFERRED. (R409) -/
  | tstAdmitExpiry
  /-- TEST_DONE: A running test ends and posts its result. (R411) -/
  | testDone (e : TestEnd)
  /-- VQ_SQ_DB: Host write of a new tail to a VQ submission queue doorbell. (R225) -/
  | vqSqDb (pair : Fin 16) (v : W32)
  /-- VQ_CQ_HEAD: Host write that returns VQ completion slots. (R231) -/
  | vqCqHead (pair : Fin 16) (v : W32)
  /-- VQ_NOP: Fetched VQ command NOP. (R227) -/
  | vqNop (pair : Fin 16) (slot : VqSlot)
  /-- VQ_READ: Fetched VQ command READ, which copies sectors to host memory. (R228) -/
  | vqRead (pair : Fin 16) (slot : VqSlot)
  /-- VQ_WRITE: Fetched VQ command WRITE, which copies host data into the working region. (R228) -/
  | vqWrite (pair : Fin 16) (slot : VqSlot)
  /-- VQ_COPY: Fetched VQ command COPY between sector ranges. (R228) -/
  | vqCopy (pair : Fin 16) (slot : VqSlot)
  /-- VQ_READ_FRAME: Fetched VQ command READ_FRAME, which copies part of a frame record with generation checks. (R229) -/
  | vqReadFrame (pair : Fin 16) (slot : VqSlot)
  /-- VQ_FLUSH: Fetched VQ command FLUSH, which completes after earlier writes are accepted. (R238) -/
  | vqFlush (pair : Fin 16) (slot : VqSlot)
  /-- VQ_ABORT: Fetched VQ command ABORT, which ends the command holding ATAG. (R237) -/
  | vqAbort (pair : Fin 16) (slot : VqSlot) (target : AbortAt)
  /-- VQ_CMD_START: A waiting VQ command is granted FENCE, admission and Hoop entries and starts. (R225) -/
  | vqCmdStart (pair : Fin 16) (target : AbortAt)
  /-- VQ_TRANSFER_DONE: A started VQ command finishes its transfer and its completion is posted. (R230) -/
  | vqTransferDone (pair : Fin 16) (tag : BitVec 13) (data : HostRead) (moved : Nat)
  /-- VQ_CPL_POST: A finished command waiting for CQ room posts its completion once room returns. (R231) -/
  | vqCplPost (pair : Fin 16)
  /-- VQ_DEFER_EXPIRY: A bulk command is not admitted within DEFER_MS and completes THERMAL_DEFERRED. (R235) -/
  | vqDeferExpiry (pair : Fin 16) (tag : BitVec 13)
  /-- VQ_TMO_EXPIRY: A started command exceeds TMO_MS and completes TIMEOUT. (R236) -/
  | vqTmoExpiry (pair : Fin 16) (tag : BitVec 13) (moved : Nat) (data : HostRead)
  /-- VQ_CQ_STALL: A completion queue stays full for more than 10 ms. (R231) -/
  | vqCqStall (pair : Fin 16)
  /-- MEMRD: CXL.mem MemRd request, which returns vault data. (R55) -/
  | memrd (addr : Nat)
  /-- MEMRDDATA: CXL.mem MemRdData request, which returns vault data. (R55) -/
  | memrddata (addr : Nat)
  /-- MEMINV: CXL.mem MemInv request. (R55) -/
  | meminv (addr : Nat)
  /-- MEMSPECRD: CXL.mem MemSpecRd request, accepted and possibly dropped. (R55) -/
  | memspecrd (addr : Nat)
  /-- MEMWR: CXL.mem MemWr request, which writes the working region or is discarded for the ring region. (R55) -/
  | memwr (addr : Nat) (data : List Byte)
  /-- MEMWRPTL: CXL.mem MemWrPtl request, handled as MemWr for part of a line. (R55) -/
  | memwrptl (addr : Nat) (data : List Byte) (mask : BitVec 64)
  /-- HDM_COMMIT: Host commits an HDM decoder, which fails unless it maps its region exactly. (R54) -/
  | hdmCommit (dec : Fin 2) (base size ways : Nat)
  /-- SNPINV: Host snoop of a fence line, after which the device re-reads and evaluates the fence. (R59) -/
  | snpinv (line : BitVec 58) (data : HostRead)
  /-- FENCE_POLL: In PCIe fallback, a fence word is polled every 20 µs. (R63) -/
  | fencePoll (addr : BitVec 64) (data : HostRead)
  /-- DMA_READ_ERROR: A DMA read ends in error, failing only the issuing operation. (R62) -/
  | dmaReadError (src : Fin 24) (who : BitVec 16) (addr : Nat) (poisoned : Bool)
  /-- CACHE_WRITE_ERROR: A CXL.cache write receives an error response and is dropped. (R62) -/
  | cacheWriteError (src : Fin 24) (who : BitVec 16) (addr : Nat)
  /-- LINK_TRAINING_DONE: The host link finishes training and its mode is reported. (R50) -/
  | linkTrainingDone (full : Bool) (width : Nat) (rate : Nat)
  /-- LINK_DOWN: The host link goes down; the device logs it and retrains. (R50) -/
  | linkDown
  /-- FLR: Function-level reset, which resets host-facing state only. (R47) -/
  | flr
  /-- PERST_N_ASSERT: PERST_N asserted; writes complete, the post-mortem copy is made and DRAM enters self-refresh. (R203) -/
  | perstNAssert
  /-- WARM_BOOT: Boot after PERST_N, DEV_RESET or PS2 wake, with the vault retained or cleared. (R400) -/
  | warmBoot (rep : BootRep)
  /-- COLD_BOOT: Boot after VIN rises through UVLO or a PS3 wake. (R399) -/
  | coldBoot (rep : BootRep)
  /-- WAKE: PERST_N rising or REC_N wakes the device from PS2 or PS3. (R397) -/
  | wake (recPin early : Bool)
  /-- FW_RUN_STATE: The new image reaches its run state and activation finishes. (R406) -/
  | fwRunState
  /-- FW_ACTIVATE_TIMEOUT: The new image does not run within 2 s and the old image is restored. (R406) -/
  | fwActivateTimeout
  /-- UVLO: VIN falls below UVLO; rails and AX ports turn off. (R380) -/
  | uvlo
  /-- OVLO: VIN rises above OVLO; the input stage opens. (R380) -/
  | ovlo
  /-- VIN_WARN: VIN crosses the VIN_WARN threshold, setting or clearing VIN_LOW. (R380) -/
  | vinWarn (falling : Bool)
  /-- REC_PRESS: Debounced press of REC_N or a UB input with function REC. (R201) -/
  | recPress (src : Fin 3)
  /-- REC_RELEASE: Debounced release of REC_N in HOLD mode, which closes the REC take. (R201) -/
  | recRelease (src : Fin 3)
  /-- UB_MARK: Debounced press of a UB input with function MARK, which logs REC_MARK entries. (R201) -/
  | ubMark (ub : Fin 2)
  /-- REC_FAIL_FLASH_END: The 2 s REC_FAIL tally flash ends. (R202) -/
  | recFailFlashEnd
  /-- COMMA: A comma arrives on a lane, driving alignment, deskew and equaliser presets. (R90) -/
  | comma (lane : Fin 24) (at_ : Nat) (bits : List Bool)
  /-- CDR_LOCK_LOSS: A lane's CDR loses lock and the lane and port lose alignment. (R90) -/
  | cdrLockLoss (lane : Fin 24)
  /-- LINK_WORD: The link word of an interval is received and checked. (R92) -/
  | linkWord (port : Fin 4)
  /-- IDLE: An IDLE packet is received. (R95) -/
  | idle (port : Fin 4)
  /-- FRAME_START: A FRAME_START packet is accepted; the frame is stamped, given a FID and placed. (R98) -/
  | frameStart (port : Fin 4)
  /-- FRAME_END: A FRAME_END packet is accepted and the ingest boundary falls. (R14) -/
  | frameEnd (port : Fin 4)
  /-- LINE_START: A LINE_START packet is accepted and stamped, and starts any settings write at SET_LINE. (R97) -/
  | lineStart (port : Fin 4)
  /-- LINE_DATA: A LINE_DATA packet is accepted and unpacked into the front-end. (R96) -/
  | lineData (port : Fin 4) (full : Bool)
  /-- LINE_END: A LINE_END packet is accepted and the line is completed. (R97) -/
  | lineEnd (port : Fin 4)
  /-- EMBEDDED: An EMBEDDED packet is accepted and stored in the frame record. (R186) -/
  | embedded (port : Fin 4)
  /-- FRAME_TIMEOUT: No word of the frame arrives for FRAME_TMO and the frame is truncated. (R99) -/
  | frameTimeout (port : Fin 4)
  /-- LNK_LOCK_TIMEOUT: LNK_START finds no lock within 50 ms. (R108) -/
  | lnkLockTimeout (port : Fin 4)
  /-- SNS_XFER_START: A waiting control transfer starts once it can end before the next SET_LINE. (R104) -/
  | snsXferStart (port : Fin 4)
  /-- SNS_XFER_DONE: A control channel transfer ends, or ends on NACK or stretch limit. (R103) -/
  | snsXferDone (port : Fin 4) (e : XferEnd)
  /-- SETTINGS_WRITE_DONE: A settings write completes and its tag takes effect for frame N + K. (R105) -/
  | settingsWriteDone (port : Fin 4) (e : XferEnd)
  /-- SET_WINDOW_EXPIRY: SET_WINDOW_US passes with the write unstarted or unfinished, raising SET_LATE. (R106) -/
  | setWindowExpiry (port : Fin 4)
  /-- TRG_ASSERT: TRGp is asserted DELAY_NS after a cadence tick. (R107) -/
  | trgAssert (port : Fin 4)
  /-- TRG_DEASSERT: A PULSE-mode trigger ends after WIDTH_NS. (R107) -/
  | trgDeassert (port : Fin 4)
  /-- STRIPE_LANDED: The DMC accepts a stripe's last line; the write pointer passes it and it lands. (R122) -/
  | stripeLanded (port : Fin 4)
  /-- STRIPE_START: The pipeline is free and the Ladle starts the ready head with the earliest deadline. (R140) -/
  | stripeStart
  /-- STRIPE_DONE: A stripe leaves the colour pipeline, possibly late. (R143) -/
  | stripeDone
  /-- LADLE_TRIGGER: A ready head has not started by its trigger time and a victim frame is skipped. (R143) -/
  | ladleTrigger (ctx : Fin 6)
  /-- READBACK_STALE: A stripe read-back completes STALE and the frame is abandoned. (R145) -/
  | readbackStale (ctx : Fin 6)
  /-- PACE_TICK: A free-running playback pace tick starts the next playback frame. (R147) -/
  | paceTick (pc : Fin 2)
  /-- VP1_ENTRY: After 1 ms with no request the vault enters VP1. (R379) -/
  | vp1Entry (request : Bool)
  /-- VP2_ENTRY: After DMC_SR_IDLE with no request the vault enters self-refresh. (R379) -/
  | vp2Entry (request : Bool)
  /-- PE_ROW_START: The pixel engine takes an eligible CTU row of a stream or decode job. (R253) -/
  | peRowStart
  /-- PE_ROW_DONE: The pixel engine finishes a CTU row and the row goes to entropy coding. (R258) -/
  | peRowDone (r : RowOut)
  /-- ENTROPY_SLICE_DONE: An entropy engine finishes a slice and the emission unit is output in order. (R246) -/
  | entropySliceDone (o : EntropyOut)
  /-- SPOOL_DRAIN: Spooled emission units are written once the host rings have room. (R265) -/
  | spoolDrain (stream : Fin 16)
  /-- CDC_DR_HEAD: Host write that returns data-ring space. (R264) -/
  | cdcDrHead (stream : Fin 16) (v : W32)
  /-- CDC_DD_HEAD: Host write that returns descriptor-ring space. (R264) -/
  | cdcDdHead (stream : Fin 16) (v : W32)
  /-- CDC_RING_STALL: A host slice ring stays full for more than 10 ms. (R265) -/
  | cdcRingStall (stream : Fin 16)
  /-- STREAMER_SEND: The streamer sends the next RTP packet under its token bucket. (R269) -/
  | streamerSend (stream : Fin 16)
  /-- DECODE_PICTURE_END: A decoded picture ends and its damaged CTUs are concealed. (R283) -/
  | decodePictureEnd (session : Fin 2)
  /-- DECODE_OUTPUT: A decoded picture is output and its report written. (R280) -/
  | decodeOutput (session : Fin 2)
  /-- POOL_WAIT_END: A decode session waiting for a FREE pool buffer proceeds once a mark clears. (R275) -/
  | poolWaitEnd (session : Fin 2)
  /-- CDC_DEC_STALL: A decode session has waited 10 ms for a pool buffer. (R275) -/
  | cdcDecStall (session : Fin 2)
  /-- CMP_LATCH: A composer latches buffers, commit set, write-back and Rind for its next frame. (R292) -/
  | cmpLatch (composer : Fin 4) (line : BitVec 16) (torn : BitVec 8)
  /-- FENCE_TIMEOUT: A flip with WAIT is abandoned after FENCE_TMO_MS. (R296) -/
  | fenceTimeout (composer : Fin 4) (layer : Fin 8) (tag : BitVec 16)
  /-- VBLANK_START: A timing generator starts vertical blanking; pending timing changes take effect. (R310) -/
  | vblankStart (t : Fin 4) (phase : W32) (torn : BitVec 8)
  /-- HOTPLUG: A port's debounced presence changes. (R319) -/
  | hotplug (port : Fin 4) (present : Bool)
  /-- DCS_XFER_RUN: A waiting DCS transfer runs in vertical blanking. (R318) -/
  | dcsXferRun (port : Fin 4) (acked : Bool) (report : W32) (data : List Byte)
  /-- AUD_BLOCK_BOUNDARY: An audio port reaches a block boundary and stamps it. (R327) -/
  | audBlockBoundary (port : Fin 8) (ppm : Int)
  /-- PLAY_FETCH: An output port fetches its play-ring slot a quarter block early, or underruns. (R331) -/
  | playFetch (port : Fin 8)
  /-- AUD_FRAME_IN: An input port receives an audio frame into its capture path. (R328) -/
  | audFrameIn (port : Fin 8) (slotA slotB : W32) (full : Bool)
  /-- AUD_START_INSTANT: The scheduled start time or FCG tick of AUD_START arrives. (R334) -/
  | audStartInstant
  /-- AUD_CLOCK_STOP: No external clock edge for 1 ms; the port enters holdover. (R335) -/
  | audClockStop (port : Fin 8)
  /-- AUD_GLITCH: A malformed frame or misplaced preamble is detected. (R335) -/
  | audGlitch (port : Fin 8)
  /-- AUD_RATE_CHANGE: The external rate deviates more than 1,000 ppm over a block. (R335) -/
  | audRateChange (port : Fin 8)
  /-- HOLDOVER_EXIT: A valid clock has been present for a block and the port leaves holdover. (R335) -/
  | holdoverExit (port : Fin 8)
  /-- TB_WRAP: The ns count carries, TB_EPOCH increments and the event is raised. (R338) -/
  | tbWrap
  /-- FCG_TICK: A frame cadence generator fires a grid tick to its consumers. (R345) -/
  | fcgTick (fcg : Fin 4)
  /-- NET_RX_FRAME: A network frame is received, stamped and delivered or dropped. (R350) -/
  | netRxFrame (frame : List Byte) (fcsOk : Bool) (desc : HostRead)
  /-- NET_TX_EGRESS: A transmit frame leaves, stamped and one-step corrected, and is written back. (R352) -/
  | netTxEgress (queue : Fin 2) (fetch : List NetFetch)
  /-- NET_LAUNCH: A held TQ0 frame reaches its LAUNCH time. (R351) -/
  | netLaunch
  /-- NET_LINK_CHANGE: The network link goes up or down. (R348) -/
  | netLinkChange (up : Bool) (fetch0 : List NetFetch) (fetch1 : List NetFetch)
  /-- NET_DB: Host write of a new tail to a network ring doorbell. (R348) -/
  | netDb (ring : Fin 3) (v : W32) (fetch : List NetFetch)
  /-- DFL_JOB_START: An admitted DEFLATE job starts on the first free engine. (R355) -/
  | dflJobStart (src : HostRead) (list : HostRead) (st : HostRead)
  /-- DFL_JOB_END: A DEFLATE job ends and writes its completion record. (R365) -/
  | dflJobEnd (engine : Fin 2)
  /-- DFL_DEFER_EXPIRY: A job not admitted within DEFER_MS ends THERMAL_DEFERRED. (R355) -/
  | dflDeferExpiry (tag : BitVec 16)
  /-- DMC_REFRESH: A per-bank refresh interval elapses on a channel. (R373) -/
  | dmcRefresh (chan : Fin 32) (wait : Bool)
  /-- DMC_UNCORRECTABLE: A read with an uncorrectable error is retried, then poisoned and the row made suspect. (R377) -/
  | dmcUncorrectable (dpa : Nat) (fails corrected : Bool)
  /-- SUSPECT_APPEND: Firmware appends a suspect row to the flash repair records. (R377) -/
  | suspectAppend (row : Fin 32)
  /-- DMC_DELAY_PASS: The DMC finishes applying new band delay offsets channel by channel. (R376) -/
  | dmcDelayPass
  /-- HK_ROUND_COMPLETE: A housekeeping round completes and its values are checked and published. (R385) -/
  | hkRoundComplete (v : Vector (BitVec 16) 16)
  /-- BUDGET_TICK: The 1 ms budget tick computes headroom, moves the ladder and admits B jobs. (R391) -/
  | budgetTick (t : DmcTick)
  /-- AX_TRIP: An accessory port's overcurrent opens the switch. (R383) -/
  | axTrip (port : Fin 4) (off : Bool)
  /-- AX_RETRY_EXPIRY: A RETRY_WAIT period ends and the port turns ON again. (R383) -/
  | axRetryExpiry (port : Fin 4)
  /-- AX_RETRY_RESET: A port that stays ON for 10 s has its retry count reset. (R383) -/
  | axRetryReset (port : Fin 4)
  /-- AX_LOAD_CHANGE: Accessory load presence changes, possibly turning the port OFF. (R382) -/
  | axLoadChange (port : Fin 4) (present : Bool)
  /-- AX_REVERSE_CURRENT: Reverse voltage on an AX output opens the switch until it clears. (R439) -/
  | axReverseCurrent (port : Fin 4)
  /-- HCRC_FAIL: A packet header word arrives whose HCRC fails; words are discarded and the port enters RESYNC. (R99) -/
  | hcrcFail (port : Fin 4)
  /-- RESERVED_TYPE_PACKET: A packet with a valid HCRC and a reserved TYPE is received and skipped with TYPE_ERR set. (R95) -/
  | reservedTypePacket (port : Fin 4)
  /-- PAT_SYNC_CHANGE: A lane pattern checker gains PAT_SYNC after 64 correct bits, or loses it after 16 errors in 64 bits and reseeds. (R109) -/
  | patSyncChange (lane : Fin 24) (bits : List Bool)
  /-- OVLO_EXIT: VIN falls back below the OVLO falling threshold and the module restarts as from below UVLO. (R380) -/
  | ovloExit
  /-- AX_REVERSE_CLEAR: AXn_OUT falls back below VIN and the switch opened by reverse current closes again. (R439) -/
  | axReverseClear (port : Fin 4)
  /-- AX_LIMITING: An ON port's current rises above or falls below LIMIT, starting or ending current regulation and LIMITING. (R383) -/
  | axLimiting (port : Fin 4) (above : Bool)
  /-- LNK_STOP_WAIT_EXPIRY: FRAME_TMO passes after LNK_STOP without IMMEDIATE while the frame in progress has not closed, and EN is cleared. (R108) -/
  | lnkStopWaitExpiry (port : Fin 4)
  /-- DOE_REQUEST: The host exchanges a DOE request and the device returns its CDAT with latency and bandwidth figures. (R58) -/
  | doeRequest
  /-- LINK_CRC_ERROR: A link CRC error or flit replay occurs and is reported as a counted correctable AER error. (R65) -/
  | linkCrcError
  /-- CXL_CACHE_PROTOCOL_ERROR: A CXL.cache protocol error arrives from the host and is reported as RAS uncorrectable parity. (R65) -/
  | cxlCacheProtocolError (inAddr : Bool)
deriving DecidableEq, Repr

end Sys2Proof
end

