-- ==== Sys2Proof/Decode.lean ====
section
/-!
DEFINITION. The command a word spells. No row of spec/opcode_table.json has bits: the commands are packets, register
accesses, bus requests and events, not words.
-/
namespace Sys2Proof

/-- The command that the word `w` of `nbits` bits spells: none, since the table gives no row bits. -/
def decodeTableWord (_nbits _w : Nat) : Option Instr := none

end Sys2Proof
end

