-- ==== Sys2Proof/Machine/Bits.lean ====
section
/-!
DEFINITION. Bit ranges, little-endian byte order, two's complement and sequence numbers (spec/00_scope.md, R3; spec/23, R430).
-/
namespace Sys2Proof

/-- Bits `[lo + w - 1 : lo]` of `v`, as a number. -/
def bitsAt (v lo w : Nat) : Nat := (v >>> lo) % 2 ^ w

/-- `v` with the `w` bits at `lo` replaced by those of `x`. -/
def putBits (v lo w x : Nat) : Nat := v - bitsAt v lo w * 2 ^ lo + (x % 2 ^ w) * 2 ^ lo

/-- Bit `i` of `v`. -/
def bitAt (v i : Nat) : Bool := (v >>> i) % 2 == 1

/-- A Bool as a bit. -/
def b2n (b : Bool) : Nat := if b then 1 else 0

/-- The `n` bytes of `v`, least significant first (R3). -/
def leBytes : Nat → Nat → List Byte
  | 0, _ => []
  | n + 1, v => BitVec.ofNat 8 v :: leBytes n (v / 256)

/-- The number that little-endian bytes spell (R3). -/
def leNat : List Byte → Nat
  | [] => 0
  | b :: t => b.toNat + 256 * leNat t

/-- The two's-complement value of the low `w` bits of `v`. -/
def sext (w v : Nat) : Int :=
  let u := v % 2 ^ w
  if u < 2 ^ (w - 1) then u else (u : Int) - 2 ^ w

/-- An integer as a `w`-bit two's-complement field. -/
def ofInt (w : Nat) (i : Int) : Nat := (i % 2 ^ w).toNat

/-- `a` precedes `b` as 32-bit sequence numbers (spec/23_events_guarantees.md, R430). -/
def serialLt (a b : Nat) : Bool := (a + 2 ^ 32 - b % 2 ^ 32) % 2 ^ 32 ≥ 2 ^ 31

/-- How far 32-bit counter value `now` is past `t`. -/
def serialAge (now t : Nat) : Nat := (now + 0x100000000 - t) % 0x100000000

/-- `⌈a / b⌉`. -/
def ceilDiv (a b : Nat) : Nat := (a + b - 1) / b

/-- A value held between two limits. -/
def clampN (lo hi v : Nat) : Nat := if v < lo then lo else if hi < v then hi else v
def clampI (lo hi v : Int) : Int := if v < lo then lo else if hi < v then hi else v

end Sys2Proof
end

