-- ==== Sys2Proof/Machine/Crc.lean ====
section
/-!
DEFINITION. The cyclic redundancy checks of the spec, bit by bit: CRC-16 of packet headers and link words (spec/05,
R93), CRC-32 of IEEE 802.3 (spec/04, Table 4-1; spec/05, R94), CRC-64/ECMA-182 of fingerprints (spec/04, R73), CRC-8
of the Press, and Adler-32.
-/
namespace Sys2Proof.Machine
open Sys2Proof

/-- Shift `n` bits of a `w`-bit register left, dividing by `poly`; no reflection. -/
def crcShift (w poly : Nat) : Nat → Nat → Nat
  | 0, c => c
  | n + 1, c =>
    let c' := (c <<< 1) % 2 ^ w
    crcShift w poly n (if c >>> (w - 1) == 1 then c' ^^^ poly else c')

/-- A non-reflected CRC of width `w` over bytes, from register value `c`. -/
def crcBytes (w poly : Nat) (c : Nat) (bs : List Byte) : Nat :=
  bs.foldl (fun c b => crcShift w poly 8 (c ^^^ (b.toNat <<< (w - 8)))) c

/-- Shift `n` bits of a reflected CRC register right. -/
def crcShiftR (poly : Nat) : Nat → Nat → Nat
  | 0, c => c
  | n + 1, c => crcShiftR poly n (if c % 2 == 1 then (c >>> 1) ^^^ poly else c >>> 1)

/-- CRC-16, polynomial 0x1021, initial value 0xFFFF (R93). -/
def crc16 (bs : List Byte) : Nat := crcBytes 16 0x1021 0xFFFF bs

/-- The register of the reflected CRC-32 of IEEE 802.3 after `bs`. -/
def crc32Run (c : Nat) (bs : List Byte) : Nat :=
  bs.foldl (fun c b => crcShiftR 0xEDB88320 8 (c ^^^ b.toNat)) c

/-- CRC-32 of IEEE 802.3: reflected, initial value and final XOR 0xFFFF_FFFF (Table 4-1). -/
def crc32 (bs : List Byte) : Nat := crc32Run 0xFFFFFFFF bs ^^^ 0xFFFFFFFF

/-- CRC-64/ECMA-182 (R73). -/
def crc64 (bs : List Byte) : BitVec 64 := BitVec.ofNat 64 (crcBytes 64 0x42F0E1EBA9EA3693 0 bs)

/-- CRC-64 over 32-bit words in little-endian byte order (R73). -/
def crc64Words (ws : List Nat) : BitVec 64 := crc64 (ws.flatMap (leBytes 4))

/-- Adler-32 over bytes (RFC 1950). -/
def adler32 (bs : List Byte) : Nat :=
  let r := bs.foldl (fun (p : Nat × Nat) b => let a := (p.1 + b.toNat) % 65521; (a, (p.2 + a) % 65521)) (1, 0)
  r.2 * 65536 + r.1

end Sys2Proof.Machine
end

