-- ==== Sys2Proof/Machine/Layout.lean ====
section
/-!
DEFINITION. The layout of the vault: the default units, the rings and their spill reserves (spec/09_frame_vault.md, Table 9-1, R184).
-/
namespace Sys2Proof.Machine
open Sys2Proof

/-- RING_UNITS of the default layout: the sensor contexts share what a working region of 16 GiB, the index area and one
unit for each playback context leave (R184). -/
def defaultUnits (usable : Nat) : List Nat :=
  let a := usable - 16 * 0x40000 - 0x8000
  List.replicate 4 ((a - 132384) / 264768) ++ [1, 1]

/-- Sectors of a ring and of its spill reserve. -/
def ringSect (units : Nat) : Nat := units * 0x10000
def spillSect (units : Nat) : Nat := ceilDiv (ringSect units) 100

/-- First sector of each ring, the first at `base` (Table 9-1). -/
def ringBases : Nat → List Nat → List Nat
  | _, [] => []
  | base, u :: t => base :: ringBases (base + ringSect u + spillSect u) t

end Sys2Proof.Machine
end

