-- ==== Sys2Proof/Machine/Regs.lean ====
section
/-!
DEFINITION. The BAR0 register map: one address function per register of the chapters of spec/, one field
descriptor per named field (bit positions as the register tables give them; `REG__FIELD`), and the table of
reset values and access codes (spec/00_scope.md, R8, R9 and Table 0-4). Offsets are those of stepping B1 (R4).
-/
namespace Sys2Proof.Machine
open Sys2Proof

/-- A field of a register: BAR0 offset, lowest bit, width. -/
structure Fld where
  addr : Nat
  lo : Nat
  w : Nat
deriving DecidableEq, Repr

/-- A register of the map, repeated `n1` times at stride `s1` and within each `n2` times at stride `s2`: its
reset value and the masks of its RW, RW1C, RC, WO and RWL bits (every other bit is RO or reserved). -/
structure RegDef where
  name : String
  base : Nat
  s1 : Nat
  n1 : Nat
  s2 : Nat
  n2 : Nat
  rst : Nat
  rw : Nat
  w1c : Nat
  rc : Nat
  wo : Nat
  rwl : Nat
deriving DecidableEq, Repr

/-- `CMD_CRn_BASE_LO`. -/
def CMD_CR_BASE_LO (n : Nat) : Nat := 0x100000 + 0x40 * n
def CMD_CR_BASE_LO__BASE_LO (n : Nat) : Fld := ⟨CMD_CR_BASE_LO n, 12, 20⟩
/-- `CMD_CRn_BASE_HI`. -/
def CMD_CR_BASE_HI (n : Nat) : Nat := 0x100004 + 0x40 * n
/-- `CMD_CRn_CFG`. -/
def CMD_CR_CFG (n : Nat) : Nat := 0x100008 + 0x40 * n
def CMD_CR_CFG__LOG2N (n : Nat) : Fld := ⟨CMD_CR_CFG n, 4, 4⟩
def CMD_CR_CFG__PLOC (n : Nat) : Fld := ⟨CMD_CR_CFG n, 2, 1⟩
def CMD_CR_CFG__CLOC (n : Nat) : Fld := ⟨CMD_CR_CFG n, 1, 1⟩
def CMD_CR_CFG__EN (n : Nat) : Fld := ⟨CMD_CR_CFG n, 0, 1⟩
/-- `CMD_CRn_HEAD`. -/
def CMD_CR_HEAD (n : Nat) : Nat := 0x10000C + 0x40 * n
def CMD_CR_HEAD__HEAD (n : Nat) : Fld := ⟨CMD_CR_HEAD n, 0, 9⟩
/-- `CMD_RPn_BASE_LO`. -/
def CMD_RP_BASE_LO (n : Nat) : Nat := 0x100010 + 0x40 * n
def CMD_RP_BASE_LO__BASE_LO (n : Nat) : Fld := ⟨CMD_RP_BASE_LO n, 12, 20⟩
/-- `CMD_RPn_BASE_HI`. -/
def CMD_RP_BASE_HI (n : Nat) : Nat := 0x100014 + 0x40 * n
/-- `CMD_RPn_HEAD`. -/
def CMD_RP_HEAD (n : Nat) : Nat := 0x100018 + 0x40 * n
def CMD_RP_HEAD__HEAD (n : Nat) : Fld := ⟨CMD_RP_HEAD n, 0, 9⟩
/-- `CMD_RPn_TAIL`. -/
def CMD_RP_TAIL (n : Nat) : Nat := 0x10001C + 0x40 * n
def CMD_RP_TAIL__TAIL (n : Nat) : Fld := ⟨CMD_RP_TAIL n, 0, 9⟩
/-- `CMD_CRn_STAT`. -/
def CMD_CR_STAT (n : Nat) : Nat := 0x100020 + 0x40 * n
def CMD_CR_STAT__FETCH_ERR (n : Nat) : Fld := ⟨CMD_CR_STAT n, 19, 1⟩
def CMD_CR_STAT__DB_RANGE (n : Nat) : Fld := ⟨CMD_CR_STAT n, 18, 1⟩
def CMD_CR_STAT__CFG_ERR (n : Nat) : Fld := ⟨CMD_CR_STAT n, 17, 1⟩
def CMD_CR_STAT__INFLIGHT (n : Nat) : Fld := ⟨CMD_CR_STAT n, 8, 9⟩
def CMD_CR_STAT__WAIT_BARRIER (n : Nat) : Fld := ⟨CMD_CR_STAT n, 2, 1⟩
def CMD_CR_STAT__WAIT_FWQ (n : Nat) : Fld := ⟨CMD_CR_STAT n, 1, 1⟩
def CMD_CR_STAT__WAIT_RP (n : Nat) : Fld := ⟨CMD_CR_STAT n, 0, 1⟩
/-- `CMD_DBn`. -/
def CMD_DB (n : Nat) : Nat := 0x100100 + 0x4 * n
def CMD_DB__TAIL (n : Nat) : Fld := ⟨CMD_DB n, 0, 9⟩
/-- `CMD_STAT`. -/
def CMD_STAT : Nat := 0x100200
def CMD_STAT__READY : Fld := ⟨CMD_STAT, 10, 1⟩
def CMD_STAT__SAFE : Fld := ⟨CMD_STAT, 9, 1⟩
def CMD_STAT__FW_RUN : Fld := ⟨CMD_STAT, 8, 1⟩
def CMD_STAT__FWQ_USED : Fld := ⟨CMD_STAT, 0, 7⟩
/-- `CMD_IRQ`. -/
def CMD_IRQ : Nat := 0x100204
def CMD_IRQ__PEND : Fld := ⟨CMD_IRQ, 8, 4⟩
def CMD_IRQ__EN : Fld := ⟨CMD_IRQ, 0, 4⟩
/-- `CMD_TIMEOUT_CNT`. -/
def CMD_TIMEOUT_CNT : Nat := 0x100208
/-- `MBX_CTRL`. -/
def MBX_CTRL : Nat := 0x200000
def MBX_CTRL__LOCK : Fld := ⟨MBX_CTRL, 0, 1⟩
/-- `MBX_STAT`. -/
def MBX_STAT : Nat := 0x200004
def MBX_STAT__TMO : Fld := ⟨MBX_STAT, 16, 16⟩
def MBX_STAT__WFULL_ERR : Fld := ⟨MBX_STAT, 0, 16⟩
/-- `MBX_WFULL_CNT`. -/
def MBX_WFULL_CNT : Nat := 0x200008
def MBX_WFULL_CNT__OVF : Fld := ⟨MBX_WFULL_CNT, 31, 1⟩
def MBX_WFULL_CNT__COUNT : Fld := ⟨MBX_WFULL_CNT, 0, 31⟩
/-- `MBX_BINDn`. -/
def MBX_BIND (n : Nat) : Nat := 0x200100 + 0x4 * n
def MBX_BIND__EN (n : Nat) : Fld := ⟨MBX_BIND n, 16, 1⟩
def MBX_BIND__SIDE_B (n : Nat) : Fld := ⟨MBX_BIND n, 8, 8⟩
def MBX_BIND__SIDE_A (n : Nat) : Fld := ⟨MBX_BIND n, 0, 8⟩
/-- `MBX_TMOn`. -/
def MBX_TMO (n : Nat) : Nat := 0x200200 + 0x4 * n
def MBX_TMO__TMO_US (n : Nat) : Fld := ⟨MBX_TMO n, 0, 16⟩
/-- `MBX_IRQ`. -/
def MBX_IRQ : Nat := 0x200300
def MBX_IRQ__EN : Fld := ⟨MBX_IRQ, 0, 16⟩
/-- `MBX_IRQ_PEND`. -/
def MBX_IRQ_PEND : Nat := 0x200304
def MBX_IRQ_PEND__PEND : Fld := ⟨MBX_IRQ_PEND, 0, 16⟩
/-- `SEMn_ACQ`. -/
def SEM_ACQ (n : Nat) : Nat := 0x200400 + 0x10 * n
def SEM_ACQ__RESULT (n : Nat) : Fld := ⟨SEM_ACQ n, 0, 8⟩
/-- `SEMn_REL`. -/
def SEM_REL (n : Nat) : Nat := 0x200404 + 0x10 * n
/-- `SEMn_PEEK`. -/
def SEM_PEEK (n : Nat) : Nat := 0x200408 + 0x10 * n
def SEM_PEEK__OWNER (n : Nat) : Fld := ⟨SEM_PEEK n, 0, 8⟩
/-- `LNK_QMAP`. -/
def LNK_QMAP : Nat := 0x300000
def LNK_QMAP__QMAP_ERR : Fld := ⟨LNK_QMAP, 31, 1⟩
def LNK_QMAP__QMAP : Fld := ⟨LNK_QMAP, 0, 18⟩
/-- `LNK_QCFGq`. -/
def LNK_QCFG (q : Nat) : Nat := 0x300010 + 0x4 * q
def LNK_QCFG__PLL_LOCK (q : Nat) : Fld := ⟨LNK_QCFG q, 17, 1⟩
def LNK_QCFG__EQ_OVR (q : Nat) : Fld := ⟨LNK_QCFG q, 16, 1⟩
def LNK_QCFG__EQ_OVR_VAL (q : Nat) : Fld := ⟨LNK_QCFG q, 12, 4⟩
def LNK_QCFG__EQ (q : Nat) : Fld := ⟨LNK_QCFG q, 8, 4⟩
def LNK_QCFG__RATE (q : Nat) : Fld := ⟨LNK_QCFG q, 0, 8⟩
/-- `LNK_Pp_CFG`. -/
def LNK_P_CFG (p : Nat) : Nat := 0x300100 + 0x100 * p
def LNK_P_CFG__VC_EN (p : Nat) : Fld := ⟨LNK_P_CFG p, 16, 4⟩
def LNK_P_CFG__SBITS (p : Nat) : Fld := ⟨LNK_P_CFG p, 12, 2⟩
def LNK_P_CFG__CW (p : Nat) : Fld := ⟨LNK_P_CFG p, 8, 4⟩
def LNK_P_CFG__LANES (p : Nat) : Fld := ⟨LNK_P_CFG p, 1, 5⟩
def LNK_P_CFG__EN (p : Nat) : Fld := ⟨LNK_P_CFG p, 0, 1⟩
/-- `LNK_Pp_STAT`. -/
def LNK_P_STAT (p : Nat) : Nat := 0x300104 + 0x100 * p
def LNK_P_STAT__ALIGNED (p : Nat) : Fld := ⟨LNK_P_STAT p, 4, 24⟩
def LNK_P_STAT__SETQ_FULL (p : Nat) : Fld := ⟨LNK_P_STAT p, 3, 1⟩
def LNK_P_STAT__IN_FRAME (p : Nat) : Fld := ⟨LNK_P_STAT p, 2, 1⟩
def LNK_P_STAT__RESYNC (p : Nat) : Fld := ⟨LNK_P_STAT p, 1, 1⟩
def LNK_P_STAT__LOCKED (p : Nat) : Fld := ⟨LNK_P_STAT p, 0, 1⟩
/-- `LNK_Pp_ERR`. -/
def LNK_P_ERR (p : Nat) : Nat := 0x300108 + 0x100 * p
def LNK_P_ERR__NACK (p : Nat) : Fld := ⟨LNK_P_ERR p, 13, 1⟩
def LNK_P_ERR__CFG_ERR (p : Nat) : Fld := ⟨LNK_P_ERR p, 12, 1⟩
def LNK_P_ERR__SET_LATE (p : Nat) : Fld := ⟨LNK_P_ERR p, 11, 1⟩
def LNK_P_ERR__FRAME_TMO (p : Nat) : Fld := ⟨LNK_P_ERR p, 10, 1⟩
def LNK_P_ERR__FE_MISSING (p : Nat) : Fld := ⟨LNK_P_ERR p, 9, 1⟩
def LNK_P_ERR__FRAME_GAP (p : Nat) : Fld := ⟨LNK_P_ERR p, 8, 1⟩
def LNK_P_ERR__SKEW_ERR (p : Nat) : Fld := ⟨LNK_P_ERR p, 7, 1⟩
def LNK_P_ERR__LANE_DOWN (p : Nat) : Fld := ⟨LNK_P_ERR p, 6, 1⟩
def LNK_P_ERR__SEQ_ERR (p : Nat) : Fld := ⟨LNK_P_ERR p, 5, 1⟩
def LNK_P_ERR__LEN_ERR (p : Nat) : Fld := ⟨LNK_P_ERR p, 4, 1⟩
def LNK_P_ERR__TYPE_ERR (p : Nat) : Fld := ⟨LNK_P_ERR p, 3, 1⟩
def LNK_P_ERR__LW_CRC (p : Nat) : Fld := ⟨LNK_P_ERR p, 2, 1⟩
def LNK_P_ERR__PCRC (p : Nat) : Fld := ⟨LNK_P_ERR p, 1, 1⟩
def LNK_P_ERR__HCRC (p : Nat) : Fld := ⟨LNK_P_ERR p, 0, 1⟩
/-- `LNK_Pp_SKEW`. -/
def LNK_P_SKEW (p : Nat) : Nat := 0x30010C + 0x100 * p
def LNK_P_SKEW__LAST_LANE (p : Nat) : Fld := ⟨LNK_P_SKEW p, 16, 5⟩
def LNK_P_SKEW__SKEW_UI (p : Nat) : Fld := ⟨LNK_P_SKEW p, 0, 8⟩
/-- `LNK_Pp_HCRC_CNT`. -/
def LNK_P_HCRC_CNT (p : Nat) : Nat := 0x300110 + 0x100 * p
def LNK_P_HCRC_CNT__OVF (p : Nat) : Fld := ⟨LNK_P_HCRC_CNT p, 31, 1⟩
def LNK_P_HCRC_CNT__COUNT (p : Nat) : Fld := ⟨LNK_P_HCRC_CNT p, 0, 31⟩
/-- `LNK_Pp_PCRC_CNT`. -/
def LNK_P_PCRC_CNT (p : Nat) : Nat := 0x300114 + 0x100 * p
def LNK_P_PCRC_CNT__OVF (p : Nat) : Fld := ⟨LNK_P_PCRC_CNT p, 31, 1⟩
def LNK_P_PCRC_CNT__COUNT (p : Nat) : Fld := ⟨LNK_P_PCRC_CNT p, 0, 31⟩
/-- `LNK_Pp_DMG_CNT`. -/
def LNK_P_DMG_CNT (p : Nat) : Nat := 0x300118 + 0x100 * p
def LNK_P_DMG_CNT__OVF (p : Nat) : Fld := ⟨LNK_P_DMG_CNT p, 31, 1⟩
def LNK_P_DMG_CNT__COUNT (p : Nat) : Fld := ⟨LNK_P_DMG_CNT p, 0, 31⟩
/-- `LNK_Pp_RESYNC_CNT`. -/
def LNK_P_RESYNC_CNT (p : Nat) : Nat := 0x30011C + 0x100 * p
/-- `LNK_Pp_FRAME_CNT`. -/
def LNK_P_FRAME_CNT (p : Nat) : Nat := 0x300120 + 0x100 * p
/-- `LNK_Pp_SNS_FN`. -/
def LNK_P_SNS_FN (p : Nat) : Nat := 0x300124 + 0x100 * p
/-- `LNK_Pp_FRAME_TMO`. -/
def LNK_P_FRAME_TMO (p : Nat) : Nat := 0x300128 + 0x100 * p
def LNK_P_FRAME_TMO__TMO_US (p : Nat) : Fld := ⟨LNK_P_FRAME_TMO p, 0, 24⟩
/-- `LNK_Pp_SCC`. -/
def LNK_P_SCC (p : Nat) : Nat := 0x300130 + 0x100 * p
def LNK_P_SCC__STRETCH_MAX (p : Nat) : Fld := ⟨LNK_P_SCC p, 20, 12⟩
def LNK_P_SCC__DIV (p : Nat) : Fld := ⟨LNK_P_SCC p, 4, 16⟩
def LNK_P_SCC__SPI_MODE3 (p : Nat) : Fld := ⟨LNK_P_SCC p, 1, 1⟩
def LNK_P_SCC__SPI (p : Nat) : Fld := ⟨LNK_P_SCC p, 0, 1⟩
/-- `LNK_Pp_SET_CFG`. -/
def LNK_P_SET_CFG (p : Nat) : Nat := 0x300134 + 0x100 * p
def LNK_P_SET_CFG__SET_WINDOW_US (p : Nat) : Fld := ⟨LNK_P_SET_CFG p, 16, 16⟩
def LNK_P_SET_CFG__SET_LINE (p : Nat) : Fld := ⟨LNK_P_SET_CFG p, 0, 14⟩
/-- `LNK_Pp_SETQ`. -/
def LNK_P_SETQ (p : Nat) : Nat := 0x300138 + 0x100 * p
def LNK_P_SETQ__K (p : Nat) : Fld := ⟨LNK_P_SETQ p, 8, 3⟩
def LNK_P_SETQ__DEPTH (p : Nat) : Fld := ⟨LNK_P_SETQ p, 0, 4⟩
/-- `LNK_Pp_LAST_TAG`. -/
def LNK_P_LAST_TAG (p : Nat) : Nat := 0x30013C + 0x100 * p
/-- `LNK_Pp_LAST_FID`. -/
def LNK_P_LAST_FID (p : Nat) : Nat := 0x300140 + 0x100 * p
/-- `LNK_Pp_TRG`. -/
def LNK_P_TRG (p : Nat) : Nat := 0x300148 + 0x100 * p
def LNK_P_TRG__WIDTH_NS (p : Nat) : Fld := ⟨LNK_P_TRG p, 8, 24⟩
def LNK_P_TRG__FCG (p : Nat) : Fld := ⟨LNK_P_TRG p, 4, 2⟩
def LNK_P_TRG__POL (p : Nat) : Fld := ⟨LNK_P_TRG p, 2, 1⟩
def LNK_P_TRG__MODE (p : Nat) : Fld := ⟨LNK_P_TRG p, 0, 2⟩
/-- `LNK_Pp_TRG_DLY`. -/
def LNK_P_TRG_DLY (p : Nat) : Nat := 0x30014C + 0x100 * p
/-- `LNK_Ll_STAT`. -/
def LNK_L_STAT (l : Nat) : Nat := 0x301000 + 0x40 * l
def LNK_L_STAT__PORT (l : Nat) : Fld := ⟨LNK_L_STAT l, 4, 4⟩
def LNK_L_STAT__PAT_SYNC (l : Nat) : Fld := ⟨LNK_L_STAT l, 2, 1⟩
def LNK_L_STAT__ALIGNED (l : Nat) : Fld := ⟨LNK_L_STAT l, 1, 1⟩
def LNK_L_STAT__CDR_LOCK (l : Nat) : Fld := ⟨LNK_L_STAT l, 0, 1⟩
/-- `LNK_Ll_PAT`. -/
def LNK_L_PAT (l : Nat) : Nat := 0x301004 + 0x40 * l
def LNK_L_PAT__NEAR_LOOP (l : Nat) : Fld := ⟨LNK_L_PAT l, 5, 1⟩
def LNK_L_PAT__CHK (l : Nat) : Fld := ⟨LNK_L_PAT l, 4, 1⟩
def LNK_L_PAT__GEN (l : Nat) : Fld := ⟨LNK_L_PAT l, 3, 1⟩
def LNK_L_PAT__MODE (l : Nat) : Fld := ⟨LNK_L_PAT l, 0, 3⟩
/-- `LNK_Ll_INJ`. -/
def LNK_L_INJ (l : Nat) : Nat := 0x301008 + 0x40 * l
def LNK_L_INJ__BURST_LEN (l : Nat) : Fld := ⟨LNK_L_INJ l, 8, 6⟩
def LNK_L_INJ__BURST (l : Nat) : Fld := ⟨LNK_L_INJ l, 1, 1⟩
def LNK_L_INJ__SINGLE (l : Nat) : Fld := ⟨LNK_L_INJ l, 0, 1⟩
/-- `LNK_Ll_BITS_LO`. -/
def LNK_L_BITS_LO (l : Nat) : Nat := 0x30100C + 0x40 * l
/-- `LNK_Ll_BITS_HI`. -/
def LNK_L_BITS_HI (l : Nat) : Nat := 0x301010 + 0x40 * l
def LNK_L_BITS_HI__OVF (l : Nat) : Fld := ⟨LNK_L_BITS_HI l, 31, 1⟩
def LNK_L_BITS_HI__BITS_HI (l : Nat) : Fld := ⟨LNK_L_BITS_HI l, 0, 31⟩
/-- `LNK_Ll_ERRS`. -/
def LNK_L_ERRS (l : Nat) : Nat := 0x301014 + 0x40 * l
def LNK_L_ERRS__OVF (l : Nat) : Fld := ⟨LNK_L_ERRS l, 31, 1⟩
def LNK_L_ERRS__COUNT (l : Nat) : Fld := ⟨LNK_L_ERRS l, 0, 31⟩
/-- `RAW_LANES`. -/
def RAW_LANES : Nat := 0x400000
def RAW_LANES__USED : Fld := ⟨RAW_LANES, 8, 6⟩
def RAW_LANES__AVAIL : Fld := ⟨RAW_LANES, 0, 6⟩
/-- `RAW_Pp_CFG`. -/
def RAW_P_CFG (p : Nat) : Nat := 0x400100 + 0x100 * p
def RAW_P_CFG__LANES (p : Nat) : Fld := ⟨RAW_P_CFG p, 16, 6⟩
def RAW_P_CFG__CFA_PHASE (p : Nat) : Fld := ⟨RAW_P_CFG p, 10, 2⟩
def RAW_P_CFG__CFA (p : Nat) : Fld := ⟨RAW_P_CFG p, 8, 2⟩
def RAW_P_CFG__READOUTS (p : Nat) : Fld := ⟨RAW_P_CFG p, 4, 2⟩
def RAW_P_CFG__DYN_EN (p : Nat) : Fld := ⟨RAW_P_CFG p, 3, 1⟩
def RAW_P_CFG__FMT (p : Nat) : Fld := ⟨RAW_P_CFG p, 0, 3⟩
/-- `RAW_Pp_LINE_NS`. -/
def RAW_P_LINE_NS (p : Nat) : Nat := 0x400104 + 0x100 * p
def RAW_P_LINE_NS__LINE_NS_MIN (p : Nat) : Fld := ⟨RAW_P_LINE_NS p, 0, 20⟩
/-- `RAW_Pp_GHOST`. -/
def RAW_P_GHOST (p : Nat) : Nat := 0x400108 + 0x100 * p
def RAW_P_GHOST__GHOST_EN (p : Nat) : Fld := ⟨RAW_P_GHOST p, 31, 1⟩
def RAW_P_GHOST__GHOST_REF (p : Nat) : Fld := ⟨RAW_P_GHOST p, 28, 2⟩
def RAW_P_GHOST__MERGE_LAG (p : Nat) : Fld := ⟨RAW_P_GHOST p, 16, 7⟩
def RAW_P_GHOST__GHOST_THR (p : Nat) : Fld := ⟨RAW_P_GHOST p, 0, 16⟩
/-- `RAW_Pp_NOISE_FLOOR`. -/
def RAW_P_NOISE_FLOOR (p : Nat) : Nat := 0x40010C + 0x100 * p
def RAW_P_NOISE_FLOOR__NOISE_FLOOR (p : Nat) : Fld := ⟨RAW_P_NOISE_FLOOR p, 0, 24⟩
/-- `RAW_Pp_BLACK_ADJ`. -/
def RAW_P_BLACK_ADJ (p : Nat) : Nat := 0x400110 + 0x100 * p
def RAW_P_BLACK_ADJ__BLACK_ADJ (p : Nat) : Fld := ⟨RAW_P_BLACK_ADJ p, 0, 24⟩
/-- `RAW_Pp_DYN_ABS`. -/
def RAW_P_DYN_ABS (p : Nat) : Nat := 0x400114 + 0x100 * p
def RAW_P_DYN_ABS__DYN_ABS (p : Nat) : Fld := ⟨RAW_P_DYN_ABS p, 0, 24⟩
/-- `RAW_Pp_DYN_REL`. -/
def RAW_P_DYN_REL (p : Nat) : Nat := 0x400118 + 0x100 * p
def RAW_P_DYN_REL__DYN_REL (p : Nat) : Fld := ⟨RAW_P_DYN_REL p, 0, 16⟩
/-- `RAW_Pp_APPLY_TAG`. -/
def RAW_P_APPLY_TAG (p : Nat) : Nat := 0x40011C + 0x100 * p
/-- `RAW_Pp_GAINr`. -/
def RAW_P_GAIN (p : Nat) (r : Nat) : Nat := 0x400120 + 0x100 * p + 0x4 * r
def RAW_P_GAIN__GAIN (p : Nat) (r : Nat) : Fld := ⟨RAW_P_GAIN p r, 0, 24⟩
/-- `RAW_Pp_KNEEr`. -/
def RAW_P_KNEE (p : Nat) (r : Nat) : Nat := 0x400130 + 0x100 * p + 0x4 * r
def RAW_P_KNEE__KNEE (p : Nat) (r : Nat) : Fld := ⟨RAW_P_KNEE p r, 0, 24⟩
/-- `RAW_Pp_SATr`. -/
def RAW_P_SAT (p : Nat) (r : Nat) : Nat := 0x400140 + 0x100 * p + 0x4 * r
def RAW_P_SAT__SAT (p : Nat) (r : Nat) : Fld := ⟨RAW_P_SAT p r, 0, 24⟩
/-- `RAW_Pp_WEIGHTr`. -/
def RAW_P_WEIGHT (p : Nat) (r : Nat) : Nat := 0x400150 + 0x100 * p + 0x4 * r
def RAW_P_WEIGHT__WEIGHT (p : Nat) (r : Nat) : Fld := ⟨RAW_P_WEIGHT p r, 0, 16⟩
/-- `RAW_Pp_STAT`. -/
def RAW_P_STAT (p : Nat) : Nat := 0x400160 + 0x100 * p
def RAW_P_STAT__ARMED (p : Nat) : Fld := ⟨RAW_P_STAT p, 5, 1⟩
def RAW_P_STAT__IN_FRAME (p : Nat) : Fld := ⟨RAW_P_STAT p, 4, 1⟩
def RAW_P_STAT__LAST_CAUSE (p : Nat) : Fld := ⟨RAW_P_STAT p, 0, 4⟩
/-- `RAW_Pp_LIVE_FID`. -/
def RAW_P_LIVE_FID (p : Nat) : Nat := 0x400168 + 0x100 * p
/-- `RAW_Pp_ERR`. -/
def RAW_P_ERR (p : Nat) : Nat := 0x400164 + 0x100 * p
def RAW_P_ERR__CFG_ERR (p : Nat) : Fld := ⟨RAW_P_ERR p, 6, 1⟩
def RAW_P_ERR__ARM_REPLACED (p : Nat) : Fld := ⟨RAW_P_ERR p, 5, 1⟩
def RAW_P_ERR__UNCORR (p : Nat) : Fld := ⟨RAW_P_ERR p, 4, 1⟩
def RAW_P_ERR__DMG (p : Nat) : Fld := ⟨RAW_P_ERR p, 3, 1⟩
def RAW_P_ERR__LAG (p : Nat) : Fld := ⟨RAW_P_ERR p, 2, 1⟩
def RAW_P_ERR__OVF_WRITE (p : Nat) : Fld := ⟨RAW_P_ERR p, 1, 1⟩
def RAW_P_ERR__OVF_FIFO (p : Nat) : Fld := ⟨RAW_P_ERR p, 0, 1⟩
/-- `RAW_Pp_TRUNC_CNT`. -/
def RAW_P_TRUNC_CNT (p : Nat) : Nat := 0x40016C + 0x100 * p
/-- `RAW_Pp_OVF_CNT`. -/
def RAW_P_OVF_CNT (p : Nat) : Nat := 0x400170 + 0x100 * p
/-- `CTX_LOAD`. -/
def CTX_LOAD : Nat := 0x500000
def CTX_LOAD__LOAD_ALL : Fld := ⟨CTX_LOAD, 16, 16⟩
def CTX_LOAD__LOAD_ESS : Fld := ⟨CTX_LOAD, 0, 16⟩
/-- `CTX_LADLE_STAT`. -/
def CTX_LADLE_STAT : Nat := 0x500004
def CTX_LADLE_STAT__BUSY : Fld := ⟨CTX_LADLE_STAT, 3, 1⟩
def CTX_LADLE_STAT__CUR : Fld := ⟨CTX_LADLE_STAT, 0, 3⟩
/-- `CTX_SWITCH_CNT`. -/
def CTX_SWITCH_CNT : Nat := 0x500008
/-- `CTX_Cc_SIZE`. -/
def CTX_C_SIZE (c : Nat) : Nat := 0x500100 + 0x100 * c
def CTX_C_SIZE__HEIGHT (c : Nat) : Fld := ⟨CTX_C_SIZE c, 16, 16⟩
def CTX_C_SIZE__WIDTH (c : Nat) : Fld := ⟨CTX_C_SIZE c, 0, 16⟩
/-- `CTX_Cc_BUDGET`. -/
def CTX_C_BUDGET (c : Nat) : Nat := 0x500104 + 0x100 * c
def CTX_C_BUDGET__LAT_BUDGET_US (c : Nat) : Fld := ⟨CTX_C_BUDGET c, 0, 20⟩
/-- `CTX_Cc_FRAME_NS`. -/
def CTX_C_FRAME_NS (c : Nat) : Nat := 0x500108 + 0x100 * c
/-- `CTX_Cc_POLICY`. -/
def CTX_C_POLICY (c : Nat) : Nat := 0x50010C + 0x100 * c
def CTX_C_POLICY__PRIO (c : Nat) : Fld := ⟨CTX_C_POLICY c, 8, 3⟩
def CTX_C_POLICY__ESSENTIAL (c : Nat) : Fld := ⟨CTX_C_POLICY c, 0, 1⟩
/-- `CTX_Cc_STATE`. -/
def CTX_C_STATE (c : Nat) : Nat := 0x500110 + 0x100 * c
def CTX_C_STATE__BOUND (c : Nat) : Fld := ⟨CTX_C_STATE c, 12, 3⟩
def CTX_C_STATE__PENDING (c : Nat) : Fld := ⟨CTX_C_STATE c, 8, 1⟩
def CTX_C_STATE__STATE (c : Nat) : Fld := ⟨CTX_C_STATE c, 0, 3⟩
/-- `CTX_Cc_COMMIT_ID`. -/
def CTX_C_COMMIT_ID (c : Nat) : Nat := 0x500114 + 0x100 * c
/-- `CTX_Cc_FP_LO`. -/
def CTX_C_FP_LO (c : Nat) : Nat := 0x500118 + 0x100 * c
/-- `CTX_Cc_FP_HI`. -/
def CTX_C_FP_HI (c : Nat) : Nat := 0x50011C + 0x100 * c
/-- `CTX_Cc_HEAD_FID`. -/
def CTX_C_HEAD_FID (c : Nat) : Nat := 0x500120 + 0x100 * c
/-- `CTX_Cc_HEAD_POS`. -/
def CTX_C_HEAD_POS (c : Nat) : Nat := 0x500124 + 0x100 * c
def CTX_C_HEAD_POS__READY (c : Nat) : Fld := ⟨CTX_C_HEAD_POS c, 10, 1⟩
def CTX_C_HEAD_POS__STRIPE (c : Nat) : Fld := ⟨CTX_C_HEAD_POS c, 0, 10⟩
/-- `CTX_Cc_ERR`. -/
def CTX_C_ERR (c : Nat) : Nat := 0x500128 + 0x100 * c
def CTX_C_ERR__NO_VICTIM (c : Nat) : Fld := ⟨CTX_C_ERR c, 4, 1⟩
def CTX_C_ERR__STALE_SRC (c : Nat) : Fld := ⟨CTX_C_ERR c, 3, 1⟩
def CTX_C_ERR__SKIPPED (c : Nat) : Fld := ⟨CTX_C_ERR c, 2, 1⟩
def CTX_C_ERR__LATE (c : Nat) : Fld := ⟨CTX_C_ERR c, 1, 1⟩
def CTX_C_ERR__COMMIT_REPLACED (c : Nat) : Fld := ⟨CTX_C_ERR c, 0, 1⟩
/-- `CTX_Cc_IRQ`. -/
def CTX_C_IRQ (c : Nat) : Nat := 0x50012C + 0x100 * c
def CTX_C_IRQ__SKIP (c : Nat) : Fld := ⟨CTX_C_IRQ c, 2, 1⟩
def CTX_C_IRQ__LATE (c : Nat) : Fld := ⟨CTX_C_IRQ c, 1, 1⟩
def CTX_C_IRQ__FRAME_DONE (c : Nat) : Fld := ⟨CTX_C_IRQ c, 0, 1⟩
/-- `CTX_Cc_PROC_CNT`. -/
def CTX_C_PROC_CNT (c : Nat) : Nat := 0x500130 + 0x100 * c
/-- `CTX_Cc_SKIP_CNT`. -/
def CTX_C_SKIP_CNT (c : Nat) : Nat := 0x500134 + 0x100 * c
/-- `CTX_Cc_DISC_CNT`. -/
def CTX_C_DISC_CNT (c : Nat) : Nat := 0x500138 + 0x100 * c
/-- `CTX_Cc_LATE_CNT`. -/
def CTX_C_LATE_CNT (c : Nat) : Nat := 0x50013C + 0x100 * c
def CTX_C_LATE_CNT__OVF (c : Nat) : Fld := ⟨CTX_C_LATE_CNT c, 31, 1⟩
def CTX_C_LATE_CNT__COUNT (c : Nat) : Fld := ⟨CTX_C_LATE_CNT c, 0, 31⟩
/-- `CTX_Cc_MAX_LATE`. -/
def CTX_C_MAX_LATE (c : Nat) : Nat := 0x500140 + 0x100 * c
/-- `CLR_LANES`. -/
def CLR_LANES : Nat := 0x600000
def CLR_LANES__AVAIL : Fld := ⟨CLR_LANES, 0, 5⟩
/-- `CLR_Cc_CFG`. -/
def CLR_C_CFG (c : Nat) : Nat := 0x600100 + 0x100 * c
def CLR_C_CFG__WSPACE (c : Nat) : Fld := ⟨CLR_C_CFG c, 4, 2⟩
def CLR_C_CFG__FCS_EN (c : Nat) : Fld := ⟨CLR_C_CFG c, 1, 1⟩
def CLR_C_CFG__SHADE_EN (c : Nat) : Fld := ⟨CLR_C_CFG c, 0, 1⟩
/-- `CLR_Cc_WB01`. -/
def CLR_C_WB01 (c : Nat) : Nat := 0x600104 + 0x100 * c
def CLR_C_WB01__WB1 (c : Nat) : Fld := ⟨CLR_C_WB01 c, 16, 16⟩
def CLR_C_WB01__WB0 (c : Nat) : Fld := ⟨CLR_C_WB01 c, 0, 16⟩
/-- `CLR_Cc_WB23`. -/
def CLR_C_WB23 (c : Nat) : Nat := 0x600108 + 0x100 * c
def CLR_C_WB23__WB3 (c : Nat) : Fld := ⟨CLR_C_WB23 c, 16, 16⟩
def CLR_C_WB23__WB2 (c : Nat) : Fld := ⟨CLR_C_WB23 c, 0, 16⟩
/-- `CLR_Cc_DM_EPS`. -/
def CLR_C_DM_EPS (c : Nat) : Nat := 0x60010C + 0x100 * c
def CLR_C_DM_EPS__DM_EPS (c : Nat) : Fld := ⟨CLR_C_DM_EPS c, 0, 24⟩
/-- `CLR_Cc_FCS_KNEE`. -/
def CLR_C_FCS_KNEE (c : Nat) : Nat := 0x600110 + 0x100 * c
def CLR_C_FCS_KNEE__FCS_KNEE (c : Nat) : Fld := ⟨CLR_C_FCS_KNEE c, 0, 24⟩
/-- `CLR_Cc_LUMA_K`. -/
def CLR_C_LUMA_K (c : Nat) : Nat := 0x600114 + 0x100 * c
def CLR_C_LUMA_K__LUMA_KB (c : Nat) : Fld := ⟨CLR_C_LUMA_K c, 16, 16⟩
def CLR_C_LUMA_K__LUMA_KR (c : Nat) : Fld := ⟨CLR_C_LUMA_K c, 0, 16⟩
/-- `CLR_Cc_CMk`. -/
def CLR_C_CM (c : Nat) (k : Nat) : Nat := 0x600118 + 0x100 * c + 0x4 * k
def CLR_C_CM__COEF (c : Nat) (k : Nat) : Fld := ⟨CLR_C_CM c k, 0, 24⟩
/-- `CLR_Cc_OFFk`. -/
def CLR_C_OFF (c : Nat) (k : Nat) : Nat := 0x60013C + 0x100 * c + 0x4 * k
def CLR_C_OFF__OFF (c : Nat) (k : Nat) : Fld := ⟨CLR_C_OFF c k, 0, 24⟩
/-- `CLR_Cc_WSk`. -/
def CLR_C_WS (c : Nat) (k : Nat) : Nat := 0x600148 + 0x100 * c + 0x4 * k
def CLR_C_WS__COEF (c : Nat) (k : Nat) : Fld := ⟨CLR_C_WS c k, 0, 24⟩
/-- `CLR_Cc_ERR`. -/
def CLR_C_ERR (c : Nat) : Nat := 0x600170 + 0x100 * c
def CLR_C_ERR__ZS_OVF (c : Nat) : Fld := ⟨CLR_C_ERR c, 1, 1⟩
def CLR_C_ERR__CFG_ERR (c : Nat) : Fld := ⟨CLR_C_ERR c, 0, 1⟩
/-- `CLR_Cc_ZS_FID`. -/
def CLR_C_ZS_FID (c : Nat) : Nat := 0x600174 + 0x100 * c
/-- `TAP_Tt_OWNER`. -/
def TAP_T_OWNER (t : Nat) : Nat := 0x700100 + 0x100 * t
def TAP_T_OWNER__EN_LIVE (t : Nat) : Fld := ⟨TAP_T_OWNER t, 8, 1⟩
def TAP_T_OWNER__CTX (t : Nat) : Fld := ⟨TAP_T_OWNER t, 0, 3⟩
/-- `TAP_Tt_CROP0`. -/
def TAP_T_CROP0 (t : Nat) : Nat := 0x700104 + 0x100 * t
def TAP_T_CROP0__Y0 (t : Nat) : Fld := ⟨TAP_T_CROP0 t, 16, 16⟩
def TAP_T_CROP0__X0 (t : Nat) : Fld := ⟨TAP_T_CROP0 t, 0, 16⟩
/-- `TAP_Tt_CROP1`. -/
def TAP_T_CROP1 (t : Nat) : Nat := 0x700108 + 0x100 * t
def TAP_T_CROP1__CH (t : Nat) : Fld := ⟨TAP_T_CROP1 t, 16, 16⟩
def TAP_T_CROP1__CW (t : Nat) : Fld := ⟨TAP_T_CROP1 t, 0, 16⟩
/-- `TAP_Tt_OUT`. -/
def TAP_T_OUT (t : Nat) : Nat := 0x70010C + 0x100 * t
def TAP_T_OUT__OH (t : Nat) : Fld := ⟨TAP_T_OUT t, 16, 16⟩
def TAP_T_OUT__OW (t : Nat) : Fld := ⟨TAP_T_OUT t, 0, 16⟩
/-- `TAP_Tt_FMT`. -/
def TAP_T_FMT (t : Nat) : Nat := 0x700110 + 0x100 * t
def TAP_T_FMT__DECIM (t : Nat) : Fld := ⟨TAP_T_FMT t, 16, 3⟩
def TAP_T_FMT__LEVELS (t : Nat) : Fld := ⟨TAP_T_FMT t, 14, 2⟩
def TAP_T_FMT__TRANSFER (t : Nat) : Fld := ⟨TAP_T_FMT t, 12, 2⟩
def TAP_T_FMT__RANGE (t : Nat) : Fld := ⟨TAP_T_FMT t, 9, 1⟩
def TAP_T_FMT__MATRIX (t : Nat) : Fld := ⟨TAP_T_FMT t, 8, 1⟩
def TAP_T_FMT__PACK (t : Nat) : Fld := ⟨TAP_T_FMT t, 0, 4⟩
/-- `TAP_Tt_EXP`. -/
def TAP_T_EXP (t : Nat) : Nat := 0x700114 + 0x100 * t
def TAP_T_EXP__EXP_GAIN (t : Nat) : Fld := ⟨TAP_T_EXP t, 0, 24⟩
/-- `TAP_Tt_BUF_LO`. -/
def TAP_T_BUF_LO (t : Nat) : Nat := 0x700118 + 0x100 * t
def TAP_T_BUF_LO__BASE_LO (t : Nat) : Fld := ⟨TAP_T_BUF_LO t, 12, 20⟩
/-- `TAP_Tt_BUF_HI`. -/
def TAP_T_BUF_HI (t : Nat) : Nat := 0x70011C + 0x100 * t
/-- `TAP_Tt_BUF_CFG`. -/
def TAP_T_BUF_CFG (t : Nat) : Nat := 0x700120 + 0x100 * t
def TAP_T_BUF_CFG__STRIDE (t : Nat) : Fld := ⟨TAP_T_BUF_CFG t, 12, 20⟩
def TAP_T_BUF_CFG__NBUF (t : Nat) : Fld := ⟨TAP_T_BUF_CFG t, 0, 4⟩
/-- `TAP_Tt_HOLD`. -/
def TAP_T_HOLD (t : Nat) : Nat := 0x700124 + 0x100 * t
def TAP_T_HOLD__HOLD (t : Nat) : Fld := ⟨TAP_T_HOLD t, 0, 8⟩
/-- `TAP_Tt_HOLD_SET`. -/
def TAP_T_HOLD_SET (t : Nat) : Nat := 0x700128 + 0x100 * t
def TAP_T_HOLD_SET__SET (t : Nat) : Fld := ⟨TAP_T_HOLD_SET t, 0, 8⟩
/-- `TAP_Tt_STAT`. -/
def TAP_T_STAT (t : Nat) : Nat := 0x70012C + 0x100 * t
def TAP_T_STAT__CFG_ERR (t : Nat) : Fld := ⟨TAP_T_STAT t, 5, 1⟩
def TAP_T_STAT__DROPPED (t : Nat) : Fld := ⟨TAP_T_STAT t, 4, 1⟩
def TAP_T_STAT__LAST (t : Nat) : Fld := ⟨TAP_T_STAT t, 0, 4⟩
/-- `TAP_Tt_DROP_CNT`. -/
def TAP_T_DROP_CNT (t : Nat) : Nat := 0x700130 + 0x100 * t
/-- `TAP_Tt_FRAME_CNT`. -/
def TAP_T_FRAME_CNT (t : Nat) : Nat := 0x700134 + 0x100 * t
/-- `TAP_Tt_DESCk_FID`. -/
def TAP_T_DESC_FID (t : Nat) (k : Nat) : Nat := 0x700140 + 0x100 * t + 0x8 * k
/-- `TAP_Tt_DESCk_INFO`. -/
def TAP_T_DESC_INFO (t : Nat) (k : Nat) : Nat := 0x700144 + 0x100 * t + 0x8 * k
def TAP_T_DESC_INFO__READY (t : Nat) (k : Nat) : Fld := ⟨TAP_T_DESC_INFO t k, 31, 1⟩
def TAP_T_DESC_INFO__PARTIAL (t : Nat) (k : Nat) : Fld := ⟨TAP_T_DESC_INFO t k, 30, 1⟩
def TAP_T_DESC_INFO__TRANSFER (t : Nat) (k : Nat) : Fld := ⟨TAP_T_DESC_INFO t k, 28, 2⟩
def TAP_T_DESC_INFO__ROWS (t : Nat) (k : Nat) : Fld := ⟨TAP_T_DESC_INFO t k, 14, 14⟩
def TAP_T_DESC_INFO__TB_US (t : Nat) (k : Nat) : Fld := ⟨TAP_T_DESC_INFO t k, 0, 14⟩
/-- `VLT_LAYOUT`. -/
def VLT_LAYOUT : Nat := 0x800000
def VLT_LAYOUT__W_GIB : Fld := ⟨VLT_LAYOUT, 0, 7⟩
/-- `VLT_GEN`. -/
def VLT_GEN : Nat := 0x800004
/-- `VLT_TB_EPOCH`. -/
def VLT_TB_EPOCH : Nat := 0x800008
/-- `VLT_TAKE_USED_LO`. -/
def VLT_TAKE_USED_LO : Nat := 0x800010
/-- `VLT_TAKE_USED_HI`. -/
def VLT_TAKE_USED_HI : Nat := 0x800014
/-- `VLT_REC_STAT`. -/
def VLT_REC_STAT : Nat := 0x800020
def VLT_REC_STAT__REC_FAIL : Fld := ⟨VLT_REC_STAT, 8, 1⟩
def VLT_REC_STAT__SLOT : Fld := ⟨VLT_REC_STAT, 0, 6⟩
/-- `VLT_REC_TAKE`. -/
def VLT_REC_TAKE : Nat := 0x800024
/-- `VLT_TALLY`. -/
def VLT_TALLY : Nat := 0x800028
def VLT_TALLY__REC_ACTIVE : Fld := ⟨VLT_TALLY, 6, 1⟩
def VLT_TALLY__LEVELS : Fld := ⟨VLT_TALLY, 3, 3⟩
def VLT_TALLY__OUT : Fld := ⟨VLT_TALLY, 1, 2⟩
def VLT_TALLY__HOST : Fld := ⟨VLT_TALLY, 0, 1⟩
/-- `VLT_HOST_RING_WR`. -/
def VLT_HOST_RING_WR : Nat := 0x800030
def VLT_HOST_RING_WR__OVF : Fld := ⟨VLT_HOST_RING_WR, 31, 1⟩
def VLT_HOST_RING_WR__COUNT : Fld := ⟨VLT_HOST_RING_WR, 0, 31⟩
/-- `VLT_Cc_RING_BASE`. -/
def VLT_C_RING_BASE (c : Nat) : Nat := 0x800100 + 0x100 * c
def VLT_C_RING_BASE__VSA (c : Nat) : Fld := ⟨VLT_C_RING_BASE c, 0, 26⟩
/-- `VLT_Cc_RING_SECT`. -/
def VLT_C_RING_SECT (c : Nat) : Nat := 0x800104 + 0x100 * c
/-- `VLT_Cc_SPILL_SECT`. -/
def VLT_C_SPILL_SECT (c : Nat) : Nat := 0x800108 + 0x100 * c
/-- `VLT_Cc_MAXREC`. -/
def VLT_C_MAXREC (c : Nat) : Nat := 0x80010C + 0x100 * c
/-- `VLT_Cc_WP`. -/
def VLT_C_WP (c : Nat) : Nat := 0x800110 + 0x100 * c
def VLT_C_WP__VSA (c : Nat) : Fld := ⟨VLT_C_WP c, 0, 26⟩
/-- `VLT_Cc_NEWEST_FID`. -/
def VLT_C_NEWEST_FID (c : Nat) : Nat := 0x800114 + 0x100 * c
/-- `VLT_Cc_OLDEST_FID`. -/
def VLT_C_OLDEST_FID (c : Nat) : Nat := 0x800118 + 0x100 * c
/-- `VLT_Cc_STAT`. -/
def VLT_C_STAT (c : Nat) : Nat := 0x80011C + 0x100 * c
def VLT_C_STAT__EMB_SECT (c : Nat) : Fld := ⟨VLT_C_STAT c, 16, 5⟩
def VLT_C_STAT__DROPPING (c : Nat) : Fld := ⟨VLT_C_STAT c, 2, 1⟩
def VLT_C_STAT__BORROWING (c : Nat) : Fld := ⟨VLT_C_STAT c, 1, 1⟩
def VLT_C_STAT__IN_SPILL (c : Nat) : Fld := ⟨VLT_C_STAT c, 0, 1⟩
/-- `VLT_Cc_ERR`. -/
def VLT_C_ERR (c : Nat) : Nat := 0x800120 + 0x100 * c
def VLT_C_ERR__SLOT_PINNED (c : Nat) : Fld := ⟨VLT_C_ERR c, 2, 1⟩
def VLT_C_ERR__BORROWED (c : Nat) : Fld := ⟨VLT_C_ERR c, 1, 1⟩
def VLT_C_ERR__FULL (c : Nat) : Fld := ⟨VLT_C_ERR c, 0, 1⟩
/-- `VLT_Cc_DROP_CNT`. -/
def VLT_C_DROP_CNT (c : Nat) : Nat := 0x800124 + 0x100 * c
/-- `VLT_Cc_RECLAIM_CNT`. -/
def VLT_C_RECLAIM_CNT (c : Nat) : Nat := 0x800128 + 0x100 * c
/-- `VLT_Cc_BORROW_CNT`. -/
def VLT_C_BORROW_CNT (c : Nat) : Nat := 0x80012C + 0x100 * c
/-- `RAW_Pp_PRESS_RC`. -/
def RAW_P_PRESS_RC (p : Nat) : Nat := 0x400180 + 0x100 * p
def RAW_P_PRESS_RC__E_MAX (p : Nat) : Fld := ⟨RAW_P_PRESS_RC p, 24, 7⟩
def RAW_P_PRESS_RC__E_MIN (p : Nat) : Fld := ⟨RAW_P_PRESS_RC p, 16, 7⟩
def RAW_P_PRESS_RC__RATIO (p : Nat) : Fld := ⟨RAW_P_PRESS_RC p, 0, 16⟩
/-- `RAW_Pp_PRESS_STAT`. -/
def RAW_P_PRESS_STAT (p : Nat) : Nat := 0x400184 + 0x100 * p
def RAW_P_PRESS_STAT__EXHAUSTED (p : Nat) : Fld := ⟨RAW_P_PRESS_STAT p, 17, 1⟩
def RAW_P_PRESS_STAT__OVERSHOOT (p : Nat) : Fld := ⟨RAW_P_PRESS_STAT p, 16, 1⟩
def RAW_P_PRESS_STAT__E0 (p : Nat) : Fld := ⟨RAW_P_PRESS_STAT p, 8, 7⟩
def RAW_P_PRESS_STAT__E_NEXT (p : Nat) : Fld := ⟨RAW_P_PRESS_STAT p, 0, 7⟩
/-- `RAW_Pp_PRESS_BYTES`. -/
def RAW_P_PRESS_BYTES (p : Nat) : Nat := 0x400188 + 0x100 * p
/-- `RAW_Pp_PRESS_BUDGET`. -/
def RAW_P_PRESS_BUDGET (p : Nat) : Nat := 0x40018C + 0x100 * p
/-- `RAW_Pp_PRESS_OVS_CNT`. -/
def RAW_P_PRESS_OVS_CNT (p : Nat) : Nat := 0x400190 + 0x100 * p
def RAW_P_PRESS_OVS_CNT__OVF (p : Nat) : Fld := ⟨RAW_P_PRESS_OVS_CNT p, 31, 1⟩
def RAW_P_PRESS_OVS_CNT__COUNT (p : Nat) : Fld := ⟨RAW_P_PRESS_OVS_CNT p, 0, 31⟩
/-- `RAW_Pp_PRESS_STORED_CNT`. -/
def RAW_P_PRESS_STORED_CNT (p : Nat) : Nat := 0x400194 + 0x100 * p
def RAW_P_PRESS_STORED_CNT__OVF (p : Nat) : Fld := ⟨RAW_P_PRESS_STORED_CNT p, 31, 1⟩
def RAW_P_PRESS_STORED_CNT__COUNT (p : Nat) : Fld := ⟨RAW_P_PRESS_STORED_CNT p, 0, 31⟩
/-- `VLT_PD_STAT`. -/
def VLT_PD_STAT : Nat := 0x808000
def VLT_PD_STAT__STRIPE : Fld := ⟨VLT_PD_STAT, 16, 10⟩
def VLT_PD_STAT__CTX : Fld := ⟨VLT_PD_STAT, 4, 3⟩
def VLT_PD_STAT__BUSY : Fld := ⟨VLT_PD_STAT, 0, 1⟩
/-- `VLT_PD_ERR`. -/
def VLT_PD_ERR : Nat := 0x808004
def VLT_PD_ERR__DCRC : Fld := ⟨VLT_PD_ERR, 6, 1⟩
def VLT_PD_ERR__CODE : Fld := ⟨VLT_PD_ERR, 5, 1⟩
def VLT_PD_ERR__LENGTH : Fld := ⟨VLT_PD_ERR, 4, 1⟩
def VLT_PD_ERR__GEOMETRY : Fld := ⟨VLT_PD_ERR, 3, 1⟩
def VLT_PD_ERR__HCRC : Fld := ⟨VLT_PD_ERR, 2, 1⟩
def VLT_PD_ERR__VERSION : Fld := ⟨VLT_PD_ERR, 1, 1⟩
def VLT_PD_ERR__SYNC : Fld := ⟨VLT_PD_ERR, 0, 1⟩
/-- `VLT_PD_STRIPE_CNT`. -/
def VLT_PD_STRIPE_CNT : Nat := 0x808008
/-- `VLT_PD_Cc_ERR_CNT`. -/
def VLT_PD_C_ERR_CNT (c : Nat) : Nat := 0x808100 + 0x10 * c
def VLT_PD_C_ERR_CNT__OVF (c : Nat) : Fld := ⟨VLT_PD_C_ERR_CNT c, 31, 1⟩
def VLT_PD_C_ERR_CNT__COUNT (c : Nat) : Fld := ⟨VLT_PD_C_ERR_CNT c, 0, 31⟩
/-- `VLT_PD_Cc_LAST_FID`. -/
def VLT_PD_C_LAST_FID (c : Nat) : Nat := 0x808104 + 0x10 * c
/-- `VLT_PD_Cc_LAST_INFO`. -/
def VLT_PD_C_LAST_INFO (c : Nat) : Nat := 0x808108 + 0x10 * c
def VLT_PD_C_LAST_INFO__CODE (c : Nat) : Fld := ⟨VLT_PD_C_LAST_INFO c, 16, 3⟩
def VLT_PD_C_LAST_INFO__PLANE (c : Nat) : Fld := ⟨VLT_PD_C_LAST_INFO c, 12, 2⟩
def VLT_PD_C_LAST_INFO__STRIPE (c : Nat) : Fld := ⟨VLT_PD_C_LAST_INFO c, 0, 10⟩
/-- `VQ_SQn_BASE_LO`. -/
def VQ_SQ_BASE_LO (n : Nat) : Nat := 0x900000 + 0x40 * n
def VQ_SQ_BASE_LO__BASE_LO (n : Nat) : Fld := ⟨VQ_SQ_BASE_LO n, 12, 20⟩
/-- `VQ_SQn_BASE_HI`. -/
def VQ_SQ_BASE_HI (n : Nat) : Nat := 0x900004 + 0x40 * n
/-- `VQ_SQn_CFG`. -/
def VQ_SQ_CFG (n : Nat) : Nat := 0x900008 + 0x40 * n
def VQ_SQ_CFG__EN (n : Nat) : Fld := ⟨VQ_SQ_CFG n, 7, 1⟩
def VQ_SQ_CFG__CQLOC (n : Nat) : Fld := ⟨VQ_SQ_CFG n, 6, 1⟩
def VQ_SQ_CFG__SQLOC (n : Nat) : Fld := ⟨VQ_SQ_CFG n, 5, 1⟩
def VQ_SQ_CFG__LOG2N (n : Nat) : Fld := ⟨VQ_SQ_CFG n, 0, 4⟩
/-- `VQ_SQn_HEAD`. -/
def VQ_SQ_HEAD (n : Nat) : Nat := 0x90000C + 0x40 * n
def VQ_SQ_HEAD__HEAD (n : Nat) : Fld := ⟨VQ_SQ_HEAD n, 0, 13⟩
/-- `VQ_SQn_DB`. -/
def VQ_SQ_DB (n : Nat) : Nat := 0x900010 + 0x40 * n
def VQ_SQ_DB__TAIL (n : Nat) : Fld := ⟨VQ_SQ_DB n, 0, 13⟩
/-- `VQ_CQn_BASE_LO`. -/
def VQ_CQ_BASE_LO (n : Nat) : Nat := 0x900014 + 0x40 * n
def VQ_CQ_BASE_LO__BASE_LO (n : Nat) : Fld := ⟨VQ_CQ_BASE_LO n, 12, 20⟩
/-- `VQ_CQn_BASE_HI`. -/
def VQ_CQ_BASE_HI (n : Nat) : Nat := 0x900018 + 0x40 * n
/-- `VQ_CQn_HEAD`. -/
def VQ_CQ_HEAD (n : Nat) : Nat := 0x90001C + 0x40 * n
def VQ_CQ_HEAD__HEAD (n : Nat) : Fld := ⟨VQ_CQ_HEAD n, 0, 13⟩
/-- `VQ_CQn_TAIL`. -/
def VQ_CQ_TAIL (n : Nat) : Nat := 0x900020 + 0x40 * n
def VQ_CQ_TAIL__TAIL (n : Nat) : Fld := ⟨VQ_CQ_TAIL n, 0, 13⟩
/-- `VQ_Qn_TAGS`. -/
def VQ_Q_TAGS (n : Nat) : Nat := 0x900024 + 0x40 * n
def VQ_Q_TAGS__TAG_COUNT (n : Nat) : Fld := ⟨VQ_Q_TAGS n, 16, 14⟩
def VQ_Q_TAGS__TAG_BASE (n : Nat) : Fld := ⟨VQ_Q_TAGS n, 0, 13⟩
/-- `VQ_Qn_STAT`. -/
def VQ_Q_STAT (n : Nat) : Nat := 0x900028 + 0x40 * n
def VQ_Q_STAT__CQ_STALL (n : Nat) : Fld := ⟨VQ_Q_STAT n, 18, 1⟩
def VQ_Q_STAT__DB_RANGE (n : Nat) : Fld := ⟨VQ_Q_STAT n, 17, 1⟩
def VQ_Q_STAT__FETCH_ERR (n : Nat) : Fld := ⟨VQ_Q_STAT n, 16, 1⟩
def VQ_Q_STAT__OUTSTANDING (n : Nat) : Fld := ⟨VQ_Q_STAT n, 0, 14⟩
/-- `VQ_CTRL`. -/
def VQ_CTRL : Nat := 0x900800
def VQ_CTRL__TMO_MS : Fld := ⟨VQ_CTRL, 16, 16⟩
def VQ_CTRL__DEFER_MS : Fld := ⟨VQ_CTRL, 0, 16⟩
/-- `VQ_STAT`. -/
def VQ_STAT : Nat := 0x900804
def VQ_STAT__ACT_BARRIER : Fld := ⟨VQ_STAT, 31, 1⟩
def VQ_STAT__HOOP_USED : Fld := ⟨VQ_STAT, 16, 14⟩
def VQ_STAT__TAGS_OUT : Fld := ⟨VQ_STAT, 0, 14⟩
/-- `VQ_VPSTATE`. -/
def VQ_VPSTATE : Nat := 0x900808
def VQ_VPSTATE__AUTO_MAX : Fld := ⟨VQ_VPSTATE, 4, 2⟩
def VQ_VPSTATE__VP : Fld := ⟨VQ_VPSTATE, 0, 2⟩
/-- `VQ_IRQ`. -/
def VQ_IRQ : Nat := 0x900810
def VQ_IRQ__EN : Fld := ⟨VQ_IRQ, 0, 16⟩
/-- `VQ_IRQ_PEND`. -/
def VQ_IRQ_PEND : Nat := 0x900814
def VQ_IRQ_PEND__PEND : Fld := ⟨VQ_IRQ_PEND, 0, 16⟩
/-- `VQ_HOOP_WAIT_CNT`. -/
def VQ_HOOP_WAIT_CNT : Nat := 0x900820
/-- `VQ_STALE_CNT`. -/
def VQ_STALE_CNT : Nat := 0x900824
/-- `VQ_ABORT_CNT`. -/
def VQ_ABORT_CNT : Nat := 0x900828
/-- `VQ_LOST_CPL`. -/
def VQ_LOST_CPL : Nat := 0x90082C
def VQ_LOST_CPL__OVF : Fld := ⟨VQ_LOST_CPL, 31, 1⟩
def VQ_LOST_CPL__COUNT : Fld := ⟨VQ_LOST_CPL, 0, 31⟩
/-- `CDC_LOAD`. -/
def CDC_LOAD : Nat := 0xA00000
def CDC_LOAD__DEC_MPIX : Fld := ⟨CDC_LOAD, 16, 16⟩
def CDC_LOAD__ENC_MPIX : Fld := ⟨CDC_LOAD, 0, 16⟩
/-- `CDC_ENG_STAT`. -/
def CDC_ENG_STAT : Nat := 0xA00004
def CDC_ENG_STAT__PE_BUSY : Fld := ⟨CDC_ENG_STAT, 31, 1⟩
def CDC_ENG_STAT__PE_WHO : Fld := ⟨CDC_ENG_STAT, 24, 5⟩
def CDC_ENG_STAT__EE1_BUSY : Fld := ⟨CDC_ENG_STAT, 23, 1⟩
def CDC_ENG_STAT__EE1_WHO : Fld := ⟨CDC_ENG_STAT, 16, 5⟩
def CDC_ENG_STAT__EE0_BUSY : Fld := ⟨CDC_ENG_STAT, 15, 1⟩
def CDC_ENG_STAT__EE0_WHO : Fld := ⟨CDC_ENG_STAT, 8, 5⟩
/-- `CDC_Ss_CFG`. -/
def CDC_S_CFG (s : Nat) : Nat := 0xA00100 + 0x100 * s
def CDC_S_CFG__LEVEL (s : Nat) : Fld := ⟨CDC_S_CFG s, 16, 8⟩
def CDC_S_CFG__TIER (s : Nat) : Fld := ⟨CDC_S_CFG s, 12, 1⟩
def CDC_S_CFG__PROFILE (s : Nat) : Fld := ⟨CDC_S_CFG s, 8, 2⟩
def CDC_S_CFG__TAP (s : Nat) : Fld := ⟨CDC_S_CFG s, 4, 2⟩
def CDC_S_CFG__CTX (s : Nat) : Fld := ⟨CDC_S_CFG s, 0, 3⟩
/-- `CDC_Ss_STATE`. -/
def CDC_S_STATE (s : Nat) : Nat := 0xA00104 + 0x100 * s
def CDC_S_STATE__ROW (s : Nat) : Fld := ⟨CDC_S_STATE s, 16, 10⟩
def CDC_S_STATE__QP (s : Nat) : Fld := ⟨CDC_S_STATE s, 8, 8⟩
def CDC_S_STATE__IRAP_PEND (s : Nat) : Fld := ⟨CDC_S_STATE s, 7, 1⟩
def CDC_S_STATE__EXHAUSTED (s : Nat) : Fld := ⟨CDC_S_STATE s, 6, 1⟩
def CDC_S_STATE__DEG (s : Nat) : Fld := ⟨CDC_S_STATE s, 4, 2⟩
def CDC_S_STATE__STATE (s : Nat) : Fld := ⟨CDC_S_STATE s, 0, 3⟩
/-- `CDC_Ss_LAST_FID`. -/
def CDC_S_LAST_FID (s : Nat) : Nat := 0xA00108 + 0x100 * s
/-- `CDC_Ss_LAST_POC`. -/
def CDC_S_LAST_POC (s : Nat) : Nat := 0xA0010C + 0x100 * s
def CDC_S_LAST_POC__POC (s : Nat) : Fld := ⟨CDC_S_LAST_POC s, 0, 16⟩
/-- `CDC_Ss_CPB_V`. -/
def CDC_S_CPB_V (s : Nat) : Nat := 0xA00110 + 0x100 * s
/-- `CDC_Ss_TARGET`. -/
def CDC_S_TARGET (s : Nat) : Nat := 0xA00114 + 0x100 * s
/-- `CDC_Ss_ERR`. -/
def CDC_S_ERR (s : Nat) : Nat := 0xA00118 + 0x100 * s
def CDC_S_ERR__RING_STALL (s : Nat) : Fld := ⟨CDC_S_ERR s, 6, 1⟩
def CDC_S_ERR__STR_DROP (s : Nat) : Fld := ⟨CDC_S_ERR s, 5, 1⟩
def CDC_S_ERR__HOST_GAP (s : Nat) : Fld := ⟨CDC_S_ERR s, 4, 1⟩
def CDC_S_ERR__SRC_PARTIAL (s : Nat) : Fld := ⟨CDC_S_ERR s, 3, 1⟩
def CDC_S_ERR__SRC_MISS (s : Nat) : Fld := ⟨CDC_S_ERR s, 2, 1⟩
def CDC_S_ERR__HRD_MIN (s : Nat) : Fld := ⟨CDC_S_ERR s, 1, 1⟩
def CDC_S_ERR__OVERBUDGET (s : Nat) : Fld := ⟨CDC_S_ERR s, 0, 1⟩
/-- `CDC_Ss_IRQ`. -/
def CDC_S_IRQ (s : Nat) : Nat := 0xA0011C + 0x100 * s
def CDC_S_IRQ__PEND (s : Nat) : Fld := ⟨CDC_S_IRQ s, 8, 1⟩
def CDC_S_IRQ__EN (s : Nat) : Fld := ⟨CDC_S_IRQ s, 0, 4⟩
/-- `CDC_Ss_DR_HEAD`. -/
def CDC_S_DR_HEAD (s : Nat) : Nat := 0xA00120 + 0x100 * s
def CDC_S_DR_HEAD__HEAD (s : Nat) : Fld := ⟨CDC_S_DR_HEAD s, 0, 31⟩
/-- `CDC_Ss_DR_TAIL`. -/
def CDC_S_DR_TAIL (s : Nat) : Nat := 0xA00124 + 0x100 * s
def CDC_S_DR_TAIL__TAIL (s : Nat) : Fld := ⟨CDC_S_DR_TAIL s, 0, 31⟩
/-- `CDC_Ss_DD_HEAD`. -/
def CDC_S_DD_HEAD (s : Nat) : Nat := 0xA00128 + 0x100 * s
def CDC_S_DD_HEAD__HEAD (s : Nat) : Fld := ⟨CDC_S_DD_HEAD s, 0, 17⟩
/-- `CDC_Ss_DD_TAIL`. -/
def CDC_S_DD_TAIL (s : Nat) : Nat := 0xA0012C + 0x100 * s
def CDC_S_DD_TAIL__TAIL (s : Nat) : Fld := ⟨CDC_S_DD_TAIL s, 0, 17⟩
/-- `CDC_Ss_PIC_CNT`. -/
def CDC_S_PIC_CNT (s : Nat) : Nat := 0xA00130 + 0x100 * s
/-- `CDC_Ss_SLOT_MISS_CNT`. -/
def CDC_S_SLOT_MISS_CNT (s : Nat) : Nat := 0xA00134 + 0x100 * s
/-- `CDC_Ss_PKT_CNT`. -/
def CDC_S_PKT_CNT (s : Nat) : Nat := 0xA00138 + 0x100 * s
/-- `CDC_Ss_OVB_CNT`. -/
def CDC_S_OVB_CNT (s : Nat) : Nat := 0xA0013C + 0x100 * s
def CDC_S_OVB_CNT__OVF (s : Nat) : Fld := ⟨CDC_S_OVB_CNT s, 31, 1⟩
def CDC_S_OVB_CNT__COUNT (s : Nat) : Fld := ⟨CDC_S_OVB_CNT s, 0, 31⟩
/-- `CDC_Ss_MIN_CNT`. -/
def CDC_S_MIN_CNT (s : Nat) : Nat := 0xA00140 + 0x100 * s
def CDC_S_MIN_CNT__OVF (s : Nat) : Fld := ⟨CDC_S_MIN_CNT s, 31, 1⟩
def CDC_S_MIN_CNT__COUNT (s : Nat) : Fld := ⟨CDC_S_MIN_CNT s, 0, 31⟩
/-- `CDC_Ss_STR_DROP_CNT`. -/
def CDC_S_STR_DROP_CNT (s : Nat) : Nat := 0xA00144 + 0x100 * s
def CDC_S_STR_DROP_CNT__OVF (s : Nat) : Fld := ⟨CDC_S_STR_DROP_CNT s, 31, 1⟩
def CDC_S_STR_DROP_CNT__COUNT (s : Nat) : Fld := ⟨CDC_S_STR_DROP_CNT s, 0, 31⟩
/-- `CDC_Ss_GAP_CNT`. -/
def CDC_S_GAP_CNT (s : Nat) : Nat := 0xA00148 + 0x100 * s
def CDC_S_GAP_CNT__OVF (s : Nat) : Fld := ⟨CDC_S_GAP_CNT s, 31, 1⟩
def CDC_S_GAP_CNT__COUNT (s : Nat) : Fld := ⟨CDC_S_GAP_CNT s, 0, 31⟩
/-- `CDC_Ss_RTP_SEQ`. -/
def CDC_S_RTP_SEQ (s : Nat) : Nat := 0xA0014C + 0x100 * s
def CDC_S_RTP_SEQ__SEQ (s : Nat) : Fld := ⟨CDC_S_RTP_SEQ s, 0, 16⟩
/-- `CDC_POOL_BASE_LO`. -/
def CDC_POOL_BASE_LO : Nat := 0xA08000
def CDC_POOL_BASE_LO__BASE_LO : Fld := ⟨CDC_POOL_BASE_LO, 12, 20⟩
/-- `CDC_POOL_BASE_HI`. -/
def CDC_POOL_BASE_HI : Nat := 0xA08004
/-- `CDC_POOL_CFG`. -/
def CDC_POOL_CFG : Nat := 0xA08008
def CDC_POOL_CFG__STRIDE : Fld := ⟨CDC_POOL_CFG, 12, 20⟩
def CDC_POOL_CFG__COUNT : Fld := ⟨CDC_POOL_CFG, 0, 7⟩
/-- `CDC_POOL_STAT`. -/
def CDC_POOL_STAT : Nat := 0xA0800C
def CDC_POOL_STAT__CFG_ERR : Fld := ⟨CDC_POOL_STAT, 8, 1⟩
def CDC_POOL_STAT__FREE : Fld := ⟨CDC_POOL_STAT, 0, 7⟩
/-- `CDC_POOL_Bb_MARK`. -/
def CDC_POOL_B_MARK (b : Nat) : Nat := 0xA08100 + 0x8 * b
def CDC_POOL_B_MARK__MARKS (b : Nat) : Fld := ⟨CDC_POOL_B_MARK b, 0, 23⟩
/-- `CDC_POOL_Bb_INFO`. -/
def CDC_POOL_B_INFO (b : Nat) : Nat := 0xA08104 + 0x8 * b
def CDC_POOL_B_INFO__GENERATED (b : Nat) : Fld := ⟨CDC_POOL_B_INFO b, 18, 1⟩
def CDC_POOL_B_INFO__CONCEALED (b : Nat) : Fld := ⟨CDC_POOL_B_INFO b, 17, 1⟩
def CDC_POOL_B_INFO__POC (b : Nat) : Fld := ⟨CDC_POOL_B_INFO b, 0, 16⟩
/-- `CDC_Dd_STAT`. -/
def CDC_D_STAT (d : Nat) : Nat := 0xA09000 + 0x100 * d
def CDC_D_STAT__BS_FREE (d : Nat) : Fld := ⟨CDC_D_STAT d, 8, 24⟩
def CDC_D_STAT__POOL_WAIT (d : Nat) : Fld := ⟨CDC_D_STAT d, 3, 1⟩
def CDC_D_STAT__DEFERRED (d : Nat) : Fld := ⟨CDC_D_STAT d, 2, 1⟩
def CDC_D_STAT__OUT (d : Nat) : Fld := ⟨CDC_D_STAT d, 1, 1⟩
def CDC_D_STAT__OPEN (d : Nat) : Fld := ⟨CDC_D_STAT d, 0, 1⟩
/-- `CDC_Dd_ERR`. -/
def CDC_D_ERR (d : Nat) : Nat := 0xA09004 + 0x100 * d
def CDC_D_ERR__HASH (d : Nat) : Fld := ⟨CDC_D_ERR d, 7, 1⟩
def CDC_D_ERR__MISSING_REF (d : Nat) : Fld := ⟨CDC_D_ERR d, 6, 1⟩
def CDC_D_ERR__ADDRESS (d : Nat) : Fld := ⟨CDC_D_ERR d, 5, 1⟩
def CDC_D_ERR__SLICE_DATA (d : Nat) : Fld := ⟨CDC_D_ERR d, 4, 1⟩
def CDC_D_ERR__SLICE_HEADER (d : Nat) : Fld := ⟨CDC_D_ERR d, 3, 1⟩
def CDC_D_ERR__PARAM_MISSING (d : Nat) : Fld := ⟨CDC_D_ERR d, 2, 1⟩
def CDC_D_ERR__PARAM_SET (d : Nat) : Fld := ⟨CDC_D_ERR d, 1, 1⟩
def CDC_D_ERR__NAL_HEADER (d : Nat) : Fld := ⟨CDC_D_ERR d, 0, 1⟩
/-- `CDC_Dd_IRQ`. -/
def CDC_D_IRQ (d : Nat) : Nat := 0xA09008 + 0x100 * d
def CDC_D_IRQ__PEND (d : Nat) : Fld := ⟨CDC_D_IRQ d, 8, 1⟩
def CDC_D_IRQ__ERROR (d : Nat) : Fld := ⟨CDC_D_IRQ d, 1, 1⟩
def CDC_D_IRQ__REPORT (d : Nat) : Fld := ⟨CDC_D_IRQ d, 0, 1⟩
/-- `CDC_Dd_PIC_CNT`. -/
def CDC_D_PIC_CNT (d : Nat) : Nat := 0xA0900C + 0x100 * d
/-- `CDC_Dd_ERR_CNT`. -/
def CDC_D_ERR_CNT (d : Nat) : Nat := 0xA09010 + 0x100 * d
/-- `CDC_Dd_DEFER_CNT`. -/
def CDC_D_DEFER_CNT (d : Nat) : Nat := 0xA09014 + 0x100 * d
/-- `CDC_Dd_CONC_CNT`. -/
def CDC_D_CONC_CNT (d : Nat) : Nat := 0xA09018 + 0x100 * d
def CDC_D_CONC_CNT__OVF (d : Nat) : Fld := ⟨CDC_D_CONC_CNT d, 31, 1⟩
def CDC_D_CONC_CNT__COUNT (d : Nat) : Fld := ⟨CDC_D_CONC_CNT d, 0, 31⟩
/-- `CDC_Dd_GEN_CNT`. -/
def CDC_D_GEN_CNT (d : Nat) : Nat := 0xA0901C + 0x100 * d
def CDC_D_GEN_CNT__OVF (d : Nat) : Fld := ⟨CDC_D_GEN_CNT d, 31, 1⟩
def CDC_D_GEN_CNT__COUNT (d : Nat) : Fld := ⟨CDC_D_GEN_CNT d, 0, 31⟩
/-- `CDC_Dd_REPORT_OVW`. -/
def CDC_D_REPORT_OVW (d : Nat) : Nat := 0xA09020 + 0x100 * d
def CDC_D_REPORT_OVW__OVF (d : Nat) : Fld := ⟨CDC_D_REPORT_OVW d, 31, 1⟩
def CDC_D_REPORT_OVW__COUNT (d : Nat) : Fld := ⟨CDC_D_REPORT_OVW d, 0, 31⟩
/-- `CMP_Cn_STAT`. -/
def CMP_C_STAT (n : Nat) : Nat := 0xB00000 + 0x1000 * n
def CMP_C_STAT__FAULT_CARD (n : Nat) : Fld := ⟨CMP_C_STAT n, 5, 1⟩
def CMP_C_STAT__WAITING (n : Nat) : Fld := ⟨CMP_C_STAT n, 4, 1⟩
def CMP_C_STAT__COMMIT_PEND (n : Nat) : Fld := ⟨CMP_C_STAT n, 3, 1⟩
def CMP_C_STAT__PACE (n : Nat) : Fld := ⟨CMP_C_STAT n, 2, 1⟩
def CMP_C_STAT__WB_EN (n : Nat) : Fld := ⟨CMP_C_STAT n, 1, 1⟩
def CMP_C_STAT__EN (n : Nat) : Fld := ⟨CMP_C_STAT n, 0, 1⟩
/-- `CMP_Cn_CFN`. -/
def CMP_C_CFN (n : Nat) : Nat := 0xB00004 + 0x1000 * n
/-- `CMP_Cn_OUT`. -/
def CMP_C_OUT (n : Nat) : Nat := 0xB00008 + 0x1000 * n
def CMP_C_OUT__OUT_H (n : Nat) : Fld := ⟨CMP_C_OUT n, 16, 16⟩
def CMP_C_OUT__OUT_W (n : Nat) : Fld := ⟨CMP_C_OUT n, 0, 16⟩
/-- `CMP_Cn_ERR`. -/
def CMP_C_ERR (n : Nat) : Nat := 0xB0000C + 0x1000 * n
def CMP_C_ERR__WB_DROP (n : Nat) : Fld := ⟨CMP_C_ERR n, 7, 1⟩
def CMP_C_ERR__TORN (n : Nat) : Fld := ⟨CMP_C_ERR n, 6, 1⟩
def CMP_C_ERR__SRC_MISMATCH (n : Nat) : Fld := ⟨CMP_C_ERR n, 5, 1⟩
def CMP_C_ERR__FENCE_TMO (n : Nat) : Fld := ⟨CMP_C_ERR n, 4, 1⟩
def CMP_C_ERR__LATE (n : Nat) : Fld := ⟨CMP_C_ERR n, 3, 1⟩
def CMP_C_ERR__FLIP_REPLACED (n : Nat) : Fld := ⟨CMP_C_ERR n, 2, 1⟩
def CMP_C_ERR__COMMIT_REPLACED (n : Nat) : Fld := ⟨CMP_C_ERR n, 1, 1⟩
def CMP_C_ERR__RIND_DEFAULT (n : Nat) : Fld := ⟨CMP_C_ERR n, 0, 1⟩
/-- `CMP_Cn_IRQ`. -/
def CMP_C_IRQ (n : Nat) : Nat := 0xB00010 + 0x1000 * n
def CMP_C_IRQ__PEND (n : Nat) : Fld := ⟨CMP_C_IRQ n, 8, 1⟩
def CMP_C_IRQ__ERR (n : Nat) : Fld := ⟨CMP_C_IRQ n, 2, 1⟩
def CMP_C_IRQ__COMMIT_LIVE (n : Nat) : Fld := ⟨CMP_C_IRQ n, 1, 1⟩
def CMP_C_IRQ__LATCH (n : Nat) : Fld := ⟨CMP_C_IRQ n, 0, 1⟩
/-- `CMP_Cn_LATE_CNT`. -/
def CMP_C_LATE_CNT (n : Nat) : Nat := 0xB00014 + 0x1000 * n
def CMP_C_LATE_CNT__OVF (n : Nat) : Fld := ⟨CMP_C_LATE_CNT n, 31, 1⟩
def CMP_C_LATE_CNT__COUNT (n : Nat) : Fld := ⟨CMP_C_LATE_CNT n, 0, 31⟩
/-- `CMP_Cn_FTMO_CNT`. -/
def CMP_C_FTMO_CNT (n : Nat) : Nat := 0xB00018 + 0x1000 * n
def CMP_C_FTMO_CNT__OVF (n : Nat) : Fld := ⟨CMP_C_FTMO_CNT n, 31, 1⟩
def CMP_C_FTMO_CNT__COUNT (n : Nat) : Fld := ⟨CMP_C_FTMO_CNT n, 0, 31⟩
/-- `CMP_Cn_FLIP_REPL_CNT`. -/
def CMP_C_FLIP_REPL_CNT (n : Nat) : Nat := 0xB0001C + 0x1000 * n
def CMP_C_FLIP_REPL_CNT__OVF (n : Nat) : Fld := ⟨CMP_C_FLIP_REPL_CNT n, 31, 1⟩
def CMP_C_FLIP_REPL_CNT__COUNT (n : Nat) : Fld := ⟨CMP_C_FLIP_REPL_CNT n, 0, 31⟩
/-- `CMP_Cn_TORN_CNT`. -/
def CMP_C_TORN_CNT (n : Nat) : Nat := 0xB00020 + 0x1000 * n
def CMP_C_TORN_CNT__OVF (n : Nat) : Fld := ⟨CMP_C_TORN_CNT n, 31, 1⟩
def CMP_C_TORN_CNT__COUNT (n : Nat) : Fld := ⟨CMP_C_TORN_CNT n, 0, 31⟩
/-- `CMP_Cn_WB_STAT`. -/
def CMP_C_WB_STAT (n : Nat) : Nat := 0xB00024 + 0x1000 * n
def CMP_C_WB_STAT__LAST (n : Nat) : Fld := ⟨CMP_C_WB_STAT n, 0, 4⟩
/-- `CMP_Cn_WB_HOLD`. -/
def CMP_C_WB_HOLD (n : Nat) : Nat := 0xB00028 + 0x1000 * n
def CMP_C_WB_HOLD__HOLD (n : Nat) : Fld := ⟨CMP_C_WB_HOLD n, 0, 8⟩
/-- `CMP_Cn_WB_HOLD_SET`. -/
def CMP_C_WB_HOLD_SET (n : Nat) : Nat := 0xB0002C + 0x1000 * n
def CMP_C_WB_HOLD_SET__SET (n : Nat) : Fld := ⟨CMP_C_WB_HOLD_SET n, 0, 8⟩
/-- `CMP_Cn_WB_DESCk`. -/
def CMP_C_WB_DESC (n : Nat) (k : Nat) : Nat := 0xB00040 + 0x1000 * n + 0x4 * k
def CMP_C_WB_DESC__READY (n : Nat) (k : Nat) : Fld := ⟨CMP_C_WB_DESC n k, 31, 1⟩
def CMP_C_WB_DESC__CFN (n : Nat) (k : Nat) : Fld := ⟨CMP_C_WB_DESC n k, 0, 31⟩
/-- `CMP_Cn_Ll_STAT`. -/
def CMP_C_L_STAT (n : Nat) (l : Nat) : Nat := 0xB00100 + 0x1000 * n + 0x40 * l
def CMP_C_L_STAT__FLIP_TAG (n : Nat) (l : Nat) : Fld := ⟨CMP_C_L_STAT n l, 16, 16⟩
def CMP_C_L_STAT__EN (n : Nat) (l : Nat) : Fld := ⟨CMP_C_L_STAT n l, 7, 1⟩
def CMP_C_L_STAT__SRC (n : Nat) (l : Nat) : Fld := ⟨CMP_C_L_STAT n l, 5, 2⟩
def CMP_C_L_STAT__COVERED (n : Nat) (l : Nat) : Fld := ⟨CMP_C_L_STAT n l, 4, 1⟩
def CMP_C_L_STAT__LATE (n : Nat) (l : Nat) : Fld := ⟨CMP_C_L_STAT n l, 3, 1⟩
def CMP_C_L_STAT__DEFERRED (n : Nat) (l : Nat) : Fld := ⟨CMP_C_L_STAT n l, 2, 1⟩
def CMP_C_L_STAT__PENDING (n : Nat) (l : Nat) : Fld := ⟨CMP_C_L_STAT n l, 1, 1⟩
def CMP_C_L_STAT__TORN (n : Nat) (l : Nat) : Fld := ⟨CMP_C_L_STAT n l, 0, 1⟩
/-- `CMP_Cn_Ll_BUF_LO`. -/
def CMP_C_L_BUF_LO (n : Nat) (l : Nat) : Nat := 0xB00104 + 0x1000 * n + 0x40 * l
/-- `CMP_Cn_Ll_BUF_HI`. -/
def CMP_C_L_BUF_HI (n : Nat) (l : Nat) : Nat := 0xB00108 + 0x1000 * n + 0x40 * l
/-- `CMP_Cn_Ll_CRC`. -/
def CMP_C_L_CRC (n : Nat) (l : Nat) : Nat := 0xB0010C + 0x1000 * n + 0x40 * l
/-- `CMP_Cn_Ll_CRC_CFN`. -/
def CMP_C_L_CRC_CFN (n : Nat) (l : Nat) : Nat := 0xB00110 + 0x1000 * n + 0x40 * l
/-- `CMP_Cn_Ll_REPEAT_CNT`. -/
def CMP_C_L_REPEAT_CNT (n : Nat) (l : Nat) : Nat := 0xB00114 + 0x1000 * n + 0x40 * l
/-- `DSP_TGt_STAT`. -/
def DSP_TG_STAT (t : Nat) : Nat := 0xC00000 + 0x100 * t
def DSP_TG_STAT__VBL_LAST (t : Nat) : Fld := ⟨DSP_TG_STAT t, 16, 16⟩
def DSP_TG_STAT__PORTS (t : Nat) : Fld := ⟨DSP_TG_STAT t, 12, 4⟩
def DSP_TG_STAT__CMP (t : Nat) : Fld := ⟨DSP_TG_STAT t, 4, 3⟩
def DSP_TG_STAT__LOCK_EN (t : Nat) : Fld := ⟨DSP_TG_STAT t, 3, 1⟩
def DSP_TG_STAT__LOCKED (t : Nat) : Fld := ⟨DSP_TG_STAT t, 2, 1⟩
def DSP_TG_STAT__SDI (t : Nat) : Fld := ⟨DSP_TG_STAT t, 1, 1⟩
def DSP_TG_STAT__RUN (t : Nat) : Fld := ⟨DSP_TG_STAT t, 0, 1⟩
/-- `DSP_TGt_SIZE`. -/
def DSP_TG_SIZE (t : Nat) : Nat := 0xC00004 + 0x100 * t
def DSP_TG_SIZE__VACTIVE (t : Nat) : Fld := ⟨DSP_TG_SIZE t, 16, 16⟩
def DSP_TG_SIZE__HACTIVE (t : Nat) : Fld := ⟨DSP_TG_SIZE t, 0, 16⟩
/-- `DSP_TGt_VBLANK`. -/
def DSP_TG_VBLANK (t : Nat) : Nat := 0xC00008 + 0x100 * t
def DSP_TG_VBLANK__VBLANK_MAX (t : Nat) : Fld := ⟨DSP_TG_VBLANK t, 16, 16⟩
def DSP_TG_VBLANK__VBLANK_MIN (t : Nat) : Fld := ⟨DSP_TG_VBLANK t, 0, 16⟩
/-- `DSP_TGt_PHASE`. -/
def DSP_TG_PHASE (t : Nat) : Nat := 0xC0000C + 0x100 * t
/-- `DSP_TGt_TC`. -/
def DSP_TG_TC (t : Nat) : Nat := 0xC00010 + 0x100 * t
def DSP_TG_TC__DF (t : Nat) : Fld := ⟨DSP_TG_TC t, 31, 1⟩
def DSP_TG_TC__HH (t : Nat) : Fld := ⟨DSP_TG_TC t, 24, 7⟩
def DSP_TG_TC__MM (t : Nat) : Fld := ⟨DSP_TG_TC t, 16, 8⟩
def DSP_TG_TC__SS (t : Nat) : Fld := ⟨DSP_TG_TC t, 8, 8⟩
def DSP_TG_TC__FF (t : Nat) : Fld := ⟨DSP_TG_TC t, 0, 8⟩
/-- `DSP_TGt_ERR`. -/
def DSP_TG_ERR (t : Nat) : Nat := 0xC00014 + 0x100 * t
def DSP_TG_ERR__REALIGN (t : Nat) : Fld := ⟨DSP_TG_ERR t, 1, 1⟩
def DSP_TG_ERR__LOCK_SLIP (t : Nat) : Fld := ⟨DSP_TG_ERR t, 0, 1⟩
/-- `DSP_TGt_IRQ`. -/
def DSP_TG_IRQ (t : Nat) : Nat := 0xC00018 + 0x100 * t
def DSP_TG_IRQ__PEND (t : Nat) : Fld := ⟨DSP_TG_IRQ t, 8, 1⟩
def DSP_TG_IRQ__HPD (t : Nat) : Fld := ⟨DSP_TG_IRQ t, 1, 1⟩
def DSP_TG_IRQ__ERR (t : Nat) : Fld := ⟨DSP_TG_IRQ t, 0, 1⟩
/-- `DSP_TGt_FRAME_CNT`. -/
def DSP_TG_FRAME_CNT (t : Nat) : Nat := 0xC0001C + 0x100 * t
/-- `DSP_TGt_SLIP_CNT`. -/
def DSP_TG_SLIP_CNT (t : Nat) : Nat := 0xC00020 + 0x100 * t
def DSP_TG_SLIP_CNT__OVF (t : Nat) : Fld := ⟨DSP_TG_SLIP_CNT t, 31, 1⟩
def DSP_TG_SLIP_CNT__COUNT (t : Nat) : Fld := ⟨DSP_TG_SLIP_CNT t, 0, 31⟩
/-- `DSP_TGt_REALIGN_CNT`. -/
def DSP_TG_REALIGN_CNT (t : Nat) : Nat := 0xC00024 + 0x100 * t
def DSP_TG_REALIGN_CNT__OVF (t : Nat) : Fld := ⟨DSP_TG_REALIGN_CNT t, 31, 1⟩
def DSP_TG_REALIGN_CNT__COUNT (t : Nat) : Fld := ⟨DSP_TG_REALIGN_CNT t, 0, 31⟩
/-- `DSP_Pp_STAT`. -/
def DSP_P_STAT (p : Nat) : Nat := 0xC00800 + 0x100 * p
def DSP_P_STAT__TG (p : Nat) : Fld := ⟨DSP_P_STAT p, 4, 3⟩
def DSP_P_STAT__ATTACHED (p : Nat) : Fld := ⟨DSP_P_STAT p, 3, 1⟩
def DSP_P_STAT__STATE (p : Nat) : Fld := ⟨DSP_P_STAT p, 0, 3⟩
/-- `DSP_Pp_ERR`. -/
def DSP_P_ERR (p : Nat) : Nat := 0xC00804 + 0x100 * p
def DSP_P_ERR__ANC_LATE (p : Nat) : Fld := ⟨DSP_P_ERR p, 4, 1⟩
def DSP_P_ERR__DCS_ERR (p : Nat) : Fld := ⟨DSP_P_ERR p, 3, 1⟩
def DSP_P_ERR__UNDERRUN (p : Nat) : Fld := ⟨DSP_P_ERR p, 2, 1⟩
def DSP_P_ERR__HPD_LOSS (p : Nat) : Fld := ⟨DSP_P_ERR p, 1, 1⟩
def DSP_P_ERR__HPD_GAIN (p : Nat) : Fld := ⟨DSP_P_ERR p, 0, 1⟩
/-- `DSP_Pp_HPD_CNT`. -/
def DSP_P_HPD_CNT (p : Nat) : Nat := 0xC00808 + 0x100 * p
/-- `DSP_Pp_UNDERRUN_CNT`. -/
def DSP_P_UNDERRUN_CNT (p : Nat) : Nat := 0xC0080C + 0x100 * p
def DSP_P_UNDERRUN_CNT__OVF (p : Nat) : Fld := ⟨DSP_P_UNDERRUN_CNT p, 31, 1⟩
def DSP_P_UNDERRUN_CNT__COUNT (p : Nat) : Fld := ⟨DSP_P_UNDERRUN_CNT p, 0, 31⟩
/-- `AUD_IRQ`. -/
def AUD_IRQ : Nat := 0xD00000
def AUD_IRQ__EN : Fld := ⟨AUD_IRQ, 0, 8⟩
/-- `AUD_IRQ_PEND`. -/
def AUD_IRQ_PEND : Nat := 0xD00004
def AUD_IRQ_PEND__PEND : Fld := ⟨AUD_IRQ_PEND, 0, 8⟩
/-- `AUD_Pp_CFG`. -/
def AUD_P_CFG (p : Nat) : Nat := 0xD00100 + 0x100 * p
def AUD_P_CFG__LOG2N (p : Nat) : Fld := ⟨AUD_P_CFG p, 12, 4⟩
def AUD_P_CFG__SOURCE (p : Nat) : Fld := ⟨AUD_P_CFG p, 8, 4⟩
def AUD_P_CFG__PACK4 (p : Nat) : Fld := ⟨AUD_P_CFG p, 7, 1⟩
def AUD_P_CFG__RATE (p : Nat) : Fld := ⟨AUD_P_CFG p, 5, 2⟩
def AUD_P_CFG__SLAVE (p : Nat) : Fld := ⟨AUD_P_CFG p, 4, 1⟩
def AUD_P_CFG__AES3 (p : Nat) : Fld := ⟨AUD_P_CFG p, 3, 1⟩
def AUD_P_CFG__DIR (p : Nat) : Fld := ⟨AUD_P_CFG p, 2, 1⟩
def AUD_P_CFG__CONFIGURED (p : Nat) : Fld := ⟨AUD_P_CFG p, 0, 1⟩
/-- `AUD_Pp_STAT`. -/
def AUD_P_STAT (p : Nat) : Nat := 0xD00104 + 0x100 * p
def AUD_P_STAT__NON_AUDIO (p : Nat) : Fld := ⟨AUD_P_STAT p, 4, 1⟩
def AUD_P_STAT__MUTED (p : Nat) : Fld := ⟨AUD_P_STAT p, 3, 1⟩
def AUD_P_STAT__HOLDOVER (p : Nat) : Fld := ⟨AUD_P_STAT p, 2, 1⟩
def AUD_P_STAT__SIGNAL (p : Nat) : Fld := ⟨AUD_P_STAT p, 1, 1⟩
def AUD_P_STAT__RUN (p : Nat) : Fld := ⟨AUD_P_STAT p, 0, 1⟩
/-- `AUD_Pp_ERR`. -/
def AUD_P_ERR (p : Nat) : Nat := 0xD00108 + 0x100 * p
def AUD_P_ERR__SLIP (p : Nat) : Fld := ⟨AUD_P_ERR p, 6, 1⟩
def AUD_P_ERR__PARITY (p : Nat) : Fld := ⟨AUD_P_ERR p, 5, 1⟩
def AUD_P_ERR__RATE_ERR (p : Nat) : Fld := ⟨AUD_P_ERR p, 4, 1⟩
def AUD_P_ERR__GLITCH (p : Nat) : Fld := ⟨AUD_P_ERR p, 3, 1⟩
def AUD_P_ERR__HOLDOVER (p : Nat) : Fld := ⟨AUD_P_ERR p, 2, 1⟩
def AUD_P_ERR__OVERRUN (p : Nat) : Fld := ⟨AUD_P_ERR p, 1, 1⟩
def AUD_P_ERR__UNDERRUN (p : Nat) : Fld := ⟨AUD_P_ERR p, 0, 1⟩
/-- `AUD_Pp_RATE_PPM`. -/
def AUD_P_RATE_PPM (p : Nat) : Nat := 0xD0010C + 0x100 * p
/-- `AUD_Pp_BLOCK`. -/
def AUD_P_BLOCK (p : Nat) : Nat := 0xD00110 + 0x100 * p
/-- `AUD_Pp_LAST_NS`. -/
def AUD_P_LAST_NS (p : Nat) : Nat := 0xD00114 + 0x100 * p
/-- `AUD_Pp_RING_LO`. -/
def AUD_P_RING_LO (p : Nat) : Nat := 0xD00118 + 0x100 * p
def AUD_P_RING_LO__BASE_LO (p : Nat) : Fld := ⟨AUD_P_RING_LO p, 12, 20⟩
/-- `AUD_Pp_RING_HI`. -/
def AUD_P_RING_HI (p : Nat) : Nat := 0xD0011C + 0x100 * p
/-- `AUD_Pp_UNDER_CNT`. -/
def AUD_P_UNDER_CNT (p : Nat) : Nat := 0xD00120 + 0x100 * p
def AUD_P_UNDER_CNT__OVF (p : Nat) : Fld := ⟨AUD_P_UNDER_CNT p, 31, 1⟩
def AUD_P_UNDER_CNT__COUNT (p : Nat) : Fld := ⟨AUD_P_UNDER_CNT p, 0, 31⟩
/-- `AUD_Pp_OVR_CNT`. -/
def AUD_P_OVR_CNT (p : Nat) : Nat := 0xD00124 + 0x100 * p
def AUD_P_OVR_CNT__OVF (p : Nat) : Fld := ⟨AUD_P_OVR_CNT p, 31, 1⟩
def AUD_P_OVR_CNT__COUNT (p : Nat) : Fld := ⟨AUD_P_OVR_CNT p, 0, 31⟩
/-- `AUD_Pp_GLITCH_CNT`. -/
def AUD_P_GLITCH_CNT (p : Nat) : Nat := 0xD00128 + 0x100 * p
def AUD_P_GLITCH_CNT__OVF (p : Nat) : Fld := ⟨AUD_P_GLITCH_CNT p, 31, 1⟩
def AUD_P_GLITCH_CNT__COUNT (p : Nat) : Fld := ⟨AUD_P_GLITCH_CNT p, 0, 31⟩
/-- `AUD_Pp_PARITY_CNT`. -/
def AUD_P_PARITY_CNT (p : Nat) : Nat := 0xD0012C + 0x100 * p
def AUD_P_PARITY_CNT__OVF (p : Nat) : Fld := ⟨AUD_P_PARITY_CNT p, 31, 1⟩
def AUD_P_PARITY_CNT__COUNT (p : Nat) : Fld := ⟨AUD_P_PARITY_CNT p, 0, 31⟩
/-- `AUD_Pp_SLIP_CNT`. -/
def AUD_P_SLIP_CNT (p : Nat) : Nat := 0xD00130 + 0x100 * p
def AUD_P_SLIP_CNT__OVF (p : Nat) : Fld := ⟨AUD_P_SLIP_CNT p, 31, 1⟩
def AUD_P_SLIP_CNT__COUNT (p : Nat) : Fld := ⟨AUD_P_SLIP_CNT p, 0, 31⟩
/-- `TIM_NOW_NS`. -/
def TIM_NOW_NS : Nat := 0xE00000
/-- `TIM_NOW_EPOCH`. -/
def TIM_NOW_EPOCH : Nat := 0xE00004
/-- `TIM_NOW_FRAC`. -/
def TIM_NOW_FRAC : Nat := 0xE00008
/-- `TIM_ADDEND_LO`. -/
def TIM_ADDEND_LO : Nat := 0xE0000C
/-- `TIM_ADDEND_HI`. -/
def TIM_ADDEND_HI : Nat := 0xE00010
/-- `TIM_STEP_LIMIT`. -/
def TIM_STEP_LIMIT : Nat := 0xE00014
/-- `TIM_ERR`. -/
def TIM_ERR : Nat := 0xE00018
def TIM_ERR__FORCED : Fld := ⟨TIM_ERR, 1, 1⟩
def TIM_ERR__TB_STEP_REFUSED : Fld := ⟨TIM_ERR, 0, 1⟩
/-- `TIM_IRQ`. -/
def TIM_IRQ : Nat := 0xE0001C
def TIM_IRQ__PEND : Fld := ⟨TIM_IRQ, 8, 1⟩
def TIM_IRQ__EN : Fld := ⟨TIM_IRQ, 0, 1⟩
/-- `TIM_STEP_CNT`. -/
def TIM_STEP_CNT : Nat := 0xE00020
/-- `FCGk_CFG`. -/
def FCG_CFG (k : Nat) : Nat := 0xE00100 + 0x40 * k
def FCG_CFG__EN (k : Nat) : Fld := ⟨FCG_CFG k, 0, 1⟩
/-- `FCGk_PERIOD_LO`. -/
def FCG_PERIOD_LO (k : Nat) : Nat := 0xE00104 + 0x40 * k
/-- `FCGk_PERIOD_HI`. -/
def FCG_PERIOD_HI (k : Nat) : Nat := 0xE00108 + 0x40 * k
/-- `FCGk_NEXT_NS`. -/
def FCG_NEXT_NS (k : Nat) : Nat := 0xE0010C + 0x40 * k
/-- `FCGk_NEXT_EPOCH`. -/
def FCG_NEXT_EPOCH (k : Nat) : Nat := 0xE00110 + 0x40 * k
/-- `FCGk_TICK_CNT`. -/
def FCG_TICK_CNT (k : Nat) : Nat := 0xE00114 + 0x40 * k
/-- `FCGk_SKIP_CNT`. -/
def FCG_SKIP_CNT (k : Nat) : Nat := 0xE00118 + 0x40 * k
def FCG_SKIP_CNT__OVF (k : Nat) : Fld := ⟨FCG_SKIP_CNT k, 31, 1⟩
def FCG_SKIP_CNT__COUNT (k : Nat) : Fld := ⟨FCG_SKIP_CNT k, 0, 31⟩
/-- `NET_STAT`. -/
def NET_STAT : Nat := 0xF00000
def NET_STAT__LOOP : Fld := ⟨NET_STAT, 3, 1⟩
def NET_STAT__FEC : Fld := ⟨NET_STAT, 2, 1⟩
def NET_STAT__SPEED : Fld := ⟨NET_STAT, 1, 1⟩
def NET_STAT__LINK : Fld := ⟨NET_STAT, 0, 1⟩
/-- `NET_IRQ`. -/
def NET_IRQ : Nat := 0xF00004
def NET_IRQ__PEND : Fld := ⟨NET_IRQ, 8, 1⟩
def NET_IRQ__LINK_CHG : Fld := ⟨NET_IRQ, 2, 1⟩
def NET_IRQ__RX : Fld := ⟨NET_IRQ, 1, 1⟩
def NET_IRQ__TX : Fld := ⟨NET_IRQ, 0, 1⟩
/-- `NET_Rq_BASE_LO`. -/
def NET_R_BASE_LO (q : Nat) : Nat := 0xF00100 + 0x20 * q
def NET_R_BASE_LO__BASE_LO (q : Nat) : Fld := ⟨NET_R_BASE_LO q, 12, 20⟩
/-- `NET_Rq_BASE_HI`. -/
def NET_R_BASE_HI (q : Nat) : Nat := 0xF00104 + 0x20 * q
/-- `NET_Rq_CFG`. -/
def NET_R_CFG (q : Nat) : Nat := 0xF00108 + 0x20 * q
def NET_R_CFG__SPACE (q : Nat) : Fld := ⟨NET_R_CFG q, 4, 1⟩
def NET_R_CFG__LOG2N (q : Nat) : Fld := ⟨NET_R_CFG q, 0, 4⟩
/-- `NET_Rq_HEAD`. -/
def NET_R_HEAD (q : Nat) : Nat := 0xF0010C + 0x20 * q
def NET_R_HEAD__HEAD (q : Nat) : Fld := ⟨NET_R_HEAD q, 0, 13⟩
/-- `NET_Rq_DB`. -/
def NET_R_DB (q : Nat) : Nat := 0xF00110 + 0x20 * q
def NET_R_DB__TAIL (q : Nat) : Fld := ⟨NET_R_DB q, 0, 13⟩
/-- `NET_TX_CNT`. -/
def NET_TX_CNT : Nat := 0xF00200
/-- `NET_RX_CNT`. -/
def NET_RX_CNT : Nat := 0xF00204
/-- `NET_RX_DROP`. -/
def NET_RX_DROP : Nat := 0xF00208
def NET_RX_DROP__OVF : Fld := ⟨NET_RX_DROP, 31, 1⟩
def NET_RX_DROP__COUNT : Fld := ⟨NET_RX_DROP, 0, 31⟩
/-- `NET_RX_FCS`. -/
def NET_RX_FCS : Nat := 0xF0020C
def NET_RX_FCS__OVF : Fld := ⟨NET_RX_FCS, 31, 1⟩
def NET_RX_FCS__COUNT : Fld := ⟨NET_RX_FCS, 0, 31⟩
/-- `NET_RX_PAUSE`. -/
def NET_RX_PAUSE : Nat := 0xF00210
def NET_RX_PAUSE__OVF : Fld := ⟨NET_RX_PAUSE, 31, 1⟩
def NET_RX_PAUSE__COUNT : Fld := ⟨NET_RX_PAUSE, 0, 31⟩
/-- `DFL_CTRL`. -/
def DFL_CTRL : Nat := 0x1000000
def DFL_CTRL__DEFER_MS : Fld := ⟨DFL_CTRL, 0, 16⟩
/-- `DFL_STAT`. -/
def DFL_STAT : Nat := 0x1000004
def DFL_STAT__QUEUED : Fld := ⟨DFL_STAT, 16, 7⟩
def DFL_STAT__BUSY : Fld := ⟨DFL_STAT, 0, 2⟩
/-- `DFL_IRQ`. -/
def DFL_IRQ : Nat := 0x1000008
def DFL_IRQ__EN : Fld := ⟨DFL_IRQ, 0, 1⟩
/-- `DFL_IRQ_PEND`. -/
def DFL_IRQ_PEND : Nat := 0x100000C
def DFL_IRQ_PEND__PEND : Fld := ⟨DFL_IRQ_PEND, 0, 1⟩
/-- `DFL_JOB_CNT`. -/
def DFL_JOB_CNT : Nat := 0x1000010
/-- `DFL_ERR_CNT`. -/
def DFL_ERR_CNT : Nat := 0x1000014
def DFL_ERR_CNT__OVF : Fld := ⟨DFL_ERR_CNT, 31, 1⟩
def DFL_ERR_CNT__COUNT : Fld := ⟨DFL_ERR_CNT, 0, 31⟩
/-- `DFL_Ee_TAG`. -/
def DFL_E_TAG (e : Nat) : Nat := 0x1000100 + 0x40 * e
def DFL_E_TAG__VALID (e : Nat) : Fld := ⟨DFL_E_TAG e, 31, 1⟩
def DFL_E_TAG__TAG (e : Nat) : Fld := ⟨DFL_E_TAG e, 0, 16⟩
/-- `DFL_Ee_OUT`. -/
def DFL_E_OUT (e : Nat) : Nat := 0x1000104 + 0x40 * e
/-- `DMC_CTRL`. -/
def DMC_CTRL : Nat := 0x1100000
def DMC_CTRL__DLY_LOCK : Fld := ⟨DMC_CTRL, 0, 1⟩
/-- `DMC_STAT`. -/
def DMC_STAT : Nat := 0x1100004
def DMC_STAT__SUSTAIN : Fld := ⟨DMC_STAT, 16, 16⟩
def DMC_STAT__BAND : Fld := ⟨DMC_STAT, 9, 3⟩
def DMC_STAT__REF_MULT : Fld := ⟨DMC_STAT, 6, 3⟩
def DMC_STAT__CHANNELS : Fld := ⟨DMC_STAT, 0, 6⟩
/-- `DMC_SR_IDLE`. -/
def DMC_SR_IDLE : Nat := 0x1100008
def DMC_SR_IDLE__IDLE_MS : Fld := ⟨DMC_SR_IDLE, 0, 14⟩
/-- `DMC_HINT`. -/
def DMC_HINT : Nat := 0x110000C
def DMC_HINT__OVR : Fld := ⟨DMC_HINT, 0, 12⟩
/-- `DMC_ERR`. -/
def DMC_ERR : Nat := 0x1100010
def DMC_ERR__SUSPECT_FULL : Fld := ⟨DMC_ERR, 3, 1⟩
def DMC_ERR__CAL_ALT : Fld := ⟨DMC_ERR, 2, 1⟩
def DMC_ERR__DELAY_CLAMP : Fld := ⟨DMC_ERR, 1, 1⟩
def DMC_ERR__POISON : Fld := ⟨DMC_ERR, 0, 1⟩
/-- `DMC_CORR_CNT`. -/
def DMC_CORR_CNT : Nat := 0x1100014
def DMC_CORR_CNT__OVF : Fld := ⟨DMC_CORR_CNT, 31, 1⟩
def DMC_CORR_CNT__COUNT : Fld := ⟨DMC_CORR_CNT, 0, 31⟩
/-- `DMC_POISON_CNT`. -/
def DMC_POISON_CNT : Nat := 0x1100018
def DMC_POISON_CNT__OVF : Fld := ⟨DMC_POISON_CNT, 31, 1⟩
def DMC_POISON_CNT__COUNT : Fld := ⟨DMC_POISON_CNT, 0, 31⟩
/-- `DMC_BYTES_LOk`. -/
def DMC_BYTES_LO (k : Nat) : Nat := 0x1100100 + 0x10 * k
/-- `DMC_BYTES_HIk`. -/
def DMC_BYTES_HI (k : Nat) : Nat := 0x1100104 + 0x10 * k
/-- `DMC_MAX_WAITk`. -/
def DMC_MAX_WAIT (k : Nat) : Nat := 0x1100108 + 0x10 * k
/-- `DMC_CHc_DLY0`. -/
def DMC_CH_DLY0 (c : Nat) : Nat := 0x1101000 + 0x10 * c
def DMC_CH_DLY0__WDQ0 (c : Nat) : Fld := ⟨DMC_CH_DLY0 c, 16, 9⟩
def DMC_CH_DLY0__CA (c : Nat) : Fld := ⟨DMC_CH_DLY0 c, 0, 9⟩
/-- `DMC_CHc_DLY1`. -/
def DMC_CH_DLY1 (c : Nat) : Nat := 0x1101004 + 0x10 * c
def DMC_CH_DLY1__RDQS0 (c : Nat) : Fld := ⟨DMC_CH_DLY1 c, 16, 9⟩
def DMC_CH_DLY1__WDQ1 (c : Nat) : Fld := ⟨DMC_CH_DLY1 c, 0, 9⟩
/-- `DMC_CHc_DLY2`. -/
def DMC_CH_DLY2 (c : Nat) : Nat := 0x1101008 + 0x10 * c
def DMC_CH_DLY2__RDQS1 (c : Nat) : Fld := ⟨DMC_CH_DLY2 c, 0, 9⟩
/-- `DMC_OFSb_c`. -/
def DMC_OFS (b : Nat) (c : Nat) : Nat := 0x1102000 + 0x80 * b + 0x4 * c
def DMC_OFS__RDQS (b : Nat) (c : Nat) : Fld := ⟨DMC_OFS b c, 16, 8⟩
def DMC_OFS__WDQ (b : Nat) (c : Nat) : Fld := ⟨DMC_OFS b c, 8, 8⟩
def DMC_OFS__CA (b : Nat) (c : Nat) : Fld := ⟨DMC_OFS b c, 0, 8⟩
/-- `DMC_SUSPECTi`. -/
def DMC_SUSPECT (i : Nat) : Nat := 0x1103000 + 0x4 * i
def DMC_SUSPECT__VALID (i : Nat) : Fld := ⟨DMC_SUSPECT i, 31, 1⟩
def DMC_SUSPECT__CHANNEL (i : Nat) : Fld := ⟨DMC_SUSPECT i, 26, 5⟩
def DMC_SUSPECT__ROW (i : Nat) : Fld := ⟨DMC_SUSPECT i, 4, 18⟩
def DMC_SUSPECT__BANK (i : Nat) : Fld := ⟨DMC_SUSPECT i, 0, 4⟩
/-- `PWR_STAT`. -/
def PWR_STAT : Nat := 0x1200000
def PWR_STAT__LAST_CAUSE : Fld := ⟨PWR_STAT, 28, 4⟩
def PWR_STAT__DEG_LEVEL : Fld := ⟨PWR_STAT, 16, 6⟩
def PWR_STAT__OVER_K : Fld := ⟨PWR_STAT, 9, 1⟩
def PWR_STAT__B_WAITING : Fld := ⟨PWR_STAT, 8, 1⟩
def PWR_STAT__VIN_LOW : Fld := ⟨PWR_STAT, 2, 1⟩
def PWR_STAT__PSTATE : Fld := ⟨PWR_STAT, 0, 2⟩
/-- `PWR_LIMIT`. -/
def PWR_LIMIT : Nat := 0x1200004
def PWR_LIMIT__MW : Fld := ⟨PWR_LIMIT, 0, 18⟩
/-- `PWR_HOST_LIMIT`. -/
def PWR_HOST_LIMIT : Nat := 0x1200008
def PWR_HOST_LIMIT__MW : Fld := ⟨PWR_HOST_LIMIT, 0, 18⟩
/-- `PWR_MEAS`. -/
def PWR_MEAS : Nat := 0x120000C
def PWR_MEAS__MW : Fld := ⟨PWR_MEAS, 0, 18⟩
/-- `PWR_HEADROOM`. -/
def PWR_HEADROOM : Nat := 0x1200010
/-- `PWR_VIN_WARN`. -/
def PWR_VIN_WARN : Nat := 0x1200014
def PWR_VIN_WARN__MV : Fld := ⟨PWR_VIN_WARN, 0, 16⟩
/-- `PWR_ERR`. -/
def PWR_ERR : Nat := 0x1200018
def PWR_ERR__HK_REF : Fld := ⟨PWR_ERR, 3, 1⟩
def PWR_ERR__RAIL : Fld := ⟨PWR_ERR, 2, 1⟩
def PWR_ERR__OVER_K : Fld := ⟨PWR_ERR, 1, 1⟩
def PWR_ERR__VIN_LOW : Fld := ⟨PWR_ERR, 0, 1⟩
/-- `PWR_IRQ`. -/
def PWR_IRQ : Nat := 0x120001C
def PWR_IRQ__PEND : Fld := ⟨PWR_IRQ, 8, 1⟩
def PWR_IRQ__ERR : Fld := ⟨PWR_IRQ, 4, 1⟩
def PWR_IRQ__VIN : Fld := ⟨PWR_IRQ, 3, 1⟩
def PWR_IRQ__DEG : Fld := ⟨PWR_IRQ, 2, 1⟩
def PWR_IRQ__BAND : Fld := ⟨PWR_IRQ, 1, 1⟩
def PWR_IRQ__AX : Fld := ⟨PWR_IRQ, 0, 1⟩
/-- `PWR_ADMIT_CNT`. -/
def PWR_ADMIT_CNT : Nat := 0x1200020
/-- `PWR_DEFER_CNT`. -/
def PWR_DEFER_CNT : Nat := 0x1200024
def PWR_DEFER_CNT__OVF : Fld := ⟨PWR_DEFER_CNT, 31, 1⟩
def PWR_DEFER_CNT__COUNT : Fld := ⟨PWR_DEFER_CNT, 0, 31⟩
/-- `PWR_STEP_CNT`. -/
def PWR_STEP_CNT : Nat := 0x1200028
/-- `PWR_HK_CHn`. -/
def PWR_HK_CH (n : Nat) : Nat := 0x1200100 + 0x4 * n
def PWR_HK_CH__ROUND (n : Nat) : Fld := ⟨PWR_HK_CH n, 16, 16⟩
def PWR_HK_CH__VALUE (n : Nat) : Fld := ⟨PWR_HK_CH n, 0, 16⟩
/-- `PWR_AXn_CFG`. -/
def PWR_AX_CFG (n : Nat) : Nat := 0x1200200 + 0x10 * n
def PWR_AX_CFG__AUTO_OFF (n : Nat) : Fld := ⟨PWR_AX_CFG n, 13, 1⟩
def PWR_AX_CFG__STBY_KEEP (n : Nat) : Fld := ⟨PWR_AX_CFG n, 12, 1⟩
def PWR_AX_CFG__RETRY_MAX (n : Nat) : Fld := ⟨PWR_AX_CFG n, 8, 3⟩
def PWR_AX_CFG__LIMIT (n : Nat) : Fld := ⟨PWR_AX_CFG n, 0, 5⟩
/-- `PWR_AXn_STAT`. -/
def PWR_AX_STAT (n : Nat) : Nat := 0x1200204 + 0x10 * n
def PWR_AX_STAT__LIMITING (n : Nat) : Fld := ⟨PWR_AX_STAT n, 7, 1⟩
def PWR_AX_STAT__RETRIES (n : Nat) : Fld := ⟨PWR_AX_STAT n, 4, 3⟩
def PWR_AX_STAT__LOAD (n : Nat) : Fld := ⟨PWR_AX_STAT n, 3, 1⟩
def PWR_AX_STAT__STATE (n : Nat) : Fld := ⟨PWR_AX_STAT n, 0, 3⟩
/-- `PWR_AXn_FAULT_CNT`. -/
def PWR_AX_FAULT_CNT (n : Nat) : Nat := 0x1200208 + 0x10 * n
def PWR_AX_FAULT_CNT__OVF (n : Nat) : Fld := ⟨PWR_AX_FAULT_CNT n, 31, 1⟩
def PWR_AX_FAULT_CNT__COUNT (n : Nat) : Fld := ⟨PWR_AX_FAULT_CNT n, 0, 31⟩
/-- `THM_STAT`. -/
def THM_STAT : Nat := 0x1300000
def THM_STAT__TEMP : Fld := ⟨THM_STAT, 16, 16⟩
def THM_STAT__SENSOR_FAULT : Fld := ⟨THM_STAT, 10, 1⟩
def THM_STAT__EQ : Fld := ⟨THM_STAT, 4, 4⟩
def THM_STAT__BAND : Fld := ⟨THM_STAT, 0, 3⟩
/-- `THM_MAX`. -/
def THM_MAX : Nat := 0x1300004
def THM_MAX__TEMP : Fld := ⟨THM_MAX, 0, 16⟩
/-- `THM_EQ`. -/
def THM_EQ : Nat := 0x1300008
def THM_EQ__PRESET : Fld := ⟨THM_EQ, 0, 24⟩
/-- `THM_BAND_CNT`. -/
def THM_BAND_CNT : Nat := 0x130000C
/-- `EVT_BOOT_STAT`. -/
def EVT_BOOT_STAT : Nat := 0x150F000
def EVT_BOOT_STAT__TYPE : Fld := ⟨EVT_BOOT_STAT, 28, 4⟩
def EVT_BOOT_STAT__STEP : Fld := ⟨EVT_BOOT_STAT, 24, 4⟩
def EVT_BOOT_STAT__FAIL_CODE : Fld := ⟨EVT_BOOT_STAT, 16, 8⟩
def EVT_BOOT_STAT__ATTEMPTS : Fld := ⟨EVT_BOOT_STAT, 8, 8⟩
def EVT_BOOT_STAT__SLOT_FALLBACK : Fld := ⟨EVT_BOOT_STAT, 2, 1⟩
def EVT_BOOT_STAT__SLOT : Fld := ⟨EVT_BOOT_STAT, 1, 1⟩
def EVT_BOOT_STAT__RETAINED : Fld := ⟨EVT_BOOT_STAT, 0, 1⟩
/-- `EVT_BOOT_TIME`. -/
def EVT_BOOT_TIME : Nat := 0x150F004
/-- `TST_CTRL`. -/
def TST_CTRL : Nat := 0x1400000
def TST_CTRL__START : Fld := ⟨TST_CTRL, 8, 1⟩
def TST_CTRL__KIND : Fld := ⟨TST_CTRL, 6, 2⟩
def TST_CTRL__ITEM : Fld := ⟨TST_CTRL, 0, 6⟩
/-- `TST_STAT`. -/
def TST_STAT : Nat := 0x1400004
def TST_STAT__OWNER : Fld := ⟨TST_STAT, 24, 8⟩
def TST_STAT__REFUSED : Fld := ⟨TST_STAT, 2, 1⟩
def TST_STAT__SAFE : Fld := ⟨TST_STAT, 1, 1⟩
def TST_STAT__BUSY : Fld := ⟨TST_STAT, 0, 1⟩
/-- `TST_ARG0`. -/
def TST_ARG0 : Nat := 0x1400008
/-- `TST_ARG1`. -/
def TST_ARG1 : Nat := 0x140000C
/-- `TST_ARG2`. -/
def TST_ARG2 : Nat := 0x1400010
/-- `TST_RUN_ID`. -/
def TST_RUN_ID : Nat := 0x1400014
/-- `TST_RESULT`. -/
def TST_RESULT : Nat := 0x1400018
def TST_RESULT__STATUS : Fld := ⟨TST_RESULT, 0, 4⟩
/-- `TST_SIG`. -/
def TST_SIG : Nat := 0x140001C
/-- `TST_SAFE`. -/
def TST_SAFE : Nat := 0x1400020
def TST_SAFE__DETAIL : Fld := ⟨TST_SAFE, 8, 16⟩
def TST_SAFE__CAUSE : Fld := ⟨TST_SAFE, 0, 8⟩
/-- `TST_FAIL_CNT`. -/
def TST_FAIL_CNT : Nat := 0x1400024
def TST_FAIL_CNT__OVF : Fld := ⟨TST_FAIL_CNT, 31, 1⟩
def TST_FAIL_CNT__COUNT : Fld := ⟨TST_FAIL_CNT, 0, 31⟩
/-- `TST_TMUX`. -/
def TST_TMUX : Nat := 0x1400030
def TST_TMUX__EN : Fld := ⟨TST_TMUX, 19, 1⟩
def TST_TMUX__DIV : Fld := ⟨TST_TMUX, 16, 3⟩
def TST_TMUX__CODE1 : Fld := ⟨TST_TMUX, 8, 8⟩
def TST_TMUX__CODE0 : Fld := ⟨TST_TMUX, 0, 8⟩
/-- `EVT_CTRL`. -/
def EVT_CTRL : Nat := 0x1500000
def EVT_CTRL__IRQ_EN : Fld := ⟨EVT_CTRL, 8, 1⟩
def EVT_CTRL__IRQ_SEV : Fld := ⟨EVT_CTRL, 0, 3⟩
/-- `EVT_HEAD_SEQ`. -/
def EVT_HEAD_SEQ : Nat := 0x1500004
/-- `EVT_TAIL_SEQ`. -/
def EVT_TAIL_SEQ : Nat := 0x1500008
/-- `EVT_RD_SEQ`. -/
def EVT_RD_SEQ : Nat := 0x150000C
/-- `EVT_LOST`. -/
def EVT_LOST : Nat := 0x1500010
def EVT_LOST__OVF : Fld := ⟨EVT_LOST, 31, 1⟩
def EVT_LOST__COUNT : Fld := ⟨EVT_LOST, 0, 31⟩
/-- `EVT_DROP`. -/
def EVT_DROP : Nat := 0x1500014
def EVT_DROP__OVF : Fld := ⟨EVT_DROP, 31, 1⟩
def EVT_DROP__COUNT : Fld := ⟨EVT_DROP, 0, 31⟩
/-- `EVT_ERR_LOST`. -/
def EVT_ERR_LOST : Nat := 0x1500018
def EVT_ERR_LOST__OVF : Fld := ⟨EVT_ERR_LOST, 31, 1⟩
def EVT_ERR_LOST__COUNT : Fld := ⟨EVT_ERR_LOST, 0, 31⟩
/-- `EVT_ERR_STAT`. -/
def EVT_ERR_STAT : Nat := 0x150001C
def EVT_ERR_STAT__COUNT : Fld := ⟨EVT_ERR_STAT, 0, 7⟩
/-- `EVT_ERR_CLEAR`. -/
def EVT_ERR_CLEAR : Nat := 0x1500020
def EVT_ERR_CLEAR__CLEAR : Fld := ⟨EVT_ERR_CLEAR, 0, 1⟩
/-- `EVT_IRQ_PEND`. -/
def EVT_IRQ_PEND : Nat := 0x1500024
def EVT_IRQ_PEND__VSEL : Fld := ⟨EVT_IRQ_PEND, 1, 14⟩
def EVT_IRQ_PEND__DEV : Fld := ⟨EVT_IRQ_PEND, 0, 1⟩
/-- `EVT_VSELn`. -/
def EVT_VSEL (n : Nat) : Nat := 0x1500100 + 0x4 * n
def EVT_VSEL__EN (n : Nat) : Fld := ⟨EVT_VSEL n, 31, 1⟩
def EVT_VSEL__MASK (n : Nat) : Fld := ⟨EVT_VSEL n, 16, 15⟩
def EVT_VSEL__MATCH (n : Nat) : Fld := ⟨EVT_VSEL n, 0, 16⟩

/-- The registers of the CMD block. -/
def regTabCmd : List RegDef := [
  ⟨"CMD_CRn_BASE_LO", 0x100000, 0x40, 4, 0x4, 1, 0x0, 0xFFFFF000, 0x0, 0x0, 0x0, 0x0⟩,
  ⟨"CMD_CRn_BASE_HI", 0x100004, 0x40, 4, 0x4, 1, 0x0, 0xFFFFFFFF, 0x0, 0x0, 0x0, 0x0⟩,
  ⟨"CMD_CRn_CFG", 0x100008, 0x40, 4, 0x4, 1, 0x80, 0xF7, 0x0, 0x0, 0x0, 0x0⟩,
  ⟨"CMD_CRn_HEAD", 0x10000C, 0x40, 4, 0x4, 1, 0x0, 0x0, 0x0, 0x0, 0x0, 0x0⟩,
  ⟨"CMD_RPn_BASE_LO", 0x100010, 0x40, 4, 0x4, 1, 0x0, 0xFFFFF000, 0x0, 0x0, 0x0, 0x0⟩,
  ⟨"CMD_RPn_BASE_HI", 0x100014, 0x40, 4, 0x4, 1, 0x0, 0xFFFFFFFF, 0x0, 0x0, 0x0, 0x0⟩,
  ⟨"CMD_RPn_HEAD", 0x100018, 0x40, 4, 0x4, 1, 0x0, 0x1FF, 0x0, 0x0, 0x0, 0x0⟩,
  ⟨"CMD_RPn_TAIL", 0x10001C, 0x40, 4, 0x4, 1, 0x0, 0x0, 0x0, 0x0, 0x0, 0x0⟩,
  ⟨"CMD_CRn_STAT", 0x100020, 0x40, 4, 0x4, 1, 0x0, 0x0, 0xE0000, 0x0, 0x0, 0x0⟩,
  ⟨"CMD_DBn", 0x100100, 0x4, 4, 0x4, 1, 0x0, 0x0, 0x0, 0x0, 0xFFFFFFFF, 0x0⟩,
  ⟨"CMD_STAT", 0x100200, 0x4, 1, 0x4, 1, 0x0, 0x0, 0x0, 0x0, 0x0, 0x0⟩,
  ⟨"CMD_IRQ", 0x100204, 0x4, 1, 0x4, 1, 0x0, 0xF, 0xF00, 0x0, 0x0, 0x0⟩,
  ⟨"CMD_TIMEOUT_CNT", 0x100208, 0x4, 1, 0x4, 1, 0x0, 0x0, 0x0, 0x0, 0x0, 0x0⟩]

/-- The registers of the MBX block. -/
def regTabMbx : List RegDef := [
  ⟨"MBX_CTRL", 0x200000, 0x4, 1, 0x4, 1, 0x0, 0x0, 0x0, 0x0, 0x0, 0x1⟩,
  ⟨"MBX_STAT", 0x200004, 0x4, 1, 0x4, 1, 0x0, 0x0, 0xFFFFFFFF, 0x0, 0x0, 0x0⟩,
  ⟨"MBX_WFULL_CNT", 0x200008, 0x4, 1, 0x4, 1, 0x0, 0x0, 0x0, 0xFFFFFFFF, 0x0, 0x0⟩,
  ⟨"MBX_BINDn", 0x200100, 0x4, 16, 0x4, 1, 0x0, 0x0, 0x0, 0x0, 0x0, 0x1FFFF⟩,
  ⟨"MBX_TMOn", 0x200200, 0x4, 16, 0x4, 1, 0x0, 0xFFFF, 0x0, 0x0, 0x0, 0x0⟩,
  ⟨"MBX_IRQ", 0x200300, 0x4, 1, 0x4, 1, 0x0, 0xFFFF, 0x0, 0x0, 0x0, 0x0⟩,
  ⟨"MBX_IRQ_PEND", 0x200304, 0x4, 1, 0x4, 1, 0x0, 0x0, 0xFFFF, 0x0, 0x0, 0x0⟩,
  ⟨"SEMn_ACQ", 0x200400, 0x10, 32, 0x4, 1, 0x0, 0x0, 0x0, 0x0, 0x0, 0x0⟩,
  ⟨"SEMn_REL", 0x200404, 0x10, 32, 0x4, 1, 0x0, 0x0, 0x0, 0x0, 0xFFFFFFFF, 0x0⟩,
  ⟨"SEMn_PEEK", 0x200408, 0x10, 32, 0x4, 1, 0x0, 0x0, 0x0, 0x0, 0x0, 0x0⟩]

/-- The registers of the LNK block. -/
def regTabLnk : List RegDef := [
  ⟨"LNK_QMAP", 0x300000, 0x4, 1, 0x4, 1, 0x3FFFF, 0x3FFFF, 0x80000000, 0x0, 0x0, 0x0⟩,
  ⟨"LNK_QCFGq", 0x300010, 0x4, 6, 0x4, 1, 0x50, 0x1F0FF, 0x0, 0x0, 0x0, 0x0⟩,
  ⟨"LNK_Pp_CFG", 0x300100, 0x100, 4, 0x4, 1, 0x10708, 0xF3F3E, 0x0, 0x0, 0x0, 0x0⟩,
  ⟨"LNK_Pp_STAT", 0x300104, 0x100, 4, 0x4, 1, 0x0, 0x0, 0x0, 0x0, 0x0, 0x0⟩,
  ⟨"LNK_Pp_ERR", 0x300108, 0x100, 4, 0x4, 1, 0x0, 0x0, 0x3FFF, 0x0, 0x0, 0x0⟩,
  ⟨"LNK_Pp_SKEW", 0x30010C, 0x100, 4, 0x4, 1, 0x0, 0x0, 0x0, 0x0, 0x0, 0x0⟩,
  ⟨"LNK_Pp_HCRC_CNT", 0x300110, 0x100, 4, 0x4, 1, 0x0, 0x0, 0x0, 0xFFFFFFFF, 0x0, 0x0⟩,
  ⟨"LNK_Pp_PCRC_CNT", 0x300114, 0x100, 4, 0x4, 1, 0x0, 0x0, 0x0, 0xFFFFFFFF, 0x0, 0x0⟩,
  ⟨"LNK_Pp_DMG_CNT", 0x300118, 0x100, 4, 0x4, 1, 0x0, 0x0, 0x0, 0xFFFFFFFF, 0x0, 0x0⟩,
  ⟨"LNK_Pp_RESYNC_CNT", 0x30011C, 0x100, 4, 0x4, 1, 0x0, 0x0, 0x0, 0x0, 0x0, 0x0⟩,
  ⟨"LNK_Pp_FRAME_CNT", 0x300120, 0x100, 4, 0x4, 1, 0x0, 0x0, 0x0, 0x0, 0x0, 0x0⟩,
  ⟨"LNK_Pp_SNS_FN", 0x300124, 0x100, 4, 0x4, 1, 0x0, 0x0, 0x0, 0x0, 0x0, 0x0⟩,
  ⟨"LNK_Pp_FRAME_TMO", 0x300128, 0x100, 4, 0x4, 1, 0x186A0, 0xFFFFFF, 0x0, 0x0, 0x0, 0x0⟩,
  ⟨"LNK_Pp_SCC", 0x300130, 0x100, 4, 0x4, 1, 0x6402ED0, 0xFFFFFFF3, 0x0, 0x0, 0x0, 0x0⟩,
  ⟨"LNK_Pp_SET_CFG", 0x300134, 0x100, 4, 0x4, 1, 0x0, 0xFFFF3FFF, 0x0, 0x0, 0x0, 0x0⟩,
  ⟨"LNK_Pp_SETQ", 0x300138, 0x100, 4, 0x4, 1, 0x0, 0x700, 0x0, 0x0, 0x0, 0x0⟩,
  ⟨"LNK_Pp_LAST_TAG", 0x30013C, 0x100, 4, 0x4, 1, 0x0, 0x0, 0x0, 0x0, 0x0, 0x0⟩,
  ⟨"LNK_Pp_LAST_FID", 0x300140, 0x100, 4, 0x4, 1, 0x0, 0x0, 0x0, 0x0, 0x0, 0x0⟩,
  ⟨"LNK_Pp_TRG", 0x300148, 0x100, 4, 0x4, 1, 0x271000, 0xFFFFFF37, 0x0, 0x0, 0x0, 0x0⟩,
  ⟨"LNK_Pp_TRG_DLY", 0x30014C, 0x100, 4, 0x4, 1, 0x0, 0xFFFFFFFF, 0x0, 0x0, 0x0, 0x0⟩,
  ⟨"LNK_Ll_STAT", 0x301000, 0x40, 24, 0x4, 1, 0xF0, 0x0, 0x0, 0x0, 0x0, 0x0⟩,
  ⟨"LNK_Ll_PAT", 0x301004, 0x40, 24, 0x4, 1, 0x0, 0x3F, 0x0, 0x0, 0x0, 0x0⟩,
  ⟨"LNK_Ll_INJ", 0x301008, 0x40, 24, 0x4, 1, 0x0, 0x0, 0x0, 0x0, 0xFFFFFFFF, 0x0⟩,
  ⟨"LNK_Ll_BITS_LO", 0x30100C, 0x40, 24, 0x4, 1, 0x0, 0x0, 0x0, 0x0, 0x0, 0x0⟩,
  ⟨"LNK_Ll_BITS_HI", 0x301010, 0x40, 24, 0x4, 1, 0x0, 0x0, 0x0, 0x0, 0x0, 0x0⟩,
  ⟨"LNK_Ll_ERRS", 0x301014, 0x40, 24, 0x4, 1, 0x0, 0x0, 0x0, 0x0, 0x0, 0x0⟩]

/-- The registers of the RAW block. -/
def regTabRaw : List RegDef := [
  ⟨"RAW_LANES", 0x400000, 0x4, 1, 0x4, 1, 0x20, 0x0, 0x0, 0x0, 0x0, 0x0⟩,
  ⟨"RAW_Pp_CFG", 0x400100, 0x100, 4, 0x4, 1, 0x80110, 0x3F0F3F, 0x0, 0x0, 0x0, 0x0⟩,
  ⟨"RAW_Pp_LINE_NS", 0x400104, 0x100, 4, 0x4, 1, 0x3E8, 0xFFFFF, 0x0, 0x0, 0x0, 0x0⟩,
  ⟨"RAW_Pp_GHOST", 0x400108, 0x100, 4, 0x4, 1, 0x100800, 0xB07FFFFF, 0x0, 0x0, 0x0, 0x0⟩,
  ⟨"RAW_Pp_NOISE_FLOOR", 0x40010C, 0x100, 4, 0x4, 1, 0x1000, 0xFFFFFF, 0x0, 0x0, 0x0, 0x0⟩,
  ⟨"RAW_Pp_BLACK_ADJ", 0x400110, 0x100, 4, 0x4, 1, 0x0, 0xFFFFFF, 0x0, 0x0, 0x0, 0x0⟩,
  ⟨"RAW_Pp_DYN_ABS", 0x400114, 0x100, 4, 0x4, 1, 0x4000, 0xFFFFFF, 0x0, 0x0, 0x0, 0x0⟩,
  ⟨"RAW_Pp_DYN_REL", 0x400118, 0x100, 4, 0x4, 1, 0x4000, 0xFFFF, 0x0, 0x0, 0x0, 0x0⟩,
  ⟨"RAW_Pp_APPLY_TAG", 0x40011C, 0x100, 4, 0x4, 1, 0x0, 0xFFFFFFFF, 0x0, 0x0, 0x0, 0x0⟩,
  ⟨"RAW_Pp_GAINr", 0x400120, 0x100, 4, 0x4, 3, 0x10000, 0xFFFFFF, 0x0, 0x0, 0x0, 0x0⟩,
  ⟨"RAW_Pp_KNEEr", 0x400130, 0x100, 4, 0x4, 3, 0xFFFFFF, 0xFFFFFF, 0x0, 0x0, 0x0, 0x0⟩,
  ⟨"RAW_Pp_SATr", 0x400140, 0x100, 4, 0x4, 3, 0xFFFFFF, 0xFFFFFF, 0x0, 0x0, 0x0, 0x0⟩,
  ⟨"RAW_Pp_WEIGHTr", 0x400150, 0x100, 4, 0x4, 3, 0x100, 0xFFFF, 0x0, 0x0, 0x0, 0x0⟩,
  ⟨"RAW_Pp_STAT", 0x400160, 0x100, 4, 0x4, 1, 0x0, 0x0, 0x0, 0x0, 0x0, 0x0⟩,
  ⟨"RAW_Pp_LIVE_FID", 0x400168, 0x100, 4, 0x4, 1, 0x0, 0x0, 0x0, 0x0, 0x0, 0x0⟩,
  ⟨"RAW_Pp_ERR", 0x400164, 0x100, 4, 0x4, 1, 0x0, 0x0, 0x7F, 0x0, 0x0, 0x0⟩,
  ⟨"RAW_Pp_TRUNC_CNT", 0x40016C, 0x100, 4, 0x4, 1, 0x0, 0x0, 0x0, 0x0, 0x0, 0x0⟩,
  ⟨"RAW_Pp_OVF_CNT", 0x400170, 0x100, 4, 0x4, 1, 0x0, 0x0, 0x0, 0x0, 0x0, 0x0⟩,
  ⟨"RAW_Pp_PRESS_RC", 0x400180, 0x100, 4, 0x4, 1, 0x10010500, 0x7F7FFFFF, 0x0, 0x0, 0x0, 0x0⟩,
  ⟨"RAW_Pp_PRESS_STAT", 0x400184, 0x100, 4, 0x4, 1, 0x0, 0x0, 0x0, 0x0, 0x0, 0x0⟩,
  ⟨"RAW_Pp_PRESS_BYTES", 0x400188, 0x100, 4, 0x4, 1, 0x0, 0x0, 0x0, 0x0, 0x0, 0x0⟩,
  ⟨"RAW_Pp_PRESS_BUDGET", 0x40018C, 0x100, 4, 0x4, 1, 0x0, 0x0, 0x0, 0x0, 0x0, 0x0⟩,
  ⟨"RAW_Pp_PRESS_OVS_CNT", 0x400190, 0x100, 4, 0x4, 1, 0x0, 0x0, 0x0, 0xFFFFFFFF, 0x0, 0x0⟩,
  ⟨"RAW_Pp_PRESS_STORED_CNT", 0x400194, 0x100, 4, 0x4, 1, 0x0, 0x0, 0x0, 0xFFFFFFFF, 0x0, 0x0⟩]

/-- The registers of the CTX block. -/
def regTabCtx : List RegDef := [
  ⟨"CTX_LOAD", 0x500000, 0x4, 1, 0x4, 1, 0x0, 0x0, 0x0, 0x0, 0x0, 0x0⟩,
  ⟨"CTX_LADLE_STAT", 0x500004, 0x4, 1, 0x4, 1, 0x7, 0x0, 0x0, 0x0, 0x0, 0x0⟩,
  ⟨"CTX_SWITCH_CNT", 0x500008, 0x4, 1, 0x4, 1, 0x0, 0x0, 0x0, 0x0, 0x0, 0x0⟩,
  ⟨"CTX_Cc_SIZE", 0x500100, 0x100, 6, 0x4, 1, 0x0, 0xFFFFFFFF, 0x0, 0x0, 0x0, 0x0⟩,
  ⟨"CTX_Cc_BUDGET", 0x500104, 0x100, 6, 0x4, 1, 0x3E8, 0xFFFFF, 0x0, 0x0, 0x0, 0x0⟩,
  ⟨"CTX_Cc_FRAME_NS", 0x500108, 0x100, 6, 0x4, 1, 0xFE502B, 0xFFFFFFFF, 0x0, 0x0, 0x0, 0x0⟩,
  ⟨"CTX_Cc_POLICY", 0x50010C, 0x100, 6, 0x4, 1, 0x0, 0x0, 0x0, 0x0, 0x0, 0x0⟩,
  ⟨"CTX_Cc_STATE", 0x500110, 0x100, 6, 0x4, 1, 0x0, 0x0, 0x0, 0x0, 0x0, 0x0⟩,
  ⟨"CTX_Cc_COMMIT_ID", 0x500114, 0x100, 6, 0x4, 1, 0x0, 0x0, 0x0, 0x0, 0x0, 0x0⟩,
  ⟨"CTX_Cc_FP_LO", 0x500118, 0x100, 6, 0x4, 1, 0x0, 0x0, 0x0, 0x0, 0x0, 0x0⟩,
  ⟨"CTX_Cc_FP_HI", 0x50011C, 0x100, 6, 0x4, 1, 0x0, 0x0, 0x0, 0x0, 0x0, 0x0⟩,
  ⟨"CTX_Cc_HEAD_FID", 0x500120, 0x100, 6, 0x4, 1, 0x0, 0x0, 0x0, 0x0, 0x0, 0x0⟩,
  ⟨"CTX_Cc_HEAD_POS", 0x500124, 0x100, 6, 0x4, 1, 0x0, 0x0, 0x0, 0x0, 0x0, 0x0⟩,
  ⟨"CTX_Cc_ERR", 0x500128, 0x100, 6, 0x4, 1, 0x0, 0x0, 0x1F, 0x0, 0x0, 0x0⟩,
  ⟨"CTX_Cc_IRQ", 0x50012C, 0x100, 6, 0x4, 1, 0x0, 0x7, 0x0, 0x0, 0x0, 0x0⟩,
  ⟨"CTX_Cc_PROC_CNT", 0x500130, 0x100, 6, 0x4, 1, 0x0, 0x0, 0x0, 0x0, 0x0, 0x0⟩,
  ⟨"CTX_Cc_SKIP_CNT", 0x500134, 0x100, 6, 0x4, 1, 0x0, 0x0, 0x0, 0x0, 0x0, 0x0⟩,
  ⟨"CTX_Cc_DISC_CNT", 0x500138, 0x100, 6, 0x4, 1, 0x0, 0x0, 0x0, 0x0, 0x0, 0x0⟩,
  ⟨"CTX_Cc_LATE_CNT", 0x50013C, 0x100, 6, 0x4, 1, 0x0, 0x0, 0x0, 0xFFFFFFFF, 0x0, 0x0⟩,
  ⟨"CTX_Cc_MAX_LATE", 0x500140, 0x100, 6, 0x4, 1, 0x0, 0x0, 0x0, 0xFFFFFFFF, 0x0, 0x0⟩]

/-- The registers of the CLR block. -/
def regTabClr : List RegDef := [
  ⟨"CLR_LANES", 0x600000, 0x4, 1, 0x4, 1, 0x10, 0x0, 0x0, 0x0, 0x0, 0x0⟩,
  ⟨"CLR_Cc_CFG", 0x600100, 0x100, 6, 0x4, 1, 0x2, 0x33, 0x0, 0x0, 0x0, 0x0⟩,
  ⟨"CLR_Cc_WB01", 0x600104, 0x100, 6, 0x4, 1, 0x10001000, 0xFFFFFFFF, 0x0, 0x0, 0x0, 0x0⟩,
  ⟨"CLR_Cc_WB23", 0x600108, 0x100, 6, 0x4, 1, 0x10001000, 0xFFFFFFFF, 0x0, 0x0, 0x0, 0x0⟩,
  ⟨"CLR_Cc_DM_EPS", 0x60010C, 0x100, 6, 0x4, 1, 0x100, 0xFFFFFF, 0x0, 0x0, 0x0, 0x0⟩,
  ⟨"CLR_Cc_FCS_KNEE", 0x600110, 0x100, 6, 0x4, 1, 0x8000, 0xFFFFFF, 0x0, 0x0, 0x0, 0x0⟩,
  ⟨"CLR_Cc_LUMA_K", 0x600114, 0x100, 6, 0x4, 1, 0xF2E4340, 0xFFFFFFFF, 0x0, 0x0, 0x0, 0x0⟩,
  ⟨"CLR_Cc_CMk", 0x600118, 0x100, 6, 0x4, 9, 0x0, 0xFFFFFF, 0x0, 0x0, 0x0, 0x0⟩,
  ⟨"CLR_Cc_OFFk", 0x60013C, 0x100, 6, 0x4, 3, 0x0, 0xFFFFFF, 0x0, 0x0, 0x0, 0x0⟩,
  ⟨"CLR_Cc_WSk", 0x600148, 0x100, 6, 0x4, 9, 0x0, 0xFFFFFF, 0x0, 0x0, 0x0, 0x0⟩,
  ⟨"CLR_Cc_ERR", 0x600170, 0x100, 6, 0x4, 1, 0x0, 0x0, 0x3, 0x0, 0x0, 0x0⟩,
  ⟨"CLR_Cc_ZS_FID", 0x600174, 0x100, 6, 0x4, 1, 0x0, 0x0, 0x0, 0x0, 0x0, 0x0⟩]

/-- The registers of the TAP block. -/
def regTabTap : List RegDef := [
  ⟨"TAP_Tt_OWNER", 0x700100, 0x100, 10, 0x4, 1, 0x7, 0x0, 0x0, 0x0, 0x0, 0x0⟩,
  ⟨"TAP_Tt_CROP0", 0x700104, 0x100, 10, 0x4, 1, 0x0, 0xFFFFFFFF, 0x0, 0x0, 0x0, 0x0⟩,
  ⟨"TAP_Tt_CROP1", 0x700108, 0x100, 10, 0x4, 1, 0x0, 0xFFFFFFFF, 0x0, 0x0, 0x0, 0x0⟩,
  ⟨"TAP_Tt_OUT", 0x70010C, 0x100, 10, 0x4, 1, 0x0, 0xFFFFFFFF, 0x0, 0x0, 0x0, 0x0⟩,
  ⟨"TAP_Tt_FMT", 0x700110, 0x100, 10, 0x4, 1, 0x10102, 0x7F30F, 0x0, 0x0, 0x0, 0x0⟩,
  ⟨"TAP_Tt_EXP", 0x700114, 0x100, 10, 0x4, 1, 0x10000, 0xFFFFFF, 0x0, 0x0, 0x0, 0x0⟩,
  ⟨"TAP_Tt_BUF_LO", 0x700118, 0x100, 10, 0x4, 1, 0x0, 0xFFFFF000, 0x0, 0x0, 0x0, 0x0⟩,
  ⟨"TAP_Tt_BUF_HI", 0x70011C, 0x100, 10, 0x4, 1, 0x0, 0xFFFFFFFF, 0x0, 0x0, 0x0, 0x0⟩,
  ⟨"TAP_Tt_BUF_CFG", 0x700120, 0x100, 10, 0x4, 1, 0x2, 0xFFFFF00F, 0x0, 0x0, 0x0, 0x0⟩,
  ⟨"TAP_Tt_HOLD", 0x700124, 0x100, 10, 0x4, 1, 0x0, 0x0, 0xFF, 0x0, 0x0, 0x0⟩,
  ⟨"TAP_Tt_HOLD_SET", 0x700128, 0x100, 10, 0x4, 1, 0x0, 0x0, 0x0, 0x0, 0xFFFFFFFF, 0x0⟩,
  ⟨"TAP_Tt_STAT", 0x70012C, 0x100, 10, 0x4, 1, 0x0, 0x0, 0x30, 0x0, 0x0, 0x0⟩,
  ⟨"TAP_Tt_DROP_CNT", 0x700130, 0x100, 10, 0x4, 1, 0x0, 0x0, 0x0, 0x0, 0x0, 0x0⟩,
  ⟨"TAP_Tt_FRAME_CNT", 0x700134, 0x100, 10, 0x4, 1, 0x0, 0x0, 0x0, 0x0, 0x0, 0x0⟩,
  ⟨"TAP_Tt_DESCk_FID", 0x700140, 0x100, 10, 0x8, 8, 0x0, 0x0, 0x0, 0x0, 0x0, 0x0⟩,
  ⟨"TAP_Tt_DESCk_INFO", 0x700144, 0x100, 10, 0x8, 8, 0x0, 0x0, 0x0, 0x0, 0x0, 0x0⟩]

/-- The registers of the VLT block. -/
def regTabVlt : List RegDef := [
  ⟨"VLT_LAYOUT", 0x800000, 0x4, 1, 0x4, 1, 0x10, 0x0, 0x0, 0x0, 0x0, 0x0⟩,
  ⟨"VLT_GEN", 0x800004, 0x4, 1, 0x4, 1, 0x0, 0x0, 0x0, 0x0, 0x0, 0x0⟩,
  ⟨"VLT_TB_EPOCH", 0x800008, 0x4, 1, 0x4, 1, 0x0, 0x0, 0x0, 0x0, 0x0, 0x0⟩,
  ⟨"VLT_TAKE_USED_LO", 0x800010, 0x4, 1, 0x4, 1, 0x0, 0x0, 0x0, 0x0, 0x0, 0x0⟩,
  ⟨"VLT_TAKE_USED_HI", 0x800014, 0x4, 1, 0x4, 1, 0x0, 0x0, 0x0, 0x0, 0x0, 0x0⟩,
  ⟨"VLT_REC_STAT", 0x800020, 0x4, 1, 0x4, 1, 0x0, 0x0, 0x100, 0x0, 0x0, 0x0⟩,
  ⟨"VLT_REC_TAKE", 0x800024, 0x4, 1, 0x4, 1, 0x0, 0x0, 0x0, 0x0, 0x0, 0x0⟩,
  ⟨"VLT_TALLY", 0x800028, 0x4, 1, 0x4, 1, 0x0, 0x1, 0x0, 0x0, 0x0, 0x0⟩,
  ⟨"VLT_HOST_RING_WR", 0x800030, 0x4, 1, 0x4, 1, 0x0, 0x0, 0x0, 0xFFFFFFFF, 0x0, 0x0⟩,
  ⟨"VLT_Cc_RING_BASE", 0x800100, 0x100, 6, 0x4, 1, 0x0, 0x0, 0x0, 0x0, 0x0, 0x0⟩,
  ⟨"VLT_Cc_RING_SECT", 0x800104, 0x100, 6, 0x4, 1, 0x0, 0x0, 0x0, 0x0, 0x0, 0x0⟩,
  ⟨"VLT_Cc_SPILL_SECT", 0x800108, 0x100, 6, 0x4, 1, 0x0, 0x0, 0x0, 0x0, 0x0, 0x0⟩,
  ⟨"VLT_Cc_MAXREC", 0x80010C, 0x100, 6, 0x4, 1, 0x0, 0x0, 0x0, 0x0, 0x0, 0x0⟩,
  ⟨"VLT_Cc_WP", 0x800110, 0x100, 6, 0x4, 1, 0x0, 0x0, 0x0, 0x0, 0x0, 0x0⟩,
  ⟨"VLT_Cc_NEWEST_FID", 0x800114, 0x100, 6, 0x4, 1, 0x0, 0x0, 0x0, 0x0, 0x0, 0x0⟩,
  ⟨"VLT_Cc_OLDEST_FID", 0x800118, 0x100, 6, 0x4, 1, 0x0, 0x0, 0x0, 0x0, 0x0, 0x0⟩,
  ⟨"VLT_Cc_STAT", 0x80011C, 0x100, 6, 0x4, 1, 0x0, 0x0, 0x0, 0x0, 0x0, 0x0⟩,
  ⟨"VLT_Cc_ERR", 0x800120, 0x100, 6, 0x4, 1, 0x0, 0x0, 0x7, 0x0, 0x0, 0x0⟩,
  ⟨"VLT_Cc_DROP_CNT", 0x800124, 0x100, 6, 0x4, 1, 0x0, 0x0, 0x0, 0x0, 0x0, 0x0⟩,
  ⟨"VLT_Cc_RECLAIM_CNT", 0x800128, 0x100, 6, 0x4, 1, 0x0, 0x0, 0x0, 0x0, 0x0, 0x0⟩,
  ⟨"VLT_Cc_BORROW_CNT", 0x80012C, 0x100, 6, 0x4, 1, 0x0, 0x0, 0x0, 0x0, 0x0, 0x0⟩,
  ⟨"VLT_PD_STAT", 0x808000, 0x4, 1, 0x4, 1, 0x70, 0x0, 0x0, 0x0, 0x0, 0x0⟩,
  ⟨"VLT_PD_ERR", 0x808004, 0x4, 1, 0x4, 1, 0x0, 0x0, 0x7F, 0x0, 0x0, 0x0⟩,
  ⟨"VLT_PD_STRIPE_CNT", 0x808008, 0x4, 1, 0x4, 1, 0x0, 0x0, 0x0, 0x0, 0x0, 0x0⟩,
  ⟨"VLT_PD_Cc_ERR_CNT", 0x808100, 0x10, 6, 0x4, 1, 0x0, 0x0, 0x0, 0xFFFFFFFF, 0x0, 0x0⟩,
  ⟨"VLT_PD_Cc_LAST_FID", 0x808104, 0x10, 6, 0x4, 1, 0x0, 0x0, 0x0, 0x0, 0x0, 0x0⟩,
  ⟨"VLT_PD_Cc_LAST_INFO", 0x808108, 0x10, 6, 0x4, 1, 0x0, 0x0, 0x0, 0x0, 0x0, 0x0⟩]

/-- The registers of the VQ block. -/
def regTabVq : List RegDef := [
  ⟨"VQ_SQn_BASE_LO", 0x900000, 0x40, 16, 0x4, 1, 0x0, 0x0, 0x0, 0x0, 0x0, 0x0⟩,
  ⟨"VQ_SQn_BASE_HI", 0x900004, 0x40, 16, 0x4, 1, 0x0, 0x0, 0x0, 0x0, 0x0, 0x0⟩,
  ⟨"VQ_SQn_CFG", 0x900008, 0x40, 16, 0x4, 1, 0x0, 0x0, 0x0, 0x0, 0x0, 0x0⟩,
  ⟨"VQ_SQn_HEAD", 0x90000C, 0x40, 16, 0x4, 1, 0x0, 0x0, 0x0, 0x0, 0x0, 0x0⟩,
  ⟨"VQ_SQn_DB", 0x900010, 0x40, 16, 0x4, 1, 0x0, 0x0, 0x0, 0x0, 0xFFFFFFFF, 0x0⟩,
  ⟨"VQ_CQn_BASE_LO", 0x900014, 0x40, 16, 0x4, 1, 0x0, 0x0, 0x0, 0x0, 0x0, 0x0⟩,
  ⟨"VQ_CQn_BASE_HI", 0x900018, 0x40, 16, 0x4, 1, 0x0, 0x0, 0x0, 0x0, 0x0, 0x0⟩,
  ⟨"VQ_CQn_HEAD", 0x90001C, 0x40, 16, 0x4, 1, 0x0, 0x1FFF, 0x0, 0x0, 0x0, 0x0⟩,
  ⟨"VQ_CQn_TAIL", 0x900020, 0x40, 16, 0x4, 1, 0x0, 0x0, 0x0, 0x0, 0x0, 0x0⟩,
  ⟨"VQ_Qn_TAGS", 0x900024, 0x40, 16, 0x4, 1, 0x0, 0x0, 0x0, 0x0, 0x0, 0x0⟩,
  ⟨"VQ_Qn_STAT", 0x900028, 0x40, 16, 0x4, 1, 0x0, 0x0, 0x70000, 0x0, 0x0, 0x0⟩,
  ⟨"VQ_CTRL", 0x900800, 0x4, 1, 0x4, 1, 0x3E800C8, 0xFFFFFFFF, 0x0, 0x0, 0x0, 0x0⟩,
  ⟨"VQ_STAT", 0x900804, 0x4, 1, 0x4, 1, 0x0, 0x0, 0x0, 0x0, 0x0, 0x0⟩,
  ⟨"VQ_VPSTATE", 0x900808, 0x4, 1, 0x4, 1, 0x20, 0x0, 0x0, 0x0, 0x0, 0x0⟩,
  ⟨"VQ_IRQ", 0x900810, 0x4, 1, 0x4, 1, 0x0, 0xFFFF, 0x0, 0x0, 0x0, 0x0⟩,
  ⟨"VQ_IRQ_PEND", 0x900814, 0x4, 1, 0x4, 1, 0x0, 0x0, 0xFFFF, 0x0, 0x0, 0x0⟩,
  ⟨"VQ_HOOP_WAIT_CNT", 0x900820, 0x4, 1, 0x4, 1, 0x0, 0x0, 0x0, 0x0, 0x0, 0x0⟩,
  ⟨"VQ_STALE_CNT", 0x900824, 0x4, 1, 0x4, 1, 0x0, 0x0, 0x0, 0x0, 0x0, 0x0⟩,
  ⟨"VQ_ABORT_CNT", 0x900828, 0x4, 1, 0x4, 1, 0x0, 0x0, 0x0, 0x0, 0x0, 0x0⟩,
  ⟨"VQ_LOST_CPL", 0x90082C, 0x4, 1, 0x4, 1, 0x0, 0x0, 0x0, 0xFFFFFFFF, 0x0, 0x0⟩]

/-- The registers of the CDC block. -/
def regTabCdc : List RegDef := [
  ⟨"CDC_LOAD", 0xA00000, 0x4, 1, 0x4, 1, 0x0, 0x0, 0x0, 0x0, 0x0, 0x0⟩,
  ⟨"CDC_ENG_STAT", 0xA00004, 0x4, 1, 0x4, 1, 0x1F1F1F00, 0x0, 0x0, 0x0, 0x0, 0x0⟩,
  ⟨"CDC_Ss_CFG", 0xA00100, 0x100, 16, 0x4, 1, 0x0, 0x0, 0x0, 0x0, 0x0, 0x0⟩,
  ⟨"CDC_Ss_STATE", 0xA00104, 0x100, 16, 0x4, 1, 0x0, 0x0, 0x0, 0x0, 0x0, 0x0⟩,
  ⟨"CDC_Ss_LAST_FID", 0xA00108, 0x100, 16, 0x4, 1, 0x0, 0x0, 0x0, 0x0, 0x0, 0x0⟩,
  ⟨"CDC_Ss_LAST_POC", 0xA0010C, 0x100, 16, 0x4, 1, 0x0, 0x0, 0x0, 0x0, 0x0, 0x0⟩,
  ⟨"CDC_Ss_CPB_V", 0xA00110, 0x100, 16, 0x4, 1, 0x0, 0x0, 0x0, 0x0, 0x0, 0x0⟩,
  ⟨"CDC_Ss_TARGET", 0xA00114, 0x100, 16, 0x4, 1, 0x0, 0x0, 0x0, 0x0, 0x0, 0x0⟩,
  ⟨"CDC_Ss_ERR", 0xA00118, 0x100, 16, 0x4, 1, 0x0, 0x0, 0x7F, 0x0, 0x0, 0x0⟩,
  ⟨"CDC_Ss_IRQ", 0xA0011C, 0x100, 16, 0x4, 1, 0x0, 0xF, 0x100, 0x0, 0x0, 0x0⟩,
  ⟨"CDC_Ss_DR_HEAD", 0xA00120, 0x100, 16, 0x4, 1, 0x0, 0x7FFFFFFF, 0x0, 0x0, 0x0, 0x0⟩,
  ⟨"CDC_Ss_DR_TAIL", 0xA00124, 0x100, 16, 0x4, 1, 0x0, 0x0, 0x0, 0x0, 0x0, 0x0⟩,
  ⟨"CDC_Ss_DD_HEAD", 0xA00128, 0x100, 16, 0x4, 1, 0x0, 0x1FFFF, 0x0, 0x0, 0x0, 0x0⟩,
  ⟨"CDC_Ss_DD_TAIL", 0xA0012C, 0x100, 16, 0x4, 1, 0x0, 0x0, 0x0, 0x0, 0x0, 0x0⟩,
  ⟨"CDC_Ss_PIC_CNT", 0xA00130, 0x100, 16, 0x4, 1, 0x0, 0x0, 0x0, 0x0, 0x0, 0x0⟩,
  ⟨"CDC_Ss_SLOT_MISS_CNT", 0xA00134, 0x100, 16, 0x4, 1, 0x0, 0x0, 0x0, 0x0, 0x0, 0x0⟩,
  ⟨"CDC_Ss_PKT_CNT", 0xA00138, 0x100, 16, 0x4, 1, 0x0, 0x0, 0x0, 0x0, 0x0, 0x0⟩,
  ⟨"CDC_Ss_OVB_CNT", 0xA0013C, 0x100, 16, 0x4, 1, 0x0, 0x0, 0x0, 0xFFFFFFFF, 0x0, 0x0⟩,
  ⟨"CDC_Ss_MIN_CNT", 0xA00140, 0x100, 16, 0x4, 1, 0x0, 0x0, 0x0, 0xFFFFFFFF, 0x0, 0x0⟩,
  ⟨"CDC_Ss_STR_DROP_CNT", 0xA00144, 0x100, 16, 0x4, 1, 0x0, 0x0, 0x0, 0xFFFFFFFF, 0x0, 0x0⟩,
  ⟨"CDC_Ss_GAP_CNT", 0xA00148, 0x100, 16, 0x4, 1, 0x0, 0x0, 0x0, 0xFFFFFFFF, 0x0, 0x0⟩,
  ⟨"CDC_Ss_RTP_SEQ", 0xA0014C, 0x100, 16, 0x4, 1, 0x0, 0x0, 0x0, 0x0, 0x0, 0x0⟩,
  ⟨"CDC_POOL_BASE_LO", 0xA08000, 0x4, 1, 0x4, 1, 0x0, 0xFFFFF000, 0x0, 0x0, 0x0, 0x0⟩,
  ⟨"CDC_POOL_BASE_HI", 0xA08004, 0x4, 1, 0x4, 1, 0x0, 0xFFFFFFFF, 0x0, 0x0, 0x0, 0x0⟩,
  ⟨"CDC_POOL_CFG", 0xA08008, 0x4, 1, 0x4, 1, 0x0, 0xFFFFF07F, 0x0, 0x0, 0x0, 0x0⟩,
  ⟨"CDC_POOL_STAT", 0xA0800C, 0x4, 1, 0x4, 1, 0x0, 0x0, 0x100, 0x0, 0x0, 0x0⟩,
  ⟨"CDC_POOL_Bb_MARK", 0xA08100, 0x8, 64, 0x4, 1, 0x0, 0x0, 0x0, 0x0, 0x0, 0x0⟩,
  ⟨"CDC_POOL_Bb_INFO", 0xA08104, 0x8, 64, 0x4, 1, 0x0, 0x0, 0x0, 0x0, 0x0, 0x0⟩,
  ⟨"CDC_Dd_STAT", 0xA09000, 0x100, 2, 0x4, 1, 0x0, 0x0, 0x0, 0x0, 0x0, 0x0⟩,
  ⟨"CDC_Dd_ERR", 0xA09004, 0x100, 2, 0x4, 1, 0x0, 0x0, 0xFF, 0x0, 0x0, 0x0⟩,
  ⟨"CDC_Dd_IRQ", 0xA09008, 0x100, 2, 0x4, 1, 0x0, 0x3, 0x100, 0x0, 0x0, 0x0⟩,
  ⟨"CDC_Dd_PIC_CNT", 0xA0900C, 0x100, 2, 0x4, 1, 0x0, 0x0, 0x0, 0x0, 0x0, 0x0⟩,
  ⟨"CDC_Dd_ERR_CNT", 0xA09010, 0x100, 2, 0x4, 1, 0x0, 0x0, 0x0, 0x0, 0x0, 0x0⟩,
  ⟨"CDC_Dd_DEFER_CNT", 0xA09014, 0x100, 2, 0x4, 1, 0x0, 0x0, 0x0, 0x0, 0x0, 0x0⟩,
  ⟨"CDC_Dd_CONC_CNT", 0xA09018, 0x100, 2, 0x4, 1, 0x0, 0x0, 0x0, 0xFFFFFFFF, 0x0, 0x0⟩,
  ⟨"CDC_Dd_GEN_CNT", 0xA0901C, 0x100, 2, 0x4, 1, 0x0, 0x0, 0x0, 0xFFFFFFFF, 0x0, 0x0⟩,
  ⟨"CDC_Dd_REPORT_OVW", 0xA09020, 0x100, 2, 0x4, 1, 0x0, 0x0, 0x0, 0xFFFFFFFF, 0x0, 0x0⟩]

/-- The registers of the CMP block. -/
def regTabCmp : List RegDef := [
  ⟨"CMP_Cn_STAT", 0xB00000, 0x1000, 4, 0x4, 1, 0x0, 0x0, 0x0, 0x0, 0x0, 0x0⟩,
  ⟨"CMP_Cn_CFN", 0xB00004, 0x1000, 4, 0x4, 1, 0x0, 0x0, 0x0, 0x0, 0x0, 0x0⟩,
  ⟨"CMP_Cn_OUT", 0xB00008, 0x1000, 4, 0x4, 1, 0x0, 0x0, 0x0, 0x0, 0x0, 0x0⟩,
  ⟨"CMP_Cn_ERR", 0xB0000C, 0x1000, 4, 0x4, 1, 0x0, 0x0, 0xFF, 0x0, 0x0, 0x0⟩,
  ⟨"CMP_Cn_IRQ", 0xB00010, 0x1000, 4, 0x4, 1, 0x0, 0x7, 0x100, 0x0, 0x0, 0x0⟩,
  ⟨"CMP_Cn_LATE_CNT", 0xB00014, 0x1000, 4, 0x4, 1, 0x0, 0x0, 0x0, 0xFFFFFFFF, 0x0, 0x0⟩,
  ⟨"CMP_Cn_FTMO_CNT", 0xB00018, 0x1000, 4, 0x4, 1, 0x0, 0x0, 0x0, 0xFFFFFFFF, 0x0, 0x0⟩,
  ⟨"CMP_Cn_FLIP_REPL_CNT", 0xB0001C, 0x1000, 4, 0x4, 1, 0x0, 0x0, 0x0, 0xFFFFFFFF, 0x0, 0x0⟩,
  ⟨"CMP_Cn_TORN_CNT", 0xB00020, 0x1000, 4, 0x4, 1, 0x0, 0x0, 0x0, 0xFFFFFFFF, 0x0, 0x0⟩,
  ⟨"CMP_Cn_WB_STAT", 0xB00024, 0x1000, 4, 0x4, 1, 0x0, 0x0, 0x0, 0x0, 0x0, 0x0⟩,
  ⟨"CMP_Cn_WB_HOLD", 0xB00028, 0x1000, 4, 0x4, 1, 0x0, 0x0, 0xFF, 0x0, 0x0, 0x0⟩,
  ⟨"CMP_Cn_WB_HOLD_SET", 0xB0002C, 0x1000, 4, 0x4, 1, 0x0, 0x0, 0x0, 0x0, 0xFF, 0x0⟩,
  ⟨"CMP_Cn_WB_DESCk", 0xB00040, 0x1000, 4, 0x4, 8, 0x0, 0x0, 0x0, 0x0, 0x0, 0x0⟩,
  ⟨"CMP_Cn_Ll_STAT", 0xB00100, 0x1000, 4, 0x40, 8, 0x0, 0x0, 0x0, 0x0, 0x0, 0x0⟩,
  ⟨"CMP_Cn_Ll_BUF_LO", 0xB00104, 0x1000, 4, 0x40, 8, 0x0, 0x0, 0x0, 0x0, 0x0, 0x0⟩,
  ⟨"CMP_Cn_Ll_BUF_HI", 0xB00108, 0x1000, 4, 0x40, 8, 0x0, 0x0, 0x0, 0x0, 0x0, 0x0⟩,
  ⟨"CMP_Cn_Ll_CRC", 0xB0010C, 0x1000, 4, 0x40, 8, 0x0, 0x0, 0x0, 0x0, 0x0, 0x0⟩,
  ⟨"CMP_Cn_Ll_CRC_CFN", 0xB00110, 0x1000, 4, 0x40, 8, 0x0, 0x0, 0x0, 0x0, 0x0, 0x0⟩,
  ⟨"CMP_Cn_Ll_REPEAT_CNT", 0xB00114, 0x1000, 4, 0x40, 8, 0x0, 0x0, 0x0, 0x0, 0x0, 0x0⟩]

/-- The registers of the DSP block. -/
def regTabDsp : List RegDef := [
  ⟨"DSP_TGt_STAT", 0xC00000, 0x100, 4, 0x4, 1, 0x70, 0x0, 0x0, 0x0, 0x0, 0x0⟩,
  ⟨"DSP_TGt_SIZE", 0xC00004, 0x100, 4, 0x4, 1, 0x0, 0x0, 0x0, 0x0, 0x0, 0x0⟩,
  ⟨"DSP_TGt_VBLANK", 0xC00008, 0x100, 4, 0x4, 1, 0x0, 0x0, 0x0, 0x0, 0x0, 0x0⟩,
  ⟨"DSP_TGt_PHASE", 0xC0000C, 0x100, 4, 0x4, 1, 0x0, 0x0, 0x0, 0x0, 0x0, 0x0⟩,
  ⟨"DSP_TGt_TC", 0xC00010, 0x100, 4, 0x4, 1, 0x0, 0x0, 0x0, 0x0, 0x0, 0x0⟩,
  ⟨"DSP_TGt_ERR", 0xC00014, 0x100, 4, 0x4, 1, 0x0, 0x0, 0x3, 0x0, 0x0, 0x0⟩,
  ⟨"DSP_TGt_IRQ", 0xC00018, 0x100, 4, 0x4, 1, 0x0, 0x3, 0x100, 0x0, 0x0, 0x0⟩,
  ⟨"DSP_TGt_FRAME_CNT", 0xC0001C, 0x100, 4, 0x4, 1, 0x0, 0x0, 0x0, 0x0, 0x0, 0x0⟩,
  ⟨"DSP_TGt_SLIP_CNT", 0xC00020, 0x100, 4, 0x4, 1, 0x0, 0x0, 0x0, 0xFFFFFFFF, 0x0, 0x0⟩,
  ⟨"DSP_TGt_REALIGN_CNT", 0xC00024, 0x100, 4, 0x4, 1, 0x0, 0x0, 0x0, 0xFFFFFFFF, 0x0, 0x0⟩,
  ⟨"DSP_Pp_STAT", 0xC00800, 0x100, 4, 0x4, 1, 0x70, 0x0, 0x0, 0x0, 0x0, 0x0⟩,
  ⟨"DSP_Pp_ERR", 0xC00804, 0x100, 4, 0x4, 1, 0x0, 0x0, 0x1F, 0x0, 0x0, 0x0⟩,
  ⟨"DSP_Pp_HPD_CNT", 0xC00808, 0x100, 4, 0x4, 1, 0x0, 0x0, 0x0, 0x0, 0x0, 0x0⟩,
  ⟨"DSP_Pp_UNDERRUN_CNT", 0xC0080C, 0x100, 4, 0x4, 1, 0x0, 0x0, 0x0, 0xFFFFFFFF, 0x0, 0x0⟩]

/-- The registers of the AUD block. -/
def regTabAud : List RegDef := [
  ⟨"AUD_IRQ", 0xD00000, 0x4, 1, 0x4, 1, 0x0, 0xFF, 0x0, 0x0, 0x0, 0x0⟩,
  ⟨"AUD_IRQ_PEND", 0xD00004, 0x4, 1, 0x4, 1, 0x0, 0x0, 0xFF, 0x0, 0x0, 0x0⟩,
  ⟨"AUD_Pp_CFG", 0xD00100, 0x100, 8, 0x4, 1, 0xF20, 0x0, 0x0, 0x0, 0x0, 0x0⟩,
  ⟨"AUD_Pp_STAT", 0xD00104, 0x100, 8, 0x4, 1, 0x0, 0x0, 0x0, 0x0, 0x0, 0x0⟩,
  ⟨"AUD_Pp_ERR", 0xD00108, 0x100, 8, 0x4, 1, 0x0, 0x0, 0x7F, 0x0, 0x0, 0x0⟩,
  ⟨"AUD_Pp_RATE_PPM", 0xD0010C, 0x100, 8, 0x4, 1, 0x0, 0x0, 0x0, 0x0, 0x0, 0x0⟩,
  ⟨"AUD_Pp_BLOCK", 0xD00110, 0x100, 8, 0x4, 1, 0x0, 0x0, 0x0, 0x0, 0x0, 0x0⟩,
  ⟨"AUD_Pp_LAST_NS", 0xD00114, 0x100, 8, 0x4, 1, 0x0, 0x0, 0x0, 0x0, 0x0, 0x0⟩,
  ⟨"AUD_Pp_RING_LO", 0xD00118, 0x100, 8, 0x4, 1, 0x0, 0x0, 0x0, 0x0, 0x0, 0x0⟩,
  ⟨"AUD_Pp_RING_HI", 0xD0011C, 0x100, 8, 0x4, 1, 0x0, 0x0, 0x0, 0x0, 0x0, 0x0⟩,
  ⟨"AUD_Pp_UNDER_CNT", 0xD00120, 0x100, 8, 0x4, 1, 0x0, 0x0, 0x0, 0xFFFFFFFF, 0x0, 0x0⟩,
  ⟨"AUD_Pp_OVR_CNT", 0xD00124, 0x100, 8, 0x4, 1, 0x0, 0x0, 0x0, 0xFFFFFFFF, 0x0, 0x0⟩,
  ⟨"AUD_Pp_GLITCH_CNT", 0xD00128, 0x100, 8, 0x4, 1, 0x0, 0x0, 0x0, 0xFFFFFFFF, 0x0, 0x0⟩,
  ⟨"AUD_Pp_PARITY_CNT", 0xD0012C, 0x100, 8, 0x4, 1, 0x0, 0x0, 0x0, 0xFFFFFFFF, 0x0, 0x0⟩,
  ⟨"AUD_Pp_SLIP_CNT", 0xD00130, 0x100, 8, 0x4, 1, 0x0, 0x0, 0x0, 0xFFFFFFFF, 0x0, 0x0⟩]

/-- The registers of the TIM block. -/
def regTabTim : List RegDef := [
  ⟨"TIM_NOW_NS", 0xE00000, 0x4, 1, 0x4, 1, 0x0, 0x0, 0x0, 0x0, 0x0, 0x0⟩,
  ⟨"TIM_NOW_EPOCH", 0xE00004, 0x4, 1, 0x4, 1, 0x0, 0x0, 0x0, 0x0, 0x0, 0x0⟩,
  ⟨"TIM_NOW_FRAC", 0xE00008, 0x4, 1, 0x4, 1, 0x0, 0x0, 0x0, 0x0, 0x0, 0x0⟩,
  ⟨"TIM_ADDEND_LO", 0xE0000C, 0x4, 1, 0x4, 1, 0x55555555, 0x0, 0x0, 0x0, 0x0, 0x0⟩,
  ⟨"TIM_ADDEND_HI", 0xE00010, 0x4, 1, 0x4, 1, 0x1, 0x0, 0x0, 0x0, 0x0, 0x0⟩,
  ⟨"TIM_STEP_LIMIT", 0xE00014, 0x4, 1, 0x4, 1, 0xF4240, 0xFFFFFFFF, 0x0, 0x0, 0x0, 0x0⟩,
  ⟨"TIM_ERR", 0xE00018, 0x4, 1, 0x4, 1, 0x0, 0x0, 0x3, 0x0, 0x0, 0x0⟩,
  ⟨"TIM_IRQ", 0xE0001C, 0x4, 1, 0x4, 1, 0x0, 0x1, 0x100, 0x0, 0x0, 0x0⟩,
  ⟨"TIM_STEP_CNT", 0xE00020, 0x4, 1, 0x4, 1, 0x0, 0x0, 0x0, 0x0, 0x0, 0x0⟩,
  ⟨"FCGk_CFG", 0xE00100, 0x40, 4, 0x4, 1, 0x0, 0x0, 0x0, 0x0, 0x0, 0x0⟩,
  ⟨"FCGk_PERIOD_LO", 0xE00104, 0x40, 4, 0x4, 1, 0x0, 0x0, 0x0, 0x0, 0x0, 0x0⟩,
  ⟨"FCGk_PERIOD_HI", 0xE00108, 0x40, 4, 0x4, 1, 0xFE502A, 0x0, 0x0, 0x0, 0x0, 0x0⟩,
  ⟨"FCGk_NEXT_NS", 0xE0010C, 0x40, 4, 0x4, 1, 0x0, 0x0, 0x0, 0x0, 0x0, 0x0⟩,
  ⟨"FCGk_NEXT_EPOCH", 0xE00110, 0x40, 4, 0x4, 1, 0x0, 0x0, 0x0, 0x0, 0x0, 0x0⟩,
  ⟨"FCGk_TICK_CNT", 0xE00114, 0x40, 4, 0x4, 1, 0x0, 0x0, 0x0, 0x0, 0x0, 0x0⟩,
  ⟨"FCGk_SKIP_CNT", 0xE00118, 0x40, 4, 0x4, 1, 0x0, 0x0, 0x0, 0xFFFFFFFF, 0x0, 0x0⟩]

/-- The registers of the NET block. -/
def regTabNet : List RegDef := [
  ⟨"NET_STAT", 0xF00000, 0x4, 1, 0x4, 1, 0x0, 0x0, 0x0, 0x0, 0x0, 0x0⟩,
  ⟨"NET_IRQ", 0xF00004, 0x4, 1, 0x4, 1, 0x0, 0x7, 0x100, 0x0, 0x0, 0x0⟩,
  ⟨"NET_Rq_BASE_LO", 0xF00100, 0x20, 3, 0x4, 1, 0x0, 0x0, 0x0, 0x0, 0x0, 0x0⟩,
  ⟨"NET_Rq_BASE_HI", 0xF00104, 0x20, 3, 0x4, 1, 0x0, 0x0, 0x0, 0x0, 0x0, 0x0⟩,
  ⟨"NET_Rq_CFG", 0xF00108, 0x20, 3, 0x4, 1, 0x0, 0x0, 0x0, 0x0, 0x0, 0x0⟩,
  ⟨"NET_Rq_HEAD", 0xF0010C, 0x20, 3, 0x4, 1, 0x0, 0x0, 0x0, 0x0, 0x0, 0x0⟩,
  ⟨"NET_Rq_DB", 0xF00110, 0x20, 3, 0x4, 1, 0x0, 0x0, 0x0, 0x0, 0xFFFFFFFF, 0x0⟩,
  ⟨"NET_TX_CNT", 0xF00200, 0x4, 1, 0x4, 1, 0x0, 0x0, 0x0, 0x0, 0x0, 0x0⟩,
  ⟨"NET_RX_CNT", 0xF00204, 0x4, 1, 0x4, 1, 0x0, 0x0, 0x0, 0x0, 0x0, 0x0⟩,
  ⟨"NET_RX_DROP", 0xF00208, 0x4, 1, 0x4, 1, 0x0, 0x0, 0x0, 0xFFFFFFFF, 0x0, 0x0⟩,
  ⟨"NET_RX_FCS", 0xF0020C, 0x4, 1, 0x4, 1, 0x0, 0x0, 0x0, 0xFFFFFFFF, 0x0, 0x0⟩,
  ⟨"NET_RX_PAUSE", 0xF00210, 0x4, 1, 0x4, 1, 0x0, 0x0, 0x0, 0xFFFFFFFF, 0x0, 0x0⟩]

/-- The registers of the DFL block. -/
def regTabDfl : List RegDef := [
  ⟨"DFL_CTRL", 0x1000000, 0x4, 1, 0x4, 1, 0xC8, 0xFFFF, 0x0, 0x0, 0x0, 0x0⟩,
  ⟨"DFL_STAT", 0x1000004, 0x4, 1, 0x4, 1, 0x0, 0x0, 0x0, 0x0, 0x0, 0x0⟩,
  ⟨"DFL_IRQ", 0x1000008, 0x4, 1, 0x4, 1, 0x0, 0x1, 0x0, 0x0, 0x0, 0x0⟩,
  ⟨"DFL_IRQ_PEND", 0x100000C, 0x4, 1, 0x4, 1, 0x0, 0x0, 0x1, 0x0, 0x0, 0x0⟩,
  ⟨"DFL_JOB_CNT", 0x1000010, 0x4, 1, 0x4, 1, 0x0, 0x0, 0x0, 0x0, 0x0, 0x0⟩,
  ⟨"DFL_ERR_CNT", 0x1000014, 0x4, 1, 0x4, 1, 0x0, 0x0, 0x0, 0xFFFFFFFF, 0x0, 0x0⟩,
  ⟨"DFL_Ee_TAG", 0x1000100, 0x40, 2, 0x4, 1, 0x0, 0x0, 0x0, 0x0, 0x0, 0x0⟩,
  ⟨"DFL_Ee_OUT", 0x1000104, 0x40, 2, 0x4, 1, 0x0, 0x0, 0x0, 0x0, 0x0, 0x0⟩]

/-- The registers of the DMC block. -/
def regTabDmc : List RegDef := [
  ⟨"DMC_CTRL", 0x1100000, 0x4, 1, 0x4, 1, 0x0, 0x0, 0x0, 0x0, 0x0, 0x1⟩,
  ⟨"DMC_STAT", 0x1100004, 0x4, 1, 0x4, 1, 0x2010260, 0x0, 0x0, 0x0, 0x0, 0x0⟩,
  ⟨"DMC_SR_IDLE", 0x1100008, 0x4, 1, 0x4, 1, 0x64, 0x3FFF, 0x0, 0x0, 0x0, 0x0⟩,
  ⟨"DMC_HINT", 0x110000C, 0x4, 1, 0x4, 1, 0x0, 0xFFF, 0x0, 0x0, 0x0, 0x0⟩,
  ⟨"DMC_ERR", 0x1100010, 0x4, 1, 0x4, 1, 0x0, 0x0, 0xF, 0x0, 0x0, 0x0⟩,
  ⟨"DMC_CORR_CNT", 0x1100014, 0x4, 1, 0x4, 1, 0x0, 0x0, 0x0, 0xFFFFFFFF, 0x0, 0x0⟩,
  ⟨"DMC_POISON_CNT", 0x1100018, 0x4, 1, 0x4, 1, 0x0, 0x0, 0x0, 0xFFFFFFFF, 0x0, 0x0⟩,
  ⟨"DMC_BYTES_LOk", 0x1100100, 0x10, 6, 0x4, 1, 0x0, 0x0, 0x0, 0x0, 0x0, 0x0⟩,
  ⟨"DMC_BYTES_HIk", 0x1100104, 0x10, 6, 0x4, 1, 0x0, 0x0, 0x0, 0x0, 0x0, 0x0⟩,
  ⟨"DMC_MAX_WAITk", 0x1100108, 0x10, 6, 0x4, 1, 0x0, 0x0, 0x0, 0xFFFFFFFF, 0x0, 0x0⟩,
  ⟨"DMC_CHc_DLY0", 0x1101000, 0x10, 32, 0x4, 1, 0x0, 0x0, 0x0, 0x0, 0x0, 0x1FF01FF⟩,
  ⟨"DMC_CHc_DLY1", 0x1101004, 0x10, 32, 0x4, 1, 0x0, 0x0, 0x0, 0x0, 0x0, 0x1FF01FF⟩,
  ⟨"DMC_CHc_DLY2", 0x1101008, 0x10, 32, 0x4, 1, 0x0, 0x0, 0x0, 0x0, 0x0, 0x1FF⟩,
  ⟨"DMC_OFSb_c", 0x1102000, 0x80, 6, 0x4, 32, 0x0, 0x0, 0x0, 0x0, 0x0, 0xFFFFFF⟩,
  ⟨"DMC_SUSPECTi", 0x1103000, 0x4, 32, 0x4, 1, 0x0, 0x0, 0x0, 0x0, 0x0, 0x0⟩]

/-- The registers of the PWR block. -/
def regTabPwr : List RegDef := [
  ⟨"PWR_STAT", 0x1200000, 0x4, 1, 0x4, 1, 0x1, 0x0, 0x0, 0x0, 0x0, 0x0⟩,
  ⟨"PWR_LIMIT", 0x1200004, 0x4, 1, 0x4, 1, 0xE290, 0x0, 0x0, 0x0, 0x0, 0x0⟩,
  ⟨"PWR_HOST_LIMIT", 0x1200008, 0x4, 1, 0x4, 1, 0x0, 0x0, 0x0, 0x0, 0x0, 0x0⟩,
  ⟨"PWR_MEAS", 0x120000C, 0x4, 1, 0x4, 1, 0x0, 0x0, 0x0, 0x0, 0x0, 0x0⟩,
  ⟨"PWR_HEADROOM", 0x1200010, 0x4, 1, 0x4, 1, 0x0, 0x0, 0x0, 0x0, 0x0, 0x0⟩,
  ⟨"PWR_VIN_WARN", 0x1200014, 0x4, 1, 0x4, 1, 0x1964, 0x0, 0x0, 0x0, 0x0, 0x0⟩,
  ⟨"PWR_ERR", 0x1200018, 0x4, 1, 0x4, 1, 0x0, 0x0, 0xF, 0x0, 0x0, 0x0⟩,
  ⟨"PWR_IRQ", 0x120001C, 0x4, 1, 0x4, 1, 0x0, 0x1F, 0x100, 0x0, 0x0, 0x0⟩,
  ⟨"PWR_ADMIT_CNT", 0x1200020, 0x4, 1, 0x4, 1, 0x0, 0x0, 0x0, 0x0, 0x0, 0x0⟩,
  ⟨"PWR_DEFER_CNT", 0x1200024, 0x4, 1, 0x4, 1, 0x0, 0x0, 0x0, 0xFFFFFFFF, 0x0, 0x0⟩,
  ⟨"PWR_STEP_CNT", 0x1200028, 0x4, 1, 0x4, 1, 0x0, 0x0, 0x0, 0x0, 0x0, 0x0⟩,
  ⟨"PWR_HK_CHn", 0x1200100, 0x4, 16, 0x4, 1, 0x0, 0x0, 0x0, 0x0, 0x0, 0x0⟩,
  ⟨"PWR_AXn_CFG", 0x1200200, 0x10, 4, 0x4, 1, 0x305, 0x0, 0x0, 0x0, 0x0, 0x0⟩,
  ⟨"PWR_AXn_STAT", 0x1200204, 0x10, 4, 0x4, 1, 0x0, 0x0, 0x0, 0x0, 0x0, 0x0⟩,
  ⟨"PWR_AXn_FAULT_CNT", 0x1200208, 0x10, 4, 0x4, 1, 0x0, 0x0, 0x0, 0xFFFFFFFF, 0x0, 0x0⟩]

/-- The registers of the THM block. -/
def regTabThm : List RegDef := [
  ⟨"THM_STAT", 0x1300000, 0x4, 1, 0x4, 1, 0x41, 0x0, 0x0, 0x0, 0x0, 0x0⟩,
  ⟨"THM_MAX", 0x1300004, 0x4, 1, 0x4, 1, 0x8000, 0x0, 0x0, 0xFFFF, 0x0, 0x0⟩,
  ⟨"THM_EQ", 0x1300008, 0x4, 1, 0x4, 1, 0x776543, 0xFFFFFF, 0x0, 0x0, 0x0, 0x0⟩,
  ⟨"THM_BAND_CNT", 0x130000C, 0x4, 1, 0x4, 1, 0x0, 0x0, 0x0, 0x0, 0x0, 0x0⟩]

/-- The registers of the TST block. -/
def regTabTst : List RegDef := [
  ⟨"TST_CTRL", 0x1400000, 0x4, 1, 0x4, 1, 0x0, 0xFF, 0x0, 0x0, 0x100, 0x0⟩,
  ⟨"TST_STAT", 0x1400004, 0x4, 1, 0x4, 1, 0x0, 0x0, 0x4, 0x0, 0x0, 0x0⟩,
  ⟨"TST_ARG0", 0x1400008, 0x4, 1, 0x4, 1, 0x0, 0xFFFFFFFF, 0x0, 0x0, 0x0, 0x0⟩,
  ⟨"TST_ARG1", 0x140000C, 0x4, 1, 0x4, 1, 0x0, 0xFFFFFFFF, 0x0, 0x0, 0x0, 0x0⟩,
  ⟨"TST_ARG2", 0x1400010, 0x4, 1, 0x4, 1, 0x0, 0xFFFFFFFF, 0x0, 0x0, 0x0, 0x0⟩,
  ⟨"TST_RUN_ID", 0x1400014, 0x4, 1, 0x4, 1, 0x0, 0x0, 0x0, 0x0, 0x0, 0x0⟩,
  ⟨"TST_RESULT", 0x1400018, 0x4, 1, 0x4, 1, 0x0, 0x0, 0x0, 0x0, 0x0, 0x0⟩,
  ⟨"TST_SIG", 0x140001C, 0x4, 1, 0x4, 1, 0x0, 0x0, 0x0, 0x0, 0x0, 0x0⟩,
  ⟨"TST_SAFE", 0x1400020, 0x4, 1, 0x4, 1, 0x0, 0x0, 0x0, 0x0, 0x0, 0x0⟩,
  ⟨"TST_FAIL_CNT", 0x1400024, 0x4, 1, 0x4, 1, 0x0, 0x0, 0x0, 0xFFFFFFFF, 0x0, 0x0⟩,
  ⟨"TST_TMUX", 0x1400030, 0x4, 1, 0x4, 1, 0x0, 0xFFFFF, 0x0, 0x0, 0x0, 0x0⟩]

/-- The registers of the EVT block. -/
def regTabEvt : List RegDef := [
  ⟨"EVT_BOOT_STAT", 0x150F000, 0x4, 1, 0x4, 1, 0x0, 0x0, 0x0, 0x0, 0x0, 0x0⟩,
  ⟨"EVT_BOOT_TIME", 0x150F004, 0x4, 1, 0x4, 1, 0x0, 0x0, 0x0, 0x0, 0x0, 0x0⟩,
  ⟨"EVT_CTRL", 0x1500000, 0x4, 1, 0x4, 1, 0x3, 0x107, 0x0, 0x0, 0x0, 0x0⟩,
  ⟨"EVT_HEAD_SEQ", 0x1500004, 0x4, 1, 0x4, 1, 0x1, 0x0, 0x0, 0x0, 0x0, 0x0⟩,
  ⟨"EVT_TAIL_SEQ", 0x1500008, 0x4, 1, 0x4, 1, 0x1, 0x0, 0x0, 0x0, 0x0, 0x0⟩,
  ⟨"EVT_RD_SEQ", 0x150000C, 0x4, 1, 0x4, 1, 0x1, 0xFFFFFFFF, 0x0, 0x0, 0x0, 0x0⟩,
  ⟨"EVT_LOST", 0x1500010, 0x4, 1, 0x4, 1, 0x0, 0x0, 0x0, 0xFFFFFFFF, 0x0, 0x0⟩,
  ⟨"EVT_DROP", 0x1500014, 0x4, 1, 0x4, 1, 0x0, 0x0, 0x0, 0xFFFFFFFF, 0x0, 0x0⟩,
  ⟨"EVT_ERR_LOST", 0x1500018, 0x4, 1, 0x4, 1, 0x0, 0x0, 0x0, 0xFFFFFFFF, 0x0, 0x0⟩,
  ⟨"EVT_ERR_STAT", 0x150001C, 0x4, 1, 0x4, 1, 0x0, 0x0, 0x0, 0x0, 0x0, 0x0⟩,
  ⟨"EVT_ERR_CLEAR", 0x1500020, 0x4, 1, 0x4, 1, 0x0, 0x0, 0x0, 0x0, 0xFFFFFFFF, 0x0⟩,
  ⟨"EVT_IRQ_PEND", 0x1500024, 0x4, 1, 0x4, 1, 0x0, 0x0, 0x7FFF, 0x0, 0x0, 0x0⟩,
  ⟨"EVT_VSELn", 0x1500100, 0x4, 14, 0x4, 1, 0x0, 0xFFFFFFFF, 0x0, 0x0, 0x0, 0x0⟩]

/-- The register definitions of the block that holds BAR0 offset `a`. -/
def regTabAt (a : Nat) : List RegDef :=
  match a / 0x100000 with
  | 1 => regTabCmd
  | 2 => regTabMbx
  | 3 => regTabLnk
  | 4 => regTabRaw
  | 5 => regTabCtx
  | 6 => regTabClr
  | 7 => regTabTap
  | 8 => regTabVlt
  | 9 => regTabVq
  | 10 => regTabCdc
  | 11 => regTabCmp
  | 12 => regTabDsp
  | 13 => regTabAud
  | 14 => regTabTim
  | 15 => regTabNet
  | 16 => regTabDfl
  | 17 => regTabDmc
  | 18 => regTabPwr
  | 19 => regTabThm
  | 20 => regTabTst
  | 21 => regTabEvt
  | _ => []

end Sys2Proof.Machine
end

