-- ==== Sys2Proof/Machine/Store.lean ====
section
/-!
DEFINITION. Sparse storage in one canonical form: a list of (address, value) pairs with strictly rising addresses.
A store with a default lists no entry equal to what an unlisted address reads as, so equal contents are equal lists.
Registers, the vault's working region and the bytes the device wrote to the host are held this way.
-/
namespace Sys2Proof.Machine
open Sys2Proof

/-- The listed value at `k`. -/
def storeFind {α : Type} : List (Nat × α) → Nat → Option α
  | [], _ => none
  | (a, v) :: t, k => if k = a then some v else storeFind t k

/-- List `v` at `k`, keeping the addresses rising. -/
def storePut {α : Type} : List (Nat × α) → Nat → α → List (Nat × α)
  | [], k, v => [(k, v)]
  | (a, w) :: t, k, v =>
    if k < a then (k, v) :: (a, w) :: t
    else if k = a then (k, v) :: t
    else (a, w) :: storePut t k v

/-- List nothing at `k`. -/
def storeErase {α : Type} : List (Nat × α) → Nat → List (Nat × α)
  | [], _ => []
  | (a, w) :: t, k => if k = a then t else (a, w) :: storeErase t k

/-- What `k` reads as when an unlisted address reads as `d k`. -/
def storeGet {α : Type} (d : Nat → α) (m : List (Nat × α)) (k : Nat) : α := (storeFind m k).getD (d k)

/-- Write `v` at `k`; writing the default removes the entry. -/
def storeSet {α : Type} [DecidableEq α] (d : Nat → α) (m : List (Nat × α)) (k : Nat) (v : α) : List (Nat × α) :=
  if v = d k then storeErase m k else storePut m k v

/-- Every listed address is above `k`. -/
def storeAbove {α : Type} (k : Nat) : List (Nat × α) → Bool
  | [] => true
  | (a, _) :: t => decide (k < a) && storeAbove k t

/-- The addresses rise strictly. -/
def storeRising {α : Type} : List (Nat × α) → Bool
  | [] => true
  | (a, _) :: t => storeAbove a t && storeRising t

/-- No entry equals its default. -/
def storeTight {α : Type} [DecidableEq α] (d : Nat → α) : List (Nat × α) → Bool
  | [] => true
  | (a, v) :: t => decide (v ≠ d a) && storeTight d t

/-- The canonical form of a store with a default. -/
def storeWf {α : Type} [DecidableEq α] (d : Nat → α) (m : List (Nat × α)) : Bool := storeRising m && storeTight d m

/-- Read `n` consecutive bytes. -/
def bytesAt (get : Nat → Byte) (a : Nat) : Nat → List Byte
  | 0 => []
  | n + 1 => get a :: bytesAt get (a + 1) n

end Sys2Proof.Machine
end

