-- ==== Sys2Proof/Machine/State.lean ====
section
/-!
DEFINITION. The state of the FL1640: every register (one sparse file keyed by BAR0 offset), memory, queue and mode
the spec gives the block, as plain data; the machine after reset; the reasons a step can stop.
-/
namespace Sys2Proof.Machine
open Sys2Proof

/-- Reasons to stop with a fault. -/
inductive Fault where
  /-- A CXL.mem request names an HPA that no committed HDM decoder maps (spec/03, R54): raised by MEMRD, MEMRDDATA,
  MEMINV, MEMSPECRD, MEMWR and MEMWRPTL. Safe: the spec says no such address exists. -/
  | unmappedHpa
  /-- A BAR0 access that is not a naturally aligned 32-bit access (spec/00, R5): raised by REGISTER_WRITE, READ_CLEAR
  and LOW_WORD_READ. Safe. -/
  | unalignedAccess
deriving DecidableEq, Repr

/-- Reasons to refuse a command. -/
inductive Refusal where
  /-- The row has no meaning yet. Safe. -/
  | notModelled (mnemonic : String)
deriving DecidableEq, Repr

/-- The blocks that report events and own registers (spec/01, Table 1-2), in ascending BAR0 base. -/
inductive Blk where
  | dev | link | lay | cmd | mbx | lnk | raw | ctx | clr | tap | vlt | vq | cdc | cmp | dsp | aud | tim | net | dfl
  | dmc | pwr | thm | tst | evt
deriving DecidableEq, Repr

/-- Errors reported on the host link (spec/03, Table 3-8). -/
inductive Aer where
  | correctable | advisoryNonFatal | uncorrInternal | rasMemPoison | rasCacheDataParity | rasCacheAddrParity
deriving DecidableEq, Repr

/-- What the block puts out at its links and pins. `State.out` lists it, newest last (the model's own record). -/
inductive Out where
  /-- An MSI-X message of a vector (spec/03, R64). -/
  | msix (v : Nat)
  /-- Data a register read returns. -/
  | word (v : W32)
  /-- An error response to an internal master (spec/04, R76, R77). -/
  | errResponse
  /-- What a read of a named field of the configuration space or of the component registers returns. -/
  | field (v : Nat)
  /-- Configuration Request Retry Status (spec/03, R50). -/
  | crs
  /-- A CXL.io memory write of a data payload: address, bytes, No-Snoop and Relaxed Ordering (spec/03, R61). -/
  | dmaWrite (addr len : Nat) (noSnoop relaxed : Bool)
  /-- S2M DRS data (spec/03, R55). -/
  | drs (data : List Byte) (poison : Bool)
  /-- S2M completion without data. -/
  | ndr
  /-- A report through AER or RAS (spec/03, R65). -/
  | aer (e : Aer)
  /-- A configuration or DOE response: read latency in ns and read bandwidth in GB/s for both ranges (spec/03, R58). -/
  | cdat (latencyNs gbPerS : Nat)
  /-- Bytes on a sensor control channel of a port (spec/05, R103): a transfer, or the write phase of one. -/
  | sensorWrite (port : Nat) (data : List Byte)
  /-- The read phase of a control transfer: its address byte, if any, the bytes read, and whether it began with a repeated START. -/
  | sensorRead (port : Nat) (adr : List Byte) (len : Nat) (repeated : Bool)
  /-- A DCS transfer to a DSI panel (spec/15, R318). -/
  | dcs (port : Nat) (dataType : Nat) (data : List Byte)
  /-- A frame on the network link (spec/17, R352). -/
  | netFrame (data : List Byte)
  /-- A pin driven to a level. -/
  | pin (name : String) (level : Bool)
  /-- A picture sent by an SDI or DSI port: its CFN, and per line the code words of each pixel (R314): Y + 2^10 × C on SDI,
  R + 2^10 × G + 2^20 × B on DSI. -/
  | video (port : Nat) (cfn : W32) (lines : List (List Nat))
  /-- An ancillary packet on an SDI port (spec/15, R316). -/
  | anc (port did sdid : Nat) (udw : List Nat)
  /-- A block that an audio port sends: the two slots of each frame, as I²S shifts them out or as the 32 time slots of an AES3
  subframe (spec/16, R323, R324, R331, R333). -/
  | audio (port : Nat) (slots : List (Nat × Nat))
  /-- An audio output sends zeros for the rest of the block (spec/16, R335). -/
  | audioMuted (port : Nat)
  /-- Samples for channels `ch` and `ch` + 1 of an SDI port's embedded audio (spec/15, R316; spec/16, R333). -/
  | embedded (port ch : Nat) (frames : List AudFrame)
deriving DecidableEq, Repr

/-- STATUS, DETAIL and RESULT of a packet (spec/02, Table 2-3). -/
structure Outc where
  status : Nat := 0
  detail : Nat := 0
  result : List Nat := []
deriving DecidableEq, Repr

/-- A packet that CMD has started and that has not completed (spec/02, R34). -/
structure Started where
  ring : Nat
  seq : W32
  opcode : Nat
  target : Nat
  flags : Nat
  /-- H in Table 2-6. -/
  fast : Bool
  /-- Still waiting in the firmware queue. -/
  queued : Bool
  /-- Of urgent standing in the firmware queue (R37). -/
  urgent : Bool
  /-- Answered TIMEOUT with LATE_POSSIBLE, or cut off from its ring by FLR: its outcome is only logged (R41, R47). -/
  late : Bool
  /-- Cut off by FLR: it has not completed, and still holds its object and its firmware-queue entry (R38, R47). -/
  cut : Bool := false
  /-- Number of the packet, in order of start, which tells packets of one SEQ apart (R28). -/
  id : Nat := 0
  /-- Waits for class B admission (R42). -/
  waitB : Bool
deriving DecidableEq, Repr

/-- The header fields of a packet that its reply needs. -/
structure Hdr where
  ring : Nat
  seq : W32
  opcode : Nat
  flags : Nat
  /-- Number of the packet (R28); 0 for one that no PACKET_FETCH started. -/
  id : Nat := 0
deriving DecidableEq, Repr

/-- The outcome of a packet, to be written as its reply. -/
structure Reply where
  hdr : Hdr
  /-- RFLAGS LATE_POSSIBLE. -/
  late : Bool
  out : Outc
deriving DecidableEq, Repr

/-- CMD beyond its registers. -/
structure CmdSt where
  /-- Last accepted doorbell tail of each ring (R24). -/
  tail : Vector Nat 4 := Vector.replicate 4 0
  started : List Started := []
  /-- Firmware-path packets whose operation has ended and whose reply is not written yet. -/
  done : List Reply := []
  /-- Replies that wait for space in a full reply ring, oldest first (R32). -/
  held : List Reply := []
  /-- Packets abandoned at their bound with no effect (R41), whose rows are still to come. -/
  abandoned : List Started := []
  /-- Number that the next packet to start takes. -/
  next : Nat := 1
  /-- Replies written so far. -/
  replies : Nat := 0
  /-- The ring served last (R25). -/
  turn : Nat := 3
deriving DecidableEq, Repr

/-- An event entry (spec/23, Table 23-1). -/
structure EvtEntry where
  seq : W32
  code : Nat
  src : BitVec 16
  epoch : W32
  ns : W32
  target : Nat
  sev : Nat
  fw : Bool
  dropped : Bool
  a0 : W32
  a1 : W32
  a2 : W32
deriving DecidableEq, Repr

/-- The event logs (spec/23, R422, R427, R428). -/
structure EvtSt where
  /-- Live log, oldest first, at most 1,024 entries. -/
  live : List EvtEntry := []
  /-- Error log in arrival order, at most 64 entries. -/
  err : List EvtEntry := []
  /-- The live log waits for the post-mortem copy (R428): events go to the boot buffer. -/
  holding : Bool := false
  boot : List EvtEntry := []
  /-- The copy in the index area: live log and error log. -/
  post : Option (List EvtEntry × List EvtEntry) := none
  /-- Sources whose next entry carries DROPPED_BEFORE (R423). -/
  droppedSrc : List Blk := []
deriving DecidableEq, Repr

/-- An HDM decoder (spec/03, R54). -/
structure Hdm where
  committed : Bool := false
  err : Bool := false
  base : Nat := 0
  size : Nat := 0
  ways : Nat := 1
deriving DecidableEq, Repr

/-- The host attachment (spec/03). -/
structure CxlSt where
  up : Bool := false
  /-- CXL.io only (R49, R63). -/
  fallback : Bool := false
  width : Nat := 0
  rate : Nat := 0
  hdm : Vector Hdm 2 := Vector.replicate 2 {}
  memInfoValid : Bool := false
  memActive : Bool := false
  /-- A write to the ring region arrived in the current 1 ms tick (R55). -/
  roWrite : Bool := false
  /-- Fence lines held Shared in the device cache (R59), and those the device must read again. -/
  fenceLines : List Nat := []
  /-- MSI-X mask and pending bits, the message words of the table by offset, the function's MSI-X enable, bus mastering (R64,
  R66). -/
  msixMask : BitVec 64 := BitVec.allOnes 64
  msixPend : BitVec 64 := 0
  msixTab : List (Nat × W32) := []
  msixOn : Bool := false
  busMaster : Bool := false
  /-- DEVCTL: Enable No Snoop, Enable Relaxed Ordering, Max Payload Size and Max Read Request Size in bytes; the completion
  timeout in µs (R61). -/
  noSnoop : Bool := true
  relaxed : Bool := true
  mps : Nat := 128
  mrrs : Nat := 512
  cplTmoUs : Nat := 50000
  /-- Correctable and advisory errors counted, and their AER status bits (R65). -/
  corrCnt : Nat := 0
  advCnt : Nat := 0
  corr : Bool := false
  adv : Bool := false
  /-- RAS and AER uncorrectable status. -/
  memPoison : Bool := false
  cacheDataParity : Bool := false
  cacheAddrParity : Bool := false
  uncorrInternal : Bool := false
  /-- A DPA range whose DRAM is uncorrectable reads poisoned (R57): 64-byte line numbers. -/
  poisoned : List Nat := []
deriving DecidableEq, Repr

/-- One side's view of a mailbox channel (spec/04, R76 to R80). -/
structure MbxSide where
  /-- Words queued toward this side, oldest first, each with its EPOCH flag. -/
  rx : List (W32 × Bool) := []
  lost : Nat := 0
  lostOvf : Bool := false
  rxLost : Bool := false
  txTmo : Bool := false
  /-- The next word this side writes carries EPOCH. -/
  epochNext : Bool := false
  /-- RX_WORD_HI as latched at the last pop: VALID, EPOCH, LEFT. -/
  hi : Bool × Bool × Nat := (false, false, 0)
deriving DecidableEq, Repr

/-- Mailboxes and semaphores (spec/04). -/
structure MbxSt where
  a : Vector MbxSide 16 := Vector.replicate 16 {}
  b : Vector MbxSide 16 := Vector.replicate 16 {}
  sem : Vector (Option Byte) 32 := Vector.replicate 32 none
deriving DecidableEq, Repr

/-- A field of a DLT entry's body: its value, and its width in bytes where Table 4-3 gives it (spec/04). -/
structure DltFld where
  val : Nat
  width : Option Nat := none
deriving DecidableEq, Repr

/-- An entry of the DLT (spec/04, Tables 4-2 and 4-3): TYPE, DISABLED, and its body field by field. -/
structure DltEntry where
  type : Nat
  disabled : Bool := false
  body : List DltFld := []
deriving DecidableEq, Repr

/-- The Device Layout Table as published (spec/04, R67, R68). -/
structure DltSt where
  valid : Bool := false
  publishing : Bool := false
  gen : W32 := 0
  /-- The entries, in the order of R450; the position of an entry is its INDEX. -/
  entries : List DltEntry := []
  crc : W32 := 0
  /-- Blocks fused off or unrepaired, by position in ascending BAR0 base (EFLAGS.DISABLED, R72). -/
  disabled : List Nat := []
deriving DecidableEq, Repr


/-! ### Sensor links (spec/05) -/

/-- A loaded sensor profile (Table 5-3). -/
structure Profile where
  identity : List Byte
  width : Nat
  height : Nat
  sbits : Nat
  readouts : Nat
  embedded : Bool
  k : Nat
  i2cAddr : Nat
  regWidth : Nat
  startSeq : List Nat
  stopSeq : List Nat
  holdBegin : List Nat
  holdEnd : List Nat
deriving DecidableEq, Repr

/-- A queued settings set (R105). -/
structure SetSet where
  tag : Nat
  entries : List Nat
deriving DecidableEq, Repr

/-- A settings write in progress: its set, the frame N it belongs to, and whether the window has passed (R106). -/
structure SetWrite where
  set : SetSet
  fid : Nat
  late : Bool
deriving DecidableEq, Repr

/-- A job of the control channel (R103, R104): a control transfer that a packet asked for, or a sequence of the profile. -/
structure Xfer where
  /-- The packet; none for a sequence. -/
  hdr : Option Hdr
  /-- The bytes of each transfer of a sequence. -/
  seq : List (List Byte) := []
  addr : Nat
  noStop : Bool
  write : List Byte
  readLen : Nat
  readRef : Nat × Nat × Nat
  running : Bool
deriving DecidableEq, Repr

/-- A pattern checker (R109): the last bits of its own pattern, how many bits it has been seeded with, correct bits in a row, and which
of the last 64 bits were errors, the latest at bit 0. -/
structure PatCheck where
  hist : Nat := 0
  seen : Nat := 0
  run : Nat := 0
  errors : Nat := 0
deriving DecidableEq, Repr

/-- A lane's comma tracking (R89, R90) and patterns (R109, R110). -/
structure LaneSt where
  /-- Line bits since the latest comma. -/
  line : List Bool := []
  /-- Commas in a row that kept the spacing, and that broke it. -/
  good : Nat := 0
  bad : Nat := 0
  /-- Arrival of the latest comma in UI, while its interval's other lanes are awaited. -/
  at_ : Option Nat := none
  /-- Payload words of the latest interval. -/
  words : List W32 := []
  /-- The generator's last bits; pattern injection bits left (R110), and sixths of a bit not generated yet. -/
  gen : Nat := 0
  inject : Nat := 0
  frac : Nat := 0
  check : PatCheck := {}
deriving DecidableEq, Repr

structure PortSt where
  profile : Option Profile := none
  queue : List SetSet := []
  writing : Option SetWrite := none
  /-- SET_LINE has begun with a set at the head whose write waits for the channel (R104, R105). -/
  setDue : Bool := false
  /-- Tag in effect, and tags that take effect at a later FID: (FID, tag, SET_LATE). -/
  tag : Nat := 0
  tags : List (Nat × Nat × Bool) := []
  /-- The transfer on the channel, or due next, and those behind it (R104). -/
  xfer : List Xfer := []
  startWait : Option Hdr := none
  stopWait : Option Hdr := none
  /-- Words are discarded until the first FRAME_START after relock (R99). -/
  relock : Bool := false
  /-- Outcomes of Table 5-2 already logged in this frame (R99). -/
  logged : List Nat := []
  lastFn : Option Nat := none
  /-- Stamp of the latest LINE_START of each VC (R98); readout 0's, its line number, and the stamp of line SET_LINE (R104). -/
  lineStamp : List Nat := [0, 0, 0, 0]
  lastLineNs : Option Nat := none
  lastLine : Nat := 0
  setLineNs : Option Nat := none
  lineNs : Nat := 0
  lastFrameNs : Option Nat := none
  frameNs : Nat := 0
  trg : Bool := false
  trgNs : Nat := 0
  /-- Ticks whose assertion is still to come (R107). -/
  trgDue : Nat := 0
  /-- Port words of the intervals whose link word has not been judged yet, joined in port lane order (R92). -/
  waiting : List (List W32) := []
  /-- A link word has pointed to a header since the port locked, and no header has failed its HCRC since (R92, R99). -/
  inSync : Bool := false
  /-- Words that carry packets, the front one being a header (R92). -/
  stream : List W32 := []
deriving DecidableEq, Repr

/-! ### Raw front-end (spec/06, spec/10) -/

/-- The RAW state of a port as committed. -/
structure RawCfg where
  fmt : Nat := 0
  cfa : Nat := 1
  phase : Nat := 0
  readouts : Nat := 1
  lanes : Nat := 8
  lineNs : Nat := 1000
  ghostEn : Bool := false
  ghostRef : Nat := 0
  lag : Nat := 16
  ghostThr : Nat := 0x800
  noise : Nat := 0x1000
  blackAdj : Nat := 0
  dynEn : Bool := false
  dynAbs : Nat := 0x4000
  dynRel : Nat := 0x4000
  gain : List Nat := [0x10000, 0x10000, 0x10000]
  knee : List Nat := [0xFFFFFF, 0xFFFFFF, 0xFFFFFF]
  sat : List Nat := [0xFFFFFF, 0xFFFFFF, 0xFFFFFF]
  weight : List Nat := [0x100, 0x100, 0x100]
  ratio : Nat := 0x500
  eMin : Nat := 1
  eMax : Nat := 16
  applyTag : Nat := 0
  /-- Linearisation tables, none being L[i] = 256 i (R113). -/
  lin : List (Option (List Nat)) := [none, none, none]
  /-- Black tables, none being all 0 (R114). -/
  black : List (Option (List Nat)) := [none, none, none]
  /-- Defect map: (column, line, kind) (R117). -/
  defects : List (Nat × Nat × Nat) := []
deriving DecidableEq, Repr

/-- Ingest statistics of a frame or of its landed stripes (Table 6-4); saturation and OVF are applied when the block
is written. -/
structure RawStats where
  damaged : Nat := 0
  static : Nat := 0
  dynamic : Nat := 0
  uncorr : Nat := 0
  ghost : Nat := 0
  allSat : Nat := 0
  sat : List Nat := [0, 0, 0]
  blackClamp : Nat := 0
  sums : List Nat := [0, 0, 0, 0]
  hist : List (List Nat) := List.replicate 4 (List.replicate 128 0)
deriving DecidableEq, Repr

/-- The latched ingest block (Table 6-4). -/
structure IngestBlk where
  fid : Nat := 0
  tag : Nat := 0
  valid : Bool := false
  truncated : Bool := false
  setLate : Bool := false
  armedLive : Bool := false
  cause : Nat := 0
  lastStripe : Option Nat := none
  ns : Nat := 0
  frac : Nat := 0
  stats : RawStats := {}
deriving DecidableEq, Repr

/-- A line being received. -/
structure OpenLine where
  number : Nat
  /-- Payload words received so far. -/
  words : List W32
  damaged : Bool
deriving DecidableEq, Repr

/-- A frame in ingest at a port. -/
structure Ingest where
  /-- It has a record in the vault (R133, R191). -/
  recorded : Bool
  fid : Nat
  gen : Nat
  epoch : Nat
  ns : Nat
  frac : Nat
  width : Nat
  height : Nat
  sbits : Nat
  cfg : RawCfg
  /-- Completed lines of each readout, in order. -/
  lines : List (List (List Nat)) := [[], [], []]
  cur : List (Option OpenLine) := [none, none, none]
  /-- The readout's packets are discarded up to its next LINE_START. -/
  skip : List Bool := [false, false, false]
  /-- Lines received as such (not filled) per readout. -/
  got : List Nat := [0, 0, 0]
  /-- Damaged lines: (readout, line). -/
  dmg : List (Nat × Nat) := []
  landed : Nat := 0
  stats : RawStats := {}
  emb : List Byte := []
  embTrunc : Bool := false
  /-- Word 1 of FRAME_START (Table 5-1), and the FRAME_END line count differed (Table 5-2). -/
  sensorFlags : W32 := 0
  countBad : Bool := false
  tag : Nat := 0
  setLate : Bool := false
  armedLive : Bool := false
  e0 : Nat := 0
  eNext : Nat := 0
  spent : Nat := 0
  fb : Nat := 0
deriving DecidableEq, Repr

structure RawSt where
  /-- Shadow tables. -/
  lin : List (Option (List Nat)) := [none, none, none]
  black : List (Option (List Nat)) := [none, none, none]
  defects : List (Nat × Nat × Nat) := []
  /-- Live state (R125), and an armed merge set that waits for its tag (R126). -/
  live : RawCfg := {}
  armed : Option RawCfg := none
  /-- Merge settings have been written since the last commit (R126). -/
  mergeMark : Bool := false
  frame : Option Ingest := none
  latch : IngestBlk := {}
  /-- Rate control across frames (R216, R217): a first frame is due; e0, SPENT and FB of the last frame judged;
  whether it overshot. -/
  firstFrame : Bool := true
  prevE0 : Nat := 0
  prevSpent : Nat := 0
  prevFb : Nat := 0
  prevOver : Bool := false
deriving DecidableEq, Repr

/-! ### Colour pipeline and taps (spec/08) -/

/-- The CLR state of a context as committed. -/
structure ClrCfg where
  wspace : Nat := 0
  fcsEn : Bool := true
  shadeEn : Bool := false
  wb : List Nat := [0x1000, 0x1000, 0x1000, 0x1000]
  dmEps : Nat := 0x100
  fcsKnee : Nat := 0x8000
  lumaKr : Nat := 17216
  lumaKb : Nat := 3886
  cm : List Nat := [0x10000, 0, 0, 0, 0x10000, 0, 0, 0, 0x10000]
  off : List Nat := [0, 0, 0]
  ws : List Nat := [0x10000, 0, 0, 0, 0x10000, 0, 0, 0, 0x10000]
  /-- Shading grid in load order (R153); none until one is loaded. -/
  grid : Option (List Nat) := none
deriving DecidableEq, Repr

/-- A tap engine's settings as committed. Tables are none until loaded (R166, R169 to R171 give what then stands). -/
structure TapCfg where
  engine : Nat
  enable : Bool := false
  x0 : Nat := 0
  y0 : Nat := 0
  cw : Nat := 0
  ch : Nat := 0
  ow : Nat := 0
  oh : Nat := 0
  decim : Nat := 1
  levels : Nat := 0
  transfer : Nat := 0
  range : Nat := 0
  matrix : Nat := 1
  pack : Nat := 2
  expGain : Nat := 0x10000
  base : Nat := 0
  stride : Nat := 0
  nbuf : Nat := 2
  shaper : Option (List Nat) := none
  lut3 : Option (List Nat) := none
  outLut : Option (List Nat) := none
  hScale : Option (List Nat) := none
  vScale : Option (List Nat) := none
deriving DecidableEq, Repr

/-- A frame that a tap renders. -/
structure TapFrame where
  fid : Nat
  /-- The buffer chosen under R177; none when every buffer was held. -/
  buf : Option Nat
  cfg : TapCfg
  /-- Crop lines scaled horizontally so far, as R, G, B. -/
  lines : List (List (Nat × Nat × Nat)) := []
  /-- Output lines written (the hardware line count of R178). -/
  rows : Nat := 0
deriving DecidableEq, Repr

/-- A tap engine beyond its registers. -/
structure TapSt where
  /-- Shadow enable. -/
  enable : Bool := false
  shaper : Option (List Nat) := none
  lut3 : Option (List Nat) := none
  outLut : Option (List Nat) := none
  hScale : Option (List Nat) := none
  vScale : Option (List Nat) := none
  /-- Live settings, and FID₀ of R179. -/
  live : Option TapCfg := none
  fid0 : Nat := 0
  frame : Option TapFrame := none
  /-- Buffer last written (R177), and the settings that each buffer was last chosen under. -/
  last : Option Nat := none
  made : List (Nat × TapCfg) := []
deriving DecidableEq, Repr

/-- Sums of a zone (Table 8-3). -/
structure ZoneRec where
  r : Nat := 0
  g : Nat := 0
  b : Nat := 0
  focus : Nat := 0
  neg : Nat := 0
  clip : Nat := 0
deriving DecidableEq, Repr

/-- Zone statistics of a frame (Table 8-3): zones by index, histogram bins by 1,024 × histogram + bin; what is not
listed is 0. -/
structure ZoneBlk where
  fid : Nat := 0
  commitId : Nat := 0
  valid : Bool := false
  partly : Bool := false
  truncated : Bool := false
  stripes : Nat := 0
  ns : Nat := 0
  neg : Nat := 0
  clip : Nat := 0
  zones : List (Nat × ZoneRec) := []
  hist : List (Nat × Nat) := []
deriving DecidableEq, Repr

/-! ### Contexts and the Ladle (spec/07) -/

/-- The CTX state of a context as committed. -/
structure CtxCfg where
  width : Nat := 0
  height : Nat := 0
  budgetUs : Nat := 1000
  frameNs : Nat := 0xFE502B
  rawSrc : Nat := 0
deriving DecidableEq, Repr

/-- A committed image (R134): its COMMIT_ID, the FID it is bound to, and the state it carries. -/
structure Image where
  id : W32
  fid : Nat := 0
  cfg : CtxCfg
  raw : RawCfg
  clr : ClrCfg
  taps : List TapCfg
  fp : BitVec 64
  /-- The commit carries merge settings (R126). -/
  carries : Bool := true
deriving DecidableEq, Repr

/-- Processing counters of a frame (Table 7-4). -/
structure ProcCnt where
  done : Nat := 0
  late : Nat := 0
  maxLate : Nat := 0
  maxLat : Nat := 0
  startNs : Nat := 0
  endNs : Nat := 0
  cause : Nat := 0
  partly : Bool := false
  noVictim : Bool := false
  trigCtx : Nat := 0xFF
  trigFid : Nat := 0
  commitId : Nat := 0
deriving DecidableEq, Repr

/-- Where a playback frame's samples come from (R147). -/
inductive PlaySrc where
  /-- A frame of a sensor context's ring, with its GEN once it has been placed. -/
  | ring (ctx fid : Nat) (gen : Option Nat)
  /-- A decoded picture in a pool buffer, or one still awaited. -/
  | decoder (pic : Option Nat)
deriving DecidableEq, Repr

/-- A frame that waits for processing, or is in it. -/
structure ProcFrame where
  fid : Nat
  gen : Nat
  width : Nat
  height : Nat
  /-- Landing time of each stripe landed, in order (R138). -/
  landed : List Nat := []
  /-- The ingest boundary has passed, and the complete stripes if the frame was TRUNCATED (R137). -/
  closed : Bool := false
  truncated : Bool := false
  /-- Stripes started, and the trigger of the head stripe has been taken (R143). -/
  started : Nat := 0
  triggered : Bool := false
  /-- Processing is stopped for this frame (R133). -/
  procStop : Bool := false
  cnt : ProcCnt := {}
  zone : ZoneBlk := {}
  /-- Settings tag in effect and FRAME_START stamp. -/
  tag : Nat := 0
  epoch : Nat := 0
  ns : Nat := 0
  /-- Budget of the image bound to the frame, and the context fingerprint at its start. -/
  budgetUs : Nat := 0
  fp : BitVec 64 := 0
  /-- Playback: the source and the start T of R147. -/
  src : Option PlaySrc := none
  /-- RAW state of RAW_SRC that the replay path holds for the frame (R148). -/
  srcRaw : RawCfg := {}
  startNs : Nat := 0
  frameNs : Nat := 1
deriving DecidableEq, Repr

/-- The source CTX_PLAYBACK_SOURCE named (Table 7-7). -/
structure PlaySource where
  decoder : Bool
  ctx : Nat
  loop : Bool
  pace : Nat
  firstFid : Nat
  count : Nat
  /-- Playback frames of this source that have started. -/
  next : Nat := 0
deriving DecidableEq, Repr

structure CtxSt where
  /-- Latest COMMIT_ID issued. -/
  commitId : W32 := 0
  pending : Option Image := none
  /-- Bound and not yet live for processing, oldest first. -/
  bound : List Image := []
  live : Option Image := none
  frames : List ProcFrame := []
  /-- A PROC_ONLY stop waits for this frame's processing boundary (R133). -/
  stopAt : Option Nat := none
  /-- First FID placed since CTX_START, for R198. -/
  firstFid : Option Nat := none
  source : Option PlaySource := none
  /-- A CTX_PLAYBACK_SOURCE that waits for the next pace tick. -/
  nextSource : Option PlaySource := none
  /-- A skip of the playback frame that has not started yet (R144): its counters. -/
  skipNext : Option ProcCnt := none
  zone : ZoneBlk := {}
  clrGrid : Option (List Nat) := none
  /-- RAW_SRC of the shadow set. -/
  rawSrc : Nat := 0
deriving DecidableEq, Repr

/-- The stripe in the colour pipeline: its mosaic lines with the halo of R152, each with its true line number. -/
structure CurStripe where
  ctx : Nat
  fid : Nat
  stripe : Nat
  y0 : Nat
  n : Nat
  /-- Its landing time and deadline as it started (R138, R344). -/
  landing : Nat
  deadline : Nat
  lines : List (Nat × List Nat)
  image : Image
  cfa : Nat
  phase : Nat
  /-- FID of the record whose DCRC failed, reported when the stripe ends (R221). -/
  dcrc : Option Nat := none
deriving DecidableEq, Repr

structure LadleSt where
  cur : Option CurStripe := none
  lastCtx : Option Nat := none
  /-- (context, FID) whose PRESS_DEC_ERR is logged. -/
  decErr : List (Nat × Nat) := []
  /-- Triggers so far (R143). -/
  triggers : Nat := 0
deriving DecidableEq, Repr

/-! ### The Frame Vault (spec/09) -/

/-- A frame record (Table 9-2). -/
structure Rec where
  base : Nat
  ctx : Nat
  fid : Nat
  gen : Nat
  /-- Length in sectors as the identity line states it, and the run reserved at placement. -/
  sectors : Nat
  run : Nat
  /-- STATE: open, else CLOSED. -/
  isOpen : Bool
  /-- STATE RECLAIMED: only the identity line still stands. -/
  reclaimed : Bool := false
  guest : Bool := false
  spill : Bool := false
  truncated : Bool := false
  processed : Bool := false
  skipped : Bool := false
  zsValid : Bool := false
  embTrunc : Bool := false
  fmt : Nat := 0
  cause : Nat := 0
  takeNo : Nat := 0
  dropped : Nat := 0
  epoch : Nat := 0
  ns : Nat := 0
  width : Nat := 0
  height : Nat := 0
  readouts : Nat := 0
  sbits : Nat := 0
  embSect : Nat := 0
  maxRec : Nat := 0
  embBytes : List Byte := []
  /-- Sensor-defined flags, and the FRAME_END line count differed (spec/05, R95, R99); Table 9-2 gives them no bytes (log 90). -/
  sensorFlags : W32 := 0
  countBad : Bool := false
  commitId : Nat := 0
  commitSeq : Nat := 0
  tbNs : Nat := 0
  fpIngest : BitVec 64 × BitVec 64 := (0, 0)
  fpProc : BitVec 64 × BitVec 64 := (0, 0)
  proc : Option ProcCnt := none
  /-- Damaged lines of the stripes written. -/
  landedDmg : Nat := 0
  /-- Closed by the rebuild (spec/09, Table 9-5, step 3): bytes 64 to 2,399 of its header stand as placement wrote them. -/
  rebuilt : Bool := false
  /-- Playback record: no ingest block and no stripes. -/
  playback : Bool := false
  ingest : IngestBlk := {}
  /-- Payload of each stripe written, in stripe order; all are LANDED. -/
  payload : List (List Byte) := []
  zone : Option ZoneBlk := none
deriving DecidableEq, Repr

/-- A frame index entry (Table 9-3). -/
structure IdxEntry where
  fid : Nat := 0
  gen : Nat := 0
  vsa : Nat := 0
  sectors : Nat := 0
  valid : Bool := false
  guest : Bool := false
  truncated : Bool := false
  processed : Bool := false
deriving DecidableEq, Repr

/-- A pin table entry in use (Table 9-3). -/
structure Pin where
  ctx : Nat
  first : Nat
  last : Nat
  retain : Bool
deriving DecidableEq, Repr

/-- A context's part of a take record (Table 9-4). -/
structure TakeCtx where
  named : Bool := false
  req : Nat := 0
  first : Nat := 0
  last : Nat := 0
  frames : Nat := 0
  truncated : Nat := 0
  dropped : Nat := 0
  damaged : Nat := 0
  bytes : Nat := 0
deriving DecidableEq, Repr

/-- A take slot in use (Table 9-4). -/
structure Take where
  no : Nat
  /-- STATE CLOSED. -/
  closed : Bool := false
  /-- A close has been requested: the last FIDs are fixed (R199). -/
  closing : Bool := false
  short : Bool := false
  interrupted : Bool := false
  isRec : Bool := false
  retro : Bool := false
  openT : Nat × Nat := (0, 0)
  closeT : Nat × Nat := (0, 0)
  ctx : Vector TakeCtx 4 := Vector.replicate 4 {}
deriving DecidableEq, Repr

/-- REC_CONFIG's settings (R454). -/
structure RecCfg where
  en : Bool := false
  hold : Bool := false
  debounceMs : Nat := 10
  ctxs : Nat := 0
  preroll : List Nat := [0, 0, 0, 0]
  ub : List Nat := [0, 0]
  tally : List Nat := [0, 0]
deriving DecidableEq, Repr

structure VltSt where
  /-- Usable capacity after repair, in sectors, which the DLT reports (R53). -/
  capacity : Nat := 0x4000000
  /-- Sectors up to the usable end (R53, R185). -/
  usable : Nat := 0x4000000
  /-- RING_UNITS and EMB_SECT of each context. -/
  units : List Nat := []
  emb : List Nat := List.replicate 6 0
  /-- Records whose identity line stands, in the order they were placed. -/
  recs : List Rec := []
  index : List (Nat × IdxEntry) := []
  /-- Runs of sectors written since the vault was cleared: first, end. -/
  touched : List (Nat × Nat) := []
  /-- Write pointers: ring and spill reserve of each context. -/
  wp : List Nat := []
  wpSpill : List Nat := []
  /-- Frames not recorded since the last record of each context. -/
  dropped : List Nat := List.replicate 6 0
  pins : Vector (Option Pin) 64 := Vector.replicate 64 none
  takes : Vector (Option Take) 64 := Vector.replicate 64 none
  /-- Latest TAKE_NO issued. -/
  takeNo : Nat := 0
  recCfg : RecCfg := {}
  /-- The REC_FAIL flash runs (R202). -/
  flash : Bool := false
deriving DecidableEq, Repr
/-! ### Power and the budget scheduler (spec/20) -/

/-- A job of class B (Table 20-7). -/
inductive BJob where
  /-- A bulk command of a VQ pair, by CID slot. -/
  | vq (queue tag : Nat)
  | dfl (job : Nat)
  | dec (session : Nat)
  | test (run : Nat)
  | stage (h : Hdr)
deriving DecidableEq, Repr

structure PwrSt where
  /-- The B queue in arrival order, and the jobs admitted that have not begun (R394). -/
  queue : List BJob := []
  admitted : List BJob := []
  /-- Admissions of the last 16 ms: age in ticks, P_COST in mW, BW_COST in GB/s. -/
  recent : List (Nat × Nat × Nat) := []
  /-- Bandwidth sum of the latest tick with what has been admitted since, in bytes per ms. -/
  bw : Nat := 0
  /-- Ticks since the last ladder step (R392), and ticks in a row at or below limit − 2,000 mW. -/
  sinceStep : Nat := 64
  lowTicks : Nat := 0
  /-- The 16 values of the latest valid round; how many rounds are complete, round 0 the first (R385). -/
  hk : List Nat := List.replicate 16 0
  rounds : Nat := 0
  /-- Rails outside their windows in the latest round (R386). -/
  railOut : List Nat := []
  /-- Frames selected since a ladder step took effect: vision taps TV0, TV1 and write-backs (R392). -/
  tapTurn : List Nat := [0, 0]
  wbTurn : List Nat := [0, 0, 0, 0]
  /-- THM_TRIP has been reached: the device entered PS2 for heat (R390). -/
  trip : Bool := false
  /-- WAKE_REC as set on entry to PS2 or PS3, the state entered, and LAST_CAUSE to come (R396, R397). -/
  wakeRec : Bool := false
  sleep : Nat := 0
  cause : Nat := 0
  /-- AX switches opened by reverse current (R439). -/
  axOpen : List Bool := [false, false, false, false]
  /-- THM_MAX holds a reading taken since its last read. -/
  maxSeen : Bool := false
deriving DecidableEq, Repr

/-! ### Coding engine (spec/12, spec/13) -/

/-- An emission unit (spec/12, before R264). -/
structure EmUnit where
  /-- NAL units, and whether each is filler data. -/
  nals : List (Bool × List Byte)
  fid : Nat
  row : Nat
  poc : Nat
  /-- Table 12-4, bytes 20 to 23, but GAP_BEFORE and PHASE. -/
  flags : Nat
  epoch : Nat
  ns : Nat
deriving DecidableEq, Repr

/-- A source picture: a frame a coding tap renders, or has rendered. -/
structure EncSrc where
  fid : Nat
  /-- Buffer of the tap. -/
  buf : Nat
  tag : Nat
  epoch : Nat
  ns : Nat
  commitId : Nat
  /-- Output lines written, and whether the tap has ended the frame (R253, R254). -/
  lines : Nat := 0
  ended : Bool := false
  /-- Device fingerprint at the frame's processing boundary. -/
  fp : Option (BitVec 64) := none
  /-- The frame ended PARTIAL (R254). -/
  partly : Bool := false
  /-- Where the buffer lies, and MATRIX, RANGE and TRANSFER of its tap (R250). -/
  addr : Nat := 0
  matrix : Nat := 1
  range : Nat := 0
  transfer : Nat := 0
deriving DecidableEq, Repr

/-- A slot (R251): its number since START, and its picture; none when missed (R254). -/
structure EncSlot where
  slot : Nat
  src : Option EncSrc
deriving DecidableEq, Repr

/-- A CTU row that has entered the pixel engine. -/
structure EncRow where
  qp : Nat
  /-- QP of each CTU (R261, R262). -/
  qps : List Nat
  /-- The row lies beyond a partial source (R254). -/
  beyond : Bool
  /-- β of R258, once the row has left the pixel engine. -/
  beta : Option Nat := none
  /-- The slice NAL unit and its suffix NAL units, once entropy-coded. -/
  slice : Option (List Byte × List (List Byte)) := none
  /-- The slice data that its syntax records give. -/
  data : List Byte := []
deriving DecidableEq, Repr

/-- The picture in the pixel and entropy engines. -/
structure EncPic where
  src : EncSrc
  slot : Nat
  poc : Nat
  irap : Bool
  idr : Bool
  qp0 : Nat
  /-- D, T and L of R257. -/
  d : Nat
  t : Int
  l : Int
  /-- H of R258, and the NAL units written ahead of row 0. -/
  h : Nat
  lead : List (List Byte)
  roi : List (Nat × Nat × Nat × Nat × Int)
  /-- Pool buffers and slots of its reference pictures, newest first, and the search range in luma samples (R263). -/
  refs : List (Nat × Nat) := []
  search : Nat := 0
  /-- What its rows have written of its reconstruction, as offsets in its buffer and bytes. -/
  recon : List (Nat × List Byte) := []
  rows : List EncRow := []
  exhausted : Bool := false
  minimal : Bool := false
  partly : Bool := false
  /-- Rows whose units have been output. -/
  emitted : Nat := 0
  bits : Nat := 0
deriving DecidableEq, Repr

/-- A header template (R267). -/
structure Tmpl where
  type : Nat
  pktMax : Nat
  bytes : List Byte
deriving DecidableEq, Repr

/-- A unit at the streamer: its packets in order, each with its marker bit, and its first sequence number (R266,
R268). -/
structure StrUnit where
  tmpl : Tmpl
  /-- The identification that its template starts from, on the first unit of a template (R267). -/
  ident : Option Nat := none
  seq : Nat
  ts : Nat
  packets : List (List Byte × Bool)
deriving DecidableEq, Repr

structure EncSt where
  /-- Parameter words of CDC_STREAM_CREATE. -/
  words : List Nat := List.replicate 16 0
  /-- Size, packing and slot period of the tap as checked at creation. -/
  ow : Nat := 0
  oh : Nat := 0
  pack : Nat := 0
  tp : Nat := 1
  /-- TGT_BR, MAX_BR and CPB in kbit/s and kbit. -/
  tgtBr : Nat := 0
  maxBr : Nat := 0
  cpb : Nat := 0
  roi : List (Nat × Nat × Nat × Nat × Int) := []
  /-- No picture has been coded since START; IRAP requests (R255), a change under R271, a return from D3. -/
  first : Bool := true
  irapReq : Bool := false
  rateChange : Bool := false
  resume : Bool := false
  /-- Slots since START, and the slots of the last IRAP and IDR. -/
  slots : Nat := 0
  lastIrap : Nat := 0
  lastIdr : Nat := 0
  v : Int := 0
  /-- QP₀, b and T of the last coded picture. -/
  prev : Option (Nat × Nat × Int) := none
  prevOver : Bool := false
  queue : List EncSlot := []
  pic : Option EncPic := none
  /-- Reference-pool buffers of the latest pictures, and their slots, newest first. -/
  refs : List Nat := []
  refSlots : List Nat := []
  missMark : Bool := false
  /-- Host output (R265): spooled units, bytes in the spool; units are discarded until an IRAP; GAP_BEFORE is due. -/
  spool : List EmUnit := []
  gap : Bool := false
  gapMark : Bool := false
  /-- An FLR has turned host output off (spec/12, before R270). -/
  hostOff : Bool := false
  /-- Streamer (R266 to R269). -/
  tmpl : Option Tmpl := none
  /-- A template that waits for the next access unit, with SEQ, TS_OFS and PACE_KBPS (R267, R268). -/
  newTmpl : Option (Tmpl × Option Nat × Nat × Nat) := none
  newIdent : Option Nat := none
  tsOfs : Nat := 0
  /-- PACE_KBPS, and the token bucket in 1/8,000,000 byte with the time of its last filling (R269). -/
  pace : Nat := 0
  tokens : Nat := 0
  tokenNs : Option Nat := none
  seq : Nat := 0
  ident : Nat := 0
  backlog : List StrUnit := []
  dropping : Bool := false
deriving DecidableEq, Repr

/-- A picture of a decode session (spec/13). -/
structure DecPic where
  buf : Nat
  poc : Int
  width : Nat
  height : Nat
  fmt422 : Bool
  depth : Nat
  ctb : Nat
  irap : Bool := false
  /-- 0 unused for reference, 1 short-term, 2 long-term. -/
  ref : Nat := 1
  /-- Needed for output; output; the playback frame that took it. -/
  wanted : Bool := true
  output : Bool := false
  takenBy : Option Nat := none
  latency : Nat := 0
  generated : Bool := false
  concealed : Bool := false
  genRef : Bool := false
  tainted : Bool := false
  hashFail : Bool := false
  err : Nat := 0
  damaged : Nat := 0
  seq : W32 := 0
  outNs : Nat := 0
  /-- Luma lines reconstructed and loop-filtered. -/
  lines : Nat := 0
  /-- POC entries of the RPS, once a slice header is known. -/
  rps : Option (List Int) := none
  /-- Limits of C.5.2: reorder pictures, latency pictures (0: none), pictures in the DPB. -/
  reorder : Nat := 0
  maxLatency : Nat := 0
  dpbSize : Nat := 1
  /-- CTUs decoded (addresses), rows handed to and done by the pixel engine. -/
  ctus : List Nat := []
  peRow : Nat := 0
  ended : Bool := false
deriving DecidableEq, Repr

structure DecSt where
  open_ : Bool := false
  closing : Bool := false
  /-- POOL output mode, else CONTEXT. -/
  pool : Bool := false
  checkHash : Bool := false
  maxW : Nat := 0
  maxH : Nat := 0
  maxRate : Nat := 0
  mpix : Nat := 0
  base : Nat := 0
  ring : Nat := 0
  syntaxBytes : Nat := 0
  expand : List Nat := []
  /-- Bytes in the bitstream ring, and where the next byte goes. -/
  fill : Nat := 0
  wr : Nat := 0
  /-- Chunks in the ring: SEQ of its packet, bytes left, EOS. -/
  chunks : List (W32 × Nat × Bool) := []
  dpb : List DecPic := []
  cur : Option DecPic := none
  /-- Buffers due for output, and output and not taken, oldest first. -/
  outq : List Nat := []
  avail : List Nat := []
  /-- Every picture is output at the next picture end; CLOSE waits for what is queued. -/
  flush : Bool := false
  drain : Bool := false
  /-- First error code since the last picture end. -/
  err : Nat := 0
  /-- The next picture waits for admission, or is admitted (R278). -/
  waiting : Bool := false
  admitted : Bool := false
  reports : Nat := 0
  /-- The picture last taken by the playback context (R279). -/
  taken : Option DecPic := none
deriving DecidableEq, Repr

/-- Work of an entropy engine: a slice of a stream, or a slice of a decode session. -/
inductive EntJob where
  | enc (stream row : Nat)
  | dec (session : Nat)
deriving DecidableEq, Repr

structure CdcSt where
  enc : Vector EncSt 16 := Vector.replicate 16 {}
  dec : Vector DecSt 2 := Vector.replicate 2 {}
  /-- The row in the pixel engine: stream 0 to 15, or 16 + session. -/
  pe : Option (Nat × Nat) := none
  peLast : Nat := 17
  ee : List (Option EntJob) := [none, none]
  waiting : List EntJob := []
deriving DecidableEq, Repr

/-! ### Composition (spec/14) -/

/-- Settings of a layer (Table 14-3, Table 14-4). -/
structure LayerCfg where
  en : Bool := false
  /-- 0 MEM, 1 TAP, 2 TAP_RACE. -/
  src : Nat := 0
  pack : Nat := 0
  solid : Bool := false
  premult : Bool := false
  crcEn : Bool := false
  matrix : Nat := 0
  range : Nat := 0
  tapEng : Nat := 0
  tapCtx : Nat := 0
  sw : Nat := 0
  sh : Nat := 0
  dx : Nat := 0
  dy : Nat := 0
  dw : Nat := 0
  dh : Nat := 0
  galpha : Nat := 0
  ftmo : Nat := 1
  race : Nat := 0
  acq : Nat := 0
  rel : Nat := 0
  /-- Pre-blend LUT, none being the reset table of R289. -/
  lut : Option (List Nat) := none
deriving DecidableEq, Repr

/-- A flip (R293, R294); `order` numbers flips as they are queued. -/
structure Flip where
  addr : Nat
  acq : Nat
  rel : Nat
  tag : Nat
  wait : Bool
  ready : Bool
  order : Nat
deriving DecidableEq, Repr

/-- The buffer a layer shows: its release value until written, and for a tap buffer its engine, index and FID. -/
structure Shown where
  addr : Nat
  rel : Option Nat := none
  tag : Nat := 0
  tap : Option (Nat × Nat × Nat) := none
  racing : Bool := false
deriving DecidableEq, Repr

structure LayerSt where
  shown : Option Shown := none
  pending : Option Flip := none
  /-- Tap buffers (engine, index) this TAP_RACE layer holds ahead of a latch (R299). -/
  race : List (Nat × Nat) := []
deriving DecidableEq, Repr

/-- Write-back settings (R302). -/
structure WbCfg where
  en : Bool := false
  oneshot : Bool := false
  pack : Nat := 0
  matrix : Nat := 0
  range : Nat := 0
  nbuf : Nat := 2
  stride : Nat := 0
  base : Nat := 0
deriving DecidableEq, Repr

/-- Committed settings of a composer, with the deferred flips of a set that is not live yet (R291). -/
structure CmpSet where
  outW : Nat
  outH : Nat
  bg : Nat × Nat × Nat
  pace : Bool
  fcg : Nat
  layers : List LayerCfg
  post : Option (List Nat)
  wb : WbCfg
  /-- Host selections for the Rind (R304): line mask and timecode position, none when not selected. -/
  lines : Option Nat
  tcPos : Option Nat
  flips : List (Nat × Flip)
deriving DecidableEq, Repr

/-- A composer frame between its latch and its end. -/
structure CmpFrame where
  cfn : Nat
  /-- Write-back buffer, when one is written. -/
  wb : Option Nat
  /-- The tally border is drawn (R305). -/
  tally : Bool
  tc : Nat
  fault : Bool
deriving DecidableEq, Repr

structure CmpSt where
  shadow : List LayerCfg := List.replicate 8 {}
  shadowPost : Option (List Nat) := none
  shadowWb : WbCfg := {}
  shadowLines : Option Nat := none
  shadowTcPos : Option Nat := none
  set : Option CmpSet := none
  live : Option CmpSet := none
  layer : List LayerSt := List.replicate 8 {}
  /-- Flips queued with DEFER since the previous commit. -/
  deferred : List (Nat × Flip) := []
  order : Nat := 0
  frame : Option CmpFrame := none
  /-- Write-back buffer last written. -/
  wbLast : Option Nat := none
  /-- An FCG tick has asked for a latch (R292). -/
  due : Bool := false
  /-- Elements drawn at the latest latch. -/
  drawn : Nat := 0
deriving DecidableEq, Repr

/-- A composer's entry of the Rind policy (Table 14-1). -/
structure RindEntry where
  shows : Bool := true
  tally : Bool := true
  tc : Bool := false
  lines : Bool := false
  wbRind : Bool := false
  hostLines : Bool := false
  hostTcPos : Bool := false
  width : Nat := 8
  tallyRgb : Nat × Nat × Nat := (0xFFFF, 0, 0)
  lineRgb : Nat × Nat × Nat := (0, 0, 0)
  lineAlpha : Nat := 0
  lineWidth : Nat := 1
  lineMask : Nat := 0
  tcPos : Nat := 0
  tcRows : Nat := 1
  aspects : List (Nat × Nat) := List.replicate 8 (0, 0)
deriving DecidableEq, Repr

structure RindPolicy where
  byDefault : Bool := true
  locked : Bool := false
  version : Nat := 0x0100
  crc : W32 := 0
  bg : Nat × Nat × Nat := (0, 0, 0)
  text : Nat × Nat × Nat := (0xFFFF, 0xFFFF, 0xFFFF)
  entry : List RindEntry := List.replicate 4 {}
deriving DecidableEq, Repr

structure CmpBlk where
  unit : Vector CmpSt 4 := Vector.replicate 4 {}
  rind : RindPolicy := {}
  /-- The asset area is being rewritten after a vault clear (R303). -/
  assets : Bool := true
  /-- Contents of fence lines as last read: line number, 64 bytes (R59, R63). -/
  fence : List (Nat × List Byte) := []
deriving DecidableEq, Repr

/-! ### Display outputs (spec/15) -/

/-- Settings of a timing generator that take effect at B (R310). -/
structure TgSoft where
  /-- TC_ORIGIN, and a COUNT preload (R313). -/
  origin : Nat := 0
  preload : Option Nat := none
  vmin : Nat := 8
  vmax : Nat := 8
  lock : Bool := false
  fcg : Nat := 0
  ofs : Int := 0
  time : Bool := false
  df : Bool := false
  num : Nat := 0
  den : Nat := 0
deriving DecidableEq, Repr

structure TgSt where
  /-- DSP_SET_TIMING has been accepted. -/
  set : Bool := false
  sdi : Bool := false
  raster : Nat := 0
  rate : Nat := 0
  hactive : Nat := 0
  vactive : Nat := 0
  htotal : Nat := 1
  khz : Nat := 1
  /-- The pixel clock is divided by 1.001. -/
  div : Bool := false
  soft : TgSoft := {}
  next : Option TgSoft := none
  /-- Line starts fall at `t0` + k × line period, ns; line index of the current frame's first active line, and of its
  B once reached. -/
  t0 : Int := 0
  active : Nat := 0
  blank : Option Nat := none
  /-- Timecode of the latest latch, in frames from 00:00:00:00. -/
  tc : Nat := 0
  slipped : Bool := false
  /-- The frame to come waits for its target (R312). -/
  realign : Bool := false
deriving DecidableEq, Repr

/-- A waiting ANC packet (R316), when its opcode completed, and whether a latch has passed since. -/
structure AncPkt where
  did : Nat
  sdid : Nat
  udw : List Nat
  since : Nat
  armed : Bool
deriving DecidableEq, Repr

structure DspPort where
  tg : Option Nat := none
  /-- Word 0 and LANE_MBPS of DSP_PORT_ENABLE. -/
  word0 : Nat := 0
  mbps : Nat := 0
  enabling : Option Hdr := none
  /-- What an unfinished DSP_PORT_ENABLE asks for. -/
  asked : Nat × Nat := (0, 0)
  /-- DCS transfers (data type, data, bytes to read) that wait for vertical blanking (R318). -/
  dcs : List (Hdr × Nat × List Byte × Nat) := []
  anc : List AncPkt := []
deriving DecidableEq, Repr

structure DspSt where
  tg : Vector TgSt 4 := Vector.replicate 4 {}
  port : Vector DspPort 4 := Vector.replicate 4 {}
  /-- Source composer of each generator. -/
  route : List (Option Nat) := [none, none, none, none]
deriving DecidableEq, Repr

/-! ### Timebase and network (spec/17) -/

/-- A cadence generator's grid (R345): ORIGIN in extended ns, PERIOD as 32.32. -/
structure FcgCfg where
  en : Bool := false
  origin : Nat := 0
  period : Nat := 16666666 * 0x100000000
deriving DecidableEq, Repr

structure FcgSt where
  live : FcgCfg := {}
  /-- A configuration that takes effect after the next tick (R346). -/
  next : Option FcgCfg := none
  /-- Number k of the next tick, and the grid time of the tick last fired, 32.32 ns. -/
  k : Int := 0
  last : Option Int := none
deriving DecidableEq, Repr

/-- A fetched transmit descriptor (Table 17-2) and its frame. -/
structure TxFrame where
  desc : List Byte
  data : List Byte
  failed : Bool
  /-- A step was applied since its fetch (R352). -/
  stepped : Bool
  /-- It waits for its LAUNCH time; it reached the head more than 1 ms late (R351). -/
  held : Bool
  lateLaunch : Bool
deriving DecidableEq, Repr

structure NetSt where
  configured : Bool := false
  up : Bool := false
  promisc : Bool := false
  mtu : Nat := 1500
  mac : Nat := 0
  mcast : List Nat := []
  txAdj : Int := 0
  rxAdj : Int := 0
  /-- Accepted tail of TQ0, TQ2 and the receive ring. -/
  tail : List Nat := [0, 0, 0]
  /-- The fetched head of TQ0 and TQ2. -/
  tx : List (Option TxFrame) := [none, none]
  upWait : List Hdr := []
  /-- PTP frames sent. -/
  ptpSent : Nat := 0
deriving DecidableEq, Repr

structure TimSt where
  fcg : Vector FcgSt 4 := Vector.replicate 4 {}
deriving DecidableEq, Repr


/-! ### Self-test (spec/22) -/

/-- The test that runs, or waits for admission (R408, R409). -/
structure TstRun where
  id : Nat
  /-- 0 analogue, 1 logic BIST, 2 MBIST. -/
  kind : Nat
  /-- Analogue ITEM, or logic BIST CONFIG. -/
  item : Nat
  arg0 : Nat
  arg1 : Nat
  arg2 : Nat
  repair : Bool
  owner : Nat
  /-- Admitted and started. -/
  began : Bool := false
  /-- The opcode that started it, until it replies. -/
  hdr : Option Hdr := none
  /-- HK_REF: whether rails and reference were inside their windows in each round since (Table 22-1). -/
  rounds : List Bool := []
deriving DecidableEq, Repr

/-- A result (R421). -/
structure TstResult where
  id : Nat
  kind : Nat
  item : Nat
  status : Nat
  owner : Nat
  words : List Nat
deriving DecidableEq, Repr

/-- A repair record entry (Table 22-5). -/
structure Repair where
  kind : Nat
  /-- 0 SOFT, 1 HARD, 2 SUSPECT. -/
  st : Nat
  inst : Nat
  addr : Nat
deriving DecidableEq, Repr

structure TstSt where
  run : Option TstRun := none
  /-- The eight latest runs, newest first. -/
  results : List TstResult := []
  /-- The repair records in flash (R416). -/
  records : List Repair := []
  /-- Spares used of raw lanes, pipeline lanes, SRAM, DRAM (R414). -/
  used : List Nat := [0, 0, 0, 0]
  /-- Status of raw lanes, pipeline lanes, SRAM, DRAM: 0 COMPLETE, 1 DEGRADED, 2 FAILED (Table 22-4). -/
  status : List Nat := [0, 0, 0, 0]
  /-- The sector remap: failed sector, spare (R185, R369). -/
  remap : List (Nat × Nat) := []
  /-- The levels of the lands TMUX0 to TMUX7 and TMUX_CK, FAB ticks of the present TMUX_CK period, and for each group the code shown at the
  last edge with its counts (R420). -/
  lands : List Bool := List.replicate 9 false
  ckTick : Nat := 0
  seen0 : Nat × List Nat := (0, [])
  seen1 : Nat × List Nat := (0, [])
deriving DecidableEq, Repr

/-! ### Audio ports (spec/16) -/

/-- A block of a play ring as fetched (R331). -/
structure PlayBlk where
  frames : List AudFrame
  cs : List Byte
deriving DecidableEq, Repr

structure AudPort where
  /-- A slave or AES3 input past its start instant, waiting for its first block (R334). -/
  armed : Bool := false
  stopping : Option Hdr := none
  /-- Number of the block in progress, and its stamp. -/
  k : Nat := 0
  epoch : Nat := 0
  ns : Nat := 0
  /-- Frames of the block as recorded, those written as zeros, and the FLAGS gathered (Table 16-2). -/
  frames : List AudFrame := []
  zeros : Nat := 0
  flags : Nat := 0
  /-- The latest frame overran (R330); the block's samples are zero after a glitch (R335). -/
  ovr : Bool := false
  glitched : Bool := false
  /-- R332 applies. -/
  nonAudio : Bool := false
  /-- Muted for a rate change, with the blocks in a row within 500 ppm (R335). -/
  rateMute : Option Nat := none
  /-- The latest block underran (R331); what has been fetched for the block to come. -/
  under : Bool := false
  fetched : Option (Option PlayBlk) := none
  /-- Channel status of the latest block received, of the latest block played, and as set by the host. -/
  inCs : List Byte := List.replicate 48 0
  outCs : List Byte := List.replicate 48 0
  hostCs : Option (List Byte) := none
  /-- Frames of the source not yet sent by a loop-through output; it has filled to its delay (R333). -/
  loop : List AudFrame := []
  primed : Bool := false
  /-- INC of R325. -/
  inc : Nat := 0
deriving DecidableEq, Repr

/-- A start that waits (R334): its ports, and its instant. -/
structure AudStart where
  mask : Nat
  /-- A tick of this generator, else a timebase time. -/
  fcg : Option Nat
  time : Nat
deriving DecidableEq, Repr

structure AudSt where
  port : Vector AudPort 8 := Vector.replicate 8 {}
  starts : List AudStart := []
deriving DecidableEq, Repr

/-! ### The vault queue (spec/11) -/

/-- An outstanding command that has been fetched (R224, R225). -/
structure VqCmd where
  /-- The 64 bytes of its submission entry (Table 11-1). -/
  bytes : List Byte
  /-- SQ slot, SQn head after the fetch, number in fetch order over all queues, number of its doorbell. -/
  slot : Nat
  sqHead : Nat
  seq : Nat
  db : Nat
  /-- It holds its tag: neither BAD_TAG nor DUP_TAG. -/
  tagged : Bool
  /-- It has been handed to budget admission; it has asked for Hoop entries (R233, R235). -/
  queued : Bool := false
  asked : Bool := false
  started : Bool := false
  /-- It gave up what it waited for at a barrier (R241). -/
  gaveUp : Bool := false
  /-- READ_FRAME: the sectors to copy, whether a stripe without LANDED follows them, and the GEN used (R229). -/
  src : List Nat := []
  cut : Bool := false
  gen : Nat := 0
  /-- ABORT: the outcome decided, and the fetch number of the target whose entry comes first (R237). -/
  outcome : Nat := 0
  after : Option Nat := none
  /-- The completion that waits to be posted: STATUS, COUNT, INFO. -/
  fin : Option (Nat × Nat × Nat) := none
deriving DecidableEq, Repr

structure VqPair where
  /-- Last accepted tail, and the doorbells that still have slots to fetch: tail, number. -/
  tail : Nat := 0
  dbs : List (Nat × Nat) := []
  /-- Outstanding commands: those fetched in fetch order, and those that ended in their slot. -/
  cmds : List VqCmd := []
  /-- Queue indices of the slots not fetched whose commands have ended (R237, R239). -/
  dead : List Nat := []
  /-- Fetch numbers of finished commands in the order they completed. -/
  post : List Nat := []
  /-- A VQ_RESET_QUEUE that waits for room, and the commands it ends (R239). -/
  resetting : Option (Hdr × Nat) := none
deriving DecidableEq, Repr

structure VqSt where
  pair : Vector VqPair 16 := Vector.replicate 16 {}
  /-- Next fetch number and next doorbell number. -/
  seq : Nat := 0
  db : Nat := 0
  /-- The barrier of R241. -/
  barrier : Bool := false
  /-- The pair served last in the round of fetches (R225). -/
  last : Nat := 15
deriving DecidableEq, Repr

/-! ### The DEFLATE engine (spec/18) -/

/-- A job (R354): word 0 of its packet, its tag, and its references as (address, length, SPACE). -/
structure DflJob where
  id : Nat
  word : Nat
  tag : Nat
  resume : Bool
  src : Nat × Nat × Nat
  dst : Nat × Nat × Nat
  st : Nat × Nat × Nat
  done : Nat × Nat × Nat
deriving DecidableEq, Repr

/-- A job in an engine, with what host memory holds behind its source, chain list and state. -/
structure DflRun where
  job : DflJob
  src : HostRead
  list : HostRead
  st : HostRead
deriving DecidableEq, Repr

/-- What a resume state holds (R363): word 0 of the original job, the source bytes taken and the bytes produced so far;
from these follow the window and the coder state. -/
structure DflSaved where
  word : Nat
  taken : List Byte
  produced : Nat
deriving DecidableEq, Repr

structure DflSt where
  queue : List DflJob := []
  engine : List (Option DflRun) := [none, none]
  nextId : Nat := 0
  /-- Resume states written, newest first: the bytes, and what they hold (the model's own record). -/
  saved : List (List Byte × DflSaved) := []
deriving DecidableEq, Repr


/-! ### DRAM controller (spec/19), flash (spec/21) -/

structure ChanSt where
  /-- Applied delays: CA, WDQ0, WDQ1, RDQS0, RDQS1 (R375). -/
  dly : List Nat := [0, 0, 0, 0, 0]
  /-- Refreshes postponed, and issued so far (R373). -/
  postponed : Nat := 0
  refs : Nat := 0
  /-- The window in force and the slots CAP has used of it; the port served last of each class; rows hit since an older miss of their class
  waits (R371). -/
  window : Nat := 0
  capUsed : Nat := 0
  turn : List Nat := List.replicate 6 0
  passed : Nat := 0
  /-- Open rows: bank, row, and when it was last hit, in quarters of a ns (R370). -/
  rows : List (Nat × Nat × Nat) := []
deriving DecidableEq, Repr

structure DmcSt where
  chan : Vector ChanSt 32 := Vector.replicate 32 {}
  /-- An offset pass is in progress (R376). -/
  pass : Bool := false
  /-- Budget ticks so far. -/
  ticks : Nat := 0
deriving DecidableEq, Repr

/-- Firmware staging that waits for admission (R394): its packet, slot offset and bytes. -/
structure StageJob where
  hdr : Hdr
  offset : Nat
  data : List Byte
deriving DecidableEq, Repr

/-- Flash and firmware (spec/21, R405, R406). -/
structure FwSt where
  /-- What FW_STAGE has written into slots A and B, newest first: offset, bytes; the rest is as shipped. -/
  staged : List (List (Nat × List Byte)) := [[], []]
  /-- Slot the boot selector names, and the slot that runs: 0 A, 1 B. -/
  sel : Nat := 0
  slot : Nat := 0
  /-- Version that runs; none before a boot. -/
  version : Option (BitVec 24) := none
  /-- The inactive slot has been verified since its last FW_STAGE. -/
  verified : Bool := false
  activating : Option Hdr := none
  jobs : List StageJob := []
deriving DecidableEq, Repr

/-- The variants of Table 0-1 that differ in behaviour (spec/00, R1). -/
structure Variant where
  /-- FL1640-256 (else -128). -/
  big : Bool
  /-- Suffix -X (else -C). -/
  ext : Bool
deriving DecidableEq, Repr

/-- What a DEV_SET_PSTATE or a DEV_RESET does once its reply is written. -/
inductive AfterAct where
  /-- PS2 or PS3, with WAKE_REC and DISCARD. -/
  | sleep (state : Nat) (wakeRec discard : Bool)
  | reset (clear : Bool)
deriving DecidableEq, Repr

structure After where
  hdr : Hdr
  act : AfterAct
deriving DecidableEq, Repr

/-- Device-level conditions. -/
structure DevSt where
  variant : Variant := ⟨true, false⟩
  /-- DEVICE_READY (spec/02, R25). -/
  ready : Bool := false
  /-- Safe state (spec/22, R418). -/
  safe : Bool := false
  /-- A firmware image is in its run state (CMD_STAT.FW_RUN). -/
  fwRun : Bool := false
  /-- COMMIT_SEQ and TB_NS of that commit (spec/04, R75). -/
  commitSeq : W32 := 0
  commitTb : W32 := 0
  /-- The logic waits for a boot, and what EVT_BOOT_STAT.TYPE will name (spec/21). -/
  awaits : Bool := true
  bootType : Nat := 0
  /-- A vault clear is due at step 8 (R402). -/
  clearDue : Bool := true
  /-- VIN: 0 in range, 1 below UVLO, 2 above OVLO (R380). -/
  vin : Nat := 0
  /-- FAIL_CODE that TALLY0 flashes while the logic is kept in reset, or 0 (R403). -/
  bootFail : Nat := 0
  /-- What follows the reply of a packet (R396, R400). -/
  after : Option After := none
deriving DecidableEq, Repr

/-- The whole state of the FL1640. -/
structure State where
  /-- Registers by BAR0 offset; an unlisted register holds its reset value. -/
  regs : List (Nat × W32) := []
  /-- High words latched by reads of low words: (master, high register), value (spec/00, R6). -/
  latch : List (Byte × Nat × W32) := []
  /-- Bytes of the vault's working region by DPA; an unlisted byte reads 0. -/
  mem : List (Nat × Byte) := []
  /-- Bytes the device wrote to host memory, by host address. -/
  host : List (Nat × Byte) := []
  /-- Bytes of the BAR2 ring storage the device wrote, by BAR2 offset; an unlisted byte reads 0. -/
  bar2 : List (Nat × Byte) := []
  dev : DevSt := {}
  cmd : CmdSt := {}
  evt : EvtSt := {}
  cxl : CxlSt := {}
  mbx : MbxSt := {}
  dlt : DltSt := {}
  lane : Vector LaneSt 24 := Vector.replicate 24 {}
  port : Vector PortSt 4 := Vector.replicate 4 {}
  raw : Vector RawSt 4 := Vector.replicate 4 {}
  ctx : Vector CtxSt 6 := Vector.replicate 6 {}
  ladle : LadleSt := {}
  tap : Vector TapSt 10 := Vector.replicate 10 {}
  vlt : VltSt := {}
  vq : VqSt := {}
  dfl : DflSt := {}
  dmc : DmcSt := {}
  flash : FwSt := {}
  pwr : PwrSt := {}
  cdc : CdcSt := {}
  cmp : CmpBlk := {}
  dsp : DspSt := {}
  aud : AudSt := {}
  tim : TimSt := {}
  tst : TstSt := {}
  net : NetSt := {}
  /-- Outputs, newest last (the model's own record). -/
  out : List Out := []
  /-- Free values drawn so far (the model's own counter). -/
  freeCtr : Nat := 0
  /-- Commands waiting, first in first out. -/
  pending : List Instr := []
deriving DecidableEq, Repr

/-- The machine after reset: every register at its reset value, nothing booted, nothing pending. -/
def State.reset : State :=
  let units := defaultUnits 0x4000000
  let bases := ringBases (16 * 0x40000 + 0x8000) units
  let spills := List.zipWith (fun b u => b + ringSect u) bases units
  { vlt := { usable := 0x4000000, units := units, wp := bases, wpSpill := spills } }

end Sys2Proof.Machine
end

