-- ==== Sys2Proof/Machine/RawMath.lean ====
section
/-!
DEFINITION. The raw front-end's arithmetic, steps 2 to 7 of Table 6-1, sample by sample (spec/06_raw_front_end.md,
R111 to R120, R127).
-/
namespace Sys2Proof.Machine
open Sys2Proof

/-- The largest 4.20 value. -/
def max420 : Nat := 0xFFFFFF

/-- CFA channel ch(x, y) (spec/06, after Table 6-1). -/
def cfaCh (cfa phase x y : Nat) : Nat := if cfa = 1 then phase ^^^ (y % 2 * 2 + x % 2) else 0

/-- The same-colour step d. -/
def sameStep (cfa : Nat) : Nat := if cfa = 1 then 2 else 1

/-- Entry `i` of a linearisation table; the table that stands until one is loaded holds 256 i (R113). -/
def linEntry (t : Option (List Nat)) (i : Nat) : Nat :=
  match t with
  | none => 256 * i
  | some l => l.getD i 0

/-- R113: a sample code of `b` bits to 4.20. -/
def linearise (t : Option (List Nat)) (b c : Nat) : Nat :=
  let x := c * 2 ^ (16 - b)
  let i := x / 16
  let f := x % 16
  let lo := (linEntry t i : Int)
  (lo + (((linEntry t (i + 1) : Int) - lo) * f + 8) / 16).toNat

/-- Entry of a black table for column `x` and channel `ch` (R114). -/
def blackEntry (t : Option (List Nat)) (x ch : Nat) : Nat :=
  match t with
  | none => 0
  | some l => l.getD (4 * (x / 64) + ch) 0

/-- R114: the black-corrected value and whether it clamped at 0. -/
def blackSub (v b : Nat) (adj : Int) : Nat × Bool :=
  let d := (v : Int) - b - adj
  if d < 0 then (0, true) else (min d.toNat max420, false)

/-- A frame's sample codes, `lines[r][y][x]`, and the settings they meet. -/
structure RawFrame where
  cfg : RawCfg
  width : Nat
  height : Nat
  sbits : Nat
  lines : List (List (List Nat))
deriving DecidableEq, Repr

namespace RawFrame

/-- Sample code of readout `r`. -/
def code (q : RawFrame) (r x y : Nat) : Nat := ((q.lines.getD r []).getD y []).getD x 0

def ch (q : RawFrame) (x y : Nat) : Nat := cfaCh q.cfg.cfa q.cfg.phase x y

/-- Steps 2 and 3 for one sample (R113, R114). -/
def black (q : RawFrame) (r x y : Nat) : Nat × Bool :=
  blackSub (linearise (q.cfg.lin.getD r none) q.sbits (q.code r x y))
    (blackEntry (q.cfg.black.getD r none) x (q.ch x y)) (sext 24 q.cfg.blackAdj)

/-- v′ of readout `r`. -/
def v (q : RawFrame) (r x y : Nat) : Nat := (q.black r x y).1

/-- s[r] (R115). -/
def s (q : RawFrame) (r x y : Nat) : Nat := min ((q.v r x y * q.cfg.gain.getD r 0 + 0x8000) / 0x10000) max420

/-- v′ reaches SAT (R115). -/
def saturated (q : RawFrame) (r x y : Nat) : Bool := decide (q.cfg.sat.getD r 0 ≤ q.v r x y)

/-- w[r] (R115). -/
def w (q : RawFrame) (r x y : Nat) : Nat :=
  let sat := q.cfg.sat.getD r 0
  let knee := q.cfg.knee.getD r 0
  let wt := q.cfg.weight.getD r 0
  let v := q.v r x y
  if sat ≤ v then 0 else if knee < v then wt * (sat - v) / (sat - knee) else wt

/-- The enabled readouts. -/
def rs (q : RawFrame) : List Nat := List.range q.cfg.readouts

/-- Among `l`, the readout with the largest GAIN, the lowest index on a tie (R115, R116). -/
def largestGain (q : RawFrame) (l : List Nat) : Nat :=
  l.foldl (fun b r => if q.cfg.gain.getD b 0 < q.cfg.gain.getD r 0 then r else b) (l.headD 0)

def sumW (q : RawFrame) (x y : Nat) : Nat := (q.rs.map (fun r => q.w r x y)).sum

/-- Every readout's weight is 0 (R115). -/
def allSat (q : RawFrame) (x y : Nat) : Bool := decide (1 < q.cfg.readouts) && q.sumW x y == 0

/-- The sample positions of the 8 × 8 block (bx, by) that lie in the frame (R116). -/
def blockXY (q : RawFrame) (bx by_ : Nat) : List (Nat × Nat) :=
  (List.range (min 8 (q.height - 8 * by_))).flatMap (fun j =>
    (List.range (min 8 (q.width - 8 * bx))).map (fun i => (8 * bx + i, 8 * by_ + j)))

/-- R116: the block (bx, by) is a ghost block. -/
def ghost (q : RawFrame) (bx by_ : Nat) : Bool :=
  let g := q.cfg.ghostRef
  q.cfg.ghostEn && q.rs.any (fun r =>
    let u := (q.blockXY bx by_).filter (fun p => decide (0 < q.w g p.1 p.2) && decide (0 < q.w r p.1 p.2))
    let d := (u.map (fun p => ((q.s r p.1 p.2 : Int) - q.s g p.1 p.2).natAbs)).sum
    let n := (u.map (fun p => q.s g p.1 p.2 + q.cfg.noise)).sum
    r != g && decide (8 ≤ u.length) && decide (q.cfg.ghostThr * n < d * 65536))

/-- The merged value m at (x, y) (R115, R116). -/
def merged (q : RawFrame) (x y : Nat) : Nat :=
  if q.cfg.readouts ≤ 1 then q.s 0 x y
  else
    let sw := q.sumW x y
    if sw = 0 then q.s (q.largestGain q.rs) x y
    else if q.ghost (x / 8) (y / 8) then
      if 0 < q.w q.cfg.ghostRef x y then q.s q.cfg.ghostRef x y
      else q.s (q.largestGain (q.rs.filter (fun r => decide (0 < q.w r x y)))) x y
    else ((q.rs.map (fun r => q.w r x y * q.s r x y)).sum + sw / 2) / sw

/-- A position mirrored about the edges 0 and n − 1 (R117). -/
def mirror (n : Nat) (i : Int) : Nat :=
  if i < 0 then (-i).toNat else if (n : Int) ≤ i then (2 * ((n : Int) - 1) - i).toNat else i.toNat

/-- The samples a defect entry names (R117): column, line, kind. -/
def defectXY (d : Nat) (e : Nat × Nat × Nat) : List (Nat × Nat) :=
  if e.2.2 = 1 then [(e.1, e.2.1), (e.1 + d, e.2.1)]
  else if e.2.2 = 2 then [(e.1, e.2.1), (e.1, e.2.1 + d)]
  else [(e.1, e.2.1)]

/-- (x, y) is a map defect. -/
def isDefect (q : RawFrame) (x y : Nat) : Bool :=
  q.cfg.defects.any (fun e => (defectXY (sameStep q.cfg.cfa) e).contains (x, y))

/-- The neighbour of (x, y) at an offset: its merged value unless it is a map defect. -/
def nb (q : RawFrame) (x y : Nat) (dx dy : Int) : Option Nat :=
  let x' := mirror q.width ((x : Int) + dx)
  let y' := mirror q.height ((y : Int) + dy)
  if q.isDefect x' y' then none else some (q.merged x' y')

/-- Rounded mean. -/
def meanOf (l : List Nat) : Nat := (l.sum + l.length / 2) / l.length

/-- R117, the directional rule: the corrected value, or none when no member is valid. -/
def directional (q : RawFrame) (x y : Nat) : Option Nat :=
  let d : Int := sameStep q.cfg.cfa
  let l := q.nb x y (-d) 0
  let r := q.nb x y d 0
  let u := q.nb x y 0 (-d)
  let b := q.nb x y 0 d
  let dist := fun (i j : Nat) => ((i : Int) - j).natAbs
  match l, r, u, b with
  | some i, some j, some k, some m => if dist k m < dist i j then some (meanOf [k, m]) else some (meanOf [i, j])
  | some i, some j, _, _ => some (meanOf [i, j])
  | _, _, some k, some m => some (meanOf [k, m])
  | _, _, _, _ =>
    let ms := [l, r, u, b].filterMap id
    if ms.isEmpty then none else some (meanOf ms)

/-- R118: (x, y) is dynamically defective. -/
def dynDefect (q : RawFrame) (x y : Nat) : Bool :=
  let d : Int := sameStep q.cfg.cfa
  let ns := ([(-d, 0), (d, 0), (0, -d), (0, d), (-d, -d), (-d, d), (d, -d), (d, d)] : List (Int × Int)).filterMap
    (fun o => q.nb x y o.1 o.2)
  let mx := ns.foldl max 0
  let mn := ns.foldl min (ns.headD 0)
  let m := q.merged x y
  let tol := fun t => max q.cfg.dynAbs (t * q.cfg.dynRel / 0x10000)
  q.cfg.dynEn && decide (2 ≤ ns.length) && (decide (mx + tol mx < m) || decide (m + tol mn < mn))

/-- What step 5 did with a sample. -/
inductive Fix where
  | kept | static | dynamic | uncorrected
deriving DecidableEq, Repr

/-- Step 5 (R117, R118): the 4.20 value that step 6 encodes. -/
def step5 (q : RawFrame) (x y : Nat) : Nat × Fix :=
  if q.isDefect x y then
    match q.directional x y with
    | some v => (v, .static)
    | none => (q.merged x y, .uncorrected)
  else if q.dynDefect x y then
    match q.directional x y with
    | some v => (v, .dynamic)
    | none => (q.merged x y, .uncorrected)
  else (q.merged x y, .kept)

end RawFrame

/-- R120: a 4.20 value as Raw16. -/
def raw16Encode (v : Nat) : Nat :=
  let w := 8 * v
  if w < 4096 then w
  else
    let e := Nat.log2 w - 11
    let k := e - 1
    let q := w / 2 ^ k
    let rem := w % 2 ^ k
    let q := if 0 < k ∧ (2 ^ (k - 1) < rem ∨ (rem = 2 ^ (k - 1) ∧ q % 2 = 1)) then q + 1 else q
    let e' := if q = 8192 then e + 1 else e
    let q := if q = 8192 then 4096 else q
    if e' = 16 then 0xFFFF else e' * 4096 + (q - 4096)

/-- The value of a Raw16 code in eighths of a 4.20 unit. -/
def raw16W (c : Nat) : Nat := if c / 4096 = 0 then c else (4096 + c % 4096) * 2 ^ (c / 4096 - 1)

/-- R120: a Raw16 code as 4.20. -/
def raw16Decode (c : Nat) : Nat := min ((raw16W c + 4) / 8) max420

namespace RawFrame

/-- Raw16 codes of lines y0 to y0 + n − 1 (R120). -/
def raw16Lines (q : RawFrame) (y0 n : Nat) : List (List Nat) :=
  (List.range n).map (fun j => (List.range q.width).map (fun x => raw16Encode (q.step5 x (y0 + j)).1))

/-- 4.20 values of lines y0 to y0 + n − 1 as the replay path delivers them (R121). -/
def valueLines (q : RawFrame) (y0 n : Nat) : List (List Nat) :=
  (List.range n).map (fun j => (List.range q.width).map (fun x => (q.step5 x (y0 + j)).1))

/-- The sample positions of lines y0 to y0 + n − 1. -/
def xys (q : RawFrame) (y0 n : Nat) : List (Nat × Nat) :=
  (List.range n).flatMap (fun j => (List.range q.width).map (fun x => (x, y0 + j)))

/-- R127: the ingest statistics of lines y0 to y0 + n − 1, `dmg` of them damaged. -/
def stats (q : RawFrame) (y0 n dmg : Nat) : RawStats :=
  let ps := q.xys y0 n
  let cnt := fun (p : Nat × Nat → Bool) => (ps.filter p).length
  let multi := decide (1 < q.cfg.readouts)
  let fixed := fun (k : Fix) => cnt (fun p => (q.step5 p.1 p.2).2 == k)
  let blocks := (List.range (ceilDiv n 8)).flatMap (fun j => (List.range (ceilDiv q.width 8)).map (fun i => (i, y0 / 8 + j)))
  let chans := List.range (if q.cfg.cfa = 1 then 4 else 1)
  let of := fun c => ps.filter (fun p => q.ch p.1 p.2 == c)
  { damaged := dmg, static := fixed .static, dynamic := fixed .dynamic, uncorr := fixed .uncorrected
    ghost := if multi then (blocks.filter (fun b => q.ghost b.1 b.2)).length else 0
    allSat := cnt (fun p => q.allSat p.1 p.2)
    sat := (List.range 3).map (fun r => if multi ∧ r < q.cfg.readouts then cnt (fun p => q.saturated r p.1 p.2) else 0)
    blackClamp := (q.rs.map (fun r => cnt (fun p => (q.black r p.1 p.2).2))).sum
    sums := (List.range 4).map (fun c => if chans.contains c then ((of c).map (fun p => (q.step5 p.1 p.2).1)).sum else 0)
    hist := (List.range 4).map (fun c => (List.range 128).map (fun b =>
      if chans.contains c then ((of c).filter (fun p => raw16Encode (q.step5 p.1 p.2).1 / 512 == b)).length else 0)) }

end RawFrame

/-- The counts of two sets of lines together. -/
def RawStats.add (a b : RawStats) : RawStats :=
  let z := fun (x y : List Nat) => List.zipWith (· + ·) x y
  { damaged := a.damaged + b.damaged, static := a.static + b.static, dynamic := a.dynamic + b.dynamic
    uncorr := a.uncorr + b.uncorr, ghost := a.ghost + b.ghost, allSat := a.allSat + b.allSat, sat := z a.sat b.sat
    blackClamp := a.blackClamp + b.blackClamp, sums := z a.sums b.sums, hist := List.zipWith z a.hist b.hist }

end Sys2Proof.Machine
end

