-- ==== Sys2Proof/Machine/Press.lean ====
section
/-!
DEFINITION. The Press: lossless and bounded-error coding of Raw16 stripes, its decoder and its rate control
(spec/10_raw_compressor.md, R206 to R217, R221).
-/
namespace Sys2Proof.Machine
open Sys2Proof

/-- `n` bits of `v`, most significant first. -/
def msbBits : Nat → Nat → List Bool
  | 0, _ => []
  | n + 1, v => bitAt v n :: msbBits n v

/-- The number that bits spell, most significant first. -/
def ofMsb (bs : List Bool) : Nat := bs.foldl (fun n b => 2 * n + b2n b) 0

/-- Bits packed into bytes, most significant first, the last byte completed with 0 bits (R208). -/
def packBits : List Bool → List Byte
  | [] => []
  | b0 :: b1 :: b2 :: b3 :: b4 :: b5 :: b6 :: b7 :: t => BitVec.ofNat 8 (ofMsb [b0, b1, b2, b3, b4, b5, b6, b7]) :: packBits t
  | bs => [BitVec.ofNat 8 (ofMsb (bs ++ List.replicate (8 - bs.length) false))]

/-- The bits of bytes, most significant first. -/
def unpackBits (bs : List Byte) : List Bool := bs.flatMap (fun b => msbBits 8 b.toNat)

/-- The A and N of the four classes (R210). -/
abbrev PressCtx := List (Nat × Nat)
def pressCtx0 : PressCtx := List.replicate 4 (64, 1)

/-- The class of an activity (R210). -/
def pressClass (g : Nat) : Nat := if g < 4 then 0 else if g < 32 then 1 else if g < 256 then 2 else 3

/-- The Rice parameter: the smallest k from 0 to 15 with N << k ≥ A, or 15 (R210). -/
def riceK (an : Nat × Nat) : Nat := ((List.range 16).find? (fun k => decide (an.1 ≤ an.2 * 2 ^ k))).getD 15

/-- The update after mapped value `m` (R210). -/
def pressUpdate (c : PressCtx) (t m : Nat) : PressCtx :=
  let an := c.getD t (64, 1)
  let a := an.1 + m
  let n := an.2 + 1
  c.set t (if n = 64 then (a / 2, 32) else (a, n))

/-- The median edge predictor (R209). -/
def medPredict (a b c : Nat) : Nat :=
  if max a b ≤ c then min a b else if c ≤ min a b then max a b else a + b - c

/-- |b − c̄| + |c̄ − a| (R210). -/
def activity (a b c : Nat) : Nat := ((b : Int) - c).natAbs + ((c : Int) - a).natAbs

/-- The code word of `m` with parameter `k` (R213). -/
def riceWord (k m : Nat) : List Bool :=
  let u := m / 2 ^ k
  if u < 24 then List.replicate u true ++ false :: msbBits k m else List.replicate 24 true ++ msbBits 16 m

/-- 2r for r ≥ 0, −2r − 1 otherwise (R211, R212). -/
def zigzag (r : Int) : Nat := if 0 ≤ r then (2 * r).toNat else (-2 * r - 1).toNat
/-- Its inverse. -/
def unzigzag (m : Nat) : Int := if m % 2 = 0 then (m / 2 : Nat) else -(((m + 1) / 2 : Nat) : Int)

/-- R211's fold of a residual into −32,768 to 32,767. -/
def foldRes (r : Int) : Int := if 32767 < r then r - 65536 else if r < -32768 then r + 65536 else r

/-- R212's quantiser. -/
def quantise (e : Nat) (r : Int) : Int :=
  let q : Int := ((r.natAbs + e) / (2 * e + 1) : Nat)
  if r < 0 then -q else q

/-- What the decoder rebuilds from a prediction and a signed value: R211 for e = 0 in PRESS_LL, R212 otherwise. -/
def rebuild (be : Bool) (e p : Nat) (q : Int) : Nat :=
  if be then (clampI 0 65535 (p + q * (2 * e + 1))).toNat else ((p + q : Int) % 65536).toNat

/-- The neighbours of a sample (R209): left, upper, upper-left. -/
def pressNb (row0 : Bool) (left : Option (Nat × Nat)) (up : Nat) : Nat × Nat × Nat :=
  match row0, left with
  | true, some (l, _) => (l, l, l)
  | true, none => (0, 0, 0)
  | false, some (l, ul) => (l, up, ul)
  | false, none => (up, up, up)

/-- Encode a plane row: samples, the reconstructed row above, the left and upper-left values, and the classes; the
bits, the reconstructed row and the classes after it. -/
def encRow (be : Bool) (e : Nat) (row0 : Bool) : List Nat → List Nat → Option (Nat × Nat) → PressCtx →
    List Bool × List Nat × PressCtx
  | [], _, _, c => ([], [], c)
  | x :: xs, ups, left, c =>
    let up := ups.headD 0
    if row0 ∧ left.isNone then
      let r := encRow be e row0 xs ups.tail (some (x, up)) c
      (msbBits 16 x ++ r.1, x :: r.2.1, r.2.2)
    else
      let n := pressNb row0 left up
      let p := medPredict n.1 n.2.1 n.2.2
      let t := pressClass (activity n.1 n.2.1 n.2.2)
      let k := riceK (c.getD t (64, 1))
      let d := (x : Int) - p
      let q := if be then quantise e d else foldRes d
      let m := zigzag q
      let y := rebuild be e p q
      let r := encRow be e row0 xs ups.tail (some (y, up)) (pressUpdate c t m)
      (riceWord k m ++ r.1, y :: r.2.1, r.2.2)

/-- Encode the rows of a plane in raster order. -/
def encRows (be : Bool) (e : Nat) : List (List Nat) → Option (List Nat) → PressCtx → List Bool
  | [], _, _ => []
  | row :: rows, up, c =>
    let r := encRow be e up.isNone row (up.getD []) none c
    r.1 ++ encRows be e rows (some r.2.1) r.2.2

/-- Plane `p` of the lines of a stripe (R206). -/
def planeOf (p : Nat) (lines : List (List Nat)) : List (List Nat) :=
  let every := fun (k : Nat) (n : Nat) => (List.range n).filter (fun i => i % 2 == k)
  (every (p / 2) lines.length).map (fun y =>
    let l := lines.getD y []
    (every (p % 2) l.length).map (fun x => l.getD x 0))

/-- A coded plane (R214): its bytes, and whether it is stored. -/
def encPlane (be : Bool) (e : Nat) (rows : List (List Nat)) : List Byte × Bool :=
  let raw := (rows.map List.length).sum * 2
  let bs := packBits (encRows be e rows none pressCtx0)
  if raw ≤ bs.length then (rows.flatMap (fun r => r.flatMap (leBytes 2)), true) else (bs, false)

/-- Bytes padded with 0 to a multiple of 16 (R207). -/
def pad16 (bs : List Byte) : List Byte := bs ++ List.replicate (ceilDiv bs.length 16 * 16 - bs.length) 0

/-- What a stripe header names (Table 10-1). -/
structure StripeId where
  be : Bool
  e : Nat
  overshoot : Bool
  last : Bool
  stripe : Nat
  lines : Nat
  width : Nat
  fid : Nat
  spent : Nat
deriving DecidableEq, Repr

/-- The 48-byte stripe header over the padded planes (Table 10-1). -/
def stripeHeader (h : StripeId) (planes : List (List Byte × Bool)) : List Byte :=
  let body := planes.flatMap (fun p => pad16 p.1)
  let pre := [0x46#8, 0x4C#8, 0x50#8, 0x53#8] ++ leBytes 1 1
    ++ leBytes 1 (b2n h.be + 2 * b2n h.overshoot + 4 * b2n h.last) ++ leBytes 1 h.e ++ leBytes 1 0 ++ leBytes 2 h.stripe
    ++ leBytes 2 h.lines ++ leBytes 2 h.width ++ leBytes 2 0
    ++ planes.flatMap (fun p => leBytes 4 (p.1.length + 0x80000000 * b2n p.2))
    ++ leBytes 4 h.fid ++ leBytes 4 (if h.be then h.spent else 0) ++ leBytes 4 (crc32 body)
  pre ++ leBytes 4 (crc32 pre)

/-- The planes of a stripe as coded. -/
def pressPlanes (be : Bool) (e : Nat) (lines : List (List Nat)) : List (List Byte × Bool) :=
  (List.range 4).map (fun p => encPlane be e (planeOf p lines))

/-- Length of a payload with these planes (R207). -/
def pressLen (planes : List (List Byte × Bool)) : Nat := 48 + (planes.map (fun p => (pad16 p.1).length)).sum

/-- The payload of a stripe (R207). -/
def pressPayload (h : StripeId) (planes : List (List Byte × Bool)) : List Byte :=
  stripeHeader h planes ++ planes.flatMap (fun p => pad16 p.1)

/-! ### Decoder -/

/-- Read a code word (R213): the mapped value and the bits after it, or none when the bits end first. -/
def riceRead (k : Nat) : Nat → List Bool → Option (Nat × List Bool)
  | _, [] => none
  | u, false :: t => if t.length < k then none else some (u * 2 ^ k + ofMsb (t.take k), t.drop k)
  | u, true :: t =>
    if u = 23 then (if t.length < 16 then none else some (ofMsb (t.take 16), t.drop 16)) else riceRead k (u + 1) t

/-- Decode `n` samples of a plane row: the samples decoded, and the bits and classes left unless the bits ended. -/
def decRow (be : Bool) (e : Nat) (row0 : Bool) : Nat → List Nat → Option (Nat × Nat) → PressCtx → List Bool →
    List Nat × Option (List Bool × PressCtx)
  | 0, _, _, c, bs => ([], some (bs, c))
  | n + 1, ups, left, c, bs =>
    let up := ups.headD 0
    if row0 ∧ left.isNone then
      if bs.length < 16 then ([], none)
      else
        let x := ofMsb (bs.take 16)
        let r := decRow be e row0 n ups.tail (some (x, up)) c (bs.drop 16)
        (x :: r.1, r.2)
    else
      let nb := pressNb row0 left up
      let p := medPredict nb.1 nb.2.1 nb.2.2
      let t := pressClass (activity nb.1 nb.2.1 nb.2.2)
      match riceRead (riceK (c.getD t (64, 1))) 0 bs with
      | none => ([], none)
      | some (m, bs') =>
        let y := rebuild be e p (unzigzag m)
        let r := decRow be e row0 n ups.tail (some (y, up)) (pressUpdate c t m) bs'
        (y :: r.1, r.2)

/-- Decode `n` rows of `cols` samples: each row's decoded samples, and whether the bits ended first. -/
def decRows (be : Bool) (e cols : Nat) : Nat → Option (List Nat) → PressCtx → List Bool → List (List Nat) × Bool
  | 0, _, _, _ => ([], false)
  | n + 1, up, c, bs =>
    match decRow be e up.isNone cols (up.getD []) none c bs with
    | (row, none) => (row :: List.replicate n [], true)
    | (row, some (bs', c')) =>
      let r := decRows be e cols n (some row) c' bs'
      (row :: r.1, r.2)

/-- Rows of a stored plane (R208). -/
def storedRows (cols : Nat) : Nat → List Byte → List (List Nat)
  | 0, _ => []
  | n + 1, bs => (List.range cols).map (fun i => leNat ((bs.drop (2 * i)).take 2)) :: storedRows cols n (bs.drop (2 * cols))

/-- A decoder failure (Table 10-5): code, and plane for code 6. -/
structure PressFail where
  code : Nat
  plane : Nat
deriving DecidableEq, Repr

/-- What the frame record says a stripe must be. -/
structure StripeWant where
  fmtBe : Bool
  stripe : Nat
  lines : Nat
  width : Nat
  fid : Nat
deriving DecidableEq, Repr

/-- Planes laid out from the start of the payload: offset, LEN, STORED (R207). -/
def planeAt (bs : List Byte) (p : Nat) : Nat × Nat × Bool :=
  let word := fun i => leNat ((bs.drop (16 + 4 * i)).take 4)
  let len := fun i => word i % 0x1000000
  (48 + ((List.range p).map (fun i => ceilDiv (len i) 16 * 16)).sum, len p, bitAt (word p) 31)

/-- The first of checks 1 to 5 of Table 10-5 that a payload fails. -/
def pressCheck (w : StripeWant) (bs : List Byte) : Option Nat :=
  let n2 := fun o => leNat ((bs.drop o).take 2)
  let e := leNat ((bs.drop 6).take 1)
  let be := bitAt (leNat ((bs.drop 5).take 1)) 0
  if bs.take 4 ≠ [0x46#8, 0x4C#8, 0x50#8, 0x53#8] then some 1
  else if leNat ((bs.drop 4).take 1) ≠ 1 then some 2
  else if leNat ((bs.drop 44).take 4) ≠ crc32 (bs.take 44) then some 3
  else if n2 8 ≠ w.stripe ∨ n2 10 ≠ w.lines ∨ n2 12 ≠ w.width ∨ leNat ((bs.drop 32).take 4) ≠ w.fid ∨ 64 < e ∨ be ≠ w.fmtBe
    ∨ (be = true ∧ e = 0) ∨ (be = false ∧ e ≠ 0) then some 4
  else if (List.range 4).any (fun p =>
      let q := planeAt bs p
      let rows := (w.lines - p / 2 + 1) / 2
      let cols := (w.width - p % 2 + 1) / 2
      decide (bs.length < q.1 + q.2.1) || (q.2.2 && decide (q.2.1 ≠ 2 * rows * cols))) then some 5
  else none

/-- Rows of a plane with the samples not decoded filled from the row above, and row 0 from `above` (R221). -/
def fillRows (cols : Nat) : List Nat → List (List Nat) → List (List Nat)
  | _, [] => []
  | above, r :: rs =>
    let row := (List.range cols).map (fun i => (r[i]?).getD (above.getD i 0))
    row :: fillRows cols row rs

/-- Decode a stripe payload (R221): its lines, and the failures to report in order. `above` holds the two lines over
the stripe (lines of code 0 for stripe 0). -/
def pressDecode (w : StripeWant) (above : List (List Nat)) (bs : List Byte) : List (List Nat) × List PressFail :=
  let bad := pressCheck w bs
  let be := bitAt (leNat ((bs.drop 5).take 1)) 0
  let e := leNat ((bs.drop 6).take 1)
  let dec := (List.range 4).map (fun p =>
    let rows := (w.lines - p / 2 + 1) / 2
    let cols := (w.width - p % 2 + 1) / 2
    let q := planeAt bs p
    let data := (bs.drop q.1).take q.2.1
    let r := if bad.isSome then (List.replicate rows [], false)
      else if q.2.2 then (storedRows cols rows data, false)
      else decRows be e cols rows none pressCtx0 (unpackBits data)
    let up := ((above.getD (p / 2) []).zipIdx.filter (fun z => z.2 % 2 == p % 2)).map (·.1)
    (fillRows cols up r.1, r.2))
  let lines := (List.range w.lines).map (fun y => (List.range w.width).map (fun x =>
    (((dec.getD (2 * (y % 2) + x % 2) ([], false)).1.getD (y / 2) []).getD (x / 2) 0)))
  let fails := match bad with
    | some c => [⟨c, 0⟩]
    | none =>
      let cs := (List.range 4).filterMap (fun p => if (dec.getD p ([], false)).2 then some (⟨6, p⟩ : PressFail) else none)
      if cs.isEmpty ∧ leNat ((bs.drop 40).take 4) ≠ crc32 (bs.drop 48) then [⟨7, 0⟩] else cs
  (lines, fails)

/-! ### Rate control -/

/-- The frame budget (spec/10, before R215). -/
def pressBudget (width height ratio : Nat) : Nat := 2 * width * height * 256 / ratio

/-- R215: the bound of the next stripe, after stripe `i` of `n` coded at `e` with `sz` payload bytes. -/
def pressNext (eMin eMax : Nat) (fb spent : Int) (n i e sz : Nat) : Nat :=
  let rem := fb - spent
  if rem ≤ 0 then eMax
  else
    let a := rem.toNat / (n - i - 1)
    if 9 * a < 8 * sz then min eMax (e + max 1 (e / 2))
    else if 4 * sz < 3 * a then max eMin (e - max 1 (e / 4))
    else e

/-- R216: e₀ from the last frame judged, within the bounds in force: with E_MIN equal to E_MAX every stripe uses that bound. -/
def pressFirst (eMin eMax prevE0 prevSpent prevFb : Nat) : Nat :=
  max eMin (min eMax (
    if prevFb < prevSpent then prevE0 + max 1 (prevE0 / 2)
    else if 8 * prevSpent < 7 * prevFb then prevE0 - 1
    else prevE0))

end Sys2Proof.Machine
end

