-- ==== Sys2Proof/Machine/Flags.lean ====
section
/-!
DEFINITION. Register access and everything a command raises: fields and flag bits, the counter classes of Table
23-3, the event log, MSI-X vectors and error reports (spec/00, R8 to R10; spec/03, R64, R65; spec/23, R422 to R429).
-/
namespace Sys2Proof.Machine
open Sys2Proof

/-- Index `i`, `j` of register definition `d` that BAR0 offset `a` is, if it is one. -/
def RegDef.index? (d : RegDef) (a : Nat) : Option (Nat × Nat) :=
  if a < d.base then none
  else
    let o := a - d.base
    let i := o / d.s1
    let r := o % d.s1
    let j := r / d.s2
    if i < d.n1 ∧ j < d.n2 ∧ r % d.s2 = 0 then some (i, j) else none

/-- The definition and index of the register at BAR0 offset `a`. -/
def regFind (a : Nat) : Option (RegDef × Nat × Nat) :=
  (regTabAt a).findSome? (fun d => (d.index? a).map (fun ij => (d, ij.1, ij.2)))

/-- Vault sectors (4 KiB) of a variant's nominal capacity (spec/00, Table 0-2). -/
def nominalSect (v : Variant) : Nat := if v.big then 0x4000000 else 0x2000000

/-- Reset values that depend on the register's index or on the variant. -/
def regResetSpecial (v : Variant) (a : Nat) : Option Nat :=
  if 0x200100 ≤ a ∧ a < 0x200110 then
    let n := (a - 0x200100) / 4
    some (0x10000 + (0x10 + n) * 0x100)
  else if 0x500000 ≤ a ∧ a < 0x500700 then
    if a % 0x100 = 0x0C ∧ 0x500100 ≤ a then
      let c := (a - 0x500100) / 0x100
      some (c * 0x100 + b2n (c ≤ 3))
    else none
  else if 0x600100 ≤ a ∧ a < 0x600700 then
    let o := a % 0x100
    if o = 0x18 ∨ o = 0x28 ∨ o = 0x38 ∨ o = 0x48 ∨ o = 0x58 ∨ o = 0x68 then some 0x10000 else none
  else if a = 0x1100004 then
    some (if v.big then 513 * 0x10000 + 1 * 0x200 + 1 * 0x40 + 32 else 256 * 0x10000 + 1 * 0x200 + 1 * 0x40 + 16)
  else none

/-- The reset value of the register at BAR0 offset `a` (spec/00, R8). -/
def regReset (v : Variant) (a : Nat) : W32 :=
  match regResetSpecial v a with
  | some x => BitVec.ofNat 32 x
  | none =>
    match regFind a with
    | some (d, _) => BitVec.ofNat 32 d.rst
    | none => 0

/-- The stored value of the register at BAR0 offset `a`. -/
def State.rd (s : State) (a : Nat) : W32 := storeGet (regReset s.dev.variant) s.regs a

/-- The state with the register at `a` holding `v`. -/
def State.wr (s : State) (a : Nat) (v : W32) : State :=
  { s with regs := storeSet (regReset s.dev.variant) s.regs a v }

/-- A register as a number. -/
def State.rn (s : State) (a : Nat) : Nat := (s.rd a).toNat
/-- Store a number, modulo 2^32. -/
def State.wn (s : State) (a : Nat) (v : Nat) : State := s.wr a (BitVec.ofNat 32 v)

/-- The value of a register field. -/
def State.f (s : State) (x : Fld) : Nat := bitsAt (s.rn x.addr) x.lo x.w

/-- Store `v` in a register field. -/
def State.setF (s : State) (x : Fld) (v : Nat) : State := s.wn x.addr (putBits (s.rn x.addr) x.lo x.w v)

/-- A one-bit field is set. -/
def State.on (s : State) (x : Fld) : Bool := s.f x != 0
/-- Set or clear a one-bit field. -/
def State.setB (s : State) (x : Fld) (b : Bool) : State := s.setF x (b2n b)
/-- Set a sticky bit. -/
def State.raise (s : State) (x : Fld) : State := s.setF x 1

/-- Bit `i` of a multi-bit field. -/
def State.bit (s : State) (x : Fld) (i : Nat) : Bool := bitAt (s.f x) i
/-- Set bit `i` of a multi-bit field. -/
def State.setBit (s : State) (x : Fld) (i : Nat) (b : Bool) : State :=
  s.setF x (putBits (s.f x) i 1 (b2n b))

/-- Add an output. -/
def State.emit (s : State) (o : Out) : State := { s with out := s.out ++ [o] }

/-- Draw the next free value. -/
def State.draw (s : State) : W32 × State := (Config.free s.freeCtr, { s with freeCtr := s.freeCtr + 1 })

/-- Free values up to number `n` have been drawn. -/
def State.drawnTo (s : State) (n : Nat) : State := { s with freeCtr := max s.freeCtr n }

/-- BAR0 accesses of master `m` to the blocks that answer only from DEVICE_READY on do nothing (spec/03, R50). -/
def State.shut (s : State) (m : Byte) : Bool := m == 0 && !s.dev.ready

/-! ### Interrupts -/

/-- Raise MSI-X vector `v` (spec/03, R64): a masked vector, or one of a disabled function, becomes pending. -/
def State.vector (s : State) (v : Nat) : State :=
  if s.cxl.msixMask.getLsbD v ∨ s.cxl.msixOn = false ∨ s.cxl.busMaster = false then
    { s with cxl := { s.cxl with msixPend := s.cxl.msixPend ||| BitVec.ofNat 64 (2 ^ v) } }
  else s.emit (.msix v)

/-- Set a PEND bit and raise its vector unless the bit was still set (spec/02, R33). -/
def State.pend (s : State) (x : Fld) (i : Nat) (enabled : Bool) (v : Nat) : State :=
  let s' := s.setBit x i true
  if enabled ∧ s.bit x i = false then s'.vector v else s'

/-- The same where the PEND bit is set only for an enabled cause. -/
def State.pendIf (s : State) (x : Fld) (i : Nat) (enabled : Bool) (v : Nat) : State :=
  if enabled then s.pend x i true v else s

/-- Report an error on the host link (spec/03, R65). -/
def State.aer (s : State) (e : Aer) : State :=
  let c := s.cxl
  let c' := match e with
    | .correctable => { c with corrCnt := c.corrCnt + 1, corr := true }
    | .advisoryNonFatal => { c with advCnt := c.advCnt + 1, adv := true }
    | .uncorrInternal => { c with uncorrInternal := true }
    | .rasMemPoison => { c with memPoison := true }
    | .rasCacheDataParity => { c with cacheDataParity := true }
    | .rasCacheAddrParity => { c with cacheAddrParity := true }
  State.emit { s with cxl := c' } (.aer e)

/-! ### Events -/

/-- Position of a block in ascending BAR0 base, the DEVICE and LINK entries first (spec/04, R450). -/
def Blk.pos : Blk → Nat
  | .dev => 0 | .link => 1 | .lay => 2 | .cmd => 3 | .mbx => 4 | .lnk => 5 | .raw => 6 | .ctx => 7 | .clr => 8
  | .tap => 9 | .vlt => 10 | .vq => 11 | .cdc => 12 | .cmp => 13 | .dsp => 14 | .aud => 15 | .tim => 16 | .net => 17
  | .dfl => 18 | .dmc => 19 | .pwr => 20 | .thm => 21 | .tst => 22 | .evt => 23

/-- DLT INDEX of a block's instance (R450; DEDUCED, log 3: each of the register blocks LAY to EVT of spec/03, Table 3-4 is one
instance). -/
def Blk.dltIndex (b : Blk) : BitVec 16 := BitVec.ofNat 16 b.pos

/-- Severity of each event code: group × 0x100 + position (spec/23, R425 and Table 23-2); INFO 0 to CRITICAL 4. -/
def evtSev (code : Nat) : Nat :=
  let row : List Nat := match code / 256 with
    | 0x0 => [0, 1, 2, 1, 3, 2, 2, 2, 3, 3]
    | 0x1 => [2, 2]
    | 0x2 => [1, 3]
    | 0x3 => [2, 2]
    | 0x5 => [3, 3, 1, 1, 1, 1, 3, 1, 3, 3, 2]
    | 0x6 => [1, 2, 2, 2, 0, 2, 2, 0]
    | 0x7 => [2, 3]
    | 0x8 => [2, 2, 1]
    | 0x9 => [3, 2, 1, 2, 2, 2]
    | 0xA => [0, 2]
    | 0xB => [2]
    | 0xC => [2, 1, 2, 1, 3, 1, 3, 4]
    | 0xD => [2, 4, 2, 2]
    | 0xE => [2, 2, 1]
    | _ => []
  row.getD (code % 256) 0

/-! Event codes of Table 23-2, by name. -/
def evWrap : Nat := 0x0000
def evDevBoot : Nat := 0x0001
def evCmdRpStall : Nat := 0x0002
def evCmdLateDone : Nat := 0x0003
def evLinkDown : Nat := 0x0004
def evHdmRoWrite : Nat := 0x0005
def evFwFallback : Nat := 0x0006
def evRwlLocked : Nat := 0x0007
def evDmaError : Nat := 0x0008
def evMemPoison : Nat := 0x0009
def evLnkFault : Nat := 0x0100
def evTrgOverlap : Nat := 0x0101
def evPressOvershoot : Nat := 0x0200
def evPressDecErr : Nat := 0x0201
def evLadleSkip : Nat := 0x0300
def evLadleLate : Nat := 0x0301
def evVltShrunk : Nat := 0x0500
def evVltFull : Nat := 0x0501
def evVltSpaceOk : Nat := 0x0502
def evTakeShort : Nat := 0x0503
def evRecStart : Nat := 0x0504
def evRecStop : Nat := 0x0505
def evRecFail : Nat := 0x0506
def evRecMark : Nat := 0x0507
def evVltChainBreak : Nat := 0x0508
def evTakeLost : Nat := 0x0509
def evVqCqStall : Nat := 0x050A
def evCdcOverbudget : Nat := 0x0600
def evCdcHostGap : Nat := 0x0601
def evCdcRingStall : Nat := 0x0602
def evCdcStrDrop : Nat := 0x0603
def evCdcStreamStopped : Nat := 0x0604
def evCdcDecStall : Nat := 0x0605
def evCdcDecErr : Nat := 0x0606
def evCdcDecClosed : Nat := 0x0607
def evCmpFenceTmo : Nat := 0x0700
def evRindDefault : Nat := 0x0701
def evDspLockSlip : Nat := 0x0800
def evDspRealign : Nat := 0x0801
def evDspHotplug : Nat := 0x0802
def evAudOverrun : Nat := 0x0900
def evAudUnderrun : Nat := 0x0901
def evAudNonAudio : Nat := 0x0902
def evAudHoldover : Nat := 0x0903
def evAudGlitch : Nat := 0x0904
def evAudRateErr : Nat := 0x0905
def evTbWrap : Nat := 0x0A00
def evTbStepRefused : Nat := 0x0A01
def evDflJobsLost : Nat := 0x0B00
def evPwrVinLow : Nat := 0x0C00
def evPwrAxLoad : Nat := 0x0C01
def evPwrAxTrip : Nat := 0x0C02
def evPwrDegrade : Nat := 0x0C03
def evPwrOverK : Nat := 0x0C04
def evThmBand : Nat := 0x0C05
def evThmSensorFault : Nat := 0x0C06
def evThmTrip : Nat := 0x0C07
def evTstFail : Nat := 0x0D00
def evTstSafe : Nat := 0x0D01
def evRprRebuilt : Nat := 0x0D02
def evDmcCalAlt : Nat := 0x0D03
def evMbxTmo : Nat := 0x0E00
def evSemBadRelease : Nat := 0x0E01
def evSemResetRelease : Nat := 0x0E02

/-- A statistics counter with OVF in bit 31: adds `n`, saturating (spec/23, Table 23-3). -/
def State.bumpStat (s : State) (a : Nat) (n : Nat := 1) : State :=
  let v := s.rn a
  let c := v % 0x80000000 + n
  if c < 0x80000000 then s.wn a (v - v % 0x80000000 + c) else s.wn a 0xFFFFFFFF

/-- A high-water register (Table 23-3). -/
def State.highWater (s : State) (a : Nat) (v : Nat) : State :=
  let v' := min v 0xFFFFFFFF
  if s.rn a < v' then s.wn a v' else s

/-- Bytes of an event entry (Table 23-1). -/
def EvtEntry.image (e : EvtEntry) : List Byte :=
  leBytes 4 e.seq.toNat ++ leBytes 2 e.code ++ leBytes 2 e.src.toNat ++ leBytes 4 e.epoch.toNat ++ leBytes 4 e.ns.toNat
    ++ leBytes 2 e.target ++ leBytes 1 (e.sev + 8 * b2n e.fw + 16 * b2n e.dropped) ++ [0] ++ leBytes 4 e.a0.toNat
    ++ leBytes 4 e.a1.toNat ++ leBytes 4 e.a2.toNat

/-- Vector 0 (R426): by severity, or always for REC_START, REC_STOP and TST_SAFE. -/
def State.evtDev (s : State) (code sev : Nat) : State :=
  if (s.on EVT_CTRL__IRQ_EN && decide (s.f EVT_CTRL__IRQ_SEV ≤ sev)) || code == evRecStart || code == evRecStop
    || code == evTstSafe then s.pend EVT_IRQ_PEND__DEV 0 true 0 else s

/-- Vectors an event raises (R426): vector 0, and vector 50 + n by match. -/
def State.evtVectors (s : State) (code sev : Nat) : State :=
  (List.range 14).foldl (fun s n =>
    let r := s.rn (EVT_VSEL n)
    let mask := bitsAt r 16 15 + 0x8000
    if bitAt r 31 ∧ (code &&& mask) = (bitsAt r 0 16 &&& mask) then s.pend EVT_IRQ_PEND__VSEL n true (50 + n) else s)
    (s.evtDev code sev)

/-- A full live log loses its oldest entry; one not yet read counts in EVT_LOST (R427). -/
def State.dropOldest (s : State) (full : Bool) : State :=
  match s.evt.live with
  | o :: _ => if full ∧ serialLt o.seq.toNat (s.rn EVT_RD_SEQ) = false then s.bumpStat EVT_LOST else s
  | [] => s

/-- Put an entry into the error log of 64 (R427). -/
def State.errEntry (s : State) (e : EvtEntry) : State :=
  if s.evt.err.length < 64 then { s with evt := { s.evt with err := s.evt.err ++ [e] } } else s.bumpStat EVT_ERR_LOST

/-- Put a numbered entry into the live log, and into the error log for ERROR and CRITICAL (R422, R427). -/
def State.logEntry (s : State) (e : EvtEntry) : State :=
  let seq := s.rd EVT_TAIL_SEQ
  let e := { e with seq := seq }
  let full := decide (1024 ≤ s.evt.live.length)
  let s := (s.wr EVT_TAIL_SEQ (seq + 1)).dropOldest full
  let s := { s with evt := { s.evt with live := (if full then s.evt.live.tail else s.evt.live) ++ [e] } }
  if 3 ≤ e.sev then s.errEntry e else s

/-- An event occurs at block `b` (R422 to R428): stamped now; before the log resumes after a warm boot it waits in
the boot buffer of 64. -/
def State.log (s : State) (b : Blk) (code : Nat) (target : Nat := 0xFFFF) (a0 : Nat := 0) (a1 : Nat := 0) (a2 : Nat := 0) :
    State :=
  let e : EvtEntry := {
    seq := 0, code := code, src := b.dltIndex, epoch := s.rd TIM_NOW_EPOCH, ns := s.rd TIM_NOW_NS
    target := target, sev := evtSev code, fw := false, dropped := s.evt.droppedSrc.contains b
    a0 := BitVec.ofNat 32 a0, a1 := BitVec.ofNat 32 a1, a2 := BitVec.ofNat 32 a2 }
  let s := { s with evt := { s.evt with droppedSrc := s.evt.droppedSrc.filter (· != b) } }
  let s := if s.evt.holding then
      if s.evt.boot.length < 64 then { s with evt := { s.evt with boot := s.evt.boot ++ [e] } } else s.bumpStat EVT_DROP
    else s.logEntry e
  s.evtVectors code (evtSev code)

/-- Events of one source in one FAB cycle: four enter its queue, the rest are dropped and counted (R423). -/
def State.logMany (s : State) (b : Blk) (es : List (Nat × Nat × Nat × Nat)) : State :=
  let s := (es.take 4).foldl (fun s e => s.log b e.1 e.2.1 e.2.2.1 e.2.2.2) s
  let n := es.length - 4
  if n = 0 then s
  else { (s.bumpStat EVT_DROP n) with evt := { s.evt with droppedSrc := b :: s.evt.droppedSrc } }

/-- An event counter of 32 bits: wraps, and a wrap raises WRAP with its BAR0 offset (Table 23-3, R425). -/
def State.bumpEvt (s : State) (b : Blk) (a : Nat) (n : Nat := 1) : State :=
  let v := s.rn a + n
  let s := s.wn a v
  if v < 0x100000000 then s else s.log b evWrap 0xFFFF a

/-! ### The timebase -/

/-- The ns count and the epoch as one number of ns. -/
def State.now (s : State) : Nat := s.rn TIM_NOW_EPOCH * 0x100000000 + s.rn TIM_NOW_NS
/-- The low 32 bits of the ns count. -/
def State.ns (s : State) : Nat := s.rn TIM_NOW_NS

end Sys2Proof.Machine
end

