-- ==== Sys2Proof/Machine/Operands.lean ====
section
/-!
DEFINITION. The operand forms of command packets: STATUS codes (Table 2-5), the opcode table (Table 2-6 with each
chapter's LEN, TARGET and reserved words), header checks (R27, R29, R44, R45, R452), parameter words and buffer
references (R30, R453).
-/
namespace Sys2Proof.Machine
open Sys2Proof

/-! STATUS codes of Table 2-5. -/
def stOk : Nat := 0x0000
def stAdj : Nat := 0x0001
def stBadOpcode : Nat := 0x0100
def stBadParam : Nat := 0x0101
def stBadLength : Nat := 0x0102
def stNotPermitted : Nat := 0x0103
def stBusy : Nat := 0x0104
def stNoResource : Nat := 0x0105
def stLinebuf : Nat := 0x0106
def stBandwidth : Nat := 0x0107
def stThermal : Nat := 0x0108
def stAborted : Nat := 0x0109
def stTimeout : Nat := 0x010A
def stState : Nat := 0x010B
def stHwFault : Nat := 0x0200
def stSafe : Nat := 0x0201

/-- OK with results. -/
def ok (r : List Nat := []) : Outc := ⟨stOk, 0, r⟩
/-- A refusal. -/
def refuse (st d : Nat) (r : List Nat := []) : Outc := ⟨st, d, r⟩
/-- BAD_PARAM naming parameter word `i`. -/
def badWord (i : Nat) : Outc := ⟨stBadParam, i, []⟩

/-- The TARGET kinds an opcode accepts (Table 2-2, R29). -/
inductive Tgt where
  | dev | port | ctx | sctx | pctx | tap | stream | composer | outPort | tg | audio | queue | fingerprint
deriving DecidableEq, Repr

/-- TARGET `t` is one the opcode accepts (R29). A block instance is the INDEX of a BLOCK entry that is not among the disabled, `off`
(R72). -/
def tgtOk (k : Tgt) (off : List Nat) (t : Nat) : Bool :=
  let kind := t / 4096
  let i := t % 4096
  match k with
  | .dev => t == 0
  | .port => kind == 1 && decide (i < 4)
  | .ctx => kind == 2 && decide (i < 6)
  | .sctx => kind == 2 && decide (i < 4)
  | .pctx => kind == 2 && (i == 4 || i == 5)
  | .tap => kind == 3 && decide (i / 256 < 6) && decide (i % 256 < 10)
  | .stream => kind == 4 && decide (i < 16)
  | .composer => kind == 5 && decide (i < 4)
  | .outPort => kind == 6 && decide (i < 4)
  | .tg => kind == 6 && decide (0x10 ≤ i) && decide (i < 0x14)
  | .audio => kind == 7 && decide (i < 8)
  | .queue => kind == 9 && decide (i < 16)
  | .fingerprint => t == 0 || (kind == 2 && decide (i < 6)) || (kind == 8 && decide (2 ≤ i) && decide (i < 24) && !off.contains i)

/-- A row of Table 2-6: opcode, path (H), bound class (0 H, 1 F1, 2 F2, 3 F3), CR0 only, LEN (none: SNS_QUEUE_SETTINGS),
TARGET kind, and the bits of each parameter word that are not reserved (a word beyond the list is reserved whole). -/
structure OpSpec where
  code : Nat
  fast : Bool
  cls : Nat
  cr0 : Bool
  len : Option Nat
  kind : Tgt
  used : List Nat
deriving DecidableEq, Repr

/-- A parameter word with no reserved bits. -/
def fw : Nat := 0xFFFFFFFF

def opTab0 : List OpSpec := [
  ⟨0x0000, true, 0, false, some 0, .dev, []⟩,
  ⟨0x0001, true, 0, false, some 0, .dev, []⟩,
  ⟨0x0002, false, 1, true, some 4, .dev, [1]⟩,
  ⟨0x0003, false, 2, true, some 4, .dev, [0x33]⟩,
  ⟨0x0004, true, 0, false, some 0, .fingerprint, []⟩,
  ⟨0x0008, false, 3, true, some 8, .dev, [fw, 0, 0, 0, fw, fw, fw, fw]⟩,
  ⟨0x0009, false, 3, true, some 0, .dev, []⟩,
  ⟨0x0010, false, 3, true, some 0, .dev, []⟩,
  ⟨0x0020, false, 1, false, some 8, .dev, [fw, 0x103, 0, 0, fw, fw, fw, fw]⟩]

def opTab1 : List OpSpec := [
  ⟨0x0100, false, 1, false, some 4, .port, [0xF3F3F, 0xFFFFFF, 0xFF]⟩,
  ⟨0x0101, false, 2, false, some 4, .dev, [0x8003FFFF]⟩,
  ⟨0x0102, false, 2, false, some 0, .port, []⟩,
  ⟨0x0103, false, 1, false, some 4, .port, [1]⟩,
  ⟨0x0104, false, 2, false, some 4, .port, [fw, fw, fw, fw]⟩,
  ⟨0x0105, false, 3, false, some 12, .port, [0x17F, fw, 0, 0, fw, fw, fw, fw, fw, fw, fw, fw]⟩,
  ⟨0x0106, false, 1, false, none, .port, [fw, 0xFF]⟩,
  ⟨0x0107, false, 1, false, some 4, .dev, [0xFFFFFF, 0x3F, 0xFF]⟩,
  ⟨0x0108, true, 0, false, some 0, .port, []⟩]

def opTab2 : List OpSpec := [
  ⟨0x0200, false, 2, false, some 8, .sctx, [3, 0, 0, 0, fw, fw, fw, fw]⟩,
  ⟨0x0201, false, 1, false, some 8, .sctx, [0x103, 0xFFFFFF, 0, 0, fw, fw, fw, fw]⟩,
  ⟨0x0202, false, 1, false, some 16, .sctx, [0x133, fw, 0x7FFFFF, 0xFFFFFF, 0xFFFFFF, 0xFFFFFF, 0xFFFFFF, 0xFFFFFF,
    0xFFFFFF, 0xFFFFFF, 0xFFFFFF, 0xFFFFFF, 0xFFFFFF, 0xFFFF, 0xFFFF, 0xFFFF]⟩,
  ⟨0x0203, false, 2, false, some 8, .sctx, [0x7FFFF, 1, 0xFFFFFF, 0xFFFF, fw, fw, fw, fw]⟩,
  ⟨0x0204, false, 1, false, some 4, .sctx, [0x3F0F3F, 0xFFFFF, fw, fw]⟩,
  ⟨0x0205, true, 0, false, some 4, .sctx, [fw, fw, fw, fw]⟩]

def opTab3 : List OpSpec := [
  ⟨0x0300, false, 1, false, some 4, .ctx, [fw, 0xFFFFF, fw]⟩,
  ⟨0x0301, true, 0, false, some 0, .ctx, []⟩,
  ⟨0x0302, false, 1, false, some 0, .ctx, []⟩,
  ⟨0x0303, false, 1, false, some 4, .ctx, [1]⟩,
  ⟨0x0304, false, 1, false, some 4, .ctx, [0x701]⟩,
  ⟨0x0305, false, 1, false, some 4, .pctx, [0x71373, fw, fw]⟩,
  ⟨0x0306, true, 0, false, some 0, .ctx, []⟩]

def opTab4 : List OpSpec := [
  ⟨0x0400, false, 2, false, some 8, .ctx, [1, 0, 0, 0, fw, fw, fw, fw]⟩,
  ⟨0x0401, false, 1, false, some 16, .ctx, [fw, fw, 0xFFFFFF, 0xFFFFFF, 0xFFFFFF, 0xFFFFFF, 0xFFFFFF, 0xFFFFFF,
    0xFFFFFF, 0xFFFFFF, 0xFFFFFF, 0xFFFFFF, 0xFFFFFF, 0xFFFFFF, 0xFFFFFF, 0x1FFFFFF]⟩,
  ⟨0x0402, false, 1, false, some 12, .ctx, [3, 0xFFFFFF, 0xFFFFFF, 0xFFFFFF, 0xFFFFFF, 0xFFFFFF, 0xFFFFFF, 0xFFFFFF,
    0xFFFFFF, 0xFFFFFF, fw]⟩,
  ⟨0x0403, false, 1, false, some 12, .tap, [fw, fw, fw, 0x7F30F, 0xFFFFFF, 0xFFFFF000, fw, 0xFFFFF00F]⟩,
  ⟨0x0404, false, 2, false, some 8, .tap, [7, 0, 0, 0, fw, fw, fw, fw]⟩,
  ⟨0x0405, false, 1, false, some 0, .tap, []⟩,
  ⟨0x0406, false, 1, false, some 0, .tap, []⟩,
  ⟨0x0407, true, 0, false, some 4, .ctx, [fw, fw, fw, fw]⟩]

def opTab5 : List OpSpec := [
  ⟨0x0500, false, 2, true, some 8, .dev, [0x7F, 0x1FFFFF, 0x1FFFFF, 0x1FFFFF, 0x1FFFFF, 0x1FFFFF, 0x1FFFFF]⟩,
  ⟨0x0501, true, 0, false, some 8, .dev, [0x130F, fw, fw, 0, fw, fw, fw, fw]⟩,
  ⟨0x0502, true, 0, false, some 4, .dev, [fw]⟩,
  ⟨0x0503, true, 0, false, some 4, .sctx, [fw, fw, 1]⟩,
  ⟨0x0504, true, 0, false, some 4, .dev, [1, fw]⟩,
  ⟨0x0505, true, 0, false, some 4, .ctx, [fw, 3]⟩,
  ⟨0x0506, false, 1, true, some 8, .queue, [0x13F, 0x1FFF, 0x3FFF, 0, fw, fw, fw, fw]⟩,
  ⟨0x0507, false, 2, true, some 0, .queue, []⟩,
  ⟨0x0508, false, 2, true, some 0, .queue, []⟩,
  ⟨0x0509, false, 1, false, some 4, .dev, [3, 3]⟩,
  ⟨0x050A, false, 1, true, some 8, .dev, [0x13F1F, 0xFFFF, 0xFFFF, 0xFFFF, 0xFFFF, 0xFF, 0xFF]⟩]

def opTab6 : List OpSpec := [
  ⟨0x0600, false, 1, false, some 16, .stream, [0xFF1337, 0xF57FFFF, 0x3F3F3F03, 0x33FFF, fw, fw, fw, 0xF0F, fw, fw, fw, fw,
    0x11F1F, fw, fw, fw]⟩,
  ⟨0x0601, false, 1, false, some 0, .stream, []⟩,
  ⟨0x0602, false, 1, false, some 0, .stream, []⟩,
  ⟨0x0603, false, 1, false, some 4, .stream, [fw, fw, fw]⟩,
  ⟨0x0604, false, 1, false, some 36, .stream, [0xFFFF, 0, 0, 0] ++ (List.replicate 16 [fw, 0xFF03FFFF]).flatten⟩,
  ⟨0x0605, true, 0, false, some 0, .stream, []⟩,
  ⟨0x0606, false, 1, false, some 12, .pctx, [0x133, fw, fw, fw, fw, fw, 0, 0, fw, fw, fw, fw]⟩,
  ⟨0x0607, true, 0, false, some 4, .dev, [0x33F]⟩,
  ⟨0x0608, false, 1, false, some 36, .stream, [0x3FFF0003, 0x1FFFF, fw, fw] ++ List.replicate 32 fw⟩]

def opTab7 : List OpSpec := [
  ⟨0x0700, false, 1, false, some 12, .composer, [fw, fw, fw, fw, fw, 0x3FFF, fw, fw, fw, fw]⟩,
  ⟨0x0701, false, 1, false, some 8, .composer, [0xF, 0, 0, 0, fw, fw, fw, fw]⟩,
  ⟨0x0702, false, 1, false, some 4, .composer, [fw, fw, 0x7FFFF]⟩,
  ⟨0x0703, true, 0, false, some 8, .composer, [0x30F, 0xFFFF, fw, fw, fw, fw, fw, fw]⟩,
  ⟨0x0704, false, 1, false, some 8, .composer, [0xF033F, fw, fw, fw]⟩,
  ⟨0x0705, true, 0, false, some 0, .composer, []⟩]

def opTab8 : List OpSpec := [
  ⟨0x0800, false, 1, false, some 12, .tg, [0x3771F, fw, 0xFFFF, fw, 0xFFFFFF, fw, fw, fw, fw, fw, fw]⟩,
  ⟨0x0801, false, 1, false, some 4, .dev, [0xFFFF, 0xFFFF]⟩,
  ⟨0x0802, false, 2, false, some 4, .outPort, [0x777F, 0x1FFF]⟩,
  ⟨0x0803, false, 1, false, some 0, .outPort, []⟩,
  ⟨0x0804, false, 2, false, some 40, .outPort, 0xFFFFFF :: List.replicate 32 fw⟩,
  ⟨0x0805, false, 1, false, some 132, .outPort, 0xFFFFFF :: List.replicate 128 fw⟩,
  ⟨0x0806, true, 0, false, some 0, .outPort, []⟩,
  ⟨0x0900, false, 1, false, some 4, .audio, [0xFFFD, 0, fw, fw]⟩,
  ⟨0x0901, false, 1, false, some 4, .dev, [0xFF, 0x33, fw, fw]⟩,
  ⟨0x0902, false, 1, false, some 0, .audio, []⟩,
  ⟨0x0903, false, 1, false, some 12, .audio, List.replicate 12 fw⟩,
  ⟨0x0904, true, 0, false, some 0, .audio, []⟩]

def opTab9 : List OpSpec := [
  ⟨0x0A00, true, 0, false, some 4, .dev, [fw, fw]⟩,
  ⟨0x0A01, true, 0, false, some 4, .dev, [3, fw, fw, fw]⟩,
  ⟨0x0A02, true, 0, false, some 0, .dev, []⟩,
  ⟨0x0A03, false, 1, false, some 8, .dev, [0x13, fw, fw, fw, fw]⟩,
  ⟨0x0A04, false, 2, false, some 44, .dev, 0x3FFF0007 :: List.replicate 34 fw ++ [fw, fw, 0x1F, fw, fw, 0x1F, fw, fw, 0x1F]⟩,
  ⟨0x0A05, false, 2, false, some 4, .dev, [3]⟩,
  ⟨0x0A06, false, 1, false, some 4, .dev, [fw, fw]⟩,
  ⟨0x0B00, true, 0, false, some 20, .dev, [0x7FF7, 0xFFFF, 0, 0] ++ List.replicate 16 fw⟩,
  ⟨0x0B01, true, 0, false, some 20, .dev, [0x7000, 0xFFFF, 0, 0] ++ List.replicate 16 fw⟩,
  ⟨0x0B02, true, 0, false, some 4, .dev, [0xFFFF]⟩,
  ⟨0x0B03, true, 0, false, some 4, .dev, [0xFFFF]⟩]

def opTabC : List OpSpec := [
  ⟨0x0C00, false, 1, true, some 4, .dev, [0x3FFFF, 0xFFFF]⟩,
  ⟨0x0C01, false, 1, true, some 4, .dev, [0x371F03]⟩,
  ⟨0x0C02, false, 1, false, some 4, .dev, [0x13]⟩,
  ⟨0x0C03, true, 0, false, some 0, .dev, []⟩,
  ⟨0x0C04, true, 0, false, some 0, .dev, []⟩,
  ⟨0x0D00, false, 1, false, some 4, .dev, [0xF, fw, fw]⟩,
  ⟨0x0D01, false, 1, false, some 4, .dev, [0x30F, fw, fw]⟩,
  ⟨0x0D02, false, 1, false, some 4, .dev, [0x11F]⟩,
  ⟨0x0D03, true, 0, false, some 4, .dev, [fw]⟩,
  ⟨0x0D04, true, 0, false, some 4, .dev, [0xFFFFF]⟩,
  ⟨0x0D05, true, 0, false, some 0, .dev, []⟩,
  ⟨0x0D06, false, 3, true, some 4, .dev, [1]⟩,
  ⟨0x0E00, false, 1, true, some 4, .dev, [0xF, 0x1FFFF]⟩,
  ⟨0x0E01, false, 1, true, some 0, .dev, []⟩,
  ⟨0x0E02, false, 1, false, some 4, .dev, [fw, fw, fw, fw]⟩,
  ⟨0x0E03, false, 1, true, some 4, .dev, [fw]⟩]

/-- Table 2-6. -/
def opTab : List OpSpec :=
  opTab0 ++ opTab1 ++ opTab2 ++ opTab3 ++ opTab4 ++ opTab5 ++ opTab6 ++ opTab7 ++ opTab8 ++ opTab9 ++ opTabC

/-- The row of an opcode. -/
def opSpec (op : Nat) : Option OpSpec := opTab.find? (fun r => r.code == op)

/-- Opcodes accepted in the safe state (R44). -/
def safeOps : List Nat := [0x0000, 0x0001, 0x0002, 0x0020, 0x0D03, 0x0D05, 0x0E02]

/-- The LEN that SNS_QUEUE_SETTINGS's count `n` implies (Table 5-5). -/
def settingsLen (n : Nat) : Nat := 4 + 4 * ((n + 3) / 4)

/-- Header check 3 of R452: LEN against the opcode's length, or the count word and the length it implies. -/
def lenCheck (sp : OpSpec) (len : Nat) (params : List W32) : Option Outc :=
  match sp.len with
  | some l => if len = l then none else some (refuse stBadLength l)
  | none =>
    if len < 2 then some (refuse stBadLength 0)
    else
      let n := (params.getD 1 0).toNat % 256
      if n < 1 ∨ 248 < n then some (badWord 1)
      else if len = settingsLen n then none else some (refuse stBadLength (settingsLen n))

/-- Header checks 2 to 7 of R452 for an opcode of Table 2-6, in order; none when all pass. `off` lists the disabled instances, `len` is
the LEN field, `rsv` the reserved header bits. -/
def headerCheck (sp : OpSpec) (safe : Bool) (off : List Nat) (ring len flags target rsv : Nat) (params : List W32) : Option Outc :=
  if len % 4 ≠ 0 ∨ 252 < len then some (refuse stBadLength (sp.len.getD 0))
  else
    match lenCheck sp len params with
    | some o => some o
    | none =>
      if flags / 8 ≠ 0 ∨ rsv ≠ 0 then some (badWord 0x7FFF)
      else if tgtOk sp.kind off target = false then some (badWord 0x7FFF)
      else if sp.cr0 ∧ ring ≠ 0 then some (refuse stNotPermitted 0x0001)
      else if safe ∧ safeOps.contains sp.code = false then some (refuse stSafe 0)
      else none

/-- The bits of a packet's words that are not reserved. Those of CDC_DECODE_SUBMIT depend on its ACTION (spec/13, Table 13-6); a custom matrix
is ignored unless WSPACE is 3 (spec/08, Table 8-7). -/
def usedBits (sp : OpSpec) (params : List W32) : List Nat :=
  let w := (params.getD 0 0).toNat
  if sp.code = 0x0606 ∧ w % 4 = 0 then 0x33 :: sp.used.tail
  else if sp.code = 0x0606 then [0x133, 0, 0, 0, 0, 0, 0, 0] ++ (if w % 4 = 1 then [fw, fw, fw, fw] else [])
  else if sp.code = 0x0402 ∧ w % 4 ≠ 3 then 3 :: List.replicate 10 fw
  else sp.used

/-- The first parameter word with a reserved bit set (R27). -/
def reservedWord (sp : OpSpec) (params : List W32) : Option Nat :=
  if sp.len.isNone then
    (List.range params.length).find? (fun i =>
      let v := (params.getD i 0).toNat
      (i == 1 && v / 256 != 0) || ((i == 2 || i == 3) && v != 0)
        || (decide (4 + (params.getD 1 0).toNat % 256 ≤ i) && v != 0))
  else
    (List.range params.length).find? (fun i =>
      let v := (params.getD i 0).toNat
      v &&& (usedBits sp params).getD i 0 != v)

/-- A buffer reference: address, length, SPACE (spec/02). -/
structure BufRef where
  addr : Nat
  len : Nat
  space : Nat
deriving DecidableEq, Repr

end Sys2Proof.Machine

namespace Sys2Proof

/-! ### Parameter words -/

/-- Parameter word `i` as a number. -/
def Pkt.w (p : Pkt) (i : Nat) : Nat := (p.params.getD i 0).toNat
/-- Bits of a parameter word. -/
def Pkt.b (p : Pkt) (i lo w : Nat) : Nat := bitsAt (p.w i) lo w
/-- One bit of a parameter word. -/
def Pkt.t (p : Pkt) (i j : Nat) : Bool := bitAt (p.w i) j
/-- Two parameter words, low word first. -/
def Pkt.q (p : Pkt) (i : Nat) : Nat := p.w i + p.w (i + 1) * 0x100000000
/-- The TARGET index. -/
def Pkt.idx (p : Pkt) : Nat := p.target.toNat % 4096

/-- The buffer reference at parameter words `i` to `i + 3`. -/
def Pkt.ref (p : Pkt) (i : Nat) : Machine.BufRef := ⟨p.q i, p.w (i + 2), p.w (i + 3)⟩

end Sys2Proof

namespace Sys2Proof.Machine
open Sys2Proof

/-- W, the working region's size in bytes (spec/09, VLT_LAYOUT). -/
def State.wBytes (s : State) : Nat := s.f VLT_LAYOUT__W_GIB * 0x40000000

/-- R453: SPACE 0 or 1, and a SPACE 1 buffer inside the working region; an empty reference names no buffer. -/
def State.refOk (s : State) (r : BufRef) : Bool :=
  r.len == 0 || r.space == 0 || (r.space == 1 && decide (r.addr + r.len ≤ s.wBytes))

/-! ### Memory -/

/-- Byte of the working region at DPA `a`; a byte nothing has written reads 0 (log 5). -/
def memDefault (_ : Nat) : Byte := 0
def State.memB (s : State) (a : Nat) : Byte := storeGet memDefault s.mem a
def State.setMemB (s : State) (a : Nat) (b : Byte) : State := { s with mem := storeSet memDefault s.mem a b }
def State.memBytes (s : State) (a n : Nat) : List Byte := bytesAt s.memB a n

/-- Write bytes from address `a` up. -/
def State.writeMem (s : State) (a : Nat) : List Byte → State
  | [] => s
  | b :: t => (s.setMemB a b).writeMem (a + 1) t

/-- Write bytes to host memory (spec/03, R59, R61): the device never learns whether the host accepted them (R62). -/
def hostPut (h : List (Nat × Byte)) (a : Nat) : List Byte → List (Nat × Byte)
  | [] => h
  | b :: t => hostPut (storePut h a b) (a + 1) t
def State.writeHost (s : State) (a : Nat) (bs : List Byte) : State := { s with host := hostPut s.host a bs }

/-- Write bytes to BAR2 ring storage. -/
def bar2Put (h : List (Nat × Byte)) (a : Nat) : List Byte → List (Nat × Byte)
  | [] => h
  | b :: t => bar2Put (storeSet memDefault h a b) (a + 1) t
def State.writeBar2 (s : State) (a : Nat) (bs : List Byte) : State := { s with bar2 := bar2Put s.bar2 a bs }

/-- Exactly `n` bytes, zero-filled. -/
def padBytes (n : Nat) (bs : List Byte) : List Byte := bs.take n ++ List.replicate (n - bs.length) 0

/-- The first line of a run of bytes of the vault that reads poisoned (spec/03, R57). -/
def State.poisonedIn (s : State) (a n : Nat) : Option Nat :=
  s.cxl.poisoned.find? (fun l => decide (a / 64 ≤ l) && decide (64 * l < a + n))

/-- What a read of a buffer reference returns: `none` when it fails (R30). SPACE 1 is the working region, which fails where a line is
poisoned, and beyond W (R453); SPACE 0 is what the packet's host holds. -/
def State.readRef (s : State) (r : BufRef) (h : HostRead) : Option (List Byte) :=
  if r.len = 0 then some []
  else if r.space = 1 then (if s.refOk r = false ∨ (s.poisonedIn r.addr r.len).isSome then none else some (s.memBytes r.addr r.len))
  else match h with
    | .failed _ _ => none
    | .bytes b => some (padBytes r.len b)

/-- A CXL.io write of a data payload to host memory (spec/03, R61): Relaxed Ordering as DEVCTL allows, and No-Snoop too where the payload
is one of the vault queue or of DEFLATE. -/
def State.dmaWrite (s : State) (a : Nat) (bs : List Byte) (bulk : Bool := false) : State :=
  (s.writeHost a bs).emit (.dmaWrite a bs.length (bulk && s.cxl.noSnoop) s.cxl.relaxed)

/-- Write to the start of a buffer reference. -/
def State.writeRef (s : State) (r : BufRef) (bs : List Byte) (bulk : Bool := false) : State :=
  if r.len = 0 then s
  else if r.space = 1 then s.writeMem r.addr bs
  else s.dmaWrite r.addr bs bulk

/-- Little-endian 32-bit words of a buffer. -/
def wordsOf : List Byte → List Nat
  | a :: b :: c :: d :: t => leNat [a, b, c, d] :: wordsOf t
  | _ => []

end Sys2Proof.Machine
end

