-- ==== Sys2Proof/Machine/Ops.lean ====
section
/-!
DEFINITION. The life of a command packet: the reply slot (spec/02, Table 2-3, R31 to R33), completion (R34, R36, R41),
the firmware queue (R37), and how an opcode row runs its meaning between its checks and its reply.
-/
namespace Sys2Proof.Machine
open Sys2Proof

/-- Outcome of a row. -/
abbrev Res := Host.Outcome State Fault Refusal

/-- Ring size of command ring `r` (R22). -/
def State.ringN (s : State) (r : Nat) : Nat := 2 ^ s.f (CMD_CR_CFG__LOG2N r)

/-- Reply slots written and not returned. -/
def State.rpUsed (s : State) (r : Nat) : Nat :=
  let m := 2 * s.ringN r
  (s.f (CMD_RP_TAIL__TAIL r) + m - s.f (CMD_RP_HEAD__HEAD r) % m) % m

/-- The reply ring is full (R32). -/
def State.rpFull (s : State) (r : Nat) : Bool := decide (s.ringN r ≤ s.rpUsed r)

/-- The 64 bytes of a reply (Table 2-3) on a pass with the given PHASE. -/
def replyBytes (r : Reply) (phase : Bool) (ns : Nat) : List Byte :=
  leBytes 4 r.hdr.seq.toNat ++ leBytes 2 r.out.status ++ leBytes 2 r.out.detail ++ leBytes 2 r.hdr.opcode
    ++ leBytes 1 (min r.out.result.length 12) ++ leBytes 1 (b2n phase + 2 * b2n r.late) ++ leBytes 4 ns
    ++ (List.range 12).flatMap (fun i => leBytes 4 (r.out.result.getD i 0))

/-- A started packet is the one with header `h`: its number tells packets of one SEQ apart (R28). -/
def Started.is (e : Started) (h : Hdr) : Bool := e.id == h.id && e.ring == h.ring && e.seq == h.seq && e.opcode == h.opcode

def State.started? (s : State) (h : Hdr) : Option Started := s.cmd.started.find? (·.is h)

/-- Drop the record of a started packet: it has completed. -/
def State.unstart (s : State) (h : Hdr) : State :=
  { s with cmd := { s.cmd with started := s.cmd.started.eraseP (·.is h) } }

/-- Replace the record of a started packet. -/
def State.restart (s : State) (h : Hdr) (g : Started → Started) : State :=
  { s with cmd := { s.cmd with started := s.cmd.started.map (fun e => if e.is h then g e else e) } }

/-- One more reply has been written. -/
def State.countReply (s : State) : State := { s with cmd := { s.cmd with replies := s.cmd.replies + 1 } }

/-- Write a reply at the tail of its ring, which has room (R31, R33); the packet completes (R34). -/
def State.writeReply (s : State) (r : Reply) : State :=
  let s := s.unstart r.hdr
  let n := r.hdr.ring
  let lg := s.f (CMD_CR_CFG__LOG2N n)
  let tail := s.f (CMD_RP_TAIL__TAIL n)
  let base := s.rn (CMD_RP_BASE_HI n) * 0x100000000 + s.f (CMD_RP_BASE_LO__BASE_LO n) * 0x1000
  let bs := replyBytes r (bitAt tail lg == false) s.ns
  let a := base + 64 * (tail % 2 ^ lg)
  let s := if s.on (CMD_CR_CFG__PLOC n) then s.writeBar2 a bs else s.writeHost a bs
  let s := s.setF (CMD_RP_TAIL__TAIL n) ((tail + 1) % 2 ^ (lg + 1))
  let s := s.countReply
  s.pend CMD_IRQ__PEND n (s.bit CMD_IRQ__EN n) 1

/-- Write a reply, or hold it while its ring is full (R32). -/
def State.deliver (s : State) (r : Reply) : State :=
  if s.rpFull r.hdr.ring ∨ (s.cmd.held.any (fun h => h.hdr.ring == r.hdr.ring)) = true then
    { s with cmd := { s.cmd with held := s.cmd.held ++ [r] } }
  else s.writeReply r

/-- Write held replies of ring `n` while there is room, at most `k`. -/
def State.flushHeld (n : Nat) : Nat → State → State
  | 0, s => s
  | k + 1, s =>
    match s.cmd.held.find? (fun h => h.hdr.ring == n) with
    | none => s
    | some r =>
      if s.rpFull n then s
      else State.flushHeld n k
        (State.writeReply { s with cmd := { s.cmd with held := s.cmd.held.erase r } } r)

/-- The NOREPLY rule (R36). -/
def noReply (h : Hdr) (o : Outc) : Bool := bitAt h.flags 1 && (o.status == stOk || o.status == stAdj)

/-- A firmware-path operation has ended: PACKET_COMPLETE or CMD_LATE_DONE takes its outcome. -/
def State.finishF (s : State) (h : Hdr) (o : Outc) : State :=
  { s with cmd := { s.cmd with done := s.cmd.done ++ [⟨h, false, o⟩] } }

/-- The packet was cut off from its reply (R41, R47). -/
def State.isLate (s : State) (h : Hdr) : Bool := (s.started? h).any (·.late)

/-- Complete a packet (R34): its reply is written unless NOREPLY suppresses it; the outcome of a packet cut off from
its reply waits for CMD_LATE_DONE. -/
def State.complete (s : State) (h : Hdr) (o : Outc) : State :=
  if s.isLate h then s.finishF h o
  else if noReply h o then s.unstart h else s.deliver ⟨h, false, o⟩

/-- The packet the firmware queue serves next (R37): the oldest of urgent standing, else the oldest. -/
def State.fwqNext (s : State) : Option Started :=
  match s.cmd.started.find? (fun e => e.queued && e.urgent) with
  | some e => some e
  | none => s.cmd.started.find? (fun e => e.queued)

/-- A packet that waits in the firmware queue is served only in its turn and while firmware runs (R37, R406). -/
def State.turn (s : State) (h : Hdr) : Bool :=
  match s.started? h with
  | some e => if e.queued then s.dev.fwRun && s.fwqNext == some e else true
  | none => true

/-- A started packet has the header fields of `p`. -/
def Started.matches (e : Started) (op : Nat) (p : Pkt) : Bool :=
  e.ring == p.ring.val && e.seq == p.seq && e.opcode == op && e.target == p.target.toNat && e.flags == p.flags.toNat

/-- The outcome of packet number `i` is known: it waits for room in a reply ring, or for its reply. -/
def State.answered (s : State) (i : Nat) : Bool := (s.cmd.held ++ s.cmd.done).any (fun r => r.hdr.id == i)

/-- The number of the packet whose row `p` is: of the packets with its header fields that have yet to run, the one that started first
(R28, R34, R37); 0 where CMD fetched none. -/
def State.pktId (s : State) (op : Nat) (p : Pkt) : Nat :=
  match s.cmd.abandoned.find? (·.matches op p) with
  | some e => e.id
  | none => ((s.cmd.started.find? (fun e => e.matches op p && (e.queued || (e.fast && !s.answered e.id)))).map (·.id)).getD 0

/-- The header of the packet whose row `p` is. -/
def State.pktHdr (s : State) (op : Nat) (p : Pkt) : Hdr := ⟨p.ring.val, p.seq, op, p.flags.toNat, s.pktId op p⟩

/-- BAD_PARAM for reserved word `i`, or for the earlier word that the opcode's own checks find (R27, R43: the first offending word). -/
def firstBad (i : Nat) (o : Option Outc) : Outc :=
  match o with
  | some o => if o.status = stBadParam ∧ o.detail < i then o else badWord i
  | none => badWord i

/-- A meaning's effect and its outcome; no outcome while the packet still waits for an event. -/
abbrev Body := State → State × Option Outc

/-- Run an opcode row: a packet abandoned at its bound does nothing (R41); the header checks of R452 and the reserved
words of R27 come first; a fast-path opcode replies at once, a firmware-path opcode leaves its outcome for
PACKET_COMPLETE. -/
def runOp (op : Nat) (p : Pkt) (s : State) (body : Body) : State :=
  let h := s.pktHdr op p
  match opSpec op with
  | none => s.complete h (refuse stBadOpcode 0)
  | some sp =>
    if s.cmd.abandoned.any (·.is h) then
      { s with cmd := { s.cmd with abandoned := s.cmd.abandoned.eraseP (·.is h) } }
    else
      match headerCheck sp s.dev.safe s.dlt.disabled h.ring p.params.length h.flags p.target.toNat 0 p.params with
      | some o => s.complete h o
      | none =>
        if sp.fast then
          match reservedWord sp p.params with
          | some i => s.complete h (firstBad i (body s).2)
          | none =>
            match body s with
            | (s', some o) => s'.complete h o
            | (s', none) => s'
        else if s.turn h = false then s
        else
          let s := s.restart h (fun e => { e with queued := false })
          match reservedWord sp p.params with
          | some i => s.finishF h (firstBad i (body s).2)
          | none =>
            match body s with
            | (s', some o) => s'.finishF h o
            | (s', none) => s'

/-- A logic BIST or MBIST of partition `b` of Table 22-2 has been accepted and has not ended (spec/22, R410; log 30). -/
def State.bist (s : State) (b : Nat) : Bool :=
  match s.tst.run with
  | some r => r.kind != 0 && bitAt r.arg0 b
  | none => false

/-- An analogue test of item `i` has been accepted and has not ended: its ARG0. -/
def State.analogue (s : State) (i : Nat) : Option Nat :=
  match s.tst.run with
  | some r => if r.kind = 0 ∧ r.item = i then some r.arg0 else none
  | none => none

end Sys2Proof.Machine
end

