-- ==== Sys2Proof/Machine/Colour.lean ====
section
/-!
DEFINITION. The colour pipeline's arithmetic: halo, shading, white balance, demosaic, matrices, luma, zone statistics
(spec/08_colour_pipeline_taps.md, R151 to R162).
-/
namespace Sys2Proof.Machine
open Sys2Proof

/-- The mosaic of a stripe with its halo: `lines[k]` is line y0 − 4 + k, mirrored at the frame's edges (R152), beside
its true line number. -/
structure Band where
  w : Nat
  h : Nat
  cfa : Nat
  phase : Nat
  y0 : Nat
  lines : List (Nat × List Nat)
  clr : ClrCfg
deriving DecidableEq, Repr

/-- Entry of the shading grid: channel, node row, node column (R153). -/
def gridNode (g : Option (List Nat)) (ch j i : Nat) : Nat :=
  match g with
  | none => 0x1000
  | some l => l.getD ((ch * 65 + j) * 129 + i) 0

/-- The shading gain at (x, y) (R153). -/
def shadeGain (g : Option (List Nat)) (ch w h x y : Nat) : Nat :=
  let u := x * 128 * 65536 / (w - 1)
  let i := if u / 65536 = 128 then 127 else u / 65536
  let fx := if u / 65536 = 128 then 65536 else u % 65536
  let t := y * 64 * 65536 / (h - 1)
  let j := if t / 65536 = 64 then 63 else t / 65536
  let fy := if t / 65536 = 64 then 65536 else t % 65536
  let g0 := gridNode g ch j i * (65536 - fx) + gridNode g ch j (i + 1) * fx
  let g1 := gridNode g ch (j + 1) i * (65536 - fx) + gridNode g ch (j + 1) (i + 1) * fx
  (g0 * (65536 - fy) + g1 * fy + 0x80000000) / 0x100000000

/-- Entries of the fixed working-space matrices, × 65,536 rounded (Table 8-2). -/
def wsMatrix (c : ClrCfg) : List Int :=
  match c.wspace with
  | 0 => [68800, 0, -6, -32500, 90001, 6438, 0, 0, 64963]
  | 1 => [107546, -21286, -15494, -43494, 105862, 1098, 768, -543, 64775]
  | 2 => [112502, -23309, -16605, -43692, 105938, 1033, 1156, -2803, 61742]
  | _ => c.ws.map (sext 24)

/-- Log code of a 4.20 value (spec/08, before R161). -/
def logCode (v : Nat) : Nat :=
  if v < 256 then 0 else let e := Nat.log2 v; 16 * (e - 8) + v / 2 ^ (e - 4) % 16

/-- Log bin of a 4.20 value. -/
def logBin (v : Nat) : Nat :=
  if v < 256 then 0 else let e := Nat.log2 v; 64 * (e - 8) + v / 2 ^ (e - 6) % 64

/-- |i| as a number. -/
def dist (a b : Int) : Int := ((a - b).natAbs : Int)
/-- (sum + k ÷ 2) ÷ k. -/
def meanInt (l : List Int) : Int := (l.sum + (l.length / 2 : Nat)) / (l.length : Int)
def clamp420 (v : Int) : Int := clampI 0 0xFFFFFF v

namespace Band

/-- p(x, y): the mosaic value after steps 1 and 2, positions outside the frame mirrored (R152 to R154). -/
def p (b : Band) (x y : Int) : Int :=
  let x' := RawFrame.mirror b.w x
  let ln := b.lines.getD (y - ((b.y0 : Int) - 4)).toNat (0, [])
  let ch := cfaCh b.cfa b.phase x' ln.1
  let v := ln.2.getD x' 0
  let v := if b.clr.shadeEn then min ((v * shadeGain b.clr.grid ch b.w b.h x' ln.1 + 2048) / 4096) max420 else v
  (min ((v * b.clr.wb.getD ch 0 + 2048) / 4096) max420 : Nat)

/-- The colour of the site (x, y): 0 R, 1 Gr, 2 Gb, 3 B. -/
def site (b : Band) (x y : Int) : Nat := cfaCh b.cfa b.phase (x % 2).toNat (y % 2).toNat

/-- d_H and d_V of R155. -/
def dH (b : Band) (x y : Int) : Int :=
  2 * dist (b.p (x - 1) y) (b.p (x + 1) y) + dist (2 * b.p x y - b.p (x - 2) y) (b.p (x + 2) y)
    + dist (b.p (x - 1) (y - 1)) (b.p (x + 1) (y - 1)) + dist (b.p (x - 1) (y + 1)) (b.p (x + 1) (y + 1))
def dV (b : Band) (x y : Int) : Int :=
  2 * dist (b.p x (y - 1)) (b.p x (y + 1)) + dist (2 * b.p x y - b.p x (y - 2)) (b.p x (y + 2))
    + dist (b.p (x - 1) (y - 1)) (b.p (x - 1) (y + 1)) + dist (b.p (x + 1) (y - 1)) (b.p (x + 1) (y + 1))

/-- A green site of a Bayer mosaic. -/
def isGreen (b : Band) (x y : Int) : Bool := b.site x y == 1 || b.site x y == 2

/-- ĝ (R155). -/
def green (b : Band) (x y : Int) : Int :=
  let c := b.p x y
  if b.isGreen x y then c
  else
    let eH := (2 * (b.p (x - 1) y + b.p (x + 1) y) + 2 * c - b.p (x - 2) y - b.p (x + 2) y + 2) / 4
    let eV := (2 * (b.p x (y - 1) + b.p x (y + 1)) + 2 * c - b.p x (y - 2) - b.p x (y + 2) + 2) / 4
    let wH := b.dV x y + b.clr.dmEps
    let wV := b.dH x y + b.clr.dmEps
    clamp420 ((eH * wH + eV * wV + (wH + wV) / 2) / (wH + wV))

/-- Means of p − ĝ over neighbouring sites. -/
def diag (b : Band) (x y : Int) : Int :=
  meanInt ([(x - 1, y - 1), (x + 1, y - 1), (x - 1, y + 1), (x + 1, y + 1)].map (fun q => b.p q.1 q.2 - b.green q.1 q.2))
def horiz (b : Band) (x y : Int) : Int :=
  meanInt ([(x - 1, y), (x + 1, y)].map (fun q => b.p q.1 q.2 - b.green q.1 q.2))
def vert (b : Band) (x y : Int) : Int :=
  meanInt ([(x, y - 1), (x, y + 1)].map (fun q => b.p q.1 q.2 - b.green q.1 q.2))

/-- R156 with R157: camera R, G, B of a pixel; R158 for MONO. -/
def camera (b : Band) (x y : Int) : Int × Int × Int :=
  if b.cfa ≠ 1 then (b.p x y, b.p x y, b.p x y)
  else
    let g := b.green x y
    let rb := match b.site x y with
      | 0 => (b.p x y, g + b.diag x y)
      | 3 => (g + b.diag x y, b.p x y)
      | 1 => (g + b.horiz x y, g + b.vert x y)
      | _ => (g + b.vert x y, g + b.horiz x y)
    let r := clamp420 rb.1
    let bl := clamp420 rb.2
    if b.clr.fcsEn = false then (r, g, bl)
    else
      let a := if b.isGreen x y then 2 * dist (b.p (x - 1) y) (b.p (x + 1) y) + 2 * dist (b.p x (y - 1)) (b.p x (y + 1))
        else max (b.dH x y) (b.dV x y)
      let f : Int := if a ≤ b.clr.fcsKnee then 65536 else (b.clr.fcsKnee : Int) * 65536 / a
      (clamp420 (g + ((r - g) * f + 32768) / 65536), g, clamp420 (g + ((bl - g) * f + 32768) / 65536))

/-- A pixel of the working image, and whether a component clamped from below and from above (R159, R160). -/
def pixel (b : Band) (x y : Int) : (Nat × Nat × Nat) × Bool × Bool :=
  let q := b.camera x y
  let row := fun (m : List Int) (k : Nat) (v : Int × Int × Int) =>
    (m.getD (3 * k) 0 * v.1 + m.getD (3 * k + 1) 0 * v.2.1 + m.getD (3 * k + 2) 0 * v.2.2 + 0x8000) / 0x10000
  let m := b.clr.cm.map (sext 24)
  let t := fun k => clampI (-0x2000000) 0x1FFFFFF (row m k q + sext 24 (b.clr.off.getD k 0))
  let n := wsMatrix b.clr
  let o := fun k => row n k (t 0, t 1, t 2)
  let os := [o 0, o 1, o 2]
  ((((clamp420 (o 0)).toNat, (clamp420 (o 1)).toNat, (clamp420 (o 2)).toNat)), os.any (fun v => decide (v < 0)),
    os.any (fun v => decide (0xFFFFFF < v)))

/-- A line of the working image. -/
def pixelLine (b : Band) (y : Nat) : List (Nat × Nat × Nat) := (List.range b.w).map (fun (x : Nat) => (b.pixel x y).1)

/-- Luma Yl of a working pixel (spec/08, before R161). -/
def luma (c : ClrCfg) (v : Nat × Nat × Nat) : Nat :=
  (((c.lumaKr * v.1 : Nat) + (65536 - (c.lumaKr : Int) - c.lumaKb) * v.2.1 + (c.lumaKb * v.2.2 : Nat) + 32768) / 65536).toNat

/-- The focus term of R161 at a pixel. -/
def focusAt (b : Band) (x y : Int) : Nat :=
  let l := fun (i j : Int) => (logCode (luma b.clr (b.pixel i j).1) : Int)
  (dist (l (x + 1) y) (l (x - 1) y) + dist (l x (y + 1)) (l x (y - 1))).toNat

end Band

/-- Add a pixel to the zone statistics (R161). -/
def ZoneBlk.add (z : ZoneBlk) (b : Band) (x y : Nat) : ZoneBlk :=
  let q := b.pixel x y
  let v := q.1
  let zone := 36 * y / b.h * 64 + 64 * x / b.w
  let r := storeGet (fun _ => ({} : ZoneRec)) z.zones zone
  let r' : ZoneRec := { r := r.r + v.1, g := r.g + v.2.1, b := r.b + v.2.2, focus := r.focus + b.focusAt x y
                        neg := r.neg + b2n q.2.1, clip := r.clip + b2n q.2.2 }
  let bins := [logBin v.1, 1024 + logBin v.2.1, 2048 + logBin v.2.2, 3072 + logBin (Band.luma b.clr v)]
  { z with
    zones := storePut z.zones zone r'
    hist := bins.foldl (fun h k => storePut h k (storeGet (fun _ => 0) h k + 1)) z.hist
    neg := z.neg + b2n q.2.1
    clip := z.clip + b2n q.2.2 }

/-- Add `n` lines from y0 up (R161). -/
def ZoneBlk.addLines (z : ZoneBlk) (b : Band) (y0 n : Nat) : ZoneBlk :=
  (List.range n).foldl (fun z j => (List.range b.w).foldl (fun z x => z.add b x (y0 + j)) z) z

/-- A statistics count with OVF in bit 31 (Table 23-3). -/
def satCount (n : Nat) : Nat := if n < 0x80000000 then n else 0xFFFFFFFF
/-- A 64-bit statistics count with OVF in bit 63. -/
def satCount64 (n : Nat) : Nat := if n < 0x8000000000000000 then n else 0xFFFFFFFFFFFFFFFF

/-- A counter of the block has saturated (R162). -/
def ZoneBlk.ovf (z : ZoneBlk) : Bool :=
  decide (0x80000000 ≤ z.neg) || decide (0x80000000 ≤ z.clip) || z.hist.any (fun e => decide (0x80000000 ≤ e.2))

/-- FLAGS of Table 8-3. -/
def ZoneBlk.flags (z : ZoneBlk) : Nat := b2n z.valid + 2 * b2n z.partly + 4 * b2n z.truncated + 8 * b2n z.ovf

/-- The block's 90,176 bytes (Table 8-3). -/
def ZoneBlk.bytes (z : ZoneBlk) : List Byte :=
  leBytes 4 z.fid ++ leBytes 4 z.commitId ++ leBytes 4 z.flags ++ leBytes 4 z.stripes ++ leBytes 4 z.ns
    ++ leBytes 4 (satCount z.neg) ++ leBytes 4 (satCount z.clip) ++ List.replicate 36 0
    ++ (List.range 2304).flatMap (fun k =>
      let r := storeGet (fun _ => ({} : ZoneRec)) z.zones k
      leBytes 8 r.r ++ leBytes 8 r.g ++ leBytes 8 r.b ++ leBytes 4 r.focus ++ leBytes 2 r.neg ++ leBytes 2 r.clip)
    ++ (List.range 4096).flatMap (fun k => leBytes 4 (satCount (storeGet (fun _ => 0) z.hist k)))

end Sys2Proof.Machine
end

