-- ==== Sys2Proof/Machine/TapMath.lean ====
section
/-!
DEFINITION. The taps' arithmetic: scaler, exposure, shaper, 3D LUT, output LUT, Y′CbCr, subsampling, packings and vision
outputs (spec/08_colour_pipeline_taps.md, R165 to R176).
-/
namespace Sys2Proof.Machine
open Sys2Proof

/-- A pixel of three components. -/
abbrev Rgb := Nat × Nat × Nat

def Rgb.map (f : Nat → Nat → Nat) (v : Rgb) : Rgb := (f 0 v.1, f 1 v.2.1, f 2 v.2.2)
def Rgb.get (v : Rgb) (k : Nat) : Nat := match k with | 0 => v.1 | 1 => v.2.1 | _ => v.2.2

/-- Entry C[phase][k] of a scaler table; the reset table is bilinear (R166). -/
def scaleCoef (t : Option (List Nat)) (ph k : Nat) : Int :=
  match t with
  | some l => sext 16 (l.getD (8 * ph + k) 0)
  | none => if k = 3 then 1024 - 16 * (ph : Int) else if k = 4 then 16 * (ph : Int) else 0

/-- Source position and phase of output position `j` when `cw` inputs give `ow` outputs (R166). -/
def scalePos (cw ow j : Nat) : Int × Nat :=
  let step : Int := (cw * 65536 / ow : Nat)
  let q : Int := ((2 * j + 1) * step - 65536) / 2
  (q / 65536, (q % 65536).toNat / 1024)

/-- Scale a list of values to output position `j`, edge values repeated (R166). -/
def scaleAt (t : Option (List Nat)) (cw ow j : Nat) (inp : Nat → Nat) : Nat :=
  let ip := scalePos cw ow j
  let at_ := fun (k : Nat) => inp (clampI 0 ((cw : Int) - 1) (ip.1 - 3 + k)).toNat
  (clamp420 ((((List.range 8).map (fun k => scaleCoef t ip.2 k * (at_ k : Int))).sum + 512) / 1024)).toNat

/-- Scale a pixel line horizontally. -/
def scaleLine (t : Option (List Nat)) (cw ow : Nat) (l : List Rgb) : List Rgb :=
  (List.range ow).map (fun j =>
    let c := fun (k : Nat) => scaleAt t cw ow j (fun i => Rgb.get (l.getD i (0, 0, 0)) k)
    (c 0, c 1, c 2))

/-- Output line `j` of the vertical scaler over horizontally scaled lines (R166). -/
def scaleRow (t : Option (List Nat)) (ch oh ow j : Nat) (ls : List (List Rgb)) : List Rgb :=
  (List.range ow).map (fun x =>
    let c := fun (k : Nat) => scaleAt t ch oh j (fun i => Rgb.get ((ls.getD i []).getD x (0, 0, 0)) k)
    (c 0, c 1, c 2))

/-- The last crop line that output line `j` reads (R166). -/
def scaleNeeds (ch oh j : Nat) : Nat := (clampI 0 ((ch : Int) - 1) ((scalePos ch oh j).1 + 4)).toNat

/-- R168. -/
def exposure (gain v : Nat) : Nat := min ((v * gain + 0x8000) / 0x10000) max420

/-- The least value with shaper index `i` (R169). -/
def shaperLow (i : Nat) : Nat := if i < 256 then 2 * i else (i - 256 * (i / 256 - 1)) * 2 ^ (i / 256)

/-- An entry of a shaper table of component `c`; the reset table is linear and clips (R169). -/
def shaperEntry (t : Option (List Nat)) (c i : Nat) : Nat :=
  match t with
  | some l => l.getD (4096 * c + i) 0
  | none => min 65535 (shaperLow i / 16)

/-- Index and fraction of the shaper (R169). -/
def shaperIdx (v : Nat) : Nat × Nat :=
  if v < 512 then (v / 2, v % 2 * 32768)
  else
    let s := Nat.log2 v - 8
    (256 * s + v / 2 ^ s - 256, v % 2 ^ s * 65536 / 2 ^ s)

/-- Interpolate E[i] and E[i + 1] with a fraction of `n` bits, rounding half up. -/
def lerp (n : Nat) (e0 e1 f : Nat) : Nat := ((e0 : Int) + (((e1 : Int) - e0) * f + (2 ^ (n - 1) : Nat)) / (2 ^ n : Nat)).toNat

/-- R169. -/
def shaper (t : Option (List Nat)) (c v : Nat) : Nat :=
  let q := shaperIdx v
  lerp 16 (shaperEntry t c q.1) (shaperEntry t c (min 4095 (q.1 + 1))) q.2

/-- A node of the 3D LUT, component `k` (R170). -/
def lutNode (t : Option (List Nat)) (ir ig ib k : Nat) : Nat :=
  match t with
  | some l => l.getD (3 * ((ib * 65 + ig) * 65 + ir) + k) 0
  | none => min 65535 (1024 * (match k with | 0 => ir | 1 => ig | _ => ib))

/-- The axes in descending order of fraction, r before g before b on a tie (R170). -/
def lutOrder (f : Rgb) : List Nat :=
  let ins := fun (l : List Nat) (a : Nat) => l.takeWhile (fun b => decide (f.get a ≤ f.get b)) ++ [a]
    ++ l.dropWhile (fun b => decide (f.get a ≤ f.get b))
  ins (ins [0] 1) 2

/-- R170: tetrahedral interpolation. -/
def lut3 (t : Option (List Nat)) (v : Rgb) : Rgb :=
  let x := v.map (fun _ c => c * 64)
  let i := x.map (fun _ c => c / 65536)
  let f := x.map (fun _ c => c % 65536)
  let ax := lutOrder f
  let step := fun (n : Rgb) (a : Nat) => n.map (fun k c => if k = a then c + 1 else c)
  let n0 := i
  let n1 := step n0 (ax.getD 0 0)
  let n2 := step n1 (ax.getD 1 0)
  let n3 := i.map (fun _ c => c + 1)
  let fr := fun j => (f.get (ax.getD j 0) : Int)
  let node := fun (n : Rgb) (k : Nat) => (lutNode t n.1 n.2.1 n.2.2 k : Int)
  let c := fun (k : Nat) => (clampI 0 65535 (node n0 k + (fr 0 * (node n1 k - node n0 k) + fr 1 * (node n2 k - node n1 k)
    + fr 2 * (node n3 k - node n2 k) + 32768) / 65536)).toNat
  (c 0, c 1, c 2)

/-- An entry of the reset table of the output LUT (R171), of the pre-blend LUT and of the post-blend LUT (spec/14, R289, R290). -/
def outEntry (i : Nat) : Nat := 16 * i
def preEntry (i : Nat) : Nat := min 65535 (64 * i + i / 16)
def postEntry (i : Nat) : Nat := 16 * i + i / 256

/-- Reset tables, entry by entry in load order: a scaler's, the shaper's, the 3D LUT's, the output LUT's, the pre-blend and the post-blend
LUT's. -/
def scaleReset : List Nat := (List.range 512).map (fun i => (scaleCoef none (i / 8) (i % 8)).toNat)
def shaperReset : List Nat := (List.range 12288).map (fun i => shaperEntry none (i / 4096) (i % 4096))
def lut3Reset : List Nat := (List.range 823875).map (fun i => lutNode none (i / 3 % 65) (i / 195 % 65) (i / 12675) (i % 3))
def outReset : List Nat := (List.range 12288).map (fun i => outEntry (i % 4096))
def preReset : List Nat := (List.range 1024).map preEntry
def postReset : List Nat := (List.range 12288).map (fun i => postEntry (i % 4096))

/-- R171. -/
def outLut (t : Option (List Nat)) (c x : Nat) : Nat :=
  let e := fun i => match t with | some l => l.getD (4096 * c + i) 0 | none => outEntry i
  lerp 4 (e (x / 16)) (e (min 4095 (x / 16 + 1))) (x % 16)

/-- R168 to R171 on a scaled pixel. -/
def tapChain (c : TapCfg) (v : Rgb) : Rgb :=
  Rgb.map (outLut c.outLut) (lut3 c.lut3 (Rgb.map (fun k x => shaper c.shaper k (exposure c.expGain x)) v))

/-- KR16, KB16, KCB, KCR of R172 for a MATRIX and a RANGE. -/
def yccConst (matrix range : Nat) : Nat × Nat × Nat × Nat :=
  if matrix = 0 then (13933, 4732, if range = 0 then (31644889, 37287437) else (36130269, 42572598))
  else (17216, 3886, if range = 0 then (31210937, 39821142) else (35634808, 45465433))

/-- Y′ before quantisation (R172). -/
def yPrime (matrix : Nat) (v : Rgb) : Nat :=
  let k := yccConst matrix 0
  (k.1 * v.1 + (65536 - k.1 - k.2.1) * v.2.1 + k.2.1 * v.2.2 + 32768) / 65536

/-- Clamp a 10-bit code to its range (R172). -/
def clampCode (range : Nat) (i : Int) : Nat := if range = 0 then (clampI 4 1019 i).toNat else (clampI 0 1023 i).toNat

/-- Ycode of a 16-bit value (R172). -/
def yCode (range y : Nat) : Nat :=
  if range = 0 then clampCode 0 (64 + (y * 876 + 32768) / 65536 : Nat) else clampCode 1 ((y * 1023 + 32768) / 65536 : Nat)

/-- Y, Cb, Cr codes of a pixel (R172). -/
def ycc (c : TapCfg) (v : Rgb) : Rgb :=
  let k := yccConst c.matrix c.range
  let y := yPrime c.matrix v
  let cb := (512 : Int) + (((v.2.2 : Int) - y) * k.2.2.1 + 0x80000000) / 0x100000000
  let cr := (512 : Int) + (((v.1 : Int) - y) * k.2.2.2 + 0x80000000) / 0x100000000
  (yCode c.range y, clampCode c.range cb, clampCode c.range cr)

/-- Co-sited 4:2:2 chroma of a line, edge columns repeated (R173): pairs (Cb, Cr). -/
def chroma422 (l : List Rgb) : List (Nat × Nat) :=
  (List.range (l.length / 2)).map (fun (j : Nat) =>
    let g := fun (i : Int) (k : Nat) => Rgb.get (l.getD (clampI 0 ((l.length : Int) - 1) i).toNat (0, 0, 0)) k
    let x : Int := 2 * j
    let c := fun k => (g (x - 1) k + 2 * g x k + g (x + 1) k + 2) / 4
    (c 1, c 2))

/-- 4:2:0 chroma of two lines' 4:2:2 chroma (R173). -/
def chroma420 (a b : List (Nat × Nat)) : List (Nat × Nat) :=
  List.zipWith (fun p q => ((p.1 + q.1 + 1) / 2, (p.2 + q.2 + 1) / 2)) a b

/-- IEEE 754 binary16 of a 4.20 value ÷ 2^20, ties to even (R175): below 2^−14 in units of 2^−24. -/
def half (v : Nat) : Nat :=
  if v = 0 then 0
  else
    let e := Nat.log2 v
    if e < 6 then v * 16
    else if e ≤ 10 then (e - 5) * 1024 + (v * 2 ^ (10 - e) - 1024)
    else
      let sh := e - 10
      let q := v / 2 ^ sh
      let rem := v % 2 ^ sh
      let h := 2 ^ (sh - 1)
      let q := if h < rem ∨ (rem = h ∧ q % 2 = 1) then q + 1 else q
      (e - 5) * 1024 + (q - 1024)

/-- Bytes per line of each plane of a packing (Table 8-5). -/
def planeBytes (c : TapCfg) : List Nat :=
  let lv := fun (k : Nat) => ceilDiv c.ow (2 ^ k)
  match c.pack with
  | 0 => [4 * c.ow]
  | 1 => [8 * c.ow]
  | 2 => [2 * c.ow, 2 * c.ow]
  | 3 => [2 * c.ow, 2 * c.ow]
  | 8 => [2 * c.ow, 2 * c.ow, 2 * c.ow]
  | 9 => (List.range (c.levels + 1)).map lv
  | 10 => [4 * ceilDiv c.ow 64]
  | _ => []

/-- Lines of each plane. -/
def planeLines (c : TapCfg) : List Nat :=
  match c.pack with
  | 0 => [c.oh]
  | 1 => [c.oh]
  | 2 => [c.oh, c.oh]
  | 3 => [c.oh, c.oh / 2]
  | 8 => [c.oh, c.oh, c.oh]
  | 9 => (List.range (c.levels + 1)).map (fun k => ceilDiv c.oh (2 ^ k))
  | 10 => [ceilDiv c.oh 64]
  | _ => []

/-- A line pitch: bytes rounded up to a multiple of 256 (R174). -/
def pitchOf (n : Nat) : Nat := ceilDiv n 256 * 256

/-- Offset of each plane, and the size of the packing (R174). -/
def planeOffsets (c : TapCfg) : List Nat :=
  let sizes := List.zipWith (fun b l => ceilDiv (pitchOf b * l) 4096 * 4096) (planeBytes c) (planeLines c)
  (List.range sizes.length).map (fun i => (sizes.take i).sum)
def packSize (c : TapCfg) : Nat :=
  match (planeOffsets c).getLast?, (planeBytes c).getLast?, (planeLines c).getLast? with
  | some o, some b, some l => o + pitchOf b * l
  | _, _, _ => 0

/-- A packing that an engine allows (Table 8-5): engines 0 to 3 TD, 4 to 7 TC, 8 and 9 TV. -/
def packAllowed (engine pack : Nat) : Bool :=
  if engine < 4 then pack ≤ 2 else if engine < 8 then pack == 2 || pack == 3 else 8 ≤ pack && pack ≤ 10

/-- Lines of plane `p` complete once `rows` of `oh` output lines are written. -/
def planeRows (c : TapCfg) (p rows : Nat) : Nat :=
  let all := decide (c.oh ≤ rows)
  match c.pack with
  | 3 => if p = 1 then rows / 2 else rows
  | 9 => if all then ceilDiv c.oh (2 ^ p) else rows / 2 ^ p
  | 10 => if all then ceilDiv c.oh 64 else rows / 64
  | _ => rows

/-- Level k of the luma pyramid from level 0 (R175). -/
def pyrLevel : Nat → List (List Nat) → List (List Nat)
  | 0, l => l
  | k + 1, l =>
    let p := pyrLevel k l
    (List.range (ceilDiv p.length 2)).map (fun j =>
      let w := (p.getD 0 []).length
      let at_ := fun (x y : Nat) => ((p.getD (min y (p.length - 1)) []).getD (min x (w - 1)) 0)
      (List.range (ceilDiv w 2)).map (fun i =>
        (at_ (2 * i) (2 * j) + at_ (2 * i + 1) (2 * j) + at_ (2 * i) (2 * j + 1) + at_ (2 * i + 1) (2 * j + 1) + 2) / 4))

/-- The focus metric of tile (i, j) on level-0 codes, edge values repeated (R175). -/
def tileFocus (codes : List (List Nat)) (i j : Nat) : Nat :=
  let rows := ((codes.drop (64 * j)).take 64).map (fun r => (r.drop (64 * i)).take 64)
  let h := rows.length
  let w := (rows.getD 0 []).length
  let at_ := fun (x y : Int) =>
    ((((rows.getD (clampI 0 ((h : Int) - 1) y).toNat []).getD (clampI 0 ((w : Int) - 1) x).toNat 0) : Nat) : Int)
  ((List.range h).flatMap (fun (y : Nat) => (List.range w).map (fun (x : Nat) =>
    (dist (at_ (x + 1) y) (at_ (x - 1) y) + dist (at_ x ((y : Int) + 1)) (at_ x ((y : Int) - 1))).toNat))).sum

/-- Line `r` of plane `p`, of the scaled output lines `out` (R168 to R175). -/
def planeLine (c : TapCfg) (clr : ClrCfg) (out : List (List Rgb)) (p r : Nat) : List Byte :=
  let px := fun (r : Nat) => (out.getD r []).map (tapChain c)
  let codes := fun (r : Nat) => (px r).map (ycc c)
  let exp := fun (r : Nat) => (out.getD r []).map (Rgb.map (fun _ v => exposure c.expGain v))
  let level0 := fun (_ : Unit) => (List.range out.length).map (fun r => (exp r).map (fun v => logCode (Band.luma clr v)))
  let word := fun (v : Nat) => leBytes 2 (v * 64)
  match c.pack with
  | 0 => (px r).flatMap (fun v => leBytes 4 (yCode c.range v.1 + yCode c.range v.2.1 * 0x400 + yCode c.range v.2.2 * 0x100000
      + 0xC0000000))
  | 1 => (px r).flatMap (fun v => leBytes 2 v.1 ++ leBytes 2 v.2.1 ++ leBytes 2 v.2.2 ++ leBytes 2 0xFFFF)
  | 2 => if p = 0 then (codes r).flatMap (fun v => word v.1) else (chroma422 (codes r)).flatMap (fun v => word v.1 ++ word v.2)
  | 3 => if p = 0 then (codes r).flatMap (fun v => word v.1)
    else (chroma420 (chroma422 (codes (2 * r))) (chroma422 (codes (2 * r + 1)))).flatMap (fun v => word v.1 ++ word v.2)
  | 8 => (exp r).flatMap (fun v => leBytes 2 (half (v.get p)))
  | 9 => ((pyrLevel p (level0 ())).getD r []).flatMap (fun v => leBytes 1 v)
  | 10 => (List.range (ceilDiv c.ow 64)).flatMap (fun i => leBytes 4 (tileFocus (level0 ()) i r))
  | _ => []

/-- Pixels per CORE cycle P. A tap's demand δ (R167). -/
def tapDemand (c : TapCfg) (width lanes : Nat) : Nat := ceilDiv (1024 * c.ow * c.oh) (ceilDiv width lanes * c.ch)

end Sys2Proof.Machine
end

