-- ==== Sys2Proof/Machine/Fprint.lean ====
section
/-!
DEFINITION. Configuration fingerprints (spec/04_layout_table_mailboxes.md, R73 to R75): the look state of a committed
image and of each block instance as 32-bit words, and COMMIT_SEQ. The words of an image stand in ascending register offset; a table that
no register but an opcode loads follows the registers of its unit (log 12).
-/
namespace Sys2Proof.Machine
open Sys2Proof

/-- Entries of 16 bits, two to a word, low half first. -/
def pack16 : List Nat → List Nat
  | a :: b :: t => (a % 65536 + 65536 * (b % 65536)) :: pack16 t
  | [a] => [a % 65536]
  | [] => []

/-- The words of a table: what was loaded, or its reset contents (R74). -/
def tableWords (t : Option (List Nat)) (reset : List Nat) : List Nat := pack16 (t.getD reset)

/-- The look state of the RAW settings (R129, R218), in the layouts of RAW_Pp_CFG to RAW_Pp_WEIGHT2 and of the Press register. -/
def RawCfg.look (r : RawCfg) : List Nat :=
  [r.fmt + 8 * b2n r.dynEn + 16 * r.readouts + 256 * r.cfa + 1024 * r.phase + 65536 * r.lanes, r.lineNs
    , r.ghostThr + 65536 * r.lag + 0x10000000 * r.ghostRef + 0x80000000 * b2n r.ghostEn, r.noise, r.blackAdj, r.dynAbs
    , r.dynRel] ++ r.gain ++ r.knee ++ r.sat ++ r.weight ++ [r.ratio + 65536 * r.eMin + 0x1000000 * r.eMax]

/-- The look state of the CTX settings (R149): CTX_Cc_SIZE, BUDGET and FRAME_NS, then RAW_SRC, which an opcode loads. -/
def CtxCfg.look (c : CtxCfg) : List Nat := [c.width + 65536 * c.height, c.budgetUs, c.frameNs, c.rawSrc]

/-- The look state of the CLR settings (R181), in the layouts of CLR_Cc_CFG to CLR_Cc_WS8. -/
def ClrCfg.look (c : ClrCfg) : List Nat :=
  let wb := fun (i : Nat) => c.wb.getD i 0 + 65536 * c.wb.getD (i + 1) 0
  [b2n c.shadeEn + 2 * b2n c.fcsEn + 16 * c.wspace, wb 0, wb 2, c.dmEps, c.fcsKnee, c.lumaKr + 65536 * c.lumaKb]
    ++ c.cm ++ c.off ++ c.ws

/-- The look state of a tap (R181): the enable as EN_LIVE of TAP_Tt_OWNER, TAP_Tt_CROP0 to TAP_Tt_EXP, then the tables that opcodes load, in
the order of TAP_LOAD_LUT's kinds. A TV engine has no LUTs. -/
def TapCfg.look (t : TapCfg) : List Nat :=
  [256 * b2n t.enable, t.x0 + 65536 * t.y0, t.cw + 65536 * t.ch, t.ow + 65536 * t.oh
    , t.pack + 256 * t.matrix + 512 * t.range + 4096 * t.transfer + 16384 * t.levels + 65536 * t.decim, t.expGain]
    ++ (if 8 ≤ t.engine then [] else tableWords t.shaper shaperReset ++ tableWords t.lut3 lut3Reset ++ tableWords t.outLut outReset)
    ++ tableWords t.hScale scaleReset ++ tableWords t.vScale scaleReset

/-- The fingerprint of a context's image (R73, R74): RAW, CTX, CLR and TAP in ascending BAR0 base. -/
def imageFp (c : CtxCfg) (r : RawCfg) (l : ClrCfg) (ts : List TapCfg) : BitVec 64 :=
  crc64Words (r.look ++ c.look ++ l.look ++ ts.flatMap TapCfg.look)

/-- The reset image of a context (R74): it owns no tap. -/
def resetImageFp : BitVec 64 := imageFp {} {} {} []

/-- The live fingerprint of context `c`: that of the image latest bound, with any armed merge set that went live. -/
def State.ctxFp (s : State) (c : Nat) : BitVec 64 :=
  if s.rn (CTX_C_COMMIT_ID c) = 0 then resetImageFp
  else BitVec.ofNat 64 (s.rn (CTX_C_FP_LO c) + s.rn (CTX_C_FP_HI c) * 0x100000000)

/-- The look state of LNK (R102): the quad map, ports, triggers and profiles. -/
def lookLnk (s : State) : List Nat :=
  [s.f LNK_QMAP__QMAP] ++ (List.range 6).map (fun q => s.f (LNK_QCFG__RATE q))
    ++ (List.range 4).flatMap (fun p =>
      [s.rn (LNK_P_CFG p) / 2 * 2, s.rn (LNK_P_FRAME_TMO p), s.rn (LNK_P_SCC p), s.rn (LNK_P_SET_CFG p)
        , s.f (LNK_P_SETQ__K p), s.rn (LNK_P_TRG p), s.rn (LNK_P_TRG_DLY p)])
    ++ s.port.toList.flatMap (fun q =>
      match q.profile with
      | none => []
      | some f => [f.width + 65536 * f.height, f.sbits + 256 * f.readouts + 65536 * b2n f.embedded
          , f.i2cAddr + 256 * f.regWidth] ++ f.startSeq ++ f.stopSeq ++ f.holdBegin ++ f.holdEnd)

/-- The look state of VLT (R184): W, RING_UNITS, EMB_SECT and the REC_CONFIG fields. -/
def lookVlt (s : State) : List Nat :=
  let r := s.vlt.recCfg
  [s.f VLT_LAYOUT__W_GIB] ++ List.zipWith (fun u e => u + 65536 * e) s.vlt.units s.vlt.emb
    ++ [r.ctxs + 16 * b2n r.hold + 256 * r.debounceMs + 65536 * b2n r.en] ++ r.preroll
    ++ [r.ub.getD 0 0 + 16 * r.ub.getD 1 0, r.tally.getD 0 0 + 16 * r.tally.getD 1 0]

/-- The look state of CDC: stream parameters (R270), and those of a decode session's OPEN (R284). -/
def lookCdc (s : State) : List Nat :=
  s.cdc.enc.toList.flatMap (fun e =>
      let w := fun (i : Nat) => e.words.getD i 0
      [w 0, w 1 % 0x1000000, w 2, w 3, w 7 % 4])
    ++ s.cdc.dec.toList.flatMap (fun d =>
      [b2n d.pool + 2 * b2n d.checkHash, d.maxW + 65536 * d.maxH, d.maxRate] ++ d.expand)

/-- Words of a layer for the fingerprint (R307). -/
def LayerCfg.look (l : LayerCfg) : List Nat :=
  [b2n l.en + 2 * l.src + 16 * l.pack + 256 * b2n l.solid + 512 * b2n l.premult + 1024 * l.matrix + 2048 * l.range
      + 65536 * l.tapEng + 0x100000 * l.tapCtx, l.sw + 65536 * l.sh, l.dx + 65536 * l.dy, l.dw + 65536 * l.dh, l.galpha
    , l.race] ++ tableWords l.lut preReset

/-- The settings of a composer before a commit has gone live: those of reset. -/
def cmpReset : CmpSet :=
  { outW := 0, outH := 0, bg := (0, 0, 0), pace := false, fcg := 0, layers := List.replicate 8 {}, post := none, wb := {}, lines := none
    tcPos := none, flips := [] }

/-- The look state of CMP: what is live of each composer, and the Rind policy (R307). -/
def lookCmp (s : State) : List Nat :=
  s.cmp.unit.toList.flatMap (fun u =>
      let g := u.live.getD cmpReset
      [g.outW + 65536 * g.outH, g.bg.1 + 65536 * g.bg.2.1, g.bg.2.2 + 65536 * b2n g.pace + 131072 * g.fcg]
        ++ g.layers.flatMap LayerCfg.look ++ tableWords g.post postReset
        ++ [g.wb.pack + 16 * g.wb.matrix + 32 * g.wb.range, g.lines.getD 0x100 + 0x10000 * g.tcPos.getD 4])
    ++ [s.cmp.rind.crc.toNat]

/-- The look state of DSP (R320): a change of timing counts from its opcode on. -/
def lookDsp (s : State) : List Nat :=
  s.dsp.route.map (fun r => r.getD 15)
    ++ s.dsp.tg.toList.flatMap (fun g =>
      let f := g.next.getD g.soft
      [b2n g.sdi + 2 * g.raster + 256 * g.rate + 4096 * b2n g.div, g.hactive + 65536 * g.vactive, g.htotal, g.khz
        , f.vmin + 65536 * f.vmax, b2n f.lock + 2 * f.fcg + 16 * b2n f.time + 32 * b2n f.df, ofInt 32 f.ofs, f.num, f.den])
    ++ s.dsp.port.toList.flatMap (fun p => [p.tg.getD 15, p.word0, p.mbps])

/-- The look state of AUD (R336): DIR, FMT, SLAVE, RATE, PACK and SOURCE. -/
def lookAud (s : State) : List Nat := (List.range 8).map (fun p => bitsAt (s.rn (AUD_P_CFG p)) 1 11)

/-- The look state of TIM (R346). -/
def lookTim (s : State) : List Nat :=
  s.tim.fcg.toList.flatMap (fun f => [b2n f.live.en, f.live.origin % 0x100000000, f.live.origin / 0x100000000
    , f.live.period % 0x100000000, f.live.period / 0x100000000])

/-- The look state of NET (spec/17, registers): SPEED, FEC, MTU and the filter mode. -/
def lookNet (s : State) : List Nat := [s.f NET_STAT__SPEED + 16 * s.f NET_STAT__FEC + 256 * b2n s.net.promisc, s.net.mtu]

/-- The look state of a block instance. Blocks that hold none have the empty image. -/
def lookWords (b : Blk) (s : State) : List Nat :=
  match b with
  | .lnk => lookLnk s
  | .vlt => lookVlt s
  | .cdc => lookCdc s
  | .cmp => lookCmp s
  | .dsp => lookDsp s
  | .aud => lookAud s
  | .tim => lookTim s
  | .net => lookNet s
  | _ => []

/-- The instance fingerprint of a block (R74). -/
def State.instFp (s : State) (b : Blk) : BitVec 64 := crc64Words (lookWords b s)

/-- A 12-byte record of the device fingerprint (R74). -/
def fpRecord (target : Nat) (fp : BitVec 64) : List Byte := leBytes 2 target ++ [0, 0] ++ leBytes 8 fp.toNat

/-- The block instances in ascending DLT INDEX (R450), CTX, RAW, CLR and TAP apart: the contexts cover their state, and they give the
device fingerprint no record (R74; DESIGN CHOICE, log 88). -/
def fpBlocks : List Blk :=
  [.lay, .cmd, .mbx, .lnk, .vlt, .vq, .cdc, .cmp, .dsp, .aud, .tim, .net, .dfl, .dmc, .pwr, .thm, .tst, .evt]

/-- The contexts and the instances, each by its TARGET with its fingerprint. -/
def State.fpTargets (s : State) : List (Nat × BitVec 64) :=
  (List.range 6).map (fun c => (0x2000 + c, s.ctxFp c)) ++ fpBlocks.map (fun b => (0x8000 + b.pos, s.instFp b))

/-- The device fingerprint (R74). -/
def State.devFp (s : State) : BitVec 64 := crc64 (s.fpTargets.flatMap (fun t => fpRecord t.1 t.2))

/-- COMMIT_SEQ moves on when a commit has changed a fingerprint since `s0` (R75). -/
def State.commitSince (s s0 : State) : State :=
  { s with dev :=
      if s.devFp = s0.devFp then s.dev else { s.dev with commitSeq := s.dev.commitSeq + 1, commitTb := s.rd TIM_NOW_NS } }

end Sys2Proof.Machine
end

