-- ==== Sys2Proof/Machine/Vault.lean ====
section
/-!
DEFINITION. The Frame Vault: areas, pins, placement, reclamation, the life of a frame record and the bytes the tables
show (spec/09_frame_vault.md, R183 to R200).
-/
namespace Sys2Proof.Machine
open Sys2Proof

/-- The TARGET value of a context (Table 2-2). -/
def ctxTarget (c : Nat) : Nat := 0x2000 + c

/-- Change the vault's state. -/
def State.modVlt (s : State) (g : VltSt → VltSt) : State := { s with vlt := g s.vlt }

/-- The vault is used: it leaves VP1, VP2 or VP3 (spec/11, R243, R244). -/
def State.vaultUse (s : State) : State := s.setF VQ_VPSTATE__VP 0

/-- W in sectors, the start of the first ring, and each ring's first sector (Table 9-1). -/
def State.wSect (s : State) : Nat := s.f VLT_LAYOUT__W_GIB * 0x40000
def State.ringsAt (s : State) : Nat := s.wSect + 0x8000
def State.bases (s : State) : List Nat := ringBases s.ringsAt s.vlt.units

/-- An area a record may lie in: the ring or the spill reserve of a context. -/
structure Area where
  ctx : Nat
  spill : Bool
deriving DecidableEq, Repr

/-- First sector and length of an area. -/
def State.area (s : State) (a : Area) : Nat × Nat :=
  let b := s.bases.getD a.ctx 0
  let u := s.vlt.units.getD a.ctx 0
  if a.spill then (b + ringSect u, spillSect u) else (b, ringSect u)

/-- The write pointer of an area. -/
def State.areaWp (s : State) (a : Area) : Nat := if a.spill then s.vlt.wpSpill.getD a.ctx 0 else s.vlt.wp.getD a.ctx 0
def State.setAreaWp (s : State) (a : Area) (v : Nat) : State :=
  s.modVlt (fun q => if a.spill then { q with wpSpill := q.wpSpill.set a.ctx v } else { q with wp := q.wp.set a.ctx v })

/-- The area that holds sector `x`. -/
def State.areaOf (s : State) (x : Nat) : Option Area :=
  ((List.range 6).flatMap (fun c => [(⟨c, false⟩ : Area), ⟨c, true⟩])).find? (fun a =>
    let q := s.area a
    decide (q.1 ≤ x) && decide (x < q.1 + q.2))

/-! ### Pins (R196) -/

/-- FID `f` lies in a range, in serial-number order (R196, R430). -/
def fidIn (first last f : Nat) : Bool := !serialLt f first && !serialLt last f

/-- The range of a take holds frame `f` of context `c` (R198, R199). -/
def Take.holds (t : Take) (c f : Nat) : Bool :=
  if h : c < 4 then
    let e := t.ctx[c]
    e.named && (if t.closing || t.closed then fidIn e.first e.last f else !serialLt f e.first)
  else false

/-- Take slots in use, with their numbers. -/
def State.takesUsed (s : State) : List (Nat × Take) :=
  (List.range 64).filterMap (fun i => (s.vlt.takes.toList.getD i none).map (fun t => (i, t)))

/-- R196: frame `f` of context `c` is pinned. -/
def State.pinned (s : State) (c f : Nat) : Bool :=
  s.vlt.pins.toList.any (fun p => match p with
    | some q => q.ctx == c && fidIn q.first q.last f
    | none => false)
  || s.takesUsed.any (fun t => t.2.holds c f)

/-! ### Index (R195) -/

/-- The index slot of FID `f` of context `c`. -/
def idxKey (c f : Nat) : Nat := c * 0x100000 + f % 0x100000
def State.idx (s : State) (c f : Nat) : IdxEntry := storeGet (fun _ => {}) s.vlt.index (idxKey c f)
def State.setIdx (s : State) (c f : Nat) (e : IdxEntry) : State :=
  s.modVlt (fun q => { q with index := storeSet (fun _ => {}) q.index (idxKey c f) e })

/-! ### Records -/

/-- Records that stand, RECLAIMED ones apart. -/
def State.recsOf (s : State) (c : Nat) : List Rec := s.vlt.recs.filter (fun r => r.ctx == c && !r.reclaimed)

/-- The record of frame `f` of context `c`. -/
def State.rec? (s : State) (c f : Nat) : Option Rec :=
  s.vlt.recs.find? (fun r => r.ctx == c && r.fid == f && !r.reclaimed)

/-- Replace the record of frame `f` of context `c`. -/
def State.modRec (s : State) (c f : Nat) (g : Rec → Rec) : State :=
  s.modVlt (fun q => { q with recs := q.recs.map (fun r => if r.ctx == c && r.fid == f && !r.reclaimed then g r else r) })

/-- Record sectors in use from its header up. -/
def Rec.span (r : Rec) : Nat := if r.isOpen then r.run else r.sectors
/-- Sectors of a payload. -/
def sectorsOf (bytes : Nat) : Nat := ceilDiv bytes 4096
/-- Sectors a record's data takes (spec/09, before R186). -/
def Rec.used (r : Rec) : Nat := 24 + r.embSect + (r.payload.map (fun p => sectorsOf p.length)).sum

/-- R189: `r` may not be reclaimed by a frame of context `c` in area `a`. -/
def State.blocks (s : State) (c : Nat) (a : Area) (r : Rec) : Bool :=
  r.isOpen || s.pinned r.ctx r.fid || (r.guest && r.ctx != c && a.ctx != c)

/-- Non-reclaimed records that overlap sectors x to y − 1, lowest first. -/
def State.overlaps (s : State) (x y : Nat) : List Rec :=
  let l := s.vlt.recs.filter (fun r => !r.reclaimed && decide (r.base < y) && decide (x < r.base + r.span))
  l.mergeSort (fun a b => decide (a.base ≤ b.base))

/-- R189's search in an area: the first sector of a run of `n`. -/
def State.searchRun (s : State) (c : Nat) (a : Area) (n start : Nat) : Nat → Nat → Bool → Option Nat
  | 0, _, _ => none
  | k + 1, p, wrapped =>
    let q := s.area a
    if q.1 + q.2 < p + n then
      if wrapped ∨ q.2 < n then none else s.searchRun c a n start k q.1 true
    else if wrapped ∧ start ≤ p then none
    else
      match (s.overlaps p (p + n)).find? (s.blocks c a) with
      | some r => s.searchRun c a n start k (r.base + r.span) wrapped
      | none => some p

/-- The run that an area yields. -/
def State.findRun (s : State) (c n : Nat) (a : Area) : Option Nat :=
  s.searchRun c a n (s.areaWp a) (2 * s.vlt.recs.length + 4) (s.areaWp a) false

/-- PRIO and ESSENTIAL of a context (R131). -/
def State.prio (s : State) (c : Nat) : Nat := s.f (CTX_C_POLICY__PRIO c)
def State.essential (s : State) (c : Nat) : Bool := s.on (CTX_C_POLICY__ESSENTIAL c)

/-- The areas of R191, in order. -/
def State.areasFor (s : State) (c : Nat) : List Area :=
  let others := ((List.range 6).filter (fun d => d != c)).mergeSort (fun d e =>
    decide (s.prio e < s.prio d) || (s.prio d == s.prio e && decide (e ≤ d)))
  [⟨c, false⟩, ⟨c, true⟩] ++ (if s.essential c then others.map (fun d => ⟨d, false⟩) else [])

/-- R192: a record is reclaimed. -/
def State.reclaim (s : State) (r : Rec) : State :=
  let g := (s.rn VLT_GEN + 1) % 0x100000000
  let s := s.wn VLT_GEN g
  let e := s.idx r.ctx r.fid
  let s := if e.fid = r.fid ∧ e.vsa = r.base then s.setIdx r.ctx r.fid { e with valid := false, gen := g } else s
  let s := s.modRec r.ctx r.fid (fun q => { q with reclaimed := true, gen := g })
  s.bumpEvt .vlt (VLT_C_RECLAIM_CNT r.ctx)

/-- What placement is told of a frame. -/
structure FrameInfo where
  ctx : Nat
  maxRec : Nat
  epoch : Nat
  ns : Nat
  width : Nat
  height : Nat
  readouts : Nat
  sbits : Nat
  fmt : Nat
  emb : Nat
  commitId : Nat
  playback : Bool
deriving DecidableEq, Repr

/-- MAX_REC (R188): `n` stripes of a format. -/
def maxRecOf (fmt width height readouts emb : Nat) : Nat :=
  let n := ceilDiv height 64
  let m := if fmt = 0 then sectorsOf (128 * width) else if fmt = 3 then sectorsOf (128 * width * readouts)
    else sectorsOf (128 * width) + 1
  24 + emb + n * m

/-- A frame that is not recorded (R191). -/
def State.notRecorded (s : State) (c : Nat) : State :=
  let s := s.bumpEvt .vlt (VLT_C_DROP_CNT c)
  let s := s.raise (VLT_C_ERR__FULL c)
  let s := if s.on (VLT_C_STAT__DROPPING c) then s else s.log .vlt evVltFull (ctxTarget c)
  let s := s.raise (VLT_C_STAT__DROPPING c)
  s.modVlt (fun q => { q with dropped := q.dropped.set c (q.dropped.getD c 0 + 1) })

/-- The FID after `f`: 0 is skipped (R190). -/
def fidNext (f : Nat) : Nat := if (f + 1) % 0x100000000 = 0 then 1 else (f + 1) % 0x100000000

/-- Lowest-numbered open take that holds a frame (Table 9-2, TAKE_NO). -/
def State.takeOf (s : State) (c f : Nat) : Nat :=
  let l := (s.takesUsed.filter (fun t => !t.2.closed && t.2.holds c f)).map (fun t => t.2.no)
  match l with
  | [] => 0
  | a :: t => t.foldl min a

/-- Write a new record at sector `p` of area `a` (R187 step 1, R189, R192). -/
def State.writeRecord (s : State) (i : FrameInfo) (a : Area) (p f : Nat) : State :=
  let c := i.ctx
  let victims := s.overlaps p (p + i.maxRec)
  let s := victims.foldl State.reclaim s
  let fin := victims.foldl (fun e r => max e (r.base + r.span)) (p + i.maxRec)
  let g := (s.rn VLT_GEN + 1) % 0x100000000
  let s := s.wn VLT_GEN g
  let guest := a.ctx != c
  let r : Rec := {
    base := p, ctx := c, fid := f, gen := g, sectors := i.maxRec, run := fin - p, isOpen := true, guest := guest
    spill := a.spill, fmt := i.fmt, takeNo := s.takeOf c f, dropped := s.vlt.dropped.getD c 0, epoch := i.epoch, ns := i.ns
    width := i.width, height := i.height, readouts := i.readouts, sbits := i.sbits, embSect := i.emb, maxRec := i.maxRec
    commitId := i.commitId, playback := i.playback }
  let s := s.modVlt (fun q => { q with
    recs := q.recs.filter (fun o => !(o.reclaimed && o.base == p)) ++ [r]
    touched := if q.touched.any (fun t => decide (t.1 ≤ p) && decide (fin ≤ t.2)) then q.touched else q.touched ++ [(p, fin)] })
  let s := s.setIdx c f { fid := f, gen := g, vsa := p, sectors := i.maxRec, valid := true, guest := guest }
  let s := s.setAreaWp a (p + 24 + i.emb)
  let s := s.wn (VLT_C_NEWEST_FID c) f
  let s := if s.vlt.dropped.getD c 0 = 0 then s
    else (s.log .vlt evVltSpaceOk (ctxTarget c)).modVlt (fun q => { q with dropped := q.dropped.set c 0 })
  let s := ((s.setB (VLT_C_STAT__DROPPING c) false).setB (VLT_C_STAT__BORROWING c) guest).setB (VLT_C_STAT__IN_SPILL c) a.spill
  if guest then (s.raise (VLT_C_ERR__BORROWED c)).bumpEvt .vlt (VLT_C_BORROW_CNT c) else s

/-- R189 to R191: place a frame; its FID when it is recorded. -/
def State.place (s : State) (i : FrameInfo) : Option Nat × State :=
  let c := i.ctx
  let f := fidNext (s.rn (VLT_C_NEWEST_FID c))
  let e := s.idx c f
  if e.valid ∧ e.fid ≠ f ∧ s.pinned c e.fid then (none, (s.raise (VLT_C_ERR__SLOT_PINNED c)).notRecorded c)
  else
    match (s.areasFor c).findSome? (fun a => (s.findRun c i.maxRec a).map (fun p => (a, p))) with
    | none => (none, s.notRecorded c)
    | some (a, p) => (some f, s.writeRecord i a p f)

/-- Move an area's write pointer while it lies in the run of record `r`. -/
def State.moveWp (s : State) (r : Rec) (v : Nat) : State :=
  match s.areaOf r.base with
  | some a => if r.base ≤ s.areaWp a ∧ s.areaWp a ≤ r.base + r.run then s.setAreaWp a v else s
  | none => s

/-- A stripe's payload with `dmg` damaged lines is accepted (R187 step 2): the write pointer passes it; identity lines under it are gone. -/
def State.landRec (s : State) (c f : Nat) (payload : List Byte) (dmg : Nat) : State :=
  match s.rec? c f with
  | none => s
  | some r =>
    let lo := r.base + r.used
    let hi := lo + sectorsOf payload.length
    let s := s.modRec c f (fun q => { q with payload := q.payload ++ [payload], landedDmg := q.landedDmg + dmg })
    let s := s.modVlt (fun q => { q with recs := q.recs.filter (fun o => !(o.reclaimed && decide (lo ≤ o.base) && decide (o.base < hi))) })
    s.moveWp r hi

/-! ### Takes at a boundary (R199, R200) -/

/-- Change take slot `i`. -/
def State.modTake (s : State) (i : Nat) (g : Take → Take) : State :=
  s.modVlt (fun q => { q with takes := q.takes.setIfInBounds i ((q.takes.toList.getD i none).map g) })

/-- A frame's counts enter a take's entry for its context (R200). -/
def TakeCtx.count (e : TakeCtx) (r : Rec) : TakeCtx :=
  { e with
    frames := e.frames + 1, truncated := e.truncated + b2n r.truncated, dropped := e.dropped + r.dropped
    damaged := e.damaged + (if r.rebuilt then r.landedDmg else r.ingest.stats.damaged), bytes := e.bytes + (r.payload.map List.length).sum }

/-- R200: add a frame's counts to every open take that holds it. -/
def State.countTakes (s : State) (r : Rec) : State :=
  (s.takesUsed.filter (fun t => !t.2.closed && t.2.holds r.ctx r.fid)).foldl (fun s t =>
    s.modTake t.1 (fun k => { k with ctx := k.ctx.setIfInBounds r.ctx (TakeCtx.count (k.ctx.toList.getD r.ctx {}) r) })) s

/-- The frame that bounds a context's part of a closing take has passed its ingest boundary. -/
def State.boundPassed (s : State) (c f : Nat) : Bool := !(s.vlt.recs.any (fun r => r.ctx == c && r.fid == f && !r.reclaimed && r.isOpen))

/-- R199: a closing take becomes CLOSED once its last frames have passed their ingest boundaries. -/
def State.closeTakes (s : State) : State :=
  (s.takesUsed.filter (fun t => t.2.closing && !t.2.closed)).foldl (fun s t =>
    if (List.range 4).all (fun c => let e := t.2.ctx.toList.getD c {}; !e.named || s.boundPassed c e.last) then
      s.modTake t.1 (fun k => { k with closed := true, closeT := (s.rn TIM_NOW_EPOCH, s.rn TIM_NOW_NS) })
    else s) s

/-- The ingest boundary of a record (R14, R15, R187 steps 3 and 4): `g` fills in its ingest fields. -/
def State.closeRec (s : State) (c f : Nat) (fp : BitVec 64) (g : Rec → Rec) : State :=
  match s.rec? c f with
  | none => s
  | some r =>
    let r' : Rec := { g r with
      isOpen := false, sectors := (g r).used, commitSeq := s.dev.commitSeq.toNat, tbNs := s.rn TIM_NOW_NS
      fpIngest := (fp, s.devFp) }
    let s := s.modRec c f (fun _ => r')
    let s := s.modVlt (fun q => { q with recs := q.recs.filter (fun o =>
      !(o.reclaimed && decide (r.base ≤ o.base) && decide (o.base < r.base + r.run))) })
    let s := s.moveWp r (r.base + r'.sectors)
    let e := s.idx c f
    let s := s.setIdx c f { e with
      sectors := r'.sectors, truncated := r'.truncated, processed := r'.processed }
    (s.countTakes r').closeTakes

/-- The processing boundary reaches the record (R187 step 5); the writes of an OPEN record follow its closing. -/
def State.recProcessed (s : State) (c f gen : Nat) (cnt : ProcCnt) (zone : Option ZoneBlk) (fp : BitVec 64) : State :=
  match s.rec? c f with
  | none => s
  | some r =>
    if r.gen ≠ gen then s
    else
      let skipped := cnt.cause != 0
      let s := s.modRec c f (fun q => { q with
        processed := !skipped, skipped := skipped, proc := some cnt, zone := zone, zsValid := zone.isSome
        fpProc := if skipped then (0, 0) else (fp, s.devFp) })
      if r.isOpen then s
      else
        let e := s.idx c f
        s.setIdx c f { e with processed := !skipped }

/-! ### Bytes of the tables -/

/-- Cut to `n` bytes at offset 0, padded with zeros. -/
def fit (n : Nat) (bs : List Byte) : List Byte := bs.take n ++ List.replicate (n - bs.length) 0

/-- Table 7-4 as 30 bytes. -/
def ProcCnt.bytes (p : ProcCnt) : List Byte :=
  leBytes 2 p.done ++ leBytes 2 p.late ++ leBytes 4 p.maxLate ++ leBytes 4 p.maxLat ++ leBytes 4 p.startNs ++ leBytes 4 p.endNs
    ++ leBytes 1 (p.cause + 16 * b2n p.partly + 32 * b2n p.noVictim) ++ leBytes 1 p.trigCtx ++ leBytes 4 p.trigFid
    ++ leBytes 4 p.commitId

/-- A count of the ingest block has saturated. -/
def RawStats.ovf (t : RawStats) : Bool :=
  ([t.damaged, t.static, t.dynamic, t.uncorr, t.ghost, t.allSat, t.blackClamp] ++ t.sat ++ t.hist.flatten).any
    (fun n => decide (0x80000000 ≤ n)) || t.sums.any (fun n => decide (0x8000000000000000 ≤ n))

/-- FLAGS of Table 6-4. -/
def IngestBlk.flags (b : IngestBlk) : Nat :=
  b2n b.valid + 2 * b2n b.truncated + 4 * b2n b.setLate + 8 * b2n (b.stats.damaged != 0) + 16 * b2n b.stats.ovf
    + 32 * b2n b.armedLive + 256 * b.cause

/-- The 2,144 bytes of Table 6-4. -/
def IngestBlk.bytes (b : IngestBlk) : List Byte :=
  let t := b.stats
  leBytes 4 b.fid ++ leBytes 4 b.tag ++ leBytes 4 b.flags ++ leBytes 4 (b.lastStripe.getD 0xFFFFFFFF) ++ leBytes 4 b.ns
    ++ leBytes 4 b.frac
    ++ ([t.damaged, t.static, t.dynamic, t.uncorr, t.ghost, t.allSat] ++ t.sat ++ [t.blackClamp]).flatMap (fun n => leBytes 4 (satCount n))
    ++ t.sums.flatMap (fun n => leBytes 8 (satCount64 n)) ++ t.hist.flatten.flatMap (fun n => leBytes 4 (satCount n))

/-- The identity line's 60 bytes before its CRC (Table 9-2). -/
def Rec.identity (r : Rec) : List Byte :=
  let st := if r.reclaimed then 2 else if r.isOpen then 0 else 1
  let shown := !r.isOpen
  leBytes 4 0x52464C46 ++ leBytes 2 0x0100 ++ leBytes 1 1 ++ leBytes 1 r.ctx ++ leBytes 4 r.fid ++ leBytes 4 r.gen
    ++ leBytes 4 r.sectors
    ++ leBytes 4 (st + 4 * b2n r.guest + 8 * b2n r.spill + 16 * b2n r.truncated + 32 * b2n (shown && r.processed)
      + 64 * b2n (shown && r.skipped) + 128 * b2n (shown && r.zsValid) + 256 * b2n r.embTrunc + 4096 * r.fmt + 65536 * r.cause)
    ++ leBytes 4 r.takeNo ++ leBytes 4 r.dropped ++ leBytes 4 r.epoch ++ leBytes 4 (r.width + 65536 * r.height)
    ++ leBytes 1 r.readouts ++ leBytes 1 r.sbits ++ leBytes 1 r.embSect ++ leBytes 1 0 ++ leBytes 2 (ceilDiv r.height 64)
    ++ leBytes 2 0 ++ leBytes 4 r.maxRec ++ List.replicate 8 0

/-- The 4,096 bytes of a record's header (Table 9-2). -/
def Rec.header (r : Rec) : List Byte :=
  let shown := !r.isOpen
  let line := r.identity ++ leBytes 4 (crc32 r.identity)
  let tail := if shown && !r.rebuilt then
      leBytes 4 (min r.embBytes.length (r.embSect * 4096)) ++ leBytes 4 r.commitId ++ leBytes 4 r.commitSeq ++ leBytes 4 r.tbNs
        ++ leBytes 8 r.fpIngest.1.toNat ++ leBytes 8 r.fpIngest.2.toNat ++ leBytes 8 r.fpProc.1.toNat ++ leBytes 8 r.fpProc.2.toNat
        ++ fit 32 (match r.proc with | some p => p.bytes | none => [])
        ++ leBytes 8 (r.payload.map List.length).sum ++ List.replicate 104 0
        ++ fit 2144 (if r.playback then [] else r.ingest.bytes)
    else List.replicate 2336 0
  fit 4096 (line ++ tail ++ r.payload.flatMap (fun p => leBytes 4 (p.length + 0x80000000)))

/-- A filler's header (spec/09, before R186). -/
def fillerHeader (ctx sectors : Nat) : List Byte :=
  let b := leBytes 4 0x52464C46 ++ leBytes 2 0x0100 ++ leBytes 1 2 ++ leBytes 1 ctx ++ List.replicate 8 0 ++ leBytes 4 sectors
    ++ List.replicate 40 0
  fit 4096 (b ++ leBytes 4 (crc32 b))

/-- Byte `o` of a record's area, header included; none where the record holds no byte. -/
def Rec.byte? (r : Rec) (o : Nat) : Option Byte :=
  let sec := o / 4096
  let at_ := fun (l : List Byte) (i : Nat) => some (l.getD i 0)
  if sec = 0 then at_ r.header o
  else if r.reclaimed then none
  else if sec < 24 then
    match r.zone with
    | some z => if r.isOpen ∨ 90176 ≤ o - 4096 then none else at_ z.bytes (o - 4096)
    | none => none
  else if sec < 24 + r.embSect then if o - 98304 < r.embBytes.length then at_ r.embBytes (o - 98304) else none
  else
    let go := r.payload.foldl (fun (acc : Nat × Option Byte) p =>
      let n := sectorsOf p.length * 4096
      if acc.1 ≤ o ∧ o < acc.1 + n then (acc.1 + n, if o - acc.1 < p.length then at_ p (o - acc.1) else none)
      else (acc.1 + n, acc.2)) (4096 * (24 + r.embSect), none)
    go.2

/-- A take record's bytes (Table 9-4). -/
def Take.bytes (t : Take) : List Byte :=
  let es := t.ctx.toList
  let mask := ((List.range 4).map (fun c => if (es.getD c {}).named then 2 ^ c else 0)).sum
  let b := leBytes 4 0x4B544C46 ++ leBytes 4 t.no
    ++ leBytes 4 ((if t.closed then 2 else 1) + 4 * b2n t.short + 8 * b2n t.interrupted + 16 * b2n t.isRec + 32 * b2n t.retro
      + 256 * mask)
    ++ leBytes 4 t.openT.1 ++ leBytes 4 t.openT.2 ++ leBytes 4 t.closeT.1 ++ leBytes 4 t.closeT.2 ++ leBytes 4 0
    ++ es.flatMap (fun e => leBytes 4 e.req ++ leBytes 4 e.first ++ leBytes 4 (if t.closed then e.last else 0)
      ++ leBytes 4 (satCount e.frames) ++ leBytes 4 (satCount e.truncated) ++ leBytes 4 (satCount e.dropped)
      ++ leBytes 4 (satCount e.damaged) ++ leBytes 8 (satCount64 e.bytes) ++ List.replicate 12 0)
    ++ List.replicate 28 0
  b ++ leBytes 4 (crc32 b)

/-- A pin entry's bytes (Table 9-3). -/
def pinBytes (p : Option Pin) : List Byte :=
  let b := match p with
    | some q => leBytes 1 q.ctx ++ leBytes 1 (1 + 2 * b2n q.retain) ++ leBytes 2 0 ++ leBytes 4 q.first ++ leBytes 4 q.last
        ++ List.replicate 16 0
    | none => List.replicate 28 0
  b ++ (if p.isSome then leBytes 4 (crc32 b) else List.replicate 4 0)

/-- An index entry's bytes (Table 9-3). -/
def IdxEntry.bytes (e : IdxEntry) : List Byte :=
  leBytes 4 e.fid ++ leBytes 4 e.gen ++ leBytes 4 (e.vsa % 0x4000000)
    ++ leBytes 4 (e.sectors % 0x100000 + 0x100000 * b2n e.valid + 0x200000 * b2n e.guest + 0x400000 * b2n e.truncated
      + 0x800000 * b2n e.processed)

/-- Byte `o` of the post-mortem copy (spec/23, R428): the live log's 32 KiB, then the error log. -/
def State.postByte (s : State) (o : Nat) : Byte :=
  match s.evt.post with
  | none => 0
  | some (live, err) =>
    let e := if o < 0x8000 then live.find? (fun e => e.seq.toNat % 1024 == o / 32) else err[(o - 0x8000) / 32]?
    match e with
    | some e => e.image.getD (o % 32) 0
    | none => 0

/-- Byte `o` of the index area (Table 9-3). -/
def State.indexByte (s : State) (o : Nat) : Byte :=
  if o < 0x6000000 then (storeGet (fun _ => ({} : IdxEntry)) s.vlt.index (o / 0x1000000 * 0x100000 + o % 0x1000000 / 16)).bytes.getD (o % 16) 0
  else if o < 0x6004000 then
    match s.vlt.takes.toList.getD ((o - 0x6000000) / 256) none with
    | some t => t.bytes.getD (o % 256) 0
    | none => 0
  else if o < 0x6004800 then (pinBytes (s.vlt.pins.toList.getD ((o - 0x6004000) / 32) none)).getD (o % 32) 0
  else if 0x7000000 ≤ o ∧ o < 0x7100000 then Config.assetByte (o - 0x7000000)
  else if 0x7100000 ≤ o ∧ o < 0x7108800 then s.postByte (o - 0x7100000)
  else 0

/-- The end of the area of Table 9-1 that sector `x` lies in, and the CTX its fillers carry (R401). -/
def State.fillerOf (s : State) (x : Nat) : Nat × Nat :=
  match s.areaOf x with
  | some a => (a.ctx, (s.area a).1 + (s.area a).2)
  | none => (0xFF, s.vlt.usable)

/-- Byte of the ring region at DPA `a` (Table 9-2, R187, R401): the newest record that holds it, the filler behind a
closed record, the filler of a sector not written since the vault was cleared, else former contents (log 14). -/
def State.ringByte (s : State) (a : Nat) : Byte :=
  let x := a / 4096
  match s.vlt.recs.reverse.findSome? (fun r =>
    if r.base ≤ x ∧ x < r.base + (if r.reclaimed then 1 else r.sectors) then r.byte? (a - 4096 * r.base)
    else if r.isOpen = false ∧ r.reclaimed = false ∧ x = r.base + r.sectors ∧ r.sectors < r.run then
      (if a % 4096 < 64 then some ((fillerHeader r.ctx (r.run - r.sectors)).getD (a % 4096) 0) else none)
    else none) with
  | some b => b
  | none =>
    if s.vlt.touched.any (fun t => decide (t.1 ≤ x) && decide (x < t.2)) ∨ 64 ≤ a % 4096 then Config.former a
    else
      let q := s.fillerOf x
      (fillerHeader q.1 (q.2 - x)).getD (a % 4096) 0

/-- Byte of the vault at DPA `a`. -/
def State.vaultByte (s : State) (a : Nat) : Byte :=
  if a < s.wBytes then s.memB a
  else if a < s.wBytes + 0x8000000 then s.indexByte (a - s.wBytes)
  else s.ringByte a

end Sys2Proof.Machine
end

