-- ==== Sys2Proof/Machine/Takes.lean ====
section
/-!
DEFINITION. Takes, pins, the REC button and the tally (spec/09_frame_vault.md, R196 to R205, R454).
-/
namespace Sys2Proof.Machine
open Sys2Proof

/-- The context is capturing: RUNNING, PROC_STOPPED or DRAINING (R198, R201). -/
def State.capturing (s : State) (c : Nat) : Bool := let t := s.f (CTX_C_STATE__STATE c); t == 2 || t == 3 || t == 4

/-- The context's next FID (R190). -/
def State.nextFid (s : State) (c : Nat) : Nat := fidNext (s.rn (VLT_C_NEWEST_FID c))

/-- The oldest FID with a valid index entry (VLT_Cc_OLDEST_FID). -/
def State.oldestFid (s : State) (c : Nat) : Option Nat :=
  let fs := ((s.recsOf c).filter (fun r => let e := s.idx c r.fid; e.valid && e.fid == r.fid)).map (·.fid)
  match fs with
  | [] => none
  | a :: t => some (t.foldl (fun m f => if serialLt f m then f else m) a)

/-- R201: the REC takes that count as open, by slot. -/
def State.recTakes (s : State) : List (Nat × Take) := s.takesUsed.filter (fun t => t.2.isRec && !t.2.closed && !t.2.closing)

/-- The REC take that a press or release acts on and VLT_REC_TAKE names: of several, the one opened first (log 98). -/
def State.recTake (s : State) : Option (Nat × Take) :=
  s.recTakes.foldl (fun m t => match m with
    | some q => if serialLt t.2.no q.2.no then some t else m
    | none => some t) none

def State.recOpen (s : State) : Bool := s.recTake.isSome
/-- A take counts as open for tallies with source TAKE (R201, R202). -/
def State.takeOpen (s : State) : Bool := s.takesUsed.any (fun t => !t.2.closed && !t.2.closing)

/-- A tally's output (R202): source REC, TAKE, SAFE_STATE or HOST. -/
def State.tallyOut (s : State) (src : Nat) : Bool :=
  match src with
  | 1 => s.recOpen || s.vlt.flash
  | 2 => s.takeOpen
  | 3 => s.dev.safe
  | 4 => s.on VLT_TALLY__HOST
  | _ => false

/-- TALLY_UPDATE (R202): the tallies, REC_ACTIVE, VLT_REC_TAKE and SLOT follow the takes. -/
def State.tallies (s : State) : State :=
  let t := s.vlt.recCfg.tally
  let out := b2n (s.tallyOut (t.getD 0 0)) + 2 * b2n (s.tallyOut (t.getD 1 0))
  let s0 := s
  let s := (s.setB VLT_TALLY__REC_ACTIVE s.recOpen).setF VLT_TALLY__OUT out
  let rec_ := s0.recTake
  let s := (s.wn VLT_REC_TAKE ((rec_.map (·.2.no)).getD 0)).setF VLT_REC_STAT__SLOT ((rec_.map (·.1)).getD 0)
  (List.range 2).foldl (fun s i =>
    if bitAt (s0.f VLT_TALLY__OUT) i = bitAt out i then s
    else s.emit (.pin (if i = 0 then "TALLY0" else "TALLY1") (bitAt out i))) s

/-- START of a take (Table of R198). -/
inductive TakeStart where
  | next | fid (v : List Nat) | time (epoch ns : Nat) | preroll (k : List Nat)
deriving DecidableEq, Repr

/-- A record's FRAME_START stamp. -/
def Rec.stamp (r : Rec) : Nat := r.epoch * 0x100000000 + r.ns

/-- The requested first FID of context `c`, and whether a TIME request counts as short (R198). -/
def State.takeReq (s : State) (st : TakeStart) (c : Nat) : Nat × Bool :=
  let nxt := s.nextFid c
  match st with
  | .next => (nxt, false)
  | .fid v => (v.getD c 0, false)
  | .preroll k => (serialAge nxt (k.getD c 0 % 0x100000000), false)
  | .time e n =>
    let t := e * 0x100000000 + n
    let fs := ((s.recsOf c).filter (fun r => decide (t ≤ r.stamp))).map (·.fid)
    let f := fs.foldl (fun m f => if serialLt f m then f else m) nxt
    let short := match s.oldestFid c with
      | none => false
      | some o => match s.rec? c o with
        | none => false
        | some r => decide (t < r.stamp) && (s.ctx.toList.getD c {}).firstFid != some o
    (f, short)

/-- Open a take in slot `i` (R198); the first adjusted context, if any. -/
def State.openTake (s : State) (i mask : Nat) (st : TakeStart) (isRec : Bool) : State × Option Nat :=
  let no := fidNext s.vlt.takeNo
  let part := fun c =>
    let q := s.takeReq st c
    let floor := (s.oldestFid c).getD (s.nextFid c)
    let late := serialLt q.1 floor
    let e : TakeCtx := { named := bitAt mask c, req := q.1, first := if late then floor else q.1 }
    (if bitAt mask c then e else {}, bitAt mask c && (late || q.2), bitAt mask c && serialLt e.first (s.rn (VLT_C_NEWEST_FID c)))
  let ps := (List.range 4).map part
  let short := ps.any (·.2.1)
  let t : Take := {
    no := no, short := short, isRec := isRec, retro := ps.any (·.2.2)
    openT := (s.rn TIM_NOW_EPOCH, s.rn TIM_NOW_NS)
    ctx := Vector.ofFn (fun c => (ps.getD c.val ({}, false, false)).1) }
  let s := s.modVlt (fun q => { q with takeNo := no, takes := q.takes.setIfInBounds i (some t) })
  let s := if short then s.log .vlt evTakeShort else s
  (s, if short then (List.range 4).find? (fun c => (ps.getD c ({}, false, false)).2.1) else none)

/-- Request the close of the take in slot `i` (R199): its last FIDs are fixed now. -/
def State.closeTake (s : State) (i : Nat) : State :=
  match s.vlt.takes.toList.getD i none with
  | none => s
  | some t =>
    if t.closing ∨ t.closed then s
    else
      let last := fun c => s.rn (VLT_C_NEWEST_FID c)
      let s := s.modTake i (fun k => { k with
        closing := true, ctx := Vector.ofFn (fun c => let e := k.ctx[c]; if e.named then { e with last := last c.val } else e) })
      s.closeTakes

/-- A free take slot, searched in an order. -/
def State.freeSlot (s : State) (l : List Nat) : Option Nat := l.find? (fun i => (s.vlt.takes.toList.getD i none).isNone)

/-- REC_FAIL (R201, R202). -/
def State.recFail (s : State) : State :=
  let s := (s.raise VLT_REC_STAT__REC_FAIL).log .vlt evRecFail
  (s.modVlt (fun q => { q with flash := true })).tallies

/-- A press opens a REC take (R201). -/
def State.recOpenTake (s : State) : State :=
  let mask := ((List.range 4).map (fun c => if bitAt s.vlt.recCfg.ctxs c ∧ s.capturing c then 2 ^ c else 0)).sum
  if mask = 0 then s.recFail
  else
    match s.freeSlot ([60, 61, 62, 63] ++ List.range 60) with
    | none => s.recFail
    | some i =>
      let s := (s.openTake i mask (.preroll s.vlt.recCfg.preroll) true).1
      (s.log .vlt evRecStart 0xFFFF s.vlt.takeNo).tallies

/-- The REC take closes (R201). -/
def State.recCloseTake (s : State) (i : Nat) : State :=
  let no := match s.vlt.takes.toList.getD i none with
    | some t => t.no
    | none => 0
  ((s.closeTake i).log .vlt evRecStop 0xFFFF no).tallies

/-- The debounced level of REC_N (0), UB0_N (1) or UB1_N (2). -/
def State.setLevel (s : State) (src : Nat) (b : Bool) : State := s.setBit VLT_TALLY__LEVELS (2 - src) b

/-- The input acts on the REC take: REC_N, or a UB input whose function is REC. -/
def State.recInput (s : State) (src : Nat) : Bool := src == 0 || s.vlt.recCfg.ub.getD (src - 1) 0 == 1

/-- REC_PRESS (R201); the inputs are ignored in the safe state (spec/22, R418). -/
def execRecPress (src : Fin 3) (s : State) : Res :=
  if s.dev.safe then .next s else
  let s := s.setLevel src.val true
  if s.vlt.recCfg.en = false ∨ s.recInput src.val = false then .next s
  else
    match s.recTake with
    | none => .next s.recOpenTake
    | some (i, _) => .next (if s.vlt.recCfg.hold then s else s.recCloseTake i)

/-- REC_RELEASE (R201): in HOLD mode the REC take closes. -/
def execRecRelease (src : Fin 3) (s : State) : Res :=
  if s.dev.safe then .next s else
  let s := s.setLevel src.val false
  if s.vlt.recCfg.en = false ∨ s.recInput src.val = false ∨ s.vlt.recCfg.hold = false then .next s
  else
    match s.recTake with
    | none => .next s
    | some (i, _) => .next (s.recCloseTake i)

/-- UB_MARK (R201): one REC_MARK for each context of REC_CTX; REC_EN does not govern it. -/
def execUbMark (ub : Fin 2) (s : State) : Res :=
  if s.dev.safe then .next s else
  let s := s.setLevel (ub.val + 1) true
  if s.vlt.recCfg.ub.getD ub.val 0 ≠ 2 then .next s
  else
    let no := s.rn VLT_REC_TAKE
    let cs := (List.range 4).filter (fun c => bitAt s.vlt.recCfg.ctxs c)
    .next (s.logMany .vlt (cs.map (fun c => (evRecMark, ctxTarget c, s.rn (VLT_C_NEWEST_FID c), no))))

/-- REC_FAIL_FLASH_END (R202). -/
def execRecFailFlashEnd (s : State) : Res := .next (s.modVlt (fun q => { q with flash := false })).tallies

/-- TAKE_OPEN (R198, R205). -/
def execTakeOpen (p : Pkt) (s : State) : Res :=
  .next (runOp 0x0501 p s (fun s =>
    let mask := p.b 0 0 4
    if mask = 0 then (s, some (badWord 0))
    else if (List.range 4).any (fun c => bitAt mask c && !s.capturing c) then (s, some (refuse stState 0x8005))
    else
      match s.freeSlot (List.range 64) with
      | none => (s, some (refuse stNoResource 0x8004))
      | some i =>
        let vals := [p.w 4, p.w 5, p.w 6, p.w 7]
        let start := p.b 0 8 2
        let st : TakeStart := match start with
          | 0 => .next
          | 1 => .fid vals
          | 2 => .time (p.w 1) (p.w 2)
          | _ => .preroll vals
        let r := s.openTake i mask st (p.t 0 12)
        let s := r.1
        let s := s.tallies
        let es := match s.vlt.takes.toList.getD i none with
          | some t => t.ctx.toList
          | none => []
        let res := [s.vlt.takeNo, i] ++ (List.range 4).map (fun c => (es.getD c {}).first)
        (s, some (match r.2 with
          | none => ok res
          | some c => ⟨stAdj, if start = 2 then 1 else 4 + c, res⟩))))

/-- The slot of a take number. -/
def State.takeSlot (s : State) (no : Nat) : Option Nat := (s.takesUsed.find? (fun t => t.2.no == no)).map (·.1)

/-- TAKE_CLOSE (R199, R205). -/
def execTakeClose (p : Pkt) (s : State) : Res :=
  .next (runOp 0x0502 p s (fun s =>
    let s := s.vaultUse
    match s.takeSlot (p.w 0) with
    | none => (s, some (refuse stBadParam 0x8009))
    | some i =>
      let s := (s.closeTake i).tallies
      let es := match s.vlt.takes.toList.getD i none with
        | some t => t.ctx.toList
        | none => []
      (s, some (ok ((List.range 4).map (fun c => (es.getD c {}).last))))))

/-- VLT_PIN (R196, R205). -/
def execVltPin (p : Pkt) (s : State) : Res :=
  .next (runOp 0x0503 p s (fun s =>
    let s := s.vaultUse
    let c := p.idx
    let first := p.w 0
    let last := p.w 1
    if serialLt last first ∨ 0x100000 ≤ serialAge last first then (s, some (badWord 1))
    else
      match (List.range 64).find? (fun i => (s.vlt.pins.toList.getD i none).isNone) with
      | none => (s, some (refuse stNoResource 0x8006))
      | some i =>
        let old := (s.oldestFid c).getD first
        let got := if serialLt first old then old else first
        let s := s.modVlt (fun q => { q with pins := q.pins.setIfInBounds i (some ⟨c, got, last, p.t 2 0⟩) })
        (s, some ⟨if got = first then stOk else stAdj, 0, [i, got]⟩)))

/-- VLT_UNPIN (R205). -/
def execVltUnpin (p : Pkt) (s : State) : Res :=
  .next (runOp 0x0504 p s (fun s =>
    let s := s.vaultUse
    let h := p.w 1
    if p.t 0 0 then
      match s.takeSlot h with
      | none => (s, some (refuse stBadParam 0x8009))
      | some i =>
        match s.vlt.takes.toList.getD i none with
        | some t =>
          if t.closed then
            (s.modVlt (fun q => { q with takes := q.takes.setIfInBounds i none }), some ok)
          else (s, some (refuse stState 0x8007))
        | none => (s, some (refuse stBadParam 0x8009))
    else if (s.vlt.pins.toList.getD h none).isNone then (s, some (refuse stBadParam 0x8009))
    else (s.modVlt (fun q => { q with pins := q.pins.setIfInBounds h none }), some ok)))

/-- VLT_QUERY_FRAME (R205). -/
def execVltQueryFrame (p : Pkt) (s : State) : Res :=
  .next (runOp 0x0505 p s (fun s =>
    let s := s.vaultUse
    let c := p.idx
    let sel := p.b 1 0 2
    let fid := match sel with
      | 0 => some (p.w 0)
      | 1 => s.oldestFid c
      | 2 => some (s.rn (VLT_C_NEWEST_FID c))
      | _ => none
    if sel = 3 then (s, some (badWord 1))
    else
      let missing := refuse stState 0x8008 [(s.oldestFid c).getD 0]
      match fid with
      | none => (s, some missing)
      | some f =>
        let e := s.idx c f
        if e.valid = false ∨ e.fid ≠ f then (s, some missing)
        else
          let nos := (s.takesUsed.filter (fun t => t.2.holds c f)).map (fun t => t.2.no)
          let no := match nos with
            | [] => 0
            | a :: t => t.foldl min a
          (s, some (ok [f, e.gen, e.vsa, e.sectors, b2n e.valid + 2 * b2n e.guest + 4 * b2n e.truncated + 8 * b2n e.processed
            + 16 * b2n (s.pinned c f), no]))))

/-- REC_CONFIG (R205, R454): applies from the next press. -/
def execRecConfig (p : Pkt) (s : State) : Res :=
  .next (runOp 0x050A p s (fun s =>
    let ms := p.b 0 8 6
    if ms < 1 ∨ 50 < ms then (s, some (badWord 0))
    else if 2 < p.b 5 0 4 ∨ 2 < p.b 5 4 4 then (s, some (badWord 5))
    else if 4 < p.b 6 0 4 ∨ 4 < p.b 6 4 4 then (s, some (badWord 6))
    else
      let s0 := s
      let r : RecCfg := {
        en := p.t 0 16, hold := p.t 0 4, debounceMs := ms, ctxs := p.b 0 0 4
        preroll := [p.b 1 0 16, p.b 2 0 16, p.b 3 0 16, p.b 4 0 16], ub := [p.b 5 0 4, p.b 5 4 4]
        tally := [p.b 6 0 4, p.b 6 4 4] }
      let s := (s.modVlt (fun q => { q with recCfg := r })).commitSince s0
      (s.tallies, some ok)))

end Sys2Proof.Machine
end

