-- ==== Sys2Proof/Machine/Ctx.lean ====
section
/-!
DEFINITION. Contexts: the shadow sets, admission, CTX_COMMIT and the group 0x03 opcodes that change no frame
(spec/07_contexts_ladle.md, R131 to R150; checks of spec/06, R112 and spec/08, R165 to R176).
-/
namespace Sys2Proof.Machine
open Sys2Proof

/-! ### Access to block states -/

def State.cx (s : State) (c : Nat) : CtxSt := s.ctx.toList.getD c {}
def State.modCx (s : State) (c : Nat) (g : CtxSt → CtxSt) : State := { s with ctx := s.ctx.setIfInBounds c (g (s.cx c)) }
def State.pt (s : State) (p : Nat) : PortSt := s.port.toList.getD p {}
def State.modPt (s : State) (p : Nat) (g : PortSt → PortSt) : State := { s with port := s.port.setIfInBounds p (g (s.pt p)) }
def State.rw_ (s : State) (p : Nat) : RawSt := s.raw.toList.getD p {}
def State.modRw (s : State) (p : Nat) (g : RawSt → RawSt) : State := { s with raw := s.raw.setIfInBounds p (g (s.rw_ p)) }
def State.tp (s : State) (t : Nat) : TapSt := s.tap.toList.getD t {}
def State.modTp (s : State) (t : Nat) (g : TapSt → TapSt) : State := { s with tap := s.tap.setIfInBounds t (g (s.tp t)) }

/-- STATE of a context (Table 7-2): 0 IDLE, 1 READY, 2 RUNNING, 3 PROC_STOPPED, 4 DRAINING. -/
def State.cst (s : State) (c : Nat) : Nat := s.f (CTX_C_STATE__STATE c)
def State.setCst (s : State) (c v : Nat) : State := s.setF (CTX_C_STATE__STATE c) v

/-! ### Shadow sets -/

def State.shadowCtx (s : State) (c : Nat) : CtxCfg := {
  width := s.f (CTX_C_SIZE__WIDTH c), height := s.f (CTX_C_SIZE__HEIGHT c), budgetUs := s.f (CTX_C_BUDGET__LAT_BUDGET_US c)
  frameNs := s.rn (CTX_C_FRAME_NS c), rawSrc := (s.cx c).rawSrc }

def State.shadowRaw (s : State) (p : Nat) : RawCfg :=
  let q := s.rw_ p
  let r3 := fun (g : Nat → Fld) => (List.range 3).map (fun r => s.f (g r))
  { fmt := s.f (RAW_P_CFG__FMT p), cfa := s.f (RAW_P_CFG__CFA p), phase := s.f (RAW_P_CFG__CFA_PHASE p)
    readouts := s.f (RAW_P_CFG__READOUTS p), lanes := s.f (RAW_P_CFG__LANES p), lineNs := s.f (RAW_P_LINE_NS__LINE_NS_MIN p)
    ghostEn := s.on (RAW_P_GHOST__GHOST_EN p), ghostRef := s.f (RAW_P_GHOST__GHOST_REF p), lag := s.f (RAW_P_GHOST__MERGE_LAG p)
    ghostThr := s.f (RAW_P_GHOST__GHOST_THR p), noise := s.f (RAW_P_NOISE_FLOOR__NOISE_FLOOR p)
    blackAdj := s.f (RAW_P_BLACK_ADJ__BLACK_ADJ p), dynEn := s.on (RAW_P_CFG__DYN_EN p), dynAbs := s.f (RAW_P_DYN_ABS__DYN_ABS p)
    dynRel := s.f (RAW_P_DYN_REL__DYN_REL p), gain := r3 (RAW_P_GAIN__GAIN p), knee := r3 (RAW_P_KNEE__KNEE p)
    sat := r3 (RAW_P_SAT__SAT p), weight := r3 (RAW_P_WEIGHT__WEIGHT p), ratio := s.f (RAW_P_PRESS_RC__RATIO p)
    eMin := s.f (RAW_P_PRESS_RC__E_MIN p), eMax := s.f (RAW_P_PRESS_RC__E_MAX p), applyTag := s.rn (RAW_P_APPLY_TAG p)
    lin := q.lin, black := q.black, defects := q.defects }

def State.shadowClr (s : State) (c : Nat) : ClrCfg := {
  wspace := s.f (CLR_C_CFG__WSPACE c), fcsEn := s.on (CLR_C_CFG__FCS_EN c), shadeEn := s.on (CLR_C_CFG__SHADE_EN c)
  wb := [s.f (CLR_C_WB01__WB0 c), s.f (CLR_C_WB01__WB1 c), s.f (CLR_C_WB23__WB2 c), s.f (CLR_C_WB23__WB3 c)]
  dmEps := s.f (CLR_C_DM_EPS__DM_EPS c), fcsKnee := s.f (CLR_C_FCS_KNEE__FCS_KNEE c), lumaKr := s.f (CLR_C_LUMA_K__LUMA_KR c)
  lumaKb := s.f (CLR_C_LUMA_K__LUMA_KB c), cm := (List.range 9).map (fun k => s.f (CLR_C_CM__COEF c k))
  off := (List.range 3).map (fun k => s.f (CLR_C_OFF__OFF c k)), ws := (List.range 9).map (fun k => s.f (CLR_C_WS__COEF c k))
  grid := (s.cx c).clrGrid }

def State.shadowTap (s : State) (t : Nat) : TapCfg :=
  let q := s.tp t
  { engine := t, enable := q.enable, x0 := s.f (TAP_T_CROP0__X0 t), y0 := s.f (TAP_T_CROP0__Y0 t), cw := s.f (TAP_T_CROP1__CW t)
    ch := s.f (TAP_T_CROP1__CH t), ow := s.f (TAP_T_OUT__OW t), oh := s.f (TAP_T_OUT__OH t), decim := s.f (TAP_T_FMT__DECIM t)
    levels := s.f (TAP_T_FMT__LEVELS t), transfer := s.f (TAP_T_FMT__TRANSFER t), range := s.f (TAP_T_FMT__RANGE t)
    matrix := s.f (TAP_T_FMT__MATRIX t), pack := s.f (TAP_T_FMT__PACK t), expGain := s.f (TAP_T_EXP__EXP_GAIN t)
    base := s.f (TAP_T_BUF_LO__BASE_LO t) * 0x1000 + s.rn (TAP_T_BUF_HI t) * 0x100000000
    stride := s.f (TAP_T_BUF_CFG__STRIDE t) * 0x1000, nbuf := s.f (TAP_T_BUF_CFG__NBUF t), shaper := q.shaper, lut3 := q.lut3
    outLut := q.outLut, hScale := q.hScale, vScale := q.vScale }

/-- The engines a context owns (R164). -/
def State.ownedTaps (s : State) (c : Nat) : List Nat := (List.range 10).filter (fun t => s.f (TAP_T_OWNER__CTX t) == c)

/-! ### Admission -/

/-- P of R139. -/
def State.lanesP (s : State) : Nat := s.f CLR_LANES__AVAIL
/-- The stripe charge S (R139). -/
def State.charge (s : State) (w : Nat) : Nat := 64 * ceilDiv w s.lanesP + 256
/-- (S + k) × 2 ÷ 3 ns, rounded up. -/
def cyclesNs (n : Nat) : Nat := ceilDiv (n * 2) 3

/-- The load of a configuration (R141). -/
def State.loadOf (s : State) (g : CtxCfg) : Nat :=
  ceilDiv (1000 * ceilDiv g.height 64 * (s.charge g.width + 1024) * 2) (3 * g.frameNs)

/-- The image latest bound, or live (R135). -/
def State.liveImage (s : State) (c : Nat) : Option Image :=
  match (s.cx c).bound.getLast? with
  | some i => some i
  | none => (s.cx c).live

/-- Live and pending load of a context. -/
def State.liveLoad (s : State) (c : Nat) : Nat := match s.liveImage c with | some i => s.loadOf i.cfg | none => 0
def State.pendLoad (s : State) (c : Nat) : Nat := match (s.cx c).pending with | some i => s.loadOf i.cfg | none => 0

/-- The ESSENTIAL sum of R141 with context `c` at load `own`, counted when `mine`. -/
def State.essSum (s : State) (c own : Nat) (mine : Bool) : Nat :=
  ((List.range 6).map (fun d =>
    if d = c then (if mine then own else 0)
    else if s.essential d ∧ s.cst d ≠ 0 then max (s.liveLoad d) (s.pendLoad d) else 0)).sum

/-- The width a port's required rate uses (R112): the loaded profile's, else the context's. -/
def State.portWidth (s : State) (p : Nat) : Nat :=
  match (s.pt p).profile with
  | some f => f.width
  | none => s.f (CTX_C_SIZE__WIDTH p)

/-- a ÷ b ≤ the sum of other fractions: Σ num ÷ den ≤ lanes × 3 ÷ 2, in integers. -/
def rateFits (l : List (Nat × Nat)) (lanes : Nat) : Bool :=
  let den := l.foldl (fun d q => d * q.2) 1
  let num := (l.map (fun q => q.1 * (den / q.2))).sum
  decide (2 * num ≤ 3 * lanes * den)

/-- The replay load that playback context `c` at size `g` puts on its RAW_SRC, as a fraction (R148). -/
def replayRate (g : CtxCfg) (readouts : Nat) : Nat × Nat := (g.width * readouts * ceilDiv g.height 64 * 64, g.frameNs)

/-- A playback source gives SENSOR frames, which the replay path of port RAW_SRC takes (R148). -/
def State.sensorSource (s : State) (src : Option PlaySource) : Bool :=
  match src with
  | none => false
  | some q => !q.decoder && (match s.rec? q.ctx q.firstFid with | some r => r.fmt == 3 | none => (s.rw_ q.ctx).live.fmt == 3)

/-- The replay load of playback context `c` on port `p` with its image in use, if any. -/
def State.replayOn (s : State) (p c : Nat) (readouts : Nat) : Option (Nat × Nat) :=
  match s.liveImage c with
  | some i => if i.cfg.rawSrc = p ∧ s.sensorSource (s.cx c).source = true then some (replayRate i.cfg readouts) else none
  | none => none

/-- R112 for port `p` with RAW settings `r`; playback context `c` counts at size `g` where one is named. -/
def State.r112 (s : State) (p : Nat) (r : RawCfg) (extra : Option (Nat × CtxCfg)) : Bool :=
  let lanes := ((List.range 4).map (fun q => if q = p then r.lanes else max (s.f (RAW_P_CFG__LANES q)) (s.rw_ q).live.lanes)).sum
  let own := (s.portWidth p * r.readouts * (if r.fmt = 3 then 2 else 1), r.lineNs)
  let reps := [4, 5].filterMap (fun c =>
    match extra with
    | some (d, g) => if d = c then some (replayRate g r.readouts) else s.replayOn p c r.readouts
    | none => s.replayOn p c r.readouts)
  decide (lanes ≤ s.f RAW_LANES__AVAIL) && rateFits (own :: reps.filter (fun q => q.2 != 0)) r.lanes

/-! ### Commit checks -/

/-- R142's minimum holds. -/
def State.budgetOk (s : State) (c : Nat) (g : CtxCfg) : Bool :=
  let t := if c < 4 then 64 * s.f (RAW_P_LINE_NS__LINE_NS_MIN c)
    else if ceilDiv g.height 64 = 0 then Config.divByZero g.frameNs else g.frameNs / ceilDiv g.height 64
  decide (3 * t + (s.charge g.width + 2048) * 2 ≤ 3000 * g.budgetUs)

/-- R165. -/
def tapGeometry (g : CtxCfg) (t : TapCfg) : Bool :=
  decide (t.x0 + t.cw ≤ g.width) && decide (t.y0 + t.ch ≤ g.height) && decide (t.ow ≤ t.cw) && decide (t.cw ≤ 8 * t.ow)
    && decide (t.oh ≤ t.ch) && decide (t.ch ≤ 8 * t.oh) && decide (64 ≤ t.ow) && decide (64 ≤ t.oh) && t.ow % 2 == 0
    && t.oh % 2 == 0

/-- The checks of one tap (R165, R174, R176, R167): status and DETAIL. -/
def State.tapCheck (s : State) (g : CtxCfg) (t : TapCfg) : Option (Nat × Nat) :=
  if tapGeometry g t = false then some (stBadParam, 0x8006)
  else if 8192 < t.ow then some (stLinebuf, 0x8002)
  else if packAllowed t.engine t.pack = false then some (stBadParam, 0x8007)
  else if t.stride < packSize t ∨ s.wBytes < t.base + t.nbuf * t.stride then some (stBadParam, 0x8009)
  else if 4096 < tapDemand t g.width s.lanesP then some (stBandwidth, 0x8003)
  else none

/-- The first tap check that fails, then the sum of R167. -/
def State.tapChecks (s : State) (g : CtxCfg) (ts : List TapCfg) : Option (Nat × Nat) :=
  let on := ts.filter (·.enable)
  match on.findSome? (s.tapCheck g) with
  | some e => some e
  | none => if 24576 < (on.map (fun t => tapDemand t g.width s.lanesP)).sum then some (stBandwidth, 0x8004) else none

/-- Another block's check failed (R150, DETAIL 0x8008). -/
def otherBlock (st group detail : Nat) : Outc := ⟨st, 0x8008, [group, detail]⟩

/-- The checks of R134, in order; none when all pass. -/
def State.commitCheck (s : State) (c : Nat) : Option Outc :=
  let g := s.shadowCtx c
  let r := s.shadowRaw c
  let src := match (s.cx c).nextSource with
    | some q => some q
    | none => (s.cx c).source
  let prof := if c < 4 then (match (s.pt c).profile with
      | none => some (refuse stState 0x8005)
      | some f => if f.width = g.width ∧ f.height = g.height then none else some (refuse stBadParam 0x8006))
    else none
  match prof with
  | some o => some o
  | none =>
    if s.budgetOk c g = false then some (refuse stBadParam 0x8001)
    else if 4 ≤ (s.cx c).bound.length ∧ (s.cx c).pending.isNone then some (refuse stNoResource 0x8003)
    else if s.essential c ∧ 1000 < s.essSum c (max (s.loadOf g) (s.liveLoad c)) true then some (refuse stBandwidth 0x8002)
    else if 4 ≤ c ∧ s.sensorSource src ∧ s.r112 g.rawSrc (s.rw_ g.rawSrc).live (some (c, g)) = false then
      some (refuse stBandwidth 0x8009)
    else if c < 4 ∧ s.r112 c r none = false then some (otherBlock stBandwidth 0x02 0x8004)
    else
      match s.tapChecks g ((s.ownedTaps c).map s.shadowTap) with
      | some (st, d) => some (otherBlock st 0x04 d)
      | none =>
        let need := if c < 4 then maxRecOf r.fmt g.width g.height r.readouts (s.vlt.emb.getD c 0) else 24
        if (s.area ⟨c, false⟩).2 < 4 * need then some (otherBlock stNoResource 0x05 0x800A) else none

/-- RAW settings `r` with the merge and ghost settings of `m` (R126). -/
def RawCfg.withMerge (r m : RawCfg) : RawCfg := { r with
  ghostEn := m.ghostEn, ghostRef := m.ghostRef, lag := m.lag, ghostThr := m.ghostThr, noise := m.noise, gain := m.gain
  knee := m.knee, sat := m.sat, weight := m.weight }

/-- CTX_COMMIT (R134, R136, R126). -/
def execCtxCommit (p : Pkt) (s : State) : Res :=
  .next (runOp 0x0301 p s (fun s =>
    let c := p.idx
    match s.commitCheck c with
    | some o => (s, some o)
    | none =>
      let q := s.cx c
      let sh := if c < 4 then s.shadowRaw c else {}
      let mark := c < 4 && (s.rw_ c).mergeMark
      let arming := mark && sh.applyTag != 0
      let carries := (mark && sh.applyTag == 0) || (match q.pending with | some i => i.carries && !mark | none => false)
      let raw := if carries || c ≥ 4 then sh else sh.withMerge (s.rw_ c).live
      let ts := (s.ownedTaps c).map s.shadowTap
      let id : W32 := if q.commitId + 1 = 0 then 1 else q.commitId + 1
      let i : Image := { id := id, cfg := s.shadowCtx c, raw := raw, clr := s.shadowClr c, taps := ts
                         fp := imageFp (s.shadowCtx c) raw (s.shadowClr c) ts, carries := carries }
      let s := if q.pending.isSome then s.raise (CTX_C_ERR__COMMIT_REPLACED c) else s
      let s := s.modCx c (fun q => { q with commitId := id, pending := some i })
      let s := if s.cst c = 0 then s.setCst c 1 else s
      let s := if c < 4 ∧ arming ∧ (s.rw_ c).armed.isSome then s.raise (RAW_P_ERR__ARM_REPLACED c) else s
      let s := if c < 4 ∧ mark then s.modRw c (fun r => { r with mergeMark := false, armed := if arming then some sh else none }) else s
      (s, some (ok [id.toNat, i.fp.toNat % 0x100000000, i.fp.toNat / 0x100000000]))))

/-- CTX_CONFIGURE (R150). -/
def execCtxConfigure (p : Pkt) (s : State) : Res :=
  .next (runOp 0x0300 p s (fun s =>
    let c := p.idx
    let inR := fun v => decide (64 ≤ v) && decide (v ≤ 16384)
    if (inR (p.b 0 0 16) && inR (p.b 0 16 16)) = false then (s, some (badWord 0))
    else if p.w 2 < 1000000 then (s, some (badWord 2))
    else (((s.wn (CTX_C_SIZE c) (p.w 0)).wn (CTX_C_BUDGET c) (p.w 1)).wn (CTX_C_FRAME_NS c) (p.w 2), some ok)))

/-- CTX_SET_POLICY (R141, R150). -/
def execCtxSetPolicy (p : Pkt) (s : State) : Res :=
  .next (runOp 0x0304 p s (fun s =>
    let c := p.idx
    let own := max (s.liveLoad c) (s.pendLoad c)
    if p.t 0 0 ∧ s.cst c ≠ 0 ∧ 1000 < s.essSum c own true then (s, some (refuse stBandwidth 0x8002))
    else ((s.setB (CTX_C_POLICY__ESSENTIAL c) (p.t 0 0)).setF (CTX_C_POLICY__PRIO c) (p.b 0 8 3), some ok)))

/-! ### The head of a context (R137 to R140) -/

/-- Stripes of a frame. -/
def ProcFrame.n (f : ProcFrame) : Nat := ceilDiv f.height 64

/-- The source record of a playback frame, while its GEN stands. -/
def State.srcRec (s : State) (f : ProcFrame) : Option Rec :=
  match f.src with
  | some (.ring c fid gen) => match s.rec? c fid with
    | some r => if gen = some r.gen then some r else none
    | none => none
  | _ => none

/-- The lower stripe bound by landing: how many stripes have landed, and whether no more will. -/
def State.landedOf (s : State) (f : ProcFrame) : Nat × Bool :=
  match f.src with
  | none => (f.landed.length, f.closed)
  | some (.ring _ _ none) => (0, false)
  | some (.ring _ _ (some _)) => match s.srcRec f with
    | some r => (r.payload.length, !r.isOpen)
    | none => (f.n, true)
  | some (.decoder _) => (f.landed.length, f.closed)

/-- Complete stripes of a frame: all, or those landed once it is TRUNCATED (R137, R145). -/
def State.completeOf (s : State) (f : ProcFrame) : Nat :=
  let l := s.landedOf f
  if l.2 then min f.n l.1 else f.n

/-- R137: stripe `i` of a frame is ready. -/
def State.ready (s : State) (f : ProcFrame) (i : Nat) : Bool :=
  let l := s.landedOf f
  decide (i < l.1) && (decide (i + 1 < l.1) || decide (i + 1 = f.n) || l.2)

/-- The landing time of stripe `i`, and its deadline (R138, R147). -/
def ProcFrame.deadline (f : ProcFrame) (i : Nat) : Nat :=
  let b := 1000 * f.budgetUs
  match f.src with
  | none => (f.landed.getD i 0 + b) % 0x100000000
  | some _ => (f.startNs + (i + 1) * f.frameNs / f.n + b) % 0x100000000

/-- The head of a context (R140): its oldest frame and that frame's lowest unprocessed stripe. -/
def State.head (s : State) (c : Nat) : Option (ProcFrame × Nat) :=
  ((s.cx c).frames.find? (fun f => !f.procStop)).map (fun f => (f, f.started))

/-- The head is ready and may start. -/
def State.headReady (s : State) (c : Nat) : Bool :=
  match s.head c with
  | some (f, i) => decide (i < s.completeOf f) && s.ready f i
  | none => false

/-- HEAD_FID and HEAD_POS. -/
def State.headFid (s : State) (c : Nat) : Nat := match s.head c with | some (f, _) => f.fid | none => 0
def State.headPos (s : State) (c : Nat) : Nat :=
  match s.head c with
  | some (_, i) => i % 1024 + 1024 * b2n (s.headReady c)
  | none => 0

/-- CTX_Cc_STATE as read: BOUND, PENDING, STATE. -/
def State.ctxStateWord (s : State) (c : Nat) : Nat :=
  s.cst c + 256 * b2n (s.cx c).pending.isSome + 4096 * (s.cx c).bound.length

/-- CTX_STATUS (R150). -/
def execCtxStatus (p : Pkt) (s : State) : Res :=
  .next (runOp 0x0306 p s (fun s =>
    let c := p.idx
    let fp := (s.ctxFp c).toNat
    (s, some (ok [s.ctxStateWord c, s.rn (CTX_C_POLICY c), s.headFid c, s.headPos c, s.rn (CTX_C_COMMIT_ID c)
      , fp % 0x100000000, fp / 0x100000000, s.rn (CTX_C_PROC_CNT c), s.rn (CTX_C_SKIP_CNT c), s.rn (CTX_C_LATE_CNT c)
      , s.rn (CTX_C_MAX_LATE c), s.liveLoad c]))))

end Sys2Proof.Machine
end

