-- ==== Sys2Proof/Machine/Budget.lean ====
section
/-!
DEFINITION. The budget scheduler's rules that other blocks use: the B queue and admission (spec/20, R391, R394), the
degrade ladder (R392) and its effect on streams (spec/12, R263).
-/
namespace Sys2Proof.Machine
open Sys2Proof

/-- Change PWR's inner state. -/
def State.modPwr (s : State) (g : PwrSt → PwrSt) : State := { s with pwr := g s.pwr }
/-- An encode stream's inner state. -/
def State.es (s : State) (i : Nat) : EncSt := s.cdc.enc.toList.getD i {}
def State.modEs (s : State) (i : Nat) (g : EncSt → EncSt) : State :=
  { s with cdc := { s.cdc with enc := s.cdc.enc.setIfInBounds i (g (s.es i)) } }
/-- A composer's inner state. -/
def State.cmpU (s : State) (n : Nat) : CmpSt := s.cmp.unit.toList.getD n {}
def State.modCmp (s : State) (n : Nat) (g : CmpSt → CmpSt) : State :=
  { s with cmp := { s.cmp with unit := s.cmp.unit.setIfInBounds n (g (s.cmpU n)) } }

/-! ### Admission (R394) -/

/-- P_COST in mW and BW_COST in GB/s (Table 20-7). -/
def BJob.cost : BJob → Nat × Nat
  | .vq _ _ => (3000, 32)
  | .dfl _ => (2000, 12)
  | .dec _ => (4000, 10)
  | .test _ => (5000, 40)
  | .stage _ => (500, 1)

/-- SUSTAIN of the band in force, in bytes per ms (Table 19-2). -/
def State.sustain (s : State) : Nat :=
  let b := s.f THM_STAT__BAND
  let big := if b ≤ 2 then 513200000 else if b = 3 then 491400000 else 453200000
  let small := if b ≤ 2 then 256600000 else if b = 3 then 245700000 else 226600000
  if s.dev.variant.big then big else small

/-- h of R391, signed. -/
def State.headroom (s : State) : Int := sext 32 (s.rn PWR_HEADROOM)

/-- A job of these costs may be admitted now. -/
def State.admits (s : State) (j : BJob) : Bool :=
  s.f PWR_STAT__DEG_LEVEL == 0 && s.f THM_STAT__BAND != 5 && decide ((j.cost.1 : Int) ≤ s.headroom)
    && decide (j.cost.2 * 1000000 + s.pwr.bw ≤ s.sustain)

/-- Admit a job: its costs count from now. -/
def State.letIn (s : State) (j : BJob) : State :=
  let s := s.wn PWR_HEADROOM (ofInt 32 (s.headroom - j.cost.1))
  let s := s.bumpEvt .pwr PWR_ADMIT_CNT
  s.modPwr (fun p => { p with
    admitted := p.admitted ++ [j], recent := p.recent ++ [(0, j.cost.1, j.cost.2)], bw := p.bw + j.cost.2 * 1000000 })

/-- Admit from the head of the queue until a job does not fit; at most `k`. -/
def State.admitHead : Nat → State → State
  | 0, s => s
  | k + 1, s =>
    match s.pwr.queue with
    | [] => s
    | j :: t => if s.admits j then State.admitHead k ((s.modPwr (fun p => { p with queue := t })).letIn j) else s

/-- A job arrives: it is tried at once when the queue is empty, else it waits. -/
def State.arrive (s : State) (j : BJob) : State :=
  if s.pwr.queue.isEmpty ∧ s.admits j then s.letIn j else s.modPwr (fun p => { p with queue := p.queue ++ [j] })

/-- The job has been admitted and has not begun. -/
def State.isAdmitted (s : State) (j : BJob) : Bool := s.pwr.admitted.contains j
/-- The job begins, or is withdrawn. -/
def State.leaveB (s : State) (j : BJob) : State :=
  s.modPwr (fun p => { p with queue := p.queue.erase j, admitted := p.admitted.erase j })

/-- A waiting job ends THERMAL_DEFERRED (R394). -/
def State.deferB (s : State) (j : BJob) : State := (s.leaveB j).bumpStat PWR_DEFER_CNT

/-! ### The ladder (R392, Table 20-6) -/

/-- STATE of an encode stream. -/
def State.encState (s : State) (i : Nat) : Nat := s.f (CDC_S_STATE__STATE i)
/-- DEG_ORDER. -/
def EncSt.degOrder (e : EncSt) : Nat := bitsAt (e.words.getD 1 0) 24 4

/-- A vision tap is enabled in a live image. -/
def State.visionLive (s : State) : Bool :=
  [8, 9].any (fun t => match (s.tp t).live with | some c => c.enable | none => false)

/-- A live write-back that is not ONESHOT. -/
def State.wbLive (s : State) : Bool :=
  (List.range 4).any (fun n => match (s.cmpU n).live with | some c => c.wb.en && !c.wb.oneshot | none => false)

/-- First step of DEG_ORDER `g`. -/
def degStep (g : Nat) : Nat := 5 + 3 * (15 - g)

/-- Step `k` of the ladder has a member. -/
def State.hasMember (s : State) (k : Nat) : Bool :=
  if k = 1 ∨ k = 3 then s.visionLive
  else if k = 2 ∨ k = 4 then s.wbLive
  else (List.range 16).any (fun i => s.encState i != 0 && decide (degStep (s.es i).degOrder ≤ k)
    && decide (k ≤ degStep (s.es i).degOrder + 2))

/-- The next step above `l` with a member, the next below it or 0, and the highest. -/
def State.stepUp (s : State) (l : Nat) : Option Nat := ((List.range 53).drop (l + 1)).find? s.hasMember
def State.stepDown (s : State) (l : Nat) : Nat :=
  (((List.range 53).take l).drop 1).reverse.find? s.hasMember |>.getD 0
def State.stepTop (s : State) : Nat := ((List.range 53).drop 1).reverse.find? s.hasMember |>.getD 0

/-- Degrade level of a stream of DEG_ORDER `g` at DEG_LEVEL `l` (R263). -/
def degOf (g l : Nat) : Nat :=
  let f := degStep g
  if l < f then 0 else min 3 (l - f + 1)

/-- Give stream `i` the level that the steps in force state; a return from D3 is noted. -/
def State.setDeg (s : State) (i : Nat) : State :=
  let new := degOf (s.es i).degOrder (s.f PWR_STAT__DEG_LEVEL)
  let old := s.f (CDC_S_STATE__DEG i)
  let s := s.setF (CDC_S_STATE__DEG i) new
  if old = 3 ∧ new < 3 then s.modEs i (fun e => { e with resume := true }) else s

/-- Move the ladder to step `l` (R392). -/
def State.takeStep (s : State) (l : Nat) : State :=
  let old := s.f PWR_STAT__DEG_LEVEL
  let s := (s.setF PWR_STAT__DEG_LEVEL l).bumpEvt .pwr PWR_STEP_CNT
  let s := s.log .pwr evPwrDegrade 0xFFFF old l
  let s := s.pendIf PWR_IRQ__PEND 0 (s.on PWR_IRQ__DEG) 33
  let s := s.modPwr (fun p => { p with
    sinceStep := 0
    tapTurn := if old = 0 then [0, 0] else p.tapTurn
    wbTurn := if old < 2 then [0, 0, 0, 0] else p.wbTurn })
  (List.range 16).foldl (fun s i => if s.encState i = 0 then s else s.setDeg i) s

end Sys2Proof.Machine
end

