-- ==== Sys2Proof/Machine/Encoder.lean ====
section
/-!
DEFINITION. Encoding: pool buffers and marks, slots, picture types, rate control and emission units
(spec/12_video_encoder.md, R246 to R263; spec/13, R272 to R274).
-/
namespace Sys2Proof.Machine
open Sys2Proof

/-- The TARGET value of a stream (Table 2-2). -/
def streamTarget (i : Nat) : Nat := 0x4000 + i

/-! ### The reference pool (R272 to R274) -/

def State.poolCount (s : State) : Nat := min 64 (s.f CDC_POOL_CFG__COUNT)
def State.poolStride (s : State) : Nat := s.f CDC_POOL_CFG__STRIDE * 4096
/-- DPA of a pool buffer. -/
def State.poolAddr (s : State) (b : Nat) : Nat :=
  s.f CDC_POOL_BASE_LO__BASE_LO * 0x1000 + s.rn CDC_POOL_BASE_HI * 0x100000000 + b * s.poolStride
def State.marks (s : State) (b : Nat) : Nat := s.f (CDC_POOL_B_MARK__MARKS b)
def State.setMark (s : State) (b i : Nat) (v : Bool) : State := s.setBit (CDC_POOL_B_MARK__MARKS b) i v
/-- FREE buffers, lowest first. -/
def State.freeBufs (s : State) : List Nat := (List.range s.poolCount).filter (fun b => s.marks b == 0)
/-- Clear mark `i` of every buffer. -/
def State.clearMarks (s : State) (i : Nat) : State :=
  (List.range 64).foldl (fun s b => if bitAt (s.marks b) i then s.setMark b i false else s) s

/-! ### Parameters of a stream (Table 12-5) -/

def EncSt.b (e : EncSt) (i lo w : Nat) : Nat := bitsAt (e.words.getD i 0) lo w
def EncSt.ctx (e : EncSt) : Nat := e.b 0 0 3
def EncSt.tap (e : EncSt) : Nat := e.b 0 4 2
def EncSt.profile (e : EncSt) : Nat := e.b 0 8 2
def EncSt.tier (e : EncSt) : Nat := e.b 0 12 1
def EncSt.level (e : EncSt) : Nat := e.b 0 16 8
def EncSt.irapPeriod (e : EncSt) : Nat := e.b 1 0 16
def EncSt.irapIdr (e : EncSt) : Bool := e.b 1 16 1 == 0
def EncSt.numRef (e : EncSt) : Nat := e.b 1 17 2
def EncSt.hashSei (e : EncSt) : Bool := e.b 1 20 1 == 1
def EncSt.infoSei (e : EncSt) : Bool := e.b 1 22 1 == 1
def EncSt.rcMode (e : EncSt) : Nat := e.b 2 0 2
def EncSt.qpMin (e : EncSt) : Nat := e.b 2 8 6
def EncSt.qpMax (e : EncSt) : Nat := e.b 2 16 6
def EncSt.qpInit (e : EncSt) : Nat := e.b 2 24 6
def EncSt.iqpDelta (e : EncSt) : Int := sext 8 (e.b 3 0 8)
def EncSt.cqpP (e : EncSt) : Nat := e.b 3 8 6
/-- Search range in luma samples: ±32, ±64, ±128 or ±256 (Table 12-5). -/
def EncSt.search (e : EncSt) : Nat := 32 * 2 ^ e.b 3 16 2
def EncSt.hostOn (e : EncSt) : Bool := e.b 7 0 1 == 1 && !e.hostOff
def EncSt.strOn (e : EncSt) : Bool := e.b 7 1 1 == 1
def EncSt.strFiller (e : EncSt) : Bool := e.b 7 2 1 == 1
def EncSt.forceOnLoss (e : EncSt) : Bool := e.b 7 3 1 == 1
def EncSt.strBacklog (e : EncSt) : Nat := e.b 7 8 4 + 1
def EncSt.dataBase (e : EncSt) : Nat := e.b 8 0 32 + e.b 9 0 32 * 0x100000000
def EncSt.descBase (e : EncSt) : Nat := e.b 10 0 32 + e.b 11 0 32 * 0x100000000
def EncSt.dlog (e : EncSt) : Nat := e.b 12 0 5
def EncSt.qlog (e : EncSt) : Nat := e.b 12 8 5
def EncSt.ringWork (e : EncSt) : Bool := e.b 12 16 1 == 1
def EncSt.synBase (e : EncSt) : Nat := e.b 13 0 32 + e.b 14 0 32 * 0x100000000
def EncSt.synBytes (e : EncSt) : Nat := e.b 15 0 16 * 0x10000
def EncSt.spoolBytes (e : EncSt) : Nat := e.b 15 16 16 * 0x10000

/-- Coded width and height: the next multiples of 8 (R248). -/
def EncSt.codedW (e : EncSt) : Nat := ceilDiv e.ow 8 * 8
def EncSt.codedH (e : EncSt) : Nat := ceilDiv e.oh 8 * 8
/-- An HRD is signalled: CBR and VBR (R250). -/
def EncSt.hrd (e : EncSt) : Bool := e.rcMode != 0

/-- CTUs of a row, and CTU rows. -/
def EncSt.ctuW (e : EncSt) : Nat := ceilDiv e.ow 64
def EncSt.rowsN (e : EncSt) : Nat := ceilDiv e.oh 64

/-- Pixel engine load in Mpix/s (R252). -/
def EncSt.load (e : EncSt) : Nat := ceilDiv (e.ow * e.oh * 1000) e.tp

/-- Load of created streams apart from `i`, and the decode reservations (R252). -/
def State.encMpix (s : State) (i : Option Nat) : Nat :=
  ((List.range 16).map (fun k => if s.encState k = 0 ∨ i = some k then 0 else (s.es k).load)).sum
def State.decMpix (s : State) : Nat := (s.cdc.dec.toList.map (fun d => if d.open_ then d.mpix else 0)).sum

/-- D and Bn of R257 at a bit rate in kbit/s. -/
def EncSt.perSlot (e : EncSt) (kbps : Nat) : Nat := kbps * 1000 * e.tp / 1000000000
def EncSt.cpbBits (e : EncSt) : Nat := e.cpb * 1000
/-- TGT_BR, which CBR takes as MAX_BR (R257). -/
def EncSt.target (e : EncSt) : Nat := if e.rcMode = 1 then e.maxBr else e.tgtBr
/-- Ra of R257. -/
def EncSt.ra (e : EncSt) (mb : Nat) : Nat := 512 * e.rowsN + e.ctuW * e.rowsN * mb

/-- Change the state of stream `i`, and report causes of CDC_Ss_IRQ (R264). -/
def State.encIrq (s : State) (i cause : Nat) : State :=
  s.pendIf (CDC_S_IRQ__PEND i) 0 (s.bit (CDC_S_IRQ__EN i) cause) (34 + i)
/-- Set an ERR bit. -/
def State.encErr (s : State) (i : Nat) (x : Nat → Fld) : State := (s.raise (x i)).encIrq i 2

/-- Ask for an IRAP (R255). -/
def State.askIrap (s : State) (i : Nat) : State :=
  (s.modEs i (fun e => { e with irapReq := true })).raise (CDC_S_STATE__IRAP_PEND i)

/-! ### Slots (R251, R253, R254) -/

/-- Missed slots at the front leave the queue while no picture is in the engines: V drains (R257). -/
def EncSt.settle (e : EncSt) : Nat → EncSt
  | 0 => e
  | k + 1 =>
    match e.pic, e.queue with
    | none, ⟨_, none⟩ :: t => EncSt.settle { e with queue := t, v := max 0 (e.v - e.perSlot e.maxBr) } k
    | _, _ => e
def State.settleEnc (s : State) (i : Nat) : State := s.modEs i (fun e => e.settle e.queue.length)

/-- A slot of stream `i` is missed (R254). -/
def State.slotMissed (s : State) (i : Nat) : State :=
  let s := s.bumpEvt .cdc (CDC_S_SLOT_MISS_CNT i)
  let s := s.encErr i CDC_S_ERR__SRC_MISS
  s.modEs i (fun e => { e with missMark := true })

/-- Streams that code tap engine `t` of context `c` and take new slots. -/
def State.tapStreams (s : State) (c t : Nat) : List Nat :=
  (List.range 16).filter (fun i => s.encState i == 2 && (s.es i).ctx == c && (s.es i).tap + 4 == t)

/-- A tap begins a frame: a slot with a picture for each of its streams. -/
def State.encSlot (s : State) (c t : Nat) (src : EncSrc) : State :=
  (s.tapStreams c t).foldl (fun s i =>
    s.modEs i (fun e => { e with queue := e.queue ++ [⟨e.slots, some src⟩], slots := e.slots + 1 })) s

/-- A slot without a picture for each stream of the tap. -/
def State.encMiss (s : State) (c t : Nat) : State :=
  (s.tapStreams c t).foldl (fun s i =>
    let s := s.modEs i (fun e => { e with queue := e.queue ++ [⟨e.slots, none⟩], slots := e.slots + 1 })
    (s.slotMissed i).settleEnc i) s

/-- The tap has written lines of a frame, or has ended it (R253). -/
def EncSrc.upd (q : EncSrc) (fid lines : Nat) (fin : Option (Bool × BitVec 64)) : EncSrc :=
  if q.fid = fid ∧ q.ended = false then
    match fin with
    | none => { q with lines := lines }
    | some x => { q with lines := lines, ended := true, partly := x.1, fp := some x.2 }
  else q
/-- The picture in the engines has a partial source: it sets SRC_PARTIAL, once (R254). -/
def State.encPartial (s : State) (i : Nat) : State :=
  match (s.es i).pic with
  | some p =>
    if p.src.partly ∧ p.partly = false then
      (s.modEs i (fun e => { e with pic := some { p with partly := true } })).encErr i CDC_S_ERR__SRC_PARTIAL
    else s
  | none => s
/-- `fin` is given when the tap ends the frame: whether PARTIAL, and the device fingerprint at its boundary. -/
def State.encLines (s : State) (c t fid lines : Nat) (fin : Option (Bool × BitVec 64)) : State :=
  (List.range 16).foldl (fun s i =>
    if s.encState i = 0 ∨ (s.es i).ctx ≠ c ∨ (s.es i).tap + 4 ≠ t then s
    else (s.modEs i (fun e => { e with
      queue := e.queue.map (fun q => { q with src := q.src.map (fun x => x.upd fid lines fin) })
      pic := e.pic.map (fun p => { p with src := p.src.upd fid lines fin }) })).encPartial i) s

/-- Row `j` is source-ready (R253); the lines a PARTIAL frame lacks are never written (R254). -/
def EncSt.sourceReady (e : EncSt) (q : EncSrc) (j : Nat) : Bool := q.ended || decide (min e.oh (64 * j + 64) ≤ q.lines)

/-- HOLD of a coding tap's buffer by the engine (R253): a picture of it has rows that have not left the pixel engine. -/
def EncSt.holds (e : EncSt) (k : Nat) : Bool :=
  e.queue.any (fun q => match q.src with | some x => x.buf == k | none => false)
  || (match e.pic with
      | some p => p.src.buf == k && (decide (p.rows.length < e.rowsN) || p.rows.any (fun r => r.beta.isNone))
      | none => false)
def State.encHolds (s : State) (t k : Nat) : Bool :=
  (List.range 16).any (fun i => s.encState i != 0 && (s.es i).tap + 4 == t && (s.es i).holds k)

/-! ### Rate control (R257 to R262) -/

/-- What stands for a row that has not entered. -/
def noRow : EncRow := { qp := 0, qps := [], beyond := false }

/-- Bits a picture has emitted as slices up to row `k` − 1. -/
def sliceBits (x : List Byte) : Nat := 8 * (4 + x.length)
def EncRow.bits (r : EncRow) : Nat :=
  match r.slice with
  | some x => sliceBits x.1
  | none => 0
def EncPic.mb (p : EncPic) : Nat := if p.irap then 96 else 64

/-- E of R258 before row `j`. -/
def EncPic.spent (p : EncPic) (j : Nat) : Nat :=
  p.h + ((p.rows.take (j - 1)).map EncRow.bits).sum + ((p.rows.getD (j - 1) noRow).beta.getD 0)

/-- QP of row `j` ≥ 1 and whether the picture is exhausted (R258). -/
def EncSt.nextQp (e : EncSt) (p : EncPic) (j : Nat) : Nat × Bool :=
  if p.exhausted then (e.qpMax, true)
  else
    let last := p.rows.getD (j - 1) noRow
    let beta := last.beta.getD 0
    let rem := p.t - p.spent j
    if rem ≤ 0 then (e.qpMax, true)
    else
      let a := rem / ((e.rowsN - j : Nat) : Int)
      if 9 * a < 8 * (beta : Int) then (min e.qpMax (last.qp + 2), false)
      else if 4 * (beta : Int) < 3 * a then (max e.qpMin (last.qp - 1), false)
      else (last.qp, false)

/-- QP₀ of a picture (R258). -/
def EncSt.firstQp (e : EncSt) (irap : Bool) : Nat :=
  if e.rcMode = 0 then if irap then e.qpInit else e.cqpP
  else
    let q : Int := match e.prev with
      | none => e.qpInit
      | some (q, b, t) => if t < (b : Int) then (q : Int) + 2 else if 8 * (b : Int) < 7 * t then (q : Int) - 1 else q
    (clampI e.qpMin e.qpMax (if irap then q + e.iqpDelta else q)).toNat

/-- The ROI delta of a CTU: that of the lowest-numbered rectangle over it (R262). -/
def roiDelta (roi : List (Nat × Nat × Nat × Nat × Int)) (x y : Nat) : Int :=
  match roi.find? (fun r => decide (r.1 ≤ x) && decide (x < r.1 + r.2.2.1) && decide (r.2.1 ≤ y)
      && decide (y < r.2.1 + r.2.2.2.1)) with
  | some r => r.2.2.2.2
  | none => 0

/-- QP of each CTU of row `j` (R257, R259, R261). -/
def EncSt.ctuQps (e : EncSt) (p : EncPic) (j qp : Nat) : List Nat :=
  (List.range e.ctuW).map (fun x =>
    if p.exhausted then e.qpMax else (clampI e.qpMin e.qpMax ((qp : Int) + roiDelta p.roi x j)).toNat)

/-- R260 on the CTUs of row `j`, `k` of them to go: β so far, which CTUs are minimal, and whether the check has failed. Once it has, or in a
row of a P picture beyond its source (R254), every CTU is a minimal one, of at most 8 bins, or 12 in an IRAP picture. -/
def EncSt.walk (e : EncSt) (p : EncPic) (j : Nat) (x : CodeIn) (beyond : Bool) : Nat → Nat × List Bool × Bool → Nat × List Bool × Bool
  | 0, acc => acc
  | k + 1, (sofar, minis, hit) =>
    let coded := Config.ctuBins x (minis ++ [false])
    let least := min (if p.irap then 12 else 8) (Config.ctuBins x (minis ++ [true]))
    let prior := (p.rows.take (j - 1)).map EncRow.bits
    let last := if j = 0 then 0 else (p.rows.getD (j - 1) noRow).beta.getD 0
    let rest := e.ctuW * e.rowsN - (j * e.ctuW + minis.length + 1)
    let need := p.h + prior.sum + 8 * last + 8 * (sofar + coded) + 512 * (e.rowsN - j - 1) + p.mb * rest + 2048
    let hit := hit || (!beyond && e.rcMode != 0 && decide (p.l < (need : Int)))
    let mini := hit || beyond
    EncSt.walk e p j x beyond k (sofar + (if mini then least else coded), minis ++ [mini], hit)

/-- The picture is flagged OVERBUDGET for the first time (R259, R260). -/
def State.flagOver (s : State) (i : Nat) : State :=
  let s := s.encErr i CDC_S_ERR__OVERBUDGET
  let s := s.bumpStat (CDC_S_OVB_CNT i)
  if (s.es i).prevOver then s else s.log .cdc evCdcOverbudget (streamTarget i)

/-! ### NAL units (R249) -/

/-- Big-endian bytes. -/
def beBytes (n v : Nat) : List Byte := (leBytes n v).reverse

/-- Emulation prevention of H.265 7.4.2 over a NAL unit's payload; `z` counts zeros before. -/
def escape : Nat → List Byte → List Byte
  | _, [] => []
  | z, b :: t =>
    if z ≥ 2 ∧ b.toNat ≤ 3 then 3 :: b :: escape (if b = 0 then 1 else 0) t
    else b :: escape (if b = 0 then z + 1 else 0) t

/-- The frame-information SEI (Table 12-7): a prefix SEI NAL unit with one user_data_unregistered message. -/
def infoSei (ctx : Nat) (q : EncSrc) (fp : BitVec 64) (commitSeq poc : Nat) : List Byte :=
  let uuid := beBytes 4 0x41F16400 ++ beBytes 4 0xC0DE5E1E ++ beBytes 4 0x9A7B0B01 ++ beBytes 4 1
  let body := beBytes 1 ctx ++ [0, 0, 0] ++ beBytes 4 q.fid ++ beBytes 4 q.tag ++ beBytes 4 q.epoch ++ beBytes 4 q.ns
    ++ beBytes 4 q.commitId ++ beBytes 8 fp.toNat ++ beBytes 4 commitSeq ++ beBytes 2 poc ++ [0, 0]
  [0x4E, 0x01] ++ escape 0 ([5, 56] ++ uuid ++ body ++ [0x80])

/-- Filler data of at least `bits` bits, start code included (R257). -/
def fillerNal (bits : Nat) : List Byte :=
  let n := max 7 (ceilDiv bits 8)
  [0x4C, 0x01] ++ List.replicate (n - 7) 0xFF ++ [0x80]

/-- An Annex B byte stream of NAL units (spec/12, before R264). -/
def annexB (l : List (List Byte)) : List Byte := l.flatMap (fun n => [0, 0, 0, 1] ++ n)
def EmUnit.bytes (u : EmUnit) : List Byte := annexB (u.nals.map (·.2))
def EmUnit.first (u : EmUnit) : Bool := bitAt u.flags 0
def EmUnit.last (u : EmUnit) : Bool := bitAt u.flags 1
def EmUnit.irap (u : EmUnit) : Bool := bitAt u.flags 2

/-! ### Host slice ring (R264, R265) -/

def State.drUsed (s : State) (i : Nat) : Nat :=
  let m := 2 ^ ((s.es i).dlog + 1)
  (s.f (CDC_S_DR_TAIL__TAIL i) + m - s.f (CDC_S_DR_HEAD__HEAD i) % m) % m
def State.ddUsed (s : State) (i : Nat) : Nat :=
  let m := 2 ^ ((s.es i).qlog + 1)
  (s.f (CDC_S_DD_TAIL__TAIL i) + m - s.f (CDC_S_DD_HEAD__HEAD i) % m) % m

/-- The unit fits the free space of both rings. -/
def State.unitFits (s : State) (i : Nat) (u : EmUnit) : Bool :=
  decide (s.drUsed i + u.bytes.length ≤ 2 ^ (s.es i).dlog) && decide (s.ddUsed i < 2 ^ (s.es i).qlog)

/-- Write to a ring's space. -/
def State.ringWrite (s : State) (work : Bool) (a : Nat) (bs : List Byte) : State :=
  if work then s.writeMem a bs else s.writeHost a bs

/-- Write a unit and its descriptor (R264, Table 12-4). -/
def State.unitOut (s : State) (i : Nat) (u : EmUnit) : State :=
  let e := s.es i
  let size := 2 ^ e.dlog
  let tail := s.f (CDC_S_DR_TAIL__TAIL i)
  let off := tail % size
  let bs := u.bytes
  let s := s.ringWrite e.ringWork (e.dataBase + off) (bs.take (size - off))
  let s := s.ringWrite e.ringWork e.dataBase (bs.drop (size - off))
  let s := s.setF (CDC_S_DR_TAIL__TAIL i) ((tail + bs.length) % (2 * size))
  let dt := s.f (CDC_S_DD_TAIL__TAIL i)
  let phase := bitAt dt e.qlog == false
  let flags := u.flags + 0x80000000 * b2n phase
  let d := leBytes 4 off ++ leBytes 4 bs.length ++ leBytes 4 u.fid ++ leBytes 2 u.row ++ leBytes 2 u.poc ++ leBytes 4 s.ns
    ++ leBytes 4 flags ++ leBytes 4 u.epoch ++ leBytes 4 u.ns
  let s := s.ringWrite e.ringWork (e.descBase + 32 * (dt % 2 ^ e.qlog)) d
  let s := s.setF (CDC_S_DD_TAIL__TAIL i) ((dt + 1) % 2 ^ (e.qlog + 1))
  let s := s.encIrq i 0
  if u.last then s.encIrq i 1 else s

/-- Room for a unit in the spool. -/
def EncSt.spoolFits (e : EncSt) (u : EmUnit) : Bool :=
  decide ((e.spool.map (fun x => x.bytes.length)).sum + u.bytes.length ≤ e.spoolBytes)

/-- A new unit for the host output (R264, R265): the first one taken after a gap carries GAP_BEFORE, and the first after a missed slot
SRC_MISS_BEFORE (R254). -/
def State.hostUnit (s : State) (i : Nat) (u : EmUnit) : State :=
  let e := s.es i
  let direct := e.spool.isEmpty && s.unitFits i u
  let fits := direct || e.spoolFits u
  if (e.gap && !(u.first && u.irap)) || !fits then
    let s := s.bumpStat (CDC_S_GAP_CNT i)
    if e.gap then s
    else
      let s := s.modEs i (fun e => { e with gap := true, gapMark := true })
      let s := s.askIrap i
      let s := s.encErr i CDC_S_ERR__HOST_GAP
      s.log .cdc evCdcHostGap (streamTarget i)
  else
    let u := { u with flags := u.flags + 64 * b2n e.gapMark + 128 * b2n e.missMark }
    let s := s.modEs i (fun e => { e with gap := false, gapMark := false, missMark := false })
    if direct then s.unitOut i u else s.modEs i (fun e => { e with spool := e.spool ++ [u] })

/-- Write spooled units that fit, at most `k` (R265). -/
def State.drainSpool (i : Nat) : Nat → State → State
  | 0, s => s
  | k + 1, s =>
    match (s.es i).spool with
    | [] => s
    | u :: t => if s.unitFits i u then State.drainSpool i k ((s.modEs i (fun e => { e with spool := t })).unitOut i u) else s

end Sys2Proof.Machine
end

