-- ==== Sys2Proof/Machine/Media.lean ====
section
/-!
DEFINITION. Media addresses (spec/19_dram_controller.md, R369), suspect rows, and lines that read poisoned (R377; spec/03, R57).
-/
namespace Sys2Proof.Machine
open Sys2Proof

/-- The media address of a DPA, after the sector remap (R369 step 1). -/
def State.mediaAddr (s : State) (dpa : Nat) : Nat :=
  match s.tst.remap.find? (fun r => r.1 == dpa / 4096) with
  | some r => r.2 * 4096 + dpa % 4096
  | none => dpa

/-- Channel and channel address of a media address (R369 steps 2 and 3). -/
def chanOf (big : Bool) (a : Nat) : Nat :=
  if big then bitsAt a 8 5 ^^^ bitsAt a 13 5 ^^^ bitsAt a 18 5 else bitsAt a 8 4 ^^^ bitsAt a 12 4 ^^^ bitsAt a 16 4
def chanAddr (big : Bool) (a : Nat) : Nat := a % 256 + 256 * (if big then a / 0x2000 else a / 0x1000)

/-- The suspect-list word of a DPA's row (DMC_SUSPECTi). -/
def State.suspectWord (s : State) (dpa : Nat) : Nat :=
  let big := s.dev.variant.big
  let a := s.mediaAddr dpa
  let c := chanAddr big a
  0x80000000 + 0x4000000 * chanOf big a + 16 * bitsAt c 15 18 + bitsAt c 11 4

/-- A row enters the suspect list, once; SUSPECT_FULL when the list has no room (R377). -/
def State.suspect (s : State) (v : Nat) : State :=
  if (List.range 32).any (fun i => s.rn (DMC_SUSPECT i) == v) then s
  else
    match (List.range 32).find? (fun i => !s.on (DMC_SUSPECT__VALID i)) with
    | some i => s.wn (DMC_SUSPECT i) v
    | none => s.raise DMC_ERR__SUSPECT_FULL

/-- A line is returned poisoned (R57, R377). -/
def State.poisonLine (s : State) (dpa : Nat) : State :=
  let s := (s.bumpStat DMC_POISON_CNT).raise DMC_ERR__POISON
  let s := s.log .dmc evMemPoison 0xFFFF (dpa % 0x100000000) (dpa / 0x100000000)
  let s := if s.cxl.poisoned.contains (dpa / 64) then s
    else { s with cxl := { s.cxl with poisoned := s.cxl.poisoned ++ [dpa / 64] } }
  s.suspect (s.suspectWord dpa)

end Sys2Proof.Machine
end

