-- ==== Sys2Proof/Machine/RawOps.lean ====
section
/-!
DEFINITION. The raw front-end's opcodes (spec/06_raw_front_end.md, R112 to R119, R128, R130; spec/10, R218).
-/
namespace Sys2Proof.Machine
open Sys2Proof

/-- An access to the vault through a buffer reference leaves its power states (spec/11, R243, R244). -/
def State.refUse (s : State) (r : BufRef) : State := if r.len ≠ 0 ∧ r.space = 1 then s.vaultUse else s

/-- The buffer has been read or written unless the packet was refused. -/
def State.refDone (s : State) (r : BufRef) (o : Option Outc) : State :=
  match o with
  | none => s.refUse r
  | some o => if o.status = stOk ∨ o.status = stAdj ∨ o.status = stHwFault then s.refUse r else s

/-- A buffer reference of a packet is one the device may use (R453); else BAD_PARAM naming its first word. -/
def State.refGuard (s : State) (r : BufRef) (word : Nat) (k : State → State × Option Outc) : State × Option Outc :=
  if s.refOk r then
    let x := k s
    (x.1.refDone r x.2, x.2)
  else (s, some (badWord word))

/-- A failed read of a buffer reference: HW_FAULT with DETAIL 0x0002 (R30, R62). -/
def readFault : Outc := refuse stHwFault 0x0002

/-- A DMA read of block `b` ended in error (R62): DMA_ERROR with the address, and an Advisory Non-Fatal Error. -/
def State.dmaError (s : State) (b : Blk) (who addr : Nat) (poisoned : Bool) : State :=
  (s.log b evDmaError 0xFFFF (addr % 0x100000000) (addr / 0x100000000) (who + 0x10000 * b2n poisoned)).aer .advisoryNonFatal

/-- The same for a read of host memory. -/
def State.hostError (s : State) (b : Blk) (h : HostRead) : State :=
  match h with
  | .failed addr poisoned => s.dmaError b 0xFFFF addr poisoned
  | .bytes _ => s

/-- The read of a buffer failed: in host memory (R62), at a poisoned line of the vault (R57), or where the reference breaks R453. -/
def State.bufError (s : State) (b : Blk) (r : BufRef) (h : HostRead) : State :=
  if r.space = 0 then s.hostError b h
  else match s.poisonedIn r.addr r.len with
    | some l => s.poisonLine (64 * l)
    | none => s.dmaError b 0xFFFF r.addr false

/-- RAW_SET_LIN (R113, R130). -/
def execRawSetLin (p : Pkt) (s : State) : Res :=
  .next (runOp 0x0200 p s (fun s => s.refGuard (p.ref 4) 4 (fun s =>
    let r := p.b 0 0 2
    if r = 3 then (s, some (badWord 0))
    else if (p.ref 4).len ≠ 16388 then (s, some (refuse stBadParam 0x8001))
    else
      match s.readRef (p.ref 4) p.buf with
      | none => (s.bufError .raw (p.ref 4) p.buf, some readFault)
      | some bs =>
        let ws := wordsOf bs
        if ws.any (fun w => decide (0x1000000 ≤ w)) then (s, some (refuse stBadParam 0x8001))
        else (s.modRw p.idx (fun q => { q with lin := q.lin.set r (some ws) }), some ok))))

/-- RAW_SET_BLACK (R114, R130). -/
def execRawSetBlack (p : Pkt) (s : State) : Res :=
  .next (runOp 0x0201 p s (fun s => s.refGuard (p.ref 4) 4 (fun s =>
    let r := p.b 0 0 2
    if r = 3 ∧ p.t 0 8 = false then (s, some (badWord 0))
    else if (p.ref 4).len ≠ 4096 then (s, some (refuse stBadParam 0x8001))
    else
      match s.readRef (p.ref 4) p.buf with
      | none => (s.bufError .raw (p.ref 4) p.buf, some readFault)
      | some bs =>
        let ws := wordsOf bs
        if ws.any (fun w => decide (0x1000000 ≤ w)) then (s, some (refuse stBadParam 0x8001))
        else
          let s := s.modRw p.idx (fun q => { q with
            black := if p.t 0 8 then List.replicate 3 (some ws) else q.black.set r (some ws) })
          (s.setF (RAW_P_BLACK_ADJ__BLACK_ADJ p.idx) (p.b 1 0 24), some ok))))

/-- RAW_SET_MERGE (R112, R115, R116, R123, R126, R130). -/
def execRawSetMerge (p : Pkt) (s : State) : Res :=
  .next (runOp 0x0202 p s (fun s =>
    let c := p.idx
    let ro := p.b 0 0 2
    if ro = 0 then (s, some (badWord 0))
    else if ro ≤ p.b 0 4 2 then (s, some (badWord 0))
    else if 64 < p.b 2 16 7 then (s, some (badWord 2))
    else
      match (List.range 3).find? (fun r => decide (p.w (10 + r) < p.w (7 + r))) with
      | some r => (s, some (badWord (7 + r)))
      | none =>
        if s.r112 c { s.shadowRaw c with readouts := ro } none = false then (s, some (refuse stBandwidth 0x8004))
        else
          let s := (s.setF (RAW_P_CFG__READOUTS c) ro).wn (RAW_P_APPLY_TAG c) (p.w 1)
          let s := s.wn (RAW_P_GHOST c) (p.b 2 0 16 + p.b 2 16 7 * 0x10000 + p.b 0 4 2 * 0x10000000 + p.b 0 8 1 * 0x80000000)
          let s := s.wn (RAW_P_NOISE_FLOOR c) (p.w 3)
          let s := (List.range 3).foldl (fun s r =>
            (((s.wn (RAW_P_GAIN c r) (p.w (4 + r))).wn (RAW_P_KNEE c r) (p.w (7 + r))).wn (RAW_P_SAT c r) (p.w (10 + r))).wn
              (RAW_P_WEIGHT c r) (p.w (13 + r))) s
          (s.modRw c (fun q => { q with mergeMark := true }), some ok)))

/-- A defect entry's column, line and kind (spec/06, before R117). -/
def defectOf (w : Nat) : Nat × Nat × Nat := (bitsAt w 0 14, bitsAt w 14 14, bitsAt w 28 4)

/-- Entries sorted by line, then column (R119). -/
def defectsSorted : List (Nat × Nat × Nat) → Bool
  | a :: b :: t => (decide (a.2.1 < b.2.1) || (a.2.1 == b.2.1 && decide (a.1 ≤ b.1))) && defectsSorted (b :: t)
  | _ => true

/-- R119: a defect map a profile of this size accepts; `d` is the same-colour step. -/
def defectsOk (width height d : Nat) (l : List (Nat × Nat × Nat)) : Bool :=
  defectsSorted l && l.all (fun e => decide (e.2.2 ≤ 2)
    && (RawFrame.defectXY d e).all (fun q => decide (q.1 < width) && decide (q.2 < height)))

/-- RAW_LOAD_DEFECTS (R117 to R119, R130). -/
def execRawLoadDefects (p : Pkt) (s : State) : Res :=
  .next (runOp 0x0203 p s (fun s => s.refGuard (p.ref 4) 4 (fun s =>
    let c := p.idx
    let n := p.b 0 0 19
    match (s.pt c).profile with
    | none => (s, some (refuse stState 0x8002))
    | some f =>
      if 262144 < n ∨ (p.ref 4).len < 4 * n then (s, some (refuse stBadParam 0x8003))
      else
        match s.readRef (p.ref 4) p.buf with
        | none => (s.bufError .raw (p.ref 4) p.buf, some readFault)
        | some bs =>
          let l := ((wordsOf bs).take n).map defectOf
          if defectsOk f.width f.height (sameStep (s.f (RAW_P_CFG__CFA c))) l = false then (s, some (refuse stBadParam 0x8003))
          else
            let s := s.modRw c (fun q => { q with defects := l })
            let s := ((s.setF (RAW_P_CFG__DYN_EN c) (p.b 1 0 1)).wn (RAW_P_DYN_ABS c) (p.w 2)).wn (RAW_P_DYN_REL c) (p.w 3)
            (s, some (ok [n])))))

/-- The refusals of RAW_SET_FORMAT in parameter order (R112, R121, R130, R218). -/
def State.formatCheck (s : State) (p : Pkt) : Option Outc :=
  let c := p.idx
  let fmt := p.b 0 0 3
  let lanes := p.b 0 16 6
  if 3 < fmt ∨ 1 < p.b 0 8 2 ∨ p.b 0 4 2 = 0 then some (badWord 0)
  else if p.b 1 0 20 = 0 then some (badWord 1)
  else if fmt ≠ 2 ∧ p.w 2 ≠ 0 then some (badWord 2)
  else if fmt ≠ 2 ∧ p.w 3 ≠ 0 then some (badWord 3)
  else if fmt = 2 ∧ (p.w 2 < 0x0100 ∨ 0x1000 < p.w 2) then some (badWord 2)
  else if fmt = 2 ∧ (p.w 3 / 0x8000 ≠ 0 ∨ p.t 3 7 = true ∨ p.b 3 0 7 = 0 ∨ 64 < p.b 3 8 7 ∨ p.b 3 8 7 < p.b 3 0 7) then some (badWord 3)
  else if lanes ≠ s.f (RAW_P_CFG__LANES c) ∧ s.on (LNK_P_CFG__EN c) then some (refuse stState 0x8005)
  else if lanes % 4 ≠ 0 ∨ lanes < 4 ∨ 32 < lanes
      ∨ s.r112 c { s.shadowRaw c with fmt := fmt, readouts := p.b 0 4 2, lanes := lanes, lineNs := p.b 1 0 20 } none = false then
    some (refuse stBandwidth 0x8004)
  else none

/-- RAW_SET_FORMAT (R112, R121, R130, R218). -/
def execRawSetFormat (p : Pkt) (s : State) : Res :=
  .next (runOp 0x0204 p s (fun s =>
    let c := p.idx
    match s.formatCheck p with
    | some o => (s, some o)
    | none =>
      let dyn := s.f (RAW_P_CFG__DYN_EN c)
      let s := ((s.wn (RAW_P_CFG c) (p.w 0)).setF (RAW_P_CFG__DYN_EN c) dyn).wn (RAW_P_LINE_NS c) (p.w 1)
      let s := if p.b 0 0 3 = 2 then
          ((s.setF (RAW_P_PRESS_RC__RATIO c) (p.w 2)).setF (RAW_P_PRESS_RC__E_MIN c) (p.b 3 0 7)).setF (RAW_P_PRESS_RC__E_MAX c) (p.b 3 8 7)
        else s
      (s, some ok)))

/-- RAW_GET_STATS (R128, R130). -/
def execRawGetStats (p : Pkt) (s : State) : Res :=
  .next (runOp 0x0205 p s (fun s => s.refGuard (p.ref 0) 0 (fun s =>
    let b := (s.rw_ p.idx).latch
    if 0 < (p.ref 0).len ∧ (p.ref 0).len < 2144 then (s, some (badWord 2))
    else (s.writeRef (p.ref 0) b.bytes, some (ok [b.fid, b.tag, b.flags, b.lastStripe.getD 0xFFFFFFFF])))))

end Sys2Proof.Machine
end

