-- ==== Sys2Proof/Machine/Streamer.lean ====
section
/-!
DEFINITION. The slice streamer (spec/12_video_encoder.md, R266 to R269) and the opcodes of encode streams (R251, R252,
R255, R262, R271).
-/
namespace Sys2Proof.Machine
open Sys2Proof

/-! ### RTP (R266 to R268) -/

/-- Bytes of a header template by TYPE (R267). -/
def tmplLen (type : Nat) : Nat :=
  match type with
  | 0 => 54
  | 1 => 58
  | 2 => 74
  | _ => 78

/-- Fragmentation units of a NAL unit, `n` bytes of it each (RFC 7798, R266); `k` bounds the count. -/
def fragments (h0 h1 n : Nat) : Nat → Bool → List Byte → List (List Byte)
  | 0, _, _ => []
  | k + 1, start, body =>
    let fin := decide (body.length ≤ n)
    let fu := b2n start * 0x80 + b2n fin * 0x40 + bitsAt h0 1 6
    let pkt := leBytes 1 (h0 % 2 + h0 / 128 * 128 + 49 * 2) ++ leBytes 1 h1 ++ leBytes 1 fu ++ body.take n
    if fin then [pkt] else pkt :: fragments h0 h1 n k false (body.drop n)

/-- RTP payloads of a NAL unit within `room` bytes each (R266). -/
def nalPayloads (room : Nat) (nal : List Byte) : List (List Byte) :=
  if nal.length ≤ room ∨ room ≤ 3 then [nal]
  else fragments (nal.getD 0 0).toNat (nal.getD 1 0).toNat (room - 3) nal.length true (nal.drop 2)

/-- Packets of a unit, each with its marker bit (R266). -/
def unitPackets (t : Tmpl) (filler : Bool) (u : EmUnit) : List (List Byte × Bool) :=
  let ps := ((u.nals.filter (fun n => filler || !n.1)).map (·.2)).flatMap (nalPayloads (t.pktMax - tmplLen t.type))
  (List.range ps.length).map (fun i => (ps.getD i [], u.last && i + 1 == ps.length))

/-- The RTP timestamp (R268). -/
def rtpTime (ofs epoch ns : Nat) : Nat := (ofs + (epoch * 0x100000000 + ns) * 9 / 100000) % 0x100000000

/-- Ones' complement sum of big-endian 16-bit words, an odd byte padded. -/
def onesSum : List Byte → Nat
  | a :: b :: t => a.toNat * 256 + b.toNat + onesSum t
  | [a] => a.toNat * 256
  | [] => 0
def foldSum (n : Nat) : Nat :=
  let a := n % 0x10000 + n / 0x10000
  let b := a % 0x10000 + a / 0x10000
  b % 0x10000 + b / 0x10000
def checksum (bs : List Byte) : Nat := 0xFFFF - foldSum (onesSum bs)

/-- Bytes of `l` from `i` replaced. -/
def patch (l : List Byte) (i : Nat) (bs : List Byte) : List Byte := l.take i ++ bs ++ l.drop (i + bs.length)

/-- A packet as sent (R267): the template with lengths, identification, checksums, marker, sequence number and
timestamp filled in. -/
def rtpFrame (t : Tmpl) (ident seq ts : Nat) (payload : List Byte) (marker : Bool) : List Byte :=
  let hl := tmplLen t.type
  let ip := if t.type % 2 = 0 then 14 else 18
  let udp := hl - 20
  let h := t.bytes.take hl
  let h := patch h (hl - 11) (leBytes 1 ((h.getD (hl - 11) 0).toNat % 128 + 128 * b2n marker))
  let h := patch (patch h (hl - 10) (beBytes 2 seq)) (hl - 8) (beBytes 4 ts)
  let ulen := 20 + payload.length
  let h := patch (patch h (udp + 4) (beBytes 2 ulen)) (udp + 6) [0, 0]
  let h := if t.type < 2 then
      let h := patch (patch (patch h (ip + 2) (beBytes 2 (20 + ulen))) (ip + 4) (beBytes 2 ident)) (ip + 10) [0, 0]
      patch h (ip + 10) (beBytes 2 (checksum ((h.drop ip).take 20)))
    else patch h (ip + 4) (beBytes 2 ulen)
  let pseudo := if t.type < 2 then (h.drop (ip + 12)).take 8 ++ [0, 17] ++ beBytes 2 ulen
    else (h.drop (ip + 8)).take 32 ++ beBytes 4 ulen ++ [0, 0, 0, 17]
  let c := checksum (pseudo ++ h.drop udp ++ payload)
  patch h (udp + 6) (beBytes 2 (if c = 0 then 0xFFFF else c)) ++ payload

/-! ### Units at the streamer (R269) -/

/-- A unit is dropped: its packets' sequence numbers are consumed. -/
def State.dropUnit (s : State) (i n : Nat) : State :=
  let e := s.es i
  let s := s.bumpStat (CDC_S_STR_DROP_CNT i)
  let s := s.modEs i (fun e => { e with seq := (e.seq + n) % 0x10000 })
  if e.dropping then s
  else
    let s := s.modEs i (fun e => { e with dropping := true })
    let s := s.encErr i CDC_S_ERR__STR_DROP
    let s := s.log .cdc evCdcStrDrop (streamTarget i)
    if e.forceOnLoss then s.askIrap i else s

/-- A new template takes effect from the next access unit, and with it its SEQ, TS_OFS and PACE_KBPS (R267 to R269). -/
def EncSt.takeTmpl (e : EncSt) : EncSt :=
  match e.newTmpl with
  | none => e
  | some (t, seq, ofs, pace) =>
    let ip := if t.type % 2 = 0 then 14 else 18
    { e with
      tmpl := some t, newTmpl := none, seq := seq.getD e.seq, tsOfs := ofs, pace := pace
      newIdent := some ((t.bytes.getD (ip + 4) 0).toNat * 256 + (t.bytes.getD (ip + 5) 0).toNat) }

/-- A new unit for the streamer. -/
def State.strUnit (s : State) (i : Nat) (u : EmUnit) : State :=
  let s := if u.first then s.modEs i EncSt.takeTmpl else s
  let e := s.es i
  match e.tmpl with
  | none => s
  | some t =>
    let ps := unitPackets t e.strFiller u
    let resume := u.first && u.irap
    if s.on NET_STAT__LINK = false ∨ e.strBacklog ≤ e.backlog.length ∨ (e.dropping = true ∧ resume = false) then
      s.dropUnit i ps.length
    else
      s.modEs i (fun e => { e with
        dropping := false, seq := (e.seq + ps.length) % 0x10000, newIdent := none
        backlog := e.backlog ++ [⟨t, e.newIdent, e.seq, rtpTime e.tsOfs u.epoch u.ns, ps⟩] })

/-- The network link goes down: waiting units are dropped (R348). -/
def State.strLinkDown (s : State) : State :=
  (List.range 16).foldl (fun s i =>
    let k := (s.es i).backlog.length
    if k = 0 then s
    else
      let s := s.modEs i (fun e => { e with backlog := [] })
      (List.range k).foldl (fun s _ => s.dropUnit i 0) s) s

/-- LAUNCH time of a transmit descriptor (spec/17, Table 17-2). -/
def TxFrame.launch (t : TxFrame) : Nat := leNat ((t.desc.drop 20).take 4) * 0x100000000 + leNat ((t.desc.drop 24).take 4)

/-- A frame of `n` bytes from TQ1 or TQ2 may not start: a TQ0 frame is ready, or its LAUNCH time would be overlapped
(spec/17, R348; preamble, SFD and FCS take 12 bytes more, log 38). -/
def State.tq0Blocks (s : State) (n : Nat) : Bool :=
  match s.net.tx.getD 0 none with
  | none => false
  | some t =>
    let rate := if s.on NET_STAT__SPEED then 25 else 10
    !t.held || decide (t.launch * rate < s.now * rate + (n + 12) * 8)

/-- The token bucket of PACE_KBPS, of depth 16 × PKT_MAX bytes, filled up to now (R269); it starts full (log 100). -/
def State.tokensNow (s : State) (e : EncSt) (pktMax : Nat) : Nat :=
  let depth := 16 * pktMax * 8000000
  match e.tokenNs with
  | none => depth
  | some t => min depth (e.tokens + e.pace * (s.now - t))

/-- The next RTP packet of a stream: its frame, its identification, and the bucket it is paced by. -/
structure Tq1Packet where
  frame : List Byte
  ident : Nat
  pace : Nat
  tokens : Nat

/-- The packet at the head of a stream's backlog, while the link is up. -/
def State.tq1Head (s : State) (i : Nat) : Option Tq1Packet :=
  match (s.es i).backlog with
  | [] => none
  | u :: _ =>
    match u.packets with
    | [] => none
    | p :: _ =>
      let e := s.es i
      let ident := u.ident.getD e.ident
      if s.on NET_STAT__LINK then
        some { frame := rtpFrame u.tmpl ident u.seq u.ts p.1 p.2, ident := ident, pace := e.pace, tokens := s.tokensNow e u.tmpl.pktMax }
      else none

/-- The pace and TQ0 let a packet of the streamer start (R269; spec/17, R348). -/
def State.tq1May (s : State) (p : Tq1Packet) : Bool :=
  !s.tq0Blocks (max 60 p.frame.length) && (p.pace == 0 || decide (p.frame.length * 8000000 ≤ p.tokens))

/-- The head packet of a stream has left. -/
def EncSt.sent (e : EncSt) (ident tokens now : Nat) : EncSt :=
  match e.backlog with
  | [] => e
  | u :: t => { e with
    ident := (ident + 1) % 0x10000
    tokens := tokens
    tokenNs := some now
    backlog := if u.packets.length ≤ 1 then t else { u with ident := none, seq := (u.seq + 1) % 0x10000, packets := u.packets.drop 1 } :: t }

/-- STREAMER_SEND (R266 to R269; spec/17, R348): the next RTP packet of a stream leaves. -/
def execStreamerSend (stream : Fin 16) (s : State) : Res :=
  let i := stream.val
  match s.tq1Head i with
  | none => .next (s.modEs i (fun e => { e with backlog := e.backlog.dropWhile (·.packets.isEmpty) }))
  | some p =>
    if s.tq1May p = false then .next s
    else
      let s := s.emit (.netFrame (p.frame ++ List.replicate (60 - p.frame.length) 0))
      let s := (s.bumpEvt .cdc (CDC_S_PKT_CNT i)).bumpEvt .net NET_TX_CNT
      .next (s.modEs i (fun e => e.sent p.ident (p.tokens - p.frame.length * 8000000) s.now))

/-- RTP_SEQ: the sequence number of the next packet to leave. -/
def EncSt.rtpSeq (e : EncSt) : Nat :=
  match e.backlog with
  | u :: _ => u.seq
  | [] => e.seq

/-! ### Creation checks (R251, R252) -/

/-- Limits of H.265 Annex A for a level: MaxLumaPs, MaxSliceSegmentsPerPicture, MaxLumaSr, MaxBR (= MaxCPB) of the Main
and of the High tier in units of 1,000 bits. PRESUMED from H.265 (log 20). -/
def levelLimits (level : Nat) : Option (Nat × Nat × Nat × Nat × Nat) :=
  match level with
  | 120 => some (2228224, 75, 66846720, 12000, 30000)
  | 123 => some (2228224, 75, 133693440, 20000, 50000)
  | 150 => some (8912896, 200, 267386880, 25000, 100000)
  | 153 => some (8912896, 200, 534773760, 40000, 160000)
  | 156 => some (8912896, 200, 1069547520, 60000, 240000)
  | 180 => some (35651584, 600, 1069547520, 60000, 240000)
  | 183 => some (35651584, 600, 2139095040, 120000, 480000)
  | 186 => some (35651584, 600, 4278190080, 240000, 800000)
  | _ => none

/-- CpbVclFactor ÷ 1,000 of the profile as a fraction: 1, and 1,667 ÷ 1,000 for Main 4:2:2 10 (log 20). -/
def profileFactor (profile : Nat) : Nat := if profile = 2 then 1667 else 1000

/-- The level and tier limits hold (R252). -/
def EncSt.levelOk (e : EncSt) : Bool :=
  match levelLimits e.level with
  | none => false
  | some (ps, seg, sr, main, high) =>
    let br := (if e.tier = 1 then high else main) * profileFactor e.profile
    decide (e.codedW * e.codedH ≤ ps) && decide (e.codedW * e.codedW ≤ 8 * ps) && decide (e.codedH * e.codedH ≤ 8 * ps)
      && decide (e.ow * e.oh * 1000000000 ≤ sr * e.tp) && decide (e.rowsN ≤ seg)
      && decide (e.maxBr * 1000 ≤ br) && decide (e.cpb * 1000 ≤ br)

/-- The bit rate and CPB suffice (R252). -/
def EncSt.rateOk (e : EncSt) : Bool :=
  e.rcMode == 0 || (decide (e.ra 96 ≤ e.perSlot e.maxBr) && decide (2 * e.perSlot e.maxBr ≤ e.cpbBits))

/-- The profile fits the tap's packing (R251). -/
def EncSt.profileOk (e : EncSt) : Bool := (e.pack == 3 && e.profile ≤ 1) || (e.pack == 2 && e.profile == 2)

/-- Syntax buffer, spool and rings are well placed (R247, R252, R264); bases are multiples of 4,096 (log 21). -/
def EncSt.placed (e : EncSt) (w : Nat) : Bool :=
  decide (2 * e.ctuW * 0x10000 ≤ e.synBytes) && e.synBase % 4096 == 0
    && decide (e.synBase + e.synBytes + e.spoolBytes ≤ w)
    && (!e.hostOn || (decide (16 ≤ e.dlog) && decide (e.dlog ≤ 30) && decide (6 ≤ e.qlog) && decide (e.qlog ≤ 16)
      && e.dataBase % 4096 == 0 && e.descBase % 4096 == 0
      && (!e.ringWork || (decide (e.dataBase + 2 ^ e.dlog ≤ w) && decide (e.descBase + 32 * 2 ^ e.qlog ≤ w)))))

/-- The configuration of engine `t` for context `c`: that of the live image, else the shadow (R251). -/
def State.tapFor (s : State) (c t : Nat) : TapCfg :=
  match s.liveImage c with
  | some i => (i.taps.find? (fun k => k.engine == t)).getD (s.shadowTap t)
  | none => s.shadowTap t
def State.frameNsOf (s : State) (c : Nat) : Nat :=
  match s.liveImage c with
  | some i => i.cfg.frameNs
  | none => s.rn (CTX_C_FRAME_NS c)

/-- The first parameter word that holds a reserved value (Table 12-5). -/
def EncSt.badField (e : EncSt) : Option Nat :=
  if 5 < e.ctx ∨ e.profile = 3 ∨ (levelLimits e.level).isNone then some 0
  else if e.numRef = 0 ∨ e.numRef = 3 then some 1
  else if e.rcMode = 3 ∨ e.qpMax < e.qpMin ∨ 51 < e.qpMax ∨ 51 < e.qpInit then some 2
  else if 51 < e.cqpP then some 3
  else none

/-- CDC_STREAM_CREATE (R247, R251, R252, R263, R270, R271). -/
def execCdcStreamCreate (p : Pkt) (s : State) : Res :=
  .next (runOp 0x0600 p s (fun s =>
    let i := p.idx
    let ws := (List.range 16).map p.w
    let e0 : EncSt := { words := ws, tgtBr := p.w 4, maxBr := p.w 5, cpb := p.w 6 }
    let t := s.tapFor e0.ctx (e0.tap + 4)
    let e : EncSt := { e0 with ow := t.ow, oh := t.oh, pack := t.pack, tp := s.frameNsOf e0.ctx * t.decim }
    let need := if e.irapPeriod = 1 then 0 else e.numRef + 1
    let mine := (List.range s.poolCount).filter (fun b => s.marks b == 0 || s.marks b == 2 ^ i)
    let feeds := (List.range 16).filter (fun k => k != i && s.encState k != 0 && (s.es k).ctx == e.ctx && (s.es k).tap == e.tap)
    match e.badField with
    | some k => (s, some (badWord k))
    | none =>
      if 2 ≤ s.encState i then (s, some (refuse stState 0x8007))
      else if e.profileOk = false then (s, some (refuse stBadParam 0x8001))
      else if e.levelOk = false then (s, some (refuse stBadParam 0x8002))
      else if 4500 < s.encMpix (some i) + s.decMpix + e.load then (s, some (refuse stBandwidth 0x8003))
      else if e.rateOk = false then (s, some (refuse stBadParam 0x8004))
      else if mine.length < need then (s, some (refuse stNoResource 0x8005))
      else if e.placed s.wBytes = false then (s, some (refuse stBadParam 0x8006))
      else if 4 ≤ feeds.length then (s, some (refuse stNoResource 0x8009))
      else
        let s0 := s
        let s := s.clearMarks i
        let s := (mine.take need).foldl (fun s b => s.setMark b i true) s
        let s := s.modEs i (fun _ => e)
        let s := s.wn (CDC_S_CFG i) (p.w 0)
        let s := s.wn (CDC_S_STATE i) 1
        let s := [CDC_S_DR_HEAD i, CDC_S_DR_TAIL i, CDC_S_DD_HEAD i, CDC_S_DD_TAIL i].foldl (fun s a => s.wn a 0) s
        let s := s.setDeg i
        (s.commitSince s0, some ok)))

/-- The stream's tap is enabled in its context's live image. -/
def State.tapLive (s : State) (e : EncSt) : Bool :=
  match s.liveImage e.ctx with
  | some i => i.taps.any (fun k => k.engine == e.tap + 4 && k.enable)
  | none => false

/-- CDC_STREAM_START (R255, R257, R271). -/
def execCdcStreamStart (p : Pkt) (s : State) : Res :=
  .next (runOp 0x0601 p s (fun s =>
    let i := p.idx
    let st := s.encState i
    if st = 2 then (s, some ok)
    else if st ≠ 1 then (s, some (refuse stState 0x8008))
    else if s.bist 2 then (s, some (refuse stState 0x8002))
    else if s.tapLive (s.es i) = false then (s, some (refuse stState 0x800B))
    else
      let s := s.modEs i (fun e => { e with
        first := true, irapReq := false, resume := false, slots := 0, lastIrap := 0, lastIdr := 0, v := 0
        prev := none, prevOver := false, queue := [], pic := none })
      let s := (s.setF (CDC_S_STATE__STATE i) 2).setF (CDC_S_STATE__IRAP_PEND i) 0
      ((s.wn (CDC_S_CPB_V i) 0).wn (CDC_S_TARGET i) 0, some ok)))

/-- STOPPED follows once no picture is in progress (R271). -/
def State.encStopped (s : State) (i : Nat) : State :=
  if s.encState i = 3 ∧ (s.es i).pic.isNone then
    let s := (s.setF (CDC_S_STATE__STATE i) 1).setF (CDC_S_STATE__ROW i) 0
    let s := s.modEs i (fun e => { e with queue := [] })
    (s.log .cdc evCdcStreamStopped (streamTarget i)).encIrq i 3
  else s

/-- CDC_STREAM_STOP (R271). -/
def execCdcStreamStop (p : Pkt) (s : State) : Res :=
  .next (runOp 0x0602 p s (fun s =>
    let i := p.idx
    let st := s.encState i
    if st = 3 then (s, some ok)
    else if st ≠ 2 then (s, some (refuse stState 0x8008))
    else
      let s := (s.setF (CDC_S_STATE__STATE i) 3).modEs i (fun e => { e with queue := [] })
      (s.encStopped i, some ok)))

/-- CDC_SET_RATE (R252, R255, R271). -/
def execCdcSetRate (p : Pkt) (s : State) : Res :=
  .next (runOp 0x0603 p s (fun s =>
    let i := p.idx
    let e := s.es i
    let e' : EncSt := { e with tgtBr := p.w 0, maxBr := p.w 1, cpb := p.w 2 }
    let change := e.maxBr ≠ p.w 1 ∨ e.cpb ≠ p.w 2
    if s.encState i = 0 then (s, some (refuse stState 0x8008))
    else if e'.levelOk = false then (s, some (refuse stBadParam 0x8002))
    else if e'.rateOk = false then (s, some (refuse stBadParam 0x8004))
    else
      let s := s.modEs i (fun _ => { e' with rateChange := e.rateChange || decide change })
      (if change ∧ s.encState i = 2 then s.raise (CDC_S_STATE__IRAP_PEND i) else s, some ok)))

/-- CDC_SET_ROI (R262, R271). -/
def execCdcSetRoi (p : Pkt) (s : State) : Res :=
  .next (runOp 0x0604 p s (fun s =>
    let i := p.idx
    let e := s.es i
    let rects := ((List.range 16).filter (fun k => p.t 0 k)).map (fun k =>
      (p.b (4 + 2 * k) 0 16, p.b (4 + 2 * k) 16 16, p.b (5 + 2 * k) 0 9, p.b (5 + 2 * k) 9 9, sext 8 (p.b (5 + 2 * k) 24 8)))
    if s.encState i = 0 then (s, some (refuse stState 0x8008))
    else if rects.any (fun r => decide (e.ctuW < r.1 + r.2.2.1) || decide (e.rowsN < r.2.1 + r.2.2.2.1)
        || decide (r.2.2.2.2 < -51) || decide (51 < r.2.2.2.2)) then (s, some (refuse stBadParam 0x800C))
    else (s.modEs i (fun e => { e with roi := rects }), some ok)))

/-- CDC_FORCE_IRAP (R255, R271). -/
def execCdcForceIrap (p : Pkt) (s : State) : Res :=
  .next (runOp 0x0605 p s (fun s =>
    if s.encState p.idx ≠ 2 then (s, some (refuse stState 0x8008)) else (s.askIrap p.idx, some ok)))

/-- CDC_STREAMER_TEMPLATE (R267 to R269, R271). -/
def execCdcStreamerTemplate (p : Pkt) (s : State) : Res :=
  .next (runOp 0x0608 p s (fun s =>
    let i := p.idx
    let type := p.b 0 0 2
    let max := p.b 0 16 14
    let bs := (List.range 32).flatMap (fun k => leBytes 4 (p.w (4 + k)))
    if s.encState i = 0 then (s, some (refuse stState 0x8008))
    else if max < 256 ∨ 9018 < max ∨ ((bs.drop (tmplLen type)).any (fun b => b != 0)) = true then
      (s, some (refuse stBadParam 0x800A))
    else
      (s.modEs i (fun e => { e with
        newTmpl := some (⟨type, max, bs.take (tmplLen type)⟩, if p.t 1 16 then some (p.b 1 0 16) else none, p.w 2, p.w 3) }), some ok)))

/-- CDC_DR_HEAD (R264): data-ring space returns; the index counts modulo twice the ring. -/
def execCdcDrHead (stream : Fin 16) (v : W32) (s : State) : Res :=
  let i := stream.val
  .next (if s.shut 0 then s else s.setF (CDC_S_DR_HEAD__HEAD i) (v.toNat % 2 ^ ((s.es i).dlog + 1)))

/-- CDC_DD_HEAD (R264): descriptor space returns; a value out of range or past the tail is ignored. -/
def execCdcDdHead (stream : Fin 16) (v : W32) (s : State) : Res :=
  let i := stream.val
  let h := v.toNat % 0x20000
  let m := 2 ^ ((s.es i).qlog + 1)
  let adv := (h + m - s.f (CDC_S_DD_HEAD__HEAD i) % m) % m
  if s.shut 0 = true ∨ m ≤ h ∨ s.ddUsed i < adv then .next s else .next (s.setF (CDC_S_DD_HEAD__HEAD i) h)

/-- SPOOL_DRAIN (R265). -/
def execSpoolDrain (stream : Fin 16) (s : State) : Res :=
  .next (State.drainSpool stream.val (s.es stream.val).spool.length s)

/-- CDC_RING_STALL (R265): a ring has stayed full for more than 10 ms: it has no free space, or not enough for the unit that waits. -/
def execCdcRingStall (stream : Fin 16) (s : State) : Res :=
  let i := stream.val
  let e := s.es i
  let full := match e.spool with
    | u :: _ => !s.unitFits i u
    | [] => decide (2 ^ e.dlog ≤ s.drUsed i) || decide (2 ^ e.qlog ≤ s.ddUsed i)
  .next (if s.encState i != 0 && e.hostOn && full then (s.encErr i CDC_S_ERR__RING_STALL).log .cdc evCdcRingStall (streamTarget i) else s)

/-- FLR at the coding engine (spec/12, before R270): ring indices and IRQ are cleared, and host output of streams with
rings in host memory is turned off. -/
def State.encFlr (s : State) : State :=
  (List.range 16).foldl (fun s i =>
    let s := [CDC_S_DR_HEAD i, CDC_S_DR_TAIL i, CDC_S_DD_HEAD i, CDC_S_DD_TAIL i, CDC_S_IRQ i].foldl (fun s a => s.wn a 0) s
    if (s.es i).hostOn ∧ (s.es i).ringWork = false then
      s.modEs i (fun e => { e with hostOff := true, spool := [], gap := false, gapMark := false })
    else s) s

end Sys2Proof.Machine
end

