-- ==== Sys2Proof/Machine/TapOps.lean ====
section
/-!
DEFINITION. The opcodes of the colour pipeline and the taps (spec/08_colour_pipeline_taps.md, R153, R160, R163, R164, R180,
R182).
-/
namespace Sys2Proof.Machine
open Sys2Proof

/-- Little-endian 16-bit entries. -/
def halfWords : List Byte → List Nat
  | a :: b :: t => leNat [a, b] :: halfWords t
  | _ => []

/-- CLR_SET_SHADING (R153, R182). -/
def execClrSetShading (p : Pkt) (s : State) : Res :=
  .next (runOp 0x0400 p s (fun s => s.refGuard (p.ref 4) 4 (fun s =>
    let c := p.idx
    let len := (p.ref 4).len
    if len ≠ 0 ∧ len ≠ 67080 then (s, some (refuse stBadParam 0x8001))
    else
      match s.readRef (p.ref 4) p.buf with
      | none => (s.bufError .clr (p.ref 4) p.buf, some readFault)
      | some bs =>
        let s := if len = 0 then s else s.modCx c (fun q => { q with clrGrid := some (halfWords bs) })
        (s.setF (CLR_C_CFG__SHADE_EN c) (p.b 0 0 1), some ok))))

/-- CLR_SET_WB_MATRIX (R154 to R159, R182). -/
def execClrSetWbMatrix (p : Pkt) (s : State) : Res :=
  .next (runOp 0x0401 p s (fun s =>
    let c := p.idx
    if p.w 14 = 0 then (s, some (badWord 14))
    else
      let s := (s.wn (CLR_C_WB01 c) (p.w 0)).wn (CLR_C_WB23 c) (p.w 1)
      let s := (List.range 9).foldl (fun s k => s.wn (CLR_C_CM c k) (p.w (2 + k))) s
      let s := (List.range 3).foldl (fun s k => s.wn (CLR_C_OFF c k) (p.w (11 + k))) s
      let s := (s.wn (CLR_C_DM_EPS c) (p.w 14)).wn (CLR_C_FCS_KNEE c) (p.b 15 0 24)
      (s.setF (CLR_C_CFG__FCS_EN c) (p.b 15 24 1), some ok)))

/-- CLR_SET_WORKSPACE (R160, R161, R182). -/
def execClrSetWorkspace (p : Pkt) (s : State) : Res :=
  .next (runOp 0x0402 p s (fun s =>
    let c := p.idx
    if 65536 < p.b 10 0 16 + p.b 10 16 16 then (s, some (badWord 10))
    else
      let s := s.setF (CLR_C_CFG__WSPACE c) (p.b 0 0 2)
      let s := if p.b 0 0 2 = 3 then (List.range 9).foldl (fun s k => s.wn (CLR_C_WS c k) (p.w (1 + k))) s else s
      (s.wn (CLR_C_LUMA_K c) (p.w 10), some ok)))

/-- CLR_GET_ZONESTATS (R163, R182). -/
def execClrGetZonestats (p : Pkt) (s : State) : Res :=
  .next (runOp 0x0407 p s (fun s => s.refGuard (p.ref 0) 0 (fun s =>
    let z := (s.cx p.idx).zone
    if 0 < (p.ref 0).len ∧ (p.ref 0).len < 90176 then (s, some (badWord 2))
    else (s.writeRef (p.ref 0) z.bytes, some (ok [z.fid, z.commitId, z.flags, z.stripes])))))

/-- The context and engine of a tap TARGET (Table 2-2). -/
def Pkt.tapCtx (p : Pkt) : Nat := p.idx / 256
def Pkt.tapEng (p : Pkt) : Nat := p.idx % 256

/-- R164: the engine is free or owned by context `c`. -/
def State.mayOwn (s : State) (c t : Nat) : Bool := let o := s.f (TAP_T_OWNER__CTX t); o == 7 || o == c

/-- TAP_CONFIGURE (R164, R182). -/
def execTapConfigure (p : Pkt) (s : State) : Res :=
  .next (runOp 0x0403 p s (fun s =>
    let c := Pkt.tapCtx p
    let t := Pkt.tapEng p
    if p.b 3 12 2 = 3 ∨ p.b 3 16 3 = 0 then (s, some (badWord 3))
    else if p.b 7 0 4 < 2 ∨ 8 < p.b 7 0 4 then (s, some (badWord 7))
    else if s.mayOwn c t = false then (s, some (refuse stNoResource 0x8005))
    else
      let s := s.setF (TAP_T_OWNER__CTX t) c
      let s := ((s.wn (TAP_T_CROP0 t) (p.w 0)).wn (TAP_T_CROP1 t) (p.w 1)).wn (TAP_T_OUT t) (p.w 2)
      let s := ((s.wn (TAP_T_FMT t) (p.w 3)).wn (TAP_T_EXP t) (p.w 4)).wn (TAP_T_BUF_LO t) (p.w 5)
      ((s.wn (TAP_T_BUF_HI t) (p.w 6)).wn (TAP_T_BUF_CFG t) (p.w 7), some ok)))

/-- R180: an image of any context that is not yet live for processing holds the engine's captured bank. -/
def State.bankHeld (s : State) (t : Nat) : Bool :=
  s.ctx.toList.any (fun q => (q.bound ++ q.pending.toList).any (fun i => i.taps.any (fun k => k.engine == t)))

/-- Each phase of a scaler table sums to 1,024 (R166). -/
def phasesOk (l : List Nat) : Bool :=
  (List.range 64).all (fun ph => ((List.range 8).map (fun k => sext 16 (l.getD (8 * ph + k) 0))).sum == 1024)

/-- TAP_LOAD_LUT (R164, R166, R169 to R171, R180, R182). -/
def execTapLoadLut (p : Pkt) (s : State) : Res :=
  .next (runOp 0x0404 p s (fun s => s.refGuard (p.ref 4) 4 (fun s =>
    let c := Pkt.tapCtx p
    let t := Pkt.tapEng p
    let kind := p.b 0 0 3
    let want := match kind with
      | 0 => 24576
      | 1 => 1647750
      | 2 => 24576
      | _ => 1024
    if 4 < kind then (s, some (badWord 0))
    else if s.mayOwn c t = false then (s, some (refuse stNoResource 0x8005))
    else if kind < 3 ∧ 8 ≤ t then (s, some (refuse stBadParam 0x8007))
    else if (p.ref 4).len ≠ want then (s, some (refuse stBadParam 0x8001))
    else if s.bankHeld t then (s, some (refuse stState 0x800A))
    else
      match s.readRef (p.ref 4) p.buf with
      | none => (s.bufError .tap (p.ref 4) p.buf, some readFault)
      | some bs =>
        let l := halfWords bs
        if 3 ≤ kind ∧ phasesOk l = false then (s, some (refuse stBadParam 0x8001))
        else
          let s := s.setF (TAP_T_OWNER__CTX t) c
          (s.modTp t (fun q => match kind with
            | 0 => { q with shaper := some l }
            | 1 => { q with lut3 := some l }
            | 2 => { q with outLut := some l }
            | 3 => { q with hScale := some l }
            | _ => { q with vScale := some l }), some ok))))

/-- TAP_ENABLE (R164, R182). -/
def execTapEnable (p : Pkt) (s : State) : Res :=
  .next (runOp 0x0405 p s (fun s =>
    let c := Pkt.tapCtx p
    let t := Pkt.tapEng p
    if s.mayOwn c t = false then (s, some (refuse stNoResource 0x8005))
    else ((s.setF (TAP_T_OWNER__CTX t) c).modTp t (fun q => { q with enable := true }), some ok)))

/-- TAP_DISABLE (R182): OK when already clear; another context's engine is left as it is. -/
def execTapDisable (p : Pkt) (s : State) : Res :=
  .next (runOp 0x0406 p s (fun s =>
    let t := Pkt.tapEng p
    if s.f (TAP_T_OWNER__CTX t) = Pkt.tapCtx p then (s.modTp t (fun q => { q with enable := false }), some ok) else (s, some ok)))

end Sys2Proof.Machine
end

