-- ==== Sys2Proof/Machine/Decoder.lean ====
section
/-!
DEFINITION. Decoding: sessions, the decoded picture buffer, output, errors and concealment
(spec/13_video_decoder.md, R274 to R284).
-/
namespace Sys2Proof.Machine
open Sys2Proof

def State.ds (s : State) (d : Nat) : DecSt := s.cdc.dec.toList.getD d {}
def State.modDs (s : State) (d : Nat) (g : DecSt → DecSt) : State :=
  { s with cdc := { s.cdc with dec := s.cdc.dec.setIfInBounds d (g (s.ds d)) } }

/-- Marks of session `d` (Table 13-1). -/
def markDpb (d : Nat) : Nat := 16 + d
def markOut (d : Nat) : Nat := 18 + d
def markLadle (d : Nat) : Nat := 20 + d
def markHost : Nat := 22

/-- Free bytes of the bitstream ring, and BS_FREE. -/
def DecSt.free (e : DecSt) : Nat := e.ring - e.fill
def State.setBsFree (s : State) (d : Nat) : State := s.setF (CDC_D_STAT__BS_FREE d) ((s.ds d).free / 256)

/-! ### Engines -/

/-- Give waiting slices to free entropy engines, engine 0 first (R246). -/
def State.feed (s : State) : State :=
  let go := fun (c : CdcSt) (k : Nat) =>
    match c.ee.getD k none, c.waiting with
    | none, j :: t => { c with ee := c.ee.set k (some j), waiting := t }
    | _, _ => c
  { s with cdc := go (go s.cdc 0) 1 }

/-- A slice waits for an engine. -/
def State.enqueue (s : State) (j : EntJob) : State := State.feed { s with cdc := { s.cdc with waiting := s.cdc.waiting ++ [j] } }
/-- The engine that holds a job. -/
def State.engineOf (s : State) (j : EntJob) : Option Nat := s.cdc.ee.findIdx? (fun x => x == some j)
def State.freeEngine (s : State) (k : Nat) : State := State.feed { s with cdc := { s.cdc with ee := s.cdc.ee.set k none } }

/-- A slice of session `d` enters an engine once its picture is admitted (R278). -/
def State.feedDec (s : State) (d : Nat) : State :=
  let e := s.ds d
  if e.open_ ∧ e.admitted ∧ 0 < e.fill ∧ (match e.cur with | some p => p.ended | none => false) = false
      ∧ (s.engineOf (.dec d)).isNone ∧ s.cdc.waiting.contains (.dec d) = false then s.enqueue (.dec d)
  else s

/-- The next picture of session `d` asks for admission (R278, R394). -/
def State.decArrive (s : State) (d : Nat) : State :=
  let e := s.ds d
  if e.open_ ∧ 0 < e.fill ∧ e.cur.isNone ∧ e.waiting = false ∧ e.admitted = false then
    let s := s.arrive (.dec d)
    if s.isAdmitted (.dec d) then State.feedDec ((s.leaveB (.dec d)).modDs d (fun e => { e with admitted := true })) d
    else
      let s := s.modDs d (fun e => { e with waiting := true })
      (s.setB (CDC_D_STAT__DEFERRED d) true).bumpEvt .cdc (CDC_D_DEFER_CNT d)
  else s

/-- The scheduler has admitted the picture of session `d`. -/
def State.decAdmitted (s : State) (d : Nat) : State :=
  let s := (s.leaveB (.dec d)).modDs d (fun e => { e with waiting := false, admitted := true })
  (s.setB (CDC_D_STAT__DEFERRED d) false).feedDec d

/-! ### Errors (R281) -/

/-- A check of Table 13-3 fails. -/
def State.decErr (s : State) (d code : Nat) : State :=
  let s := s.wn (CDC_D_ERR d) (s.rn (CDC_D_ERR d) ||| 2 ^ (code - 1))
  let s := s.bumpEvt .cdc (CDC_D_ERR_CNT d)
  let s := if (s.ds d).err = 0 then
      (s.log .cdc evCdcDecErr (ctxTarget (4 + d))).modDs d (fun e => { e with err := code })
    else s
  s.pendIf (CDC_D_IRQ__PEND d) 0 (s.on (CDC_D_IRQ__ERROR d)) (26 + d)

/-! ### Reports (R280) -/

/-- A picture report (Table 13-4). -/
def DecPic.report (p : DecPic) (fid : Nat) (again : Bool) (ns : Nat) (phase : Bool) : List Byte :=
  let flags := b2n p.irap + 2 * b2n p.concealed + 4 * b2n p.genRef + 8 * b2n p.tainted + 16 * b2n again + 32 * b2n p.hashFail
  leBytes 4 fid ++ leBytes 4 (ofInt 32 p.poc) ++ leBytes 1 p.buf ++ leBytes 1 flags ++ leBytes 2 p.err ++ leBytes 4 p.damaged
    ++ leBytes 4 p.seq.toNat ++ leBytes 4 ns ++ List.replicate 7 0 ++ leBytes 1 (128 * b2n phase)

/-- Write a report; whether it overwrites one the host has not read is not visible to the model (log 22). -/
def State.decReport (s : State) (d : Nat) (p : DecPic) (fid : Nat) (again : Bool) : State :=
  let e := s.ds d
  let n := e.reports
  let s := s.writeMem (e.base + 32 * (n % 64)) (p.report fid again (if again then s.ns else p.outNs) (bitAt n 6 == false))
  let s := if n < 64 then s
    else
      let (w, s) := s.draw
      if w.getLsbD 0 then s.bumpStat (CDC_D_REPORT_OVW d) else s
  let s := s.modDs d (fun e => { e with reports := e.reports + 1 })
  s.pendIf (CDC_D_IRQ__PEND d) 0 (s.on (CDC_D_IRQ__REPORT d)) (26 + d)

/-! ### Sample memory -/

/-- The packing of a picture in the pool (R272). -/
def DecPic.lay (p : DecPic) : TapCfg := { engine := 4, ow := p.width, oh := p.height, pack := if p.fmt422 then 2 else 3 }

/-- Bytes a pool buffer needs for a picture with its motion field (R272, R276). -/
def poolNeed (w h : Nat) : Nat :=
  let c : TapCfg := { engine := 4, ow := w, oh := h, pack := 2 }
  ceilDiv (packSize c) 4096 * 4096 + ceilDiv w 16 * ceilDiv h 16 * 8

/-- Every sample of a buffer takes the mid-grey value (R282). -/
def State.grey (s : State) (p : DecPic) : State :=
  let c := p.lay
  let a := s.poolAddr p.buf
  (List.range 2).foldl (fun s k =>
    let o := (planeOffsets c).getD k 0
    let n := (planeBytes c).getD k 0
    (List.range ((planeLines c).getD k 0)).foldl (fun s r =>
      s.writeMem (a + o + r * pitchOf n) ((List.replicate (n / 2) [(0x00 : Byte), 0x80]).flatten)) s) s

/-- Bytes of line `r` of plane `k` that CTU column `x` covers: offset in the buffer, and length. -/
def DecPic.span (p : DecPic) (k x r : Nat) : Nat × Nat :=
  let c := p.lay
  let n := (planeBytes c).getD k 0
  ((planeOffsets c).getD k 0 + r * pitchOf n + 2 * p.ctb * x, min (2 * p.ctb) (n - 2 * p.ctb * x))

/-- Conceal CTU `a`: copy the co-located block of `src`, or grey (R283). -/
def State.conceal (s : State) (p : DecPic) (src : Option Nat) (a : Nat) : State :=
  let w := ceilDiv p.width p.ctb
  let x := a % w
  let y := a / w
  (List.range 2).foldl (fun s k =>
    let v := if k = 1 ∧ p.fmt422 = false then p.ctb / 2 else p.ctb
    (List.range v).foldl (fun s r =>
      let row := y * v + r
      if (planeLines p.lay).getD k 0 ≤ row then s
      else
        let o := p.span k x row
        let bs := match src with
          | some b => s.memBytes (s.poolAddr b + o.1) o.2
          | none => (List.replicate (o.2 / 2) [(0x00 : Byte), 0x80]).flatten
        s.writeMem (s.poolAddr p.buf + o.1) bs) s) s

/-- INFO of a pool buffer. -/
def State.poolInfo (s : State) (p : DecPic) : State :=
  s.wn (CDC_POOL_B_INFO p.buf) (ofInt 16 p.poc + 0x20000 * b2n p.concealed + 0x40000 * b2n p.generated)

/-! ### The decoded picture buffer (H.265 C.5.2) -/

/-- Pictures that stay: references, pictures needed for output or due, and in CONTEXT mode those not taken (log 22). -/
def DecSt.stays (e : DecSt) (p : DecPic) : Bool :=
  p.ref != 0 || p.wanted || e.outq.contains p.buf || (!e.pool && e.avail.contains p.buf)

/-- Pictures leave the DPB: their marks clear (R273). -/
def State.prune (s : State) (d : Nat) : State :=
  let e := s.ds d
  let gone := e.dpb.filter (fun p => !e.stays p)
  let s := gone.foldl (fun s p => s.setMark p.buf (markDpb d) false) s
  s.modDs d (fun e => { e with dpb := e.dpb.filter e.stays })

/-- Pictures needed for output. -/
def DecSt.wanted (e : DecSt) : List DecPic := e.dpb.filter (·.wanted)

/-- Bump: the picture first in output order becomes due. -/
def DecSt.bump (e : DecSt) : DecSt :=
  match e.wanted with
  | [] => e
  | p :: t =>
    let m := t.foldl (fun a b => if b.poc < a.poc then b else a) p
    { e with dpb := e.dpb.map (fun q => if q.buf = m.buf then { q with wanted := false } else q), outq := e.outq ++ [m.buf] }

/-- Bump while `c` holds, at most `k` times. -/
def DecSt.bumpWhile (c : DecSt → Bool) : Nat → DecSt → DecSt
  | 0, e => e
  | k + 1, e => if c e && !e.wanted.isEmpty then DecSt.bumpWhile c k e.bump else e
def DecSt.bumpAll (e : DecSt) : DecSt := DecSt.bumpWhile (fun _ => true) e.dpb.length e

/-- More pictures wait for output, or longer, than the sequence allows (C.5.2.2, C.5.2.3). -/
def DecSt.ovr (reorder latency : Nat) (e : DecSt) : Bool :=
  decide (reorder < e.wanted.length) || (latency != 0 && e.wanted.any (fun p => decide (latency ≤ p.latency)))

/-- The DPB before a picture is decoded (C.5.2.2): references are marked by the RPS, pictures are bumped. -/
def DecSt.before (e : DecSt) (h : SliceHdr) : DecSt :=
  if h.starts then
    let e := { e with dpb := e.dpb.map (fun (p : DecPic) => { p with ref := 0 }) }
    if h.noPrior then { e with dpb := e.dpb.map (fun (p : DecPic) => { p with wanted := false }) } else e.bumpAll
  else
    let mark := fun (p : DecPic) => match h.rps.find? (fun r => r.1 == p.poc) with
      | some r => { p with ref := if p.ref = 0 then 0 else if r.2 then 2 else 1 }
      | none => { p with ref := 0 }
    let e := { e with dpb := e.dpb.map mark }
    let full := fun (e : DecSt) => decide (h.dpbSize ≤ (e.dpb.filter (fun p => p.ref != 0 || p.wanted)).length)
    DecSt.bumpWhile (fun e => DecSt.ovr h.reorder h.latency e || full e) e.dpb.length e

/-- The DPB after a picture is decoded (C.5.2.3). -/
def DecSt.after (e : DecSt) (p : DecPic) : DecSt :=
  let dpb := if p.wanted then e.dpb.map (fun q => if q.wanted && decide (p.poc < q.poc) then { q with latency := q.latency + 1 } else q)
    else e.dpb
  let e := { e with dpb := dpb ++ [p] }
  DecSt.bumpWhile (DecSt.ovr p.reorder p.maxLatency) e.dpb.length e

/-! ### Playback from a session (R279) -/

/-- Stripes of a playback frame land as its picture's lines become final. -/
def State.decLand (s : State) (d buf lines : Nat) (whole : Bool) : State :=
  let now := s.ns
  let g := fun (f : ProcFrame) =>
    if f.src = some (.decoder (some buf)) then
      let n := if whole then f.n else min f.n (lines / 64)
      { f with landed := f.landed ++ List.replicate (n - f.landed.length) now, closed := f.closed || whole }
    else f
  s.modCx (4 + d) (fun c => { c with frames := c.frames.map g })

/-- LADLE marks follow R279: the picture last taken, and pictures whose frames have not passed their boundary. -/
def State.ladleMarks (s : State) (d : Nat) : State :=
  let keep := fun (b : Nat) => (match (s.ds d).taken with | some p => p.buf == b | none => false)
    || (s.cx (4 + d)).frames.any (fun f => f.src == some (.decoder (some b)))
  (List.range 64).foldl (fun s b =>
    if bitAt (s.marks b) (markLadle d) ∧ keep b = false then s.setMark b (markLadle d) false else s) s

/-- The picture being decoded, when its output is certain: it is to be output and no earlier picture waits (log 22). -/
def DecSt.certain (e : DecSt) : Option DecPic :=
  match e.cur with
  | some p => if e.pool = false ∧ p.wanted ∧ p.takenBy.isNone ∧ e.outq.isEmpty ∧ e.wanted.all (fun q => decide (p.poc < q.poc)) then some p else none
  | none => none

/-- Playback frame `fid` of context 4 + `d` takes a picture (R279, R280): the picture, whether it has landed whole, and
lines that are final. -/
def State.takePic (s : State) (d fid : Nat) : Option DecPic × State :=
  let e := s.ds d
  let hold := fun (s : State) (p : DecPic) => (s.setMark p.buf (markLadle d) true).modDs d (fun e => { e with taken := some p })
  match e.avail with
  | b :: t =>
    match e.dpb.find? (fun p => p.buf == b) with
    | some p =>
      let p := { p with takenBy := some fid }
      let s := s.modDs d (fun e => { e with avail := t, dpb := e.dpb.map (fun q => if q.buf = b then p else q) })
      let s := hold s p
      let s := (s.decReport d p fid false).prune d
      (some p, s.ladleMarks d)
    | none => (none, s)
  | [] =>
    match e.certain with
    | some p =>
      let p := { p with takenBy := some fid }
      let s := hold (s.modDs d (fun e => { e with cur := some p })) p
      (some p, s.ladleMarks d)
    | none =>
      match e.taken with
      | some p => (some p, s.decReport d p fid true)
      | none => (none, s)

/-! ### Session end -/

/-- A closing session ends once nothing of it is left (R284). -/
def State.decClose (s : State) (d : Nat) : State :=
  let e := s.ds d
  if e.closing ∧ e.fill = 0 ∧ e.cur.isNone ∧ e.outq.isEmpty ∧ e.wanted.isEmpty ∧ (e.drain = false ∨ e.avail.isEmpty) then
    let s := ((s.clearMarks (markDpb d)).clearMarks (markOut d)).modDs d (fun e => {
      taken := e.taken, pool := e.pool, checkHash := e.checkHash, maxW := e.maxW, maxH := e.maxH, maxRate := e.maxRate, expand := e.expand })
    let s := s.leaveB (.dec d)
    let s := s.wn (CDC_D_STAT d) 0
    s.log .cdc evCdcDecClosed (ctxTarget (4 + d))
  else s

/-- Every picture becomes due once none is being decoded. -/
def State.decFlush (s : State) (d : Nat) : State :=
  if (s.ds d).flush ∧ (s.ds d).cur.isNone then s.modDs d (fun e => { e.bumpAll with flush := false }) else s

/-! ### Opcodes (R276, R277, R284) -/

def execDecOpen (p : Pkt) (s : State) : State × Option Outc :=
  let d := p.idx - 4
  let pool := p.t 0 4
  let w := p.b 1 0 16
  let h := p.b 1 16 16
  let ring := p.b 3 0 16 * 0x10000
  let syn := p.b 3 16 16 * 0x10000
  let base := p.q 4
  let mpix := ceilDiv (w * h * p.w 2) 1000000000
  if (s.ds d).open_ then (s, some (refuse stState 0x8020))
  else if (pool = false ∧ (p.ref 8).len ≠ 2048) ∨ ring = 0 ∨ base % 4096 ≠ 0 ∨ s.wBytes < base + 4096 + ring + syn then
    (s, some (refuse stBadParam 0x8024))
  else if 4500 < s.encMpix none + s.decMpix + mpix then (s, some (refuse stBandwidth 0x8003))
  else if s.poolStride < poolNeed w h then (s, some (refuse stBadParam 0x8026))
  else
    match (if pool then some [] else s.readRef (p.ref 8) p.buf) with
    | none => (s.bufError .cdc (p.ref 8) p.buf, some readFault)
    | some bs =>
      let s0 := s
      let s := s.modDs d (fun e => {
        open_ := true, pool := pool, checkHash := p.t 0 5, maxW := w, maxH := h, maxRate := p.w 2, mpix := mpix, base := base
        ring := ring, syntaxBytes := syn, expand := halfWords bs, taken := e.taken })
      let s := ((s.wn (CDC_D_STAT d) 0).setB (CDC_D_STAT__OPEN d) true).setB (CDC_D_STAT__OUT d) pool
      ((s.setBsFree d).commitSince s0, some (ok [mpix]))

/-- Copy a chunk into the ring. -/
def State.ringFill (s : State) (d : Nat) (bs : List Byte) : State :=
  let e := s.ds d
  let a := e.base + 4096
  let s := s.writeMem (a + e.wr) (bs.take (e.ring - e.wr))
  let s := s.writeMem a (bs.drop (e.ring - e.wr))
  s.modDs d (fun e => { e with wr := (e.wr + bs.length) % e.ring, fill := e.fill + bs.length })

def execDecData (p : Pkt) (s : State) : State × Option Outc :=
  let d := p.idx - 4
  let e := s.ds d
  if e.open_ = false ∨ e.closing then (s, some (refuse stState 0x8021))
  else if e.free < (p.ref 8).len then (s, some (refuse stNoResource 0x8023))
  else
    match s.readRef (p.ref 8) p.buf with
    | none => (s.bufError .cdc (p.ref 8) p.buf, some readFault)
    | some bs =>
      let s := s.ringFill d bs
      let eos := p.t 0 8
      let s := if bs.isEmpty then s.modDs d (fun e => { e with flush := e.flush || eos, cur := e.cur.map (fun q => { q with ended := q.ended || eos }) })
        else s.modDs d (fun e => { e with chunks := e.chunks ++ [(p.seq, bs.length, eos)] })
      let s := (((s.decFlush d).setBsFree d).decArrive d).feedDec d
      (s, some (ok [(s.ds d).free / 256]))

def execDecClose (p : Pkt) (s : State) : State × Option Outc :=
  let d := p.idx - 4
  let e := s.ds d
  if e.open_ = false ∨ e.closing then (s, some (refuse stState 0x8021))
  else
    let drain := p.t 0 8
    let s := s.modDs d (fun e => { e with closing := true, drain := drain, flush := true })
    let s := if drain ∧ 0 < e.fill then
        s.modDs d (fun e => { e with chunks := e.chunks.dropLast ++ (e.chunks.getLast?.map (fun c => (c.1, c.2.1, true))).toList })
      else
        let s := s.modDs d (fun e => { e with
          fill := 0, wr := 0, chunks := [], waiting := false, cur := e.cur.map (fun q => { q with ended := true }) })
        let s := { s with cdc := { s.cdc with waiting := s.cdc.waiting.erase (.dec d) } }
        (s.leaveB (.dec d)).setB (CDC_D_STAT__DEFERRED d) false
    let s := if drain ∧ 0 < e.fill then s else s.decFlush d
    ((s.setBsFree d).decClose d, some ok)

/-- CDC_DECODE_SUBMIT by ACTION (Table 13-6). -/
def decodeSubmit (p : Pkt) (s : State) : State × Option Outc :=
  let k := p.b 0 0 2
  let open_ := k == 0
  if k = 3 ∨ (!open_ && (p.t 0 4 || p.t 0 5)) = true ∨ (open_ && p.t 0 8) = true then (s, some (badWord 0))
  else if open_ ∧ s.bist 2 = true then (s, some (refuse stState 0x8002))
  else if open_ then execDecOpen p s
  else if k = 1 then execDecData p s
  else execDecClose p s

/-- A buffer reference is checked where ACTION uses one (R453). -/
def decodeRun (p : Pkt) (s : State) : Res :=
  .next (runOp 0x0606 p s (fun s => if p.b 0 0 2 = 2 then decodeSubmit p s else s.refGuard (p.ref 8) 8 (decodeSubmit p)))

/-- CDC_DECODE_SUBMIT OPEN (R276, R284). -/
def execCdcDecodeOpen (p : Pkt) (s : State) : Res := decodeRun p s
/-- CDC_DECODE_SUBMIT DATA (R277, R284). -/
def execCdcDecodeData (p : Pkt) (s : State) : Res := decodeRun p s
/-- CDC_DECODE_SUBMIT CLOSE (R284). -/
def execCdcDecodeClose (p : Pkt) (s : State) : Res := decodeRun p s

/-- CDC_REF_MARK by ACTION (R274, R284). CLEAR_OUT clears the OUT mark of each session. -/
def refMark (p : Pkt) (s : State) : Res :=
  .next (runOp 0x0607 p s (fun s =>
    let b := p.b 0 0 6
    let k := p.b 0 8 2
    if s.poolCount ≤ b ∨ k = 3 then (s, some (badWord 0))
    else if k = 0 ∧ s.marks b = 0 then (s, some (refuse stState 0x8022))
    else
      let s := match k with
        | 0 => s.setMark b markHost true
        | 1 => s.setMark b markHost false
        | _ => (s.setMark b (markOut 0) false).setMark b (markOut 1) false
      (s, some (ok [s.marks b]))))

/-- SET_HOST (R274). -/
def execSetHost (p : Pkt) (s : State) : Res := refMark p s
/-- CLEAR_HOST (R274). -/
def execClearHost (p : Pkt) (s : State) : Res := refMark p s
/-- CLEAR_OUT (R274). -/
def execClearOut (p : Pkt) (s : State) : Res := refMark p s

/-! ### Items of the bitstream (R278, R281, R282) -/

/-- Pass `n` bytes of the ring: chunks, and whether one with EOS has ended. -/
def passBytes : Nat → List (W32 × Nat × Bool) → List (W32 × Nat × Bool) × Bool
  | _, [] => ([], false)
  | n, (q, k, eos) :: t =>
    if n < k then ((q, k - n, eos) :: t, false)
    else
      let r := passBytes (n - k) t
      (r.1, r.2 || eos)

/-- Consume bytes; at the end of a chunk with EOS the picture ends and every picture is output (R283). -/
def State.consume (s : State) (d n : Nat) : State :=
  let e := s.ds d
  let r := passBytes n e.chunks
  let s := s.modDs d (fun e => { e with
    chunks := r.1, fill := e.fill - n, flush := e.flush || r.2, cur := e.cur.map (fun p => { p with ended := p.ended || r.2 }) })
  s.setBsFree d

/-- Generate the missing references of a slice (R282), in RPS order. -/
def State.generate (s : State) (d : Nat) (h : SliceHdr) (missing : List (Int × Bool)) : State :=
  missing.foldl (fun s r =>
    match s.freeBufs with
    | [] => s
    | b :: _ =>
      let p : DecPic := {
        buf := b, poc := r.1, width := h.width, height := h.height, fmt422 := h.fmt422, depth := h.depth, ctb := h.ctb
        ref := if r.2 then 2 else 1, wanted := false, generated := true, lines := h.height, ended := true }
      let s := s.decErr d 7
      let s := ((s.setMark b (markDpb d) true).grey p).poolInfo p
      let s := s.bumpStat (CDC_D_GEN_CNT d)
      s.modDs d (fun e => { e with dpb := e.dpb ++ [p] })) s

/-- Start the picture of a slice header; none while no buffer is FREE (R275). -/
def State.startPic (s : State) (d : Nat) (h : SliceHdr) (seq : W32) : Option State :=
  let s := (s.modDs d (fun e => e.before h)).prune d
  let missing := h.rps.filter (fun r => !((s.ds d).dpb.any (fun p => p.poc == r.1)))
  if s.freeBufs.length < missing.length + 1 then none
  else
    let s := s.generate d h missing
    let refs := (s.ds d).dpb.filter (fun p => h.rps.any (fun r => r.1 == p.poc))
    let b := s.freeBufs.headD 0
    let gen := refs.any (·.generated)
    let p : DecPic := {
      buf := b, poc := h.poc, width := h.width, height := h.height, fmt422 := h.fmt422, depth := h.depth, ctb := h.ctb
      irap := h.irap, wanted := h.output, concealed := gen, genRef := gen
      tainted := !h.irap && refs.any (fun q => q.concealed || q.tainted || q.generated), seq := seq
      rps := some (h.rps.map (·.1)), reorder := h.reorder, maxLatency := h.latency, dpbSize := h.dpbSize }
    let s := (s.setMark b (markDpb d) true).poolInfo p
    some ((s.setB (CDC_D_STAT__POOL_WAIT d) false).modDs d (fun e => { e with cur := some p }))

/-- CTUs `a` to `a + n − 1` of the current picture are decoded. -/
def State.addCtus (s : State) (d a n : Nat) : State :=
  s.modDs d (fun e => { e with cur := e.cur.map (fun p =>
    { p with ctus := p.ctus ++ (List.range n).map (fun i => a + i) }) })

/-- A slice item in the current picture (Table 13-3, codes 3 to 6). -/
def State.sliceIn (s : State) (d : Nat) (p : DecPic) (h : SliceHdr) (decoded total code : Nat) : State :=
  let all := ceilDiv p.width p.ctb * ceilDiv p.height p.ctb
  if code = 3 ∨ code = 4 then s.decErr d code
  else if all ≤ h.addr ∨ p.ctus.contains h.addr = true then s.decErr d 6
  else
    let s := s.addCtus d h.addr (min (min decoded total) (all - h.addr))
    if code = 5 then s.decErr d 5 else s

/-! ### NAL units of the ring (R277, R278, R281) -/

/-- Where the first start code prefix 0x00_0001 stands. -/
def findStart : Nat → List Byte → Option Nat
  | i, a :: b :: c :: t => if a = 0 ∧ b = 0 ∧ c = 1 then some i else findStart (i + 1) (b :: c :: t)
  | _, _ => none

/-- The first NAL unit of an Annex B byte stream, with the bytes it takes up to the next start code prefix; none while it may go on in
bytes that are still to come. -/
def firstNal (bs : List Byte) (complete : Bool) : Option (Nat × List Byte) :=
  match findStart 0 bs with
  | none => if complete then some (bs.length, []) else none
  | some i =>
    let body := bs.drop (i + 3)
    match findStart 0 body with
    | some j => some (i + 3 + j, body.take j)
    | none => if complete then some (bs.length, body) else none

/-- The bytes of the ring, oldest first, up to the end of the first chunk with EOS, and whether there is one. -/
def State.ringStream (s : State) (d : Nat) : List Byte × Bool :=
  let e := s.ds d
  let rd := (e.wr + e.ring - e.fill) % e.ring
  let bs := s.memBytes (e.base + 4096 + rd) (min e.fill (e.ring - rd)) ++ s.memBytes (e.base + 4096) (e.fill - (e.ring - rd))
  let n := ((e.chunks.takeWhile (fun c => !c.2.2)).map (·.2.1)).sum
  match e.chunks.find? (·.2.2) with
  | some c => (bs.take (n + c.2.1), true)
  | none => (bs, false)

/-- What the header of a NAL unit says of it: forbidden_zero_bit, a layer to discard, or its type. -/
inductive NalKind where
  | bad | discard | boundary (eos : Bool) | paramSet | hash | slice
deriving DecidableEq, Repr
def nalKind (nal : List Byte) : NalKind :=
  let b0 := (nal.getD 0 0).toNat
  let b1 := (nal.getD 1 0).toNat
  let type := bitsAt b0 1 6
  if nal.length < 2 then .discard
  else if 128 ≤ b0 then .bad
  else if b0 % 2 ≠ 0 ∨ 8 ≤ b1 then .discard
  else if 32 ≤ type ∧ type ≤ 34 then .paramSet
  else if 35 ≤ type ∧ type ≤ 37 then .boundary (type != 35)
  else if type = 40 ∧ nal.getD 2 0 = 132 then .hash
  else if type ≤ 9 ∨ (16 ≤ type ∧ type ≤ 21) then .slice
  else .discard

/-- The next NAL unit of session `d`'s bitstream, once it is whole in the ring. Nothing is passed while the ended picture has not been
closed. -/
def State.decItem (s : State) (d : Nat) (i : DecItem) : State :=
  let e := s.ds d
  let ended := match e.cur with | some p => p.ended | none => false
  let endCur := fun (s : State) => s.modDs d (fun e => { e with cur := e.cur.map (fun p => { p with ended := true }) })
  if e.open_ = false ∨ e.fill = 0 ∨ ended = true then s
  else
    let fin := fun (s : State) => ((s.decFlush d).decArrive d).feedDec d
    let r := s.ringStream d
    match firstNal r.1 r.2 with
    | none => s
    | some (n, nal) =>
    match nalKind nal, i with
    | .discard, _ => fin (s.consume d n)
    | .boundary eos, _ =>
      let s := endCur (s.consume d n)
      fin (if eos then s.modDs d (fun e => { e with flush := true }) else s)
    | .bad, _ => fin ((s.decErr d 1).consume d n)
    | .paramSet, .paramSet good sps =>
      let big := match sps with
        | some (w, h, cw, ch) => decide (e.maxW < w) || decide (e.maxH < h) || (!e.pool && (match s.liveImage (4 + d) with
            | some im => cw != im.cfg.width || ch != im.cfg.height
            | none => true))
        | none => false
      let s := s.consume d n
      fin (if good ∧ big = false then s else s.decErr d 2)
    | .hash, .hash mis =>
      let s := if mis ∧ e.checkHash then
          (s.decErr d 8).modDs d (fun e => { e with cur := e.cur.map (fun p => { p with hashFail := true }) })
        else s
      fin (s.consume d n)
    | .slice, .slice h decoded total code =>
      match s.engineOf (.dec d) with
      | none => s
      | some k =>
        match e.cur with
        | some p =>
          if h.first ∨ h.newPps ∨ h.poc ≠ p.poc then (endCur s).freeEngine k
          else
            let s := (s.freeEngine k).sliceIn d p h decoded total code
            fin (s.consume d n)
        | none =>
          if h.rasl then fin ((s.freeEngine k).consume d n)
          else
            match s.startPic d h (e.chunks.head?.map (·.1) |>.getD 0) with
            | none => s.setB (CDC_D_STAT__POOL_WAIT d) true
            | some s =>
              let s := match (s.ds d).cur with
                | some p => s.sliceIn d p h decoded total code
                | none => s
              fin ((s.freeEngine k).consume d n)
    | _, _ => s

/-! ### Rows, picture end, output -/

/-- The row of the current picture that the pixel engine may take next: its CTUs are decoded, or the picture has ended. -/
def DecSt.peRow (e : DecSt) : Option Nat :=
  match e.cur with
  | none => none
  | some p =>
    let w := ceilDiv p.width p.ctb
    let has := fun r => (List.range w).any (fun x => p.ctus.contains (r * w + x))
    let all := fun r => (List.range w).all (fun x => p.ctus.contains (r * w + x))
    match ((List.range (ceilDiv p.height p.ctb)).drop p.peRow).find? (fun r => if p.ended then has r else true) with
    | some r => if p.ended || all r then some r else none
    | none => none

/-- The concealment source (R283). -/
def DecSt.concealSource (e : DecSt) (p : DecPic) : Option Nat :=
  let real : List DecPic := e.dpb.filter (fun (q : DecPic) => !q.generated)
  let dist := fun (q : DecPic) => (q.poc - p.poc).natAbs
  let cands := match p.rps with
    | some l => real.filter (fun (q : DecPic) => l.contains q.poc)
    | none => []
  match cands with
  | [] => real.getLast?.map DecPic.buf
  | a :: t => some (t.foldl (fun m q => if dist q < dist m ∨ (dist q = dist m ∧ q.poc < m.poc) then q else m) a).buf

/-- DECODE_PICTURE_END (R283): damaged CTUs are concealed and the picture enters the DPB. -/
def execDecodePictureEnd (session : Fin 2) (s : State) : Res :=
  let d := session.val
  let e := s.ds d
  match e.cur with
  | none => .next s
  | some p =>
    if p.ended = false ∨ e.peRow.isSome ∨ (match s.cdc.pe with | some q => q.1 == 16 + d | none => false) = true then .next s
    else
      let all := ceilDiv p.width p.ctb * ceilDiv p.height p.ctb
      let bad := (List.range all).filter (fun a => !p.ctus.contains a)
      let src := e.concealSource p
      let s := bad.foldl (fun s a => s.conceal p src a) s
      let s := if bad.isEmpty then s else s.bumpStat (CDC_D_CONC_CNT d) bad.length
      let p := { p with
        damaged := bad.length, concealed := p.concealed || !bad.isEmpty, err := e.err, lines := p.height }
      let s := s.poolInfo p
      let s := s.modDs d (fun e => DecSt.after { e with
        cur := none, err := 0, admitted := false
        taken := e.taken.map (fun q => if q.buf = p.buf then p else q) } p)
      let s := s.decLand d p.buf p.height true
      let s := ((s.decFlush d).prune d).decArrive d
      .next (s.decClose d)

/-- DECODE_OUTPUT (R279, R280): the next picture due is output. -/
def execDecodeOutput (session : Fin 2) (s : State) : Res :=
  let d := session.val
  let e := s.ds d
  match e.outq with
  | [] => .next s
  | b :: t =>
    match e.dpb.find? (fun p => p.buf == b) with
    | none => .next (s.modDs d (fun e => { e with outq := t }))
    | some p =>
      let p := { p with output := true, outNs := s.ns }
      let s := s.bumpEvt .cdc (CDC_D_PIC_CNT d)
      let s := s.modDs d (fun e => { e with
        outq := t, dpb := e.dpb.map (fun q => if q.buf = b then p else q)
        avail := if e.pool || p.takenBy.isSome then e.avail else e.avail ++ [b] })
      let s := if e.pool then (s.setMark b (markOut d) true).decReport d p 0 false
        else match p.takenBy with
          | some f => s.decReport d p f false
          | none => s
      .next ((s.prune d).decClose d)

/-- POOL_WAIT_END (R275): a waiting session proceeds once a buffer is FREE. -/
def execPoolWaitEnd (session : Fin 2) (s : State) : Res :=
  let d := session.val
  if s.on (CDC_D_STAT__POOL_WAIT d) ∧ s.freeBufs ≠ [] then .next ((s.setB (CDC_D_STAT__POOL_WAIT d) false).feedDec d) else .next s

/-- CDC_DEC_STALL (R275): a session has waited 10 ms for a buffer. -/
def execCdcDecStall (session : Fin 2) (s : State) : Res :=
  let d := session.val
  .next (if s.on (CDC_D_STAT__POOL_WAIT d) then s.log .cdc evCdcDecStall (ctxTarget (4 + d)) else s)

end Sys2Proof.Machine
end

