-- ==== Sys2Proof/Machine/Hevc.lean ====
section
/-!
DEFINITION. The NAL units of a stream (spec/12_video_encoder.md, R248 to R251, R257): access unit delimiter, parameter sets with VUI and HRD,
SEI messages, slice headers, and the source samples of a CTU row. The syntax is that of H.265 (PRESUMED, log 99).
-/
namespace Sys2Proof.Machine
open Sys2Proof

/-! ### Bits of a NAL unit -/

/-- u(n), most significant bit first. -/
def ubits (n v : Nat) : List Bool := (List.range n).map (fun i => bitAt v (n - 1 - i))
/-- ue(v). -/
def uebits (v : Nat) : List Bool := List.replicate (Nat.log2 (v + 1)) false ++ ubits (Nat.log2 (v + 1) + 1) (v + 1)
/-- se(v). -/
def sebits (v : Int) : List Bool := uebits (if 0 < v then 2 * v.toNat - 1 else 2 * (-v).toNat)
/-- A flag. -/
def flagBit (b : Bool) : List Bool := [b]
/-- A one, and zeros up to a byte boundary. -/
def trailed (l : List Bool) : List Bool := l ++ [true] ++ List.replicate ((8 - (l.length + 1) % 8) % 8) false
/-- Whole bytes of bits. -/
def bytesOfBits (l : List Bool) : List Byte :=
  (List.range (l.length / 8)).map (fun i => BitVec.ofNat 8 (((l.drop (8 * i)).take 8).foldl (fun v b => 2 * v + b2n b) 0))

/-- A NAL unit of a type, layer 0, temporal sub-layer 0, with its payload escaped. -/
def nalUnit (type : Nat) (rbsp : List Byte) : List Byte := [BitVec.ofNat 8 (2 * type), 0x01] ++ escape 0 rbsp

/-- An SEI NAL unit with one message. -/
def seiNal (type payloadType : Nat) (payload : List Byte) : List Byte :=
  nalUnit type ([BitVec.ofNat 8 payloadType, BitVec.ofNat 8 payload.length] ++ payload ++ [0x80])
/-- The payload of an SEI message made of bits. -/
def seiBits (l : List Bool) : List Byte := bytesOfBits (if l.length % 8 = 0 then l else trailed l)

/-- Syntax element number `k`, of values up to `n`, that the spec does not state (log 99). -/
def unstated (k n : Nat) : Nat := Config.syntaxValue k % (n + 1)
def vpsId : Nat := unstated 0 15
def spsId : Nat := unstated 1 15
def ppsId : Nat := unstated 2 63
/-- SliceQpY of a slice whose slice_qp_delta is 0. -/
def initQp : Int := (unstated 3 51 : Int)

/-! ### Parameter sets (R248, R250, Table 12-1, Table 12-2) -/

/-- profile_tier_level( ): Main, Main 10, or Main 4:2:2 10 of the format range extensions. -/
def EncSt.ptl (e : EncSt) : List Bool :=
  let idc := match e.profile with | 0 => 1 | 1 => 2 | _ => 4
  let compat := (List.range 32).map (fun j => j == idc || (idc == 1 && j == 2))
  let constraints := if e.profile = 2 then [true, true, false, true, false, false, false, false, true] ++ List.replicate 34 false
    else List.replicate 43 false
  ubits 2 0 ++ ubits 1 e.tier ++ ubits 5 idc ++ compat ++ [true, false, true, true] ++ constraints ++ [false] ++ ubits 8 e.level

/-- sps_max_dec_pic_buffering_minus1, no reordering, no latency limit. -/
def EncSt.dpbBits (e : EncSt) : List Bool := uebits e.numRef ++ uebits 0 ++ uebits 0

def EncSt.vps (e : EncSt) : List Byte :=
  nalUnit 32 (bytesOfBits (trailed (ubits 4 vpsId ++ [true, true] ++ ubits 6 0 ++ ubits 3 0 ++ [true] ++ ubits 16 0xFFFF ++ e.ptl ++ [true]
    ++ e.dpbBits ++ ubits 6 0 ++ uebits 0 ++ [false, false])))

/-- hrd_parameters( ) of the NAL HRD: MAX_BR and CPB in units of 64 bit/s and 16 bits, rounded down; cbr_flag in CBR (R257). -/
def EncSt.hrdBits (e : EncSt) : List Bool :=
  [true, false, false] ++ ubits 4 0 ++ ubits 4 0 ++ ubits 5 31 ++ ubits 5 31 ++ ubits 5 31 ++ [false, false, false] ++ uebits 0
    ++ uebits (e.maxBr * 1000 / 64 - 1) ++ uebits (e.cpbBits / 16 - 1) ++ [e.rcMode == 1]

/-- The VUI (R250): colour and range of the source, timing of a slot, and the HRD. -/
def EncSt.vui (e : EncSt) (q : EncSrc) : List Bool :=
  let colour := if q.matrix = 0 then 1 else 9
  let transfer := match q.transfer with | 1 => 16 | 2 => 18 | _ => if q.matrix = 0 then 1 else 14
  [false, false, true] ++ ubits 3 (unstated 4 5) ++ ubits 1 q.range ++ [true] ++ ubits 8 colour ++ ubits 8 transfer ++ ubits 8 colour
    ++ [false, false, false, false, false, true] ++ ubits 32 e.tp ++ ubits 32 1000000000 ++ [true] ++ uebits 0
    ++ (if e.hrd then [true] ++ e.hrdBits else [false]) ++ [false]

def EncSt.sps (e : EncSt) (q : EncSrc) : List Byte :=
  let fmt422 := e.profile == 2
  let depth := if e.profile = 0 then 0 else 2
  let window := e.codedW != e.ow || e.codedH != e.oh
  nalUnit 33 (bytesOfBits (trailed (ubits 4 vpsId ++ ubits 3 0 ++ [true] ++ e.ptl ++ uebits spsId ++ uebits (if fmt422 then 2 else 1)
    ++ uebits e.codedW ++ uebits e.codedH ++ [window]
    ++ (if window then uebits 0 ++ uebits ((e.codedW - e.ow) / 2) ++ uebits 0 ++ uebits ((e.codedH - e.oh) / (if fmt422 then 1 else 2)) else [])
    ++ uebits depth ++ uebits depth ++ uebits 12 ++ [true] ++ e.dpbBits ++ uebits 0 ++ uebits 3 ++ uebits 0 ++ uebits 3
    ++ uebits (unstated 5 4) ++ uebits (unstated 6 4) ++ [false, true, true, false] ++ uebits 0 ++ [false, true, true, true] ++ e.vui q
    ++ [false])))

def EncSt.pps (e : EncSt) : List Byte :=
  nalUnit 34 (bytesOfBits (trailed (uebits ppsId ++ uebits spsId ++ [false, false] ++ ubits 3 0 ++ [true, false] ++ uebits (e.numRef - 1) ++ uebits 0
    ++ sebits (initQp - 26) ++ [false, true, true] ++ uebits 0 ++ sebits 0 ++ sebits 0 ++ [false, false, false, false, false, false, true]
    ++ [false, false, false] ++ uebits (unstated 7 4) ++ [false, false])))

/-! ### Ahead of the slices, and after them (R249) -/

/-- The access unit delimiter. -/
def audNal (irap : Bool) : List Byte := nalUnit 35 (bytesOfBits (trailed (ubits 3 (if irap then 0 else 1))))

/-- The buffering period message: its initial removal delay is ⌊90,000 × CPB ÷ MAX_BR⌋ ticks of 90 kHz (R257). -/
def EncSt.bufferingSei (e : EncSt) : List Byte :=
  seiNal 39 0 (seiBits (uebits spsId ++ [false, false] ++ ubits 32 (unstated 8 0xFFFFFFFF) ++ ubits 32 (90000 * e.cpb / e.maxBr) ++ ubits 32 0))

/-- The picture timing message: slots since the last buffering period, and no output delay. -/
def timingSei (since : Nat) : List Byte := seiNal 39 1 (seiBits (ubits 32 (since - 1) ++ ubits 32 0))

/-- The NAL units ahead of row 0 and of the frame-information SEI; `since` counts slots since the last IRAP. -/
def EncSt.leadNals (e : EncSt) (q : EncSrc) (irap : Bool) (since : Nat) : List (List Byte) :=
  [audNal irap] ++ (if irap then [e.vps, e.sps q, e.pps] else [])
    ++ (if e.hrd then (if irap then [e.bufferingSei] else []) ++ [timingSei since] else [])

/-- The picture's buffer at its coded size (R272). -/
def EncSt.lay (e : EncSt) : TapCfg := { engine := 4, ow := e.codedW, oh := e.codedH, pack := e.pack }

/-- CRC of a component (H.265, D.3.19): a register of 16 bits, from 0xFFFF, through which the data's bits and 16 zeros pass. -/
def pictureCrc (bs : List Byte) : Nat :=
  let bit := fun (c : Nat) (b : Bool) => (c * 2 + b2n b) % 0x10000 ^^^ (if c < 0x8000 then 0 else 0x1021)
  (bs ++ [0, 0]).foldl (fun c (b : Byte) => (ubits 8 b.toNat).foldl bit c) 0xFFFF

/-- The decoded picture hash SEI (R249): the CRC of each component of the reconstruction, whose codes stand in the high bits of its samples;
low byte first where they have more than 8 bits. -/
def EncSt.hashNal (e : EncSt) (recon : List (Nat × List Byte)) : List Byte :=
  let store := recon.foldl (fun (m : List (Nat × Byte)) w => (List.range w.2.length).foldl (fun m i => storePut m (w.1 + i) (w.2.getD i 0)) m) []
  let row := fun (k y : Nat) =>
    let n := (planeBytes e.lay).getD k 0
    halfWords (bytesAt (storeGet memDefault store) ((planeOffsets e.lay).getD k 0 + y * pitchOf n) n)
  let rows := fun (k : Nat) => (List.range ((planeLines e.lay).getD k 0)).map (row k)
  let chroma := fun (o : Nat) => (rows 1).flatMap (fun l => (List.range (l.length / 2)).map (fun x => l.getD (2 * x + o) 0))
  let crc := fun (l : List Nat) => pictureCrc (l.flatMap (fun v => if e.profile = 0 then leBytes 1 (v / 0x100) else leBytes 2 (v / 0x40)))
  seiNal 40 132 ([1] ++ [(rows 0).flatten, chroma 0, chroma 1].flatMap (fun l => beBytes 2 (crc l)))

/-! ### Slices -/

/-- Bits that hold a CTU address of the picture. -/
def EncSt.addressBits (e : EncSt) : Nat := Nat.log2 (2 * (e.ctuW * e.rowsN) - 1)

/-- NAL unit type of a picture's slices: IDR_N_LP, CRA_NUT, or trailing. -/
def EncPic.nalType (p : EncPic) : Nat := if p.idr then 20 else if p.irap then 21 else 1

/-- The slice segment header of row `j` (R248), up to its alignment: one independent segment a row, its RPS in it. -/
def EncSt.sliceHeader (e : EncSt) (p : EncPic) (j qp : Nat) : List Bool :=
  let slots := p.refs.map (·.2)
  let gaps := List.zipWith (fun a b => a - b - 1) (p.slot :: slots) slots
  trailed (flagBit (j == 0) ++ (if p.irap then [false] else []) ++ uebits ppsId ++ (if j = 0 then [] else ubits e.addressBits (j * e.ctuW))
    ++ uebits (if p.irap then 2 else 1)
    ++ (if p.idr then [] else ubits 16 p.poc ++ [false] ++ uebits slots.length ++ uebits 0 ++ gaps.flatMap (fun g => uebits g ++ [true]) ++ [true])
    ++ [true, true]
    ++ (if p.irap then []
      else (if slots.length = e.numRef then [false] else [true] ++ uebits (slots.length - 1))
        ++ (if 1 < slots.length then uebits (unstated 9 (slots.length - 1)) else []) ++ uebits (unstated 10 4))
    ++ sebits ((qp : Int) - initQp) ++ [true])

/-- The slice NAL unit of a row. -/
def EncSt.sliceNal (e : EncSt) (p : EncPic) (j : Nat) (r : EncRow) : List Byte :=
  nalUnit p.nalType (bytesOfBits (e.sliceHeader p j r.qp) ++ r.data)

/-! ### Source samples (R248, R251) -/

/-- A sample as the encoder takes it: a 10-bit code, or for Main min(255, (code + 2) >> 2). -/
def EncSt.sample (e : EncSt) (halfWord : Nat) : Nat := if e.profile = 0 then min 255 ((halfWord / 64 + 2) / 4) else halfWord / 64

/-- The source samples of CTU row `j`: Y, Cb and Cr lines of the tap's buffer, its last column and line repeated up to the coded size. -/
def State.rowSource (s : State) (e : EncSt) (q : EncSrc) (j : Nat) : List (List (List Nat)) :=
  let lay : TapCfg := { engine := 4, ow := e.ow, oh := e.oh, pack := e.pack }
  let line := fun (k y : Nat) =>
    let n := (planeBytes lay).getD k 0
    (halfWords (s.memBytes (q.addr + (planeOffsets lay).getD k 0 + y * pitchOf n) n)).map e.sample
  let rows := fun (k step : Nat) =>
    let last := (planeLines lay).getD k 0 - 1
    (List.range (min (64 * (j + 1)) e.codedH / step - 64 * j / step)).map (fun i => line k (min last (64 * j / step + i)))
  let wide := fun (n : Nat) (l : List Nat) => l ++ List.replicate (n - l.length) (l.getLastD 0)
  let chroma := rows 1 (if e.pack = 3 then 2 else 1)
  let pick := fun (o : Nat) => chroma.map (fun l => wide (e.codedW / 2) ((List.range (l.length / 2)).map (fun x => l.getD (2 * x + o) 0)))
  [(rows 0 1).map (wide e.codedW), pick 0, pick 1]

/-- What the coding of row `j` of a picture depends on (R256). -/
def State.codeIn (s : State) (e : EncSt) (p : EncPic) (j : Nat) (r : EncRow) : CodeIn where
  settings := [e.profile, e.words.getD 1 0, e.words.getD 2 0, e.words.getD 3 0, e.codedW, e.codedH]
  search := p.search
  row := j
  irap := p.irap
  qps := r.qps
  source := s.rowSource e p.src j
  refs := p.refs.map (fun x => (p.slot - x.2, s.memBytes (s.poolAddr x.1) s.poolStride))
  above := p.recon

end Sys2Proof.Machine
end

