-- ==== Sys2Proof/Machine/Pixel.lean ====
section
/-!
DEFINITION. The pixel engine and the entropy engines at work: CTU rows, slices, emission units
(spec/12_video_encoder.md, R246, R249, R253 to R261, R264; spec/13, R279, R281).
-/
namespace Sys2Proof.Machine
open Sys2Proof

/-- Stream `i` has a row the pixel engine may take (R253). -/
def State.encEligible (s : State) (i : Nat) : Bool :=
  let e := s.es i
  match e.pic with
  | some p =>
    let j := p.rows.length
    decide (j < e.rowsN) && (decide (j < 2) || (p.rows.getD (j - 2) noRow).slice.isSome)
      && e.sourceReady p.src j
  | none =>
    match e.queue with
    | ⟨_, some q⟩ :: _ => s.encState i == 2 && e.sourceReady q 0
    | _ => false

/-- The requester the pixel engine serves next: round-robin after the last (R246); 16 + d for session d. -/
def State.peNext (s : State) : Option Nat :=
  ((List.range 18).map (fun k => (s.cdc.peLast + 1 + k) % 18)).find? (fun w =>
    if w < 16 then s.encEligible w else (s.ds (w - 16)).peRow.isSome)

/-- The row of stream `i` enters the pixel engine at a QP; a row beyond a partial source makes the picture SRC_PARTIAL (R254). -/
def State.rowIn (s : State) (i : Nat) (p : EncPic) (qp : Nat) : State :=
  let e := s.es i
  let j := p.rows.length
  let beyond := p.src.ended && decide (p.src.lines < min e.oh (64 * j + 64))
  let s := if beyond ∧ p.partly = false then s.encErr i CDC_S_ERR__SRC_PARTIAL else s
  let p := { p with partly := p.partly || beyond, rows := p.rows ++ [{ qp := qp, qps := e.ctuQps p j qp, beyond := beyond }] }
  let s := s.modEs i (fun e => { e with pic := some p })
  let s := ((s.setF (CDC_S_STATE__ROW i) j).setF (CDC_S_STATE__QP i) qp).setB (CDC_S_STATE__EXHAUSTED i) p.exhausted
  { s with cdc := { s.cdc with pe := some (i, j), peLast := i } }

/-- Row 0 of a picture enters (R249, R255 to R258, R263). -/
def State.picIn (s : State) (i slot : Nat) (q : EncSrc) : State :=
  let e := s.es i
  let irap := e.first || (e.irapPeriod != 0 && decide (e.irapPeriod ≤ slot - e.lastIrap)) || e.irapReq || e.rateChange || e.resume
  let idr := irap && (e.irapIdr || e.rateChange)
  let v : Int := if e.rateChange then 0 else e.v
  let lastIdr := if idr then slot else e.lastIdr
  let poc := (slot - lastIdr) % 0x10000
  let d := e.perSlot e.maxBr
  let bn := e.perSlot e.target
  let l : Int := e.cpbBits - v
  let ra := e.ra (if irap then 96 else 64)
  let t : Int := max ((bn / 4 : Nat) : Int) (min ((bn : Int) + ((e.cpbBits / 2 : Nat) - v) / 4) (l - ra))
  let sei := if e.infoSei then [infoSei e.ctx q (q.fp.getD s.devFp) s.dev.commitSeq.toNat poc] else []
  let nals := e.leadNals q irap (slot - e.lastIrap) ++ sei
  let refs := if irap then [] else (e.refs.zip e.refSlots).take e.numRef
  let search := if s.f (CDC_S_STATE__DEG i) = 1 then e.search / 4 else e.search
  let h := (nals.map sliceBits).sum
  let qp0 := e.firstQp irap
  let p : EncPic := {
    src := q, slot := slot, poc := poc, irap := irap, idr := idr, qp0 := qp0, d := d, t := t, l := l, h := h, lead := nals
    roi := e.roi, refs := refs, search := search }
  let mine := (List.range s.poolCount).filter (fun b => bitAt (s.marks b) i && !((e.refs.take e.numRef).contains b))
  let s := s.modEs i (fun e => { e with
    first := false, lastIrap := if irap then slot else e.lastIrap, lastIdr := lastIdr, v := v
    irapReq := e.irapReq && !irap, rateChange := e.rateChange && !irap, resume := e.resume && !irap, queue := e.queue.tail
    refs := (if irap then [] else e.refs), refSlots := (if irap then [] else e.refSlots) })
  let s := match mine with
    | b :: _ => (s.wn (CDC_POOL_B_INFO b) poc).modEs i (fun e => { e with
      refs := b :: e.refs.take e.numRef, refSlots := slot :: e.refSlots.take e.numRef })
    | [] => s
  let s := s.setB (CDC_S_STATE__IRAP_PEND i) (e.irapReq && !irap)
  let s := (s.wn (CDC_S_CPB_V i) (ofInt 32 v)).wn (CDC_S_TARGET i) (if e.rcMode = 0 then 0 else ofInt 32 t)
  (s.rowIn i p qp0).encPartial i

/-- A later row of the current picture enters (R258, R259). -/
def State.nextIn (s : State) (i : Nat) (p : EncPic) : State :=
  let e := s.es i
  if e.rcMode = 0 then s.rowIn i p p.qp0
  else
    let q := e.nextQp p p.rows.length
    let s := if q.2 ∧ p.exhausted = false ∧ p.minimal = false then s.flagOver i else s
    s.rowIn i { p with exhausted := q.2 } q.1

/-- The degrade level omits the slot (R263). -/
def EncSt.omits (e : EncSt) (deg slot : Nat) : Bool :=
  deg == 3 || (deg == 2 && !e.first && (slot - e.lastIrap) % 2 == 1)

/-- PE_ROW_START (R246, R253, R255 to R263, R278): the pixel engine takes the next eligible row. -/
def execPeRowStart (s : State) : Res :=
  if s.cdc.pe.isSome then .next s
  else
    match s.peNext with
    | none => .next s
    | some w =>
      if w < 16 then
        let e := s.es w
        match e.pic with
        | some p => .next (s.nextIn w p)
        | none =>
          match e.queue with
          | ⟨slot, some q⟩ :: t =>
            if e.omits (s.f (CDC_S_STATE__DEG w)) slot then
              let s := s.modEs w (fun e => { e with queue := ⟨slot, none⟩ :: t })
              .next ((s.slotMissed w).settleEnc w)
            else .next (s.picIn w slot q)
          | _ => .next s
      else
        match (s.ds (w - 16)).peRow with
        | some r => .next { s with cdc := { s.cdc with pe := some (w, r), peLast := w } }
        | none => .next s

/-- Write bytes that lie wholly inside an area of the working region. -/
def State.writeIn (s : State) (ok : Nat → Nat → Bool) (l : List (Nat × List Byte)) : State :=
  l.foldl (fun s w => if ok w.1 w.2.length then s.writeMem w.1 w.2 else s) s

/-- Change row `j` of the picture in the engines. -/
def EncPic.modRow (p : EncPic) (j : Nat) (g : EncRow → EncRow) : EncPic :=
  { p with rows := p.rows.set j (g (p.rows.getD j noRow)) }

/-- The pixel engine has coded row `j` of stream `w` (R247, R256, R258, R260): its syntax records, of at most 64 KiB a CTU, go to the half of
the syntax buffer that rows of its parity use (DEDUCED, log 99), its reconstruction to the picture's pool buffer; slice data take at most 8
bits a bin. -/
def State.encRowDone (s : State) (w : Nat) (e : EncSt) (p : EncPic) (j : Nat) : State :=
  let row := p.rows.getD j noRow
  let x := s.codeIn e p j row
  let header := (e.sliceHeader p j row.qp).length
  let res := e.walk p j x (row.beyond && !p.irap) e.ctuW (header, [], p.minimal)
  let at_ := fun (i : Nat) => e.synBase + (j % 2 * e.ctuW + i) * 0x10000
  let s := (List.range e.ctuW).foldl (fun s i => s.writeMem (at_ i) ((Config.ctuRecord x res.2.1 i).take 0x10000)) s
  let recon := (Config.rowRecon x res.2.1).filter (fun r => decide (r.1 + r.2.length ≤ s.poolStride))
  let s := match e.refs.head?, e.refSlots.head? with
    | some b, some k => if k = p.slot then recon.foldl (fun (s : State) (r : Nat × List Byte) => s.writeMem (s.poolAddr b + r.1) r.2) s else s
    | _, _ => s
  let s := if res.2.2 ∧ p.minimal = false then
      let s := (s.encErr w CDC_S_ERR__HRD_MIN).bumpStat (CDC_S_MIN_CNT w)
      if p.exhausted then s else s.flagOver w
    else s
  let data := (Config.sliceData x res.2.1).take (res.1 - header)
  let p := { p.modRow j (fun q => { q with beta := some res.1, data := data }) with minimal := res.2.2, recon := p.recon ++ recon }
  let s := s.modEs w (fun e => { e with pic := some p })
  s.enqueue (.enc w j)

/-- PE_ROW_DONE (R247, R253, R258, R260, R279): a row leaves the pixel engine; `r` is what it leaves of a decoded picture. -/
def execPeRowDone (r : RowOut) (s : State) : Res :=
  match s.cdc.pe with
  | none => .next s
  | some (w, j) =>
    let s := { s with cdc := { s.cdc with pe := none } }
    let inPool := fun (b a n : Nat) => decide (s.poolAddr b ≤ a) && decide (a + n ≤ s.poolAddr b + s.poolStride)
    if w < 16 then
      let e := s.es w
      match e.pic with
      | none => .next s
      | some p => .next (s.encRowDone w e p j)
    else
      let d := w - 16
      match (s.ds d).cur with
      | none => .next s
      | some p =>
        let s := s.writeIn (inPool p.buf) r.writes
        let s := s.modDs d (fun e => { e with cur := some { p with peRow := j + 1, lines := max p.lines (min r.final p.height) } })
        .next (s.decLand d p.buf (max p.lines (min r.final p.height)) false)

/-- Output the unit of row `j` (R249, R264 to R266). -/
def State.emitRow (s : State) (i : Nat) (p : EncPic) (j : Nat) (filler : List (List Byte)) : State :=
  let e := s.es i
  let row := p.rows.getD j noRow
  let body := match row.slice with
    | some x => x.1 :: x.2
    | none => []
  let nals := ((if j = 0 then p.lead else []) ++ body).map (fun n => (false, n)) ++ filler.map (fun n => (true, n))
  let fin := decide (j + 1 = e.rowsN)
  let ovr := p.exhausted || p.minimal
  let u : EmUnit := {
    nals := nals, fid := p.src.fid, row := j, poc := p.poc, epoch := p.src.epoch, ns := p.src.ns
    flags := b2n (j == 0) + 2 * b2n fin + 4 * b2n p.irap + 8 * b2n ovr + 16 * b2n p.minimal + 32 * b2n p.partly
      + 256 * row.qp }
  let s := if e.hostOn then s.hostUnit i u else s
  if e.strOn then s.strUnit i u else s

/-- The access unit is complete (R257, R258): V, history, counters. -/
def State.picDone (s : State) (i : Nat) (p : EncPic) (b : Nat) : State :=
  let s := s.bumpEvt .cdc (CDC_S_PIC_CNT i)
  let s := (s.wn (CDC_S_LAST_FID i) p.src.fid).wn (CDC_S_LAST_POC i) p.poc
  let s := s.modEs i (fun e => { e with
    v := if e.rcMode = 0 then e.v else max 0 (e.v + b - p.d), prev := some (p.qp0, b, p.t), prevOver := p.exhausted || p.minimal
    pic := none })
  (s.settleEnc i).encStopped i

/-- Emit the units whose slices are coded, in row order, at most `k` (R246). -/
def State.emitRows (i : Nat) : Nat → State → State
  | 0, s => s
  | k + 1, s =>
    let e := s.es i
    match e.pic with
    | none => s
    | some p =>
      match (p.rows.getD p.emitted noRow).slice with
      | none => s
      | some x =>
        let j := p.emitted
        let bits := p.bits + (if j = 0 then p.h else 0) + ((x.1 :: x.2).map sliceBits).sum
        let p := { p with emitted := j + 1, bits := bits }
        let s := s.modEs i (fun e => { e with pic := some p })
        if j + 1 < e.rowsN then State.emitRows i k (s.emitRow i p j [])
        else
          let lack : Int := p.d - e.v - bits
          let filler := if e.rcMode = 1 ∧ 0 < lack then [fillerNal lack.toNat] else []
          (s.emitRow i p j filler).picDone i p bits

/-- ENTROPY_SLICE_DONE (R246, R249, R253, R257, R264 to R266, R269, R278, R281). -/
def execEntropySliceDone (o : EntropyOut) (s : State) : Res :=
  match o with
  | .parsed d item => .next (s.decItem d.val item)
  | .coded k =>
    match s.cdc.ee.getD k.val none with
    | some (.enc i j) =>
      let e := s.es i
      let suffix := fun (p : EncPic) => if j + 1 = e.rowsN ∧ e.hashSei = true then [e.hashNal p.recon] else []
      let s := s.modEs i (fun e => { e with
        pic := e.pic.map (fun p => p.modRow j (fun r => { r with slice := some (e.sliceNal p j r, suffix p) })) })
      .next (State.emitRows i e.rowsN (s.freeEngine k.val))
    | _ => .next s

/-- CDC_ENG_STAT. -/
def State.engWho (j : Option EntJob) : Nat :=
  match j with
  | some (.enc i _) => i
  | some (.dec _) => 0x1E
  | none => 0x1F
def State.engStat (s : State) : Nat :=
  let e0 := s.cdc.ee.getD 0 none
  let e1 := s.cdc.ee.getD 1 none
  let pw := match s.cdc.pe with
    | some (w, _) => if w < 16 then w else 0x1E
    | none => 0x1F
  0x80000000 * b2n s.cdc.pe.isSome + 0x1000000 * pw + 0x800000 * b2n e1.isSome + 0x10000 * State.engWho e1
    + 0x8000 * b2n e0.isSome + 0x100 * State.engWho e0

/-- PERST_N and DEV_RESET at the coding engine: streams FREE, sessions closed, marks clear. -/
def State.cdcReset (s : State) : State := { s with cdc := {} }

end Sys2Proof.Machine
end

