-- ==== Sys2Proof/Machine/Dsp.lean ====
section
/-!
DEFINITION. Frame cadence grids (spec/17_time_network.md, R345) and timing generators: rasters, targets, timecode, and
the opcodes of group 0x08 (spec/15_display_outputs.md, R309 to R321).
-/
namespace Sys2Proof.Machine
open Sys2Proof

/-! ### Frame cadence grids -/

def State.fcg (s : State) (k : Nat) : FcgSt := s.tim.fcg.toList.getD k {}
def State.modFcg (s : State) (k : Nat) (g : FcgSt → FcgSt) : State :=
  { s with tim := { s.tim with fcg := s.tim.fcg.setIfInBounds k (g (s.fcg k)) } }

/-- The timebase in units of 2^−32 ns. -/
def State.nowFx (s : State) : Nat := s.now * 0x100000000 + s.rn TIM_NOW_FRAC
/-- Grid time of tick `k` in units of 2^−32 ns. -/
def FcgCfg.at_ (c : FcgCfg) (k : Int) : Int := (c.origin * 0x100000000 : Nat) + k * c.period
/-- The first tick later than a time. -/
def FcgCfg.after (c : FcgCfg) (t : Int) : Int := (t - (c.origin * 0x100000000 : Nat)) / (max 1 c.period : Nat) + 1

/-- NEXT_NS and NEXT_EPOCH show the next tick. -/
def State.fcgShow (s : State) (k : Nat) : State :=
  let f := s.fcg k
  let t := f.live.at_ f.k / 0x100000000
  (s.wn (FCG_NEXT_NS k) (ofInt 32 t)).wn (FCG_NEXT_EPOCH k) (ofInt 32 (t / 0x100000000))

/-- A generator moves to the first grid point after now; one that falls less than half a period after the last tick is
skipped (R345). -/
def State.fcgMove (s : State) (k : Nat) : State :=
  let f := s.fcg k
  let n := f.live.after s.nowFx
  let near := match f.last with
    | some l => decide (2 * (f.live.at_ n - l) < f.live.period)
    | none => false
  let s := s.modFcg k (fun f => { f with k := if near then n + 1 else n })
  let s := if near then s.bumpStat (FCG_SKIP_CNT k) else s
  s.fcgShow k

/-! ### Generators and ports -/

def State.tg (s : State) (t : Nat) : TgSt := s.dsp.tg.toList.getD t {}
def State.modTg (s : State) (t : Nat) (g : TgSt → TgSt) : State :=
  { s with dsp := { s.dsp with tg := s.dsp.tg.setIfInBounds t (g (s.tg t)) } }
def State.dpt (s : State) (p : Nat) : DspPort := s.dsp.port.toList.getD p {}
def State.modDpt (s : State) (p : Nat) (g : DspPort → DspPort) : State :=
  { s with dsp := { s.dsp with port := s.dsp.port.setIfInBounds p (g (s.dpt p)) } }

/-- STATE of a port: 0 OFF, 1 ENABLING, 2 ON, 3 DETACHED. -/
def State.portState (s : State) (p : Nat) : Nat := s.f (DSP_P_STAT__STATE p)
/-- Ports enabled on a generator. -/
def State.portsOn (s : State) (t : Nat) : List Nat :=
  (List.range 4).filter (fun p => (s.dpt p).tg == some t && (s.portState p == 1 || s.portState p == 2))

/-- The composer of a generator, and the generator of a composer. -/
def State.cmpOf (s : State) (t : Nat) : Option Nat := s.dsp.route.getD t none
def State.tgOf (s : State) (n : Nat) : Option Nat := (List.range 4).find? (fun t => s.cmpOf t == some n)

/-- A line period as a fraction of ns. -/
def TgSt.lineNum (g : TgSt) : Nat := g.htotal * 1000000 * (if g.div then 1001 else 1000)
def TgSt.lineDen (g : TgSt) : Nat := 1000 * g.khz
/-- Start of line `k`, ns times `lineDen`. -/
def TgSt.lineAt (g : TgSt) (k : Nat) : Int := g.t0 * g.lineDen + k * g.lineNum

/-- The candidate first later than the start of the frame's active video, in 2^−32 ns (R311); none past the latest
start R292 allows. -/
def State.targetOf (s : State) (t : Nat) : Option Int :=
  let g := s.tg t
  let c := (s.fcg g.soft.fcg).live
  if g.soft.lock = false ∨ c.en = false ∨ g.lineDen = 0 then none
  else
    let a := g.lineAt g.active * 0x100000000 / (g.lineDen : Int)
    let ofs := g.soft.ofs * 0x100000000
    let x := c.at_ (c.after (a - ofs)) + ofs
    if (x - a) * g.lineDen ≤ ((g.vactive + g.soft.vmax) * g.lineNum : Nat) * 0x100000000 then some x else none

/-- The line whose start is the first at or after a time. -/
def TgSt.lineFrom (g : TgSt) (x : Int) : Nat :=
  let num := x * g.lineDen - g.t0 * g.lineDen * 0x100000000
  (-((-num) / ((max 1 g.lineNum : Nat) * 0x100000000 : Int))).toNat

/-- Blanking lines of the frame to come where the generator has one latch point: its count, and whether R311 bounded it.
None where R292's window is open. A generator that realigns waits for its target, or for the next tick where that one
would shorten the blanking (R312; log 101). -/
def State.fixedBlank (s : State) (t : Nat) : Option (Nat × Bool) :=
  let g := s.tg t
  let b := g.blank.getD 0
  if g.soft.vmin = g.soft.vmax then
    if g.realign then
      match s.targetOf t with
      | some x =>
        let k := g.lineFrom x
        some ((if b + g.soft.vmin ≤ k then k else g.lineFrom (x + (s.fcg g.soft.fcg).live.period)) - b, false)
      | none => some (g.soft.vmin, false)
    else some (g.soft.vmin, false)
  else if g.soft.lock then
    match s.targetOf t with
    | some x =>
      let k := g.lineFrom x
      if k < b + g.soft.vmin then some (g.soft.vmin, true)
      else if b + g.soft.vmax < k then some (g.soft.vmax, true)
      else some (k - b, false)
    | none => some (g.soft.vmax, true)
  else none

/-! ### Timecode (R313) -/

/-- Frame rate that the timecode counts, as a fraction. -/
def TgSt.tcRate (g : TgSt) : Nat × Nat :=
  if g.soft.time then (g.soft.num, g.soft.den)
  else if g.sdi then
    match g.rate with
    | 0 => (24000, 1001)
    | 1 => (24, 1)
    | 2 => (25, 1)
    | 3 => (30000, 1001)
    | 4 => (30, 1)
    | 5 => (50, 1)
    | 6 => (60000, 1001)
    | _ => (60, 1)
  else (g.khz * 1000 * 1000, g.htotal * (g.vactive + g.soft.vmin) * (if g.div then 1001 else 1000))

/-- Frames of a second as counted, and whether pairs are counted (ST 12-1). -/
def TgSt.tcFps (g : TgSt) : Nat × Bool :=
  let r := g.tcRate
  let f := if r.2 = 0 then 1 else max 1 ((2 * r.1 + r.2) / (2 * r.2))
  if 30 < f then ((f + 1) / 2, true) else (f, false)

/-- Frames in 24 hours. -/
def TgSt.tcDay (g : TgSt) : Nat :=
  let f := g.tcFps
  (if g.soft.df then 2589408 else f.1 * 86400) * (if f.2 then 2 else 1)

/-- A drop-frame count as a nominal 30 frames/s count. -/
def dropFrames (n : Nat) : Nat :=
  let m := n % 17982
  n + 18 * (n / 17982) + (if m < 2 then 0 else 2 * ((m - 2) / 1798))

/-- DSP_TGt_TC of a frame number: DF, HH, MM, SS, FF. -/
def TgSt.tcWord (g : TgSt) (n : Nat) : Nat :=
  let f := g.tcFps
  let n := if f.2 then n / 2 else n
  let n := if g.soft.df then dropFrames n else n
  let fps := if g.soft.df then 30 else f.1
  n % fps + 0x100 * (n / fps % 60) + 0x10000 * (n / fps / 60 % 60) + 0x1000000 * (n / fps / 3600 % 24) + 0x80000000 * b2n g.soft.df

/-- The frame number of a preload in the DSP_TGt_TC layout. -/
def TgSt.tcNumber (g : TgSt) (w : Nat) : Nat :=
  let f := g.tcFps
  let fps := if g.soft.df then 30 else f.1
  let m := bitsAt w 24 7 * 60 + bitsAt w 16 8
  let n := (m * 60 + bitsAt w 8 8) * fps + bitsAt w 0 8
  let n := if g.soft.df then n - 2 * (m - m / 10) else n
  if f.2 then 2 * n else n

/-- The timecode of the frame to come, fixed at its latch, which falls at the time `at_`, ns. -/
def State.tcNext (s : State) (t : Nat) (at_ : Int) : Nat :=
  let g := s.tg t
  let day := max 1 g.tcDay
  if g.soft.time then
    let e : Int := match s.targetOf t with
      | some x => x / 0x100000000
      | none => at_
    (((e - g.soft.origin) * g.soft.num / ((g.soft.den * 1000000000 : Nat) : Int)) % (day : Int)).toNat
  else
    match g.soft.preload with
    | some w => g.tcNumber w % day
    | none => (g.tc + 1) % day

/-! ### DSP_SET_TIMING (R310, R313, R315) -/

/-- Active size of an SDI raster, its total lines and its HTOTAL by RATE (Table 15-1; totals PRESUMED from the SMPTE
standards the spec names, log 26). -/
def sdiRaster (raster rate : Nat) : Option (Nat × Nat × Nat × Nat) :=
  let slow := fun (a b c : Nat) => match rate with
    | 0 => a
    | 1 => a
    | 2 => b
    | 5 => b
    | _ => c
  match raster with
  | 0 => if 5 ≤ rate then some (1280, 720, 750, if rate = 5 then 1980 else 1650) else none
  | 1 => some (1920, 1080, 1125, slow 2750 2640 2200)
  | 2 => some (2048, 1080, 1125, slow 2750 2640 2200)
  | 3 => some (3840, 2160, 2250, slow 5500 5280 4400)
  | 4 => some (4096, 2160, 2250, slow 5500 5280 4400)
  | _ => none

/-- Frames per second of a RATE code before ÷ 1.001. -/
def sdiFps (rate : Nat) : Nat := [24, 24, 25, 30, 30, 50, 60, 60].getD rate 60
def sdiDiv (rate : Nat) : Bool := rate == 0 || rate == 3 || rate == 6

/-- The settings a packet asks for; the second part is whether word 8 preloads. -/
def timingOf (p : Pkt) : Option TgSt :=
  let soft : TgSoft := {
    vmin := p.b 3 0 16, vmax := p.b 3 16 16, lock := p.t 0 12, fcg := p.b 0 13 2, ofs := sext 32 (p.w 5), time := p.t 0 16
    df := p.t 0 17, num := p.w 9, den := p.w 10, origin := p.q 6
    preload := if p.w 8 = 0xFFFFFFFF then none else some (p.w 8) }
  let g : TgSt := {
    set := true, sdi := p.t 0 0, hactive := p.b 1 0 16, vactive := p.b 1 16 16, htotal := p.b 2 0 16, khz := p.b 4 0 24
    soft := soft }
  if p.t 0 0 then
    (sdiRaster (p.b 0 1 4) (p.b 0 8 3)).map (fun q => { g with
      raster := p.b 0 1 4, rate := p.b 0 8 3, hactive := q.1, vactive := q.2.1, htotal := q.2.2.2
      khz := q.2.2.1 * q.2.2.2 * sdiFps (p.b 0 8 3) / 1000, div := sdiDiv (p.b 0 8 3)
      soft := { soft with vmin := q.2.2.1 - q.2.1, vmax := q.2.2.1 - q.2.1 } })
  else some g

/-- R310, and the timecode limits of R313. -/
def TgSt.limitsOk (g : TgSt) : Bool :=
  let r := g.tcRate
  let drop := r.1 * 1001 == r.2 * 30000 || r.1 * 1001 == r.2 * 60000
  decide (64 ≤ g.hactive) && decide (g.hactive ≤ 8192) && g.hactive % 2 == 0 && decide (64 ≤ g.vactive)
    && decide (g.vactive ≤ 8192) && decide (g.hactive + 32 ≤ g.htotal) && decide (8 ≤ g.soft.vmin)
    && decide (g.soft.vmin ≤ g.soft.vmax) && decide (g.soft.vmax ≤ 8191) && g.khz != 0
    && (!g.soft.time || (g.soft.num != 0 && g.soft.den != 0)) && (!g.soft.df || drop)

/-- A generator's status registers. -/
def State.showTg (s : State) (t : Nat) : State :=
  let g := s.tg t
  let ports := ((List.range 4).map (fun p => if (s.dpt p).tg = some t then 2 ^ p else 0)).sum
  let s := s.setB (DSP_TG_STAT__RUN t) g.set
  let s := s.setB (DSP_TG_STAT__SDI t) g.sdi
  let s := s.setB (DSP_TG_STAT__LOCK_EN t) g.soft.lock
  let s := s.setF (DSP_TG_STAT__PORTS t) ports
  let s := s.setF (DSP_TG_STAT__CMP t) ((s.cmpOf t).getD 7)
  let s := s.wn (DSP_TG_SIZE t) (g.hactive + 0x10000 * g.vactive)
  s.wn (DSP_TG_VBLANK t) (g.soft.vmin + 0x10000 * g.soft.vmax)

/-- The composer's live set has another size than a generator's (R309, R310). -/
def State.sizeClash (s : State) (n : Option Nat) (g : TgSt) : Bool :=
  match n with
  | some n => match (s.cmpU n).live with
    | some l => l.outW != g.hactive || l.outH != g.vactive
    | none => false
  | none => false

/-- DSP_SET_TIMING (R310, R313, R315, R320, R321). -/
def execDspSetTiming (p : Pkt) (s : State) : Res :=
  .next (runOp 0x0800 p s (fun s =>
    let t := p.idx - 0x10
    let g := s.tg t
    match timingOf p with
    | none => (s, some (refuse stBadParam 0x8005))
    | some n =>
      let hard := g.set = false ∨ g.sdi ≠ n.sdi ∨ g.raster ≠ n.raster ∨ g.rate ≠ n.rate ∨ g.hactive ≠ n.hactive
        ∨ g.vactive ≠ n.vactive ∨ g.htotal ≠ n.htotal ∨ g.khz ≠ n.khz ∨ g.div ≠ n.div
      if n.limitsOk = false then (s, some (refuse stBadParam 0x8002))
      else if hard ∧ s.portsOn t ≠ [] then (s, some (refuse stState 0x8001))
      else if (g.hactive ≠ n.hactive ∨ g.vactive ≠ n.vactive) ∧ s.sizeClash (s.cmpOf t) n then (s, some (refuse stState 0x800B))
      else
        let s0 := s
        let s := if hard then s.modTg t (fun _ => { n with t0 := s.now })
          else s.modTg t (fun g => { g with
            next := some { n.soft with preload := n.soft.preload.or (g.next.bind (·.preload)) } })
        ((s.showTg t).commitSince s0, some ok)))

/-! ### DSP_ROUTE (R309, R315) -/

/-- A 4-bit route entry. -/
def routeAt (w i : Nat) : Option Nat := let v := bitsAt w (4 * i) 4; if v = 0xF then none else some v

/-- A generator holds an SDI format that an SDI port accepts (R315). -/
def TgSt.sdiOk (g : TgSt) : Bool := g.set && g.sdi && g.soft.vmin == g.soft.vmax

/-- DSP_ROUTE (R309, R315, R320, R321). -/
def execDspRoute (p : Pkt) (s : State) : Res :=
  .next (runOp 0x0801 p s (fun s =>
    let cs := (List.range 4).map (routeAt (p.w 0))
    let gs := (List.range 4).map (routeAt (p.w 1))
    let bad := (cs ++ gs).any (fun v => match v with | some k => decide (3 < k) | none => false)
    let twice := (List.range 4).any (fun n => decide (1 < (cs.filter (fun v => v == some n)).length))
    let src := fun (rs : List (Option Nat)) (g : Option Nat) => match g with
      | some t => rs.getD t none
      | none => none
    let touched := (List.range 4).any (fun q => (s.portState q == 1 || s.portState q == 2)
      && ((s.dpt q).tg != gs.getD q none || src s.dsp.route (s.dpt q).tg != src cs (gs.getD q none)))
    let clash := (List.range 4).any (fun t => (s.tg t).set && s.sizeClash (cs.getD t none) (s.tg t))
    if bad ∨ twice then (s, some (refuse stBadParam 0x8003))
    else if [0, 1].any (fun q => match gs.getD q none with | some t => !(s.tg t).sdiOk | none => false) then
      (s, some (refuse stBadParam 0x8005))
    else if touched then (s, some (refuse stState 0x8001))
    else if clash then (s, some (refuse stState 0x800B))
    else
      let s0 := s
      let s := { s with dsp := { s.dsp with route := cs } }
      let s := (List.range 4).foldl (fun s q =>
        (s.modDpt q (fun d => { d with tg := gs.getD q none })).setF (DSP_P_STAT__TG q) ((gs.getD q none).getD 7)) s
      (((List.range 4).foldl State.showTg s).commitSince s0, some ok)))

/-! ### Ports (R316 to R319) -/

/-- Audio ports that embedding takes (R316). -/
def audioTaken (w : Nat) : List Nat :=
  let a := bitsAt w 8 3
  let b := bitsAt w 12 3
  [a, (a + 1) % 8, b, (b + 1) % 8]

/-- DSI capacity holds (R317). -/
def dsiFits (g : TgSt) (w mbps : Nat) : Bool :=
  let lanes := [1, 2, 4].getD (bitsAt w 0 2) 4
  let bpp := if bitAt w 2 then 30 else 24
  decide (g.khz * 1000 * (if g.div then 1000 else 1001) * bpp * 100 ≤ 95 * mbps * 1000000 * lanes * 1001)

/-- DSP_PORT_ENABLE (R312, R315 to R317, R319, R321): the port is ON from the next vertical blanking of its generator
(log 25). -/
def execDspPortEnable (p : Pkt) (s : State) : Res :=
  let h := s.pktHdr 0x0802 p
  .next (runOp 0x0802 p s (fun s =>
    let q := p.idx
    let w := p.w 0
    let st := s.portState q
    let g := (s.dpt q).tg.map s.tg
    let go := fun (s : State) =>
      let s := (s.setF (DSP_P_STAT__STATE q) 1).modDpt q (fun d => { d with
        asked := if q < 2 then (w &&& 0x7778, 0) else (w &&& 0x3F, p.w 1), enabling := some h })
      let s := match (s.dpt q).tg with
        | some t => if (s.tg t).soft.vmin = (s.tg t).soft.vmax ∧ (s.tg t).soft.lock then s.modTg t (fun g => { g with realign := true }) else s
        | none => s
      (s, none)
    let held := match s.analogue (if q < 2 then 4 else 5) with | some m => bitAt m q | none => false
    if st = 1 ∨ st = 2 then (s, some (refuse stState 0x8001))
    else if s.bist 3 ∨ held = true then (s, some (refuse stState 0x8002))
    else if p.b 0 0 2 = 3 ∧ 2 ≤ q then (s, some (badWord 0))
    else if 2 ≤ q ∧ (p.w 1 < 80 ∨ 4500 < p.w 1) then (s, some (badWord 1))
    else
      match g with
      | none => (s, some (refuse stBadParam (if q < 2 then 0x8005 else 0x8003)))
      | some g =>
        if q < 2 then
          if g.sdiOk = false then (s, some (refuse stBadParam 0x8005))
          else if p.t 0 6 ∧ (audioTaken w).any (fun a => s.f (AUD_P_CFG__RATE a) != 1 || !s.on (AUD_P_CFG__CONFIGURED a)) then
            (s, some (refuse stBadParam 0x800A))
          else go s
        else if s.on (DSP_P_STAT__ATTACHED q) = false then (s, some (refuse stState 0x8006))
        else if dsiFits g w (p.w 1) = false then (s, some (refuse stBandwidth 0x8004))
        else go s))

/-- End a parked DSP_PORT_ENABLE. -/
def State.endEnable (s : State) (q : Nat) (o : Outc) : State :=
  match (s.dpt q).enabling with
  | some h => (s.finishF h o).modDpt q (fun d => { d with enabling := none })
  | none => s

/-- End every waiting DCS transfer of a port. -/
def State.endDcs (s : State) (q : Nat) (o : Outc) : State :=
  let s := (s.dpt q).dcs.foldl (fun s x => s.finishF x.1 o) s
  s.modDpt q (fun d => { d with dcs := [] })

/-- DSP_PORT_DISABLE (R321). -/
def execDspPortDisable (p : Pkt) (s : State) : Res :=
  .next (runOp 0x0803 p s (fun s =>
    let q := p.idx
    let s := s.endEnable q (refuse stAborted 0)
    let s := s.endDcs q (refuse stState 0x8008)
    ((s.setF (DSP_P_STAT__STATE q) 0).modDpt q (fun d => { d with anc := [] }), some ok)))

/-- DSP_DCS_XFER (R318, R321): the transfer waits for DCS_XFER_RUN. -/
def execDspDcsXfer (p : Pkt) (s : State) : Res :=
  let h := s.pktHdr 0x0804 p
  .next (runOp 0x0804 p s (fun s =>
    let q := p.idx
    let n := p.b 0 8 8
    let r := p.b 0 16 8
    if q < 2 then (s, some (badWord 0x7FFF))
    else if 128 < n ∨ 16 < r then (s, some (badWord 0))
    else if s.portState q = 0 ∨ s.portState q = 3 then (s, some (refuse stState 0x8008))
    else
      let bs := ((List.range 32).flatMap (fun k => leBytes 4 (p.w (1 + k)))).take n
      (s.modDpt q (fun d => { d with dcs := d.dcs ++ [(h, p.b 0 0 8, bs, r)] }), none)))

/-- DSP_SDI_ANC (R316, R321). -/
def execDspSdiAnc (p : Pkt) (s : State) : Res :=
  .next (runOp 0x0805 p s (fun s =>
    let q := p.idx
    let n := p.b 0 16 8
    let udw := (List.range 256).map (fun k => p.b (1 + k / 2) (16 * (k % 2)) 16)
    let bad := (List.range 256).find? (fun k => let v := udw.getD k 0; if k < n then decide (0x3FF < v) else v != 0)
    if 2 ≤ q then (s, some (badWord 0x7FFF))
    else
      match bad with
      | some k => (s, some (badWord (1 + k / 2)))
      | none =>
        if 4 ≤ (s.dpt q).anc.length then (s, some (refuse stNoResource 0x8009))
        else
          let s := s.modDpt q (fun d => { d with anc := d.anc ++ [⟨p.b 0 0 8, p.b 0 8 8, udw.take n, s.now, false⟩] })
          (s, some (ok [(s.dpt q).anc.length]))))

/-- DSP_STATUS (R321). -/
def execDspStatus (p : Pkt) (s : State) : Res :=
  .next (runOp 0x0806 p s (fun s =>
    let q := p.idx
    let g := match (s.dpt q).tg with
      | some t => [s.rn (DSP_TG_STAT t), s.rn (DSP_TG_PHASE t)]
      | none => [0, 0]
    (s, some (ok ([s.rn (DSP_P_STAT q), s.rn (DSP_P_ERR q)] ++ g)))))

/-- DCS_XFER_RUN (R318): a waiting transfer runs, in vertical blanking on an ON port; the panel acknowledges it with
data, or reports an error. -/
def execDcsXferRun (port : Fin 4) (acked : Bool) (report : W32) (data : List Byte) (s : State) : Res :=
  let q := port.val
  match (s.dpt q).dcs with
  | [] => .next s
  | (h, type, bs, n) :: rest =>
    let blanking := match (s.dpt q).tg with
      | some t => (s.tg t).blank.isSome
      | none => false
    if s.portState q = 2 ∧ blanking = false then .next s
    else
      let s := s.emit (.dcs q type bs)
      let s := s.modDpt q (fun d => { d with dcs := rest })
      if acked then
        let d := data.take n
        .next (s.finishF h (ok (wordsOf (padBytes 16 d) ++ [d.length])))
      else .next ((s.raise (DSP_P_ERR__DCS_ERR q)).finishF h (refuse stHwFault 0x8007 [0, report.toNat]))

/-- HOTPLUG (R319): debounced presence of a port changes. -/
def execHotplug (port : Fin 4) (present : Bool) (s : State) : Res :=
  let q := port.val
  if s.on (DSP_P_STAT__ATTACHED q) = present then .next s
  else
    let s := s.setB (DSP_P_STAT__ATTACHED q) present
    let s := s.raise (if present then DSP_P_ERR__HPD_GAIN q else DSP_P_ERR__HPD_LOSS q)
    let s := s.bumpEvt .dsp (DSP_P_HPD_CNT q)
    let s := s.log .dsp evDspHotplug (0x6000 + q) (b2n present)
    let s := match (s.dpt q).tg with
      | some t => s.pendIf (DSP_TG_IRQ__PEND t) 0 (s.on (DSP_TG_IRQ__HPD t)) (18 + t)
      | none => s
    if q < 2 ∨ present then .next s
    else
      let st := s.portState q
      let s := if st = 1 then s.endEnable q (refuse stState 0x8006) else s
      let s := if st = 1 ∨ st = 2 then (s.endDcs q (refuse stState 0x8008)).setF (DSP_P_STAT__STATE q) 3 else s
      .next s

end Sys2Proof.Machine
end

