-- ==== Sys2Proof/Machine/Aud.lean ====
section
/-!
DEFINITION. The audio ports (spec/16_audio.md): capture and play rings, channel status, loop-through, start and clock
faults.
-/
namespace Sys2Proof.Machine
open Sys2Proof

/-- An audio port's inner state. -/
def State.ap (s : State) (p : Nat) : AudPort := s.aud.port.toList.getD p {}
def State.modAp (s : State) (p : Nat) (g : AudPort → AudPort) : State :=
  { s with aud := { s.aud with port := s.aud.port.setIfInBounds p (g (s.ap p)) } }

/-- DIR is OUT. -/
def State.audOut (s : State) (p : Nat) : Bool := s.on (AUD_P_CFG__DIR p)
/-- SOURCE is HOST. -/
def State.audHost (s : State) (p : Nat) : Bool := s.f (AUD_P_CFG__SOURCE p) == 15
/-- The port runs from an external clock: a slave I²S port or an AES3 input (R322, R326). -/
def State.audExt (s : State) (p : Nat) : Bool :=
  if s.on (AUD_P_CFG__AES3 p) then !s.audOut p else s.on (AUD_P_CFG__SLAVE p)

/-- An ERR bit of a port is set: vector 29 (registers, AUD_IRQ). -/
def State.audErr (s : State) (p : Nat) (x : Fld) : State := (s.raise x).pendIf AUD_IRQ_PEND__PEND p (s.bit AUD_IRQ__EN p) 29

/-- Set a bit of the block's FLAGS (Table 16-2). -/
def State.audFlag (s : State) (p i : Nat) : State := s.modAp p (fun q => { q with flags := q.flags ||| 2 ^ i })

/-- TARGET of an audio port. -/
def audTarget (p : Nat) : Nat := 0x7000 + p

/-! ### Frames and slots (R323, R324, R328, R329) -/

/-- CRCC of AES3 over the first 23 bytes of a channel's status (R324; log 35). -/
def crcc (cs : List Byte) : Nat := (cs.take 23).foldl (fun c b => crcShiftR 0xB8 8 (c ^^^ b.toNat)) 0xFF

/-- Channel status with byte 23 computed for professional use (R324). -/
def withCrcc (cs : List Byte) : List Byte :=
  let cs := padBytes 24 cs
  if (cs.getD 0 0).toNat % 2 = 1 then cs.take 23 ++ [BitVec.ofNat 8 (crcc cs)] else cs

/-- Channel status of both channels, ready to send. -/
def sentCs (cs : List Byte) : List Byte := withCrcc (cs.take 24) ++ withCrcc (cs.drop 24)

/-- A received channel status fails its CRCC. -/
def crccBad (cs : List Byte) : Bool := (cs.getD 0 0).toNat % 2 == 1 && crcc cs != (cs.getD 23 0).toNat

/-- Channel status bytes of a block's C bits, frame 0 first. -/
def csBytes : Nat → List Bool → List Byte
  | 0, _ => []
  | n + 1, l => BitVec.ofNat 8 (ofMsb ((l.take 8 ++ List.replicate (8 - l.length) false).reverse)) :: csBytes n (l.drop 8)

/-- A sample as a ring stores it (R329): `z` on frame 0. -/
def subBytes (pack4 aes z : Bool) (x : AudSub) : List Byte :=
  if pack4 then
    leBytes 4 (x.smp.toNat + (if aes then 0x1000000 * b2n x.v + 0x2000000 * b2n x.u + 0x4000000 * b2n x.c + 0x8000000 * b2n x.p
      else 0) + 0x10000000 * b2n z)
  else leBytes 3 x.smp.toNat

/-- The sample area of a block. -/
def sampleBytes (pack4 aes : Bool) (fs : List AudFrame) : List Byte :=
  (List.range fs.length).flatMap (fun i =>
    let f := fs.getD i {}
    subBytes pack4 aes (i == 0) f.a ++ subBytes pack4 aes (i == 0) f.b)

/-- A sample read back from a ring. -/
def subOf (pack4 aes : Bool) (bs : List Byte) (o : Nat) : AudSub :=
  if pack4 then
    let w := leNat ((bs.drop o).take 4)
    { smp := BitVec.ofNat 24 w, v := aes && bitAt w 24 }
  else { smp := BitVec.ofNat 24 (leNat ((bs.drop o).take 3)) }

/-- Address of a ring slot. -/
def State.slotAddr (s : State) (p k : Nat) : Nat :=
  s.rn (AUD_P_RING_HI p) * 0x100000000 + s.f (AUD_P_RING_LO__BASE_LO p) * 0x1000 + 2048 * (k % 2 ^ s.f (AUD_P_CFG__LOG2N p))

/-- Write block `k` of an input port to its capture ring: samples and channel status, then the descriptor line (R328). -/
def State.writeSlot (s : State) (p : Nat) : State :=
  let q := s.ap p
  let aes := s.on (AUD_P_CFG__AES3 p)
  let fs := (q.frames ++ List.replicate (192 - q.frames.length) ({} : AudFrame)).take 192
  let zeros := q.zeros + (192 - q.frames.length)
  let vs := if aes then (q.frames.map (fun f => b2n f.a.v + b2n f.b.v)).sum else 0
  let cs := if aes then csBytes 24 (q.frames.map (·.a.c)) ++ csBytes 24 (q.frames.map (·.b.c)) else List.replicate 48 0
  let crccErr := aes && (crccBad (cs.take 24) || crccBad (cs.drop 24))
  let flags := q.flags ||| 1 ||| 128 * b2n crccErr ||| 512 * b2n (s.on (AUD_P_CFG__PACK4 p))
  let a := s.slotAddr p q.k
  let s := s.writeMem (a + 128) (sampleBytes (s.on (AUD_P_CFG__PACK4 p)) aes fs)
  let s := s.writeMem (a + 64) cs
  let s := s.writeMem a (padBytes 64 (leBytes 4 q.k ++ leBytes 4 q.epoch ++ leBytes 4 q.ns ++ leBytes 4 flags ++ leBytes 2 zeros
    ++ leBytes 2 vs))
  s.modAp p (fun q => { q with inCs := cs })

/-- The slot of block `k` of a play ring; none is an underrun (R331). -/
def State.readSlot (s : State) (p k : Nat) : Option PlayBlk :=
  let bs := s.memBytes (s.slotAddr p k) 1664
  let g := fun (a : Nat) => leNat ((bs.drop a).take 4)
  if g 0 ≠ k ∨ g 12 % 2 = 0 then none
  else
    let pack4 := s.on (AUD_P_CFG__PACK4 p)
    let aes := s.on (AUD_P_CFG__AES3 p)
    let w := if pack4 then 4 else 3
    some {
      frames := (List.range 192).map (fun i => ⟨subOf pack4 aes bs (128 + 2 * w * i), subOf pack4 aes bs (128 + 2 * w * i + w)⟩)
      cs := (bs.drop 64).take 48 }

/-! ### Slots on the line (R323, R324) -/

/-- The sample of an I²S slot: the top 24 of its 32 bits (R323). -/
def i2sSub (slot : Nat) : AudSub := { smp := BitVec.ofNat 24 (bitsAt slot 8 24) }

/-- Slots 4 to 31 of an AES3 subframe, slot 4 first, hold an odd number of ones (R324). -/
def aesOdd (slots : Nat) : Bool := (((List.range 28).map (fun i => bitsAt slots (4 + i) 1)).sum) % 2 == 1

/-- The sample of an AES3 subframe whose time slot `i` is bit `i`: audio LSB first in 4 to 27, then V, U, C and P, which
makes the parity even (R324). -/
def aesSub (slots : Nat) : AudSub :=
  { smp := BitVec.ofNat 24 (bitsAt slots 4 24), v := bitAt slots 28, u := bitAt slots 29, c := bitAt slots 30, p := aesOdd slots }

/-- Preambles in bits 3..0 of a subframe: the model's codes for X, Y and Z, which no biphase mark cells spell (log 102). -/
def aesPre (b : Bool) (i : Nat) : Nat := if b then 2 else if i = 0 then 3 else 1

/-- An AES3 subframe as sent: U is 0, P makes the parity even (R324). -/
def aesSlots (pre : Nat) (x : AudSub) : Nat :=
  let w := pre + 0x10 * x.smp.toNat + 0x10000000 * b2n x.v + 0x40000000 * b2n x.c
  w + 0x80000000 * b2n (aesOdd w)

/-- Bit `i` of a channel's status. -/
def csBit (cs : List Byte) (i : Nat) : Bool := bitAt ((cs.getD (i / 8) 0).toNat) (i % 8)

/-- The slots of a block as an output sends it: I²S, or AES3 with the channel status of both channels in its C bits. -/
def blockSlots (aes : Bool) (cs : List Byte) (fs : List AudFrame) : List (Nat × Nat) :=
  (List.range fs.length).map (fun i =>
    let f := fs.getD i {}
    if aes then
      (aesSlots (aesPre false i) { f.a with c := csBit (cs.take 24) i }, aesSlots (aesPre true i) { f.b with c := csBit (cs.drop 24) i })
    else (f.a.smp.toNat * 0x100, f.b.smp.toNat * 0x100))

/-! ### Monitoring paths (R332, R333; spec/15, R316) -/

/-- Samples of port `p` reach the SDI ports that embed it. -/
def State.embed (s : State) (p : Nat) (fs : List AudFrame) : State :=
  [0, 1].foldl (fun s q =>
    if s.portState q ≠ 2 ∨ bitAt (s.dpt q).word0 6 = false then s
    else (List.range 4).foldl (fun s i =>
      if (audioTaken (s.dpt q).word0).getD i 8 = p then s.emit (.embedded q (2 * i + 1) fs) else s) s) s

/-- A frame that port `p` receives, after R332, goes to its monitoring paths. -/
def State.monitor (s : State) (p : Nat) (f : AudFrame) : State :=
  let q := s.ap p
  let mute := q.nonAudio || q.rateMute.isSome
  let f : AudFrame := if mute then {} else f
  let s := (List.range 8).foldl (fun s o =>
    if s.on (AUD_P_STAT__RUN o) ∧ s.audOut o = true ∧ s.f (AUD_P_CFG__SOURCE o) = p then
      s.modAp o (fun q => { q with loop := (q.loop ++ [f]).drop (q.loop.length + 1 - 512) })
    else s) s
  s.embed p [f]

/-- MUTED of a port as its causes stand. -/
def State.showMute (s : State) (p : Nat) : State :=
  let q := s.ap p
  (s.setB (AUD_P_STAT__NON_AUDIO p) q.nonAudio).setB (AUD_P_STAT__MUTED p) (q.nonAudio || q.rateMute.isSome)

/-- The decision of R332 from a block's frame 1. -/
def State.nonAudioAt (s : State) (p : Nat) (f : AudFrame) : State :=
  let on := f.a.c || f.b.c
  let s := if on then s.audFlag p 1 else s
  if on = (s.ap p).nonAudio then s
  else ((s.modAp p (fun q => { q with nonAudio := on })).showMute p).log .aud evAudNonAudio (audTarget p) (b2n on)

/-! ### Blocks (R325 to R328, R331, R333) -/

/-- INC of R325 for the addend now in force. -/
def State.audInc (s : State) (p : Nat) : Nat :=
  let fs := [44100, 48000, 96000, 192000].getD (s.f (AUD_P_CFG__RATE p)) 48000
  let addend := s.rn TIM_ADDEND_HI * 0x100000000 + s.rn TIM_ADDEND_LO
  (2 * 128 * fs * addend + 1000000000) / 2000000000

/-- BLOCK shows block `k`; a wrap raises WRAP. -/
def State.showBlock (s : State) (p k : Nat) : State :=
  let wrap := decide (s.rn (AUD_P_BLOCK p) = 0xFFFFFFFF) && k == 0
  let s := s.wn (AUD_P_BLOCK p) k
  if wrap then s.log .aud evWrap 0xFFFF (AUD_P_BLOCK p) else s

/-- Fetch block `k` of a play ring; an underrun is counted, and logged when it is the first of a run (R331). -/
def State.playFetch (s : State) (p k : Nat) : State :=
  match s.readSlot p k with
  | some b => s.modAp p (fun q => { q with fetched := some (some b), under := false })
  | none =>
    let first := (s.ap p).under = false
    let s := s.modAp p (fun q => { q with fetched := some none, under := true })
    let s := (s.audErr p (AUD_P_ERR__UNDERRUN p)).bumpStat (AUD_P_UNDER_CNT p)
    if first then s.log .aud evAudUnderrun (audTarget p) k else s

/-- An output port sends frames; in the safe state, and while a rate change mutes it, it sends zeros (R335; spec/22, R418). -/
def State.audSend (s : State) (p : Nat) (fs : List AudFrame) (cs : List Byte) : State :=
  let fs := if s.dev.safe || (s.ap p).rateMute.isSome then fs.map (fun _ => ({} : AudFrame)) else fs
  (s.emit (.audio p (blockSlots (s.on (AUD_P_CFG__AES3 p)) cs fs))).embed p fs

/-- An output fed by the host plays block `k` from its boundary on. -/
def State.playHost (s : State) (p k : Nat) : State :=
  let aes := s.on (AUD_P_CFG__AES3 p)
  let s := if (s.ap p).fetched.isNone then s.playFetch p k else s
  match (s.ap p).fetched with
  | some (some b) =>
    let cs := if aes then sentCs ((s.ap p).hostCs.getD b.cs) else []
    let s := s.modAp p (fun q => { q with fetched := none, outCs := cs })
    s.audSend p b.frames cs
  | _ =>
    let z : AudSub := { v := aes }
    let fs : List AudFrame := List.replicate 192 ⟨z, z⟩
    let s := s.modAp p (fun q => { q with fetched := none })
    s.audSend p fs (s.ap p).outCs

/-- A loop-through output has sent a block: the frames its source delivered one block earlier, one of them repeated or
dropped when the FIFO of 64 has emptied or filled (R333; log 36). -/
def State.playLoop (s : State) (p : Nat) : State :=
  let src := s.f (AUD_P_CFG__SOURCE p)
  let q := s.ap p
  let both := s.on (AUD_P_CFG__AES3 p) && s.on (AUD_P_CFG__AES3 src)
  let n := q.loop.length
  let primed := (q.primed && decide (192 < n)) || decide (384 ≤ n)
  let take := if !primed then 0 else if n ≤ 352 then 191 else if 416 ≤ n then 193 else 192
  let clean := fun (x : AudSub) => { x with v := x.v && both, u := false, c := false, p := false }
  let fs := if take = 0 then List.replicate 192 {} else
    ((if take = 191 then q.loop.take 1 else []) ++ q.loop).take 192 |>.map (fun f => (⟨clean f.a, clean f.b⟩ : AudFrame))
  let cs := if both then sentCs (s.ap src).inCs else if s.on (AUD_P_CFG__AES3 p) then List.replicate 48 0 else []
  let s := s.modAp p (fun q => { q with loop := q.loop.drop take, primed := primed, outCs := cs })
  let s := if take = 191 ∨ take = 193 then (s.audErr p (AUD_P_ERR__SLIP p)).bumpStat (AUD_P_SLIP_CNT p) else s
  s.audSend p fs cs

/-- Block `k` begins: its stamp, and for an output what it plays. -/
def State.beginBlock (s : State) (p k : Nat) : State :=
  let hold := s.on (AUD_P_STAT__HOLDOVER p)
  let s := s.modAp p (fun q => { q with
    k := k, epoch := s.rn TIM_NOW_EPOCH, ns := s.ns, frames := [], zeros := 0, glitched := false, inc := s.audInc p
    flags := 16 * b2n hold + 64 * b2n q.rateMute.isSome })
  let s := s.wn (AUD_P_LAST_NS p) s.ns
  let s := if s.audExt p ∧ hold = false then s.setB (AUD_P_STAT__SIGNAL p) true else s
  if s.audOut p = false then s
  else
    let s := s.showBlock p k
    if s.audHost p then s.playHost p k else s

/-- Block `k` ends. -/
def State.endBlock (s : State) (p : Nat) : State :=
  if s.audOut p then (if s.audHost p then s else s.playLoop p)
  else (s.writeSlot p).showBlock p (s.ap p).k

/-- A port starts its block 0 (R327, R334). -/
def State.audRun (s : State) (p : Nat) : State :=
  let s := s.modAp p (fun q => { q with armed := false, ovr := false, under := false, loop := [], primed := false })
  (s.setB (AUD_P_STAT__RUN p) true).beginBlock p 0

/-- The port is stopped: every status bit clears. -/
def State.audHalt (s : State) (p : Nat) : State :=
  let s := s.wn (AUD_P_STAT p) 0
  let q := s.ap p
  let s := s.modAp p (fun q => { q with
    armed := false, stopping := none, fetched := none, nonAudio := false, rateMute := none, frames := [], loop := [] })
  match q.stopping with
  | some h => s.finishF h ok
  | none => s

/-- The start instant of a mask (R334): masters start, the others wait for their first block. -/
def State.audStartMask (s : State) (mask : Nat) : State :=
  (List.range 8).foldl (fun s p =>
    if bitAt mask p = false ∨ (s.dev.safe && !s.audOut p) = true then s
    else if s.audExt p then s.modAp p (fun q => { q with armed := true })
    else s.audRun p) s

/-- AUD_BLOCK_BOUNDARY (R324 to R328, R331 to R333, R335, R337): `ppm` is the deviation measured over the block that ends. -/
def execAudBlockBoundary (port : Fin 8) (ppm : Int) (s : State) : Res :=
  let p := port.val
  if (s.ap p).armed then .next (s.audRun p)
  else if s.on (AUD_P_STAT__RUN p) = false then .next s
  else
    let s := s.endBlock p
    if (s.ap p).stopping.isSome then .next (s.audHalt p)
    else
      let s := if s.audExt p then s.wn (AUD_P_RATE_PPM p) (ofInt 32 ppm) else s
      let s := match (s.ap p).rateMute with
        | none => s
        | some n =>
          let n' := if -500 ≤ ppm ∧ ppm ≤ 500 then n + 1 else 0
          (s.modAp p (fun q => { q with rateMute := if 2 ≤ n' then none else some n' })).showMute p
      .next (s.beginBlock p (((s.ap p).k + 1) % 0x100000000))

/-- PLAY_FETCH (R331): a quarter of a block ahead of the next boundary. -/
def execPlayFetch (port : Fin 8) (s : State) : Res :=
  let p := port.val
  if s.audOut p = false ∨ s.audHost p = false ∨ (s.ap p).fetched.isSome then .next s
  else if s.on (AUD_P_STAT__RUN p) then .next (s.playFetch p (((s.ap p).k + 1) % 0x100000000))
  else if (s.ap p).armed ∨ s.aud.starts.any (fun x => bitAt x.mask p) = true then .next (s.playFetch p 0)
  else .next s

/-- AUD_FRAME_IN (R323, R324, R328 to R330, R332, R333, R335): a frame reaches an input port. `full`: its FIFO holds two blocks
that the DMC has not accepted. -/
def execAudFrameIn (port : Fin 8) (slotA slotB : W32) (full : Bool) (s : State) : Res :=
  let p := port.val
  if s.on (AUD_P_STAT__RUN p) = false ∨ s.audOut p = true ∨ 192 ≤ (s.ap p).frames.length then .next s
  else
    let i := (s.ap p).frames.length
    let aes := s.on (AUD_P_CFG__AES3 p)
    let sub := if aes then aesSub else i2sSub
    let frame : AudFrame := ⟨sub slotA.toNat, sub slotB.toNat⟩
    let zero := full || (s.ap p).glitched || (s.ap p).rateMute.isSome || s.on (AUD_P_STAT__HOLDOVER p)
    let first := full && !(s.ap p).ovr
    let s := if full then (s.audErr p (AUD_P_ERR__OVERRUN p)).audFlag p 2 else s
    let s := if first then (s.bumpStat (AUD_P_OVR_CNT p)).log .aud evAudOverrun (audTarget p) (s.ap p).k else s
    let par := if zero then 0 else b2n frame.a.p + b2n frame.b.p
    let s := if par = 0 then s else ((s.audErr p (AUD_P_ERR__PARITY p)).audFlag p 8).bumpStat (AUD_P_PARITY_CNT p) par
    let kept : AudFrame := if zero then {} else frame
    let s := s.monitor p kept
    let s := s.modAp p (fun q => { q with frames := q.frames ++ [kept], zeros := q.zeros + b2n zero, ovr := full })
    .next (if aes ∧ i = 1 ∧ zero = false then s.nonAudioAt p frame else s)

/-! ### Clock faults (R335) -/

/-- AUD_CLOCK_STOP (R335): no edge for 1 ms; the port enters HOLDOVER. -/
def execAudClockStop (port : Fin 8) (s : State) : Res :=
  let p := port.val
  if s.on (AUD_P_STAT__RUN p) = false ∨ s.audExt p = false ∨ s.on (AUD_P_STAT__HOLDOVER p) = true then .next s
  else
    let s := (s.setB (AUD_P_STAT__HOLDOVER p) true).setB (AUD_P_STAT__SIGNAL p) false
    .next (((s.audErr p (AUD_P_ERR__HOLDOVER p)).audFlag p 4).log .aud evAudHoldover (audTarget p) (s.ap p).k)

/-- HOLDOVER_EXIT (R335): at a block boundary after a whole block of a clock within 1,000 ppm. -/
def execHoldoverExit (port : Fin 8) (s : State) : Res :=
  let p := port.val
  if s.on (AUD_P_STAT__HOLDOVER p) then
    .next ((s.setB (AUD_P_STAT__HOLDOVER p) false).setB (AUD_P_STAT__SIGNAL p) true)
  else .next s

/-- AUD_GLITCH (R335): samples are zero to the end of the block. -/
def execAudGlitch (port : Fin 8) (s : State) : Res :=
  let p := port.val
  if s.on (AUD_P_STAT__RUN p) = false ∨ s.audExt p = false then .next s
  else
    let s := (s.modAp p (fun q => { q with glitched := true })).bumpStat (AUD_P_GLITCH_CNT p)
    let s := if s.audOut p then s.emit (.audioMuted p) else s
    .next (((s.audErr p (AUD_P_ERR__GLITCH p)).audFlag p 5).log .aud evAudGlitch (audTarget p) (s.ap p).k)

/-- AUD_RATE_CHANGE (R335): |RATE_PPM| above 1,000 over one block. -/
def execAudRateChange (port : Fin 8) (s : State) : Res :=
  let p := port.val
  let ppm := sext 32 (s.rn (AUD_P_RATE_PPM p))
  if s.on (AUD_P_STAT__RUN p) = false ∨ s.audExt p = false ∨ (-1000 ≤ ppm ∧ ppm ≤ 1000) then .next s
  else
    let fresh := (s.ap p).rateMute.isNone
    let s := (s.modAp p (fun q => { q with rateMute := some 0 })).showMute p
    let s := if s.audOut p then s.emit (.audioMuted p) else s
    let s := (s.audErr p (AUD_P_ERR__RATE_ERR p)).audFlag p 6
    .next (if fresh then s.log .aud evAudRateErr (audTarget p) (ofInt 32 ppm) else s)

/-! ### Opcodes (R334, R336, R337) -/

/-- A port runs, or is about to. -/
def State.audBusy (s : State) (p : Nat) : Bool :=
  s.on (AUD_P_STAT__RUN p) || (s.ap p).armed || s.aud.starts.any (fun x => bitAt x.mask p)

/-- AUD_CONFIGURE_PORT (R322, R336, R337). -/
def execAudConfigurePort (p : Pkt) (s : State) : Res :=
  .next (runOp 0x0900 p s (fun s =>
    let q := p.idx
    let lg := p.b 0 12 4
    let src := p.b 0 8 4
    let base := p.q 2
    if s.audBusy q then (s, some (refuse stState 0x8001))
    else if (p.t 0 3 && p.t 0 4) ∨ lg < 3 ∨ 12 < lg
        ∨ (p.t 0 2 && src != 15 && (decide (8 ≤ src) || src == q || s.audOut src)) = true
        ∨ base % 4096 ≠ 0 ∨ s.wBytes < base + 2048 * 2 ^ lg then (s, some (refuse stBadParam 0x8002))
    else
      let s0 := s
      let s := s.wn (AUD_P_CFG q) (p.w 0 / 2 * 2 + 1)
      let s := (s.wn (AUD_P_RING_LO q) (p.w 2)).wn (AUD_P_RING_HI q) (p.w 3)
      ((s.modAp q (fun x => { outCs := x.outCs, hostCs := x.hostCs })).commitSince s0, some ok)))

/-- AUD_START (R334, R337). -/
def execAudStart (p : Pkt) (s : State) : Res :=
  .next (runOp 0x0901 p s (fun s =>
    let mask := p.b 0 0 8
    let ports := (List.range 8).filter (bitAt mask)
    let w := p.b 1 0 2
    if w = 3 then (s, some (badWord 1))
    else if ports.any s.audBusy then (s, some (refuse stState 0x8003))
    else if ports.any (fun q => !s.on (AUD_P_CFG__CONFIGURED q)) then (s, some (refuse stState 0x8004))
    else if w = 0 then (s.audStartMask mask, some ok)
    else
      let x : AudStart := {
        mask := mask, fcg := if w = 2 then some (p.b 1 4 2) else none, time := p.w 2 * 0x100000000 + p.w 3 }
      ({ s with aud := { s.aud with starts := s.aud.starts ++ [x] } }, some ok)))

/-- Start the waiting masks that `due` names. -/
def State.audStartDue (s : State) (due : AudStart → Bool) : State :=
  let xs := s.aud.starts.filter due
  let s := { s with aud := { s.aud with starts := s.aud.starts.filter (fun x => !due x) } }
  xs.foldl (fun s x => s.audStartMask x.mask) s

/-- AUD_START_INSTANT (R327, R334): a given timebase time has come. -/
def execAudStartInstant (s : State) : Res :=
  .next (s.audStartDue (fun x => x.fcg.isNone && decide (x.time ≤ s.now)))

/-- AUD_STOP (R337): a start that waits is withdrawn for the port. -/
def execAudStop (p : Pkt) (s : State) : Res :=
  let h := s.pktHdr 0x0902 p
  .next (runOp 0x0902 p s (fun s =>
    let q := p.idx
    if s.on (AUD_P_STAT__RUN q) then (s.modAp q (fun x => { x with stopping := some h }), none)
    else
      let s := { s with aud := { s.aud with starts := s.aud.starts.map (fun (x : AudStart) =>
        if bitAt x.mask q then { x with mask := x.mask - 2 ^ q } else x) } }
      (s.audHalt q, some ok)))

/-- AUD_SET_CHSTATUS (R324, R337). -/
def execAudSetChstatus (p : Pkt) (s : State) : Res :=
  .next (runOp 0x0903 p s (fun s =>
    let q := p.idx
    if (s.on (AUD_P_CFG__AES3 q) && s.audOut q && s.audHost q) = false then (s, some (refuse stState 0x8005))
    else
      let cs := (List.range 12).flatMap (fun i => leBytes 4 (p.w i))
      (s.modAp q (fun x => { x with hostCs := some cs }), some ok)))

/-- AUD_STATUS (R337). -/
def execAudStatus (p : Pkt) (s : State) : Res :=
  .next (runOp 0x0904 p s (fun s =>
    let q := p.idx
    (s, some (ok [s.rn (AUD_P_CFG q), s.rn (AUD_P_STAT q), s.rn (AUD_P_ERR q), s.rn (AUD_P_RATE_PPM q), s.rn (AUD_P_BLOCK q)
      , s.rn (AUD_P_LAST_NS q), s.rn (AUD_P_UNDER_CNT q)]))))

end Sys2Proof.Machine
end

