-- ==== Sys2Proof/Machine/Mbx.lean ====
section
/-!
DEFINITION. Mailboxes and semaphores (spec/04_layout_table_mailboxes.md, R76 to R82) and the opcodes of group 0x0E
that act on them.
-/
namespace Sys2Proof.Machine
open Sys2Proof

/-- The master IDs (spec/04): host, CC0 to CC3, HVM bridge, test access. -/
def masterIds : List Nat := [0x00, 0x10, 0x11, 0x12, 0x13, 0x20, 0x30]

/-- The side of channel `n` that master `m` is bound to: false A, true B (R76). A master bound on both sides acts as side A (DESIGN CHOICE,
log 82). -/
def State.mbxSide (s : State) (n : Nat) (m : Byte) : Option Bool :=
  if s.on (MBX_BIND__EN n) = false then none
  else if s.f (MBX_BIND__SIDE_A n) = m.toNat then some false
  else if s.f (MBX_BIND__SIDE_B n) = m.toNat then some true
  else none

def State.mbxGet (s : State) (n : Nat) (b : Bool) : MbxSide := (if b then s.mbx.b else s.mbx.a).getD n {}
def State.mbxSet (s : State) (n : Nat) (b : Bool) (x : MbxSide) : State :=
  { s with mbx :=
      if b then { s.mbx with b := s.mbx.b.setIfInBounds n x } else { s.mbx with a := s.mbx.a.setIfInBounds n x } }

/-- The master of a side. -/
def State.mbxMaster (s : State) (n : Nat) (b : Bool) : Nat := if b then s.f (MBX_BIND__SIDE_B n) else s.f (MBX_BIND__SIDE_A n)

/-- An access by a master that the channel does not bind (R76): an internal master gets an error response, a host
write is dropped. -/
def State.mbxDeny (s : State) (m : Byte) : State := if m = 0 then s else s.emit .errResponse

/-- TX_DATA (R77, R79, R80). MBX_WFULL_CNT counts the host's dropped words only (DEDUCED, log 84). -/
def execTxData (m : Byte) (ch : Fin 16) (w : W32) (s : State) : Res :=
  let n := ch.val
  match s.mbxSide n m with
  | none => .next (s.mbxDeny m)
  | some b =>
    let me := s.mbxGet n b
    let other := s.mbxGet n (!b)
    if 8 ≤ other.rx.length then
      if m = 0 then
        .next (((s.setBit MBX_STAT__WFULL_ERR n true).bumpStat MBX_WFULL_CNT).aer .advisoryNonFatal)
      else .next (s.emit .errResponse)
    else
      let s := s.mbxSet n (!b) { other with rx := other.rx ++ [(w, me.epochNext)] }
      let s := s.mbxSet n b { s.mbxGet n b with epochNext := false }
      if s.mbxMaster n (!b) = 0 then .next (s.pend MBX_IRQ_PEND__PEND n (s.bit MBX_IRQ__EN n) 32) else .next s

/-- RX_WORD_LO (R80): pops the oldest word and latches its flags. -/
def execRxWordLo (m : Byte) (ch : Fin 16) (s : State) : Res :=
  let n := ch.val
  match s.mbxSide n m with
  | none => .next (if m = 0 then s.emit (.word 0) else s.emit .errResponse)
  | some b =>
    let me := s.mbxGet n b
    match me.rx with
    | [] => .next ((s.mbxSet n b { me with hi := (false, false, 0) }).emit (.word 0))
    | (w, ep) :: t => .next ((s.mbxSet n b { me with rx := t, hi := (true, ep, t.length) }).emit (.word w))

/-- RX_WORD_HI: the flags of the word popped last (R80). -/
def MbxSide.hiWord (x : MbxSide) : Nat := x.hi.2.2 + 8 * b2n x.hi.2.1 + 16 * b2n x.hi.1

/-- CH_STAT as the side `b` of channel `n` reads it. -/
def State.chStat (s : State) (n : Nat) (b : Bool) : Nat :=
  let x := s.mbxGet n b
  x.rx.length + 0x10 * (s.mbxGet n (!b)).rx.length + 0x100 + 0x200 * b2n x.txTmo + 0x400 * b2n x.rxLost + 0x10000 * x.lost
    + 0x80000000 * b2n x.lostOvf

/-- Master `m` reads offset `o` of the window of channel `n` (R76, R80): a master that the channel does not bind gets an error response, the
host 0. -/
def State.windowRead (s : State) (m : Byte) (n o : Nat) : Res :=
  match s.mbxSide n m with
  | none => .next (if m = 0 then s.emit (.word 0) else s.emit .errResponse)
  | some b =>
    if o = 8 then execRxWordLo m (Fin.ofNat 16 n) s
    else .next (s.emit (.word (BitVec.ofNat 32 (if o = 0xC then (s.mbxGet n b).hiWord else if o = 0x10 then s.chStat n b else 0))))

/-- MBX_TMO (R78): a word toward side `toB` has stayed unread longer than TMO_US. -/
def execMbxTmo (ch : Fin 16) (toB : Bool) (s : State) : Res :=
  let n := ch.val
  if s.f (MBX_TMO__TMO_US n) = 0 ∨ (s.mbxGet n toB).rx = [] then .next s
  else
    let s := s.mbxSet n (!toB) { s.mbxGet n (!toB) with txTmo := true }
    .next ((s.setBit MBX_STAT__TMO n true).log .mbx evMbxTmo 0xFFFF n)

/-- Count words discarded in a side's LOST_CNT, 15 bits, saturating (R79, Table 23-3). Where none are, RXLOST stays clear (DEDUCED,
log 86). -/
def MbxSide.addLost (x : MbxSide) (k : Nat) : MbxSide :=
  if k = 0 then x
  else
    let t := x.lost + k
    if t < 0x8000 then { x with lost := t, rxLost := true } else { x with lost := 0x7FFF, lostOvf := true, rxLost := true }

/-- Channel `n` when the master of side `b` is reset (R79). -/
def State.mbxResetSide (s : State) (n : Nat) (b : Bool) : State :=
  let k := (s.mbxGet n b).rx.length
  let s := s.mbxSet n (!b) ((s.mbxGet n (!b)).addLost k)
  s.mbxSet n b { s.mbxGet n b with rx := [], epochNext := true }

/-- A master reset (R79, R82): mailboxes toward it are emptied and its semaphores freed. -/
def State.masterReset (s : State) (m : Byte) : State :=
  let s := (List.range 16).foldl (fun s n =>
    match s.mbxSide n m with
    | some b => s.mbxResetSide n b
    | none => s) s
  let held := (List.range 32).filter (fun i => s.mbx.sem.getD i none == some m)
  let s := { s with mbx := { s.mbx with sem := s.mbx.sem.map (fun o => if o = some m then none else o) } }
  s.logMany .mbx (held.map (fun i => (evSemResetRelease, 0xFFFF, i, m.toNat)))

/-- CORE_RESET of CC0 to CC3 (R79). -/
def execCoreReset (core : Fin 4) (s : State) : Res := .next (s.masterReset (BitVec.ofNat 8 (0x10 + core.val)))
/-- HVM_BRIDGE_RESTART (R79). -/
def execHvmBridgeRestart (s : State) : Res := .next (s.masterReset 0x20)

/-- SEM_ACQUIRE (R81): the read returns 0 and takes a free semaphore, else owner + 1. -/
def execSemAcquire (m : Byte) (n : Fin 32) (s : State) : Res :=
  if s.shut m then .next (s.emit (.word 0))
  else
  match s.mbx.sem[n] with
  | none => .next (State.emit { s with mbx := { s.mbx with sem := s.mbx.sem.set n (some m) } } (.word 0))
  | some o => .next (s.emit (.word (BitVec.ofNat 32 (o.toNat + 1))))

/-- SEM_RELEASE (R82): only the owner frees it; a write to a free semaphore, which has no owner, logs SEM_BAD_RELEASE too (DEDUCED,
log 85). -/
def execSemRelease (m : Byte) (n : Fin 32) (s : State) : Res :=
  if s.shut m then .next s
  else if s.mbx.sem[n] = some m then .next { s with mbx := { s.mbx with sem := s.mbx.sem.set n none } }
  else .next (s.log .mbx evSemBadRelease 0xFFFF n.val m.toNat)

/-- A write to a locked RWL field (spec/00, R9): ignored and reported with the register's BAR0 offset. -/
def State.rwlDenied (s : State) (b : Blk) (a : Nat) : State := s.log b evRwlLocked 0xFFFF a

/-- MBX_CTRL_LOCK (R76): a write of 1 to LOCK. -/
def execMbxCtrlLock (s : State) : Res :=
  .next (if s.shut 0 then s else if s.on MBX_CTRL__LOCK then s.rwlDenied .mbx MBX_CTRL else s.raise MBX_CTRL__LOCK)

/-- Write MBX_BINDn: an ID outside the master table is refused; a change discards both queues and clears the status (R76): CH_STAT of both
sides, the channel's bits of MBX_STAT, and its MBX_IRQ_PEND bit (DESIGN CHOICE, log 83). -/
def State.bindChannel (s : State) (n v : Nat) : Option State :=
  if masterIds.contains (bitsAt v 0 8) = false ∨ masterIds.contains (bitsAt v 8 8) = false then none
  else
    let v' := v % 0x20000
    if s.rn (MBX_BIND n) = v' then some s
    else
      let s := ((s.wn (MBX_BIND n) v').mbxSet n false {}).mbxSet n true {}
      some (((s.setBit MBX_STAT__TMO n false).setBit MBX_STAT__WFULL_ERR n false).setBit MBX_IRQ_PEND__PEND n false)

/-- MBX_BIND (0x0E00). -/
def execMbxBind (p : Pkt) (s : State) : Res :=
  .next (runOp 0x0E00 p s (fun s =>
    if s.on MBX_CTRL__LOCK then (s, some (refuse stNotPermitted 0x0002))
    else match s.bindChannel (p.b 0 0 4) (p.w 1) with
      | none => (s, some (badWord 1))
      | some s' => (s', some ok)))

/-- MBX_LOCK (0x0E01). -/
def execMbxLock (p : Pkt) (s : State) : Res :=
  .next (runOp 0x0E01 p s (fun s => (s.raise MBX_CTRL__LOCK, some ok)))

/-- SEM_FORCE_RELEASE (0x0E03): frees the semaphores of a mask whatever their owner. -/
def execSemForceRelease (p : Pkt) (s : State) : Res :=
  .next (runOp 0x0E03 p s (fun s =>
    let pick := (List.range 32).filter (fun i => p.t 0 i && (s.mbx.sem.getD i none).isSome)
    let held := pick.foldl (fun a i => a + 2 ^ i) 0
    let sem := pick.foldl (fun (v : Vector (Option Byte) 32) i => v.setIfInBounds i none) s.mbx.sem
    ({ s with mbx := { s.mbx with sem := sem } }, some (ok [held]))))

end Sys2Proof.Machine
end

