-- ==== Sys2Proof/Machine/Cmd.lean ====
section
/-!
DEFINITION. The command processor's own rows (spec/02_command_packets.md): fetching, completion, bounds, doorbells.
-/
namespace Sys2Proof.Machine
open Sys2Proof

/-- Distance of ring index `i` ahead of HEAD, modulo 2 × ring size. -/
def State.crAhead (s : State) (n i : Nat) : Nat :=
  let m := 2 * s.ringN n
  (i + m - s.f (CMD_CR_HEAD__HEAD n) % m) % m

/-- Packets of ring `n` started and not completed (INFLIGHT, R34). -/
def State.inflight (s : State) (n : Nat) : List Started := s.cmd.started.filter (fun e => e.ring == n && !e.late)

/-- A firmware-path packet that has not completed: one that an FLR cut off from its reply runs on (R34, R41, R47). -/
def Started.executing (e : Started) : Bool := !e.fast && (!e.late || e.cut)

/-- Firmware-queue entries in use (FWQ_USED, R40, R47). -/
def State.fwqUsed (s : State) : Nat := (s.cmd.started.filter (·.executing)).length

/-- A firmware-path packet of another ring still executes on the same object (R38). -/
def State.busyHolder (s : State) (ring target : Nat) : Option Started :=
  s.cmd.started.find? (fun e => e.executing && e.ring != ring && e.target == target)

/-- CMD_STAT's stop bits of a ring. -/
def State.setWait (s : State) (n : Nat) (fwq barrier : Bool) : State :=
  (s.setB (CMD_CR_STAT__WAIT_FWQ n) fwq).setB (CMD_CR_STAT__WAIT_BARRIER n) barrier

/-- HEAD moves past the packet that starts. -/
def State.headNext (s : State) (n : Nat) : State :=
  s.setF (CMD_CR_HEAD__HEAD n) ((s.f (CMD_CR_HEAD__HEAD n) + 1) % (2 * s.ringN n))

/-- Put the record of a packet that starts. -/
def State.start (s : State) (e : Started) : State :=
  { s with cmd := { s.cmd with started := s.cmd.started ++ [{ e with id := s.cmd.next }], next := s.cmd.next + 1 } }

/-- A fetched packet: the barrier rule (R35), the eight header checks (R452, R38), FW_ACTIVATE (spec/21, R406), the firmware queue (R40), then
its start (R34). -/
def State.startPacket (s : State) (n : Nat) (opcode flags : Nat) (seq : W32) (len target rsv : Nat) (params : List W32) :
    State :=
  let fl := s.inflight n
  if fl.any (fun e => bitAt e.flags 0) || (bitAt flags 0 && !fl.isEmpty) then s.setWait n false true
  else
    let h : Hdr := { ring := n, seq := seq, opcode := opcode, flags := flags }
    match opSpec opcode with
    | none => ((s.setWait n false false).headNext n).complete h (refuse stBadOpcode 0)
    | some sp =>
      match headerCheck sp s.dev.safe s.dlt.disabled n len flags target rsv params with
      | some o => ((s.setWait n false false).headNext n).complete h o
      | none =>
        match (if sp.fast then none else s.busyHolder n target) with
        | some e => ((s.setWait n false false).headNext n).complete h (refuse stBusy e.ring)
        | none =>
          if sp.fast = false ∧ s.flash.activating.isSome then s.setWait n false false
          else if sp.fast = false ∧ 64 ≤ s.fwqUsed then s.setWait n true false
          else ((s.setWait n false false).headNext n).start {
            ring := n, seq := seq, opcode := opcode, target := target, flags := flags, fast := sp.fast
            queued := !sp.fast, urgent := !sp.fast && bitAt flags 2, late := false, waitB := false }

/-- Ring `n` has a packet to fetch: it is enabled, its tail is ahead, and its reply ring has room (R25, R32). -/
def State.fetchable (s : State) (n : Nat) : Bool :=
  s.dev.ready && s.on (CMD_CR_CFG__EN n) && s.crAhead n (s.cmd.tail.getD n 0) != 0 && !s.rpFull n

/-- A ring stands between the one served last and `n` in the round and could be served: it is not stopped (R25, R35, R40). -/
def State.passedBy (s : State) (n : Nat) : Bool :=
  (List.range ((n + 3 - s.cmd.turn) % 4)).any (fun k =>
    let m := (s.cmd.turn + 1 + k) % 4
    s.fetchable m && !s.on (CMD_CR_STAT__WAIT_FWQ m) && !s.on (CMD_CR_STAT__WAIT_BARRIER m))

/-- The address of the slot at HEAD (R22, R23). -/
def State.slotAt (s : State) (n : Nat) : Nat :=
  s.rn (CMD_CR_BASE_HI n) * 0x100000000 + s.f (CMD_CR_BASE_LO__BASE_LO n) * 0x1000 + 1024 * (s.f (CMD_CR_HEAD__HEAD n) % s.ringN n)

/-- The packet in 1 KiB of a command ring (Table 2-1). -/
def slotOf (b : List Byte) : Slot :=
  let v := fun (w a : Nat) => leNat ((b.drop a).take w)
  .packet (BitVec.ofNat 16 (v 2 0)) (BitVec.ofNat 16 (v 2 2)) (BitVec.ofNat 32 (v 4 4)) (BitVec.ofNat 16 (v 2 8)) (BitVec.ofNat 16 (v 2 10))
    (BitVec.ofNat 32 (v 4 12)) ((List.range 252).map (fun i => BitVec.ofNat 32 (v 4 (16 + 4 * i))))

/-- What CMD reads at HEAD (R23): a ring in BAR2 is read there; a ring in host memory holds what the outside world supplies, and a read
of it that fails does so inside the slot. -/
def State.slotRead (s : State) (n : Nat) (slot : Slot) : Slot :=
  if s.on (CMD_CR_CFG__CLOC n) then slotOf (bytesAt (storeGet memDefault s.bar2) (s.slotAt n) 1024)
  else match slot with
    | .failed addr poisoned => .failed (s.slotAt n + addr % 1024) poisoned
    | .packet .. => slot

/-- PACKET_FETCH (R23, R25, R26, R32, R34, R35, R40, R452): the next packet of an enabled ring, whose turn it is. -/
def execPacketFetch (ring : Fin 4) (slot : Slot) (s : State) : Res :=
  let n := ring.val
  if s.fetchable n = false ∨ s.passedBy n = true then .next s
  else
    let s := { s with cmd := { s.cmd with turn := n } }
    match s.slotRead n slot with
    | .failed addr poisoned =>
      let s := (s.setF (CMD_CR_CFG__EN n) 0).raise (CMD_CR_STAT__FETCH_ERR n)
      let s := s.log .cmd evDmaError 0xFFFF addr (addr / 0x100000000) (n + 0x10000 * b2n poisoned)
      .next (if s.cxl.fallback then s.aer .advisoryNonFatal else s)
    | .packet opcode flags seq len target reserved params =>
      .next (s.startPacket n opcode.toNat flags.toNat seq len.toNat target.toNat reserved.toNat params)

/-- FWQ_URGENT_AGE (R37): after 20 ms in the firmware queue a packet is served as if urgent; of equal ones, the first that is not. -/
def execFwqUrgentAge (ring : Fin 4) (seq : W32) (s : State) : Res :=
  match s.cmd.started.find? (fun e => e.ring == ring.val && e.seq == seq && e.queued && !e.urgent) with
  | none => .next s
  | some e =>
    let g := fun (x : Started) => if x.id = e.id then { x with urgent := true } else x
    .next { s with cmd := { s.cmd with started := s.cmd.started.map g } }

/-- CMD_RP_STALL (R32): a reply ring has stayed full for more than 10 ms. -/
def execCmdRpStall (ring : Fin 4) (s : State) : Res :=
  .next (if s.rpFull ring.val then s.log .cmd evCmdRpStall 0xFFFF ring.val else s)

/-- CMD_DB (R24): a new tail, unless it is out of range, more than a ring ahead of HEAD, or behind the last tail. One written before
DEVICE_READY takes effect at DEVICE_READY (R25; DEDUCED, log 81). -/
def execCmdDb (ring : Fin 4) (v : W32) (s : State) : Res :=
  let n := ring.val
  let t := v.toNat % 512
  let last := s.crAhead n (s.cmd.tail.getD n 0)
  if 2 * s.ringN n ≤ t ∨ s.ringN n < s.crAhead n t ∨ s.crAhead n t < last then .next (s.raise (CMD_CR_STAT__DB_RANGE n))
  else .next { s with cmd := { s.cmd with tail := s.cmd.tail.setIfInBounds n t } }

end Sys2Proof.Machine
end

