-- ==== Sys2Proof/Machine/CmpMath.lean ====
section
/-!
DEFINITION. The arithmetic of composition: from buffer to blend, the post-blend LUT, the Rind and write-back
(spec/14_composition.md, R286 to R290, R302, R304; port conversion of spec/15, R314).
-/
namespace Sys2Proof.Machine
open Sys2Proof

/-- 16-bit R, G, B, A. -/
abbrev Rgba := Nat × Nat × Nat × Nat
def Rgba.zip (f : Nat → Nat → Nat) (a b : Rgba) : Rgba :=
  (f a.1 b.1, f a.2.1 b.2.1, f a.2.2.1 b.2.2.1, f a.2.2.2 b.2.2.2)

/-- The layout of a layer's source (R174, R286). -/
def LayerCfg.lay (l : LayerCfg) : TapCfg := { engine := 0, ow := l.sw, oh := l.sh, pack := l.pack }
/-- Bytes of a source buffer (R293). -/
def LayerCfg.bytes (l : LayerCfg) : Nat := packSize l.lay

/-- round(2(1 − Kr)·2^16), round(2(1 − Kb)·2^16), round(2Kr(1 − Kr)/Kg·2^16), round(2Kb(1 − Kb)/Kg·2^16) (R286). -/
def invConst (matrix : Nat) : Int × Int × Int × Int :=
  if matrix = 0 then (103206, 121609, 30679, 12276) else (96639, 123299, 37444, 10784)

/-- R286: Y′CbCr codes to 16-bit RGB. -/
def yccToRgb (matrix range : Nat) (y cb cr : Int) : Nat × Nat × Nat :=
  let yofs : Int := if range = 0 then 64 else 0
  let yspan : Int := if range = 0 then 876 else 1023
  let cspan : Int := if range = 0 then 896 else 1023
  let yn := ((y - yofs) * 65535 + yspan / 2) / yspan
  let pb := (cb - 512) * 65535 / cspan
  let pr := (cr - 512) * 65535 / cspan
  let k := invConst matrix
  let c := fun (i : Int) => (clampI 0 65535 i).toNat
  (c (yn + (k.1 * pr + 32768) / 65536), c (yn - (k.2.2.1 * pr + k.2.2.2 * pb + 32768) / 65536), c (yn + (k.2.1 * pb + 32768) / 65536))

/-- A 10-bit component as 16 bits (R286). -/
def wide10 (c : Nat) : Nat := c * 64 + c / 16

/-- Pixel (x, y) of a layer's buffer at `a` (R286). -/
def LayerCfg.source (l : LayerCfg) (mem : Nat → Byte) (a x y : Nat) : Rgba :=
  let lay := l.lay
  let pitch := fun p => pitchOf ((planeBytes lay).getD p 0)
  let at_ := fun (p row ofs n : Nat) => leNat (bytesAt mem (a + (planeOffsets lay).getD p 0 + row * pitch p + ofs) n)
  let v : Rgba := match l.pack with
    | 0 =>
      let w := at_ 0 y (4 * x) 4
      (wide10 (bitsAt w 0 10), wide10 (bitsAt w 10 10), wide10 (bitsAt w 20 10), bitsAt w 30 2 * 21845)
    | 1 => (at_ 0 y (8 * x) 2, at_ 0 y (8 * x + 2) 2, at_ 0 y (8 * x + 4) 2, at_ 0 y (8 * x + 6) 2)
    | _ =>
      let cy := if l.pack = 3 then y / 2 else y
      let c := fun k j => at_ 1 cy (4 * j + 2 * k) 2 / 64
      let full := fun k =>
        if x % 2 = 0 then c k (x / 2)
        else if x + 1 < l.sw then (c k (x / 2) + c k (x / 2 + 1) + 1) / 2
        else c k (x / 2)
      let q := yccToRgb l.matrix l.range (at_ 0 y (2 * x) 2 / 64 : Nat) (full 0 : Nat) (full 1 : Nat)
      (q.1, q.2.1, q.2.2, 65535)
  if l.solid then (v.1, v.2.1, v.2.2.1, 65535) else v

/-- Position and fraction of destination index `j` (R287). -/
def layerPos (src dst j : Nat) : Int × Nat :=
  let step : Int := (src * 65536 / dst : Nat)
  let q := ((2 * (j : Int) + 1) * step - 65536) / 2
  (q / 65536, (q % 65536).toNat)

/-- Nearest index inside 0 to n − 1. -/
def edge (n : Nat) (i : Int) : Nat := (clampI 0 ((n : Int) - 1) i).toNat

/-- One bilinear pass (R287). -/
def bilinear (f : Nat) (a b : Rgba) : Rgba := Rgba.zip (fun x y => (x * (65536 - f) + y * f + 32768) / 65536) a b

/-- The layer needs no scaling (R287). -/
def LayerCfg.bypass (l : LayerCfg) : Bool := l.dw == l.sw && l.dh == l.sh

/-- Pixel (j, k) of the destination rectangle (R287, R288): the horizontal pass runs first when it narrows the line. -/
def LayerCfg.scaled (l : LayerCfg) (src : Nat → Nat → Rgba) (j k : Nat) : Rgba :=
  if l.bypass then src j k
  else
    let h := layerPos l.sw l.dw j
    let v := layerPos l.sh l.dh k
    let hp := fun y => bilinear h.2 (src (edge l.sw h.1) y) (src (edge l.sw (h.1 + 1)) y)
    let vp := fun x => bilinear v.2 (src x (edge l.sh v.1)) (src x (edge l.sh (v.1 + 1)))
    if l.dw < l.sw then bilinear v.2 (hp (edge l.sh v.1)) (hp (edge l.sh (v.1 + 1)))
    else bilinear h.2 (vp (edge l.sw h.1)) (vp (edge l.sw (h.1 + 1)))

/-- The pre-blend LUT (R289). -/
def preLut (t : Option (List Nat)) (c : Nat) : Nat :=
  let e := fun i => match t with
    | some l => l.getD i 0
    | none => preEntry i
  lerp 6 (e (c / 64)) (e (min 1023 (c / 64 + 1))) (c % 64)

/-- The post-blend LUT of component `c` (R290). -/
def postLut (t : Option (List Nat)) (c x : Nat) : Nat :=
  let e := fun i => match t with
    | some l => l.getD (4096 * c + i) 0
    | none => postEntry i
  lerp 4 (e (x / 16)) (e (min 4095 (x / 16 + 1))) (x % 16)

/-- Blend a pixel over `d` (R289). -/
def LayerCfg.blend (l : LayerCfg) (p : Rgba) (d : Rgb) : Rgb :=
  let a := (p.2.2.2 * l.galpha + 32767) / 65535
  let c := fun (x d : Nat) =>
    let x := preLut l.lut x
    if l.premult then min 65535 ((x * l.galpha + 32767) / 65535 + (d * (65535 - a) + 32767) / 65535)
    else (x * a + d * (65535 - a) + 32767) / 65535
  (c p.1 d.1, c p.2.1 d.2.1, c p.2.2.1 d.2.2)

/-- The destination rectangle covers output pixel (x, y). -/
def LayerCfg.covers (l : LayerCfg) (x y : Nat) : Bool :=
  decide (l.dx ≤ x) && decide (x < l.dx + l.dw) && decide (l.dy ≤ y) && decide (y < l.dy + l.dh)

/-- A pixel after the post-blend LUT: BG, then the layers in order (R285, R289, R290). `shown` gives the buffer address
of each layer that is fetched. -/
def CmpSet.pixel (g : CmpSet) (mem : Nat → Byte) (shown : List (Option Nat)) (x y : Nat) : Rgb :=
  let go := fun (d : Rgb) (i : Nat) =>
    match g.layers.getD i {}, shown.getD i none with
    | l, some a => if l.en && l.covers x y then l.blend (l.scaled (l.source mem a) (x - l.dx) (y - l.dy)) d else d
    | _, none => d
  Rgb.map (postLut g.post) ((List.range 8).foldl go g.bg)

/-! ### The Rind (R303 to R306) -/

/-- The largest centred rectangle of aspect n : d in a W × H output: x, y, width, height (R304). -/
def aspectRect (w h n d : Nat) : Nat × Nat × Nat × Nat :=
  let (a, b) := if h * n ≤ w * d then (h * n / d, h) else (w, w * d / n)
  ((w - a) / 2, (h - b) / 2, a, b)

/-- Pixel (x, y) lies on the outline of a rectangle, `t` pixels wide. -/
def onOutline (r : Nat × Nat × Nat × Nat) (t x y : Nat) : Bool :=
  let inside := fun k => decide (r.1 + k ≤ x) && decide (x + k < r.1 + r.2.2.1) && decide (r.2.1 + k ≤ y)
    && decide (y + k < r.2.1 + r.2.2.2)
  inside 0 && !inside t

/-- What the Rind puts over output pixel (x, y). -/
structure RindFrame where
  entry : RindEntry
  tally : Bool
  tc : Nat
  lines : Nat
  tcPos : Nat
  assets : Bool
deriving DecidableEq, Repr

def RindFrame.ovr (r : RindFrame) (w h x y : Nat) (d : Rgb) : Rgb :=
  let e := r.entry
  if e.shows = false then d
  else
    let d := if e.tally && r.tally && onOutline (0, 0, w, h) e.width x y then e.tallyRgb else d
    let ink := if e.tc && r.assets then Config.rindPixel 0 (r.tc * 16 + r.tcPos * 4 + (e.tcRows - 1)) x y else 0
    let d := if ink = 0 then d else ((ink - 1) / 0x100000000 % 65536, (ink - 1) / 65536 % 65536, (ink - 1) % 65536)
    if e.lines then
      (List.range 8).foldl (fun d k =>
        let a := e.aspects.getD k (0, 0)
        if bitAt r.lines k && a.1 != 0 && a.2 != 0 && onOutline (aspectRect w h a.1 a.2) e.lineWidth x y then
          let c := fun (p q : Nat) => (p * e.lineAlpha + q * (65535 - e.lineAlpha) + 32767) / 65535
          (c e.lineRgb.1 d.1, c e.lineRgb.2.1 d.2.1, c e.lineRgb.2.2 d.2.2)
        else d) d
    else d

/-! ### Write-back and ports (R302, R314) -/

/-- A 16-bit component in `n` levels, n = 2^bits − 1. -/
def quant (n c : Nat) : Nat := (c * n + 32767) / 65535

/-- Y′CbCr codes of a composed pixel: 10-bit R′G′B′, then R172 (R302, R314; log 24). -/
def cmpYcc (matrix range : Nat) (v : Rgb) : Rgb :=
  ycc { engine := 0, matrix := matrix, range := range } (Rgb.map (fun _ c => wide10 (quant 1023 c)) v)

/-- A composed line as plane lines of PACK 0, 1 or 2 (R302). -/
def wbLine (g : WbCfg) (l : List Rgb) : List (List Byte) :=
  match g.pack with
  | 0 => [l.flatMap (fun v => leBytes 4 (quant 1023 v.1 + quant 1023 v.2.1 * 0x400 + quant 1023 v.2.2 * 0x100000 + 0xC0000000))]
  | 1 => [l.flatMap (fun v => leBytes 2 v.1 ++ leBytes 2 v.2.1 ++ leBytes 2 v.2.2 ++ leBytes 2 0xFFFF)]
  | _ =>
    let c := l.map (cmpYcc g.matrix g.range)
    let word := fun (v : Nat) => leBytes 2 (v * 64)
    [c.flatMap (fun v => word v.1), (chroma422 c).flatMap (fun v => word v.1 ++ word v.2)]

/-- A line as an SDI port sends it: Y with Cb at even columns and Cr at odd ones (R314, R315). -/
def sdiLine (matrix : Nat) (l : List Rgb) : List Nat :=
  let c := l.map (cmpYcc matrix 0)
  let ch := chroma422 c
  (List.range l.length).map (fun x =>
    let q := ch.getD (x / 2) (512, 512)
    (c.getD x (0, 0, 0)).1 + 1024 * (if x % 2 = 0 then q.1 else q.2))

/-- A line as a DSI port sends it: RGB101010 or RGB888 (R314). -/
def dsiLine (deep : Bool) (l : List Rgb) : List Nat :=
  let n := if deep then 1023 else 255
  l.map (fun v => quant n v.1 + 0x400 * quant n v.2.1 + 0x100000 * quant n v.2.2)

end Sys2Proof.Machine
end

