-- ==== Sys2Proof/Machine/Cmp.lean ====
section
/-!
DEFINITION. Composition: shadow settings, commits, flips and fences, the latch, layers fed by taps, the end of a
composer frame (spec/14_composition.md, R285 to R308).
-/
namespace Sys2Proof.Machine
open Sys2Proof

/-- The TARGET value of a composer (Table 2-2). -/
def cmpTarget (n : Nat) : Nat := 0x5000 + n

/-- The vector of a composer (spec/14, registers), and its causes: 0 LATCH, 1 COMMIT_LIVE, 2 ERR. -/
def State.cmpVec (s : State) (n : Nat) : Nat := 18 + (s.tgOf n).getD n
def State.cmpIrq (s : State) (n : Nat) (x : Nat → Fld) : State :=
  s.pendIf (CMP_C_IRQ__PEND n) 0 (s.on (x n)) (s.cmpVec n)
def State.cmpErr (s : State) (n : Nat) (x : Nat → Fld) : State := (s.raise (x n)).cmpIrq n CMP_C_IRQ__ERR

def CmpSet.layer (g : CmpSet) (l : Nat) : LayerCfg := g.layers.getD l {}
def CmpSt.shadowLayer (u : CmpSt) (l : Nat) : LayerCfg := u.shadow.getD l {}
def CmpSt.layerSt (u : CmpSt) (l : Nat) : LayerSt := u.layer.getD l {}
/-- Settings of a layer as live; those of reset before a commit has gone live. -/
def CmpSt.liveLayer (u : CmpSt) (l : Nat) : LayerCfg := match u.live with | some g => g.layer l | none => {}
def State.modLayer (s : State) (n l : Nat) (g : LayerSt → LayerSt) : State :=
  s.modCmp n (fun u => { u with layer := u.layer.set l (g (u.layerSt l)) })

/-! ### Fences (R59, R63, R293 to R297) -/

/-- Fence lines that layers name: shadow, pending set and live (R59). -/
def State.fenceNamed (s : State) : List Nat :=
  (s.cmp.unit.toList.flatMap (fun u =>
    (u.shadow ++ (u.set.map (·.layers)).getD [] ++ (u.live.map (·.layers)).getD []).filterMap (fun l =>
      if l.acq = 0 then none else some (l.acq / 64)))).eraseDups

/-- The fence word at an address as last read. -/
def State.fenceWord (s : State) (a : Nat) : Option Nat :=
  (s.cmp.fence.find? (fun f => f.1 == a / 64)).map (fun f => leNat ((f.2.drop (a % 64)).take 8))

/-- A flip of layer settings `l` is ready (R294). -/
def State.flipReady (s : State) (l : LayerCfg) (f : Flip) : Bool :=
  f.ready || !f.wait || (match s.fenceWord l.acq with | some v => decide (f.acq ≤ v) | none => false)

/-- Evaluate every waiting flip after a fence line has been read (R294). -/
def State.evalFences (s : State) : State :=
  (List.range 4).foldl (fun s n =>
    s.modCmp n (fun u =>
      let upd := fun (l : LayerCfg) (f : Flip) => { f with ready := s.flipReady l f }
      { u with
        layer := (List.range 8).map (fun l =>
          let x := u.layerSt l
          { x with pending := x.pending.map (upd (u.liveLayer l)) })
        deferred := u.deferred.map (fun d => (d.1, upd (u.shadowLayer d.1) d.2))
        set := u.set.map (fun g => { g with flips := g.flips.map (fun d => (d.1, upd (g.layer d.1) d.2)) }) })) s

/-- Hold the contents of a fence line. -/
def State.holdFence (s : State) (line : Nat) (bs : List Byte) : State :=
  { s with cmp := { s.cmp with fence := s.cmp.fence.filter (fun f => f.1 != line) ++ [(line, padBytes 64 bs)] } }

/-- Write a release value of layer `l` (R297); release address 0 means none. -/
def State.release (s : State) (n l v : Nat) : State :=
  let u := s.cmpU n
  let a := (match u.live with | some g => g.layer l | none => u.shadowLayer l).rel
  if a = 0 then s else s.writeHost a (leBytes 8 v)

/-- PENDING and DEFERRED of a layer. -/
def State.showFlips (s : State) (n l : Nat) : State :=
  let u := s.cmpU n
  let def_ := u.deferred.any (fun d => d.1 == l) || (match u.set with | some g => g.flips.any (fun d => d.1 == l) | none => false)
  (s.setB (CMP_C_L_STAT__PENDING n l) (u.layerSt l).pending.isSome).setB (CMP_C_L_STAT__DEFERRED n l) def_

/-- A flip is replaced by a newer one before it is shown (R293). -/
def State.flipReplaced (s : State) (n l : Nat) (f : Flip) : State :=
  ((s.release n l f.rel).bumpStat (CMP_C_FLIP_REPL_CNT n)).cmpErr n CMP_C_ERR__FLIP_REPLACED

/-! ### Shadow settings (R303, R304, R308) -/

/-- The policy entry of a composer. -/
def State.rindEntry (s : State) (n : Nat) : RindEntry := s.cmp.rind.entry.getD n {}

/-- CMP_CONFIGURE_LAYER on layer 8: the host's Rind selections (R304). -/
def State.rindSelect (s : State) (n mask pos : Nat) : State × Option Outc :=
  let e := s.rindEntry n
  let u := s.cmpU n
  let m0 := u.shadowLines.getD e.lineMask
  let p0 := u.shadowTcPos.getD e.tcPos
  if (mask ≠ m0 ∧ e.hostLines = false) ∨ (pos ≠ p0 ∧ e.hostTcPos = false) then (s, some (refuse stNotPermitted 0x0002))
  else if (List.range 8).any (fun k => bitAt mask k && e.aspects.getD k (0, 0) == (0, 0)) then (s, some (badWord 0))
  else (s.modCmp n (fun u => { u with
    shadowLines := if e.hostLines then some mask else u.shadowLines, shadowTcPos := if e.hostTcPos then some pos else u.shadowTcPos })
    , some ok)

/-- CMP_CONFIGURE_LAYER (R59, R62, R296, R299, R304, R308). The packet's host read is what the fence line holds. -/
def execCmpConfigureLayer (p : Pkt) (s : State) : Res :=
  .next (runOp 0x0700 p s (fun s =>
    let n := p.idx
    let l := p.b 0 0 4
    if 8 < l then (s, some (badWord 0))
    else if l = 8 then
      if p.b 0 4 18 ≠ 0 then (s, some (badWord 0))
      else
        match (List.range 11).find? (fun i => p.w (i + 1) != 0) with
        | some i => (s, some (badWord (i + 1)))
        | none => s.rindSelect n (p.b 0 24 8) (p.b 0 22 2)
    else
      let g : LayerCfg := {
        en := p.t 0 4, src := p.b 0 5 2, pack := p.b 0 8 4, solid := p.t 0 12, premult := p.t 0 13, crcEn := p.t 0 14
        matrix := p.b 0 15 1, range := p.b 0 16 1, tapEng := p.b 0 17 2, tapCtx := p.b 0 20 3, sw := p.b 1 0 16, sh := p.b 1 16 16
        dx := p.b 2 0 16, dy := p.b 2 16 16, dw := p.b 3 0 16, dh := p.b 3 16 16, galpha := p.b 4 0 16, ftmo := p.b 4 16 16
        race := p.b 5 0 14, acq := p.q 6, rel := p.q 8, lut := ((s.cmpU n).shadowLayer l).lut }
      let line := g.acq / 64
      let others := (s.modCmp n (fun u => { u with shadow := u.shadow.set l { g with acq := 0 } })).fenceNamed
      if p.t 0 7 ∨ p.t 0 19 ∨ p.b 0 23 9 ≠ 0 ∨ g.src = 3 ∨ 5 < g.tapCtx then (s, some (badWord 0))
      else if g.ftmo = 0 then (s, some (badWord 4))
      else if g.src = 2 ∧ (g.race < 64 ∨ 8192 < g.race ∨ g.race % 64 ≠ 0) then (s, some (badWord 5))
      else if g.acq ≠ 0 ∧ others.contains line = false ∧ 256 ≤ others.length then (s, some (refuse stNoResource 0x8005))
      else
        let s := s.modCmp n (fun u => { u with shadow := u.shadow.set l g })
        let s := if g.acq ≠ 0 ∧ s.cxl.fallback = false ∧ others.contains line = false then
            match p.buf with
            | .bytes b => s.holdFence line b
            | .failed _ _ => s.hostError .cmp p.buf
          else s
        let named := s.fenceNamed
        let s := s.evalFences
        ({ s with cxl := { s.cxl with fenceLines := named }, cmp := { s.cmp with fence := s.cmp.fence.filter (fun f => named.contains f.1) } }
          , some ok)))

/-- CMP_LOAD_LUT (R289 to R291, R308). -/
def execCmpLoadLut (p : Pkt) (s : State) : Res :=
  .next (runOp 0x0701 p s (fun s => s.refGuard (p.ref 4) 4 (fun s =>
    let n := p.idx
    let l := p.b 0 0 4
    if 7 < l ∧ l ≠ 15 then (s, some (badWord 0))
    else if (p.ref 4).len ≠ (if l = 15 then 24576 else 2048) then (s, some (refuse stBadParam 0x8004))
    else if (s.cmpU n).set.isSome then (s, some (refuse stState 0x800B))
    else
      match s.readRef (p.ref 4) p.buf with
      | none => (s.bufError .cmp (p.ref 4) p.buf, some readFault)
      | some bs =>
        let t := halfWords bs
        (s.modCmp n (fun u => if l = 15 then { u with shadowPost := some t }
          else { u with shadow := u.shadow.set l { u.shadowLayer l with lut := some t } }), some ok))))

/-- CMP_SET_WRITEBACK (R176, R302, R308). -/
def execCmpSetWriteback (p : Pkt) (s : State) : Res :=
  .next (runOp 0x0704 p s (fun s =>
    let g : WbCfg := {
      en := p.t 0 0, oneshot := p.t 0 1, pack := p.b 0 2 4, matrix := p.b 0 8 1, range := p.b 0 9 1, nbuf := p.b 0 16 4
      stride := p.w 1 * 4096, base := p.q 2 }
    if 2 < g.pack ∨ (g.en ∧ (g.nbuf < 2 ∨ 8 < g.nbuf ∨ g.base % 4096 ≠ 0 ∨ s.wBytes < g.base + g.nbuf * g.stride)) then
      (s, some (refuse stBadParam 0x800A))
    else (s.modCmp p.idx (fun u => { u with shadowWb := g }), some ok)))

/-! ### Commit (R288, R291, R300, R301) -/

/-- The clipped destination of `a` lies inside that of `b`. -/
def destInside (w h : Nat) (a b : LayerCfg) : Bool :=
  let x := fun (v : Nat) => min v w
  let y := fun (v : Nat) => min v h
  decide (x b.dx ≤ x a.dx) && decide (x (a.dx + a.dw) ≤ x (b.dx + b.dw)) && decide (y b.dy ≤ y a.dy)
    && decide (y (a.dy + a.dh) ≤ y (b.dy + b.dh))

/-- R300: layer `i` is covered. -/
def coveredBy (w h : Nat) (ls : List LayerCfg) (i : Nat) : Bool :=
  (ls.drop (i + 1)).any (fun b => b.en && b.solid && b.galpha == 0xFFFF && destInside w h (ls.getD i {}) b)

/-- The checks of one enabled layer at commit (R287, R288, Table 14-5). -/
def State.layerCheck (s : State) (l : LayerCfg) : Option (Nat × Nat) :=
  let big := fun (v : Nat) => v == 0 || decide (8192 < v)
  if big l.sw ∨ big l.sh ∨ big l.dw ∨ big l.dh ∨ 3 < l.pack then some (stBadParam, 0x8004)
  else if 4 * l.dw < l.sw ∨ 8 * l.sw < l.dw ∨ 4 * l.dh < l.sh ∨ 8 * l.sh < l.dh then some (stBadParam, 0x8002)
  else if l.bypass = false ∧ 8192 < 2 * min l.sw l.dw then some (stLinebuf, 0x8001)
  else if l.src ≠ 0 ∧ (s.tapFor l.tapCtx l.tapEng).pack ≠ l.pack then some (stBadParam, 0x8007)
  else none

/-- The fetch of a set stays within 3,000 Mpix/s (R301). -/
def State.fetchOk (s : State) (n : Nat) (w h : Nat) (ls : List LayerCfg) (fcg : Nat) : Bool :=
  let px := ((List.range 8).map (fun i =>
    let l := ls.getD i {}
    if l.en && !coveredBy w h ls i then l.sw * l.sh else 0)).sum
  match s.tgOf n with
  | some t =>
    let g := s.tg t
    !g.set || decide (px * g.lineDen ≤ 3 * (g.vactive + g.soft.vmin) * g.lineNum)
  | none => decide (px * 0x100000000 ≤ 3 * (s.fcg fcg).live.period)

/-- The commit's geometry of write-back holds (R176). -/
def WbCfg.fits (g : WbCfg) (w h : Nat) : Bool :=
  !g.en || decide (packSize { engine := 0, ow := w, oh := h, pack := g.pack } ≤ g.stride)

/-- Join deferred flips to those a replaced set held: a newer flip of a layer replaces an older one (R291, R293). -/
def State.joinFlips (s : State) (n : Nat) (old : List (Nat × Flip)) : List (Nat × Flip) → State × List (Nat × Flip)
  | [] => (s, old)
  | d :: t =>
    match old.find? (fun o => o.1 == d.1) with
    | some o => State.joinFlips (s.flipReplaced n o.1 o.2) n (old.filter (fun x => x.1 != d.1) ++ [d]) t
    | none => State.joinFlips s n (old ++ [d]) t

/-- CMP_COMMIT (R288, R291, R300, R301, R307, R308). -/
def execCmpCommit (p : Pkt) (s : State) : Res :=
  .next (runOp 0x0702 p s (fun s =>
    let n := p.idx
    let u := s.cmpU n
    let w := p.b 0 0 16
    let h := p.b 0 16 16
    let fcg := p.b 2 17 2
    let inR := fun (v : Nat) => decide (64 ≤ v) && decide (v ≤ 8192)
    let size := match s.tgOf n with
      | some t => (s.tg t).set && ((s.tg t).hactive != w || (s.tg t).vactive != h)
      | none => false
    if (inR w && inR h) = false then (s, some (refuse stBadParam 0x8004))
    else
      match (u.shadow.filter (·.en)).findSome? s.layerCheck with
      | some (st, d) => (s, some (refuse st d))
      | none =>
        if u.shadowWb.fits w h = false then (s, some (refuse stBadParam 0x800A))
        else if s.fetchOk n w h u.shadow fcg = false then (s, some (refuse stBandwidth 0x8003))
        else if size then (s, some (refuse stState 0x8006))
        else
          let s := if u.set.isSome then s.cmpErr n CMP_C_ERR__COMMIT_REPLACED else s
          let r := s.joinFlips n ((u.set.map (·.flips)).getD []) u.deferred
          let g : CmpSet := {
            outW := w, outH := h, bg := (p.b 1 0 16, p.b 1 16 16, p.b 2 0 16), pace := p.t 2 16, fcg := fcg, layers := u.shadow
            post := u.shadowPost, wb := u.shadowWb, lines := u.shadowLines, tcPos := u.shadowTcPos, flips := r.2 }
          let s := r.1.modCmp n (fun u => { u with set := some g, deferred := [] })
          let s := s.setB (CMP_C_STAT__COMMIT_PEND n) true
          let s := (List.range 8).foldl (fun s l => s.showFlips n l) s
          let fp := ((s.modCmp n (fun u => { u with live := some g })).instFp .cmp).toNat
          (s, some (ok [fp % 0x100000000, fp / 0x100000000]))))

/-! ### Flips (R293, R296) -/

/-- CMP_FLIP (R293, R308). A flip with DEFER is checked against the shadow settings, another against the live ones. -/
def execCmpFlip (p : Pkt) (s : State) : Res :=
  .next (runOp 0x0703 p s (fun s =>
    let n := p.idx
    let l := p.b 0 0 4
    let u := s.cmpU n
    let later := p.t 0 8
    let g := if later then u.shadowLayer l else u.liveLayer l
    if 7 < l then (s, some (badWord 0))
    else if g.en = false ∨ g.src ≠ 0 then (s, some (refuse stState 0x8009))
    else if s.wBytes < p.q 2 + g.bytes then (s, some (refuse stBadParam 0x8008))
    else
      let f0 : Flip := {
        addr := p.q 2, acq := p.q 4, rel := p.q 6, tag := p.b 1 0 16, wait := p.t 0 9, ready := false, order := u.order }
      let f := { f0 with ready := s.flipReady g f0 }
      let s := s.modCmp n (fun u => { u with order := u.order + 1 })
      let s := if later then
          let r := s.joinFlips n u.deferred [(l, f)]
          r.1.modCmp n (fun u => { u with deferred := r.2 })
        else
          let s := match (u.layerSt l).pending with
            | some o => s.flipReplaced n l o
            | none => s
          s.modLayer n l (fun x => { x with pending := some f })
      (s.showFlips n l, some ok)))

/-- A flip that waits for its fence and is not ready, with a tag. -/
def Flip.stuck (tag : Nat) (f : Flip) : Bool := f.wait && !f.ready && f.tag == tag

/-- The flip of a layer that waits on its fence, in the order of its life: pending, in a commit set, deferred; it is taken out. -/
def State.takeStuck (s : State) (n l : Nat) (stuck : Flip → Bool) : Option Flip × State :=
  let u := s.cmpU n
  let mine := fun (d : Nat × Flip) => d.1 == l && stuck d.2
  match (u.layerSt l).pending.filter stuck with
  | some f => (some f, s.modLayer n l (fun x => { x with pending := none }))
  | none =>
    match u.set.bind (fun g => (g.flips.find? mine).map (fun d => (g, d.2))) with
    | some (g, f) =>
      (some f, s.modCmp n (fun u => { u with set := some { g with flips := g.flips.filter (fun x => !mine x) } }))
    | none =>
      match u.deferred.find? mine with
      | some d => (some d.2, s.modCmp n (fun u => { u with deferred := u.deferred.filter (fun x => !mine x) }))
      | none => (none, s)

/-- FENCE_TIMEOUT (R296): a flip whose fence has not been reached in FENCE_TMO_MS is abandoned. -/
def execFenceTimeout (composer : Fin 4) (layer : Fin 8) (tag : BitVec 16) (s : State) : Res :=
  let n := composer.val
  let l := layer.val
  match s.takeStuck n l (Flip.stuck tag.toNat) with
  | (none, s) => .next s
  | (some f, s) =>
    let s := s.release n l f.rel
    let s := (s.bumpStat (CMP_C_FTMO_CNT n)).cmpErr n CMP_C_ERR__FENCE_TMO
    .next ((s.log .cmp evCmpFenceTmo (cmpTarget n) n l f.tag).showFlips n l)

/-- CMP_RIND_STATUS (R308). -/
def execCmpRindStatus (p : Pkt) (s : State) : Res :=
  .next (runOp 0x0705 p s (fun s =>
    let n := p.idx
    let u := s.cmpU n
    let r := s.cmp.rind
    let sel := match u.live with
      | some g => (g.lines.getD (s.rindEntry n).lineMask) + 256 * (g.tcPos.getD (s.rindEntry n).tcPos)
      | none => (s.rindEntry n).lineMask + 256 * (s.rindEntry n).tcPos
    (s, some (ok [r.version + 0x10000 * b2n r.byDefault + 0x20000 * b2n r.locked, r.crc.toNat, u.drawn, sel
      , s.f (CMP_C_STAT__FAULT_CARD n), s.rn (CMP_C_CFN n)]))))

/-! ### Tap layers (R298, R299) -/

/-- HOLD of a tap's buffer by a composer. -/
def State.cmpHolds (s : State) (t k : Nat) : Bool :=
  s.cmp.unit.toList.any (fun u => u.layer.any (fun x =>
    x.race.contains (t, k) || (match x.shown with
      | some b => (match b.tap with | some q => q.1 == t && q.2.1 == k | none => false)
      | none => false)))

/-- A tap chooses a buffer: TAP_RACE layers hold it in the same cycle (R299). -/
def State.raceHold (s : State) (c t k : Nat) : State :=
  (List.range 4).foldl (fun s n =>
    s.modCmp n (fun u => { u with layer := (List.range 8).map (fun l =>
      let g := u.liveLayer l
      let x := u.layerSt l
      if g.en && g.src == 2 && g.tapEng == t && g.tapCtx == c then { x with race := x.race ++ [(t, k)] } else x) })) s

/-- The buffer a tap layer takes by R298: READY, the newest FID later than the one shown; and whether a newer one was
passed over for its geometry. -/
def State.tapPick (s : State) (g : LayerCfg) (x : LayerSt) : Option (Nat × Nat) × Bool :=
  let t := g.tapEng
  let nbuf := 8
  let same := fun (k : Nat) => (s.tp t).made.any (fun m => m.1 == k && m.2.ow == g.sw && m.2.oh == g.sh && m.2.pack == g.pack)
  let owned := s.f (TAP_T_OWNER__CTX t) == g.tapCtx
  let shownFid := match x.shown with
    | some b => b.tap.map (fun q => q.2.2)
    | none => none
  let later := fun f => match shownFid with
    | some f0 => serialLt f0 f
    | none => true
  let ready := (List.range nbuf).filter (fun k => owned && s.on (TAP_T_DESC_INFO__READY t k) && later (s.rn (TAP_T_DESC_FID t k)))
  let best := (ready.filter same).foldl (fun (b : Option Nat) k => match b with
    | some j => if serialLt (s.rn (TAP_T_DESC_FID t j)) (s.rn (TAP_T_DESC_FID t k)) then some k else b
    | none => some k) none
  (best.map (fun k => (k, s.rn (TAP_T_DESC_FID t k))), ready.any (fun k => !same k))

/-- DPA of a tap's buffer. -/
def State.tapBufAddr (s : State) (t k : Nat) : Nat :=
  match (s.tp t).made.find? (fun m => m.1 == k) with
  | some m => m.2.base + k * m.2.stride
  | none => 0

/-- A tap layer at a latch (R298, R299). -/
def State.latchTap (s : State) (n l : Nat) (g : LayerCfg) : State :=
  let x := (s.cmpU n).layerSt l
  let t := g.tapEng
  let keep := match (s.tp t).frame with
    | some f => (match f.buf with | some k => [(t, k)] | none => [])
    | none => []
  let racing : Option (Nat × Nat) := if g.src = 2 then
      match (s.tp t).frame with
      | some f => (match f.buf with
        | some k => if g.race ≤ f.rows ∧ f.cfg.ow = g.sw ∧ f.cfg.oh = g.sh ∧ f.cfg.pack = g.pack then some (k, f.fid) else none
        | none => none)
      | none => none
    else none
  let show_ := fun (s : State) (k f : Nat) (r : Bool) => s.modLayer n l (fun x => { x with
    race := x.race.filter keep.contains, shown := some { addr := s.tapBufAddr t k, tap := some (t, k, f), racing := r } })
  match racing with
  | some (k, f) => show_ s k f true
  | none =>
    match s.tapPick g x with
    | (some (k, f), mism) => show_ (if mism then s.cmpErr n CMP_C_ERR__SRC_MISMATCH else s) k f false
    | (none, mism) =>
      let s := s.modLayer n l (fun x => { x with race := x.race.filter keep.contains, shown := x.shown.map (fun b => { b with racing := false }) })
      let s := if mism then s.cmpErr n CMP_C_ERR__SRC_MISMATCH else s
      if x.shown.isSome then s.bumpEvt .cmp (CMP_C_L_REPEAT_CNT n l) else s

/-! ### The latch (R292, R295, R297, R300, R302, R305, R306) -/

/-- A buffer leaves a layer: its release value is written (R297). -/
def State.leave (s : State) (n l : Nat) (b : Option Shown) : State :=
  match b with
  | some b => match b.rel with
    | some v => s.release n l v
    | none => s
  | none => s

/-- A flip is shown. -/
def State.showFlip (s : State) (n l : Nat) (f : Flip) : State :=
  let s := s.leave n l ((s.cmpU n).layerSt l).shown
  s.modLayer n l (fun x => { x with shown := some { addr := f.addr, rel := some f.rel, tag := f.tag } })

/-- LATE of a layer (R295). -/
def State.lateLayer (s : State) (n l : Nat) : State :=
  ((s.setB (CMP_C_L_STAT__LATE n l) true).bumpStat (CMP_C_LATE_CNT n)).cmpErr n CMP_C_ERR__LATE

/-- Every due flip of a composer is ready. -/
def State.allReady (s : State) (n : Nat) : Bool :=
  let u := s.cmpU n
  u.layer.all (fun x => match x.pending with | some f => f.ready | none => true)
    && (match u.set with | some g => g.flips.all (fun d => d.2.ready) | none => true)

/-- A commit set goes live: the LUT banks that it captured swap with the former live ones, where they are still the shadow banks (R180, R291;
log 97). -/
def CmpSt.goLive (u : CmpSt) (g : CmpSet) : CmpSt :=
  let swap := fun (l : Nat) => if (u.shadowLayer l).lut = (g.layer l).lut then (u.liveLayer l).lut else (u.shadowLayer l).lut
  { u with
    live := some { g with flips := [] }, set := none
    shadow := (List.range 8).map (fun l => { u.shadowLayer l with lut := swap l })
    shadowPost := if u.shadowPost = g.post then u.live.bind (·.post) else u.shadowPost }

/-- The commit set and the pending flips that are ready go live, in the order they were queued (R295). -/
def State.latchFlips (s : State) (n : Nat) : State :=
  let u := s.cmpU n
  let s := (List.range 8).foldl (fun s l => s.setB (CMP_C_L_STAT__LATE n l) false) s
  let goes := match u.set with | some g => g.flips.all (fun d => d.2.ready) | none => false
  let pend : List (Nat × Flip) := (List.range 8).filterMap (fun l => (u.layerSt l).pending.map (fun f => (l, f)))
  let lateSet : List Nat := match u.set with
    | some g => if goes then [] else (g.flips.filter (fun (d : Nat × Flip) => !d.2.ready)).map (fun (d : Nat × Flip) => d.1)
    | none => []
  let latePend := (pend.filter (fun d => !d.2.ready)).map (fun (d : Nat × Flip) => d.1)
  let s := (List.range 8).foldl (fun s l => if (lateSet ++ latePend).contains l = true then s.lateLayer n l else s) s
  let setFlips := match u.set with | some g => if goes then g.flips else [] | none => []
  let apply := (setFlips ++ pend.filter (fun d => d.2.ready)).mergeSort (fun (a b : Nat × Flip) => decide (a.2.order ≤ b.2.order))
  let s := s.modCmp n (fun u => { u with layer := u.layer.map (fun x =>
    { x with pending := match x.pending with | some f => if f.ready then none else some f | none => none }) })
  let s := match u.set with
    | some g => if goes then
        let s0 := s
        let stays := fun (l : Nat) (b : Shown) => (g.layer l).en && (match b.tap with
          | some q => (g.layer l).src != 0 && (g.layer l).tapEng == q.1
          | none => (g.layer l).src == 0)
        let s := (List.range 8).foldl (fun s l =>
          let b := ((s.cmpU n).layerSt l).shown
          if (b.map (stays l)).getD true then s else (s.leave n l b).modLayer n l (fun x => { x with shown := none })) s
        let s := s.modCmp n (fun u => u.goLive g)
        let s := (s.setB (CMP_C_STAT__COMMIT_PEND n) false).wn (CMP_C_OUT n) (g.outW + 0x10000 * g.outH)
        let s := ((s.setB (CMP_C_STAT__EN n) true).setB (CMP_C_STAT__PACE n) g.pace).setB (CMP_C_STAT__WB_EN n) g.wb.en
        (s.commitSince s0).cmpIrq n CMP_C_IRQ__COMMIT_LIVE
      else s
    | none => s
  apply.foldl (fun s d => s.showFlip n d.1 d.2) s

/-- Write-back of this frame: its buffer (R302), unless the ladder or a full set of held buffers stops it (R392). -/
def State.latchWb (s : State) (n : Nat) : Option Nat × State :=
  match (s.cmpU n).live with
  | none => (none, s)
  | some g =>
    if g.wb.en = false then (none, s)
    else
      let lvl := if g.wb.oneshot then 0 else s.f PWR_STAT__DEG_LEVEL
      let turn := s.pwr.wbTurn.getD n 0
      let s := if 2 ≤ lvl then s.modPwr (fun p => { p with wbTurn := p.wbTurn.set n (turn + 1) }) else s
      if 4 ≤ lvl ∨ (2 ≤ lvl ∧ turn % 2 = 1) then (none, s)
      else
        let first := match (s.cmpU n).wbLast with | some k => k + 1 | none => 0
        match ((List.range g.wb.nbuf).map (fun k => (first + k) % g.wb.nbuf)).find? (fun k => !s.bit (CMP_C_WB_HOLD__HOLD n) k) with
        | some k => (some k, (s.setB (CMP_C_WB_DESC__READY n k) false).modCmp n (fun u => { u with wbLast := some k }))
        | none => (none, s.cmpErr n CMP_C_ERR__WB_DROP)

/-- The latch of a composer for its next frame. `tc` is the frame's timecode. -/
def State.latchNow (s : State) (n : Nat) (tc : Nat) : State :=
  let s := s.latchFlips n
  let e := s.rindEntry n
  let fault := s.dev.safe && e.shows
  let u := s.cmpU n
  let s := match u.live with
    | some g => (List.range 8).foldl (fun (s : State) (l : Nat) =>
        let x := g.layer l
        if x.en ∧ x.src ≠ 0 ∧ fault = false then s.latchTap n l x else s) s
    | none => s
  let (wb, s) := if fault then (none, s) else s.latchWb n
  let cfn := (s.rn (CMP_C_CFN n) + 1) % 0x100000000
  let s := s.bumpEvt .cmp (CMP_C_CFN n)
  let s := (s.setB (CMP_C_STAT__FAULT_CARD n) fault).setB (CMP_C_STAT__WAITING n) false
  let live := (s.cmpU n).live
  let s := (List.range 8).foldl (fun (s : State) (l : Nat) =>
    let g := (s.cmpU n).liveLayer l
    let x := (s.cmpU n).layerSt l
    let cov := match live with | some c => g.en && coveredBy c.outW c.outH c.layers l | none => false
    let b : Shown := x.shown.getD { addr := 0 }
    let s := (s.setB (CMP_C_L_STAT__EN n l) g.en).setF (CMP_C_L_STAT__SRC n l) g.src
    let s := (s.setB (CMP_C_L_STAT__COVERED n l) cov).setF (CMP_C_L_STAT__FLIP_TAG n l) b.tag
    let s := (s.wn (CMP_C_L_BUF_LO n l) b.addr).wn (CMP_C_L_BUF_HI n l) (b.addr / 0x100000000)
    s.showFlips n l) s
  let tally := if s.vlt.flash then s.ns / 125000000 % 2 == 0 else s.on VLT_TALLY__REC_ACTIVE
  let drawn := if e.shows then b2n (e.tally && tally) + 2 * b2n (e.tc && s.cmp.assets) + 4 * b2n e.lines else 0
  let s := s.modCmp n (fun u => { u with
    frame := some { cfn := cfn, wb := wb, tally := tally, tc := tc, fault := fault }, due := false, drawn := drawn })
  s.cmpIrq n CMP_C_IRQ__LATCH

end Sys2Proof.Machine
end

