-- ==== Sys2Proof/Machine/CmpRows.lean ====
section
/-!
DEFINITION. The frame of a composer and of a timing generator: the latch row, the start of vertical blanking, the end of a
composed frame with its CRCs and write-back, fence reads and holds (spec/14_composition.md, R292 to R306;
spec/15_display_outputs.md, R310 to R316).
-/
namespace Sys2Proof.Machine
open Sys2Proof

/-! ### The composed frame (R285 to R290, R297, R300, R302 to R306) -/

/-- Layer `l` of the frame in progress is fetched: enabled, not covered at the latch, with a buffer, and no fault card is shown (R306). -/
def State.fetched (s : State) (n l : Nat) : Bool :=
  let u := s.cmpU n
  (u.liveLayer l).en && !s.on (CMP_C_STAT__FAULT_CARD n) && !s.on (CMP_C_L_STAT__COVERED n l) && (u.layerSt l).shown.isSome

/-- The composed picture of a frame before the Rind: the fault card's background, or the blended layers. -/
def State.composed (s : State) (n : Nat) (f : CmpFrame) : List (List Rgb) :=
  match (s.cmpU n).live with
  | none => []
  | some g =>
    let shown : List (Option Nat) := (List.range 8).map (fun l =>
      if s.fetched n l then ((s.cmpU n).layerSt l).shown.map (fun (b : Shown) => b.addr) else none)
    (List.range g.outH).map (fun y => (List.range g.outW).map (fun x =>
      if f.fault then s.cmp.rind.bg else g.pixel s.memB shown x y))

/-- The Rind of a frame (R304, R305). -/
def State.rindOf (s : State) (n : Nat) (f : CmpFrame) : RindFrame :=
  let e := s.rindEntry n
  let u := s.cmpU n
  let sel := fun (o : Option (Option Nat)) (d : Nat) => (o.getD none).getD d
  { entry := e, tally := f.tally, tc := f.tc, assets := s.cmp.assets, lines := sel (u.live.map (fun (g : CmpSet) => g.lines)) e.lineMask
    tcPos := sel (u.live.map (fun (g : CmpSet) => g.tcPos)) e.tcPos }

/-- The text of the fault card over pixel (x, y): the safe-state cause and the latest EVT sequence number (R306). -/
def State.cardText (s : State) (x y : Nat) (d : Rgb) : Rgb :=
  let v := s.f TST_SAFE__CAUSE + 256 * ((s.rn EVT_TAIL_SEQ + 0xFFFFFFFF) % 0x100000000)
  if s.cmp.assets && Config.rindPixel 1 v x y != 0 then s.cmp.rind.text else d

/-- Draw the Rind and, in the safe state, the fault card's text over a composed picture. -/
def State.overlay (s : State) (n : Nat) (f : CmpFrame) (pic : List (List Rgb)) : List (List Rgb) :=
  let r := s.rindOf n f
  let h := pic.length
  (List.range h).map (fun y =>
    let l := pic.getD y []
    (List.range l.length).map (fun x =>
      let d := l.getD x (0, 0, 0)
      r.ovr l.length h x y (if f.fault then s.cardText x y d else d)))

/-- Source lines of a layer that composing fetches, in rising order (R287, R297). -/
def LayerCfg.fetchRows (l : LayerCfg) (w h : Nat) : List Nat :=
  if w ≤ l.dx then []
  else
    let need := (List.range (min l.dh (h - l.dy))).flatMap (fun k =>
      if l.bypass then [k]
      else
        let v := layerPos l.sh l.dh k
        [edge l.sh v.1, edge l.sh (v.1 + 1)])
    (List.range l.sh).filter need.contains

/-- The bytes of every source line fetched, plane by plane (R297). -/
def LayerCfg.fetchBytes (l : LayerCfg) (mem : Nat → Byte) (a w h : Nat) : List Byte :=
  let lay := l.lay
  let rows := l.fetchRows w h
  (List.range (planeBytes lay).length).flatMap (fun p =>
    let n := (planeBytes lay).getD p 0
    let rs := if l.pack = 3 ∧ p = 1 then (rows.map (· / 2)).eraseDups else rows
    rs.flatMap (fun y => bytesAt mem (a + (planeOffsets lay).getD p 0 + y * pitchOf n) n))

/-- CRCs of a finished frame (R297, R300). -/
def State.layerCrcs (s : State) (n cfn : Nat) : State :=
  match (s.cmpU n).live with
  | none => s
  | some g => (List.range 8).foldl (fun (s : State) (l : Nat) =>
      let c := g.layer l
      if c.en ∧ c.crcEn then
        let v := if s.fetched n l then
            (match ((s.cmpU n).layerSt l).shown with
             | some b => crc32 (c.fetchBytes s.memB b.addr g.outW g.outH)
             | none => 0)
          else 0
        (s.wn (CMP_C_L_CRC n l) v).wn (CMP_C_L_CRC_CFN n l) cfn
      else s) s

/-- Racing layers that read lines the tap had not written tear the frame (R299). -/
def State.tearFrame (s : State) (n : Nat) (torn : BitVec 8) : State :=
  let u := s.cmpU n
  let hit := fun (l : Nat) => torn.getLsbD l && s.fetched n l
    && (match (u.layerSt l).shown with | some b => b.racing | none => false)
  let s1 := (List.range 8).foldl (fun (s : State) (l : Nat) => s.setB (CMP_C_L_STAT__TORN n l) (hit l)) s
  if (List.range 8).any hit then (s1.bumpStat (CMP_C_TORN_CNT n)).cmpErr n CMP_C_ERR__TORN else s1

/-- Write a frame into its write-back buffer (R302). -/
def State.writeBack (s : State) (n : Nat) (f : CmpFrame) (pic : List (List Rgb)) : State :=
  match (s.cmpU n).live, f.wb with
  | some g, some k =>
    let lay : TapCfg := { engine := 0, ow := g.outW, oh := g.outH, pack := g.wb.pack }
    let base := g.wb.base + k * g.wb.stride
    let put := fun (s : State) (y : Nat) =>
      let ls := wbLine g.wb (pic.getD y [])
      (List.range ls.length).foldl (fun (s : State) (p : Nat) =>
        let a := base + (planeOffsets lay).getD p 0 + y * pitchOf ((planeBytes lay).getD p 0)
        s.writeMem a (ls.getD p [])) s
    let s := (List.range g.outH).foldl put s
    let s := ((s.setF (CMP_C_WB_DESC__CFN n k) f.cfn).setB (CMP_C_WB_DESC__READY n k) true).setF (CMP_C_WB_STAT__LAST n) k
    if g.wb.oneshot then
      (s.modCmp n (fun u => { u with
        live := some { g with wb := { g.wb with en := false } }, shadowWb := { u.shadowWb with en := false } })).setB (CMP_C_STAT__WB_EN n) false
    else s
  | _, _ => s

/-- A composer's frame has been sent: torn layers, CRCs and write-back; the picture with its Rind. Memory is read as it
stands at the end of the frame (log 27). -/
def State.finishFrame (s : State) (n : Nat) (torn : BitVec 8) : State × List (List Rgb) :=
  match (s.cmpU n).frame with
  | none => (s, [])
  | some f =>
    let pic := s.composed n f
    let ovr := s.overlay n f pic
    let s := (s.tearFrame n torn).layerCrcs n f.cfn
    let s := s.writeBack n f (if (s.rindEntry n).wbRind then ovr else pic)
    (s.modCmp n (fun u => { u with frame := none }), ovr)

/-! ### The latch row (R292, R311 to R313) -/

/-- A bounded latch of R311, or one without. -/
def State.lockSlip (s : State) (t : Nat) (slip : Bool) : State :=
  let was := (s.tg t).slipped
  let s := (s.modTg t (fun g => { g with slipped := slip })).setB (DSP_TG_STAT__LOCKED t) (!slip)
  if slip then
    let s := (s.raise (DSP_TG_ERR__LOCK_SLIP t)).bumpStat (DSP_TG_SLIP_CNT t)
    let s := if was then s else s.log .dsp evDspLockSlip (0x6010 + t)
    s.pendIf (DSP_TG_IRQ__PEND t) 0 (s.on (DSP_TG_IRQ__ERR t)) (18 + t)
  else s

/-- The frame to come begins active video after `v` lines of blanking; a locked generator whose blanking cannot vary
begins at its target (R312), and one whose blanking can has its phase error by then (R311). -/
def State.startActive (s : State) (t v : Nat) : State :=
  let g := s.tg t
  let b := g.blank.getD 0
  let s := s.setF (DSP_TG_STAT__VBL_LAST t) v
  let s := match s.targetOf t with
    | some x =>
      if g.soft.vmin = g.soft.vmax then s
      else s.wn (DSP_TG_PHASE t) (ofInt 32 ((g.lineAt (b + v) * 0x100000000 - x * g.lineDen) / (g.lineDen * 0x100000000)))
    | none => s
  let go := fun (s : State) => s.modTg t (fun g => { g with active := b + v, blank := none, realign := false })
  if g.soft.lock ∧ g.soft.vmin = g.soft.vmax then
    match s.targetOf t with
    | some x => s.modTg t (fun g => { g with t0 := x / 0x100000000, active := 0, blank := none, realign := false })
    | none => go s
  else go s

/-- ANC packets of the ports on a generator become due at a latch that falls at the time `at_`, ns (R316). -/
def State.armAnc (s : State) (t : Nat) (at_ : Int) : State :=
  (List.range 2).foldl (fun (s : State) (q : Nat) =>
    if (s.dpt q).tg = some t then s.modDpt q (fun d => { d with anc := d.anc.map (fun (a : AncPkt) => { a with armed := a.armed || decide (a.since ≤ at_) }) }) else s) s

/-- A generator fixes the timecode of its next frame (R313). -/
def State.nextTc (s : State) (t : Nat) (at_ : Int) : State :=
  let n := s.tcNext t at_
  let s := s.modTg t (fun g => { g with tc := n, soft := { g.soft with preload := none } })
  s.wn (DSP_TG_TC t) ((s.tg t).tcWord n)

/-- What a latch at the time `at_` fixes at a generator: a bounded latch of R311 where it is locked with a blanking that
varies, and the timecode. -/
def State.tgLatch (s : State) (t : Nat) (slip : Bool) (at_ : Int) : State :=
  let g := s.tg t
  (if g.soft.lock ∧ g.soft.vmin ≠ g.soft.vmax then s.lockSlip t slip else s).nextTc t at_

/-- A latch of a generator without a composer, `v` lines of blanking before the frame, 4 lines ahead of it (R292, R309). -/
def State.latchAlone (s : State) (t v : Nat) (slip : Bool) : State :=
  let g := s.tg t
  let at_ := g.lineAt (g.blank.getD 0 + v - 4) / (g.lineDen : Int)
  ((s.tgLatch t slip at_).startActive t v).armAnc t at_

/-- The latch of the composer that generator `t` drives, `v` lines of blanking before the frame. -/
def State.latchDriven (s : State) (n t v : Nat) (slip : Bool) : State :=
  let s := s.tgLatch t slip s.now
  let s := s.latchNow n ((s.tg t).tcWord (s.tg t).tc)
  (s.startActive t v).armAnc t s.now

/-- CMP_LATCH (R292, R295, R311): a composer examines line start `line` of its generator's blanking, or latches at the
tick of its cadence generator. `torn` names the racing layers that tore the frame an undriven composer ends. -/
def execCmpLatch (composer : Fin 4) (line : BitVec 16) (torn : BitVec 8) (s : State) : Res :=
  let n := composer.val
  match s.tgOf n with
  | none =>
    if (s.cmpU n).due then .next ((s.finishFrame n torn).1.latchNow n 0) else .next s
  | some t =>
    let g := s.tg t
    let v := line.toNat + 4
    if g.set = false ∨ g.blank.isNone then .next s
    else
      match s.fixedBlank t with
      | some (v0, slip) =>
        if v = v0 then .next (s.latchDriven n t v slip) else .next s
      | none =>
        if v < g.soft.vmin ∨ g.soft.vmax < v then .next s
        else if s.allReady n = false ∧ v < g.soft.vmax then .next (s.setB (CMP_C_STAT__WAITING n) true)
        else .next (s.latchDriven n t v false)

/-! ### Vertical blanking (R309, R310, R312, R314 to R316) -/

/-- What a port sends of a picture (R314); a generator without a composed picture sends code 0 (R309). -/
def State.portPicture (s : State) (q : Nat) (g : TgSt) (pic : Option (List (List Rgb))) : List (List Nat) :=
  match pic with
  | none => List.replicate g.vactive (List.replicate g.hactive 0)
  | some p => p.map (fun l => if q < 2 then sdiLine (bitsAt (s.dpt q).word0 3 1) l else dsiLine (bitAt (s.dpt q).word0 2) l)

/-- TRANSFER of a frame's source: that of the tap of its lowest fetched tap layer, else the port's own (R316). -/
def State.frameTransfer (s : State) (q : Nat) (n : Option Nat) : Nat :=
  let tap := match n with
    | some n => (List.range 8).findSome? (fun l =>
        let g := (s.cmpU n).liveLayer l
        if s.fetched n l && g.src != 0 then (s.tp g.tapEng).live.map (fun (c : TapCfg) => c.transfer) else none)
    | none => none
  tap.getD (bitsAt (s.dpt q).word0 4 2)

/-- Ancillary packets of an SDI frame (R316): the ST 352 payload ID and the ST 12-2 timecode as the values they carry
(log 26), then host packets that are due. -/
def State.sendAnc (s : State) (q : Nat) (g : TgSt) (n : Option Nat) (tc : Nat) : State :=
  let d := s.dpt q
  let s := s.emit (.anc q 0x41 0x01 [g.raster, g.rate, bitsAt d.word0 3 1, s.frameTransfer q n])
  let s := s.emit (.anc q 0x60 0x60 ((leBytes 4 tc).map (fun (b : Byte) => b.toNat)))
  let s := d.anc.foldl (fun (s : State) (a : AncPkt) => if a.armed then s.emit (.anc q a.did a.sdid a.udw) else s) s
  s.modDpt q (fun d => { d with anc := d.anc.filter (fun (a : AncPkt) => !a.armed) })

/-- The ports of a generator send the frame whose active video has ended. -/
def State.sendFrame (s : State) (t : Nat) (cfn tc : Nat) (pic : Option (List (List Rgb))) : State :=
  let g := s.tg t
  (List.range 4).foldl (fun (s : State) (q : Nat) =>
    if (s.dpt q).tg = some t ∧ s.portState q = 2 then
      let s := s.emit (.video q (BitVec.ofNat 32 cfn) (s.portPicture q g pic))
      if q < 2 then s.sendAnc q g (if pic.isSome then s.cmpOf t else none) tc else s
    else s) s

/-- Ports that are ENABLING on a generator come ON (R319, R321; log 25). -/
def State.portsUp (s : State) (t : Nat) : State :=
  (List.range 4).foldl (fun (s : State) (q : Nat) =>
    if (s.dpt q).tg = some t ∧ s.portState q = 1 then
      let s0 := s
      let s := (s.modDpt q (fun d => { d with word0 := d.asked.1, mbps := d.asked.2 })).setF (DSP_P_STAT__STATE q) 2
      (s.commitSince s0).endEnable q ok
    else s) s

/-- The phase of a generator whose blanking cannot vary, judged at B (R312). -/
def State.judgePhase (s : State) (t : Nat) (phase : Int) : State :=
  let g := s.tg t
  if g.soft.lock = false then (s.setB (DSP_TG_STAT__LOCKED t) false)
  else
    if g.soft.vmin ≠ g.soft.vmax then s
    else
      let s := s.wn (DSP_TG_PHASE t) (ofInt 32 phase)
      let s := s.setB (DSP_TG_STAT__LOCKED t) (decide (phase.natAbs ≤ 100))
      if g.lineNum < phase.natAbs * g.lineDen then
        let s := (s.modTg t (fun g => { g with realign := true })).raise (DSP_TG_ERR__REALIGN t)
        let s := (s.bumpStat (DSP_TG_REALIGN_CNT t)).log .dsp evDspRealign (0x6010 + t)
        s.pendIf (DSP_TG_IRQ__PEND t) 0 (s.on (DSP_TG_IRQ__ERR t)) (18 + t)
      else s

/-- A setting that waits is taken at a frame start. -/
def TgSt.takeNext (g : TgSt) : TgSt :=
  match g.next with
  | some n => { g with
    soft := { n with preload := n.preload.or g.soft.preload }, next := none }
  | none => g

/-- VBLANK_START (R309, R310, R312, R316): generator `t` ends a frame's active video; `phase` is the frame's phase error
in ns where its blanking cannot vary, `torn` the racing layers that read unwritten lines. A generator without a composer goes on by itself. -/
def execVblankStart (t : Fin 4) (phase : W32) (torn : BitVec 8) (s : State) : Res :=
  let k := t.val
  let g := s.tg k
  if g.set = false ∨ (g.blank.isSome ∧ (s.cmpOf k).isSome) then .next s
  else
    let s := if g.blank.isSome then
        match s.fixedBlank k with
        | some v => s.latchAlone k v.1 v.2
        | none => s.latchAlone k g.soft.vmin false
      else s
    let s := match s.cmpOf k with
      | some n => match (s.cmpU n).frame with
        | some f =>
          let r := s.finishFrame n torn
          r.1.sendFrame k f.cfn f.tc (if (s.cmpU n).live.isSome then some r.2 else none)
        | none => s.sendFrame k 0 ((s.tg k).tcWord (s.tg k).tc) none
      | none => s.sendFrame k 0 ((s.tg k).tcWord (s.tg k).tc) none
    let s := s.modTg k (fun g => { g with blank := some (g.active + g.vactive) })
    let s := s.bumpEvt .dsp (DSP_TG_FRAME_CNT k)
    let s := s.judgePhase k (sext 32 phase.toNat)
    let s := s.modTg k TgSt.takeNext
    .next ((s.showTg k).portsUp k)

/-! ### Fence reads and holds (R59, R63, R294, R302) -/

/-- SNPINV (R59, R294): the host takes a fence line; the device reads it again and evaluates the fence. -/
def execSnpinv (line : BitVec 58) (data : HostRead) (s : State) : Res :=
  let l := line.toNat
  if s.cxl.up = false ∨ s.cxl.fallback ∨ s.fenceNamed.contains l = false then .next s
  else
    match data with
    | .bytes b => .next (s.holdFence l b).evalFences
    | .failed _ _ => .next (s.hostError .cmp data)

/-- FENCE_POLL (R63, R294): in PCIe fallback a fence word is read every 20 µs. -/
def execFencePoll (addr : BitVec 64) (data : HostRead) (s : State) : Res :=
  let l := addr.toNat / 64
  if s.cxl.up = false ∨ s.cxl.fallback = false ∨ s.fenceNamed.contains l = false then .next s
  else
    match data with
    | .bytes b =>
      let old := ((s.cmp.fence.find? (fun f => f.1 == l)).map (fun f => f.2)).getD (List.replicate 64 0)
      let o := addr.toNat % 64
      .next (s.holdFence l (old.take o ++ padBytes 8 b ++ old.drop (o + 8))).evalFences
    | .failed _ _ => .next (s.hostError .cmp data)

/-- WB_HOLD_SET (R302): the host holds write-back buffers. -/
def execWbHoldSet (composer : Fin 4) (v : W32) (s : State) : Res :=
  let n := composer.val
  .next (if s.shut 0 then s else s.setF (CMP_C_WB_HOLD__HOLD n) (s.f (CMP_C_WB_HOLD__HOLD n) ||| v.toNat % 256))

/-! ### FLR (R307) -/

/-- FLR at CMP: pending and deferred flips are discarded, each release value written in the order the flips were
queued; the fence lines leave the device cache (spec/03, R60). -/
def State.cmpFlr (s : State) : State :=
  let s := { s with cmp := { s.cmp with fence := [] } }
  (List.range 4).foldl (fun (s : State) (n : Nat) =>
    let u := s.cmpU n
    let held : List (Nat × Flip) := (List.range 8).filterMap (fun l => (u.layerSt l).pending.map (fun (f : Flip) => (l, f)))
    let inSet := match u.set with
      | some g => g.flips
      | none => []
    let all := (held ++ inSet ++ u.deferred).mergeSort (fun (a b : Nat × Flip) => decide (a.2.order ≤ b.2.order))
    let s := all.foldl (fun (s : State) (d : Nat × Flip) => s.release n d.1 d.2.rel) s
    let s := s.modCmp n (fun u => { u with
      layer := u.layer.map (fun (x : LayerSt) => { x with pending := none }), deferred := []
      set := u.set.map (fun (g : CmpSet) => { g with flips := [] }) })
    (List.range 8).foldl (fun (s : State) (l : Nat) => s.showFlips n l) s) s

end Sys2Proof.Machine
end

