-- ==== Sys2Proof/Machine/Inflate.lean ====
section
/-!
DEFINITION. Decompression under RFC 1951, 1950 and 1952 as spec/18_deflate_engine.md limits it (R359, R360): bits are taken
least significant first; the output is kept newest byte first.
-/
namespace Sys2Proof.Machine
open Sys2Proof

/-- How decompression ends: at the end of the stream, with output left and no room, with the source exhausted, or with a
status of Table 18-3. -/
inductive InfEnd where
  | done | full | short
  | err (status : Nat)
deriving DecidableEq, Repr

/-! Status codes of Table 18-5. -/
def dsOk : Nat := 0x0000
def dsOutFull : Nat := 0x0001
def dsNeedInput : Nat := 0x0002
def dsAborted : Nat := 0x0003
def dsThermal : Nat := 0x0004
def dsDma : Nat := 0x0005
def dsSafe : Nat := 0x0006
def dsStateBad : Nat := 0x0007
def dsIllegal : Nat := 0x0010
def dsTooFar : Nat := 0x0011
def dsOverrun : Nat := 0x0012
def dsCheck : Nat := 0x0013
def dsHeader : Nat := 0x0014

/-- A decoder: output so far, newest first, its length, and the bits left. -/
structure Inf where
  out : List Byte := []
  n : Nat := 0
  rest : List Bool
deriving DecidableEq, Repr

/-- Bits of bytes, least significant first. -/
def lsbBits (bs : List Byte) : List Bool := bs.flatMap (fun b => (List.range 8).map (bitAt b.toNat))

/-- A number of `n` bits, least significant first. -/
def takeNum : Nat → List Bool → Option (Nat × List Bool)
  | 0, l => some (0, l)
  | _ + 1, [] => none
  | n + 1, b :: t => (takeNum n t).map (fun r => (b2n b + 2 * r.1, r.2))

/-! ### Huffman codes -/

/-- Canonical codes of code lengths: (length, code, symbol). -/
def canonCodes (lens : List Nat) : List (Nat × Nat × Nat) :=
  let count := fun (l : Nat) => (lens.filter (· == l)).length
  let first := (List.range 15).foldl (fun (acc : List Nat) l =>
    acc ++ [(acc.getD l 0 + (if l = 0 then 0 else count l)) * 2]) [0]
  (lens.zipIdx.filter (fun x => x.1 != 0)).map (fun x =>
    (x.1, first.getD x.1 0 + ((lens.take x.2).filter (· == x.1)).length, x.2))

/-- The lengths fill the code space exactly; `one` allows at most one code (R360). -/
def lensOk (one : Bool) (lens : List Nat) : Bool :=
  let used := lens.filter (· != 0)
  (used.map (fun l => 2 ^ (15 - l))).sum == 2 ^ 15 || (one && decide (used.length ≤ 1))

/-- The next symbol: none is an illegal code; a missing remainder means the source is exhausted. -/
def decodeSym (tab : List (Nat × Nat × Nat)) : Nat → Nat → Nat → List Bool → Option (Option (Nat × List Bool))
  | 0, _, _, _ => none
  | _ + 1, _, _, [] => some none
  | k + 1, len, code, b :: t =>
    let c := 2 * code + b2n b
    match tab.find? (fun e => e.1 == len + 1 && e.2.1 == c) with
    | some e => some (some (e.2.2, t))
    | none => decodeSym tab k (len + 1) c t

def nextSym (tab : List (Nat × Nat × Nat)) (l : List Bool) : Option (Option (Nat × List Bool)) := decodeSym tab 15 0 0 l

/-- Base length and extra bits of length symbol 257 + `i`; of distance symbol `i` (RFC 1951, 3.2.5). -/
def lenBase (i : Nat) : Nat × Nat :=
  if i < 8 then (i + 3, 0) else if i = 28 then (258, 0) else ((4 + i % 4) * 2 ^ (i / 4 - 1) + 3, i / 4 - 1)
def distBase (i : Nat) : Nat × Nat := if i < 4 then (i + 1, 0) else ((2 + i % 2) * 2 ^ (i / 2 - 1) + 1, i / 2 - 1)

/-- The fixed codes. -/
def fixedLit : List Nat := List.replicate 144 8 ++ List.replicate 112 9 ++ List.replicate 24 7 ++ List.replicate 8 8
def fixedDist : List Nat := List.replicate 32 5

/-! ### Blocks -/

/-- Add a byte while there is room. -/
def Inf.push (lim : Nat) (s : Inf) (b : Byte) : Option Inf := if s.n < lim then some { s with out := b :: s.out, n := s.n + 1 } else none

/-- Copy a match; `false` when room ran out. -/
def copyMatch (lim dist : Nat) : Nat → Inf → Inf × Bool
  | 0, s => (s, true)
  | k + 1, s =>
    match s.push lim (s.out.getD (dist - 1) 0) with
    | some s' => copyMatch lim dist k s'
    | none => (s, false)

/-- The symbols of a block; none when the block ends. -/
def infSyms (lim : Nat) (lit dist : List (Nat × Nat × Nat)) : Nat → Inf → Inf × Option InfEnd
  | 0, s => (s, some .short)
  | k + 1, s =>
    match nextSym lit s.rest with
    | none => (s, some (.err dsIllegal))
    | some none => (s, some .short)
    | some (some (y, r)) =>
      if y < 256 then
        match s.push lim (BitVec.ofNat 8 y) with
        | some s' => infSyms lim lit dist k { s' with rest := r }
        | none => (s, some .full)
      else if y = 256 then ({ s with rest := r }, none)
      else if 286 ≤ y then (s, some (.err dsIllegal))
      else
        match takeNum (lenBase (y - 257)).2 r with
        | none => (s, some .short)
        | some (x, r) =>
          match nextSym dist r with
          | none => (s, some (.err dsIllegal))
          | some none => (s, some .short)
          | some (some (d, r)) =>
            if 30 ≤ d then (s, some (.err dsIllegal))
            else
              match takeNum (distBase d).2 r with
              | none => (s, some .short)
              | some (z, r) =>
                let far := (distBase d).1 + z
                if s.n < far ∨ 32768 < far then (s, some (.err dsTooFar))
                else
                  match copyMatch lim far ((lenBase (y - 257)).1 + x) { s with rest := r } with
                  | (s', true) => infSyms lim lit dist k s'
                  | (s', false) => (s', some .full)

/-- The bytes of a stored block. -/
def infStored (lim : Nat) : Nat → Inf → Inf × Option InfEnd
  | 0, s => (s, none)
  | k + 1, s =>
    match takeNum 8 s.rest with
    | none => (s, some .short)
    | some (v, r) =>
      match s.push lim (BitVec.ofNat 8 v) with
      | some s' => infStored lim k { s' with rest := r }
      | none => (s, some .full)

/-- Code lengths of a dynamic block: literal and distance lengths in one list. -/
def dynLens (tab : List (Nat × Nat × Nat)) (total : Nat) : Nat → List Nat → List Bool → Except InfEnd (List Nat × List Bool)
  | 0, _, _ => .error .short
  | k + 1, acc, l =>
    if total < acc.length then .error (.err dsIllegal)
    else if acc.length = total then .ok (acc, l)
    else
      match nextSym tab l with
      | none => .error (.err dsIllegal)
      | some none => .error .short
      | some (some (y, r)) =>
        if y < 16 then dynLens tab total k (acc ++ [y]) r
        else
          let q := if y = 16 then (3, 2) else if y = 17 then (3, 3) else (11, 7)
          if y = 16 ∧ acc.isEmpty = true then .error (.err dsIllegal)
          else
            match takeNum q.2 r with
            | none => .error .short
            | some (n, r) => dynLens tab total k (acc ++ List.replicate (q.1 + n) (if y = 16 then acc.getLastD 0 else 0)) r

/-- Order of the code length code lengths. -/
def clOrder : List Nat := [16, 17, 18, 0, 8, 7, 9, 6, 10, 5, 11, 4, 12, 3, 13, 2, 14, 1, 15]

/-- `n` numbers of three bits. -/
def takeThrees : Nat → List Bool → Option (List Nat × List Bool)
  | 0, l => some ([], l)
  | n + 1, l =>
    match takeNum 3 l with
    | none => none
    | some (v, r) => (takeThrees n r).map (fun x => (v :: x.1, x.2))

/-- The codes of a dynamic block (RFC 1951, 3.2.7). -/
def dynCodes (l : List Bool) : Except InfEnd (List Nat × List Nat × List Bool) :=
  match takeNum 5 l with
  | none => .error .short
  | some (hl, l) =>
    match takeNum 5 l with
    | none => .error .short
    | some (hd, l) =>
      match takeNum 4 l with
      | none => .error .short
      | some (hc, l) =>
        match takeThrees (hc + 4) l with
        | none => .error .short
        | some (cs, l) =>
          let lens := (List.range 19).map (fun y =>
            ((clOrder.zip cs).find? (fun x => x.1 == y)).elim 0 (fun x => x.2))
          if lensOk false lens = false then .error (.err dsIllegal)
          else
            match dynLens (canonCodes lens) (hl + 257 + hd + 1) (hl + hd + 260) [] l with
            | .error e => .error e
            | .ok (all, l) =>
              let lit := all.take (hl + 257)
              let dist := all.drop (hl + 257)
              if lensOk false lit && lensOk true dist then .ok (lit, dist, l) else .error (.err dsIllegal)

/-- The blocks of a stream, at most `k`. -/
def infBlocks (lim : Nat) : Nat → Inf → Inf × InfEnd
  | 0, s => (s, .short)
  | k + 1, s =>
    match takeNum 3 s.rest with
    | none => (s, .short)
    | some (h, r) =>
      let s := { s with rest := r }
      let q : Inf × Option InfEnd := match h / 2 with
        | 0 =>
          let r := s.rest.drop (s.rest.length % 8)
          match takeNum 16 r with
          | none => (s, some .short)
          | some (n, r) =>
            match takeNum 16 r with
            | none => (s, some .short)
            | some (m, r) => if n + m = 65535 then infStored lim n { s with rest := r } else (s, some (.err dsIllegal))
        | 1 => infSyms lim (canonCodes fixedLit) (canonCodes fixedDist) (s.rest.length + 1) s
        | 2 =>
          match dynCodes s.rest with
          | .error e => (s, some e)
          | .ok (lit, dist, r) => infSyms lim (canonCodes lit) (canonCodes dist) (r.length + 1) { s with rest := r }
        | _ => (s, some (.err dsIllegal))
      match q with
      | (s', some e) => (s', e)
      | (s', none) => if h % 2 = 1 then (s', .done) else infBlocks lim k s'

/-- Decompress blocks that start `bytes`: output newest first, bytes left, and how it ended. -/
def inflate (lim : Nat) (bytes : List Byte) : Inf × InfEnd :=
  let l := lsbBits bytes
  infBlocks lim (l.length + 1) { rest := l }

/-! ### Framing (R359) -/

/-- A NUL-terminated field is skipped. -/
def skipText : List Byte → Option (List Byte)
  | [] => none
  | b :: t => if b = 0 then some t else skipText t

/-- Bytes after a gzip header: an end when it is short or bad. -/
def gzipHeader (bs : List Byte) : Except InfEnd (List Byte) :=
  if bs.length < 10 then
    if (bs.take 3).isPrefixOf [0x1F, 0x8B, 8] && decide ((bs.getD 3 0).toNat < 32) then .error .short else .error (.err dsHeader)
  else
    let flg := (bs.getD 3 0).toNat
    if bs.take 3 ≠ [0x1F, 0x8B, 8] ∨ 32 ≤ flg then .error (.err dsHeader)
    else
      let a := bs.drop 10
      let a := if bitAt flg 2 then
          if a.length < 2 then none
          else
            let n := leNat (a.take 2)
            if a.length < 2 + n then none else some (a.drop (2 + n))
        else some a
      let a := if bitAt flg 3 then a.bind skipText else a
      let a := if bitAt flg 4 then a.bind skipText else a
      match a with
      | none => .error .short
      | some a =>
        if bitAt flg 1 then
          if a.length < 2 then .error .short
          else if leNat (a.take 2) = crc32 (bs.take (bs.length - a.length)) % 65536 then .ok (a.drop 2)
          else .error (.err dsHeader)
        else .ok a

/-- Bytes after a zlib header. -/
def zlibHeader (bs : List Byte) : Except InfEnd (List Byte) :=
  match bs with
  | c :: f :: t =>
    if c.toNat % 16 = 8 ∧ c.toNat / 16 ≤ 7 ∧ (256 * c.toNat + f.toNat) % 31 = 0 ∧ bitAt f.toNat 5 = false then .ok t
    else .error (.err dsHeader)
  | [c] => if c.toNat % 16 = 8 ∧ c.toNat / 16 ≤ 7 then .error .short else .error (.err dsHeader)
  | [] => .error .short

/-- Check value over bytes: 1 CRC-32, 2 Adler-32, else 0. -/
def checkOf (kind : Nat) (bs : List Byte) : Nat := if kind = 1 then crc32 bs else if kind = 2 then adler32 bs else 0

/-- Check kind of a FRAME and CHECK (Table 18-2). -/
def checkKind (frame check : Nat) : Nat := if frame = 1 then 2 else if frame = 2 then 1 else check

/-- A trailer agrees with the output: bytes it takes, and whether it agrees. -/
def trailer (frame kind : Nat) (out : List Byte) (bs : List Byte) : Nat × Bool :=
  let c := checkOf kind out
  if frame = 2 then (8, bs.take 8 == leBytes 4 c ++ leBytes 4 out.length)
  else if kind = 0 then (0, true)
  else (4, bs.take 4 == (leBytes 4 c).reverse)

/-- What decompression of a source with at most `lim` bytes of output leaves: output in order, bytes taken in whole, how it
ended, and whether bytes follow. -/
def unframe (frame check lim : Nat) (src : List Byte) : List Byte × Nat × InfEnd × Bool :=
  let head := if frame = 1 then zlibHeader src else if frame = 2 then gzipHeader src else .ok src
  match head with
  | .error .short => ([], src.length, .short, false)
  | .error e => ([], min src.length (Config.headerTaken src), e, false)
  | .ok body =>
    let r := inflate lim body
    let out := r.1.out.reverse
    match r.2 with
    | .done =>
      let left := body.drop (body.length - r.1.rest.length / 8)
      let t := trailer frame (checkKind frame check) out left
      if left.length < t.1 then (out, src.length, .short, false)
      else
        let used := src.length - left.length + t.1
        if t.2 then (out, used, .done, decide (t.1 < left.length)) else (out, used, .err dsCheck, false)
    | .short => (out, src.length, .short, false)
    | e => (out, src.length - r.1.rest.length / 8, e, false)

end Sys2Proof.Machine
end

