-- ==== Sys2Proof/Machine/Deflate.lean ====
section
/-!
DEFINITION. Compression under RFC 1951 as spec/18_deflate_engine.md limits it (R357, R358). The blocks and their codes are built here; the
matches that are taken and the lengths of dynamic codes are free values (log 40), and one that would spell other bytes is not taken.
-/
namespace Sys2Proof.Machine
open Sys2Proof

/-- A symbol of a block: a literal, or a match. -/
inductive DefTok where
  | lit (b : Byte)
  | copy (len dist : Nat)
deriving DecidableEq, Repr

/-! ### Matches (Table 18-1) -/

/-- Chain depth and lazy matching of a LEVEL. -/
def levelDepth (level : Nat) : Nat × Bool := ([4, 8, 16, 24, 32, 64, 96, 128, 256].getD (level - 1) 256, decide (4 ≤ level))

/-- Input that a choice at one place may depend on: a match, and one more byte for lazy matching. -/
def matchAhead : Nat := 259

/-- A match spells the bytes ahead: `hist` is the window, newest byte first. -/
def matchOk (hist ahead : List Byte) (left len dist : Nat) : Bool :=
  decide (3 ≤ len) && decide (len ≤ 258) && decide (len ≤ left) && decide (len ≤ ahead.length) && decide (1 ≤ dist)
    && decide (dist ≤ hist.length)
    && (List.range len).all (fun i =>
      ahead.getD i 0 == if i < dist then hist.getD (dist - 1 - i) 0 else ahead.getD (i - dist) 0)

/-- The next symbol, with `left` bytes to the block's limit. -/
def nextTok (level left : Nat) (hist ahead : List Byte) : DefTok :=
  let c := Config.matchAt (levelDepth level) hist (ahead.take matchAhead)
  if matchOk hist ahead left c.1 c.2 then .copy c.1 c.2 else .lit (ahead.headD 0)

/-- Bytes that a symbol spells. -/
def DefTok.span : DefTok → Nat
  | .lit _ => 1
  | .copy n _ => n

/-- The symbols of a block of at most `k` symbols and `left` bytes, the window after it, and the input after it. -/
def defBlock (level : Nat) : Nat → Nat → List Byte → List Byte → List DefTok × List Byte × List Byte
  | 0, _, hist, l => ([], hist, l)
  | k + 1, left, hist, l =>
    if left = 0 ∨ l.isEmpty = true then ([], hist, l)
    else
      let t := nextTok level left hist l
      let n := t.span
      let r := defBlock level k (left - n) (((l.take n).reverse ++ hist).take 32768) (l.drop n)
      (t :: r.1, r.2)

/-- A block: its symbols, its bytes, and how much input follows it. -/
structure DefPart where
  toks : List DefTok
  raw : List Byte
  after : Nat
deriving DecidableEq, Repr

/-- The blocks of an input: each ends after 65,536 bytes or 16,384 symbols, and at the end of the input (R357). -/
def defParts (level : Nat) : Nat → List Byte → List Byte → List DefPart
  | 0, _, _ => []
  | k + 1, hist, l =>
    let r := defBlock level 16384 65536 hist l
    let p : DefPart := ⟨r.1, l.take (l.length - r.2.2.length), r.2.2.length⟩
    if r.2.2.isEmpty then [p] else p :: defParts level k r.2.1 r.2.2

/-! ### Codes -/

/-- A Huffman code as sent: most significant bit first. -/
def huffBits (n v : Nat) : List Bool := (List.range n).map (fun i => bitAt v (n - 1 - i))
/-- A number as sent: least significant bit first. -/
def numBits (n v : Nat) : List Bool := (List.range n).map (bitAt v)

/-- The code of a symbol. -/
def symBits (tab : List (Nat × Nat × Nat)) (y : Nat) : List Bool :=
  match tab.find? (fun e => e.2.2 == y) with
  | some e => huffBits e.1 e.2.1
  | none => []

/-- The last of `n` symbols whose base is at most a value. -/
def baseSym (base : Nat → Nat × Nat) (n v : Nat) : Nat := ((List.range n).reverse.find? (fun i => decide ((base i).1 ≤ v))).getD 0

/-- A symbol of a block as sent. -/
def DefTok.bits (lit dist : List (Nat × Nat × Nat)) : DefTok → List Bool
  | .lit b => symBits lit b.toNat
  | .copy n d =>
    let y := baseSym lenBase 29 n
    let z := baseSym distBase 30 d
    symBits lit (257 + y) ++ numBits (lenBase y).2 (n - (lenBase y).1) ++ symBits dist z ++ numBits (distBase z).2 (d - (distBase z).1)

/-- Symbols and the end of the block, under two sets of code lengths. -/
def codedBits (lit dist : List Nat) (toks : List DefTok) : List Bool :=
  let l := canonCodes lit
  let d := canonCodes dist
  toks.flatMap (DefTok.bits l d) ++ symBits l 256

/-- The symbols that a block needs codes for: literals and lengths, and distances. -/
def DefTok.needs : DefTok → Nat × Option Nat
  | .lit b => (b.toNat, none)
  | .copy n d => (257 + baseSym lenBase 29 n, some (baseSym distBase 30 d))

/-- Code lengths with which a block can be sent (R360): complete, at most 15 bits, a code for every symbol that is used. -/
def lensServe (lit dist : List Nat) (toks : List DefTok) : Bool :=
  decide (257 ≤ lit.length) && decide (lit.length ≤ 286) && decide (1 ≤ dist.length) && decide (dist.length ≤ 30)
    && (lit ++ dist).all (fun n => decide (n ≤ 15)) && lensOk false lit && lensOk true dist && lit.getD 256 0 != 0
    && toks.all (fun t => lit.getD t.needs.1 0 != 0 && t.needs.2.all (fun z => dist.getD z 0 != 0))

/-- The code lengths of a dynamic block: those chosen where they serve, else a complete code of every symbol. -/
def dynChosen (toks : List DefTok) : List Nat × List Nat :=
  let c := Config.dynLengths (toks.map (fun t => t.needs.1)) (toks.filterMap (fun t => t.needs.2))
  if lensServe c.1 c.2 toks then c
  else (List.replicate 226 8 ++ List.replicate 60 9, List.replicate 2 4 ++ List.replicate 28 5)

/-- The header of a dynamic block after its type (RFC 1951, 3.2.7): the one chosen where it spells the lengths, else each length by a code
of four bits. -/
def dynHead (lit dist : List Nat) : List Bool :=
  let c := Config.dynHeader lit dist
  let good := match dynCodes c with
    | .ok (a, b, r) => a == lit && b == dist && r.isEmpty
    | .error _ => false
  if good then c
  else numBits 5 (lit.length - 257) ++ numBits 5 (dist.length - 1) ++ numBits 4 15
    ++ clOrder.flatMap (fun y => numBits 3 (if y < 16 then 4 else 0)) ++ (lit ++ dist).flatMap (huffBits 4)

/-! ### Blocks as sent -/

/-- Stored blocks of at most 65,535 bytes; the first begins `pos` bits into the stream. -/
def storedBits (final : Bool) : Nat → Nat → List Byte → List Bool
  | 0, _, _ => []
  | k + 1, pos, raw =>
    let now := raw.take 65535
    let rest := raw.drop 65535
    let pad := (8 - (pos + 3) % 8) % 8
    let b := [final && rest.isEmpty, false, false] ++ List.replicate pad false ++ numBits 16 now.length
      ++ numBits 16 (65535 - now.length) ++ lsbBits now
    if rest.isEmpty then b else b ++ storedBits final k (pos + b.length) rest

def fixedBits (final : Bool) (toks : List DefTok) : List Bool := [final, true, false] ++ codedBits fixedLit fixedDist toks

def dynamicBits (final : Bool) (toks : List DefTok) : List Bool :=
  let c := dynChosen toks
  [final, false, true] ++ dynHead c.1 c.2 ++ codedBits c.1 c.2 toks

/-- A block under HUFF (R357): with AUTO the shortest, the earlier type on a tie. -/
def DefPart.bits (huff : Nat) (final : Bool) (pos : Nat) (p : DefPart) : List Bool :=
  match huff with
  | 0 => fixedBits final p.toks
  | 1 => dynamicBits final p.toks
  | _ =>
    let a := storedBits final (p.raw.length + 1) pos p.raw
    let b := fixedBits final p.toks
    let c := dynamicBits final p.toks
    if a.length ≤ b.length ∧ a.length ≤ c.length then a else if b.length ≤ c.length then b else c

/-- Blocks in order, the last of them final where `fin`. -/
def partBits (huff : Nat) (fin : Bool) : Nat → List DefPart → List Bool
  | _, [] => []
  | pos, p :: t =>
    let b := p.bits huff (fin && t.isEmpty) pos
    b ++ partBits huff fin (pos + b.length) t

/-- Bytes of bits, least significant first, the last filled up with zeros. -/
def packLsb : Nat → List Bool → List Byte
  | 0, _ => []
  | k + 1, l => if l.isEmpty then [] else BitVec.ofNat 8 (((l.take 8).zipIdx.map (fun x => 2 ^ x.2 * b2n x.1)).sum) :: packLsb k (l.drop 8)

/-- The DEFLATE blocks of a whole input (R357). -/
def deflated (level huff : Nat) (src : List Byte) : List Byte :=
  let b := partBits huff true 0 (defParts level (src.length + 1) [] src)
  packLsb (b.length + 1) b

/-- The bytes that an input fixes whatever follows it (R358): the blocks behind which a whole choice lies ahead. -/
def deflatedSoFar (level huff : Nat) (src : List Byte) : List Byte :=
  let ps := (defParts level (src.length + 1) [] src).filter (fun p => decide (matchAhead ≤ p.after))
  let b := partBits huff false 0 ps
  packLsb (b.length / 8) b

end Sys2Proof.Machine
end

