-- ==== Sys2Proof/Machine/Frames.lean ====
section
/-!
DEFINITION. Frames: binding an image at a frame start (spec/07, R135; spec/06, R125), the samples a stripe's read-back
gives (spec/06, R121; spec/08, R152; spec/10, R220, R221; spec/13, R279), and the processing boundary (spec/01, R14;
spec/07, R133, R144 to R146; spec/08, R162, R178).
-/
namespace Sys2Proof.Machine
open Sys2Proof

/-! ### Binding (R135) -/

/-- The settings the Press's first bound follows (R216). -/
def RawCfg.pressKey (r : RawCfg) : Nat × Nat × Nat × Nat := (r.fmt, r.ratio, r.eMin, r.eMax)

/-- Show the live fingerprint and COMMIT_ID of context `c`. -/
def State.showFp (s : State) (c : Nat) (id : W32) (fp : BitVec 64) : State :=
  ((s.wr (CTX_C_COMMIT_ID c) id).wn (CTX_C_FP_LO c) (fp.toNat % 0x100000000)).wn (CTX_C_FP_HI c) (fp.toNat / 0x100000000)

/-- R135: the pending image of context `c` is bound to frame `fid`. -/
def State.bindImage (s : State) (c fid : Nat) : State :=
  match (s.cx c).pending with
  | none => s
  | some i =>
    let raw := if c < 4 ∧ i.carries = false then i.raw.withMerge (s.rw_ c).live else i.raw
    let i := { i with fid := fid, raw := raw, fp := imageFp i.cfg raw i.clr i.taps }
    let s' := s.modCx c (fun q => { q with pending := none, bound := q.bound ++ [i] })
    let s' := if c < 4 then s'.modRw c (fun r => { r with
        live := raw, firstFrame := r.firstFrame || r.live.pressKey != raw.pressKey }) else s'
    (s'.showFp c i.id i.fp).commitSince s

/-- R126: the armed merge set of port `c` goes live on frame `fid`; the fingerprint of the live image follows. -/
def State.armedLive (s : State) (c : Nat) (a : RawCfg) : State :=
  let s' := s.modRw c (fun r => { r with live := r.live.withMerge a, armed := none })
  let raw := (s'.rw_ c).live
  let g := fun (i : Image) => { i with raw := raw, fp := imageFp i.cfg raw i.clr i.taps }
  let q := s'.cx c
  let s' := s'.modCx c (fun q => match q.bound.getLast? with
    | some i => { q with bound := q.bound.dropLast ++ [g i] }
    | none => { q with live := q.live.map g })
  match (match q.bound.getLast? with | some i => some (g i) | none => q.live.map g) with
  | some i => (s'.showFp c i.id i.fp).commitSince s
  | none => s'

/-! ### The samples of a stripe -/

/-- Lines of stripe `i` of a frame of `h` lines. -/
def stripeLines (h i : Nat) : Nat := min 64 (h - 64 * i)

/-- Cut a list into `n` rows of `w`. -/
def rowsOf {α : Type} (w : Nat) : Nat → List α → List (List α)
  | 0, _ => []
  | n + 1, l => l.take w :: rowsOf w n (l.drop w)

/-- What a record says of its stripe `i`. -/
def Rec.want (r : Rec) (i : Nat) : StripeWant := {
  fmtBe := r.fmt == 2, stripe := i, lines := stripeLines r.height i, width := r.width, fid := r.fid }

/-- Stripe `i` of a Press record as the decoder delivers it, and its failures (R220, R221). -/
def Rec.pressStripe (r : Rec) : Nat → List (List Nat) × List PressFail
  | 0 => pressDecode (r.want 0) [] (r.payload.getD 0 [])
  | i + 1 => pressDecode (r.want (i + 1)) ((r.pressStripe i).1.drop 62) (r.payload.getD (i + 1) [])

/-- Raw16 codes of stripe `i` of a record (R121). -/
def Rec.codes (r : Rec) (i : Nat) : List (List Nat) :=
  if r.fmt = 0 then rowsOf r.width (stripeLines r.height i) (halfWords (r.payload.getD i [])) else (r.pressStripe i).1

/-- Sensor codes of readout `o` over every stripe landed of a SENSOR record: for each line, readout 0, then 1, then 2
(R121). -/
def Rec.sensorLines (r : Rec) (o : Nat) : List (List Nat) :=
  (r.payload.zipIdx).flatMap (fun p =>
    (rowsOf (r.width * r.readouts) (stripeLines r.height p.2) (halfWords p.1)).map (fun l => (l.drop (r.width * o)).take r.width))

/-- `n` free values of `b` bits from counter `c` (log 4). -/
def freeVals (b c n : Nat) : List Nat := (List.range n).map (fun k => (Config.free (c + k)).toNat % 2 ^ b)

/-- Lines below the last complete stripe of a TRUNCATED SENSOR frame that a replay window reaches. -/
def replayTail : Nat := 24

/-- A SENSOR record as the replay path sees it with RAW state `g` (R121, R148), READOUTS being that of `g`. Free values stand for the
window's lines below the last complete stripe of a TRUNCATED frame, and for a readout the record does not hold (log 28). -/
def State.replayFrame (s : State) (r : Rec) (g : RawCfg) (i : Nat) : RawFrame × State :=
  let bits := 10 + 2 * r.sbits
  let have_ := 64 * r.payload.length
  let k := if r.payload.length = i + 1 ∧ have_ < r.height then min replayTail (r.height - have_) else 0
  let rows := min have_ r.height + k
  let line := fun (o j : Nat) => freeVals bits (s.freeCtr + (o * rows + j) * r.width) r.width
  let q : RawFrame := {
    cfg := g, width := r.width, height := r.height, sbits := bits
    lines := (List.range 3).map (fun o =>
      if o < r.readouts then r.sensorLines o ++ (List.range k).map (line o) else (List.range rows).map (line o)) }
  (q, s.drawnTo (s.freeCtr + 3 * rows * r.width))

/-- Fill the samples the source does not hold with free values (log 28). -/
def fillFree : Nat → List (Option Nat) → List Nat × Nat
  | c, [] => ([], c)
  | c, some v :: t => let r := fillFree c t; (v :: r.1, r.2)
  | c, none :: t => let r := fillFree (c + 1) t; ((Config.free c).toNat % 0x1000000 :: r.1, r.2)

def fillLines : Nat → List (Nat × List (Option Nat)) → List (Nat × List Nat) × Nat
  | c, [] => ([], c)
  | c, l :: t =>
    let a := fillFree c l.2
    let b := fillLines a.2 t
    ((l.1, a.1) :: b.1, b.2)

/-- A line cut or extended to `w` samples; those the source lacks are none. -/
def toWidth (w : Nat) (l : List Nat) : List (Option Nat) := (l.take w).map some ++ List.replicate (w - l.length) none

/-- The record that a frame's stripes are read from: its own, or the source of a playback frame (R147). -/
def State.readRec (s : State) (c : Nat) (f : ProcFrame) : Option Rec :=
  match f.src with
  | none => match s.rec? c f.fid with
    | some r => if r.gen = f.gen then some r else none
    | none => none
  | some _ => s.srcRec f

/-- The picture in pool buffer `b` of session `d`. -/
def State.poolPic (s : State) (d b : Nat) : Option DecPic :=
  let e := s.ds d
  (e.cur.toList ++ e.dpb ++ e.taken.toList).find? (fun p => p.buf == b)

/-- Lines of the band around stripe `i` of a frame of `w` × `h`: their true numbers, mirrored at the frame's edges (R152;
log 28: four lines on each side). -/
def bandYs (h i : Nat) : List Nat :=
  (List.range (stripeLines h i + 8)).map (fun (k : Nat) => RawFrame.mirror h ((64 * i + k : Nat) - 4 : Int))

/-- The mosaic lines a record's stripes give for a band, and the failures of stripe `i` (R121, R151, R220, R221). -/
def State.recBand (s : State) (r : Rec) (g : RawCfg) (w h i : Nat) : List (Nat × List (Option Nat)) × List PressFail × State :=
  if r.fmt = 3 then
    let q := s.replayFrame r g i
    let line := fun (y : Nat) =>
      if y < (q.1.lines.getD 0 []).length then toWidth w ((q.1.valueLines y 1).headD []) else List.replicate w none
    ((bandYs h i).map (fun y => (y, line y)), [], q.2)
  else
    let st := fun (j : Nat) => if j < r.payload.length then r.codes j else []
    let around := [(i - 1, if i = 0 then [] else st (i - 1)), (i, st i), (i + 1, st (i + 1))]
    let line := fun (y : Nat) =>
      match around.find? (fun a => a.1 == y / 64 && !a.2.isEmpty) with
      | some a => toWidth w ((a.2.getD (y % 64) []).map raw16Decode)
      | none => List.replicate w none
    ((bandYs h i).map (fun y => (y, line y)), if r.fmt = 0 then [] else (r.pressStripe i).2, s)

/-- The lines a decoded picture gives: luma through EXPAND (R279). -/
def State.picBand (s : State) (d b w h i : Nat) : List (Nat × List (Option Nat)) :=
  let e := s.ds d
  match s.poolPic d b with
  | none => (bandYs h i).map (fun y => (y, List.replicate w none))
  | some p =>
    let pitch := pitchOf (2 * p.width)
    let line := fun (y : Nat) =>
      if y < p.height then
        let ws := halfWords (s.memBytes (s.poolAddr b + y * pitch) (2 * p.width))
        toWidth w (ws.map (fun v => raw16Decode (e.expand.getD (v / 64) 0)))
      else List.replicate w none
    (bandYs h i).map (fun y => (y, line y))

/-! ### Press failures (R221) -/

/-- Failures of stripe `i` of the record of frame `src`, decoded for frame `fid` of context `c`, are reported. -/
def State.pressReport (s : State) (c fid src i : Nat) (fs : List PressFail) : State :=
  let s := fs.foldl (fun s e =>
    let s := s.wn VLT_PD_ERR (s.rn VLT_PD_ERR ||| 2 ^ (e.code - 1))
    let s := s.bumpStat (VLT_PD_C_ERR_CNT c)
    (s.wn (VLT_PD_C_LAST_FID c) src).wn (VLT_PD_C_LAST_INFO c) (e.code * 0x10000 + e.plane * 0x1000 + i)) s
  if fs.isEmpty ∨ s.ladle.decErr.contains (c, fid) then s
  else
    let s := s.log .vlt evPressDecErr (ctxTarget c)
    { s with ladle := { s.ladle with decErr := s.ladle.decErr.filter (fun q => q.1 != c) ++ [(c, fid)] } }

/-! ### The processing boundary -/

/-- Change frame `fid` of context `c`. -/
def State.modFrame (s : State) (c fid : Nat) (g : ProcFrame → ProcFrame) : State :=
  s.modCx c (fun q => { q with frames := q.frames.map (fun f => if f.fid == fid then g f else f) })
def State.frame? (s : State) (c fid : Nat) : Option ProcFrame := (s.cx c).frames.find? (fun f => f.fid == fid)

/-- A tap of context `c` is selected for frame `fid` (R179). -/
def State.tapSelects (s : State) (t : Nat) (g : TapCfg) (fid : Nat) : Bool :=
  decide (serialAge fid ((s.tp t).fid0 % 0x100000000) % g.decim = 0)

/-- Live enabled taps of a context. -/
def State.liveTaps (s : State) (c : Nat) : List (Nat × TapCfg) :=
  (List.range 10).filterMap (fun t => match (s.tp t).live with
    | some g => if g.enable && s.f (TAP_T_OWNER__CTX t) == c then some (t, g) else none
    | none => none)

/-- R178: a tap ends frame `fid`: its descriptor, its count, and the end of the coding engine's source. -/
def State.tapEnd (s : State) (c t fid : Nat) (partly : Bool) (fp : BitVec 64) : State :=
  match (s.tp t).frame with
  | none => s
  | some f =>
    if f.fid ≠ fid ∨ s.f (TAP_T_OWNER__CTX t) ≠ c then s
    else
      let s' := s.modTp t (fun q => { q with frame := none })
      match f.buf with
      | none => s'
      | some k =>
        let info := 0x80000000 + 0x40000000 * b2n partly + f.cfg.transfer * 0x10000000 + f.rows % 0x4000 * 0x4000
          + s'.ns / 1024 % 0x4000
        let s' := ((s'.wn (TAP_T_DESC_FID t k) fid).wn (TAP_T_DESC_INFO t k) info).setF (TAP_T_STAT__LAST t) k
        let s' := s'.bumpEvt .tap (TAP_T_FRAME_CNT t)
        s'.encLines c t fid f.rows (some (partly, fp))

/-- R146's event of a skip: TARGET, FID, cause with PARTIAL and the triggering context, triggering FID. -/
def State.skipEvent (s : State) (c fid : Nat) (k : ProcCnt) : State :=
  let s := s.log .ctx evLadleSkip (ctxTarget c) fid (k.cause + 16 * b2n k.partly + 256 * k.trigCtx) k.trigFid
  let s := s.bumpEvt .ctx (CTX_C_SKIP_CNT c)
  let s := if k.cause = 3 then s.raise (CTX_C_ERR__STALE_SRC c) else s.raise (CTX_C_ERR__SKIPPED c)
  if s.on (CTX_C_IRQ__SKIP c) then s.vector (22 + c) else s

/-- The vector of a processing boundary. -/
def State.frameDone (s : State) (c : Nat) : State := if s.on (CTX_C_IRQ__FRAME_DONE c) then s.vector (22 + c) else s

/-- Frames of sensor context `c` are still in ingest with a record. -/
def State.ingesting (s : State) (c : Nat) : Bool :=
  if c < 4 then (match (s.rw_ c).frame with | some f => f.recorded | none => false) else false

/-- R133: a DRAINING context whose last frame has passed both boundaries becomes READY. -/
def State.settleDrain (s : State) (c : Nat) : State :=
  if s.cst c = 4 ∧ (s.cx c).frames.isEmpty ∧ s.ingesting c = false then s.setCst c 1 else s

/-- The processing boundary of frame `fid` of context `c` (R14, R144 to R146, R162, R178), with a skip cause and the
trigger of an overload. -/
def State.procEnd (s : State) (c fid cause : Nat) (trig : Nat × Nat := (0xFF, 0)) : State :=
  match s.frame? c fid with
  | none => s
  | some f =>
    let s := { s with ladle := { s.ladle with
      cur := if (match s.ladle.cur with | some q => q.ctx == c && q.fid == fid | none => false) then none else s.ladle.cur } }
    let cut := f.truncated || (s.srcRec f).any (·.truncated)
    let k := { f.cnt with
      cause := cause, partly := cause != 0 && f.cnt.done != 0, trigCtx := trig.1, trigFid := trig.2, endNs := s.ns
      commitId := if f.cnt.done = 0 then 0 else f.cnt.commitId }
    let z : Option ZoneBlk := if f.cnt.done = 0 then none else some { f.zone with
      fid := fid, commitId := k.commitId, valid := true, partly := k.partly, truncated := cut
      stripes := f.cnt.done, ns := s.ns }
    let s := match z with
      | some b =>
        let s := (s.modCx c (fun q => { q with zone := b })).wn (CLR_C_ZS_FID c) fid
        if b.ovf then s.raise (CLR_C_ERR__ZS_OVF c) else s
      | none => s
    let s := if f.src.isSome then s.closeRec c fid f.fp id else s
    let s := s.recProcessed c fid f.gen k z f.fp
    let fp := s.devFp
    let s := (List.range 10).foldl (fun s t => s.tapEnd c t fid (k.partly || (cut && decide (f.cnt.done < f.n))) fp) s
    let s := if f.started = 0 then
        (s.liveTaps c).foldl (fun s q =>
          if 4 ≤ q.1 ∧ q.1 < 8 ∧ s.tapSelects q.1 q.2 fid then s.encMiss c q.1 else s) s
      else s
    let s := if cause = 0 then s.bumpEvt .ctx (CTX_C_PROC_CNT c) else s.skipEvent c fid k
    let s := s.frameDone c
    let s := s.modCx c (fun q => { q with
      frames := q.frames.filter (fun g => g.fid != fid), stopAt := if q.stopAt = some fid then none else q.stopAt })
    let s := match f.src with
      | some (.decoder _) => s.ladleMarks (c - 4)
      | _ => s
    s.settleDrain c

/-- Frames whose processing boundary falls because no stripe of theirs is left to process: stopped frames that have passed
their ingest boundary (R133), and TRUNCATED frames with nothing more complete (R145). -/
def State.settleFrames (s : State) (c : Nat) : State :=
  (s.cx c).frames.foldl (fun s f =>
    let l := s.landedOf f
    let busy := match s.ladle.cur with | some q => q.ctx == c && q.fid == f.fid | none => false
    if f.procStop then (if (s.cx c).stopAt.isNone ∧ (f.src.isSome ∨ f.closed) then s.procEnd c f.fid 2 else s)
    else if l.2 ∧ busy = false ∧ s.completeOf f = f.started then
      s.procEnd c f.fid (if f.started = 0 then 4 else 0)
    else s) s

/-- The processing boundary of a frame; when a PROC_ONLY stop waited for it, processing stops now (R133). -/
def State.procBoundary (s : State) (c fid cause : Nat) (trig : Nat × Nat := (0xFF, 0)) : State :=
  let stops := decide ((s.cx c).stopAt = some fid)
  let s := s.procEnd c fid cause trig
  if stops then s.settleFrames c else s

/-- A source frame of sensor context `c` has been placed: playback frames that wait for it take its GEN (R147). -/
def State.noteSource (s : State) (c fid gen : Nat) : State :=
  [4, 5].foldl (fun s d => s.modCx d (fun q => { q with frames := q.frames.map (fun f =>
    if f.src = some (.ring c fid none) then { f with src := some (.ring c fid (some gen)) } else f) })) s

end Sys2Proof.Machine
end

