-- ==== Sys2Proof/Machine/Ladle.lean ====
section
/-!
DEFINITION. The Ladle: stripe starts and ends, triggers, skips, playback, and the opcodes that start and stop contexts
(spec/07_contexts_ladle.md, R132, R133, R135, R137 to R150; spec/08, R151, R161, R164, R177 to R180).
-/
namespace Sys2Proof.Machine
open Sys2Proof

/-! ### An image goes live for processing (R135) -/

/-- A tap is enabled, or its DECIM changes, from settings `o` to `g` (R179). -/
def tapFresh (o : Option TapCfg) (g : TapCfg) : Bool :=
  match o with
  | some o => g.enable && (!o.enable || o.decim != g.decim)
  | none => g.enable

/-- FID₀ of engine `t` after the images of `due` in turn (R179). -/
def TapSt.fidAfter (q : TapSt) (t : Nat) (due : List Image) : Nat :=
  (due.foldl (fun (x : Option TapCfg × Nat) j =>
    match j.taps.find? (fun g => g.engine == t) with
    | some g => (some g, if tapFresh x.1 g then j.fid else x.2)
    | none => x) (q.live, q.fid0)).2

/-- The engine takes settings `g` (R180): the bank that `g` captured goes live, and where it is still the shadow bank the former live bank
takes its place (log 97). -/
def TapSt.goLive (q : TapSt) (g : TapCfg) : TapSt :=
  let q := if q.shaper = g.shaper ∧ q.lut3 = g.lut3 ∧ q.outLut = g.outLut then { q with
      shaper := q.live.bind (·.shaper), lut3 := q.live.bind (·.lut3), outLut := q.live.bind (·.outLut) }
    else q
  { q with live := some g }

/-- The engines that context `c` owns take their settings of the last of the images `due`, bound in this order (R164, R179, R180). -/
def State.tapsLive (s : State) (c : Nat) (due : List Image) (i : Image) : State :=
  i.taps.foldl (fun s g =>
    let t := g.engine
    if s.f (TAP_T_OWNER__CTX t) ≠ c then s
    else (s.modTp t (fun q => { q.goLive g with fid0 := q.fidAfter t due })).setB (TAP_T_OWNER__EN_LIVE t) g.enable) s

/-- An engine whose tap the live image disables becomes free when no image to come enables it (R164). -/
def State.freeTaps (s : State) (c : Nat) (i : Image) : State :=
  let q := s.cx c
  i.taps.foldl (fun s g =>
    let t := g.engine
    if g.enable ∨ s.f (TAP_T_OWNER__CTX t) ≠ c
      ∨ ((q.bound ++ q.pending.toList).any (fun j => j.taps.any (fun h => h.engine == t && h.enable))) = true then s
    else ((s.setF (TAP_T_OWNER__CTX t) 7).modTp t (fun q => { q with live := none, enable := false }))) s

/-- R135, R136: the images bound up to frame `fid` go live for processing, the latest last. -/
def State.promote (s : State) (c fid : Nat) : State :=
  let due := (s.cx c).bound.filter (fun i => !serialLt fid i.fid)
  match due.getLast? with
  | none => s
  | some i =>
    let s := s.tapsLive c due i
    let s := s.modCx c (fun q => { q with live := some i, bound := q.bound.filter (fun j => serialLt fid j.fid) })
    s.freeTaps c i

/-! ### A tap begins a frame (R177, R179) -/

/-- A tap writes nothing for a frame: counted, and the coding engine's slot is missed. -/
def State.tapDrop (s : State) (c t : Nat) (held : Bool) : State :=
  let s := s.bumpEvt .tap (TAP_T_DROP_CNT t)
  let s := if held then s.raise (TAP_T_STAT__DROPPED t) else s
  if 4 ≤ t ∧ t < 8 then s.encMiss c t else s

/-- Created streams that code tap `t` of context `c`, all at D3 (spec/12, R263). -/
def State.tapAllD3 (s : State) (c t : Nat) : Bool :=
  let l := (List.range 16).filter (fun i => s.encState i != 0 && (s.es i).ctx == c && (s.es i).tap + 4 == t)
  decide (4 ≤ t) && decide (t < 8) && !l.isEmpty && l.all (fun i => s.f (CDC_S_STATE__DEG i) == 3)

/-- The ladder drops this frame of vision tap `t` (spec/20, R392): every second frame from step 1, every frame from step
3. -/
def State.visionTurn (s : State) (t : Nat) : Bool × State :=
  let l := s.f PWR_STAT__DEG_LEVEL
  if t < 8 ∨ l = 0 then (false, s)
  else
    let n := s.pwr.tapTurn.getD (t - 8) 0
    (decide (3 ≤ l) || n % 2 == 1, s.modPwr (fun p => { p with tapTurn := p.tapTurn.set (t - 8) (n + 1) }))

/-- A live tap begins a selected frame: it takes the first buffer after the last written one that is not held. -/
def State.tapBegin (s : State) (c : Nat) (f : ProcFrame) (id : Nat) (t : Nat) (g : TapCfg) : State :=
  if s.tapSelects t g f.fid = false then s
  else
    let v := s.visionTurn t
    let s := v.2
    if v.1 ∨ s.tapAllD3 c t = true then s.tapDrop c t false
    else
      let first := match (s.tp t).last with
        | some k => k + 1
        | none => 0
      let order := (List.range g.nbuf).map (fun j => (first + j) % g.nbuf)
      let held := fun (k : Nat) => s.bit (TAP_T_HOLD__HOLD t) k || s.encHolds t k || s.cmpHolds t k
      match order.find? (fun k => !held k) with
      | none => s.tapDrop c t true
      | some k =>
        let s := s.setB (TAP_T_DESC_INFO__READY t k) false
        let s := s.modTp t (fun q => { q with
          frame := some { fid := f.fid, buf := some k, cfg := g }, last := some k
          made := (k, g) :: q.made.filter (fun m => m.1 != k) })
        let s := s.raceHold c t k
        if 4 ≤ t ∧ t < 8 then
          s.encSlot c t {
            fid := f.fid, buf := k, tag := f.tag, epoch := f.epoch, ns := f.ns, commitId := id
            addr := g.base + k * g.stride, matrix := g.matrix, range := g.range, transfer := g.transfer }
        else s

/-! ### Stripe start (R140) -/

/-- Context `d` goes before context `c`: earlier deadline, then lower PRIO, then lower index. -/
def State.ladleBefore (s : State) (d c : Nat) : Bool :=
  match s.head d, s.head c with
  | some (f, i), some (g, j) =>
    let a := f.deadline i
    let b := g.deadline j
    serialLt a b || (a == b && (decide (s.prio d < s.prio c) || (s.prio d == s.prio c && decide (d < c))))
  | _, _ => false

/-- The context whose head the Ladle starts next. -/
def State.ladlePick (s : State) : Option Nat :=
  ((List.range 6).filter s.headReady).foldl (fun (b : Option Nat) c =>
    match b with
    | some d => if s.ladleBefore c d then some c else b
    | none => some c) none

/-- The first stripe of a frame starts: images go live, counters and taps begin. -/
def State.frameBegin (s : State) (c : Nat) (f : ProcFrame) : State :=
  let s := s.promote c f.fid
  let id := match (s.cx c).live with
    | some i => i.id.toNat
    | none => 0
  let s := s.modFrame c f.fid (fun g => { g with cnt := { g.cnt with startNs := s.ns, commitId := id } })
  (s.liveTaps c).foldl (fun s q => s.tapBegin c f id q.1 q.2) s

/-- The mosaic lines of a stripe with its halo, and the Press failures of that stripe with the record decoded. -/
def State.bandOf (s : State) (c : Nat) (f : ProcFrame) (g : CtxCfg) (i : Nat) :
    List (Nat × List (Option Nat)) × Option (Rec × List PressFail) × State :=
  match f.src with
  | some (.decoder (some b)) => (s.picBand (c - 4) b g.width g.height i, none, s)
  | _ =>
    match s.readRec c f with
    | none => ([], none, s)
    | some r =>
      let q := s.recBand r (if c < 4 then (s.rw_ c).live else f.srcRaw) g.width g.height i
      (q.1, if r.fmt = 1 ∨ r.fmt = 2 then some (r, q.2.1) else none, q.2.2)

/-- Landing time L of stripe `i`; for playback the term of R147 without the budget. -/
def ProcFrame.landing (f : ProcFrame) (i : Nat) : Nat :=
  match f.src with
  | none => f.landed.getD i 0
  | some _ => (f.startNs + (i + 1) * f.frameNs / f.n) % 0x100000000

/-- Stripe `i` of frame `f` enters the pipeline. -/
def State.stripeIn (s : State) (c : Nat) (f : ProcFrame) (i : Nat) : State :=
  let s := if s.ladle.lastCtx.any (· != c) then s.bumpEvt .ctx CTX_SWITCH_CNT else s
  let s := if i = 0 then s.frameBegin c f else s
  match (s.cx c).live with
  | none => s
  | some img =>
    let q := s.bandOf c f img.cfg i
    let s := q.2.2
    let l := fillLines s.freeCtr q.1
    let s := s.drawnTo l.2
    let cfa := if c < 4 then (img.raw.cfa, img.raw.phase) else (f.srcRaw.cfa, f.srcRaw.phase)
    let s := match q.2.1 with
      | some (r, fs) =>
        let s := s.bumpEvt .vlt VLT_PD_STRIPE_CNT
        let s := s.wn VLT_PD_STAT (i * 0x10000 + c * 0x10 + 1)
        s.pressReport c f.fid r.fid i (fs.filter (fun e => e.code != 7))
      | none => s
    let dcrc := match q.2.1 with
      | some (r, fs) => if fs.any (fun e => e.code == 7) then some r.fid else none
      | none => none
    let s := s.modFrame c f.fid (fun g => { g with started := i + 1, triggered := false })
    let s := (s.setB CTX_LADLE_STAT__BUSY true).setF CTX_LADLE_STAT__CUR c
    { s with ladle := { s.ladle with
      lastCtx := some c
      cur := some { ctx := c, fid := f.fid, stripe := i, y0 := 64 * i, n := stripeLines img.cfg.height i, lines := l.1
                    landing := f.landing i, deadline := f.deadline i
                    image := img, cfa := cfa.1, phase := cfa.2, dcrc := dcrc } } }

/-- STRIPE_START (R137 to R140, R145, R151, R152, R220): the ready head with the earliest deadline starts; one whose record
has been reclaimed is abandoned at once, with no switch. In the safe state nothing starts (R418). -/
def execStripeStart (s : State) : Res :=
  if s.ladle.cur.isSome ∨ s.dev.safe = true then .next s
  else
    match s.ladlePick with
    | none => .next s
    | some c =>
      match s.head c with
      | none => .next s
      | some (f, i) =>
        let s := s.vaultUse
        let gone := match f.src with
          | some (.decoder _) => false
          | _ => (s.readRec c f).isNone
        if gone then .next (s.procBoundary c f.fid 3) else .next (s.stripeIn c f i)

/-! ### Stripe end -/

/-- The stripe's band. -/
def CurStripe.band (q : CurStripe) : Band := {
  w := q.image.cfg.width, h := q.image.cfg.height, cfa := q.cfa, phase := q.phase, y0 := q.y0, lines := q.lines
  clr := q.image.clr }

/-- Output lines of a tap that `k` crop lines complete, from row `r` on (R166). -/
def tapRowsDone (g : TapCfg) (k : Nat) : Nat → Nat → Nat
  | 0, r => r
  | n + 1, r => if r < g.oh ∧ scaleNeeds g.ch g.oh r < k then tapRowsDone g k n (r + 1) else r

/-- Write the plane lines that rows `a` to `b` − 1 complete. -/
def State.tapWrite (s : State) (g : TapCfg) (clr : ClrCfg) (base : Nat) (out : List (List Rgb)) (a b : Nat) : State :=
  ((planeOffsets g).zipIdx).foldl (fun s o =>
    let p := o.2
    let pitch := pitchOf ((planeBytes g).getD p 0)
    let r0 := planeRows g p a
    (List.range (planeRows g p b - r0)).foldl (fun s j =>
      s.writeMem (base + o.1 + (r0 + j) * pitch) (planeLine g clr out p (r0 + j))) s) s

/-- A finished stripe passes tap `t`: crop, scale, transform, write (spec/08, R165 to R176). -/
def State.tapStripe (s : State) (q : CurStripe) (t : Nat) : State :=
  match (s.tp t).frame with
  | none => s
  | some f =>
    if f.fid ≠ q.fid ∨ s.f (TAP_T_OWNER__CTX t) ≠ q.ctx then s
    else
      let g := f.cfg
      let b := q.band
      let ys := (List.range q.n).map (q.y0 + ·) |>.filter (fun y => decide (g.y0 ≤ y) && decide (y < g.y0 + g.ch))
      let new := ys.map (fun y => scaleLine g.hScale g.cw g.ow (((b.pixelLine y).drop g.x0).take g.cw))
      let lines := f.lines ++ new
      let rows := tapRowsDone g lines.length g.oh f.rows
      let out := (List.range rows).map (fun j => scaleRow g.vScale g.ch g.oh g.ow j lines)
      let s := match f.buf with
        | some k => s.tapWrite g q.image.clr (g.base + k * g.stride) out f.rows rows
        | none => s
      let s := s.modTp t (fun x => { x with frame := some { f with lines := lines, rows := rows } })
      s.encLines q.ctx t q.fid rows none

/-- A stripe of context `c` ends `ovr` ns late, the frame's first or a later one (R143). -/
def State.stripeLate (s : State) (c ovr : Nat) (first : Bool) : State :=
  let s := ((s.raise (CTX_C_ERR__LATE c)).bumpStat (CTX_C_LATE_CNT c)).highWater (CTX_C_MAX_LATE c) ovr
  if first then
    let s := s.log .ctx evLadleLate (ctxTarget c)
    if s.on (CTX_C_IRQ__LATE c) then s.vector (22 + c) else s
  else s

/-- One more stripe done, `ovr` ns past its deadline where `late`, `lat` ns after it landed (Table 7-4). -/
def ProcCnt.stripe (k : ProcCnt) (late : Bool) (ovr lat : Nat) : ProcCnt :=
  { k with
    done := k.done + 1, late := k.late + b2n late, maxLat := max k.maxLat lat
    maxLate := if late then max k.maxLate ovr else k.maxLate }

/-- The stripe in the pipeline leaves it: counted, its zones summed, written by the taps; the pipeline is free. -/
def State.stripeOut (s : State) (q : CurStripe) (f : ProcFrame) : State :=
  let late := serialLt q.deadline s.ns
  let ovr := serialAge s.ns q.deadline
  let k := f.cnt.stripe late ovr (serialAge s.ns q.landing)
  let s := s.modFrame q.ctx q.fid (fun g => { g with cnt := k, zone := g.zone.addLines q.band q.y0 q.n })
  let s := if late then s.stripeLate q.ctx ovr (f.cnt.late == 0) else s
  let s := (List.range 10).foldl (fun s t => s.tapStripe q t) s
  let s := match q.dcrc with
    | some src => s.pressReport q.ctx q.fid src q.stripe [⟨7, 0⟩]
    | none => s
  let s := ((s.setB CTX_LADLE_STAT__BUSY false).setF CTX_LADLE_STAT__CUR 7).wn VLT_PD_STAT 0x70
  { s with ladle := { s.ladle with cur := none } }

/-- After stripe `i` of a frame: past the last one the frame's processing ends (R137). -/
def State.lastStripe (s : State) (c fid i : Nat) : State :=
  match s.frame? c fid with
  | none => s
  | some f =>
    if i + 1 = s.completeOf f ∧ ((s.landedOf f).2 ∨ i + 1 = f.n) then s.procBoundary c fid 0 else s

/-- STRIPE_DONE (R143, R145, R146, R161, R162): the stripe in the pipeline is processed. -/
def execStripeDone (s : State) : Res :=
  match s.ladle.cur with
  | none => .next s
  | some q =>
    match s.frame? q.ctx q.fid with
    | none => .next s
    | some f => .next ((s.stripeOut q f).lastStripe q.ctx q.fid q.stripe)

/-- READBACK_STALE (R145, R194): the read-back of the stripe in the pipeline completes STALE, or that of the head does. -/
def execReadbackStale (ctx : Fin 6) (s : State) : Res :=
  let c := ctx.val
  match (match s.ladle.cur with | some q => if q.ctx = c then some q.fid else none | none => none) with
  | none => .next s
  | some fid =>
    match s.frame? c fid with
    | none => .next s
    | some f =>
      let gone := match f.src with
        | some (.decoder _) => false
        | _ => (s.readRec c f).isNone
      if gone then
        let s := (s.setB CTX_LADLE_STAT__BUSY false).setF CTX_LADLE_STAT__CUR 7
        .next ((s.wn VLT_PD_STAT 0x70).procBoundary c fid 3)
      else .next s

/-! ### Triggers (R143, R144) -/

/-- The playback source of context `c` gives a frame at its next pace tick. -/
def PlaySource.more (q : PlaySource) : Bool := q.count == 0 || q.loop || decide (q.next < q.count)
def State.sourceMore (s : State) (c : Nat) : Bool :=
  match (s.cx c).nextSource with
  | some _ => true
  | none => match (s.cx c).source with
    | some q => q.more
    | none => false

/-- The skippable frame of a context (R144): its oldest frame with no started stripe; a sensor context's has landed a
stripe; for playback it may be the frame of the next pace tick (none). -/
def State.skippable (s : State) (c : Nat) : Option (Option Nat) :=
  match (s.cx c).frames.find? (fun f => f.started == 0 && !f.procStop && (decide (4 ≤ c) || !f.landed.isEmpty)) with
  | some f => some (some f.fid)
  | none => if 4 ≤ c ∧ (s.cx c).skipNext.isNone ∧ s.sourceMore c = true then some none else none

/-- The victim of R144. -/
def State.victim (s : State) : Option Nat :=
  ((List.range 6).filter (fun c => !s.essential c && s.cst c == 2 && (s.skippable c).isSome)).foldl (fun (b : Option Nat) c =>
    match b with
    | some d => if s.prio d ≤ s.prio c then some c else b
    | none => some c) none

/-- LADLE_TRIGGER (R143, R144, R146): the ready head of a context has not started by its trigger time. -/
def execLadleTrigger (ctx : Fin 6) (s : State) : Res :=
  let c := ctx.val
  match s.head c with
  | none => .next s
  | some (f, _) =>
    if s.headReady c = false ∨ f.triggered = true then .next s
    else
      let s := s.modFrame c f.fid (fun g => { g with triggered := true })
      let s := { s with ladle := { s.ladle with triggers := s.ladle.triggers + 1 } }
      match s.victim with
      | none =>
        .next ((s.raise (CTX_C_ERR__NO_VICTIM c)).modFrame c f.fid (fun g => { g with cnt := { g.cnt with noVictim := true } }))
      | some v =>
        match s.skippable v with
        | some (some fid) => .next (s.procBoundary v fid 1 (c, f.fid))
        | some none =>
          let k : ProcCnt := { cause := 1, trigCtx := c, trigFid := f.fid, endNs := s.ns }
          let s := s.modCx v (fun q => { q with skipNext := some k })
          .next ((s.skipEvent v (s.nextFid v) k).frameDone v)
        | none => .next s

/-! ### Playback (R147, R148) -/

/-- The source of a playback frame of index `f` (R147): FIRST_FID + f, wrapping at COUNT with LOOP. -/
def PlaySource.fid (q : PlaySource) : Nat :=
  (q.firstFid + (if q.count ≠ 0 ∧ q.loop = true then q.next % q.count else q.next)) % 0x100000000

/-- A playback frame starts at a pace tick: the pending image is bound, the frame is placed, and its source is taken. -/
def State.playFrame (s : State) (c : Nat) (q : PlaySource) : State :=
  let d := c - 4
  let fidNew := s.nextFid c
  -- The picture is looked for first: with none at all, no frame starts.
  if q.decoder ∧ (s.takePic d fidNew).1.isNone = true then s
  else
    let img := match (s.cx c).pending with
      | some i => some i
      | none => s.liveImage c
    match img with
    | none => s
    | some img =>
      let i : FrameInfo := {
        ctx := c, maxRec := 24, epoch := s.rn TIM_NOW_EPOCH, ns := s.ns, width := img.cfg.width, height := img.cfg.height
        readouts := 0, sbits := 0, fmt := 0, emb := 0, commitId := img.id.toNat, playback := true }
      let s := s.modCx c (fun x => { x with source := some { q with next := q.next + 1 } })
      match s.place i with
      | (none, s) => s.modCx c (fun x => { x with skipNext := none })
      | (some fid, s) =>
        let s := s.bindImage c fid
        let pic := if q.decoder then s.takePic d fid else (none, s)
        let s := pic.2
        let src : PlaySrc := match pic.1 with
          | some p => .decoder (some p.buf)
          | none => .ring q.ctx q.fid (match s.rec? q.ctx q.fid with
            | some r => some r.gen
            | none => if serialLt (s.rn (VLT_C_NEWEST_FID q.ctx)) q.fid then none else some 0)
        let n := ceilDiv img.cfg.height 64
        let whole := match pic.1 with
          | some p => (match (s.ds d).cur with | some x => x.buf != p.buf | none => true)
          | none => false
        let got := match pic.1 with
          | some p => if whole then n else min n (p.lines / 64)
          | none => 0
        let stopped := s.cst c == 3
        let f : ProcFrame := {
          fid := fid, gen := (match s.rec? c fid with | some r => r.gen | none => 0), width := img.cfg.width
          height := img.cfg.height, landed := List.replicate got s.ns, closed := whole, epoch := s.rn TIM_NOW_EPOCH, ns := s.ns
          budgetUs := img.cfg.budgetUs, frameNs := img.cfg.frameNs, startNs := s.ns, src := some src
          srcRaw := (s.rw_ img.cfg.rawSrc).live, fp := s.ctxFp c, procStop := stopped }
        let s := s.modCx c (fun x => { x with
          frames := x.frames ++ [f], firstFid := if x.firstFid.isNone then some fid else x.firstFid })
        match (s.cx c).skipNext with
        | some k =>
          let s := s.closeRec c fid f.fp id
          let s := s.recProcessed c fid f.gen k none 0
          let s := (s.liveTaps c).foldl (fun s t =>
            if 4 ≤ t.1 ∧ t.1 < 8 ∧ s.tapSelects t.1 t.2 fid then s.encMiss c t.1 else s) s
          let s := s.modCx c (fun x => { x with frames := x.frames.filter (fun g => g.fid != fid), skipNext := none })
          if q.decoder then s.ladleMarks d else s
        | none => s.settleFrames c

/-- A pace tick at playback context `c` (R147): a new source takes effect; the next frame starts while capture runs. -/
def State.paceTick (s : State) (c : Nat) : State :=
  if s.cst c ≠ 2 ∧ s.cst c ≠ 3 then s
  else
    let s := match (s.cx c).nextSource with
      | some q => s.modCx c (fun x => { x with source := some q, nextSource := none })
      | none => s
    match (s.cx c).source with
    | some q => if q.more then s.playFrame c q else s
    | none => s

/-- The pace of a context's next tick: that of its source, which one to come replaces at that tick. -/
def State.paceOf (s : State) (c : Nat) : Option Nat :=
  match (s.cx c).source, (s.cx c).nextSource with
  | some q, _ => some q.pace
  | none, some q => some q.pace
  | none, none => none

/-- PACE_TICK (R147): a free-running pace tick of PC0 or PC1. -/
def execPaceTick (pc : Fin 2) (s : State) : Res :=
  let c := 4 + pc.val
  .next (if s.paceOf c = some 0 then s.paceTick c else s)

/-- A tick of cadence generator `g` paces playback (R147). -/
def State.fcgPace (s : State) (g : Nat) : State :=
  [4, 5].foldl (fun s c => if s.paceOf c = some (g + 1) then s.paceTick c else s) s

/-- CTX_PLAYBACK_SOURCE (R147, R148, R150). On a running context the source waits for the next pace tick; RAW_SRC is written to the
shadow set (R149). -/
def execCtxPlaybackSource (p : Pkt) (s : State) : Res :=
  .next (runOp 0x0305 p s (fun s =>
    let c := p.idx
    let kind := p.b 0 0 2
    let src := p.b 0 4 3
    if 1 < kind ∨ 3 < src ∨ 4 < p.b 0 16 3 then (s, some (badWord 0))
    else if kind = 0 ∧ (s.rec? src (p.w 1)).isNone then (s, some (refuse stState 0x8007))
    else
      let q : PlaySource := {
        decoder := kind == 1, ctx := src, loop := p.t 0 12, pace := p.b 0 16 3, firstFid := p.w 1
        count := p.w 2 }
      let g := match s.liveImage c, (s.cx c).pending with
        | _, some i => i.cfg
        | some i, none => i.cfg
        | none, none => s.shadowCtx c
      let raw := p.b 0 8 2
      if s.sensorSource (some q) ∧ s.r112 raw (s.rw_ raw).live (some (c, g)) = false then (s, some (refuse stBandwidth 0x8009))
      else if s.cst c = 2 ∨ s.cst c = 3 then (s.modCx c (fun x => { x with nextSource := some q, rawSrc := raw }), some ok)
      else (s.modCx c (fun x => { x with source := some q, nextSource := none, rawSrc := raw }), some ok)))

/-! ### Start and stop (R132, R133) -/

/-- CTX_START (R132, R133, R150). -/
def execCtxStart (p : Pkt) (s : State) : Res :=
  .next (runOp 0x0302 p s (fun s =>
    let c := p.idx
    let t := s.cst c
    if t = 0 then (s, some (refuse stState 0x8004))
    else if 4 ≤ c ∧ (s.cx c).source.isNone ∧ (s.cx c).nextSource.isNone then (s, some (refuse stState 0x8007))
    else if t = 2 then (s, some (ok [2]))
    else if s.bist 1 then (s, some (refuse stState 0x8002))
    else
      let s := s.vaultUse
      let s := s.modCx c (fun q => { q with firstFid := none })
      let s := if c < 4 then s.modRw c (fun r => { r with latch := {}, firstFrame := true }) else s
      let s := if t = 1 then s.modCx c (fun q => { q with source := q.source.map (fun x => { x with next := 0 }) }) else s
      (s.setCst c 2, some (ok [2]))))

/-- Both stop forms discard an armed merge set (R126). -/
def State.disarm (s : State) (c : Nat) : State := if c < 4 then s.modRw c (fun r => { r with armed := none }) else s

/-- CTX_STOP (R126, R133, R150). -/
def execCtxStop (p : Pkt) (s : State) : Res :=
  .next (runOp 0x0303 p s (fun s =>
    let c := p.idx
    let t := s.cst c
    let procOnly := p.t 0 0
    if t ≠ 2 ∧ (t ≠ 3 ∨ procOnly = true) then (s, some (ok [t]))
    else
      let s := (s.disarm c).modCx c (fun q => { q with skipNext := none })
      if procOnly then
        let going := (s.cx c).frames.find? (fun f => f.started != 0)
        let s := s.modCx c (fun q => { q with
          stopAt := going.map (·.fid), frames := q.frames.map (fun f => if f.started = 0 then { f with procStop := true } else f) })
        let s := (s.setCst c 3).settleFrames c
        (s, some (ok [3]))
      else
        let idle := (s.cx c).frames.isEmpty && !s.ingesting c
        let s := s.setCst c (if idle then 1 else 4)
        (s, some (ok [s.cst c]))))

/-- TAP_HOLD_SET (R177): the host holds buffers of tap `t`. -/
def execTapHoldSet (tap : Fin 10) (v : W32) (s : State) : Res :=
  let t := tap.val
  .next (if s.shut 0 then s else if s.f (TAP_T_OWNER__CTX t) = 7 then s.raise (TAP_T_STAT__CFG_ERR t)
    else s.setF (TAP_T_HOLD__HOLD t) (s.f (TAP_T_HOLD__HOLD t) ||| v.toNat % 256))

end Sys2Proof.Machine
end

