-- ==== Sys2Proof/Machine/Raw.lean ====
section
/-!
DEFINITION. Ingest: the packets of a port's word stream as accepted, lines, stripes, and the ingest boundary
(spec/05_sensor_links.md, R93 to R101; spec/06, R111, R121 to R128; spec/09, R186 to R191; spec/10, R215 to R217).
-/
namespace Sys2Proof.Machine
open Sys2Proof

/-! ### Link faults (R99) -/

/-- A fault at port `p`: its ERR bit `b`, and an event on the first occurrence of outcome `o` in the frame. -/
def State.lnkFault (s : State) (p b o : Nat) : State :=
  let s := s.wn (LNK_P_ERR p) (s.rn (LNK_P_ERR p) ||| 2 ^ b)
  if (s.pt p).logged.contains o then s
  else (s.log .lnk evLnkFault (0x1000 + p) b).modPt p (fun q => { q with logged := o :: q.logged })

/-! ERR bits of LNK_Pp_ERR. -/
def lfHcrc : Nat := 0
def lfPcrc : Nat := 1
def lfLwCrc : Nat := 2
def lfType : Nat := 3
def lfLen : Nat := 4
def lfSeq : Nat := 5
def lfLaneDown : Nat := 6
def lfSkew : Nat := 7
def lfGap : Nat := 8
def lfMissing : Nat := 9
def lfTimeout : Nat := 10

/-! Outcomes that are logged once each in a frame: the rows of Table 5-2 in order, then those of R95 and R97. -/
def loHcrc : Nat := 0
def loLwCrc : Nat := 1
def loPcrc : Nat := 2
def loExcess : Nat := 3
def loShortLine : Nat := 4
def loSkipAhead : Nat := 5
def loBadLine : Nat := 6
def loOutside : Nat := 7
def loCount : Nat := 8
def loGap : Nat := 9
def loMissing : Nat := 10
def loTimeout : Nat := 11
def loLock : Nat := 12
def loType : Nat := 13
def loLength : Nat := 14
def loVc : Nat := 15

/-- A port delivers packets: it runs, is LOCKED, and does not wait for a link word (R99). In the safe state capture has
stopped (R418). -/
def State.portOn (s : State) (p : Nat) : Bool :=
  s.on (LNK_P_CFG__EN p) && s.on (LNK_P_STAT__LOCKED p) && !s.on (LNK_P_STAT__RESYNC p) && !s.dev.safe

/-- PCRC of a payload: bytes in transmission order, bits [31:24] first (R94). -/
def payloadCrc (ws : List W32) : Nat := crc32 (ws.flatMap (fun w => (leBytes 4 w.toNat).reverse))

/-- CRC-16 over bits [31:16] of a word (R92, R93). -/
def wordCrc (w : W32) : Nat := crc16 [BitVec.ofNat 8 (w.toNat / 0x1000000), BitVec.ofNat 8 (w.toNat / 0x10000)]

/-- A link word or a header passes its CRC. -/
def wordOk (w : W32) : Bool := wordCrc w == w.toNat % 0x10000

/-! Fields of a header word (R93). -/
def hdrType (w : W32) : Nat := bitsAt w.toNat 28 4
def hdrVc (w : W32) : Nat := bitsAt w.toNat 26 2
def hdrLength (w : W32) : Nat := bitsAt w.toNat 16 10

/-- Words that follow a header: LENGTH payload words and a PCRC word, or none (R94). -/
def hdrTail (w : W32) : Nat := if hdrLength w = 0 then 0 else hdrLength w + 1

/-- The packet at the front of port `p`'s words, when its header passes its CRC and all of it has arrived: header and words after it. -/
def State.packetAt (s : State) (p : Nat) : Option (W32 × List W32) :=
  match (s.pt p).stream with
  | [] => none
  | w :: t => if wordOk w ∧ hdrTail w ≤ t.length then some (w, t.take (hdrTail w)) else none

/-- The packet at the front is taken out of the words. -/
def State.packetOff (s : State) (p : Nat) (w : W32) : State :=
  s.modPt p (fun q => { q with stream := q.stream.drop (1 + hdrTail w) })

/-- A packet as accepted: VC, payload, and whether its PCRC holds (R94). -/
structure Packet where
  vc : Nat
  words : List W32
  good : Bool
deriving DecidableEq, Repr

/-- What the header checks leave of packet `w` with the words after it: discarded (R95, R97), or accepted with its PCRC verdict (R94). -/
def State.packetJudge (s : State) (p : Nat) (len : Option Nat) (w : W32) (t : List W32) : Option Packet × State :=
  let ws := t.take (hdrLength w)
  if s.bit (LNK_P_CFG__VC_EN p) (hdrVc w) = false then (none, s.lnkFault p lfType loVc)
  else if (match len with | some n => hdrLength w != n | none => hdrLength w == 0) = true then (none, s.lnkFault p lfLen loLength)
  else if !ws.isEmpty && payloadCrc ws != (t.getD (hdrLength w) 0).toNat then
    (some ⟨hdrVc w, ws, false⟩, (s.lnkFault p lfPcrc loPcrc).bumpStat (LNK_P_PCRC_CNT p))
  else (some ⟨hdrVc w, ws, true⟩, s)

/-- The packet at the front of port `p`'s words is taken if its TYPE is `ty` (R92 to R95); `len` is the LENGTH Table 5-1 fixes. Words
after a loss of LOCKED inside a frame are discarded up to the first FRAME_START, TYPE 1 (R99). -/
def State.packetIn (s : State) (p ty : Nat) (len : Option Nat) : Option Packet × State :=
  match s.packetAt p with
  | none => (none, s)
  | some (w, t) =>
    if s.portOn p = false ∨ hdrType w ≠ ty then (none, s)
    else if (s.pt p).relock ∧ ty ≠ 1 then (none, s.packetOff p w)
    else (s.packetOff p w).packetJudge p len w t

/-! ### Lines -/

def State.modIngest (s : State) (p : Nat) (g : Ingest → Ingest) : State := s.modRw p (fun r => { r with frame := r.frame.map g })

/-- Words that a line needs (R96). -/
def Ingest.lineWords (f : Ingest) : Nat := ceilDiv (f.width * f.sbits) 32

/-- The samples that words hold, most significant bit first (R96). -/
def unpackSamples (b : Nat) (ws : List W32) : List Nat :=
  let bits := ws.flatMap (fun w => msbBits 32 w.toNat)
  (rowsOf b (bits.length / b) bits).map ofMsb

/-- R100: a line completed from the samples received and, where they lack, line y − 2 of the readout or code 0. -/
def fillLine (w : Nat) (above got : List Nat) : List Nat :=
  (List.range w).map (fun i => (got[i]?).getD (above.getD i 0))

/-- Line `y` of readout `r` is completed; damaged lines are noted and counted once (R100). -/
def State.lineDone (s : State) (p r : Nat) (got : List Nat) (damaged received : Bool) : State :=
  match (s.rw_ p).frame with
  | none => s
  | some f =>
    let ls := f.lines.getD r []
    let above := if 2 ≤ ls.length then ls.getD (ls.length - 2) [] else []
    let s := s.modIngest p (fun f => { f with
      lines := f.lines.set r (ls ++ [fillLine f.width above (got.take f.width)])
      got := if received then f.got.set r (f.got.getD r 0 + 1) else f.got
      dmg := if damaged then f.dmg ++ [(r, ls.length)] else f.dmg })
    if damaged then s.bumpStat (LNK_P_DMG_CNT p) else s

/-- Fill the lines of readout `r` up to line `y` (R99). -/
def State.fillTo (s : State) (p r y : Nat) : Nat → State
  | 0 => s
  | k + 1 =>
    match (s.rw_ p).frame with
    | none => s
    | some f => if (f.lines.getD r []).length < y then (s.lineDone p r [] true false).fillTo p r y k else s

/-- The open line of readout `r` ends (R99, R100); one that is not full is filled and damaged. -/
def State.closeLine (s : State) (p r : Nat) : State :=
  match (s.rw_ p).frame with
  | none => s
  | some f =>
    match f.cur.getD r none with
    | none => s
    | some l =>
      let short := decide (l.words.length < f.lineWords)
      let s := if short then s.lnkFault p lfLen loShortLine else s
      let s := s.lineDone p r (unpackSamples f.sbits l.words) (l.damaged || short) true
      s.modIngest p (fun f => { f with cur := f.cur.set r none })

/-! ### Stripes -/

/-- The frame as the front-end sees it. -/
def Ingest.raw (f : Ingest) : RawFrame := {
  cfg := f.cfg, width := f.width, height := f.height, sbits := f.sbits, lines := f.lines }

/-- Lines that every enabled readout has delivered. -/
def Ingest.ready (f : Ingest) : Nat :=
  ((List.range f.cfg.readouts).map (fun r => (f.lines.getD r []).length)).foldl min f.height

/-- Stripes whose last line has been emitted (R122). -/
def Ingest.emitted (f : Ingest) : Nat :=
  ((List.range (ceilDiv f.height 64)).filter (fun i =>
    let y := min (64 * i + 64) f.height - 1
    decide (min (f.height - 1) (8 * ((y + sameStep f.cfg.cfa) / 8) + 7) < f.ready))).length

/-- Payload of stripe `i`, its planes stored, and for PRESS_BE its size (R121, R207, R215). -/
def Ingest.payload (f : Ingest) (i : Nat) : List Byte × Nat :=
  let q := f.raw
  let y0 := 64 * i
  let n := stripeLines f.height i
  let id := fun (be : Bool) (e spent : Nat) (ovr : Bool) => ({
    be := be, e := e, overshoot := ovr, last := decide (i + 1 = ceilDiv f.height 64), stripe := i, lines := n
    width := f.width, fid := f.fid, spent := spent } : StripeId)
  match f.cfg.fmt with
  | 0 => ((q.raw16Lines y0 n).flatMap (fun l => l.flatMap (leBytes 2)), 0)
  | 1 =>
    let ps := pressPlanes false 0 (q.raw16Lines y0 n)
    (pressPayload (id false 0 0 false) ps, (ps.filter (·.2)).length)
  | 2 =>
    let ps := pressPlanes true f.eNext (q.raw16Lines y0 n)
    let spent := f.spent + pressLen ps
    (pressPayload (id true f.eNext spent (decide (f.fb < spent))) ps, (ps.filter (·.2)).length)
  | _ =>
    ((List.range n).flatMap (fun j => (List.range f.cfg.readouts).flatMap (fun r =>
      ((f.lines.getD r []).getD (y0 + j) []).flatMap (leBytes 2))), 0)

/-- R122, R127, R187, R215, R217: the next stripe of port `p` lands. -/
def State.landStripe (s : State) (p : Nat) : State :=
  match (s.rw_ p).frame with
  | none => s
  | some f =>
    let i := f.landed
    let n := stripeLines f.height i
    let pay := f.payload i
    let dmg := (f.dmg.filter (fun d => decide (d.1 < f.cfg.readouts) && decide (64 * i ≤ d.2) && decide (d.2 < 64 * i + n))).length
    let st := f.raw.stats (64 * i) n dmg
    let sz := pay.1.length
    let spent := if f.cfg.fmt = 1 ∨ f.cfg.fmt = 2 then f.spent + sz else 0
    let total := ceilDiv f.height 64
    let eNext := if f.cfg.fmt = 2 ∧ i + 1 < total then pressNext f.cfg.eMin f.cfg.eMax f.fb spent total i f.eNext sz else f.eNext
    let s := s.vaultUse
    let s := (s.landRec p f.fid pay.1 dmg).modIngest p (fun f => { f with
      landed := i + 1, stats := f.stats.add st, spent := spent, eNext := eNext })
    let s := s.modFrame p f.fid (fun g => { g with landed := g.landed ++ [s.ns] })
    let s := if st.uncorr = 0 then s else s.raise (RAW_P_ERR__UNCORR p)
    let s := if pay.2 = 0 then s else s.bumpStat (RAW_P_PRESS_STORED_CNT p) pay.2
    if f.cfg.fmt = 2 then
      (s.setF (RAW_P_PRESS_STAT__E_NEXT p) eNext).setB (RAW_P_PRESS_STAT__EXHAUSTED p) (decide (f.fb ≤ spent))
    else s

/-- Land stripes up to the `m`-th, at most `k`. -/
def State.landUpTo (s : State) (p m : Nat) : Nat → State
  | 0 => s
  | k + 1 =>
    match (s.rw_ p).frame with
    | none => s
    | some f => if f.landed < m then (s.landStripe p).landUpTo p m k else s

/-! ### The control channel (R103 to R105) -/

/-- Bytes of a sequence entry's transfer: I²C address, register address and value (Table 5-3; the byte order, log 33);
none for a delay. -/
def entryBytes (spi : Bool) (f : Profile) (e : Nat) : List Byte :=
  let a := e / 0x10000
  if a = 0xFFFF then []
  else
    (if spi then [] else [BitVec.ofNat 8 (2 * f.i2cAddr)]) ++ (leBytes (if f.regWidth = 0 then 1 else 2) a).reverse
      ++ (leBytes (if f.regWidth = 2 then 2 else 1) (e % 0x10000)).reverse

/-- The transfers of a sequence: one for each entry that is not a delay. -/
def State.seqBytes (s : State) (p : Nat) (f : Profile) (es : List Nat) : List (List Byte) :=
  (es.map (entryBytes (s.on (LNK_P_SCC__SPI p)) f)).filter (fun bs => !bs.isEmpty)

/-- The transfers of a sequence go out; with `some i`, byte `i` of all its bytes is the last that does: a NACK or a stretch beyond the
limit ends the sequence there (R103; log 91). -/
def State.sendSeq (s : State) (p : Nat) : List (List Byte) → Option Nat → State
  | [], _ => s
  | bs :: t, none => (s.emit (.sensorWrite p bs)).sendSeq p t none
  | bs :: t, some i =>
    if i < bs.length then s.emit (.sensorWrite p (bs.take (i + 1))) else (s.emit (.sensorWrite p bs)).sendSeq p t (some (i - bs.length))

/-- The byte at which a transfer ended early. -/
def xferStop : XferEnd → Option Nat
  | .done _ => none
  | .nack i => some i

/-- The bytes of a control transfer go out: address and write bytes, then a read phase after a STOP or a repeated START (R103, R108). -/
def State.sendXfer (s : State) (p : Nat) (x : Xfer) (e : Option Nat) : State :=
  let adr := fun rd => if s.on (LNK_P_SCC__SPI p) then ([] : List Byte) else [BitVec.ofNat 8 (2 * x.addr + rd)]
  let cut := e.getD (x.write.length + x.readLen)
  let writes := !x.write.isEmpty || x.readLen == 0
  let s := if writes then s.emit (.sensorWrite p (adr 0 ++ x.write.take (cut + 1))) else s
  if x.readLen = 0 ∨ (cut < x.write.length ∧ e.isSome) then s
  else s.emit (.sensorRead p (adr 1) (min x.readLen (cut + b2n e.isSome - x.write.length)) (writes && x.noStop))

/-- The job at the head of the channel's list starts. -/
def State.startXfer (s : State) (p : Nat) : State :=
  s.modPt p (fun q => { q with xfer := match q.xfer with | [] => [] | x :: t => { x with running := true } :: t })

/-- The settings write that SET_LINE starts, when the channel is free and firmware runs (R104 to R106; spec/21, R406). -/
def State.startSettings (s : State) (p : Nat) : State :=
  let q := s.pt p
  match q.queue, q.profile with
  | set :: rest, some _ =>
    if q.writing.isSome ∨ q.xfer.any (·.running) = true ∨ s.dev.fwRun = false then
      s.modPt p (fun q => { q with setDue := true })
    else
      s.modPt p (fun q => { q with queue := rest, writing := some ⟨set, s.rn (VLT_C_NEWEST_FID p), false⟩, setDue := false })
  | _, _ => s

/-- The channel is free for a job of its list, and no settings write takes it next (R104). -/
def State.channelFree (s : State) (p : Nat) : Bool :=
  (s.pt p).writing.isNone && !(s.pt p).setDue && !(s.pt p).xfer.any (·.running)

/-- The channel may have become free: a settings write that is due takes it; else a sequence, or on a stopped port a control transfer,
starts at once (R104). -/
def State.channelNext (s : State) (p : Nat) : State :=
  if (s.pt p).setDue then s.startSettings p
  else if s.channelFree p ∧ (s.on (LNK_P_CFG__EN p) = false ∨ (s.pt p).xfer.head?.any (·.hdr.isNone) = true) then s.startXfer p
  else s

/-- Sequence `es` takes the channel once the job that runs has ended (R104, R108; log 91). -/
def State.queueSeq (s : State) (p : Nat) (f : Profile) (es : List Nat) : State :=
  match s.seqBytes p f es with
  | [] => s
  | b :: t =>
    let x : Xfer := { hdr := none, seq := b :: t, addr := 0, noStop := false, write := [], readLen := 0, readRef := (0, 0, 0), running := false }
    let first := fun (y : Xfer) => y.running || y.hdr.isNone
    (s.modPt p (fun q => { q with xfer := q.xfer.filter first ++ [x] ++ q.xfer.filter (fun y => !first y) })).channelNext p

/-! ### The ingest boundary (R14, R15, R101, R127, R187, R217) -/

/-- A stop of the port that waited for its frame: EN clears and the packet is answered (R108). -/
def State.lnkStopped (s : State) (p : Nat) : State :=
  match (s.pt p).stopWait with
  | none => s
  | some h =>
    (((s.modPt p (fun q => { q with stopWait := none })).setB (LNK_P_CFG__EN p) false).channelNext p).finishF h ok

/-- R216, R217: a frame that ends without TRUNCATED is judged. -/
def State.pressJudge (s : State) (p : Nat) (f : Ingest) : State :=
  let s := if f.cfg.fmt = 1 ∨ f.cfg.fmt = 2 then s.wn (RAW_P_PRESS_BYTES p) f.spent else s
  if f.cfg.fmt ≠ 2 then s
  else
    let ovr := decide (f.fb < f.spent)
    let s := s.setB (RAW_P_PRESS_STAT__OVERSHOOT p) ovr
    let s := if ovr then s.bumpStat (RAW_P_PRESS_OVS_CNT p) else s
    let s := if ovr ∧ (s.rw_ p).prevOver = false then s.log .raw evPressOvershoot (ctxTarget p) else s
    s.modRw p (fun r => { r with prevE0 := f.e0, prevSpent := f.spent, prevFb := f.fb, prevOver := ovr })

/-- The frame in ingest at port `p` reaches its ingest boundary with a cause of Table 6-3; stripes emitted land first, up to
the `m`-th (log 31). -/
def State.ingestEnd (s : State) (p cause m : Nat) : State :=
  match (s.rw_ p).frame with
  | none => s
  | some f0 =>
    let s := if f0.recorded then s.landUpTo p m (ceilDiv f0.height 64) else s
    let f := ((s.rw_ p).frame).getD f0
    let s := s.modRw p (fun r => { r with frame := none })
    let s := (s.setB (RAW_P_STAT__IN_FRAME p) false).setB (LNK_P_STAT__IN_FRAME p) false
    let s := s.setB (RAW_P_PRESS_STAT__EXHAUSTED p) false
    let s := if f.recorded then
        let cut := cause != 0
        let all := (f.dmg.filter (fun d => decide (d.1 < f.cfg.readouts))).length
        let blk : IngestBlk := {
          fid := f.fid, tag := f.tag, valid := true, truncated := cut, setLate := f.setLate, armedLive := f.armedLive
          cause := cause, lastStripe := if f.landed = 0 then none else some (f.landed - 1), ns := f.ns, frac := f.frac
          stats := if cut then f.stats else { f.stats with damaged := all } }
        let s := s.modRw p (fun r => { r with latch := blk })
        let s := if cut then
            ((s.bumpEvt .raw (RAW_P_TRUNC_CNT p)).setF (RAW_P_STAT__LAST_CAUSE p) cause)
          else s.pressJudge p f
        let s := s.closeRec p f.fid (s.ctxFp p) (fun r => { r with
          truncated := cut, cause := cause, embBytes := f.emb, embTrunc := f.embTrunc, sensorFlags := f.sensorFlags
          countBad := f.countBad, ingest := blk })
        let s := s.modFrame p f.fid (fun g => { g with closed := true, truncated := cut, tag := f.tag })
        let s := [p, 4, 5].foldl State.settleFrames s
        s.settleDrain p
      else s
    s.lnkStopped p

/-- R101: the frame in progress is declared TRUNCATED; every stripe emitted is complete. -/
def State.truncateFrame (s : State) (p cause : Nat) : State :=
  match (s.rw_ p).frame with
  | none => s
  | some f => s.ingestEnd p cause f.emitted

/-- R124: an ingest overflow; a third stripe that waits for the DMC is not kept. -/
def State.overflow (s : State) (p cause : Nat) : State :=
  match (s.rw_ p).frame with
  | none => s
  | some f =>
    if f.recorded = false then s
    else
      let s := s.bumpEvt .raw (RAW_P_OVF_CNT p)
      let s := s.raise (if cause = 4 then RAW_P_ERR__OVF_FIFO p else if cause = 5 then RAW_P_ERR__OVF_WRITE p else RAW_P_ERR__LAG p)
      s.ingestEnd p cause (if cause = 5 then f.landed + 2 else f.emitted)

/-- A third stripe waits for DMC acceptance (R124). -/
def State.checkWaiting (s : State) (p : Nat) : State :=
  match (s.rw_ p).frame with
  | some f => if f.recorded ∧ f.landed + 3 ≤ f.emitted then s.overflow p 5 else s
  | none => s

/-! ### Packets -/

/-- Settings tags that take effect by frame `fid` (R105): the tag in effect, and SET_LATE of this frame. -/
def State.takeTags (s : State) (p fid : Nat) : Bool × State :=
  let q := s.pt p
  let due := q.tags.filter (fun t => !serialLt fid t.1)
  match due.getLast? with
  | none => (false, s)
  | some t => (t.2.2, s.modPt p (fun q => { q with tag := t.2.1, tags := q.tags.filter (fun t => serialLt fid t.1) }))

/-- A frame of sensor context `p` is placed (R125, R126, R135, R188 to R191); none when no run was found. -/
def State.placeFrame (s : State) (p : Nat) (f : Profile) : Option Nat × State :=
  let img := match (s.cx p).pending with
    | some i => some i
    | none => s.liveImage p
  match img with
  | none => (none, s)
  | some img =>
    let cfg := if (s.cx p).pending.isSome then img.raw else (s.rw_ p).live
    let emb := s.vlt.emb.getD p 0
    s.place {
      ctx := p, maxRec := maxRecOf cfg.fmt f.width f.height cfg.readouts emb, epoch := s.rn TIM_NOW_EPOCH, ns := s.ns
      width := f.width, height := f.height, readouts := cfg.readouts, sbits := s.f (LNK_P_CFG__SBITS p), fmt := cfg.fmt
      emb := emb, commitId := img.id.toNat, playback := false }

/-- A recorded frame begins. -/
def State.beginFrame (s : State) (p fid : Nat) (prof : Profile) (flags : W32) : State :=
  let s := s.bindImage p fid
  let late := s.takeTags p fid
  let s := late.2
  let tag := (s.pt p).tag
  let arm := (s.rw_ p).armed.filter (fun a => a.applyTag == tag)
  let s : State := match arm with
    | some a => s.armedLive p a
    | none => s
  let r := s.rw_ p
  let cfg := r.live
  let gen : Nat := match s.rec? p fid with
    | some q => q.gen
    | none => 0
  let fb := if cfg.fmt = 2 then pressBudget prof.width prof.height cfg.ratio else 0
  let e0 := if cfg.fmt ≠ 2 then 0
    else if r.firstFrame ∨ r.prevFb = 0 then cfg.eMin
    else pressFirst cfg.eMin cfg.eMax r.prevE0 r.prevSpent r.prevFb
  let f : Ingest := {
    recorded := true, fid := fid, gen := gen, epoch := s.rn TIM_NOW_EPOCH, ns := s.ns, frac := s.rn TIM_NOW_FRAC
    width := prof.width, height := prof.height, sbits := 10 + 2 * s.f (LNK_P_CFG__SBITS p), cfg := cfg, tag := tag
    sensorFlags := flags, setLate := late.1, armedLive := arm.isSome, e0 := e0, eNext := e0, fb := fb }
  let s := s.modRw p (fun r => { r with frame := some f, firstFrame := false })
  let s := (s.wn (RAW_P_LIVE_FID p) fid).setB (RAW_P_STAT__IN_FRAME p) true
  let s := ((s.setF (RAW_P_PRESS_STAT__E0 p) e0).setF (RAW_P_PRESS_STAT__E_NEXT p) e0).wn (RAW_P_PRESS_BUDGET p) fb
  let s := s.noteSource p fid gen
  let g : ProcFrame := {
    fid := fid, gen := gen, width := prof.width, height := prof.height, procStop := s.cst p == 3, tag := tag
    epoch := f.epoch, ns := f.ns, budgetUs := (match s.liveImage p with | some i => i.cfg.budgetUs | none => 0)
    fp := s.ctxFp p }
  s.modCx p (fun q => { q with
    frames := q.frames ++ [g], firstFid := if q.firstFid.isNone then some fid else q.firstFid })

/-- A frame whose data is discarded (R133, R191): the pending image is bound all the same, to the next frame that gets a FID (R125, R135;
log 96), and the receiver still follows the lines. -/
def State.ghostFrame (s : State) (p : Nat) (prof : Profile) : State :=
  let s := s.bindImage p (s.nextFid p)
  s.modRw p (fun r => { r with frame := some {
    recorded := false, fid := 0, gen := 0, epoch := 0, ns := 0, frac := 0, width := prof.width, height := prof.height
    sbits := 10 + 2 * s.f (LNK_P_CFG__SBITS p), cfg := r.live } })

/-- A port's own state once frame number `fn` has begun. -/
def PortSt.opened (q : PortSt) (fn now : Nat) : PortSt := { q with
  logged := [], relock := false, lastFn := some fn, setDue := false, lastLineNs := none, lastLine := 0
  lastFrameNs := some now, frameNs := match q.lastFrameNs with | some t => now - t | none => q.frameNs }

/-- A frame number that does not follow the port's latest one is a gap (R98). -/
def State.gapCheck (s : State) (p : Nat) (last : Option Nat) (fn : Nat) : State :=
  match last with
  | some o => if fn = (o + 1) % 0x100000000 then s else s.lnkFault p lfGap loGap
  | none => s

/-- A frame still open ends as the next one starts (R101). -/
def State.endOpen (s : State) (p : Nat) : State :=
  if s.on (LNK_P_STAT__IN_FRAME p) then (s.lnkFault p lfMissing loMissing).truncateFrame p 1 else s

/-- What FRAME_START does to the port (R98, R105). -/
def State.frameOpens (s : State) (p fn : Nat) : State :=
  let s := (s.modPt p (fun q => q.opened fn s.now)).gapCheck p (s.pt p).lastFn fn
  ((s.wn (LNK_P_SNS_FN p) fn).bumpEvt .lnk (LNK_P_FRAME_CNT p)).setB (LNK_P_STAT__IN_FRAME p) true

/-- FRAME_START (R93 to R95, R97 to R99, R101, R105, R125, R126, R133, R135, R188 to R192, R216). -/
def execFrameStart (port : Fin 4) (s : State) : Res :=
  let p := port.val
  match s.packetIn p 1 (some 2) with
  | (none, s) => .next s
  | (some k, s) =>
    let s := s.endOpen p
    match (s.pt p).profile with
    | none => .next s
    | some prof =>
      if s.on (LNK_P_CFG__EN p) = false then .next s
      else
        let s := s.frameOpens p (k.words.getD 0 0).toNat
        if s.cst p ≠ 2 ∧ s.cst p ≠ 3 then .next ((s.bumpEvt .ctx (CTX_C_DISC_CNT p)).ghostFrame p prof)
        else
          match s.placeFrame p prof with
          | (none, s) => .next (s.ghostFrame p prof)
          | (some fid, s) => .next (s.beginFrame p fid prof (k.words.getD 1 0))

/-- FRAME_END (R14, R15, R97, R99, R100, R123, R127, R187, R217). -/
def execFrameEnd (port : Fin 4) (s : State) : Res :=
  let p := port.val
  match s.packetIn p 2 (some 1) with
  | (none, s) => .next s
  | (some k, s) =>
    match (s.rw_ p).frame with
    | none => .next (s.lnkFault p lfSeq loOutside)
    | some f =>
      let s := (List.range f.cfg.readouts).foldl (fun s r => s.closeLine p r) s
      let f := ((s.rw_ p).frame).getD f
      let rs := List.range f.cfg.readouts
      let sent := (k.words.getD 0 0).toNat % 0x10000
      let s := if rs.any (fun r => f.got.getD r 0 != sent) then
          (s.lnkFault p lfLen loCount).modIngest p (fun f => { f with countBad := true })
        else s
      let missing := rs.any (fun r => decide ((f.lines.getD r []).length < f.height))
      let s := if missing then s.raise (RAW_P_ERR__DMG p) else s
      let s := rs.foldl (fun s r => s.fillTo p r f.height f.height) s
      let f := ((s.rw_ p).frame).getD f
      .next (s.ingestEnd p 0 f.emitted)

/-- A LINE_START of VC `r` is stamped (R98); readout 0's line `y` times the lines of the port, and its SET_LINE (R104). -/
def State.lineTimed (s : State) (p r y : Nat) : State :=
  let s := s.modPt p (fun q => { q with lineStamp := q.lineStamp.set r s.now })
  if r = 0 then s.modPt p (fun q => { q with
    lastLineNs := some s.now, lastLine := y, lineNs := match q.lastLineNs with | some t => s.now - t | none => q.lineNs
    setLineNs := if y = s.f (LNK_P_SET_CFG__SET_LINE p) then some s.now else q.setLineNs }) else s

/-- LINE_START (R93 to R95, R97 to R100, R104, R105). -/
def execLineStart (port : Fin 4) (s : State) : Res :=
  let p := port.val
  match s.packetIn p 3 (some 1) with
  | (none, s) => .next s
  | (some k, s) =>
    let r := k.vc
    let y := (k.words.getD 0 0).toNat % 0x10000
    let s := s.lineTimed p r y
    match (s.rw_ p).frame with
    | none => .next (s.lnkFault p lfSeq loOutside)
    | some f =>
      if f.cfg.readouts ≤ r then .next s
      else
        let s := s.closeLine p r
        let f := ((s.rw_ p).frame).getD f
        let next := (f.lines.getD r []).length
        if y < next ∨ f.height ≤ y then
          .next ((s.lnkFault p lfSeq loBadLine).modIngest p (fun f => { f with skip := f.skip.set r true }))
        else
          let s := if next < y then (s.lnkFault p lfSeq loSkipAhead).fillTo p r y f.height else s
          let s := s.modIngest p (fun f => { f with
            skip := f.skip.set r false, cur := f.cur.set r (some ⟨y, [], !k.good⟩) })
          let s := s.checkWaiting p
          .next (if r = 0 ∧ y = s.f (LNK_P_SET_CFG__SET_LINE p) ∧ (s.rw_ p).frame.isSome then s.startSettings p else s)

/-- R123: readout `r` delivers line `y` while another enabled readout lacks line y − MERGE_LAG. -/
def Ingest.lagBreach (f : Ingest) (r y : Nat) : Bool :=
  decide (f.cfg.lag ≤ y) && (List.range f.cfg.readouts).any (fun o =>
    o != r && decide ((f.lines.getD o []).length ≤ y - f.cfg.lag))

/-- LINE_DATA (R93 to R97, R99, R100, R123, R124). `full`: a word arrives while the port's input buffer is full (log 32). -/
def execLineData (port : Fin 4) (full : Bool) (s : State) : Res :=
  let p := port.val
  match s.packetIn p 4 none with
  | (none, s) => .next s
  | (some k, s) =>
    let r := k.vc
    match (s.rw_ p).frame with
    | none => .next (s.lnkFault p lfSeq loOutside)
    | some f =>
      match f.cur.getD r none with
      | none => .next s
      | some l =>
        if full ∧ f.recorded = true then .next (s.overflow p 4)
        else if f.recorded ∧ f.lagBreach r l.number = true then .next (s.overflow p 6)
        else
          let all := l.words ++ k.words
          let ovr := decide (f.lineWords < all.length)
          let s := if ovr then s.lnkFault p lfLen loExcess else s
          .next (s.modIngest p (fun f => { f with
            cur := f.cur.set r (some ⟨l.number, all.take f.lineWords, l.damaged || ovr || !k.good⟩) }))

/-- LINE_END (R93, R95, R97, R99, R100, R122, R124). -/
def execLineEnd (port : Fin 4) (s : State) : Res :=
  let p := port.val
  match s.packetIn p 5 (some 0) with
  | (none, s) => .next s
  | (some k, s) =>
    if (s.rw_ p).frame.isNone then .next (s.lnkFault p lfSeq loOutside)
    else .next ((s.closeLine p k.vc).checkWaiting p)

/-- EMBEDDED (R93 to R95, R97, R99, R186): the packet with one word ahead is stored in order of arrival; one that follows a bad line
number of its VC is discarded. -/
def execEmbedded (port : Fin 4) (s : State) : Res :=
  let p := port.val
  match s.packetIn p 6 none with
  | (none, s) => .next s
  | (some k, s) =>
    match (s.rw_ p).frame with
    | none => .next (s.lnkFault p lfSeq loOutside)
    | some f =>
      if f.skip.getD k.vc false then .next s
      else
        let room := 4096 * (match s.rec? p f.fid with | some q => q.embSect | none => 0)
        let all := f.emb ++ leBytes 4 (k.vc * 0x4000000 + k.words.length) ++ k.words.flatMap (fun w => leBytes 4 w.toNat)
        .next (s.modIngest p (fun f => { f with emb := all.take room, embTrunc := f.embTrunc || decide (room < all.length) }))

/-- IDLE (R93, R95): the packet is taken, and has no effect. -/
def execIdle (port : Fin 4) (s : State) : Res := .next (s.packetIn port.val 0 (some 0)).2

/-- RESERVED_TYPE_PACKET (R95): a packet of TYPE 7 to 15 is skipped and TYPE_ERR is set. -/
def execReservedTypePacket (port : Fin 4) (s : State) : Res :=
  let p := port.val
  match s.packetAt p with
  | none => .next s
  | some (w, _) =>
    if s.portOn p = false ∨ hdrType w < 7 then .next s
    else if (s.pt p).relock then .next (s.packetOff p w)
    else .next ((s.packetOff p w).lnkFault p lfType loType)

/-- FRAME_TIMEOUT (R99, R101): no word of the frame has arrived for FRAME_TMO; 0 disables it. -/
def execFrameTimeout (port : Fin 4) (s : State) : Res :=
  let p := port.val
  if s.on (LNK_P_STAT__IN_FRAME p) = false ∨ s.f (LNK_P_FRAME_TMO__TMO_US p) = 0 then .next s
  else .next ((s.lnkFault p lfTimeout loTimeout).truncateFrame p 2)

/-- STRIPE_LANDED (R122, R127, R137, R187, R215, R217): the DMC accepts the last line of the oldest stripe that waits. -/
def execStripeLanded (port : Fin 4) (s : State) : Res :=
  match (s.rw_ port.val).frame with
  | some f => .next (if f.recorded ∧ f.landed < f.emitted then s.landStripe port.val else s)
  | none => .next s

end Sys2Proof.Machine
end

