-- ==== Sys2Proof/Machine/Lnk.lean ====
section
/-!
DEFINITION. The sensor links (spec/05_sensor_links.md): quads, lanes and ports, the line code, alignment, the sensor
control channel, settings, triggers and lane patterns.
-/
namespace Sys2Proof.Machine
open Sys2Proof

/-! ### Lanes, quads and ports (R83 to R85) -/

/-- Port of quad `q` in a quad map; 7 for none. -/
def qmapOf (m q : Nat) : Nat := bitsAt m (3 * q) 3

/-- Quads of port `p`, ascending. -/
def qmapQuads (m p : Nat) : List Nat := (List.range 6).filter (fun q => qmapOf m q == p)

/-- R83: every value is a port or none, and each port's quads are contiguous. -/
def qmapOk (m : Nat) : Bool :=
  (List.range 6).all (fun q => decide (qmapOf m q ≤ 3) || qmapOf m q == 7)
    && (List.range 4).all (fun p =>
      match qmapQuads m p with
      | [] => true
      | a :: t => (a :: t) == (List.range (t.length + 1)).map (· + a))

def State.portQuads (s : State) (p : Nat) : List Nat := qmapQuads (s.f LNK_QMAP__QMAP) p

/-- A value of L (R84). -/
def lanesOk (l : Nat) : Bool := [1, 2, 4, 8, 12, 16, 20, 24].contains l

/-- The lanes a port uses, in port lane order (R84). -/
def State.portLanes (s : State) (p : Nat) : List Nat :=
  ((s.portQuads p).flatMap (fun q => (List.range 4).map (fun i => 4 * q + i))).take (s.f (LNK_P_CFG__LANES p))

/-- The port holds the quads that its L takes (R84). -/
def State.covered (s : State) (p : Nat) : Bool := (s.portQuads p).length == ceilDiv (s.f (LNK_P_CFG__LANES p)) 4

/-- The port that uses a lane. -/
def State.laneOwner (s : State) (l : Nat) : Option Nat := (List.range 4).find? (fun p => (s.portLanes p).contains l)

def State.ln (s : State) (l : Nat) : LaneSt := s.lane.toList.getD l {}
def State.modLn (s : State) (l : Nat) (g : LaneSt → LaneSt) : State := { s with lane := s.lane.setIfInBounds l (g (s.ln l)) }

/-! ### Status views -/

/-- LNK_Pp_STAT as read. -/
def State.lnkStat (s : State) (p : Nat) : Nat :=
  let lanes := ((s.portLanes p).filter (fun l => s.on (LNK_L_STAT__ALIGNED l))).map (fun l => 2 ^ (4 + l))
  s.rn (LNK_P_STAT p) % 8 + 8 * b2n (decide (8 ≤ (s.pt p).queue.length)) + lanes.sum

/-- LNK_Pp_SETQ as read. -/
def State.lnkSetq (s : State) (p : Nat) : Nat := s.rn (LNK_P_SETQ p) / 16 * 16 + (s.pt p).queue.length

/-- LNK_Ll_STAT as read. -/
def State.lnkLane (s : State) (l : Nat) : Nat :=
  s.rn (LNK_L_STAT l) % 16 + 16 * (match s.laneOwner l with | some p => p | none => 15)

/-- PLL_LOCK of a quad: it is powered, a port or a pattern uses one of its lanes (R84). -/
def State.quadPll (s : State) (q : Nat) : Bool :=
  (List.range 4).any (fun i => (s.laneOwner (4 * q + i)).isSome || s.f (LNK_L_PAT__MODE (4 * q + i)) != 0)

/-! ### The line code (R86, R87) -/

/-- Remove stuff bits until `n` scrambled bits have been taken; what follows them is left (R87). -/
def destuff : Nat → Bool → Nat → List Bool → List Bool × List Bool
  | _, _, _, [] => ([], [])
  | n, rb, rl, b :: t =>
    if rl = 24 then destuff n (!rb) 1 t
    else
      match n with
      | 0 => ([], b :: t)
      | n + 1 =>
        let r := destuff n b (if b = rb then rl + 1 else 1) t
        (b :: r.1, r.2)

/-- The additive descrambler from register value `k` (R86). -/
def descramble : Nat → List Bool → List Bool
  | _, [] => []
  | k, b :: t =>
    let x := bitAt k 30 != bitAt k 27
    (b != x) :: descramble ((2 * k + b2n x) % 0x80000000) t

/-- Payload words that an interval's line bits hold, at most `n`, and the fill after them; no fill is counted when `n` words lack. -/
def intervalWords (n : Nat) (bits : List Bool) : List W32 × Option Nat :=
  let r := destuff (32 * n) false 12 bits
  ((rowsOf 32 (r.1.length / 32) (descramble 0x7FFFFFFF r.1)).map (fun w => BitVec.ofNat 32 (ofMsb w))
    , if r.1.length < 32 * n then none else some r.2.length)

/-- The first comma of line bits (R89): the bits before it, and those after it. `acc` holds the bits looked at, latest first, and `n` counts
the ones at its head. -/
def findComma : Nat → List Bool → List Bool → Option (List Bool × List Bool)
  | _, _, [] => none
  | n, acc, true :: t => findComma (n + 1) (true :: acc) t
  | n, acc, false :: t =>
    if 28 ≤ n then if 11 ≤ t.length then some ((acc.drop 28).reverse, t.drop 11) else none
    else findComma 0 (false :: acc) t

/-! ### Alignment (R90, R99) -/

/-- The words received of port `p` are dropped (R99). -/
def State.dropWords (s : State) (p : Nat) : State := s.modPt p (fun q => { q with stream := [], inSync := false })

/-- A port leaves LOCKED for ERR bit `b` (Table 5-2). -/
def State.lockLost (s : State) (p b : Nat) : State :=
  if s.on (LNK_P_STAT__LOCKED p) = false then s
  else
    let s := (s.setB (LNK_P_STAT__LOCKED p) false).bumpEvt .lnk (LNK_P_RESYNC_CNT p)
    let s := ((s.setB (LNK_P_STAT__RESYNC p) false).dropWords p).modPt p (fun q => { q with waiting := [] })
    if (s.rw_ p).frame.isSome then
      ((s.lnkFault p b loLock).modPt p (fun q => { q with relock := true })).truncateFrame p 3
    else s

/-- A lane loses ALIGNED. -/
def State.laneLost (s : State) (l : Nat) : State :=
  let s := (s.setB (LNK_L_STAT__ALIGNED l) false).modLn l (fun q => { q with good := 0, bad := 0, at_ := none })
  match s.laneOwner l with
  | some p => s.lockLost p lfLaneDown
  | none => s

/-- A port that no longer has every lane of its configuration ALIGNED is not LOCKED. -/
def State.lockCheck (s : State) (p : Nat) : State :=
  if s.covered p && (s.portLanes p).all (fun l => s.on (LNK_L_STAT__ALIGNED l)) then s else s.lockLost p lfLaneDown

/-- Lanes that no port uses are powered down, but for one that a pattern uses (R84, R109). -/
def State.powerLanes (s : State) : State :=
  (List.range 24).foldl (fun s l =>
    if (s.laneOwner l).isSome ∨ s.f (LNK_L_PAT__MODE l) ≠ 0 then s
    else ((s.setB (LNK_L_STAT__CDR_LOCK l) false).setB (LNK_L_STAT__ALIGNED l) false).modLn l (fun q => { q with
      line := [], good := 0, bad := 0, at_ := none, words := [] })) s

/-- A port is LOCKED: a LNK_START that waits is answered (R108). -/
def State.locked (s : State) (p : Nat) : State :=
  let s := s.setB (LNK_P_STAT__LOCKED p) true
  match (s.pt p).startWait with
  | none => s
  | some h => (s.modPt p (fun q => { q with startWait := none })).finishF h (ok [s.f (LNK_P_SKEW__SKEW_UI p)])

/-- The equaliser preset of a quad (R91; spec/20, Table 20-4). -/
def State.eqPreset (s : State) (q : Nat) : Nat :=
  if s.on (LNK_QCFG__EQ_OVR q) then s.f (LNK_QCFG__EQ_OVR_VAL q)
  else bitsAt (s.f THM_EQ__PRESET) (4 * s.f THM_STAT__BAND) 4

/-- Every lane of port `p` has its comma: skew, lock, and the interval's port words (R90, R92). A port that was LOCKED and stays so
delivers them. -/
def State.portInterval (s : State) (p : Nat) : State :=
  let lanes := s.portLanes p
  let ts := lanes.map (fun l => (l, ((s.ln l).at_).getD 0))
  let hi := ts.foldl (fun m t => if m.2 ≤ t.2 then t else m) (0, 0)
  let lo := ts.foldl (fun m t => min m t.2) hi.2
  let skew := hi.2 - lo
  let s := (s.setF (LNK_P_SKEW__LAST_LANE p) hi.1).setF (LNK_P_SKEW__SKEW_UI p) (min skew 255)
  let n := 16 * (s.f (LNK_P_CFG__CW p) + 1)
  let words := (List.range n).flatMap (fun i => lanes.map (fun l => ((s.ln l).words).getD i 0))
  let s := lanes.foldl (fun s l => s.modLn l (fun q => { q with at_ := none })) s
  if (s.covered p && lanes.all (fun l => s.on (LNK_L_STAT__ALIGNED l))) = false then s
  else if 160 < skew then (s.lnkFault p lfSkew loLock).lockLost p lfSkew
  else if s.on (LNK_P_STAT__LOCKED p) then s.modPt p (fun q => { q with waiting := q.waiting ++ [words] })
  else s.locked p

/-- Words that an interval of `n` words lacks are free values (R90; log 92). -/
def State.wholeWords (s : State) (n : Nat) (ws : List W32) : List W32 × State :=
  let k := n - ws.length
  (ws ++ (List.range k).map (fun i => Config.free (s.freeCtr + i)), s.drawnTo (s.freeCtr + k))

/-- Lane `l` of port `p` has its comma at `at_` UI; `bits` are the line bits of the interval before it (R90). -/
def State.laneComma (s : State) (l p at_ : Nat) (bits : List Bool) : State :=
  let n := 16 * (s.f (LNK_P_CFG__CW p) + 1)
  let iv := intervalWords n bits
  let good := iv.2.any (fun fill => decide (fill ≤ 184))
  let x := s.wholeWords n iv.1
  let s := x.2.modLn l (fun q => { q with
    at_ := some at_, words := x.1, good := if good then q.good + 1 else 0, bad := if good then 0 else q.bad + 1 })
  let s := if 2 ≤ (s.ln l).good then s.setB (LNK_L_STAT__ALIGNED l) true
    else if 2 ≤ (s.ln l).bad ∧ s.on (LNK_L_STAT__ALIGNED l) then s.laneLost l
    else s
  if (s.portLanes p).all (fun l => (s.ln l).at_.isSome) then s.portInterval p else s

/-! ### Lane patterns: the generator and the checker (R109, R110) -/

/-- Bits of a pattern MODE that its next bit follows from. -/
def patLen (m : Nat) : Nat := [0, 7, 15, 31, 40].getD m 40

/-- The next bit of pattern MODE `m` after bits `h`, the latest at bit 0 (R109). -/
def patNext (m h : Nat) : Bool :=
  if m = 4 then bitAt h 39 else bitAt h (patLen m - 1) != bitAt h ([0, 6, 14, 28].getD m 0 - 1)

/-- The bits with one more. -/
def patPush (m h : Nat) (b : Bool) : Nat := (2 * h + b2n b) % 2 ^ patLen m

/-- The generator starts at the top of its pattern: all ones, or the comma (log 93). -/
def patSeed (m : Nat) : Nat := if m = 4 then 0xFFFFFFF000 else 2 ^ patLen m - 1

/-- The generator's next `n` bits; the first of them that an injection still covers are inverted (R110). -/
def LaneSt.generate (m : Nat) : Nat → LaneSt → List Bool × LaneSt
  | 0, q => ([], q)
  | n + 1, q =>
    let b := patNext m q.gen
    let r := LaneSt.generate m n { q with gen := patPush m q.gen b, inject := q.inject - 1 }
    ((b != decide (0 < q.inject)) :: r.1, r.2)

/-- What a checker knows: itself, PAT_SYNC, and the bits and errors counted since. -/
structure PatRun where
  check : PatCheck
  sync : Bool
  bits : Nat := 0
  errs : Nat := 0
deriving DecidableEq, Repr

/-- The checker takes bit `b` (R109): it seeds itself, counts while PAT_SYNC is set, sets PAT_SYNC after 64 correct bits in a row, and
seeds again after 16 errors within 64 bits. -/
def PatRun.take (m : Nat) (x : PatRun) (b : Bool) : PatRun :=
  if x.check.seen < patLen m then
    { x with check := { x.check with hist := patPush m x.check.hist b, seen := x.check.seen + 1 } }
  else
    let e := patNext m x.check.hist
    let wrong := b != e
    let errors := (2 * x.check.errors + b2n wrong) % 2 ^ 64
    let bits := x.bits + b2n x.sync
    let errs := x.errs + b2n (x.sync && wrong)
    if 16 ≤ ((List.range 64).filter (bitAt errors)).length then { check := {}, sync := false, bits := bits, errs := errs }
    else
      let run := if wrong then 0 else x.check.run + 1
      { check := { x.check with hist := patPush m x.check.hist e, run := run, errors := errors }
        sync := x.sync || decide (64 ≤ run), bits := bits, errs := errs }

/-- BITS of a lane grow by `n` (Table 23-3). -/
def State.bumpBits (s : State) (l n : Nat) : State :=
  let v := s.f (LNK_L_BITS_HI__BITS_HI l) * 0x100000000 + s.rn (LNK_L_BITS_LO l) + n
  if v < 2 ^ 63 then (s.setF (LNK_L_BITS_HI__BITS_HI l) (v / 0x100000000)).wn (LNK_L_BITS_LO l) v
  else (s.wn (LNK_L_BITS_HI l) 0xFFFFFFFF).wn (LNK_L_BITS_LO l) 0xFFFFFFFF

/-- Raw line bits reach the checker of lane `l` (R109). -/
def State.checkBits (s : State) (l : Nat) (bits : List Bool) : State :=
  let m := s.f (LNK_L_PAT__MODE l)
  if s.on (LNK_L_PAT__CHK l) = false ∨ m = 0 then s
  else
    let x := bits.foldl (PatRun.take m) { check := (s.ln l).check, sync := s.on (LNK_L_STAT__PAT_SYNC l) }
    let s := (s.modLn l (fun q => { q with check := x.check })).setB (LNK_L_STAT__PAT_SYNC l) x.sync
    (s.bumpBits l x.bits).bumpStat (LNK_L_ERRS l) x.errs

/-- Line bits from the sensor reach the checker, unless NEAR_LOOP feeds the lane from its generator. -/
def State.sensorBits (s : State) (l : Nat) (bits : List Bool) : State :=
  if s.on (LNK_L_PAT__NEAR_LOOP l) then s else s.checkBits l bits

/-- COMMA (R86 to R91, R109): `bits` are the line bits that have arrived on a lane since the latest row, the comma among them, which
arrives at `at_` UI. A lane with a pattern MODE hands them to its checker; a powered-down lane takes nothing (R84). -/
def execComma (lane : Fin 24) (at_ : Nat) (bits : List Bool) (s : State) : Res :=
  let l := lane.val
  let q := l / 4
  if s.f (LNK_L_PAT__MODE l) ≠ 0 then .next ((s.setB (LNK_L_STAT__CDR_LOCK l) true).sensorBits l bits)
  else
    match s.laneOwner l with
    | none => .next s
    | some p =>
      let s := s.setB (LNK_L_STAT__CDR_LOCK l) true
      match findComma 0 [] ((s.ln l).line ++ bits) with
      | none => .next (s.modLn l (fun q => { q with line := q.line ++ bits }))
      | some (before, after) =>
        let s := (s.setF (LNK_QCFG__EQ q) (s.eqPreset q)).modLn l (fun q => { q with line := after })
        .next (s.laneComma l p at_ before)

/-- CDR_LOCK_LOSS (R90, R99, R101). -/
def execCdrLockLoss (lane : Fin 24) (s : State) : Res :=
  .next (((s.setB (LNK_L_STAT__CDR_LOCK lane.val) false).modLn lane.val (fun q => { q with line := [] })).laneLost lane.val)

/-- LINK_WORD (R92, R99): port word 0 of the oldest interval that waits is judged. Outside RESYNC the interval's other words follow those
received before; in RESYNC, and after lock, a valid link word that points to a header begins them there. -/
def execLinkWord (port : Fin 4) (s : State) : Res :=
  let p := port.val
  match (s.pt p).waiting with
  | [] => .next s
  | [] :: more => .next (s.modPt p (fun q => { q with waiting := more }))
  | (w :: rest) :: more =>
    let s := s.modPt p (fun q => { q with waiting := more })
    let next := w.toNat / 0x10000
    if (s.on (LNK_P_CFG__EN p) && s.on (LNK_P_STAT__LOCKED p) && !s.dev.safe) = false then .next (s.dropWords p)
    else
      let s := if wordOk w then s else s.lnkFault p lfLwCrc loLwCrc
      if (s.pt p).inSync then .next (s.modPt p (fun q => { q with stream := q.stream ++ rest }))
      else if wordOk w = false ∨ next = 0xFFFF then .next s
      else .next ((s.setB (LNK_P_STAT__RESYNC p) false).modPt p (fun q => { q with stream := rest.drop next, inSync := true }))

/-- HCRC_FAIL (R93, R99): the header at the front of the words fails its HCRC; it and the words after it are discarded, and the port is in
RESYNC. -/
def execHcrcFail (port : Fin 4) (s : State) : Res :=
  let p := port.val
  match (s.pt p).stream with
  | [] => .next s
  | w :: _ =>
    if s.portOn p = false ∨ wordOk w = true then .next s
    else .next ((((s.lnkFault p lfHcrc loHcrc).bumpStat (LNK_P_HCRC_CNT p)).setB (LNK_P_STAT__RESYNC p) true).dropWords p)

/-! ### Port configuration and life cycle (R102, R108) -/

/-- The lanes of running ports that a partition or analogue test holds (spec/22, R410; log 30). -/
def State.linkTested (s : State) (p : Nat) : Bool :=
  s.bist 0 || (match s.analogue 1 with | some m => (s.portLanes p).any (fun l => bitAt m l) | none => false)

/-- LNK_CONFIG_PORT (R84, R85, R102, R108). A CW of 8 to 15, which LNK_Pp_CFG does not allow, is BAD_PARAM naming word 0 (log 94). -/
def execLnkConfigPort (p : Pkt) (s : State) : Res :=
  .next (runOp 0x0100 p s (fun s =>
    let c := p.idx
    if s.on (LNK_P_CFG__EN c) then (s, some (refuse stState 0x8002))
    else if 7 < p.b 0 8 4 ∨ lanesOk (p.b 0 1 5) = false then (s, some (badWord 0))
    else if p.w 2 < 20 ∨ 128 < p.w 2 then (s, some (badWord 2))
    else
      let s0 := s
      let s := s.wn (LNK_P_CFG c) (p.w 0 / 2 * 2)
      let s := s.setF (LNK_P_FRAME_TMO__TMO_US c) (p.w 1)
      let s := (s.portQuads c).foldl (fun s q => s.setF (LNK_QCFG__RATE q) (p.w 2)) s
      ((s.lockCheck c).powerLanes.commitSince s0, some ok)))

/-- Ports whose quads two maps give differently. -/
def qmapMoved (m n : Nat) : List Nat := (List.range 4).filter (fun p => qmapQuads m p != qmapQuads n p)

/-- Put a quad map in place. -/
def State.setQmap (s : State) (m : Nat) : State :=
  let moved := qmapMoved (s.f LNK_QMAP__QMAP) m
  let s' := (moved.foldl State.lockCheck (s.setF LNK_QMAP__QMAP m)).powerLanes
  s'.commitSince s

/-- LNK_MAP_QUADS (R83, R102, R108). -/
def execLnkMapQuads (p : Pkt) (s : State) : Res :=
  .next (runOp 0x0101 p s (fun s =>
    let m := p.b 0 0 18
    if qmapOk m = false then (s, some (badWord 0))
    else if (qmapMoved (s.f LNK_QMAP__QMAP) m).any (fun p => s.on (LNK_P_CFG__EN p)) then (s, some (refuse stState 0x8002))
    else
      let s := if p.t 0 31 then s.setF LNK_QMAP__QMAP_ERR 0 else s
      (s.setQmap m, some ok)))

/-- LNK_START (R85, R90, R108; spec/22, R410). A port whose EN is already 1 is refused STATE with DETAIL 0x8002, "port is running", which
Table 5-5 does not list here (log 94). -/
def execLnkStart (p : Pkt) (s : State) : Res :=
  let h := s.pktHdr 0x0102 p
  .next (runOp 0x0102 p s (fun s =>
    let c := p.idx
    if s.on (LNK_P_CFG__EN c) ∨ s.linkTested c = true then (s, some (refuse stState 0x8002))
    else
      match (s.pt c).profile with
      | none => (s, some (refuse stState 0x8003))
      | some f =>
        let rates := (s.portQuads c).map (fun q => s.f (LNK_QCFG__RATE q))
        if rates.any (fun r => r != rates.getD 0 r) then (s, some (refuse stBadParam 0x8001))
        else
          let s := (s.setB (LNK_P_CFG__EN c) true).setB (LNK_P_STAT__RESYNC c) false
          let s := (s.modPt c (fun q => { q with lastFn := none, relock := false })).dropWords c
          let s := s.queueSeq c f f.startSeq
          if s.on (LNK_P_STAT__LOCKED c) then (s, some (ok [s.f (LNK_P_SKEW__SKEW_UI c)]))
          else (s.modPt c (fun q => { q with startWait := some h }), none)))

/-- LNK_LOCK_TIMEOUT (R108): no lock within 50 ms of LNK_START; EN stays 1. -/
def execLnkLockTimeout (port : Fin 4) (s : State) : Res :=
  match (s.pt port.val).startWait with
  | none => .next s
  | some h => .next ((s.modPt port.val (fun q => { q with startWait := none })).finishF h (refuse stState 0x8004))

/-- LNK_STOP (R101, R108). STOP_STREAM goes out on a port whose EN is 0 too. -/
def execLnkStop (p : Pkt) (s : State) : Res :=
  let h := s.pktHdr 0x0103 p
  .next (runOp 0x0103 p s (fun s =>
    let c := p.idx
    let s := s.modPt c (fun q => { q with queue := [], setDue := false })
    let s := match (s.pt c).profile with
      | some f => s.queueSeq c f f.stopSeq
      | none => s
    if s.on (LNK_P_CFG__EN c) = false then (s, some ok)
    else
      let s := if p.t 0 0 then s.truncateFrame c 3 else s
      if (s.rw_ c).frame.isSome then (s.modPt c (fun q => { q with stopWait := some h }), none)
      else ((s.setB (LNK_P_CFG__EN c) false).channelNext c, some ok)))

/-- LNK_STOP_WAIT_EXPIRY (R101, R108): FRAME_TMO passes and the frame in progress has not closed. -/
def execLnkStopWaitExpiry (port : Fin 4) (s : State) : Res :=
  .next (if (s.pt port.val).stopWait.isNone then s else (s.truncateFrame port.val 3).lnkStopped port.val)

/-- LNK_STATUS (R108). -/
def execLnkStatus (p : Pkt) (s : State) : Res :=
  .next (runOp 0x0108 p s (fun s =>
    let c := p.idx
    (s, some (ok [s.lnkStat c, s.rn (LNK_P_ERR c), s.rn (LNK_P_SKEW c), s.rn (LNK_P_RESYNC_CNT c), s.rn (LNK_P_FRAME_CNT c)
      , s.rn (LNK_P_SNS_FN c), s.lnkSetq c, s.rn (LNK_P_LAST_TAG c), s.rn (LNK_P_LAST_FID c), s.rn (LNK_P_DMG_CNT c)]))))

/-! ### Sensor profiles (Table 5-3, R451) -/

/-- A little-endian field of a buffer. -/
def fieldAt (bs : List Byte) (a n : Nat) : Nat := leNat ((bs.drop a).take n)

/-- Sequence pointer `i` of a profile of `len` bytes; none when it breaks R451. -/
def profileSeq (bs : List Byte) (len i : Nat) : Option (List Nat) :=
  let o := fieldAt bs (48 + 4 * i) 2
  let n := fieldAt bs (50 + 4 * i) 2
  if n = 0 then some []
  else if o % 4 ≠ 0 ∨ o < 64 ∨ len < o + 4 * n ∨ 16368 < n then none
  else some ((wordsOf ((bs.drop o).take (4 * n))))

/-- The fixed fields of a profile are in range (Table 5-3, R103). -/
def profileOk (bs : List Byte) : Bool :=
  let f := fieldAt bs
  f 0 4 == 0x50534C46 && f 4 2 == 0x0100 && decide (64 ≤ f 6 2) && decide (f 6 2 ≤ bs.length) && f 24 2 != 0 && f 26 2 != 0
    && decide (f 28 1 ≤ 3) && decide (1 ≤ f 29 1) && decide (f 29 1 ≤ 3) && decide (f 30 1 ≤ 7) && decide (f 31 1 ≤ 7)
    && decide (f 32 2 < f 26 2) && (bitAt (f 30 1) 1 || decide (f 36 1 ≤ 127)) && decide (f 37 1 ≤ 2) && decide (14 ≤ f 38 2)
    && decide (f 40 2 ≤ 40950) && f 42 6 == 0

/-- A profile read from a buffer; none when it is malformed. -/
def parseProfile (bs : List Byte) : Option Profile :=
  let f := fieldAt bs
  let len := f 6 2
  if profileOk bs = false then none
  else
    match profileSeq bs len 0, profileSeq bs len 1, profileSeq bs len 2, profileSeq bs len 3 with
    | some a, some b, some c, some d => some {
        identity := (bs.drop 8).take 16, width := f 24 2, height := f 26 2, sbits := f 28 1, readouts := f 29 1
        embedded := bitAt (f 30 1) 0, k := f 31 1, i2cAddr := f 36 1, regWidth := f 37 1, startSeq := a, stopSeq := b
        holdBegin := c, holdEnd := d }
    | _, _, _, _ => none

/-- SNS_LOAD_PROFILE (R30, R108, R451). -/
def execSnsLoadProfile (p : Pkt) (s : State) : Res :=
  .next (runOp 0x0104 p s (fun s => s.refGuard (p.ref 0) 0 (fun s =>
    let c := p.idx
    if s.on (LNK_P_CFG__EN c) then (s, some (refuse stState 0x8002))
    else
      match s.readRef (p.ref 0) p.buf with
      | none => (s.bufError .lnk (p.ref 0) p.buf, some readFault)
      | some bs =>
        match parseProfile bs with
        | none => (s, some (refuse stBadParam 0x8005))
        | some f =>
          let g := fieldAt bs
          let s0 := s
          let s := s.modPt c (fun q => { q with profile := some f })
          let s := s.setF (LNK_P_SCC__STRETCH_MAX c) (ceilDiv (g 40 2) 10)
          let s := s.setF (LNK_P_SCC__DIV c) (g 38 2)
          let s := s.setB (LNK_P_SCC__SPI c) (bitAt (g 30 1) 1)
          let s := s.setB (LNK_P_SCC__SPI_MODE3 c) (bitAt (g 30 1) 2)
          let s := (s.setF (LNK_P_SET_CFG__SET_WINDOW_US c) (g 34 2)).setF (LNK_P_SET_CFG__SET_LINE c) (g 32 2)
          ((s.setF (LNK_P_SETQ__K c) f.k).commitSince s0, some ok))))

/-! ### The control channel and settings (R103 to R106) -/

/-- Bit clocks of a transfer of `n` bytes on port `p`'s channel (R106). -/
def State.xferBits (s : State) (p n : Nat) : Nat := if s.on (LNK_P_SCC__SPI p) then 8 * n + 1 else 9 * n + 2

/-- Time of `bits` bit clocks in thirds of a ns: a bit takes (DIV + 1) ÷ 750 MHz (R103). -/
def State.bitTime (s : State) (p bits : Nat) : Nat := bits * (s.f (LNK_P_SCC__DIV p) + 1) * 4

/-- Transfer time of a set's entries in thirds of a ns; delays are no transfer (R106). -/
def State.setTime (s : State) (p : Nat) (f : Profile) (es : List Nat) : Nat :=
  ((s.seqBytes p f es).map (fun bs => s.bitTime p (s.xferBits p bs.length))).sum

/-- SNS_QUEUE_SETTINGS (R105, R106, R108). Without a profile there is nothing to write the entries with: STATE with DETAIL 0x8003, "no
profile loaded", which Table 5-5 gives for LNK_START only (log 94). -/
def execSnsQueueSettings (p : Pkt) (s : State) : Res :=
  .next (runOp 0x0106 p s (fun s =>
    let c := p.idx
    if p.w 0 = 0 then (s, some (badWord 0))
    else
      match (s.pt c).profile with
      | none => (s, some (refuse stState 0x8003))
      | some f =>
        let es := (List.range (p.b 1 0 8)).map (fun i => p.w (4 + i))
        if 3000 * s.f (LNK_P_SET_CFG__SET_WINDOW_US c) < s.setTime c f es then (s, some (refuse stBandwidth 0x8006))
        else if 8 ≤ (s.pt c).queue.length then (s, some (refuse stNoResource 0x8009))
        else
          let s := s.modPt c (fun q => { q with queue := q.queue ++ [⟨p.w 0, es⟩] })
          (s, some (ok [(s.pt c).queue.length]))))

/-- Bytes that a transfer moves on the channel's wire, its I²C addresses among them. -/
def State.wireBytes (s : State) (c n m : Nat) : Nat := n + m + (if s.on (LNK_P_SCC__SPI c) then 0 else if n = 0 ∨ m = 0 then 1 else 2)

/-- SNS_CTRL_XFER (R103, R104, R108). Buffers shorter than the counts of word 1 are BAD_PARAM naming it; with no frame period measured yet
0x800B is not answered and the transfer waits (log 94). -/
def execSnsCtrlXfer (p : Pkt) (s : State) : Res :=
  let h := s.pktHdr 0x0105 p
  .next (runOp 0x0105 p s (fun s =>
    let c := p.idx
    let n := p.b 1 0 16
    let m := p.b 1 16 16
    if 4096 < n ∨ 4096 < m ∨ (p.ref 4).len < n ∨ (p.ref 8).len < m then (s, some (badWord 1))
    else s.refGuard (p.ref 4) 4 (fun s => s.refGuard (p.ref 8) 8 (fun s =>
      let frame := 3 * ((s.pt c).frameNs - 1000 * s.f (LNK_P_SET_CFG__SET_WINDOW_US c))
      if s.on (LNK_P_CFG__EN c) ∧ (s.pt c).frameNs ≠ 0 ∧ frame < s.bitTime c (s.xferBits c (s.wireBytes c n m)) then
        (s, some (refuse stBandwidth 0x800B))
      else
        match (if n = 0 then some [] else s.readRef (p.ref 4) p.buf) with
        | none => (s.bufError .lnk (p.ref 4) p.buf, some readFault)
        | some bs =>
          let r := p.ref 8
          let x : Xfer := {
            hdr := some h, addr := p.b 0 0 7, noStop := p.t 0 8, write := bs.take n, readLen := m
            readRef := (r.addr, r.len, r.space), running := false }
          ((s.modPt c (fun q => { q with xfer := q.xfer ++ [x] })).channelNext c, none)))))

/-- When line SET_LINE next begins (R104; log 95): in this frame at the line period last measured; else a frame period after the latest one.
None where the period has not been measured. -/
def State.nextSetLine (s : State) (p : Nat) : Option Nat :=
  let q := s.pt p
  let line := s.f (LNK_P_SET_CFG__SET_LINE p)
  let later := if q.frameNs = 0 then none else q.setLineNs.map (· + q.frameNs)
  match q.lastLineNs with
  | some t => if q.lastLine < line then (if q.lineNs = 0 then none else some (t + (line - q.lastLine) * q.lineNs)) else later
  | none => later

/-- A control transfer of a running port ends before the next SET_LINE (R104). -/
def State.xferFits (s : State) (p : Nat) (x : Xfer) : Bool :=
  match s.nextSetLine p with
  | none => false
  | some t => decide (3 * s.now + s.bitTime p (s.xferBits p (s.wireBytes p x.write.length x.readLen)) < 3 * t)

/-- SNS_XFER_START (R104): the job at the head can end before the next SET_LINE, or the port is stopped. -/
def execSnsXferStart (port : Fin 4) (s : State) : Res :=
  let p := port.val
  match (s.pt p).xfer with
  | [] => .next s
  | x :: _ =>
    .next (if s.channelFree p ∧ (s.on (LNK_P_CFG__EN p) = false ∨ x.hdr.isNone ∨ s.xferFits p x = true) then s.startXfer p else s)

/-- SNS_XFER_DONE (R103, R104, R108): the job that runs ends: a control transfer with the data read, or either kind on NACK or the stretch
limit, which ends a whole sequence (log 91). -/
def execSnsXferDone (port : Fin 4) (e : XferEnd) (s : State) : Res :=
  let p := port.val
  match (s.pt p).xfer with
  | [] => .next s
  | x :: t =>
    if x.running = false then .next s
    else
      let s := s.modPt p (fun q => { q with xfer := t })
      let s := match xferStop e with
        | none => s
        | some _ => s.raise (LNK_P_ERR__NACK p)
      .next (match x.hdr with
        | none => (s.sendSeq p x.seq (xferStop e)).channelNext p
        | some h =>
          let s := s.sendXfer p x (xferStop e)
          let s := match e with
            | .done bs =>
              (s.writeRef ⟨x.readRef.1, x.readRef.2.1, x.readRef.2.2⟩ (padBytes x.readLen bs)).finishF h (ok [x.write.length + x.readLen])
            | .nack i => s.finishF h (refuse stHwFault 0x8007 [i, i])
          s.channelNext p)

/-- FID `f` and `k` placements on. -/
def fidPlus (f : Nat) : Nat → Nat
  | 0 => f
  | k + 1 => fidNext (fidPlus f k)

/-- A settings write has completed: its tag takes effect from frame N + K (R105, R106). -/
def State.setTag (s : State) (p : Nat) (w : SetWrite) : State :=
  let eff := fidPlus w.fid (s.f (LNK_P_SETQ__K p))
  let s := (s.wn (LNK_P_LAST_TAG p) w.set.tag).wn (LNK_P_LAST_FID p) eff
  match (s.rw_ p).frame with
  | some f =>
    if f.recorded ∧ serialLt f.fid eff = false then
      (s.modPt p (fun q => { q with tag := w.set.tag })).modIngest p (fun f => { f with tag := w.set.tag, setLate := w.late })
    else s.modPt p (fun q => { q with tags := q.tags ++ [(eff, w.set.tag, w.late)] })
  | none => s.modPt p (fun q => { q with tags := q.tags ++ [(eff, w.set.tag, w.late)] })

/-- SETTINGS_WRITE_DONE (R103, R105, R106): the write completes, or ends on NACK or the stretch limit. -/
def execSettingsWriteDone (port : Fin 4) (e : XferEnd) (s : State) : Res :=
  let p := port.val
  match (s.pt p).writing with
  | none => .next s
  | some w =>
    let s := s.modPt p (fun q => { q with writing := none })
    let s := match (s.pt p).profile with
      | some f => s.sendSeq p (s.seqBytes p f (f.holdBegin ++ w.set.entries ++ f.holdEnd)) (xferStop e)
      | none => s
    .next ((if (xferStop e).isSome then s.raise (LNK_P_ERR__NACK p) else s.setTag p w).channelNext p)

/-- SET_WINDOW_EXPIRY (R106): SET_WINDOW_US after SET_LINE a write still runs, or one that is due has not started. -/
def execSetWindowExpiry (port : Fin 4) (s : State) : Res :=
  let p := port.val
  let q := s.pt p
  if q.setDue then .next ((s.raise (LNK_P_ERR__SET_LATE p)).modPt p (fun q => { q with setDue := false }))
  else
    match q.writing with
    | some w => .next ((s.raise (LNK_P_ERR__SET_LATE p)).modPt p (fun q => { q with writing := some { w with late := true } }))
    | none => .next s

/-! ### Exposure triggers (R107) -/

/-- Name of TRGp. -/
def trgPin (p : Nat) : String := ["TRG0", "TRG1", "TRG2", "TRG3"].getD p ""

/-- Drive TRGp asserted or deasserted. -/
def State.driveTrg (s : State) (p : Nat) (a : Bool) : State :=
  (s.modPt p (fun q => { q with trg := a })).emit (.pin (trgPin p) (a != s.on (LNK_P_TRG__POL p)))

/-- A tick of cadence generator `f` reaches the triggers that select it. -/
def State.trgTick (s : State) (f : Nat) : State :=
  (List.range 4).foldl (fun s p =>
    if s.f (LNK_P_TRG__MODE p) ≠ 1 ∨ s.f (LNK_P_TRG__FCG p) ≠ f then s
    else if (s.pt p).trg then s.log .lnk evTrgOverlap (0x1000 + p)
    else s.modPt p (fun q => { q with trgDue := q.trgDue + 1 })) s

/-- TRG_ASSERT (R107): DELAY_NS after a tick. -/
def execTrgAssert (port : Fin 4) (s : State) : Res :=
  let p := port.val
  if (s.pt p).trgDue = 0 then .next s
  else
    let s := s.modPt p (fun q => { q with trgDue := q.trgDue - 1 })
    if s.f (LNK_P_TRG__MODE p) ≠ 1 then .next s
    else .next ((s.modPt p (fun q => { q with trgNs := s.now })).driveTrg p true)

/-- TRG_DEASSERT (R107): WIDTH_NS after the assertion. -/
def execTrgDeassert (port : Fin 4) (s : State) : Res :=
  .next (if (s.pt port.val).trg then s.driveTrg port.val false else s)

/-! ### Lane patterns (R109, R110) -/

/-- A write of LNK_Ll_PAT: a reserved MODE is ignored; a write of MODE clears BITS and ERRS, and the pattern starts and the checker seeds
anew. -/
def State.setPat (s : State) (l v : Nat) : State :=
  let old := s.f (LNK_L_PAT__MODE l)
  let s := s.wn (LNK_L_PAT l) (v % 64)
  if 5 ≤ v % 8 then s.setF (LNK_L_PAT__MODE l) old
  else
    let s := ((s.wn (LNK_L_BITS_LO l) 0).wn (LNK_L_BITS_HI l) 0).wn (LNK_L_ERRS l) 0
    let s := (s.setB (LNK_L_STAT__PAT_SYNC l) false).modLn l (fun q => { q with
      gen := patSeed (v % 8), frac := 0, check := {} })
    if v % 8 = 0 then s.powerLanes else s.laneLost l

/-- LNK_PATTERN (R108, R109). -/
def execLnkPattern (p : Pkt) (s : State) : Res :=
  .next (runOp 0x0107 p s (fun s =>
    let lanes := (List.range 24).filter (fun l => p.t 0 l)
    let free := (List.range 6).filter (fun q => lanes.any (fun l => l / 4 == q) && qmapOf (s.f LNK_QMAP__QMAP) q == 7)
    if lanes.any (fun l => (s.laneOwner l).any (fun o => s.on (LNK_P_CFG__EN o))) then (s, some (refuse stState 0x800A))
    else if free ≠ [] ∧ (p.w 2 < 20 ∨ 128 < p.w 2) then (s, some (badWord 2))
    else
      let s0 := s
      let s := free.foldl (fun s q => s.setF (LNK_QCFG__RATE q) (p.w 2)) s
      let s := lanes.foldl (fun s l => s.setPat l (p.w 1)) s
      (s.commitSince s0, some ok)))

/-- PAT_SYNC_CHANGE (R109): `bits` arrive on the lane, on which its checker gains or loses PAT_SYNC. -/
def execPatSyncChange (lane : Fin 24) (bits : List Bool) (s : State) : Res := .next (s.sensorBits lane.val bits)

/-- The next `n` generated bits are to be inverted, unless an injection is in progress (R110). -/
def State.injectBits (s : State) (l n : Nat) : State :=
  if (s.ln l).inject ≠ 0 then s else s.modLn l (fun q => { q with inject := n })

/-- INJECT_SINGLE (R110). -/
def execInjectSingle (lane : Fin 24) (s : State) : Res := .next (s.injectBits lane.val 1)

/-- INJECT_BURST (R110). -/
def execInjectBurst (lane : Fin 24) (len : Fin 64) (s : State) : Res := .next (s.injectBits lane.val (len.val + 1))

/-- `k` FAB ticks of a lane's pattern (R85, R109): its generator sends RATE ÷ 6 bits in each; NEAR_LOOP feeds them to the lane's checker. -/
def State.patTicks (s : State) (l k : Nat) : State :=
  let m := s.f (LNK_L_PAT__MODE l)
  if m = 0 ∨ s.on (LNK_L_PAT__GEN l) = false then s
  else
    let n := (s.ln l).frac + k * s.f (LNK_QCFG__RATE (l / 4))
    let r := LaneSt.generate m (n / 6) { s.ln l with frac := n % 6 }
    let s := s.modLn l (fun _ => r.2)
    if s.on (LNK_L_PAT__NEAR_LOOP l) then s.checkBits l r.1 else s

end Sys2Proof.Machine
end

