-- ==== Sys2Proof/Machine/Tmux.lean ====
section
/-!
DEFINITION. The test multiplexers' lands (spec/22_test_repair_debug.md, R420): what each selection code shows, and the edges of TMUX_CK. A
signal that is a pulse is shown by a count that has moved on since the edge before.
-/
namespace Sys2Proof.Machine
open Sys2Proof

/-- The signals of a code that are levels, lands 0 to 3 of the group (Table 22-7). -/
def State.tmuxLevel (s : State) (code : Nat) : List Bool :=
  let p := code % 0x10
  match code / 0x10 with
  | 1 => [s.on (LNK_P_STAT__LOCKED p), s.on (LNK_P_STAT__IN_FRAME p), s.on (LNK_P_STAT__RESYNC p), false]
  | 2 => [s.ladle.cur.isSome, false, false, false]
  | 3 => [(s.tg p).blank.isSome, false, (s.tg p).set && (s.tg p).blank.isNone, false]
  | 6 => [false, s.dmc.pass, s.f VQ_VPSTATE__VP == 1, decide (2 ≤ s.f VQ_VPSTATE__VP)]
  | 7 => [s.bit THM_STAT__BAND 0, s.bit THM_STAT__BAND 1, s.bit THM_STAT__BAND 2, s.on THM_STAT__SENSOR_FAULT]
  | 8 => [!s.bit VLT_TALLY__LEVELS 2, s.on VLT_TALLY__REC_ACTIVE, s.bit VLT_TALLY__OUT 0, s.bit VLT_TALLY__OUT 1]
  | 9 => [false, bitAt (s.rn TIM_NOW_NS) 29, false, false]
  | 10 => [false, decide (64 ≤ s.fwqUsed), false, s.dev.safe]
  | _ => [false, false, false, false]

/-- The counts behind the signals of a code that are pulses. -/
def State.tmuxCount (s : State) (code : Nat) : List Nat :=
  let p := code % 0x10
  let block := fun (q : Nat) => (s.ap q).k + b2n (s.on (AUD_P_STAT__RUN q))
  match code / 0x10 with
  | 1 => [0, 0, 0, s.rn (LNK_P_FRAME_CNT p)]
  | 2 => [0, 0, s.ladle.triggers, ((List.range 6).map (fun c => s.rn (CTX_C_SKIP_CNT c))).sum]
  | 3 => [0, s.rn (DSP_TG_FRAME_CNT p) + b2n (s.tg p).blank.isNone, 0, s.rn (DSP_TG_SLIP_CNT p) % 0x80000000]
  | 4 => (List.range 4).map (fun k => s.rn (FCG_TICK_CNT k))
  | 5 => (List.range 4).map (fun k => block (4 * p + k))
  | 6 => [(s.dmc.chan.toList.getD 0 {}).refs, 0, 0, 0]
  | 9 => [s.rn TIM_NOW_EPOCH, 0, s.rn TIM_STEP_CNT, s.net.ptpSent]
  | 10 => [s.cmd.replies, 0, s.rn CMD_TIMEOUT_CNT, 0]
  | _ => [0, 0, 0, 0]

/-- The lands of a group at an edge: a level, or a pulse since the edge before at which the group showed the same code. -/
def State.tmuxGroup (s : State) (code : Nat) (seen : Nat × List Nat) : List Bool :=
  let c := s.tmuxCount code
  (List.range 4).map (fun i =>
    (s.tmuxLevel code).getD i false || (seen.1 == code && decide (0 < (c.getD i 0 + 0x100000000 - seen.2.getD i 0) % 0x100000000)
      && decide ((c.getD i 0 + 0x100000000 - seen.2.getD i 0) % 0x100000000 < 0x80000000)))

/-- One FAB tick of the multiplexers: TMUX_CK is FAB ÷ 4 ÷ 2^DIV, and both groups are driven on its rising edge; with EN clear all nine
lands are low. -/
def State.tmuxTick (s : State) : State :=
  let t := s.tst
  let per := 4 * 2 ^ s.f TST_TMUX__DIV
  let n := (t.ckTick + 1) % per
  let c0 := s.f TST_TMUX__CODE0
  let c1 := s.f TST_TMUX__CODE1
  let ck := decide (n < per / 2)
  let t := if s.on TST_TMUX__EN = false then { t with ckTick := n, lands := List.replicate 9 false }
    else if n = 0 then { t with
      ckTick := n
      lands := s.tmuxGroup c0 t.seen0 ++ s.tmuxGroup c1 t.seen1 ++ [ck]
      seen0 := (c0, s.tmuxCount c0)
      seen1 := (c1, s.tmuxCount c1) }
    else { t with ckTick := n, lands := t.lands.take 8 ++ [ck] }
  { s with tst := t }

end Sys2Proof.Machine
end

