-- ==== Sys2Proof/Machine/Tim.lean ====
section
/-!
DEFINITION. The timebase, its steps, and the cadence generators' ticks (spec/17_time_network.md, R338 to R346, R353).
-/
namespace Sys2Proof.Machine
open Sys2Proof

/-! ### The counter (R338 to R340) -/

/-- ADDEND in units of 2^−32 ns. -/
def State.addend (s : State) : Nat := s.rn TIM_ADDEND_HI * 0x100000000 + s.rn TIM_ADDEND_LO

/-- Put a 96-bit timebase value in place; a change of TB_EPOCH raises TB_WRAP, with BACK when it fell (R338, R342). -/
def State.putTime (s : State) (v : Nat) (back : Bool) : State :=
  let e := v / 0x10000000000000000 % 0x100000000
  let old := s.rn TIM_NOW_EPOCH
  let s := ((s.wn TIM_NOW_FRAC v).wn TIM_NOW_NS (v / 0x100000000)).wn TIM_NOW_EPOCH e
  if e = old then s
  else (s.log .tim evTbWrap 0xFFFF e (b2n back)).pendIf TIM_IRQ__PEND 0 (s.on TIM_IRQ__EN) 31

/-- The bits of the lane patterns that pass in `n` FAB ticks (R109). -/
def State.laneTicks (s : State) (n : Nat) : State := (List.range 24).foldl (fun s l => s.patTicks l n) s

/-- `n` FAB ticks (R338), and the bits of the lane patterns that pass in them (R109). -/
def State.fabTicks (s : State) (n : Nat) : State :=
  let s := s.laneTicks n
  s.putTime (s.nowFx + n * s.addend) false

/-- One FAB tick, and the lands of the test multiplexers (spec/22, R420). -/
def State.fabTick (s : State) : State := (s.fabTicks 1).tmuxTick

/-- The logic runs: its clocks count (log 37). -/
def State.clocked (s : State) : Bool := s.dev.ready

/-- FAB ticks up to the one on which the ns count carries. -/
def State.ticksToWrap (s : State) : Nat := ceilDiv (0x10000000000000000 - s.nowFx % 0x10000000000000000) s.addend

/-- TB_WRAP (R338): the FAB ticks up to the one that carries out of the ns count (log 37). -/
def execTbWrap (s : State) : Res := .next (if s.clocked then s.fabTicks s.ticksToWrap else s)

/-- Hold a high word for a later read by the same master (spec/00, R6). -/
def State.hold (s : State) (master : Byte) (reg : Nat) (v : W32) : State :=
  { s with latch := (master, reg, v) :: s.latch.filter (fun x => !(x.1 == master && x.2.1 == reg)) }

/-- TIM_NOW_NS (R340): the read returns the ns count, and holds epoch and fraction of the same tick. -/
def execTimNowNs (master : Byte) (s : State) : Res :=
  if s.shut master then .next (s.emit (.word 0))
  else
  let s := (s.hold master TIM_NOW_EPOCH (s.rd TIM_NOW_EPOCH)).hold master TIM_NOW_FRAC (s.rd TIM_NOW_FRAC)
  .next (s.emit (.word (s.rd TIM_NOW_NS)))

/-- TIM_GET (R340, R353). -/
def execTimGet (p : Pkt) (s : State) : Res :=
  .next (runOp 0x0A02 p s (fun s =>
    (s, some (ok [s.rn TIM_NOW_NS, s.rn TIM_NOW_EPOCH, s.rn TIM_NOW_FRAC, s.rn TIM_ADDEND_LO, s.rn TIM_ADDEND_HI]))))

/-- TIM_SET_ADDEND (R339). -/
def execTimSetAddend (p : Pkt) (s : State) : Res :=
  .next (runOp 0x0A00 p s (fun s =>
    let a := p.q 0
    if a < 0x154FDF3B6 ∨ 0x155ACB6F4 < a then (s, some (refuse stBadParam 0x8002))
    else ((s.wn TIM_ADDEND_LO (p.w 0)).wn TIM_ADDEND_HI (p.w 1), some ok)))

/-! ### Steps (R342 to R344) -/

/-- A step of `d` units of 2^−32 ns moves the stripes not yet started (R138, R344). -/
def ProcFrame.stepped (f : ProcFrame) (d : Int) : ProcFrame :=
  let mv := fun (t : Nat) => ofInt 32 (t + d / 0x100000000)
  { f with
    landed := f.landed.take f.started ++ (f.landed.drop f.started).map mv
    startNs := if f.src.isSome then mv f.startNs else f.startNs }

/-- The consumers of an applied step: the Ladle, the cadence generators, and frames fetched for transmission (R344, R352).
Display clocks, sensor links and the streamer's pace keep their instants, so what the model counts from them moves with the timebase. -/
def State.stepConsumers (s : State) (d : Int) : State :=
  let ns := d / 0x100000000
  let mv := fun (t : Nat) => (t + ns).toNat
  let s := (List.range 6).foldl (fun s c => s.modCx c (fun q => { q with frames := q.frames.map (·.stepped d) })) s
  let s := (List.range 4).foldl (fun s p => s.modPt p (fun q => { q with
    lastLineNs := q.lastLineNs.map mv, lastFrameNs := q.lastFrameNs.map mv, setLineNs := q.setLineNs.map mv, trgNs := mv q.trgNs }))
    s
  let s := (List.range 2).foldl (fun s q => s.modDpt q (fun d => { d with
    anc := d.anc.map (fun (a : AncPkt) => { a with since := mv a.since }) })) s
  let s := (List.range 16).foldl (fun s i => s.modEs i (fun e => { e with tokenNs := e.tokenNs.map mv })) s
  let s := (List.range 4).foldl (fun s t => s.modTg t (fun g => { g with t0 := g.t0 + ns })) s
  let s := { s with net := { s.net with tx := s.net.tx.map (Option.map (fun t => { t with stepped := true })) } }
  (List.range 4).foldl (fun s k =>
    let s := s.modFcg k (fun f => { f with last := f.last.map (· + d) })
    if (s.fcg k).live.en then s.fcgMove k else s) s

/-- A signed distance in the 96-bit timebase, the shortest one. -/
def short96 (d : Int) : Int :=
  let m : Int := 2 ^ 96
  (d + m / 2) % m - m / 2

/-- TIM_STEP (R342 to R344, R353). -/
def execTimStep (p : Pkt) (s : State) : Res :=
  .next (runOp 0x0A01 p s (fun s =>
    let tick : Int := ((s.nowFx + s.addend : Nat) : Int) % 2 ^ 96
    let d : Int := if p.t 0 1 then short96 ((p.w 2 * 0x10000000000000000 + p.w 1 * 0x100000000 + p.w 3 : Nat) - tick)
      else sext 64 (p.q 1) * 0x100000000
    let whole := ofInt 64 (d / 0x100000000)
    if s.rn TIM_STEP_LIMIT * 0x100000000 < d.natAbs ∧ p.t 0 0 = false then
      let s := s.raise TIM_ERR__TB_STEP_REFUSED
      (s.log .tim evTbStepRefused 0xFFFF (whole % 0x100000000) (whole / 0x100000000) (ofInt 32 d), some (refuse stBadParam 0x8001))
    else
      let s := if p.t 0 0 then s.raise TIM_ERR__FORCED else s
      let s := (s.laneTicks 1).putTime (((tick + d) % 2 ^ 96).toNat) (decide (d + s.addend < 0))
      let s := (s.bumpEvt .tim TIM_STEP_CNT).stepConsumers d
      (s, some (ok [whole % 0x100000000, whole / 0x100000000, s.rn TIM_NOW_NS, s.rn TIM_NOW_EPOCH, ofInt 32 d]))))

/-! ### Cadence generators (R345, R346) -/

/-- A configuration takes effect: CFG and PERIOD show it, COMMIT_SEQ moves on, and a running generator takes its grid. -/
def State.fcgApply (s : State) (k : Nat) (c : FcgCfg) : State :=
  let s0 := s
  let s := s.modFcg k (fun f => { f with live := c, next := none })
  let s := s.setB (FCG_CFG__EN k) c.en
  let s := (s.wn (FCG_PERIOD_LO k) c.period).wn (FCG_PERIOD_HI k) (c.period / 0x100000000)
  let s := s.commitSince s0
  if c.en then s.fcgMove k else s

/-- FCG_CONFIGURE (R345, R346, R353). -/
def execFcgConfigure (p : Pkt) (s : State) : Res :=
  .next (runOp 0x0A03 p s (fun s =>
    let k := p.b 0 0 2
    let per := p.q 3
    if per < 1000000 * 0x100000000 ∨ 2000000000 * 0x100000000 < per then (s, some (refuse stBadParam 0x8003))
    else
      let c : FcgCfg := { en := p.t 0 4, origin := p.w 2 * 0x100000000 + p.w 1, period := per }
      (if (s.fcg k).live.en then s.modFcg k (fun f => { f with next := some c }) else s.fcgApply k c, some ok)))

/-- Composers that no generator drives and that this cadence generator paces latch next (R292). -/
def State.fcgCmp (s : State) (g : Nat) : State :=
  (List.range 4).foldl (fun s n =>
    let u := s.cmpU n
    let set := match u.set with
      | some x => some x
      | none => u.live
    if (s.tgOf n).isNone && set.any (fun x => x.pace && x.fcg == g) then s.modCmp n (fun u => { u with due := true }) else s) s

/-- FCG_TICK (R107, R147, R292, R334, R345, R346): a running generator fires tick k once the timebase has reached it. -/
def execFcgTick (fcg : Fin 4) (s : State) : Res :=
  let g := fcg.val
  let f := s.fcg g
  if f.live.en = false ∨ (s.nowFx : Int) < f.live.at_ f.k then .next s
  else
    let s := s.bumpEvt .tim (FCG_TICK_CNT g)
    let s := s.modFcg g (fun q => { q with last := some (f.live.at_ f.k) })
    let s := match f.next with
      | some c => s.fcgApply g c
      | none => (s.modFcg g (fun q => { q with k := q.k + 1 })).fcgShow g
    let s := (s.trgTick g).fcgCmp g
    .next ((s.audStartDue (fun x => x.fcg == some g)).fcgPace g)

end Sys2Proof.Machine
end

