-- ==== Sys2Proof/Machine/Net.lean ====
section
/-!
DEFINITION. The network port: transmit queues, receive ring, launch times, one-step PTP (spec/17_time_network.md, R347
to R353).
-/
namespace Sys2Proof.Machine
open Sys2Proof

def State.modNet (s : State) (g : NetSt → NetSt) : State := { s with net := g s.net }

/-- Big-endian number that bytes spell. -/
def beNat (bs : List Byte) : Nat := bs.foldl (fun n b => 256 * n + b.toNat) 0
/-- A little-endian field of a descriptor. -/
def descF (d : List Byte) (a n : Nat) : Nat := leNat ((d.drop a).take n)

/-! ### Rings (R348): index 0 TQ0, 1 TQ2, 2 receive -/

def State.netN (s : State) (q : Nat) : Nat := 2 ^ s.f (NET_R_CFG__LOG2N q)
/-- Descriptors that wait for the device. -/
def State.netWaiting (s : State) (q : Nat) : Nat :=
  let m := 2 * s.netN q
  (s.net.tail.getD q 0 + m - s.f (NET_R_HEAD__HEAD q) % m) % m
/-- Address of the descriptor at HEAD. -/
def State.netAddr (s : State) (q : Nat) : Nat :=
  s.rn (NET_R_BASE_HI q) * 0x100000000 + s.f (NET_R_BASE_LO__BASE_LO q) * 0x1000 + 32 * (s.f (NET_R_HEAD__HEAD q) % s.netN q)
/-- Bytes of a ring's space: the working region, or what the host holds. -/
def State.netRef (s : State) (q a n : Nat) : BufRef := ⟨a, n, s.f (NET_R_CFG__SPACE q)⟩
def State.netRead (s : State) (q a n : Nat) (h : HostRead) : Option (List Byte) := s.readRef (s.netRef q a n) h

/-- Write the descriptor at HEAD back as one 32-byte write with its PHASE, and move HEAD on (R31, R348). -/
def State.netBack (s : State) (q : Nat) (bs : List Byte) : State :=
  let head := s.f (NET_R_HEAD__HEAD q)
  let phase := bitAt head (s.f (NET_R_CFG__LOG2N q)) == false
  let all := padBytes 31 bs ++ [BitVec.ofNat 8 (128 * b2n phase)]
  let r := s.netRef q (s.netAddr q) 32
  let s := (s.writeRef r all).refUse r
  let s := s.setF (NET_R_HEAD__HEAD q) ((head + 1) % (2 * s.netN q))
  s.pendIf NET_IRQ__PEND 0 (s.on (if q = 2 then NET_IRQ__RX else NET_IRQ__TX)) 28

/-! ### Transmit descriptors (R349, Table 17-3) -/

def txLen (d : List Byte) : Nat := descF d 8 2
def txFlags (d : List Byte) : Nat := descF d 10 2
def txOfs (d : List Byte) : Nat := descF d 12 2
def txEncap (d : List Byte) : Nat := bitsAt (txFlags d) 3 2
/-- End of the UDP payload of an ENCAP 2 frame, from its UDP length (R352). -/
def udpEnd (d data : List Byte) : Nat := txOfs d - 8 + beNat ((data.drop (txOfs d - 4)).take 2)

/-- R349. -/
def txBad (q mtu : Nat) (d data : List Byte) : Bool :=
  let f := txFlags d
  let one := bitAt f 1
  decide (txLen d < 60) || decide (9018 < txLen d) || decide (mtu + 18 < txLen d) || decide (32 ≤ f) || txEncap d == 3
    || (q == 1 && bitAt f 2) || (one && decide (txLen d < txOfs d + 34))
    || (one && txEncap d == 1 && decide (txOfs d < 42)) || (one && txEncap d == 2 && decide (txOfs d < 62))
    || (one && txEncap d == 2 && decide (txLen d < udpEnd d data))

/-- A transmit write-back: the first 16 bytes as written, stamp, status, flags. -/
def txBack (d : List Byte) (stamp : Nat) (status flags : Nat) : List Byte :=
  padBytes 16 d ++ leBytes 4 (stamp / 0x100000000) ++ leBytes 4 (stamp / 0x10000000000000000) ++ leBytes 2 (stamp / 0x10000)
    ++ leBytes 2 status ++ leBytes 1 flags

/-- Fetch the head of a transmit queue from what is given for it; descriptors that are bad, cannot be read, or meet a link
that is down complete at once (R348, R349), at most `k`. The buffer of a descriptor bad by its own bytes is not read. -/
def State.netFetch (q : Nat) : Nat → List NetFetch → State → State
  | 0, _, s => s
  | k + 1, fs, s =>
    if (s.net.tx.getD q none).isSome ∨ s.netWaiting q = 0 then s
    else
      let s := s.refUse (s.netRef q (s.netAddr q) 32)
      let host := s.f (NET_R_CFG__SPACE q) == 0
      if host ∧ fs.isEmpty = true then s
      else
        let f := fs.headD ⟨.bytes [], .bytes []⟩
        match s.netRead q (s.netAddr q) 32 f.desc with
        | none => State.netFetch q k fs.tail ((s.bufError .net (s.netRef q (s.netAddr q) 32) f.desc).netBack q (txBack [] 0 2 0))
        | some d =>
          if s.on NET_STAT__LINK = false then State.netFetch q k fs.tail (s.netBack q (txBack d 0 1 0))
          else
            match if txBad q s.net.mtu d [] then some [] else s.netRead q (descF d 0 8) (txLen d) f.data with
            | none => State.netFetch q k fs.tail ((s.bufError .net (s.netRef q (descF d 0 8) (txLen d)) f.data).netBack q (txBack d 0 2 0))
            | some data =>
              if txBad q s.net.mtu d data then State.netFetch q k fs.tail (s.netBack q (txBack d 0 3 0))
              else
                let launch := bitAt (txFlags d) 2
                let t : TxFrame := { desc := d, data := data, failed := false, stepped := false, held := false, lateLaunch := false }
                let t := { t with
                  held := launch && decide (s.now < t.launch), lateLaunch := launch && decide (t.launch + 1000000 < s.now) }
                s.modNet (fun n => { n with tx := n.tx.set q (some t) })

/-- Fetch what waits. -/
def State.netMore (s : State) (q : Nat) (fs : List NetFetch) : State := State.netFetch q (s.netWaiting q) fs s

/-- NET_DB (R24, R348, R349, R351): a new tail, unless it is out of range, more than a ring ahead of HEAD, or behind the last
tail. -/
def execNetDb (ring : Fin 3) (v : W32) (fetch : List NetFetch) (s : State) : Res :=
  let q := ring.val
  let t := v.toNat % 0x2000
  let m := 2 * s.netN q
  let ahead := (t + m - s.f (NET_R_HEAD__HEAD q) % m) % m
  if s.shut 0 ∨ s.net.configured = false ∨ m ≤ t ∨ s.netN q < ahead ∨ ahead < s.netWaiting q then .next s
  else
    let s := s.modNet (fun n => { n with tail := n.tail.set q t })
    .next (if q < 2 then s.netMore q fetch else s)

/-- NET_LAUNCH (R351): the timebase reaches the LAUNCH time of the frame held at the head of TQ0. -/
def execNetLaunch (s : State) : Res :=
  match s.net.tx.getD 0 none with
  | some t => .next (if t.launch ≤ s.now then s.modNet (fun n => { n with tx := n.tx.set 0 (some { t with held := false }) }) else s)
  | none => .next s

/-! ### Egress (R350 to R352) -/

/-- The timebase with a board adjustment in ns, in units of 2^−32 ns (R350). -/
def State.netStamp (s : State) (adj : Int) : Nat := ((s.nowFx + adj * 0x100000000) % 2 ^ 96).toNat

/-- The correction added to correctionField (R352). -/
def ptpAdd (stamp ref : Nat) : Int := sext 32 (stamp / 0x100000000 + 0x100000000 - ref) * 65536 + (stamp / 0x10000 % 0x10000 : Nat)

/-- Sum of the big-endian 16-bit words of eight bytes. -/
def words16 (bs : List Byte) : Nat := beNat (bs.take 2) + beNat ((bs.drop 2).take 2) + beNat ((bs.drop 4).take 2) + beNat ((bs.drop 6).take 2)

/-- R352: correctionField and checksums of a ONESTEP frame. -/
def oneStep (d data : List Byte) (stamp : Nat) : List Byte :=
  let o := txOfs d + 8
  let old := (data.drop o).take 8
  let new := beBytes 8 (ofInt 64 (beNat old + ptpAdd stamp (descF d 16 4)))
  let f := patch data o new
  match txEncap d with
  | 1 => patch f (txOfs d - 2) [0, 0]
  | 2 =>
    let e := udpEnd d data
    let t := (words16 old + 65535 * 8 - words16 new) % 65535
    let odd := (e - (txOfs d - 8)) % 2 == 1
    patch f (e - 2) (if odd then leBytes 2 t else beBytes 2 t)
  | _ => f

/-- The frame at the head of a transmit queue may leave: TQ0 once it is not held, TQ2 when neither TQ0 nor a packet of the streamer
comes first (R348, R351). -/
def State.mayLeave (s : State) (q : Nat) (t : TxFrame) : Bool :=
  s.on NET_STAT__LINK && (if q = 0 then !t.held
    else !s.tq0Blocks (max 60 t.data.length) && !(List.range 16).any (fun i => (s.tq1Head i).any s.tq1May))

/-- Offset of the payload's EtherType, past a VLAN tag. -/
def typeOfs (f : List Byte) : Nat := if beNat ((f.drop 12).take 2) = 0x8100 then 16 else 12
/-- PTP flag of R350. -/
def isPtp (f : List Byte) : Bool :=
  let o := typeOfs f
  let t := beNat ((f.drop o).take 2)
  let g := fun (a n : Nat) => beNat ((f.drop (o + 2 + a)).take n)
  let port := fun (a : Nat) => g a 2 == 319 || g a 2 == 320
  t == 0x88F7 || (t == 0x0800 && g 9 1 == 17 && port (4 * (g 0 1 % 16) + 2)) || (t == 0x86DD && g 6 1 == 17 && port 42)

/-- NET_TX_EGRESS (R347 to R352): the head of TQ0 or TQ2 leaves and is written back; the next is fetched. -/
def execNetTxEgress (queue : Fin 2) (fetch : List NetFetch) (s : State) : Res :=
  let q := queue.val
  match s.net.tx.getD q none with
  | none => .next (s.netMore q fetch)
  | some t =>
    if s.mayLeave q t = false then .next s
    else
      let f := txFlags t.desc
      let stamp := s.netStamp s.net.txAdj
      let data := if bitAt f 1 then oneStep t.desc t.data stamp else t.data
      let s := (s.emit (.netFrame (data ++ List.replicate (60 - data.length) 0))).bumpEvt .net NET_TX_CNT
      let s := s.netBack q (txBack t.desc (if f % 4 = 0 then 0 else stamp) 0
        (b2n (t.stepped && bitAt f 1) + 2 * b2n t.lateLaunch))
      let s := s.modNet (fun n => { n with tx := n.tx.set q none, ptpSent := n.ptpSent + b2n (isPtp data) })
      .next (s.netMore q fetch)

/-! ### Receive (R347, R348, R350) -/

/-- The receive filter (R347). -/
def State.netAccepts (s : State) (f : List Byte) : Bool :=
  let d := leNat (f.take 6)
  s.net.promisc || d == s.net.mac || d == 0xFFFFFFFFFFFF || (d % 2 == 1 && s.net.mcast.contains d)

/-- NET_RX_FRAME (R347, R348, R350): a frame arrives, FCS apart; `desc` is what host memory holds for the descriptor at HEAD. -/
def execNetRxFrame (frame : List Byte) (fcsOk : Bool) (desc : HostRead) (s : State) : Res :=
  let drop := fun (s : State) => s.bumpStat NET_RX_DROP
  if s.on NET_STAT__LINK = false then .next s
  else if fcsOk = false then .next (s.bumpStat NET_RX_FCS)
  else if beNat ((frame.drop 12).take 2) = 0x8808 then .next (s.bumpStat NET_RX_PAUSE)
  else if frame.length < 60 ∨ s.net.mtu + 18 < frame.length ∨ s.netAccepts frame = false ∨ s.netWaiting 2 = 0 then .next (drop s)
  else
    match s.netRead 2 (s.netAddr 2) 32 desc with
    | none => .next (drop (s.bufError .net (s.netRef 2 (s.netAddr 2) 32) desc))
    | some d =>
      let buf := s.netRef 2 (descF d 0 8) frame.length
      if descF d 8 2 < frame.length then .next (drop s)
      else if s.refOk buf = false then .next (drop (s.dmaError .net 0xFFFF buf.addr false))
      else
        let stamp := s.netStamp s.net.rxAdj
        let da := leNat (frame.take 6)
        let flags := b2n (isPtp frame) + 2 * b2n (typeOfs frame == 16) + 4 * b2n (da % 2 == 1 && da != 0xFFFFFFFFFFFF)
          + 8 * b2n (da == 0xFFFFFFFFFFFF)
        let s := s.writeRef buf frame
        let s := s.netBack 2 (padBytes 8 d ++ leBytes 2 frame.length ++ leBytes 2 flags ++ leBytes 4 (stamp / 0x100000000)
          ++ leBytes 4 (stamp / 0x10000000000000000) ++ leBytes 2 (stamp / 0x10000))
        .next (s.bumpEvt .net NET_RX_CNT)

/-! ### The link (R348, R353) -/

/-- The link goes up or down: fetched frames complete LINK_DOWN, the streamer drops its units, the host is told. -/
def State.netLink (s : State) (up : Bool) (f0 f1 : List NetFetch) : State :=
  if s.on NET_STAT__LINK = up then s
  else
    let s := (s.setB NET_STAT__LINK up).pendIf NET_IRQ__PEND 0 (s.on NET_IRQ__LINK_CHG) 28
    if up then
      let s := s.net.upWait.foldl (fun s h => s.finishF h ok) (s.modNet (fun n => { n with upWait := [] }))
      (s.netMore 0 f0).netMore 1 f1
    else
      let s := s.strLinkDown
      let s := [0, 1].foldl (fun s q =>
        match s.net.tx.getD q none with
        | some t => (s.netBack q (txBack t.desc 0 1 0)).modNet (fun n => { n with tx := n.tx.set q none })
        | none => s) s
      (s.netMore 0 f0).netMore 1 f1

/-- NET_LINK_CHANGE (R348): the PCS locks while the link is enabled, or loses lock. -/
def execNetLinkChange (up : Bool) (fetch0 : List NetFetch) (fetch1 : List NetFetch) (s : State) : Res :=
  .next (if up && !s.net.up then s else s.netLink up fetch0 fetch1)

/-- NET_LINK_CONTROL (R353; spec/22, R410). Every packet that waits for lock is answered when the PCS locks, or at its bound (R41). -/
def execNetLinkControl (p : Pkt) (s : State) : Res :=
  let h := s.pktHdr 0x0A05 p
  .next (runOp 0x0A05 p s (fun s =>
    if s.net.configured = false then (s, some (refuse stState 0x8006))
    else if p.t 0 0 ∧ ((s.analogue 2).isSome || (s.analogue 3).isSome) = true then (s, some (refuse stState 0x8002))
    else
      let s := s.setB NET_STAT__LOOP (p.t 0 1)
      let s := s.modNet (fun n => { n with up := p.t 0 0 })
      if p.t 0 0 = false then (s.netLink false [] [], some ok)
      else if s.on NET_STAT__LINK then (s, some ok)
      else (s.modNet (fun n => { n with upWait := n.upWait ++ [h] }), none)))

/-- A ring of NET_CONFIGURE lies where it may: base words `i`, `i` + 1 and CFG word `i` + 2. -/
def State.netRingOk (s : State) (p : Pkt) (i : Nat) : Bool :=
  let lg := p.b (i + 2) 0 4
  p.w (i + 2) / 32 == 0 && decide (4 ≤ lg) && decide (lg ≤ 12) && p.q i % 4096 == 0
    && (!p.t (i + 2) 4 || decide (p.q i + 32 * 2 ^ lg ≤ s.wBytes))

/-- NET_CONFIGURE (R347, R348, R353; the MTU's range, log 38). -/
def execNetConfigure (p : Pkt) (s : State) : Res :=
  .next (runOp 0x0A04 p s (fun s =>
    let mtu := p.b 0 16 14
    if s.net.up then (s, some (refuse stState 0x8004))
    else if (p.t 0 1 && !p.t 0 0) ∨ mtu < 42 ∨ 9000 < mtu ∨ ([35, 38, 41].all (s.netRingOk p)) = false then
      (s, some (refuse stBadParam 0x8005))
    else
      let s0 := s
      let s := (s.setB NET_STAT__SPEED (p.t 0 0)).setB NET_STAT__FEC (p.t 0 1)
      let mac := fun (i : Nat) => p.w i + p.b (i + 1) 0 16 * 0x100000000
      let s := s.modNet (fun n => { n with
        configured := true, promisc := p.t 0 2, mtu := mtu, mac := mac 1
        mcast := (List.range 16).map (fun i => mac (3 + 2 * i)), tail := [0, 0, 0], tx := [none, none] })
      let s := [0, 1, 2].foldl (fun s q =>
        let i := 35 + 3 * q
        let s := (s.wn (NET_R_BASE_LO q) (p.w i)).wn (NET_R_BASE_HI q) (p.w (i + 1))
        (s.wn (NET_R_CFG q) (p.w (i + 2))).wn (NET_R_HEAD q) 0) s
      (s.commitSince s0, some ok)))

/-- NET_SET_PTP (R350, R353). -/
def execNetSetPtp (p : Pkt) (s : State) : Res :=
  .next (runOp 0x0A06 p s (fun s =>
    if s.net.configured = false then (s, some (refuse stState 0x8006))
    else (s.modNet (fun n => { n with txAdj := sext 32 (p.w 0), rxAdj := sext 32 (p.w 1) }), some ok)))

end Sys2Proof.Machine
end

