-- ==== Sys2Proof/Machine/Vq.lean ====
section
/-!
DEFINITION. The vault queue (spec/11_vault_queue.md): queue pairs and tags, fetch and start, the Hoop, transfers,
completions, abort, flush, reset, and the vault power states.
-/
namespace Sys2Proof.Machine
open Sys2Proof

def State.modVq (s : State) (g : VqSt → VqSt) : State := { s with vq := g s.vq }
def State.vp (s : State) (n : Nat) : VqPair := s.vq.pair.toList.getD n {}
def State.modVp (s : State) (n : Nat) (g : VqPair → VqPair) : State :=
  s.modVq (fun q => { q with pair := q.pair.setIfInBounds n (g (s.vp n)) })

/-! STATUS codes of Table 11-4. -/
def vqSuccess : Nat := 0x0000
def vqAborted : Nat := 0x0001
def vqAbortedByReset : Nat := 0x0002
def vqStale : Nat := 0x0003
def vqNotLanded : Nat := 0x0004
def vqFrameAbsent : Nat := 0x0005
def vqInvalidOpcode : Nat := 0x0010
def vqInvalidField : Nat := 0x0011
def vqBadTag : Nat := 0x0012
def vqDupTag : Nat := 0x0013
def vqOutOfRange : Nat := 0x0014
def vqReadOnly : Nat := 0x0015
def vqBufShort : Nat := 0x0016
def vqDmaError : Nat := 0x0020
def vqMediaError : Nat := 0x0021
def vqTimeout : Nat := 0x0022
def vqThermal : Nat := 0x0023
def vqSafe : Nat := 0x0024

/-! ### Submission entries (Table 11-1, R226) -/

def VqCmd.fld (c : VqCmd) (a n : Nat) : Nat := leNat ((c.bytes.drop a).take n)
def VqCmd.opc (c : VqCmd) : Nat := c.fld 0 1
def VqCmd.flag (c : VqCmd) (i : Nat) : Bool := bitAt (c.fld 1 1) i
def VqCmd.tag (c : VqCmd) : Nat := c.fld 2 2 % 8192
def VqCmd.nsect (c : VqCmd) : Nat := c.fld 4 4
def VqCmd.vsa (c : VqCmd) : Nat := c.fld 8 4
def VqCmd.vsa2 (c : VqCmd) : Nat := c.fld 12 4
def VqCmd.haddr (c : VqCmd) : Nat := c.fld 16 8
def VqCmd.part (c : VqCmd) : Nat := bitsAt (c.fld 24 4) 8 2
def VqCmd.ctx (c : VqCmd) : Nat := c.fld 24 4 % 8

/-- Fields, as (offset, length, bits that are not reserved), that an opcode uses (Table 11-2). -/
def vqFields (opc : Nat) : List (Nat × Nat × Nat) :=
  let nsect := (4, 4, 0xFFFFFFFF)
  let vsa := (8, 4, 0x3FFFFFF)
  let haddr := (16, 8, 0xFFFFFFFFFFFFFFFF)
  match opc with
  | 1 => [nsect, vsa, haddr]
  | 2 => [nsect, vsa, haddr]
  | 3 => [nsect, vsa, (12, 4, 0x3FFFFFF)]
  | 4 => [nsect, haddr, (24, 4, 0x307), (28, 4, 0xFFFFFFFF), (32, 4, 0xFFFFFFFF), (36, 2, 0xFFFF), (38, 2, 0xFFFF)]
  | 9 => [(40, 2, 0x1FFF)]
  | _ => []

/-- The layout of Table 11-1 past TAG. -/
def vqLayout : List (Nat × Nat) := [(4, 4), (8, 4), (12, 4), (16, 8), (24, 4), (28, 4), (32, 4), (36, 2), (38, 2), (40, 2), (42, 22)]

/-- The byte offset of the first field with a non-zero reserved bit, or with a value out of range (R226, Table 11-1). -/
def VqCmd.badField (c : VqCmd) : Option Nat :=
  let o := c.opc
  if 16 ≤ c.fld 1 1 ∨ (c.flag 3 && o != 8) = true then some 1
  else if 8192 ≤ c.fld 2 2 then some 2
  else
    match vqLayout.find? (fun f =>
      let m := match (vqFields o).find? (fun g => g.1 == f.1) with
        | some g => g.2.2
        | none => 0
      let v := c.fld f.1 f.2
      v &&& m != v) with
    | some f => some f.1
    | none =>
      if 1 ≤ o ∧ o ≤ 4 ∧ (c.nsect < 1 ∨ 16384 < c.nsect) then some 4
      else if (o = 1 ∨ o = 2 ∨ o = 4) ∧ c.haddr % 64 ≠ 0 then some 16
      else if o = 4 ∧ (c.part = 3 ∨ 6 ≤ c.ctx) then some 24
      else if o = 9 ∧ c.fld 40 2 = c.tag then some 40
      else none

/-- The command is bulk: budget job class B (R227). -/
def VqCmd.bulk (c : VqCmd) : Bool := (c.opc == 1 || c.opc == 3 || c.opc == 4) && decide (16 < c.nsect)

/-- Range errors (R228). -/
def State.vqRange (s : State) (c : VqCmd) : Option Nat :=
  let past := fun (x : Nat) => decide (s.vlt.usable < x + c.nsect)
  let out := fun (x : Nat) => decide (s.wSect < x + c.nsect)
  match c.opc with
  | 1 => if past c.vsa then some vqOutOfRange else none
  | 2 => if past c.vsa then some vqOutOfRange else if out c.vsa then some vqReadOnly else none
  | 3 => if past c.vsa || past c.vsa2 then some vqOutOfRange else if out c.vsa2 then some vqReadOnly else none
  | _ => none

/-! ### Queues -/

def State.vqOn (s : State) (n : Nat) : Bool := s.on (VQ_SQ_CFG__EN n)
def State.vqN (s : State) (n : Nat) : Nat := 2 ^ s.f (VQ_SQ_CFG__LOG2N n)
/-- Slots between the head and the last accepted tail. -/
def State.vqUnfetched (s : State) (n : Nat) : Nat :=
  let m := 2 * s.vqN n
  ((s.vp n).tail + m - s.f (VQ_SQ_HEAD__HEAD n) % m) % m
/-- Completion slots written and not returned. -/
def State.cqUsed (s : State) (n : Nat) : Nat :=
  let m := 2 * s.vqN n
  (s.f (VQ_CQ_TAIL__TAIL n) + m - s.f (VQ_CQ_HEAD__HEAD n) % m) % m
def State.cqFull (s : State) (n : Nat) : Bool := decide (s.vqN n ≤ s.cqUsed n)

/-- The index `i` places past the head. -/
def State.sqIndex (s : State) (n i : Nat) : Nat := (s.f (VQ_SQ_HEAD__HEAD n) + i) % (2 * s.vqN n)
/-- The slots not fetched whose commands are outstanding, by how far they lie past the head. -/
def State.vqSlots (s : State) (n : Nat) : List Nat :=
  (List.range (s.vqUnfetched n)).filter (fun i => !((s.vp n).dead.contains (s.sqIndex n i)))

/-- Every command that has been fetched, or has ended in its slot, and is outstanding. -/
def State.vqAll (s : State) : List VqCmd := s.vq.pair.toList.flatMap (·.cmds)
/-- The same with their pairs, and in fetch order. -/
def State.vqPairs (s : State) : List (Nat × VqCmd) := (List.range 16).flatMap (fun n => (s.vp n).cmds.map (fun c => (n, c)))
def vqInsert (x : Nat × VqCmd) : List (Nat × VqCmd) → List (Nat × VqCmd)
  | [] => [x]
  | y :: t => if x.2.seq ≤ y.2.seq then x :: y :: t else y :: vqInsert x t
def State.vqInOrder (s : State) : List (Nat × VqCmd) := s.vqPairs.foldr vqInsert []
/-- OUTSTANDING of a pair. -/
def State.vqOut (s : State) (n : Nat) : Nat := (s.vqSlots n).length + (s.vp n).cmds.length

def State.modVc (s : State) (n seq : Nat) (g : VqCmd → VqCmd) : State :=
  s.modVp n (fun q => { q with cmds := q.cmds.map (fun c => if c.seq = seq then g c else c) })

/-! ### The Hoop (R233, Table 11-2): first sector, end, exclusive -/

def State.hoopOf (s : State) (c : VqCmd) : List (Nat × Nat × Bool) :=
  let src := if c.vsa < s.wSect then [(c.vsa, c.vsa + c.nsect, false)] else []
  match c.opc with
  | 1 => src
  | 2 => [(c.vsa, c.vsa + c.nsect, true)]
  | 3 => src ++ [(c.vsa2, c.vsa2 + c.nsect, true)]
  | _ => []

def hoopConflict (a b : List (Nat × Nat × Bool)) : Bool :=
  a.any (fun x => b.any (fun y => decide (x.1 < y.2.1) && decide (y.1 < x.2.1) && (x.2.2 || y.2.2)))

/-- Hoop entries granted. -/
def State.hoopUsed (s : State) : Nat := ((s.vqAll.filter (·.started)).map (fun c => (s.hoopOf c).length)).sum

/-- Every earlier command of the queue has completed, where FENCE asks for it. -/
def State.fenceOk (s : State) (n : Nat) (c : VqCmd) : Bool := !c.flag 0 || !((s.vp n).cmds.any (fun d => decide (d.seq < c.seq)))

/-- Command `c` of queue `n` asks for its Hoop entries: no command of its queue is to start first, no barrier stands, and it has what it
waits for ahead of them, FENCE and admission (R225, R235, R241). -/
def State.vqAsks (s : State) (n : Nat) (c : VqCmd) : Bool :=
  !s.vq.barrier && !c.started && c.fin.isNone
    && !((s.vp n).cmds.any (fun d => decide (d.seq < c.seq) && !d.started && d.fin.isNone))
    && s.fenceOk n c && (!c.bulk || s.isAdmitted (.vq n c.tag))

/-- The request of a command conflicts with no granted entry and no earlier request, and the table has room. -/
def State.hoopFree (s : State) (c : VqCmd) : Bool :=
  let h := s.hoopOf c
  !(s.vqPairs.any (fun x => x.2.seq != c.seq && (x.2.started || (decide (x.2.seq < c.seq) && s.vqAsks x.1 x.2))
      && hoopConflict h (s.hoopOf x.2)))
    && decide (s.hoopUsed + h.length ≤ 8192)

/-- An earlier command that gave up at a barrier may start, and so goes first (R241). -/
def State.vqAhead (s : State) (c : VqCmd) : Bool :=
  s.vqPairs.any (fun x => x.2.gaveUp && decide (x.2.seq < c.seq) && s.vqAsks x.1 x.2 && s.hoopFree x.2)

/-- A request that has to wait counts once (R233). -/
def State.vqCountWait (s : State) (n : Nat) (c : VqCmd) : State :=
  if s.vqAsks n c && !s.hoopFree c && !c.asked then
    (s.modVc n c.seq (fun c => { c with asked := true })).bumpEvt .vq VQ_HOOP_WAIT_CNT
  else s

/-! ### Completions (R230, R231) -/

/-- A command has finished; its entry waits its turn. -/
def State.vqFinish (s : State) (n seq status count info : Nat) : State :=
  let s := s.modVc n seq (fun c => { c with fin := some (status, count, info) })
  let s := if status = vqStale then s.bumpEvt .vq VQ_STALE_CNT else s
  s.modVp n (fun q => { q with post := q.post ++ [seq] })

/-- The 16 bytes of a completion entry (Table 11-3). -/
def cplBytes (n : Nat) (c : VqCmd) (phase : Bool) : List Byte :=
  let f := c.fin.getD (0, 0, 0)
  leBytes 2 c.tag ++ leBytes 2 f.1 ++ leBytes 2 (c.sqHead + 0x8000 * b2n phase) ++ leBytes 2 (c.slot + 0x1000 * n) ++ leBytes 4 f.2.1
    ++ leBytes 4 f.2.2

/-- Write an entry at CQ TAIL: in host memory a whole line of four, in BAR2 the entry (R230). -/
def State.cplWrite (s : State) (n : Nat) (c : VqCmd) : State :=
  let tail := s.f (VQ_CQ_TAIL__TAIL n)
  let i := tail % s.vqN n
  let phase := bitAt tail (s.f (VQ_SQ_CFG__LOG2N n)) == false
  let base := s.rn (VQ_CQ_BASE_HI n) * 0x100000000 + s.f (VQ_CQ_BASE_LO__BASE_LO n) * 0x1000
  let line := base + 64 * (i / 4)
  let e := cplBytes n c phase
  let s := if s.on (VQ_SQ_CFG__CQLOC n) then s.writeBar2 (base + 16 * i) e
    else
      let before := (List.range (16 * (i % 4))).map (fun j => (storeFind s.host (line + j)).getD 0)
      let blank := leBytes 4 0 ++ leBytes 2 (0x8000 * b2n (!phase)) ++ List.replicate 10 0
      s.writeHost line (before ++ e ++ (List.replicate (3 - i % 4) blank).flatten)
  let s := s.setF (VQ_CQ_TAIL__TAIL n) ((tail + 1) % (2 * s.vqN n))
  s.pendIf VQ_IRQ_PEND__PEND n (s.bit VQ_IRQ__EN n && !c.flag 1) (2 + n)

/-- A queue's next entry is written and the command is no longer outstanding. -/
def State.vqPostOne (s : State) (n : Nat) : State :=
  match (s.vp n).post with
  | [] => s
  | seq :: t =>
    let s' := match (s.vp n).cmds.find? (fun c => c.seq == seq) with
      | some c => s.cplWrite n c
      | none => s
    s'.modVp n (fun q => { q with post := t, cmds := q.cmds.filter (fun c => c.seq != seq) })

/-- R238: nothing that a started FLUSH waits for is outstanding. -/
def State.flushReady (s : State) (n : Nat) (c : VqCmd) : Bool :=
  let p := s.vp n
  !(p.cmds.any (fun d => decide (d.seq < c.seq)))
    && (!c.flag 3 || s.vq.pair.toList.all (fun q =>
      !(q.cmds.any (fun d => decide (d.db < c.db))) && !(q.dbs.any (fun d => decide (d.2 < c.db)))))

/-- R237: the ABORT's target is no longer outstanding. -/
def State.abortReady (s : State) (c : VqCmd) : Bool :=
  match c.after with
  | some t => !(s.vqAll.any (fun d => d.seq == t))
  | none => true

/-- A started FLUSH or ABORT of queue `n` that may complete. -/
def State.vqWaiter (s : State) (n : Nat) : Option VqCmd :=
  (s.vp n).cmds.find? (fun c => c.started && c.fin.isNone
    && ((c.opc == 8 && s.flushReady n c) || (c.opc == 9 && s.abortReady c)))

/-- One thing that can now complete or be posted. -/
def State.vqOnce (s : State) : Option State :=
  match (List.range 16).find? (fun n => !(s.vp n).post.isEmpty && !s.cqFull n) with
  | some n => some (s.vqPostOne n)
  | none =>
    match (List.range 16).findSome? (fun n => (s.vqWaiter n).map (fun c => (n, c))) with
    | some (n, c) => some (s.vqFinish n c.seq vqSuccess 0 (if c.opc = 9 then c.outcome else 0))
    | none => none

/-- Post and complete what can be, at most `k` times. -/
def State.vqLoop : Nat → State → State
  | 0, s => s
  | k + 1, s =>
    match s.vqOnce with
    | some s' => State.vqLoop k s'
    | none => s
def State.vqSettle (s : State) : State := State.vqLoop (2 * s.vqAll.length + 1) s

/-! ### Starting (R225, R229, R233, R235, R237) -/

/-- Bulk commands whose FENCE condition holds are handed to budget admission in fetch order (R235, R241), and the requests that now
wait are counted. -/
def State.vqAdmit (s : State) : State :=
  if s.vq.barrier then s
  else
    let s := s.vqInOrder.foldl (fun s x =>
      if x.2.bulk && !x.2.queued && !x.2.started && x.2.fin.isNone && s.fenceOk x.1 x.2 then
        (s.modVc x.1 x.2.seq (fun c => { c with queued := true })).arrive (.vq x.1 x.2.tag)
      else s) s
    s.vqInOrder.foldl (fun s x => s.vqCountWait x.1 x.2) s

/-- The sectors of a record that READ_FRAME copies (R229 step 2), and whether a stripe without LANDED ends them; none when
FIRST_STRIPE is beyond the last stripe. -/
def frameSectors (r : Rec) (c : VqCmd) : Option (List Nat × Bool) :=
  let seq := fun (a n : Nat) => (List.range n).map (a + ·)
  match c.part with
  | 0 => some (seq r.base r.sectors, false)
  | 1 => some (seq r.base 24, false)
  | _ =>
    let total := if r.playback then 0 else ceilDiv r.height 64
    let first := c.fld 36 2
    if total ≤ first then none
    else
      let last := if c.fld 38 2 = 0 then total else min total (first + c.fld 38 2)
      let at_ := fun (i : Nat) => r.base + 24 + r.embSect + ((r.payload.take i).map (fun p => sectorsOf p.length)).sum
      let have_ := min last r.payload.length
      some ((List.range (have_ - first)).flatMap (fun i =>
        seq (at_ (first + i)) (sectorsOf ((r.payload.getD (first + i) []).length))), decide (have_ < last))

/-- A READ_FRAME starts (R229 steps 1 and 2). -/
def State.frameStart (s : State) (n : Nat) (c : VqCmd) : State :=
  let fid := c.fld 28 4
  let gen := c.fld 32 4
  let e := s.idx c.ctx fid
  if e.valid = false ∨ e.fid ≠ fid then
    if gen ≠ 0 ∧ gen ≠ e.gen then s.vqFinish n c.seq vqStale 0 0 else s.vqFinish n c.seq vqFrameAbsent 0 0
  else if gen ≠ 0 ∧ gen ≠ e.gen then s.vqFinish n c.seq vqStale 0 gen
  else
    match s.rec? c.ctx fid with
    | none => s.vqFinish n c.seq vqFrameAbsent 0 0
    | some r =>
      match frameSectors r c with
      | none => s.vqFinish n c.seq vqInvalidField 0 36
      | some (l, cut) =>
        if c.nsect < l.length then s.vqFinish n c.seq vqBufShort 0 l.length
        else s.modVc n c.seq (fun c => { c with src := l, cut := cut, gen := e.gen })

/-- The sectors a transfer reads, in order. -/
def VqCmd.source (c : VqCmd) : List Nat :=
  match c.opc with
  | 1 => (List.range c.nsect).map (c.vsa + ·)
  | 3 => (List.range c.nsect).map (c.vsa + ·)
  | 4 => c.src
  | _ => []

/-- Bytes of a vault sector. -/
def State.sectorBytes (s : State) (x : Nat) : List Byte := (List.range 4096).map (fun i => s.vaultByte (4096 * x + i))

/-- Move the first `k` sectors of a transfer (R228, R229, R234); No-Snoop on the payload where NS allows it (R61). -/
def State.vqMove (s : State) (c : VqCmd) (k : Nat) (data : HostRead) : State :=
  let bytes := (c.source.take k).flatMap s.sectorBytes
  let toHost := fun (_ : Unit) => if k = 0 then s else s.dmaWrite c.haddr bytes (c.flag 2)
  match c.opc with
  | 1 => toHost ()
  | 2 =>
    match data with
    | .bytes b => s.writeMem (4096 * c.vsa) (padBytes (4096 * k) b)
    | .failed _ _ => s
  | 3 => s.writeMem (4096 * c.vsa2) bytes
  | 4 => toHost ()
  | _ => s

/-- Sectors of a transfer. -/
def VqCmd.total (c : VqCmd) : Nat := if c.opc = 2 then c.nsect else c.source.length

/-- The queue and command, fetched or ended in its slot, that hold a tag. -/
def State.tagHolder (s : State) (tag : Nat) : Option (Nat × VqCmd) :=
  (List.range 16).findSome? (fun n => ((s.vp n).cmds.find? (fun c => c.tagged && c.tag == tag)).map (fun c => (n, c)))

/-- A command ends before its transfer does, `moved` sectors having moved; a WRITE whose data the host did not give has moved none. -/
def State.vqEnd (s : State) (n : Nat) (c : VqCmd) (status moved : Nat) (data : HostRead) : State :=
  let k := match c.started, c.opc, data with
    | false, _, _ => 0
    | true, 2, .failed _ _ => 0
    | true, _, _ => min moved c.total
  let s := if k = 0 then s else s.vqMove c k data
  (s.leaveB (.vq n c.tag)).vqFinish n c.seq status k (if c.opc = 4 ∧ c.started = true then c.gen else 0)

/-- The head moves past a slot, whose doorbell goes once its last slot is passed. -/
def State.vqHeadOne (s : State) (n : Nat) : State :=
  let h := s.sqIndex n 1
  (s.setF (VQ_SQ_HEAD__HEAD n) h).modVp n (fun q => { q with dbs := if (q.dbs.head?.map (·.1)) = some h then q.dbs.tail else q.dbs })

/-- The head moves past the slots at it, at most `k`, whose commands have ended. -/
def State.vqSkip (n : Nat) : Nat → State → State
  | 0, s => s
  | k + 1, s =>
    if (s.vp n).dead.contains (s.sqIndex n 0) then
      State.vqSkip n k ((s.vqHeadOne n).modVp n (fun q => { q with dead := q.dead.erase (s.sqIndex n 0) }))
    else s
def State.vqSkipAll (s : State) (n : Nat) : State := State.vqSkip n (s.vp n).dead.length s

/-- The head moves past a fetched slot. -/
def State.vqHeadNext (s : State) (n : Nat) : State := (s.vqHeadOne n).vqSkipAll n

/-- The address of the slot `i` places past the head (R223). -/
def State.sqAt (s : State) (n i : Nat) : Nat :=
  s.rn (VQ_SQ_BASE_HI n) * 0x100000000 + s.f (VQ_SQ_BASE_LO__BASE_LO n) * 0x1000 + 64 * (s.sqIndex n i % s.vqN n)

/-- What a slot of a queue in BAR2 holds. -/
def State.sqBytes (s : State) (n i : Nat) : List Byte := bytesAt (storeGet memDefault s.bar2) (s.sqAt n i) 64

/-- The TAG of a submission entry. -/
def entryTag (b : List Byte) : Nat := leNat ((b.drop 2).take 2) % 8192

/-- The slot not fetched yet whose command holds a tag, as a pair and how far past the head: by its bytes in BAR2, and in host memory
where the ABORT finds it (log 39). -/
def State.tagSlot (s : State) (tag : Nat) (at_ : Option (Fin 16 × Nat)) : Option (Nat × Nat) :=
  match (List.range 16).findSome? (fun n =>
      if s.vqOn n && s.on (VQ_SQ_CFG__SQLOC n) then ((s.vqSlots n).find? (fun i => entryTag (s.sqBytes n i) == tag)).map (fun i => (n, i))
      else none) with
  | some x => some x
  | none => at_.bind (fun x =>
    if s.vqOn x.1.val && !s.on (VQ_SQ_CFG__SQLOC x.1.val) && (s.vqSlots x.1.val).contains x.2 then some (x.1.val, x.2) else none)

/-- The command of a slot not fetched yet ends there, with COUNT 0; its slot is passed over at fetch (R237, R239). -/
def State.vqEndSlot (s : State) (n i tag status : Nat) : State :=
  let db := match (s.vp n).dbs.find? (fun d => decide (i < (d.1 + 2 * s.vqN n - s.sqIndex n 0) % (2 * s.vqN n))) with
    | some d => d.2
    | none => s.vq.db
  let c : VqCmd := {
    bytes := padBytes 64 ([0, 0] ++ leBytes 2 tag), slot := s.sqIndex n i % s.vqN n, sqHead := s.sqIndex n (i + 1)
    seq := s.vq.seq, db := db, tagged := true }
  let x := s.sqIndex n i
  let s := (s.modVq (fun q => { q with seq := q.seq + 1 })).modVp n (fun q => { q with cmds := q.cmds ++ [c], dead := q.dead ++ [x] })
  s.vqFinish n c.seq status 0 0

/-- An ABORT is decided (R237); a command that a reset, FLR or the safe state ended counts as gone (R239). -/
def State.abortStart (s : State) (n : Nat) (c : VqCmd) (a : AbortAt) : State :=
  let tag := c.fld 40 2
  let decide_ := fun (s : State) (outcome : Nat) (t : Option Nat) => s.modVc n c.seq (fun c => { c with outcome := outcome, after := t })
  match s.tagHolder tag with
  | none =>
    match s.tagSlot tag a.slot with
    | none => decide_ s 2 none
    | some (m, i) => (((decide_ s 0 (some s.vq.seq)).vqEndSlot m i tag vqAborted).vqSkipAll m).bumpEvt .vq VQ_ABORT_CNT
  | some (m, d) =>
    if (d.fin.map (·.1)) = some vqAbortedByReset then decide_ s 2 none
    else if d.fin.isSome || (d.started && (a.issued || d.opc == 9)) then decide_ s 1 (some d.seq)
    else ((decide_ s 0 (some d.seq)).vqEnd m d vqAborted a.moved a.data).bumpEvt .vq VQ_ABORT_CNT

/-- A command starts: it holds its Hoop entries, and NOP is done. -/
def State.vqBegin (s : State) (n : Nat) (c : VqCmd) (a : AbortAt) : State :=
  let s := (s.modVc n c.seq (fun c => { c with started := true, asked := false })).vaultUse
  let s := s.leaveB (.vq n c.tag)
  match c.opc with
  | 0 => s.vqFinish n c.seq vqSuccess 0 0
  | 4 => s.frameStart n c
  | 9 => s.abortStart n c a
  | _ => s

/-- Start command `c` of queue `n` when it is granted the FENCE condition, admission and Hoop entries, in that order. -/
def State.vqTry (s : State) (n : Nat) (c : VqCmd) (a : AbortAt) : State :=
  if s.vqAsks n c && s.hoopFree c && !s.vqAhead c then s.vqBegin n c a else s.vqCountWait n c

/-- VQ_CMD_START (R225, R229, R233, R235, R237): the oldest command of a pair that has not started; `target` tells, for an ABORT, how
far its target has come (log 39). -/
def execVqCmdStart (pair : Fin 16) (target : AbortAt) (s : State) : Res :=
  let n := pair.val
  match (s.vp n).cmds.find? (fun c => !c.started && c.fin.isNone) with
  | none => .next s
  | some c => .next ((s.vqTry n c target).vqSettle.vqAdmit)

/-! ### Fetching (R224 to R228, R242) -/

/-- The next slot of a queue may be fetched. -/
def State.vqCanFetch (s : State) (n : Nat) : Bool :=
  s.vqOn n && s.dev.ready && !s.on (VQ_Q_STAT__FETCH_ERR n) && !s.cqFull n && (s.vp n).resetting.isNone
    && decide (0 < s.vqUnfetched n)

/-- A queue stands between the pair served last and `n` in the round, and could be served (R225). -/
def State.vqPassed (s : State) (n : Nat) : Bool :=
  (List.range ((n + 15 - s.vq.last) % 16)).any (fun k => s.vqCanFetch ((s.vq.last + 1 + k) % 16))

/-- What the VQ reads at the head (R223): a queue in BAR2 is read there, and one in host memory holds what the outside world supplies. -/
def State.vqRead (s : State) (n : Nat) (slot : VqSlot) : VqSlot :=
  if s.on (VQ_SQ_CFG__SQLOC n) then .entry (s.sqBytes n 0)
  else match slot with
    | .failed addr poisoned => .failed (s.sqAt n 0 + addr % 64) poisoned
    | .entry _ => slot

/-- A fetched command's verdict: STATUS and INFO of one that completes at once. -/
def State.vqCheck (s : State) (n : Nat) (c : VqCmd) : Option (Nat × Nat) :=
  let lo := s.f (VQ_Q_TAGS__TAG_BASE n)
  if s.dev.safe ∧ c.opc ≠ 8 ∧ c.opc ≠ 9 then some (vqSafe, 0)
  else if c.tag < lo ∨ lo + s.f (VQ_Q_TAGS__TAG_COUNT n) ≤ c.tag then some (vqBadTag, 0)
  else if (s.tagHolder c.tag).isSome then some (vqDupTag, 0)
  else if [0, 1, 2, 3, 4, 8, 9].contains c.opc = false then some (vqInvalidOpcode, 0)
  else
    match c.badField with
    | some o => some (vqInvalidField, o)
    | none => (s.vqRange c).map (fun st => (st, 0))

/-- Fetch one slot of queue `n`, whose turn it is, that holds opcode `opc`, or none that Table 11-2 names. -/
def State.vqFetch (s : State) (n opc : Nat) (slot : VqSlot) (a : AbortAt) : State :=
  if s.vqCanFetch n = false ∨ s.vqPassed n = true then s
  else
    match s.vqRead n slot with
    | .failed addr poisoned => ((s.modVq (fun q => { q with last := n })).raise (VQ_Q_STAT__FETCH_ERR n)).dmaError .vq n addr poisoned
    | .entry bs =>
      let bs := padBytes 64 bs
      let got := (bs.getD 0 0).toNat
      if got ≠ opc ∧ [0, 1, 2, 3, 4, 8, 9].contains got = true then s
      else
        let h := s.f (VQ_SQ_HEAD__HEAD n)
        let db := match (s.vp n).dbs.head? with
          | some d => d.2
          | none => s.vq.db
        let s := s.vqHeadNext n
        let c : VqCmd := {
          bytes := bs, slot := h % s.vqN n, sqHead := (h + 1) % (2 * s.vqN n), seq := s.vq.seq, db := db, tagged := false }
        let v := s.vqCheck n c
        let c := { c with tagged := match v with | some x => x.1 != vqBadTag && x.1 != vqDupTag && x.1 != vqSafe | none => true }
        let s := (s.modVq (fun q => { q with seq := q.seq + 1, last := n })).modVp n (fun q => { q with cmds := q.cmds ++ [c] })
        match v with
        | some x => (s.vqFinish n c.seq x.1 0 x.2).vqSettle
        | none => (s.vqAdmit.vqTry n c a).vqSettle.vqAdmit

/-- VQ_NOP (R224 to R227, R230). -/
def execVqNop (pair : Fin 16) (slot : VqSlot) (s : State) : Res := .next (s.vqFetch pair.val 0 slot {})
/-- VQ_READ (R224 to R228, R230, R235). -/
def execVqRead (pair : Fin 16) (slot : VqSlot) (s : State) : Res := .next (s.vqFetch pair.val 1 slot {})
/-- VQ_WRITE (R224 to R228, R230). -/
def execVqWrite (pair : Fin 16) (slot : VqSlot) (s : State) : Res := .next (s.vqFetch pair.val 2 slot {})
/-- VQ_COPY (R224 to R228, R230, R235). -/
def execVqCopy (pair : Fin 16) (slot : VqSlot) (s : State) : Res := .next (s.vqFetch pair.val 3 slot {})
/-- VQ_READ_FRAME (R224 to R227, R229, R230, R235). -/
def execVqReadFrame (pair : Fin 16) (slot : VqSlot) (s : State) : Res := .next (s.vqFetch pair.val 4 slot {})
/-- VQ_FLUSH (R224 to R227, R230, R238). -/
def execVqFlush (pair : Fin 16) (slot : VqSlot) (s : State) : Res := .next (s.vqFetch pair.val 8 slot {})
/-- VQ_ABORT (R224 to R227, R230, R237): `target` tells how far its target has come (log 39). -/
def execVqAbort (pair : Fin 16) (slot : VqSlot) (target : AbortAt) (s : State) : Res := .next (s.vqFetch pair.val 9 slot target)

/-! ### Transfers and time limits (R229, R234 to R236) -/

/-- The DPA of the first poisoned line of a sector (R57). -/
def State.poisonIn (s : State) (x : Nat) : Nat :=
  64 * (((List.range 64).map (64 * x + ·)).find? (fun p => s.cxl.poisoned.contains p)).getD (64 * x)

/-- Sectors ahead of the first one that holds poisoned data (R57). -/
def State.soundSectors (s : State) (l : List Nat) : Nat := (l.takeWhile (fun x => !(s.cxl.poisoned.any (fun p => p / 64 == x)))).length

/-- The GEN of a READ_FRAME's record still stands (R229 step 4). -/
def State.genStands (s : State) (c : VqCmd) : Bool :=
  match s.rec? c.ctx (c.fld 28 4) with
  | some r => r.gen == c.gen
  | none => false

/-- The started, unfinished transfer of a queue that holds a tag. -/
def State.vqRunning (s : State) (n tag : Nat) : Option VqCmd :=
  (s.vp n).cmds.find? (fun c => c.tagged && c.tag == tag && c.started && c.fin.isNone && decide (1 ≤ c.opc) && decide (c.opc ≤ 4))

/-- VQ_TRANSFER_DONE (R194, R229, R230, R233, R234): a transfer ends. `data` is what the host holds for a WRITE; `moved` the
sectors delivered when a READ_FRAME's GEN changed. -/
def execVqTransferDone (pair : Fin 16) (tag : BitVec 13) (data : HostRead) (moved : Nat) (s : State) : Res :=
  let n := pair.val
  match s.vqRunning n tag.toNat with
  | none => .next s
  | some c =>
    let info := if c.opc = 4 then c.gen else 0
    let sound := s.soundSectors c.source
    let s := match c.opc, data with
      | 2, .failed addr poisoned => (s.dmaError .vq n addr poisoned).vqFinish n c.seq vqDmaError 0 0
      | _, _ =>
        if c.opc = 4 ∧ s.genStands c = false then
          let k := min moved c.total
          (s.vqMove c k data).vqFinish n c.seq vqStale k info
        else if c.opc ≠ 2 ∧ sound < c.source.length then
          let dpa := s.poisonIn (c.source.getD sound 0)
          ((s.vqMove c sound data).log .vq evMemPoison 0xFFFF dpa (dpa / 0x100000000)).vqFinish n c.seq vqMediaError sound info
        else
          (s.vqMove c c.total data).vqFinish n c.seq (if c.cut then vqNotLanded else vqSuccess) c.total info
    .next (s.vqSettle.vqAdmit)

/-- VQ_TMO_EXPIRY (R236): a started command has not completed within TMO_MS, for which the time its completion queue is full does not
count; `moved` sectors have moved. -/
def execVqTmoExpiry (pair : Fin 16) (tag : BitVec 13) (moved : Nat) (data : HostRead) (s : State) : Res :=
  let n := pair.val
  match (s.vp n).cmds.find? (fun c => c.tagged && c.tag == tag.toNat && c.started && c.fin.isNone && !s.cqFull n) with
  | none => .next s
  | some c => .next ((s.vqEnd n c vqTimeout moved data).vqSettle.vqAdmit)

/-- VQ_DEFER_EXPIRY (R235): a bulk command has not been admitted within DEFER_MS; 0 waits without limit. -/
def execVqDeferExpiry (pair : Fin 16) (tag : BitVec 13) (s : State) : Res :=
  let n := pair.val
  if s.f VQ_CTRL__DEFER_MS = 0 then .next s
  else
    match (s.vp n).cmds.find? (fun c => c.tagged && c.tag == tag.toNat && c.queued && !c.started && c.fin.isNone) with
    | none => .next s
    | some c =>
      if s.isAdmitted (.vq n c.tag) then .next s
      else .next (((s.deferB (.vq n c.tag)).vqFinish n c.seq vqThermal 0 0).vqSettle.vqAdmit)

/-- VQ_CQ_STALL (R231): a completion queue has stayed full for more than 10 ms. -/
def execVqCqStall (pair : Fin 16) (s : State) : Res :=
  let n := pair.val
  .next (if s.vqOn n && s.cqFull n then (s.raise (VQ_Q_STAT__CQ_STALL n)).log .vq evVqCqStall (0x9000 + n) n else s)

/-! ### Reset and delete (R239, R240, R242) -/

/-- Completion entries are lost for want of room. -/
def State.vqLost (s : State) (n lost : Nat) : State :=
  if lost = 0 then s else (s.bumpStat VQ_LOST_CPL lost).log .vq evVqCqStall (0x9000 + n) n lost

/-- A reset has posted every entry, or gives up: `lost` entries are counted; indices return to 0 and the packet is answered. -/
def State.vqResetEnd (s : State) (n lost : Nat) : State :=
  match (s.vp n).resetting with
  | none => s
  | some (h, ended) =>
    let s := (s.vqLost n lost).modVp n (fun _ => {})
    let s := ((s.setF (VQ_SQ_HEAD__HEAD n) 0).setF (VQ_CQ_HEAD__HEAD n) 0).setF (VQ_CQ_TAIL__TAIL n) 0
    s.finishF h (ok [ended, lost])

/-- A command ends by a reset at its next sector boundary: how many sectors have moved by then, and what a WRITE had read for them, are
free values (log 4, log 39). -/
def State.vqCut (s : State) (n : Nat) (c : VqCmd) : State :=
  let k := s.draw.1.toNat % (c.total + 1)
  let s := s.draw.2
  let data := (freeVals 8 s.freeCtr (4096 * k)).map (BitVec.ofNat 8)
  (s.drawnTo (s.freeCtr + 4096 * k)).vqEnd n c vqAbortedByReset k (.bytes data)

/-- The TAG in a slot not fetched: in BAR2 by its bytes, in host memory by what was read there from the head on, else a free value. -/
def State.slotTag (s : State) (n i : Nat) (slots : Option (List Byte)) : Nat × State :=
  if s.on (VQ_SQ_CFG__SQLOC n) then (entryTag (s.sqBytes n i), s)
  else match slots with
    | some b => (entryTag (b.drop (64 * i)), s)
    | none => (s.draw.1.toNat % 8192, s.draw.2)

/-- End every outstanding command of a queue, fetched or not (R239 steps 1 to 3). -/
def State.vqEndAll (s : State) (n : Nat) (slots : Option (List Byte)) : State :=
  let s := (s.vp n).cmds.foldl (fun s c => if c.fin.isSome then s else s.vqCut n c) s
  let s := (s.vqSlots n).foldl (fun s i =>
    let t := s.slotTag n i slots
    t.2.vqEndSlot n i t.1 vqAbortedByReset) s
  s.vqSkipAll n

/-- The queue under reset has posted everything. -/
def State.vqResetDone (s : State) (n : Nat) : State :=
  if (s.vp n).resetting.isSome && (s.vp n).cmds.isEmpty then s.vqResetEnd n 0 else s

/-- VQ_RESET_QUEUE (R239, R245); the packet's buffer operand is what a submission queue in host memory holds from the head on. A read
of it that fails is reported (R62), and the TAGs are free values. -/
def execVqResetQueue (p : Pkt) (s : State) : Res :=
  let h := s.pktHdr 0x0508 p
  .next (runOp 0x0508 p s (fun s =>
    let n := p.idx
    if s.vqOn n = false then (s, some (refuse stState 0x8024))
    else
      let ended := s.vqOut n
      let s := s.modVp n (fun q => { q with resetting := some (h, ended) })
      let read := !s.on (VQ_SQ_CFG__SQLOC n) && !(s.vqSlots n).isEmpty
      let s := match p.buf with
        | .bytes b => s.vqEndAll n (some b)
        | .failed addr poisoned => (if read then s.dmaError .vq n addr poisoned else s).vqEndAll n none
      let s := s.vqSettle
      ((s.vqResetDone n).vqAdmit, none)))

/-- Room has returned, or what waited is over: post, and end a reset that is through. -/
def State.vqRoom (s : State) (n : Nat) : State := (s.vqSettle.vqResetDone n).vqAdmit

/-- VQ_CPL_POST (R230, R231): a finished command posts its entry once the queue has room. -/
def execVqCplPost (pair : Fin 16) (s : State) : Res := .next (s.vqRoom pair.val)

/-- VQ_CQ_HEAD (R231): completion slots are returned; a value out of range or past TAIL is ignored. -/
def execVqCqHead (pair : Fin 16) (v : W32) (s : State) : Res :=
  let n := pair.val
  let h := v.toNat % 0x2000
  let m := 2 * s.vqN n
  let adv := (h + m - s.f (VQ_CQ_HEAD__HEAD n) % m) % m
  if s.vqOn n = false then .next s
  else if m ≤ h ∨ s.cqUsed n < adv then .next (s.raise (VQ_Q_STAT__DB_RANGE n))
  else .next ((s.setF (VQ_CQ_HEAD__HEAD n) h).vqRoom n)

/-- VQ_SQ_DB (R225): a new tail, unless it is out of range, more than a queue ahead of the head, or behind the last tail. -/
def execVqSqDb (pair : Fin 16) (v : W32) (s : State) : Res :=
  let n := pair.val
  let t := v.toNat % 0x2000
  let m := 2 * s.vqN n
  let ahead := (t + m - s.f (VQ_SQ_HEAD__HEAD n) % m) % m
  if s.vqOn n = false ∨ (s.vp n).resetting.isSome = true then .next s
  else if m ≤ t ∨ s.vqN n < ahead ∨ ahead < s.vqUnfetched n then .next (s.raise (VQ_Q_STAT__DB_RANGE n))
  else
    let s := s.modVq (fun q => { q with db := q.db + 1 })
    .next (if ahead = s.vqUnfetched n then s
      else s.modVp n (fun q => { q with tail := t, dbs := q.dbs ++ [(t, s.vq.db)] }))

/-- A base lies 4 KiB aligned, and in BAR2 inside the ring storage (R223). -/
def bar2Fits (loc : Bool) (base bytes : Nat) : Bool :=
  !loc || (decide (0x1000000 ≤ base) && decide (base + bytes ≤ 0x5000000))

/-- VQ_CREATE_QUEUE (R223, R245). -/
def execVqCreateQueue (p : Pkt) (s : State) : Res :=
  .next (runOp 0x0506 p s (fun s =>
    let n := p.idx
    let lg := p.b 0 0 4
    let lo := p.b 1 0 13
    let cnt := p.b 2 0 14
    let clash := (List.range 16).any (fun m => s.vqOn m && decide (s.f (VQ_Q_TAGS__TAG_BASE m) < lo + cnt)
      && decide (lo < s.f (VQ_Q_TAGS__TAG_BASE m) + s.f (VQ_Q_TAGS__TAG_COUNT m)))
    if s.vqOn n then (s, some (refuse stState 0x8020))
    else if lg < 4 ∨ 12 < lg then (s, some (badWord 0))
    else if p.q 4 % 4096 ≠ 0 then (s, some (badWord 4))
    else if p.q 6 % 4096 ≠ 0 then (s, some (badWord 6))
    else if cnt < 64 ∨ cnt % 64 ≠ 0 ∨ 8192 < lo + cnt ∨ clash = true then (s, some (refuse stBadParam 0x8021))
    else if (bar2Fits (p.t 0 4) (p.q 4) (64 * 2 ^ lg) && bar2Fits (p.t 0 5) (p.q 6) (16 * 2 ^ lg)) = false then
      (s, some (refuse stNoResource 0x8022))
    else
      let s := (s.wn (VQ_SQ_BASE_LO n) (p.w 4)).wn (VQ_SQ_BASE_HI n) (p.w 5)
      let s := (s.wn (VQ_CQ_BASE_LO n) (p.w 6)).wn (VQ_CQ_BASE_HI n) (p.w 7)
      let s := (s.wn (VQ_SQ_CFG n) (lg + 32 * b2n (p.t 0 4) + 64 * b2n (p.t 0 5) + 128)).wn (VQ_Q_TAGS n) (lo + 0x10000 * cnt)
      let s := ((s.wn (VQ_SQ_HEAD n) 0).wn (VQ_CQ_HEAD n) 0).wn (VQ_CQ_TAIL n) 0
      ((s.setBit VQ_IRQ__EN n (p.t 0 8)).modVp n (fun _ => {}), some ok)))

/-- Free a pair: its registers return to their reset values. -/
def State.vqFree (s : State) (n : Nat) : State :=
  let s := [VQ_SQ_BASE_LO n, VQ_SQ_BASE_HI n, VQ_SQ_CFG n, VQ_SQ_HEAD n, VQ_CQ_BASE_LO n, VQ_CQ_BASE_HI n, VQ_CQ_HEAD n
    , VQ_CQ_TAIL n, VQ_Q_TAGS n, VQ_Q_STAT n].foldl (fun s a => s.wn a 0) s
  (s.setBit VQ_IRQ__EN n false).modVp n (fun _ => {})

/-- VQ_DELETE_QUEUE (R239, R245). -/
def execVqDeleteQueue (p : Pkt) (s : State) : Res :=
  .next (runOp 0x0507 p s (fun s =>
    let n := p.idx
    if s.vqOn n = false then (s, some (refuse stState 0x8024))
    else if s.vqOut n ≠ 0 then (s, some (refuse stState 0x8023))
    else (s.vqFree n, some ok)))

/-- R240: on FLR every queue ends its commands and every pair is deleted; VQ_VPSTATE stays. -/
def State.vqFlr (s : State) : State :=
  let s := (List.range 16).foldl (fun s n =>
    if s.vqOn n then
      let s := (s.vqEndAll n none).vqSettle
      s.vqLost n (s.vp n).cmds.length
    else s) s
  let s := (List.range 16).foldl State.vqFree s
  let s := [VQ_CTRL, VQ_IRQ, VQ_IRQ_PEND, VQ_HOOP_WAIT_CNT, VQ_STALE_CNT, VQ_ABORT_CNT, VQ_LOST_CPL].foldl
    (fun s a => s.wr a (regReset s.dev.variant a)) s
  s.modVq (fun _ => {})

/-- R242: entry into the safe state ends every outstanding command as R239 states. -/
def State.vqSafeEntry (s : State) : State :=
  ((List.range 16).foldl (fun s n => if s.vqOn n then s.vqEndAll n none else s) s).vqSettle

/-- R241: commands that wait give up what they wait for. -/
def State.vqBarrier (s : State) : State :=
  let s := (List.range 16).foldl (fun s n => (s.vp n).cmds.foldl (fun s c =>
    if c.started then s
    else (s.leaveB (.vq n c.tag)).modVc n c.seq (fun c => { c with queued := false, asked := false, gaveUp := true })) s) s
  s.modVq (fun q => { q with barrier := true })

/-- The new image runs. -/
def State.vqLift (s : State) : State := (s.modVq (fun q => { q with barrier := false })).vqAdmit

/-! ### Vault power states (R243 to R245) -/

/-- VLT_SET_VPSTATE (R192, R244, R245). -/
def execVltSetVpstate (p : Pkt) (s : State) : Res :=
  .next (runOp 0x0509 p s (fun s =>
    let v := p.b 0 0 2
    if v = 1 ∨ v = 2 then (s, some (badWord 0))
    else if p.b 1 0 2 = 3 then (s, some (badWord 1))
    else if v = 3 ∧ ((List.range 6).any (fun c => decide (2 ≤ s.cst c)) || (List.range 16).any (fun n => s.vqOut n != 0)) = true then
      (s, some (refuse stState 0x8025))
    else
      let gone := if v = 3 then s.vlt.recs.filter (fun r => !r.reclaimed && !s.pinned r.ctx r.fid) else []
      let s := gone.foldl State.reclaim s
      let s := (s.setF VQ_VPSTATE__VP v).setF VQ_VPSTATE__AUTO_MAX (p.b 1 0 2)
      (s, some (ok [v, gone.length]))))

end Sys2Proof.Machine
end

