-- ==== Sys2Proof/Machine/Dfl.lean ====
section
/-!
DEFINITION. The DEFLATE engine's jobs (spec/18_deflate_engine.md, R354 to R368).
-/
namespace Sys2Proof.Machine
open Sys2Proof

def State.modDfl (s : State) (g : DflSt → DflSt) : State := { s with dfl := g s.dfl }

def refOf (r : Nat × Nat × Nat) : BufRef := ⟨r.1, r.2.1, r.2.2⟩

/-! Word 0 of DFL_SUBMIT. -/
def dflInflate (w : Nat) : Bool := bitAt w 0
def dflFrame (w : Nat) : Nat := bitsAt w 1 2
def dflLevel (w : Nat) : Nat := bitsAt w 4 4
def dflHuff (w : Nat) : Nat := bitsAt w 8 2
def dflCheck (w : Nat) : Nat := bitsAt w 10 2

/-! ### A job's result -/

/-- What a job leaves: status, CONSUMED, PRODUCED, check value, TRAILING, the whole output from the original job's start, and
the source bytes taken. -/
structure DflRes where
  status : Nat
  consumed : Nat := 0
  produced : Nat := 0
  check : Nat := 0
  trailing : Bool := false
  out : List Byte := []
  taken : List Byte := []
deriving DecidableEq, Repr

/-- Header and trailer that compression writes (Table 18-1, Table 18-2). -/
def frameHead (w : Nat) : List Byte :=
  let l := dflLevel w
  match dflFrame w with
  | 1 =>
    let fl := if l = 1 then 0 else if l ≤ 5 then 1 else if l = 6 then 2 else 3
    let b := 0x7800 + fl * 64
    [0x78, BitVec.ofNat 8 (fl * 64 + (31 - b % 31) % 31)]
  | 2 => [0x1F, 0x8B, 8, 0, 0, 0, 0, 0, BitVec.ofNat 8 (if l = 1 then 4 else if l = 9 then 2 else 0), 255]
  | _ => []
def frameTail (w : Nat) (src : List Byte) : List Byte :=
  let k := checkKind (dflFrame w) (dflCheck w)
  let c := checkOf k src
  if dflFrame w = 2 then leBytes 4 c ++ leBytes 4 src.length else if k = 0 then [] else (leBytes 4 c).reverse

/-- Compression of the source taken so far with `src`, room for `lim` bytes from the original start (R357 to R359, R361,
R362). -/
def dflPack (w : Nat) (more : Bool) (src : List Byte) (lim : Nat) : DflRes :=
  let kind := checkKind (dflFrame w) (dflCheck w)
  let part := deflatedSoFar (dflLevel w) (dflHuff w) src
  let body := if more then part.take (Config.deflatePart src (dflLevel w) (dflHuff w)) else deflated (dflLevel w) (dflHuff w) src
  let all := frameHead w ++ body ++ (if more then [] else frameTail w src)
  if lim < all.length then
    let n := min src.length (Config.deflateTaken src (dflLevel w) (dflHuff w) lim)
    {
      status := dsOutFull, consumed := n, produced := lim, check := checkOf kind (src.take n), out := all.take lim
      taken := src.take n }
  else {
    status := if more then dsNeedInput else dsOk, consumed := src.length, produced := all.length
    check := checkOf kind src, out := all, taken := src }

/-- Decompression (R359 to R362). -/
def dflUnpack (w : Nat) (more : Bool) (src : List Byte) (lim : Nat) : DflRes :=
  let r := unframe (dflFrame w) (dflCheck w) lim src
  let st := match r.2.2.1 with
    | .done => dsOk
    | .full => dsOutFull
    | .short => if more then dsNeedInput else dsOverrun
    | .err e => e
  {
    status := st, consumed := r.2.1, produced := r.1.length
    check := checkOf (checkKind (dflFrame w) (dflCheck w)) r.1
    trailing := r.2.2.2 && dflFrame w == 2, out := r.1, taken := src.take r.2.1 }

/-- A resume state's 40,960 bytes (R363). -/
def resumeBytes (v : DflSaved) : List Byte :=
  let b := [0x46, 0x4C, 0x44, 0x53] ++ leBytes 2 1 ++ padBytes 40950 (Config.resumeImage v.word v.taken v.produced)
  b ++ leBytes 4 (crc32 b)

/-- R364: the state a continuation reads; none is STATE_BAD. -/
def State.savedOf (s : State) (bs : List Byte) : Option DflSaved :=
  if bs.length ≠ 40960 ∨ bs.take 4 ≠ [0x46, 0x4C, 0x44, 0x53] ∨ leNat ((bs.drop 4).take 2) ≠ 1
      ∨ leNat (bs.drop 40956) ≠ crc32 (bs.take 40956) then none
  else
    match s.dfl.saved.find? (fun x => x.1 == bs) with
    | some x => some x.2
    | none => let h := Config.resumeHeld bs; some ⟨h.1, h.2.1, h.2.2⟩

/-- Entries of a chain list up to LAST: address and length (R361). -/
def chainEntries : Nat → List Byte → List (Nat × Nat)
  | 0, _ => []
  | k + 1, bs =>
    if bs.length < 16 then []
    else
      (leNat (bs.take 8), leNat ((bs.drop 8).take 4)) ::
        (if bitAt (leNat ((bs.drop 12).take 4)) 0 then [] else chainEntries k (bs.drop 16))

/-- Entries of a chain list that may be used: in SPACE 1 those inside the working region; and the first that lies outside. -/
def State.chainOk (s : State) (space : Nat) (es : List (Nat × Nat)) : List (Nat × Nat) × Option BufRef :=
  let good := es.takeWhile (fun e => s.refOk ⟨e.1, e.2, space⟩)
  (good, (es.drop good.length).head?.map (fun e => ⟨e.1, e.2, space⟩))

/-- Write bytes over a list of ranges. -/
def State.writeChain (s : State) (space : Nat) : List (Nat × Nat) → List Byte → State
  | [], _ => s
  | e :: t, bs => if bs.isEmpty then s else (s.writeRef ⟨e.1, e.2, space⟩ (bs.take e.2) true).writeChain space t (bs.drop e.2)

/-- Entries that bytes of length `n` reach. -/
def chainUsed : List (Nat × Nat) → Nat → Nat
  | [], _ => 0
  | e :: t, n => if n = 0 then 0 else 1 + chainUsed t (n - e.2)

/-- A job's ranges to write, and what of its list could not be read or used. -/
def State.dflRanges (s : State) (r : DflRun) : List (Nat × Nat) × Option BufRef :=
  let d := refOf r.job.dst
  if bitAt r.job.word 12 then
    match s.readRef d r.list with
    | none => ([], some d)
    | some bs => s.chainOk d.space (chainEntries (bs.length / 16) bs)
  else ([(d.addr, d.len)], none)

/-- A job's result, the bytes it writes from its own start, its settings, and the ranges (R356 to R364). -/
def State.dflResult (s : State) (r : DflRun) : DflRes × List Byte × Nat × List (Nat × Nat) :=
  let j := r.job
  let rg := s.dflRanges r
  let prior := if j.resume then (match s.readRef (refOf j.st) r.st with
      | some bs => s.savedOf bs
      | none => none)
    else some ⟨j.word, [], 0⟩
  let stDma := j.resume && (s.readRef (refOf j.st) r.st).isNone
  if stDma then ({ status := dsDma }, [], j.word, [])
  else
    match prior with
    | none => ({ status := dsStateBad }, [], j.word, [])
    | some v =>
      match s.readRef (refOf j.src) r.src with
      | none => ({ status := dsDma, consumed := v.taken.length, produced := v.produced }, [], v.word, [])
      | some src =>
        let lim := v.produced + (rg.1.map (·.2)).sum
        let more := bitAt j.word 13
        let all := v.taken ++ src
        let res := if dflInflate v.word then dflUnpack v.word more all lim else dflPack v.word more all lim
        let res := if rg.2.isSome ∧ res.status = dsOutFull then { res with status := dsDma } else res
        (res, res.out.drop v.produced, v.word, rg.1)

/-! ### Ending a job (R363, R365) -/

/-- The completion record is written (Table 18-4), and the counters and the interrupt follow. -/
def State.dflRecord (s : State) (j : DflJob) (res : DflRes) (resumable : Bool) (used : Nat) : State :=
  let bs := leBytes 2 j.tag ++ leBytes 2 res.status ++ leBytes 1 (b2n resumable + 2 * b2n res.trailing) ++ leBytes 3 0
    ++ leBytes 8 res.consumed ++ leBytes 8 res.produced ++ leBytes 4 res.check ++ leBytes 2 used ++ [0, 0x80]
  let s := (s.refUse (refOf j.done)).writeRef (refOf j.done) bs
  let s := s.bumpEvt .dfl DFL_JOB_CNT
  let s := if 5 ≤ res.status then s.bumpStat DFL_ERR_CNT else s
  s.pendIf DFL_IRQ_PEND__PEND 0 (bitAt j.word 14 && s.on DFL_IRQ__EN) 30

/-- The read that ended a job with DMA_ERROR: its resume state, its source, or its chain list (R356, R62). -/
def State.dflFault (s : State) (r : DflRun) : State :=
  if r.job.resume && (s.readRef (refOf r.job.st) r.st).isNone then s.bufError .dfl (refOf r.job.st) r.st
  else if (s.readRef (refOf r.job.src) r.src).isNone then s.bufError .dfl (refOf r.job.src) r.src
  else match (s.dflRanges r).2 with
    | some x => if s.refOk x then s.bufError .dfl x r.list else s.dmaError .dfl 0xFFFF x.addr false
    | none => s

/-- An engine's job reaches its end. -/
def State.dflFinish (s : State) (e : Nat) (r : DflRun) : State :=
  let q := s.dflResult r
  let res := q.1
  let s := if res.status = dsDma then s.dflFault r else s
  let s := [r.job.src, r.job.dst, r.job.st].foldl (fun s x => s.refUse (refOf x)) s
  let s := s.writeChain (refOf r.job.dst).space q.2.2.2 q.2.1
  let resumable := (res.status == dsOutFull || res.status == dsNeedInput) && r.job.st.2.1 == 40960
  let s := if resumable then
      let v : DflSaved := ⟨q.2.2.1, res.taken, res.produced⟩
      let bs := resumeBytes v
      (s.writeRef (refOf r.job.st) bs).modDfl (fun d => { d with saved := (bs, v) :: d.saved })
    else s
  let s := s.wn (DFL_E_OUT e) res.produced
  let s := s.modDfl (fun d => { d with engine := d.engine.set e none })
  s.dflRecord r.job res resumable (if bitAt r.job.word 12 then chainUsed q.2.2.2 q.2.1.length else 0)

/-- DFL_JOB_END (R356 to R365): an engine's job ends. -/
def execDflJobEnd (engine : Fin 2) (s : State) : Res :=
  match s.dfl.engine.getD engine.val none with
  | none => .next s
  | some r => .next (s.dflFinish engine.val r)

/-- DFL_JOB_START (R355): the job at the head of the queue, once admitted, goes to the first free engine, DE0 on a tie;
`src`, `list` and `st` are what host memory holds behind its references. -/
def execDflJobStart (src : HostRead) (list : HostRead) (st : HostRead) (s : State) : Res :=
  match s.dfl.queue, (List.range 2).find? (fun e => (s.dfl.engine.getD e none).isNone) with
  | j :: t, some e =>
    if s.isAdmitted (.dfl j.id) = false ∨ s.dev.safe = true then .next s
    else
      let s := (s.leaveB (.dfl j.id)).modDfl (fun d => { d with
        queue := t, engine := d.engine.set e (some ⟨j, src, list, st⟩) })
      .next (s.wn (DFL_E_OUT e) 0)
  | _, _ => .next s

/-- DFL_DEFER_EXPIRY (R355): a job has not been admitted within DEFER_MS of its submission; 0 waits without limit. -/
def execDflDeferExpiry (tag : BitVec 16) (s : State) : Res :=
  match s.dfl.queue.find? (fun j => j.tag == tag.toNat) with
  | none => .next s
  | some j =>
    if s.f DFL_CTRL__DEFER_MS = 0 ∨ s.isAdmitted (.dfl j.id) = true then .next s
    else
      let s := (s.deferB (.dfl j.id)).modDfl (fun d => { d with queue := d.queue.erase j })
      .next (s.dflRecord j { status := dsThermal } false 0)

/-! ### Opcodes (R354, R364, R366, R368) -/

/-- A tag is in use by a queued or running job. -/
def State.dflTag (s : State) (tag : Nat) : Bool :=
  s.dfl.queue.any (fun j => j.tag == tag) || s.dfl.engine.any (fun r => r.any (fun r => r.job.tag == tag))

/-- Queue a job (R354), or say why not. -/
def State.dflQueue (s : State) (p : Pkt) (resume : Bool) : State × Option Outc :=
  let tag := p.b 1 0 16
  let st := p.ref 12
  if st.len ≠ 0 ∧ st.len ≠ 40960 then (s, some (refuse stBadParam 0x8003))
  else if s.refOk (p.ref 4) = false then (s, some (badWord 4))
  else if s.refOk (p.ref 8) = false then (s, some (badWord 8))
  else if s.refOk st = false then (s, some (badWord 12))
  else if s.refOk (p.ref 16) = false ∨ (p.ref 16).len < 32 then (s, some (badWord 16))
  else if s.dflTag tag then (s, some (refuse stBadParam 0x8002))
  else if 64 ≤ s.dfl.queue.length then (s, some (refuse stNoResource 0x8001))
  else
    let t := fun (i : Nat) => let r := p.ref i; (r.addr, r.len, r.space)
    let j : DflJob := {
      id := s.dfl.nextId, word := p.w 0, tag := tag, resume := resume, src := t 4, dst := t 8, st := t 12, done := t 16 }
    let s := (s.modDfl (fun d => { d with queue := d.queue ++ [j], nextId := d.nextId + 1 })).arrive (.dfl j.id)
    (s, some (ok [s.dfl.queue.length]))

/-- DFL_SUBMIT (R354, R359, R363, R368). -/
def execDflSubmit (p : Pkt) (s : State) : Res :=
  .next (runOp 0x0B00 p s (fun s =>
    let w := p.w 0
    if (dflInflate w = false ∧ (dflLevel w < 1 ∨ 9 < dflLevel w)) ∨ dflFrame w = 3 ∨ dflHuff w = 3 ∨ dflCheck w = 3
        ∨ (dflFrame w ≠ 0 ∧ dflCheck w ≠ 0) then (s, some (badWord 0))
    else s.dflQueue p false))

/-- DFL_RESUME (R354, R363, R364, R368). -/
def execDflResume (p : Pkt) (s : State) : Res := .next (runOp 0x0B01 p s (fun s => s.dflQueue p true))

/-- DFL_ABORT (R366): whether a running job's last byte had been written is a free value, and so is how far its output had
come (log 40). -/
def execDflAbort (p : Pkt) (s : State) : Res :=
  .next (runOp 0x0B02 p s (fun s =>
    let tag := p.b 0 0 16
    match s.dfl.queue.find? (fun j => j.tag == tag) with
    | some j =>
      let s := (s.leaveB (.dfl j.id)).modDfl (fun d => { d with queue := d.queue.erase j })
      (s.dflRecord j { status := dsAborted } false 0, some (ok [0]))
    | none =>
      match (List.range 2).findSome? (fun e => ((s.dfl.engine.getD e none).filter (fun r => r.job.tag == tag)).map (fun r => (e, r))) with
      | none => (s, some (ok [2]))
      | some (e, r) =>
        let d := s.draw
        if d.1.toNat % 2 = 1 then (d.2, some (ok [1]))
        else
          let s := d.2
          let q := s.dflResult r
          let n := min q.2.1.length (4096 * (d.1.toNat / 2 % (q.2.1.length / 4096 + 1)))
          let c := s.draw
          let s := c.2.writeChain (refOf r.job.dst).space q.2.2.2 (q.2.1.take n)
          let s := s.modDfl (fun d => { d with engine := d.engine.set e none })
          let res : DflRes := {
            status := dsAborted, consumed := min q.1.consumed c.1.toNat, produced := q.1.produced - (q.2.1.length - n)
            check := s.draw.1.toNat }
          (s.draw.2.dflRecord r.job res false (if bitAt r.job.word 12 then chainUsed q.2.2.2 n else 0), some (ok [0]))))

/-- DFL_STATUS (R368): how far a running job has come is a free value (log 40). -/
def execDflStatus (p : Pkt) (s : State) : Res :=
  .next (runOp 0x0B03 p s (fun s =>
    let tag := p.b 0 0 16
    match s.dfl.queue.find? (fun j => j.tag == tag) with
    | some j => (s, some (ok [b2n (s.dfl.queue.head? == some j && !s.isAdmitted (.dfl j.id)), 0, 0]))
    | none =>
      if s.dflTag tag then
        let a := s.draw
        let b := a.2.draw
        (b.2, some (ok [2, a.1.toNat, b.1.toNat]))
      else (s, some (ok [3, 0, 0]))))

/-! ### Resets and the safe state (R366, R367) -/

/-- Every job ends without a record. -/
def State.dflLost (s : State) : State :=
  let n := s.dfl.queue.length + (s.dfl.engine.filter (·.isSome)).length
  let s := s.dfl.queue.foldl (fun s j => s.leaveB (.dfl j.id)) s
  let s := s.modDfl (fun d => { d with queue := [], engine := [none, none] })
  if n = 0 then s else s.log .dfl evDflJobsLost 0xFFFF n

/-- Queued jobs end with SAFE_STATE; running jobs finish. -/
def State.dflSafe (s : State) : State :=
  let js := s.dfl.queue
  let s := s.modDfl (fun d => { d with queue := [] })
  js.foldl (fun s j => (s.leaveB (.dfl j.id)).dflRecord j { status := dsSafe } false 0) s

/-- DFL_STAT and DFL_Ee_TAG as read. -/
def State.dflStat (s : State) : Nat :=
  0x10000 * s.dfl.queue.length + b2n (s.dfl.engine.getD 0 none).isSome + 2 * b2n (s.dfl.engine.getD 1 none).isSome
def State.dflEngTag (s : State) (e : Nat) : Nat :=
  match s.dfl.engine.getD e none with
  | some r => 0x80000000 + r.job.tag
  | none => 0

end Sys2Proof.Machine
end

