-- ==== Sys2Proof/Machine/Dlt.lean ====
section
/-!
DEFINITION. The Device Layout Table (spec/04_layout_table_mailboxes.md, R67, R68, R450, Tables 4-1 to 4-4): its entries, built from the
state, and their bytes.
-/
namespace Sys2Proof.Machine
open Sys2Proof

/-! ### Bodies (Table 4-3) -/

/-- A field whose width the spec gives, in bytes, and one whose width is free (log 3). -/
def fldW (w v : Nat) : DltFld := ⟨v, some w⟩
def fldO (v : Nat) : DltFld := ⟨v, none⟩

/-- ASCII text of `w` bytes, filled with `pad`. -/
def fldText (w pad : Nat) (t : String) : DltFld :=
  fldW w (leNat ((t.toList.map (fun c => BitVec.ofNat 8 c.toNat) ++ List.replicate w (BitVec.ofNat 8 pad)).take w))

/-- The ordering code of a variant (spec/00, Table 0-1). -/
def orderingCode (v : Variant) : String :=
  match v.big, v.ext with
  | true, true => "FL1640-256-X"
  | true, false => "FL1640-256-C"
  | false, true => "FL1640-128-X"
  | false, false => "FL1640-128-C"

/-- The DEVICE entry. `exported`: in a copy that DLT_REFRESH writes. -/
def State.deviceEntry (s : State) (exported : Bool) : DltEntry :=
  let v := (s.flash.version.map (·.toNat)).getD 0
  { type := 0x0001, body := [fldText 16 0 (orderingCode s.dev.variant), fldW 1 0xB1, fldW 1 (v / 0x10000), fldW 1 (v / 0x100)
      , fldW 1 v, fldW 8 (nominalSect s.dev.variant * 4096), fldW 8 (s.vlt.capacity * 4096), fldW 2 (b2n exported + 2 * b2n s.dev.safe)] }

/-- The LINK entry (spec/03, R49, R63). -/
def State.linkEntry (s : State) : DltEntry :=
  { type := 0x0002, body := [fldO (b2n s.cxl.fallback), fldO s.cxl.width, fldO s.cxl.rate] }

/-- The blocks with registers, in ascending BAR0 base (spec/03, Table 3-4), by name. -/
def blkNames : List String :=
  ["LAY", "CMD", "MBX", "LNK", "RAW", "CTX", "CLR", "TAP", "VLT", "VQ", "CDC", "CMP", "DSP", "AUD", "TIM", "NET", "DFL", "DMC", "PWR"
    , "THM", "TST", "EVT"]

/-- The BLOCK entries: name, instance number, BAR0 base, size, version and CAPS. -/
def State.blockEntries (s : State) : List DltEntry :=
  blkNames.zipIdx.map (fun (n, i) =>
    { type := 0x0010, disabled := s.dlt.disabled.contains (i + 2)
      body := [fldText 4 0x20 n, fldO 0, fldW 8 (i * 0x100000), fldO 0x100000, fldO (Config.dltValue 0 i).toNat
        , fldW 8 (Config.dltValue 1 i).toNat] })

/-- A REGION entry: kind, owner, SPACE, base and size. -/
def regionEntry (kind owner space base size : Nat) : DltEntry :=
  { type := 0x0020, body := [fldO kind, fldO owner, fldO space, fldW 8 base, fldW 8 size] }

/-- The REGION entries (Table 4-4; spec/03, Table 3-4; spec/09, Table 9-1). -/
def State.regionEntries (s : State) : List DltEntry :=
  let ring := fun (c : Nat) => regionEntry 1 c 0 (s.bases.getD c 0 * 4096) (ringSect (s.vlt.units.getD c 0) * 4096)
  let spill := fun (c : Nat) =>
    let u := s.vlt.units.getD c 0
    regionEntry 2 c 0 ((s.bases.getD c 0 + ringSect u) * 4096) (spillSect u * 4096)
  [regionEntry 0 0xFF 0 0 s.wBytes] ++ (List.range 6).map ring ++ (List.range 6).map spill
    ++ [regionEntry 3 0xFF 2 0x1000000 0x4000000, regionEntry 4 0xFF 2 0x100000 0x10000, regionEntry 5 0xFF 4 0 0x20000
      , regionEntry 6 0xFF (Config.dltValue 3 0).toNat (Config.dltValue 4 0).toNat 0x10000]

/-- The CLOCK entries: the logic clocks (spec/01, Table 1-5), by name. -/
def clockEntries : List DltEntry :=
  [("CORE", 1500000000), ("CTRL", 375000000), ("FAB", 750000000), ("HK", 93750000)].map (fun c =>
    { type := 0x0030, body := [fldText 8 0 c.1, fldW 8 c.2] })

/-- SUSTAIN in bytes per second of the three rows of Table 19-2 (spec/19, R374). -/
def sustainRates (big : Bool) : List Nat :=
  (if big then [5132, 4914, 4532] else [2566, 2457, 2266]).map (· * 100000000)

/-- The LIMIT entries: the pipeline's pixels per CORE cycle (spec/07, R139), the index area's base and size (spec/09, Table 9-1), and
SUSTAIN. -/
def State.limitEntries (s : State) : List DltEntry :=
  let e := fun (b : Blk) (id v : Nat) => ({ type := 0x0040, body := [fldO b.pos, fldO id, fldW 8 v] } : DltEntry)
  [e .clr (Config.dltValue 5 0).toNat (s.f CLR_LANES__AVAIL), e .vlt 1 s.wBytes, e .vlt 2 0x8000000]
    ++ (sustainRates s.dev.variant.big).zipIdx.map (fun (v, i) => e .dmc (i + 1) v)

/-- The PSTATE entries: PS0 to PS3 and VP0 to VP3, each with its entry condition and its exit latency in ns (spec/20, Table 20-9;
spec/11, Table 11-5). -/
def pstateEntries : List DltEntry :=
  [0, 0, 900000000, 1800000000, 0, 2000, 20000, 150000].zipIdx.map (fun (ns, i) =>
    { type := 0x0050, body := [fldO i, fldO (Config.dltValue 2 i).toNat, fldW 4 ns] })

/-- The REPAIR entries: raw lanes, pipeline lanes, SRAM and DRAM (spec/22, Table 22-4). -/
def State.repairEntries (s : State) : List DltEntry :=
  [2, 1, (Config.spareTotal 2).toNat, (Config.spareTotal 3).toNat].zipIdx.map (fun (n, i) =>
    { type := 0x0060, body := [fldO i, fldO n, fldO (s.tst.used.getD i 0), fldO (s.tst.status.getD i 0)] })

/-- The FINGERPRINT entries: the device, the contexts and the instances, by TARGET (R74). -/
def State.fpEntries (s : State) : List DltEntry :=
  ([(0, s.devFp)] ++ s.fpTargets).map (fun (x : Nat × BitVec 64) =>
    { type := 0x0070, body := [fldW 2 x.1, fldW 8 x.2.toNat, fldW 4 s.dev.commitSeq.toNat] })

/-- Every entry, in the order of R450. -/
def State.dltEntries (s : State) (exported : Bool := false) : List DltEntry :=
  [s.deviceEntry exported, s.linkEntry] ++ s.blockEntries ++ s.regionEntries ++ clockEntries ++ s.limitEntries ++ pstateEntries
    ++ s.repairEntries ++ s.fpEntries ++ [{ type := 0xFFFF }]

/-! ### Bytes -/

/-- The bytes of a body: each field little-endian (spec/00, R3), the whole filled to a multiple of 8. -/
def bodyBytes (type : Nat) (body : List DltFld) : List Byte :=
  let b := body.zipIdx.flatMap (fun (x, k) => leBytes (x.width.getD ((Config.dltWidth type k).toNat + 1)) x.val)
  b ++ List.replicate ((8 - b.length % 8) % 8) 0

/-- An entry (Table 4-2) at INDEX `i`. -/
def dltEntryBytes (e : DltEntry) (i : Nat) : List Byte :=
  let b := bodyBytes e.type e.body
  leBytes 2 e.type ++ leBytes 2 (8 + b.length) ++ leBytes 2 i ++ leBytes 2 (b2n e.disabled) ++ b

/-- The header (Table 4-1). -/
def dltHeader (len crc gen count : Nat) (publishing : Bool) : List Byte :=
  [0x46, 0x4C, 0x44, 0x54] ++ leBytes 2 0x0100 ++ leBytes 2 32 ++ leBytes 4 len ++ leBytes 4 crc ++ leBytes 4 gen ++ leBytes 2 count
    ++ leBytes 2 (b2n publishing) ++ List.replicate 8 0

/-- The entries without gaps. -/
def dltBody (es : List DltEntry) : List Byte := es.zipIdx.flatMap (fun (e, i) => dltEntryBytes e i)

/-- LENGTH of a table. -/
def dltLength (es : List DltEntry) : Nat := 32 + (dltBody es).length

/-- CRC of a table: CRC-32 over LENGTH bytes, the CRC taken as 0 (Table 4-1), of the table as it stands once PUBLISHING is clear. -/
def dltCrc (gen : W32) (es : List DltEntry) : Nat :=
  crc32 (dltHeader (dltLength es) 0 gen.toNat es.length false ++ dltBody es)

/-- The bytes of a table. -/
def dltImage (gen : W32) (crc : Nat) (publishing : Bool) (es : List DltEntry) : List Byte :=
  dltHeader (dltLength es) crc gen.toNat es.length publishing ++ dltBody es

/-- The bytes of the live table: zeros before its first publication (R67). -/
def State.dltBytes (s : State) : List Byte :=
  if s.dlt.valid then dltImage s.dlt.gen s.dlt.crc.toNat s.dlt.publishing s.dlt.entries else []

/-- A word of the live table, which BAR2 and the mirror in LAY return alike (R67). -/
def State.dltWord (s : State) (o : Nat) : Nat := leNat ((s.dltBytes.drop o).take 4)

/-! ### Publication (R68) -/

/-- The table is rewritten while PUBLISHING is set, its CRC computed, GEN moves on by 1, and PUBLISHING is cleared. -/
def State.publish (s : State) : State :=
  let s := { s with dlt := { s.dlt with publishing := true } }
  let s := { s with dlt := { s.dlt with entries := s.dltEntries } }
  let gen := s.dlt.gen + 1
  let s := { s with dlt := { s.dlt with crc := BitVec.ofNat 32 (dltCrc gen s.dlt.entries) } }
  { s with dlt := { s.dlt with valid := true, gen := gen, publishing := false } }

/-- Publish again, once boot step 9 has published a first time. -/
def State.republish (s : State) : State := if s.dlt.valid then s.publish else s

/-- The export that DLT_REFRESH writes: the table just published, with EXPORTED set. -/
def State.dltExport (s : State) : List Byte :=
  let es := s.dltEntries true
  dltImage s.dlt.gen (dltCrc s.dlt.gen es) false es

end Sys2Proof.Machine
end

