-- ==== Sys2Proof/Machine/Views.lean ====
section
/-!
DEFINITION. What a read of a BAR0 register returns where the register mirrors what the block holds elsewhere (spec/00,
R6 to R9; the register tables of each chapter). Every other register reads as stored.
-/
namespace Sys2Proof.Machine
open Sys2Proof

/-- Replace a field of a word. -/
def putFld (v : Nat) (x : Fld) (n : Nat) : Nat := putBits v x.lo x.w n

/-- CMD_CRn_STAT (R32, R34, R35, R40). -/
def State.viewCrStat (s : State) (n : Nat) : Nat :=
  putFld (putFld (s.rn (CMD_CR_STAT n)) (CMD_CR_STAT__INFLIGHT n) (s.inflight n).length) (CMD_CR_STAT__WAIT_RP n)
    (b2n (s.rpFull n))

/-- CMD_STAT (R25, R44, R47). -/
def State.viewCmdStat (s : State) : Nat :=
  s.fwqUsed % 128 + 256 * b2n s.dev.fwRun + 512 * b2n s.dev.safe + 1024 * b2n s.dev.ready

/-- CTX_LOAD (R141). -/
def State.viewLoad (s : State) : Nat :=
  let sum := fun (l : Nat → Nat) => ((List.range 6).map l).sum % 0x10000
  sum (fun c => if s.essential c ∧ s.cst c ≠ 0 then max (s.liveLoad c) (s.pendLoad c) else 0) + 0x10000 * sum s.liveLoad

/-- RAW_LANES.USED. -/
def State.viewLanes (s : State) : Nat :=
  putFld (s.rn RAW_LANES) RAW_LANES__USED ((s.raw.toList.map (fun r => r.live.lanes)).sum)

/-- Who an engine of the coding engine works for (CDC_ENG_STAT). -/
def entWho (e : Option EntJob) : Nat :=
  match e with
  | some (.enc i _) => i
  | some (.dec _) => 0x1E
  | none => 0x1F
def State.viewEng (s : State) : Nat :=
  let b := fun (e : Option EntJob) => entWho e + 128 * b2n e.isSome
  let w := match s.cdc.pe with
    | some (q, _) => (if q < 16 then q else 0x1E) + 128
    | none => 0x1F
  0x100 * b (s.cdc.ee.getD 0 none) + 0x10000 * b (s.cdc.ee.getD 1 none) + 0x1000000 * w

/-- PWR_STAT (R394, R395): PS0 while a sensor context is RUNNING, PROC_STOPPED or DRAINING, else PS1. -/
def State.viewPwr (s : State) : Nat :=
  let ps0 := (List.range 4).any s.capturing
  putFld (putFld (s.rn PWR_STAT) PWR_STAT__B_WAITING (b2n (!s.pwr.queue.isEmpty))) PWR_STAT__PSTATE (b2n (!ps0))

/-- THM_STAT (Table 20-4): EQ is the nibble of the band in force. -/
def State.viewThm (s : State) : Nat :=
  putFld (s.rn THM_STAT) THM_STAT__EQ (bitsAt (s.f THM_EQ__PRESET) (4 * s.f THM_STAT__BAND) 4)

/-- TST_STAT (R408, R418). -/
def State.viewTst (s : State) : Nat :=
  let busy := match s.tst.run with | some r => r.began | none => false
  putFld (putFld (s.rn TST_STAT) TST_STAT__SAFE (b2n s.dev.safe)) TST_STAT__BUSY (b2n busy)

/-- VLT_TAKE_USED: slots in use, of 64. -/
def State.viewTakes (s : State) : Nat := ((s.takesUsed.map (fun t => 2 ^ t.1))).sum

/-- EVT_HEAD_SEQ and EVT_TAIL_SEQ (R422, R428). -/
def State.viewTail (s : State) : Nat := if s.evt.holding then 0 else s.rn EVT_TAIL_SEQ
def State.viewHead (s : State) : Nat :=
  match s.evt.live with
  | e :: _ => e.seq.toNat
  | [] => s.rn EVT_HEAD_SEQ

/-- A word of the live log or of the error log (R422, R427): `o` is the offset in EVT_LOG. -/
def State.viewLog (s : State) (o : Nat) : Nat :=
  if o < 0x8000 then
    match s.evt.live.find? (fun e => e.seq.toNat % 1024 == o / 32) with
    | some e => leNat ((e.image.drop (o % 32)).take 4)
    | none => 0
  else
    match s.evt.err[(o - 0x8000) / 32]? with
    | some e => leNat ((e.image.drop (o % 32)).take 4)
    | none => 0

/-- Registers of VLT that follow the layout and the records. -/
def State.viewVlt (s : State) (a c : Nat) : Option Nat :=
  let u := s.vlt.units.getD c 0
  if a = VLT_C_RING_BASE c then some (s.bases.getD c 0)
  else if a = VLT_C_RING_SECT c then some (ringSect u)
  else if a = VLT_C_SPILL_SECT c then some (spillSect u)
  else if a = VLT_C_MAXREC c then
    some (match s.liveImage c with
      | none => 0
      | some i => if c < 4 then maxRecOf i.raw.fmt i.cfg.width i.cfg.height i.raw.readouts (s.vlt.emb.getD c 0) else 24)
  else if a = VLT_C_WP c then some (s.vlt.wp.getD c 0)
  else if a = VLT_C_OLDEST_FID c then some ((s.oldestFid c).getD 0)
  else if a = VLT_TB_EPOCH then some (s.rn TIM_NOW_EPOCH)
  else if a = VLT_C_STAT c then some (putFld (s.rn a) (VLT_C_STAT__EMB_SECT c) (s.vlt.emb.getD c 0))
  else none

/-- The value that mirrors other state, of the register at `a` that is number `i` (and `j`) of its kind. -/
def State.view (s : State) (a i : Nat) : Option Nat :=
  if a / 0x100000 = 1 then
    if a = CMD_CR_STAT i then some (s.viewCrStat i) else if a = CMD_STAT then some s.viewCmdStat else none
  else if a / 0x100000 = 2 then
    if a = SEM_PEEK i then some (match s.mbx.sem.toList.getD i none with | some m => m.toNat + 1 | none => 0) else none
  else if a / 0x100000 = 3 then
    if a = LNK_QCFG i then some (putFld (s.rn a) (LNK_QCFG__PLL_LOCK i) (b2n (s.quadPll i)))
    else if a = LNK_P_STAT i then some (s.lnkStat i)
    else if a = LNK_P_SETQ i then some (s.lnkSetq i)
    else if a = LNK_L_STAT i then some (s.lnkLane i)
    else none
  else if a / 0x100000 = 4 then
    if a = RAW_LANES then some s.viewLanes
    else if a = RAW_P_STAT i then some (putFld (s.rn a) (RAW_P_STAT__ARMED i) (b2n (s.rw_ i).armed.isSome))
    else none
  else if a / 0x100000 = 5 then
    if a = CTX_LOAD then some s.viewLoad
    else if a = CTX_C_STATE i then some (s.ctxStateWord i)
    else if a = CTX_C_FP_LO i then some ((s.ctxFp i).toNat % 0x100000000)
    else if a = CTX_C_FP_HI i then some ((s.ctxFp i).toNat / 0x100000000)
    else if a = CTX_C_HEAD_FID i then some (s.headFid i)
    else if a = CTX_C_HEAD_POS i then some (s.headPos i)
    else none
  else if a / 0x100000 = 7 then
    if a = TAP_T_HOLD i then
      some ((List.range 8).foldl (fun v k => if s.encHolds i k || s.cmpHolds i k then v ||| 2 ^ k else v) (s.rn a))
    else none
  else if a / 0x100000 = 8 then
    if a = VLT_TAKE_USED_LO then some (s.viewTakes % 0x100000000)
    else if a = VLT_TAKE_USED_HI then some (s.viewTakes / 0x100000000)
    else s.viewVlt a i
  else if a / 0x100000 = 9 then
    if a = VQ_Q_STAT i then some (putFld (s.rn a) (VQ_Q_STAT__OUTSTANDING i) (s.vqOut i))
    else if a = VQ_STAT then
      some (putFld (putFld (putFld (s.rn a) VQ_STAT__TAGS_OUT ((List.range 16).map s.vqOut).sum) VQ_STAT__HOOP_USED s.hoopUsed)
        VQ_STAT__ACT_BARRIER (b2n s.vq.barrier))
    else none
  else if a / 0x100000 = 10 then
    if a = CDC_LOAD then some (putFld (putFld 0 CDC_LOAD__ENC_MPIX (s.encMpix none)) CDC_LOAD__DEC_MPIX s.decMpix)
    else if a = CDC_ENG_STAT then some s.viewEng
    else if a = CDC_S_RTP_SEQ i then some ((s.es i).seq % 0x10000)
    else if a = CDC_POOL_STAT then some (putFld (s.rn a) CDC_POOL_STAT__FREE s.freeBufs.length)
    else none
  else if a / 0x100000 = 16 then
    if a = DFL_STAT then some s.dflStat
    else if a = DFL_E_TAG i then some (s.dflEngTag i)
    else if a = DFL_E_OUT i ∧ (s.dfl.engine.getD i none).isSome = true then some (Config.free s.freeCtr).toNat
    else none
  else if a = PWR_STAT then some s.viewPwr
  else if a = THM_STAT then some s.viewThm
  else if a = TST_STAT then some s.viewTst
  else if a = EVT_TAIL_SEQ then some s.viewTail
  else if a = EVT_HEAD_SEQ then some s.viewHead
  else if a = EVT_ERR_STAT then some s.evt.err.length
  else none

/-- The value a read of BAR0 offset `a` returns, before a latch of R6; a WO register, a reserved bit and an offset that names no
register read 0 (R7, R9). -/
def State.readReg (s : State) (a : Nat) : W32 :=
  if a < 0x100000 then BitVec.ofNat 32 (s.dltWord a)
  else if 0x1501000 ≤ a ∧ a < 0x1509800 then BitVec.ofNat 32 (s.viewLog (a - 0x1501000))
  else
    match regFind a with
    | none => 0
    | some (d, i, _) =>
      match s.view a i with
      | some v => BitVec.ofNat 32 v
      | none => s.rd a &&& ~~~(BitVec.ofNat 32 d.wo)

end Sys2Proof.Machine
end

