-- ==== Sys2Proof/Machine/Dmc.lean ====
section
/-!
DEFINITION. The DRAM controller's rows (spec/19_dram_controller.md): address mapping (R369), refresh (R373), delays (R375, R376), errors
and suspect rows (R377), and the idle states of the vault (R379; spec/11, R243).
-/
namespace Sys2Proof.Machine
open Sys2Proof

/-- Change a channel. -/
def State.modChan (s : State) (c : Nat) (g : ChanSt → ChanSt) : State :=
  { s with dmc := { s.dmc with chan := s.dmc.chan.setIfInBounds c (g (s.dmc.chan.toList.getD c {})) } }

/-- REF_MULT and SUSTAIN in GB/s of a band (Table 19-2). -/
def refMult (band : Nat) : Nat := if band ≤ 2 then 1 else if band = 3 then 2 else 4
def sustainGb (big : Bool) (band : Nat) : Nat :=
  if big then (if band ≤ 2 then 513 else if band = 3 then 491 else 453)
  else if band ≤ 2 then 256 else if band = 3 then 245 else 226

/-- DMC_REFRESH (R373): an interval ends on a channel. `wait`: a CAP or DISP burst waits and the DMC postpones; the fifth refresh in
a row is forced. A new REF_MULT applies from here on. -/
def execDmcRefresh (chan : Fin 32) (wait : Bool) (s : State) : Res :=
  let c := chan.val
  if s.f DMC_STAT__CHANNELS ≤ c ∨ 2 ≤ s.f VQ_VPSTATE__VP then .next s
  else
    let s := s.setF DMC_STAT__REF_MULT (refMult (s.f DMC_STAT__BAND))
    let k := (s.dmc.chan.toList.getD c {}).postponed
    .next (s.modChan c (fun q => { q with
      postponed := if wait ∧ k < 4 then k + 1 else 0, refs := if wait ∧ k < 4 then q.refs else q.refs + 1 }))

/-- The delays a channel runs with in a band, and whether a clamp acted (R375). -/
def State.delays (s : State) (c band : Nat) : List Nat × Bool :=
  let ofs := s.rn (DMC_OFS band c)
  let o := fun (i : Nat) => sext 8 (bitsAt ofs (8 * i) 8)
  let raw : List Int := [
    s.f (DMC_CH_DLY0__CA c) + o 0, s.f (DMC_CH_DLY0__WDQ0 c) + o 1, s.f (DMC_CH_DLY1__WDQ1 c) + o 1
    , s.f (DMC_CH_DLY1__RDQS0 c) + o 2, s.f (DMC_CH_DLY2__RDQS1 c) + o 2]
  (raw.map (fun d => (max 0 (min d 511)).toNat), raw.any (fun d => decide (d < 0) || decide (511 < d)))

/-- Load a channel's applied delays. -/
def State.applyDelays (s : State) (c : Nat) : State :=
  let d := s.delays c (s.f DMC_STAT__BAND)
  let s := s.modChan c (fun q => { q with dly := d.1 })
  if d.2 then s.raise DMC_ERR__DELAY_CLAMP else s

/-- Load the applied delays of every channel, in ascending order. -/
def State.delayPass (s : State) : State :=
  let s := (List.range (s.f DMC_STAT__CHANNELS)).foldl State.applyDelays s
  { s with dmc := { s.dmc with pass := false } }

/-- DMC_DELAY_PASS (R376): the pass of the newest band reaches its end. -/
def execDmcDelayPass (s : State) : Res := .next (if s.dmc.pass then s.delayPass else s)

/-- DMC_UNCORRECTABLE (R377): a read with an uncorrectable error is retried once; `fails`: the retry fails too; `corrected`: it ends
with a corrected error. -/
def execDmcUncorrectable (dpa : Nat) (fails corrected : Bool) (s : State) : Res :=
  if nominalSect s.dev.variant * 4096 ≤ dpa then .next s
  else if fails then .next (s.poisonLine dpa)
  else .next (if corrected then s.bumpStat DMC_CORR_CNT else s)

/-- SUSPECT_APPEND (R377; spec/22, R416): firmware appends suspect row `row` to the repair records. -/
def execSuspectAppend (row : Fin 32) (s : State) : Res :=
  let v := s.rn (DMC_SUSPECT row.val)
  let r : Repair := { kind := 4, st := 2, inst := bitsAt v 26 5, addr := v % 0x400000 }
  if s.on (DMC_SUSPECT__VALID row.val) = false ∨ s.dev.fwRun = false
      ∨ s.tst.records.any (fun q => q.kind == 4 && q.inst == r.inst && q.addr == r.addr) = true then .next s
  else .next { s with tst := { s.tst with records := s.tst.records ++ [r] } }

/-- DLY_LOCK (R375): a write of 1 to DMC_CTRL.DLY_LOCK. -/
def execDlyLock (s : State) : Res :=
  .next (if s.shut 0 then s else if s.on DMC_CTRL__DLY_LOCK then s.rwlDenied .dmc DMC_CTRL else s.raise DMC_CTRL__DLY_LOCK)

/-- VP1_ENTRY (R379; spec/11, R243): 1 ms has passed with no request; one in the same cycle cancels the entry. -/
def execVp1Entry (request : Bool) (s : State) : Res :=
  .next (if request ∨ s.f VQ_VPSTATE__VP ≠ 0 ∨ s.f VQ_VPSTATE__AUTO_MAX = 0 then s else s.setF VQ_VPSTATE__VP 1)

/-- VP2_ENTRY (R379; spec/11, R243): DMC_SR_IDLE has passed with no request. -/
def execVp2Entry (request : Bool) (s : State) : Res :=
  let busy := (List.range 6).any s.capturing
  .next (if request ∨ 2 ≤ s.f VQ_VPSTATE__VP ∨ s.f VQ_VPSTATE__AUTO_MAX ≠ 2 ∨ busy then s else s.setF VQ_VPSTATE__VP 2)

end Sys2Proof.Machine
end

