-- ==== Sys2Proof/Machine/Reset.lean ====
section
/-!
DEFINITION. What the resets, the safe state and the vault clear do, for the rows that bring them about (spec/21, R400 to R404; spec/22,
R418, R419; spec/23, R428).
-/
namespace Sys2Proof.Machine
open Sys2Proof

/-! ### The vault clear (spec/21, R401) -/

/-- First sectors of the spill reserves. -/
def State.spills (s : State) : List Nat := List.zipWith (fun b u => b + ringSect u) s.bases s.vlt.units

/-- The vault's contents, pointers, pins and takes are gone; its layout and REC settings stay. -/
def State.emptyVault (s : State) : State :=
  let q := s.vlt
  let s := { s with vlt :=
      { capacity := q.capacity, usable := q.usable, units := q.units, emb := q.emb, recCfg := q.recCfg } }
  s.modVlt (fun q => { q with wp := s.bases, wpSpill := s.spills })

/-- The generation counter, every context's FIDs, what VLT shows of its latest records, and TB_EPOCH at their first values; the
post-mortem log is zeroed with the index area. -/
def State.firstValues (s : State) : State :=
  let s := (s.wn VLT_GEN 0).wn TIM_NOW_EPOCH 0
  let s := (List.range 6).foldl (fun s c => ((s.wn (VLT_C_NEWEST_FID c) 0).wn (VLT_C_STAT c) 0).modCx c (fun q => { q with
    firstFid := none })) s
  { s with evt := { s.evt with post := none } }

/-- R401: the vault clear. The asset area is written again before the clear completes. -/
def State.clearVault (s : State) : State :=
  let s := s.emptyVault.firstValues
  State.tallies { s with cmp := { s.cmp with assets := false } }

/-! ### Resets (spec/21, R400, R404) -/

/-- Registers that keep their values through PERST_N, DEV_RESET and a wake from PS2: the AX ports, VIN_WARN, RUN_ID, the
layout, and the suspect list (spec/19, spec/20, spec/22). -/
def keptRegs : List Nat :=
  [PWR_VIN_WARN, TST_RUN_ID, VLT_LAYOUT] ++ (List.range 4).flatMap (fun n => [PWR_AX_CFG n, PWR_AX_STAT n])
    ++ (List.range 32).map DMC_SUSPECT

/-- The register file with only the listed registers left at other than their reset values. -/
def keepOnly (keep : List Nat) (m : List (Nat × W32)) : List (Nat × W32) := m.filter (fun e => keep.contains e.1)

/-- The pins that a reset of the logic lets go: tallies and triggers. -/
def State.pinsOff (s : State) : State :=
  let s := (List.range 2).foldl (fun s i =>
    if s.bit VLT_TALLY__OUT i then s.emit (.pin (if i = 0 then "TALLY0" else "TALLY1") false) else s) s
  (List.range 4).foldl (fun s p => if (s.pt p).trg then s.driveTrg p false else s) s

/-- The logs on a reset (R428): without a clear, both are copied to the index area and the live log waits for step 6 of the boot; a
reset ahead of that step leaves the copy alone. With a clear, the live log starts again and the error log stays. -/
def State.resetLogs (s : State) (clear : Bool) : EvtSt :=
  let e := s.evt
  if clear then { err := if e.holding then (e.post.map (·.2)).getD [] else e.err, post := e.post }
  else if e.holding then { holding := true, post := e.post }
  else { holding := true, post := some (e.live, e.err) }

/-- What a reset of the logic leaves of a state whose DEFLATE jobs and pins have ended, VIN_LOW and LAST_CAUSE apart. -/
def State.warmBase (s : State) (clear : Bool) (type : Nat) : State :=
  let due := clear || s.dev.clearDue
  { regs := keepOnly keptRegs s.regs, mem := s.mem, host := s.host, out := s.out, freeCtr := s.freeCtr, pending := s.pending
    dev := { variant := s.dev.variant, bootType := type, clearDue := due, vin := s.dev.vin }
    evt := s.resetLogs due, cxl := { poisoned := s.cxl.poisoned }
    vlt := { s.vlt with dropped := List.replicate 6 0, flash := false }
    flash := { staged := s.flash.staged, sel := s.flash.sel }
    tst := { records := s.tst.records, used := s.tst.used, status := s.tst.status, remap := s.tst.remap }
    pwr := { trip := s.pwr.trip, wakeRec := s.pwr.wakeRec, sleep := s.pwr.sleep, cause := s.pwr.cause, axOpen := s.pwr.axOpen } }

/-- The same with VIN_LOW and LAST_CAUSE, which stay. -/
def State.warmFrom (s : State) (clear : Bool) (type : Nat) : State :=
  ((s.warmBase clear type).setB PWR_STAT__VIN_LOW (s.on PWR_STAT__VIN_LOW)).setF PWR_STAT__LAST_CAUSE (s.f PWR_STAT__LAST_CAUSE)

/-- A reset of the logic that keeps the DRAM (R400, R404): PERST_N, DEV_RESET, or entry to PS2. `type` is the TYPE its boot shows. -/
def State.warmReset (s : State) (clear : Bool) (type : Nat) : State := (s.dflLost.pinsOff).warmFrom clear type

/-- The state of a module whose rails have fallen (R404): flash and what has left the block stay, all else is at reset. -/
def State.coldReset (s : State) (type : Nat) : State :=
  let u := nominalSect s.dev.variant
  let s := s.pinsOff
  let r : State := {
    host := s.host, out := s.out, freeCtr := s.freeCtr, pending := s.pending
    dev := { variant := s.dev.variant, bootType := type, vin := s.dev.vin }
    vlt := { capacity := u, usable := u, units := defaultUnits u }
    flash := { staged := s.flash.staged, sel := s.flash.sel }, tst := { records := s.tst.records } }
  r.emptyVault

/-- Turn an AX port off (spec/20, R384). -/
def State.axOff (s : State) (n : Nat) : State :=
  let s := (s.setF (PWR_AX_STAT__STATE n) 0).setF (PWR_AX_STAT__RETRIES n) 0
  (s.setB (PWR_AX_STAT__LIMITING n) false).modPwr (fun p => { p with axOpen := p.axOpen.set n false })

/-- Entry to PS2 or PS3 (spec/20, R384, R390, R396): `cause` is what LAST_CAUSE will say. Register state is lost with the logic rails, and
MBX_CTRL.LOCK with it, which R76 releases on the resets that boot the device again (DEDUCED, log 87). -/
def State.enterSleep (s : State) (ps : Nat) (wakeRec : Bool) (cause : Nat) : State :=
  let s := if ps = 3 then s.coldReset 5 else s.warmReset false 4
  let s := (List.range 4).foldl (fun s n => if s.on (PWR_AX_CFG__STBY_KEEP n) then s else s.axOff n) s
  s.modPwr (fun p => { p with sleep := ps, wakeRec := wakeRec, cause := cause })

/-! ### The safe state (spec/22, R418, R419) -/

/-- A context stops capturing: READY, with nothing left to process. -/
def State.stopContext (s : State) (c : Nat) : State :=
  if s.capturing c = false then s
  else
    let s := s.setCst c 1
    s.modCx c (fun q => { q with frames := [], stopAt := none, source := none, nextSource := none, skipNext := none })

/-- The Ladle, the taps, the coding engine and write-back stop. -/
def State.stopPicture (s : State) : State :=
  let s := { s with ladle := { s.ladle with cur := none }, tap := s.tap.map (fun (t : TapSt) => { t with frame := none }) }
  let s := (List.range 16).foldl (fun s i =>
    let s := s.modEs i (fun e => { e with queue := [], pic := none })
    if s.encState i = 2 ∨ s.encState i = 3 then (s.setF (CDC_S_STATE__STATE i) 1).setF (CDC_S_STATE__ROW i) 0 else s) s
  let s := { s with cdc := { s.cdc with pe := none, ee := [none, none], waiting := [] } }
  (List.range 4).foldl (fun s n => s.modCmp n (fun u => { u with frame := u.frame.map (fun f => { f with wb := none }) })) s

/-- Enter the safe state with a cause of Table 22-6; a later cause is only logged (R419). -/
def State.enterSafe (s : State) (cause detail : Nat) : State :=
  if s.dev.safe then s.log .tst evTstSafe 0xFFFF cause detail
  else
    let s := (List.range 4).foldl (fun s p => s.truncateFrame p 3) s
    let s := s.takesUsed.foldl (fun s t => s.closeTake t.1) s
    let s := ((List.range 6).foldl State.stopContext s).stopPicture
    let s := (List.range 8).foldl (fun s p => if s.audOut p then s else s.audHalt p) s
    let s := s.vqSafeEntry.dflSafe
    let s := { s with dev := { s.dev with safe := true } }
    let s := ((s.setF TST_SAFE__CAUSE cause).setF TST_SAFE__DETAIL detail).tallies
    (s.log .tst evTstSafe 0xFFFF cause detail).aer .uncorrInternal

end Sys2Proof.Machine
end

