-- ==== Sys2Proof/Machine/Pwr.lean ====
section
/-!
DEFINITION. The input, the accessory ports, the housekeeping round and the temperature bands, and the opcodes of group 0x0C
(spec/20_power_thermal_budget.md, R380 to R390, R398; spec/24, R439).
-/
namespace Sys2Proof.Machine
open Sys2Proof

/-- Raise vector 33 for an enabled cause (PWR_IRQ, under R33). -/
def State.pwrIrq (s : State) (cause : Fld) : State := s.pendIf PWR_IRQ__PEND 0 (s.on cause) 33

/-- Set a bit of PWR_ERR. -/
def State.pwrErr (s : State) (x : Fld) : State := (s.raise x).pwrIrq PWR_IRQ__ERR

/-- Thermal ceiling of a band in mW (Table 20-4); THB5 has none. -/
def ceiling (band : Nat) : Option Nat :=
  if band ≤ 2 then some 58000 else if band = 3 then some 50000 else if band = 4 then some 42000 else none

/-- limit of R391 with a host limit in force. -/
def limitOf (host band : Nat) : Nat :=
  let h := if host = 0 then 58000 else host
  match ceiling band with
  | some c => min h c
  | none => h

/-! ### The input (R380) -/

/-- VIN_WARN (R380): VIN falls through VIN_WARN_MV, or rises 200 mV above it. -/
def execVinWarn (falling : Bool) (s : State) : Res :=
  if falling = false ∨ s.dev.awaits = true then .next (s.setB PWR_STAT__VIN_LOW falling)
  else if s.on PWR_STAT__VIN_LOW then .next s
  else
    let s := ((s.setB PWR_STAT__VIN_LOW true).raise PWR_ERR__VIN_LOW).log .pwr evPwrVinLow
    .next (s.pendIf PWR_IRQ__PEND 0 (s.on PWR_IRQ__VIN || s.on PWR_IRQ__ERR) 33)

/-- Every rail and every AX port is off; only the HVM runs. -/
def State.railsOff (s : State) (vin : Nat) : State :=
  let s := s.coldReset 0
  { s with dev := { s.dev with vin := vin } }

/-- UVLO (R380, R384). -/
def execUvlo (s : State) : Res := .next (s.railsOff 1)
/-- OVLO (R380, R384): the module behaves as below UVLO until VIN falls back. -/
def execOvlo (s : State) : Res := .next (s.railsOff 2)
/-- OVLO_EXIT (R380): VIN is in range again and a boot may begin. -/
def execOvloExit (s : State) : Res :=
  if s.dev.vin = 2 then .next { s with dev := { s.dev with vin := 0 } } else .next s

/-! ### Accessory ports (R381 to R384, R439) -/

/-- STATE of a port: 0 OFF, 1 ON, 2 RETRY_WAIT, 3 LATCHED. -/
def State.axState (s : State) (n : Nat) : Nat := s.f (PWR_AX_STAT__STATE n)

/-- The sum of LIMIT, mA, over the ports ON with port `n` ON too. -/
def State.axSum (s : State) (n : Nat) : Nat :=
  ((List.range 4).map (fun i => if i = n ∨ s.axState i = 1 then 100 * s.f (PWR_AX_CFG__LIMIT i) else 0)).sum

/-- PWR_AX_CONFIGURE (R381, R398). -/
def execPwrAxConfigure (p : Pkt) (s : State) : Res :=
  .next (runOp 0x0C01 p s (fun s =>
    let n := p.b 0 0 2
    let lim := p.b 0 8 5
    if lim < 5 ∨ 30 < lim then (s, some (refuse stBadParam 0x8002))
    else if s.axState n = 1 ∨ s.axState n = 2 then (s, some (refuse stState 0x8003))
    else
      let s := (s.setF (PWR_AX_CFG__LIMIT n) lim).setF (PWR_AX_CFG__RETRY_MAX n) (p.b 0 16 3)
      ((s.setB (PWR_AX_CFG__STBY_KEEP n) (p.t 0 20)).setB (PWR_AX_CFG__AUTO_OFF n) (p.t 0 21), some ok)))

/-- PWR_AX_SWITCH (R381, R383, R398; Table 20-2). -/
def execPwrAxSwitch (p : Pkt) (s : State) : Res :=
  .next (runOp 0x0C02 p s (fun s =>
    let n := p.b 0 0 2
    if p.t 0 4 = false then
      let s := s.axOff n
      (s, some (ok [s.rn (PWR_AX_STAT n)]))
    else if 8000 < s.axSum n then (s, some (refuse stNoResource 0x8004))
    else if s.on PWR_STAT__VIN_LOW then (s, some (refuse stState 0x8005))
    else
      let s := if s.axState n = 1 then s else (s.setF (PWR_AX_STAT__STATE n) 1).setF (PWR_AX_STAT__RETRIES n) 0
      (s, some (ok [s.rn (PWR_AX_STAT n)]))))

/-- AX_TRIP (R383, R384; Table 20-2). `off`: a PWR_AX_SWITCH OFF falls in the same HK cycle. -/
def execAxTrip (port : Fin 4) (off : Bool) (s : State) : Res :=
  let n := port.val
  if s.axState n ≠ 1 then .next s
  else
    let s := (s.bumpStat (PWR_AX_FAULT_CNT n)).log .pwr evPwrAxTrip
    let s := s.setB (PWR_AX_STAT__LIMITING n) false
    .next (if off then s.axOff n
      else s.setF (PWR_AX_STAT__STATE n) (if s.f (PWR_AX_STAT__RETRIES n) < s.f (PWR_AX_CFG__RETRY_MAX n) then 2 else 3))

/-- AX_RETRY_EXPIRY (R383, Table 20-2). -/
def execAxRetryExpiry (port : Fin 4) (s : State) : Res :=
  let n := port.val
  if s.axState n ≠ 2 then .next s
  else .next ((s.setF (PWR_AX_STAT__STATE n) 1).setF (PWR_AX_STAT__RETRIES n) (s.f (PWR_AX_STAT__RETRIES n) + 1))

/-- AX_RETRY_RESET (R383): a port has stayed ON for 10 s. -/
def execAxRetryReset (port : Fin 4) (s : State) : Res :=
  .next (if s.axState port.val = 1 then s.setF (PWR_AX_STAT__RETRIES port.val) 0 else s)

/-- AX_LOAD_CHANGE (R382). -/
def execAxLoadChange (port : Fin 4) (present : Bool) (s : State) : Res :=
  let n := port.val
  if 2 ≤ s.axState n ∨ s.on (PWR_AX_STAT__LOAD n) = present then .next s
  else
    let s := ((s.setB (PWR_AX_STAT__LOAD n) present).log .pwr evPwrAxLoad).pwrIrq PWR_IRQ__AX
    .next (if present = false ∧ s.on (PWR_AX_CFG__AUTO_OFF n) ∧ s.axState n = 1 then s.axOff n else s)

/-- AX_LIMITING (R383): regulation at LIMIT begins or ends. -/
def execAxLimiting (port : Fin 4) (above : Bool) (s : State) : Res :=
  .next (if s.axState port.val = 1 then s.setB (PWR_AX_STAT__LIMITING port.val) above else s)

/-- AX_REVERSE_CURRENT (spec/24, R439): the switch opens; state, counts and events stay. -/
def execAxReverseCurrent (port : Fin 4) (s : State) : Res :=
  .next (if s.axState port.val = 1 then s.modPwr (fun p => { p with axOpen := p.axOpen.set port.val true }) else s)
/-- AX_REVERSE_CLEAR (spec/24, R439). -/
def execAxReverseClear (port : Fin 4) (s : State) : Res :=
  .next (s.modPwr (fun p => { p with axOpen := p.axOpen.set port.val false }))

/-! ### Bands (R387 to R390) -/

/-- Where a band is entered rising, 1⁄8 °C (Table 20-4). -/
def bandEntry (b : Nat) : Int := [0, 0, 360, 680, 760, 840].getD b 0

/-- R387: the band rises one at a time while the reading reaches the next entry. -/
def bandUp (t : Int) : Nat → Nat → Nat
  | 0, b => b
  | k + 1, b => if b < 5 ∧ bandEntry (b + 1) ≤ t then bandUp t k (b + 1) else b
/-- And falls one at a time while it is below the entry less 3 °C. -/
def bandDown (t : Int) : Nat → Nat → Nat
  | 0, b => b
  | k + 1, b => if 0 < b ∧ t < bandEntry b - 24 then bandDown t k (b - 1) else b
/-- The band a reading selects from the band in force. -/
def nextBand (b : Nat) (t : Int) : Nat := if bandUp t 5 b = b then bandDown t 5 b else bandUp t 5 b

/-- The band moves by one to `b` (R387). -/
def State.stepBand (s : State) (b : Nat) : State :=
  (((s.setF THM_STAT__BAND b).log .thm evThmBand 0xFFFF (s.f THM_STAT__BAND) b).bumpEvt .thm THM_BAND_CNT).pwrIrq PWR_IRQ__BAND

/-- The band moves towards `b`, one boundary at a time (R387). -/
def State.walkBand (b : Nat) : Nat → State → State
  | 0, s => s
  | k + 1, s =>
    let now := s.f THM_STAT__BAND
    if now = b then s else State.walkBand b k (s.stepBand (if now < b then now + 1 else now - 1))

/-- The band changes to `b` (R387, R388). -/
def State.setBand (s : State) (b : Nat) : State :=
  if s.f THM_STAT__BAND = b then s
  else
    let s := State.walkBand b 7 s
    let s := (s.setF DMC_STAT__BAND b).setF DMC_STAT__SUSTAIN (sustainGb s.dev.variant.big b)
    { s with dmc := { s.dmc with pass := true } }

/-- A sensor fault (R389). -/
def State.sensorFault (s : State) : State :=
  let s := if s.on THM_STAT__SENSOR_FAULT then s else (s.setB THM_STAT__SENSOR_FAULT true).log .thm evThmSensorFault
  if s.f THM_STAT__BAND = 5 then s else s.setBand 4

/-- A valid reading (R387, R389). -/
def State.reading (s : State) (v : Nat) : State :=
  let t := sext 16 v
  let from_ := if s.on THM_STAT__SENSOR_FAULT then 0 else s.f THM_STAT__BAND
  let s := (s.setF THM_STAT__TEMP v).setB THM_STAT__SENSOR_FAULT false
  let s := if s.pwr.maxSeen = false ∨ sext 16 (s.f THM_MAX__TEMP) < t then
      (s.setF THM_MAX__TEMP v).modPwr (fun p => { p with maxSeen := true })
    else s
  s.setBand (nextBand from_ t)

/-! ### The housekeeping round (R385, R386, R390) -/

/-- Nominal rail voltages in mV, channels 1 to 8 (Table 20-3). -/
def railNominal : List Nat := [750, 850, 900, 1800, 3300, 1800, 1050, 500]

/-- A rail's value lies outside ±5 %. -/
def railBad (nominal v : Nat) : Bool := decide (100 * v < 95 * nominal) || decide (105 * nominal < 100 * v)

/-- Channels whose rails are outside their windows. -/
def railsOut (vals : List Nat) : List Nat :=
  (List.range 8).map (· + 1) |>.filter (fun c => railBad (railNominal.getD (c - 1) 0) (vals.getD c 0))

/-- The reference is within ±1 %. -/
def refOkay (v : Nat) : Bool := decide (1188 ≤ v) && decide (v ≤ 1212)

/-- A round counts for an HK_REF test that runs (spec/22, Table 22-1). -/
def State.noteRound (s : State) (good : Bool) : State :=
  match s.tst.run with
  | some r => if r.began ∧ r.kind = 0 ∧ r.item = 0 then
      { s with tst := { s.tst with run := some { r with rounds := r.rounds ++ [good] } } }
    else s
  | none => s

/-- HK_ROUND_COMPLETE (R385 to R390). -/
def execHkRoundComplete (v : Vector (BitVec 16) 16) (s : State) : Res :=
  if s.dev.ready = false then .next s
  else
    let vals := v.toList.map (·.toNat)
    let round := s.pwr.rounds
    let s := s.modPwr (fun p => { p with rounds := round + 1 })
    let s := (List.range 16).foldl (fun s n => s.wn (PWR_HK_CH n) (vals.getD n 0 + 0x10000 * (round % 0x10000))) s
    let s := s.noteRound (refOkay (vals.getD 15 0) && (railsOut vals).isEmpty)
    if refOkay (vals.getD 15 0) = false then
      .next ((s.pwrErr PWR_ERR__HK_REF).modPwr (fun p => { p with railOut := [] })).sensorFault
    else
      let out := railsOut vals
      let twice := out.filter (fun c => s.pwr.railOut.contains c)
      let s := s.modPwr (fun p => { p with railOut := out, hk := vals })
      let s := twice.foldl (fun s c => (s.pwrErr PWR_ERR__RAIL).enterSafe 1 c) s
      let t := sext 16 (vals.getD 0 0)
      if t < -400 ∨ 1200 < t then .next s.sensorFault
      else
        let s := s.reading (vals.getD 0 0)
        if t < 880 then .next s
        else .next (((s.log .thm evThmTrip).modPwr (fun p => { p with trip := true })).enterSleep 2 false 2)

/-! ### Opcodes -/

/-- PWR_SET_INPUT_LIMIT (R391, R398). -/
def execPwrSetInputLimit (p : Pkt) (s : State) : Res :=
  .next (runOp 0x0C00 p s (fun s =>
    let l := p.b 0 0 18
    let w := p.b 1 0 16
    if (l ≠ 0 ∧ (l < 10000 ∨ 58000 < l)) ∨ w < 6000 ∨ 48000 < w then (s, some (refuse stBadParam 0x8001))
    else
      let s := (s.setF PWR_HOST_LIMIT__MW l).setF PWR_VIN_WARN__MV w
      (s, some (ok [limitOf l (s.f THM_STAT__BAND)]))))

/-- PWR_GET_HK (R398): the latest complete round. -/
def execPwrGetHk (p : Pkt) (s : State) : Res :=
  .next (runOp 0x0C03 p s (fun s =>
    let ch := fun (n : Nat) => s.f (PWR_HK_CH__VALUE n)
    (s, some (ok ((List.range 8).map (fun i => ch (2 * i) + 0x10000 * ch (2 * i + 1))
      ++ [s.pwr.rounds - 1, s.f PWR_MEAS__MW, s.rn PWR_HEADROOM, s.f PWR_STAT__DEG_LEVEL])))))

/-- THM_GET_BAND (R398). -/
def execThmGetBand (p : Pkt) (s : State) : Res :=
  .next (runOp 0x0C04 p s (fun s =>
    let b := s.f THM_STAT__BAND
    (s, some (ok [b, s.f THM_STAT__TEMP, (ceiling b).getD 0, refMult b, sustainGb s.dev.variant.big b
      , s.f THM_STAT__SENSOR_FAULT]))))

end Sys2Proof.Machine
end

