-- ==== Sys2Proof/Machine/Tst.lean ====
section
/-!
DEFINITION. Self-test, repair records and the test multiplexers, and the opcodes of group 0x0D (spec/22_test_repair_debug.md, R408 to
R421).
-/
namespace Sys2Proof.Machine
open Sys2Proof

/-- Change TST's inner state. -/
def State.modTst (s : State) (g : TstSt → TstSt) : State := { s with tst := g s.tst }

/-! ### Conditions (R410, Tables 22-1 and 22-2) -/

/-- The condition of a partition, bit 4 being the VQ arrays of R415. -/
def State.partOk (s : State) (bit : Nat) : Bool :=
  match bit with
  | 0 => (List.range 4).all (fun p => !s.on (LNK_P_CFG__EN p))
  | 1 => (List.range 6).all (fun c => decide (s.cst c ≤ 1))
  | 2 => (List.range 16).all (fun i => s.encState i != 2 && s.encState i != 3) && s.cdc.dec.toList.all (fun d => !d.open_)
  | 3 => (List.range 4).all (fun q => s.portState q == 0)
  | _ => (List.range 16).all (fun n => s.vqOut n == 0)

/-- The condition of an analogue item. -/
def State.itemOk (s : State) (item arg0 : Nat) : Bool :=
  match item with
  | 0 => true
  | 1 => (List.range 24).all (fun l => !bitAt arg0 l || (match s.laneOwner l with
      | some p => !s.on (LNK_P_CFG__EN p)
      | none => true))
  | 2 => !s.net.up
  | 3 => !s.net.up
  | 4 => [0, 1].all (fun q => !bitAt arg0 q || s.portState q == 0)
  | _ => [2, 3].all (fun q => !bitAt arg0 q || s.portState q == 0 || s.portState q == 3)

/-- The condition of a test. -/
def State.testOk (s : State) (r : TstRun) : Bool :=
  if r.kind = 0 then s.itemOk r.item r.arg0 else (List.range 5).all (fun b => !bitAt r.arg0 b || s.partOk b)

/-- What is wrong with a test's arguments: the code 0x8006, or a parameter word out of range. -/
def badArgs (r : TstRun) : Option Outc :=
  if r.kind = 0 then
    if 5 < r.item then some (refuse stBadParam 0x8006)
    else if 1 ≤ r.item ∧ r.item ≤ 3 ∧ (r.arg1 < 1 ∨ 60000 < r.arg1) then some (badWord 2)
    else none
  else if r.kind = 1 then
    if r.arg0 % 16 = 0 ∨ 2 < r.item then some (refuse stBadParam 0x8006)
    else if r.item = 2 ∧ (r.arg2 < 1 ∨ 1048576 < r.arg2) then some (badWord 2)
    else none
  else if r.arg0 % 32 = 0 then some (refuse stBadParam 0x8006)
  else none

/-! ### Starts (R408, R409) -/

/-- The B job of the one test. -/
def testJob : BJob := .test 0

/-- The admitted test starts: it receives its RUN_ID, and its opcode replies. -/
def State.beginTest (s : State) : State :=
  match s.tst.run with
  | none => s
  | some r =>
    let s := (s.leaveB testJob).bumpEvt .tst TST_RUN_ID
    let id := s.rn TST_RUN_ID
    let s := s.modTst (fun t => { t with run := some { r with id := id, began := true, hdr := none } })
    let s := (s.setF TST_STAT__OWNER r.owner).setF TST_RESULT__STATUS 0
    let s := if r.kind = 0 ∧ r.item = 1 then
        (List.range 24).foldl (fun s l => if bitAt r.arg0 l then s.laneLost l else s) s
      else s
    match r.hdr with
    | some h => s.finishF h (ok [id])
    | none => s

/-- A test arrives at the budget scheduler; it starts when admitted. -/
def State.offerTest (s : State) (r : TstRun) : State :=
  let s := (s.modTst (fun t => { t with run := some r })).arrive testJob
  if s.isAdmitted testJob then s.beginTest else s

/-- A test opcode: its arguments, then a test that runs, then its condition. -/
def State.testOp (s : State) (h : Hdr) (r : TstRun) : State × Option Outc :=
  match badArgs r with
  | some o => (s, some o)
  | none =>
    if s.tst.run.isSome then (s, some (refuse stState 0x8001))
    else if s.testOk r = false then (s, some (refuse stState 0x8002))
    else
      let s := s.offerTest { r with hdr := some h }
      if s.tst.run.any (fun q => q.began) then (s, none)
      else (s.restart h (fun e => { e with waitB := true }), none)

/-- TST_RUN_ANALOGUE (R408 to R411). -/
def execTstRunAnalogue (p : Pkt) (s : State) : Res :=
  let h := s.pktHdr 0x0D00 p
  .next (runOp 0x0D00 p s (fun s => s.testOp h {
    id := 0, kind := 0, item := p.b 0 0 4, arg0 := p.w 1, arg1 := p.w 2, arg2 := 0, repair := false, owner := 0 }))

/-- TST_RUN_LBIST (R408 to R410, R412, R413). -/
def execTstRunLbist (p : Pkt) (s : State) : Res :=
  let h := s.pktHdr 0x0D01 p
  .next (runOp 0x0D01 p s (fun s => s.testOp h {
    id := 0, kind := 1, item := p.b 0 8 2, arg0 := p.b 0 0 4, arg1 := p.w 1, arg2 := p.w 2, repair := false, owner := 0 }))

/-- TST_RUN_MBIST (R408 to R410, R415). -/
def execTstRunMbist (p : Pkt) (s : State) : Res :=
  let h := s.pktHdr 0x0D02 p
  .next (runOp 0x0D02 p s (fun s => s.testOp h {
    id := 0, kind := 2, item := 0, arg0 := p.b 0 0 5, arg1 := 0, arg2 := 0, repair := p.t 0 8, owner := 0 }))

/-- A register start (R408): refused, it sets REFUSED and changes nothing. -/
def State.testStart (s : State) (master : Byte) (kind : Nat) (item : BitVec 6) : State :=
  let a := s.rn TST_ARG0
  let r : TstRun := {
    id := 0, kind := kind, item := if kind = 2 then 0 else item.toNat, arg0 := if kind = 0 then a else if kind = 1 then a % 16 else a % 32
    arg1 := s.rn TST_ARG1, arg2 := s.rn TST_ARG2, repair := kind == 2 && bitAt a 8, owner := master.toNat }
  if s.shut master then s
  else if (badArgs r).isSome || s.tst.run.isSome || !s.testOk r then s.raise TST_STAT__REFUSED
  else ((s.setF TST_CTRL__KIND kind).setF TST_CTRL__ITEM item.toNat).offerTest r

/-- TST_CTRL.START with KIND analogue (R408). -/
def execTstStartAnalogue (master : Byte) (item : BitVec 6) (s : State) : Res := .next (s.testStart master 0 item)
/-- TST_CTRL.START with KIND logic BIST (R408). -/
def execTstStartLbist (master : Byte) (item : BitVec 6) (s : State) : Res := .next (s.testStart master 1 item)
/-- TST_CTRL.START with KIND MBIST (R408). -/
def execTstStartMbist (master : Byte) (item : BitVec 6) (s : State) : Res := .next (s.testStart master 2 item)

/-- Post a result (R421). -/
def State.postResult (s : State) (r : TstRun) (status : Nat) (words : List Nat) : State :=
  let q : TstResult := { id := r.id, kind := r.kind, item := r.item, status := status, owner := r.owner, words := words }
  let s := s.modTst (fun t => { t with run := none, results := (q :: t.results).take 8 })
  let s := s.setF TST_RESULT__STATUS status
  if status = 2 then s.bumpStat TST_FAIL_CNT else s

/-- TST_ADMIT_EXPIRY (R409): a register start that has not been admitted in 2 ms ends DEFERRED. -/
def execTstAdmitExpiry (s : State) : Res :=
  match s.tst.run with
  | none => .next s
  | some r =>
    if r.began ∨ r.hdr.isSome = true then .next s
    else
      let s := (s.deferB testJob).bumpEvt .tst TST_RUN_ID
      let s := s.setF TST_STAT__OWNER r.owner
      .next (s.postResult { r with id := s.rn TST_RUN_ID } 3 [0, 0, 0, 0])

/-! ### Logic BIST (R412, R413) -/

/-- Registers from `a` up to `b` return to their reset values, those of `keep` apart. -/
def State.resetRange (s : State) (a b : Nat) (keep : List Nat) : State :=
  { s with regs := s.regs.filter (fun e => decide (e.1 < a) || decide (b ≤ e.1) || keep.contains e.1) }

/-- A partition that has been scanned is at reset (R412). What boot has found of lanes stays, as DEV_RESET would leave it. -/
def State.resetPart (s : State) (bit : Nat) : State :=
  match bit with
  | 0 =>
    let s := s.resetRange 0x400000 0x500000 [RAW_LANES]
    { s with raw := Vector.replicate 4 {} }
  | 1 =>
    let s := (s.resetRange 0x500000 0x800000 [CLR_LANES]).resetRange 0x808000 0x809000 []
    { s with ctx := Vector.replicate 6 {}, ladle := {}, tap := Vector.replicate 10 {} }
  | 2 => (s.resetRange 0xA00000 0xB00000 []).cdcReset
  | _ =>
    let s := s.resetRange 0xB00000 0xD00000 []
    { s with cmp := { s.cmp with unit := Vector.replicate 4 {}, fence := [] }, dsp := {} }

/-- Verdict on partition `b`: 0 equal, 1 different, 2 no entry in the signature table. -/
def verdict (e : TestEnd) (b : Nat) : Nat :=
  match e.table.getD b none with
  | none => 2
  | some w => if e.sigs.getD b 0 = w then 0 else 1

/-- Logic BIST ends: signatures, the partitions' reset, and the safe state on a difference. -/
def State.endLbist (s : State) (r : TstRun) (e : TestEnd) : State :=
  let bits := (List.range 4).filter (fun b => bitAt r.arg0 b)
  let bad := if r.item = 2 then [] else bits.filter (fun b => verdict e b == 1)
  let noRef := r.item != 2 && bits.any (fun b => verdict e b == 2)
  let s := bits.foldl State.resetPart s
  let s := s.wr TST_SIG (e.sigs.getD (bits.headD 0) 0)
  let s := s.postResult r (if bad.isEmpty = false then 2 else if noRef then 4 else 1)
    ((List.range 4).map (fun b => if bits.contains b then (e.sigs.getD b 0).toNat else 0))
  bad.foldl (fun s b => s.enterSafe 5 b) s

/-! ### MBIST (R415, R416) -/

/-- The shadow tables of a tested block return to its committed state (R415). -/
def State.restoreCommitted (s : State) (bit : Nat) : State :=
  let last := fun (c : Nat) =>
    let q := s.cx c
    match q.pending with
    | some i => some i
    | none => if q.bound.isEmpty then q.live else q.bound.getLast?
  match bit with
  | 0 => (List.range 4).foldl (fun s p =>
      let g := ((last p).map (·.raw)).getD {}
      s.modRw p (fun q => { q with lin := g.lin, black := g.black, defects := g.defects })) s
  | 1 => (List.range 6).foldl (fun s c =>
      let i := last c
      let s := s.modCx c (fun q => { q with clrGrid := i.bind (fun g => g.clr.grid) })
      (s.ownedTaps c).foldl (fun s t =>
        let g : TapCfg := ((i.bind (fun g => g.taps.find? (fun x => x.engine == t)))).getD { engine := t }
        s.modTp t (fun q => { q with
          shaper := g.shaper, lut3 := g.lut3, outLut := g.outLut, hScale := g.hScale, vScale := g.vScale })) s) s
  | 3 => (List.range 4).foldl (fun s n => s.modCmp n (fun u =>
      let g := match u.set with
        | some x => some x
        | none => u.live
      let luts := (g.map (fun x => x.layers.map (fun (l : LayerCfg) => l.lut))).getD []
      { u with
        shadow := List.zipWith (fun (l : LayerCfg) i => { l with lut := luts.getD i none }) u.shadow (List.range 8)
        shadowPost := g.bind (fun x => x.post) })) s
  | _ => s

/-- Change a repair status; the DLT is published again when it changes (R68, Table 22-4). -/
def State.setRepair (s : State) (unit v : Nat) : State :=
  if s.tst.status.getD unit 0 = v then s
  else (s.modTst (fun t => { t with status := t.status.set unit v })).republish

/-- SOFT repairs append to the records (R416). -/
def softRepairs (l : List (Nat × Nat × Nat)) : List Repair :=
  l.map (fun (x : Nat × Nat × Nat) => { kind := x.1, st := 0, inst := x.2.1, addr := x.2.2 })

/-- MBIST ends: restored state, repairs, and the safe state for a failure no spare covers. -/
def State.endMbist (s : State) (r : TstRun) (e : TestEnd) : State :=
  let s := ((List.range 4).filter (fun b => bitAt r.arg0 b)).foldl State.restoreCommitted s
  let fixes := if r.repair then e.repairs else []
  let s := s.modTst (fun t => { t with
    records := t.records ++ softRepairs fixes, used := t.used.set 2 (t.used.getD 2 0 + fixes.length) })
  let lost := r.repair && e.uncovered
  let s := s.postResult r (if (e.failures != 0 && !r.repair) || lost then 2 else 1) [e.failures, fixes.length, 0, 0]
  if lost then (s.setRepair 2 2).enterSafe 2 2 else s

/-- TEST_DONE (R411 to R415): the running test ends; HK_REF ends with its fourth round and by what the rounds showed. -/
def execTestDone (e : TestEnd) (s : State) : Res :=
  match s.tst.run with
  | none => .next s
  | some r =>
    if r.began = false then .next s
    else if r.kind = 1 then .next (s.endLbist r e)
    else if r.kind = 2 then .next (s.endMbist r e)
    else if r.item = 0 ∧ r.rounds.length < 4 then .next s
    else
      let pass := if r.item = 0 then (r.rounds.take 4).all id else e.pass && ((r.item != 1 && r.item != 2) || e.errs == 0)
      let s := s.postResult r (if pass then 1 else 2) [e.errs, e.bits, 0, 0]
      .next (if pass then s else s.log .tst evTstFail)

/-! ### Results, multiplexers, records (R417, R420, R421) -/

/-- The runs TST_GET_RESULT knows, newest first. -/
def State.testRuns (s : State) : List TstResult :=
  match s.tst.run with
  | some r =>
    if r.began then
      (⟨r.id, r.kind, r.item, 0, r.owner, [0, 0, 0, 0]⟩ :: s.tst.results).take 8
    else s.tst.results
  | none => s.tst.results

/-- TST_GET_RESULT (R421). -/
def execTstGetResult (p : Pkt) (s : State) : Res :=
  .next (runOp 0x0D03 p s (fun s =>
    let id := p.w 0
    match (if id = 0 then s.testRuns.head? else s.testRuns.find? (fun r => r.id == id)) with
    | none => (s, some (refuse stState 0x8003))
    | some r => (s, some (ok ([r.id, r.item + 64 * r.kind, r.status, r.owner] ++ r.words)))))

/-- The selection codes of Table 22-7. -/
def tmuxCodes : List Nat :=
  [0x00, 0x10, 0x11, 0x12, 0x13, 0x20, 0x30, 0x31, 0x32, 0x33, 0x40, 0x50, 0x51, 0x60, 0x70, 0x80, 0x90, 0xA0]
/-- A value of TST_TMUX names codes of Table 22-7. -/
def tmuxOk (v : Nat) : Bool := tmuxCodes.contains (bitsAt v 0 8) && tmuxCodes.contains (bitsAt v 8 8)

/-- TST_SET_TMUX (R420, R421). -/
def execTstSetTmux (p : Pkt) (s : State) : Res :=
  .next (runOp 0x0D04 p s (fun s =>
    if tmuxOk (p.w 0) = false then (s, some (refuse stBadParam 0x8006)) else (s.wn TST_TMUX (p.w 0), some ok)))

/-- Spares of raw lanes, pipeline lanes, SRAM and DRAM (Table 22-4; log 42). -/
def spareCount (unit : Nat) : Nat := if unit = 0 then 2 else if unit = 1 then 1 else (Config.spareTotal unit).toNat

/-- RPR_GET_STATUS (R421). -/
def execRprGetStatus (p : Pkt) (s : State) : Res :=
  .next (runOp 0x0D05 p s (fun s =>
    let word := fun (u : Nat) => spareCount u + 0x100 * (s.tst.used.getD u 0 % 256) + 0x10000 * s.tst.status.getD u 0
    (s, some (ok ((List.range 4).map word ++ [s.tst.records.length, (s.tst.records.filter (fun r => r.st == 2)).length])))))

/-- SOFT and SUSPECT DRAM rows, by position in the records. -/
def pprRows (l : List Repair) : List Nat :=
  (List.range l.length).filter (fun i => match l[i]? with
    | some r => r.kind == 4 && r.st != 1
    | none => false)

/-- Takes or pins are in use. -/
def State.vaultHeld (s : State) : Bool := !s.takesUsed.isEmpty || s.vlt.pins.toList.any (·.isSome)

/-- The rows of `l` at the given positions become HARD. -/
def hardened (l : List Repair) (rows : List Nat) : List Repair :=
  List.zipWith (fun (r : Repair) i => if rows.contains i then { r with st := 1 } else r) l (List.range l.length)

/-- RPR_COMMIT_PPR (R417): at most four rows become HARD, the vault is cleared, and the DLT published. -/
def execRprCommitPpr (p : Pkt) (s : State) : Res :=
  .next (runOp 0x0D06 p s (fun s =>
    if s.partOk 1 = false ∨ s.partOk 4 = false then (s, some (refuse stState 0x8002))
    else if p.t 0 0 = false ∧ s.vaultHeld = true then (s, some (refuse stState 0x8004))
    else
      let rows := (pprRows s.tst.records).take 4
      let left := (pprRows s.tst.records).length - rows.length
      let done := rows.filterMap (fun i => s.tst.records[i]?)
      let gone := fun (line : Nat) =>
        let v := s.suspectWord (64 * line)
        done.any (fun r => r.inst == bitsAt v 26 5 && r.addr == v % 0x400000)
      let s := { s with cxl := { s.cxl with poisoned := s.cxl.poisoned.filter (fun x => !gone x) } }
      let s := s.modTst (fun t => { t with records := hardened t.records rows })
      (s.clearVault.publish, some (ok [rows.length, left]))))

end Sys2Proof.Machine
end

