-- ==== Sys2Proof/Machine/Boot.lean ====
section
/-!
DEFINITION. Boots, resets, device power states and firmware (spec/21_startup_reset.md, R399 to R407; spec/20, R396, R397; spec/09, R184,
R185, R204, VLT_SET_LAYOUT).
-/
namespace Sys2Proof.Machine
open Sys2Proof

/-- Change the device-level conditions, the flash, the attachment. -/
def State.modDev (s : State) (g : DevSt → DevSt) : State := { s with dev := g s.dev }
def State.modFlash (s : State) (g : FwSt → FwSt) : State := { s with flash := g s.flash }
def State.modCxl (s : State) (g : CxlSt → CxlSt) : State := { s with cxl := g s.cxl }

/-! ### Step 3: the link (spec/03, R49) -/

/-- The link as it trained: CXL negotiated in full, width, rate. -/
def State.linkUp (s : State) (full : Bool) (width rate : Nat) : State :=
  s.modCxl (fun c => { c with
    up := true, fallback := !(full && decide (16 ≤ rate) && decide (4 ≤ width)), width := width, rate := rate })

/-! ### Step 4: firmware and the Rind policy (R399, R403; spec/14, Table 14-1) -/

/-- A little-endian field of `n` bytes. -/
def fldAt (bs : List Byte) (a n : Nat) : Nat := leNat ((bs.drop a).take n)
/-- Three 16-bit values. -/
def rgbAt (bs : List Byte) (a : Nat) : Nat × Nat × Nat := (fldAt bs a 2, fldAt bs (a + 2) 2, fldAt bs (a + 4) 2)

/-- A composer entry of 64 bytes. -/
def rindEntryOf (b : List Byte) : RindEntry :=
  let f := fldAt b 0 1
  { shows := bitAt f 0, tally := bitAt f 1, tc := bitAt f 2, lines := bitAt f 3, wbRind := bitAt f 4, hostLines := bitAt f 5
    hostTcPos := bitAt f 6, width := fldAt b 1 1, tallyRgb := rgbAt b 2, lineRgb := rgbAt b 8, lineAlpha := fldAt b 14 2
    lineWidth := fldAt b 16 1, lineMask := fldAt b 17 1, tcPos := fldAt b 18 1, tcRows := fldAt b 19 1
    aspects := (List.range 8).map (fun i => (fldAt b (20 + 4 * i) 2, fldAt b (22 + 4 * i) 2)) }

/-- The policy of a section, if MAGIC, VERSION, length and CRC hold (spec/14, R303). -/
def rindPolicyOf (b : List Byte) : Option RindPolicy :=
  if b.length ≠ 288 ∨ fldAt b 0 4 ≠ 0x50524C46 ∨ fldAt b 4 2 ≠ 0x0100 ∨ fldAt b 6 2 ≠ 288 ∨ fldAt b 8 4 ≠ crc32 (b.drop 12) then none
  else some {
    byDefault := false, locked := true, version := 0x0100, crc := BitVec.ofNat 32 (fldAt b 8 4), bg := rgbAt b 12, text := rgbAt b 18
    entry := (List.range 4).map (fun n => rindEntryOf ((b.drop (32 + 64 * n)).take 64)) }

/-- Step 4. -/
def State.bootLoad (s : State) (r : BootRep) : State :=
  let slot := if r.fallback then 1 - s.flash.sel else s.flash.sel
  let s := s.modFlash (fun f => { f with slot := slot, version := Config.fwPackage slot (f.staged.getD slot []) })
  let s := (s.setF EVT_BOOT_STAT__SLOT slot).setB EVT_BOOT_STAT__SLOT_FALLBACK r.fallback
  let s := if r.fallback then s.log .dev evFwFallback else s
  match rindPolicyOf r.policy with
  | some q => { s with cmp := { s.cmp with rind := q } }
  | none => State.log { s with cmp := { s.cmp with rind := { locked := true } } } .cmp evRindDefault

/-! ### Step 5: repair (spec/22, R414, R416; spec/09, R185) -/

/-- Status of raw and pipeline lanes with `n` failed (Table 22-4). -/
def rawStatus (n : Nat) : Nat := if n ≤ 2 then 0 else if 4 ≤ 34 - n then 1 else 2
def pipeStatus (n : Nat) : Nat := if n ≤ 1 then 0 else if 1 ≤ 17 - n then 1 else 2
/-- Status of the DRAM: `nominal` and `usable` sectors; a sector remapped or a lowered end is DEGRADED (Table 22-4; spec/09, R185). -/
def dramStatus (remapped : Bool) (nominal usable : Nat) : Nat :=
  if 1000 * usable < 995 * nominal then 2 else if remapped ∨ usable < nominal then 1 else 0

/-- A repair record's entry, if its CRC-8 holds (Table 22-5). -/
def repairOf (b : List Byte) : Option Repair :=
  if crcBytes 8 0x07 0 (b.take 7) = fldAt b 7 1 then
    some { kind := fldAt b 0 1, st := fldAt b 1 1, inst := fldAt b 2 2, addr := fldAt b 4 3 }
  else none

/-- The records that a header rebuilt from its entries holds (R416). -/
def soundRecords (b : List Byte) : List Repair :=
  (List.range (b.length / 8)).filterMap (fun i => repairOf ((b.drop (8 * i)).take 8))

/-- The records of remapped sectors (Table 22-5, KIND 5). -/
def sectorRepairs (remap : List (Nat × Nat)) : List (Nat × Nat × Nat) := remap.map (fun r => (5, r.1 / 0x1000000 % 4, r.1 % 0x1000000))

/-- Sector after the last area of a layout. -/
def layoutEnd (base : Nat) (units : List Nat) : Nat := units.foldl (fun a u => a + ringSect u + spillSect u) base

/-- Lower RING_UNITS of the highest-numbered context that has more than one unit. -/
def lowerOne (units : List Nat) : Option (List Nat) :=
  (((List.range units.length).reverse).find? (fun c => decide (1 < units.getD c 0))).map (fun c => units.set c (units.getD c 0 - 1))

/-- Shorten a layout until it ends at or below the usable end (R185); at most `k` units. -/
def shorten (base usable : Nat) : Nat → List Nat → List Nat
  | 0, u => u
  | k + 1, u =>
    if layoutEnd base u ≤ usable then u
    else
      match lowerOne u with
      | some v => shorten base usable k v
      | none => u

/-- The usable end and the layout of a boot that does not retain the vault (R184, R185). -/
def State.newLayout (s : State) (cold : Bool) (lost : Nat) : State :=
  let nominal := nominalSect s.dev.variant
  let usable := (nominal - lost) / 0x10000 * 0x10000
  let old := if cold then defaultUnits nominal else s.vlt.units
  let new := if cold then defaultUnits usable else shorten s.ringsAt usable old.sum old
  let s := s.modVlt (fun q => { q with usable := usable, capacity := nominal - lost, units := new })
  if new.sum < old.sum then s.log .vlt evVltShrunk 0xFFFF (old.sum - new.sum) else s

/-- Step 5. `clear`: the vault is not retained; `cold`: the layout returns to its default. -/
def State.bootRepair (s : State) (r : BootRep) (clear cold : Bool) : State :=
  let s := match r.recordsBad with
    | none => s
    | some b => (s.modTst (fun t => { t with records := soundRecords b })).log .tst evRprRebuilt
  let s := s.modTst (fun t => { t with records := t.records ++ softRepairs r.repairs })
  -- An instance fused off or unrepaired is DISABLED (spec/04, Table 4-2).
  let s := { s with dlt := { s.dlt with disabled := r.fused
      ++ (if rawStatus r.rawFailed = 2 then [Blk.raw.pos] else []) ++ (if pipeStatus r.pipeFailed = 2 then [Blk.clr.pos] else []) } }
  let s := (s.setF RAW_LANES__AVAIL (min 32 (34 - r.rawFailed))).setF CLR_LANES__AVAIL (min 16 (17 - r.pipeFailed))
  let s := s.modTst (fun t => { t with
    used := [min 2 r.rawFailed, min 1 r.pipeFailed, r.sramUsed, if clear then r.dramUsed else t.used.getD 3 0]
    status := [rawStatus r.rawFailed, pipeStatus r.pipeFailed, if r.sramFailed then 2 else 0, t.status.getD 3 0] })
  if clear = false then s
  else
    let s := (List.range 32).foldl (fun s i => s.wn (DMC_SUSPECT i) 0) s
    let s := (s.newLayout cold r.lost).modCxl (fun c => { c with poisoned := [] })
    s.modTst (fun t => { t with
      remap := r.remap
      records := t.records.filter (fun q => q.kind != 5) ++ softRepairs (sectorRepairs r.remap)
      status := t.status.set 3 (dramStatus (!r.remap.isEmpty) (nominalSect s.dev.variant) s.vlt.usable) })

/-! ### Step 6: delays and the logs (spec/19, R375; spec/23, R428) -/

/-- Magic, version and CRC of a calibration record hold (Table 19-3). -/
def calValid (b : List Byte) : Bool :=
  b.length == 1172 && fldAt b 0 4 == 0x43444C46 && fldAt b 4 2 == 0x0100 && fldAt b 1168 4 == crc32 (b.take 1168)

/-- The record that firmware uses, and whether it is the second copy (R376). -/
def calRecord (r : BootRep) : Option (List Byte × Bool) :=
  if calValid r.cal.1 then some (r.cal.1, false) else if calValid r.cal.2 then some (r.cal.2, true) else none

/-- The delays and offsets of the calibration record are written and locked. -/
def State.bootDelays (s : State) (r : BootRep) : State :=
  let n := s.f DMC_STAT__CHANNELS
  let b := ((calRecord r).map (·.1)).getD []
  let s := (List.range n).foldl (fun s c =>
    let d := fun (i : Nat) => fldAt b (16 + 12 * c + 2 * i) 2 % 512
    let s := (s.wn (DMC_CH_DLY0 c) (d 0 + 0x10000 * d 1)).wn (DMC_CH_DLY1 c) (d 2 + 0x10000 * d 3)
    let s := s.wn (DMC_CH_DLY2 c) (d 4)
    (List.range 6).foldl (fun s k => s.wn (DMC_OFS k c) (fldAt b (400 + 128 * k + 4 * c) 3)) s) s
  let s := (s.raise DMC_CTRL__DLY_LOCK).delayPass
  if (calRecord r).any (·.2) then (s.raise DMC_ERR__CAL_ALT).log .dmc evDmcCalAlt else s

/-- The live log resumes after the post-mortem copy, the error log is restored, and the held events are numbered (R428). -/
def State.resumeLogs (s : State) : State :=
  if s.evt.holding = false then s
  else
    let copy := s.evt.post.getD ([], [])
    let seq := match copy.1.getLast? with
      | some e => e.seq + 1
      | none => 1
    let held := s.evt.boot
    let s := ((s.wr EVT_TAIL_SEQ seq).wr EVT_HEAD_SEQ seq).wr EVT_RD_SEQ seq
    let s := { s with evt := { s.evt with holding := false, boot := [], live := [], err := copy.2 } }
    held.foldl State.logEntry s

/-! ### Step 8: the vault (R401; spec/09, R204) -/

/-- Position of an area in the order of Table 9-1. -/
def Area.index (a : Area) : Nat := 2 * a.ctx + b2n a.spill

/-- Step 3 of the rebuild: an OPEN record closes at its last landed stripe, and its counts enter the takes that hold it. What the logic had
not written yet is lost (R187). -/
def State.rebuildOpen (s : State) : State :=
  (s.vlt.recs.filter (fun r => r.isOpen && !r.reclaimed)).foldl (fun s r =>
    let r' : Rec := { r with
      isOpen := false, truncated := true, cause := 8, sectors := r.used, rebuilt := true, processed := false, skipped := false
      zsValid := false, zone := none, proc := none, embBytes := [] }
    (s.modRec r.ctx r.fid (fun _ => r')).countTakes r') s

/-- Steps 2 and 3: the index holds what the walk finds; an area whose walk is late is not indexed. -/
def State.rebuildIndex (s : State) (late : Option Nat) : State :=
  let s := s.modVlt (fun q => { q with index := [] })
  (s.vlt.recs.filter (fun r => !r.reclaimed)).foldl (fun s r =>
    if late.isSome ∧ (s.areaOf r.base).map Area.index = late then s
    else s.setIdx r.ctx r.fid {
      fid := r.fid, gen := r.gen, vsa := r.base, sectors := r.sectors, valid := true, guest := r.guest, truncated := r.truncated
      processed := r.processed }) s

/-- Step 4: the counters, the epoch and the write pointers, and what VLT_Cc_STAT says of each latest record. -/
def State.rebuildCounters (s : State) : State :=
  let rs := s.vlt.recs.filter (fun r => !r.reclaimed)
  let top := fun (f : Rec → Nat) => rs.foldl (fun m r => max m (f r + 1)) 0
  let s := (s.wn VLT_GEN (top (·.gen))).wn TIM_NOW_EPOCH (top (·.epoch))
  let s := (List.range 6).foldl (fun s c =>
    let fs := (rs.filter (fun r => r.ctx == c)).map (·.fid)
    s.wn (VLT_C_NEWEST_FID c) (match fs with
      | [] => 0
      | a :: t => t.foldl (fun m f => if serialLt m f then f else m) a)) s
  let newestOf := fun (l : List Rec) => l.foldl (fun (m : Option Rec) r => match m with
    | none => some r
    | some q => if serialLt q.gen r.gen then some r else some q) none
  let s := (List.range 6).foldl (fun s c =>
    match newestOf (rs.filter (fun r => r.ctx == c)) with
    | none => s
    | some r => (s.setB (VLT_C_STAT__BORROWING c) r.guest).setB (VLT_C_STAT__IN_SPILL c) r.spill) s
  (List.range 6).foldl (fun s c => [false, true].foldl (fun s sp =>
    let a : Area := ⟨c, sp⟩
    let inA := rs.filter (fun r => s.areaOf r.base == some a)
    s.setAreaWp a (match newestOf inA with
      | some r => r.base + r.sectors
      | none => (s.area a).1)) s) s

/-- Step 5: the take table. -/
def State.rebuildTakes (s : State) (lost : List Nat) : State :=
  let s := lost.foldl (fun s i =>
    if (s.vlt.takes.toList.getD i none).isNone then s
    else (s.modVlt (fun q => { q with takes := q.takes.setIfInBounds i none })).log .vlt evTakeLost) s
  let s := s.takesUsed.foldl (fun s t =>
    if t.2.closed then s
    else s.modTake t.1 (fun k => { k with
      closing := true, closed := true, interrupted := true, closeT := (s.rn TIM_NOW_EPOCH, s.rn TIM_NOW_NS)
      ctx := if k.closing then k.ctx else Vector.ofFn (fun c =>
        let e := k.ctx[c]
        if e.named then { e with last := s.rn (VLT_C_NEWEST_FID c.val) } else e) })) s
  s.modVlt (fun q => { q with takeNo := (s.takesUsed.map (fun t => t.2.no)).foldl (fun m n => if serialLt m n then n else m) 0 })

/-- R204: the rebuild. -/
def State.rebuild (s : State) (r : BootRep) : State :=
  let s := r.broken.foldl (fun s x =>
    (s.modVlt (fun q => { q with recs := q.recs.filter (fun o => o.base != x) })).log .vlt evVltChainBreak) s
  let s := ((s.rebuildOpen.rebuildIndex r.late).rebuildCounters).rebuildTakes r.lostTakes
  s.modVlt (fun q => { q with pins := q.pins.map (fun p => p.filter (fun x => x.retain)) })

/-- Step 8; the asset area is filled (spec/14, R303). -/
def State.bootVault (s : State) (r : BootRep) (clear : Bool) : State :=
  let s := if clear then s.clearVault else s.rebuild r
  let s := (s.setB EVT_BOOT_STAT__RETAINED (!clear)).modDev (fun d => { d with clearDue := if clear then false else d.clearDue })
  State.tallies { s with cmp := { s.cmp with assets := true } }

/-! ### The sequence (R399, R400, R403) -/

/-- A boot failure that puts the device in the safe state: FAIL_CODE, cause, detail (Table 21-4). -/
def State.bootFault (s : State) (k : Nat) (code cause detail : Nat) : State :=
  let s := if s.dev.safe then s else (s.setF EVT_BOOT_STAT__FAIL_CODE code).setF EVT_BOOT_STAT__STEP (k - 1)
  s.enterSafe cause detail

/-- Steps 5, 7 and 8 may fail (Table 21-4). -/
def State.bootJudge (s : State) (r : BootRep) (k : Nat) : State :=
  if k = 5 then
    match (List.range 4).find? (fun u => s.tst.status.getD u 0 == 2) with
    | some u => s.bootFault 5 4 2 u
    | none => s
  else if k = 7 then
    match r.analogue with
    | some i => s.bootFault 7 5 3 i
    | none => s
  else if k = 8 then
    match r.late with
    | some a => if s.on EVT_BOOT_STAT__RETAINED then s.bootFault 8 6 4 a else s
    | none => s
  else s

/-- What step `k` does. -/
def State.bootAct (s : State) (r : BootRep) (clear cold : Bool) (k : Nat) : State :=
  match k with
  | 3 => match r.link with
    | some (full, width, rate) => s.linkUp full width rate
    | none => s
  | 4 => s.bootLoad r
  | 5 => s.bootRepair r clear cold
  | 6 => ((s.bootDelays r).resumeLogs).modDev (fun d => { d with fwRun := true })
  | 8 => s.bootVault r clear
  | 9 => s.publish.modCxl (fun c => { c with memInfoValid := !c.fallback })
  | 10 => (s.fabTicks r.ticks).modDev (fun d => { d with ready := true })
  | _ => s

/-- STEP shows the last step completed before a failure. -/
def State.stepMark (s : State) (k : Nat) : State := if s.dev.safe then s else s.setF EVT_BOOT_STAT__STEP k

/-- Step `k`. -/
def State.bootStep (r : BootRep) (clear cold : Bool) (s : State) (k : Nat) : State :=
  ((s.bootAct r clear cold k).stepMark k).bootJudge r k

/-- LAST_CAUSE after a wake. -/
def State.causeMark (s : State) (type : Nat) : State :=
  if 4 ≤ type then s.setF PWR_STAT__LAST_CAUSE s.pwr.cause else s

/-- The end of step 10: Memory_Active, the boot's time and cause, and DEV_BOOT. -/
def State.bootDone (s : State) (r : BootRep) (type : Nat) : State :=
  let s := ((s.modCxl (fun c => { c with memActive := c.up && !c.fallback })).wn EVT_BOOT_TIME r.ms).causeMark type
  s.log .dev evDevBoot 0xFFFF (s.rn EVT_BOOT_STAT)

/-- What EVT_BOOT_STAT shows from the start of a boot. -/
def State.bootShow (s : State) (r : BootRep) (type : Nat) : State :=
  ((s.setF EVT_BOOT_STAT__TYPE type).setF EVT_BOOT_STAT__ATTEMPTS r.fails.length).setF EVT_BOOT_STAT__FAIL_CODE
    (r.fails.getLast?.getD 0)

/-- Steps 3 to 10; a reset stops the sequence after step `upTo`. -/
def State.bootRun (s : State) (r : BootRep) (clear cold : Bool) : State :=
  ((List.range 11).filter (fun k => decide (3 ≤ k) && decide (k ≤ r.upTo))).foldl (State.bootStep r clear cold) s

/-- The end of a sequence that no reset has stopped. -/
def State.bootEnd (s : State) (r : BootRep) (type : Nat) : State := if 10 ≤ r.upTo then s.bootDone r type else s

/-- A boot (R399, R400, R402, R403): after three failed attempts the logic stays in reset, and without a valid calibration record every
attempt fails at step 6 (R376). -/
def State.boot (s : State) (r : BootRep) : State :=
  let s' := s.modDev (fun d => { d with awaits := false })
  if 3 ≤ r.fails.length then s'.modDev (fun d => { d with bootFail := r.fails.getD 2 0 })
  else if (calRecord r).isNone ∧ 6 ≤ r.upTo then s'.modDev (fun d => { d with bootFail := 3 })
  else
    ((s'.bootShow r s.dev.bootType).bootRun r s.dev.clearDue (s.dev.bootType == 0 || s.dev.bootType == 5)).bootEnd r
      s.dev.bootType

/-- COLD_BOOT (R380, R399): VIN is in range, after power-on, UVLO or OVLO, or a wake from PS3. -/
def execColdBoot (rep : BootRep) (s : State) : Res :=
  if s.dev.awaits = false ∨ s.dev.vin = 2 ∨ s.pwr.sleep ≠ 0 ∨ (s.dev.bootType ≠ 0 ∧ s.dev.bootType ≠ 5) then .next s
  else .next ((s.modDev (fun d => { d with vin := 0 })).boot rep)

/-- WARM_BOOT (R400): after PERST_N, DEV_RESET, or a wake from PS2. -/
def execWarmBoot (rep : BootRep) (s : State) : Res :=
  if s.dev.awaits = false ∨ s.dev.vin ≠ 0 ∨ s.pwr.sleep ≠ 0 ∨ s.dev.bootType = 0 ∨ s.dev.bootType = 5 then .next s
  else .next (s.boot rep)

/-- PERST_N_ASSERT (R203, R400, R402, R428): a device that has begun a boot resets; one that waits for its first boot, sleeps or has no
input is not changed. -/
def execPerstNAssert (s : State) : Res :=
  if s.dev.vin ≠ 0 ∨ s.pwr.sleep ≠ 0 ∨ s.dev.awaits = true then .next s else .next (s.warmReset false 1)

/-- WAKE (spec/20, R390, R397): `recPin`: by REC_N; `early`: within 10 s of a thermal trip. -/
def execWake (recPin early : Bool) (s : State) : Res :=
  if s.pwr.sleep = 0 ∨ (recPin = true ∧ s.pwr.wakeRec = false) ∨ (early = true ∧ s.pwr.trip = true) then .next s
  else .next (s.modPwr (fun p => { p with sleep := 0, trip := false }))

/-! ### DEV_RESET and DEV_SET_PSTATE -/

/-- What is to follow a packet's reply, unless something already is. -/
def State.planAfter (s : State) (h : Hdr) (a : AfterAct) : State :=
  s.modDev (fun d => { d with after := if d.after.isSome then d.after else some ⟨h, a⟩ })

/-- DEV_RESET (R400, R407): the reply is written first. -/
def execDevReset (p : Pkt) (s : State) : Res :=
  let h := s.pktHdr 0x0002 p
  .next (runOp 0x0002 p s (fun s => (s.planAfter h (.reset (p.t 0 0)), some ok)))

/-- The entry conditions of PS2 and PS3 (spec/20, R396). -/
def State.mayRest (s : State) : Bool :=
  s.partOk 1 && s.partOk 4 && s.partOk 2 && s.dfl.queue.isEmpty && s.dfl.engine.all (·.isNone)

/-- What refuses entry to a state (spec/20, R396). -/
def State.restCheck (s : State) (ps : Nat) (discard : Bool) : Option Outc :=
  if s.mayRest = false then some (refuse stState 0x8010)
  else if ps = 3 ∧ discard = false ∧ s.vaultHeld = true then some (refuse stState 0x8011)
  else none

/-- DEV_SET_PSTATE (spec/20, R396, R398). -/
def execDevSetPstate (p : Pkt) (s : State) : Res :=
  let h := s.pktHdr 0x0003 p
  .next (runOp 0x0003 p s (fun s =>
    let ps := p.b 0 0 2
    if ps < 2 then (s, some (badWord 0))
    else
      match s.restCheck ps (p.t 0 5) with
      | some o => (s, some o)
      | none => (s.planAfter h (.sleep ps (p.t 0 4) (p.t 0 5)), some ok)))

/-! ### Firmware (R405, R406) -/

/-- The bytes of a staging job go to the slot that is not running. -/
def State.stageDo (s : State) (h : Hdr) : State :=
  match s.flash.jobs.find? (fun j => j.hdr == h) with
  | none => s
  | some j =>
    let n := 1 - s.flash.slot
    let s := (s.leaveB (.stage h)).modFlash (fun f => { f with
      jobs := f.jobs.filter (fun q => q.hdr != h), verified := false
      staged := f.staged.set n ((j.offset, j.data) :: f.staged.getD n []) })
    s.finishF h (ok [j.data.length])

/-- FW_STAGE (R405, R407; spec/20, R394). -/
def execFwStage (p : Pkt) (s : State) : Res :=
  let h := s.pktHdr 0x0008 p
  .next (runOp 0x0008 p s (fun s => s.refGuard (p.ref 4) 4 (fun s =>
    let o := p.w 0
    let n := (p.ref 4).len
    if s.flash.activating.isSome then (s, some (refuse stState 0x8002))
    else if o % 4096 ≠ 0 ∨ n % 4096 ≠ 0 ∨ 0x400000 < n ∨ 0x1000000 < o + n then (s, some (refuse stBadParam 0x8001))
    else
      match s.readRef (p.ref 4) p.buf with
      | none => (s.bufError .dev (p.ref 4) p.buf, some readFault)
      | some bs =>
        let s := s.modFlash (fun f => { f with jobs := f.jobs ++ [⟨h, o, bs⟩] })
        let s := s.arrive (.stage h)
        if s.isAdmitted (.stage h) then (s.stageDo h, none)
        else (s.restart h (fun e => { e with waitB := true }), none))))

/-- What checking the inactive slot gives (log 41). -/
def State.inactive (s : State) : Option (BitVec 24) :=
  let n := 1 - s.flash.slot
  Config.fwPackage n (s.flash.staged.getD n [])

/-- FW_VERIFY (R407). -/
def execFwVerify (p : Pkt) (s : State) : Res :=
  .next (runOp 0x0009 p s (fun s =>
    match s.inactive with
    | some v => (s.modFlash (fun f => { f with verified := true }), some (ok [v.toNat]))
    | none => (s.modFlash (fun f => { f with verified := false }), some (refuse stBadParam 0x8003))))

/-- CC0 to CC3 reset; each is a master reset (spec/04, R79). -/
def State.coresReset (s : State) : State :=
  [0x10, 0x11, 0x12, 0x13].foldl (fun s m => s.masterReset (BitVec.ofNat 8 m)) s

/-- The cores reset for an activation once no other firmware-path packet is left (R406, steps 1 and 3). -/
def State.coresRestart (s : State) : State :=
  match s.flash.activating with
  | none => s
  | some h =>
    if s.dev.fwRun = false ∨ s.cmd.started.any (fun e => e.executing && !e.is h) = true then s
    else s.coresReset.modDev (fun d => { d with fwRun := false })

/-- FW_ACTIVATE (R406). -/
def execFwActivate (p : Pkt) (s : State) : Res :=
  let h := s.pktHdr 0x0010 p
  .next (runOp 0x0010 p s (fun s =>
    if s.flash.activating.isSome then (s, some (refuse stState 0x8002))
    else if s.flash.verified = false then (s, some (refuse stState 0x8005))
    else
      let s := s.vqBarrier.modFlash (fun f => { f with activating := some h })
      (s.coresRestart, none)))

/-- FW_RUN_STATE (R406, step 4). -/
def execFwRunState (s : State) : Res :=
  match s.flash.activating with
  | none => .next s
  | some h =>
    if s.dev.fwRun then .next s
    else
      let v := s.inactive
      let n := 1 - s.flash.slot
      let s := s.modFlash (fun f => { f with slot := n, sel := n, version := v, verified := false, activating := none })
      let s := (s.setF EVT_BOOT_STAT__SLOT n).modDev (fun d => { d with fwRun := true })
      .next ((s.vqLift.publish).finishF h (ok [(v.getD 0).toNat]))

/-- FW_ACTIVATE_TIMEOUT (R406): the old image is loaded again. -/
def execFwActivateTimeout (s : State) : Res :=
  match s.flash.activating with
  | none => .next s
  | some h =>
    let s := if s.dev.fwRun then s else s.coresReset.modDev (fun d => { d with fwRun := true })
    let s := s.modFlash (fun f => { f with activating := none })
    .next (s.vqLift.finishF h (refuse stHwFault 0x8004))

/-! ### The layout (spec/09, R184) -/

/-- A decoder is committed; in PCIe fallback there are none (spec/03, R54, R63). -/
def State.hdmCommitted (s : State) : Bool := !s.cxl.fallback && s.cxl.hdm.toList.any (·.committed)

/-- VLT_SET_LAYOUT (spec/09, R184, R205; spec/03, R54). -/
def execVltSetLayout (p : Pkt) (s : State) : Res :=
  .next (runOp 0x0500 p s (fun s =>
    let w := p.b 0 0 7
    let units := (List.range 6).map (fun c => p.b (1 + c) 0 16)
    let emb := (List.range 6).map (fun c => p.b (1 + c) 16 5)
    let end_ := layoutEnd (w * 0x40000 + 0x8000) units
    let retained := s.vlt.pins.toList.any (fun q => q.any (fun x => x.retain))
    if s.hdmCommitted then (s, some (refuse stState 0x8001))
    else if s.partOk 1 = false ∨ s.takesUsed.isEmpty = false ∨ retained = true then (s, some (refuse stState 0x8003))
    else if w < 8 ∨ 64 < w then (s, some (badWord 0))
    else
      match (List.range 6).find? (fun c => decide (16 < emb.getD c 0)) with
      | some c => (s, some (badWord (1 + c)))
      | none =>
        if s.vlt.usable < end_ then (s, some (refuse stNoResource 0x8002))
        else
          let s0 := s
          let s := (s.setF VLT_LAYOUT__W_GIB w).modVlt (fun q => { q with units := units, emb := emb })
          ((s.clearVault.commitSince s0).publish, some (ok [s0.vlt.usable - end_]))))

end Sys2Proof.Machine
end

