-- ==== Sys2Proof/Machine/Arb.lean ====
section
/-!
DEFINITION. Which DRAM request is served when (spec/01_architecture.md, R17, R18; spec/19_dram_controller.md, R370 to R372). Times are in
quarters of a ns; a burst slot is 15 of them.
-/
namespace Sys2Proof.Machine
open Sys2Proof

/-- The class of a requester, in the order of Table 1-7: CAP, DISP, PIPE, CODEC, HOST, BULK (R17). -/
def dramClass : DramUser → Nat
  | .captureWrite | .indexUpdate | .pinUpdate => 0
  | .composerFetch | .rindFetch | .audioBuffer => 1
  | .readBack | .displayTap | .codingTap | .zoneStats => 2
  | .cdcTraffic | .syntaxBuffer | .visionTap | .writeBack => 3
  | .cxlMem | .vqCommand | .ioDma => 4
  | .deflate | .bist | .staging => 5

/-- AGE_NS of a class in quarters of a ns (Table 19-1); CAP has reserved slots in its place. -/
def ageOf (cls : Nat) : Option Nat := ([none, some 2000, some 4000, some 8000, some 4000, some 32000] : List (Option Nat)).getD cls none

/-- The page hint of a class is OPEN: its default, unless DMC_HINT overrides it (R370). -/
def State.hintOpen (s : State) (cls : Nat) : Bool :=
  match bitsAt (s.f DMC_HINT__OVR) (2 * cls) 2 with
  | 1 => true
  | 2 => false
  | _ => cls != 3 && cls != 4

/-- A request on its channel. -/
structure Burst where
  cls : Nat
  port : Nat
  bank : Nat
  row : Nat
  /-- When it reaches the head of its requester's queue, and from when bank timing allows it. -/
  since : Nat
  ready : Nat
deriving DecidableEq, Repr

def Burst.same (a b : Burst) : Bool := a.cls == b.cls && a.port == b.port
/-- The rows that stand open at time `t`: a row closes 1,000 ns after its last hit (R370). -/
def ChanSt.openAt (q : ChanSt) (t : Nat) : List (Nat × Nat × Nat) := q.rows.filter (fun r => decide (t < r.2.2 + 4000))
def ChanSt.hits (q : ChanSt) (t : Nat) (b : Burst) : Bool := (q.openAt t).any (fun r => r.1 == b.bank && r.2.1 == b.row)

/-- The first request of each requester's queue. -/
def queueHeads : List Burst → List Burst
  | [] => []
  | b :: l => b :: (queueHeads l).filter (fun x => !b.same x)

/-- The oldest of some requests. -/
def oldestOf : List Burst → Option Burst
  | [] => none
  | b :: l => some (l.foldl (fun a x => if x.since < a.since then x else a) b)

/-- Round-robin: the lowest port above the one served last, else the lowest. -/
def nextPort (last : Nat) (l : List Burst) : Option Burst :=
  let least := fun (l : List Burst) => match l with
    | [] => none
    | b :: t => some (t.foldl (fun (a x : Burst) => if x.port < a.port then x else a) b)
  (least (l.filter (fun b => decide (last < b.port)))).or (least l)

/-- The choice within a class: a hit before a miss, but no more than 8 hits ahead of an older miss (R371). -/
def ChanSt.inClass (q : ChanSt) (t cls : Nat) (l : List Burst) : Option Burst :=
  let l := l.filter (fun b => b.cls == cls)
  let hit := l.filter (q.hits t)
  let miss := l.filter (fun b => !q.hits t b)
  let oldMiss := (oldestOf miss).filter (fun m => hit.any (fun h => decide (m.since < h.since)))
  match hit, oldMiss with
  | [], _ => nextPort (q.turn.getD cls 0) miss
  | _, some m => if q.passed < 8 then nextPort (q.turn.getD cls 0) hit else some m
  | _, none => nextPort (q.turn.getD cls 0) hit

/-- The choice of a channel at time `t` among requests that may issue (R371): CAP within its 16 slots of the window, else the oldest aged
request, else the class of highest priority. -/
def ChanSt.choose (q : ChanSt) (t : Nat) (l : List Burst) : Option Burst :=
  let cap := if q.capUsed < 16 then q.inClass t 0 l else none
  let aged := oldestOf (l.filter (fun b => match ageOf b.cls with | some a => decide (b.since + a ≤ t) | none => false))
  (cap.or aged).or ((List.range 6).findSome? (fun c => q.inClass t c l))

/-- A burst of a channel issues at time `t`, with other requests `rest` waiting: the slots of the window, the turn, the rows that stay
open (R370, R371). -/
def ChanSt.issue (q : ChanSt) (t : Nat) (b : Burst) (hintOpen : Bool) (rest : List Burst) : ChanSt :=
  let older := q.hits t b && rest.any (fun x => x.cls == b.cls && !q.hits t x && decide (x.since < b.since))
  let stays := hintOpen || rest.any (fun x => x.bank == b.bank && x.row == b.row)
  let others := (q.openAt t).filter (fun r => r.1 != b.bank)
  { q with
    capUsed := if b.cls = 0 then q.capUsed + 1 else q.capUsed
    turn := q.turn.set b.cls b.port
    passed := if older then q.passed + 1 else if q.hits t b then q.passed else 0
    rows := if stays then (b.bank, b.row, t) :: others else others }

/-- The window of 64 slots that holds time `t`. -/
def ChanSt.atTime (q : ChanSt) (t : Nat) : ChanSt := if q.window = t / 960 then q else { q with window := t / 960, capUsed := 0 }

/-- Serve the requests of a channel from time `t` on, in at most `k` decisions: the class and the wait of each. -/
def ChanSt.serve (open_ : Nat → Bool) : Nat → Nat → ChanSt → List Burst → List (Nat × Nat) → ChanSt × List (Nat × Nat)
  | 0, _, q, _, done => (q, done)
  | k + 1, t, q, l, done =>
    let q := q.atTime t
    let heads := queueHeads l
    match q.choose t (heads.filter (fun b => decide (b.since ≤ t) && decide (b.ready ≤ t))) with
    | some b =>
      let rest := l.erase b
      let q := q.issue t b (open_ b.cls) rest
      ChanSt.serve open_ k (t + 15) q (rest.map (fun x => if b.same x then { x with since := max x.since t } else x)) (done ++ [(b.cls, t - b.since)])
    | none =>
      match heads.map (fun b => max b.since b.ready) with
      | [] => (q, done)
      | a :: u => ChanSt.serve open_ k (u.foldl min a) q l done

/-- The requests of a channel in a budget tick that starts at time `t0` (R369). -/
def State.burstsOf (s : State) (t0 c : Nat) (l : List DmcReq) : List Burst :=
  let big := s.dev.variant.big
  (l.filter (fun r => chanOf big (s.mediaAddr r.dpa) == c)).map (fun r =>
    let a := chanAddr big (s.mediaAddr r.dpa)
    { cls := dramClass r.user, port := r.port, bank := bitsAt a 11 4, row := bitsAt a 15 18, since := t0 + r.arrives, ready := t0 + r.ready })

/-- Serve a budget tick's requests on every channel: the class and the wait of each burst. -/
def State.dmcServe (s : State) (l : List DmcReq) : State × List (Nat × Nat) :=
  let t0 := 4000000 * s.dmc.ticks
  let r := (List.range (s.f DMC_STAT__CHANNELS)).foldl (fun x c =>
    let bs := s.burstsOf t0 c l
    let q := ChanSt.serve s.hintOpen (2 * bs.length) t0 (s.dmc.chan.toList.getD c {}) bs []
    (x.1.setIfInBounds c q.1, x.2 ++ q.2)) (s.dmc.chan, [])
  ({ s with dmc := { s.dmc with chan := r.1, ticks := s.dmc.ticks + 1 } }, r.2)

end Sys2Proof.Machine
end

