-- ==== Sys2Proof/Machine/Cxl.lean ====
section
/-!
DEFINITION. The host attachment's rows (spec/03_cxl_attachment.md): CXL.mem requests (R51, R55, R57), HDM decoders (R54), link events
(R49, R50, R65), MSI-X (R64) and FLR (R47, R60, R66; spec/21, Table 21-5).
-/
namespace Sys2Proof.Machine
open Sys2Proof

/-! ### CXL.mem -/

/-- The committed decoder that maps an HPA, and the DPA it maps to (R54). -/
def State.hdmDpa (s : State) (a : Nat) : Option (Nat × Nat) :=
  (List.range 2).findSome? (fun d =>
    let q := s.cxl.hdm.toList.getD d {}
    if q.committed ∧ q.base ≤ a ∧ a < q.base + q.size then some (d, a - q.base + if d = 0 then 0 else s.wBytes) else none)

/-- CXL.mem requests reach the device: the link is up in CXL mode (R63). -/
def State.cxlMem (s : State) : Bool := s.cxl.up && !s.cxl.fallback

/-- Free bytes. -/
def State.drawBytes : Nat → State → List Byte × State
  | 0, s => ([], s)
  | n + 1, s =>
    let d := s.draw
    let r := State.drawBytes n d.2
    (BitVec.ofNat 8 d.1.toNat :: r.1, r.2)

/-- MemRd and MemRdData (R51, R55, R57): one line in S2M DRS; a poisoned line returns data the spec does not give (log 43). -/
def State.cxlRead (s : State) (addr : Nat) : Res :=
  let a := addr / 64 * 64
  if s.cxlMem = false then .next s
  else if s.cxl.memActive = false then .next (s.emit (.drs (List.replicate 64 0xFF) true))
  else
    match s.hdmDpa a with
    | none => .fault .unmappedHpa
    | some (_, dpa) =>
      let s := s.vaultUse
      if s.cxl.poisoned.contains (dpa / 64) then
        let r := State.drawBytes 64 ((s.poisonLine dpa).aer .rasMemPoison)
        .next (r.2.emit (.drs r.1 true))
      else .next (s.emit (.drs (bytesAt s.vaultByte dpa 64) false))

/-- MEMRD. -/
def execMemrd (addr : Nat) (s : State) : Res := s.cxlRead addr
/-- MEMRDDATA. -/
def execMemrddata (addr : Nat) (s : State) : Res := s.cxlRead addr

/-- MEMINV (R55, R56): the device keeps no host cache coherent; the request is answered and changes no data. Like every CXL.mem request
it wakes the vault (spec/11, R243, R244). -/
def execMeminv (addr : Nat) (s : State) : Res :=
  if s.cxlMem = false then .next s
  else if s.cxl.memActive = false then .next (s.emit .ndr)
  else if s.hdmDpa (addr / 64 * 64) = none then .fault .unmappedHpa
  else .next (s.vaultUse.emit .ndr)

/-- MEMSPECRD (R55): accepted and dropped. -/
def execMemspecrd (addr : Nat) (s : State) : Res :=
  if s.cxlMem = false ∨ s.cxl.memActive = false then .next s
  else if s.hdmDpa (addr / 64 * 64) = none then .fault .unmappedHpa
  else .next s.vaultUse

/-- Write the bytes of a line that `mask` enables. -/
def State.writeMasked (s : State) (a : Nat) (mask : Nat) : Nat → List Byte → State
  | _, [] => s
  | i, b :: t => (if bitAt mask i then s.setMemB (a + i) b else s).writeMasked a mask (i + 1) t

/-- MemWr and MemWrPtl of 64 bytes (R51, R55): decoder 0 updates the working region; decoder 1 discards, counts, and raises
HDM_RO_WRITE once in a 1 ms tick. A line written whole holds good data again (log 43). -/
def State.cxlWrite (s : State) (addr mask : Nat) (data : List Byte) : Res :=
  let a := addr / 64 * 64
  if s.cxlMem = false then .next s
  else if s.cxl.memActive = false then .next (s.emit .ndr)
  else
    match s.hdmDpa a with
    | none => .fault .unmappedHpa
    | some (0, dpa) =>
      let s := s.vaultUse.writeMasked dpa mask 0 (padBytes 64 data)
      let s := if mask % 2 ^ 64 = 2 ^ 64 - 1 then s.modCxl (fun c => { c with poisoned := c.poisoned.erase (dpa / 64) }) else s
      .next (s.emit .ndr)
    | some _ =>
      let s := s.vaultUse.bumpStat VLT_HOST_RING_WR
      let s := if s.cxl.roWrite then s else (s.log .link evHdmRoWrite).modCxl (fun c => { c with roWrite := true })
      .next (s.emit .ndr)

/-- MEMWR. -/
def execMemwr (addr : Nat) (data : List Byte) (s : State) : Res := s.cxlWrite addr (2 ^ 64 - 1) data
/-- MEMWRPTL. -/
def execMemwrptl (addr : Nat) (data : List Byte) (mask : BitVec 64) (s : State) : Res := s.cxlWrite addr mask.toNat data

/-- HDM_COMMIT (R54): a decoder commits only one-way and over exactly its region; else Commit Error is set. -/
def execHdmCommit (dec : Fin 2) (base size ways : Nat) (s : State) : Res :=
  let want := if dec.val = 0 then s.wBytes else s.vlt.usable * 4096 - s.wBytes
  let good := decide (size = want) && decide (ways = 1)
  if s.cxlMem = false then .next s
  else .next (s.modCxl (fun c => { c with hdm := c.hdm.setIfInBounds dec.val {
      committed := good, err := !good, base := base, size := size, ways := ways } }))

/-- DOE_REQUEST (R58): the CDAT gives 240 ns and 32 GB/s for both ranges. -/
def execDoeRequest (s : State) : Res := .next (if s.cxl.up then s.emit (.cdat 240 32) else s)

/-! ### Errors (R62, R65) -/

/-- The blocks, by position. -/
def Blk.all : List Blk :=
  [.dev, .link, .lay, .cmd, .mbx, .lnk, .raw, .ctx, .clr, .tap, .vlt, .vq, .cdc, .cmp, .dsp, .aud, .tim, .net, .dfl, .dmc, .pwr
    , .thm, .tst, .evt]

/-- DMA_READ_ERROR (R62): the report; what the operation that issued the read does is its own row's (log 44). -/
def execDmaReadError (src : Fin 24) (who : BitVec 16) (addr : Nat) (poisoned : Bool) (s : State) : Res :=
  .next (s.dmaError (Blk.all.getD src.val .dev) who.toNat addr poisoned)

/-- CACHE_WRITE_ERROR (R62): the write is dropped and treated as done. -/
def execCacheWriteError (src : Fin 24) (who : BitVec 16) (addr : Nat) (s : State) : Res :=
  .next (if s.cxlMem then s.dmaError (Blk.all.getD src.val .dev) who.toNat addr false else s)

/-- LINK_CRC_ERROR (R65). -/
def execLinkCrcError (s : State) : Res := .next (if s.cxl.up then s.aer .correctable else s)

/-- CXL_CACHE_PROTOCOL_ERROR (R65): in an address, or in data. -/
def execCxlCacheProtocolError (inAddr : Bool) (s : State) : Res :=
  .next (if s.cxlMem then s.aer (if inAddr then .rasCacheAddrParity else .rasCacheDataParity) else s)

/-! ### The link (R49, R50) -/

/-- LINK_TRAINING_DONE (R49 to R51; spec/04, R68): a change of mode, width or rate republishes the DLT. A device that is off, asleep or
waiting for its boot trains no link. -/
def execLinkTrainingDone (full : Bool) (width : Nat) (rate : Nat) (s : State) : Res :=
  if s.dev.awaits ∨ s.dev.vin ≠ 0 ∨ s.pwr.sleep ≠ 0 then .next s
  else
    let old := s.cxl
    let s := s.linkUp full width rate
    let s := s.modCxl (fun c => { c with
      memInfoValid := s.dlt.valid && !c.fallback
      memActive := s.dev.ready && !c.fallback })
    .next (if old.fallback = s.cxl.fallback ∧ old.width = width ∧ old.rate = rate then s else s.republish)

/-- LINK_DOWN (R50): logged; the device keeps its configuration and retrains. -/
def execLinkDown (s : State) : Res :=
  .next (if s.cxl.up then (s.modCxl (fun c => { c with up := false })).log .link evLinkDown else s)

/-! ### MSI-X (R64) -/

/-- Send a pending vector that may now be sent. -/
def State.sendPend (s : State) (v : Nat) : State :=
  if s.cxl.msixPend.getLsbD v && !s.cxl.msixMask.getLsbD v && s.cxl.msixOn && s.cxl.busMaster then
    (s.modCxl (fun c => { c with msixPend := c.msixPend &&& ~~~(BitVec.ofNat 64 (2 ^ v)) })).emit (.msix v)
  else s

/-- Send every pending vector that may now be sent. -/
def State.sendAll (s : State) : State := (List.range 64).foldl State.sendPend s

/-- Mask or unmask a vector. -/
def State.maskVec (s : State) (v : Nat) (mask : Bool) : State :=
  let b := BitVec.ofNat 64 (2 ^ v)
  State.sendAll (s.modCxl (fun c => { c with msixMask := if mask then c.msixMask ||| b else c.msixMask &&& ~~~b }))

/-- MSIX_UNMASK (R64): a vector is unmasked, and its pending message is sent once its function is enabled (log 45). -/
def execMsixUnmask (v : Fin 64) (s : State) : Res := .next (s.maskVec v.val false)

/-- The host enables or disables the function's MSI-X and its bus mastering. -/
def State.enableFn (s : State) (msix master : Bool) : State :=
  State.sendAll (s.modCxl (fun c => { c with msixOn := msix, busMaster := master }))

/-! ### FLR (R47, R60, R66, R240, R367; spec/21, Table 21-5) -/

/-- CMD on FLR (R47): rings and registers return to reset; packets already started go on, and their outcomes are only logged. -/
def State.cmdFlr (s : State) : State :=
  let late := s.cmd.held.filter (·.late)
  let s := late.foldl (fun s r => s.unstart r.hdr) s
  let s := s.resetRange 0x100000 0x200000 []
  { s with cmd := { s.cmd with
    tail := Vector.replicate 4 0
    started := s.cmd.started.map (fun e => if e.late then e else { e with late := true, cut := true })
    done := s.cmd.done ++ s.cmd.held.filter (fun r => !r.late)
    held := [] } }

/-- NET on FLR (spec/17): the ring registers and NET_IRQ are cleared, and unwritten host descriptors are discarded. -/
def State.netFlr (s : State) : State :=
  let s := (List.range 3).foldl (fun s q =>
    [NET_R_BASE_LO q, NET_R_BASE_HI q, NET_R_CFG q, NET_R_HEAD q, NET_R_DB q].foldl (fun s a => s.wr a (regReset s.dev.variant a)) s) s
  (s.wn NET_IRQ 0).modNet (fun n => { n with tail := [0, 0, 0], tx := [none, none] })

/-- Interrupt registers of other host-facing queues, and those of EVT (spec/04, spec/16, spec/18, spec/23). -/
def flrRegs : List Nat :=
  [MBX_IRQ, MBX_IRQ_PEND, AUD_IRQ, AUD_IRQ_PEND, DFL_IRQ, DFL_IRQ_PEND, EVT_CTRL, EVT_IRQ_PEND] ++ (List.range 14).map EVT_VSEL

/-- FLR: host-facing state only; the device's own work and the HDM decoders are kept. -/
def execFlr (s : State) : Res :=
  if s.cxl.up = false then .next s
  else
    let s := (List.range 16).foldl (fun s n => s.vqResetEnd n (s.vp n).cmds.length) s
    let s := s.vqFlr.dflLost.cmpFlr.encFlr
    let s := (s.masterReset 0).netFlr.cmdFlr
    let s := flrRegs.foldl (fun s a => s.wr a (regReset s.dev.variant a)) s
    .next (s.modCxl (fun c => { c with
      fenceLines := [], msixMask := BitVec.allOnes 64, msixPend := 0, msixTab := [], msixOn := false, busMaster := false }))

end Sys2Proof.Machine
end

