-- ==== Sys2Proof/Machine/Dev.lean ====
section
/-!
DEFINITION. Device-level opcodes: NOP and DEV_STATUS (spec/21, R407), the fingerprints and the layout table (spec/04, R67, R68, R74,
R75), and the event log (spec/23, R427, R434).
-/
namespace Sys2Proof.Machine
open Sys2Proof

/-- NOP (R407). -/
def execNop (p : Pkt) (s : State) : Res := .next (runOp 0x0000 p s (fun s => (s, some ok)))

/-- DEV_STATUS (R407): one instant. -/
def State.devStatus (s : State) : List Nat :=
  [s.viewCmdStat, s.rn EVT_BOOT_STAT, s.viewPwr, s.viewThm, s.rn TST_SAFE, s.rn VQ_VPSTATE, s.dlt.gen.toNat, s.viewTail
    , s.dev.commitSeq.toNat, s.rn TIM_NOW_NS, s.rn TIM_NOW_EPOCH
    , b2n s.dev.ready + 2 * b2n s.cxl.fallback + 4 * b2n s.cxl.memActive]
def execDevStatus (p : Pkt) (s : State) : Res := .next (runOp 0x0001 p s (fun s => (s, some (ok s.devStatus))))

/-- The fingerprint of a TARGET (R74): the device, a context, or a block instance by DLT INDEX. CTX, RAW, CLR and TAP, whose state the
contexts cover, have the empty image (DESIGN CHOICE, log 88). -/
def State.targetFp (s : State) (target : Nat) : BitVec 64 :=
  if target / 4096 = 2 then s.ctxFp (target % 4096)
  else if target / 4096 = 8 then s.instFp (Blk.all.getD (target % 4096) .dev)
  else s.devFp

/-- DEV_GET_FINGERPRINT (R74, R75). -/
def execDevGetFingerprint (p : Pkt) (s : State) : Res :=
  .next (runOp 0x0004 p s (fun s =>
    let f := (s.targetFp p.target.toNat).toNat
    let d := s.devFp.toNat
    (s, some (ok [d % 0x100000000, d / 0x100000000, f % 0x100000000, f / 0x100000000, s.dev.commitSeq.toNat, s.dev.commitTb.toNat]))))

/-- DLT_REFRESH (R68): the table is published again, and an export is written when a buffer is given, to host memory through CXL.cache
(spec/03, Table 3-5). The reply's CRC is the live table's (DESIGN CHOICE, log 3). -/
def execDltRefresh (p : Pkt) (s : State) : Res :=
  .next (runOp 0x0E02 p s (fun s => s.refGuard (p.ref 0) 0 (fun s =>
    let r := p.ref 0
    let t := s.publish
    let n := dltLength t.dlt.entries
    if r.len ≠ 0 ∧ r.len < n then (s, some (badWord 2))
    else
      let u := if r.len = 0 then t
        else if r.space = 0 ∧ t.cxl.fallback = false then t.writeHost r.addr t.dltExport
        else t.writeRef r t.dltExport
      (u, some (ok [t.dlt.gen.toNat, n, t.dlt.crc.toNat])))))

/-- The log that EVT_DRAIN reads; none where there is no post-mortem log. -/
def State.drainLog (s : State) (source : Nat) : Option (List EvtEntry) :=
  if source = 0 then some s.evt.live
  else if source = 1 then some s.evt.err
  else s.evt.post.map (·.1)

/-- EVT_DRAIN (R427, R434): whole entries from FIRST_SEQ, or from the oldest held when that is later. -/
def execEvtDrain (p : Pkt) (s : State) : Res :=
  .next (runOp 0x0020 p s (fun s => s.refGuard (p.ref 4) 4 (fun s =>
    let first := p.w 0
    let r := p.ref 4
    if p.b 1 0 2 = 3 ∨ r.len % 32 ≠ 0 then (s, some (refuse stBadParam 0x8020))
    else
      match s.drainLog (p.b 1 0 2) with
      | none => (s, some (refuse stState 0x8021))
      | some es =>
        let old := (es.head?.map (·.seq.toNat)).getD first
        let start := if serialLt first old then old else first
        let sel := (es.filter (fun e => !serialLt e.seq.toNat start)).take (r.len / 32)
        let from_ := (sel.head?.map (·.seq.toNat)).getD start
        let next := (sel.getLast?.map (fun e => (e.seq.toNat + 1) % 0x100000000)).getD from_
        let s := s.writeRef r (sel.flatMap EvtEntry.image)
        let s := if p.b 1 0 2 = 0 then s.wn EVT_RD_SEQ next else s
        let s := if p.t 1 8 then { s with evt := { s.evt with err := [] } } else s
        (s, some ⟨if start = first then stOk else stAdj, 0, [sel.length, from_, next, s.rn EVT_LOST]⟩))))

/-- EVT_ERR_CLEAR (R427): a write of 1 to CLEAR empties the error log. -/
def execEvtErrClear (s : State) : Res := .next { s with evt := { s.evt with err := [] } }

end Sys2Proof.Machine
end

