-- ==== Sys2Proof/Machine/Bounds.lean ====
section
/-!
DEFINITION. The ends of packets (spec/02, R32, R34, R36, R41, R42; spec/20, R396; spec/21, R400), and the 1 ms budget tick (spec/20, R391 to R394).
-/
namespace Sys2Proof.Machine
open Sys2Proof

/-! ### What follows a completion -/

/-- What a packet asked for after its reply (R396, R400), once the reply is written. -/
def State.runAfter (s : State) : State :=
  match s.dev.after with
  | none => s
  | some a =>
    if (s.started? a.hdr).isSome then s
    else
      match a.act with
      | .reset clear => s.warmReset clear (if clear then 3 else 2)
      | .sleep ps wakeRec _ => s.enterSleep ps wakeRec 1

/-- A packet has completed: the asset area stands again after a vault clear (spec/14, R303), the cores restart when they were waiting for
it (R406), and what was to follow its reply follows. -/
def State.afterEnd (s : State) (opcode : Nat) : State :=
  let s := if opcode = 0x0500 ∨ opcode = 0x0D06 then { s with cmp := { s.cmp with assets := true } } else s
  s.coresRestart.runAfter

/-- DEV_SET_PSTATE writes its reply after every other packet's (R396): wait, or the outcome it then has. -/
def State.pstateOut (s : State) (r : Reply) : Option Outc :=
  match s.dev.after with
  | some ⟨h, .sleep ps _ discard⟩ =>
    if h ≠ r.hdr then some r.out
    else if s.cmd.started.any (fun e => !e.is h) then none
    else some ((s.restCheck ps discard).getD r.out)
  | _ => some r.out

/-- A refused DEV_SET_PSTATE enters nothing. -/
def State.dropAfter (s : State) (h : Hdr) (o : Outc) : State :=
  if o.status = stOk then s else s.modDev (fun d => { d with after := d.after.filter (fun a => a.hdr != h) })

/-- PACKET_COMPLETE (R34, R36): a firmware-path packet whose operation has ended is answered. -/
def execPacketComplete (ring : Fin 4) (seq : W32) (s : State) : Res :=
  match s.cmd.done.find? (fun r => r.hdr.ring == ring.val && r.hdr.seq == seq && !s.isLate r.hdr) with
  | none => .next s
  | some r =>
    match s.pstateOut r with
    | none => .next s
    | some o =>
      let s := State.complete { s with cmd := { s.cmd with done := s.cmd.done.erase r } } r.hdr o
      .next ((s.dropAfter r.hdr o).afterEnd r.hdr.opcode)

/-! ### Bounds (R41, R42) -/

/-- A class B job that waits for admission is given up. -/
def State.giveUpB (s : State) (h : Hdr) : State :=
  if h.opcode = 0x0008 then
    (s.deferB (.stage h)).modFlash (fun f => { f with jobs := f.jobs.filter (fun j => j.hdr != h) })
  else (s.deferB testJob).modTst (fun t => { t with run := none })

/-- The queue pair whose reset the packet waits for. -/
def State.resetOf (s : State) (h : Hdr) : Option Nat :=
  (List.range 16).find? (fun n => match (s.vp n).resetting with
    | some (g, _) => g == h
    | none => false)

/-- What the end of a packet's bound does (R41, R42, R108, R239, R396): `e` has neither a reply nor, DEV_SET_PSTATE apart, an outcome. -/
def State.expire (s : State) (e : Started) : State :=
  let h : Hdr := ⟨e.ring, e.seq, e.opcode, e.flags, e.id⟩
  match s.cmd.done.find? (fun r => r.hdr == h) with
  | some r =>
    if (s.pstateOut r).isSome then s
    else
      let o := refuse stState 0x8010
      (State.complete { s with cmd := { s.cmd with done := s.cmd.done.erase r } } h o).dropAfter h o
  | none =>
    match s.resetOf h with
    | some n => s.vqResetEnd n (s.vp n).cmds.length
    | none =>
      if s.port.toList.any (fun q => q.xfer.any (fun x => x.hdr == some h && !x.running)) then
        let s := (s.bumpEvt .cmd CMD_TIMEOUT_CNT).deliver ⟨h, false, refuse stTimeout 0x0000⟩
        { s with port := s.port.map (fun q => { q with xfer := q.xfer.filter (fun x => x.hdr != some h) }) }
      else if e.waitB then (s.giveUpB h).deliver ⟨h, false, refuse stThermal (s.f THM_STAT__BAND)⟩
      else
        let s := s.bumpEvt .cmd CMD_TIMEOUT_CNT
        if e.queued ∨ e.fast then
          State.deliver { s with cmd := { s.cmd with abandoned := s.cmd.abandoned ++ [e] } }
            ⟨h, false, refuse stTimeout 0x0000⟩
        else
          let s := s.deliver ⟨h, true, refuse stTimeout 0x0001⟩
          { s with cmd := { s.cmd with started := s.cmd.started ++ [{ e with late := true }] } }

/-- REPLY_BOUND_EXPIRY (R41, R42): of packets of one opcode the bound of the first expires first; it stands still while the reply ring is
full. -/
def execReplyBoundExpiry (ring : Fin 4) (seq : W32) (opcode : BitVec 16) (s : State) : Res :=
  match s.cmd.started.find? (fun e => e.ring == ring.val && e.seq == seq && e.opcode == opcode.toNat && !e.late) with
  | none => .next s
  | some e => .next (if s.rpFull e.ring then s else (s.expire e).afterEnd 0)

/-- CMD_LATE_DONE (R41, R47): the outcome of a packet cut off from its reply is logged with SEQ and final status. -/
def execCmdLateDone (ring : Fin 4) (seq : W32) (s : State) : Res :=
  match s.cmd.done.find? (fun r => r.hdr.ring == ring.val && r.hdr.seq == seq && s.isLate r.hdr) with
  | none => .next s
  | some r =>
    match s.pstateOut r with
    | none => .next s
    | some o =>
      let s := State.unstart { s with cmd := { s.cmd with done := s.cmd.done.erase r } } r.hdr
      let s := s.log .cmd evCmdLateDone 0xFFFF seq.toNat o.status
      .next ((s.dropAfter r.hdr o).afterEnd r.hdr.opcode)

/-- CMD_RP_HEAD (R32): reply slots are returned and held replies proceed; a value out of range or past TAIL is
ignored. -/
def execCmdRpHead (ring : Fin 4) (v : W32) (s : State) : Res :=
  let n := ring.val
  let h := v.toNat % 512
  let m := 2 * s.ringN n
  let adv := (h + m - s.f (CMD_RP_HEAD__HEAD n) % m) % m
  if s.shut 0 then .next s
  else if m ≤ h ∨ s.rpUsed n < adv then .next (s.raise (CMD_CR_STAT__DB_RANGE n))
  else
    let s := s.setF (CMD_RP_HEAD__HEAD n) h
    .next ((State.flushHeld n s.cmd.held.length s).afterEnd 0)

/-! ### The budget tick (R391 to R394) -/

/-- The DRAM serves the tick's requests (spec/19, R371, R372, R377): DMC_BYTES, DMC_MAX_WAIT and DMC_CORR_CNT. -/
def State.dmcServed (s : State) (t : DmcTick) : State :=
  let r := s.dmcServe t.reqs
  let s := (List.range 6).foldl (fun s k =>
    let mine := (r.2.filter (fun x => x.1 == k)).map (·.2)
    let v := s.rn (DMC_BYTES_LO k) + 0x100000000 * s.rn (DMC_BYTES_HI k) + 64 * mine.length
    let s := (s.wn (DMC_BYTES_LO k) v).wn (DMC_BYTES_HI k) (v / 0x100000000)
    let s := if v < 2 ^ 64 then s else s.log .dmc evWrap 0xFFFF (DMC_BYTES_LO k)
    s.highWater (DMC_MAX_WAIT k) (ceilDiv (mine.foldl max 0) 4)) r.1
  if t.corrected = 0 then s else s.bumpStat DMC_CORR_CNT t.corrected

/-- p_meas of the latest complete round, in mW, rounded down (R391; log 46). -/
def State.pMeas (s : State) : Int :=
  let c := fun (i : Nat) => s.pwr.hk.getD i 0
  c 9 * ((c 10 : Int) - (c 11 + c 12 + c 13 + c 14)) / 1000

/-- The values of R391; a PWR_LIMIT of THB5 has no ceiling to follow. -/
def State.budget (s : State) (t : DmcTick) : State :=
  let limit := limitOf (s.f PWR_HOST_LIMIT__MW) (s.f THM_STAT__BAND)
  let s := s.modPwr (fun p => { p with
    recent := (p.recent.map (fun r => (r.1 + 1, r.2.1, r.2.2))).filter (fun r => decide (r.1 < 16))
    sinceStep := min 64 (p.sinceStep + 1) })
  let s := (s.setF PWR_LIMIT__MW limit).setF PWR_MEAS__MW (min s.pMeas 0x3FFFF).toNat
  let rec_ := (s.pwr.recent.map (fun r => r.2.1)).sum
  let bw := 64 * t.reqs.length + 1000000 * (s.pwr.recent.map (fun r => r.2.2)).sum
  let s := s.wn PWR_HEADROOM (ofInt 32 ((limit : Int) - s.pMeas - rec_))
  s.modPwr (fun p => { p with bw := bw, lowTicks := if s.pMeas + 2000 ≤ (limit : Int) then min 64 (p.lowTicks + 1) else 0 })

/-- The ladder at a tick (R392, R393). -/
def State.ladderTick (s : State) : State :=
  let l := s.f PWR_STAT__DEG_LEVEL
  let ovr := decide ((s.f PWR_LIMIT__MW : Int) < s.pMeas)
  if s.f THM_STAT__BAND = 5 then (if s.stepTop = l then s else s.takeStep s.stepTop)
  else if ovr then
    match s.stepUp l with
    | some k => if 9 ≤ s.pwr.sinceStep then s.takeStep k else s
    | none => s
  else if 0 < l ∧ 64 ≤ s.pwr.lowTicks ∧ 64 ≤ s.pwr.sinceStep then s.takeStep (s.stepDown l)
  else s

/-- OVER_K (R393): set and logged once while the ladder is exhausted, cleared when p_meas is at or below limit. -/
def State.overK (s : State) : State :=
  if s.pMeas ≤ (s.f PWR_LIMIT__MW : Int) then s.setB PWR_STAT__OVER_K false
  else if s.stepTop ≤ s.f PWR_STAT__DEG_LEVEL ∧ s.on PWR_STAT__OVER_K = false then
    ((s.raise PWR_STAT__OVER_K).pwrErr PWR_ERR__OVER_K).log .pwr evPwrOverK
  else s

/-- Jobs that start as they are admitted: a test, a staging write, a decoded picture. VQ and DFL jobs start by rows of their own. -/
def State.startAdmitted (s : State) : State :=
  s.pwr.admitted.foldl (fun s j =>
    match j with
    | .test _ => s.beginTest
    | .stage h => s.stageDo h
    | .dec d => s.decAdmitted d
    | .vq _ _ => s
    | .dfl _ => s) s

/-- BUDGET_TICK (R391 to R394; spec/03, R55). -/
def execBudgetTick (t : DmcTick) (s : State) : Res :=
  if s.dev.ready = false then .next s
  else
    let s := (s.modCxl (fun c => { c with roWrite := false })).dmcServed t
    let s := ((s.budget t).ladderTick).overK
    .next (State.admitHead s.pwr.queue.length s).startAdmitted

end Sys2Proof.Machine
end

