-- ==== Sys2Proof/Machine/Registers.lean ====
section
/-!
DEFINITION. Register accesses that have no row of their own, in BAR0, BAR2, BAR4 and the configuration space (spec/00, R5 to R9; spec/03,
R48 to R52, R61, R64, R65), and the conditions each block puts on a write of its registers.
-/
namespace Sys2Proof.Machine
open Sys2Proof

/-- The blocks whose registers answer before DEVICE_READY: LAY, CMD_STAT and EVT (spec/03, R50). -/
def openEarly (a : Nat) : Bool := decide (a < 0x100000) || a == CMD_STAT || a / 0x100000 == 0x15

/-- An access of master `m` to offset `a` reaches its register. -/
def State.reaches (s : State) (m : Byte) (a : Nat) : Bool := openEarly a || !s.shut m

/-! ### Reads -/

/-- Low words of 64-bit quantities (R6), by index of the register. -/
def pairLows (i j : Nat) : List Nat :=
  [CMD_CR_BASE_LO i, CMD_RP_BASE_LO i, LNK_L_BITS_LO i, CTX_C_FP_LO i, TAP_T_BUF_LO i, VLT_TAKE_USED_LO, VQ_SQ_BASE_LO i
    , VQ_CQ_BASE_LO i, CDC_POOL_BASE_LO, CMP_C_L_BUF_LO i j, AUD_P_RING_LO i, TIM_ADDEND_LO, FCG_PERIOD_LO i, FCG_NEXT_NS i
    , NET_R_BASE_LO i, DMC_BYTES_LO i]

/-- The register at `a` is the low word of a pair. -/
def isPairLow (a : Nat) : Bool :=
  match regFind a with
  | some (_, i, j) => (pairLows i j).contains a
  | none => false

/-- RC bits of the register at `a`. -/
def rcBits (a : Nat) : Nat :=
  match regFind a with
  | some (d, _, _) => d.rc
  | none => 0

/-- RW bits of the register at `a`. -/
def rwBits (a : Nat) : Nat :=
  match regFind a with
  | some (d, _, _) => d.rw
  | none => 0

/-- A read clears the RC bits of a register (R9); THM_MAX then takes the next reading. -/
def State.readClear (s : State) (a : Nat) : State :=
  if rcBits a = 0 then s
  else
    let s := s.wr a (s.rd a &&& ~~~(BitVec.ofNat 32 (rcBits a)))
    if a = THM_MAX then s.modPwr (fun p => { p with maxSeen := false }) else s

/-- Master `m` reads BAR0 offset `a` (R6, R7, R9): a high word that was latched is returned once; a read of a low word latches the high
word, and a read that clears clears both. -/
def State.regRead (s : State) (m : Byte) (a : Nat) : Res :=
  if a % 4 ≠ 0 then .fault .unalignedAccess
  else if s.reaches m a = false then .next (s.emit (.word 0))
  else
    match s.latch.find? (fun x => x.1 == m && x.2.1 == a) with
    | some x => .next (State.emit { s with latch := s.latch.filter (fun y => !(y.1 == m && y.2.1 == a)) } (.word x.2.2))
    | none =>
      if a = TIM_NOW_NS then execTimNowNs m s
      else if 0x200400 ≤ a ∧ a < 0x200600 ∧ a % 0x10 = 0 then execSemAcquire m (Fin.ofNat 32 ((a - 0x200400) / 0x10)) s
      else
        let v := s.readReg a
        let pair := isPairLow a
        let s := if pair then (s.hold m (a + 4) (s.readReg (a + 4))).readClear (a + 4) else s
        .next ((s.readClear a).emit (.word v))

/-- A word of bytes at an address of a store. -/
def wordAt (g : Nat → Byte) (a : Nat) : W32 := BitVec.ofNat 32 (leNat (bytesAt g a 4))

/-- Master `m` reads BAR2 offset `a` (spec/03, Table 3-4): the DLT (spec/04, R67), a mailbox window, or ring storage; reserved space reads
0. -/
def State.bar2Read (s : State) (m : Byte) (a : Nat) : Res :=
  if a % 4 ≠ 0 then .fault .unalignedAccess
  else if a < 0x100000 then .next (s.emit (.word (BitVec.ofNat 32 (s.dltWord a))))
  else if a < 0x110000 then s.windowRead m ((a - 0x100000) / 0x1000) (a % 0x1000)
  else if 0x1000000 ≤ a ∧ a < 0x5000000 then .next (s.emit (.word (wordAt (storeGet memDefault s.bar2) a)))
  else .next (s.emit (.word 0))

/-- A word of the MSI-X table or of its pending bits in BAR4 (spec/03, R64, Table 3-4). The component registers below them, which the spec
names without offsets, are read by name (CfgField); an offset there reads a free value (log 89). -/
def State.bar4Read (s : State) (a : Nat) : Res :=
  let put := fun (v : Nat) => Host.Outcome.next (s.emit (.word (BitVec.ofNat 32 v)))
  if a % 4 ≠ 0 then .fault .unalignedAccess
  else if a < 0x10000 then .next (s.draw.2.emit (.word s.draw.1))
  else if a < 0x10400 then
    put (if a % 16 = 12 then b2n (s.cxl.msixMask.getLsbD ((a - 0x10000) / 16)) else ((s.cxl.msixTab.find? (fun x => x.1 == a)).map (·.2.toNat)).getD 0)
  else if a = 0x12000 then put (s.cxl.msixPend.toNat % 0x100000000)
  else if a = 0x12004 then put (s.cxl.msixPend.toNat / 0x100000000)
  else put 0

/-- Capabilities the device reports (spec/03, R48, Table 3-2); every other is reported as not supported. -/
def capHere (c : Cap) : Bool :=
  [Cap.powerManagement, .pciExpress, .msix, .aer, .doe, .dvsecCxlDevice, .dvsecFlexBusPort, .dvsecRegisterLocator].contains c

/-- The value of a named field (spec/03, R48 to R52, R54, R61, R64, R65); 0 where its name means absent. -/
def State.cfgField (s : State) (f : CfgField) : Nat :=
  let c := s.cxl
  let h := fun (d : Fin 2) => if c.fallback then ({} : Hdm) else c.hdm[d]
  match f with
  | .vendorId => 0x1D7A | .deviceId => 0x1640 | .revisionId => 0xB1 | .classCode => 0x048000
  | .has x => b2n (capHere x)
  | .cacheCapable => 1 | .ioCapable => 1 | .memCapable => 1 | .memHwInitMode => 0 | .hdmCount => 2
  | .cacheSizeUnit => 0x10000 | .cacheSize => 1 | .cxlResetCapable => 0 | .viralCapable => 0
  | .rangeSize r => if r.val = 0 then s.wBytes else s.vlt.usable * 4096 - s.wBytes
  | .memInfoValid _ => b2n c.memInfoValid
  | .memActive _ => b2n c.memActive
  | .linkMode => b2n c.fallback | .linkWidth => c.width | .linkRate => c.rate
  | .barSize n => if n = 0 then 0x4000000 else if n = 2 then 0x10000000 else if n = 4 then 0x20000 else 0
  | .busMaster => b2n c.busMaster | .msixEnable => b2n c.msixOn
  | .enableNoSnoop => b2n c.noSnoop | .enableRelaxed => b2n c.relaxed
  | .maxPayloadSupported => 512 | .maxPayload => c.mps | .maxReadRequest => c.mrrs
  | .timeoutRanges => 0xF | .completionTimeoutUs => c.cplTmoUs | .tags => 768 | .readCompletionBoundary => 64
  | .aerCorrectable => b2n c.corr | .aerAdvisory => b2n c.adv | .aerUncorrInternal => b2n c.uncorrInternal
  | .rasMemPoison => b2n c.memPoison | .rasCacheDataParity => b2n c.cacheDataParity | .rasCacheAddrParity => b2n c.cacheAddrParity
  | .hdmCommitted d => b2n (h d).committed | .hdmCommitErr d => b2n (h d).err | .hdmBase d => (h d).base | .hdmSize d => (h d).size
  | .hdmWays d => (h d).ways

/-- A read of a named field (R50): Configuration Request Retry Status until the link has trained. -/
def State.cfgRead (s : State) (f : CfgField) : Res :=
  .next (if s.cxl.up then s.emit (.field (s.cfgField f)) else s.emit .crs)

/-- A read of a register, wherever it lies. -/
def State.locRead (s : State) (m : Byte) (l : Loc) : Res :=
  match l with
  | .bar0 a => s.regRead m a
  | .bar2 a => s.bar2Read m a
  | .bar4 a => s.bar4Read a
  | .cfg f => s.cfgRead f

/-- READ_CLEAR (R9). -/
def execReadClear (master : Byte) (loc : Loc) (s : State) : Res := s.locRead master loc
/-- LOW_WORD_READ (R6). -/
def execLowWordRead (master : Byte) (loc : Loc) (s : State) : Res := s.locRead master loc

/-! ### Writes -/

/-- A write of `v` to the register at `a` under its access codes (R7, R9): RW bits take it, RW1C bits are cleared by 1, and RWL bits take
it too when `free`. -/
def State.writePlain (s : State) (a v : Nat) (free : Bool := false) : State :=
  match regFind a with
  | none => s
  | some (d, _, _) =>
    let old := s.rd a
    let w := BitVec.ofNat 32 v
    let rw := BitVec.ofNat 32 (if free then d.rw ||| d.rwl else d.rw)
    s.wr a (((old &&& ~~~rw) ||| (w &&& rw)) &&& ~~~(w &&& BitVec.ofNat 32 d.w1c))

/-- CMD (spec/02): EN locks the other fields and the bases; an invalid LOG2N is refused whole; doorbells. -/
def State.writeCmd (s : State) (a i v : Nat) : Res :=
  if a = CMD_DB i then execCmdDb (Fin.ofNat 4 i) (BitVec.ofNat 32 v) s
  else if a = CMD_RP_HEAD i then execCmdRpHead (Fin.ofNat 4 i) (BitVec.ofNat 32 v) s
  else if a = CMD_CR_CFG i then
    let n := bitsAt v 4 4
    if n < 4 ∨ 8 < n then .next (s.raise (CMD_CR_STAT__CFG_ERR i))
    else if s.on (CMD_CR_CFG__EN i) then .next (s.setF (CMD_CR_CFG__EN i) (v % 2))
    else .next (s.writePlain a v)
  else if (a = CMD_CR_BASE_LO i ∨ a = CMD_CR_BASE_HI i ∨ a = CMD_RP_BASE_LO i ∨ a = CMD_RP_BASE_HI i) ∧ s.on (CMD_CR_CFG__EN i) = true then
    .next s
  else .next (s.writePlain a v)

/-- MBX and SEM (spec/04): the locks, an ID outside the master table, the release. -/
def State.writeMbx (s : State) (m : Byte) (a i v : Nat) : Res :=
  if a = MBX_CTRL then
    (if bitAt v 0 then execMbxCtrlLock s else .next (if s.on MBX_CTRL__LOCK then s.rwlDenied .mbx MBX_CTRL else s))
  else if a = MBX_BIND i ∧ 0x200100 ≤ a ∧ a < 0x200200 then
    if s.on MBX_CTRL__LOCK then .next (s.rwlDenied .mbx a) else .next ((s.bindChannel i v).getD s)
  else if 0x200400 ≤ a ∧ a < 0x200600 ∧ a % 0x10 = 4 then execSemRelease m (Fin.ofNat 32 i) s
  else .next (s.writePlain a v)

/-- LNK (spec/05, R83 to R85, R102, R107, R109, R110). -/
def State.writeLnkCfg (s : State) (a i v : Nat) : State :=
  if a = LNK_QMAP then
    let s := if bitAt v 31 then s.setF LNK_QMAP__QMAP_ERR 0 else s
    let m := v % 0x40000
    let run := (qmapMoved (s.f LNK_QMAP__QMAP) m).filter (fun p => s.on (LNK_P_CFG__EN p))
    if qmapOk m = false ∨ run ≠ [] then run.foldl (fun s p => s.raise (LNK_P_ERR__CFG_ERR p)) (s.raise LNK_QMAP__QMAP_ERR)
    else s.setQmap m
  else if a = LNK_QCFG i ∧ a < 0x300028 then
    let s := (s.setF (LNK_QCFG__EQ_OVR i) (v / 0x10000 % 2)).setF (LNK_QCFG__EQ_OVR_VAL i) (bitsAt v 12 4)
    let r := v % 256
    let owner := qmapOf (s.f LNK_QMAP__QMAP) i
    if r = s.f (LNK_QCFG__RATE i) then s
    else if owner < 4 ∧ s.on (LNK_P_CFG__EN owner) then (s.raise LNK_QMAP__QMAP_ERR).raise (LNK_P_ERR__CFG_ERR owner)
    else if r < 20 ∨ 128 < r then s.raise LNK_QMAP__QMAP_ERR
    else
      let s := s.setF (LNK_QCFG__RATE i) r
      if owner < 4 then s.lockCheck owner else s
  else if a = LNK_P_CFG i then
    if s.on (LNK_P_CFG__EN i) ∨ 7 < bitsAt v 8 4 ∨ lanesOk (bitsAt v 1 5) = false then s.raise (LNK_P_ERR__CFG_ERR i)
    else ((s.writePlain a v).lockCheck i).powerLanes
  else if a = LNK_P_SCC i then
    if bitsAt v 4 16 < 14 then (s.writePlain a v).setF (LNK_P_SCC__DIV i) (s.f (LNK_P_SCC__DIV i)) else s.writePlain a v
  else if a = LNK_P_TRG i then
    let old := s.f (LNK_P_TRG__MODE i)
    let pol := s.on (LNK_P_TRG__POL i)
    let s := s.writePlain a v
    let s := if 2 ≤ v % 4 then s.setF (LNK_P_TRG__MODE i) old else s
    if s.f (LNK_P_TRG__MODE i) = 0 ∧ ((s.pt i).trg || (s.on (LNK_P_TRG__POL i) != pol)) = true then
      (s.modPt i (fun q => { q with trgDue := 0 })).driveTrg i false
    else if s.on (LNK_P_TRG__POL i) ≠ pol then s.driveTrg i (s.pt i).trg
    else s
  else if a = LNK_L_PAT i then s.setPat i v
  else if a = LNK_L_INJ i then
    let s := if bitAt v 0 then s.injectBits i 1 else s
    if bitAt v 1 then s.injectBits i (bitsAt v 8 6 + 1) else s
  else s.writePlain a v

/-- RAW (spec/06, R112, R126; spec/10, R218): a write that breaks a limit is ignored and sets CFG_ERR. -/
def State.writeRaw (s : State) (a i v : Nat) : State :=
  if rwBits a = 0 then s.writePlain a v
  else
    let s' := s.writePlain a v
    let r := s'.shadowRaw i
    let bad := decide (3 < r.fmt) || decide (1 < r.cfa) || r.readouts == 0 || r.lanes % 4 != 0 || decide (r.lanes < 4) || decide (32 < r.lanes)
      || r.lineNs == 0 || decide (r.readouts ≤ r.ghostRef) || decide (64 < r.lag)
      || (List.range 3).any (fun k => decide (r.sat.getD k 0 < r.knee.getD k 0))
      || decide (r.ratio < 0x100) || decide (0x1000 < r.ratio) || r.eMin == 0 || decide (64 < r.eMax) || decide (r.eMax < r.eMin)
      || (r.lanes != s.f (RAW_P_CFG__LANES i) && s.on (LNK_P_CFG__EN i)) || !s'.r112 i r none
    let merge := a == RAW_P_GHOST i || a == RAW_P_NOISE_FLOOR i || a == RAW_P_APPLY_TAG i
      || (a == RAW_P_CFG i && r.readouts != s.f (RAW_P_CFG__READOUTS i))
      || (decide (RAW_P_GAIN i 0 ≤ a) && decide (a ≤ RAW_P_WEIGHT i 2))
    if bad then s.raise (RAW_P_ERR__CFG_ERR i)
    else if merge then s'.modRw i (fun q => { q with mergeMark := true })
    else s'

/-- CLR (spec/08, registers): DM_EPS is not 0. -/
def State.writeClr (s : State) (a i v : Nat) : State :=
  if a = CLR_C_DM_EPS i ∧ v % 0x1000000 = 0 then s.raise (CLR_C_ERR__CFG_ERR i) else s.writePlain a v

/-- TAP (spec/08, R164, R177, R179): a free engine's registers take no write. -/
def State.writeTap (s : State) (a i v : Nat) : Res :=
  if a = TAP_T_HOLD_SET i then execTapHoldSet (Fin.ofNat 10 i) (BitVec.ofNat 32 v) s
  else if s.f (TAP_T_OWNER__CTX i) = 7 ∨ (a = TAP_T_BUF_CFG i ∧ (v % 16 < 2 ∨ 8 < v % 16))
      ∨ (a = TAP_T_FMT i ∧ (bitsAt v 16 3 = 0 ∨ bitsAt v 12 2 = 3)) then .next (s.raise (TAP_T_STAT__CFG_ERR i))
  else .next (s.writePlain a v)

/-- VQ (spec/11): doorbells, the completion head, and TMO_MS of at least 10. -/
def State.writeVq (s : State) (a i v : Nat) : Res :=
  if a = VQ_SQ_DB i then execVqSqDb (Fin.ofNat 16 i) (BitVec.ofNat 32 v) s
  else if a = VQ_CQ_HEAD i then execVqCqHead (Fin.ofNat 16 i) (BitVec.ofNat 32 v) s
  else if a = VQ_CTRL ∧ v / 0x10000 < 10 then .next (s.setF VQ_CTRL__DEFER_MS (v % 0x10000))
  else .next (s.writePlain a v)

/-- CDC (spec/12, R264; spec/13, R272): ring heads; the pool changes only while every buffer is FREE. -/
def State.writeCdc (s : State) (a i v : Nat) : Res :=
  if a = CDC_S_DR_HEAD i then execCdcDrHead (Fin.ofNat 16 i) (BitVec.ofNat 32 v) s
  else if a = CDC_S_DD_HEAD i then execCdcDdHead (Fin.ofNat 16 i) (BitVec.ofNat 32 v) s
  else if a = CDC_POOL_BASE_LO ∨ a = CDC_POOL_BASE_HI ∨ a = CDC_POOL_CFG then
    if (List.range 64).any (fun b => s.marks b != 0) ∨ (a = CDC_POOL_CFG ∧ 64 < v % 128) then .next (s.raise CDC_POOL_STAT__CFG_ERR)
    else .next (s.writePlain a v)
  else .next (s.writePlain a v)

/-- DMC (spec/19, R375): the RWL registers under DLY_LOCK; IDLE_MS in its range. -/
def State.writeDmc (s : State) (a v : Nat) : Res :=
  if a = DMC_CTRL then
    (if bitAt v 0 then execDlyLock s else .next (if s.on DMC_CTRL__DLY_LOCK then s.rwlDenied .dmc DMC_CTRL else s))
  else if a = DMC_SR_IDLE then (if v % 0x4000 < 100 ∨ 10000 < v % 0x4000 then .next s else .next (s.writePlain a v))
  else if 0x1101000 ≤ a ∧ a < 0x1103000 then
    match regFind a with
    | none => .next s
    | some _ => if s.on DMC_CTRL__DLY_LOCK then .next (s.rwlDenied .dmc a) else .next (s.writePlain a v true)
  else .next (s.writePlain a v)

/-- TST (spec/22, R408, R420): START, and test multiplexer codes. -/
def State.writeTst (s : State) (m : Byte) (a v : Nat) : State :=
  if a = TST_CTRL ∧ bitAt v 8 then
    (if bitsAt v 6 2 = 3 then s.raise TST_STAT__REFUSED else s.testStart m (bitsAt v 6 2) (BitVec.ofNat 6 v))
  else if a = TST_TMUX ∧ tmuxOk v = false then s
  else s.writePlain a v

/-- Master `m` writes `v` to BAR0 offset `a`. -/
def State.regWrite (s : State) (m : Byte) (a v : Nat) : Res :=
  if a % 4 ≠ 0 then .fault .unalignedAccess
  else if s.reaches m a = false then .next s
  else
    match regFind a with
    | none => .next s
    | some (_, i, _) =>
      match a / 0x100000 with
      | 1 => s.writeCmd a i v
      | 2 => s.writeMbx m a i v
      | 3 => .next ((s.writeLnkCfg a i v).commitSince s)
      | 4 => .next (s.writeRaw a i v)
      | 6 => .next (s.writeClr a i v)
      | 7 => s.writeTap a i v
      | 8 => .next (if a = VLT_TALLY then (s.writePlain a v).tallies else s.writePlain a v)
      | 9 => s.writeVq a i v
      | 10 => s.writeCdc a i v
      | 11 => if a = CMP_C_WB_HOLD_SET i then execWbHoldSet (Fin.ofNat 4 i) (BitVec.ofNat 32 v) s else .next (s.writePlain a v)
      | 15 => if a = NET_R_DB i then execNetDb (Fin.ofNat 3 i) (BitVec.ofNat 32 v) [] s else .next (s.writePlain a v)
      | 17 => s.writeDmc a v
      | 20 => .next (s.writeTst m a v)
      | 21 => if a = EVT_ERR_CLEAR ∧ bitAt v 0 then execEvtErrClear s else .next (s.writePlain a v)
      | _ => .next (s.writePlain a v)

/-- A write of CH_STAT by a bound master (spec/04): RXLOST, TX_TMO, and LOST_CNT with OVF, which clear together (R429). -/
def State.writeChStat (s : State) (m : Byte) (n v : Nat) : State :=
  match s.mbxSide n m with
  | none => s.mbxDeny m
  | some b =>
    let x := s.mbxGet n b
    let clr := bitAt v 16 || bitAt v 31
    s.mbxSet n b { x with
      lost := if clr then 0 else x.lost, lostOvf := x.lostOvf && !clr, rxLost := x.rxLost && !bitAt v 10
      txTmo := x.txTmo && !bitAt v 9 }

/-- Master `m` writes `v` to BAR2 offset `a` (spec/03, Table 3-4): a mailbox window, or ring storage; the DLT and reserved space
ignore it. -/
def State.bar2Write (s : State) (m : Byte) (a : Nat) (v : W32) : Res :=
  if a % 4 ≠ 0 then .fault .unalignedAccess
  else if 0x100000 ≤ a ∧ a < 0x110000 then
    let n := (a - 0x100000) / 0x1000
    if a % 0x1000 = 0 then execTxData m (Fin.ofNat 16 n) v s
    else if a % 0x1000 = 0x10 then .next (s.writeChStat m n v.toNat)
    else .next (if (s.mbxSide n m).isNone then s.mbxDeny m else s)
  else if 0x1000000 ≤ a ∧ a < 0x5000000 then .next (s.writeBar2 a (leBytes 4 v.toNat))
  else .next s

/-- A write of `v` to the MSI-X table (spec/03, R64): the message words, and a vector's mask. -/
def State.bar4Write (s : State) (a : Nat) (v : W32) : Res :=
  if a % 4 ≠ 0 then .fault .unalignedAccess
  else if 0x10000 ≤ a ∧ a < 0x10400 then
    if a % 16 = 12 then .next (s.maskVec ((a - 0x10000) / 16) (v.getLsbD 0))
    else .next (s.modCxl (fun c => { c with msixTab := storeSet (fun _ => 0) c.msixTab a v }))
  else .next s

/-- A write of `v` to a named field that software may write (spec/03, R61, R64, R65). -/
def State.cfgPut (s : State) (f : CfgField) (v : Nat) : State :=
  let b := decide (v ≠ 0)
  match f with
  | .busMaster => s.enableFn s.cxl.msixOn b
  | .msixEnable => s.enableFn b s.cxl.busMaster
  | .enableNoSnoop => s.modCxl (fun c => { c with noSnoop := b })
  | .enableRelaxed => s.modCxl (fun c => { c with relaxed := b })
  | .maxPayload => if [128, 256, 512].contains v then s.modCxl (fun c => { c with mps := v }) else s
  | .maxReadRequest => if [128, 256, 512, 1024, 2048, 4096].contains v then s.modCxl (fun c => { c with mrrs := v }) else s
  | .completionTimeoutUs => if 50 ≤ v ∧ v ≤ 64000000 then s.modCxl (fun c => { c with cplTmoUs := v }) else s
  | .aerCorrectable => s.modCxl (fun c => { c with corr := c.corr && !b })
  | .aerAdvisory => s.modCxl (fun c => { c with adv := c.adv && !b })
  | .aerUncorrInternal => s.modCxl (fun c => { c with uncorrInternal := c.uncorrInternal && !b })
  | .rasMemPoison => s.modCxl (fun c => { c with memPoison := c.memPoison && !b })
  | .rasCacheDataParity => s.modCxl (fun c => { c with cacheDataParity := c.cacheDataParity && !b })
  | .rasCacheAddrParity => s.modCxl (fun c => { c with cacheAddrParity := c.cacheAddrParity && !b })
  | _ => s

/-- A write of a named field (R50): Configuration Request Retry Status until the link has trained. -/
def State.cfgWrite (s : State) (f : CfgField) (v : Nat) : Res := .next (if s.cxl.up then s.cfgPut f v else s.emit .crs)

/-- REGISTER_WRITE (R9). -/
def execRegisterWrite (master : Byte) (loc : Loc) (v : W32) (s : State) : Res :=
  match loc with
  | .bar0 a => s.regWrite master a v.toNat
  | .bar2 a => s.bar2Write master a v
  | .bar4 a => s.bar4Write a v
  | .cfg f => s.cfgWrite f v.toNat

end Sys2Proof.Machine
end

