-- ==== Sys2Proof/Machine/Dispatch.lean ====
section
/-!
DEFINITION. What each command does: one arm per constructor, each a call of its meaning.
-/
namespace Sys2Proof.Machine
open Sys2Proof

def exec (i : Instr) (s : State) : Host.Outcome State Fault Refusal :=
  match i with
  | .nop p => Sys2Proof.Machine.execNop p s
  | .devStatus p => Sys2Proof.Machine.execDevStatus p s
  | .devReset p => Sys2Proof.Machine.execDevReset p s
  | .devSetPstate p => Sys2Proof.Machine.execDevSetPstate p s
  | .devGetFingerprint p => Sys2Proof.Machine.execDevGetFingerprint p s
  | .fwStage p => Sys2Proof.Machine.execFwStage p s
  | .fwVerify p => Sys2Proof.Machine.execFwVerify p s
  | .fwActivate p => Sys2Proof.Machine.execFwActivate p s
  | .evtDrain p => Sys2Proof.Machine.execEvtDrain p s
  | .lnkConfigPort p => Sys2Proof.Machine.execLnkConfigPort p s
  | .lnkMapQuads p => Sys2Proof.Machine.execLnkMapQuads p s
  | .lnkStart p => Sys2Proof.Machine.execLnkStart p s
  | .lnkStop p => Sys2Proof.Machine.execLnkStop p s
  | .snsLoadProfile p => Sys2Proof.Machine.execSnsLoadProfile p s
  | .snsCtrlXfer p => Sys2Proof.Machine.execSnsCtrlXfer p s
  | .snsQueueSettings p => Sys2Proof.Machine.execSnsQueueSettings p s
  | .lnkPattern p => Sys2Proof.Machine.execLnkPattern p s
  | .lnkStatus p => Sys2Proof.Machine.execLnkStatus p s
  | .rawSetLin p => Sys2Proof.Machine.execRawSetLin p s
  | .rawSetBlack p => Sys2Proof.Machine.execRawSetBlack p s
  | .rawSetMerge p => Sys2Proof.Machine.execRawSetMerge p s
  | .rawLoadDefects p => Sys2Proof.Machine.execRawLoadDefects p s
  | .rawSetFormat p => Sys2Proof.Machine.execRawSetFormat p s
  | .rawGetStats p => Sys2Proof.Machine.execRawGetStats p s
  | .ctxConfigure p => Sys2Proof.Machine.execCtxConfigure p s
  | .ctxCommit p => Sys2Proof.Machine.execCtxCommit p s
  | .ctxStart p => Sys2Proof.Machine.execCtxStart p s
  | .ctxStop p => Sys2Proof.Machine.execCtxStop p s
  | .ctxSetPolicy p => Sys2Proof.Machine.execCtxSetPolicy p s
  | .ctxPlaybackSource p => Sys2Proof.Machine.execCtxPlaybackSource p s
  | .ctxStatus p => Sys2Proof.Machine.execCtxStatus p s
  | .clrSetShading p => Sys2Proof.Machine.execClrSetShading p s
  | .clrSetWbMatrix p => Sys2Proof.Machine.execClrSetWbMatrix p s
  | .clrSetWorkspace p => Sys2Proof.Machine.execClrSetWorkspace p s
  | .tapConfigure p => Sys2Proof.Machine.execTapConfigure p s
  | .tapLoadLut p => Sys2Proof.Machine.execTapLoadLut p s
  | .tapEnable p => Sys2Proof.Machine.execTapEnable p s
  | .tapDisable p => Sys2Proof.Machine.execTapDisable p s
  | .clrGetZonestats p => Sys2Proof.Machine.execClrGetZonestats p s
  | .vltSetLayout p => Sys2Proof.Machine.execVltSetLayout p s
  | .takeOpen p => Sys2Proof.Machine.execTakeOpen p s
  | .takeClose p => Sys2Proof.Machine.execTakeClose p s
  | .vltPin p => Sys2Proof.Machine.execVltPin p s
  | .vltUnpin p => Sys2Proof.Machine.execVltUnpin p s
  | .vltQueryFrame p => Sys2Proof.Machine.execVltQueryFrame p s
  | .vqCreateQueue p => Sys2Proof.Machine.execVqCreateQueue p s
  | .vqDeleteQueue p => Sys2Proof.Machine.execVqDeleteQueue p s
  | .vqResetQueue p => Sys2Proof.Machine.execVqResetQueue p s
  | .vltSetVpstate p => Sys2Proof.Machine.execVltSetVpstate p s
  | .recConfig p => Sys2Proof.Machine.execRecConfig p s
  | .cdcStreamCreate p => Sys2Proof.Machine.execCdcStreamCreate p s
  | .cdcStreamStart p => Sys2Proof.Machine.execCdcStreamStart p s
  | .cdcStreamStop p => Sys2Proof.Machine.execCdcStreamStop p s
  | .cdcSetRate p => Sys2Proof.Machine.execCdcSetRate p s
  | .cdcSetRoi p => Sys2Proof.Machine.execCdcSetRoi p s
  | .cdcForceIrap p => Sys2Proof.Machine.execCdcForceIrap p s
  | .cdcDecodeOpen p => Sys2Proof.Machine.execCdcDecodeOpen p s
  | .cdcDecodeData p => Sys2Proof.Machine.execCdcDecodeData p s
  | .cdcDecodeClose p => Sys2Proof.Machine.execCdcDecodeClose p s
  | .setHost p => Sys2Proof.Machine.execSetHost p s
  | .clearHost p => Sys2Proof.Machine.execClearHost p s
  | .clearOut p => Sys2Proof.Machine.execClearOut p s
  | .cdcStreamerTemplate p => Sys2Proof.Machine.execCdcStreamerTemplate p s
  | .cmpConfigureLayer p => Sys2Proof.Machine.execCmpConfigureLayer p s
  | .cmpLoadLut p => Sys2Proof.Machine.execCmpLoadLut p s
  | .cmpCommit p => Sys2Proof.Machine.execCmpCommit p s
  | .cmpFlip p => Sys2Proof.Machine.execCmpFlip p s
  | .cmpSetWriteback p => Sys2Proof.Machine.execCmpSetWriteback p s
  | .cmpRindStatus p => Sys2Proof.Machine.execCmpRindStatus p s
  | .dspSetTiming p => Sys2Proof.Machine.execDspSetTiming p s
  | .dspRoute p => Sys2Proof.Machine.execDspRoute p s
  | .dspPortEnable p => Sys2Proof.Machine.execDspPortEnable p s
  | .dspPortDisable p => Sys2Proof.Machine.execDspPortDisable p s
  | .dspDcsXfer p => Sys2Proof.Machine.execDspDcsXfer p s
  | .dspSdiAnc p => Sys2Proof.Machine.execDspSdiAnc p s
  | .dspStatus p => Sys2Proof.Machine.execDspStatus p s
  | .audConfigurePort p => Sys2Proof.Machine.execAudConfigurePort p s
  | .audStart p => Sys2Proof.Machine.execAudStart p s
  | .audStop p => Sys2Proof.Machine.execAudStop p s
  | .audSetChstatus p => Sys2Proof.Machine.execAudSetChstatus p s
  | .audStatus p => Sys2Proof.Machine.execAudStatus p s
  | .timSetAddend p => Sys2Proof.Machine.execTimSetAddend p s
  | .timStep p => Sys2Proof.Machine.execTimStep p s
  | .timGet p => Sys2Proof.Machine.execTimGet p s
  | .fcgConfigure p => Sys2Proof.Machine.execFcgConfigure p s
  | .netConfigure p => Sys2Proof.Machine.execNetConfigure p s
  | .netLinkControl p => Sys2Proof.Machine.execNetLinkControl p s
  | .netSetPtp p => Sys2Proof.Machine.execNetSetPtp p s
  | .dflSubmit p => Sys2Proof.Machine.execDflSubmit p s
  | .dflResume p => Sys2Proof.Machine.execDflResume p s
  | .dflAbort p => Sys2Proof.Machine.execDflAbort p s
  | .dflStatus p => Sys2Proof.Machine.execDflStatus p s
  | .pwrSetInputLimit p => Sys2Proof.Machine.execPwrSetInputLimit p s
  | .pwrAxConfigure p => Sys2Proof.Machine.execPwrAxConfigure p s
  | .pwrAxSwitch p => Sys2Proof.Machine.execPwrAxSwitch p s
  | .pwrGetHk p => Sys2Proof.Machine.execPwrGetHk p s
  | .thmGetBand p => Sys2Proof.Machine.execThmGetBand p s
  | .tstRunAnalogue p => Sys2Proof.Machine.execTstRunAnalogue p s
  | .tstRunLbist p => Sys2Proof.Machine.execTstRunLbist p s
  | .tstRunMbist p => Sys2Proof.Machine.execTstRunMbist p s
  | .tstGetResult p => Sys2Proof.Machine.execTstGetResult p s
  | .tstSetTmux p => Sys2Proof.Machine.execTstSetTmux p s
  | .rprGetStatus p => Sys2Proof.Machine.execRprGetStatus p s
  | .rprCommitPpr p => Sys2Proof.Machine.execRprCommitPpr p s
  | .mbxBind p => Sys2Proof.Machine.execMbxBind p s
  | .mbxLock p => Sys2Proof.Machine.execMbxLock p s
  | .dltRefresh p => Sys2Proof.Machine.execDltRefresh p s
  | .semForceRelease p => Sys2Proof.Machine.execSemForceRelease p s
  | .packetFetch ring slot => Sys2Proof.Machine.execPacketFetch ring slot s
  | .packetComplete ring seq => Sys2Proof.Machine.execPacketComplete ring seq s
  | .replyBoundExpiry ring seq opcode => Sys2Proof.Machine.execReplyBoundExpiry ring seq opcode s
  | .cmdLateDone ring seq => Sys2Proof.Machine.execCmdLateDone ring seq s
  | .fwqUrgentAge ring seq => Sys2Proof.Machine.execFwqUrgentAge ring seq s
  | .cmdRpStall ring => Sys2Proof.Machine.execCmdRpStall ring s
  | .cmdDb ring v => Sys2Proof.Machine.execCmdDb ring v s
  | .cmdRpHead ring v => Sys2Proof.Machine.execCmdRpHead ring v s
  | .registerWrite master loc v => Sys2Proof.Machine.execRegisterWrite master loc v s
  | .readClear master loc => Sys2Proof.Machine.execReadClear master loc s
  | .lowWordRead master loc => Sys2Proof.Machine.execLowWordRead master loc s
  | .msixUnmask v => Sys2Proof.Machine.execMsixUnmask v s
  | .txData m ch w => Sys2Proof.Machine.execTxData m ch w s
  | .rxWordLo m ch => Sys2Proof.Machine.execRxWordLo m ch s
  | .semAcquire m n => Sys2Proof.Machine.execSemAcquire m n s
  | .semRelease m n => Sys2Proof.Machine.execSemRelease m n s
  | .mbxCtrlLock => Sys2Proof.Machine.execMbxCtrlLock s
  | .mbxTmo ch toB => Sys2Proof.Machine.execMbxTmo ch toB s
  | .coreReset core => Sys2Proof.Machine.execCoreReset core s
  | .hvmBridgeRestart => Sys2Proof.Machine.execHvmBridgeRestart s
  | .injectSingle lane => Sys2Proof.Machine.execInjectSingle lane s
  | .injectBurst lane len => Sys2Proof.Machine.execInjectBurst lane len s
  | .tapHoldSet tap v => Sys2Proof.Machine.execTapHoldSet tap v s
  | .wbHoldSet composer v => Sys2Proof.Machine.execWbHoldSet composer v s
  | .dlyLock => Sys2Proof.Machine.execDlyLock s
  | .evtErrClear => Sys2Proof.Machine.execEvtErrClear s
  | .timNowNs master => Sys2Proof.Machine.execTimNowNs master s
  | .tstStartAnalogue master item => Sys2Proof.Machine.execTstStartAnalogue master item s
  | .tstStartLbist master item => Sys2Proof.Machine.execTstStartLbist master item s
  | .tstStartMbist master item => Sys2Proof.Machine.execTstStartMbist master item s
  | .tstAdmitExpiry => Sys2Proof.Machine.execTstAdmitExpiry s
  | .testDone e => Sys2Proof.Machine.execTestDone e s
  | .vqSqDb pair v => Sys2Proof.Machine.execVqSqDb pair v s
  | .vqCqHead pair v => Sys2Proof.Machine.execVqCqHead pair v s
  | .vqNop pair slot => Sys2Proof.Machine.execVqNop pair slot s
  | .vqRead pair slot => Sys2Proof.Machine.execVqRead pair slot s
  | .vqWrite pair slot => Sys2Proof.Machine.execVqWrite pair slot s
  | .vqCopy pair slot => Sys2Proof.Machine.execVqCopy pair slot s
  | .vqReadFrame pair slot => Sys2Proof.Machine.execVqReadFrame pair slot s
  | .vqFlush pair slot => Sys2Proof.Machine.execVqFlush pair slot s
  | .vqAbort pair slot target => Sys2Proof.Machine.execVqAbort pair slot target s
  | .vqCmdStart pair target => Sys2Proof.Machine.execVqCmdStart pair target s
  | .vqTransferDone pair tag data moved => Sys2Proof.Machine.execVqTransferDone pair tag data moved s
  | .vqCplPost pair => Sys2Proof.Machine.execVqCplPost pair s
  | .vqDeferExpiry pair tag => Sys2Proof.Machine.execVqDeferExpiry pair tag s
  | .vqTmoExpiry pair tag moved data => Sys2Proof.Machine.execVqTmoExpiry pair tag moved data s
  | .vqCqStall pair => Sys2Proof.Machine.execVqCqStall pair s
  | .memrd addr => Sys2Proof.Machine.execMemrd addr s
  | .memrddata addr => Sys2Proof.Machine.execMemrddata addr s
  | .meminv addr => Sys2Proof.Machine.execMeminv addr s
  | .memspecrd addr => Sys2Proof.Machine.execMemspecrd addr s
  | .memwr addr data => Sys2Proof.Machine.execMemwr addr data s
  | .memwrptl addr data mask => Sys2Proof.Machine.execMemwrptl addr data mask s
  | .hdmCommit dec base size ways => Sys2Proof.Machine.execHdmCommit dec base size ways s
  | .snpinv line data => Sys2Proof.Machine.execSnpinv line data s
  | .fencePoll addr data => Sys2Proof.Machine.execFencePoll addr data s
  | .dmaReadError src who addr poisoned => Sys2Proof.Machine.execDmaReadError src who addr poisoned s
  | .cacheWriteError src who addr => Sys2Proof.Machine.execCacheWriteError src who addr s
  | .linkTrainingDone full width rate => Sys2Proof.Machine.execLinkTrainingDone full width rate s
  | .linkDown => Sys2Proof.Machine.execLinkDown s
  | .flr => Sys2Proof.Machine.execFlr s
  | .perstNAssert => Sys2Proof.Machine.execPerstNAssert s
  | .warmBoot rep => Sys2Proof.Machine.execWarmBoot rep s
  | .coldBoot rep => Sys2Proof.Machine.execColdBoot rep s
  | .wake recPin early => Sys2Proof.Machine.execWake recPin early s
  | .fwRunState => Sys2Proof.Machine.execFwRunState s
  | .fwActivateTimeout => Sys2Proof.Machine.execFwActivateTimeout s
  | .uvlo => Sys2Proof.Machine.execUvlo s
  | .ovlo => Sys2Proof.Machine.execOvlo s
  | .vinWarn falling => Sys2Proof.Machine.execVinWarn falling s
  | .recPress src => Sys2Proof.Machine.execRecPress src s
  | .recRelease src => Sys2Proof.Machine.execRecRelease src s
  | .ubMark ub => Sys2Proof.Machine.execUbMark ub s
  | .recFailFlashEnd => Sys2Proof.Machine.execRecFailFlashEnd s
  | .comma lane at_ bits => Sys2Proof.Machine.execComma lane at_ bits s
  | .cdrLockLoss lane => Sys2Proof.Machine.execCdrLockLoss lane s
  | .linkWord port => Sys2Proof.Machine.execLinkWord port s
  | .idle port => Sys2Proof.Machine.execIdle port s
  | .frameStart port => Sys2Proof.Machine.execFrameStart port s
  | .frameEnd port => Sys2Proof.Machine.execFrameEnd port s
  | .lineStart port => Sys2Proof.Machine.execLineStart port s
  | .lineData port full => Sys2Proof.Machine.execLineData port full s
  | .lineEnd port => Sys2Proof.Machine.execLineEnd port s
  | .embedded port => Sys2Proof.Machine.execEmbedded port s
  | .frameTimeout port => Sys2Proof.Machine.execFrameTimeout port s
  | .lnkLockTimeout port => Sys2Proof.Machine.execLnkLockTimeout port s
  | .snsXferStart port => Sys2Proof.Machine.execSnsXferStart port s
  | .snsXferDone port e => Sys2Proof.Machine.execSnsXferDone port e s
  | .settingsWriteDone port e => Sys2Proof.Machine.execSettingsWriteDone port e s
  | .setWindowExpiry port => Sys2Proof.Machine.execSetWindowExpiry port s
  | .trgAssert port => Sys2Proof.Machine.execTrgAssert port s
  | .trgDeassert port => Sys2Proof.Machine.execTrgDeassert port s
  | .stripeLanded port => Sys2Proof.Machine.execStripeLanded port s
  | .stripeStart => Sys2Proof.Machine.execStripeStart s
  | .stripeDone => Sys2Proof.Machine.execStripeDone s
  | .ladleTrigger ctx => Sys2Proof.Machine.execLadleTrigger ctx s
  | .readbackStale ctx => Sys2Proof.Machine.execReadbackStale ctx s
  | .paceTick pc => Sys2Proof.Machine.execPaceTick pc s
  | .vp1Entry request => Sys2Proof.Machine.execVp1Entry request s
  | .vp2Entry request => Sys2Proof.Machine.execVp2Entry request s
  | .peRowStart => Sys2Proof.Machine.execPeRowStart s
  | .peRowDone r => Sys2Proof.Machine.execPeRowDone r s
  | .entropySliceDone o => Sys2Proof.Machine.execEntropySliceDone o s
  | .spoolDrain stream => Sys2Proof.Machine.execSpoolDrain stream s
  | .cdcDrHead stream v => Sys2Proof.Machine.execCdcDrHead stream v s
  | .cdcDdHead stream v => Sys2Proof.Machine.execCdcDdHead stream v s
  | .cdcRingStall stream => Sys2Proof.Machine.execCdcRingStall stream s
  | .streamerSend stream => Sys2Proof.Machine.execStreamerSend stream s
  | .decodePictureEnd session => Sys2Proof.Machine.execDecodePictureEnd session s
  | .decodeOutput session => Sys2Proof.Machine.execDecodeOutput session s
  | .poolWaitEnd session => Sys2Proof.Machine.execPoolWaitEnd session s
  | .cdcDecStall session => Sys2Proof.Machine.execCdcDecStall session s
  | .cmpLatch composer line torn => Sys2Proof.Machine.execCmpLatch composer line torn s
  | .fenceTimeout composer layer tag => Sys2Proof.Machine.execFenceTimeout composer layer tag s
  | .vblankStart t phase torn => Sys2Proof.Machine.execVblankStart t phase torn s
  | .hotplug port present => Sys2Proof.Machine.execHotplug port present s
  | .dcsXferRun port acked report data => Sys2Proof.Machine.execDcsXferRun port acked report data s
  | .audBlockBoundary port ppm => Sys2Proof.Machine.execAudBlockBoundary port ppm s
  | .playFetch port => Sys2Proof.Machine.execPlayFetch port s
  | .audFrameIn port slotA slotB full => Sys2Proof.Machine.execAudFrameIn port slotA slotB full s
  | .audStartInstant => Sys2Proof.Machine.execAudStartInstant s
  | .audClockStop port => Sys2Proof.Machine.execAudClockStop port s
  | .audGlitch port => Sys2Proof.Machine.execAudGlitch port s
  | .audRateChange port => Sys2Proof.Machine.execAudRateChange port s
  | .holdoverExit port => Sys2Proof.Machine.execHoldoverExit port s
  | .tbWrap => Sys2Proof.Machine.execTbWrap s
  | .fcgTick fcg => Sys2Proof.Machine.execFcgTick fcg s
  | .netRxFrame frame fcsOk desc => Sys2Proof.Machine.execNetRxFrame frame fcsOk desc s
  | .netTxEgress queue fetch => Sys2Proof.Machine.execNetTxEgress queue fetch s
  | .netLaunch => Sys2Proof.Machine.execNetLaunch s
  | .netLinkChange up fetch0 fetch1 => Sys2Proof.Machine.execNetLinkChange up fetch0 fetch1 s
  | .netDb ring v fetch => Sys2Proof.Machine.execNetDb ring v fetch s
  | .dflJobStart src list st => Sys2Proof.Machine.execDflJobStart src list st s
  | .dflJobEnd engine => Sys2Proof.Machine.execDflJobEnd engine s
  | .dflDeferExpiry tag => Sys2Proof.Machine.execDflDeferExpiry tag s
  | .dmcRefresh chan wait => Sys2Proof.Machine.execDmcRefresh chan wait s
  | .dmcUncorrectable dpa fails corrected => Sys2Proof.Machine.execDmcUncorrectable dpa fails corrected s
  | .suspectAppend row => Sys2Proof.Machine.execSuspectAppend row s
  | .dmcDelayPass => Sys2Proof.Machine.execDmcDelayPass s
  | .hkRoundComplete v => Sys2Proof.Machine.execHkRoundComplete v s
  | .budgetTick t => Sys2Proof.Machine.execBudgetTick t s
  | .axTrip port off => Sys2Proof.Machine.execAxTrip port off s
  | .axRetryExpiry port => Sys2Proof.Machine.execAxRetryExpiry port s
  | .axRetryReset port => Sys2Proof.Machine.execAxRetryReset port s
  | .axLoadChange port present => Sys2Proof.Machine.execAxLoadChange port present s
  | .axReverseCurrent port => Sys2Proof.Machine.execAxReverseCurrent port s
  | .hcrcFail port => Sys2Proof.Machine.execHcrcFail port s
  | .reservedTypePacket port => Sys2Proof.Machine.execReservedTypePacket port s
  | .patSyncChange lane bits => Sys2Proof.Machine.execPatSyncChange lane bits s
  | .ovloExit => Sys2Proof.Machine.execOvloExit s
  | .axReverseClear port => Sys2Proof.Machine.execAxReverseClear port s
  | .axLimiting port above => Sys2Proof.Machine.execAxLimiting port above s
  | .lnkStopWaitExpiry port => Sys2Proof.Machine.execLnkStopWaitExpiry port s
  | .doeRequest => Sys2Proof.Machine.execDoeRequest s
  | .linkCrcError => Sys2Proof.Machine.execLinkCrcError s
  | .cxlCacheProtocolError inAddr => Sys2Proof.Machine.execCxlCacheProtocolError inAddr s

end Sys2Proof.Machine
end

