-- ==== Sys2Proof/Machine/Step.lean ====
section
/-!
DEFINITION. One step of the block: the command at the front of the queue takes effect on the state with the queue's
rest; on an empty queue one FAB tick passes.
-/
namespace Sys2Proof.Machine
open Sys2Proof

/-- A step on an empty queue: one FAB tick of the timebase while the logic runs (spec/17, R338; log 37). -/
def idle (s : State) : Host.Outcome State Fault Refusal := .next (if s.clocked then s.fabTick else s)

/-- One step. -/
def step (s : State) : Host.Outcome State Fault Refusal :=
  match s.pending with
  | [] => idle s
  | c :: rest => exec c { s with pending := rest }

/-- The state with the command that a word spells put at the front of its queue; the table gives no row bits, so no
word spells one (spec/opcode_table.json). -/
def State.withFetchWord (s : State) (nbits w : Nat) : State :=
  match decodeTableWord nbits w with
  | some c => { s with pending := c :: s.pending }
  | none => s

end Sys2Proof.Machine
end

