-- ==== Sys2Proof/WellFormed.lean ====
section
/-!
DEFINITION. What a command of the outside world can look like: field ranges that the types of Sys2Proof/Syntax.lean do not give
(spec/02, R27; spec/03, R52, R55; spec/04, R76; spec/11, Table 11-1; spec/21, R403).
-/
namespace Sys2Proof

/-- A master ID (spec/04, before R76). -/
def masterOk (m : Byte) : Bool := [0x00, 0x10, 0x11, 0x12, 0x13, 0x20, 0x30].contains m.toNat

/-- An offset lies inside its BAR (spec/03, Table 3-4). -/
def Loc.wf : Loc → Bool
  | .bar0 a => decide (a < 0x4000000)
  | .bar2 a => decide (a < 0x10000000)
  | .bar4 a => decide (a < 0x20000)
  | .cfg _ => true

/-- A read that failed names a 64-bit address. -/
def HostRead.wf : HostRead → Bool
  | .failed a _ => decide (a < 2 ^ 64)
  | .bytes _ => true

/-- A packet whose opcode is known: LEN is a multiple of 4 and at most 252 (R27), FLAGS have their three bits. -/
def Pkt.wf (p : Pkt) : Bool := p.params.length % 4 == 0 && decide (p.params.length ≤ 252) && decide (p.flags.toNat < 8) && p.buf.wf

/-- A command slot holds 252 parameter words at most. -/
def Slot.wf : Slot → Bool
  | .failed a _ => decide (a < 2 ^ 64)
  | .packet _ _ _ _ _ _ ps => decide (ps.length ≤ 252)

def AbortAt.wf (a : AbortAt) : Bool := a.data.wf

/-- A submission slot is 64 bytes. -/
def VqSlot.wf : VqSlot → Bool
  | .failed a _ => decide (a < 2 ^ 64)
  | .entry b => b.length == 64

/-- Fail codes 1 to 3 of Table 21-4, at most three attempts, steps up to 10, calibration copies within their flash area. -/
def BootRep.wf (r : BootRep) : Bool :=
  r.fails.all (fun c => decide (1 ≤ c) && decide (c ≤ 3)) && decide (r.fails.length ≤ 3) && decide (r.upTo ≤ 10)
    && decide (r.cal.1.length ≤ 65536) && decide (r.cal.2.length ≤ 65536) && decide (r.remap.all (fun x => decide (x.1 < 0x4000000)))

/-- Signatures of the four partitions at most. -/
def TestEnd.wf (e : TestEnd) : Bool := decide (e.sigs.length ≤ 4) && decide (e.table.length ≤ 4)

/-- A command is well formed. -/
def Instr.wf : Instr → Bool
  | .nop p | .devStatus p | .devReset p | .devSetPstate p | .devGetFingerprint p | .fwStage p
  | .fwVerify p | .fwActivate p | .evtDrain p | .lnkConfigPort p | .lnkMapQuads p | .lnkStart p
  | .lnkStop p | .snsLoadProfile p | .snsCtrlXfer p | .snsQueueSettings p | .lnkPattern p | .lnkStatus p
  | .rawSetLin p | .rawSetBlack p | .rawSetMerge p | .rawLoadDefects p | .rawSetFormat p | .rawGetStats p
  | .ctxConfigure p | .ctxCommit p | .ctxStart p | .ctxStop p | .ctxSetPolicy p | .ctxPlaybackSource p
  | .ctxStatus p | .clrSetShading p | .clrSetWbMatrix p | .clrSetWorkspace p | .tapConfigure p | .tapLoadLut p
  | .tapEnable p | .tapDisable p | .clrGetZonestats p | .vltSetLayout p | .takeOpen p | .takeClose p
  | .vltPin p | .vltUnpin p | .vltQueryFrame p | .vqCreateQueue p | .vqDeleteQueue p | .vqResetQueue p
  | .vltSetVpstate p | .recConfig p | .cdcStreamCreate p | .cdcStreamStart p | .cdcStreamStop p | .cdcSetRate p
  | .cdcSetRoi p | .cdcForceIrap p | .cdcDecodeOpen p | .cdcDecodeData p | .cdcDecodeClose p | .setHost p
  | .clearHost p | .clearOut p | .cdcStreamerTemplate p | .cmpConfigureLayer p | .cmpLoadLut p | .cmpCommit p
  | .cmpFlip p | .cmpSetWriteback p | .cmpRindStatus p | .dspSetTiming p | .dspRoute p | .dspPortEnable p
  | .dspPortDisable p | .dspDcsXfer p | .dspSdiAnc p | .dspStatus p | .audConfigurePort p | .audStart p
  | .audStop p | .audSetChstatus p | .audStatus p | .timSetAddend p | .timStep p | .timGet p
  | .fcgConfigure p | .netConfigure p | .netLinkControl p | .netSetPtp p | .dflSubmit p | .dflResume p
  | .dflAbort p | .dflStatus p | .pwrSetInputLimit p | .pwrAxConfigure p | .pwrAxSwitch p | .pwrGetHk p
  | .thmGetBand p | .tstRunAnalogue p | .tstRunLbist p | .tstRunMbist p | .tstGetResult p | .tstSetTmux p
  | .rprGetStatus p | .rprCommitPpr p | .mbxBind p | .mbxLock p | .dltRefresh p | .semForceRelease p => p.wf
  | .packetFetch _ slot => slot.wf
  | .registerWrite master loc _ => masterOk master && loc.wf
  | .readClear master loc => masterOk master && loc.wf
  | .lowWordRead master loc => masterOk master && loc.wf
  | .txData m _ _ => masterOk m
  | .rxWordLo m _ => masterOk m
  | .semAcquire m _ => masterOk m
  | .semRelease m _ => masterOk m
  | .timNowNs master => masterOk master
  | .tstStartAnalogue master _ => masterOk master
  | .tstStartLbist master _ => masterOk master
  | .tstStartMbist master _ => masterOk master
  | .testDone e => e.wf
  | .vqNop _ slot => slot.wf
  | .vqRead _ slot => slot.wf
  | .vqWrite _ slot => slot.wf
  | .vqCopy _ slot => slot.wf
  | .vqReadFrame _ slot => slot.wf
  | .vqFlush _ slot => slot.wf
  | .vqAbort _ slot target => slot.wf && target.wf
  | .vqCmdStart _ target => target.wf
  | .vqTransferDone _ _ data _ => data.wf
  | .vqTmoExpiry _ _ _ data => data.wf
  | .memrd addr => decide (addr < 2 ^ 64)
  | .memrddata addr => decide (addr < 2 ^ 64)
  | .meminv addr => decide (addr < 2 ^ 64)
  | .memspecrd addr => decide (addr < 2 ^ 64)
  | .memwr addr data => decide (addr < 2 ^ 64) && data.length == 64
  | .memwrptl addr data _ => decide (addr < 2 ^ 64) && data.length == 64
  | .hdmCommit _ base size _ => decide (base < 2 ^ 64) && decide (size < 2 ^ 64)
  | .snpinv _ data => data.wf
  | .fencePoll _ data => data.wf
  | .dmaReadError _ _ addr _ => decide (addr < 2 ^ 64)
  | .cacheWriteError _ _ addr => decide (addr < 2 ^ 64)
  | .linkTrainingDone _ width rate => [1, 2, 4, 8].contains width && decide (rate ≤ 32)
  | .warmBoot rep => rep.wf
  | .coldBoot rep => rep.wf
  | .netRxFrame frame _ desc => decide (60 ≤ frame.length) && desc.wf
  | .dmcUncorrectable dpa _ _ => decide (dpa < 2 ^ 38)
  | .packetComplete _ _ | .replyBoundExpiry _ _ _ | .cmdLateDone _ _ | .fwqUrgentAge _ _
  | .cmdRpStall _ | .cmdDb _ _ | .cmdRpHead _ _ | .msixUnmask _
  | .mbxCtrlLock | .mbxTmo _ _ | .coreReset _ | .hvmBridgeRestart
  | .injectSingle _ | .injectBurst _ _ | .tapHoldSet _ _ | .wbHoldSet _ _
  | .dlyLock | .evtErrClear | .tstAdmitExpiry | .vqSqDb _ _
  | .vqCqHead _ _ | .vqCplPost _ | .vqDeferExpiry _ _ | .vqCqStall _
  | .linkDown | .flr | .perstNAssert | .wake _ _
  | .fwRunState | .fwActivateTimeout | .uvlo | .ovlo
  | .vinWarn _ | .recPress _ | .recRelease _ | .ubMark _
  | .recFailFlashEnd | .comma _ _ _ | .cdrLockLoss _ | .linkWord _
  | .idle _ | .frameStart _ | .frameEnd _ | .lineStart _
  | .lineData _ _ | .lineEnd _ | .embedded _ | .frameTimeout _
  | .lnkLockTimeout _ | .snsXferStart _ | .snsXferDone _ _ | .settingsWriteDone _ _
  | .setWindowExpiry _ | .trgAssert _ | .trgDeassert _ | .stripeLanded _
  | .stripeStart | .stripeDone | .ladleTrigger _ | .readbackStale _
  | .paceTick _ | .vp1Entry _ | .vp2Entry _ | .peRowStart
  | .peRowDone _ | .entropySliceDone _ | .spoolDrain _ | .cdcDrHead _ _
  | .cdcDdHead _ _ | .cdcRingStall _ | .streamerSend _ | .decodePictureEnd _
  | .decodeOutput _ | .poolWaitEnd _ | .cdcDecStall _ | .cmpLatch _ _ _
  | .fenceTimeout _ _ _ | .vblankStart _ _ _ | .hotplug _ _ | .dcsXferRun _ _ _ _
  | .audBlockBoundary _ _ | .playFetch _ | .audFrameIn _ _ _ _ | .audStartInstant
  | .audClockStop _ | .audGlitch _ | .audRateChange _ | .holdoverExit _
  | .tbWrap | .fcgTick _ | .netTxEgress _ _ | .netLaunch
  | .netLinkChange _ _ _ | .netDb _ _ _ | .dflJobStart _ _ _ | .dflJobEnd _
  | .dflDeferExpiry _ | .dmcRefresh _ _ | .suspectAppend _ | .dmcDelayPass
  | .hkRoundComplete _ | .budgetTick _ | .axTrip _ _ | .axRetryExpiry _
  | .axRetryReset _ | .axLoadChange _ _ | .axReverseCurrent _ | .hcrcFail _
  | .reservedTypePacket _ | .patSyncChange _ _ | .ovloExit | .axReverseClear _
  | .axLimiting _ _ | .lnkStopWaitExpiry _ | .doeRequest | .linkCrcError
  | .cxlCacheProtocolError _ => true

end Sys2Proof
end

