-- ==== Sys2Proof/Safety.lean ====
section
/-!
DEFINITION. What counts as a sound state and a safe run, in the terms the statements use: the canonical form of every store, the
invariant of a step, a packet that passes its checks, and which commands can fault or write the working region.
-/
namespace Sys2Proof.Machine
open Sys2Proof

/-- The canonical form of the working region: addresses rise strictly and no listed byte equals what an unlisted one reads as. -/
abbrev Memory.wf (m : List Host.Cell) : Bool := storeWf memDefault m

/-- What every step keeps: each store is canonical, and the queue holds well-formed commands. -/
abbrev Inv (s : State) : Prop :=
  Memory.wf s.mem = true ∧ Memory.wf s.bar2 = true ∧ storeRising s.host = true
    ∧ storeWf (regReset s.dev.variant) s.regs = true ∧ s.pending.all Instr.wf = true

/-- A command completes: it neither faults nor is refused. -/
abbrev Completes (i : Instr) (s : State) : Prop := ∃ t, exec i s = .next t

/-- A run of `n` steps reaches a state: no step faults. -/
def SafeRun (s : State) : Nat → Prop
  | 0 => True
  | n + 1 => ∃ t, step s = .next t ∧ SafeRun t n

/-- An opcode of the fast path (Table 2-6). -/
def fastOp (op : Nat) : Bool := (opSpec op).any (·.fast)

/-- A packet of opcode `op` passes every check: it was not abandoned at its bound (R41), the header checks of R452 and the reserved
words of R27 let it through and, on the firmware path, its turn has come (R37). -/
def accepted (op : Nat) (p : Pkt) (s : State) : Bool :=
  let h := s.pktHdr op p
  match opSpec op with
  | none => false
  | some sp =>
    !s.cmd.abandoned.any (·.is h)
      && (headerCheck sp s.dev.safe s.dlt.disabled h.ring p.params.length h.flags p.target.toNat 0 p.params).isNone
      && (reservedWord sp p.params).isNone && (sp.fast || s.turn h)

/-- The state an accepted packet acts on: a firmware-path packet has left the queue (R37). -/
def entered (op : Nat) (p : Pkt) (s : State) : State :=
  if fastOp op then s else s.restart (s.pktHdr op p) (fun e => { e with queued := false })

/-- What becomes of the outcome of the packet with header `h` (R34): a fast-path packet is answered at once, a firmware-path packet awaits
PACKET_COMPLETE. -/
def settled (op : Nat) (h : Hdr) (s : State) (o : Outc) : State := if fastOp op then s.complete h o else s.finishF h o

/-- From `s` to `t` every register but those listed keeps its value. -/
def OnlyRegs (l : List Nat) (s t : State) : Prop := ∀ a, a ∉ l → t.rd a = s.rd a

/-- The registers that logging an event can change. -/
def evtRegs : List Nat := [EVT_TAIL_SEQ, EVT_LOST, EVT_ERR_LOST, EVT_DROP, EVT_IRQ_PEND]

/-- From `s` to `t` nothing changes but registers, the logs, MSI-X state and what leaves the device: what events and interrupts touch. -/
def LogFrame (s t : State) : Prop := t = { s with regs := t.regs, evt := t.evt, cxl := t.cxl, out := t.out }

/-- Commands that can end in a fault: CXL.mem requests to an HPA no committed decoder maps, and register accesses at an
offset that is no multiple of 4. -/
def mayFault : Instr → Bool
  | .memrd _ | .memrddata _ | .meminv _ | .memspecrd _ | .memwr _ _ | .memwrptl _ _ _ => true
  | .registerWrite _ _ _ | .readClear _ _ | .lowWordRead _ _ => true
  | _ => false

/-- Commands that may write the working region of the vault; every other command leaves each of its bytes alone. -/
def writesRegion : Instr → Bool
  | .audBlockBoundary _ _ | .cdcDecodeOpen _ | .cdcDecodeData _ | .cdcDecodeClose _ | .clrGetZonestats _
  | .cmdLateDone _ _ | .cmdRpHead _ _ | .cmpLatch _ _ _ | .coldBoot _ | .decodeOutput _ | .decodePictureEnd _
  | .dflAbort _ | .dflDeferExpiry _ | .dflJobEnd _ | .dltRefresh _ | .entropySliceDone _ | .evtDrain _ | .fcgTick _
  | .flr | .hkRoundComplete _ | .memwr _ _ | .memwrptl _ _ _ | .netDb _ _ _ | .netLinkChange _ _ _
  | .netLinkControl _ | .netRxFrame _ _ _ | .netTxEgress _ _ | .ovlo | .paceTick _ | .packetComplete _ _
  | .peRowDone _ | .rawGetStats _ | .registerWrite _ _ _ | .replyBoundExpiry _ _ _ | .snsXferDone _ _
  | .spoolDrain _ | .stripeDone | .stripeStart | .testDone _ | .uvlo | .vblankStart _ _ _ | .vqAbort _ _ _
  | .vqCmdStart _ _ | .vqCopy _ _ | .vqFlush _ _ | .vqNop _ _
  | .vqRead _ _ | .vqReadFrame _ _ | .vqResetQueue _ | .vqTmoExpiry _ _ _ _ | .vqTransferDone _ _ _ _ | .vqWrite _ _
  | .warmBoot _ => true
  | _ => false

end Sys2Proof.Machine
end

