-- ==== Sys2Proof/Certificates/Slice0/Obligations.lean ====
section
/-!
DEFINITION. The statements put to the provers. `exec` is the effect of one command, `step` the step of the machine; each docstring says
what the definition states, in the same order.
-/
open Sys2Proof Sys2Proof.Machine

/-- For every command c, every rest of a queue and every state, step of the state whose queue is c followed by the
rest is exec of c on that state with the rest as its queue. -/
def Obligations.StepRunsFront : Prop :=
  ∀ (c : Instr) (rest : List Instr) (s : State),
    step { s with pending := c :: rest } = exec c { s with pending := rest }

/-- With an empty queue step answers a next state. It is one FAB tick (State.fabTick) while State.clocked holds of the
state, and the state as it was otherwise. That a step on an empty queue stands for one FAB tick is the model's choice
(DESIGN CHOICE, log 37). -/
def Obligations.StepIdle : Prop :=
  (∀ (s : State), s.pending = [] → s.clocked = true → step s = .next s.fabTick)
  ∧ (∀ (s : State), s.pending = [] → s.clocked = false → step s = .next s)

/-- State.reset meets Inv: the working region, the BAR2 ring storage, the host bytes and the register file are in
their canonical forms and every queued command is well formed. -/
def Obligations.ResetInv : Prop :=
  Inv State.reset

/-- For every state that meets Inv, if step answers a next state, that state meets Inv: the working region, the BAR2
ring storage and the register file keep their canonical forms (addresses rise strictly, no entry equals what an
unlisted address reads as), the host bytes stay in rising order, and every queued command stays well formed. -/
def Obligations.StepKeepsInv : Prop :=
  ∀ (s t : State), Inv s → step s = .next t → Inv t

/-- exec never answers a refusal. Every command outside mayFault (CXL.mem requests, register accesses) answers a next
state from every state, whatever its operands. -/
def Obligations.CommandsComplete : Prop :=
  ∀ (i : Instr) (s : State), (∀ r, exec i s ≠ .refused r) ∧ (mayFault i = false → Completes i s)

/-- If a command answers a next state, the queue and the part variant are as before, what has left the device so far
is a prefix of what has left it after, and the counter of free values has not gone down. -/
def Obligations.CommandsKeep : Prop :=
  ∀ (i : Instr) (s t : State), exec i s = .next t →
    t.pending = s.pending ∧ t.dev.variant = s.dev.variant ∧ s.out <+: t.out ∧ s.freeCtr ≤ t.freeCtr

/-- For each command that writesRegion does not list, if it answers a next state, every byte of the working region
reads after it as it read before. -/
def Obligations.RegionFrame : Prop :=
  ∀ (i : Instr) (s t : State), writesRegion i = false → exec i s = .next t → ∀ a, t.memB a = s.memB a

/-- A packet not cut off from its reply, whose NOREPLY rule does not apply and whose reply ring (in host memory) has
room and holds nothing back, is completed by 64 bytes of Table 2-3 at the reply base plus 64 times the tail modulo the
ring size, PHASE 1 where bit LOG2N of the tail is 0. TAIL moves on by one modulo twice the ring size, the ring's PEND
bit stands, every other host byte, every register but the ring's TAIL and CMD_IRQ, and the working region stay. -/
def Obligations.ReplyWritten : Prop :=
  ∀ (s : State) (h : Hdr) (o : Outc), storeRising s.regs = true → s.isLate h = false → noReply h o = false →
  h.ring < 4 → s.f (CMD_CR_CFG__LOG2N h.ring) ≤ 8 → s.rpFull h.ring = false →
  s.cmd.held.any (fun r => r.hdr.ring == h.ring) = false → s.on (CMD_CR_CFG__PLOC h.ring) = false →
    let lg := s.f (CMD_CR_CFG__LOG2N h.ring)
    let tail := s.f (CMD_RP_TAIL__TAIL h.ring)
    let a := s.rn (CMD_RP_BASE_HI h.ring) * 0x100000000 + s.f (CMD_RP_BASE_LO__BASE_LO h.ring) * 0x1000
      + 64 * (tail % 2 ^ lg)
    let t := s.complete h o
    (∀ i, i < 64 → storeFind t.host (a + i) = (replyBytes ⟨h, false, o⟩ (!bitAt tail lg) s.ns)[i]?)
      ∧ (∀ x, (x < a ∨ a + 64 ≤ x) → storeFind t.host x = storeFind s.host x)
      ∧ t.f (CMD_RP_TAIL__TAIL h.ring) = (tail + 1) % 2 ^ (lg + 1) ∧ t.bit CMD_IRQ__PEND h.ring = true
      ∧ OnlyRegs [CMD_RP_TAIL h.ring, CMD_IRQ] s t ∧ t.mem = s.mem ∧ t.bar2 = s.bar2

/-- Let a ring be one that PACKET_FETCH may serve: the device is ready, the ring is enabled with a posted packet and
room in its reply ring, and no ring passed by in the round could be served (State.fetchable, State.passedBy); let the
slot at HEAD read as a packet of a known opcode, and let no packet of the ring be in flight. PACKET_FETCH makes the
ring the one served last, clears its stop bits and moves HEAD on. When the header checks pass it starts the packet: a
fast-path packet, whatever the firmware queue holds; a firmware-path packet queued for the firmware, urgent where flag
2 is set, when no packet of another ring works on the same object, no firmware activation runs and the queue has fewer
than 64 entries in use. A packet that a header check refuses is completed with that check's outcome. PACKET_FETCH of a
ring it may serve, whose slot at HEAD reads as failed or poisoned, makes the ring the one served last, clears its EN,
sets FETCH_ERR and logs DMA_ERROR with the address; in the PCIe fallback it also reports an advisory non-fatal error.
PACKET_FETCH changes nothing for a ring that may not be served: one of a device not ready, not enabled, without a
posted packet or with a full reply ring (State.fetchable), or one that comes after another ring that could be served
(State.passedBy). -/
def Obligations.PacketStarts : Prop :=
  (∀ (ring : Fin 4) (slot : Slot) (opcode flags : BitVec 16) (seq : W32) (len target : BitVec 16) (rsv : W32) (ps : List W32) (sp : OpSpec) (s : State),
    s.fetchable ring = true → s.passedBy ring = false →
    s.slotRead ring slot = .packet opcode flags seq len target rsv ps → s.inflight ring = [] →
      opSpec opcode.toNat = some sp →
      headerCheck sp s.dev.safe s.dlt.disabled ring len.toNat flags.toNat target.toNat rsv.toNat ps = none →
      sp.fast = true →
      exec (.packetFetch ring slot) s =
        let u := (({ s with cmd := { s.cmd with turn := ring } } : State).setWait ring false false).headNext ring
        .next (u.start {
          ring := ring, seq := seq, opcode := opcode.toNat, target := target.toNat, flags := flags.toNat, fast := true
          queued := false, urgent := false, late := false, waitB := false }))
  ∧ (∀ (ring : Fin 4) (slot : Slot) (opcode flags : BitVec 16) (seq : W32) (len target : BitVec 16) (rsv : W32) (ps : List W32) (sp : OpSpec) (s : State),
    s.fetchable ring = true → s.passedBy ring = false →
    s.slotRead ring slot = .packet opcode flags seq len target rsv ps → s.inflight ring = [] →
      opSpec opcode.toNat = some sp →
      headerCheck sp s.dev.safe s.dlt.disabled ring len.toNat flags.toNat target.toNat rsv.toNat ps = none →
    sp.fast = false → s.busyHolder ring target.toNat = none → s.flash.activating = none → s.fwqUsed < 64 →
      exec (.packetFetch ring slot) s =
        let u := (({ s with cmd := { s.cmd with turn := ring } } : State).setWait ring false false).headNext ring
        .next (u.start {
          ring := ring, seq := seq, opcode := opcode.toNat, target := target.toNat, flags := flags.toNat, fast := false
          queued := true, urgent := bitAt flags.toNat 2, late := false, waitB := false }))
  ∧ (∀ (ring : Fin 4) (slot : Slot) (opcode flags : BitVec 16) (seq : W32) (len target : BitVec 16) (rsv : W32) (ps : List W32) (sp : OpSpec) (o : Outc) (s : State),
    s.fetchable ring = true → s.passedBy ring = false →
    s.slotRead ring slot = .packet opcode flags seq len target rsv ps → s.inflight ring = [] →
      opSpec opcode.toNat = some sp →
      headerCheck sp s.dev.safe s.dlt.disabled ring len.toNat flags.toNat target.toNat rsv.toNat ps = some o →
      exec (.packetFetch ring slot) s =
        let u := (({ s with cmd := { s.cmd with turn := ring } } : State).setWait ring false false).headNext ring
        .next (u.complete { ring := ring, seq := seq, opcode := opcode.toNat, flags := flags.toNat } o))
  ∧ (∀ (ring : Fin 4) (slot : Slot) (addr : Nat) (poisoned : Bool) (s : State), s.fetchable ring = true →
    s.passedBy ring = false → s.slotRead ring slot = .failed addr poisoned →
      exec (.packetFetch ring slot) s =
        let u := ({ s with cmd := { s.cmd with turn := ring } } : State)
        let v := ((u.setF (CMD_CR_CFG__EN ring) 0).raise (CMD_CR_STAT__FETCH_ERR ring)).log .cmd evDmaError 0xFFFF addr (addr / 0x100000000)
          (ring + 0x10000 * b2n poisoned)
        .next (if v.cxl.fallback then v.aer .advisoryNonFatal else v))
  ∧ (∀ (ring : Fin 4) (slot : Slot) (s : State), s.fetchable ring = false ∨ s.passedBy ring = true →
      exec (.packetFetch ring slot) s = .next s)

/-- A doorbell below twice the ring size, at most a ring ahead of HEAD and not behind the last tail becomes the ring's
tail and changes nothing else, before the device is ready too (log 81); any other value only sets DB_RANGE. On a ready
device CMD_RP_HEAD of a value below twice the ring size that returns no more reply slots than are in use becomes the
reply ring's HEAD, held replies are written while there is room, and what waited for a completion follows; any other
value only sets DB_RANGE. Before the device is ready CMD_RP_HEAD changes nothing. -/
def Obligations.Doorbells : Prop :=
  (∀ (ring : Fin 4) (v : W32) (s : State),
      let n := v.toNat % 512
      exec (.cmdDb ring v) s = .next
        (if n < 2 * s.ringN ring ∧ s.crAhead ring n ≤ s.ringN ring ∧ s.crAhead ring (s.cmd.tail.getD ring 0) ≤ s.crAhead ring n
          then { s with cmd := { s.cmd with tail := s.cmd.tail.setIfInBounds ring n } } else s.raise (CMD_CR_STAT__DB_RANGE ring)))
  ∧ (∀ (ring : Fin 4) (v : W32) (s : State), s.dev.ready = true →
      let h := v.toNat % 512
      let m := 2 * s.ringN ring
      let u := s.setF (CMD_RP_HEAD__HEAD ring) h
      exec (.cmdRpHead ring v) s = .next
        (if h < m ∧ (h + m - s.f (CMD_RP_HEAD__HEAD ring) % m) % m ≤ s.rpUsed ring
          then (State.flushHeld ring u.cmd.held.length u).afterEnd 0 else s.raise (CMD_CR_STAT__DB_RANGE ring)))
  ∧ (∀ (ring : Fin 4) (v : W32) (s : State), s.dev.ready = false → exec (.cmdRpHead ring v) s = .next s)

/-- While no reset or sleep is planned, PACKET_COMPLETE of a packet whose operation has ended completes it with that
outcome, and what waited for a completion follows. CMD_LATE_DONE of a packet cut off from its reply, whose operation
has ended, logs its SEQ and final STATUS and writes no reply of it. REPLY_BOUND_EXPIRY of a packet whose reply ring
has room, whose operation has not ended and which waits on no queue reset, sensor transfer or admission, counts a
timeout; a packet still waiting in the firmware queue it abandons and answers TIMEOUT with DETAIL 0; a firmware-path
packet being executed it answers TIMEOUT with DETAIL 1 and LATE_POSSIBLE and keeps as cut off from its reply.
FWQ_URGENT_AGE gives the first such waiting packet that is not urgent urgent standing and changes nothing else;
without one it changes nothing. CMD_RP_STALL on a full reply ring logs the event, on any other it changes nothing. -/
def Obligations.PacketEnds : Prop :=
  (∀ (ring : Fin 4) (seq : W32) (r : Reply) (s : State),
      s.cmd.done.find? (fun r => r.hdr.ring == ring.val && r.hdr.seq == seq && !s.isLate r.hdr) = some r →
      s.dev.after = none →
      exec (.packetComplete ring seq) s =
        let u := { s with cmd := { s.cmd with done := s.cmd.done.erase r } }
        .next (((u.complete r.hdr r.out).dropAfter r.hdr r.out).afterEnd r.hdr.opcode))
  ∧ (∀ (ring : Fin 4) (seq : W32) (r : Reply) (s : State),
      s.cmd.done.find? (fun r => r.hdr.ring == ring.val && r.hdr.seq == seq && s.isLate r.hdr) = some r →
      s.dev.after = none →
      exec (.cmdLateDone ring seq) s =
        let u := { s with cmd := { s.cmd with done := s.cmd.done.erase r } }
        .next ((((u.unstart r.hdr).log .cmd evCmdLateDone 0xFFFF seq.toNat r.out.status).dropAfter r.hdr r.out).afterEnd r.hdr.opcode))
  ∧ (∀ (ring : Fin 4) (seq : W32) (opcode : BitVec 16) (e : Started) (s : State),
      s.cmd.started.find? (fun (e : Started) => e.ring == ring.val && e.seq == seq && e.opcode == opcode.toNat && !e.late) = some e →
    s.rpFull e.ring = false → e.queued = true → e.waitB = false → s.cmd.done = [] →
      s.resetOf ⟨e.ring, e.seq, e.opcode, e.flags, e.id⟩ = none →
      s.port.toList.any (fun q => q.xfer.any (fun x => x.hdr == some ⟨e.ring, e.seq, e.opcode, e.flags, e.id⟩ && !x.running)) = false →
      exec (.replyBoundExpiry ring seq opcode) s =
        let u := s.bumpEvt .cmd CMD_TIMEOUT_CNT
        let u := { u with cmd := { u.cmd with abandoned := u.cmd.abandoned ++ [e] } }
        .next ((u.deliver ⟨⟨e.ring, e.seq, e.opcode, e.flags, e.id⟩, false, refuse stTimeout 0x0000⟩).afterEnd 0))
  ∧ (∀ (ring : Fin 4) (seq : W32) (opcode : BitVec 16) (e : Started) (s : State),
      s.cmd.started.find? (fun (e : Started) => e.ring == ring.val && e.seq == seq && e.opcode == opcode.toNat && !e.late) = some e →
    s.rpFull e.ring = false → e.queued = false → e.fast = false → e.waitB = false → s.cmd.done = [] →
      s.resetOf ⟨e.ring, e.seq, e.opcode, e.flags, e.id⟩ = none →
      s.port.toList.any (fun q => q.xfer.any (fun x => x.hdr == some ⟨e.ring, e.seq, e.opcode, e.flags, e.id⟩ && !x.running)) = false →
      exec (.replyBoundExpiry ring seq opcode) s =
        let u := (s.bumpEvt .cmd CMD_TIMEOUT_CNT).deliver ⟨⟨e.ring, e.seq, e.opcode, e.flags, e.id⟩, true, refuse stTimeout 0x0001⟩
        .next (State.afterEnd { u with cmd := { u.cmd with started := u.cmd.started ++ [{ e with late := true }] } } 0))
  ∧ (∀ (ring : Fin 4) (seq : W32) (e : Started) (s : State),
      s.cmd.started.find? (fun (e : Started) => e.ring == ring.val && e.seq == seq && e.queued && !e.urgent) = some e →
      exec (.fwqUrgentAge ring seq) s =
        .next { s with cmd := { s.cmd with started := s.cmd.started.map (fun x => if x.id = e.id then { x with urgent := true } else x) } })
  ∧ (∀ (ring : Fin 4) (seq : W32) (s : State),
      s.cmd.started.find? (fun (e : Started) => e.ring == ring.val && e.seq == seq && e.queued && !e.urgent) = none →
      exec (.fwqUrgentAge ring seq) s = .next s)
  ∧ (∀ (ring : Fin 4) (s : State),
      exec (.cmdRpStall ring) s = .next (if s.rpFull ring then s.log .cmd evCmdRpStall 0xFFFF ring else s))

/-- An accepted NOP changes nothing and is answered OK without results. DEV_STATUS answers the twelve words of R407,
read in one instant, and changes nothing. DEV_GET_FINGERPRINT answers the device fingerprint, the TARGET's
fingerprint, COMMIT_SEQ and the low 32 bits of the timebase at the latest commit, and changes nothing. An accepted
EVT_DRAIN of the live log, whose buffer is valid and a multiple of 32 bytes long and whose FIRST_SEQ is not older than
the oldest entry held (any, where none is held), writes the images of the entries from FIRST_SEQ on, as many as fit,
to the buffer (one in the working region leaves the vault's power states); EVT_RD_SEQ becomes the sequence number
after the last of them, or FIRST_SEQ where there is none; CLEAR_ERR empties the error log; the reply gives the count,
the first and next numbers and EVT_LOST. A SOURCE of 3 or a valid buffer whose length is no multiple of 32 is refused
BAD_PARAM 0x8020 and changes nothing. EVT_ERR_CLEAR empties the error log and changes nothing else. Let an accepted
DLT_REFRESH have a valid buffer reference. With a buffer of no length it publishes the table again and answers the
GEN, length and CRC of the table then live. With a buffer of at least that length it also writes the exported copy of
the table to the buffer: to host memory as a cache write where the link carries CXL.cache, else as a buffer write; a
buffer in the working region leaves the vault's power states. A buffer of some length less than the table's is refused
with BAD_PARAM word 2 and changes nothing. Some widths and values of the table's entries are free values, which the
specification does not give (log 3). -/
def Obligations.DeviceReports : Prop :=
  (∀ (p : Pkt) (s : State), accepted 0x0000 p s = true →
      exec (.nop p) s = .next (settled 0x0000 (s.pktHdr 0x0000 p) s (ok)))
  ∧ (∀ (p : Pkt) (s : State), accepted 0x0001 p s = true →
      exec (.devStatus p) s = .next (settled 0x0001 (s.pktHdr 0x0001 p) s (ok [s.viewCmdStat, s.rn EVT_BOOT_STAT, s.viewPwr, s.viewThm, s.rn TST_SAFE, s.rn VQ_VPSTATE, s.dlt.gen.toNat, s.viewTail,
      s.dev.commitSeq.toNat, s.rn TIM_NOW_NS, s.rn TIM_NOW_EPOCH, b2n s.dev.ready + 2 * b2n s.cxl.fallback + 4 * b2n s.cxl.memActive])))
  ∧ (∀ (p : Pkt) (s : State), accepted 0x0004 p s = true →
      exec (.devGetFingerprint p) s = .next (settled 0x0004 (s.pktHdr 0x0004 p) s (ok [s.devFp.toNat % 0x100000000, s.devFp.toNat / 0x100000000, (s.targetFp p.target.toNat).toNat % 0x100000000, (s.targetFp p.target.toNat).toNat / 0x100000000,
      s.dev.commitSeq.toNat, s.dev.commitTb.toNat])))
  ∧ (∀ (p : Pkt) (sel : List EvtEntry) (first next : Nat) (u t : State) (s : State), accepted 0x0020 p s = true →
    (entered 0x0020 p s).refOk (p.ref 4) = true → p.b 1 0 2 = 0 → (p.ref 4).len % 32 = 0 →
      serialLt (p.w 0) (((entered 0x0020 p s).evt.live.head?.map (·.seq.toNat)).getD (p.w 0)) = false →
      sel = ((entered 0x0020 p s).evt.live.filter (fun e => !serialLt e.seq.toNat (p.w 0))).take ((p.ref 4).len / 32) →
      first = (sel.head?.map (·.seq.toNat)).getD (p.w 0) →
      next = (sel.getLast?.map (fun e => (e.seq.toNat + 1) % 0x100000000)).getD first →
      u = ((entered 0x0020 p s).writeRef (p.ref 4) (sel.flatMap EvtEntry.image)).wn EVT_RD_SEQ next →
      (t = if p.t 1 8 then { u with evt := { u.evt with err := [] } } else u) →
      exec (.evtDrain p) s = .next (settled 0x0020 (s.pktHdr 0x0020 p) (t.refUse (p.ref 4)) (ok [sel.length, first, next, t.rn EVT_LOST])))
  ∧ (∀ (p : Pkt) (s : State), accepted 0x0020 p s = true → (entered 0x0020 p s).refOk (p.ref 4) = true →
      p.b 1 0 2 = 3 ∨ (p.ref 4).len % 32 ≠ 0 →
      exec (.evtDrain p) s = .next (settled 0x0020 (s.pktHdr 0x0020 p) (entered 0x0020 p s) (refuse stBadParam 0x8020)))
  ∧ (∀ (s : State), exec .evtErrClear s = .next { s with evt := { s.evt with err := [] } })
  ∧ (∀ (p : Pkt) (s : State), accepted 0x0E02 p s = true → (p.ref 0).len = 0 →
      exec (.dltRefresh p) s = .next (settled 0x0E02 (s.pktHdr 0x0E02 p) ((entered 0x0E02 p s).publish) (ok [(entered 0x0E02 p s).publish.dlt.gen.toNat, dltLength (entered 0x0E02 p s).publish.dlt.entries, (entered 0x0E02 p s).publish.dlt.crc.toNat])))
  ∧ (∀ (p : Pkt) (u v : State) (s : State), accepted 0x0E02 p s = true → (entered 0x0E02 p s).refOk (p.ref 0) = true →
    (p.ref 0).len ≠ 0 → u = (entered 0x0E02 p s).publish → dltLength u.dlt.entries ≤ (p.ref 0).len →
      (v = if (p.ref 0).space = 0 ∧ u.cxl.fallback = false then u.writeHost (p.ref 0).addr u.dltExport else u.writeRef (p.ref 0) u.dltExport) →
      exec (.dltRefresh p) s = .next (settled 0x0E02 (s.pktHdr 0x0E02 p) (v.refUse (p.ref 0)) (ok [u.dlt.gen.toNat, dltLength u.dlt.entries, u.dlt.crc.toNat])))
  ∧ (∀ (p : Pkt) (s : State), accepted 0x0E02 p s = true → (entered 0x0E02 p s).refOk (p.ref 0) = true →
    (p.ref 0).len ≠ 0 → (p.ref 0).len < dltLength (entered 0x0E02 p s).publish.dlt.entries →
      exec (.dltRefresh p) s = .next (settled 0x0E02 (s.pktHdr 0x0E02 p) (entered 0x0E02 p s) (badWord 2)))

/-- A word written by a bound master joins the other side's queue while that holds fewer than eight, with the epoch
flag of its sender, which is then cleared; toward the host it sets the channel's PEND bit. Into a full queue, a host
write sets WFULL_ERR, counts and reports an advisory non-fatal error, another master gets an error response, and no
queue changes. RX_WORD_LO answers and removes the oldest word and latches its flags; on an empty queue it answers 0.
An unbound master's access answers 0 or an error response and changes no queue. While the access reaches the block,
SEM_ACQUIRE of a free semaphore makes the reader its owner and answers 0; of one held it answers the owner plus 1 and
changes nothing. SEM_RELEASE by the owner frees the semaphore; by any other master it changes no semaphore and logs
SEM_BAD_RELEASE. Accepted, SEM_FORCE_RELEASE frees exactly the semaphores of its mask and answers which of them were
held. Accepted and not locked, MBX_BIND of two master IDs rebinds the channel by bindChannel (a change discards both
queues and the status); with an ID outside the master table it is refused with BAD_PARAM word 1, and while LOCK stands
with NOT_PERMITTED, changing nothing. MBX_LOCK sets LOCK; the register write sets it too, and once set is only
reported. MBX_TMO with a word unread sets the sender's TX_TMO and the channel's TMO bit and logs the event. The reset
of a control core or of the HVM bridge is the reset of its master. -/
def Obligations.MailboxesAndSemaphores : Prop :=
  (∀ (m : Byte) (ch : Fin 16) (w : W32) (b : Bool) (s : State), s.mbxSide ch m = some b →
      (s.mbxGet ch (!b)).rx.length < 8 →
      let u := s.mbxSet ch (!b) { s.mbxGet ch (!b) with rx := (s.mbxGet ch (!b)).rx ++ [(w, (s.mbxGet ch b).epochNext)] }
      let u := u.mbxSet ch b { u.mbxGet ch b with epochNext := false }
      exec (.txData m ch w) s = .next (if u.mbxMaster ch (!b) = 0 then u.pend MBX_IRQ_PEND__PEND ch (u.bit MBX_IRQ__EN ch) 32 else u))
  ∧ (∀ (m : Byte) (ch : Fin 16) (w : W32) (b : Bool) (s : State), s.mbxSide ch m = some b →
      8 ≤ (s.mbxGet ch (!b)).rx.length →
      exec (.txData m ch w) s = .next (if m = 0 then ((s.setBit MBX_STAT__WFULL_ERR ch true).bumpStat MBX_WFULL_CNT).aer .advisoryNonFatal
        else s.emit .errResponse))
  ∧ (∀ (m : Byte) (ch : Fin 16) (w : W32) (s : State), s.mbxSide ch m = none →
      exec (.txData m ch w) s = .next (s.mbxDeny m)
        ∧ exec (.rxWordLo m ch) s = .next (if m = 0 then s.emit (.word 0) else s.emit .errResponse))
  ∧ (∀ (m : Byte) (ch : Fin 16) (w : W32) (ep : Bool) (r : List (W32 × Bool)) (b : Bool) (s : State),
    s.mbxSide ch m = some b → (s.mbxGet ch b).rx = (w, ep) :: r →
      exec (.rxWordLo m ch) s = .next ((s.mbxSet ch b { s.mbxGet ch b with rx := r, hi := (true, ep, r.length) }).emit (.word w)))
  ∧ (∀ (m : Byte) (ch : Fin 16) (b : Bool) (s : State), s.mbxSide ch m = some b → (s.mbxGet ch b).rx = [] →
      exec (.rxWordLo m ch) s = .next ((s.mbxSet ch b { s.mbxGet ch b with hi := (false, false, 0) }).emit (.word 0)))
  ∧ (∀ (m : Byte) (n : Fin 32) (s : State), s.shut m = false → s.mbx.sem[n] = none →
      exec (.semAcquire m n) s = .next (State.emit { s with mbx := { s.mbx with sem := s.mbx.sem.set n (some m) } } (.word 0)))
  ∧ (∀ (m o : Byte) (n : Fin 32) (s : State), s.shut m = false → s.mbx.sem[n] = some o →
      exec (.semAcquire m n) s = .next (s.emit (.word (BitVec.ofNat 32 (o.toNat + 1)))))
  ∧ (∀ (m : Byte) (n : Fin 32) (s : State), s.shut m = false → s.mbx.sem[n] = some m →
      exec (.semRelease m n) s = .next { s with mbx := { s.mbx with sem := s.mbx.sem.set n none } })
  ∧ (∀ (m : Byte) (n : Fin 32) (s : State), s.shut m = false → s.mbx.sem[n] ≠ some m →
      exec (.semRelease m n) s = .next (s.log .mbx evSemBadRelease 0xFFFF n m.toNat))
  ∧ (∀ (p : Pkt) (s : State), accepted 0x0E03 p s = true →
      ∃ sem, exec (.semForceRelease p) s = .next (settled 0x0E03 (s.pktHdr 0x0E03 p) { entered 0x0E03 p s with mbx := { s.mbx with sem := sem } }
        (ok [((List.range 32).filter (fun i => p.t 0 i && (s.mbx.sem.getD i none).isSome)).foldl (fun a i => a + 2 ^ i) 0]))
        ∧ ∀ (i : Nat) (h : i < 32), sem[i] = if p.t 0 i = true then none else s.mbx.sem[i])
  ∧ (∀ (p : Pkt) (t : State) (s : State), accepted 0x0E00 p s = true → (entered 0x0E00 p s).on MBX_CTRL__LOCK = false →
      (entered 0x0E00 p s).bindChannel (p.b 0 0 4) (p.w 1) = some t →
      exec (.mbxBind p) s = .next (settled 0x0E00 (s.pktHdr 0x0E00 p) (t) (ok)))
  ∧ (∀ (p : Pkt) (s : State), accepted 0x0E00 p s = true → (entered 0x0E00 p s).on MBX_CTRL__LOCK = false →
      (entered 0x0E00 p s).bindChannel (p.b 0 0 4) (p.w 1) = none →
      exec (.mbxBind p) s = .next (settled 0x0E00 (s.pktHdr 0x0E00 p) (entered 0x0E00 p s) (badWord 1)))
  ∧ (∀ (p : Pkt) (s : State), accepted 0x0E00 p s = true → (entered 0x0E00 p s).on MBX_CTRL__LOCK = true →
      exec (.mbxBind p) s = .next (settled 0x0E00 (s.pktHdr 0x0E00 p) (entered 0x0E00 p s) (refuse stNotPermitted 0x0002)))
  ∧ (∀ (p : Pkt) (s : State), accepted 0x0E01 p s = true →
      exec (.mbxLock p) s = .next (settled 0x0E01 (s.pktHdr 0x0E01 p) ((entered 0x0E01 p s).raise MBX_CTRL__LOCK) (ok)))
  ∧ (∀ (s : State), s.dev.ready = true →
      exec .mbxCtrlLock s = .next (if s.on MBX_CTRL__LOCK then s.rwlDenied .mbx MBX_CTRL else s.raise MBX_CTRL__LOCK))
  ∧ (∀ (ch : Fin 16) (toB : Bool) (s : State), s.f (MBX_TMO__TMO_US ch) ≠ 0 → (s.mbxGet ch toB).rx ≠ [] →
      exec (.mbxTmo ch toB) s =
        .next (((s.mbxSet ch (!toB) { s.mbxGet ch (!toB) with txTmo := true }).setBit MBX_STAT__TMO ch true).log .mbx evMbxTmo 0xFFFF ch))
  ∧ (∀ (core : Fin 4) (s : State),
      exec (.coreReset core) s = .next (s.masterReset (BitVec.ofNat 8 (0x10 + core)))
      ∧ exec .hvmBridgeRestart s = .next (s.masterReset 0x20))

/-- Accepted, DEV_RESET plans the reset that follows its reply, unless something is planned already, with the vault
clear that word 0 bit 0 asks for, and is answered OK. PACKET_COMPLETE of that packet writes the OK reply and, once no
record of the packet is left, resets the logic with that clear. DEV_SET_PSTATE of PS2 or PS3 whose entry conditions
hold plans the entry likewise and is answered OK, and is answered with the condition that fails otherwise, PS0 and PS1
with BAD_PARAM word 0. PACKET_COMPLETE of a DEV_SET_PSTATE whose conditions still hold, with no other packet started,
writes its OK reply and enters the state. A wake of a sleeping device, by REC_N only where the entry enabled that, and
within ten seconds of a thermal trip not, ends the sleep and clears the trip. On a device that has input power, is
awake and awaits no boot, PERST_N asserted gives a state in which every register outside keptRegs and PWR_STAT reads
its reset value, the working region's bytes, the host's bytes and the bytes of the firmware slots are as before, CMD
is as at reset, and the device is not ready and awaits a warm boot of TYPE 1. On any other device it changes nothing.
On a device that waits for its boot with its reset of that kind behind it (a cold reset for COLD_BOOT, which also has
VIN in range; a warm one for WARM_BOOT, with VIN in range) and that is not asleep, the boot row answers the state that
the boot sequence leaves; with fewer than three failed attempts, a sound copy of the calibration record and no reset
before step 10, that device is ready. -/
def Obligations.ResetsAndBoots : Prop :=
  (∀ (p : Pkt) (s : State), accepted 0x0002 p s = true →
      exec (.devReset p) s = .next (settled 0x0002 (s.pktHdr 0x0002 p) ((entered 0x0002 p s).planAfter (s.pktHdr 0x0002 p) (.reset (p.t 0 0))) (ok)))
  ∧ (∀ (p : Pkt) (s : State), accepted 0x0003 p s = true → 2 ≤ p.b 0 0 2 →
      (entered 0x0003 p s).restCheck (p.b 0 0 2) (p.t 0 5) = none →
      exec (.devSetPstate p) s = .next (settled 0x0003 (s.pktHdr 0x0003 p) ((entered 0x0003 p s).planAfter (s.pktHdr 0x0003 p) (.sleep (p.b 0 0 2) (p.t 0 4) (p.t 0 5))) (ok)))
  ∧ (∀ (p : Pkt) (o : Outc) (s : State), accepted 0x0003 p s = true → 2 ≤ p.b 0 0 2 →
      (entered 0x0003 p s).restCheck (p.b 0 0 2) (p.t 0 5) = some o →
      exec (.devSetPstate p) s = .next (settled 0x0003 (s.pktHdr 0x0003 p) (entered 0x0003 p s) (o)))
  ∧ (∀ (p : Pkt) (s : State), accepted 0x0003 p s = true → p.b 0 0 2 < 2 →
      exec (.devSetPstate p) s = .next (settled 0x0003 (s.pktHdr 0x0003 p) (entered 0x0003 p s) (badWord 0)))
  ∧ (∀ (ring : Fin 4) (seq : W32) (r : Reply) (clear : Bool) (u s : State),
      s.cmd.done.find? (fun r => r.hdr.ring == ring.val && r.hdr.seq == seq && !s.isLate r.hdr) = some r →
    r.hdr.opcode = 0x0002 → r.out.status = stOk → s.dev.after = some ⟨r.hdr, .reset clear⟩ →
      u = (State.complete { s with cmd := { s.cmd with done := s.cmd.done.erase r } } r.hdr r.out).coresRestart →
    u.started? r.hdr = none → u.dev.after = some ⟨r.hdr, .reset clear⟩ →
      exec (.packetComplete ring seq) s = .next (u.warmReset clear (if clear then 3 else 2)))
  ∧ (∀ (ring : Fin 4) (seq : W32) (r : Reply) (ps : Nat) (wakeRec discard : Bool) (u s : State),
      s.cmd.done.find? (fun r => r.hdr.ring == ring.val && r.hdr.seq == seq && !s.isLate r.hdr) = some r →
    r.hdr.opcode = 0x0003 → r.out.status = stOk → s.dev.after = some ⟨r.hdr, .sleep ps wakeRec discard⟩ →
    s.cmd.started.any (fun e => !e.is r.hdr) = false → s.restCheck ps discard = none →
      u = (State.complete { s with cmd := { s.cmd with done := s.cmd.done.erase r } } r.hdr r.out).coresRestart →
    u.started? r.hdr = none → u.dev.after = some ⟨r.hdr, .sleep ps wakeRec discard⟩ →
      exec (.packetComplete ring seq) s = .next (u.enterSleep ps wakeRec 1))
  ∧ (∀ (recPin early : Bool) (s : State), s.pwr.sleep ≠ 0 → (recPin = true → s.pwr.wakeRec = true) →
      (early = true → s.pwr.trip = false) →
      exec (.wake recPin early) s = .next (s.modPwr (fun p => { p with sleep := 0, trip := false })))
  ∧ (∀ (s : State), s.dev.vin = 0 → s.pwr.sleep = 0 → s.dev.awaits = false →
      ∃ t, exec .perstNAssert s = .next t ∧ (∀ a, a ∉ keptRegs → a ≠ PWR_STAT → t.rd a = regReset s.dev.variant a) ∧ t.mem = s.mem
        ∧ t.host = s.host ∧ t.flash.staged = s.flash.staged ∧ t.cmd = {} ∧ t.dev.ready = false ∧ t.dev.awaits = true ∧ t.dev.bootType = 1)
  ∧ (∀ (s : State), s.dev.vin ≠ 0 ∨ s.pwr.sleep ≠ 0 ∨ s.dev.awaits = true → exec .perstNAssert s = .next s)
  ∧ (∀ (r : BootRep) (s : State), s.dev.awaits = true → s.dev.vin ≠ 2 → s.pwr.sleep = 0 →
    s.dev.bootType = 0 ∨ s.dev.bootType = 5 → r.fails.length < 3 → (calRecord r).isSome = true → 10 ≤ r.upTo →
      ∃ t, exec (.coldBoot r) s = .next t ∧ t = (s.modDev (fun d => { d with vin := 0 })).boot r ∧ t.dev.ready = true)
  ∧ (∀ (r : BootRep) (s : State), s.dev.awaits = true → s.dev.vin = 0 → s.pwr.sleep = 0 → s.dev.bootType ≠ 0 →
    s.dev.bootType ≠ 5 → r.fails.length < 3 → (calRecord r).isSome = true → 10 ≤ r.upTo →
      ∃ t, exec (.warmBoot r) s = .next t ∧ t = s.boot r ∧ t.dev.ready = true)

/-- Accepted with a valid, readable buffer of whole pages, at most 4 MiB at an offset of whole pages that leaves it
within 16 MiB, and no activation running, FW_STAGE queues a staging job of those bytes and asks for admission (R394):
admitted at once, the job is done (State.stageDo); else the packet waits for admission; a buffer in the working region
leaves the vault's power states. FW_VERIFY marks the slot that does not run verified and answers its version, or marks
it not verified and answers BAD_PARAM 0x8003; whether a package is good is a free value (log 41). While none runs,
FW_ACTIVATE of a verified slot sets the VQ barrier, records the activation and restarts the cores once no other
firmware-path packet is left; of a slot not verified it is refused STATE 0x8005 and changes nothing. While an
activation has stopped the firmware, FW_RUN_STATE ends it: the other slot runs with its version, firmware runs, the
barrier lifts, the table is published and the packet ends OK with the version. FW_ACTIVATE_TIMEOUT of an activation
restarts the old image, resetting the cores where they had been stopped, lifts the barrier and ends the packet
HW_FAULT 0x8004. Accepted while no decoder is committed (State.hdmCommitted), no context captures (State.partOk 1), no
take is used and no pin is RETAIN, a VLT_SET_LAYOUT of a working region of 8 to 64 GiB with at most 16 embedded lines
a context whose end is at or below the usable end becomes the layout, the vault is cleared, the fingerprint moves on,
the table is published and the reply gives the sectors left over; a layout that ends above is refused with NO_RESOURCE
0x8002 and changes nothing. -/
def Obligations.FirmwareAndLayout : Prop :=
  (∀ (p : Pkt) (bs : List Byte) (u : State) (s : State), accepted 0x0008 p s = true →
    (entered 0x0008 p s).refOk (p.ref 4) = true → (entered 0x0008 p s).flash.activating = none → p.w 0 % 4096 = 0 →
    (p.ref 4).len % 4096 = 0 → (p.ref 4).len ≤ 0x400000 → p.w 0 + (p.ref 4).len ≤ 0x1000000 →
      (entered 0x0008 p s).readRef (p.ref 4) p.buf = some bs →
      u = ((entered 0x0008 p s).modFlash (fun f => { f with jobs := f.jobs ++ [⟨s.pktHdr 0x0008 p, p.w 0, bs⟩] })).arrive (.stage (s.pktHdr 0x0008 p)) →
      exec (.fwStage p) s = .next ((if u.isAdmitted (.stage (s.pktHdr 0x0008 p)) then u.stageDo (s.pktHdr 0x0008 p) else u.restart (s.pktHdr 0x0008 p) (fun e => { e with waitB := true })).refUse (p.ref 4)))
  ∧ (∀ (p : Pkt) (s : State), accepted 0x0009 p s = true →
      exec (.fwVerify p) s = .next (match (entered 0x0009 p s).inactive with
        | some v => settled 0x0009 (s.pktHdr 0x0009 p) ((entered 0x0009 p s).modFlash (fun f => { f with verified := true })) (ok [v.toNat])
        | none => settled 0x0009 (s.pktHdr 0x0009 p) ((entered 0x0009 p s).modFlash (fun f => { f with verified := false })) (refuse stBadParam 0x8003)))
  ∧ (∀ (p : Pkt) (s : State), accepted 0x0010 p s = true → (entered 0x0010 p s).flash.activating = none →
      (entered 0x0010 p s).flash.verified = true →
      exec (.fwActivate p) s = .next (((entered 0x0010 p s).vqBarrier.modFlash (fun f => { f with activating := some (s.pktHdr 0x0010 p) })).coresRestart))
  ∧ (∀ (p : Pkt) (s : State), accepted 0x0010 p s = true → (entered 0x0010 p s).flash.activating = none →
      (entered 0x0010 p s).flash.verified = false →
      exec (.fwActivate p) s = .next (settled 0x0010 (s.pktHdr 0x0010 p) (entered 0x0010 p s) (refuse stState 0x8005)))
  ∧ (∀ (h : Hdr) (s : State), s.flash.activating = some h → s.dev.fwRun = false →
      let u := s.modFlash (fun f => { f with
        slot := 1 - f.slot, sel := 1 - f.slot, version := s.inactive, verified := false, activating := none })
      let u := (u.setF EVT_BOOT_STAT__SLOT (1 - s.flash.slot)).modDev (fun d => { d with fwRun := true })
      exec .fwRunState s = .next (u.vqLift.publish.finishF h (ok [(s.inactive.getD 0).toNat])))
  ∧ (∀ (h : Hdr) (s : State), s.flash.activating = some h →
      let u := (if s.dev.fwRun then s else s.coresReset.modDev (fun d => { d with fwRun := true })).modFlash (fun f => { f with activating := none })
      exec .fwActivateTimeout s = .next (u.vqLift.finishF h (refuse stHwFault 0x8004)))
  ∧ (∀ (p : Pkt) (e : Nat) (u : State) (s : State), accepted 0x0500 p s = true →
    (entered 0x0500 p s).hdmCommitted = false → (entered 0x0500 p s).partOk 1 = true →
      (entered 0x0500 p s).takesUsed.isEmpty = true →
    (entered 0x0500 p s).vlt.pins.toList.any (fun q => q.any (fun x => x.retain)) = false → 8 ≤ p.b 0 0 7 →
      p.b 0 0 7 ≤ 64 →
      (List.range 6).find? (fun c => decide (16 < ((List.range 6).map (fun c => p.b (1 + c) 16 5)).getD c 0)) = none →
      e = layoutEnd (p.b 0 0 7 * 0x40000 + 0x8000) ((List.range 6).map (fun c => p.b (1 + c) 0 16)) →
      e ≤ (entered 0x0500 p s).vlt.usable →
      u = ((entered 0x0500 p s).setF VLT_LAYOUT__W_GIB (p.b 0 0 7)).modVlt (fun q => { q with units := (List.range 6).map (fun c => p.b (1 + c) 0 16), emb := (List.range 6).map (fun c => p.b (1 + c) 16 5) }) →
      exec (.vltSetLayout p) s = .next (settled 0x0500 (s.pktHdr 0x0500 p) ((u.clearVault.commitSince (entered 0x0500 p s)).publish) (ok [(entered 0x0500 p s).vlt.usable - e])))
  ∧ (∀ (p : Pkt) (s : State), accepted 0x0500 p s = true → (entered 0x0500 p s).hdmCommitted = false →
    (entered 0x0500 p s).partOk 1 = true → (entered 0x0500 p s).takesUsed.isEmpty = true →
    (entered 0x0500 p s).vlt.pins.toList.any (fun q => q.any (fun x => x.retain)) = false → 8 ≤ p.b 0 0 7 →
      p.b 0 0 7 ≤ 64 →
      (List.range 6).find? (fun c => decide (16 < ((List.range 6).map (fun c => p.b (1 + c) 16 5)).getD c 0)) = none →
      (entered 0x0500 p s).vlt.usable < layoutEnd (p.b 0 0 7 * 0x40000 + 0x8000) ((List.range 6).map (fun c => p.b (1 + c) 0 16)) →
      exec (.vltSetLayout p) s = .next (settled 0x0500 (s.pktHdr 0x0500 p) (entered 0x0500 p s) (refuse stNoResource 0x8002)))

/-- Accepted for a port that is not enabled, with a lane count and rate in range, LNK_CONFIG_PORT writes LNK_Pp_CFG
with EN 0, the frame timeout and the rate of the port's quads, drops LOCKED where a lane of the new configuration is
not aligned, powers the lanes that no port uses down, and COMMIT_SEQ follows a change of the fingerprint. A map in
range that moves no quad of a running port becomes the map by LNK_MAP_QUADS, bit 31 clearing QMAP_ERR. LNK_START of a
port not enabled, with no lane under test, a profile, and quads that share a rate, enables the port out of RESYNC,
drops the words received before, queues the start sequence on the control channel and is answered with the skew at
once when the port is LOCKED, else it waits. LNK_STATUS answers its ten words and changes nothing. LNK_CONFIG_PORT of
an enabled port, and LNK_START of a port enabled or with a lane under test, are refused STATE 0x8002 and change
nothing (for LNK_START on an enabled port the model's choice, log 94). Accepted, LNK_STOP empties the settings queue
and queues the stop sequence of the profile, where one is loaded, on the control channel; a port not enabled is then
answered OK. On an enabled port bit 0 ends the frame in progress as TRUNCATED; the port is disabled and answered at
once when no frame is in progress, else the stop waits for that frame. LNK_LOCK_TIMEOUT answers a waiting LNK_START
with STATE 0x8004. LNK_STOP_WAIT_EXPIRY of a waiting stop ends the frame as TRUNCATED and the stop with it.
CDR_LOCK_LOSS clears CDR_LOCK, forgets the lane's bits and is the lane's loss of lock (State.laneLost). -/
def Obligations.LinkPorts : Prop :=
  (∀ (p : Pkt) (v : State) (s : State), accepted 0x0100 p s = true →
    (entered 0x0100 p s).on (LNK_P_CFG__EN p.idx) = false → p.b 0 8 4 ≤ 7 → lanesOk (p.b 0 1 5) = true → 20 ≤ p.w 2 →
      p.w 2 ≤ 128 →
      v = ((entered 0x0100 p s).wn (LNK_P_CFG p.idx) (p.w 0 / 2 * 2)).setF (LNK_P_FRAME_TMO__TMO_US p.idx) (p.w 1) →
      exec (.lnkConfigPort p) s = .next (settled 0x0100 (s.pktHdr 0x0100 p) ((((v.portQuads p.idx).foldl (fun s q => s.setF (LNK_QCFG__RATE q) (p.w 2)) v).lockCheck p.idx).powerLanes.commitSince (entered 0x0100 p s)) (ok)))
  ∧ (∀ (p : Pkt) (s : State), accepted 0x0100 p s = true → (entered 0x0100 p s).on (LNK_P_CFG__EN p.idx) = true →
      exec (.lnkConfigPort p) s = .next (settled 0x0100 (s.pktHdr 0x0100 p) (entered 0x0100 p s) (refuse stState 0x8002)))
  ∧ (∀ (p : Pkt) (s : State), accepted 0x0101 p s = true → qmapOk (p.b 0 0 18) = true →
      (qmapMoved ((entered 0x0101 p s).f LNK_QMAP__QMAP) (p.b 0 0 18)).any (fun q => (entered 0x0101 p s).on (LNK_P_CFG__EN q)) = false →
      exec (.lnkMapQuads p) s = .next (settled 0x0101 (s.pktHdr 0x0101 p) ((if p.t 0 31 then (entered 0x0101 p s).setF LNK_QMAP__QMAP_ERR 0 else (entered 0x0101 p s)).setQmap (p.b 0 0 18)) (ok)))
  ∧ (∀ (p : Pkt) (f : Profile) (u : State) (s : State), accepted 0x0102 p s = true →
    (entered 0x0102 p s).on (LNK_P_CFG__EN p.idx) = false → (entered 0x0102 p s).linkTested p.idx = false →
      ((entered 0x0102 p s).pt p.idx).profile = some f →
      (((entered 0x0102 p s).portQuads p.idx).map (fun q => (entered 0x0102 p s).f (LNK_QCFG__RATE q))).any (fun r => r != (((entered 0x0102 p s).portQuads p.idx).map (fun q => (entered 0x0102 p s).f (LNK_QCFG__RATE q))).getD 0 r) = false →
      u = (((((entered 0x0102 p s).setB (LNK_P_CFG__EN p.idx) true).setB (LNK_P_STAT__RESYNC p.idx) false).modPt p.idx (fun q => { q with lastFn := none, relock := false })).dropWords p.idx).queueSeq p.idx f f.startSeq →
      u.on (LNK_P_STAT__LOCKED p.idx) = true →
      exec (.lnkStart p) s = .next (settled 0x0102 (s.pktHdr 0x0102 p) (u) (ok [u.f (LNK_P_SKEW__SKEW_UI p.idx)])))
  ∧ (∀ (p : Pkt) (f : Profile) (u : State) (s : State), accepted 0x0102 p s = true →
    (entered 0x0102 p s).on (LNK_P_CFG__EN p.idx) = false → (entered 0x0102 p s).linkTested p.idx = false →
      ((entered 0x0102 p s).pt p.idx).profile = some f →
      (((entered 0x0102 p s).portQuads p.idx).map (fun q => (entered 0x0102 p s).f (LNK_QCFG__RATE q))).any (fun r => r != (((entered 0x0102 p s).portQuads p.idx).map (fun q => (entered 0x0102 p s).f (LNK_QCFG__RATE q))).getD 0 r) = false →
      u = (((((entered 0x0102 p s).setB (LNK_P_CFG__EN p.idx) true).setB (LNK_P_STAT__RESYNC p.idx) false).modPt p.idx (fun q => { q with lastFn := none, relock := false })).dropWords p.idx).queueSeq p.idx f f.startSeq →
      u.on (LNK_P_STAT__LOCKED p.idx) = false →
      exec (.lnkStart p) s = .next (u.modPt p.idx (fun q => { q with startWait := some (s.pktHdr 0x0102 p) })))
  ∧ (∀ (p : Pkt) (s : State), accepted 0x0102 p s = true →
      (entered 0x0102 p s).on (LNK_P_CFG__EN p.idx) = true ∨ (entered 0x0102 p s).linkTested p.idx = true →
      exec (.lnkStart p) s = .next (settled 0x0102 (s.pktHdr 0x0102 p) (entered 0x0102 p s) (refuse stState 0x8002)))
  ∧ (∀ (p : Pkt) (s : State), accepted 0x0108 p s = true →
      exec (.lnkStatus p) s = .next (settled 0x0108 (s.pktHdr 0x0108 p) s (ok [s.lnkStat p.idx, s.rn (LNK_P_ERR p.idx), s.rn (LNK_P_SKEW p.idx), s.rn (LNK_P_RESYNC_CNT p.idx), s.rn (LNK_P_FRAME_CNT p.idx),
      s.rn (LNK_P_SNS_FN p.idx), s.lnkSetq p.idx, s.rn (LNK_P_LAST_TAG p.idx), s.rn (LNK_P_LAST_FID p.idx), s.rn (LNK_P_DMG_CNT p.idx)])))
  ∧ (∀ (p : Pkt) (u : State) (s : State), accepted 0x0103 p s = true →
      (u = match (((entered 0x0103 p s).modPt p.idx (fun q => { q with queue := [], setDue := false })).pt p.idx).profile with
        | some f => ((entered 0x0103 p s).modPt p.idx (fun q => { q with queue := [], setDue := false })).queueSeq p.idx f f.stopSeq
        | none => ((entered 0x0103 p s).modPt p.idx (fun q => { q with queue := [], setDue := false }))) →
    u.on (LNK_P_CFG__EN p.idx) = false → exec (.lnkStop p) s = .next (settled 0x0103 (s.pktHdr 0x0103 p) (u) (ok)))
  ∧ (∀ (p : Pkt) (u v : State) (s : State), accepted 0x0103 p s = true →
      (u = match (((entered 0x0103 p s).modPt p.idx (fun q => { q with queue := [], setDue := false })).pt p.idx).profile with
        | some f => ((entered 0x0103 p s).modPt p.idx (fun q => { q with queue := [], setDue := false })).queueSeq p.idx f f.stopSeq
        | none => ((entered 0x0103 p s).modPt p.idx (fun q => { q with queue := [], setDue := false }))) →
    u.on (LNK_P_CFG__EN p.idx) = true → (v = if p.t 0 0 then u.truncateFrame p.idx 3 else u) →
      (v.rw_ p.idx).frame = none →
      exec (.lnkStop p) s = .next (settled 0x0103 (s.pktHdr 0x0103 p) ((v.setB (LNK_P_CFG__EN p.idx) false).channelNext p.idx) (ok)))
  ∧ (∀ (p : Pkt) (u v : State) (s : State), accepted 0x0103 p s = true →
      (u = match (((entered 0x0103 p s).modPt p.idx (fun q => { q with queue := [], setDue := false })).pt p.idx).profile with
        | some f => ((entered 0x0103 p s).modPt p.idx (fun q => { q with queue := [], setDue := false })).queueSeq p.idx f f.stopSeq
        | none => ((entered 0x0103 p s).modPt p.idx (fun q => { q with queue := [], setDue := false }))) →
    u.on (LNK_P_CFG__EN p.idx) = true → (v = if p.t 0 0 then u.truncateFrame p.idx 3 else u) →
      (v.rw_ p.idx).frame.isSome = true →
      exec (.lnkStop p) s = .next (v.modPt p.idx (fun q => { q with stopWait := some (s.pktHdr 0x0103 p) })))
  ∧ (∀ (port : Fin 4) (h : Hdr) (s : State), (s.pt port).startWait = some h →
      exec (.lnkLockTimeout port) s = .next ((s.modPt port (fun q => { q with startWait := none })).finishF h (refuse stState 0x8004)))
  ∧ (∀ (port : Fin 4) (s : State), (s.pt port).stopWait.isSome = true →
      exec (.lnkStopWaitExpiry port) s = .next ((s.truncateFrame port 3).lnkStopped port))
  ∧ (∀ (lane : Fin 24) (s : State),
      exec (.cdrLockLoss lane) s = .next (((s.setB (LNK_L_STAT__CDR_LOCK lane) false).modLn lane (fun q => { q with line := [] })).laneLost lane))

/-- Accepted for a port that is not enabled, with a valid, readable buffer that holds a well-formed profile,
SNS_LOAD_PROFILE stores the profile and sets the control channel's registers, the settings window and line and K from
it; COMMIT_SEQ follows a change of the fingerprint; a malformed profile is refused BAD_PARAM 0x8005 and changes
nothing. SNS_QUEUE_SETTINGS of a set with a tag, on a port with a profile, whose transfer time fits the window appends
it while fewer than eight sets wait and answers their number. SNS_CTRL_XFER of at most 4,096 bytes each way that fit
its valid buffers, on a port not enabled, or with no frame period measured, or whose frame leaves time for it outside
the window, appends the transfer to the channel's, which starts it where it may start at once (State.channelNext), and
waits for its end. A buffer in the working region leaves the vault's power states. SNS_XFER_START starts the transfer
at the head of the channel's list when the channel is free and the port is stopped, the transfer is a sequence or it
can end before the next SET_LINE; else it changes nothing. SNS_XFER_DONE of the running transfer takes it off the
list; of a control transfer its bytes go out, the bytes read are written to the packet's read buffer and the packet
ends OK with the count; a NACK sets the NACK error, ends the bytes there and ends the packet HW_FAULT 0x8007 with the
byte index; a sequence sends its bytes, up to a NACK; the next on the channel follows. SETTINGS_WRITE_DONE ends the
write in progress: the set's bytes go out and its tag takes effect, or NACK is set. SET_WINDOW_EXPIRY with a write due
or in progress sets SET_LATE and drops the due write or marks the one in progress late. -/
def Obligations.SensorChannel : Prop :=
  (∀ (p : Pkt) (bs : List Byte) (f : Profile) (u v : State) (s : State), accepted 0x0104 p s = true →
    (entered 0x0104 p s).refOk (p.ref 0) = true → (entered 0x0104 p s).on (LNK_P_CFG__EN p.idx) = false →
    (entered 0x0104 p s).readRef (p.ref 0) p.buf = some bs → parseProfile bs = some f →
      u = ((((entered 0x0104 p s).modPt p.idx (fun q => { q with profile := some f })).setF (LNK_P_SCC__STRETCH_MAX p.idx) (ceilDiv (fieldAt bs 40 2) 10)).setF (LNK_P_SCC__DIV p.idx) (fieldAt bs 38 2)).setB (LNK_P_SCC__SPI p.idx) (bitAt (fieldAt bs 30 1) 1) →
      v = ((u.setB (LNK_P_SCC__SPI_MODE3 p.idx) (bitAt (fieldAt bs 30 1) 2)).setF (LNK_P_SET_CFG__SET_WINDOW_US p.idx) (fieldAt bs 34 2)).setF (LNK_P_SET_CFG__SET_LINE p.idx) (fieldAt bs 32 2) →
      exec (.snsLoadProfile p) s = .next (settled 0x0104 (s.pktHdr 0x0104 p) (((v.setF (LNK_P_SETQ__K p.idx) f.k).commitSince (entered 0x0104 p s)).refUse (p.ref 0)) (ok)))
  ∧ (∀ (p : Pkt) (bs : List Byte) (s : State), accepted 0x0104 p s = true →
    (entered 0x0104 p s).refOk (p.ref 0) = true → (entered 0x0104 p s).on (LNK_P_CFG__EN p.idx) = false →
    (entered 0x0104 p s).readRef (p.ref 0) p.buf = some bs → parseProfile bs = none →
      exec (.snsLoadProfile p) s = .next (settled 0x0104 (s.pktHdr 0x0104 p) (entered 0x0104 p s) (refuse stBadParam 0x8005)))
  ∧ (∀ (p : Pkt) (f : Profile) (s : State), accepted 0x0106 p s = true → p.w 0 ≠ 0 →
      ((entered 0x0106 p s).pt p.idx).profile = some f →
      (entered 0x0106 p s).setTime p.idx f ((List.range (p.b 1 0 8)).map (fun i => p.w (4 + i))) ≤ 3000 * (entered 0x0106 p s).f (LNK_P_SET_CFG__SET_WINDOW_US p.idx) →
      ((entered 0x0106 p s).pt p.idx).queue.length < 8 →
      exec (.snsQueueSettings p) s = .next (settled 0x0106 (s.pktHdr 0x0106 p) ((entered 0x0106 p s).modPt p.idx (fun q => { q with queue := q.queue ++ [⟨p.w 0, (List.range (p.b 1 0 8)).map (fun i => p.w (4 + i))⟩] })) (ok [((entered 0x0106 p s).pt p.idx).queue.length + 1])))
  ∧ (∀ (p : Pkt) (n m : Nat) (bs : List Byte) (u : State) (s : State), accepted 0x0105 p s = true → n = p.b 1 0 16 →
    m = p.b 1 16 16 → n ≤ 4096 → m ≤ 4096 → n ≤ (p.ref 4).len → m ≤ (p.ref 8).len →
    (entered 0x0105 p s).refOk (p.ref 4) = true → (entered 0x0105 p s).refOk (p.ref 8) = true →
      ((entered 0x0105 p s).on (LNK_P_CFG__EN p.idx) = true → ((entered 0x0105 p s).pt p.idx).frameNs ≠ 0 → (entered 0x0105 p s).bitTime p.idx ((entered 0x0105 p s).xferBits p.idx ((entered 0x0105 p s).wireBytes p.idx n m)) ≤ 3 * (((entered 0x0105 p s).pt p.idx).frameNs - 1000 * (entered 0x0105 p s).f (LNK_P_SET_CFG__SET_WINDOW_US p.idx))) →
      ((if n = 0 then some [] else (entered 0x0105 p s).readRef (p.ref 4) p.buf) = some bs) →
      u = (entered 0x0105 p s).modPt p.idx (fun q => { q with xfer := q.xfer ++ [{ hdr := some (s.pktHdr 0x0105 p), addr := p.b 0 0 7, noStop := p.t 0 8, write := bs.take n, readLen := m, readRef := ((p.ref 8).addr, (p.ref 8).len, (p.ref 8).space), running := false }] }) →
      exec (.snsCtrlXfer p) s = .next (((u.channelNext p.idx).refUse (p.ref 8)).refUse (p.ref 4)))
  ∧ (∀ (port : Fin 4) (x : Xfer) (r : List Xfer) (s : State), (s.pt port).xfer = x :: r →
      exec (.snsXferStart port) s = .next
        (if s.channelFree port ∧ (s.on (LNK_P_CFG__EN port) = false ∨ x.hdr.isNone ∨ s.xferFits port x = true) then s.startXfer port else s))
  ∧ (∀ (port : Fin 4) (s : State), (s.pt port).xfer = [] → exec (.snsXferStart port) s = .next s)
  ∧ (∀ (port : Fin 4) (bs : List Byte) (x : Xfer) (h : Hdr) (r : List Xfer) (s : State), (s.pt port).xfer = x :: r →
    x.running = true → x.hdr = some h →
      let u := (s.modPt port (fun q => { q with xfer := r })).sendXfer port x none
      let v := u.writeRef ⟨x.readRef.1, x.readRef.2.1, x.readRef.2.2⟩ (padBytes x.readLen bs)
      exec (.snsXferDone port (.done bs)) s = .next ((v.finishF h (ok [x.write.length + x.readLen])).channelNext port))
  ∧ (∀ (port : Fin 4) (i : Nat) (x : Xfer) (h : Hdr) (r : List Xfer) (s : State), (s.pt port).xfer = x :: r →
    x.running = true → x.hdr = some h →
      let u := ((s.modPt port (fun q => { q with xfer := r })).raise (LNK_P_ERR__NACK port)).sendXfer port x (some i)
      exec (.snsXferDone port (.nack i)) s = .next ((u.finishF h (refuse stHwFault 0x8007 [i, i])).channelNext port))
  ∧ (∀ (port : Fin 4) (bs : List Byte) (i : Nat) (x : Xfer) (r : List Xfer) (s : State), (s.pt port).xfer = x :: r →
    x.running = true → x.hdr = none →
      let u := s.modPt port (fun q => { q with xfer := r })
      exec (.snsXferDone port (.done bs)) s = .next ((u.sendSeq port x.seq none).channelNext port)
      ∧ exec (.snsXferDone port (.nack i)) s = .next (((u.raise (LNK_P_ERR__NACK port)).sendSeq port x.seq (some i)).channelNext port))
  ∧ (∀ (port : Fin 4) (e : XferEnd) (w : SetWrite) (f : Profile) (s : State), (s.pt port).writing = some w →
      (s.pt port).profile = some f →
      let u := s.modPt port (fun q => { q with writing := none })
      let v := u.sendSeq port (u.seqBytes port f (f.holdBegin ++ w.set.entries ++ f.holdEnd)) (xferStop e)
      exec (.settingsWriteDone port e) s = .next ((if (xferStop e).isSome then v.raise (LNK_P_ERR__NACK port) else v.setTag port w).channelNext port))
  ∧ (∀ (port : Fin 4) (s : State), (s.pt port).setDue = true →
      exec (.setWindowExpiry port) s = .next ((s.raise (LNK_P_ERR__SET_LATE port)).modPt port (fun q => { q with setDue := false })))
  ∧ (∀ (port : Fin 4) (w : SetWrite) (s : State), (s.pt port).setDue = false → (s.pt port).writing = some w →
      exec (.setWindowExpiry port) s =
        .next ((s.raise (LNK_P_ERR__SET_LATE port)).modPt port (fun q => { q with writing := some { w with late := true } })))

/-- COMMA on a lane with a pattern MODE sets CDR_LOCK and hands the bits to the lane's checker; on a lane with neither
pattern nor port it changes nothing. On a lane of a port it sets CDR_LOCK and adds the bits to the lane's; where they
hold a comma (findComma) the quad's EQ is set, the bits after it are kept, and the interval before it is taken: one
whose words all stand with at most 184 bits of fill adds to the lane's good run, any other to its broken run; with two
good in a row the lane is ALIGNED, with two broken in a row an aligned lane is lost; when every lane of the port has
its comma the port's interval follows. LINK_WORD takes the oldest interval that waits: on a port not enabled, not
LOCKED or in the safe state its words are dropped; a link word whose CRC fails is the LW_CRC fault; outside
resynchronisation the interval's other words follow those received; in it a valid word that names a header begins them
there and ends it, and any other changes nothing more. HCRC_FAIL of a front header whose HCRC fails is the HCRC fault,
counted, the words are dropped and the port is in RESYNC. Accepted for lanes of no enabled port, with a rate in range
where a free quad is named, LNK_PATTERN sets the rate of the free quads and the pattern of the lanes, and COMMIT_SEQ
follows a change of the fingerprint; for a lane of an enabled port it is refused STATE 0x800A and changes nothing.
PAT_SYNC_CHANGE on a lane with CHK, a pattern MODE and no NEAR_LOOP hands the bits to its checker, bit by bit
(PatRun.take), which gives PAT_SYNC and what is added to BITS and ERRS; on any other lane it changes nothing.
INJECT_SINGLE and INJECT_BURST have the next 1 and LEN + 1 generated bits inverted when the lane has none left to
invert, and change nothing else or otherwise. TRG_ASSERT with a trigger due takes it; in MODE 1 it notes the time and
drives the pin. TRG_DEASSERT ends a driven pulse. With none due, or none driven, they change nothing. -/
def Obligations.LinkLanes : Prop :=
  (∀ (lane : Fin 24) (at_ : Nat) (bits : List Bool) (s : State), s.f (LNK_L_PAT__MODE lane) ≠ 0 →
      exec (.comma lane at_ bits) s = .next ((s.setB (LNK_L_STAT__CDR_LOCK lane) true).sensorBits lane bits))
  ∧ (∀ (lane : Fin 24) (at_ : Nat) (bits : List Bool) (s : State), s.f (LNK_L_PAT__MODE lane) = 0 →
    s.laneOwner lane = none → exec (.comma lane at_ bits) s = .next s)
  ∧ (∀ (lane : Fin 24) (at_ p : Nat) (bits : List Bool) (s : State), s.f (LNK_L_PAT__MODE lane) = 0 →
    s.laneOwner lane = some p → findComma 0 [] ((s.ln lane).line ++ bits) = none →
      exec (.comma lane at_ bits) s =
        .next ((s.setB (LNK_L_STAT__CDR_LOCK lane) true).modLn lane (fun q => { q with line := q.line ++ bits })))
  ∧ (∀ (lane : Fin 24) (at_ : Nat) (bits before after : List Bool) (p : Nat) (w : List W32 × Option Nat) (x : List W32 × State) (u v s : State),
    s.f (LNK_L_PAT__MODE lane) = 0 → s.laneOwner lane = some p →
      findComma 0 [] ((s.ln lane).line ++ bits) = some (before, after) →
      u = ((s.setB (LNK_L_STAT__CDR_LOCK lane) true).setF (LNK_QCFG__EQ (lane / 4)) ((s.setB (LNK_L_STAT__CDR_LOCK lane) true).eqPreset (lane / 4))).modLn lane (fun q => { q with line := after }) →
      w = intervalWords (16 * (u.f (LNK_P_CFG__CW p) + 1)) before →
    x = u.wholeWords (16 * (u.f (LNK_P_CFG__CW p) + 1)) w.1 → w.2.any (fun fill => decide (fill ≤ 184)) = true →
      v = x.2.modLn lane (fun q => { q with at_ := some at_, words := x.1, good := q.good + 1, bad := 0 }) →
      let y := if 2 ≤ (v.ln lane).good then v.setB (LNK_L_STAT__ALIGNED lane) true else v
      exec (.comma lane at_ bits) s = .next (if (y.portLanes p).all (fun l => (y.ln l).at_.isSome) then y.portInterval p else y))
  ∧ (∀ (lane : Fin 24) (at_ : Nat) (bits before after : List Bool) (p : Nat) (w : List W32 × Option Nat) (x : List W32 × State) (u v s : State),
    s.f (LNK_L_PAT__MODE lane) = 0 → s.laneOwner lane = some p →
      findComma 0 [] ((s.ln lane).line ++ bits) = some (before, after) →
      u = ((s.setB (LNK_L_STAT__CDR_LOCK lane) true).setF (LNK_QCFG__EQ (lane / 4)) ((s.setB (LNK_L_STAT__CDR_LOCK lane) true).eqPreset (lane / 4))).modLn lane (fun q => { q with line := after }) →
      w = intervalWords (16 * (u.f (LNK_P_CFG__CW p) + 1)) before →
    x = u.wholeWords (16 * (u.f (LNK_P_CFG__CW p) + 1)) w.1 → w.2.any (fun fill => decide (fill ≤ 184)) = false →
      v = x.2.modLn lane (fun q => { q with at_ := some at_, words := x.1, good := 0, bad := q.bad + 1 }) →
      let y := if 2 ≤ (v.ln lane).bad ∧ v.on (LNK_L_STAT__ALIGNED lane) = true then v.laneLost lane else v
      exec (.comma lane at_ bits) s = .next (if (y.portLanes p).all (fun l => (y.ln l).at_.isSome) then y.portInterval p else y))
  ∧ (∀ (port : Fin 4) (w : W32) (rest : List W32) (more : List (List W32)) (u s : State),
    (s.pt port).waiting = (w :: rest) :: more → u = s.modPt port (fun q => { q with waiting := more }) →
      (u.on (LNK_P_CFG__EN port) && u.on (LNK_P_STAT__LOCKED port) && !u.dev.safe) = false →
      exec (.linkWord port) s = .next (u.dropWords port))
  ∧ (∀ (port : Fin 4) (w : W32) (rest : List W32) (more : List (List W32)) (u v s : State),
    (s.pt port).waiting = (w :: rest) :: more → u = s.modPt port (fun q => { q with waiting := more }) →
      (u.on (LNK_P_CFG__EN port) && u.on (LNK_P_STAT__LOCKED port) && !u.dev.safe) = true →
      (v = if wordOk w then u else u.lnkFault port lfLwCrc loLwCrc) →
      exec (.linkWord port) s = .next
        (if (v.pt port).inSync then v.modPt port (fun q => { q with stream := q.stream ++ rest })
        else if wordOk w = false ∨ w.toNat / 0x10000 = 0xFFFF then v
        else (v.setB (LNK_P_STAT__RESYNC port) false).modPt port (fun q => { q with stream := rest.drop (w.toNat / 0x10000), inSync := true })))
  ∧ (∀ (port : Fin 4) (w : W32) (r : List W32) (s : State), (s.pt port).stream = w :: r → s.portOn port = true →
      wordOk w = false →
      exec (.hcrcFail port) s = .next ((((s.lnkFault port lfHcrc loHcrc).bumpStat (LNK_P_HCRC_CNT port)).setB (LNK_P_STAT__RESYNC port) true).dropWords port))
  ∧ (∀ (p : Pkt) (quads : List Nat) (s : State), accepted 0x0107 p s = true →
      ((List.range 24).filter (fun l => p.t 0 l)).any (fun l => ((entered 0x0107 p s).laneOwner l).any (fun o => (entered 0x0107 p s).on (LNK_P_CFG__EN o))) = false →
      quads = (List.range 6).filter (fun q => ((List.range 24).filter (fun l => p.t 0 l)).any (fun l => l / 4 == q) && qmapOf ((entered 0x0107 p s).f LNK_QMAP__QMAP) q == 7) →
    20 ≤ p.w 2 → p.w 2 ≤ 128 →
      exec (.lnkPattern p) s = .next (settled 0x0107 (s.pktHdr 0x0107 p) ((((List.range 24).filter (fun l => p.t 0 l)).foldl (fun s l => s.setPat l (p.w 1)) (quads.foldl (fun s q => s.setF (LNK_QCFG__RATE q) (p.w 2)) (entered 0x0107 p s))).commitSince (entered 0x0107 p s)) (ok)))
  ∧ (∀ (p : Pkt) (s : State), accepted 0x0107 p s = true →
      ((List.range 24).filter (fun l => p.t 0 l)).any (fun l => ((entered 0x0107 p s).laneOwner l).any (fun o => (entered 0x0107 p s).on (LNK_P_CFG__EN o))) = true →
      exec (.lnkPattern p) s = .next (settled 0x0107 (s.pktHdr 0x0107 p) (entered 0x0107 p s) (refuse stState 0x800A)))
  ∧ (∀ (lane : Fin 24) (bits : List Bool) (x : PatRun) (s : State), s.on (LNK_L_PAT__CHK lane) = true →
    s.f (LNK_L_PAT__MODE lane) ≠ 0 → s.on (LNK_L_PAT__NEAR_LOOP lane) = false →
      x = bits.foldl (PatRun.take (s.f (LNK_L_PAT__MODE lane))) { check := (s.ln lane).check, sync := s.on (LNK_L_STAT__PAT_SYNC lane) } →
      exec (.patSyncChange lane bits) s = .next (((((s.modLn lane (fun q => { q with check := x.check })).setB (LNK_L_STAT__PAT_SYNC lane) x.sync).bumpBits
        lane x.bits).bumpStat (LNK_L_ERRS lane) x.errs)))
  ∧ (∀ (lane : Fin 24) (bits : List Bool) (s : State),
      s.on (LNK_L_PAT__CHK lane) = false ∨ s.f (LNK_L_PAT__MODE lane) = 0 ∨ s.on (LNK_L_PAT__NEAR_LOOP lane) = true →
      exec (.patSyncChange lane bits) s = .next s)
  ∧ (∀ (lane : Fin 24) (len : Fin 64) (s : State),
      let put := fun n => if (s.ln lane).inject ≠ 0 then s else s.modLn lane (fun q => { q with inject := n })
      exec (.injectSingle lane) s = .next (put 1) ∧ exec (.injectBurst lane len) s = .next (put (len + 1)))
  ∧ (∀ (port : Fin 4) (s : State), (s.pt port).trgDue ≠ 0 →
      let u := s.modPt port (fun q => { q with trgDue := q.trgDue - 1 })
      exec (.trgAssert port) s = .next (if s.f (LNK_P_TRG__MODE port) = 1 then (u.modPt port (fun q => { q with trgNs := s.now })).driveTrg port true else u))
  ∧ (∀ (port : Fin 4) (s : State), (s.pt port).trgDue = 0 → exec (.trgAssert port) s = .next s)
  ∧ (∀ (port : Fin 4) (s : State),
      exec (.trgDeassert port) s = .next (if (s.pt port).trg then s.driveTrg port false else s))

/-- A FRAME_START in front that the header checks accept (State.packetIn: TYPE 1, LENGTH 2) ends a frame still open
(State.endOpen). On an enabled port with a profile it then begins the port's frame (State.frameOpens: the frame number
checked for a gap and stored, the frame counted, IN_FRAME set). With the port's context RUNNING or PROC_STOPPED and a
place found (State.placeFrame) the recorded frame begins with the packet's second word as its sensor flags
(State.beginFrame); without a place, or in any other state of the context, where the discarded frame is counted, the
frame is followed without a record (State.ghostFrame). On a port not enabled or without a profile nothing more
happens, and of a packet not accepted only what the header checks leave. -/
def Obligations.FrameStarts : Prop :=
  (∀ (port : Fin 4) (k : Packet) (prof : Profile) (fid : Nat) (u v x z s : State),
    s.packetIn port 1 (some 2) = (some k, u) → v = u.endOpen port → (v.pt port).profile = some prof →
    v.on (LNK_P_CFG__EN port) = true → x = v.frameOpens port (k.words.getD 0 0).toNat →
    x.cst port = 2 ∨ x.cst port = 3 → x.placeFrame port prof = (some fid, z) →
      exec (.frameStart port) s = .next (z.beginFrame port fid prof (k.words.getD 1 0)))
  ∧ (∀ (port : Fin 4) (k : Packet) (prof : Profile) (u v x z s : State), s.packetIn port 1 (some 2) = (some k, u) →
    v = u.endOpen port → (v.pt port).profile = some prof → v.on (LNK_P_CFG__EN port) = true →
    x = v.frameOpens port (k.words.getD 0 0).toNat → x.cst port = 2 ∨ x.cst port = 3 →
    x.placeFrame port prof = (none, z) → exec (.frameStart port) s = .next (z.ghostFrame port prof))
  ∧ (∀ (port : Fin 4) (k : Packet) (prof : Profile) (u v x s : State), s.packetIn port 1 (some 2) = (some k, u) →
    v = u.endOpen port → (v.pt port).profile = some prof → v.on (LNK_P_CFG__EN port) = true →
    x = v.frameOpens port (k.words.getD 0 0).toNat → x.cst port ≠ 2 → x.cst port ≠ 3 →
      exec (.frameStart port) s = .next ((x.bumpEvt .ctx (CTX_C_DISC_CNT port)).ghostFrame port prof))
  ∧ (∀ (port : Fin 4) (k : Packet) (u v s : State), s.packetIn port 1 (some 2) = (some k, u) → v = u.endOpen port →
    (v.pt port).profile = none ∨ v.on (LNK_P_CFG__EN port) = false → exec (.frameStart port) s = .next v)
  ∧ (∀ (port : Fin 4) (u s : State), s.packetIn port 1 (some 2) = (none, u) → exec (.frameStart port) s = .next u)

/-- With a packet in front that the header checks accept (State.packetIn) and a frame in ingest: LINE_START of a
readout of the frame is stamped and times the lines (State.lineTimed) and completes the readout's open line; a line
number due or later within the frame opens that line, damaged by a bad PCRC, after a SEQ fault and the fill of the
lines skipped where it is later, and starts the waiting settings at SET_LINE of readout 0 while the frame stays open;
a line number behind or beyond the frame is a SEQ fault and what follows of that readout is skipped. LINE_DATA appends
its words up to the line's length to the open line, damaged by too many words, a LEN fault, or a bad PCRC; it ends a
recorded frame by overflow when the input buffer is full or the readouts lie too far apart, and has no further effect
with no open line. LINE_END completes the line. EMBEDDED appends to the frame's embedded data, up to its room, unless
its readout is skipped. -/
def Obligations.LinePackets : Prop :=
  (∀ (port : Fin 4) (k : Packet) (f g : Ingest) (y : Nat) (u v w x s : State),
    s.packetIn port 3 (some 1) = (some k, u) → y = (k.words.getD 0 0).toNat % 0x10000 → (u.rw_ port).frame = some f →
    k.vc < f.cfg.readouts → v = (u.lineTimed port k.vc y).closeLine port k.vc → (v.rw_ port).frame = some g →
    (g.lines.getD k.vc []).length ≤ y → y < g.height →
      (w = if (g.lines.getD k.vc []).length < y then (v.lnkFault port lfSeq loSkipAhead).fillTo port k.vc y g.height else v) →
      x = (w.modIngest port (fun f => { f with skip := f.skip.set k.vc false, cur := f.cur.set k.vc (some ⟨y, [], !k.good⟩) })).checkWaiting port →
      exec (.lineStart port) s = .next (if k.vc = 0 ∧ y = x.f (LNK_P_SET_CFG__SET_LINE port) ∧ (x.rw_ port).frame.isSome = true
        then x.startSettings port else x))
  ∧ (∀ (port : Fin 4) (k : Packet) (f g : Ingest) (y : Nat) (u v s : State), s.packetIn port 3 (some 1) = (some k, u) →
    y = (k.words.getD 0 0).toNat % 0x10000 → (u.rw_ port).frame = some f → k.vc < f.cfg.readouts →
    v = (u.lineTimed port k.vc y).closeLine port k.vc → (v.rw_ port).frame = some g →
      y < (g.lines.getD k.vc []).length ∨ g.height ≤ y →
      exec (.lineStart port) s =
        .next ((v.lnkFault port lfSeq loBadLine).modIngest port (fun f => { f with skip := f.skip.set k.vc true })))
  ∧ (∀ (port : Fin 4) (full : Bool) (k : Packet) (f : Ingest) (l : OpenLine) (u s : State),
    s.packetIn port 4 (none) = (some k, u) → (u.rw_ port).frame = some f → f.cur.getD k.vc none = some l →
      let excess := decide (f.lineWords < (l.words ++ k.words).length)
      exec (.lineData port full) s = .next (if full = true ∧ f.recorded = true then u.overflow port 4
        else if f.recorded = true ∧ f.lagBreach k.vc l.number = true then u.overflow port 6
        else (if excess then u.lnkFault port lfLen loExcess else u).modIngest port (fun f => { f with
          cur := f.cur.set k.vc (some ⟨l.number, (l.words ++ k.words).take f.lineWords, l.damaged || excess || !k.good⟩) })))
  ∧ (∀ (port : Fin 4) (full : Bool) (k : Packet) (f : Ingest) (u s : State), s.packetIn port 4 (none) = (some k, u) →
    (u.rw_ port).frame = some f → f.cur.getD k.vc none = none → exec (.lineData port full) s = .next u)
  ∧ (∀ (port : Fin 4) (k : Packet) (f : Ingest) (u s : State), s.packetIn port 5 (some 0) = (some k, u) →
    (u.rw_ port).frame = some f → exec (.lineEnd port) s = .next ((u.closeLine port k.vc).checkWaiting port))
  ∧ (∀ (port : Fin 4) (k : Packet) (f : Ingest) (n : Nat) (u s : State), s.packetIn port 6 (none) = (some k, u) →
    (u.rw_ port).frame = some f → n = 4096 * ((u.rec? port f.fid).map (·.embSect)).getD 0 →
      let all := f.emb ++ leBytes 4 (k.vc * 0x4000000 + k.words.length) ++ k.words.flatMap (fun w => leBytes 4 w.toNat)
      exec (.embedded port) s = .next (if f.skip.getD k.vc false then u else u.modIngest port (fun f => { f with
        emb := all.take n, embTrunc := f.embTrunc || decide (n < all.length) })))

/-- A FRAME_END that the header checks accept, on a port with a frame in ingest, completes the open lines of the
readouts, faults LEN and marks the frame where a readout's line count differs from the one sent, sets DMG where lines
are missing, fills them, and ends the frame with the stripes it has emitted. Without a frame in ingest an accepted
LINE_START is stamped, and it, LINE_DATA, LINE_END, EMBEDDED and FRAME_END are SEQ faults and nothing more. IDLE has
the effect of the header checks alone: an IDLE packet of LENGTH 0 in front is taken. A packet of TYPE 7 to 15 in front
of a receiving port is taken, and is the TYPE fault unless the words are being discarded after a loss of lock; any
other packet stays. FRAME_TIMEOUT within a frame on a port with a timeout set is the TIMEOUT fault and ends the frame
as TRUNCATED; else it changes nothing. STRIPE_LANDED lands the next stripe of a recorded frame that has emitted more
than have landed, and else changes nothing. -/
def Obligations.FrameEnds : Prop :=
  (∀ (port : Fin 4) (k : Packet) (f g j : Ingest) (u v w x s : State), s.packetIn port 2 (some 1) = (some k, u) →
    (u.rw_ port).frame = some f → v = (List.range f.cfg.readouts).foldl (fun s r => s.closeLine port r) u →
      (v.rw_ port).frame = some g →
      (w = if (List.range g.cfg.readouts).any (fun r => g.got.getD r 0 != (k.words.getD 0 0).toNat % 0x10000) then (v.lnkFault port lfLen loCount).modIngest port (fun f => { f with countBad := true }) else v) →
      (x = (List.range g.cfg.readouts).foldl (fun s r => s.fillTo port r g.height g.height) (if (List.range g.cfg.readouts).any (fun r => decide ((g.lines.getD r []).length < g.height)) then w.raise (RAW_P_ERR__DMG port) else w)) →
    (x.rw_ port).frame = some j → exec (.frameEnd port) s = .next (x.ingestEnd port 0 j.emitted))
  ∧ (∀ (port : Fin 4) (k : Packet) (u s : State), s.packetIn port 3 (some 1) = (some k, u) →
      (u.rw_ port).frame = none →
      exec (.lineStart port) s = .next ((u.lineTimed port k.vc ((k.words.getD 0 0).toNat % 0x10000)).lnkFault port lfSeq loOutside))
  ∧ (∀ (port : Fin 4) (k : Packet) (u s : State), s.packetIn port 2 (some 1) = (some k, u) →
    (u.rw_ port).frame = none → exec (.frameEnd port) s = .next (u.lnkFault port lfSeq loOutside))
  ∧ (∀ (port : Fin 4) (full : Bool) (k : Packet) (u s : State), s.packetIn port 4 (none) = (some k, u) →
    (u.rw_ port).frame = none → exec (.lineData port full) s = .next (u.lnkFault port lfSeq loOutside))
  ∧ (∀ (port : Fin 4) (k : Packet) (u s : State), s.packetIn port 6 (none) = (some k, u) → (u.rw_ port).frame = none →
      exec (.embedded port) s = .next (u.lnkFault port lfSeq loOutside))
  ∧ (∀ (port : Fin 4) (k : Packet) (u s : State), s.packetIn port 5 (some 0) = (some k, u) →
    (u.rw_ port).frame = none → exec (.lineEnd port) s = .next (u.lnkFault port lfSeq loOutside))
  ∧ (∀ (port : Fin 4) (s : State), exec (.idle port) s = .next (s.packetIn port 0 (some 0)).2)
  ∧ (∀ (port : Fin 4) (w : W32) (t : List W32) (s : State), s.packetAt port = some (w, t) → s.portOn port = true →
      7 ≤ hdrType w →
      exec (.reservedTypePacket port) s = .next (if (s.pt port).relock then s.packetOff port w else (s.packetOff port w).lnkFault port lfType loType))
  ∧ (∀ (port : Fin 4) (s : State),
      s.packetAt port = none ∨ s.portOn port = false ∨ (s.packetAt port).any (fun x => decide (hdrType x.1 < 7)) = true →
      exec (.reservedTypePacket port) s = .next s)
  ∧ (∀ (port : Fin 4) (s : State), s.on (LNK_P_STAT__IN_FRAME port) = true → s.f (LNK_P_FRAME_TMO__TMO_US port) ≠ 0 →
      exec (.frameTimeout port) s = .next ((s.lnkFault port lfTimeout loTimeout).truncateFrame port 2))
  ∧ (∀ (port : Fin 4) (s : State), s.on (LNK_P_STAT__IN_FRAME port) = false ∨ s.f (LNK_P_FRAME_TMO__TMO_US port) = 0 →
      exec (.frameTimeout port) s = .next s)
  ∧ (∀ (port : Fin 4) (f : Ingest) (s : State), (s.rw_ port).frame = some f →
      exec (.stripeLanded port) s = .next (if f.recorded = true ∧ f.landed < f.emitted then s.landStripe port else s))
  ∧ (∀ (port : Fin 4) (s : State), (s.rw_ port).frame = none → exec (.stripeLanded port) s = .next s)

/-- Accepted with a valid, readable buffer: RAW_SET_LIN of readout 0 to 2 with 16,388 bytes of words below 2^24
replaces that readout's linearisation table and is answered OK; RAW_SET_BLACK with 4,096 bytes of such words replaces
one readout's black table, or all three, and writes BLACK_ADJ; RAW_LOAD_DEFECTS on a port with a profile, of at most
262,144 entries that the buffer holds and that are a valid list within the profile's frame (defectsOk), replaces the
defect map, sets DYN_EN and the two dynamic thresholds and answers the count. A buffer in the working region leaves
the vault's power states. RAW_SET_LIN of readout 3 is refused BAD_PARAM word 0 and with a buffer of another length
BAD_PARAM 0x8001, nothing changed. Accepted with parameters in range and the front-end rate of R112 kept,
RAW_SET_MERGE writes READOUTS, the apply tag, the ghost and noise words and the gain, knee, saturation and weight of
the three readouts, and marks a merge set for the next commit; RAW_SET_FORMAT passing its checks writes RAW_Pp_CFG but
for DYN_EN, and the line time, and in compressed form the ratio and the E range. RAW_SET_MERGE beyond the rate of R112
is refused BANDWIDTH 0x8004, with READOUTS 0 BAD_PARAM word 0, and RAW_SET_FORMAT that fails its checks
(State.formatCheck) with their answer, nothing changed. RAW_GET_STATS with a valid buffer of length 0 or at least
2,144 writes the latched statistics block to it and answers the frame's number, tag, flags and last stripe. -/
def Obligations.RawFrontEnd : Prop :=
  (∀ (p : Pkt) (bs : List Byte) (s : State), accepted 0x0200 p s = true →
    (entered 0x0200 p s).refOk (p.ref 4) = true → p.b 0 0 2 ≠ 3 → (p.ref 4).len = 16388 →
      (entered 0x0200 p s).readRef (p.ref 4) p.buf = some bs →
      (wordsOf bs).any (fun w => decide (0x1000000 ≤ w)) = false →
      exec (.rawSetLin p) s = .next (settled 0x0200 (s.pktHdr 0x0200 p) (((entered 0x0200 p s).modRw p.idx (fun q => { q with lin := q.lin.set (p.b 0 0 2) (some (wordsOf bs)) })).refUse (p.ref 4)) (ok)))
  ∧ (∀ (p : Pkt) (s : State), accepted 0x0200 p s = true → (entered 0x0200 p s).refOk (p.ref 4) = true →
      p.b 0 0 2 = 3 →
      exec (.rawSetLin p) s = .next (settled 0x0200 (s.pktHdr 0x0200 p) (entered 0x0200 p s) (badWord 0)))
  ∧ (∀ (p : Pkt) (s : State), accepted 0x0200 p s = true → (entered 0x0200 p s).refOk (p.ref 4) = true →
    p.b 0 0 2 ≠ 3 → (p.ref 4).len ≠ 16388 →
      exec (.rawSetLin p) s = .next (settled 0x0200 (s.pktHdr 0x0200 p) (entered 0x0200 p s) (refuse stBadParam 0x8001)))
  ∧ (∀ (p : Pkt) (bs : List Byte) (s : State), accepted 0x0201 p s = true →
    (entered 0x0201 p s).refOk (p.ref 4) = true → p.b 0 0 2 ≠ 3 ∨ p.t 0 8 = true → (p.ref 4).len = 4096 →
      (entered 0x0201 p s).readRef (p.ref 4) p.buf = some bs →
      (wordsOf bs).any (fun w => decide (0x1000000 ≤ w)) = false →
      exec (.rawSetBlack p) s = .next (settled 0x0201 (s.pktHdr 0x0201 p) ((((entered 0x0201 p s).modRw p.idx (fun q => { q with black := if p.t 0 8 then List.replicate 3 (some (wordsOf bs)) else q.black.set (p.b 0 0 2) (some (wordsOf bs)) })).setF (RAW_P_BLACK_ADJ__BLACK_ADJ p.idx) (p.b 1 0 24)).refUse (p.ref 4)) (ok)))
  ∧ (∀ (p : Pkt) (f : Profile) (bs : List Byte) (l : List (Nat × Nat × Nat)) (u : State) (s : State),
    accepted 0x0203 p s = true → (entered 0x0203 p s).refOk (p.ref 4) = true →
    ((entered 0x0203 p s).pt p.idx).profile = some f → p.b 0 0 19 ≤ 262144 → 4 * p.b 0 0 19 ≤ (p.ref 4).len →
    (entered 0x0203 p s).readRef (p.ref 4) p.buf = some bs → l = ((wordsOf bs).take (p.b 0 0 19)).map defectOf →
      defectsOk f.width f.height (sameStep ((entered 0x0203 p s).f (RAW_P_CFG__CFA p.idx))) l = true →
      u = (entered 0x0203 p s).modRw p.idx (fun q => { q with defects := l }) →
      exec (.rawLoadDefects p) s = .next (settled 0x0203 (s.pktHdr 0x0203 p) ((((u.setF (RAW_P_CFG__DYN_EN p.idx) (p.b 1 0 1)).wn (RAW_P_DYN_ABS p.idx) (p.w 2)).wn (RAW_P_DYN_REL p.idx) (p.w 3)).refUse (p.ref 4)) (ok [p.b 0 0 19])))
  ∧ (∀ (p : Pkt) (v w : State) (s : State), accepted 0x0202 p s = true → 0 < p.b 0 0 2 → p.b 0 4 2 < p.b 0 0 2 →
    p.b 2 16 7 ≤ 64 → (List.range 3).find? (fun r => decide (p.w (10 + r) < p.w (7 + r))) = none →
      (entered 0x0202 p s).r112 p.idx { (entered 0x0202 p s).shadowRaw p.idx with readouts := p.b 0 0 2 } none = true →
      v = ((entered 0x0202 p s).setF (RAW_P_CFG__READOUTS p.idx) (p.b 0 0 2)).wn (RAW_P_APPLY_TAG p.idx) (p.w 1) →
      w = (v.wn (RAW_P_GHOST p.idx) (p.b 2 0 16 + p.b 2 16 7 * 0x10000 + p.b 0 4 2 * 0x10000000 + p.b 0 8 1 * 0x80000000)).wn (RAW_P_NOISE_FLOOR p.idx) (p.w 3) →
      exec (.rawSetMerge p) s = .next (settled 0x0202 (s.pktHdr 0x0202 p) (((List.range 3).foldl (fun s r =>
        (((s.wn (RAW_P_GAIN p.idx r) (p.w (4 + r))).wn (RAW_P_KNEE p.idx r) (p.w (7 + r))).wn (RAW_P_SAT p.idx r) (p.w (10 + r))).wn
          (RAW_P_WEIGHT p.idx r) (p.w (13 + r))) w).modRw p.idx (fun q => { q with mergeMark := true })) (ok)))
  ∧ (∀ (p : Pkt) (s : State), accepted 0x0202 p s = true → 0 < p.b 0 0 2 → p.b 0 4 2 < p.b 0 0 2 → p.b 2 16 7 ≤ 64 →
      (List.range 3).find? (fun r => decide (p.w (10 + r) < p.w (7 + r))) = none →
      (entered 0x0202 p s).r112 p.idx { (entered 0x0202 p s).shadowRaw p.idx with readouts := p.b 0 0 2 } none = false →
      exec (.rawSetMerge p) s = .next (settled 0x0202 (s.pktHdr 0x0202 p) (entered 0x0202 p s) (refuse stBandwidth 0x8004)))
  ∧ (∀ (p : Pkt) (s : State), accepted 0x0202 p s = true → p.b 0 0 2 = 0 →
      exec (.rawSetMerge p) s = .next (settled 0x0202 (s.pktHdr 0x0202 p) (entered 0x0202 p s) (badWord 0)))
  ∧ (∀ (p : Pkt) (v : State) (s : State), accepted 0x0204 p s = true → (entered 0x0204 p s).formatCheck p = none →
      v = (((entered 0x0204 p s).wn (RAW_P_CFG p.idx) (p.w 0)).setF (RAW_P_CFG__DYN_EN p.idx) ((entered 0x0204 p s).f (RAW_P_CFG__DYN_EN p.idx))).wn (RAW_P_LINE_NS p.idx) (p.w 1) →
      exec (.rawSetFormat p) s = .next (settled 0x0204 (s.pktHdr 0x0204 p) (if p.b 0 0 3 = 2 then
        ((v.setF (RAW_P_PRESS_RC__RATIO p.idx) (p.w 2)).setF (RAW_P_PRESS_RC__E_MIN p.idx) (p.b 3 0 7)).setF (RAW_P_PRESS_RC__E_MAX p.idx) (p.b 3 8 7)
      else v) (ok)))
  ∧ (∀ (p : Pkt) (o : Outc) (s : State), accepted 0x0204 p s = true → (entered 0x0204 p s).formatCheck p = some o →
      exec (.rawSetFormat p) s = .next (settled 0x0204 (s.pktHdr 0x0204 p) (entered 0x0204 p s) (o)))
  ∧ (∀ (p : Pkt) (b : IngestBlk) (s : State), accepted 0x0205 p s = true → s.refOk (p.ref 0) = true →
    (p.ref 0).len = 0 ∨ 2144 ≤ (p.ref 0).len → b = (s.rw_ p.idx).latch →
      exec (.rawGetStats p) s = .next (settled 0x0205 (s.pktHdr 0x0205 p) ((s.writeRef (p.ref 0) b.bytes).refUse (p.ref 0)) (ok [b.fid, b.tag, b.flags, b.lastStripe.getD 0xFFFFFFFF])))

/-- Accepted with a width and height of 64 to 16,384 and a frame time of at least 1 ms, CTX_CONFIGURE writes the size,
the budget and the frame time and nothing else; a size out of range is refused with BAD_PARAM word 0, a shorter frame
time with word 2. CTX_SET_POLICY writes ESSENTIAL and PRIO, and is refused with BANDWIDTH 0x8002 where a non-IDLE
context made essential would take the essential load above 1,000. CTX_STATUS answers its twelve words and changes
nothing. An accepted CTX_COMMIT whose checks pass makes the image of the context's shadow settings pending under the
number after the last one (1 after 0xFFFFFFFF), replaces an image still pending and then sets COMMIT_REPLACED, and
makes an IDLE context READY. A sensor context's image takes the shadow merge settings when they are marked with tag 0
or still carried from the image it replaces, else the live ones; a marked set with another tag is armed instead, and
ARM_REPLACED is set where one was armed. The packet is answered with the number and the image's fingerprint. A commit
whose checks fail is answered with the check's refusal and changes nothing. -/
def Obligations.ContextSets : Prop :=
  (∀ (p : Pkt) (s : State), accepted 0x0300 p s = true → 64 ≤ p.b 0 0 16 → p.b 0 0 16 ≤ 16384 → 64 ≤ p.b 0 16 16 →
    p.b 0 16 16 ≤ 16384 → 1000000 ≤ p.w 2 →
      exec (.ctxConfigure p) s = .next (settled 0x0300 (s.pktHdr 0x0300 p) ((((entered 0x0300 p s).wn (CTX_C_SIZE p.idx) (p.w 0)).wn (CTX_C_BUDGET p.idx) (p.w 1)).wn (CTX_C_FRAME_NS p.idx) (p.w 2)) (ok)))
  ∧ (∀ (p : Pkt) (s : State), accepted 0x0300 p s = true →
      p.b 0 0 16 < 64 ∨ 16384 < p.b 0 0 16 ∨ p.b 0 16 16 < 64 ∨ 16384 < p.b 0 16 16 →
      exec (.ctxConfigure p) s = .next (settled 0x0300 (s.pktHdr 0x0300 p) (entered 0x0300 p s) (badWord 0)))
  ∧ (∀ (p : Pkt) (s : State), accepted 0x0300 p s = true → 64 ≤ p.b 0 0 16 → p.b 0 0 16 ≤ 16384 → 64 ≤ p.b 0 16 16 →
    p.b 0 16 16 ≤ 16384 → p.w 2 < 1000000 →
      exec (.ctxConfigure p) s = .next (settled 0x0300 (s.pktHdr 0x0300 p) (entered 0x0300 p s) (badWord 2)))
  ∧ (∀ (p : Pkt) (s : State), accepted 0x0304 p s = true →
      p.t 0 0 = false ∨ (entered 0x0304 p s).cst p.idx = 0 ∨ (entered 0x0304 p s).essSum p.idx (max ((entered 0x0304 p s).liveLoad p.idx) ((entered 0x0304 p s).pendLoad p.idx)) true ≤ 1000 →
      exec (.ctxSetPolicy p) s = .next (settled 0x0304 (s.pktHdr 0x0304 p) (((entered 0x0304 p s).setB (CTX_C_POLICY__ESSENTIAL p.idx) (p.t 0 0)).setF (CTX_C_POLICY__PRIO p.idx) (p.b 0 8 3)) (ok)))
  ∧ (∀ (p : Pkt) (s : State), accepted 0x0304 p s = true → p.t 0 0 = true → (entered 0x0304 p s).cst p.idx ≠ 0 →
      1000 < (entered 0x0304 p s).essSum p.idx (max ((entered 0x0304 p s).liveLoad p.idx) ((entered 0x0304 p s).pendLoad p.idx)) true →
      exec (.ctxSetPolicy p) s = .next (settled 0x0304 (s.pktHdr 0x0304 p) (entered 0x0304 p s) (refuse stBandwidth 0x8002)))
  ∧ (∀ (p : Pkt) (s : State), accepted 0x0306 p s = true →
      exec (.ctxStatus p) s = .next (settled 0x0306 (s.pktHdr 0x0306 p) s (ok [s.ctxStateWord p.idx, s.rn (CTX_C_POLICY p.idx), s.headFid p.idx, s.headPos p.idx, s.rn (CTX_C_COMMIT_ID p.idx),
        (s.ctxFp p.idx).toNat % 0x100000000, (s.ctxFp p.idx).toNat / 0x100000000, s.rn (CTX_C_PROC_CNT p.idx), s.rn (CTX_C_SKIP_CNT p.idx),
        s.rn (CTX_C_LATE_CNT p.idx), s.rn (CTX_C_MAX_LATE p.idx), s.liveLoad p.idx])))
  ∧ (∀ (p : Pkt) (mark arming carries : Bool) (sh raw : RawCfg) (ts : List TapCfg) (id : W32) (i : Image) (u v w : State) (s : State),
    accepted 0x0301 p s = true → s.commitCheck p.idx = none → mark = (decide (p.idx < 4) && (s.rw_ p.idx).mergeMark) →
    (sh = (if p.idx < 4 then s.shadowRaw p.idx else {})) → arming = (mark && sh.applyTag != 0) →
      (carries = ((mark && sh.applyTag == 0) || (match (s.cx p.idx).pending with | some i => i.carries && !mark | none => false))) →
      (raw = (if carries || decide (p.idx ≥ 4) then sh else sh.withMerge (s.rw_ p.idx).live)) →
      ts = (s.ownedTaps p.idx).map s.shadowTap →
      (id = (if (s.cx p.idx).commitId + 1 = 0 then 1 else (s.cx p.idx).commitId + 1)) →
      i = { id := id, cfg := s.shadowCtx p.idx, raw := raw, clr := s.shadowClr p.idx, taps := ts, fp := imageFp (s.shadowCtx p.idx) raw (s.shadowClr p.idx) ts, carries := carries } →
      (u = (if (s.cx p.idx).pending.isSome then s.raise (CTX_C_ERR__COMMIT_REPLACED p.idx) else s).modCx p.idx (fun q => { q with commitId := id, pending := some i })) →
      (v = (if u.cst p.idx = 0 then u.setCst p.idx 1 else u)) →
      (w = (if p.idx < 4 ∧ arming ∧ (v.rw_ p.idx).armed.isSome then v.raise (RAW_P_ERR__ARM_REPLACED p.idx) else v)) →
      exec (.ctxCommit p) s = .next (settled 0x0301 (s.pktHdr 0x0301 p) (if p.idx < 4 ∧ mark then w.modRw p.idx (fun r => { r with mergeMark := false, armed := if arming then some sh else none }) else w) (ok [id.toNat, i.fp.toNat % 0x100000000, i.fp.toNat / 0x100000000])))
  ∧ (∀ (p : Pkt) (o : Outc) (s : State), accepted 0x0301 p s = true → s.commitCheck p.idx = some o →
      exec (.ctxCommit p) s = .next (settled 0x0301 (s.pktHdr 0x0301 p) s (o)))

/-- Accepted, CTX_START on an IDLE context is refused with STATE 0x8004; on a playback context without a source with
0x8007; on a RUNNING context answered OK 2 and nothing else; on any other (with a source, where it is a playback
context), no memory test holding the vault, the vault comes into use, the context's first frame is taken anew, from
READY a playback source starts from its beginning, the context becomes RUNNING and the packet is answered OK 2.
CTX_STOP of a context neither RUNNING nor PROC_STOPPED, or a processing stop of a PROC_STOPPED one, is answered with
its state; a full stop of a RUNNING or PROC_STOPPED context disarms it and makes it READY when nothing of it is left,
else DRAINING; a processing stop of a RUNNING one disarms it, notes the frame in processing, marks those not begun,
makes it PROC_STOPPED and settles its frames. CTX_PLAYBACK_SOURCE of a source in range, whose record stands where it
is of kind 0, and whose front-end rate keeps R112 where it replays a sensor's, becomes the next source of a RUNNING or
PROC_STOPPED context and the source of any other; a source whose record is gone is refused STATE 0x8007. -/
def Obligations.ContextRuns : Prop :=
  (∀ (p : Pkt) (s : State), accepted 0x0302 p s = true → (entered 0x0302 p s).cst p.idx = 0 →
      exec (.ctxStart p) s = .next (settled 0x0302 (s.pktHdr 0x0302 p) (entered 0x0302 p s) (refuse stState 0x8004)))
  ∧ (∀ (p : Pkt) (s : State), accepted 0x0302 p s = true → (entered 0x0302 p s).cst p.idx ≠ 0 → 4 ≤ p.idx →
    ((entered 0x0302 p s).cx p.idx).source = none → ((entered 0x0302 p s).cx p.idx).nextSource = none →
      exec (.ctxStart p) s = .next (settled 0x0302 (s.pktHdr 0x0302 p) (entered 0x0302 p s) (refuse stState 0x8007)))
  ∧ (∀ (p : Pkt) (s : State), accepted 0x0302 p s = true →
      p.idx < 4 ∨ ((entered 0x0302 p s).cx p.idx).source.isSome = true ∨ ((entered 0x0302 p s).cx p.idx).nextSource.isSome = true →
      (entered 0x0302 p s).cst p.idx = 2 →
      exec (.ctxStart p) s = .next (settled 0x0302 (s.pktHdr 0x0302 p) (entered 0x0302 p s) (ok [2])))
  ∧ (∀ (p : Pkt) (u v : State) (s : State), accepted 0x0302 p s = true →
      p.idx < 4 ∨ ((entered 0x0302 p s).cx p.idx).source.isSome = true ∨ ((entered 0x0302 p s).cx p.idx).nextSource.isSome = true →
    (entered 0x0302 p s).cst p.idx ≠ 0 → (entered 0x0302 p s).cst p.idx ≠ 2 → (entered 0x0302 p s).bist 1 = false →
      u = (entered 0x0302 p s).vaultUse.modCx p.idx (fun q => { q with firstFid := none }) →
      (v = if p.idx < 4 then u.modRw p.idx (fun r => { r with latch := {}, firstFrame := true }) else u) →
      exec (.ctxStart p) s = .next (settled 0x0302 (s.pktHdr 0x0302 p) ((if (entered 0x0302 p s).cst p.idx = 1 then v.modCx p.idx (fun q => { q with source := q.source.map (fun x => { x with next := 0 }) }) else v).setCst p.idx 2) (ok [2])))
  ∧ (∀ (p : Pkt) (s : State), accepted 0x0303 p s = true → (entered 0x0303 p s).cst p.idx ≠ 2 →
      (entered 0x0303 p s).cst p.idx ≠ 3 ∨ p.t 0 0 = true →
      exec (.ctxStop p) s = .next (settled 0x0303 (s.pktHdr 0x0303 p) (entered 0x0303 p s) (ok [(entered 0x0303 p s).cst p.idx])))
  ∧ (∀ (p : Pkt) (u v : State) (s : State), accepted 0x0303 p s = true →
    (entered 0x0303 p s).cst p.idx = 2 ∨ (entered 0x0303 p s).cst p.idx = 3 → p.t 0 0 = false →
      u = ((entered 0x0303 p s).disarm p.idx).modCx p.idx (fun q => { q with skipNext := none }) →
      (v = u.setCst p.idx (if (u.cx p.idx).frames.isEmpty && !u.ingesting p.idx then 1 else 4)) →
      exec (.ctxStop p) s = .next (settled 0x0303 (s.pktHdr 0x0303 p) (v) (ok [v.cst p.idx])))
  ∧ (∀ (p : Pkt) (u v : State) (s : State), accepted 0x0303 p s = true → (entered 0x0303 p s).cst p.idx = 2 →
    p.t 0 0 = true → u = ((entered 0x0303 p s).disarm p.idx).modCx p.idx (fun q => { q with skipNext := none }) →
      (v = u.modCx p.idx (fun q => { q with stopAt := ((u.cx p.idx).frames.find? (fun f => f.started != 0)).map (·.fid), frames := q.frames.map (fun f => if f.started = 0 then { f with procStop := true } else f) })) →
      exec (.ctxStop p) s = .next (settled 0x0303 (s.pktHdr 0x0303 p) ((v.setCst p.idx 3).settleFrames p.idx) (ok [3])))
  ∧ (∀ (p : Pkt) (q : PlaySource) (g : CtxCfg) (s : State), accepted 0x0305 p s = true → p.b 0 0 2 ≤ 1 →
    p.b 0 4 3 ≤ 3 → p.b 0 16 3 ≤ 4 → p.b 0 0 2 = 1 ∨ ((entered 0x0305 p s).rec? (p.b 0 4 3) (p.w 1)).isSome = true →
      q = { decoder := p.b 0 0 2 == 1, ctx := p.b 0 4 3, loop := p.t 0 12, pace := p.b 0 16 3, firstFid := p.w 1, count := p.w 2 } →
      (g = (match (entered 0x0305 p s).liveImage p.idx, ((entered 0x0305 p s).cx p.idx).pending with | _, some i => i.cfg | some i, none => i.cfg | none, none => (entered 0x0305 p s).shadowCtx p.idx)) →
      (entered 0x0305 p s).sensorSource (some q) = false ∨ (entered 0x0305 p s).r112 (p.b 0 8 2) ((entered 0x0305 p s).rw_ (p.b 0 8 2)).live (some (p.idx, g)) = true →
      exec (.ctxPlaybackSource p) s = .next (settled 0x0305 (s.pktHdr 0x0305 p) ((entered 0x0305 p s).modCx p.idx (fun x => if (entered 0x0305 p s).cst p.idx = 2 ∨ (entered 0x0305 p s).cst p.idx = 3 then { x with nextSource := some q, rawSrc := p.b 0 8 2 } else { x with source := some q, nextSource := none, rawSrc := p.b 0 8 2 })) (ok)))
  ∧ (∀ (p : Pkt) (s : State), accepted 0x0305 p s = true → p.b 0 0 2 = 0 → p.b 0 4 3 ≤ 3 → p.b 0 16 3 ≤ 4 →
      (entered 0x0305 p s).rec? (p.b 0 4 3) (p.w 1) = none →
      exec (.ctxPlaybackSource p) s = .next (settled 0x0305 (s.pktHdr 0x0305 p) (entered 0x0305 p s) (refuse stState 0x8007)))

/-- STRIPE_START with no stripe under way on a device that is not in safe state takes the head frame of the context
the ladle picks: its next stripe starts, or, when its record is gone from the vault, it is skipped with cause 3. It
does nothing while a stripe is under way, in safe state, or when no context is picked. STRIPE_DONE hands the stripe
under way on and ends the frame after its last stripe. READBACK_STALE on the frame of the stripe under way, whose
record is gone, abandons the stripe and skips the frame with cause 3. LADLE_TRIGGER on a context whose head frame is
ready and not yet triggered marks it triggered and counts the trigger; with no victim it sets NO_VICTIM and counts it
on the frame; a victim that can be skipped now has its frame skipped with cause 1, naming the triggering frame; a
victim between frames has its next frame marked to skip, reported as skipped and counted. On a context without a ready
head, or whose head has triggered before, it does nothing. PACE_TICK on a playback context paced by its own FRAME_NS
releases its next frame, and does nothing on any other. -/
def Obligations.Ladle : Prop :=
  (∀ (c : Nat) (f : ProcFrame) (i : Nat) (s : State), s.ladle.cur = none → s.dev.safe = false →
    s.ladlePick = some c → s.head c = some (f, i) →
      ((∃ k, f.src = some (.decoder k)) ∨ (s.vaultUse.readRec c f).isSome = true) →
      exec .stripeStart s = .next (s.vaultUse.stripeIn c f i))
  ∧ (∀ (c : Nat) (f : ProcFrame) (i : Nat) (s : State), s.ladle.cur = none → s.dev.safe = false →
    s.ladlePick = some c → s.head c = some (f, i) → (∀ k, f.src ≠ some (.decoder k)) → s.vaultUse.readRec c f = none →
      exec .stripeStart s = .next (s.vaultUse.procBoundary c f.fid 3))
  ∧ (∀ (s : State), s.ladle.cur.isSome = true ∨ s.dev.safe = true ∨ s.ladlePick = none → exec .stripeStart s = .next s)
  ∧ (∀ (q : CurStripe) (f : ProcFrame) (s : State), s.ladle.cur = some q → s.frame? q.ctx q.fid = some f →
      exec .stripeDone s = .next ((s.stripeOut q f).lastStripe q.ctx q.fid q.stripe))
  ∧ (∀ (s : State), s.ladle.cur = none → exec .stripeDone s = .next s)
  ∧ (∀ (ctx : Fin 6) (q : CurStripe) (f : ProcFrame) (s : State), s.ladle.cur = some q → q.ctx = ctx.val →
    s.frame? ctx.val q.fid = some f → (∀ k, f.src ≠ some (.decoder k)) → s.readRec ctx.val f = none →
      exec (.readbackStale ctx) s =
        .next ((((s.setB CTX_LADLE_STAT__BUSY false).setF CTX_LADLE_STAT__CUR 7).wn VLT_PD_STAT 0x70).procBoundary ctx.val q.fid 3))
  ∧ (∀ (ctx : Fin 6) (s : State), (∀ q, s.ladle.cur = some q → q.ctx ≠ ctx.val) → exec (.readbackStale ctx) s = .next s)
  ∧ (∀ (ctx : Fin 6) (f : ProcFrame) (i : Nat) (t u s : State), s.head ctx.val = some (f, i) →
    s.headReady ctx.val = true → f.triggered = false →
      t = s.modFrame ctx.val f.fid (fun g => { g with triggered := true }) →
    u = { t with ladle := { t.ladle with triggers := t.ladle.triggers + 1 } } → u.victim = none →
      exec (.ladleTrigger ctx) s =
        .next ((u.raise (CTX_C_ERR__NO_VICTIM ctx.val)).modFrame ctx.val f.fid (fun g => { g with cnt := { g.cnt with noVictim := true } })))
  ∧ (∀ (ctx : Fin 6) (f : ProcFrame) (i : Nat) (v fid : Nat) (t u s : State), s.head ctx.val = some (f, i) →
    s.headReady ctx.val = true → f.triggered = false →
      t = s.modFrame ctx.val f.fid (fun g => { g with triggered := true }) →
    u = { t with ladle := { t.ladle with triggers := t.ladle.triggers + 1 } } → u.victim = some v →
    u.skippable v = some (some fid) → exec (.ladleTrigger ctx) s = .next (u.procBoundary v fid 1 (ctx.val, f.fid)))
  ∧ (∀ (ctx : Fin 6) (f : ProcFrame) (i : Nat) (v : Nat) (k : ProcCnt) (t u w s : State),
    s.head ctx.val = some (f, i) → s.headReady ctx.val = true → f.triggered = false →
      t = s.modFrame ctx.val f.fid (fun g => { g with triggered := true }) →
    u = { t with ladle := { t.ladle with triggers := t.ladle.triggers + 1 } } → u.victim = some v →
    u.skippable v = some none → k = { cause := 1, trigCtx := ctx.val, trigFid := f.fid, endNs := u.ns } →
      w = u.modCx v (fun q => { q with skipNext := some k }) →
      exec (.ladleTrigger ctx) s = .next ((w.skipEvent v (w.nextFid v) k).frameDone v))
  ∧ (∀ (ctx : Fin 6) (s : State),
      (∀ f i, s.head ctx.val = some (f, i) → s.headReady ctx.val = false ∨ f.triggered = true) →
      exec (.ladleTrigger ctx) s = .next s)
  ∧ (∀ (pc : Fin 2) (s : State),
      exec (.paceTick pc) s = .next (if s.paceOf (4 + pc.val) = some 0 then s.paceTick (4 + pc.val) else s))

/-- Accepted with a valid buffer, CLR_SET_SHADING with 67,080 readable bytes loads the shading grid and writes
SHADE_EN, and with a buffer of length 0 writes SHADE_EN alone; any other length is BAD_PARAM 0x8001. CLR_SET_WB_MATRIX
with a non-zero DM_EPS writes the white balance, the nine matrix coefficients, the three offsets, DM_EPS and the
false-colour knee and enable; DM_EPS 0 is BAD_PARAM word 14. CLR_SET_WORKSPACE writes WSPACE, the luma coefficients,
and for WSPACE 3 the nine workspace coefficients; luma coefficients that sum above 65,536 are BAD_PARAM word 10 (a
choice of this model, log 72). CLR_GET_ZONESTATS with a valid buffer of length 0 or at least 90,176 writes the zone
statistics block to it and answers its frame, image, flags and stripes. A buffer in the working region leaves the
vault's power states. Accepted with parameters in range for a tap engine that the context may own, TAP_CONFIGURE makes
the context its owner and writes its eight words; TAP_LOAD_LUT with a valid, readable buffer of the kind's length,
that holds valid phases for kinds 3 and 4, of a tap below 8 for kinds 0 to 2, with its bank free, makes the context
its owner and stores the table named; TAP_ENABLE makes the context its owner and enables it; TAP_DISABLE disables an
engine the context owns and changes nothing of another. TAP_CONFIGURE and TAP_ENABLE of an engine that another context
owns are refused NO_RESOURCE 0x8005. TAP_HOLD_SET, once the device is ready, sets the buffer bits written in TAP_HOLD
of an owned engine, and sets CFG_ERR on a free one. -/
def Obligations.ColourAndTaps : Prop :=
  (∀ (p : Pkt) (s : State), accepted 0x0400 p s = true → (entered 0x0400 p s).refOk (p.ref 4) = true →
      (p.ref 4).len = 0 →
      exec (.clrSetShading p) s = .next (settled 0x0400 (s.pktHdr 0x0400 p) (((entered 0x0400 p s).setF (CLR_C_CFG__SHADE_EN p.idx) (p.b 0 0 1)).refUse (p.ref 4)) (ok)))
  ∧ (∀ (p : Pkt) (bs : List Byte) (s : State), accepted 0x0400 p s = true →
    (entered 0x0400 p s).refOk (p.ref 4) = true → (p.ref 4).len = 67080 →
      (entered 0x0400 p s).readRef (p.ref 4) p.buf = some bs →
      exec (.clrSetShading p) s = .next (settled 0x0400 (s.pktHdr 0x0400 p) ((((entered 0x0400 p s).modCx p.idx (fun q => { q with clrGrid := some (halfWords bs) })).setF (CLR_C_CFG__SHADE_EN p.idx) (p.b 0 0 1)).refUse (p.ref 4)) (ok)))
  ∧ (∀ (p : Pkt) (s : State), accepted 0x0400 p s = true → (entered 0x0400 p s).refOk (p.ref 4) = true →
    (p.ref 4).len ≠ 0 → (p.ref 4).len ≠ 67080 →
      exec (.clrSetShading p) s = .next (settled 0x0400 (s.pktHdr 0x0400 p) (entered 0x0400 p s) (refuse stBadParam 0x8001)))
  ∧ (∀ (p : Pkt) (u v w : State) (s : State), accepted 0x0401 p s = true → p.w 14 ≠ 0 →
      u = ((entered 0x0401 p s).wn (CLR_C_WB01 p.idx) (p.w 0)).wn (CLR_C_WB23 p.idx) (p.w 1) →
      v = (List.range 9).foldl (fun s k => s.wn (CLR_C_CM p.idx k) (p.w (2 + k))) u →
      w = (List.range 3).foldl (fun s k => s.wn (CLR_C_OFF p.idx k) (p.w (11 + k))) v →
      exec (.clrSetWbMatrix p) s = .next (settled 0x0401 (s.pktHdr 0x0401 p) (((w.wn (CLR_C_DM_EPS p.idx) (p.w 14)).wn (CLR_C_FCS_KNEE p.idx) (p.b 15 0 24)).setF (CLR_C_CFG__FCS_EN p.idx) (p.b 15 24 1)) (ok)))
  ∧ (∀ (p : Pkt) (s : State), accepted 0x0401 p s = true → p.w 14 = 0 →
      exec (.clrSetWbMatrix p) s = .next (settled 0x0401 (s.pktHdr 0x0401 p) (entered 0x0401 p s) (badWord 14)))
  ∧ (∀ (p : Pkt) (u v : State) (s : State), accepted 0x0402 p s = true → p.b 10 0 16 + p.b 10 16 16 ≤ 65536 →
      u = (entered 0x0402 p s).setF (CLR_C_CFG__WSPACE p.idx) (p.b 0 0 2) →
      (v = if p.b 0 0 2 = 3 then (List.range 9).foldl (fun s k => s.wn (CLR_C_WS p.idx k) (p.w (1 + k))) u else u) →
      exec (.clrSetWorkspace p) s = .next (settled 0x0402 (s.pktHdr 0x0402 p) (v.wn (CLR_C_LUMA_K p.idx) (p.w 10)) (ok)))
  ∧ (∀ (p : Pkt) (s : State), accepted 0x0402 p s = true → 65536 < p.b 10 0 16 + p.b 10 16 16 →
      exec (.clrSetWorkspace p) s = .next (settled 0x0402 (s.pktHdr 0x0402 p) (entered 0x0402 p s) (badWord 10)))
  ∧ (∀ (p : Pkt) (z : ZoneBlk) (s : State), accepted 0x0407 p s = true → s.refOk (p.ref 0) = true →
    (p.ref 0).len = 0 ∨ 90176 ≤ (p.ref 0).len → z = (s.cx p.idx).zone →
      exec (.clrGetZonestats p) s = .next (settled 0x0407 (s.pktHdr 0x0407 p) ((s.writeRef (p.ref 0) z.bytes).refUse (p.ref 0)) (ok [z.fid, z.commitId, z.flags, z.stripes])))
  ∧ (∀ (p : Pkt) (u v : State) (s : State), accepted 0x0403 p s = true → p.b 3 12 2 ≠ 3 → p.b 3 16 3 ≠ 0 →
    2 ≤ p.b 7 0 4 → p.b 7 0 4 ≤ 8 → (entered 0x0403 p s).mayOwn (Pkt.tapCtx p) (Pkt.tapEng p) = true →
      u = (((entered 0x0403 p s).setF (TAP_T_OWNER__CTX (Pkt.tapEng p)) (Pkt.tapCtx p)).wn (TAP_T_CROP0 (Pkt.tapEng p)) (p.w 0)).wn (TAP_T_CROP1 (Pkt.tapEng p)) (p.w 1) →
      v = ((u.wn (TAP_T_OUT (Pkt.tapEng p)) (p.w 2)).wn (TAP_T_FMT (Pkt.tapEng p)) (p.w 3)).wn (TAP_T_EXP (Pkt.tapEng p)) (p.w 4) →
      exec (.tapConfigure p) s = .next (settled 0x0403 (s.pktHdr 0x0403 p) (((v.wn (TAP_T_BUF_LO (Pkt.tapEng p)) (p.w 5)).wn (TAP_T_BUF_HI (Pkt.tapEng p)) (p.w 6)).wn (TAP_T_BUF_CFG (Pkt.tapEng p)) (p.w 7)) (ok)))
  ∧ (∀ (p : Pkt) (s : State), accepted 0x0403 p s = true → p.b 3 12 2 ≠ 3 → p.b 3 16 3 ≠ 0 → 2 ≤ p.b 7 0 4 →
    p.b 7 0 4 ≤ 8 → (entered 0x0403 p s).mayOwn (Pkt.tapCtx p) (Pkt.tapEng p) = false →
      exec (.tapConfigure p) s = .next (settled 0x0403 (s.pktHdr 0x0403 p) (entered 0x0403 p s) (refuse stNoResource 0x8005)))
  ∧ (∀ (p : Pkt) (bs : List Byte) (s : State), accepted 0x0404 p s = true →
    (entered 0x0404 p s).refOk (p.ref 4) = true → p.b 0 0 3 ≤ 4 →
    (entered 0x0404 p s).mayOwn (Pkt.tapCtx p) (Pkt.tapEng p) = true → 3 ≤ p.b 0 0 3 ∨ (Pkt.tapEng p) < 8 →
      ((p.ref 4).len = (match p.b 0 0 3 with | 0 => 24576 | 1 => 1647750 | 2 => 24576 | _ => 1024)) →
    (entered 0x0404 p s).bankHeld (Pkt.tapEng p) = false → (entered 0x0404 p s).readRef (p.ref 4) p.buf = some bs →
      p.b 0 0 3 < 3 ∨ phasesOk (halfWords bs) = true →
      exec (.tapLoadLut p) s = .next (settled 0x0404 (s.pktHdr 0x0404 p) ((((entered 0x0404 p s).setF (TAP_T_OWNER__CTX (Pkt.tapEng p)) (Pkt.tapCtx p)).modTp (Pkt.tapEng p) (fun q => match p.b 0 0 3 with
        | 0 => { q with shaper := some (halfWords bs) }
        | 1 => { q with lut3 := some (halfWords bs) }
        | 2 => { q with outLut := some (halfWords bs) }
        | 3 => { q with hScale := some (halfWords bs) }
        | _ => { q with vScale := some (halfWords bs) })).refUse (p.ref 4)) (ok)))
  ∧ (∀ (p : Pkt) (s : State), accepted 0x0405 p s = true →
      (entered 0x0405 p s).mayOwn (Pkt.tapCtx p) (Pkt.tapEng p) = true →
      exec (.tapEnable p) s = .next (settled 0x0405 (s.pktHdr 0x0405 p) (((entered 0x0405 p s).setF (TAP_T_OWNER__CTX (Pkt.tapEng p)) (Pkt.tapCtx p)).modTp (Pkt.tapEng p) (fun q => { q with enable := true })) (ok)))
  ∧ (∀ (p : Pkt) (s : State), accepted 0x0405 p s = true →
      (entered 0x0405 p s).mayOwn (Pkt.tapCtx p) (Pkt.tapEng p) = false →
      exec (.tapEnable p) s = .next (settled 0x0405 (s.pktHdr 0x0405 p) (entered 0x0405 p s) (refuse stNoResource 0x8005)))
  ∧ (∀ (p : Pkt) (s : State), accepted 0x0406 p s = true →
      exec (.tapDisable p) s = .next (settled 0x0406 (s.pktHdr 0x0406 p) (if (entered 0x0406 p s).f (TAP_T_OWNER__CTX (Pkt.tapEng p)) = (Pkt.tapCtx p) then (entered 0x0406 p s).modTp (Pkt.tapEng p) (fun q => { q with enable := false }) else (entered 0x0406 p s)) (ok)))
  ∧ (∀ (tap : Fin 10) (v : W32) (s : State), s.shut 0 = false →
      exec (.tapHoldSet tap v) s = .next (if s.f (TAP_T_OWNER__CTX tap.val) = 7 then s.raise (TAP_T_STAT__CFG_ERR tap.val)
      else s.setF (TAP_T_HOLD__HOLD tap.val) (s.f (TAP_T_HOLD__HOLD tap.val) ||| v.toNat % 256)))

/-- Accepted for contexts that all capture, with a free slot, TAKE_OPEN opens a take in the lowest free slot from the
start its words give, marks it a REC take where asked, refreshes the tallies and answers the take's number, its slot
and the four first FIDs, ADJUSTED where a first frame had to move. With no context it is BAD_PARAM word 0 and with a
context that does not capture STATE 0x8005, nothing changed. The others bring the vault into use first. TAKE_CLOSE
closes the take of that number, refreshes the tallies and answers its last FIDs, or is BAD_PARAM 0x8009 where no take
has it. VLT_PIN of an ordered range below 2^20 frames fills the lowest free pin, from the oldest frame held where the
range starts before it, and answers the pin and the first FID, ADJUSTED where it moved. VLT_UNPIN frees a pin that is
set or a closed take, and is BAD_PARAM 0x8009 for a take number that no take has. VLT_QUERY_FRAME of a frame in the
index answers its FID, generation, address, size, flags and lowest take number; asked for a FID the index lacks it is
STATE 0x8008 with the oldest FID. -/
def Obligations.Takes : Prop :=
  (∀ (p : Pkt) (i : Nat) (st : TakeStart) (r : State × Option Nat) (u : State) (es : List TakeCtx) (res : List Nat) (s : State),
    accepted 0x0501 p s = true → p.b 0 0 4 ≠ 0 →
      (List.range 4).any (fun c => bitAt (p.b 0 0 4) c && !s.capturing c) = false →
      s.freeSlot (List.range 64) = some i →
      (st = (match p.b 0 8 2 with | 0 => TakeStart.next | 1 => .fid [p.w 4, p.w 5, p.w 6, p.w 7] | 2 => .time (p.w 1) (p.w 2) | _ => .preroll [p.w 4, p.w 5, p.w 6, p.w 7])) →
    r = s.openTake i (p.b 0 0 4) st (p.t 0 12) → u = r.1.tallies →
      (es = (match u.vlt.takes.toList.getD i none with | some t => t.ctx.toList | none => [])) →
      res = [u.vlt.takeNo, i] ++ (List.range 4).map (fun c => (es.getD c {}).first) →
      exec (.takeOpen p) s = .next (settled 0x0501 (s.pktHdr 0x0501 p) (u) (match r.2 with | none => ok res | some c => ⟨stAdj, if p.b 0 8 2 = 2 then 1 else 4 + c, res⟩)))
  ∧ (∀ (p : Pkt) (s : State), accepted 0x0501 p s = true → p.b 0 0 4 = 0 →
      exec (.takeOpen p) s = .next (settled 0x0501 (s.pktHdr 0x0501 p) s (badWord 0)))
  ∧ (∀ (p : Pkt) (s : State), accepted 0x0501 p s = true → p.b 0 0 4 ≠ 0 →
      (List.range 4).any (fun c => bitAt (p.b 0 0 4) c && !s.capturing c) = true →
      exec (.takeOpen p) s = .next (settled 0x0501 (s.pktHdr 0x0501 p) s (refuse stState 0x8005)))
  ∧ (∀ (p : Pkt) (i : Nat) (u : State) (es : List TakeCtx) (s : State), accepted 0x0502 p s = true →
    s.vaultUse.takeSlot (p.w 0) = some i → u = (s.vaultUse.closeTake i).tallies →
      (es = (match u.vlt.takes.toList.getD i none with | some t => t.ctx.toList | none => [])) →
      exec (.takeClose p) s = .next (settled 0x0502 (s.pktHdr 0x0502 p) (u) (ok ((List.range 4).map (fun c => (es.getD c {}).last)))))
  ∧ (∀ (p : Pkt) (s : State), accepted 0x0502 p s = true → s.vaultUse.takeSlot (p.w 0) = none →
      exec (.takeClose p) s = .next (settled 0x0502 (s.pktHdr 0x0502 p) (s.vaultUse) (refuse stBadParam 0x8009)))
  ∧ (∀ (p : Pkt) (u : State) (i got : Nat) (s : State), accepted 0x0503 p s = true → serialLt (p.w 1) (p.w 0) = false →
    serialAge (p.w 1) (p.w 0) < 0x100000 → u = s.vaultUse →
      (List.range 64).find? (fun i => (u.vlt.pins.toList.getD i none).isNone) = some i →
      (got = (if serialLt (p.w 0) ((u.oldestFid p.idx).getD (p.w 0)) then (u.oldestFid p.idx).getD (p.w 0) else p.w 0)) →
      exec (.vltPin p) s = .next (settled 0x0503 (s.pktHdr 0x0503 p) (u.modVlt (fun q => { q with pins := q.pins.setIfInBounds i (some ⟨p.idx, got, p.w 1, p.t 2 0⟩) })) (⟨if got = p.w 0 then stOk else stAdj, 0, [i, got]⟩)))
  ∧ (∀ (p : Pkt) (s : State), accepted 0x0504 p s = true → p.t 0 0 = false →
      (s.vaultUse.vlt.pins.toList.getD (p.w 1) none).isSome = true →
      exec (.vltUnpin p) s = .next (settled 0x0504 (s.pktHdr 0x0504 p) (s.vaultUse.modVlt (fun q => { q with pins := q.pins.setIfInBounds (p.w 1) none })) (ok)))
  ∧ (∀ (p : Pkt) (i : Nat) (t : Take) (s : State), accepted 0x0504 p s = true → p.t 0 0 = true →
    s.vaultUse.takeSlot (p.w 1) = some i → s.vaultUse.vlt.takes.toList.getD i none = some t → t.closed = true →
      exec (.vltUnpin p) s = .next (settled 0x0504 (s.pktHdr 0x0504 p) (s.vaultUse.modVlt (fun q => { q with takes := q.takes.setIfInBounds i none })) (ok)))
  ∧ (∀ (p : Pkt) (s : State), accepted 0x0504 p s = true → p.t 0 0 = true → s.vaultUse.takeSlot (p.w 1) = none →
      exec (.vltUnpin p) s = .next (settled 0x0504 (s.pktHdr 0x0504 p) (s.vaultUse) (refuse stBadParam 0x8009)))
  ∧ (∀ (p : Pkt) (u : State) (f : Nat) (e : IdxEntry) (no : Nat) (s : State), accepted 0x0505 p s = true →
      u = s.vaultUse →
      p.b 1 0 2 = 0 ∧ f = p.w 0 ∨ p.b 1 0 2 = 1 ∧ u.oldestFid p.idx = some f ∨ p.b 1 0 2 = 2 ∧ f = u.rn (VLT_C_NEWEST_FID p.idx) →
    e = u.idx p.idx f → e.valid = true → e.fid = f →
      (no = (match (u.takesUsed.filter (fun t => t.2.holds p.idx f)).map (fun t => t.2.no) with | [] => 0 | a :: t => t.foldl min a)) →
      exec (.vltQueryFrame p) s = .next (settled 0x0505 (s.pktHdr 0x0505 p) (u) (ok [f, e.gen, e.vsa, e.sectors, b2n e.valid + 2 * b2n e.guest + 4 * b2n e.truncated + 8 * b2n e.processed
      + 16 * b2n (u.pinned p.idx f), no])))
  ∧ (∀ (p : Pkt) (u : State) (s : State), accepted 0x0505 p s = true → p.b 1 0 2 = 0 → u = s.vaultUse →
      (u.idx p.idx (p.w 0)).valid = false ∨ (u.idx p.idx (p.w 0)).fid ≠ p.w 0 →
      exec (.vltQueryFrame p) s = .next (settled 0x0505 (s.pktHdr 0x0505 p) (u) (refuse stState 0x8008 [(u.oldestFid p.idx).getD 0])))

/-- Accepted with times and functions in range, REC_CONFIG stores the REC settings, moves the fingerprint on and
refreshes the tallies. Out of the safe state, REC_PRESS of an input that acts on REC, with REC enabled, sets its
level, opens a REC take when none is open, and closes the open one unless HOLD is set. REC_RELEASE of such an input
with HOLD set clears its level and closes the open REC take. UB_MARK of an input with the mark function sets its level
and logs a mark for each named context with its newest FID and VLT_REC_TAKE. In safe state these inputs do nothing.
REC_FAIL_FLASH_END ends the flash and refreshes the tallies. -/
def Obligations.RecInputs : Prop :=
  (∀ (p : Pkt) (r : RecCfg) (s : State), accepted 0x050A p s = true → 1 ≤ p.b 0 8 6 → p.b 0 8 6 ≤ 50 →
    p.b 5 0 4 ≤ 2 → p.b 5 4 4 ≤ 2 → p.b 6 0 4 ≤ 4 → p.b 6 4 4 ≤ 4 →
      r = { en := p.t 0 16, hold := p.t 0 4, debounceMs := p.b 0 8 6, ctxs := p.b 0 0 4, preroll := [p.b 1 0 16, p.b 2 0 16, p.b 3 0 16, p.b 4 0 16], ub := [p.b 5 0 4, p.b 5 4 4], tally := [p.b 6 0 4, p.b 6 4 4] } →
      exec (.recConfig p) s = .next (settled 0x050A (s.pktHdr 0x050A p) ((((entered 0x050A p s).modVlt (fun q => { q with recCfg := r })).commitSince (entered 0x050A p s)).tallies) (ok)))
  ∧ (∀ (src : Fin 3) (u s : State), s.dev.safe = false → u = s.setLevel src.val true → u.vlt.recCfg.en = true →
      u.recInput src.val = true →
      exec (.recPress src) s = .next (match u.recTake with
        | none => u.recOpenTake
        | some (i, _) => if u.vlt.recCfg.hold then u else u.recCloseTake i))
  ∧ (∀ (src : Fin 3) (i : Nat) (k : Take) (u s : State), s.dev.safe = false → u = s.setLevel src.val false →
    u.vlt.recCfg.en = true → u.recInput src.val = true → u.vlt.recCfg.hold = true → u.recTake = some (i, k) →
      exec (.recRelease src) s = .next (u.recCloseTake i))
  ∧ (∀ (ub : Fin 2) (u s : State), s.dev.safe = false → u = s.setLevel (ub.val + 1) true →
      u.vlt.recCfg.ub.getD ub.val 0 = 2 →
      exec (.ubMark ub) s = .next (u.logMany .vlt (((List.range 4).filter (fun c => bitAt u.vlt.recCfg.ctxs c)).map (fun c =>
        (evRecMark, ctxTarget c, u.rn (VLT_C_NEWEST_FID c), u.rn VLT_REC_TAKE)))))
  ∧ (∀ (src : Fin 3) (ub : Fin 2) (s : State), s.dev.safe = true →
      exec (.recPress src) s = .next s ∧ exec (.recRelease src) s = .next s ∧ exec (.ubMark ub) s = .next s)
  ∧ (∀ (s : State), exec .recFailFlashEnd s = .next (s.modVlt (fun q => { q with flash := false })).tallies)

/-- On a pair that may fetch (State.vqCanFetch: enabled, the device ready, no fetch error, room in its completion
queue, no reset under way, a slot to fetch) and whose turn it is (State.vqPassed: no pair that may fetch stands before
it in the round), the slot is read (State.vqRead: in BAR2 from the bytes there, else as supplied). The row of the
opcode in the slot moves the head on, numbers the command, appends it to the pair's outstanding commands, notes the
pair served and, the checks of R226 to R228 passed, hands bulk commands to admission and starts the command if it may,
then posts what can be posted. A slot whose opcode Table 11-2 does not name, refused for that, finishes INVALID_OPCODE
with COUNT 0 in any of the rows. A failed read sets FETCH_ERR and reports the DMA error. A pair that may not fetch, or
whose turn it is not, leaves the state unchanged. -/
def Obligations.VaultFetch : Prop :=
  (∀ (pair : Fin 16) (slot : VqSlot) (bs : List Byte) (c : VqCmd) (u s : State), s.vqCanFetch pair = true →
    s.vqPassed pair = false → s.vqRead pair slot = .entry bs → ((padBytes 64 bs).getD 0 0).toNat = 0 →
      (c = { bytes := padBytes 64 bs, slot := s.f (VQ_SQ_HEAD__HEAD pair) % (s.vqHeadNext pair).vqN pair, sqHead := (s.f (VQ_SQ_HEAD__HEAD pair) + 1) % (2 * (s.vqHeadNext pair).vqN pair), seq := (s.vqHeadNext pair).vq.seq, db := (match (s.vp pair).dbs.head? with | some d => d.2 | none => s.vq.db), tagged := true }) →
      (s.vqHeadNext pair).vqCheck pair { c with tagged := false } = none →
      u = ((s.vqHeadNext pair).modVq (fun q => { q with seq := q.seq + 1, last := pair })).modVp pair (fun q => { q with cmds := q.cmds ++ [c] }) →
      exec (.vqNop pair slot) s = .next (u.vqAdmit.vqTry pair c {}).vqSettle.vqAdmit)
  ∧ (∀ (pair : Fin 16) (slot : VqSlot) (bs : List Byte) (c : VqCmd) (u s : State), s.vqCanFetch pair = true →
    s.vqPassed pair = false → s.vqRead pair slot = .entry bs → ((padBytes 64 bs).getD 0 0).toNat = 1 →
      (c = { bytes := padBytes 64 bs, slot := s.f (VQ_SQ_HEAD__HEAD pair) % (s.vqHeadNext pair).vqN pair, sqHead := (s.f (VQ_SQ_HEAD__HEAD pair) + 1) % (2 * (s.vqHeadNext pair).vqN pair), seq := (s.vqHeadNext pair).vq.seq, db := (match (s.vp pair).dbs.head? with | some d => d.2 | none => s.vq.db), tagged := true }) →
      (s.vqHeadNext pair).vqCheck pair { c with tagged := false } = none →
      u = ((s.vqHeadNext pair).modVq (fun q => { q with seq := q.seq + 1, last := pair })).modVp pair (fun q => { q with cmds := q.cmds ++ [c] }) →
      exec (.vqRead pair slot) s = .next (u.vqAdmit.vqTry pair c {}).vqSettle.vqAdmit)
  ∧ (∀ (pair : Fin 16) (slot : VqSlot) (bs : List Byte) (c : VqCmd) (u s : State), s.vqCanFetch pair = true →
    s.vqPassed pair = false → s.vqRead pair slot = .entry bs → ((padBytes 64 bs).getD 0 0).toNat = 2 →
      (c = { bytes := padBytes 64 bs, slot := s.f (VQ_SQ_HEAD__HEAD pair) % (s.vqHeadNext pair).vqN pair, sqHead := (s.f (VQ_SQ_HEAD__HEAD pair) + 1) % (2 * (s.vqHeadNext pair).vqN pair), seq := (s.vqHeadNext pair).vq.seq, db := (match (s.vp pair).dbs.head? with | some d => d.2 | none => s.vq.db), tagged := true }) →
      (s.vqHeadNext pair).vqCheck pair { c with tagged := false } = none →
      u = ((s.vqHeadNext pair).modVq (fun q => { q with seq := q.seq + 1, last := pair })).modVp pair (fun q => { q with cmds := q.cmds ++ [c] }) →
      exec (.vqWrite pair slot) s = .next (u.vqAdmit.vqTry pair c {}).vqSettle.vqAdmit)
  ∧ (∀ (pair : Fin 16) (slot : VqSlot) (bs : List Byte) (c : VqCmd) (u s : State), s.vqCanFetch pair = true →
    s.vqPassed pair = false → s.vqRead pair slot = .entry bs → ((padBytes 64 bs).getD 0 0).toNat = 3 →
      (c = { bytes := padBytes 64 bs, slot := s.f (VQ_SQ_HEAD__HEAD pair) % (s.vqHeadNext pair).vqN pair, sqHead := (s.f (VQ_SQ_HEAD__HEAD pair) + 1) % (2 * (s.vqHeadNext pair).vqN pair), seq := (s.vqHeadNext pair).vq.seq, db := (match (s.vp pair).dbs.head? with | some d => d.2 | none => s.vq.db), tagged := true }) →
      (s.vqHeadNext pair).vqCheck pair { c with tagged := false } = none →
      u = ((s.vqHeadNext pair).modVq (fun q => { q with seq := q.seq + 1, last := pair })).modVp pair (fun q => { q with cmds := q.cmds ++ [c] }) →
      exec (.vqCopy pair slot) s = .next (u.vqAdmit.vqTry pair c {}).vqSettle.vqAdmit)
  ∧ (∀ (pair : Fin 16) (slot : VqSlot) (bs : List Byte) (c : VqCmd) (u s : State), s.vqCanFetch pair = true →
    s.vqPassed pair = false → s.vqRead pair slot = .entry bs → ((padBytes 64 bs).getD 0 0).toNat = 4 →
      (c = { bytes := padBytes 64 bs, slot := s.f (VQ_SQ_HEAD__HEAD pair) % (s.vqHeadNext pair).vqN pair, sqHead := (s.f (VQ_SQ_HEAD__HEAD pair) + 1) % (2 * (s.vqHeadNext pair).vqN pair), seq := (s.vqHeadNext pair).vq.seq, db := (match (s.vp pair).dbs.head? with | some d => d.2 | none => s.vq.db), tagged := true }) →
      (s.vqHeadNext pair).vqCheck pair { c with tagged := false } = none →
      u = ((s.vqHeadNext pair).modVq (fun q => { q with seq := q.seq + 1, last := pair })).modVp pair (fun q => { q with cmds := q.cmds ++ [c] }) →
      exec (.vqReadFrame pair slot) s = .next (u.vqAdmit.vqTry pair c {}).vqSettle.vqAdmit)
  ∧ (∀ (pair : Fin 16) (slot : VqSlot) (bs : List Byte) (c : VqCmd) (u s : State), s.vqCanFetch pair = true →
    s.vqPassed pair = false → s.vqRead pair slot = .entry bs → ((padBytes 64 bs).getD 0 0).toNat = 8 →
      (c = { bytes := padBytes 64 bs, slot := s.f (VQ_SQ_HEAD__HEAD pair) % (s.vqHeadNext pair).vqN pair, sqHead := (s.f (VQ_SQ_HEAD__HEAD pair) + 1) % (2 * (s.vqHeadNext pair).vqN pair), seq := (s.vqHeadNext pair).vq.seq, db := (match (s.vp pair).dbs.head? with | some d => d.2 | none => s.vq.db), tagged := true }) →
      (s.vqHeadNext pair).vqCheck pair { c with tagged := false } = none →
      u = ((s.vqHeadNext pair).modVq (fun q => { q with seq := q.seq + 1, last := pair })).modVp pair (fun q => { q with cmds := q.cmds ++ [c] }) →
      exec (.vqFlush pair slot) s = .next (u.vqAdmit.vqTry pair c {}).vqSettle.vqAdmit)
  ∧ (∀ (pair : Fin 16) (slot : VqSlot) (bs : List Byte) (target : AbortAt) (c : VqCmd) (u s : State),
    s.vqCanFetch pair = true → s.vqPassed pair = false → s.vqRead pair slot = .entry bs →
      ((padBytes 64 bs).getD 0 0).toNat = 9 →
      (c = { bytes := padBytes 64 bs, slot := s.f (VQ_SQ_HEAD__HEAD pair) % (s.vqHeadNext pair).vqN pair, sqHead := (s.f (VQ_SQ_HEAD__HEAD pair) + 1) % (2 * (s.vqHeadNext pair).vqN pair), seq := (s.vqHeadNext pair).vq.seq, db := (match (s.vp pair).dbs.head? with | some d => d.2 | none => s.vq.db), tagged := true }) →
      (s.vqHeadNext pair).vqCheck pair { c with tagged := false } = none →
      u = ((s.vqHeadNext pair).modVq (fun q => { q with seq := q.seq + 1, last := pair })).modVp pair (fun q => { q with cmds := q.cmds ++ [c] }) →
      exec (.vqAbort pair slot target) s = .next (u.vqAdmit.vqTry pair c target).vqSettle.vqAdmit)
  ∧ (∀ (pair : Fin 16) (slot : VqSlot) (bs : List Byte) (target : AbortAt) (c : VqCmd) (u s : State),
    s.vqCanFetch pair = true → s.vqPassed pair = false → s.vqRead pair slot = .entry bs →
      [0, 1, 2, 3, 4, 8, 9].contains ((padBytes 64 bs).getD 0 0).toNat = false →
      (c = { bytes := padBytes 64 bs, slot := s.f (VQ_SQ_HEAD__HEAD pair) % (s.vqHeadNext pair).vqN pair, sqHead := (s.f (VQ_SQ_HEAD__HEAD pair) + 1) % (2 * (s.vqHeadNext pair).vqN pair), seq := (s.vqHeadNext pair).vq.seq, db := (match (s.vp pair).dbs.head? with | some d => d.2 | none => s.vq.db), tagged := true }) →
      (s.vqHeadNext pair).vqCheck pair { c with tagged := false } = some (vqInvalidOpcode, 0) →
      u = ((s.vqHeadNext pair).modVq (fun q => { q with seq := q.seq + 1, last := pair })).modVp pair (fun q => { q with cmds := q.cmds ++ [c] }) →
      let t := (u.vqFinish pair c.seq vqInvalidOpcode 0 0).vqSettle
      exec (.vqNop pair slot) s = .next t
      ∧ exec (.vqRead pair slot) s = .next t
      ∧ exec (.vqWrite pair slot) s = .next t
      ∧ exec (.vqCopy pair slot) s = .next t
      ∧ exec (.vqReadFrame pair slot) s = .next t
      ∧ exec (.vqFlush pair slot) s = .next t
      ∧ exec (.vqAbort pair slot target) s = .next t)
  ∧ (∀ (pair : Fin 16) (slot : VqSlot) (addr : Nat) (poisoned : Bool) (target : AbortAt) (s : State),
    s.vqCanFetch pair = true → s.vqPassed pair = false → s.vqRead pair slot = .failed addr poisoned →
      let t := ((s.modVq (fun q => { q with last := pair })).raise (VQ_Q_STAT__FETCH_ERR pair)).dmaError .vq pair addr poisoned
      exec (.vqNop pair slot) s = .next t
      ∧ exec (.vqRead pair slot) s = .next t
      ∧ exec (.vqWrite pair slot) s = .next t
      ∧ exec (.vqCopy pair slot) s = .next t
      ∧ exec (.vqReadFrame pair slot) s = .next t
      ∧ exec (.vqFlush pair slot) s = .next t
      ∧ exec (.vqAbort pair slot target) s = .next t)
  ∧ (∀ (pair : Fin 16) (slot : VqSlot) (target : AbortAt) (s : State),
      s.vqCanFetch pair = false ∨ s.vqPassed pair = true →
      exec (.vqNop pair slot) s = .next s
      ∧ exec (.vqRead pair slot) s = .next s
      ∧ exec (.vqWrite pair slot) s = .next s
      ∧ exec (.vqCopy pair slot) s = .next s
      ∧ exec (.vqReadFrame pair slot) s = .next s
      ∧ exec (.vqFlush pair slot) s = .next s
      ∧ exec (.vqAbort pair slot target) s = .next s)

/-- VQ_TRANSFER_DONE on a started transfer whose sectors are sound, whose frame's GEN still stands and whose host data
was readable moves all its sectors (READ and READ_FRAME to the host, WRITE and COPY to the vault) and finishes with
SUCCESS, or NOT_LANDED where a missing stripe cut it short, and the count of its sectors; a failed host read finishes
a WRITE with DMA_ERROR. A WRITE changes no byte of the working region outside its sectors. Without such a transfer
nothing changes. VQ_CMD_START starts the oldest unstarted command of the pair if it may. VQ_TMO_EXPIRY, the completion
queue not full, ends a started command with TIMEOUT and the sectors moved; VQ_DEFER_EXPIRY, with a deferral limit set,
a queued one that is not admitted with THERMAL. VQ_CPL_POST posts what has room. -/
def Obligations.VaultTransfers : Prop :=
  (∀ (pair : Fin 16) (tag : BitVec 13) (data : HostRead) (moved : Nat) (c : VqCmd) (s : State),
    s.vqRunning pair tag.toNat = some c → (c.opc = 2 → ∃ bs, data = .bytes bs) → (c.opc = 4 → s.genStands c = true) →
      (c.opc ≠ 2 → c.source.length ≤ s.soundSectors c.source) →
      exec (.vqTransferDone pair tag data moved) s =
        .next (((s.vqMove c c.total data).vqFinish pair c.seq (if c.cut then vqNotLanded else vqSuccess) c.total (if c.opc = 4 then c.gen else 0)).vqSettle.vqAdmit))
  ∧ (∀ (pair : Fin 16) (tag : BitVec 13) (bs : List Byte) (moved a : Nat) (c : VqCmd) (s t : State),
    s.vqRunning pair tag.toNat = some c → c.opc = 2 → Machine.Inv s →
      exec (.vqTransferDone pair tag (.bytes bs) moved) s = .next t →
    (a < 4096 * c.vsa ∨ 4096 * c.vsa + 4096 * c.nsect ≤ a) → t.memB a = s.memB a)
  ∧ (∀ (pair : Fin 16) (tag : BitVec 13) (addr : Nat) (poisoned : Bool) (moved : Nat) (c : VqCmd) (s : State),
    s.vqRunning pair tag.toNat = some c → c.opc = 2 →
      exec (.vqTransferDone pair tag (.failed addr poisoned) moved) s =
        .next (((s.dmaError .vq pair addr poisoned).vqFinish pair c.seq vqDmaError 0 0).vqSettle.vqAdmit))
  ∧ (∀ (pair : Fin 16) (tag : BitVec 13) (data : HostRead) (moved : Nat) (s : State),
    s.vqRunning pair tag.toNat = none → exec (.vqTransferDone pair tag data moved) s = .next s)
  ∧ (∀ (pair : Fin 16) (target : AbortAt) (c : VqCmd) (s : State),
      (s.vp pair).cmds.find? (fun c => !c.started && c.fin.isNone) = some c →
      exec (.vqCmdStart pair target) s = .next ((s.vqTry pair c target).vqSettle.vqAdmit))
  ∧ (∀ (pair : Fin 16) (tag : BitVec 13) (moved : Nat) (data : HostRead) (c : VqCmd) (s : State),
      (s.vp pair).cmds.find? (fun c => c.tagged && c.tag == tag.toNat && c.started && c.fin.isNone && !s.cqFull pair) = some c →
      exec (.vqTmoExpiry pair tag moved data) s = .next ((s.vqEnd pair c vqTimeout moved data).vqSettle.vqAdmit))
  ∧ (∀ (pair : Fin 16) (tag : BitVec 13) (c : VqCmd) (s : State), s.f VQ_CTRL__DEFER_MS ≠ 0 →
      (s.vp pair).cmds.find? (fun c => c.tagged && c.tag == tag.toNat && c.queued && !c.started && c.fin.isNone) = some c →
      s.isAdmitted (.vq pair c.tag) = false →
      exec (.vqDeferExpiry pair tag) s =
        .next (((s.deferB (.vq pair c.tag)).vqFinish pair c.seq vqThermal 0 0).vqSettle.vqAdmit))
  ∧ (∀ (pair : Fin 16) (s : State), exec (.vqCplPost pair) s = .next (s.vqSettle.vqResetDone pair).vqAdmit)

/-- Accepted for a pair that is off, with a size of 16 to 4,096 slots, 4 KiB-aligned bases, a tag range of whole
sixty-fours that no other pair uses and rings that fit their memory, VQ_CREATE_QUEUE writes the pair's registers,
empty and enabled. VQ_DELETE_QUEUE of a pair with nothing outstanding frees it; VQ_RESET_QUEUE of an enabled pair ends
all its commands, by the slots read from host memory, or without them and with the DMA error where they had to be read
and could not be, posts what has room and ends when all is posted (State.vqResetDone); both refuse a pair that is off
with STATE 0x8024. A tail within range on a pair not in reset is counted as a doorbell and, where it is new, moves the
tail; a head within range returns slots; either out of range sets DB_RANGE and is ignored; on a pair that is off both
change nothing. VQ_CQ_STALL on a full completion queue sets CQ_STALL and logs it, and else changes nothing.
VLT_SET_VPSTATE of 0, or of 3 with no context started and nothing outstanding, with AUTO_MAX below 3, sets VP and
AUTO_MAX, in 3 reclaims the frames that nothing pins, and answers their number. -/
def Obligations.VaultQueues : Prop :=
  (∀ (p : Pkt) (u v w : State) (s : State), accepted 0x0506 p s = true → (entered 0x0506 p s).vqOn p.idx = false →
    4 ≤ p.b 0 0 4 → p.b 0 0 4 ≤ 12 → p.q 4 % 4096 = 0 → p.q 6 % 4096 = 0 → 64 ≤ p.b 2 0 14 → p.b 2 0 14 % 64 = 0 →
      p.b 1 0 13 + p.b 2 0 14 ≤ 8192 →
      (List.range 16).any (fun m => (entered 0x0506 p s).vqOn m && decide ((entered 0x0506 p s).f (VQ_Q_TAGS__TAG_BASE m) < p.b 1 0 13 + p.b 2 0 14) && decide (p.b 1 0 13 < (entered 0x0506 p s).f (VQ_Q_TAGS__TAG_BASE m) + (entered 0x0506 p s).f (VQ_Q_TAGS__TAG_COUNT m))) = false →
      (bar2Fits (p.t 0 4) (p.q 4) (64 * 2 ^ p.b 0 0 4) && bar2Fits (p.t 0 5) (p.q 6) (16 * 2 ^ p.b 0 0 4)) = true →
      u = ((((entered 0x0506 p s).wn (VQ_SQ_BASE_LO p.idx) (p.w 4)).wn (VQ_SQ_BASE_HI p.idx) (p.w 5)).wn (VQ_CQ_BASE_LO p.idx) (p.w 6)).wn (VQ_CQ_BASE_HI p.idx) (p.w 7) →
      v = (u.wn (VQ_SQ_CFG p.idx) (p.b 0 0 4 + 32 * b2n (p.t 0 4) + 64 * b2n (p.t 0 5) + 128)).wn (VQ_Q_TAGS p.idx) (p.b 1 0 13 + 0x10000 * p.b 2 0 14) →
      w = ((v.wn (VQ_SQ_HEAD p.idx) 0).wn (VQ_CQ_HEAD p.idx) 0).wn (VQ_CQ_TAIL p.idx) 0 →
      exec (.vqCreateQueue p) s = .next (settled 0x0506 (s.pktHdr 0x0506 p) ((w.setBit VQ_IRQ__EN p.idx (p.t 0 8)).modVp p.idx (fun _ => {})) (ok)))
  ∧ (∀ (p : Pkt) (s : State), accepted 0x0507 p s = true → (entered 0x0507 p s).vqOn p.idx = true →
      (entered 0x0507 p s).vqOut p.idx = 0 →
      exec (.vqDeleteQueue p) s = .next (settled 0x0507 (s.pktHdr 0x0507 p) ((entered 0x0507 p s).vqFree p.idx) (ok)))
  ∧ (∀ (p : Pkt) (s : State), accepted 0x0507 p s = true → (entered 0x0507 p s).vqOn p.idx = false →
      exec (.vqDeleteQueue p) s = .next (settled 0x0507 (s.pktHdr 0x0507 p) (entered 0x0507 p s) (refuse stState 0x8024)))
  ∧ (∀ (p : Pkt) (bs : List Byte) (u : State) (s : State), accepted 0x0508 p s = true →
    (entered 0x0508 p s).vqOn p.idx = true → p.buf = .bytes bs →
      u = (entered 0x0508 p s).modVp p.idx (fun q => { q with resetting := some (s.pktHdr 0x0508 p, (entered 0x0508 p s).vqOut p.idx) }) →
      exec (.vqResetQueue p) s = .next (((u.vqEndAll p.idx (some bs)).vqSettle.vqResetDone p.idx).vqAdmit))
  ∧ (∀ (p : Pkt) (addr : Nat) (poisoned : Bool) (u v : State) (s : State), accepted 0x0508 p s = true →
    (entered 0x0508 p s).vqOn p.idx = true → p.buf = .failed addr poisoned →
      u = (entered 0x0508 p s).modVp p.idx (fun q => { q with resetting := some (s.pktHdr 0x0508 p, (entered 0x0508 p s).vqOut p.idx) }) →
      (v = if (!u.on (VQ_SQ_CFG__SQLOC p.idx) && !(u.vqSlots p.idx).isEmpty) = true then u.dmaError .vq p.idx addr poisoned else u) →
      exec (.vqResetQueue p) s = .next (((v.vqEndAll p.idx none).vqSettle.vqResetDone p.idx).vqAdmit))
  ∧ (∀ (p : Pkt) (s : State), accepted 0x0508 p s = true → (entered 0x0508 p s).vqOn p.idx = false →
      exec (.vqResetQueue p) s = .next (settled 0x0508 (s.pktHdr 0x0508 p) (entered 0x0508 p s) (refuse stState 0x8024)))
  ∧ (∀ (pair : Fin 16) (v : W32) (m ahead : Nat) (u s : State), s.vqOn pair = true → (s.vp pair).resetting = none →
    m = 2 * s.vqN pair → v.toNat % 0x2000 < m → ahead = (v.toNat % 0x2000 + m - s.f (VQ_SQ_HEAD__HEAD pair) % m) % m →
    ahead ≤ s.vqN pair → s.vqUnfetched pair ≤ ahead → u = s.modVq (fun q => { q with db := q.db + 1 }) →
      exec (.vqSqDb pair v) s = .next (if ahead = s.vqUnfetched pair then u
        else u.modVp pair (fun q => { q with tail := v.toNat % 0x2000, dbs := q.dbs ++ [(v.toNat % 0x2000, u.vq.db)] })))
  ∧ (∀ (pair : Fin 16) (v : W32) (m ahead : Nat) (s : State), s.vqOn pair = true → (s.vp pair).resetting = none →
    m = 2 * s.vqN pair → ahead = (v.toNat % 0x2000 + m - s.f (VQ_SQ_HEAD__HEAD pair) % m) % m →
      m ≤ v.toNat % 0x2000 ∨ s.vqN pair < ahead ∨ ahead < s.vqUnfetched pair →
      exec (.vqSqDb pair v) s = .next (s.raise (VQ_Q_STAT__DB_RANGE pair)))
  ∧ (∀ (pair : Fin 16) (v : W32) (m : Nat) (s : State), s.vqOn pair = true → m = 2 * s.vqN pair →
    v.toNat % 0x2000 < m → (v.toNat % 0x2000 + m - s.f (VQ_CQ_HEAD__HEAD pair) % m) % m ≤ s.cqUsed pair →
      exec (.vqCqHead pair v) s = .next ((s.setF (VQ_CQ_HEAD__HEAD pair) (v.toNat % 0x2000)).vqRoom pair))
  ∧ (∀ (pair : Fin 16) (v : W32) (m : Nat) (s : State), s.vqOn pair = true → m = 2 * s.vqN pair →
      m ≤ v.toNat % 0x2000 ∨ s.cqUsed pair < (v.toNat % 0x2000 + m - s.f (VQ_CQ_HEAD__HEAD pair) % m) % m →
      exec (.vqCqHead pair v) s = .next (s.raise (VQ_Q_STAT__DB_RANGE pair)))
  ∧ (∀ (pair : Fin 16) (v : W32) (s : State), s.vqOn pair = false →
      exec (.vqSqDb pair v) s = .next s ∧ exec (.vqCqHead pair v) s = .next s)
  ∧ (∀ (pair : Fin 16) (s : State),
      exec (.vqCqStall pair) s = .next (if s.vqOn pair && s.cqFull pair then (s.raise (VQ_Q_STAT__CQ_STALL pair)).log .vq evVqCqStall (0x9000 + pair.val) pair.val else s))
  ∧ (∀ (p : Pkt) (gone : List Rec) (s : State), accepted 0x0509 p s = true → p.b 0 0 2 = 0 ∨ p.b 0 0 2 = 3 →
      p.b 1 0 2 ≠ 3 →
      (p.b 0 0 2 = 3 → ((List.range 6).any (fun c => decide (2 ≤ (entered 0x0509 p s).cst c)) || (List.range 16).any (fun n => (entered 0x0509 p s).vqOut n != 0)) = false) →
      (gone = if p.b 0 0 2 = 3 then (entered 0x0509 p s).vlt.recs.filter (fun r => !r.reclaimed && !(entered 0x0509 p s).pinned r.ctx r.fid) else []) →
      exec (.vltSetVpstate p) s = .next (settled 0x0509 (s.pktHdr 0x0509 p) (((gone.foldl State.reclaim (entered 0x0509 p s)).setF VQ_VPSTATE__VP (p.b 0 0 2)).setF VQ_VPSTATE__AUTO_MAX (p.b 1 0 2)) (ok [p.b 0 0 2, gone.length])))

/-- An accepted CDC_STREAM_CREATE of a stream that is FREE or STOPPED, whose parameters are in range, whose profile
fits the tap's packing, whose level, engine load, bit rate, pool buffers and rings hold and whose tap feeds fewer than
four streams, marks the lowest pool buffers that it needs, stores the parameters with the tap's geometry, makes the
stream STOPPED with empty rings and moves the fingerprint on. CDC_SET_RATE of rates that the level and the CPB allow
stores them, a changed MAX_BR or CPB of a RUNNING stream asking for an IRAP; CDC_SET_ROI stores rectangles within the
picture, both on a stream not FREE. CDC_FORCE_IRAP of a RUNNING stream asks for an IRAP and of any other is refused
STATE 0x8008; CDC_STREAMER_TEMPLATE of a PKT_MAX of 256 to 9,018 with no bytes set beyond its type's length stores the
template, its identification, offset and pace for the stream to take. Accepted for a STOPPED stream whose tap is
enabled in the live image, with no memory test of the pixel engines, CDC_STREAM_START makes the stream RUNNING with no
picture, no source waiting and its rate control started anew (a rate change still pending); on a RUNNING stream it
changes nothing and is answered OK; on a FREE or STOPPING one it is refused with STATE 0x8008. CDC_STREAM_STOP of a
RUNNING stream makes it STOPPING, drops the sources that wait, and STOPPED at once when no picture is in progress; of
a STOPPING stream it changes nothing. -/
def Obligations.EncodeStreams : Prop :=
  (∀ (p : Pkt) (t : TapCfg) (e : EncSt) (mine : List Nat) (need : Nat) (u v w : State) (s : State),
      accepted 0x0600 p s = true →
      t = (entered 0x0600 p s).tapFor ({ words := (List.range 16).map p.w, tgtBr := p.w 4, maxBr := p.w 5, cpb := p.w 6 } : EncSt).ctx (({ words := (List.range 16).map p.w, tgtBr := p.w 4, maxBr := p.w 5, cpb := p.w 6 } : EncSt).tap + 4) →
      e = { words := (List.range 16).map p.w, tgtBr := p.w 4, maxBr := p.w 5, cpb := p.w 6, ow := t.ow, oh := t.oh, pack := t.pack, tp := (entered 0x0600 p s).frameNsOf ({ words := (List.range 16).map p.w, tgtBr := p.w 4, maxBr := p.w 5, cpb := p.w 6 } : EncSt).ctx * t.decim } →
    e.badField = none → (entered 0x0600 p s).encState p.idx < 2 → e.profileOk = true → e.levelOk = true →
    (entered 0x0600 p s).encMpix (some p.idx) + (entered 0x0600 p s).decMpix + e.load ≤ 4500 → e.rateOk = true →
      mine = (List.range (entered 0x0600 p s).poolCount).filter (fun b => (entered 0x0600 p s).marks b == 0 || (entered 0x0600 p s).marks b == 2 ^ p.idx) →
    (need = (if e.irapPeriod = 1 then 0 else e.numRef + 1)) → need ≤ mine.length →
      e.placed (entered 0x0600 p s).wBytes = true →
      ((List.range 16).filter (fun k => k != p.idx && (entered 0x0600 p s).encState k != 0 && ((entered 0x0600 p s).es k).ctx == e.ctx && ((entered 0x0600 p s).es k).tap == e.tap)).length < 4 →
      u = ((mine.take need).foldl (fun s b => s.setMark b p.idx true) ((entered 0x0600 p s).clearMarks p.idx)).modEs p.idx (fun _ => e) →
      v = (u.wn (CDC_S_CFG p.idx) (p.w 0)).wn (CDC_S_STATE p.idx) 1 →
      w = ([CDC_S_DR_HEAD p.idx, CDC_S_DR_TAIL p.idx, CDC_S_DD_HEAD p.idx, CDC_S_DD_TAIL p.idx].foldl (fun s a => s.wn a 0) v).setDeg p.idx →
      exec (.cdcStreamCreate p) s = .next (settled 0x0600 (s.pktHdr 0x0600 p) (w.commitSince (entered 0x0600 p s)) (ok)))
  ∧ (∀ (p : Pkt) (e : EncSt) (u : State) (s : State), accepted 0x0603 p s = true →
      (entered 0x0603 p s).encState p.idx ≠ 0 →
    e = { (entered 0x0603 p s).es p.idx with tgtBr := p.w 0, maxBr := p.w 1, cpb := p.w 2 } → e.levelOk = true →
      e.rateOk = true →
      u = (entered 0x0603 p s).modEs p.idx (fun _ => { e with rateChange := ((entered 0x0603 p s).es p.idx).rateChange || decide (((entered 0x0603 p s).es p.idx).maxBr ≠ p.w 1 ∨ ((entered 0x0603 p s).es p.idx).cpb ≠ p.w 2) }) →
      exec (.cdcSetRate p) s = .next (settled 0x0603 (s.pktHdr 0x0603 p) (if (((entered 0x0603 p s).es p.idx).maxBr ≠ p.w 1 ∨ ((entered 0x0603 p s).es p.idx).cpb ≠ p.w 2) ∧ u.encState p.idx = 2 then u.raise (CDC_S_STATE__IRAP_PEND p.idx) else u) (ok)))
  ∧ (∀ (p : Pkt) (r : List (Nat × Nat × Nat × Nat × Int)) (s : State), accepted 0x0604 p s = true →
      (entered 0x0604 p s).encState p.idx ≠ 0 →
      r = ((List.range 16).filter (fun k => p.t 0 k)).map (fun k => (p.b (4 + 2 * k) 0 16, p.b (4 + 2 * k) 16 16, p.b (5 + 2 * k) 0 9, p.b (5 + 2 * k) 9 9, sext 8 (p.b (5 + 2 * k) 24 8))) →
      r.any (fun r => decide (((entered 0x0604 p s).es p.idx).ctuW < r.1 + r.2.2.1) || decide (((entered 0x0604 p s).es p.idx).rowsN < r.2.1 + r.2.2.2.1) || decide (r.2.2.2.2 < -51) || decide (51 < r.2.2.2.2)) = false →
      exec (.cdcSetRoi p) s = .next (settled 0x0604 (s.pktHdr 0x0604 p) ((entered 0x0604 p s).modEs p.idx (fun e => { e with roi := r })) (ok)))
  ∧ (∀ (p : Pkt) (s : State), accepted 0x0605 p s = true → s.encState p.idx = 2 →
      exec (.cdcForceIrap p) s = .next (settled 0x0605 (s.pktHdr 0x0605 p) (s.askIrap p.idx) (ok)))
  ∧ (∀ (p : Pkt) (s : State), accepted 0x0605 p s = true → s.encState p.idx ≠ 2 →
      exec (.cdcForceIrap p) s = .next (settled 0x0605 (s.pktHdr 0x0605 p) s (refuse stState 0x8008)))
  ∧ (∀ (p : Pkt) (bs : List Byte) (s : State), accepted 0x0608 p s = true → (entered 0x0608 p s).encState p.idx ≠ 0 →
    256 ≤ p.b 0 16 14 → p.b 0 16 14 ≤ 9018 → bs = (List.range 32).flatMap (fun k => leBytes 4 (p.w (4 + k))) →
      (bs.drop (tmplLen (p.b 0 0 2))).any (fun b => b != 0) = false →
      exec (.cdcStreamerTemplate p) s = .next (settled 0x0608 (s.pktHdr 0x0608 p) ((entered 0x0608 p s).modEs p.idx (fun e => { e with newTmpl := some (⟨p.b 0 0 2, p.b 0 16 14, bs.take (tmplLen (p.b 0 0 2))⟩, if p.t 1 16 then some (p.b 1 0 16) else none, p.w 2, p.w 3) })) (ok)))
  ∧ (∀ (p : Pkt) (u v : State) (s : State), accepted 0x0601 p s = true → (entered 0x0601 p s).encState p.idx = 1 →
    (entered 0x0601 p s).bist 2 = false → (entered 0x0601 p s).tapLive ((entered 0x0601 p s).es p.idx) = true →
      u = (entered 0x0601 p s).modEs p.idx (fun e => { e with first := true, irapReq := false, resume := false, slots := 0, lastIrap := 0, lastIdr := 0, v := 0, prev := none, prevOver := false, queue := [], pic := none }) →
      v = (u.setF (CDC_S_STATE__STATE p.idx) 2).setF (CDC_S_STATE__IRAP_PEND p.idx) 0 →
      exec (.cdcStreamStart p) s = .next (settled 0x0601 (s.pktHdr 0x0601 p) ((v.wn (CDC_S_CPB_V p.idx) 0).wn (CDC_S_TARGET p.idx) 0) (ok)))
  ∧ (∀ (p : Pkt) (s : State), accepted 0x0601 p s = true → (entered 0x0601 p s).encState p.idx = 2 →
      exec (.cdcStreamStart p) s = .next (settled 0x0601 (s.pktHdr 0x0601 p) (entered 0x0601 p s) (ok)))
  ∧ (∀ (p : Pkt) (s : State), accepted 0x0601 p s = true → (entered 0x0601 p s).encState p.idx ≠ 1 →
      (entered 0x0601 p s).encState p.idx ≠ 2 →
      exec (.cdcStreamStart p) s = .next (settled 0x0601 (s.pktHdr 0x0601 p) (entered 0x0601 p s) (refuse stState 0x8008)))
  ∧ (∀ (p : Pkt) (s : State), accepted 0x0602 p s = true → (entered 0x0602 p s).encState p.idx = 2 →
      exec (.cdcStreamStop p) s = .next (settled 0x0602 (s.pktHdr 0x0602 p) ((((entered 0x0602 p s).setF (CDC_S_STATE__STATE p.idx) 3).modEs p.idx (fun e => { e with queue := [] })).encStopped p.idx) (ok)))
  ∧ (∀ (p : Pkt) (s : State), accepted 0x0602 p s = true → (entered 0x0602 p s).encState p.idx = 3 →
      exec (.cdcStreamStop p) s = .next (settled 0x0602 (s.pktHdr 0x0602 p) (entered 0x0602 p s) (ok)))
  ∧ (∀ (p : Pkt) (s : State), accepted 0x0602 p s = true → (entered 0x0602 p s).encState p.idx < 2 →
      exec (.cdcStreamStop p) s = .next (settled 0x0602 (s.pktHdr 0x0602 p) (entered 0x0602 p s) (refuse stState 0x8008)))

/-- Once the device is ready, a write of CDC_Ss_DR_HEAD sets it modulo twice the ring, and a write of CDC_Ss_DD_HEAD
that returns no more descriptors than are held sets it; other DD_HEAD values are ignored. SPOOL_DRAIN moves spooled
units into the rings while they fit. CDC_RING_STALL on a stream in use with its host rings on, whose next spooled unit
does not fit or, none spooled, whose rings are full, sets RING_STALL, reports the cause and logs it; else it does
nothing. STREAMER_SEND with a packet to send (State.tq1Head: one in the backlog, the link up), the transmitter free
for its frame and its pace allowing it (State.tq1May) emits the frame, padded to 60 bytes, counts it on the stream and
the network, and takes it out of the backlog (EncSt.sent: the identification moves on, the bucket pays for the frame,
a unit leaves with its last packet); where the transmitter or the pace holds it, nothing changes, and with nothing to
send only units without packets leave the backlog. -/
def Obligations.StreamRings : Prop :=
  (∀ (stream : Fin 16) (v : W32) (s : State),
      exec (.cdcDrHead stream v) s = .next (if s.shut 0 then s else s.setF (CDC_S_DR_HEAD__HEAD stream) (v.toNat % 2 ^ ((s.es stream).dlog + 1))))
  ∧ (∀ (stream : Fin 16) (v : W32) (m : Nat) (s : State), s.shut 0 = false → m = 2 ^ ((s.es stream).qlog + 1) →
    v.toNat % 0x20000 < m → (v.toNat % 0x20000 + m - s.f (CDC_S_DD_HEAD__HEAD stream) % m) % m ≤ s.ddUsed stream →
      exec (.cdcDdHead stream v) s = .next (s.setF (CDC_S_DD_HEAD__HEAD stream) (v.toNat % 0x20000)))
  ∧ (∀ (stream : Fin 16) (v : W32) (m : Nat) (s : State), m = 2 ^ ((s.es stream).qlog + 1) →
      m ≤ v.toNat % 0x20000 ∨ s.ddUsed stream < (v.toNat % 0x20000 + m - s.f (CDC_S_DD_HEAD__HEAD stream) % m) % m →
      exec (.cdcDdHead stream v) s = .next s)
  ∧ (∀ (stream : Fin 16) (s : State),
      exec (.spoolDrain stream) s = .next (State.drainSpool stream (s.es stream).spool.length s))
  ∧ (∀ (stream : Fin 16) (s : State),
      let full := match (s.es stream).spool with
        | x :: _ => !s.unitFits stream x
        | [] => decide (2 ^ (s.es stream).dlog ≤ s.drUsed stream) || decide (2 ^ (s.es stream).qlog ≤ s.ddUsed stream)
      exec (.cdcRingStall stream) s = .next (if s.encState stream != 0 && (s.es stream).hostOn && full
        then (s.encErr stream CDC_S_ERR__RING_STALL).log .cdc evCdcRingStall (streamTarget stream) else s))
  ∧ (∀ (stream : Fin 16) (q : Tq1Packet) (u s : State), s.tq1Head stream = some q → s.tq1May q = true →
      u = ((s.emit (.netFrame (q.frame ++ List.replicate (60 - q.frame.length) 0))).bumpEvt .cdc (CDC_S_PKT_CNT stream)).bumpEvt .net NET_TX_CNT →
      exec (.streamerSend stream) s = .next (u.modEs stream (fun e => e.sent q.ident (q.tokens - q.frame.length * 8000000) u.now)))
  ∧ (∀ (stream : Fin 16) (q : Tq1Packet) (s : State), s.tq1Head stream = some q → s.tq1May q = false →
      exec (.streamerSend stream) s = .next s)
  ∧ (∀ (stream : Fin 16) (s : State), s.tq1Head stream = none →
      exec (.streamerSend stream) s =
        .next (s.modEs stream (fun e => { e with backlog := e.backlog.dropWhile (·.packets.isEmpty) })))

/-- An accepted OPEN of a closed session to the pool, with a valid buffer reference, no memory test of the pixel
engines, a ring and a syntax buffer inside the working region, engine load left and a pool stride that holds its
pictures, opens the session, sets OPEN, OUT and BS_FREE, moves the fingerprint on and answers the load. An accepted
DATA for an open session, not closing, whose valid, readable buffer fits the ring appends them with EOS and the
packet's SEQ, asks for the next picture and answers the free space; bytes that do not fit are refused with NO_RESOURCE
0x8023. CLOSE of an open session without draining drops what waits and closes it once nothing is in progress. A
session that is not open refuses CLOSE with STATE 0x8021. A buffer in the working region leaves the vault's power
states. SET_HOST marks a buffer in use, CLEAR_HOST and CLEAR_OUT clear marks, and each answers the marks.
DECODE_PICTURE_END on a session whose picture has ended, with no row of it in the pixel engine, conceals the CTUs that
were not decoded and counts them, records the picture, keeps it for reference and output with its damage and its
errors, lands it, and lets output, admission and a close go on. DECODE_OUTPUT outputs the picture due first: it is
counted and stamped, for the pool it is marked OUT and reported, else, not yet taken, it becomes available to the
playback context. POOL_WAIT_END with a free buffer ends the wait and feeds the session. CDC_DEC_STALL on a waiting
session logs the stall. Without a picture in progress DECODE_PICTURE_END, with none due DECODE_OUTPUT, and without a
wait or a free buffer POOL_WAIT_END and CDC_DEC_STALL do nothing. -/
def Obligations.Decoding : Prop :=
  (∀ (p : Pkt) (d ring m : Nat) (u v : State) (s : State), accepted 0x0606 p s = true → p.b 0 0 2 = 0 →
    p.t 0 8 = false → p.t 0 4 = true → (entered 0x0606 p s).refOk (p.ref 8) = true →
    (entered 0x0606 p s).bist 2 = false → d = p.idx - 4 → ((entered 0x0606 p s).ds d).open_ = false →
    ring = p.b 3 0 16 * 0x10000 → ring ≠ 0 → p.q 4 % 4096 = 0 →
      p.q 4 + 4096 + ring + p.b 3 16 16 * 0x10000 ≤ (entered 0x0606 p s).wBytes →
      m = ceilDiv (p.b 1 0 16 * p.b 1 16 16 * p.w 2) 1000000000 →
      (entered 0x0606 p s).encMpix none + (entered 0x0606 p s).decMpix + m ≤ 4500 →
      poolNeed (p.b 1 0 16) (p.b 1 16 16) ≤ (entered 0x0606 p s).poolStride →
      u = (entered 0x0606 p s).modDs d (fun e => { open_ := true, pool := true, checkHash := p.t 0 5, maxW := p.b 1 0 16, maxH := p.b 1 16 16, maxRate := p.w 2, mpix := m, base := p.q 4, ring := ring, syntaxBytes := p.b 3 16 16 * 0x10000, expand := halfWords [], taken := e.taken }) →
      v = ((u.wn (CDC_D_STAT d) 0).setB (CDC_D_STAT__OPEN d) true).setB (CDC_D_STAT__OUT d) true →
      exec (.cdcDecodeOpen p) s = .next (settled 0x0606 (s.pktHdr 0x0606 p) (((v.setBsFree d).commitSince (entered 0x0606 p s)).refUse (p.ref 8)) (ok [m])))
  ∧ (∀ (p : Pkt) (d : Nat) (bs : List Byte) (u v : State) (s : State), accepted 0x0606 p s = true → p.b 0 0 2 = 1 →
    p.t 0 4 = false → p.t 0 5 = false → (entered 0x0606 p s).refOk (p.ref 8) = true → d = p.idx - 4 →
    ((entered 0x0606 p s).ds d).open_ = true → ((entered 0x0606 p s).ds d).closing = false →
    (p.ref 8).len ≤ ((entered 0x0606 p s).ds d).free → (entered 0x0606 p s).readRef (p.ref 8) p.buf = some bs →
      (u = (if bs.isEmpty then ((entered 0x0606 p s).ringFill d bs).modDs d (fun e => { e with flush := e.flush || p.t 0 8, cur := e.cur.map (fun q => { q with ended := q.ended || p.t 0 8 }) }) else ((entered 0x0606 p s).ringFill d bs).modDs d (fun e => { e with chunks := e.chunks ++ [(p.seq, bs.length, p.t 0 8)] }))) →
      v = (((u.decFlush d).setBsFree d).decArrive d).feedDec d →
      exec (.cdcDecodeData p) s = .next (settled 0x0606 (s.pktHdr 0x0606 p) (v.refUse (p.ref 8)) (ok [(v.ds d).free / 256])))
  ∧ (∀ (p : Pkt) (d : Nat) (s : State), accepted 0x0606 p s = true → p.b 0 0 2 = 1 → p.t 0 4 = false →
    p.t 0 5 = false → (entered 0x0606 p s).refOk (p.ref 8) = true → d = p.idx - 4 →
    ((entered 0x0606 p s).ds d).open_ = true → ((entered 0x0606 p s).ds d).closing = false →
      ((entered 0x0606 p s).ds d).free < (p.ref 8).len →
      exec (.cdcDecodeData p) s = .next (settled 0x0606 (s.pktHdr 0x0606 p) (entered 0x0606 p s) (refuse stNoResource 0x8023)))
  ∧ (∀ (p : Pkt) (d : Nat) (u v w : State) (s : State), accepted 0x0606 p s = true → p.b 0 0 2 = 2 → p.t 0 4 = false →
    p.t 0 5 = false → p.t 0 8 = false → d = p.idx - 4 → ((entered 0x0606 p s).ds d).open_ = true →
      ((entered 0x0606 p s).ds d).closing = false →
      u = (entered 0x0606 p s).modDs d (fun e => { e with closing := true, drain := false, flush := true }) →
      v = u.modDs d (fun e => { e with fill := 0, wr := 0, chunks := [], waiting := false, cur := e.cur.map (fun q => { q with ended := true }) }) →
      w = (State.leaveB { v with cdc := { v.cdc with waiting := v.cdc.waiting.erase (.dec d) } } (.dec d)).setB (CDC_D_STAT__DEFERRED d) false →
      exec (.cdcDecodeClose p) s = .next (settled 0x0606 (s.pktHdr 0x0606 p) (((w.decFlush d).setBsFree d).decClose d) (ok)))
  ∧ (∀ (p : Pkt) (s : State), accepted 0x0606 p s = true → p.b 0 0 2 = 2 → p.t 0 4 = false → p.t 0 5 = false →
      ((entered 0x0606 p s).ds (p.idx - 4)).open_ = false →
      exec (.cdcDecodeClose p) s = .next (settled 0x0606 (s.pktHdr 0x0606 p) (entered 0x0606 p s) (refuse stState 0x8021)))
  ∧ (∀ (p : Pkt) (u : State) (s : State), accepted 0x0607 p s = true → p.b 0 8 2 = 0 → p.b 0 0 6 < s.poolCount →
    s.marks (p.b 0 0 6) ≠ 0 → u = s.setMark (p.b 0 0 6) markHost true →
      exec (.setHost p) s = .next (settled 0x0607 (s.pktHdr 0x0607 p) (u) (ok [u.marks (p.b 0 0 6)])))
  ∧ (∀ (p : Pkt) (u : State) (s : State), accepted 0x0607 p s = true → p.b 0 8 2 = 1 → p.b 0 0 6 < s.poolCount →
      u = s.setMark (p.b 0 0 6) markHost false →
      exec (.clearHost p) s = .next (settled 0x0607 (s.pktHdr 0x0607 p) (u) (ok [u.marks (p.b 0 0 6)])))
  ∧ (∀ (p : Pkt) (u : State) (s : State), accepted 0x0607 p s = true → p.b 0 8 2 = 2 → p.b 0 0 6 < s.poolCount →
      u = (s.setMark (p.b 0 0 6) (markOut 0) false).setMark (p.b 0 0 6) (markOut 1) false →
      exec (.clearOut p) s = .next (settled 0x0607 (s.pktHdr 0x0607 p) (u) (ok [u.marks (p.b 0 0 6)])))
  ∧ (∀ (session : Fin 2) (p q : DecPic) (bad : List Nat) (u v w s : State), (s.ds session).cur = some p →
    p.ended = true → (s.ds session).peRow = none → (∀ r, s.cdc.pe = some r → r.1 ≠ 16 + session.val) →
      bad = (List.range (ceilDiv p.width p.ctb * ceilDiv p.height p.ctb)).filter (fun a => !p.ctus.contains a) →
      u = bad.foldl (fun t a => t.conceal p ((s.ds session).concealSource p) a) s →
      (v = if bad.isEmpty then u else u.bumpStat (CDC_D_CONC_CNT session) bad.length) →
      q = { p with damaged := bad.length, concealed := p.concealed || !bad.isEmpty, err := (s.ds session).err, lines := p.height } →
      (w = ((v.poolInfo q).modDs session (fun e => DecSt.after { e with cur := none, err := 0, admitted := false, taken := e.taken.map (fun r => if r.buf = q.buf then q else r) } q)).decLand session q.buf q.height true) →
      exec (.decodePictureEnd session) s = .next ((((w.decFlush session).prune session).decArrive session).decClose session))
  ∧ (∀ (session : Fin 2) (b : Nat) (t : List Nat) (p q : DecPic) (u s : State), (s.ds session).outq = b :: t →
    (s.ds session).dpb.find? (fun p => p.buf == b) = some p → (s.ds session).pool = true →
      q = { p with output := true, outNs := s.ns } →
      (u = (s.bumpEvt .cdc (CDC_D_PIC_CNT session)).modDs session (fun e => { e with outq := t, dpb := e.dpb.map (fun r => if r.buf = b then q else r), avail := if e.pool || p.takenBy.isSome then e.avail else e.avail ++ [b] })) →
      exec (.decodeOutput session) s =
        .next ((((u.setMark b (markOut session) true).decReport session q 0 false).prune session).decClose session))
  ∧ (∀ (session : Fin 2) (b : Nat) (t : List Nat) (p q : DecPic) (s : State), (s.ds session).outq = b :: t →
    (s.ds session).dpb.find? (fun p => p.buf == b) = some p → (s.ds session).pool = false → p.takenBy = none →
      q = { p with output := true, outNs := s.ns } →
      let u := (s.bumpEvt .cdc (CDC_D_PIC_CNT session)).modDs session (fun e => { e with
        outq := t, dpb := e.dpb.map (fun r => if r.buf = b then q else r), avail := if e.pool then e.avail else e.avail ++ [b] })
      exec (.decodeOutput session) s = .next ((u.prune session).decClose session))
  ∧ (∀ (session : Fin 2) (s : State), (s.ds session).cur = none → (s.ds session).outq = [] →
      exec (.decodePictureEnd session) s = .next s ∧ exec (.decodeOutput session) s = .next s)
  ∧ (∀ (session : Fin 2) (s : State),
      exec (.poolWaitEnd session) s =
        .next (if s.on (CDC_D_STAT__POOL_WAIT session) ∧ s.freeBufs ≠ [] then (s.setB (CDC_D_STAT__POOL_WAIT session) false).feedDec session else s))
  ∧ (∀ (session : Fin 2) (s : State),
      exec (.cdcDecStall session) s = .next (if s.on (CDC_D_STAT__POOL_WAIT session) then s.log .cdc evCdcDecStall (ctxTarget (4 + session.val)) else s))

/-- PE_ROW_START with the pixel engine free takes the next work in round-robin order (State.peNext): the next row of a
stream's picture, the first row of a new picture whose slot is not omitted, or a row of a decode session; with the
engine busy, or no work, it does nothing. PE_ROW_DONE of a stream's row does what State.encRowDone says (syntax
records, reconstruction, the row's bits and minimal mode, HRD_MIN, the row queued for an entropy engine); of a
session's row it writes the bytes that lie in the picture's buffer, records the lines and lands them; with the engine
free it does nothing. ENTROPY_SLICE_DONE of an engine that codes a stream's row stores its slice NAL unit, with the
hash SEI NAL unit after the last row where the stream sends one, and emits the rows that are complete; of any other
engine it does nothing; of a session it handles the parsed item (State.decItem). -/
def Obligations.CodingEngines : Prop :=
  (∀ (s : State), s.cdc.pe.isSome = true ∨ s.peNext = none → exec .peRowStart s = .next s)
  ∧ (∀ (w : Nat) (p : EncPic) (s : State), s.cdc.pe = none → s.peNext = some w → w < 16 → (s.es w).pic = some p →
      exec .peRowStart s = .next (s.nextIn w p))
  ∧ (∀ (w slot : Nat) (q : EncSrc) (t : List EncSlot) (s : State), s.cdc.pe = none → s.peNext = some w → w < 16 →
    (s.es w).pic = none → (s.es w).queue = ⟨slot, some q⟩ :: t →
    (s.es w).omits (s.f (CDC_S_STATE__DEG w)) slot = false → exec .peRowStart s = .next (s.picIn w slot q))
  ∧ (∀ (w r : Nat) (s : State), s.cdc.pe = none → s.peNext = some w → 16 ≤ w → (s.ds (w - 16)).peRow = some r →
      exec .peRowStart s = .next { s with cdc := { s.cdc with pe := some (w, r), peLast := w } })
  ∧ (∀ (r : RowOut) (w j : Nat) (p : EncPic) (u s : State), s.cdc.pe = some (w, j) → w < 16 → (s.es w).pic = some p →
    u = { s with cdc := { s.cdc with pe := none } } → exec (.peRowDone r) s = .next (u.encRowDone w (s.es w) p j))
  ∧ (∀ (r : RowOut) (w j : Nat) (p : DecPic) (u v s : State), s.cdc.pe = some (w, j) → 16 ≤ w →
    (s.ds (w - 16)).cur = some p → u = { s with cdc := { s.cdc with pe := none } } →
      v = (u.writeIn (fun a n => decide (u.poolAddr p.buf ≤ a) && decide (a + n ≤ u.poolAddr p.buf + u.poolStride)) r.writes).modDs (w - 16) (fun e => { e with cur := some { p with peRow := j + 1, lines := max p.lines (min r.final p.height) } }) →
      exec (.peRowDone r) s = .next (v.decLand (w - 16) p.buf (max p.lines (min r.final p.height)) false))
  ∧ (∀ (r : RowOut) (s : State), s.cdc.pe = none → exec (.peRowDone r) s = .next s)
  ∧ (∀ (k : Fin 2) (i j : Nat) (u s : State), s.cdc.ee.getD k none = some (.enc i j) →
      (u = s.modEs i (fun e => { e with pic := e.pic.map (fun p => p.modRow j (fun r => { r with slice := some (e.sliceNal p j r, if j + 1 = (s.es i).rowsN ∧ (s.es i).hashSei = true then [(s.es i).hashNal p.recon] else []) })) })) →
      exec (.entropySliceDone (.coded k)) s = .next (State.emitRows i (s.es i).rowsN (u.freeEngine k)))
  ∧ (∀ (k : Fin 2) (s : State), (∀ i j, s.cdc.ee.getD k none ≠ some (.enc i j)) →
      exec (.entropySliceDone (.coded k)) s = .next s)
  ∧ (∀ (d : Fin 2) (item : DecItem) (s : State), exec (.entropySliceDone (.parsed d item)) s = .next (s.decItem d item))

/-- Accepted for a layer 0 to 7 with fields in range, and with fence lines left where the layer names a new one,
CMP_CONFIGURE_LAYER stores the layer in the shadow set with the table it had, keeps what a newly named fence line
holds, or reports the failed read, judges the fences, and forgets the fence lines that no layer names any more; for
layer 8 it selects Rind entries (State.rindSelect). CMP_LOAD_LUT with a valid, readable buffer of the right length,
while no committed set waits, stores the layer's or the post table, a buffer in the working region leaving the vault's
power states; another length for a layer is BAD_PARAM 0x8004. CMP_SET_WRITEBACK of a sound write-back stores it; a
packing above 2 is BAD_PARAM 0x800A. CMP_RIND_STATUS answers the Rind's version, CRC, what was drawn and selected, the
fault card and the frame number, and changes nothing. An accepted CMP_COMMIT with a size in range, sound layers, a
write-back that fits, enough fetch rate and the generator's size kept takes the shadow set with the flips deferred to
it as the committed set, replaces one that still waits and then sets COMMIT_REPLACED, sets COMMIT_PEND and answers the
fingerprint that the set will have. An accepted CMP_FLIP for an enabled memory layer of the live set, with a picture
inside the working region, numbers the flip and makes it the layer's pending flip, the one it replaces being released;
deferred, and the layer taken from the shadow set, it joins the flips of the next commit. A layer that is off, or has
no memory source, is refused STATE 0x8009. -/
def Obligations.CompositionSets : Prop :=
  (∀ (p : Pkt) (l : Nat) (g : LayerCfg) (others : List Nat) (u v x : State) (s : State), accepted 0x0700 p s = true →
    l = p.b 0 0 4 → l < 8 →
      g = { en := p.t 0 4, src := p.b 0 5 2, pack := p.b 0 8 4, solid := p.t 0 12, premult := p.t 0 13, crcEn := p.t 0 14, matrix := p.b 0 15 1, range := p.b 0 16 1, tapEng := p.b 0 17 2, tapCtx := p.b 0 20 3, sw := p.b 1 0 16, sh := p.b 1 16 16, dx := p.b 2 0 16, dy := p.b 2 16 16, dw := p.b 3 0 16, dh := p.b 3 16 16, galpha := p.b 4 0 16, ftmo := p.b 4 16 16, race := p.b 5 0 14, acq := p.q 6, rel := p.q 8, lut := (((entered 0x0700 p s).cmpU p.idx).shadowLayer l).lut } →
      others = ((entered 0x0700 p s).modCmp p.idx (fun u => { u with shadow := u.shadow.set l { g with acq := 0 } })).fenceNamed →
    p.t 0 7 = false → p.t 0 19 = false → p.b 0 23 9 = 0 → g.src ≠ 3 → g.tapCtx ≤ 5 → g.ftmo ≠ 0 →
      (g.src = 2 → 64 ≤ g.race ∧ g.race ≤ 8192 ∧ g.race % 64 = 0) →
      g.acq = 0 ∨ others.contains (g.acq / 64) = true ∨ others.length < 256 →
      u = (entered 0x0700 p s).modCmp p.idx (fun u => { u with shadow := u.shadow.set l g }) →
      (v = (if g.acq ≠ 0 ∧ u.cxl.fallback = false ∧ others.contains (g.acq / 64) = false then (match p.buf with | .bytes b => u.holdFence (g.acq / 64) b | .failed _ _ => u.hostError .cmp p.buf) else u)) →
      x = v.evalFences →
      exec (.cmpConfigureLayer p) s = .next (settled 0x0700 (s.pktHdr 0x0700 p) ({ x with cxl := { x.cxl with fenceLines := v.fenceNamed }, cmp := { x.cmp with fence := x.cmp.fence.filter (fun f => v.fenceNamed.contains f.1) } }) (ok)))
  ∧ (∀ (p : Pkt) (t : State) (o : Outc) (s : State), accepted 0x0700 p s = true → p.b 0 0 4 = 8 → p.b 0 4 18 = 0 →
      (List.range 11).find? (fun i => p.w (i + 1) != 0) = none →
      (entered 0x0700 p s).rindSelect p.idx (p.b 0 24 8) (p.b 0 22 2) = (t, some o) →
      exec (.cmpConfigureLayer p) s = .next (settled 0x0700 (s.pktHdr 0x0700 p) (t) (o)))
  ∧ (∀ (p : Pkt) (bs : List Byte) (s : State), accepted 0x0701 p s = true →
    (entered 0x0701 p s).refOk (p.ref 4) = true → p.b 0 0 4 ≤ 7 → (p.ref 4).len = 2048 →
    ((entered 0x0701 p s).cmpU p.idx).set = none → (entered 0x0701 p s).readRef (p.ref 4) p.buf = some bs →
      exec (.cmpLoadLut p) s = .next (settled 0x0701 (s.pktHdr 0x0701 p) (((entered 0x0701 p s).modCmp p.idx (fun u => { u with shadow := u.shadow.set (p.b 0 0 4) { u.shadowLayer (p.b 0 0 4) with lut := some (halfWords bs) } })).refUse (p.ref 4)) (ok)))
  ∧ (∀ (p : Pkt) (bs : List Byte) (s : State), accepted 0x0701 p s = true →
    (entered 0x0701 p s).refOk (p.ref 4) = true → p.b 0 0 4 = 15 → (p.ref 4).len = 24576 →
    ((entered 0x0701 p s).cmpU p.idx).set = none → (entered 0x0701 p s).readRef (p.ref 4) p.buf = some bs →
      exec (.cmpLoadLut p) s = .next (settled 0x0701 (s.pktHdr 0x0701 p) (((entered 0x0701 p s).modCmp p.idx (fun u => { u with shadowPost := some (halfWords bs) })).refUse (p.ref 4)) (ok)))
  ∧ (∀ (p : Pkt) (s : State), accepted 0x0701 p s = true → (entered 0x0701 p s).refOk (p.ref 4) = true →
    p.b 0 0 4 ≤ 7 → (p.ref 4).len ≠ 2048 →
      exec (.cmpLoadLut p) s = .next (settled 0x0701 (s.pktHdr 0x0701 p) (entered 0x0701 p s) (refuse stBadParam 0x8004)))
  ∧ (∀ (p : Pkt) (g : WbCfg) (s : State), accepted 0x0704 p s = true →
      g = { en := p.t 0 0, oneshot := p.t 0 1, pack := p.b 0 2 4, matrix := p.b 0 8 1, range := p.b 0 9 1, nbuf := p.b 0 16 4, stride := p.w 1 * 4096, base := p.q 2 } →
      g.pack ≤ 2 →
      (g.en = true → 2 ≤ g.nbuf ∧ g.nbuf ≤ 8 ∧ g.base % 4096 = 0 ∧ g.base + g.nbuf * g.stride ≤ (entered 0x0704 p s).wBytes) →
      exec (.cmpSetWriteback p) s = .next (settled 0x0704 (s.pktHdr 0x0704 p) ((entered 0x0704 p s).modCmp p.idx (fun u => { u with shadowWb := g })) (ok)))
  ∧ (∀ (p : Pkt) (s : State), accepted 0x0704 p s = true → 2 < p.b 0 2 4 →
      exec (.cmpSetWriteback p) s = .next (settled 0x0704 (s.pktHdr 0x0704 p) (entered 0x0704 p s) (refuse stBadParam 0x800A)))
  ∧ (∀ (p : Pkt) (s : State), accepted 0x0705 p s = true →
      exec (.cmpRindStatus p) s = .next (settled 0x0705 (s.pktHdr 0x0705 p) s (ok [s.cmp.rind.version + 0x10000 * b2n s.cmp.rind.byDefault + 0x20000 * b2n s.cmp.rind.locked, s.cmp.rind.crc.toNat, (s.cmpU p.idx).drawn,
        match (s.cmpU p.idx).live with
        | some g => (g.lines.getD (s.rindEntry p.idx).lineMask) + 256 * (g.tcPos.getD (s.rindEntry p.idx).tcPos)
        | none => (s.rindEntry p.idx).lineMask + 256 * (s.rindEntry p.idx).tcPos,
        s.f (CMP_C_STAT__FAULT_CARD p.idx), s.rn (CMP_C_CFN p.idx)])))
  ∧ (∀ (p : Pkt) (w h : Nat) (c : CmpSt) (r : State × List (Nat × Flip)) (g : CmpSet) (u : State) (fp : Nat) (s : State),
    accepted 0x0702 p s = true → w = p.b 0 0 16 → h = p.b 0 16 16 → 64 ≤ w → w ≤ 8192 → 64 ≤ h → h ≤ 8192 →
      c = (entered 0x0702 p s).cmpU p.idx →
    (c.shadow.filter (·.en)).findSome? (entered 0x0702 p s).layerCheck = none → c.shadowWb.fits w h = true →
      (entered 0x0702 p s).fetchOk p.idx w h c.shadow (p.b 2 17 2) = true →
      ((match (entered 0x0702 p s).tgOf p.idx with | some t => ((entered 0x0702 p s).tg t).set && (((entered 0x0702 p s).tg t).hactive != w || ((entered 0x0702 p s).tg t).vactive != h) | none => false) = false) →
      (r = (if c.set.isSome then (entered 0x0702 p s).cmpErr p.idx CMP_C_ERR__COMMIT_REPLACED else (entered 0x0702 p s)).joinFlips p.idx ((c.set.map (·.flips)).getD []) c.deferred) →
      g = { outW := w, outH := h, bg := (p.b 1 0 16, p.b 1 16 16, p.b 2 0 16), pace := p.t 2 16, fcg := p.b 2 17 2, layers := c.shadow, post := c.shadowPost, wb := c.shadowWb, lines := c.shadowLines, tcPos := c.shadowTcPos, flips := r.2 } →
      u = (List.range 8).foldl (fun s l => s.showFlips p.idx l) ((r.1.modCmp p.idx (fun u => { u with set := some g, deferred := [] })).setB (CMP_C_STAT__COMMIT_PEND p.idx) true) →
      fp = ((u.modCmp p.idx (fun u => { u with live := some g })).instFp .cmp).toNat →
      exec (.cmpCommit p) s = .next (settled 0x0702 (s.pktHdr 0x0702 p) (u) (ok [fp % 0x100000000, fp / 0x100000000])))
  ∧ (∀ (p : Pkt) (l : Nat) (c : CmpSt) (g : LayerCfg) (f0 f : Flip) (u v : State) (s : State),
    accepted 0x0703 p s = true → l = p.b 0 0 4 → l ≤ 7 → p.t 0 8 = false → c = s.cmpU p.idx → g = c.liveLayer l →
    g.en = true → g.src = 0 → p.q 2 + g.bytes ≤ s.wBytes →
      f0 = { addr := p.q 2, acq := p.q 4, rel := p.q 6, tag := p.b 1 0 16, wait := p.t 0 9, ready := false, order := c.order } →
    f = { f0 with ready := s.flipReady g f0 } → u = s.modCmp p.idx (fun u => { u with order := u.order + 1 }) →
      (v = (match (c.layerSt l).pending with | some o => u.flipReplaced p.idx l o | none => u)) →
      exec (.cmpFlip p) s = .next (settled 0x0703 (s.pktHdr 0x0703 p) ((v.modLayer p.idx l (fun x => { x with pending := some f })).showFlips p.idx l) (ok)))
  ∧ (∀ (p : Pkt) (l : Nat) (c : CmpSt) (g : LayerCfg) (f0 f : Flip) (r : State × List (Nat × Flip)) (s : State),
    accepted 0x0703 p s = true → l = p.b 0 0 4 → l ≤ 7 → p.t 0 8 = true → c = s.cmpU p.idx → g = c.shadowLayer l →
    g.en = true → g.src = 0 → p.q 2 + g.bytes ≤ s.wBytes →
      f0 = { addr := p.q 2, acq := p.q 4, rel := p.q 6, tag := p.b 1 0 16, wait := p.t 0 9, ready := false, order := c.order } →
      f = { f0 with ready := s.flipReady g f0 } →
      r = (s.modCmp p.idx (fun u => { u with order := u.order + 1 })).joinFlips p.idx c.deferred [(l, f)] →
      exec (.cmpFlip p) s = .next (settled 0x0703 (s.pktHdr 0x0703 p) ((r.1.modCmp p.idx (fun u => { u with deferred := r.2 })).showFlips p.idx l) (ok)))
  ∧ (∀ (p : Pkt) (g : LayerCfg) (s : State), accepted 0x0703 p s = true → p.b 0 0 4 ≤ 7 →
      (g = (if p.t 0 8 then (s.cmpU p.idx).shadowLayer (p.b 0 0 4) else (s.cmpU p.idx).liveLayer (p.b 0 0 4))) →
      g.en = false ∨ g.src ≠ 0 →
      exec (.cmpFlip p) s = .next (settled 0x0703 (s.pktHdr 0x0703 p) s (refuse stState 0x8009)))

/-- CMP_LATCH of a composer without a generator finishes the frame and latches when a latch is due; of one with a set
generator in blanking it latches at the line its setting fixes, or, within the soft range, when every layer is ready
or the range ends, and else shows WAITING; not due, with a generator not set or not in blanking, at another line or
out of the range, it changes nothing. VBLANK_START of a set generator that is not still in a composer's blanking
begins blanking: the frame in progress is finished and sent (of a generator without a composer the latch it makes
alone comes first), the frame is counted, the phase judged, a waiting setting taken and enabling ports brought up;
else it changes nothing. SNPINV of a fence line that a layer names, out of fallback, stores the line and judges the
fences; FENCE_POLL stores the eight bytes of a fence in fallback and judges them. FENCE_TIMEOUT of a stuck flip
releases it, counts it, sets FENCE_TMO and logs it. WB_HOLD_SET, once the device is ready, holds the write-back
buffers named. -/
def Obligations.CompositionRuns : Prop :=
  (∀ (composer : Fin 4) (line : BitVec 16) (torn : BitVec 8) (s : State), s.tgOf composer = none →
      (s.cmpU composer).due = true →
      exec (.cmpLatch composer line torn) s = .next ((s.finishFrame composer torn).1.latchNow composer 0))
  ∧ (∀ (composer : Fin 4) (line : BitVec 16) (torn : BitVec 8) (t v : Nat) (slip : Bool) (s : State),
    s.tgOf composer = some t → (s.tg t).set = true → (s.tg t).blank.isSome = true → s.fixedBlank t = some (v, slip) →
      exec (.cmpLatch composer line torn) s = .next (if line.toNat + 4 = v then s.latchDriven composer t v slip else s))
  ∧ (∀ (composer : Fin 4) (line : BitVec 16) (torn : BitVec 8) (s : State),
      s.tgOf composer = none ∧ (s.cmpU composer).due = false ∨ (s.tgOf composer).any (fun t => (s.tg t).set = false || (s.tg t).blank.isNone || (s.fixedBlank t).isNone && (line.toNat + 4 < (s.tg t).soft.vmin || (s.tg t).soft.vmax < line.toNat + 4)) = true →
      exec (.cmpLatch composer line torn) s = .next s)
  ∧ (∀ (composer : Fin 4) (line : BitVec 16) (torn : BitVec 8) (t : Nat) (s : State), s.tgOf composer = some t →
    (s.tg t).set = true → (s.tg t).blank.isSome = true → s.fixedBlank t = none → (s.tg t).soft.vmin ≤ line.toNat + 4 →
    line.toNat + 4 ≤ (s.tg t).soft.vmax → s.allReady composer = true ∨ line.toNat + 4 = (s.tg t).soft.vmax →
      exec (.cmpLatch composer line torn) s = .next (s.latchDriven composer t (line.toNat + 4) false))
  ∧ (∀ (composer : Fin 4) (line : BitVec 16) (torn : BitVec 8) (t : Nat) (s : State), s.tgOf composer = some t →
    (s.tg t).set = true → (s.tg t).blank.isSome = true → s.fixedBlank t = none → (s.tg t).soft.vmin ≤ line.toNat + 4 →
    line.toNat + 4 < (s.tg t).soft.vmax → s.allReady composer = false →
      exec (.cmpLatch composer line torn) s = .next (s.setB (CMP_C_STAT__WAITING composer) true))
  ∧ (∀ (t : Fin 4) (phase : W32) (torn : BitVec 8) (x u v s : State), (s.tg t).set = true → s.cmpOf t = none →
      (x = if (s.tg t).blank.isSome then s.latchAlone t ((s.fixedBlank t).getD ((s.tg t).soft.vmin, false)).1 ((s.fixedBlank t).getD ((s.tg t).soft.vmin, false)).2 else s) →
    x.cmpOf t = none → u = x.sendFrame t 0 ((x.tg t).tcWord (x.tg t).tc) none →
      v = (((u.modTg t (fun g => { g with blank := some (g.active + g.vactive) })).bumpEvt .dsp (DSP_TG_FRAME_CNT t)).judgePhase t (sext 32 phase.toNat)).modTg t TgSt.takeNext →
      exec (.vblankStart t phase torn) s = .next ((v.showTg t).portsUp t))
  ∧ (∀ (t : Fin 4) (phase : W32) (torn : BitVec 8) (n : Nat) (r : State × List (List Rgb)) (u v s : State),
    (s.tg t).set = true → (s.tg t).blank = none → s.cmpOf t = some n → r = s.finishFrame n torn →
      (u = (match (s.cmpU n).frame with
        | some f => r.1.sendFrame t f.cfn f.tc (if (s.cmpU n).live.isSome then some r.2 else none)
        | none => s.sendFrame t 0 ((s.tg t).tcWord (s.tg t).tc) none)) →
      v = (((u.modTg t (fun g => { g with blank := some (g.active + g.vactive) })).bumpEvt .dsp (DSP_TG_FRAME_CNT t)).judgePhase t (sext 32 phase.toNat)).modTg t TgSt.takeNext →
      exec (.vblankStart t phase torn) s = .next ((v.showTg t).portsUp t))
  ∧ (∀ (t : Fin 4) (phase : W32) (torn : BitVec 8) (s : State),
      (s.tg t).set = false ∨ (s.tg t).blank.isSome = true ∧ (s.cmpOf t).isSome = true →
      exec (.vblankStart t phase torn) s = .next s)
  ∧ (∀ (line : BitVec 58) (b : List Byte) (s : State), s.cxl.up = true → s.cxl.fallback = false →
      s.fenceNamed.contains line.toNat = true →
      exec (.snpinv line (.bytes b)) s = .next (s.holdFence line.toNat b).evalFences)
  ∧ (∀ (addr : BitVec 64) (b old : List Byte) (s : State), s.cxl.up = true → s.cxl.fallback = true →
      s.fenceNamed.contains (addr.toNat / 64) = true →
      old = ((s.cmp.fence.find? (fun f => f.1 == addr.toNat / 64)).map (fun f => f.2)).getD (List.replicate 64 0) →
      exec (.fencePoll addr (.bytes b)) s =
        .next (s.holdFence (addr.toNat / 64) (old.take (addr.toNat % 64) ++ padBytes 8 b ++ old.drop (addr.toNat % 64 + 8))).evalFences)
  ∧ (∀ (composer : Fin 4) (layer : Fin 8) (tag : BitVec 16) (f : Flip) (u v s : State),
      s.takeStuck composer layer (Flip.stuck tag.toNat) = (some f, u) →
      v = ((u.release composer layer f.rel).bumpStat (CMP_C_FTMO_CNT composer)).cmpErr composer CMP_C_ERR__FENCE_TMO →
      exec (.fenceTimeout composer layer tag) s =
        .next ((v.log .cmp evCmpFenceTmo (cmpTarget composer) composer layer f.tag).showFlips composer layer))
  ∧ (∀ (composer : Fin 4) (v : W32) (s : State),
      exec (.wbHoldSet composer v) s = .next (if s.shut 0 then s else s.setF (CMP_C_WB_HOLD__HOLD composer) (s.f (CMP_C_WB_HOLD__HOLD composer) ||| v.toNat % 256)))

/-- Accepted with a timing within the limits that keeps the size of a live composition: with a hard change on a
generator no enabled port uses, DSP_SET_TIMING makes it the generator's setting, starting now; with a soft change
only, it waits for the next frame start, with the preload of a setting already waiting where it brings none. A timing
out of the limits is BAD_PARAM 0x8002, a hard change under an enabled port STATE 0x8001. DSP_ROUTE of generators to
distinct composers and ports to generators, SDI ports to SDI timings, that changes no enabled port's source and
clashes with no size becomes the routes. DSP_STATUS answers the port's status and errors and its generator's status
and phase. Accepted for a port that is OFF or DETACHED, with no test of it (an SDI port on a generator with an SDI
timing and, taking audio, configured audio ports that run at 48 kHz; an attached DSI port on a generator whose timing
its lanes and lane rate carry), DSP_PORT_ENABLE makes the port ENABLING with its parameters, has a locked generator
with one blanking length realign, and is answered later; an enabled port refuses it with STATE 0x8001.
DSP_PORT_DISABLE makes a port OFF, ends an unfinished enable as ABORTED and its transfers with STATE 0x8008, and drops
its packets. DSP_DCS_XFER queues a transfer on a DSI port that is enabled; DSP_SDI_ANC queues a packet of ten-bit
words while fewer than four wait. DCS_XFER_RUN sends the oldest transfer, in blanking while the port is ON, and
answers it with what was read, or, not acknowledged, sets DCS_ERR and answers HW_FAULT 0x8007; with none queued it
does nothing. HOTPLUG that changes ATTACHED sets it, logs and reports the change, and a loss makes an enabled DSI port
DETACHED, its unfinished enable and transfers ended with STATE; else it does nothing. -/
def Obligations.Displays : Prop :=
  (∀ (p : Pkt) (t : Nat) (n : TgSt) (s : State), accepted 0x0800 p s = true → t = p.idx - 0x10 →
    timingOf p = some n → n.limitsOk = true →
      ((entered 0x0800 p s).tg t).set = false ∨ ((entered 0x0800 p s).tg t).sdi ≠ n.sdi ∨ ((entered 0x0800 p s).tg t).raster ≠ n.raster ∨ ((entered 0x0800 p s).tg t).rate ≠ n.rate ∨ ((entered 0x0800 p s).tg t).hactive ≠ n.hactive ∨ ((entered 0x0800 p s).tg t).vactive ≠ n.vactive ∨ ((entered 0x0800 p s).tg t).htotal ≠ n.htotal ∨ ((entered 0x0800 p s).tg t).khz ≠ n.khz ∨ ((entered 0x0800 p s).tg t).div ≠ n.div →
      (entered 0x0800 p s).portsOn t = [] →
      ((entered 0x0800 p s).tg t).hactive = n.hactive ∧ ((entered 0x0800 p s).tg t).vactive = n.vactive ∨ (entered 0x0800 p s).sizeClash ((entered 0x0800 p s).cmpOf t) n = false →
      exec (.dspSetTiming p) s = .next (settled 0x0800 (s.pktHdr 0x0800 p) ((((entered 0x0800 p s).modTg t (fun _ => { n with t0 := (entered 0x0800 p s).now })).showTg t).commitSince (entered 0x0800 p s)) (ok)))
  ∧ (∀ (p : Pkt) (t : Nat) (n : TgSt) (s : State), accepted 0x0800 p s = true → t = p.idx - 0x10 →
    timingOf p = some n → n.limitsOk = true →
      ¬ (((entered 0x0800 p s).tg t).set = false ∨ ((entered 0x0800 p s).tg t).sdi ≠ n.sdi ∨ ((entered 0x0800 p s).tg t).raster ≠ n.raster ∨ ((entered 0x0800 p s).tg t).rate ≠ n.rate ∨ ((entered 0x0800 p s).tg t).hactive ≠ n.hactive ∨ ((entered 0x0800 p s).tg t).vactive ≠ n.vactive ∨ ((entered 0x0800 p s).tg t).htotal ≠ n.htotal ∨ ((entered 0x0800 p s).tg t).khz ≠ n.khz ∨ ((entered 0x0800 p s).tg t).div ≠ n.div) →
      exec (.dspSetTiming p) s = .next (settled 0x0800 (s.pktHdr 0x0800 p) ((((entered 0x0800 p s).modTg t (fun g => { g with next := some { n.soft with preload := n.soft.preload.or (g.next.bind (·.preload)) } })).showTg t).commitSince (entered 0x0800 p s)) (ok)))
  ∧ (∀ (p : Pkt) (t : Nat) (n : TgSt) (s : State), accepted 0x0800 p s = true → t = p.idx - 0x10 →
    timingOf p = some n → n.limitsOk = true →
      ((entered 0x0800 p s).tg t).set = false ∨ ((entered 0x0800 p s).tg t).sdi ≠ n.sdi ∨ ((entered 0x0800 p s).tg t).raster ≠ n.raster ∨ ((entered 0x0800 p s).tg t).rate ≠ n.rate ∨ ((entered 0x0800 p s).tg t).hactive ≠ n.hactive ∨ ((entered 0x0800 p s).tg t).vactive ≠ n.vactive ∨ ((entered 0x0800 p s).tg t).htotal ≠ n.htotal ∨ ((entered 0x0800 p s).tg t).khz ≠ n.khz ∨ ((entered 0x0800 p s).tg t).div ≠ n.div →
      (entered 0x0800 p s).portsOn t ≠ [] →
      exec (.dspSetTiming p) s = .next (settled 0x0800 (s.pktHdr 0x0800 p) (entered 0x0800 p s) (refuse stState 0x8001)))
  ∧ (∀ (p : Pkt) (n : TgSt) (s : State), accepted 0x0800 p s = true → timingOf p = some n → n.limitsOk = false →
      exec (.dspSetTiming p) s = .next (settled 0x0800 (s.pktHdr 0x0800 p) (entered 0x0800 p s) (refuse stBadParam 0x8002)))
  ∧ (∀ (p : Pkt) (cs gs : List (Option Nat)) (u v : State) (s : State), accepted 0x0801 p s = true →
    cs = (List.range 4).map (routeAt (p.w 0)) → gs = (List.range 4).map (routeAt (p.w 1)) →
      ((cs ++ gs).all (fun v => match v with | some k => decide (k ≤ 3) | none => true) = true) →
      (List.range 4).all (fun n => decide ((cs.filter (fun v => v == some n)).length ≤ 1)) = true →
      ([0, 1].all (fun q => match gs.getD q none with | some t => ((entered 0x0801 p s).tg t).sdiOk | none => true) = true) →
      (List.range 4).all (fun q => ((entered 0x0801 p s).portState q != 1 && (entered 0x0801 p s).portState q != 2) || ((entered 0x0801 p s).dpt q).tg == gs.getD q none && (((entered 0x0801 p s).dpt q).tg.bind (fun t => (entered 0x0801 p s).dsp.route.getD t none)) == ((gs.getD q none).bind (fun t => cs.getD t none))) = true →
      (List.range 4).all (fun t => !(((entered 0x0801 p s).tg t).set && (entered 0x0801 p s).sizeClash (cs.getD t none) ((entered 0x0801 p s).tg t))) = true →
      u = { (entered 0x0801 p s) with dsp := { (entered 0x0801 p s).dsp with route := cs } } →
      v = (List.range 4).foldl (fun s q => (s.modDpt q (fun d => { d with tg := gs.getD q none })).setF (DSP_P_STAT__TG q) ((gs.getD q none).getD 7)) u →
      exec (.dspRoute p) s = .next (settled 0x0801 (s.pktHdr 0x0801 p) (((List.range 4).foldl State.showTg v).commitSince (entered 0x0801 p s)) (ok)))
  ∧ (∀ (p : Pkt) (s : State), accepted 0x0806 p s = true →
      exec (.dspStatus p) s = .next (settled 0x0806 (s.pktHdr 0x0806 p) s (ok ([s.rn (DSP_P_STAT p.idx), s.rn (DSP_P_ERR p.idx)] ++ (match (s.dpt p.idx).tg with
        | some t => [s.rn (DSP_TG_STAT t), s.rn (DSP_TG_PHASE t)]
        | none => [0, 0])))))
  ∧ (∀ (p : Pkt) (q t : Nat) (u : State) (s : State), accepted 0x0802 p s = true → q = p.idx → q < 2 →
      (entered 0x0802 p s).portState q = 0 ∨ (entered 0x0802 p s).portState q = 3 →
    (entered 0x0802 p s).bist 3 = false → ((entered 0x0802 p s).analogue 4).any (fun m => bitAt m q) = false →
    ((entered 0x0802 p s).dpt q).tg = some t → ((entered 0x0802 p s).tg t).sdiOk = true →
      (p.t 0 6 = true → (audioTaken (p.w 0)).any (fun a => (entered 0x0802 p s).f (AUD_P_CFG__RATE a) != 1 || !(entered 0x0802 p s).on (AUD_P_CFG__CONFIGURED a)) = false) →
      u = ((entered 0x0802 p s).setF (DSP_P_STAT__STATE q) 1).modDpt q (fun d => { d with asked := (p.w 0 &&& 0x7778, 0), enabling := some (s.pktHdr 0x0802 p) }) →
      exec (.dspPortEnable p) s = .next (if (u.tg t).soft.vmin = (u.tg t).soft.vmax ∧ (u.tg t).soft.lock then u.modTg t (fun g => { g with realign := true }) else u))
  ∧ (∀ (p : Pkt) (q t : Nat) (u : State) (s : State), accepted 0x0802 p s = true → q = p.idx → 2 ≤ q →
      (entered 0x0802 p s).portState q = 0 ∨ (entered 0x0802 p s).portState q = 3 →
    (entered 0x0802 p s).bist 3 = false → ((entered 0x0802 p s).analogue 5).any (fun m => bitAt m q) = false →
    p.b 0 0 2 ≠ 3 → 80 ≤ p.w 1 → p.w 1 ≤ 4500 → ((entered 0x0802 p s).dpt q).tg = some t →
      (entered 0x0802 p s).on (DSP_P_STAT__ATTACHED q) = true →
    dsiFits ((entered 0x0802 p s).tg t) (p.w 0) (p.w 1) = true → q < 4 →
      u = ((entered 0x0802 p s).setF (DSP_P_STAT__STATE q) 1).modDpt q (fun d => { d with asked := (p.w 0 &&& 0x3F, p.w 1), enabling := some (s.pktHdr 0x0802 p) }) →
      exec (.dspPortEnable p) s = .next (if (u.tg t).soft.vmin = (u.tg t).soft.vmax ∧ (u.tg t).soft.lock then u.modTg t (fun g => { g with realign := true }) else u))
  ∧ (∀ (p : Pkt) (s : State), accepted 0x0802 p s = true →
      (entered 0x0802 p s).portState p.idx = 1 ∨ (entered 0x0802 p s).portState p.idx = 2 →
      exec (.dspPortEnable p) s = .next (settled 0x0802 (s.pktHdr 0x0802 p) (entered 0x0802 p s) (refuse stState 0x8001)))
  ∧ (∀ (p : Pkt) (u : State) (s : State), accepted 0x0803 p s = true →
      u = ((entered 0x0803 p s).endEnable p.idx (refuse stAborted 0)).endDcs p.idx (refuse stState 0x8008) →
      exec (.dspPortDisable p) s = .next (settled 0x0803 (s.pktHdr 0x0803 p) ((u.setF (DSP_P_STAT__STATE p.idx) 0).modDpt p.idx (fun d => { d with anc := [] })) (ok)))
  ∧ (∀ (p : Pkt) (bs : List Byte) (s : State), accepted 0x0804 p s = true → 2 ≤ p.idx → p.b 0 8 8 ≤ 128 →
    p.b 0 16 8 ≤ 16 → (entered 0x0804 p s).portState p.idx = 1 ∨ (entered 0x0804 p s).portState p.idx = 2 →
      bs = ((List.range 32).flatMap (fun k => leBytes 4 (p.w (1 + k)))).take (p.b 0 8 8) →
      exec (.dspDcsXfer p) s = .next ((entered 0x0804 p s).modDpt p.idx (fun d => { d with dcs := d.dcs ++ [(s.pktHdr 0x0804 p, p.b 0 0 8, bs, p.b 0 16 8)] })))
  ∧ (∀ (p : Pkt) (udw : List Nat) (u : State) (s : State), accepted 0x0805 p s = true → p.idx < 2 →
      udw = (List.range 256).map (fun k => p.b (1 + k / 2) (16 * (k % 2)) 16) →
      ((List.range 256).find? (fun k => if k < p.b 0 16 8 then decide (0x3FF < udw.getD k 0) else udw.getD k 0 != 0) = none) →
      ((entered 0x0805 p s).dpt p.idx).anc.length < 4 →
      u = (entered 0x0805 p s).modDpt p.idx (fun d => { d with anc := d.anc ++ [⟨p.b 0 0 8, p.b 0 8 8, udw.take (p.b 0 16 8), (entered 0x0805 p s).now, false⟩] }) →
      exec (.dspSdiAnc p) s = .next (settled 0x0805 (s.pktHdr 0x0805 p) (u) (ok [(u.dpt p.idx).anc.length])))
  ∧ (∀ (port : Fin 4) (report : W32) (data : List Byte) (h : Hdr) (type n : Nat) (bs : List Byte) (rest : List (Hdr × Nat × List Byte × Nat)) (u s : State),
      (s.dpt port).dcs = (h, type, bs, n) :: rest →
      (s.portState port ≠ 2 ∨ (∃ t, (s.dpt port).tg = some t ∧ (s.tg t).blank.isSome = true)) →
      u = (s.emit (.dcs port type bs)).modDpt port (fun d => { d with dcs := rest }) →
      exec (.dcsXferRun port true report data) s = .next (u.finishF h (ok (wordsOf (padBytes 16 (data.take n)) ++ [(data.take n).length])))
      ∧ exec (.dcsXferRun port false report data) s = .next ((u.raise (DSP_P_ERR__DCS_ERR port)).finishF h (refuse stHwFault 0x8007 [0, report.toNat])))
  ∧ (∀ (port : Fin 4) (report : W32) (data : List Byte) (acked : Bool) (s : State), (s.dpt port).dcs = [] →
      exec (.dcsXferRun port acked report data) s = .next s)
  ∧ (∀ (port : Fin 4) (present : Bool) (u v s : State), s.on (DSP_P_STAT__ATTACHED port) ≠ present →
      (u = (((s.setB (DSP_P_STAT__ATTACHED port) present).raise (if present then DSP_P_ERR__HPD_GAIN port else DSP_P_ERR__HPD_LOSS port)).bumpEvt .dsp (DSP_P_HPD_CNT port)).log .dsp evDspHotplug (0x6000 + port.val) (b2n present)) →
      (v = (match (u.dpt port).tg with | some t => u.pendIf (DSP_TG_IRQ__PEND t) 0 (u.on (DSP_TG_IRQ__HPD t)) (18 + t) | none => u)) →
      present = true ∨ port.val < 2 ∨ v.portState port ≠ 1 ∧ v.portState port ≠ 2 →
      exec (.hotplug port present) s = .next v)
  ∧ (∀ (port : Fin 4) (u v w s : State), s.on (DSP_P_STAT__ATTACHED port) = true →
      u = (((s.setB (DSP_P_STAT__ATTACHED port) false).raise (DSP_P_ERR__HPD_LOSS port)).bumpEvt .dsp (DSP_P_HPD_CNT port)).log .dsp evDspHotplug (0x6000 + port.val) 0 →
      (v = (match (u.dpt port).tg with | some t => u.pendIf (DSP_TG_IRQ__PEND t) 0 (u.on (DSP_TG_IRQ__HPD t)) (18 + t) | none => u)) →
    2 ≤ port.val → v.portState port = 1 ∨ v.portState port = 2 →
      (w = (if v.portState port = 1 then v.endEnable port (refuse stState 0x8006) else v)) →
      exec (.hotplug port false) s = .next ((w.endDcs port (refuse stState 0x8008)).setF (DSP_P_STAT__STATE port) 3))
  ∧ (∀ (port : Fin 4) (present : Bool) (s : State), s.on (DSP_P_STAT__ATTACHED port) = present →
      exec (.hotplug port present) s = .next s)

/-- Of a port that is not busy, with a ring and a source in range, AUD_CONFIGURE_PORT writes the port's configuration
and ring, forgets its earlier run but for its channel-status bytes, and counts a commit where its look state changed;
a busy port refuses it with STATE 0x8001. AUD_START of configured ports none of which is busy starts them at once, or
queues a start for a tick or an instant, by word 1; one busy port refuses it with STATE 0x8003. AUD_START_INSTANT
starts the waiting starts whose instant has come. AUD_STOP of a running port keeps the packet until its block
boundary; a port that does not run leaves every waiting start, is halted, and is answered at once. AUD_SET_CHSTATUS of
an AES3 output played by the host stores the 48 bytes; AUD_STATUS answers seven words and changes nothing. -/
def Obligations.AudioSettings : Prop :=
  (∀ (p : Pkt) (u : State) (s : State), accepted 0x0900 p s = true → (entered 0x0900 p s).audBusy p.idx = false →
    (p.t 0 3 && p.t 0 4) = false → 3 ≤ p.b 0 12 4 → p.b 0 12 4 ≤ 12 →
      (p.t 0 2 && p.b 0 8 4 != 15 && (decide (8 ≤ p.b 0 8 4) || p.b 0 8 4 == p.idx || (entered 0x0900 p s).audOut (p.b 0 8 4))) = false →
    p.q 2 % 4096 = 0 → p.q 2 + 2048 * 2 ^ p.b 0 12 4 ≤ (entered 0x0900 p s).wBytes →
      u = (((entered 0x0900 p s).wn (AUD_P_CFG p.idx) (p.w 0 / 2 * 2 + 1)).wn (AUD_P_RING_LO p.idx) (p.w 2)).wn (AUD_P_RING_HI p.idx) (p.w 3) →
      exec (.audConfigurePort p) s = .next (settled 0x0900 (s.pktHdr 0x0900 p) ((u.modAp p.idx (fun x => { outCs := x.outCs, hostCs := x.hostCs })).commitSince (entered 0x0900 p s)) (ok)))
  ∧ (∀ (p : Pkt) (s : State), accepted 0x0900 p s = true → (entered 0x0900 p s).audBusy p.idx = true →
      exec (.audConfigurePort p) s = .next (settled 0x0900 (s.pktHdr 0x0900 p) (entered 0x0900 p s) (refuse stState 0x8001)))
  ∧ (∀ (p : Pkt) (s : State), accepted 0x0901 p s = true → p.b 1 0 2 ≠ 3 →
      ((List.range 8).filter (bitAt (p.b 0 0 8))).any (entered 0x0901 p s).audBusy = false →
      ((List.range 8).filter (bitAt (p.b 0 0 8))).any (fun q => !(entered 0x0901 p s).on (AUD_P_CFG__CONFIGURED q)) = false →
      exec (.audStart p) s = .next (settled 0x0901 (s.pktHdr 0x0901 p) (if p.b 1 0 2 = 0 then (entered 0x0901 p s).audStartMask (p.b 0 0 8)
      else { (entered 0x0901 p s) with aud := { (entered 0x0901 p s).aud with starts := (entered 0x0901 p s).aud.starts ++ [{
        mask := p.b 0 0 8, fcg := if p.b 1 0 2 = 2 then some (p.b 1 4 2) else none, time := p.w 2 * 0x100000000 + p.w 3 }] } }) (ok)))
  ∧ (∀ (p : Pkt) (s : State), accepted 0x0901 p s = true → p.b 1 0 2 ≠ 3 →
      ((List.range 8).filter (bitAt (p.b 0 0 8))).any (entered 0x0901 p s).audBusy = true →
      exec (.audStart p) s = .next (settled 0x0901 (s.pktHdr 0x0901 p) (entered 0x0901 p s) (refuse stState 0x8003)))
  ∧ (∀ (s : State), exec .audStartInstant s = .next (s.audStartDue (fun x => x.fcg.isNone && decide (x.time ≤ s.now))))
  ∧ (∀ (p : Pkt) (s : State), accepted 0x0902 p s = true → (entered 0x0902 p s).on (AUD_P_STAT__RUN p.idx) = true →
      exec (.audStop p) s = .next ((entered 0x0902 p s).modAp p.idx (fun x => { x with stopping := some (s.pktHdr 0x0902 p) })))
  ∧ (∀ (p : Pkt) (s : State), accepted 0x0902 p s = true → (entered 0x0902 p s).on (AUD_P_STAT__RUN p.idx) = false →
      exec (.audStop p) s = .next (settled 0x0902 (s.pktHdr 0x0902 p) (State.audHalt { (entered 0x0902 p s) with aud := { (entered 0x0902 p s).aud with starts := (entered 0x0902 p s).aud.starts.map (fun (x : AudStart) => if bitAt x.mask p.idx then { x with mask := x.mask - 2 ^ p.idx } else x) } } p.idx) (ok)))
  ∧ (∀ (p : Pkt) (s : State), accepted 0x0903 p s = true →
      ((entered 0x0903 p s).on (AUD_P_CFG__AES3 p.idx) && (entered 0x0903 p s).audOut p.idx && (entered 0x0903 p s).audHost p.idx) = true →
      exec (.audSetChstatus p) s = .next (settled 0x0903 (s.pktHdr 0x0903 p) ((entered 0x0903 p s).modAp p.idx (fun x => { x with hostCs := some ((List.range 12).flatMap (fun i => leBytes 4 (p.w i))) })) (ok)))
  ∧ (∀ (p : Pkt) (s : State), accepted 0x0904 p s = true →
      exec (.audStatus p) s = .next (settled 0x0904 (s.pktHdr 0x0904 p) s (ok [s.rn (AUD_P_CFG p.idx), s.rn (AUD_P_STAT p.idx), s.rn (AUD_P_ERR p.idx), s.rn (AUD_P_RATE_PPM p.idx), s.rn (AUD_P_BLOCK p.idx),
        s.rn (AUD_P_LAST_NS p.idx), s.rn (AUD_P_UNDER_CNT p.idx)])))

/-- AUD_BLOCK_BOUNDARY starts an armed port; on a running port it ends the block, then halts the port where AUD_STOP
waits, else records an external clock's measured rate, counts towards unmuting and begins the next block. PLAY_FETCH
on a host-played output that has nothing fetched fetches the next block, or block 0 where the port does not run but is
armed or waits for its start. AUD_FRAME_IN on a running input with room in the block decodes the two slots as AES3 or
I²S and records the frame, or zeros while glitched, rate-muted, in holdover or overrun, counting overruns and parity
errors; elsewhere it changes nothing. AUD_CLOCK_STOP of a running port on an external clock begins holdover and logs
it, HOLDOVER_EXIT ends it; AUD_GLITCH marks the block, counts, shows an output muted and logs; AUD_RATE_CHANGE beyond
1,000 ppm rate-mutes the port, shows an output muted and logs where it was not rate-muted. AUD_CLOCK_STOP, AUD_GLITCH
and AUD_RATE_CHANGE on a port that does not run change nothing. -/
def Obligations.AudioRuns : Prop :=
  (∀ (port : Fin 8) (ppm : Int) (s : State), (s.ap port).armed = true →
      exec (.audBlockBoundary port ppm) s = .next (s.audRun port))
  ∧ (∀ (port : Fin 8) (ppm : Int) (u s : State), (s.ap port).armed = false → s.on (AUD_P_STAT__RUN port) = true →
    u = s.endBlock port → (u.ap port).stopping.isSome = true →
      exec (.audBlockBoundary port ppm) s = .next (u.audHalt port))
  ∧ (∀ (port : Fin 8) (ppm : Int) (u v s : State), (s.ap port).armed = false → s.on (AUD_P_STAT__RUN port) = true →
    u = s.endBlock port → (u.ap port).stopping = none →
    (v = (if u.audExt port then u.wn (AUD_P_RATE_PPM port) (ofInt 32 ppm) else u)) → (v.ap port).rateMute = none →
      exec (.audBlockBoundary port ppm) s = .next (v.beginBlock port (((v.ap port).k + 1) % 0x100000000)))
  ∧ (∀ (port : Fin 8) (ppm : Int) (n : Nat) (u v w s : State), (s.ap port).armed = false →
    s.on (AUD_P_STAT__RUN port) = true → u = s.endBlock port → (u.ap port).stopping = none →
    (v = (if u.audExt port then u.wn (AUD_P_RATE_PPM port) (ofInt 32 ppm) else u)) → (v.ap port).rateMute = some n →
      (w = (v.modAp port (fun q => { q with rateMute := if 2 ≤ (if -500 ≤ ppm ∧ ppm ≤ 500 then n + 1 else 0) then none else some (if -500 ≤ ppm ∧ ppm ≤ 500 then n + 1 else 0) })).showMute port) →
      exec (.audBlockBoundary port ppm) s = .next (w.beginBlock port (((w.ap port).k + 1) % 0x100000000)))
  ∧ (∀ (port : Fin 8) (s : State), s.audOut port = true → s.audHost port = true → (s.ap port).fetched = none →
      s.on (AUD_P_STAT__RUN port) = true →
      exec (.playFetch port) s = .next (s.playFetch port (((s.ap port).k + 1) % 0x100000000)))
  ∧ (∀ (port : Fin 8) (s : State), s.audOut port = true → s.audHost port = true → (s.ap port).fetched = none →
      s.on (AUD_P_STAT__RUN port) = false →
      (s.ap port).armed = true ∨ s.aud.starts.any (fun x => bitAt x.mask port.val) = true →
      exec (.playFetch port) s = .next (s.playFetch port 0))
  ∧ (∀ (port : Fin 8) (slotA slotB : W32) (full zero : Bool) (f kept : AudFrame) (par : Nat) (u v w s : State),
    s.on (AUD_P_STAT__RUN port) = true → s.audOut port = false → (s.ap port).frames.length < 192 →
      (f = (if s.on (AUD_P_CFG__AES3 port) then ⟨aesSub slotA.toNat, aesSub slotB.toNat⟩ else ⟨i2sSub slotA.toNat, i2sSub slotB.toNat⟩)) →
      zero = (full || (s.ap port).glitched || (s.ap port).rateMute.isSome || s.on (AUD_P_STAT__HOLDOVER port)) →
      (u = (if full then (s.audErr port (AUD_P_ERR__OVERRUN port)).audFlag port 2 else s)) →
      (v = (if (full && !(s.ap port).ovr) then (u.bumpStat (AUD_P_OVR_CNT port)).log .aud evAudOverrun (audTarget port) (u.ap port).k else u)) →
      (par = (if zero then 0 else b2n f.a.p + b2n f.b.p)) →
      (w = (if par = 0 then v else ((v.audErr port (AUD_P_ERR__PARITY port)).audFlag port 8).bumpStat (AUD_P_PARITY_CNT port) par)) →
      (kept = (if zero then {} else f)) →
      let x := (w.monitor port kept).modAp port (fun q => { q with frames := q.frames ++ [kept], zeros := q.zeros + b2n zero, ovr := full })
      exec (.audFrameIn port slotA slotB full) s =
        .next (if s.on (AUD_P_CFG__AES3 port) = true ∧ (s.ap port).frames.length = 1 ∧ zero = false then x.nonAudioAt port f else x))
  ∧ (∀ (port : Fin 8) (slotA slotB : W32) (full : Bool) (s : State),
      s.on (AUD_P_STAT__RUN port) = false ∨ s.audOut port = true ∨ 192 ≤ (s.ap port).frames.length →
      exec (.audFrameIn port slotA slotB full) s = .next s)
  ∧ (∀ (port : Fin 8) (s : State), s.on (AUD_P_STAT__RUN port) = true → s.audExt port = true →
      s.on (AUD_P_STAT__HOLDOVER port) = false →
      exec (.audClockStop port) s = .next ((((((s.setB (AUD_P_STAT__HOLDOVER port) true).setB (AUD_P_STAT__SIGNAL port) false).audErr port
        (AUD_P_ERR__HOLDOVER port)).audFlag port 4)).log .aud evAudHoldover (audTarget port) (s.ap port).k))
  ∧ (∀ (port : Fin 8) (s : State),
      exec (.holdoverExit port) s =
        .next (if s.on (AUD_P_STAT__HOLDOVER port) then (s.setB (AUD_P_STAT__HOLDOVER port) false).setB (AUD_P_STAT__SIGNAL port) true else s))
  ∧ (∀ (port : Fin 8) (t u s : State), s.on (AUD_P_STAT__RUN port) = true → s.audExt port = true →
      t = (s.modAp port (fun q => { q with glitched := true })).bumpStat (AUD_P_GLITCH_CNT port) →
      (u = (if t.audOut port then t.emit (.audioMuted port) else t)) →
      exec (.audGlitch port) s =
        .next (((u.audErr port (AUD_P_ERR__GLITCH port)).audFlag port 5).log .aud evAudGlitch (audTarget port) (u.ap port).k))
  ∧ (∀ (port : Fin 8) (ppm : Int) (t u s : State), s.on (AUD_P_STAT__RUN port) = true → s.audExt port = true →
    ppm = sext 32 (s.rn (AUD_P_RATE_PPM port)) → ppm < -1000 ∨ 1000 < ppm →
      t = (s.modAp port (fun q => { q with rateMute := some 0 })).showMute port →
      (u = ((if t.audOut port then t.emit (.audioMuted port) else t).audErr port (AUD_P_ERR__RATE_ERR port)).audFlag port 6) →
      exec (.audRateChange port) s = .next (if (s.ap port).rateMute.isNone then u.log .aud evAudRateErr (audTarget port) (ofInt 32 ppm) else u))
  ∧ (∀ (port : Fin 8) (s : State), s.on (AUD_P_STAT__RUN port) = false →
      exec (.audClockStop port) s = .next s ∧ exec (.audGlitch port) s = .next s ∧ exec (.audRateChange port) s = .next s)

/-- TIM_NOW_NS hands back the nanosecond word and latches the epoch and the fraction beside it for the master that
read it; a master shut out reads zero. TIM_GET answers the three words of the time and the two of the addend.
TIM_SET_ADDEND with an addend within 1,000 ppm of nominal stores it and refuses any other with BAD_PARAM 0x8002.
TB_WRAP runs, while the block is clocked, the FAB ticks up to the next carry of the nanosecond word. Accepted with a
period of 1 ms to 2 s, FCG_CONFIGURE of a running generator waits for its next pulse, and of a stopped one takes
effect at once; any other period is refused with BAD_PARAM 0x8003. FCG_TICK before the generator's next instant, or
while it is disabled, changes nothing; at or after it, it counts the pulse, keeps its instant, moves to the waiting
setting or the next instant, and passes the pulse to the triggers, the compositors, the audio starts and the pacing
that follow this generator. -/
def Obligations.Time : Prop :=
  (∀ (s : State), exec .tbWrap s = .next (if s.clocked then s.fabTicks s.ticksToWrap else s))
  ∧ (∀ (master : Byte) (s : State), s.shut master = false →
      exec (.timNowNs master) s =
        .next (((s.hold master TIM_NOW_EPOCH (s.rd TIM_NOW_EPOCH)).hold master TIM_NOW_FRAC (s.rd TIM_NOW_FRAC)).emit (.word
          (((s.hold master TIM_NOW_EPOCH (s.rd TIM_NOW_EPOCH)).hold master TIM_NOW_FRAC (s.rd TIM_NOW_FRAC)).rd TIM_NOW_NS))))
  ∧ (∀ (master : Byte) (s : State), s.shut master = true → exec (.timNowNs master) s = .next (s.emit (.word 0)))
  ∧ (∀ (p : Pkt) (s : State), accepted 0x0A02 p s = true →
      exec (.timGet p) s = .next (settled 0x0A02 (s.pktHdr 0x0A02 p) s (ok [s.rn TIM_NOW_NS, s.rn TIM_NOW_EPOCH, s.rn TIM_NOW_FRAC, s.rn TIM_ADDEND_LO, s.rn TIM_ADDEND_HI])))
  ∧ (∀ (p : Pkt) (s : State), accepted 0x0A00 p s = true → 0x154FDF3B6 ≤ p.q 0 → p.q 0 ≤ 0x155ACB6F4 →
      exec (.timSetAddend p) s = .next (settled 0x0A00 (s.pktHdr 0x0A00 p) ((s.wn TIM_ADDEND_LO (p.w 0)).wn TIM_ADDEND_HI (p.w 1)) (ok)))
  ∧ (∀ (p : Pkt) (s : State), accepted 0x0A00 p s = true → p.q 0 < 0x154FDF3B6 ∨ 0x155ACB6F4 < p.q 0 →
      exec (.timSetAddend p) s = .next (settled 0x0A00 (s.pktHdr 0x0A00 p) s (refuse stBadParam 0x8002)))
  ∧ (∀ (p : Pkt) (s : State), accepted 0x0A03 p s = true → 1000000 * 0x100000000 ≤ p.q 3 →
    p.q 3 ≤ 2000000000 * 0x100000000 → ((entered 0x0A03 p s).fcg (p.b 0 0 2)).live.en = false →
      exec (.fcgConfigure p) s = .next (settled 0x0A03 (s.pktHdr 0x0A03 p) ((entered 0x0A03 p s).fcgApply (p.b 0 0 2) { en := p.t 0 4, origin := p.w 2 * 0x100000000 + p.w 1, period := p.q 3 }) (ok)))
  ∧ (∀ (p : Pkt) (s : State), accepted 0x0A03 p s = true → 1000000 * 0x100000000 ≤ p.q 3 →
    p.q 3 ≤ 2000000000 * 0x100000000 → ((entered 0x0A03 p s).fcg (p.b 0 0 2)).live.en = true →
      exec (.fcgConfigure p) s = .next (settled 0x0A03 (s.pktHdr 0x0A03 p) ((entered 0x0A03 p s).modFcg (p.b 0 0 2) (fun f => { f with next := some { en := p.t 0 4, origin := p.w 2 * 0x100000000 + p.w 1, period := p.q 3 } })) (ok)))
  ∧ (∀ (p : Pkt) (s : State), accepted 0x0A03 p s = true →
      p.q 3 < 1000000 * 0x100000000 ∨ 2000000000 * 0x100000000 < p.q 3 →
      exec (.fcgConfigure p) s = .next (settled 0x0A03 (s.pktHdr 0x0A03 p) (entered 0x0A03 p s) (refuse stBadParam 0x8003)))
  ∧ (∀ (fcg : Fin 4) (s : State), (s.fcg fcg).live.en = false ∨ (s.nowFx : Int) < (s.fcg fcg).live.at_ (s.fcg fcg).k →
      exec (.fcgTick fcg) s = .next s)
  ∧ (∀ (fcg : Fin 4) (u v : State) (s : State), (s.fcg fcg).live.en = true →
    (s.fcg fcg).live.at_ (s.fcg fcg).k ≤ (s.nowFx : Int) → (s.fcg fcg).next = none →
      u = (s.bumpEvt .tim (FCG_TICK_CNT fcg)).modFcg fcg (fun q => { q with last := some ((s.fcg fcg).live.at_ (s.fcg fcg).k) }) →
      v = (((u.modFcg fcg (fun q => { q with k := q.k + 1 })).fcgShow fcg).trgTick fcg).fcgCmp fcg →
      exec (.fcgTick fcg) s = .next ((v.audStartDue (fun x => x.fcg == some fcg.val)).fcgPace fcg))
  ∧ (∀ (fcg : Fin 4) (c : FcgCfg) (u v : State) (s : State), (s.fcg fcg).live.en = true →
    (s.fcg fcg).live.at_ (s.fcg fcg).k ≤ (s.nowFx : Int) → (s.fcg fcg).next = some c →
      u = (s.bumpEvt .tim (FCG_TICK_CNT fcg)).modFcg fcg (fun q => { q with last := some ((s.fcg fcg).live.at_ (s.fcg fcg).k) }) →
      v = ((u.fcgApply fcg c).trgTick fcg).fcgCmp fcg →
      exec (.fcgTick fcg) s = .next ((v.audStartDue (fun x => x.fcg == some fcg.val)).fcgPace fcg))

/-- The step is the signed 32.32 change, or the way to the absolute time asked. Where its exact size exceeds
TIM_STEP_LIMIT and FORCE is clear the command completes with BAD_PARAM and DETAIL 0x8001, sets TB_STEP_REFUSED, logs
the event with the step, and the time base stays. Every other step, whatever its size under FORCE, sets FORCED where
FORCE is set, ticks the lanes once, moves the time base to what the tick would have made it plus the step, counts,
tells the consumers, and answers the step and the new time. -/
def Obligations.StepLimit : Prop :=
  (∀ (p : Pkt) (d : Int) (whole : Nat) (s : State), accepted 0x0A01 p s = true →
      (d = (if p.t 0 1 then short96 ((p.w 2 * 0x10000000000000000 + p.w 1 * 0x100000000 + p.w 3 : Nat) -
          (((s.nowFx + s.addend : Nat) : Int) % 2 ^ 96)) else sext 64 (p.q 1) * 0x100000000)) →
    s.rn TIM_STEP_LIMIT * 0x100000000 < d.natAbs → p.t 0 0 = false → whole = ofInt 64 (d / 0x100000000) →
      exec (.timStep p) s = .next (settled 0x0A01 (s.pktHdr 0x0A01 p) ((s.raise TIM_ERR__TB_STEP_REFUSED).log .tim evTbStepRefused 0xFFFF (whole % 0x100000000) (whole / 0x100000000) (ofInt 32 d)) (refuse stBadParam 0x8001)))
  ∧ (∀ (p : Pkt) (tick d : Int) (whole : Nat) (u v : State) (s : State), accepted 0x0A01 p s = true →
      tick = ((s.nowFx + s.addend : Nat) : Int) % 2 ^ 96 →
      (d = (if p.t 0 1 then short96 ((p.w 2 * 0x10000000000000000 + p.w 1 * 0x100000000 + p.w 3 : Nat) - tick)
    else sext 64 (p.q 1) * 0x100000000)) → d.natAbs ≤ s.rn TIM_STEP_LIMIT * 0x100000000 ∨ p.t 0 0 = true →
    whole = ofInt 64 (d / 0x100000000) → (v = (if p.t 0 0 then s.raise TIM_ERR__FORCED else s)) →
      u = (((v.laneTicks 1).putTime (((tick + d) % 2 ^ 96).toNat) (decide (d + v.addend < 0))).bumpEvt .tim TIM_STEP_CNT).stepConsumers d →
      exec (.timStep p) s = .next (settled 0x0A01 (s.pktHdr 0x0A01 p) (u) (ok [whole % 0x100000000, whole / 0x100000000, u.rn TIM_NOW_NS, u.rn TIM_NOW_EPOCH, ofInt 32 d])))

/-- While the link is not enabled, NET_CONFIGURE with an MTU of 42 to 9,000, rings aligned to 4 KiB of 16 to 4,096
descriptors, and no FEC at the lower speed, stores speed, FEC, filters and rings, empties the rings and counts a
commit where its look state changed; an enabled link refuses it with STATE 0x8004 and bad values with BAD_PARAM
0x8005. NET_SET_PTP stores the two adjustments. It and NET_LINK_CONTROL before a configuration are refused with STATE
0x8006, and an enable during analogue test item 2 or 3 with STATE 0x8002. Any other NET_LINK_CONTROL stores loop-back
and the enable: a disable takes the link down and is answered at once; an enable is answered at once when the link is
up and otherwise joins the packets waiting for it. NET_LINK_CHANGE to up is not followed while the link is disabled;
every other one is handed to the link. -/
def Obligations.NetworkSettings : Prop :=
  (∀ (p : Pkt) (u v : State) (s : State), accepted 0x0A04 p s = true → (entered 0x0A04 p s).net.up = false →
    (p.t 0 1 && !p.t 0 0) = false → 42 ≤ p.b 0 16 14 → p.b 0 16 14 ≤ 9000 →
      ([35, 38, 41].all ((entered 0x0A04 p s).netRingOk p)) = true →
      u = (((entered 0x0A04 p s).setB NET_STAT__SPEED (p.t 0 0)).setB NET_STAT__FEC (p.t 0 1)).modNet (fun n => { n with
            configured := true, promisc := p.t 0 2, mtu := p.b 0 16 14, mac := p.w 1 + p.b 2 0 16 * 0x100000000
            mcast := (List.range 16).map (fun i => p.w (3 + 2 * i) + p.b (3 + 2 * i + 1) 0 16 * 0x100000000)
            tail := [0, 0, 0], tx := [none, none] }) →
      v = [0, 1, 2].foldl (fun v q => (((v.wn (NET_R_BASE_LO q) (p.w (35 + 3 * q))).wn (NET_R_BASE_HI q) (p.w (35 + 3 * q + 1))).wn (NET_R_CFG q)
          (p.w (35 + 3 * q + 2))).wn (NET_R_HEAD q) 0) u →
      exec (.netConfigure p) s = .next (settled 0x0A04 (s.pktHdr 0x0A04 p) (v.commitSince (entered 0x0A04 p s)) (ok)))
  ∧ (∀ (p : Pkt) (s : State), accepted 0x0A04 p s = true → (entered 0x0A04 p s).net.up = true →
      exec (.netConfigure p) s = .next (settled 0x0A04 (s.pktHdr 0x0A04 p) (entered 0x0A04 p s) (refuse stState 0x8004)))
  ∧ (∀ (p : Pkt) (s : State), accepted 0x0A04 p s = true → (entered 0x0A04 p s).net.up = false →
      (p.t 0 1 && !p.t 0 0) = true ∨ p.b 0 16 14 < 42 ∨ 9000 < p.b 0 16 14 ∨ ([35, 38, 41].all ((entered 0x0A04 p s).netRingOk p)) = false →
      exec (.netConfigure p) s = .next (settled 0x0A04 (s.pktHdr 0x0A04 p) (entered 0x0A04 p s) (refuse stBadParam 0x8005)))
  ∧ (∀ (p : Pkt) (s : State), accepted 0x0A06 p s = true → (entered 0x0A06 p s).net.configured = true →
      exec (.netSetPtp p) s = .next (settled 0x0A06 (s.pktHdr 0x0A06 p) ((entered 0x0A06 p s).modNet (fun n => { n with txAdj := sext 32 (p.w 0), rxAdj := sext 32 (p.w 1) })) (ok)))
  ∧ (∀ (p : Pkt) (s : State), accepted 0x0A06 p s = true → (entered 0x0A06 p s).net.configured = false →
      exec (.netSetPtp p) s = .next (settled 0x0A06 (s.pktHdr 0x0A06 p) (entered 0x0A06 p s) (refuse stState 0x8006)))
  ∧ (∀ (p : Pkt) (s : State), accepted 0x0A05 p s = true → (entered 0x0A05 p s).net.configured = false →
      exec (.netLinkControl p) s = .next (settled 0x0A05 (s.pktHdr 0x0A05 p) (entered 0x0A05 p s) (refuse stState 0x8006)))
  ∧ (∀ (p : Pkt) (s : State), accepted 0x0A05 p s = true → (entered 0x0A05 p s).net.configured = true →
    p.t 0 0 = true → (((entered 0x0A05 p s).analogue 2).isSome || ((entered 0x0A05 p s).analogue 3).isSome) = true →
      exec (.netLinkControl p) s = .next (settled 0x0A05 (s.pktHdr 0x0A05 p) (entered 0x0A05 p s) (refuse stState 0x8002)))
  ∧ (∀ (p : Pkt) (s : State), accepted 0x0A05 p s = true → (entered 0x0A05 p s).net.configured = true →
      p.t 0 0 = false →
      exec (.netLinkControl p) s = .next (settled 0x0A05 (s.pktHdr 0x0A05 p) (State.netLink (((entered 0x0A05 p s).setB NET_STAT__LOOP (p.t 0 1)).modNet (fun n => { n with up := false })) false [] []) (ok)))
  ∧ (∀ (p : Pkt) (s : State), accepted 0x0A05 p s = true → (entered 0x0A05 p s).net.configured = true →
      p.t 0 0 = true →
      (((entered 0x0A05 p s).analogue 2).isSome || ((entered 0x0A05 p s).analogue 3).isSome) = false →
      ((entered 0x0A05 p s).setB NET_STAT__LOOP (p.t 0 1)).on NET_STAT__LINK = false →
      exec (.netLinkControl p) s = .next (((entered 0x0A05 p s).setB NET_STAT__LOOP (p.t 0 1)).modNet (fun n => { n with up := true, upWait := n.upWait ++ [s.pktHdr 0x0A05 p] })))
  ∧ (∀ (p : Pkt) (s : State), accepted 0x0A05 p s = true → (entered 0x0A05 p s).net.configured = true →
      p.t 0 0 = true →
      (((entered 0x0A05 p s).analogue 2).isSome || ((entered 0x0A05 p s).analogue 3).isSome) = false →
      ((entered 0x0A05 p s).setB NET_STAT__LOOP (p.t 0 1)).on NET_STAT__LINK = true →
      exec (.netLinkControl p) s = .next (settled 0x0A05 (s.pktHdr 0x0A05 p) (((entered 0x0A05 p s).setB NET_STAT__LOOP (p.t 0 1)).modNet (fun n => { n with up := true })) (ok)))
  ∧ (∀ (up : Bool) (fetch0 fetch1 : List NetFetch) (s : State),
      exec (.netLinkChange up fetch0 fetch1) s = .next (if up && !s.net.up then s else s.netLink up fetch0 fetch1))

/-- NET_DB of a host that is not shut out moves a configured ring's tail to a value inside twice the ring, not more
than a ring ahead of HEAD and not behind the last tail, and fetches for a transmit ring; any other value is ignored.
NET_LAUNCH releases TQ0's head once its LAUNCH time has come. NET_TX_EGRESS with nothing fetched fetches; with a head
that may leave it emits the frame padded to 60 bytes, one-step corrected where asked, counts it and PTP frames, writes
the descriptor back and fetches the next; a head that may not leave waits. NET_RX_FRAME with the link down is nothing,
with a bad FCS or a pause frame is only counted; a frame of bad length, of a foreign address, with no descriptor, with
an unreadable one (a buffer error too), or longer than its buffer, is dropped and counted; as is one whose buffer lies
outside the space, which is a DMA error too; any other is written to the buffer, its descriptor written back with
length, flags and stamp, and counted. -/
def Obligations.NetworkFrames : Prop :=
  (∀ (ring : Fin 3) (v : W32) (fetch : List NetFetch) (t m ahead : Nat) (s u : State), t = v.toNat % 0x2000 →
    m = 2 * s.netN ring → ahead = (t + m - s.f (NET_R_HEAD__HEAD ring) % m) % m → s.shut 0 = false →
    s.net.configured = true → t < m → ahead ≤ s.netN ring → s.netWaiting ring ≤ ahead →
      u = s.modNet (fun n => { n with tail := n.tail.set ring t }) →
      exec (.netDb ring v fetch) s = .next (if (ring : Nat) < 2 then u.netMore ring fetch else u))
  ∧ (∀ (ring : Fin 3) (v : W32) (fetch : List NetFetch) (t m ahead : Nat) (s : State), t = v.toNat % 0x2000 →
    m = 2 * s.netN ring → ahead = (t + m - s.f (NET_R_HEAD__HEAD ring) % m) % m →
      s.shut 0 = true ∨ s.net.configured = false ∨ m ≤ t ∨ s.netN ring < ahead ∨ ahead < s.netWaiting ring →
      exec (.netDb ring v fetch) s = .next s)
  ∧ (∀ (t : TxFrame) (s : State), s.net.tx.getD 0 none = some t →
      exec .netLaunch s =
        .next (if t.launch ≤ s.now then s.modNet (fun n => { n with tx := n.tx.set 0 (some { t with held := false }) }) else s))
  ∧ (∀ (s : State), s.net.tx.getD 0 none = none → exec .netLaunch s = .next s)
  ∧ (∀ (queue : Fin 2) (fetch : List NetFetch) (s : State), s.net.tx.getD queue none = none →
      exec (.netTxEgress queue fetch) s = .next (s.netMore queue fetch))
  ∧ (∀ (queue : Fin 2) (fetch : List NetFetch) (t : TxFrame) (s : State), s.net.tx.getD queue none = some t →
    s.mayLeave queue t = false → exec (.netTxEgress queue fetch) s = .next s)
  ∧ (∀ (queue : Fin 2) (fetch : List NetFetch) (t : TxFrame) (data : List Byte) (s u : State),
    s.net.tx.getD queue none = some t → s.mayLeave queue t = true →
      (data = (if bitAt (txFlags t.desc) 1 then oneStep t.desc t.data (s.netStamp s.net.txAdj) else t.data)) →
      (u = ((s.emit (.netFrame (data ++ List.replicate (60 - data.length) 0))).bumpEvt .net NET_TX_CNT).netBack queue
          (txBack t.desc (if txFlags t.desc % 4 = 0 then 0 else s.netStamp s.net.txAdj) 0 (b2n (t.stepped && bitAt (txFlags t.desc) 1) + 2 * b2n t.lateLaunch))) →
      exec (.netTxEgress queue fetch) s = .next ((u.modNet (fun n => { n with tx := n.tx.set queue none, ptpSent := n.ptpSent + b2n (isPtp data) })).netMore queue fetch))
  ∧ (∀ (frame : List Byte) (fcsOk : Bool) (desc : HostRead) (s : State), s.on NET_STAT__LINK = false →
      exec (.netRxFrame frame fcsOk desc) s = .next s)
  ∧ (∀ (frame : List Byte) (desc : HostRead) (s : State), s.on NET_STAT__LINK = true →
      exec (.netRxFrame frame false desc) s = .next (s.bumpStat NET_RX_FCS))
  ∧ (∀ (frame : List Byte) (desc : HostRead) (s : State), s.on NET_STAT__LINK = true →
    beNat ((frame.drop 12).take 2) = 0x8808 → exec (.netRxFrame frame true desc) s = .next (s.bumpStat NET_RX_PAUSE))
  ∧ (∀ (frame : List Byte) (desc : HostRead) (s : State), s.on NET_STAT__LINK = true →
      beNat ((frame.drop 12).take 2) ≠ 0x8808 →
      frame.length < 60 ∨ s.net.mtu + 18 < frame.length ∨ s.netAccepts frame = false ∨ s.netWaiting 2 = 0 →
      exec (.netRxFrame frame true desc) s = .next (s.bumpStat NET_RX_DROP))
  ∧ (∀ (frame : List Byte) (desc : HostRead) (s : State), s.on NET_STAT__LINK = true →
    beNat ((frame.drop 12).take 2) ≠ 0x8808 → 60 ≤ frame.length → frame.length ≤ s.net.mtu + 18 →
    s.netAccepts frame = true → 0 < s.netWaiting 2 → s.netRead 2 (s.netAddr 2) 32 desc = none →
      exec (.netRxFrame frame true desc) s = .next ((s.bufError .net (s.netRef 2 (s.netAddr 2) 32) desc).bumpStat NET_RX_DROP))
  ∧ (∀ (frame : List Byte) (desc : HostRead) (d : List Byte) (s : State), s.on NET_STAT__LINK = true →
    beNat ((frame.drop 12).take 2) ≠ 0x8808 → 60 ≤ frame.length → frame.length ≤ s.net.mtu + 18 →
    s.netAccepts frame = true → 0 < s.netWaiting 2 → s.netRead 2 (s.netAddr 2) 32 desc = some d →
    descF d 8 2 < frame.length → exec (.netRxFrame frame true desc) s = .next (s.bumpStat NET_RX_DROP))
  ∧ (∀ (frame : List Byte) (desc : HostRead) (d : List Byte) (s : State), s.on NET_STAT__LINK = true →
    beNat ((frame.drop 12).take 2) ≠ 0x8808 → 60 ≤ frame.length → frame.length ≤ s.net.mtu + 18 →
    s.netAccepts frame = true → 0 < s.netWaiting 2 → s.netRead 2 (s.netAddr 2) 32 desc = some d →
    frame.length ≤ descF d 8 2 → s.refOk (s.netRef 2 (descF d 0 8) frame.length) = false →
      exec (.netRxFrame frame true desc) s =
        .next ((s.dmaError .net 0xFFFF (s.netRef 2 (descF d 0 8) frame.length).addr false).bumpStat NET_RX_DROP))
  ∧ (∀ (frame : List Byte) (desc : HostRead) (d : List Byte) (da fl stamp : Nat) (s u : State),
    s.on NET_STAT__LINK = true → beNat ((frame.drop 12).take 2) ≠ 0x8808 → 60 ≤ frame.length →
    frame.length ≤ s.net.mtu + 18 → s.netAccepts frame = true → 0 < s.netWaiting 2 →
    s.netRead 2 (s.netAddr 2) 32 desc = some d → frame.length ≤ descF d 8 2 →
    s.refOk (s.netRef 2 (descF d 0 8) frame.length) = true → da = leNat (frame.take 6) →
      fl = b2n (isPtp frame) + 2 * b2n (typeOfs frame == 16) + 4 * b2n (da % 2 == 1 && da != 0xFFFFFFFFFFFF)
    + 8 * b2n (da == 0xFFFFFFFFFFFF) → stamp = s.netStamp s.net.rxAdj →
      u = (s.writeRef (s.netRef 2 (descF d 0 8) frame.length) frame).netBack 2 (padBytes 8 d ++ leBytes 2 frame.length ++
          leBytes 2 fl ++ leBytes 4 (stamp / 0x100000000) ++ leBytes 4 (stamp / 0x10000000000000000) ++ leBytes 2 (stamp / 0x10000)) →
      exec (.netRxFrame frame true desc) s = .next (u.bumpEvt .net NET_RX_CNT))

/-- With references that lie inside their space, a state reference of 0 or 40,960 bytes, a completion record of at
least 32 bytes, a tag no job carries and a queue of fewer than 64 jobs, DFL_SUBMIT and DFL_RESUME append the job under
its tag, hand it to the budget scheduler and answer the queue's length. DFL_SUBMIT with a level outside 1 to 9 to
compress, with a reserved code, or with a check under a framing that has its own, is refused with BAD_PARAM and word
0. DFL_ABORT of a queued job takes it out, writes its record as ABORTED and answers 0; of a job in an engine it comes
too late and answers 1, or stops the engine at a block, writes what was made and the record and answers 0, as a free
value chooses; of an unknown tag it answers 2. DFL_STATUS of a queued job answers whether it heads the queue and waits
for admission, of one in an engine 2 with two free counts, and of an unknown tag 3. DFL_JOB_START with the queue's
head admitted, an engine free and the device not safe takes the head into the first free engine and clears that
engine's output count; with no free engine, an empty queue, an unadmitted head or in the safe state it changes
nothing. DFL_JOB_END ends the job of a busy engine and does nothing on a free one. DFL_DEFER_EXPIRY of a queued job
that is not admitted, with DEFER_MS not 0, takes it out and writes its record as THERMAL_DEFERRED; of any other job it
changes nothing. -/
def Obligations.Deflate : Prop :=
  (∀ (p : Pkt) (u : State) (s : State), accepted 0x0B00 p s = true →
      ¬ ((dflInflate (p.w 0) = false ∧ (dflLevel (p.w 0) < 1 ∨ 9 < dflLevel (p.w 0))) ∨ dflFrame (p.w 0) = 3 ∨ dflHuff (p.w 0) = 3 ∨ dflCheck (p.w 0) = 3 ∨ (dflFrame (p.w 0) ≠ 0 ∧ dflCheck (p.w 0) ≠ 0)) →
    (p.ref 12).len = 0 ∨ (p.ref 12).len = 40960 → s.refOk (p.ref 4) = true → s.refOk (p.ref 8) = true →
    s.refOk (p.ref 12) = true → s.refOk (p.ref 16) = true → 32 ≤ (p.ref 16).len → s.dflTag (p.b 1 0 16) = false →
    s.dfl.queue.length < 64 → u = (s.modDfl (fun d => { d with
            queue := d.queue ++ [⟨s.dfl.nextId, p.w 0, p.b 1 0 16, false, ((p.ref 4).addr, (p.ref 4).len, (p.ref 4).space), ((p.ref 8).addr,
              (p.ref 8).len, (p.ref 8).space), ((p.ref 12).addr, (p.ref 12).len, (p.ref 12).space), ((p.ref 16).addr, (p.ref 16).len, (p.ref 16).space)⟩]
            nextId := d.nextId + 1 })).arrive (.dfl s.dfl.nextId) →
      exec (.dflSubmit p) s = .next (settled 0x0B00 (s.pktHdr 0x0B00 p) (u) (ok [u.dfl.queue.length])))
  ∧ (∀ (p : Pkt) (s : State), accepted 0x0B00 p s = true →
      (dflInflate (p.w 0) = false ∧ (dflLevel (p.w 0) < 1 ∨ 9 < dflLevel (p.w 0))) ∨ dflFrame (p.w 0) = 3 ∨ dflHuff (p.w 0) = 3 ∨ dflCheck (p.w 0) = 3 ∨ (dflFrame (p.w 0) ≠ 0 ∧ dflCheck (p.w 0) ≠ 0) →
      exec (.dflSubmit p) s = .next (settled 0x0B00 (s.pktHdr 0x0B00 p) s (badWord 0)))
  ∧ (∀ (p : Pkt) (u : State) (s : State), accepted 0x0B01 p s = true → (p.ref 12).len = 0 ∨ (p.ref 12).len = 40960 →
    s.refOk (p.ref 4) = true → s.refOk (p.ref 8) = true → s.refOk (p.ref 12) = true → s.refOk (p.ref 16) = true →
    32 ≤ (p.ref 16).len → s.dflTag (p.b 1 0 16) = false → s.dfl.queue.length < 64 → u = (s.modDfl (fun d => { d with
            queue := d.queue ++ [⟨s.dfl.nextId, p.w 0, p.b 1 0 16, true, ((p.ref 4).addr, (p.ref 4).len, (p.ref 4).space), ((p.ref 8).addr,
              (p.ref 8).len, (p.ref 8).space), ((p.ref 12).addr, (p.ref 12).len, (p.ref 12).space), ((p.ref 16).addr, (p.ref 16).len, (p.ref 16).space)⟩]
            nextId := d.nextId + 1 })).arrive (.dfl s.dfl.nextId) →
      exec (.dflResume p) s = .next (settled 0x0B01 (s.pktHdr 0x0B01 p) (u) (ok [u.dfl.queue.length])))
  ∧ (∀ (p : Pkt) (j : DflJob) (s : State), accepted 0x0B02 p s = true →
      s.dfl.queue.find? (fun j => j.tag == p.b 0 0 16) = some j →
      exec (.dflAbort p) s = .next (settled 0x0B02 (s.pktHdr 0x0B02 p) (((s.leaveB (.dfl j.id)).modDfl (fun d => { d with queue := d.queue.erase j })).dflRecord j { status := dsAborted } false 0) (ok [0])))
  ∧ (∀ (p : Pkt) (s : State), accepted 0x0B02 p s = true → s.dfl.queue.find? (fun j => j.tag == p.b 0 0 16) = none →
      (List.range 2).findSome? (fun e => ((s.dfl.engine.getD e none).filter (fun r => r.job.tag == p.b 0 0 16)).map (fun r => (e, r))) = none →
      exec (.dflAbort p) s = .next (settled 0x0B02 (s.pktHdr 0x0B02 p) s (ok [2])))
  ∧ (∀ (p : Pkt) (e : Nat) (r : DflRun) (d : W32 × State) (q : DflRes × List Byte × Nat × List (Nat × Nat)) (n : Nat) (c : W32 × State) (v u : State) (s : State),
    accepted 0x0B02 p s = true → s.dfl.queue.find? (fun j => j.tag == p.b 0 0 16) = none →
      (List.range 2).findSome? (fun e => ((s.dfl.engine.getD e none).filter (fun r => r.job.tag == p.b 0 0 16)).map (fun r => (e, r))) = some (e, r) →
    d = s.draw → q = d.2.dflResult r → n = min q.2.1.length (4096 * (d.1.toNat / 2 % (q.2.1.length / 4096 + 1))) →
      c = d.2.draw →
      v = (c.2.writeChain (refOf r.job.dst).space q.2.2.2 (q.2.1.take n)).modDfl (fun d => { d with engine := d.engine.set e none }) →
      (u = v.draw.2.dflRecord r.job {
            status := dsAborted, consumed := min q.1.consumed c.1.toNat, produced := q.1.produced - (q.2.1.length - n)
            check := v.draw.1.toNat } false (if bitAt r.job.word 12 then chainUsed q.2.2.2 n else 0)) →
      exec (.dflAbort p) s = .next (settled 0x0B02 (s.pktHdr 0x0B02 p) (if d.1.toNat % 2 = 1 then d.2 else u) (ok [if d.1.toNat % 2 = 1 then 1 else 0])))
  ∧ (∀ (p : Pkt) (j : DflJob) (s : State), accepted 0x0B03 p s = true →
      s.dfl.queue.find? (fun j => j.tag == p.b 0 0 16) = some j →
      exec (.dflStatus p) s = .next (settled 0x0B03 (s.pktHdr 0x0B03 p) s (ok [b2n (s.dfl.queue.head? == some j && !s.isAdmitted (.dfl j.id)), 0, 0])))
  ∧ (∀ (p : Pkt) (s : State), accepted 0x0B03 p s = true → s.dfl.queue.find? (fun j => j.tag == p.b 0 0 16) = none →
      s.dflTag (p.b 0 0 16) = false →
      exec (.dflStatus p) s = .next (settled 0x0B03 (s.pktHdr 0x0B03 p) s (ok [3, 0, 0])))
  ∧ (∀ (p : Pkt) (a b : W32 × State) (s : State), accepted 0x0B03 p s = true →
    s.dfl.queue.find? (fun j => j.tag == p.b 0 0 16) = none → s.dflTag (p.b 0 0 16) = true → a = s.draw →
      b = a.2.draw →
      exec (.dflStatus p) s = .next (settled 0x0B03 (s.pktHdr 0x0B03 p) (b.2) (ok [2, a.1.toNat, b.1.toNat])))
  ∧ (∀ (j : DflJob) (t : List DflJob) (e : Nat) (src list st : HostRead) (s : State), s.dfl.queue = j :: t →
    (List.range 2).find? (fun e => (s.dfl.engine.getD e none).isNone) = some e → s.isAdmitted (.dfl j.id) = true →
      s.dev.safe = false →
      exec (.dflJobStart src list st) s = .next (((s.leaveB (.dfl j.id)).modDfl (fun d => { d with
          queue := t, engine := d.engine.set e (some ⟨j, src, list, st⟩) })).wn (DFL_E_OUT e) 0))
  ∧ (∀ (j : DflJob) (t : List DflJob) (src list st : HostRead) (s : State), s.dfl.queue = j :: t →
      (List.range 2).find? (fun e => (s.dfl.engine.getD e none).isNone) = none ∨ s.isAdmitted (.dfl j.id) = false ∨ s.dev.safe = true →
      exec (.dflJobStart src list st) s = .next s)
  ∧ (∀ (src list st : HostRead) (s : State), s.dfl.queue = [] → exec (.dflJobStart src list st) s = .next s)
  ∧ (∀ (engine : Fin 2) (r : DflRun) (s : State), s.dfl.engine.getD engine none = some r →
      exec (.dflJobEnd engine) s = .next (s.dflFinish engine r))
  ∧ (∀ (engine : Fin 2) (s : State), s.dfl.engine.getD engine none = none → exec (.dflJobEnd engine) s = .next s)
  ∧ (∀ (tag : BitVec 16) (j : DflJob) (s : State), s.dfl.queue.find? (fun j => j.tag == tag.toNat) = some j →
    s.f DFL_CTRL__DEFER_MS ≠ 0 → s.isAdmitted (.dfl j.id) = false →
      exec (.dflDeferExpiry tag) s =
        .next (((s.deferB (.dfl j.id)).modDfl (fun d => { d with queue := d.queue.erase j })).dflRecord j { status := dsThermal } false 0))
  ∧ (∀ (tag : BitVec 16) (s : State), s.dfl.queue.find? (fun j => j.tag == tag.toNat) = none →
      exec (.dflDeferExpiry tag) s = .next s)
  ∧ (∀ (tag : BitVec 16) (s : State), s.f DFL_CTRL__DEFER_MS = 0 → exec (.dflDeferExpiry tag) s = .next s)

/-- DMC_REFRESH on a channel that exists, outside VP2, shows the temperature band's refresh rate and either postpones
the refresh, where asked and fewer than four are postponed, or counts it done and clears the count of postponed ones;
elsewhere it changes nothing. DMC_DELAY_PASS with a pass asked runs it. DMC_UNCORRECTABLE inside the DRAM that fails
poisons the line, and one that corrects counts; outside it nothing. SUSPECT_APPEND of a valid suspect row by running
firmware adds a repair record unless one stands for the row; else nothing. DLY_LOCK by a host that is not shut out
sets the lock bit, and once it is set is a denied write. BUDGET_TICK of a device that is ready re-arms the once-a-tick
note of a write to the read-only ring region, takes the DRAM's service, sets the budget, the degradation ladder and
OVER_K, then admits waiting work and starts what is admitted; before that it changes nothing. -/
def Obligations.MemoryController : Prop :=
  (∀ (chan : Fin 32) (wait : Bool) (k : Nat) (u s : State), (chan : Nat) < s.f DMC_STAT__CHANNELS →
    s.f VQ_VPSTATE__VP < 2 → u = s.setF DMC_STAT__REF_MULT (refMult (s.f DMC_STAT__BAND)) →
      k = (u.dmc.chan.toList.getD chan {}).postponed →
      exec (.dmcRefresh chan wait) s = .next (u.modChan chan (fun q => { q with
          postponed := if wait ∧ k < 4 then k + 1 else 0, refs := if wait ∧ k < 4 then q.refs else q.refs + 1 })))
  ∧ (∀ (chan : Fin 32) (wait : Bool) (s : State), s.f DMC_STAT__CHANNELS ≤ chan ∨ 2 ≤ s.f VQ_VPSTATE__VP →
      exec (.dmcRefresh chan wait) s = .next s)
  ∧ (∀ (s : State), exec .dmcDelayPass s = .next (if s.dmc.pass then s.delayPass else s))
  ∧ (∀ (dpa : Nat) (corrected : Bool) (s : State), dpa < nominalSect s.dev.variant * 4096 →
      exec (.dmcUncorrectable dpa true corrected) s = .next (s.poisonLine dpa) ∧
        exec (.dmcUncorrectable dpa false corrected) s = .next (if corrected then s.bumpStat DMC_CORR_CNT else s))
  ∧ (∀ (dpa : Nat) (fails corrected : Bool) (s : State), nominalSect s.dev.variant * 4096 ≤ dpa →
      exec (.dmcUncorrectable dpa fails corrected) s = .next s)
  ∧ (∀ (row : Fin 32) (v : Nat) (s : State), v = s.rn (DMC_SUSPECT row) → s.on (DMC_SUSPECT__VALID row) = true →
      s.dev.fwRun = true →
      s.tst.records.any (fun q => q.kind == 4 && q.inst == bitsAt v 26 5 && q.addr == v % 0x400000) = false →
      exec (.suspectAppend row) s = .next { s with tst := { s.tst with
          records := s.tst.records ++ [{ kind := 4, st := 2, inst := bitsAt v 26 5, addr := v % 0x400000 }] } })
  ∧ (∀ (row : Fin 32) (v : Nat) (s : State), v = s.rn (DMC_SUSPECT row) →
      s.on (DMC_SUSPECT__VALID row) = false ∨ s.dev.fwRun = false ∨
          s.tst.records.any (fun q => q.kind == 4 && q.inst == bitsAt v 26 5 && q.addr == v % 0x400000) = true →
      exec (.suspectAppend row) s = .next s)
  ∧ (∀ (s : State),
      exec .dlyLock s = .next (if s.shut 0 then s else if s.on DMC_CTRL__DLY_LOCK then s.rwlDenied .dmc DMC_CTRL else s.raise DMC_CTRL__DLY_LOCK))
  ∧ (∀ (t : DmcTick) (u s : State), s.dev.ready = true →
      u = ((((s.modCxl (fun c => { c with roWrite := false })).dmcServed t).budget t).ladderTick).overK →
      exec (.budgetTick t) s = .next (State.admitHead u.pwr.queue.length u).startAdmitted)
  ∧ (∀ (t : DmcTick) (s : State), s.dev.ready = false → exec (.budgetTick t) s = .next s)

/-- VIN_WARN falling on a running device sets VIN_LOW and its error, logs and interrupts once, and rising clears
VIN_LOW; while the device awaits power it only shows the level. UVLO and OVLO take the block to its cold reset with
the input below or above its range; OVLO_EXIT ends the overvoltage. PWR_SET_INPUT_LIMIT of 0 or 10,000 to 58,000 mW
with a warning of 6,000 to 48,000 mV stores both and answers the limit in force; other values are refused with
BAD_PARAM 0x8001. PWR_GET_HK answers the sixteen channels of the latest round with its number, the power measured, the
headroom and the level; THM_GET_BAND answers the band, the temperature, the ceiling, the refresh rate, the sustained
rate and the sensor fault. VP1_ENTRY and VP2_ENTRY enter their state when no request falls in the same cycle, the
state is lower, AUTO_MAX allows it and, for VP2, no context captures; else they change nothing. On a device that is
ready a complete round stores the sixteen channels with the round's number and notes, for a self-test that asks,
whether the reference and every rail were inside their windows. A reference outside its range raises HK_REF and is a
sensor fault. Otherwise a rail out of range in two rounds running raises RAIL and enters the safe state for it, the
readings are kept, and a diode reading outside -50 to 150 degrees (in eighths) is a sensor fault, one below 110
degrees is a reading, and one of 110 degrees or more is a reading, is logged as a trip and sends the device to PS2.
Before the device is ready the round is lost. -/
def Obligations.PowerAndHousekeeping : Prop :=
  (∀ (falling : Bool) (s : State), falling = false ∨ s.dev.awaits = true →
      exec (.vinWarn falling) s = .next (s.setB PWR_STAT__VIN_LOW falling))
  ∧ (∀ (s u : State), s.dev.awaits = false → s.on PWR_STAT__VIN_LOW = false →
      u = ((s.setB PWR_STAT__VIN_LOW true).raise PWR_ERR__VIN_LOW).log .pwr evPwrVinLow →
      exec (.vinWarn true) s = .next (u.pendIf PWR_IRQ__PEND 0 (u.on PWR_IRQ__VIN || u.on PWR_IRQ__ERR) 33))
  ∧ (∀ (s : State), s.dev.awaits = false → s.on PWR_STAT__VIN_LOW = true → exec (.vinWarn true) s = .next s)
  ∧ (∀ (s : State),
      exec .uvlo s = .next { s.coldReset 0 with dev := { (s.coldReset 0).dev with vin := 1 } } ∧
        exec .ovlo s = .next { s.coldReset 0 with dev := { (s.coldReset 0).dev with vin := 2 } })
  ∧ (∀ (s : State), exec .ovloExit s = .next (if s.dev.vin = 2 then { s with dev := { s.dev with vin := 0 } } else s))
  ∧ (∀ (p : Pkt) (s : State), accepted 0x0C00 p s = true → p.b 0 0 18 = 0 ∨ (10000 ≤ p.b 0 0 18 ∧ p.b 0 0 18 ≤ 58000) →
    6000 ≤ p.b 1 0 16 → p.b 1 0 16 ≤ 48000 →
      exec (.pwrSetInputLimit p) s = .next (settled 0x0C00 (s.pktHdr 0x0C00 p) (((entered 0x0C00 p s).setF PWR_HOST_LIMIT__MW (p.b 0 0 18)).setF PWR_VIN_WARN__MV (p.b 1 0 16)) (ok [limitOf (p.b 0 0 18) ((((entered 0x0C00 p s).setF PWR_HOST_LIMIT__MW (p.b 0 0 18)).setF PWR_VIN_WARN__MV (p.b 1 0 16)).f THM_STAT__BAND)])))
  ∧ (∀ (p : Pkt) (s : State), accepted 0x0C00 p s = true →
      (p.b 0 0 18 ≠ 0 ∧ (p.b 0 0 18 < 10000 ∨ 58000 < p.b 0 0 18)) ∨ p.b 1 0 16 < 6000 ∨ 48000 < p.b 1 0 16 →
      exec (.pwrSetInputLimit p) s = .next (settled 0x0C00 (s.pktHdr 0x0C00 p) (entered 0x0C00 p s) (refuse stBadParam 0x8001)))
  ∧ (∀ (p : Pkt) (s : State), accepted 0x0C03 p s = true →
      exec (.pwrGetHk p) s = .next (settled 0x0C03 (s.pktHdr 0x0C03 p) s (ok ((List.range 8).map (fun i => s.f (PWR_HK_CH__VALUE (2 * i)) + 0x10000 * s.f (PWR_HK_CH__VALUE (2 * i + 1))) ++
        [s.pwr.rounds - 1, s.f PWR_MEAS__MW, s.rn PWR_HEADROOM, s.f PWR_STAT__DEG_LEVEL]))))
  ∧ (∀ (p : Pkt) (s : State), accepted 0x0C04 p s = true →
      exec (.thmGetBand p) s = .next (settled 0x0C04 (s.pktHdr 0x0C04 p) s (ok [s.f THM_STAT__BAND, s.f THM_STAT__TEMP, (ceiling (s.f THM_STAT__BAND)).getD 0, refMult (s.f THM_STAT__BAND),
        sustainGb s.dev.variant.big (s.f THM_STAT__BAND), s.f THM_STAT__SENSOR_FAULT])))
  ∧ (∀ (request : Bool) (s : State),
      exec (.vp1Entry request) s =
        .next (if request = true ∨ s.f VQ_VPSTATE__VP ≠ 0 ∨ s.f VQ_VPSTATE__AUTO_MAX = 0 then s else s.setF VQ_VPSTATE__VP 1) ∧
      exec (.vp2Entry request) s = .next (if request = true ∨ 2 ≤ s.f VQ_VPSTATE__VP ∨ s.f VQ_VPSTATE__AUTO_MAX ≠ 2 ∨
        (List.range 6).any s.capturing = true then s else s.setF VQ_VPSTATE__VP 2))
  ∧ (∀ (v : Vector (BitVec 16) 16) (round : Nat) (vals : List Nat) (u s : State), s.dev.ready = true →
    round = s.pwr.rounds → vals = v.toList.map (·.toNat) →
      u = ((List.range 16).foldl (fun u n => u.wn (PWR_HK_CH n) (vals.getD n 0 + 0x10000 * (round % 0x10000)))
          (s.modPwr (fun p => { p with rounds := round + 1 }))).noteRound (refOkay (vals.getD 15 0) && (railsOut vals).isEmpty) →
      refOkay (vals.getD 15 0) = false →
      exec (.hkRoundComplete v) s = .next ((u.pwrErr PWR_ERR__HK_REF).modPwr (fun p => { p with railOut := [] })).sensorFault)
  ∧ (∀ (v : Vector (BitVec 16) 16) (round : Nat) (vals : List Nat) (u w s : State), s.dev.ready = true →
    round = s.pwr.rounds → vals = v.toList.map (·.toNat) →
      u = ((List.range 16).foldl (fun u n => u.wn (PWR_HK_CH n) (vals.getD n 0 + 0x10000 * (round % 0x10000)))
          (s.modPwr (fun p => { p with rounds := round + 1 }))).noteRound (refOkay (vals.getD 15 0) && (railsOut vals).isEmpty) →
      refOkay (vals.getD 15 0) = true →
      w = ((railsOut vals).filter (fun c => u.pwr.railOut.contains c)).foldl (fun w c => (w.pwrErr PWR_ERR__RAIL).enterSafe 1 c)
          (u.modPwr (fun p => { p with railOut := railsOut vals, hk := vals })) →
      sext 16 (vals.getD 0 0) < -400 ∨ 1200 < sext 16 (vals.getD 0 0) →
      exec (.hkRoundComplete v) s = .next w.sensorFault)
  ∧ (∀ (v : Vector (BitVec 16) 16) (round : Nat) (vals : List Nat) (u w s : State), s.dev.ready = true →
    round = s.pwr.rounds → vals = v.toList.map (·.toNat) →
      u = ((List.range 16).foldl (fun u n => u.wn (PWR_HK_CH n) (vals.getD n 0 + 0x10000 * (round % 0x10000)))
          (s.modPwr (fun p => { p with rounds := round + 1 }))).noteRound (refOkay (vals.getD 15 0) && (railsOut vals).isEmpty) →
      refOkay (vals.getD 15 0) = true →
      w = ((railsOut vals).filter (fun c => u.pwr.railOut.contains c)).foldl (fun w c => (w.pwrErr PWR_ERR__RAIL).enterSafe 1 c)
    (u.modPwr (fun p => { p with railOut := railsOut vals, hk := vals })) → -400 ≤ sext 16 (vals.getD 0 0) →
    sext 16 (vals.getD 0 0) < 880 → exec (.hkRoundComplete v) s = .next (w.reading (vals.getD 0 0)))
  ∧ (∀ (v : Vector (BitVec 16) 16) (round : Nat) (vals : List Nat) (u w s : State), s.dev.ready = true →
    round = s.pwr.rounds → vals = v.toList.map (·.toNat) →
      u = ((List.range 16).foldl (fun u n => u.wn (PWR_HK_CH n) (vals.getD n 0 + 0x10000 * (round % 0x10000)))
          (s.modPwr (fun p => { p with rounds := round + 1 }))).noteRound (refOkay (vals.getD 15 0) && (railsOut vals).isEmpty) →
      refOkay (vals.getD 15 0) = true →
      w = ((railsOut vals).filter (fun c => u.pwr.railOut.contains c)).foldl (fun w c => (w.pwrErr PWR_ERR__RAIL).enterSafe 1 c)
    (u.modPwr (fun p => { p with railOut := railsOut vals, hk := vals })) → 880 ≤ sext 16 (vals.getD 0 0) →
      sext 16 (vals.getD 0 0) ≤ 1200 →
      exec (.hkRoundComplete v) s =
        .next ((((w.reading (vals.getD 0 0)).log .thm evThmTrip).modPwr (fun p => { p with trip := true })).enterSleep 2 false 2))
  ∧ (∀ (v : Vector (BitVec 16) 16) (s : State), s.dev.ready = false → exec (.hkRoundComplete v) s = .next s)

/-- PWR_AX_CONFIGURE of a port that is off or latched with a limit of 500 to 3,000 mA stores limit, retries and flags;
a bad limit is refused with BAD_PARAM 0x8002, a port on or waiting with STATE 0x8003. PWR_AX_SWITCH off turns the port
off; on, it is refused with NO_RESOURCE 0x8004 when the limits would pass 8,000 mA and STATE 0x8005 while VIN is low,
and else turns the port on with no retries counted. On a port that is on, AX_TRIP counts, logs and waits for a retry
or latches, or turns it off; a waiting port turns on again at AX_RETRY_EXPIRY, one retry more; AX_RETRY_RESET clears
the count; AX_LIMITING shows regulation; AX_REVERSE_CURRENT opens it until AX_REVERSE_CLEAR. AX_LOAD_CHANGE of a port
on or off shows, logs and interrupts, and turns off a port with AUTO_OFF when its load leaves. On a port in any other
state AX_TRIP, AX_RETRY_EXPIRY, AX_RETRY_RESET, AX_LIMITING and AX_REVERSE_CURRENT change nothing, nor does
AX_LOAD_CHANGE where the port waits or is latched or the load is as it was. -/
def Obligations.AccessoryPorts : Prop :=
  (∀ (p : Pkt) (n : Nat) (s : State), accepted 0x0C01 p s = true → n = p.b 0 0 2 → 5 ≤ p.b 0 8 5 → p.b 0 8 5 ≤ 30 →
    (entered 0x0C01 p s).axState n ≠ 1 → (entered 0x0C01 p s).axState n ≠ 2 →
      exec (.pwrAxConfigure p) s = .next (settled 0x0C01 (s.pktHdr 0x0C01 p) (((((entered 0x0C01 p s).setF (PWR_AX_CFG__LIMIT n) (p.b 0 8 5)).setF (PWR_AX_CFG__RETRY_MAX n) (p.b 0 16 3)).setB
        (PWR_AX_CFG__STBY_KEEP n) (p.t 0 20)).setB (PWR_AX_CFG__AUTO_OFF n) (p.t 0 21)) (ok)))
  ∧ (∀ (p : Pkt) (s : State), accepted 0x0C01 p s = true → p.b 0 8 5 < 5 ∨ 30 < p.b 0 8 5 →
      exec (.pwrAxConfigure p) s = .next (settled 0x0C01 (s.pktHdr 0x0C01 p) (entered 0x0C01 p s) (refuse stBadParam 0x8002)))
  ∧ (∀ (p : Pkt) (s : State), accepted 0x0C01 p s = true → 5 ≤ p.b 0 8 5 → p.b 0 8 5 ≤ 30 →
      (entered 0x0C01 p s).axState (p.b 0 0 2) = 1 ∨ (entered 0x0C01 p s).axState (p.b 0 0 2) = 2 →
      exec (.pwrAxConfigure p) s = .next (settled 0x0C01 (s.pktHdr 0x0C01 p) (entered 0x0C01 p s) (refuse stState 0x8003)))
  ∧ (∀ (p : Pkt) (s : State), accepted 0x0C02 p s = true → p.t 0 4 = false →
      exec (.pwrAxSwitch p) s = .next (settled 0x0C02 (s.pktHdr 0x0C02 p) ((entered 0x0C02 p s).axOff (p.b 0 0 2)) (ok [((entered 0x0C02 p s).axOff (p.b 0 0 2)).rn (PWR_AX_STAT (p.b 0 0 2))])))
  ∧ (∀ (p : Pkt) (s : State), accepted 0x0C02 p s = true → p.t 0 4 = true →
      8000 < (entered 0x0C02 p s).axSum (p.b 0 0 2) →
      exec (.pwrAxSwitch p) s = .next (settled 0x0C02 (s.pktHdr 0x0C02 p) (entered 0x0C02 p s) (refuse stNoResource 0x8004)))
  ∧ (∀ (p : Pkt) (s : State), accepted 0x0C02 p s = true → p.t 0 4 = true →
    (entered 0x0C02 p s).axSum (p.b 0 0 2) ≤ 8000 → (entered 0x0C02 p s).on PWR_STAT__VIN_LOW = true →
      exec (.pwrAxSwitch p) s = .next (settled 0x0C02 (s.pktHdr 0x0C02 p) (entered 0x0C02 p s) (refuse stState 0x8005)))
  ∧ (∀ (p : Pkt) (u : State) (s : State), accepted 0x0C02 p s = true → p.t 0 4 = true →
    (entered 0x0C02 p s).axSum (p.b 0 0 2) ≤ 8000 → (entered 0x0C02 p s).on PWR_STAT__VIN_LOW = false →
      (u = (if (entered 0x0C02 p s).axState (p.b 0 0 2) = 1 then (entered 0x0C02 p s) else ((entered 0x0C02 p s).setF (PWR_AX_STAT__STATE (p.b 0 0 2)) 1).setF (PWR_AX_STAT__RETRIES (p.b 0 0 2)) 0)) →
      exec (.pwrAxSwitch p) s = .next (settled 0x0C02 (s.pktHdr 0x0C02 p) (u) (ok [u.rn (PWR_AX_STAT (p.b 0 0 2))])))
  ∧ (∀ (port : Fin 4) (off : Bool) (u s : State), s.axState port = 1 →
      u = ((s.bumpStat (PWR_AX_FAULT_CNT port)).log .pwr evPwrAxTrip).setB (PWR_AX_STAT__LIMITING port) false →
      exec (.axTrip port off) s = .next (if off then u.axOff port else u.setF (PWR_AX_STAT__STATE port)
        (if u.f (PWR_AX_STAT__RETRIES port) < u.f (PWR_AX_CFG__RETRY_MAX port) then 2 else 3)))
  ∧ (∀ (port : Fin 4) (s : State), s.axState port = 2 →
      exec (.axRetryExpiry port) s =
        .next ((s.setF (PWR_AX_STAT__STATE port) 1).setF (PWR_AX_STAT__RETRIES port) (s.f (PWR_AX_STAT__RETRIES port) + 1)))
  ∧ (∀ (port : Fin 4) (s : State), s.axState port ≠ 2 → exec (.axRetryExpiry port) s = .next s)
  ∧ (∀ (port : Fin 4) (above : Bool) (s : State), s.axState port = 1 →
      exec (.axRetryReset port) s = .next (s.setF (PWR_AX_STAT__RETRIES port) 0) ∧
      exec (.axLimiting port above) s = .next (s.setB (PWR_AX_STAT__LIMITING port) above) ∧
      exec (.axReverseCurrent port) s = .next (s.modPwr (fun p => { p with axOpen := p.axOpen.set port true })))
  ∧ (∀ (port : Fin 4) (s : State),
      exec (.axReverseClear port) s = .next (s.modPwr (fun p => { p with axOpen := p.axOpen.set port false })))
  ∧ (∀ (port : Fin 4) (off above : Bool) (s : State), s.axState port ≠ 1 →
      exec (.axTrip port off) s = .next s ∧ exec (.axRetryReset port) s = .next s ∧ exec (.axLimiting port above) s = .next s ∧
      exec (.axReverseCurrent port) s = .next s)
  ∧ (∀ (port : Fin 4) (present : Bool) (u s : State), s.axState port < 2 → s.on (PWR_AX_STAT__LOAD port) = !present →
      u = ((s.setB (PWR_AX_STAT__LOAD port) present).log .pwr evPwrAxLoad).pwrIrq PWR_IRQ__AX →
      exec (.axLoadChange port present) s =
        .next (if present = false ∧ u.on (PWR_AX_CFG__AUTO_OFF port) ∧ u.axState port = 1 then u.axOff port else u))
  ∧ (∀ (port : Fin 4) (present : Bool) (s : State), 2 ≤ s.axState port ∨ s.on (PWR_AX_STAT__LOAD port) = present →
      exec (.axLoadChange port present) s = .next s)

/-- Each opcode refuses bad arguments, a test while one is started with STATE 0x8001, and one whose condition fails
with STATE 0x8002; any other test is offered to the budget scheduler, at once or waiting under its packet's deferral.
A start through TST_CTRL by a master that is not shut out takes its arguments from TST_ARG0 to TST_ARG2, sets REFUSED
and changes nothing else where an opcode would be refused, and else shows its kind and item and offers the test; a
master shut out changes nothing. TST_ADMIT_EXPIRY ends a register-started test that was not admitted, with a run
number of its own and status DEFERRED; it changes nothing where no such test waits. TEST_DONE ends the test that runs
by its kind, an analogue test as PASS or FAIL, which is logged, the reference test by its four rounds of housekeeping;
with none running, or fewer rounds, it changes nothing. TST_GET_RESULT answers a run by number, or the newest, and
refuses an unknown one with STATE 0x8003. TST_SET_TMUX stores codes of Table 22-7 and refuses others with BAD_PARAM
0x8006. RPR_GET_STATUS answers the spares and records. RPR_COMMIT_PPR is refused with STATE 0x8002 while a context's
state is above 1 or a vault queue has a command outstanding, and 0x8004 without FORCE while the vault holds takes or
pins; else it makes at most four rows HARD, frees their poisoned lines, clears the vault and publishes the table. -/
def Obligations.DeviceTests : Prop :=
  (∀ (p : Pkt) (r : TstRun) (u : State) (s : State), accepted 0x0D00 p s = true →
    r = ⟨0, 0, p.b 0 0 4, p.w 1, p.w 2, 0, false, 0, false, none, []⟩ → badArgs r = none →
    (entered 0x0D00 p s).tst.run.isSome = false → (entered 0x0D00 p s).testOk r = true →
      u = (entered 0x0D00 p s).offerTest { r with hdr := some (s.pktHdr 0x0D00 p) } →
      exec (.tstRunAnalogue p) s = .next (if u.tst.run.any (fun q => q.began) then u else u.restart (s.pktHdr 0x0D00 p) (fun e => { e with waitB := true })))
  ∧ (∀ (p : Pkt) (r : TstRun) (o : Outc) (s : State), accepted 0x0D00 p s = true →
    r = ⟨0, 0, p.b 0 0 4, p.w 1, p.w 2, 0, false, 0, false, none, []⟩ → badArgs r = some o →
      exec (.tstRunAnalogue p) s = .next (settled 0x0D00 (s.pktHdr 0x0D00 p) (entered 0x0D00 p s) (o)))
  ∧ (∀ (p : Pkt) (r : TstRun) (s : State), accepted 0x0D00 p s = true →
    r = ⟨0, 0, p.b 0 0 4, p.w 1, p.w 2, 0, false, 0, false, none, []⟩ → badArgs r = none →
      (entered 0x0D00 p s).tst.run.isSome = true →
      exec (.tstRunAnalogue p) s = .next (settled 0x0D00 (s.pktHdr 0x0D00 p) (entered 0x0D00 p s) (refuse stState 0x8001)))
  ∧ (∀ (p : Pkt) (r : TstRun) (s : State), accepted 0x0D00 p s = true →
    r = ⟨0, 0, p.b 0 0 4, p.w 1, p.w 2, 0, false, 0, false, none, []⟩ → badArgs r = none →
    (entered 0x0D00 p s).tst.run.isSome = false → (entered 0x0D00 p s).testOk r = false →
      exec (.tstRunAnalogue p) s = .next (settled 0x0D00 (s.pktHdr 0x0D00 p) (entered 0x0D00 p s) (refuse stState 0x8002)))
  ∧ (∀ (p : Pkt) (r : TstRun) (u : State) (s : State), accepted 0x0D01 p s = true →
    r = ⟨0, 1, p.b 0 8 2, p.b 0 0 4, p.w 1, p.w 2, false, 0, false, none, []⟩ → badArgs r = none →
    (entered 0x0D01 p s).tst.run.isSome = false → (entered 0x0D01 p s).testOk r = true →
      u = (entered 0x0D01 p s).offerTest { r with hdr := some (s.pktHdr 0x0D01 p) } →
      exec (.tstRunLbist p) s = .next (if u.tst.run.any (fun q => q.began) then u else u.restart (s.pktHdr 0x0D01 p) (fun e => { e with waitB := true })))
  ∧ (∀ (p : Pkt) (r : TstRun) (o : Outc) (s : State), accepted 0x0D01 p s = true →
    r = ⟨0, 1, p.b 0 8 2, p.b 0 0 4, p.w 1, p.w 2, false, 0, false, none, []⟩ → badArgs r = some o →
      exec (.tstRunLbist p) s = .next (settled 0x0D01 (s.pktHdr 0x0D01 p) (entered 0x0D01 p s) (o)))
  ∧ (∀ (p : Pkt) (r : TstRun) (s : State), accepted 0x0D01 p s = true →
    r = ⟨0, 1, p.b 0 8 2, p.b 0 0 4, p.w 1, p.w 2, false, 0, false, none, []⟩ → badArgs r = none →
      (entered 0x0D01 p s).tst.run.isSome = true →
      exec (.tstRunLbist p) s = .next (settled 0x0D01 (s.pktHdr 0x0D01 p) (entered 0x0D01 p s) (refuse stState 0x8001)))
  ∧ (∀ (p : Pkt) (r : TstRun) (s : State), accepted 0x0D01 p s = true →
    r = ⟨0, 1, p.b 0 8 2, p.b 0 0 4, p.w 1, p.w 2, false, 0, false, none, []⟩ → badArgs r = none →
    (entered 0x0D01 p s).tst.run.isSome = false → (entered 0x0D01 p s).testOk r = false →
      exec (.tstRunLbist p) s = .next (settled 0x0D01 (s.pktHdr 0x0D01 p) (entered 0x0D01 p s) (refuse stState 0x8002)))
  ∧ (∀ (p : Pkt) (r : TstRun) (u : State) (s : State), accepted 0x0D02 p s = true →
    r = ⟨0, 2, 0, p.b 0 0 5, 0, 0, p.t 0 8, 0, false, none, []⟩ → badArgs r = none →
    (entered 0x0D02 p s).tst.run.isSome = false → (entered 0x0D02 p s).testOk r = true →
      u = (entered 0x0D02 p s).offerTest { r with hdr := some (s.pktHdr 0x0D02 p) } →
      exec (.tstRunMbist p) s = .next (if u.tst.run.any (fun q => q.began) then u else u.restart (s.pktHdr 0x0D02 p) (fun e => { e with waitB := true })))
  ∧ (∀ (p : Pkt) (r : TstRun) (o : Outc) (s : State), accepted 0x0D02 p s = true →
    r = ⟨0, 2, 0, p.b 0 0 5, 0, 0, p.t 0 8, 0, false, none, []⟩ → badArgs r = some o →
      exec (.tstRunMbist p) s = .next (settled 0x0D02 (s.pktHdr 0x0D02 p) (entered 0x0D02 p s) (o)))
  ∧ (∀ (p : Pkt) (r : TstRun) (s : State), accepted 0x0D02 p s = true →
    r = ⟨0, 2, 0, p.b 0 0 5, 0, 0, p.t 0 8, 0, false, none, []⟩ → badArgs r = none →
      (entered 0x0D02 p s).tst.run.isSome = true →
      exec (.tstRunMbist p) s = .next (settled 0x0D02 (s.pktHdr 0x0D02 p) (entered 0x0D02 p s) (refuse stState 0x8001)))
  ∧ (∀ (p : Pkt) (r : TstRun) (s : State), accepted 0x0D02 p s = true →
    r = ⟨0, 2, 0, p.b 0 0 5, 0, 0, p.t 0 8, 0, false, none, []⟩ → badArgs r = none →
    (entered 0x0D02 p s).tst.run.isSome = false → (entered 0x0D02 p s).testOk r = false →
      exec (.tstRunMbist p) s = .next (settled 0x0D02 (s.pktHdr 0x0D02 p) (entered 0x0D02 p s) (refuse stState 0x8002)))
  ∧ (∀ (master : Byte) (item : BitVec 6) (s : State),
      exec (.tstStartAnalogue master item) s = .next (s.testStart master 0 item) ∧
      exec (.tstStartLbist master item) s = .next (s.testStart master 1 item) ∧
      exec (.tstStartMbist master item) s = .next (s.testStart master 2 item))
  ∧ (∀ (master : Byte) (kind : Nat) (item : BitVec 6) (r : TstRun) (s : State),
      (r = ⟨0, kind, if kind = 2 then 0 else item.toNat, if kind = 0 then s.rn TST_ARG0 else if kind = 1 then s.rn TST_ARG0 % 16
          else s.rn TST_ARG0 % 32, s.rn TST_ARG1, s.rn TST_ARG2, kind == 2 && bitAt (s.rn TST_ARG0) 8, master.toNat, false, none, []⟩) →
      s.shut master = false →
      s.testStart master kind item = (if ((badArgs r).isSome || s.tst.run.isSome || !s.testOk r) = true then s.raise TST_STAT__REFUSED
      else ((s.setF TST_CTRL__KIND kind).setF TST_CTRL__ITEM item.toNat).offerTest r))
  ∧ (∀ (master : Byte) (kind : Nat) (item : BitVec 6) (s : State), s.shut master = true →
      s.testStart master kind item = s)
  ∧ (∀ (r : TstRun) (u s : State), s.tst.run = some r → r.began = false → r.hdr = none →
      u = ((s.deferB testJob).bumpEvt .tst TST_RUN_ID).setF TST_STAT__OWNER r.owner →
      exec .tstAdmitExpiry s = .next (u.postResult { r with id := u.rn TST_RUN_ID } 3 [0, 0, 0, 0]))
  ∧ (∀ (s : State), s.tst.run = none → exec .tstAdmitExpiry s = .next s ∧ ∀ e : TestEnd, exec (.testDone e) s = .next s)
  ∧ (∀ (r : TstRun) (s : State), s.tst.run = some r → r.began = true → exec .tstAdmitExpiry s = .next s)
  ∧ (∀ (e : TestEnd) (r : TstRun) (s : State), s.tst.run = some r → r.began = false → exec (.testDone e) s = .next s)
  ∧ (∀ (e : TestEnd) (r : TstRun) (s : State), s.tst.run = some r → r.began = true → r.kind = 1 →
      exec (.testDone e) s = .next (s.endLbist r e))
  ∧ (∀ (e : TestEnd) (r : TstRun) (s : State), s.tst.run = some r → r.began = true → r.kind = 2 →
      exec (.testDone e) s = .next (s.endMbist r e))
  ∧ (∀ (e : TestEnd) (r : TstRun) (pass : Bool) (u s : State), s.tst.run = some r → r.began = true → r.kind = 0 →
      ¬ (r.item = 0 ∧ r.rounds.length < 4) →
      (pass = (if r.item = 0 then (r.rounds.take 4).all id else e.pass && ((r.item != 1 && r.item != 2) || e.errs == 0))) →
      (u = s.postResult r (if pass then 1 else 2) [e.errs, e.bits, 0, 0]) →
      exec (.testDone e) s = .next (if pass then u else u.log .tst evTstFail))
  ∧ (∀ (e : TestEnd) (r : TstRun) (s : State), s.tst.run = some r → r.began = true → r.kind = 0 →
    r.item = 0 ∧ r.rounds.length < 4 → exec (.testDone e) s = .next s)
  ∧ (∀ (p : Pkt) (r : TstResult) (s : State), accepted 0x0D03 p s = true →
      ((if p.w 0 = 0 then s.testRuns.head? else s.testRuns.find? (fun r => r.id == p.w 0)) = some r) →
      exec (.tstGetResult p) s = .next (settled 0x0D03 (s.pktHdr 0x0D03 p) s (ok ([r.id, r.item + 64 * r.kind, r.status, r.owner] ++ r.words))))
  ∧ (∀ (p : Pkt) (s : State), accepted 0x0D03 p s = true →
      ((if p.w 0 = 0 then s.testRuns.head? else s.testRuns.find? (fun r => r.id == p.w 0)) = none) →
      exec (.tstGetResult p) s = .next (settled 0x0D03 (s.pktHdr 0x0D03 p) s (refuse stState 0x8003)))
  ∧ (∀ (p : Pkt) (s : State), accepted 0x0D04 p s = true → tmuxOk (p.w 0) = true →
      exec (.tstSetTmux p) s = .next (settled 0x0D04 (s.pktHdr 0x0D04 p) (s.wn TST_TMUX (p.w 0)) (ok)))
  ∧ (∀ (p : Pkt) (s : State), accepted 0x0D04 p s = true → tmuxOk (p.w 0) = false →
      exec (.tstSetTmux p) s = .next (settled 0x0D04 (s.pktHdr 0x0D04 p) s (refuse stBadParam 0x8006)))
  ∧ (∀ (p : Pkt) (s : State), accepted 0x0D05 p s = true →
      exec (.rprGetStatus p) s = .next (settled 0x0D05 (s.pktHdr 0x0D05 p) s (ok ((List.range 4).map (fun u => spareCount u + 0x100 * (s.tst.used.getD u 0 % 256) + 0x10000 * s.tst.status.getD u 0) ++
        [s.tst.records.length, (s.tst.records.filter (fun r => r.st == 2)).length]))))
  ∧ (∀ (p : Pkt) (s : State), accepted 0x0D06 p s = true →
      (entered 0x0D06 p s).partOk 1 = false ∨ (entered 0x0D06 p s).partOk 4 = false →
      exec (.rprCommitPpr p) s = .next (settled 0x0D06 (s.pktHdr 0x0D06 p) (entered 0x0D06 p s) (refuse stState 0x8002)))
  ∧ (∀ (p : Pkt) (s : State), accepted 0x0D06 p s = true → (entered 0x0D06 p s).partOk 1 = true →
    (entered 0x0D06 p s).partOk 4 = true → p.t 0 0 = false → (entered 0x0D06 p s).vaultHeld = true →
      exec (.rprCommitPpr p) s = .next (settled 0x0D06 (s.pktHdr 0x0D06 p) (entered 0x0D06 p s) (refuse stState 0x8004)))
  ∧ (∀ (p : Pkt) (rows : List Nat) (done : List Repair) (u : State) (s : State), accepted 0x0D06 p s = true →
    (entered 0x0D06 p s).partOk 1 = true → (entered 0x0D06 p s).partOk 4 = true →
      p.t 0 0 = true ∨ (entered 0x0D06 p s).vaultHeld = false →
      rows = (pprRows (entered 0x0D06 p s).tst.records).take 4 →
      done = rows.filterMap (fun i => (entered 0x0D06 p s).tst.records[i]?) →
      u = { (entered 0x0D06 p s) with cxl := { (entered 0x0D06 p s).cxl with poisoned := (entered 0x0D06 p s).cxl.poisoned.filter (fun x => !done.any (fun r =>
          r.inst == bitsAt ((entered 0x0D06 p s).suspectWord (64 * x)) 26 5 && r.addr == (entered 0x0D06 p s).suspectWord (64 * x) % 0x400000)) } } →
      exec (.rprCommitPpr p) s = .next (settled 0x0D06 (s.pktHdr 0x0D06 p) ((u.modTst (fun t => { t with records := hardened t.records rows })).clearVault.publish) (ok [rows.length, (pprRows (entered 0x0D06 p s).tst.records).length - rows.length])))

/-- For every low word of a pair that a master can read, with no word latched there: LOW_WORD_READ hands back the low
word and latches the high word that stands four bytes above; the same master's next read of the high word hands back
the latched value, whatever the quantity has become since; and a read of the high word with nothing latched for that
master hands back the live high word. -/
def Obligations.PairReads : Prop :=
  ∀ (m : Byte) (a : Nat) (s : State), a % 4 = 0 → isPairLow a = true → s.reaches m a = true →
  s.reaches m (a + 4) = true → s.latch.find? (fun x => x.1 == m && x.2.1 == a) = none →
    (∃ t, exec (.lowWordRead m (.bar0 a)) s = .next t ∧ t.out = s.out ++ [.word (s.readReg a)] ∧
        t.latch.find? (fun x => x.1 == m && x.2.1 == a + 4) = some (m, a + 4, s.readReg (a + 4))) ∧
      (∀ (v : W32) (t : State), t.latch.find? (fun x => x.1 == m && x.2.1 == a + 4) = some (m, a + 4, v) →
        t.reaches m (a + 4) = true → ∃ u, exec (.lowWordRead m (.bar0 (a + 4))) t = .next u ∧ u.out = t.out ++ [.word v] ∧
          u.latch = t.latch.filter (fun x => !(x.1 == m && x.2.1 == a + 4))) ∧
      (s.latch.find? (fun x => x.1 == m && x.2.1 == a + 4) = none → isPairLow (a + 4) = false →
        ∃ u, exec (.lowWordRead m (.bar0 (a + 4))) s = .next u ∧ u.out = s.out ++ [.word (s.readReg (a + 4))])

/-- READ_CLEAR and REGISTER_WRITE of BAR0, BAR2 or BAR4, and LOW_WORD_READ of BAR0, at an offset not a multiple of
four fault as unaligned. Before DEVICE_READY a host read outside LAY, CMD_STAT and EVT hands back 0 and changes no
register, and a host write there changes nothing. A read by READ_CLEAR of any other register that is no pair's low
word, no semaphore and not TIM_NOW_NS, with no word latched there, hands back its value, clears its RC bits and leaves
every other register. A read of BAR2 hands back the layout table's word, the four bytes of ring storage, or 0 in
reserved space; a read of a configuration field hands back the field with the link up and is retried with it down. -/
def Obligations.RegisterReads : Prop :=
  (∀ (m : Byte) (a : Nat) (v : W32) (s : State), a % 4 ≠ 0 →
      exec (.readClear m (.bar0 a)) s = .fault .unalignedAccess ∧ exec (.lowWordRead m (.bar0 a)) s = .fault .unalignedAccess ∧
        exec (.registerWrite m (.bar0 a) v) s = .fault .unalignedAccess ∧
        exec (.readClear m (.bar2 a)) s = .fault .unalignedAccess ∧ exec (.registerWrite m (.bar2 a) v) s = .fault .unalignedAccess ∧
        exec (.readClear m (.bar4 a)) s = .fault .unalignedAccess ∧ exec (.registerWrite m (.bar4 a) v) s = .fault .unalignedAccess)
  ∧ (∀ (m : Byte) (a : Nat) (v : W32) (s : State), a % 4 = 0 → s.reaches m a = false →
      exec (.readClear m (.bar0 a)) s = .next (s.emit (.word 0)) ∧ exec (.lowWordRead m (.bar0 a)) s = .next (s.emit (.word 0)) ∧
        exec (.registerWrite m (.bar0 a) v) s = .next s)
  ∧ (∀ (m : Byte) (a : Nat) (s : State), a % 4 = 0 →
      (a < 0x100000 → exec (.readClear m (.bar2 a)) s = .next (s.emit (.word (BitVec.ofNat 32 (s.dltWord a))))) ∧
      (0x1000000 ≤ a ∧ a < 0x5000000 → exec (.readClear m (.bar2 a)) s =
        .next (s.emit (.word (wordAt (storeGet memDefault s.bar2) a)))) ∧
      ((0x110000 ≤ a ∧ a < 0x1000000) ∨ 0x5000000 ≤ a → exec (.readClear m (.bar2 a)) s = .next (s.emit (.word 0))))
  ∧ (∀ (m : Byte) (f : CfgField) (s : State),
      exec (.readClear m (.cfg f)) s = .next (if s.cxl.up then s.emit (.field (s.cfgField f)) else s.emit .crs))
  ∧ (∀ (m : Byte) (a : Nat) (s : State), Machine.Inv s → a % 4 = 0 → s.reaches m a = true →
    s.latch.find? (fun x => x.1 == m && x.2.1 == a) = none → a ≠ TIM_NOW_NS →
    ¬ (0x200400 ≤ a ∧ a < 0x200600 ∧ a % 0x10 = 0) → isPairLow a = false →
      exec (.readClear m (.bar0 a)) s = .next ((s.readClear a).emit (.word (s.readReg a))) ∧
        (s.readClear a).rd a = s.rd a &&& ~~~(BitVec.ofNat 32 (rcBits a)) ∧ ∀ b, b ≠ a → (s.readClear a).rd b = s.rd b)

/-- A write that reaches a register of CTX, DSP, AUD, TIM, DFL, PWR or THM sets its RW bits to the value's, clears the
RW1C bits written 1, keeps every other bit, and leaves every other register and the memory; where no register stands,
and in the table and reserved space of BAR2, it changes nothing; in BAR2's ring storage it stores the four bytes; in
the MSI-X table of BAR4 it masks or unmasks a vector or stores the word; of a configuration field it puts the value
where the link is up and is retried where it is down. -/
def Obligations.RegisterWrites : Prop :=
  (∀ (m : Byte) (a i j : Nat) (d : RegDef) (v : W32) (s : State), Machine.Inv s → a % 4 = 0 → s.reaches m a = true →
      a / 0x100000 = 5 ∨ a / 0x100000 = 12 ∨ a / 0x100000 = 13 ∨ a / 0x100000 = 14 ∨ a / 0x100000 = 16 ∨ a / 0x100000 = 18 ∨ a / 0x100000 = 19 →
      regFind a = some (d, i, j) →
      ∃ t, exec (.registerWrite m (.bar0 a) v) s = .next t ∧
        t.rd a = ((s.rd a &&& ~~~(BitVec.ofNat 32 d.rw)) ||| (v &&& BitVec.ofNat 32 d.rw)) &&& ~~~(v &&& BitVec.ofNat 32 d.w1c) ∧
        (∀ b, b ≠ a → t.rd b = s.rd b) ∧ t.mem = s.mem ∧ t.out = s.out)
  ∧ (∀ (m : Byte) (a : Nat) (v : W32) (s : State), a % 4 = 0 → s.reaches m a = true → regFind a = none →
      exec (.registerWrite m (.bar0 a) v) s = .next s)
  ∧ (∀ (m : Byte) (a : Nat) (v : W32) (s : State), a % 4 = 0 → 0x1000000 ≤ a → a < 0x5000000 →
      exec (.registerWrite m (.bar2 a) v) s = .next (s.writeBar2 a (leBytes 4 v.toNat)))
  ∧ (∀ (m : Byte) (a : Nat) (v : W32) (s : State), a % 4 = 0 →
    a < 0x100000 ∨ (0x110000 ≤ a ∧ a < 0x1000000) ∨ 0x5000000 ≤ a → exec (.registerWrite m (.bar2 a) v) s = .next s)
  ∧ (∀ (m : Byte) (a : Nat) (v : W32) (s : State), a % 4 = 0 → 0x10000 ≤ a → a < 0x10400 →
      exec (.registerWrite m (.bar4 a) v) s = .next (if a % 16 = 12 then s.maskVec ((a - 0x10000) / 16) (v.getLsbD 0)
        else s.modCxl (fun c => { c with msixTab := storeSet (fun _ => 0) c.msixTab a v })))
  ∧ (∀ (m : Byte) (f : CfgField) (v : W32) (s : State),
      exec (.registerWrite m (.cfg f) v) s = .next (if s.cxl.up then s.cfgPut f v.toNat else s.emit .crs))

/-- With the link down or in fallback a CXL.mem request does nothing. Before Memory_Active a read answers a poisoned
line of all ones, MEMINV is answered and MEMSPECRD dropped. With memory active, a read of a mapped line answers its 64
bytes and takes the vault out of its power state; a poisoned line answers free data with poison, is logged and
reported; an address that no committed decoder maps faults. A mapped MEMINV is answered and a mapped MEMSPECRD
accepted and dropped, and both take the vault out of its power state. -/
def Obligations.HostReads : Prop :=
  (∀ (addr : Nat) (data : List Byte) (mask : BitVec 64) (s : State), s.cxlMem = false →
      exec (.memrd addr) s = .next s ∧ exec (.memrddata addr) s = .next s ∧ exec (.meminv addr) s = .next s ∧
      exec (.memspecrd addr) s = .next s ∧ exec (.memwr addr data) s = .next s ∧ exec (.memwrptl addr data mask) s = .next s)
  ∧ (∀ (addr : Nat) (s : State), s.cxlMem = true → s.cxl.memActive = false →
      exec (.memrd addr) s = .next (s.emit (.drs (List.replicate 64 0xFF) true)) ∧
      exec (.memrddata addr) s = .next (s.emit (.drs (List.replicate 64 0xFF) true)) ∧ exec (.meminv addr) s = .next (s.emit .ndr) ∧
      exec (.memspecrd addr) s = .next s)
  ∧ (∀ (addr d dpa : Nat) (s u : State), s.cxlMem = true → s.cxl.memActive = true →
    s.hdmDpa (addr / 64 * 64) = some (d, dpa) → u = s.vaultUse → u.cxl.poisoned.contains (dpa / 64) = false →
      exec (.memrd addr) s = .next (u.emit (.drs (bytesAt u.vaultByte dpa 64) false)) ∧
      exec (.memrddata addr) s = .next (u.emit (.drs (bytesAt u.vaultByte dpa 64) false)))
  ∧ (∀ (addr d dpa : Nat) (s u : State) (r : List Byte × State), s.cxlMem = true → s.cxl.memActive = true →
    s.hdmDpa (addr / 64 * 64) = some (d, dpa) → u = s.vaultUse → u.cxl.poisoned.contains (dpa / 64) = true →
      r = State.drawBytes 64 ((u.poisonLine dpa).aer .rasMemPoison) →
      exec (.memrd addr) s = .next (r.2.emit (.drs r.1 true)) ∧ exec (.memrddata addr) s = .next (r.2.emit (.drs r.1 true)))
  ∧ (∀ (addr : Nat) (x : Nat × Nat) (s : State), s.cxlMem = true → s.cxl.memActive = true →
      s.hdmDpa (addr / 64 * 64) = some x →
      exec (.meminv addr) s = .next (s.vaultUse.emit .ndr) ∧ exec (.memspecrd addr) s = .next s.vaultUse)
  ∧ (∀ (addr : Nat) (data : List Byte) (mask : BitVec 64) (s : State), s.cxlMem = true → s.cxl.memActive = true →
      s.hdmDpa (addr / 64 * 64) = none →
      exec (.memrd addr) s = .fault .unmappedHpa ∧ exec (.memrddata addr) s = .fault .unmappedHpa ∧ exec (.meminv addr) s = .fault .unmappedHpa ∧
      exec (.memspecrd addr) s = .fault .unmappedHpa ∧ exec (.memwr addr data) s = .fault .unmappedHpa ∧ exec (.memwrptl addr data mask) s = .fault .unmappedHpa)

/-- With memory active, a write that decoder 0 maps is answered and stores, in the 64 bytes at the mapped address,
each byte its mask enables (all of them for MEMWR), and every other byte of memory reads as before. A write that
decoder 1 maps is answered, counted and discarded, leaves memory as it was, and is logged once in a tick. Before
Memory_Active a write is answered and discarded. -/
def Obligations.HostWrites : Prop :=
  (∀ (addr dpa : Nat) (data : List Byte) (mask : BitVec 64) (s : State), s.cxlMem = true → s.cxl.memActive = true →
    Machine.Inv s → s.hdmDpa (addr / 64 * 64) = some (0, dpa) →
      (∃ t, exec (.memwrptl addr data mask) s = .next t ∧ t.out = s.out ++ [.ndr] ∧
          (∀ a, a < dpa ∨ dpa + 64 ≤ a → t.memB a = s.memB a) ∧
          (∀ i, i < 64 → t.memB (dpa + i) = if bitAt mask.toNat i then (padBytes 64 data).getD i 0 else s.memB (dpa + i))) ∧
        (∃ t, exec (.memwr addr data) s = .next t ∧ t.out = s.out ++ [.ndr] ∧
          (∀ a, a < dpa ∨ dpa + 64 ≤ a → t.memB a = s.memB a) ∧
          (∀ i, i < 64 → t.memB (dpa + i) = (padBytes 64 data).getD i 0)))
  ∧ (∀ (addr d dpa : Nat) (data : List Byte) (mask : BitVec 64) (s u : State), s.cxlMem = true →
    s.cxl.memActive = true → s.hdmDpa (addr / 64 * 64) = some (d + 1, dpa) →
      u = s.vaultUse.bumpStat VLT_HOST_RING_WR →
      exec (.memwrptl addr data mask) s = .next ((if u.cxl.roWrite then u else (u.log .link evHdmRoWrite).modCxl (fun c => { c with roWrite := true })).emit .ndr) ∧
      exec (.memwr addr data) s = .next ((if u.cxl.roWrite then u else (u.log .link evHdmRoWrite).modCxl (fun c => { c with roWrite := true })).emit .ndr))
  ∧ (∀ (addr : Nat) (data : List Byte) (mask : BitVec 64) (s : State), s.cxlMem = true → s.cxl.memActive = false →
      exec (.memwr addr data) s = .next (s.emit .ndr) ∧ exec (.memwrptl addr data mask) s = .next (s.emit .ndr))

/-- In CXL mode decoder 0 commits when it is one-way and exactly as long as the working region, decoder 1 when it is
one-way and exactly as long as the region from W to the usable end; any other commit fails with Commit Error set. A
committed decoder 0 maps its addresses from DPA 0 up and a committed decoder 1 from DPA W up. VLT_SET_LAYOUT completes
with STATE and changes nothing while either is committed and the link's mode is not fallback, where no decoder maps
anything. -/
def Obligations.HdmDecoders : Prop :=
  (∀ (dec : Fin 2) (base size ways : Nat) (good : Bool) (s : State), s.cxlMem = true →
      (good = (decide (size = if (dec : Nat) = 0 then s.wBytes else s.vlt.usable * 4096 - s.wBytes) && decide (ways = 1))) →
      exec (.hdmCommit dec base size ways) s = .next (s.modCxl (fun c =>
        { c with hdm := c.hdm.setIfInBounds dec { committed := good, err := !good, base := base, size := size, ways := ways } })))
  ∧ (∀ (a : Nat) (s : State), s.cxl.hdm[0].committed = true → s.cxl.hdm[0].base ≤ a →
    a < s.cxl.hdm[0].base + s.cxl.hdm[0].size → s.hdmDpa a = some (0, a - s.cxl.hdm[0].base))
  ∧ (∀ (a : Nat) (s : State), s.cxl.hdm[1].committed = true → s.cxl.hdm[1].base ≤ a →
      a < s.cxl.hdm[1].base + s.cxl.hdm[1].size →
      ¬ (s.cxl.hdm[0].committed = true ∧ s.cxl.hdm[0].base ≤ a ∧ a < s.cxl.hdm[0].base + s.cxl.hdm[0].size) →
      s.hdmDpa a = some (1, a - s.cxl.hdm[1].base + s.wBytes))
  ∧ (∀ (p : Pkt) (s : State), accepted 0x0500 p s = true → (entered 0x0500 p s).hdmCommitted = true →
      exec (.vltSetLayout p) s = .next (settled 0x0500 (s.pktHdr 0x0500 p) (entered 0x0500 p s) (refuse stState 0x8001)))

/-- LINK_TRAINING_DONE on a device with power and awake brings the link up, sets Memory_Info_Valid and Memory_Active,
and republishes the table when mode, width or rate changed; otherwise it does nothing. LINK_DOWN of a link that is up
takes it down and logs it. FLR with the link up ends the queues' work, resets the host's registers, masks all vectors,
disables the function's MSI-X and bus mastering, and forgets the pending vectors, the table and the fence lines; with
the link down it does nothing. MSIX_UNMASK unmasks its vector and sends what is pending and may be sent. With the link
up DOE_REQUEST answers 240 ns and 32 GB/s and LINK_CRC_ERROR is reported as correctable; in CXL mode
CXL_CACHE_PROTOCOL_ERROR is reported by its kind and CACHE_WRITE_ERROR is a DMA error of its block; DMA_READ_ERROR is
one always. -/
def Obligations.HostLink : Prop :=
  (∀ (full : Bool) (width rate : Nat) (u s : State), s.dev.awaits = false → s.dev.vin = 0 → s.pwr.sleep = 0 →
      u = (s.linkUp full width rate).modCxl (fun c => { c with
            memInfoValid := (s.linkUp full width rate).dlt.valid && !c.fallback
            memActive := (s.linkUp full width rate).dev.ready && !c.fallback }) →
      exec (.linkTrainingDone full width rate) s =
        .next (if s.cxl.fallback = u.cxl.fallback ∧ s.cxl.width = width ∧ s.cxl.rate = rate then u else u.republish))
  ∧ (∀ (full : Bool) (width rate : Nat) (s : State), s.dev.awaits = true ∨ s.dev.vin ≠ 0 ∨ s.pwr.sleep ≠ 0 →
      exec (.linkTrainingDone full width rate) s = .next s)
  ∧ (∀ (s : State),
      exec .linkDown s = .next (if s.cxl.up then (s.modCxl (fun c => { c with up := false })).log .link evLinkDown else s))
  ∧ (∀ (s : State), s.cxl.up = false → exec .flr s = .next s)
  ∧ (∀ (s u v : State), s.cxl.up = true →
      u = (((((List.range 16).foldl (fun u n => u.vqResetEnd n (u.vp n).cmds.length) s).vqFlr.dflLost.cmpFlr.encFlr).masterReset 0).netFlr).cmdFlr →
      v = flrRegs.foldl (fun v a => v.wr a (regReset v.dev.variant a)) u →
      exec .flr s =
        .next (v.modCxl (fun c => { c with
          fenceLines := [], msixMask := BitVec.allOnes 64, msixPend := 0, msixTab := [], msixOn := false, busMaster := false })))
  ∧ (∀ (v : Fin 64) (s : State),
      exec (.msixUnmask v) s = .next (State.sendAll (s.modCxl (fun c => { c with msixMask := c.msixMask &&& ~~~(BitVec.ofNat 64 (2 ^ (v : Nat))) }))))
  ∧ (∀ (src : Fin 24) (who : BitVec 16) (addr : Nat) (poisoned inAddr : Bool) (s : State),
      exec .doeRequest s = .next (if s.cxl.up then s.emit (.cdat 240 32) else s) ∧ exec .linkCrcError s = .next (if s.cxl.up then s.aer .correctable else s) ∧
      exec (.cxlCacheProtocolError inAddr) s = .next (if s.cxlMem then s.aer (if inAddr then .rasCacheAddrParity else .rasCacheDataParity) else s) ∧
      exec (.dmaReadError src who addr poisoned) s = .next (s.dmaError (Blk.all.getD src .dev) who.toNat addr poisoned) ∧
      exec (.cacheWriteError src who addr) s = .next (if s.cxlMem then s.dmaError (Blk.all.getD src .dev) who.toNat addr false else s))

/-- Every register with a reset value other than 0 that is one number holds it in each of its instances after
State.reset; nothing is pending, the working region and host memory hold nothing written, no output has left, no word
is latched and the device is not in the safe state. -/
def Obligations.ResetValues : Prop :=
  (∀ n : Fin 4, State.reset.rn (CMD_CR_CFG n) = 0x80) ∧ State.reset.rn LNK_QMAP = 0x3FFFF ∧
  (∀ q : Fin 6, State.reset.rn (LNK_QCFG q) = 0x50) ∧ (∀ p : Fin 4, State.reset.rn (LNK_P_CFG p) = 0x10708) ∧
  (∀ p : Fin 4, State.reset.rn (LNK_P_FRAME_TMO p) = 0x186A0) ∧
  (∀ p : Fin 4, State.reset.rn (LNK_P_SCC p) = 0x6402ED0) ∧
  (∀ p : Fin 4, State.reset.rn (LNK_P_TRG p) = 0x271000) ∧ (∀ l : Fin 24, State.reset.rn (LNK_L_STAT l) = 0xF0) ∧
  State.reset.rn RAW_LANES = 0x20 ∧ (∀ p : Fin 4, State.reset.rn (RAW_P_CFG p) = 0x80110) ∧
  (∀ p : Fin 4, State.reset.rn (RAW_P_LINE_NS p) = 0x3E8) ∧
  (∀ p : Fin 4, State.reset.rn (RAW_P_GHOST p) = 0x100800) ∧
  (∀ p : Fin 4, State.reset.rn (RAW_P_NOISE_FLOOR p) = 0x1000) ∧
  (∀ p : Fin 4, State.reset.rn (RAW_P_DYN_ABS p) = 0x4000) ∧
  (∀ p : Fin 4, State.reset.rn (RAW_P_DYN_REL p) = 0x4000) ∧
  (∀ (p : Fin 4) (r : Fin 3), State.reset.rn (RAW_P_GAIN p r) = 0x10000) ∧
  (∀ (p : Fin 4) (r : Fin 3), State.reset.rn (RAW_P_KNEE p r) = 0xFFFFFF) ∧
  (∀ (p : Fin 4) (r : Fin 3), State.reset.rn (RAW_P_SAT p r) = 0xFFFFFF) ∧
  (∀ (p : Fin 4) (r : Fin 3), State.reset.rn (RAW_P_WEIGHT p r) = 0x100) ∧ State.reset.rn CTX_LADLE_STAT = 0x7 ∧
  (∀ c : Fin 6, State.reset.rn (CTX_C_BUDGET c) = 0x3E8) ∧
  (∀ c : Fin 6, State.reset.rn (CTX_C_FRAME_NS c) = 0xFE502B) ∧ State.reset.rn CLR_LANES = 0x10 ∧
  (∀ c : Fin 6, State.reset.rn (CLR_C_CFG c) = 0x2) ∧ (∀ c : Fin 6, State.reset.rn (CLR_C_WB01 c) = 0x10001000) ∧
  (∀ c : Fin 6, State.reset.rn (CLR_C_WB23 c) = 0x10001000) ∧
  (∀ c : Fin 6, State.reset.rn (CLR_C_DM_EPS c) = 0x100) ∧
  (∀ c : Fin 6, State.reset.rn (CLR_C_FCS_KNEE c) = 0x8000) ∧
  (∀ c : Fin 6, State.reset.rn (CLR_C_LUMA_K c) = 0xF2E4340) ∧
  (∀ t : Fin 10, State.reset.rn (TAP_T_OWNER t) = 0x7) ∧ (∀ t : Fin 10, State.reset.rn (TAP_T_FMT t) = 0x10102) ∧
  (∀ t : Fin 10, State.reset.rn (TAP_T_EXP t) = 0x10000) ∧
  (∀ t : Fin 10, State.reset.rn (TAP_T_BUF_CFG t) = 0x2) ∧ State.reset.rn VLT_LAYOUT = 0x10 ∧
  (∀ p : Fin 4, State.reset.rn (RAW_P_PRESS_RC p) = 0x10010500) ∧ State.reset.rn VLT_PD_STAT = 0x70 ∧
  State.reset.rn VQ_CTRL = 0x3E800C8 ∧ State.reset.rn VQ_VPSTATE = 0x20 ∧
  State.reset.rn CDC_ENG_STAT = 0x1F1F1F00 ∧ (∀ t : Fin 4, State.reset.rn (DSP_TG_STAT t) = 0x70) ∧
  (∀ p : Fin 4, State.reset.rn (DSP_P_STAT p) = 0x70) ∧ (∀ p : Fin 8, State.reset.rn (AUD_P_CFG p) = 0xF20) ∧
  State.reset.rn TIM_ADDEND_LO = 0x55555555 ∧ State.reset.rn TIM_ADDEND_HI = 0x1 ∧
  State.reset.rn TIM_STEP_LIMIT = 0xF4240 ∧ (∀ k : Fin 4, State.reset.rn (FCG_PERIOD_HI k) = 0xFE502A) ∧
  State.reset.rn DFL_CTRL = 0xC8 ∧ State.reset.rn DMC_STAT = 0x2010260 ∧ State.reset.rn DMC_SR_IDLE = 0x64 ∧
  State.reset.rn PWR_STAT = 0x1 ∧ State.reset.rn PWR_LIMIT = 0xE290 ∧ State.reset.rn PWR_VIN_WARN = 0x1964 ∧
  (∀ n : Fin 4, State.reset.rn (PWR_AX_CFG n) = 0x305) ∧ State.reset.rn THM_STAT = 0x41 ∧
  State.reset.rn THM_MAX = 0x8000 ∧ State.reset.rn THM_EQ = 0x776543 ∧ State.reset.rn EVT_CTRL = 0x3 ∧
  State.reset.rn EVT_HEAD_SEQ = 0x1 ∧ State.reset.rn EVT_TAIL_SEQ = 0x1 ∧ State.reset.rn EVT_RD_SEQ = 0x1 ∧
  State.reset.pending = [] ∧ State.reset.mem = [] ∧ State.reset.host = [] ∧ State.reset.bar2 = [] ∧ State.reset.out = [] ∧
  State.reset.latch = [] ∧ State.reset.dev.safe = false ∧ State.reset.cmd.started = []

/-- For a packet that passes the header checks outside the safe state: in the safe state its opcode completes with
SAFE_STATE and changes nothing else unless it is one of 0x0000, 0x0001, 0x0002, 0x0020, 0x0D03, 0x0D05 and 0x0E02,
whose checks the safe state does not change. A packet of an opcode listed as CR0, on another ring, whose checks pass
on CR0, completes with NOT_PERMITTED and DETAIL 0x0001. -/
def Obligations.SafeStateOpcodes : Prop :=
  (∀ (op : Nat) (sp : OpSpec) (p : Pkt) (s : State) (body : Body), opSpec op = some sp → s.dev.safe = true →
      s.cmd.abandoned.any (·.is (s.pktHdr op p)) = false →
      headerCheck sp false s.dlt.disabled p.ring p.params.length p.flags.toNat p.target.toNat 0 p.params = none →
      op ∉ [0x0000, 0x0001, 0x0002, 0x0020, 0x0D03, 0x0D05, 0x0E02] →
      runOp op p s body = s.complete (s.pktHdr op p) (refuse stSafe 0))
  ∧ (∀ (op : Nat) (sp : OpSpec) (p : Pkt) (off : List Nat), opSpec op = some sp →
      op ∈ [0x0000, 0x0001, 0x0002, 0x0020, 0x0D03, 0x0D05, 0x0E02] →
      headerCheck sp true off p.ring p.params.length p.flags.toNat p.target.toNat 0 p.params =
        headerCheck sp false off p.ring p.params.length p.flags.toNat p.target.toNat 0 p.params)
  ∧ (∀ (op : Nat) (sp : OpSpec) (p : Pkt) (s : State) (body : Body), opSpec op = some sp → sp.cr0 = true →
    (p.ring : Nat) ≠ 0 → s.cmd.abandoned.any (·.is (s.pktHdr op p)) = false →
      headerCheck sp false s.dlt.disabled 0 p.params.length p.flags.toNat p.target.toNat 0 p.params = none →
      runOp op p s body = s.complete (s.pktHdr op p) (refuse stNotPermitted 0x0001))

/-- For every opcode of the table and whatever the opcode would do: a packet abandoned at its bound is only forgotten;
a packet that a header check refuses completes with that check's answer; a packet of the fast path with a reserved
parameter bit set completes with BAD_PARAM and the index of that word, or of an earlier word that the opcode itself
refuses, and one of the firmware path, when its turn has come, has that outcome recorded for its reply; before its
turn it changes nothing. -/
def Obligations.HeaderRefusals : Prop :=
  (∀ (op : Nat) (p : Pkt) (s : State) (body : Body), (opSpec op).isSome = true →
      s.cmd.abandoned.any (·.is (s.pktHdr op p)) = true →
      runOp op p s body =
        { s with cmd := { s.cmd with abandoned := s.cmd.abandoned.eraseP (·.is (s.pktHdr op p)) } })
  ∧ (∀ (op : Nat) (sp : OpSpec) (p : Pkt) (s : State) (body : Body) (o : Outc), opSpec op = some sp →
      s.cmd.abandoned.any (·.is (s.pktHdr op p)) = false →
      headerCheck sp s.dev.safe s.dlt.disabled p.ring p.params.length p.flags.toNat p.target.toNat 0 p.params = some o →
      runOp op p s body = s.complete (s.pktHdr op p) o)
  ∧ (∀ (op : Nat) (sp : OpSpec) (p : Pkt) (s : State) (body : Body) (i : Nat), opSpec op = some sp →
      s.cmd.abandoned.any (·.is (s.pktHdr op p)) = false →
      headerCheck sp s.dev.safe s.dlt.disabled p.ring p.params.length p.flags.toNat p.target.toNat 0 p.params = none →
    reservedWord sp p.params = some i → sp.fast = true →
      runOp op p s body = s.complete (s.pktHdr op p) (firstBad i (body s).2))
  ∧ (∀ (op : Nat) (sp : OpSpec) (p : Pkt) (s : State) (body : Body) (i : Nat), opSpec op = some sp →
      s.cmd.abandoned.any (·.is (s.pktHdr op p)) = false →
      headerCheck sp s.dev.safe s.dlt.disabled p.ring p.params.length p.flags.toNat p.target.toNat 0 p.params = none →
    reservedWord sp p.params = some i → sp.fast = false → s.turn (s.pktHdr op p) = true →
      let u := s.restart (s.pktHdr op p) (fun e => { e with queued := false })
      runOp op p s body = u.finishF (s.pktHdr op p) (firstBad i (body u).2))
  ∧ (∀ (op : Nat) (sp : OpSpec) (p : Pkt) (s : State) (body : Body), opSpec op = some sp →
      s.cmd.abandoned.any (·.is (s.pktHdr op p)) = false →
      headerCheck sp s.dev.safe s.dlt.disabled p.ring p.params.length p.flags.toNat p.target.toNat 0 p.params = none →
    sp.fast = false → s.turn (s.pktHdr op p) = false → runOp op p s body = s)
end

