-- ==== Sys2Proof/Laws/Store.lean ====
section
/-!
SUPPORT. Laws of the sparse stores: a read after a write, and that every write keeps the canonical form.
-/
namespace Sys2Proof.Machine
open Sys2Proof

variable {α : Type}

/-! ### Reads after writes -/

theorem storeFind_none_of_above {m : List (Nat × α)} {k j : Nat} (h : storeAbove k m = true) (hj : j ≤ k) :
    storeFind m j = none := by
  induction m with
  | nil => rfl
  | cons e t ih =>
    obtain ⟨a, v⟩ := e
    simp only [storeAbove, Bool.and_eq_true, decide_eq_true_eq] at h
    have : j ≠ a := by omega
    simp [storeFind, this, ih h.2]

@[simp] theorem storeFind_put_self (m : List (Nat × α)) (k : Nat) (v : α) : storeFind (storePut m k v) k = some v := by
  induction m with
  | nil => simp [storePut, storeFind]
  | cons e t ih =>
    obtain ⟨a, w⟩ := e
    unfold storePut
    split
    · simp [storeFind]
    · split <;> simp [storeFind, *]

theorem storeFind_put_ne (m : List (Nat × α)) {k j : Nat} (v : α) (h : j ≠ k) :
    storeFind (storePut m k v) j = storeFind m j := by
  induction m with
  | nil => simp [storePut, storeFind, h]
  | cons e t ih =>
    obtain ⟨a, w⟩ := e
    unfold storePut
    split
    · simp [storeFind, h]
    · split
      · rename_i h1
        subst h1
        simp [storeFind, h]
      · simp [storeFind, ih]

theorem storeFind_erase_ne (m : List (Nat × α)) {k j : Nat} (h : j ≠ k) : storeFind (storeErase m k) j = storeFind m j := by
  induction m with
  | nil => rfl
  | cons e t ih =>
    obtain ⟨a, w⟩ := e
    unfold storeErase
    split
    · rename_i h1
      subst h1
      simp [storeFind, h]
    · simp [storeFind, ih]

theorem storeFind_erase_self {m : List (Nat × α)} (h : storeRising m = true) (k : Nat) :
    storeFind (storeErase m k) k = none := by
  induction m with
  | nil => rfl
  | cons e t ih =>
    obtain ⟨a, w⟩ := e
    simp only [storeRising, Bool.and_eq_true] at h
    unfold storeErase
    split
    · rename_i h1
      subst h1
      exact storeFind_none_of_above h.1 (Nat.le_refl _)
    · rename_i h1
      simp [storeFind, h1, ih h.2]

/-! ### The canonical form -/

theorem storeAbove_put {m : List (Nat × α)} {b k : Nat} {v : α} (h : storeAbove b m = true) (hb : b < k) :
    storeAbove b (storePut m k v) = true := by
  induction m with
  | nil => simp [storePut, storeAbove, hb]
  | cons e t ih =>
    obtain ⟨a, w⟩ := e
    simp only [storeAbove, Bool.and_eq_true, decide_eq_true_eq] at h
    unfold storePut
    split
    · simp [storeAbove, hb, h]
    · split <;> simp [storeAbove, hb, h, ih]

theorem storeAbove_mono {m : List (Nat × α)} {b c : Nat} (h : storeAbove b m = true) (hc : c ≤ b) : storeAbove c m = true := by
  induction m with
  | nil => rfl
  | cons e t ih =>
    obtain ⟨a, w⟩ := e
    simp only [storeAbove, Bool.and_eq_true, decide_eq_true_eq] at h ⊢
    exact ⟨by omega, ih h.2⟩

theorem storeAbove_erase {m : List (Nat × α)} {b : Nat} (k : Nat) (h : storeAbove b m = true) :
    storeAbove b (storeErase m k) = true := by
  induction m with
  | nil => rfl
  | cons e t ih =>
    obtain ⟨a, w⟩ := e
    simp only [storeAbove, Bool.and_eq_true, decide_eq_true_eq] at h
    unfold storeErase
    split
    · exact h.2
    · simp [storeAbove, h, ih]

theorem storeRising_put {m : List (Nat × α)} (k : Nat) (v : α) (h : storeRising m = true) : storeRising (storePut m k v) = true := by
  induction m with
  | nil => rfl
  | cons e t ih =>
    obtain ⟨a, w⟩ := e
    simp only [storeRising, Bool.and_eq_true] at h
    unfold storePut
    split
    · rename_i hk
      simp [storeRising, storeAbove, hk, h, storeAbove_mono h.1 (Nat.le_of_lt hk)]
    · split
      · rename_i hk
        subst hk
        simp [storeRising, h]
      · simp [storeRising, ih h.2, storeAbove_put h.1 (show a < k by omega)]

theorem storeRising_erase {m : List (Nat × α)} (k : Nat) (h : storeRising m = true) : storeRising (storeErase m k) = true := by
  induction m with
  | nil => rfl
  | cons e t ih =>
    obtain ⟨a, w⟩ := e
    simp only [storeRising, Bool.and_eq_true] at h
    unfold storeErase
    split
    · exact h.2
    · simp [storeRising, ih h.2, storeAbove_erase k h.1]

variable [DecidableEq α]

theorem storeTight_put {d : Nat → α} {m : List (Nat × α)} {k : Nat} {v : α} (h : storeTight d m = true) (hv : v ≠ d k) :
    storeTight d (storePut m k v) = true := by
  induction m with
  | nil => simp [storePut, storeTight, hv]
  | cons e t ih =>
    obtain ⟨a, w⟩ := e
    simp only [storeTight, Bool.and_eq_true, decide_eq_true_eq] at h
    unfold storePut
    split
    · simp [storeTight, hv, h]
    · split
      · simp [storeTight, hv, h]
      · simp [storeTight, h, ih]

theorem storeTight_erase {d : Nat → α} {m : List (Nat × α)} (k : Nat) (h : storeTight d m = true) :
    storeTight d (storeErase m k) = true := by
  induction m with
  | nil => rfl
  | cons e t ih =>
    obtain ⟨a, w⟩ := e
    simp only [storeTight, Bool.and_eq_true, decide_eq_true_eq] at h
    unfold storeErase
    split
    · exact h.2
    · simp [storeTight, h, ih]

/-- Every write keeps the canonical form. -/
theorem storeWf_set {d : Nat → α} {m : List (Nat × α)} (k : Nat) (v : α) (h : storeWf d m = true) :
    storeWf d (storeSet d m k v) = true := by
  simp only [storeWf, Bool.and_eq_true] at h ⊢
  unfold storeSet
  split
  · exact ⟨storeRising_erase k h.1, storeTight_erase k h.2⟩
  · rename_i hv
    exact ⟨storeRising_put k v h.1, storeTight_put h.2 hv⟩

/-- What was written is read back. -/
theorem storeGet_set_self {d : Nat → α} {m : List (Nat × α)} (k : Nat) (v : α) (h : storeRising m = true) :
    storeGet d (storeSet d m k v) k = v := by
  unfold storeGet storeSet
  split
  · rename_i hv
    simp [storeFind_erase_self h, hv]
  · simp

/-- A write leaves every other address alone. -/
theorem storeGet_set_ne (d : Nat → α) (m : List (Nat × α)) {k j : Nat} (v : α) (h : j ≠ k) :
    storeGet d (storeSet d m k v) j = storeGet d m j := by
  unfold storeGet storeSet
  split
  · rw [storeFind_erase_ne m h]
  · rw [storeFind_put_ne m v h]

/-- Entries filtered out of a canonical store leave a canonical store. -/
theorem storeAbove_filter {β : Type} {m : List (Nat × β)} {b : Nat} (p : Nat × β → Bool) (h : storeAbove b m = true) :
    storeAbove b (m.filter p) = true := by
  induction m with
  | nil => rfl
  | cons e t ih =>
    obtain ⟨a, w⟩ := e
    simp only [storeAbove, Bool.and_eq_true, decide_eq_true_eq] at h
    simp only [List.filter_cons]
    split
    · simp [storeAbove, h, ih]
    · exact ih h.2

theorem storeWf_filter {d : Nat → α} {m : List (Nat × α)} (p : Nat × α → Bool) (h : storeWf d m = true) :
    storeWf d (m.filter p) = true := by
  induction m with
  | nil => rfl
  | cons e t ih =>
    obtain ⟨a, w⟩ := e
    simp only [storeWf, storeRising, storeTight, Bool.and_eq_true, decide_eq_true_eq] at h ih ⊢
    have ht := ih ⟨h.1.2, h.2.2⟩
    simp only [List.filter_cons]
    split
    · simp [storeRising, storeTight, ht, h, storeAbove_filter p h.1.1]
    · exact ht

end Sys2Proof.Machine
end

