-- ==== Sys2Proof/Laws/Regs.lean ====
section
/-!
SUPPORT. Laws of bit fields and of the register file: what a write of a register or of a field leaves in every other register and field.
-/
namespace Sys2Proof

/-! ### Bit fields -/

theorem bitsAt_eq (v lo w : Nat) : bitsAt v lo w = v / 2 ^ lo % 2 ^ w := by
  simp [bitsAt, Nat.shiftRight_eq_div_pow]

theorem bitsAt_lt (v lo w : Nat) : bitsAt v lo w < 2 ^ w := Nat.mod_lt _ (Nat.two_pow_pos w)

/-- The parts of a number below, in and above a field. -/
theorem field_split (v lo w : Nat) : v = v / 2 ^ (lo + w) * 2 ^ (lo + w) + bitsAt v lo w * 2 ^ lo + v % 2 ^ lo := by
  have h1 := Nat.div_add_mod v (2 ^ lo)
  have h2 := Nat.div_add_mod (v / 2 ^ lo) (2 ^ w)
  rw [Nat.div_div_eq_div_mul, ← pow_add] at h2
  rw [bitsAt_eq]
  calc v = 2 ^ lo * (v / 2 ^ lo) + v % 2 ^ lo := h1.symm
    _ = 2 ^ lo * (2 ^ w * (v / 2 ^ (lo + w)) + v / 2 ^ lo % 2 ^ w) + v % 2 ^ lo := by rw [h2]
    _ = _ := by rw [pow_add]; ring

theorem putBits_eq (v lo w x : Nat) :
    putBits v lo w x = v / 2 ^ (lo + w) * 2 ^ (lo + w) + x % 2 ^ w * 2 ^ lo + v % 2 ^ lo := by
  have h := field_split v lo w
  unfold putBits
  omega

/-- A field holds what was put into it. -/
@[simp] theorem bitsAt_put_self (v lo w x : Nat) : bitsAt (putBits v lo w x) lo w = x % 2 ^ w := by
  rw [bitsAt_eq, putBits_eq]
  have e : v / 2 ^ (lo + w) * 2 ^ (lo + w) + x % 2 ^ w * 2 ^ lo + v % 2 ^ lo
      = v % 2 ^ lo + 2 ^ lo * (v / 2 ^ (lo + w) * 2 ^ w + x % 2 ^ w) := by rw [pow_add]; ring
  rw [e, Nat.add_mul_div_left _ _ (Nat.two_pow_pos lo), Nat.div_eq_of_lt (Nat.mod_lt _ (Nat.two_pow_pos lo)), Nat.zero_add,
    Nat.mul_comm, Nat.mul_add_mod, Nat.mod_mod]

/-- A field below the one written keeps its value. -/
theorem bitsAt_put_below (v x : Nat) {lo w l k : Nat} (h : l + k ≤ lo) : bitsAt (putBits v lo w x) l k = bitsAt v l k := by
  rw [bitsAt_eq, bitsAt_eq, putBits_eq]
  obtain ⟨d, rfl⟩ := Nat.exists_eq_add_of_le h
  have low (n : Nat) : n / 2 ^ l % 2 ^ k = n % 2 ^ (l + k) / 2 ^ l := by
    rw [pow_add, Nat.mod_mul_right_div_self]
  rw [low, low v]
  congr 1
  have e : v / 2 ^ (l + k + d + w) * 2 ^ (l + k + d + w) + x % 2 ^ w * 2 ^ (l + k + d) + v % 2 ^ (l + k + d)
      = v % 2 ^ (l + k + d) + 2 ^ (l + k) * (v / 2 ^ (l + k + d + w) * 2 ^ (d + w) + x % 2 ^ w * 2 ^ d) := by
    rw [show l + k + d + w = (l + k) + (d + w) by omega, pow_add 2 (l + k) (d + w), pow_add 2 (l + k) d]; ring
  rw [e, Nat.add_mul_mod_self_left, pow_add 2 (l + k) d, Nat.mod_mul_right_mod]

/-- A field above the one written keeps its value. -/
theorem bitsAt_put_above (v x : Nat) {lo w l k : Nat} (h : lo + w ≤ l) : bitsAt (putBits v lo w x) l k = bitsAt v l k := by
  rw [bitsAt_eq, bitsAt_eq, putBits_eq]
  obtain ⟨d, rfl⟩ := Nat.exists_eq_add_of_le h
  congr 1
  rw [pow_add 2 (lo + w) d, ← Nat.div_div_eq_div_mul, ← Nat.div_div_eq_div_mul]
  congr 1
  have hb : x % 2 ^ w * 2 ^ lo + v % 2 ^ lo < 2 ^ (lo + w) := by
    have h1 := Nat.mod_lt x (Nat.two_pow_pos w)
    have h2 := Nat.mod_lt v (Nat.two_pow_pos lo)
    calc x % 2 ^ w * 2 ^ lo + v % 2 ^ lo < x % 2 ^ w * 2 ^ lo + 2 ^ lo := by omega
      _ = (x % 2 ^ w + 1) * 2 ^ lo := by ring
      _ ≤ 2 ^ w * 2 ^ lo := Nat.mul_le_mul_right _ h1
      _ = 2 ^ (lo + w) := by rw [pow_add]; ring
  rw [Nat.add_assoc, Nat.mul_comm, Nat.mul_add_div (Nat.two_pow_pos _), Nat.div_eq_of_lt hb, Nat.add_zero]

theorem putBits_lt (v x : Nat) {lo w n : Nat} (h : lo + w ≤ n) (hv : v < 2 ^ n) : putBits v lo w x < 2 ^ n := by
  rw [putBits_eq]
  obtain ⟨d, rfl⟩ := Nat.exists_eq_add_of_le h
  have h0 : v / 2 ^ (lo + w) < 2 ^ d := by
    rw [Nat.div_lt_iff_lt_mul (Nat.two_pow_pos _), ← pow_add, Nat.add_comm d]; exact hv
  have h1 := Nat.mod_lt x (Nat.two_pow_pos w)
  have h2 := Nat.mod_lt v (Nat.two_pow_pos lo)
  calc v / 2 ^ (lo + w) * 2 ^ (lo + w) + x % 2 ^ w * 2 ^ lo + v % 2 ^ lo
      < v / 2 ^ (lo + w) * 2 ^ (lo + w) + x % 2 ^ w * 2 ^ lo + 2 ^ lo := by omega
    _ = v / 2 ^ (lo + w) * 2 ^ (lo + w) + (x % 2 ^ w + 1) * 2 ^ lo := by ring
    _ ≤ v / 2 ^ (lo + w) * 2 ^ (lo + w) + 2 ^ w * 2 ^ lo := Nat.add_le_add_left (Nat.mul_le_mul_right _ h1) _
    _ = (v / 2 ^ (lo + w) + 1) * 2 ^ (lo + w) := by rw [pow_add]; ring
    _ ≤ 2 ^ d * 2 ^ (lo + w) := Nat.mul_le_mul_right _ h0
    _ = 2 ^ (lo + w + d) := by rw [← pow_add, Nat.add_comm d]

@[simp] theorem b2n_true : b2n true = 1 := rfl
@[simp] theorem b2n_false : b2n false = 0 := rfl

namespace Machine

variable {s : State}

/-! ### Registers -/

/-- The addresses of the register file rise. -/
structure RegsWf (s : State) : Prop where
  rising : storeRising s.regs = true

@[simp] theorem State.rd_wr_self (h : RegsWf s) (a : Nat) (v : W32) : (s.wr a v).rd a = v := storeGet_set_self a v h.rising

@[simp] theorem State.rd_wr_ne (s : State) {a b : Nat} (v : W32) (h : b ≠ a) : (s.wr a v).rd b = s.rd b :=
  storeGet_set_ne _ _ v h

theorem State.rd_wr (h : RegsWf s) (a b : Nat) (v : W32) : (s.wr a v).rd b = if b = a then v else s.rd b := by
  split
  · rename_i e; rw [e, State.rd_wr_self h]
  · rename_i e; exact State.rd_wr_ne s v e

@[simp] theorem State.wr_rising (h : RegsWf s) (a : Nat) (v : W32) : RegsWf (s.wr a v) := by
  refine ⟨show storeRising (storeSet _ _ _ _) = true from ?_⟩
  unfold storeSet
  split
  · exact storeRising_erase _ h.rising
  · exact storeRising_put _ _ h.rising

@[simp] theorem State.rn_wn_self (h : RegsWf s) (a v : Nat) : (s.wn a v).rn a = v % 2 ^ 32 := by
  simp [State.rn, State.wn, h]
@[simp] theorem State.rn_wn_ne (s : State) {a b : Nat} (v : Nat) (h : b ≠ a) : (s.wn a v).rn b = s.rn b := by
  simp [State.rn, State.wn, h]
@[simp] theorem State.rd_wn_ne (s : State) {a b : Nat} (v : Nat) (h : b ≠ a) : (s.wn a v).rd b = s.rd b := by
  simp [State.wn, h]
@[simp] theorem State.wn_rising (h : RegsWf s) (a v : Nat) : RegsWf (s.wn a v) := State.wr_rising h a _

theorem State.rn_lt (s : State) (a : Nat) : s.rn a < 2 ^ 32 := (s.rd a).isLt

/-! ### Fields -/

@[simp] theorem State.setF_rising (h : RegsWf s) (x : Fld) (v : Nat) : RegsWf (s.setF x v) := State.wn_rising h _ _
@[simp] theorem State.setB_rising (h : RegsWf s) (x : Fld) (b : Bool) : RegsWf (s.setB x b) := State.wn_rising h _ _
@[simp] theorem State.raise_rising (h : RegsWf s) (x : Fld) : RegsWf (s.raise x) := State.wn_rising h _ _
@[simp] theorem State.setBit_rising (h : RegsWf s) (x : Fld) (i : Nat) (b : Bool) : RegsWf (s.setBit x i b) :=
  State.wn_rising h _ _

theorem State.rn_setF (h : RegsWf s) (x : Fld) (v : Nat) (hx : x.lo + x.w ≤ 32) :
    (s.setF x v).rn x.addr = putBits (s.rn x.addr) x.lo x.w v := by
  rw [State.setF, State.rn_wn_self h, Nat.mod_eq_of_lt (putBits_lt _ _ hx (s.rn_lt _))]

/-- A field reads as what was stored in it. -/
theorem State.f_setF_self (h : RegsWf s) (x : Fld) (v : Nat) (hx : x.lo + x.w ≤ 32) : (s.setF x v).f x = v % 2 ^ x.w := by
  rw [State.f, State.rn_setF h x v hx, bitsAt_put_self]

@[simp] theorem State.rd_setF_ne (s : State) {x : Fld} {a : Nat} (v : Nat) (h : a ≠ x.addr) : (s.setF x v).rd a = s.rd a := by
  simp [State.setF, h]
@[simp] theorem State.rn_setF_ne (s : State) {x : Fld} {a : Nat} (v : Nat) (h : a ≠ x.addr) : (s.setF x v).rn a = s.rn a := by
  simp [State.rn, h]
theorem State.rd_setB_ne (s : State) {x : Fld} {a : Nat} (b : Bool) (h : a ≠ x.addr) : (s.setB x b).rd a = s.rd a :=
  State.rd_setF_ne s _ h
theorem State.rd_raise_ne (s : State) {x : Fld} {a : Nat} (h : a ≠ x.addr) : (s.raise x).rd a = s.rd a :=
  State.rd_setF_ne s _ h

/-- A field of another register keeps its value. -/
theorem State.f_setF_ne (s : State) {x y : Fld} (v : Nat) (h : y.addr ≠ x.addr) : (s.setF x v).f y = s.f y := by
  simp [State.f, h]

/-- Another field of the same register keeps its value. -/
theorem State.f_setF_apart (h : RegsWf s) {x y : Fld} (v : Nat) (hx : x.lo + x.w ≤ 32) (ha : y.addr = x.addr)
    (hd : y.lo + y.w ≤ x.lo ∨ x.lo + x.w ≤ y.lo) : (s.setF x v).f y = s.f y := by
  rw [State.f, State.f, ha, State.rn_setF h x v hx]
  cases hd with
  | inl hd => exact bitsAt_put_below _ _ hd
  | inr hd => exact bitsAt_put_above _ _ hd

theorem State.on_setB_self (h : RegsWf s) (x : Fld) (b : Bool) (hx : x.lo + x.w ≤ 32) (hw : x.w ≠ 0) :
    (s.setB x b).on x = b := by
  have h2 : 1 % 2 ^ x.w = 1 := Nat.mod_eq_of_lt (Nat.one_lt_two_pow hw)
  rw [State.on, State.setB, State.f_setF_self h x _ hx]
  cases b <;> simp [h2]

theorem State.on_raise_self (h : RegsWf s) (x : Fld) (hx : x.lo + x.w ≤ 32) (hw : x.w ≠ 0) : (s.raise x).on x = true :=
  State.on_setB_self h x true hx hw

theorem State.on_setF_ne (s : State) {x y : Fld} (v : Nat) (h : y.addr ≠ x.addr) : (s.setF x v).on y = s.on y := by
  simp [State.on, State.f_setF_ne s v h]

end Machine
end Sys2Proof
end

