-- ==== Sys2Proof/Laws/Flags.lean ====
section
/-!
SUPPORT. Laws of events, counters and interrupts: which registers and which parts of the state they touch.
-/
namespace Sys2Proof.Machine
open Sys2Proof

variable {s t u : State}

theorem OnlyRegs.refl (l : List Nat) (s : State) : OnlyRegs l s s := fun _ _ => rfl
theorem OnlyRegs.trans {l : List Nat} (h : OnlyRegs l s t) (k : OnlyRegs l t u) : OnlyRegs l s u :=
  fun a ha => (k a ha).trans (h a ha)
theorem OnlyRegs.mono {l k : List Nat} (h : OnlyRegs l s t) (hk : ∀ a ∈ l, a ∈ k) : OnlyRegs k s t :=
  fun a ha => h a (fun m => ha (hk a m))
theorem OnlyRegs.wr {l : List Nat} (s : State) {a : Nat} (v : W32) (h : a ∈ l) : OnlyRegs l s (s.wr a v) :=
  fun _ hb => State.rd_wr_ne s v (fun e => hb (e ▸ h))
theorem OnlyRegs.wn {l : List Nat} (s : State) {a : Nat} (v : Nat) (h : a ∈ l) : OnlyRegs l s (s.wn a v) := OnlyRegs.wr s _ h
theorem OnlyRegs.setF {l : List Nat} (s : State) {x : Fld} (v : Nat) (h : x.addr ∈ l) : OnlyRegs l s (s.setF x v) :=
  OnlyRegs.wr s _ h
theorem OnlyRegs.of_eq {l : List Nat} (hv : t.dev.variant = s.dev.variant) (hr : t.regs = s.regs) : OnlyRegs l s t := by
  intro a _
  simp [State.rd, hv, hr]

theorem LogFrame.refl (s : State) : LogFrame s s := rfl
theorem LogFrame.trans (h : LogFrame s t) (k : LogFrame t u) : LogFrame s u := by
  unfold LogFrame at *
  rw [k, h]
theorem LogFrame.wr (s : State) (a : Nat) (v : W32) : LogFrame s (s.wr a v) := rfl
theorem LogFrame.setF (s : State) (x : Fld) (v : Nat) : LogFrame s (s.setF x v) := rfl
theorem LogFrame.emit (s : State) (o : Out) : LogFrame s (s.emit o) := rfl
theorem LogFrame.parts (h : LogFrame s t) :
    t.mem = s.mem ∧ t.host = s.host ∧ t.bar2 = s.bar2 ∧ t.dev = s.dev ∧ t.cmd = s.cmd ∧ t.pending = s.pending := by
  unfold LogFrame at h
  rw [h]
  exact ⟨rfl, rfl, rfl, rfl, rfl, rfl⟩

/-- Both frames at once, for a register list. -/
structure Logs (l : List Nat) (s t : State) : Prop where
  frame : LogFrame s t
  regs : OnlyRegs l s t

theorem Logs.refl (l : List Nat) (s : State) : Logs l s s := ⟨rfl, .refl l s⟩
theorem Logs.trans {l : List Nat} (h : Logs l s t) (k : Logs l t u) : Logs l s u := ⟨h.frame.trans k.frame, h.regs.trans k.regs⟩
theorem Logs.mono {l k : List Nat} (h : Logs l s t) (hk : ∀ a ∈ l, a ∈ k) : Logs k s t := ⟨h.frame, h.regs.mono hk⟩
theorem Logs.wr {l : List Nat} (s : State) {a : Nat} (v : W32) (h : a ∈ l) : Logs l s (s.wr a v) := ⟨rfl, .wr s v h⟩
theorem Logs.wn {l : List Nat} (s : State) {a : Nat} (v : Nat) (h : a ∈ l) : Logs l s (s.wn a v) := ⟨rfl, .wn s v h⟩
theorem Logs.setF {l : List Nat} (s : State) {x : Fld} (v : Nat) (h : x.addr ∈ l) : Logs l s (s.setF x v) := ⟨rfl, .setF s v h⟩
theorem Logs.setB {l : List Nat} (s : State) {x : Fld} (b : Bool) (h : x.addr ∈ l) : Logs l s (s.setB x b) := .setF s _ h
theorem Logs.raise {l : List Nat} (s : State) {x : Fld} (h : x.addr ∈ l) : Logs l s (s.raise x) := .setF s _ h
theorem Logs.setBit {l : List Nat} (s : State) {x : Fld} (i : Nat) (b : Bool) (h : x.addr ∈ l) : Logs l s (s.setBit x i b) := .setF s _ h
theorem Logs.ite {l : List Nat} {c : Prop} {_ : Decidable c} (h : Logs l s t) (k : Logs l s u) : Logs l s (if c then t else u) := by
  split <;> assumption
theorem Logs.foldl {β : Type} {l : List Nat} (g : State → β → State) (xs : List β) (hg : ∀ s x, Logs l s (g s x))
    (s : State) : Logs l s (xs.foldl g s) := by
  induction xs generalizing s with
  | nil => exact .refl l s
  | cons x r ih => exact (hg s x).trans (ih (g s x))
theorem Logs.evt (l : List Nat) (s : State) (e : EvtSt) : Logs l s { s with evt := e } := ⟨rfl, .of_eq rfl rfl⟩
theorem Logs.cxl (l : List Nat) (s : State) (c : CxlSt) : Logs l s { s with cxl := c } := ⟨rfl, .of_eq rfl rfl⟩
theorem Logs.emit (l : List Nat) (s : State) (o : Out) : Logs l s (s.emit o) := ⟨rfl, .of_eq rfl rfl⟩

theorem State.vector_logs (l : List Nat) (s : State) (v : Nat) : Logs l s (s.vector v) := by
  unfold State.vector
  exact .ite (.cxl l s _) (.emit l s _)

theorem State.pend_logs {l : List Nat} (s : State) {x : Fld} (i : Nat) (e : Bool) (v : Nat) (h : x.addr ∈ l) :
    Logs l s (s.pend x i e v) := by
  unfold State.pend
  exact .ite ((Logs.setBit s i true h).trans (State.vector_logs l _ v)) (.setBit s i true h)

theorem State.pendIf_logs {l : List Nat} (s : State) {x : Fld} (i : Nat) (e : Bool) (v : Nat) (h : x.addr ∈ l) :
    Logs l s (s.pendIf x i e v) := by
  unfold State.pendIf
  exact .ite (State.pend_logs s i true v h) (.refl l s)

theorem State.aer_logs (l : List Nat) (s : State) (e : Aer) : Logs l s (s.aer e) := (Logs.cxl l s _).trans (.emit l _ _)

theorem State.bumpStat_logs {l : List Nat} (s : State) {a : Nat} (n : Nat) (h : a ∈ l) : Logs l s (s.bumpStat a n) := by
  unfold State.bumpStat
  exact .ite (.wn s _ h) (.wn s _ h)

theorem State.highWater_logs {l : List Nat} (s : State) {a : Nat} (v : Nat) (h : a ∈ l) : Logs l s (s.highWater a v) := by
  unfold State.highWater
  exact .ite (.wn s _ h) (.refl l s)

theorem State.evtVectors_logs (s : State) (code sev : Nat) : Logs evtRegs s (s.evtVectors code sev) := by
  have h : EVT_IRQ_PEND ∈ evtRegs := by decide
  have dev : Logs evtRegs s (s.evtDev code sev) := by
    unfold State.evtDev
    exact .ite (State.pend_logs s 0 true 0 (x := EVT_IRQ_PEND__DEV) h) (.refl _ s)
  unfold State.evtVectors
  exact dev.trans (.foldl _ _ (fun s n => .ite (State.pend_logs s n true (50 + n) (x := EVT_IRQ_PEND__VSEL) h) (.refl _ s)) _)

theorem State.dropOldest_logs (s : State) (full : Bool) : Logs evtRegs s (s.dropOldest full) := by
  unfold State.dropOldest
  split
  · exact .ite (State.bumpStat_logs s 1 (by decide)) (.refl _ s)
  · exact .refl _ s

theorem State.errEntry_logs (s : State) (e : EvtEntry) : Logs evtRegs s (s.errEntry e) := by
  unfold State.errEntry
  exact .ite (.evt _ s _) (State.bumpStat_logs s 1 (by decide))

theorem State.logEntry_logs (s : State) (e : EvtEntry) : Logs evtRegs s (s.logEntry e) := by
  unfold State.logEntry
  have tail : Logs evtRegs s (s.wr EVT_TAIL_SEQ (s.rd EVT_TAIL_SEQ + 1)) := .wr s _ (by decide)
  refine .ite (Logs.trans ?_ (State.errEntry_logs _ _)) ?_ <;>
    exact (tail.trans (State.dropOldest_logs _ _)).trans (.evt _ _ _)

theorem State.log_logs (s : State) (b : Blk) (code target a0 a1 a2 : Nat) : Logs evtRegs s (s.log b code target a0 a1 a2) := by
  unfold State.log
  refine Logs.trans ?_ (State.evtVectors_logs _ _ _)
  refine (Logs.evt evtRegs s _).trans (.ite (.ite (.evt _ _ _) (State.bumpStat_logs _ 1 (by decide))) (State.logEntry_logs _ _))

theorem State.bumpEvt_logs {l : List Nat} (s : State) (b : Blk) {a : Nat} (n : Nat) (h : a ∈ l) (hl : ∀ r ∈ evtRegs, r ∈ l) :
    Logs l s (s.bumpEvt b a n) := by
  unfold State.bumpEvt
  exact .ite (.wn s _ h) ((Logs.wn s _ h).trans ((State.log_logs _ b evWrap 0xFFFF a 0 0).mono hl))

/-- The registers keep the form of their file through events and interrupts. -/
theorem Logs.rd {l : List Nat} (h : Logs l s t) {a : Nat} (ha : a ∉ l) : t.rd a = s.rd a := h.regs a ha

end Sys2Proof.Machine
end

