-- ==== Sys2Proof/Laws/State.lean ====
section
/-!
SUPPORT. One law per field per named update of the state: the fields an update leaves alone, and the field it sets.
-/
namespace Sys2Proof.Machine
open Sys2Proof

variable (s : State)

/-! ### State.wr -/

@[simp] theorem State.wr_latch (a : Nat) (v : W32) : (s.wr a v).latch = s.latch := rfl
@[simp] theorem State.wr_mem (a : Nat) (v : W32) : (s.wr a v).mem = s.mem := rfl
@[simp] theorem State.wr_host (a : Nat) (v : W32) : (s.wr a v).host = s.host := rfl
@[simp] theorem State.wr_bar2 (a : Nat) (v : W32) : (s.wr a v).bar2 = s.bar2 := rfl
@[simp] theorem State.wr_dev (a : Nat) (v : W32) : (s.wr a v).dev = s.dev := rfl
@[simp] theorem State.wr_cmd (a : Nat) (v : W32) : (s.wr a v).cmd = s.cmd := rfl
@[simp] theorem State.wr_evt (a : Nat) (v : W32) : (s.wr a v).evt = s.evt := rfl
@[simp] theorem State.wr_cxl (a : Nat) (v : W32) : (s.wr a v).cxl = s.cxl := rfl
@[simp] theorem State.wr_mbx (a : Nat) (v : W32) : (s.wr a v).mbx = s.mbx := rfl
@[simp] theorem State.wr_dlt (a : Nat) (v : W32) : (s.wr a v).dlt = s.dlt := rfl
@[simp] theorem State.wr_lane (a : Nat) (v : W32) : (s.wr a v).lane = s.lane := rfl
@[simp] theorem State.wr_port (a : Nat) (v : W32) : (s.wr a v).port = s.port := rfl
@[simp] theorem State.wr_raw (a : Nat) (v : W32) : (s.wr a v).raw = s.raw := rfl
@[simp] theorem State.wr_ctx (a : Nat) (v : W32) : (s.wr a v).ctx = s.ctx := rfl
@[simp] theorem State.wr_ladle (a : Nat) (v : W32) : (s.wr a v).ladle = s.ladle := rfl
@[simp] theorem State.wr_tap (a : Nat) (v : W32) : (s.wr a v).tap = s.tap := rfl
@[simp] theorem State.wr_vlt (a : Nat) (v : W32) : (s.wr a v).vlt = s.vlt := rfl
@[simp] theorem State.wr_vq (a : Nat) (v : W32) : (s.wr a v).vq = s.vq := rfl
@[simp] theorem State.wr_dfl (a : Nat) (v : W32) : (s.wr a v).dfl = s.dfl := rfl
@[simp] theorem State.wr_dmc (a : Nat) (v : W32) : (s.wr a v).dmc = s.dmc := rfl
@[simp] theorem State.wr_flash (a : Nat) (v : W32) : (s.wr a v).flash = s.flash := rfl
@[simp] theorem State.wr_pwr (a : Nat) (v : W32) : (s.wr a v).pwr = s.pwr := rfl
@[simp] theorem State.wr_cdc (a : Nat) (v : W32) : (s.wr a v).cdc = s.cdc := rfl
@[simp] theorem State.wr_cmp (a : Nat) (v : W32) : (s.wr a v).cmp = s.cmp := rfl
@[simp] theorem State.wr_dsp (a : Nat) (v : W32) : (s.wr a v).dsp = s.dsp := rfl
@[simp] theorem State.wr_aud (a : Nat) (v : W32) : (s.wr a v).aud = s.aud := rfl
@[simp] theorem State.wr_tim (a : Nat) (v : W32) : (s.wr a v).tim = s.tim := rfl
@[simp] theorem State.wr_tst (a : Nat) (v : W32) : (s.wr a v).tst = s.tst := rfl
@[simp] theorem State.wr_net (a : Nat) (v : W32) : (s.wr a v).net = s.net := rfl
@[simp] theorem State.wr_out (a : Nat) (v : W32) : (s.wr a v).out = s.out := rfl
@[simp] theorem State.wr_freeCtr (a : Nat) (v : W32) : (s.wr a v).freeCtr = s.freeCtr := rfl
@[simp] theorem State.wr_pending (a : Nat) (v : W32) : (s.wr a v).pending = s.pending := rfl
@[simp] theorem State.wr_regs (a : Nat) (v : W32) : (s.wr a v).regs = storeSet (regReset s.dev.variant) s.regs a v := rfl

/-! ### State.wn -/

@[simp] theorem State.wn_latch (a v : Nat) : (s.wn a v).latch = s.latch := rfl
@[simp] theorem State.wn_mem (a v : Nat) : (s.wn a v).mem = s.mem := rfl
@[simp] theorem State.wn_host (a v : Nat) : (s.wn a v).host = s.host := rfl
@[simp] theorem State.wn_bar2 (a v : Nat) : (s.wn a v).bar2 = s.bar2 := rfl
@[simp] theorem State.wn_dev (a v : Nat) : (s.wn a v).dev = s.dev := rfl
@[simp] theorem State.wn_cmd (a v : Nat) : (s.wn a v).cmd = s.cmd := rfl
@[simp] theorem State.wn_evt (a v : Nat) : (s.wn a v).evt = s.evt := rfl
@[simp] theorem State.wn_cxl (a v : Nat) : (s.wn a v).cxl = s.cxl := rfl
@[simp] theorem State.wn_mbx (a v : Nat) : (s.wn a v).mbx = s.mbx := rfl
@[simp] theorem State.wn_dlt (a v : Nat) : (s.wn a v).dlt = s.dlt := rfl
@[simp] theorem State.wn_lane (a v : Nat) : (s.wn a v).lane = s.lane := rfl
@[simp] theorem State.wn_port (a v : Nat) : (s.wn a v).port = s.port := rfl
@[simp] theorem State.wn_raw (a v : Nat) : (s.wn a v).raw = s.raw := rfl
@[simp] theorem State.wn_ctx (a v : Nat) : (s.wn a v).ctx = s.ctx := rfl
@[simp] theorem State.wn_ladle (a v : Nat) : (s.wn a v).ladle = s.ladle := rfl
@[simp] theorem State.wn_tap (a v : Nat) : (s.wn a v).tap = s.tap := rfl
@[simp] theorem State.wn_vlt (a v : Nat) : (s.wn a v).vlt = s.vlt := rfl
@[simp] theorem State.wn_vq (a v : Nat) : (s.wn a v).vq = s.vq := rfl
@[simp] theorem State.wn_dfl (a v : Nat) : (s.wn a v).dfl = s.dfl := rfl
@[simp] theorem State.wn_dmc (a v : Nat) : (s.wn a v).dmc = s.dmc := rfl
@[simp] theorem State.wn_flash (a v : Nat) : (s.wn a v).flash = s.flash := rfl
@[simp] theorem State.wn_pwr (a v : Nat) : (s.wn a v).pwr = s.pwr := rfl
@[simp] theorem State.wn_cdc (a v : Nat) : (s.wn a v).cdc = s.cdc := rfl
@[simp] theorem State.wn_cmp (a v : Nat) : (s.wn a v).cmp = s.cmp := rfl
@[simp] theorem State.wn_dsp (a v : Nat) : (s.wn a v).dsp = s.dsp := rfl
@[simp] theorem State.wn_aud (a v : Nat) : (s.wn a v).aud = s.aud := rfl
@[simp] theorem State.wn_tim (a v : Nat) : (s.wn a v).tim = s.tim := rfl
@[simp] theorem State.wn_tst (a v : Nat) : (s.wn a v).tst = s.tst := rfl
@[simp] theorem State.wn_net (a v : Nat) : (s.wn a v).net = s.net := rfl
@[simp] theorem State.wn_out (a v : Nat) : (s.wn a v).out = s.out := rfl
@[simp] theorem State.wn_freeCtr (a v : Nat) : (s.wn a v).freeCtr = s.freeCtr := rfl
@[simp] theorem State.wn_pending (a v : Nat) : (s.wn a v).pending = s.pending := rfl

/-! ### State.setF -/

@[simp] theorem State.setF_latch (x : Fld) (v : Nat) : (s.setF x v).latch = s.latch := rfl
@[simp] theorem State.setF_mem (x : Fld) (v : Nat) : (s.setF x v).mem = s.mem := rfl
@[simp] theorem State.setF_host (x : Fld) (v : Nat) : (s.setF x v).host = s.host := rfl
@[simp] theorem State.setF_bar2 (x : Fld) (v : Nat) : (s.setF x v).bar2 = s.bar2 := rfl
@[simp] theorem State.setF_dev (x : Fld) (v : Nat) : (s.setF x v).dev = s.dev := rfl
@[simp] theorem State.setF_cmd (x : Fld) (v : Nat) : (s.setF x v).cmd = s.cmd := rfl
@[simp] theorem State.setF_evt (x : Fld) (v : Nat) : (s.setF x v).evt = s.evt := rfl
@[simp] theorem State.setF_cxl (x : Fld) (v : Nat) : (s.setF x v).cxl = s.cxl := rfl
@[simp] theorem State.setF_mbx (x : Fld) (v : Nat) : (s.setF x v).mbx = s.mbx := rfl
@[simp] theorem State.setF_dlt (x : Fld) (v : Nat) : (s.setF x v).dlt = s.dlt := rfl
@[simp] theorem State.setF_lane (x : Fld) (v : Nat) : (s.setF x v).lane = s.lane := rfl
@[simp] theorem State.setF_port (x : Fld) (v : Nat) : (s.setF x v).port = s.port := rfl
@[simp] theorem State.setF_raw (x : Fld) (v : Nat) : (s.setF x v).raw = s.raw := rfl
@[simp] theorem State.setF_ctx (x : Fld) (v : Nat) : (s.setF x v).ctx = s.ctx := rfl
@[simp] theorem State.setF_ladle (x : Fld) (v : Nat) : (s.setF x v).ladle = s.ladle := rfl
@[simp] theorem State.setF_tap (x : Fld) (v : Nat) : (s.setF x v).tap = s.tap := rfl
@[simp] theorem State.setF_vlt (x : Fld) (v : Nat) : (s.setF x v).vlt = s.vlt := rfl
@[simp] theorem State.setF_vq (x : Fld) (v : Nat) : (s.setF x v).vq = s.vq := rfl
@[simp] theorem State.setF_dfl (x : Fld) (v : Nat) : (s.setF x v).dfl = s.dfl := rfl
@[simp] theorem State.setF_dmc (x : Fld) (v : Nat) : (s.setF x v).dmc = s.dmc := rfl
@[simp] theorem State.setF_flash (x : Fld) (v : Nat) : (s.setF x v).flash = s.flash := rfl
@[simp] theorem State.setF_pwr (x : Fld) (v : Nat) : (s.setF x v).pwr = s.pwr := rfl
@[simp] theorem State.setF_cdc (x : Fld) (v : Nat) : (s.setF x v).cdc = s.cdc := rfl
@[simp] theorem State.setF_cmp (x : Fld) (v : Nat) : (s.setF x v).cmp = s.cmp := rfl
@[simp] theorem State.setF_dsp (x : Fld) (v : Nat) : (s.setF x v).dsp = s.dsp := rfl
@[simp] theorem State.setF_aud (x : Fld) (v : Nat) : (s.setF x v).aud = s.aud := rfl
@[simp] theorem State.setF_tim (x : Fld) (v : Nat) : (s.setF x v).tim = s.tim := rfl
@[simp] theorem State.setF_tst (x : Fld) (v : Nat) : (s.setF x v).tst = s.tst := rfl
@[simp] theorem State.setF_net (x : Fld) (v : Nat) : (s.setF x v).net = s.net := rfl
@[simp] theorem State.setF_out (x : Fld) (v : Nat) : (s.setF x v).out = s.out := rfl
@[simp] theorem State.setF_freeCtr (x : Fld) (v : Nat) : (s.setF x v).freeCtr = s.freeCtr := rfl
@[simp] theorem State.setF_pending (x : Fld) (v : Nat) : (s.setF x v).pending = s.pending := rfl

/-! ### State.setB -/

@[simp] theorem State.setB_latch (x : Fld) (v : Bool) : (s.setB x v).latch = s.latch := rfl
@[simp] theorem State.setB_mem (x : Fld) (v : Bool) : (s.setB x v).mem = s.mem := rfl
@[simp] theorem State.setB_host (x : Fld) (v : Bool) : (s.setB x v).host = s.host := rfl
@[simp] theorem State.setB_bar2 (x : Fld) (v : Bool) : (s.setB x v).bar2 = s.bar2 := rfl
@[simp] theorem State.setB_dev (x : Fld) (v : Bool) : (s.setB x v).dev = s.dev := rfl
@[simp] theorem State.setB_cmd (x : Fld) (v : Bool) : (s.setB x v).cmd = s.cmd := rfl
@[simp] theorem State.setB_evt (x : Fld) (v : Bool) : (s.setB x v).evt = s.evt := rfl
@[simp] theorem State.setB_cxl (x : Fld) (v : Bool) : (s.setB x v).cxl = s.cxl := rfl
@[simp] theorem State.setB_mbx (x : Fld) (v : Bool) : (s.setB x v).mbx = s.mbx := rfl
@[simp] theorem State.setB_dlt (x : Fld) (v : Bool) : (s.setB x v).dlt = s.dlt := rfl
@[simp] theorem State.setB_lane (x : Fld) (v : Bool) : (s.setB x v).lane = s.lane := rfl
@[simp] theorem State.setB_port (x : Fld) (v : Bool) : (s.setB x v).port = s.port := rfl
@[simp] theorem State.setB_raw (x : Fld) (v : Bool) : (s.setB x v).raw = s.raw := rfl
@[simp] theorem State.setB_ctx (x : Fld) (v : Bool) : (s.setB x v).ctx = s.ctx := rfl
@[simp] theorem State.setB_ladle (x : Fld) (v : Bool) : (s.setB x v).ladle = s.ladle := rfl
@[simp] theorem State.setB_tap (x : Fld) (v : Bool) : (s.setB x v).tap = s.tap := rfl
@[simp] theorem State.setB_vlt (x : Fld) (v : Bool) : (s.setB x v).vlt = s.vlt := rfl
@[simp] theorem State.setB_vq (x : Fld) (v : Bool) : (s.setB x v).vq = s.vq := rfl
@[simp] theorem State.setB_dfl (x : Fld) (v : Bool) : (s.setB x v).dfl = s.dfl := rfl
@[simp] theorem State.setB_dmc (x : Fld) (v : Bool) : (s.setB x v).dmc = s.dmc := rfl
@[simp] theorem State.setB_flash (x : Fld) (v : Bool) : (s.setB x v).flash = s.flash := rfl
@[simp] theorem State.setB_pwr (x : Fld) (v : Bool) : (s.setB x v).pwr = s.pwr := rfl
@[simp] theorem State.setB_cdc (x : Fld) (v : Bool) : (s.setB x v).cdc = s.cdc := rfl
@[simp] theorem State.setB_cmp (x : Fld) (v : Bool) : (s.setB x v).cmp = s.cmp := rfl
@[simp] theorem State.setB_dsp (x : Fld) (v : Bool) : (s.setB x v).dsp = s.dsp := rfl
@[simp] theorem State.setB_aud (x : Fld) (v : Bool) : (s.setB x v).aud = s.aud := rfl
@[simp] theorem State.setB_tim (x : Fld) (v : Bool) : (s.setB x v).tim = s.tim := rfl
@[simp] theorem State.setB_tst (x : Fld) (v : Bool) : (s.setB x v).tst = s.tst := rfl
@[simp] theorem State.setB_net (x : Fld) (v : Bool) : (s.setB x v).net = s.net := rfl
@[simp] theorem State.setB_out (x : Fld) (v : Bool) : (s.setB x v).out = s.out := rfl
@[simp] theorem State.setB_freeCtr (x : Fld) (v : Bool) : (s.setB x v).freeCtr = s.freeCtr := rfl
@[simp] theorem State.setB_pending (x : Fld) (v : Bool) : (s.setB x v).pending = s.pending := rfl

/-! ### State.raise -/

@[simp] theorem State.raise_latch (x : Fld) : (s.raise x).latch = s.latch := rfl
@[simp] theorem State.raise_mem (x : Fld) : (s.raise x).mem = s.mem := rfl
@[simp] theorem State.raise_host (x : Fld) : (s.raise x).host = s.host := rfl
@[simp] theorem State.raise_bar2 (x : Fld) : (s.raise x).bar2 = s.bar2 := rfl
@[simp] theorem State.raise_dev (x : Fld) : (s.raise x).dev = s.dev := rfl
@[simp] theorem State.raise_cmd (x : Fld) : (s.raise x).cmd = s.cmd := rfl
@[simp] theorem State.raise_evt (x : Fld) : (s.raise x).evt = s.evt := rfl
@[simp] theorem State.raise_cxl (x : Fld) : (s.raise x).cxl = s.cxl := rfl
@[simp] theorem State.raise_mbx (x : Fld) : (s.raise x).mbx = s.mbx := rfl
@[simp] theorem State.raise_dlt (x : Fld) : (s.raise x).dlt = s.dlt := rfl
@[simp] theorem State.raise_lane (x : Fld) : (s.raise x).lane = s.lane := rfl
@[simp] theorem State.raise_port (x : Fld) : (s.raise x).port = s.port := rfl
@[simp] theorem State.raise_raw (x : Fld) : (s.raise x).raw = s.raw := rfl
@[simp] theorem State.raise_ctx (x : Fld) : (s.raise x).ctx = s.ctx := rfl
@[simp] theorem State.raise_ladle (x : Fld) : (s.raise x).ladle = s.ladle := rfl
@[simp] theorem State.raise_tap (x : Fld) : (s.raise x).tap = s.tap := rfl
@[simp] theorem State.raise_vlt (x : Fld) : (s.raise x).vlt = s.vlt := rfl
@[simp] theorem State.raise_vq (x : Fld) : (s.raise x).vq = s.vq := rfl
@[simp] theorem State.raise_dfl (x : Fld) : (s.raise x).dfl = s.dfl := rfl
@[simp] theorem State.raise_dmc (x : Fld) : (s.raise x).dmc = s.dmc := rfl
@[simp] theorem State.raise_flash (x : Fld) : (s.raise x).flash = s.flash := rfl
@[simp] theorem State.raise_pwr (x : Fld) : (s.raise x).pwr = s.pwr := rfl
@[simp] theorem State.raise_cdc (x : Fld) : (s.raise x).cdc = s.cdc := rfl
@[simp] theorem State.raise_cmp (x : Fld) : (s.raise x).cmp = s.cmp := rfl
@[simp] theorem State.raise_dsp (x : Fld) : (s.raise x).dsp = s.dsp := rfl
@[simp] theorem State.raise_aud (x : Fld) : (s.raise x).aud = s.aud := rfl
@[simp] theorem State.raise_tim (x : Fld) : (s.raise x).tim = s.tim := rfl
@[simp] theorem State.raise_tst (x : Fld) : (s.raise x).tst = s.tst := rfl
@[simp] theorem State.raise_net (x : Fld) : (s.raise x).net = s.net := rfl
@[simp] theorem State.raise_out (x : Fld) : (s.raise x).out = s.out := rfl
@[simp] theorem State.raise_freeCtr (x : Fld) : (s.raise x).freeCtr = s.freeCtr := rfl
@[simp] theorem State.raise_pending (x : Fld) : (s.raise x).pending = s.pending := rfl

/-! ### State.setBit -/

@[simp] theorem State.setBit_latch (x : Fld) (i : Nat) (v : Bool) : (s.setBit x i v).latch = s.latch := rfl
@[simp] theorem State.setBit_mem (x : Fld) (i : Nat) (v : Bool) : (s.setBit x i v).mem = s.mem := rfl
@[simp] theorem State.setBit_host (x : Fld) (i : Nat) (v : Bool) : (s.setBit x i v).host = s.host := rfl
@[simp] theorem State.setBit_bar2 (x : Fld) (i : Nat) (v : Bool) : (s.setBit x i v).bar2 = s.bar2 := rfl
@[simp] theorem State.setBit_dev (x : Fld) (i : Nat) (v : Bool) : (s.setBit x i v).dev = s.dev := rfl
@[simp] theorem State.setBit_cmd (x : Fld) (i : Nat) (v : Bool) : (s.setBit x i v).cmd = s.cmd := rfl
@[simp] theorem State.setBit_evt (x : Fld) (i : Nat) (v : Bool) : (s.setBit x i v).evt = s.evt := rfl
@[simp] theorem State.setBit_cxl (x : Fld) (i : Nat) (v : Bool) : (s.setBit x i v).cxl = s.cxl := rfl
@[simp] theorem State.setBit_mbx (x : Fld) (i : Nat) (v : Bool) : (s.setBit x i v).mbx = s.mbx := rfl
@[simp] theorem State.setBit_dlt (x : Fld) (i : Nat) (v : Bool) : (s.setBit x i v).dlt = s.dlt := rfl
@[simp] theorem State.setBit_lane (x : Fld) (i : Nat) (v : Bool) : (s.setBit x i v).lane = s.lane := rfl
@[simp] theorem State.setBit_port (x : Fld) (i : Nat) (v : Bool) : (s.setBit x i v).port = s.port := rfl
@[simp] theorem State.setBit_raw (x : Fld) (i : Nat) (v : Bool) : (s.setBit x i v).raw = s.raw := rfl
@[simp] theorem State.setBit_ctx (x : Fld) (i : Nat) (v : Bool) : (s.setBit x i v).ctx = s.ctx := rfl
@[simp] theorem State.setBit_ladle (x : Fld) (i : Nat) (v : Bool) : (s.setBit x i v).ladle = s.ladle := rfl
@[simp] theorem State.setBit_tap (x : Fld) (i : Nat) (v : Bool) : (s.setBit x i v).tap = s.tap := rfl
@[simp] theorem State.setBit_vlt (x : Fld) (i : Nat) (v : Bool) : (s.setBit x i v).vlt = s.vlt := rfl
@[simp] theorem State.setBit_vq (x : Fld) (i : Nat) (v : Bool) : (s.setBit x i v).vq = s.vq := rfl
@[simp] theorem State.setBit_dfl (x : Fld) (i : Nat) (v : Bool) : (s.setBit x i v).dfl = s.dfl := rfl
@[simp] theorem State.setBit_dmc (x : Fld) (i : Nat) (v : Bool) : (s.setBit x i v).dmc = s.dmc := rfl
@[simp] theorem State.setBit_flash (x : Fld) (i : Nat) (v : Bool) : (s.setBit x i v).flash = s.flash := rfl
@[simp] theorem State.setBit_pwr (x : Fld) (i : Nat) (v : Bool) : (s.setBit x i v).pwr = s.pwr := rfl
@[simp] theorem State.setBit_cdc (x : Fld) (i : Nat) (v : Bool) : (s.setBit x i v).cdc = s.cdc := rfl
@[simp] theorem State.setBit_cmp (x : Fld) (i : Nat) (v : Bool) : (s.setBit x i v).cmp = s.cmp := rfl
@[simp] theorem State.setBit_dsp (x : Fld) (i : Nat) (v : Bool) : (s.setBit x i v).dsp = s.dsp := rfl
@[simp] theorem State.setBit_aud (x : Fld) (i : Nat) (v : Bool) : (s.setBit x i v).aud = s.aud := rfl
@[simp] theorem State.setBit_tim (x : Fld) (i : Nat) (v : Bool) : (s.setBit x i v).tim = s.tim := rfl
@[simp] theorem State.setBit_tst (x : Fld) (i : Nat) (v : Bool) : (s.setBit x i v).tst = s.tst := rfl
@[simp] theorem State.setBit_net (x : Fld) (i : Nat) (v : Bool) : (s.setBit x i v).net = s.net := rfl
@[simp] theorem State.setBit_out (x : Fld) (i : Nat) (v : Bool) : (s.setBit x i v).out = s.out := rfl
@[simp] theorem State.setBit_freeCtr (x : Fld) (i : Nat) (v : Bool) : (s.setBit x i v).freeCtr = s.freeCtr := rfl
@[simp] theorem State.setBit_pending (x : Fld) (i : Nat) (v : Bool) : (s.setBit x i v).pending = s.pending := rfl

/-! ### State.emit -/

@[simp] theorem State.emit_regs (o : Out) : (s.emit o).regs = s.regs := rfl
@[simp] theorem State.emit_latch (o : Out) : (s.emit o).latch = s.latch := rfl
@[simp] theorem State.emit_mem (o : Out) : (s.emit o).mem = s.mem := rfl
@[simp] theorem State.emit_host (o : Out) : (s.emit o).host = s.host := rfl
@[simp] theorem State.emit_bar2 (o : Out) : (s.emit o).bar2 = s.bar2 := rfl
@[simp] theorem State.emit_dev (o : Out) : (s.emit o).dev = s.dev := rfl
@[simp] theorem State.emit_cmd (o : Out) : (s.emit o).cmd = s.cmd := rfl
@[simp] theorem State.emit_evt (o : Out) : (s.emit o).evt = s.evt := rfl
@[simp] theorem State.emit_cxl (o : Out) : (s.emit o).cxl = s.cxl := rfl
@[simp] theorem State.emit_mbx (o : Out) : (s.emit o).mbx = s.mbx := rfl
@[simp] theorem State.emit_dlt (o : Out) : (s.emit o).dlt = s.dlt := rfl
@[simp] theorem State.emit_lane (o : Out) : (s.emit o).lane = s.lane := rfl
@[simp] theorem State.emit_port (o : Out) : (s.emit o).port = s.port := rfl
@[simp] theorem State.emit_raw (o : Out) : (s.emit o).raw = s.raw := rfl
@[simp] theorem State.emit_ctx (o : Out) : (s.emit o).ctx = s.ctx := rfl
@[simp] theorem State.emit_ladle (o : Out) : (s.emit o).ladle = s.ladle := rfl
@[simp] theorem State.emit_tap (o : Out) : (s.emit o).tap = s.tap := rfl
@[simp] theorem State.emit_vlt (o : Out) : (s.emit o).vlt = s.vlt := rfl
@[simp] theorem State.emit_vq (o : Out) : (s.emit o).vq = s.vq := rfl
@[simp] theorem State.emit_dfl (o : Out) : (s.emit o).dfl = s.dfl := rfl
@[simp] theorem State.emit_dmc (o : Out) : (s.emit o).dmc = s.dmc := rfl
@[simp] theorem State.emit_flash (o : Out) : (s.emit o).flash = s.flash := rfl
@[simp] theorem State.emit_pwr (o : Out) : (s.emit o).pwr = s.pwr := rfl
@[simp] theorem State.emit_cdc (o : Out) : (s.emit o).cdc = s.cdc := rfl
@[simp] theorem State.emit_cmp (o : Out) : (s.emit o).cmp = s.cmp := rfl
@[simp] theorem State.emit_dsp (o : Out) : (s.emit o).dsp = s.dsp := rfl
@[simp] theorem State.emit_aud (o : Out) : (s.emit o).aud = s.aud := rfl
@[simp] theorem State.emit_tim (o : Out) : (s.emit o).tim = s.tim := rfl
@[simp] theorem State.emit_tst (o : Out) : (s.emit o).tst = s.tst := rfl
@[simp] theorem State.emit_net (o : Out) : (s.emit o).net = s.net := rfl
@[simp] theorem State.emit_freeCtr (o : Out) : (s.emit o).freeCtr = s.freeCtr := rfl
@[simp] theorem State.emit_pending (o : Out) : (s.emit o).pending = s.pending := rfl
@[simp] theorem State.emit_out (o : Out) : (s.emit o).out = s.out ++ [o] := rfl
@[simp] theorem State.emit_rd (o : Out) (r : Nat) : (s.emit o).rd r = s.rd r := rfl
@[simp] theorem State.emit_rn (o : Out) (r : Nat) : (s.emit o).rn r = s.rn r := rfl
@[simp] theorem State.emit_f (o : Out) (y : Fld) : (s.emit o).f y = s.f y := rfl
@[simp] theorem State.emit_on (o : Out) (y : Fld) : (s.emit o).on y = s.on y := rfl
@[simp] theorem State.emit_bit (o : Out) (y : Fld) (j : Nat) : (s.emit o).bit y j = s.bit y j := rfl

/-! ### State.drawnTo -/

@[simp] theorem State.drawnTo_regs (n : Nat) : (s.drawnTo n).regs = s.regs := rfl
@[simp] theorem State.drawnTo_latch (n : Nat) : (s.drawnTo n).latch = s.latch := rfl
@[simp] theorem State.drawnTo_mem (n : Nat) : (s.drawnTo n).mem = s.mem := rfl
@[simp] theorem State.drawnTo_host (n : Nat) : (s.drawnTo n).host = s.host := rfl
@[simp] theorem State.drawnTo_bar2 (n : Nat) : (s.drawnTo n).bar2 = s.bar2 := rfl
@[simp] theorem State.drawnTo_dev (n : Nat) : (s.drawnTo n).dev = s.dev := rfl
@[simp] theorem State.drawnTo_cmd (n : Nat) : (s.drawnTo n).cmd = s.cmd := rfl
@[simp] theorem State.drawnTo_evt (n : Nat) : (s.drawnTo n).evt = s.evt := rfl
@[simp] theorem State.drawnTo_cxl (n : Nat) : (s.drawnTo n).cxl = s.cxl := rfl
@[simp] theorem State.drawnTo_mbx (n : Nat) : (s.drawnTo n).mbx = s.mbx := rfl
@[simp] theorem State.drawnTo_dlt (n : Nat) : (s.drawnTo n).dlt = s.dlt := rfl
@[simp] theorem State.drawnTo_lane (n : Nat) : (s.drawnTo n).lane = s.lane := rfl
@[simp] theorem State.drawnTo_port (n : Nat) : (s.drawnTo n).port = s.port := rfl
@[simp] theorem State.drawnTo_raw (n : Nat) : (s.drawnTo n).raw = s.raw := rfl
@[simp] theorem State.drawnTo_ctx (n : Nat) : (s.drawnTo n).ctx = s.ctx := rfl
@[simp] theorem State.drawnTo_ladle (n : Nat) : (s.drawnTo n).ladle = s.ladle := rfl
@[simp] theorem State.drawnTo_tap (n : Nat) : (s.drawnTo n).tap = s.tap := rfl
@[simp] theorem State.drawnTo_vlt (n : Nat) : (s.drawnTo n).vlt = s.vlt := rfl
@[simp] theorem State.drawnTo_vq (n : Nat) : (s.drawnTo n).vq = s.vq := rfl
@[simp] theorem State.drawnTo_dfl (n : Nat) : (s.drawnTo n).dfl = s.dfl := rfl
@[simp] theorem State.drawnTo_dmc (n : Nat) : (s.drawnTo n).dmc = s.dmc := rfl
@[simp] theorem State.drawnTo_flash (n : Nat) : (s.drawnTo n).flash = s.flash := rfl
@[simp] theorem State.drawnTo_pwr (n : Nat) : (s.drawnTo n).pwr = s.pwr := rfl
@[simp] theorem State.drawnTo_cdc (n : Nat) : (s.drawnTo n).cdc = s.cdc := rfl
@[simp] theorem State.drawnTo_cmp (n : Nat) : (s.drawnTo n).cmp = s.cmp := rfl
@[simp] theorem State.drawnTo_dsp (n : Nat) : (s.drawnTo n).dsp = s.dsp := rfl
@[simp] theorem State.drawnTo_aud (n : Nat) : (s.drawnTo n).aud = s.aud := rfl
@[simp] theorem State.drawnTo_tim (n : Nat) : (s.drawnTo n).tim = s.tim := rfl
@[simp] theorem State.drawnTo_tst (n : Nat) : (s.drawnTo n).tst = s.tst := rfl
@[simp] theorem State.drawnTo_net (n : Nat) : (s.drawnTo n).net = s.net := rfl
@[simp] theorem State.drawnTo_out (n : Nat) : (s.drawnTo n).out = s.out := rfl
@[simp] theorem State.drawnTo_pending (n : Nat) : (s.drawnTo n).pending = s.pending := rfl
@[simp] theorem State.drawnTo_freeCtr (n : Nat) : (s.drawnTo n).freeCtr = max s.freeCtr n := rfl
@[simp] theorem State.drawnTo_rd (n : Nat) (r : Nat) : (s.drawnTo n).rd r = s.rd r := rfl
@[simp] theorem State.drawnTo_rn (n : Nat) (r : Nat) : (s.drawnTo n).rn r = s.rn r := rfl
@[simp] theorem State.drawnTo_f (n : Nat) (y : Fld) : (s.drawnTo n).f y = s.f y := rfl
@[simp] theorem State.drawnTo_on (n : Nat) (y : Fld) : (s.drawnTo n).on y = s.on y := rfl
@[simp] theorem State.drawnTo_bit (n : Nat) (y : Fld) (j : Nat) : (s.drawnTo n).bit y j = s.bit y j := rfl

/-! ### State.setMemB -/

@[simp] theorem State.setMemB_regs (a : Nat) (b : Byte) : (s.setMemB a b).regs = s.regs := rfl
@[simp] theorem State.setMemB_latch (a : Nat) (b : Byte) : (s.setMemB a b).latch = s.latch := rfl
@[simp] theorem State.setMemB_host (a : Nat) (b : Byte) : (s.setMemB a b).host = s.host := rfl
@[simp] theorem State.setMemB_bar2 (a : Nat) (b : Byte) : (s.setMemB a b).bar2 = s.bar2 := rfl
@[simp] theorem State.setMemB_dev (a : Nat) (b : Byte) : (s.setMemB a b).dev = s.dev := rfl
@[simp] theorem State.setMemB_cmd (a : Nat) (b : Byte) : (s.setMemB a b).cmd = s.cmd := rfl
@[simp] theorem State.setMemB_evt (a : Nat) (b : Byte) : (s.setMemB a b).evt = s.evt := rfl
@[simp] theorem State.setMemB_cxl (a : Nat) (b : Byte) : (s.setMemB a b).cxl = s.cxl := rfl
@[simp] theorem State.setMemB_mbx (a : Nat) (b : Byte) : (s.setMemB a b).mbx = s.mbx := rfl
@[simp] theorem State.setMemB_dlt (a : Nat) (b : Byte) : (s.setMemB a b).dlt = s.dlt := rfl
@[simp] theorem State.setMemB_lane (a : Nat) (b : Byte) : (s.setMemB a b).lane = s.lane := rfl
@[simp] theorem State.setMemB_port (a : Nat) (b : Byte) : (s.setMemB a b).port = s.port := rfl
@[simp] theorem State.setMemB_raw (a : Nat) (b : Byte) : (s.setMemB a b).raw = s.raw := rfl
@[simp] theorem State.setMemB_ctx (a : Nat) (b : Byte) : (s.setMemB a b).ctx = s.ctx := rfl
@[simp] theorem State.setMemB_ladle (a : Nat) (b : Byte) : (s.setMemB a b).ladle = s.ladle := rfl
@[simp] theorem State.setMemB_tap (a : Nat) (b : Byte) : (s.setMemB a b).tap = s.tap := rfl
@[simp] theorem State.setMemB_vlt (a : Nat) (b : Byte) : (s.setMemB a b).vlt = s.vlt := rfl
@[simp] theorem State.setMemB_vq (a : Nat) (b : Byte) : (s.setMemB a b).vq = s.vq := rfl
@[simp] theorem State.setMemB_dfl (a : Nat) (b : Byte) : (s.setMemB a b).dfl = s.dfl := rfl
@[simp] theorem State.setMemB_dmc (a : Nat) (b : Byte) : (s.setMemB a b).dmc = s.dmc := rfl
@[simp] theorem State.setMemB_flash (a : Nat) (b : Byte) : (s.setMemB a b).flash = s.flash := rfl
@[simp] theorem State.setMemB_pwr (a : Nat) (b : Byte) : (s.setMemB a b).pwr = s.pwr := rfl
@[simp] theorem State.setMemB_cdc (a : Nat) (b : Byte) : (s.setMemB a b).cdc = s.cdc := rfl
@[simp] theorem State.setMemB_cmp (a : Nat) (b : Byte) : (s.setMemB a b).cmp = s.cmp := rfl
@[simp] theorem State.setMemB_dsp (a : Nat) (b : Byte) : (s.setMemB a b).dsp = s.dsp := rfl
@[simp] theorem State.setMemB_aud (a : Nat) (b : Byte) : (s.setMemB a b).aud = s.aud := rfl
@[simp] theorem State.setMemB_tim (a : Nat) (b : Byte) : (s.setMemB a b).tim = s.tim := rfl
@[simp] theorem State.setMemB_tst (a : Nat) (b : Byte) : (s.setMemB a b).tst = s.tst := rfl
@[simp] theorem State.setMemB_net (a : Nat) (b : Byte) : (s.setMemB a b).net = s.net := rfl
@[simp] theorem State.setMemB_out (a : Nat) (b : Byte) : (s.setMemB a b).out = s.out := rfl
@[simp] theorem State.setMemB_freeCtr (a : Nat) (b : Byte) : (s.setMemB a b).freeCtr = s.freeCtr := rfl
@[simp] theorem State.setMemB_pending (a : Nat) (b : Byte) : (s.setMemB a b).pending = s.pending := rfl
@[simp] theorem State.setMemB_mem (a : Nat) (b : Byte) : (s.setMemB a b).mem = storeSet memDefault s.mem a b := rfl
@[simp] theorem State.setMemB_rd (a : Nat) (b : Byte) (r : Nat) : (s.setMemB a b).rd r = s.rd r := rfl
@[simp] theorem State.setMemB_rn (a : Nat) (b : Byte) (r : Nat) : (s.setMemB a b).rn r = s.rn r := rfl
@[simp] theorem State.setMemB_f (a : Nat) (b : Byte) (y : Fld) : (s.setMemB a b).f y = s.f y := rfl
@[simp] theorem State.setMemB_on (a : Nat) (b : Byte) (y : Fld) : (s.setMemB a b).on y = s.on y := rfl
@[simp] theorem State.setMemB_bit (a : Nat) (b : Byte) (y : Fld) (j : Nat) : (s.setMemB a b).bit y j = s.bit y j := rfl

/-! ### State.writeHost -/

@[simp] theorem State.writeHost_regs (a : Nat) (bs : List Byte) : (s.writeHost a bs).regs = s.regs := rfl
@[simp] theorem State.writeHost_latch (a : Nat) (bs : List Byte) : (s.writeHost a bs).latch = s.latch := rfl
@[simp] theorem State.writeHost_mem (a : Nat) (bs : List Byte) : (s.writeHost a bs).mem = s.mem := rfl
@[simp] theorem State.writeHost_bar2 (a : Nat) (bs : List Byte) : (s.writeHost a bs).bar2 = s.bar2 := rfl
@[simp] theorem State.writeHost_dev (a : Nat) (bs : List Byte) : (s.writeHost a bs).dev = s.dev := rfl
@[simp] theorem State.writeHost_cmd (a : Nat) (bs : List Byte) : (s.writeHost a bs).cmd = s.cmd := rfl
@[simp] theorem State.writeHost_evt (a : Nat) (bs : List Byte) : (s.writeHost a bs).evt = s.evt := rfl
@[simp] theorem State.writeHost_cxl (a : Nat) (bs : List Byte) : (s.writeHost a bs).cxl = s.cxl := rfl
@[simp] theorem State.writeHost_mbx (a : Nat) (bs : List Byte) : (s.writeHost a bs).mbx = s.mbx := rfl
@[simp] theorem State.writeHost_dlt (a : Nat) (bs : List Byte) : (s.writeHost a bs).dlt = s.dlt := rfl
@[simp] theorem State.writeHost_lane (a : Nat) (bs : List Byte) : (s.writeHost a bs).lane = s.lane := rfl
@[simp] theorem State.writeHost_port (a : Nat) (bs : List Byte) : (s.writeHost a bs).port = s.port := rfl
@[simp] theorem State.writeHost_raw (a : Nat) (bs : List Byte) : (s.writeHost a bs).raw = s.raw := rfl
@[simp] theorem State.writeHost_ctx (a : Nat) (bs : List Byte) : (s.writeHost a bs).ctx = s.ctx := rfl
@[simp] theorem State.writeHost_ladle (a : Nat) (bs : List Byte) : (s.writeHost a bs).ladle = s.ladle := rfl
@[simp] theorem State.writeHost_tap (a : Nat) (bs : List Byte) : (s.writeHost a bs).tap = s.tap := rfl
@[simp] theorem State.writeHost_vlt (a : Nat) (bs : List Byte) : (s.writeHost a bs).vlt = s.vlt := rfl
@[simp] theorem State.writeHost_vq (a : Nat) (bs : List Byte) : (s.writeHost a bs).vq = s.vq := rfl
@[simp] theorem State.writeHost_dfl (a : Nat) (bs : List Byte) : (s.writeHost a bs).dfl = s.dfl := rfl
@[simp] theorem State.writeHost_dmc (a : Nat) (bs : List Byte) : (s.writeHost a bs).dmc = s.dmc := rfl
@[simp] theorem State.writeHost_flash (a : Nat) (bs : List Byte) : (s.writeHost a bs).flash = s.flash := rfl
@[simp] theorem State.writeHost_pwr (a : Nat) (bs : List Byte) : (s.writeHost a bs).pwr = s.pwr := rfl
@[simp] theorem State.writeHost_cdc (a : Nat) (bs : List Byte) : (s.writeHost a bs).cdc = s.cdc := rfl
@[simp] theorem State.writeHost_cmp (a : Nat) (bs : List Byte) : (s.writeHost a bs).cmp = s.cmp := rfl
@[simp] theorem State.writeHost_dsp (a : Nat) (bs : List Byte) : (s.writeHost a bs).dsp = s.dsp := rfl
@[simp] theorem State.writeHost_aud (a : Nat) (bs : List Byte) : (s.writeHost a bs).aud = s.aud := rfl
@[simp] theorem State.writeHost_tim (a : Nat) (bs : List Byte) : (s.writeHost a bs).tim = s.tim := rfl
@[simp] theorem State.writeHost_tst (a : Nat) (bs : List Byte) : (s.writeHost a bs).tst = s.tst := rfl
@[simp] theorem State.writeHost_net (a : Nat) (bs : List Byte) : (s.writeHost a bs).net = s.net := rfl
@[simp] theorem State.writeHost_out (a : Nat) (bs : List Byte) : (s.writeHost a bs).out = s.out := rfl
@[simp] theorem State.writeHost_freeCtr (a : Nat) (bs : List Byte) : (s.writeHost a bs).freeCtr = s.freeCtr := rfl
@[simp] theorem State.writeHost_pending (a : Nat) (bs : List Byte) : (s.writeHost a bs).pending = s.pending := rfl
@[simp] theorem State.writeHost_host (a : Nat) (bs : List Byte) : (s.writeHost a bs).host = hostPut s.host a bs := rfl
@[simp] theorem State.writeHost_rd (a : Nat) (bs : List Byte) (r : Nat) : (s.writeHost a bs).rd r = s.rd r := rfl
@[simp] theorem State.writeHost_rn (a : Nat) (bs : List Byte) (r : Nat) : (s.writeHost a bs).rn r = s.rn r := rfl
@[simp] theorem State.writeHost_f (a : Nat) (bs : List Byte) (y : Fld) : (s.writeHost a bs).f y = s.f y := rfl
@[simp] theorem State.writeHost_on (a : Nat) (bs : List Byte) (y : Fld) : (s.writeHost a bs).on y = s.on y := rfl
@[simp] theorem State.writeHost_bit (a : Nat) (bs : List Byte) (y : Fld) (j : Nat) : (s.writeHost a bs).bit y j = s.bit y j := rfl

/-! ### State.writeBar2 -/

@[simp] theorem State.writeBar2_regs (a : Nat) (bs : List Byte) : (s.writeBar2 a bs).regs = s.regs := rfl
@[simp] theorem State.writeBar2_latch (a : Nat) (bs : List Byte) : (s.writeBar2 a bs).latch = s.latch := rfl
@[simp] theorem State.writeBar2_mem (a : Nat) (bs : List Byte) : (s.writeBar2 a bs).mem = s.mem := rfl
@[simp] theorem State.writeBar2_host (a : Nat) (bs : List Byte) : (s.writeBar2 a bs).host = s.host := rfl
@[simp] theorem State.writeBar2_dev (a : Nat) (bs : List Byte) : (s.writeBar2 a bs).dev = s.dev := rfl
@[simp] theorem State.writeBar2_cmd (a : Nat) (bs : List Byte) : (s.writeBar2 a bs).cmd = s.cmd := rfl
@[simp] theorem State.writeBar2_evt (a : Nat) (bs : List Byte) : (s.writeBar2 a bs).evt = s.evt := rfl
@[simp] theorem State.writeBar2_cxl (a : Nat) (bs : List Byte) : (s.writeBar2 a bs).cxl = s.cxl := rfl
@[simp] theorem State.writeBar2_mbx (a : Nat) (bs : List Byte) : (s.writeBar2 a bs).mbx = s.mbx := rfl
@[simp] theorem State.writeBar2_dlt (a : Nat) (bs : List Byte) : (s.writeBar2 a bs).dlt = s.dlt := rfl
@[simp] theorem State.writeBar2_lane (a : Nat) (bs : List Byte) : (s.writeBar2 a bs).lane = s.lane := rfl
@[simp] theorem State.writeBar2_port (a : Nat) (bs : List Byte) : (s.writeBar2 a bs).port = s.port := rfl
@[simp] theorem State.writeBar2_raw (a : Nat) (bs : List Byte) : (s.writeBar2 a bs).raw = s.raw := rfl
@[simp] theorem State.writeBar2_ctx (a : Nat) (bs : List Byte) : (s.writeBar2 a bs).ctx = s.ctx := rfl
@[simp] theorem State.writeBar2_ladle (a : Nat) (bs : List Byte) : (s.writeBar2 a bs).ladle = s.ladle := rfl
@[simp] theorem State.writeBar2_tap (a : Nat) (bs : List Byte) : (s.writeBar2 a bs).tap = s.tap := rfl
@[simp] theorem State.writeBar2_vlt (a : Nat) (bs : List Byte) : (s.writeBar2 a bs).vlt = s.vlt := rfl
@[simp] theorem State.writeBar2_vq (a : Nat) (bs : List Byte) : (s.writeBar2 a bs).vq = s.vq := rfl
@[simp] theorem State.writeBar2_dfl (a : Nat) (bs : List Byte) : (s.writeBar2 a bs).dfl = s.dfl := rfl
@[simp] theorem State.writeBar2_dmc (a : Nat) (bs : List Byte) : (s.writeBar2 a bs).dmc = s.dmc := rfl
@[simp] theorem State.writeBar2_flash (a : Nat) (bs : List Byte) : (s.writeBar2 a bs).flash = s.flash := rfl
@[simp] theorem State.writeBar2_pwr (a : Nat) (bs : List Byte) : (s.writeBar2 a bs).pwr = s.pwr := rfl
@[simp] theorem State.writeBar2_cdc (a : Nat) (bs : List Byte) : (s.writeBar2 a bs).cdc = s.cdc := rfl
@[simp] theorem State.writeBar2_cmp (a : Nat) (bs : List Byte) : (s.writeBar2 a bs).cmp = s.cmp := rfl
@[simp] theorem State.writeBar2_dsp (a : Nat) (bs : List Byte) : (s.writeBar2 a bs).dsp = s.dsp := rfl
@[simp] theorem State.writeBar2_aud (a : Nat) (bs : List Byte) : (s.writeBar2 a bs).aud = s.aud := rfl
@[simp] theorem State.writeBar2_tim (a : Nat) (bs : List Byte) : (s.writeBar2 a bs).tim = s.tim := rfl
@[simp] theorem State.writeBar2_tst (a : Nat) (bs : List Byte) : (s.writeBar2 a bs).tst = s.tst := rfl
@[simp] theorem State.writeBar2_net (a : Nat) (bs : List Byte) : (s.writeBar2 a bs).net = s.net := rfl
@[simp] theorem State.writeBar2_out (a : Nat) (bs : List Byte) : (s.writeBar2 a bs).out = s.out := rfl
@[simp] theorem State.writeBar2_freeCtr (a : Nat) (bs : List Byte) : (s.writeBar2 a bs).freeCtr = s.freeCtr := rfl
@[simp] theorem State.writeBar2_pending (a : Nat) (bs : List Byte) : (s.writeBar2 a bs).pending = s.pending := rfl
@[simp] theorem State.writeBar2_bar2 (a : Nat) (bs : List Byte) : (s.writeBar2 a bs).bar2 = bar2Put s.bar2 a bs := rfl
@[simp] theorem State.writeBar2_rd (a : Nat) (bs : List Byte) (r : Nat) : (s.writeBar2 a bs).rd r = s.rd r := rfl
@[simp] theorem State.writeBar2_rn (a : Nat) (bs : List Byte) (r : Nat) : (s.writeBar2 a bs).rn r = s.rn r := rfl
@[simp] theorem State.writeBar2_f (a : Nat) (bs : List Byte) (y : Fld) : (s.writeBar2 a bs).f y = s.f y := rfl
@[simp] theorem State.writeBar2_on (a : Nat) (bs : List Byte) (y : Fld) : (s.writeBar2 a bs).on y = s.on y := rfl
@[simp] theorem State.writeBar2_bit (a : Nat) (bs : List Byte) (y : Fld) (j : Nat) : (s.writeBar2 a bs).bit y j = s.bit y j := rfl

/-! ### State.modDev -/

@[simp] theorem State.modDev_regs (g : DevSt → DevSt) : (s.modDev g).regs = s.regs := rfl
@[simp] theorem State.modDev_latch (g : DevSt → DevSt) : (s.modDev g).latch = s.latch := rfl
@[simp] theorem State.modDev_mem (g : DevSt → DevSt) : (s.modDev g).mem = s.mem := rfl
@[simp] theorem State.modDev_host (g : DevSt → DevSt) : (s.modDev g).host = s.host := rfl
@[simp] theorem State.modDev_bar2 (g : DevSt → DevSt) : (s.modDev g).bar2 = s.bar2 := rfl
@[simp] theorem State.modDev_cmd (g : DevSt → DevSt) : (s.modDev g).cmd = s.cmd := rfl
@[simp] theorem State.modDev_evt (g : DevSt → DevSt) : (s.modDev g).evt = s.evt := rfl
@[simp] theorem State.modDev_cxl (g : DevSt → DevSt) : (s.modDev g).cxl = s.cxl := rfl
@[simp] theorem State.modDev_mbx (g : DevSt → DevSt) : (s.modDev g).mbx = s.mbx := rfl
@[simp] theorem State.modDev_dlt (g : DevSt → DevSt) : (s.modDev g).dlt = s.dlt := rfl
@[simp] theorem State.modDev_lane (g : DevSt → DevSt) : (s.modDev g).lane = s.lane := rfl
@[simp] theorem State.modDev_port (g : DevSt → DevSt) : (s.modDev g).port = s.port := rfl
@[simp] theorem State.modDev_raw (g : DevSt → DevSt) : (s.modDev g).raw = s.raw := rfl
@[simp] theorem State.modDev_ctx (g : DevSt → DevSt) : (s.modDev g).ctx = s.ctx := rfl
@[simp] theorem State.modDev_ladle (g : DevSt → DevSt) : (s.modDev g).ladle = s.ladle := rfl
@[simp] theorem State.modDev_tap (g : DevSt → DevSt) : (s.modDev g).tap = s.tap := rfl
@[simp] theorem State.modDev_vlt (g : DevSt → DevSt) : (s.modDev g).vlt = s.vlt := rfl
@[simp] theorem State.modDev_vq (g : DevSt → DevSt) : (s.modDev g).vq = s.vq := rfl
@[simp] theorem State.modDev_dfl (g : DevSt → DevSt) : (s.modDev g).dfl = s.dfl := rfl
@[simp] theorem State.modDev_dmc (g : DevSt → DevSt) : (s.modDev g).dmc = s.dmc := rfl
@[simp] theorem State.modDev_flash (g : DevSt → DevSt) : (s.modDev g).flash = s.flash := rfl
@[simp] theorem State.modDev_pwr (g : DevSt → DevSt) : (s.modDev g).pwr = s.pwr := rfl
@[simp] theorem State.modDev_cdc (g : DevSt → DevSt) : (s.modDev g).cdc = s.cdc := rfl
@[simp] theorem State.modDev_cmp (g : DevSt → DevSt) : (s.modDev g).cmp = s.cmp := rfl
@[simp] theorem State.modDev_dsp (g : DevSt → DevSt) : (s.modDev g).dsp = s.dsp := rfl
@[simp] theorem State.modDev_aud (g : DevSt → DevSt) : (s.modDev g).aud = s.aud := rfl
@[simp] theorem State.modDev_tim (g : DevSt → DevSt) : (s.modDev g).tim = s.tim := rfl
@[simp] theorem State.modDev_tst (g : DevSt → DevSt) : (s.modDev g).tst = s.tst := rfl
@[simp] theorem State.modDev_net (g : DevSt → DevSt) : (s.modDev g).net = s.net := rfl
@[simp] theorem State.modDev_out (g : DevSt → DevSt) : (s.modDev g).out = s.out := rfl
@[simp] theorem State.modDev_freeCtr (g : DevSt → DevSt) : (s.modDev g).freeCtr = s.freeCtr := rfl
@[simp] theorem State.modDev_pending (g : DevSt → DevSt) : (s.modDev g).pending = s.pending := rfl
@[simp] theorem State.modDev_dev (g : DevSt → DevSt) : (s.modDev g).dev = g s.dev := rfl

/-! ### State.modFlash -/

@[simp] theorem State.modFlash_regs (g : FwSt → FwSt) : (s.modFlash g).regs = s.regs := rfl
@[simp] theorem State.modFlash_latch (g : FwSt → FwSt) : (s.modFlash g).latch = s.latch := rfl
@[simp] theorem State.modFlash_mem (g : FwSt → FwSt) : (s.modFlash g).mem = s.mem := rfl
@[simp] theorem State.modFlash_host (g : FwSt → FwSt) : (s.modFlash g).host = s.host := rfl
@[simp] theorem State.modFlash_bar2 (g : FwSt → FwSt) : (s.modFlash g).bar2 = s.bar2 := rfl
@[simp] theorem State.modFlash_dev (g : FwSt → FwSt) : (s.modFlash g).dev = s.dev := rfl
@[simp] theorem State.modFlash_cmd (g : FwSt → FwSt) : (s.modFlash g).cmd = s.cmd := rfl
@[simp] theorem State.modFlash_evt (g : FwSt → FwSt) : (s.modFlash g).evt = s.evt := rfl
@[simp] theorem State.modFlash_cxl (g : FwSt → FwSt) : (s.modFlash g).cxl = s.cxl := rfl
@[simp] theorem State.modFlash_mbx (g : FwSt → FwSt) : (s.modFlash g).mbx = s.mbx := rfl
@[simp] theorem State.modFlash_dlt (g : FwSt → FwSt) : (s.modFlash g).dlt = s.dlt := rfl
@[simp] theorem State.modFlash_lane (g : FwSt → FwSt) : (s.modFlash g).lane = s.lane := rfl
@[simp] theorem State.modFlash_port (g : FwSt → FwSt) : (s.modFlash g).port = s.port := rfl
@[simp] theorem State.modFlash_raw (g : FwSt → FwSt) : (s.modFlash g).raw = s.raw := rfl
@[simp] theorem State.modFlash_ctx (g : FwSt → FwSt) : (s.modFlash g).ctx = s.ctx := rfl
@[simp] theorem State.modFlash_ladle (g : FwSt → FwSt) : (s.modFlash g).ladle = s.ladle := rfl
@[simp] theorem State.modFlash_tap (g : FwSt → FwSt) : (s.modFlash g).tap = s.tap := rfl
@[simp] theorem State.modFlash_vlt (g : FwSt → FwSt) : (s.modFlash g).vlt = s.vlt := rfl
@[simp] theorem State.modFlash_vq (g : FwSt → FwSt) : (s.modFlash g).vq = s.vq := rfl
@[simp] theorem State.modFlash_dfl (g : FwSt → FwSt) : (s.modFlash g).dfl = s.dfl := rfl
@[simp] theorem State.modFlash_dmc (g : FwSt → FwSt) : (s.modFlash g).dmc = s.dmc := rfl
@[simp] theorem State.modFlash_pwr (g : FwSt → FwSt) : (s.modFlash g).pwr = s.pwr := rfl
@[simp] theorem State.modFlash_cdc (g : FwSt → FwSt) : (s.modFlash g).cdc = s.cdc := rfl
@[simp] theorem State.modFlash_cmp (g : FwSt → FwSt) : (s.modFlash g).cmp = s.cmp := rfl
@[simp] theorem State.modFlash_dsp (g : FwSt → FwSt) : (s.modFlash g).dsp = s.dsp := rfl
@[simp] theorem State.modFlash_aud (g : FwSt → FwSt) : (s.modFlash g).aud = s.aud := rfl
@[simp] theorem State.modFlash_tim (g : FwSt → FwSt) : (s.modFlash g).tim = s.tim := rfl
@[simp] theorem State.modFlash_tst (g : FwSt → FwSt) : (s.modFlash g).tst = s.tst := rfl
@[simp] theorem State.modFlash_net (g : FwSt → FwSt) : (s.modFlash g).net = s.net := rfl
@[simp] theorem State.modFlash_out (g : FwSt → FwSt) : (s.modFlash g).out = s.out := rfl
@[simp] theorem State.modFlash_freeCtr (g : FwSt → FwSt) : (s.modFlash g).freeCtr = s.freeCtr := rfl
@[simp] theorem State.modFlash_pending (g : FwSt → FwSt) : (s.modFlash g).pending = s.pending := rfl
@[simp] theorem State.modFlash_flash (g : FwSt → FwSt) : (s.modFlash g).flash = g s.flash := rfl
@[simp] theorem State.modFlash_rd (g : FwSt → FwSt) (r : Nat) : (s.modFlash g).rd r = s.rd r := rfl
@[simp] theorem State.modFlash_rn (g : FwSt → FwSt) (r : Nat) : (s.modFlash g).rn r = s.rn r := rfl
@[simp] theorem State.modFlash_f (g : FwSt → FwSt) (y : Fld) : (s.modFlash g).f y = s.f y := rfl
@[simp] theorem State.modFlash_on (g : FwSt → FwSt) (y : Fld) : (s.modFlash g).on y = s.on y := rfl
@[simp] theorem State.modFlash_bit (g : FwSt → FwSt) (y : Fld) (j : Nat) : (s.modFlash g).bit y j = s.bit y j := rfl

/-! ### State.modCxl -/

@[simp] theorem State.modCxl_regs (g : CxlSt → CxlSt) : (s.modCxl g).regs = s.regs := rfl
@[simp] theorem State.modCxl_latch (g : CxlSt → CxlSt) : (s.modCxl g).latch = s.latch := rfl
@[simp] theorem State.modCxl_mem (g : CxlSt → CxlSt) : (s.modCxl g).mem = s.mem := rfl
@[simp] theorem State.modCxl_host (g : CxlSt → CxlSt) : (s.modCxl g).host = s.host := rfl
@[simp] theorem State.modCxl_bar2 (g : CxlSt → CxlSt) : (s.modCxl g).bar2 = s.bar2 := rfl
@[simp] theorem State.modCxl_dev (g : CxlSt → CxlSt) : (s.modCxl g).dev = s.dev := rfl
@[simp] theorem State.modCxl_cmd (g : CxlSt → CxlSt) : (s.modCxl g).cmd = s.cmd := rfl
@[simp] theorem State.modCxl_evt (g : CxlSt → CxlSt) : (s.modCxl g).evt = s.evt := rfl
@[simp] theorem State.modCxl_mbx (g : CxlSt → CxlSt) : (s.modCxl g).mbx = s.mbx := rfl
@[simp] theorem State.modCxl_dlt (g : CxlSt → CxlSt) : (s.modCxl g).dlt = s.dlt := rfl
@[simp] theorem State.modCxl_lane (g : CxlSt → CxlSt) : (s.modCxl g).lane = s.lane := rfl
@[simp] theorem State.modCxl_port (g : CxlSt → CxlSt) : (s.modCxl g).port = s.port := rfl
@[simp] theorem State.modCxl_raw (g : CxlSt → CxlSt) : (s.modCxl g).raw = s.raw := rfl
@[simp] theorem State.modCxl_ctx (g : CxlSt → CxlSt) : (s.modCxl g).ctx = s.ctx := rfl
@[simp] theorem State.modCxl_ladle (g : CxlSt → CxlSt) : (s.modCxl g).ladle = s.ladle := rfl
@[simp] theorem State.modCxl_tap (g : CxlSt → CxlSt) : (s.modCxl g).tap = s.tap := rfl
@[simp] theorem State.modCxl_vlt (g : CxlSt → CxlSt) : (s.modCxl g).vlt = s.vlt := rfl
@[simp] theorem State.modCxl_vq (g : CxlSt → CxlSt) : (s.modCxl g).vq = s.vq := rfl
@[simp] theorem State.modCxl_dfl (g : CxlSt → CxlSt) : (s.modCxl g).dfl = s.dfl := rfl
@[simp] theorem State.modCxl_dmc (g : CxlSt → CxlSt) : (s.modCxl g).dmc = s.dmc := rfl
@[simp] theorem State.modCxl_flash (g : CxlSt → CxlSt) : (s.modCxl g).flash = s.flash := rfl
@[simp] theorem State.modCxl_pwr (g : CxlSt → CxlSt) : (s.modCxl g).pwr = s.pwr := rfl
@[simp] theorem State.modCxl_cdc (g : CxlSt → CxlSt) : (s.modCxl g).cdc = s.cdc := rfl
@[simp] theorem State.modCxl_cmp (g : CxlSt → CxlSt) : (s.modCxl g).cmp = s.cmp := rfl
@[simp] theorem State.modCxl_dsp (g : CxlSt → CxlSt) : (s.modCxl g).dsp = s.dsp := rfl
@[simp] theorem State.modCxl_aud (g : CxlSt → CxlSt) : (s.modCxl g).aud = s.aud := rfl
@[simp] theorem State.modCxl_tim (g : CxlSt → CxlSt) : (s.modCxl g).tim = s.tim := rfl
@[simp] theorem State.modCxl_tst (g : CxlSt → CxlSt) : (s.modCxl g).tst = s.tst := rfl
@[simp] theorem State.modCxl_net (g : CxlSt → CxlSt) : (s.modCxl g).net = s.net := rfl
@[simp] theorem State.modCxl_out (g : CxlSt → CxlSt) : (s.modCxl g).out = s.out := rfl
@[simp] theorem State.modCxl_freeCtr (g : CxlSt → CxlSt) : (s.modCxl g).freeCtr = s.freeCtr := rfl
@[simp] theorem State.modCxl_pending (g : CxlSt → CxlSt) : (s.modCxl g).pending = s.pending := rfl
@[simp] theorem State.modCxl_cxl (g : CxlSt → CxlSt) : (s.modCxl g).cxl = g s.cxl := rfl
@[simp] theorem State.modCxl_rd (g : CxlSt → CxlSt) (r : Nat) : (s.modCxl g).rd r = s.rd r := rfl
@[simp] theorem State.modCxl_rn (g : CxlSt → CxlSt) (r : Nat) : (s.modCxl g).rn r = s.rn r := rfl
@[simp] theorem State.modCxl_f (g : CxlSt → CxlSt) (y : Fld) : (s.modCxl g).f y = s.f y := rfl
@[simp] theorem State.modCxl_on (g : CxlSt → CxlSt) (y : Fld) : (s.modCxl g).on y = s.on y := rfl
@[simp] theorem State.modCxl_bit (g : CxlSt → CxlSt) (y : Fld) (j : Nat) : (s.modCxl g).bit y j = s.bit y j := rfl

/-! ### State.modPwr -/

@[simp] theorem State.modPwr_regs (g : PwrSt → PwrSt) : (s.modPwr g).regs = s.regs := rfl
@[simp] theorem State.modPwr_latch (g : PwrSt → PwrSt) : (s.modPwr g).latch = s.latch := rfl
@[simp] theorem State.modPwr_mem (g : PwrSt → PwrSt) : (s.modPwr g).mem = s.mem := rfl
@[simp] theorem State.modPwr_host (g : PwrSt → PwrSt) : (s.modPwr g).host = s.host := rfl
@[simp] theorem State.modPwr_bar2 (g : PwrSt → PwrSt) : (s.modPwr g).bar2 = s.bar2 := rfl
@[simp] theorem State.modPwr_dev (g : PwrSt → PwrSt) : (s.modPwr g).dev = s.dev := rfl
@[simp] theorem State.modPwr_cmd (g : PwrSt → PwrSt) : (s.modPwr g).cmd = s.cmd := rfl
@[simp] theorem State.modPwr_evt (g : PwrSt → PwrSt) : (s.modPwr g).evt = s.evt := rfl
@[simp] theorem State.modPwr_cxl (g : PwrSt → PwrSt) : (s.modPwr g).cxl = s.cxl := rfl
@[simp] theorem State.modPwr_mbx (g : PwrSt → PwrSt) : (s.modPwr g).mbx = s.mbx := rfl
@[simp] theorem State.modPwr_dlt (g : PwrSt → PwrSt) : (s.modPwr g).dlt = s.dlt := rfl
@[simp] theorem State.modPwr_lane (g : PwrSt → PwrSt) : (s.modPwr g).lane = s.lane := rfl
@[simp] theorem State.modPwr_port (g : PwrSt → PwrSt) : (s.modPwr g).port = s.port := rfl
@[simp] theorem State.modPwr_raw (g : PwrSt → PwrSt) : (s.modPwr g).raw = s.raw := rfl
@[simp] theorem State.modPwr_ctx (g : PwrSt → PwrSt) : (s.modPwr g).ctx = s.ctx := rfl
@[simp] theorem State.modPwr_ladle (g : PwrSt → PwrSt) : (s.modPwr g).ladle = s.ladle := rfl
@[simp] theorem State.modPwr_tap (g : PwrSt → PwrSt) : (s.modPwr g).tap = s.tap := rfl
@[simp] theorem State.modPwr_vlt (g : PwrSt → PwrSt) : (s.modPwr g).vlt = s.vlt := rfl
@[simp] theorem State.modPwr_vq (g : PwrSt → PwrSt) : (s.modPwr g).vq = s.vq := rfl
@[simp] theorem State.modPwr_dfl (g : PwrSt → PwrSt) : (s.modPwr g).dfl = s.dfl := rfl
@[simp] theorem State.modPwr_dmc (g : PwrSt → PwrSt) : (s.modPwr g).dmc = s.dmc := rfl
@[simp] theorem State.modPwr_flash (g : PwrSt → PwrSt) : (s.modPwr g).flash = s.flash := rfl
@[simp] theorem State.modPwr_cdc (g : PwrSt → PwrSt) : (s.modPwr g).cdc = s.cdc := rfl
@[simp] theorem State.modPwr_cmp (g : PwrSt → PwrSt) : (s.modPwr g).cmp = s.cmp := rfl
@[simp] theorem State.modPwr_dsp (g : PwrSt → PwrSt) : (s.modPwr g).dsp = s.dsp := rfl
@[simp] theorem State.modPwr_aud (g : PwrSt → PwrSt) : (s.modPwr g).aud = s.aud := rfl
@[simp] theorem State.modPwr_tim (g : PwrSt → PwrSt) : (s.modPwr g).tim = s.tim := rfl
@[simp] theorem State.modPwr_tst (g : PwrSt → PwrSt) : (s.modPwr g).tst = s.tst := rfl
@[simp] theorem State.modPwr_net (g : PwrSt → PwrSt) : (s.modPwr g).net = s.net := rfl
@[simp] theorem State.modPwr_out (g : PwrSt → PwrSt) : (s.modPwr g).out = s.out := rfl
@[simp] theorem State.modPwr_freeCtr (g : PwrSt → PwrSt) : (s.modPwr g).freeCtr = s.freeCtr := rfl
@[simp] theorem State.modPwr_pending (g : PwrSt → PwrSt) : (s.modPwr g).pending = s.pending := rfl
@[simp] theorem State.modPwr_pwr (g : PwrSt → PwrSt) : (s.modPwr g).pwr = g s.pwr := rfl
@[simp] theorem State.modPwr_rd (g : PwrSt → PwrSt) (r : Nat) : (s.modPwr g).rd r = s.rd r := rfl
@[simp] theorem State.modPwr_rn (g : PwrSt → PwrSt) (r : Nat) : (s.modPwr g).rn r = s.rn r := rfl
@[simp] theorem State.modPwr_f (g : PwrSt → PwrSt) (y : Fld) : (s.modPwr g).f y = s.f y := rfl
@[simp] theorem State.modPwr_on (g : PwrSt → PwrSt) (y : Fld) : (s.modPwr g).on y = s.on y := rfl
@[simp] theorem State.modPwr_bit (g : PwrSt → PwrSt) (y : Fld) (j : Nat) : (s.modPwr g).bit y j = s.bit y j := rfl

/-! ### State.modCx -/

@[simp] theorem State.modCx_regs (c : Nat) (g : CtxSt → CtxSt) : (s.modCx c g).regs = s.regs := rfl
@[simp] theorem State.modCx_latch (c : Nat) (g : CtxSt → CtxSt) : (s.modCx c g).latch = s.latch := rfl
@[simp] theorem State.modCx_mem (c : Nat) (g : CtxSt → CtxSt) : (s.modCx c g).mem = s.mem := rfl
@[simp] theorem State.modCx_host (c : Nat) (g : CtxSt → CtxSt) : (s.modCx c g).host = s.host := rfl
@[simp] theorem State.modCx_bar2 (c : Nat) (g : CtxSt → CtxSt) : (s.modCx c g).bar2 = s.bar2 := rfl
@[simp] theorem State.modCx_dev (c : Nat) (g : CtxSt → CtxSt) : (s.modCx c g).dev = s.dev := rfl
@[simp] theorem State.modCx_cmd (c : Nat) (g : CtxSt → CtxSt) : (s.modCx c g).cmd = s.cmd := rfl
@[simp] theorem State.modCx_evt (c : Nat) (g : CtxSt → CtxSt) : (s.modCx c g).evt = s.evt := rfl
@[simp] theorem State.modCx_cxl (c : Nat) (g : CtxSt → CtxSt) : (s.modCx c g).cxl = s.cxl := rfl
@[simp] theorem State.modCx_mbx (c : Nat) (g : CtxSt → CtxSt) : (s.modCx c g).mbx = s.mbx := rfl
@[simp] theorem State.modCx_dlt (c : Nat) (g : CtxSt → CtxSt) : (s.modCx c g).dlt = s.dlt := rfl
@[simp] theorem State.modCx_lane (c : Nat) (g : CtxSt → CtxSt) : (s.modCx c g).lane = s.lane := rfl
@[simp] theorem State.modCx_port (c : Nat) (g : CtxSt → CtxSt) : (s.modCx c g).port = s.port := rfl
@[simp] theorem State.modCx_raw (c : Nat) (g : CtxSt → CtxSt) : (s.modCx c g).raw = s.raw := rfl
@[simp] theorem State.modCx_ladle (c : Nat) (g : CtxSt → CtxSt) : (s.modCx c g).ladle = s.ladle := rfl
@[simp] theorem State.modCx_tap (c : Nat) (g : CtxSt → CtxSt) : (s.modCx c g).tap = s.tap := rfl
@[simp] theorem State.modCx_vlt (c : Nat) (g : CtxSt → CtxSt) : (s.modCx c g).vlt = s.vlt := rfl
@[simp] theorem State.modCx_vq (c : Nat) (g : CtxSt → CtxSt) : (s.modCx c g).vq = s.vq := rfl
@[simp] theorem State.modCx_dfl (c : Nat) (g : CtxSt → CtxSt) : (s.modCx c g).dfl = s.dfl := rfl
@[simp] theorem State.modCx_dmc (c : Nat) (g : CtxSt → CtxSt) : (s.modCx c g).dmc = s.dmc := rfl
@[simp] theorem State.modCx_flash (c : Nat) (g : CtxSt → CtxSt) : (s.modCx c g).flash = s.flash := rfl
@[simp] theorem State.modCx_pwr (c : Nat) (g : CtxSt → CtxSt) : (s.modCx c g).pwr = s.pwr := rfl
@[simp] theorem State.modCx_cdc (c : Nat) (g : CtxSt → CtxSt) : (s.modCx c g).cdc = s.cdc := rfl
@[simp] theorem State.modCx_cmp (c : Nat) (g : CtxSt → CtxSt) : (s.modCx c g).cmp = s.cmp := rfl
@[simp] theorem State.modCx_dsp (c : Nat) (g : CtxSt → CtxSt) : (s.modCx c g).dsp = s.dsp := rfl
@[simp] theorem State.modCx_aud (c : Nat) (g : CtxSt → CtxSt) : (s.modCx c g).aud = s.aud := rfl
@[simp] theorem State.modCx_tim (c : Nat) (g : CtxSt → CtxSt) : (s.modCx c g).tim = s.tim := rfl
@[simp] theorem State.modCx_tst (c : Nat) (g : CtxSt → CtxSt) : (s.modCx c g).tst = s.tst := rfl
@[simp] theorem State.modCx_net (c : Nat) (g : CtxSt → CtxSt) : (s.modCx c g).net = s.net := rfl
@[simp] theorem State.modCx_out (c : Nat) (g : CtxSt → CtxSt) : (s.modCx c g).out = s.out := rfl
@[simp] theorem State.modCx_freeCtr (c : Nat) (g : CtxSt → CtxSt) : (s.modCx c g).freeCtr = s.freeCtr := rfl
@[simp] theorem State.modCx_pending (c : Nat) (g : CtxSt → CtxSt) : (s.modCx c g).pending = s.pending := rfl
@[simp] theorem State.modCx_ctx (c : Nat) (g : CtxSt → CtxSt) : (s.modCx c g).ctx = s.ctx.setIfInBounds c (g (s.cx c)) := rfl
@[simp] theorem State.modCx_rd (c : Nat) (g : CtxSt → CtxSt) (r : Nat) : (s.modCx c g).rd r = s.rd r := rfl
@[simp] theorem State.modCx_rn (c : Nat) (g : CtxSt → CtxSt) (r : Nat) : (s.modCx c g).rn r = s.rn r := rfl
@[simp] theorem State.modCx_f (c : Nat) (g : CtxSt → CtxSt) (y : Fld) : (s.modCx c g).f y = s.f y := rfl
@[simp] theorem State.modCx_on (c : Nat) (g : CtxSt → CtxSt) (y : Fld) : (s.modCx c g).on y = s.on y := rfl
@[simp] theorem State.modCx_bit (c : Nat) (g : CtxSt → CtxSt) (y : Fld) (j : Nat) : (s.modCx c g).bit y j = s.bit y j := rfl

/-! ### State.modPt -/

@[simp] theorem State.modPt_regs (p : Nat) (g : PortSt → PortSt) : (s.modPt p g).regs = s.regs := rfl
@[simp] theorem State.modPt_latch (p : Nat) (g : PortSt → PortSt) : (s.modPt p g).latch = s.latch := rfl
@[simp] theorem State.modPt_mem (p : Nat) (g : PortSt → PortSt) : (s.modPt p g).mem = s.mem := rfl
@[simp] theorem State.modPt_host (p : Nat) (g : PortSt → PortSt) : (s.modPt p g).host = s.host := rfl
@[simp] theorem State.modPt_bar2 (p : Nat) (g : PortSt → PortSt) : (s.modPt p g).bar2 = s.bar2 := rfl
@[simp] theorem State.modPt_dev (p : Nat) (g : PortSt → PortSt) : (s.modPt p g).dev = s.dev := rfl
@[simp] theorem State.modPt_cmd (p : Nat) (g : PortSt → PortSt) : (s.modPt p g).cmd = s.cmd := rfl
@[simp] theorem State.modPt_evt (p : Nat) (g : PortSt → PortSt) : (s.modPt p g).evt = s.evt := rfl
@[simp] theorem State.modPt_cxl (p : Nat) (g : PortSt → PortSt) : (s.modPt p g).cxl = s.cxl := rfl
@[simp] theorem State.modPt_mbx (p : Nat) (g : PortSt → PortSt) : (s.modPt p g).mbx = s.mbx := rfl
@[simp] theorem State.modPt_dlt (p : Nat) (g : PortSt → PortSt) : (s.modPt p g).dlt = s.dlt := rfl
@[simp] theorem State.modPt_lane (p : Nat) (g : PortSt → PortSt) : (s.modPt p g).lane = s.lane := rfl
@[simp] theorem State.modPt_raw (p : Nat) (g : PortSt → PortSt) : (s.modPt p g).raw = s.raw := rfl
@[simp] theorem State.modPt_ctx (p : Nat) (g : PortSt → PortSt) : (s.modPt p g).ctx = s.ctx := rfl
@[simp] theorem State.modPt_ladle (p : Nat) (g : PortSt → PortSt) : (s.modPt p g).ladle = s.ladle := rfl
@[simp] theorem State.modPt_tap (p : Nat) (g : PortSt → PortSt) : (s.modPt p g).tap = s.tap := rfl
@[simp] theorem State.modPt_vlt (p : Nat) (g : PortSt → PortSt) : (s.modPt p g).vlt = s.vlt := rfl
@[simp] theorem State.modPt_vq (p : Nat) (g : PortSt → PortSt) : (s.modPt p g).vq = s.vq := rfl
@[simp] theorem State.modPt_dfl (p : Nat) (g : PortSt → PortSt) : (s.modPt p g).dfl = s.dfl := rfl
@[simp] theorem State.modPt_dmc (p : Nat) (g : PortSt → PortSt) : (s.modPt p g).dmc = s.dmc := rfl
@[simp] theorem State.modPt_flash (p : Nat) (g : PortSt → PortSt) : (s.modPt p g).flash = s.flash := rfl
@[simp] theorem State.modPt_pwr (p : Nat) (g : PortSt → PortSt) : (s.modPt p g).pwr = s.pwr := rfl
@[simp] theorem State.modPt_cdc (p : Nat) (g : PortSt → PortSt) : (s.modPt p g).cdc = s.cdc := rfl
@[simp] theorem State.modPt_cmp (p : Nat) (g : PortSt → PortSt) : (s.modPt p g).cmp = s.cmp := rfl
@[simp] theorem State.modPt_dsp (p : Nat) (g : PortSt → PortSt) : (s.modPt p g).dsp = s.dsp := rfl
@[simp] theorem State.modPt_aud (p : Nat) (g : PortSt → PortSt) : (s.modPt p g).aud = s.aud := rfl
@[simp] theorem State.modPt_tim (p : Nat) (g : PortSt → PortSt) : (s.modPt p g).tim = s.tim := rfl
@[simp] theorem State.modPt_tst (p : Nat) (g : PortSt → PortSt) : (s.modPt p g).tst = s.tst := rfl
@[simp] theorem State.modPt_net (p : Nat) (g : PortSt → PortSt) : (s.modPt p g).net = s.net := rfl
@[simp] theorem State.modPt_out (p : Nat) (g : PortSt → PortSt) : (s.modPt p g).out = s.out := rfl
@[simp] theorem State.modPt_freeCtr (p : Nat) (g : PortSt → PortSt) : (s.modPt p g).freeCtr = s.freeCtr := rfl
@[simp] theorem State.modPt_pending (p : Nat) (g : PortSt → PortSt) : (s.modPt p g).pending = s.pending := rfl
@[simp] theorem State.modPt_port (p : Nat) (g : PortSt → PortSt) : (s.modPt p g).port = s.port.setIfInBounds p (g (s.pt p)) := rfl
@[simp] theorem State.modPt_rd (p : Nat) (g : PortSt → PortSt) (r : Nat) : (s.modPt p g).rd r = s.rd r := rfl
@[simp] theorem State.modPt_rn (p : Nat) (g : PortSt → PortSt) (r : Nat) : (s.modPt p g).rn r = s.rn r := rfl
@[simp] theorem State.modPt_f (p : Nat) (g : PortSt → PortSt) (y : Fld) : (s.modPt p g).f y = s.f y := rfl
@[simp] theorem State.modPt_on (p : Nat) (g : PortSt → PortSt) (y : Fld) : (s.modPt p g).on y = s.on y := rfl
@[simp] theorem State.modPt_bit (p : Nat) (g : PortSt → PortSt) (y : Fld) (j : Nat) : (s.modPt p g).bit y j = s.bit y j := rfl

/-! ### State.modRw -/

@[simp] theorem State.modRw_regs (p : Nat) (g : RawSt → RawSt) : (s.modRw p g).regs = s.regs := rfl
@[simp] theorem State.modRw_latch (p : Nat) (g : RawSt → RawSt) : (s.modRw p g).latch = s.latch := rfl
@[simp] theorem State.modRw_mem (p : Nat) (g : RawSt → RawSt) : (s.modRw p g).mem = s.mem := rfl
@[simp] theorem State.modRw_host (p : Nat) (g : RawSt → RawSt) : (s.modRw p g).host = s.host := rfl
@[simp] theorem State.modRw_bar2 (p : Nat) (g : RawSt → RawSt) : (s.modRw p g).bar2 = s.bar2 := rfl
@[simp] theorem State.modRw_dev (p : Nat) (g : RawSt → RawSt) : (s.modRw p g).dev = s.dev := rfl
@[simp] theorem State.modRw_cmd (p : Nat) (g : RawSt → RawSt) : (s.modRw p g).cmd = s.cmd := rfl
@[simp] theorem State.modRw_evt (p : Nat) (g : RawSt → RawSt) : (s.modRw p g).evt = s.evt := rfl
@[simp] theorem State.modRw_cxl (p : Nat) (g : RawSt → RawSt) : (s.modRw p g).cxl = s.cxl := rfl
@[simp] theorem State.modRw_mbx (p : Nat) (g : RawSt → RawSt) : (s.modRw p g).mbx = s.mbx := rfl
@[simp] theorem State.modRw_dlt (p : Nat) (g : RawSt → RawSt) : (s.modRw p g).dlt = s.dlt := rfl
@[simp] theorem State.modRw_lane (p : Nat) (g : RawSt → RawSt) : (s.modRw p g).lane = s.lane := rfl
@[simp] theorem State.modRw_port (p : Nat) (g : RawSt → RawSt) : (s.modRw p g).port = s.port := rfl
@[simp] theorem State.modRw_ctx (p : Nat) (g : RawSt → RawSt) : (s.modRw p g).ctx = s.ctx := rfl
@[simp] theorem State.modRw_ladle (p : Nat) (g : RawSt → RawSt) : (s.modRw p g).ladle = s.ladle := rfl
@[simp] theorem State.modRw_tap (p : Nat) (g : RawSt → RawSt) : (s.modRw p g).tap = s.tap := rfl
@[simp] theorem State.modRw_vlt (p : Nat) (g : RawSt → RawSt) : (s.modRw p g).vlt = s.vlt := rfl
@[simp] theorem State.modRw_vq (p : Nat) (g : RawSt → RawSt) : (s.modRw p g).vq = s.vq := rfl
@[simp] theorem State.modRw_dfl (p : Nat) (g : RawSt → RawSt) : (s.modRw p g).dfl = s.dfl := rfl
@[simp] theorem State.modRw_dmc (p : Nat) (g : RawSt → RawSt) : (s.modRw p g).dmc = s.dmc := rfl
@[simp] theorem State.modRw_flash (p : Nat) (g : RawSt → RawSt) : (s.modRw p g).flash = s.flash := rfl
@[simp] theorem State.modRw_pwr (p : Nat) (g : RawSt → RawSt) : (s.modRw p g).pwr = s.pwr := rfl
@[simp] theorem State.modRw_cdc (p : Nat) (g : RawSt → RawSt) : (s.modRw p g).cdc = s.cdc := rfl
@[simp] theorem State.modRw_cmp (p : Nat) (g : RawSt → RawSt) : (s.modRw p g).cmp = s.cmp := rfl
@[simp] theorem State.modRw_dsp (p : Nat) (g : RawSt → RawSt) : (s.modRw p g).dsp = s.dsp := rfl
@[simp] theorem State.modRw_aud (p : Nat) (g : RawSt → RawSt) : (s.modRw p g).aud = s.aud := rfl
@[simp] theorem State.modRw_tim (p : Nat) (g : RawSt → RawSt) : (s.modRw p g).tim = s.tim := rfl
@[simp] theorem State.modRw_tst (p : Nat) (g : RawSt → RawSt) : (s.modRw p g).tst = s.tst := rfl
@[simp] theorem State.modRw_net (p : Nat) (g : RawSt → RawSt) : (s.modRw p g).net = s.net := rfl
@[simp] theorem State.modRw_out (p : Nat) (g : RawSt → RawSt) : (s.modRw p g).out = s.out := rfl
@[simp] theorem State.modRw_freeCtr (p : Nat) (g : RawSt → RawSt) : (s.modRw p g).freeCtr = s.freeCtr := rfl
@[simp] theorem State.modRw_pending (p : Nat) (g : RawSt → RawSt) : (s.modRw p g).pending = s.pending := rfl
@[simp] theorem State.modRw_raw (p : Nat) (g : RawSt → RawSt) : (s.modRw p g).raw = s.raw.setIfInBounds p (g (s.rw_ p)) := rfl
@[simp] theorem State.modRw_rd (p : Nat) (g : RawSt → RawSt) (r : Nat) : (s.modRw p g).rd r = s.rd r := rfl
@[simp] theorem State.modRw_rn (p : Nat) (g : RawSt → RawSt) (r : Nat) : (s.modRw p g).rn r = s.rn r := rfl
@[simp] theorem State.modRw_f (p : Nat) (g : RawSt → RawSt) (y : Fld) : (s.modRw p g).f y = s.f y := rfl
@[simp] theorem State.modRw_on (p : Nat) (g : RawSt → RawSt) (y : Fld) : (s.modRw p g).on y = s.on y := rfl
@[simp] theorem State.modRw_bit (p : Nat) (g : RawSt → RawSt) (y : Fld) (j : Nat) : (s.modRw p g).bit y j = s.bit y j := rfl

/-! ### State.modTp -/

@[simp] theorem State.modTp_regs (t : Nat) (g : TapSt → TapSt) : (s.modTp t g).regs = s.regs := rfl
@[simp] theorem State.modTp_latch (t : Nat) (g : TapSt → TapSt) : (s.modTp t g).latch = s.latch := rfl
@[simp] theorem State.modTp_mem (t : Nat) (g : TapSt → TapSt) : (s.modTp t g).mem = s.mem := rfl
@[simp] theorem State.modTp_host (t : Nat) (g : TapSt → TapSt) : (s.modTp t g).host = s.host := rfl
@[simp] theorem State.modTp_bar2 (t : Nat) (g : TapSt → TapSt) : (s.modTp t g).bar2 = s.bar2 := rfl
@[simp] theorem State.modTp_dev (t : Nat) (g : TapSt → TapSt) : (s.modTp t g).dev = s.dev := rfl
@[simp] theorem State.modTp_cmd (t : Nat) (g : TapSt → TapSt) : (s.modTp t g).cmd = s.cmd := rfl
@[simp] theorem State.modTp_evt (t : Nat) (g : TapSt → TapSt) : (s.modTp t g).evt = s.evt := rfl
@[simp] theorem State.modTp_cxl (t : Nat) (g : TapSt → TapSt) : (s.modTp t g).cxl = s.cxl := rfl
@[simp] theorem State.modTp_mbx (t : Nat) (g : TapSt → TapSt) : (s.modTp t g).mbx = s.mbx := rfl
@[simp] theorem State.modTp_dlt (t : Nat) (g : TapSt → TapSt) : (s.modTp t g).dlt = s.dlt := rfl
@[simp] theorem State.modTp_lane (t : Nat) (g : TapSt → TapSt) : (s.modTp t g).lane = s.lane := rfl
@[simp] theorem State.modTp_port (t : Nat) (g : TapSt → TapSt) : (s.modTp t g).port = s.port := rfl
@[simp] theorem State.modTp_raw (t : Nat) (g : TapSt → TapSt) : (s.modTp t g).raw = s.raw := rfl
@[simp] theorem State.modTp_ctx (t : Nat) (g : TapSt → TapSt) : (s.modTp t g).ctx = s.ctx := rfl
@[simp] theorem State.modTp_ladle (t : Nat) (g : TapSt → TapSt) : (s.modTp t g).ladle = s.ladle := rfl
@[simp] theorem State.modTp_vlt (t : Nat) (g : TapSt → TapSt) : (s.modTp t g).vlt = s.vlt := rfl
@[simp] theorem State.modTp_vq (t : Nat) (g : TapSt → TapSt) : (s.modTp t g).vq = s.vq := rfl
@[simp] theorem State.modTp_dfl (t : Nat) (g : TapSt → TapSt) : (s.modTp t g).dfl = s.dfl := rfl
@[simp] theorem State.modTp_dmc (t : Nat) (g : TapSt → TapSt) : (s.modTp t g).dmc = s.dmc := rfl
@[simp] theorem State.modTp_flash (t : Nat) (g : TapSt → TapSt) : (s.modTp t g).flash = s.flash := rfl
@[simp] theorem State.modTp_pwr (t : Nat) (g : TapSt → TapSt) : (s.modTp t g).pwr = s.pwr := rfl
@[simp] theorem State.modTp_cdc (t : Nat) (g : TapSt → TapSt) : (s.modTp t g).cdc = s.cdc := rfl
@[simp] theorem State.modTp_cmp (t : Nat) (g : TapSt → TapSt) : (s.modTp t g).cmp = s.cmp := rfl
@[simp] theorem State.modTp_dsp (t : Nat) (g : TapSt → TapSt) : (s.modTp t g).dsp = s.dsp := rfl
@[simp] theorem State.modTp_aud (t : Nat) (g : TapSt → TapSt) : (s.modTp t g).aud = s.aud := rfl
@[simp] theorem State.modTp_tim (t : Nat) (g : TapSt → TapSt) : (s.modTp t g).tim = s.tim := rfl
@[simp] theorem State.modTp_tst (t : Nat) (g : TapSt → TapSt) : (s.modTp t g).tst = s.tst := rfl
@[simp] theorem State.modTp_net (t : Nat) (g : TapSt → TapSt) : (s.modTp t g).net = s.net := rfl
@[simp] theorem State.modTp_out (t : Nat) (g : TapSt → TapSt) : (s.modTp t g).out = s.out := rfl
@[simp] theorem State.modTp_freeCtr (t : Nat) (g : TapSt → TapSt) : (s.modTp t g).freeCtr = s.freeCtr := rfl
@[simp] theorem State.modTp_pending (t : Nat) (g : TapSt → TapSt) : (s.modTp t g).pending = s.pending := rfl
@[simp] theorem State.modTp_tap (t : Nat) (g : TapSt → TapSt) : (s.modTp t g).tap = s.tap.setIfInBounds t (g (s.tp t)) := rfl
@[simp] theorem State.modTp_rd (t : Nat) (g : TapSt → TapSt) (r : Nat) : (s.modTp t g).rd r = s.rd r := rfl
@[simp] theorem State.modTp_rn (t : Nat) (g : TapSt → TapSt) (r : Nat) : (s.modTp t g).rn r = s.rn r := rfl
@[simp] theorem State.modTp_f (t : Nat) (g : TapSt → TapSt) (y : Fld) : (s.modTp t g).f y = s.f y := rfl
@[simp] theorem State.modTp_on (t : Nat) (g : TapSt → TapSt) (y : Fld) : (s.modTp t g).on y = s.on y := rfl
@[simp] theorem State.modTp_bit (t : Nat) (g : TapSt → TapSt) (y : Fld) (j : Nat) : (s.modTp t g).bit y j = s.bit y j := rfl

/-! ### State.modLn -/

@[simp] theorem State.modLn_regs (l : Nat) (g : LaneSt → LaneSt) : (s.modLn l g).regs = s.regs := rfl
@[simp] theorem State.modLn_latch (l : Nat) (g : LaneSt → LaneSt) : (s.modLn l g).latch = s.latch := rfl
@[simp] theorem State.modLn_mem (l : Nat) (g : LaneSt → LaneSt) : (s.modLn l g).mem = s.mem := rfl
@[simp] theorem State.modLn_host (l : Nat) (g : LaneSt → LaneSt) : (s.modLn l g).host = s.host := rfl
@[simp] theorem State.modLn_bar2 (l : Nat) (g : LaneSt → LaneSt) : (s.modLn l g).bar2 = s.bar2 := rfl
@[simp] theorem State.modLn_dev (l : Nat) (g : LaneSt → LaneSt) : (s.modLn l g).dev = s.dev := rfl
@[simp] theorem State.modLn_cmd (l : Nat) (g : LaneSt → LaneSt) : (s.modLn l g).cmd = s.cmd := rfl
@[simp] theorem State.modLn_evt (l : Nat) (g : LaneSt → LaneSt) : (s.modLn l g).evt = s.evt := rfl
@[simp] theorem State.modLn_cxl (l : Nat) (g : LaneSt → LaneSt) : (s.modLn l g).cxl = s.cxl := rfl
@[simp] theorem State.modLn_mbx (l : Nat) (g : LaneSt → LaneSt) : (s.modLn l g).mbx = s.mbx := rfl
@[simp] theorem State.modLn_dlt (l : Nat) (g : LaneSt → LaneSt) : (s.modLn l g).dlt = s.dlt := rfl
@[simp] theorem State.modLn_port (l : Nat) (g : LaneSt → LaneSt) : (s.modLn l g).port = s.port := rfl
@[simp] theorem State.modLn_raw (l : Nat) (g : LaneSt → LaneSt) : (s.modLn l g).raw = s.raw := rfl
@[simp] theorem State.modLn_ctx (l : Nat) (g : LaneSt → LaneSt) : (s.modLn l g).ctx = s.ctx := rfl
@[simp] theorem State.modLn_ladle (l : Nat) (g : LaneSt → LaneSt) : (s.modLn l g).ladle = s.ladle := rfl
@[simp] theorem State.modLn_tap (l : Nat) (g : LaneSt → LaneSt) : (s.modLn l g).tap = s.tap := rfl
@[simp] theorem State.modLn_vlt (l : Nat) (g : LaneSt → LaneSt) : (s.modLn l g).vlt = s.vlt := rfl
@[simp] theorem State.modLn_vq (l : Nat) (g : LaneSt → LaneSt) : (s.modLn l g).vq = s.vq := rfl
@[simp] theorem State.modLn_dfl (l : Nat) (g : LaneSt → LaneSt) : (s.modLn l g).dfl = s.dfl := rfl
@[simp] theorem State.modLn_dmc (l : Nat) (g : LaneSt → LaneSt) : (s.modLn l g).dmc = s.dmc := rfl
@[simp] theorem State.modLn_flash (l : Nat) (g : LaneSt → LaneSt) : (s.modLn l g).flash = s.flash := rfl
@[simp] theorem State.modLn_pwr (l : Nat) (g : LaneSt → LaneSt) : (s.modLn l g).pwr = s.pwr := rfl
@[simp] theorem State.modLn_cdc (l : Nat) (g : LaneSt → LaneSt) : (s.modLn l g).cdc = s.cdc := rfl
@[simp] theorem State.modLn_cmp (l : Nat) (g : LaneSt → LaneSt) : (s.modLn l g).cmp = s.cmp := rfl
@[simp] theorem State.modLn_dsp (l : Nat) (g : LaneSt → LaneSt) : (s.modLn l g).dsp = s.dsp := rfl
@[simp] theorem State.modLn_aud (l : Nat) (g : LaneSt → LaneSt) : (s.modLn l g).aud = s.aud := rfl
@[simp] theorem State.modLn_tim (l : Nat) (g : LaneSt → LaneSt) : (s.modLn l g).tim = s.tim := rfl
@[simp] theorem State.modLn_tst (l : Nat) (g : LaneSt → LaneSt) : (s.modLn l g).tst = s.tst := rfl
@[simp] theorem State.modLn_net (l : Nat) (g : LaneSt → LaneSt) : (s.modLn l g).net = s.net := rfl
@[simp] theorem State.modLn_out (l : Nat) (g : LaneSt → LaneSt) : (s.modLn l g).out = s.out := rfl
@[simp] theorem State.modLn_freeCtr (l : Nat) (g : LaneSt → LaneSt) : (s.modLn l g).freeCtr = s.freeCtr := rfl
@[simp] theorem State.modLn_pending (l : Nat) (g : LaneSt → LaneSt) : (s.modLn l g).pending = s.pending := rfl
@[simp] theorem State.modLn_lane (l : Nat) (g : LaneSt → LaneSt) : (s.modLn l g).lane = s.lane.setIfInBounds l (g (s.ln l)) := rfl
@[simp] theorem State.modLn_rd (l : Nat) (g : LaneSt → LaneSt) (r : Nat) : (s.modLn l g).rd r = s.rd r := rfl
@[simp] theorem State.modLn_rn (l : Nat) (g : LaneSt → LaneSt) (r : Nat) : (s.modLn l g).rn r = s.rn r := rfl
@[simp] theorem State.modLn_f (l : Nat) (g : LaneSt → LaneSt) (y : Fld) : (s.modLn l g).f y = s.f y := rfl
@[simp] theorem State.modLn_on (l : Nat) (g : LaneSt → LaneSt) (y : Fld) : (s.modLn l g).on y = s.on y := rfl
@[simp] theorem State.modLn_bit (l : Nat) (g : LaneSt → LaneSt) (y : Fld) (j : Nat) : (s.modLn l g).bit y j = s.bit y j := rfl

/-! ### State.modDfl -/

@[simp] theorem State.modDfl_regs (g : DflSt → DflSt) : (s.modDfl g).regs = s.regs := rfl
@[simp] theorem State.modDfl_latch (g : DflSt → DflSt) : (s.modDfl g).latch = s.latch := rfl
@[simp] theorem State.modDfl_mem (g : DflSt → DflSt) : (s.modDfl g).mem = s.mem := rfl
@[simp] theorem State.modDfl_host (g : DflSt → DflSt) : (s.modDfl g).host = s.host := rfl
@[simp] theorem State.modDfl_bar2 (g : DflSt → DflSt) : (s.modDfl g).bar2 = s.bar2 := rfl
@[simp] theorem State.modDfl_dev (g : DflSt → DflSt) : (s.modDfl g).dev = s.dev := rfl
@[simp] theorem State.modDfl_cmd (g : DflSt → DflSt) : (s.modDfl g).cmd = s.cmd := rfl
@[simp] theorem State.modDfl_evt (g : DflSt → DflSt) : (s.modDfl g).evt = s.evt := rfl
@[simp] theorem State.modDfl_cxl (g : DflSt → DflSt) : (s.modDfl g).cxl = s.cxl := rfl
@[simp] theorem State.modDfl_mbx (g : DflSt → DflSt) : (s.modDfl g).mbx = s.mbx := rfl
@[simp] theorem State.modDfl_dlt (g : DflSt → DflSt) : (s.modDfl g).dlt = s.dlt := rfl
@[simp] theorem State.modDfl_lane (g : DflSt → DflSt) : (s.modDfl g).lane = s.lane := rfl
@[simp] theorem State.modDfl_port (g : DflSt → DflSt) : (s.modDfl g).port = s.port := rfl
@[simp] theorem State.modDfl_raw (g : DflSt → DflSt) : (s.modDfl g).raw = s.raw := rfl
@[simp] theorem State.modDfl_ctx (g : DflSt → DflSt) : (s.modDfl g).ctx = s.ctx := rfl
@[simp] theorem State.modDfl_ladle (g : DflSt → DflSt) : (s.modDfl g).ladle = s.ladle := rfl
@[simp] theorem State.modDfl_tap (g : DflSt → DflSt) : (s.modDfl g).tap = s.tap := rfl
@[simp] theorem State.modDfl_vlt (g : DflSt → DflSt) : (s.modDfl g).vlt = s.vlt := rfl
@[simp] theorem State.modDfl_vq (g : DflSt → DflSt) : (s.modDfl g).vq = s.vq := rfl
@[simp] theorem State.modDfl_dmc (g : DflSt → DflSt) : (s.modDfl g).dmc = s.dmc := rfl
@[simp] theorem State.modDfl_flash (g : DflSt → DflSt) : (s.modDfl g).flash = s.flash := rfl
@[simp] theorem State.modDfl_pwr (g : DflSt → DflSt) : (s.modDfl g).pwr = s.pwr := rfl
@[simp] theorem State.modDfl_cdc (g : DflSt → DflSt) : (s.modDfl g).cdc = s.cdc := rfl
@[simp] theorem State.modDfl_cmp (g : DflSt → DflSt) : (s.modDfl g).cmp = s.cmp := rfl
@[simp] theorem State.modDfl_dsp (g : DflSt → DflSt) : (s.modDfl g).dsp = s.dsp := rfl
@[simp] theorem State.modDfl_aud (g : DflSt → DflSt) : (s.modDfl g).aud = s.aud := rfl
@[simp] theorem State.modDfl_tim (g : DflSt → DflSt) : (s.modDfl g).tim = s.tim := rfl
@[simp] theorem State.modDfl_tst (g : DflSt → DflSt) : (s.modDfl g).tst = s.tst := rfl
@[simp] theorem State.modDfl_net (g : DflSt → DflSt) : (s.modDfl g).net = s.net := rfl
@[simp] theorem State.modDfl_out (g : DflSt → DflSt) : (s.modDfl g).out = s.out := rfl
@[simp] theorem State.modDfl_freeCtr (g : DflSt → DflSt) : (s.modDfl g).freeCtr = s.freeCtr := rfl
@[simp] theorem State.modDfl_pending (g : DflSt → DflSt) : (s.modDfl g).pending = s.pending := rfl
@[simp] theorem State.modDfl_dfl (g : DflSt → DflSt) : (s.modDfl g).dfl = g s.dfl := rfl
@[simp] theorem State.modDfl_rd (g : DflSt → DflSt) (r : Nat) : (s.modDfl g).rd r = s.rd r := rfl
@[simp] theorem State.modDfl_rn (g : DflSt → DflSt) (r : Nat) : (s.modDfl g).rn r = s.rn r := rfl
@[simp] theorem State.modDfl_f (g : DflSt → DflSt) (y : Fld) : (s.modDfl g).f y = s.f y := rfl
@[simp] theorem State.modDfl_on (g : DflSt → DflSt) (y : Fld) : (s.modDfl g).on y = s.on y := rfl
@[simp] theorem State.modDfl_bit (g : DflSt → DflSt) (y : Fld) (j : Nat) : (s.modDfl g).bit y j = s.bit y j := rfl

/-! ### State.modNet -/

@[simp] theorem State.modNet_regs (g : NetSt → NetSt) : (s.modNet g).regs = s.regs := rfl
@[simp] theorem State.modNet_latch (g : NetSt → NetSt) : (s.modNet g).latch = s.latch := rfl
@[simp] theorem State.modNet_mem (g : NetSt → NetSt) : (s.modNet g).mem = s.mem := rfl
@[simp] theorem State.modNet_host (g : NetSt → NetSt) : (s.modNet g).host = s.host := rfl
@[simp] theorem State.modNet_bar2 (g : NetSt → NetSt) : (s.modNet g).bar2 = s.bar2 := rfl
@[simp] theorem State.modNet_dev (g : NetSt → NetSt) : (s.modNet g).dev = s.dev := rfl
@[simp] theorem State.modNet_cmd (g : NetSt → NetSt) : (s.modNet g).cmd = s.cmd := rfl
@[simp] theorem State.modNet_evt (g : NetSt → NetSt) : (s.modNet g).evt = s.evt := rfl
@[simp] theorem State.modNet_cxl (g : NetSt → NetSt) : (s.modNet g).cxl = s.cxl := rfl
@[simp] theorem State.modNet_mbx (g : NetSt → NetSt) : (s.modNet g).mbx = s.mbx := rfl
@[simp] theorem State.modNet_dlt (g : NetSt → NetSt) : (s.modNet g).dlt = s.dlt := rfl
@[simp] theorem State.modNet_lane (g : NetSt → NetSt) : (s.modNet g).lane = s.lane := rfl
@[simp] theorem State.modNet_port (g : NetSt → NetSt) : (s.modNet g).port = s.port := rfl
@[simp] theorem State.modNet_raw (g : NetSt → NetSt) : (s.modNet g).raw = s.raw := rfl
@[simp] theorem State.modNet_ctx (g : NetSt → NetSt) : (s.modNet g).ctx = s.ctx := rfl
@[simp] theorem State.modNet_ladle (g : NetSt → NetSt) : (s.modNet g).ladle = s.ladle := rfl
@[simp] theorem State.modNet_tap (g : NetSt → NetSt) : (s.modNet g).tap = s.tap := rfl
@[simp] theorem State.modNet_vlt (g : NetSt → NetSt) : (s.modNet g).vlt = s.vlt := rfl
@[simp] theorem State.modNet_vq (g : NetSt → NetSt) : (s.modNet g).vq = s.vq := rfl
@[simp] theorem State.modNet_dfl (g : NetSt → NetSt) : (s.modNet g).dfl = s.dfl := rfl
@[simp] theorem State.modNet_dmc (g : NetSt → NetSt) : (s.modNet g).dmc = s.dmc := rfl
@[simp] theorem State.modNet_flash (g : NetSt → NetSt) : (s.modNet g).flash = s.flash := rfl
@[simp] theorem State.modNet_pwr (g : NetSt → NetSt) : (s.modNet g).pwr = s.pwr := rfl
@[simp] theorem State.modNet_cdc (g : NetSt → NetSt) : (s.modNet g).cdc = s.cdc := rfl
@[simp] theorem State.modNet_cmp (g : NetSt → NetSt) : (s.modNet g).cmp = s.cmp := rfl
@[simp] theorem State.modNet_dsp (g : NetSt → NetSt) : (s.modNet g).dsp = s.dsp := rfl
@[simp] theorem State.modNet_aud (g : NetSt → NetSt) : (s.modNet g).aud = s.aud := rfl
@[simp] theorem State.modNet_tim (g : NetSt → NetSt) : (s.modNet g).tim = s.tim := rfl
@[simp] theorem State.modNet_tst (g : NetSt → NetSt) : (s.modNet g).tst = s.tst := rfl
@[simp] theorem State.modNet_out (g : NetSt → NetSt) : (s.modNet g).out = s.out := rfl
@[simp] theorem State.modNet_freeCtr (g : NetSt → NetSt) : (s.modNet g).freeCtr = s.freeCtr := rfl
@[simp] theorem State.modNet_pending (g : NetSt → NetSt) : (s.modNet g).pending = s.pending := rfl
@[simp] theorem State.modNet_net (g : NetSt → NetSt) : (s.modNet g).net = g s.net := rfl
@[simp] theorem State.modNet_rd (g : NetSt → NetSt) (r : Nat) : (s.modNet g).rd r = s.rd r := rfl
@[simp] theorem State.modNet_rn (g : NetSt → NetSt) (r : Nat) : (s.modNet g).rn r = s.rn r := rfl
@[simp] theorem State.modNet_f (g : NetSt → NetSt) (y : Fld) : (s.modNet g).f y = s.f y := rfl
@[simp] theorem State.modNet_on (g : NetSt → NetSt) (y : Fld) : (s.modNet g).on y = s.on y := rfl
@[simp] theorem State.modNet_bit (g : NetSt → NetSt) (y : Fld) (j : Nat) : (s.modNet g).bit y j = s.bit y j := rfl

/-! ### State.modTst -/

@[simp] theorem State.modTst_regs (g : TstSt → TstSt) : (s.modTst g).regs = s.regs := rfl
@[simp] theorem State.modTst_latch (g : TstSt → TstSt) : (s.modTst g).latch = s.latch := rfl
@[simp] theorem State.modTst_mem (g : TstSt → TstSt) : (s.modTst g).mem = s.mem := rfl
@[simp] theorem State.modTst_host (g : TstSt → TstSt) : (s.modTst g).host = s.host := rfl
@[simp] theorem State.modTst_bar2 (g : TstSt → TstSt) : (s.modTst g).bar2 = s.bar2 := rfl
@[simp] theorem State.modTst_dev (g : TstSt → TstSt) : (s.modTst g).dev = s.dev := rfl
@[simp] theorem State.modTst_cmd (g : TstSt → TstSt) : (s.modTst g).cmd = s.cmd := rfl
@[simp] theorem State.modTst_evt (g : TstSt → TstSt) : (s.modTst g).evt = s.evt := rfl
@[simp] theorem State.modTst_cxl (g : TstSt → TstSt) : (s.modTst g).cxl = s.cxl := rfl
@[simp] theorem State.modTst_mbx (g : TstSt → TstSt) : (s.modTst g).mbx = s.mbx := rfl
@[simp] theorem State.modTst_dlt (g : TstSt → TstSt) : (s.modTst g).dlt = s.dlt := rfl
@[simp] theorem State.modTst_lane (g : TstSt → TstSt) : (s.modTst g).lane = s.lane := rfl
@[simp] theorem State.modTst_port (g : TstSt → TstSt) : (s.modTst g).port = s.port := rfl
@[simp] theorem State.modTst_raw (g : TstSt → TstSt) : (s.modTst g).raw = s.raw := rfl
@[simp] theorem State.modTst_ctx (g : TstSt → TstSt) : (s.modTst g).ctx = s.ctx := rfl
@[simp] theorem State.modTst_ladle (g : TstSt → TstSt) : (s.modTst g).ladle = s.ladle := rfl
@[simp] theorem State.modTst_tap (g : TstSt → TstSt) : (s.modTst g).tap = s.tap := rfl
@[simp] theorem State.modTst_vlt (g : TstSt → TstSt) : (s.modTst g).vlt = s.vlt := rfl
@[simp] theorem State.modTst_vq (g : TstSt → TstSt) : (s.modTst g).vq = s.vq := rfl
@[simp] theorem State.modTst_dfl (g : TstSt → TstSt) : (s.modTst g).dfl = s.dfl := rfl
@[simp] theorem State.modTst_dmc (g : TstSt → TstSt) : (s.modTst g).dmc = s.dmc := rfl
@[simp] theorem State.modTst_flash (g : TstSt → TstSt) : (s.modTst g).flash = s.flash := rfl
@[simp] theorem State.modTst_pwr (g : TstSt → TstSt) : (s.modTst g).pwr = s.pwr := rfl
@[simp] theorem State.modTst_cdc (g : TstSt → TstSt) : (s.modTst g).cdc = s.cdc := rfl
@[simp] theorem State.modTst_cmp (g : TstSt → TstSt) : (s.modTst g).cmp = s.cmp := rfl
@[simp] theorem State.modTst_dsp (g : TstSt → TstSt) : (s.modTst g).dsp = s.dsp := rfl
@[simp] theorem State.modTst_aud (g : TstSt → TstSt) : (s.modTst g).aud = s.aud := rfl
@[simp] theorem State.modTst_tim (g : TstSt → TstSt) : (s.modTst g).tim = s.tim := rfl
@[simp] theorem State.modTst_net (g : TstSt → TstSt) : (s.modTst g).net = s.net := rfl
@[simp] theorem State.modTst_out (g : TstSt → TstSt) : (s.modTst g).out = s.out := rfl
@[simp] theorem State.modTst_freeCtr (g : TstSt → TstSt) : (s.modTst g).freeCtr = s.freeCtr := rfl
@[simp] theorem State.modTst_pending (g : TstSt → TstSt) : (s.modTst g).pending = s.pending := rfl
@[simp] theorem State.modTst_tst (g : TstSt → TstSt) : (s.modTst g).tst = g s.tst := rfl
@[simp] theorem State.modTst_rd (g : TstSt → TstSt) (r : Nat) : (s.modTst g).rd r = s.rd r := rfl
@[simp] theorem State.modTst_rn (g : TstSt → TstSt) (r : Nat) : (s.modTst g).rn r = s.rn r := rfl
@[simp] theorem State.modTst_f (g : TstSt → TstSt) (y : Fld) : (s.modTst g).f y = s.f y := rfl
@[simp] theorem State.modTst_on (g : TstSt → TstSt) (y : Fld) : (s.modTst g).on y = s.on y := rfl
@[simp] theorem State.modTst_bit (g : TstSt → TstSt) (y : Fld) (j : Nat) : (s.modTst g).bit y j = s.bit y j := rfl

/-! ### State.modVlt -/

@[simp] theorem State.modVlt_regs (g : VltSt → VltSt) : (s.modVlt g).regs = s.regs := rfl
@[simp] theorem State.modVlt_latch (g : VltSt → VltSt) : (s.modVlt g).latch = s.latch := rfl
@[simp] theorem State.modVlt_mem (g : VltSt → VltSt) : (s.modVlt g).mem = s.mem := rfl
@[simp] theorem State.modVlt_host (g : VltSt → VltSt) : (s.modVlt g).host = s.host := rfl
@[simp] theorem State.modVlt_bar2 (g : VltSt → VltSt) : (s.modVlt g).bar2 = s.bar2 := rfl
@[simp] theorem State.modVlt_dev (g : VltSt → VltSt) : (s.modVlt g).dev = s.dev := rfl
@[simp] theorem State.modVlt_cmd (g : VltSt → VltSt) : (s.modVlt g).cmd = s.cmd := rfl
@[simp] theorem State.modVlt_evt (g : VltSt → VltSt) : (s.modVlt g).evt = s.evt := rfl
@[simp] theorem State.modVlt_cxl (g : VltSt → VltSt) : (s.modVlt g).cxl = s.cxl := rfl
@[simp] theorem State.modVlt_mbx (g : VltSt → VltSt) : (s.modVlt g).mbx = s.mbx := rfl
@[simp] theorem State.modVlt_dlt (g : VltSt → VltSt) : (s.modVlt g).dlt = s.dlt := rfl
@[simp] theorem State.modVlt_lane (g : VltSt → VltSt) : (s.modVlt g).lane = s.lane := rfl
@[simp] theorem State.modVlt_port (g : VltSt → VltSt) : (s.modVlt g).port = s.port := rfl
@[simp] theorem State.modVlt_raw (g : VltSt → VltSt) : (s.modVlt g).raw = s.raw := rfl
@[simp] theorem State.modVlt_ctx (g : VltSt → VltSt) : (s.modVlt g).ctx = s.ctx := rfl
@[simp] theorem State.modVlt_ladle (g : VltSt → VltSt) : (s.modVlt g).ladle = s.ladle := rfl
@[simp] theorem State.modVlt_tap (g : VltSt → VltSt) : (s.modVlt g).tap = s.tap := rfl
@[simp] theorem State.modVlt_vq (g : VltSt → VltSt) : (s.modVlt g).vq = s.vq := rfl
@[simp] theorem State.modVlt_dfl (g : VltSt → VltSt) : (s.modVlt g).dfl = s.dfl := rfl
@[simp] theorem State.modVlt_dmc (g : VltSt → VltSt) : (s.modVlt g).dmc = s.dmc := rfl
@[simp] theorem State.modVlt_flash (g : VltSt → VltSt) : (s.modVlt g).flash = s.flash := rfl
@[simp] theorem State.modVlt_pwr (g : VltSt → VltSt) : (s.modVlt g).pwr = s.pwr := rfl
@[simp] theorem State.modVlt_cdc (g : VltSt → VltSt) : (s.modVlt g).cdc = s.cdc := rfl
@[simp] theorem State.modVlt_cmp (g : VltSt → VltSt) : (s.modVlt g).cmp = s.cmp := rfl
@[simp] theorem State.modVlt_dsp (g : VltSt → VltSt) : (s.modVlt g).dsp = s.dsp := rfl
@[simp] theorem State.modVlt_aud (g : VltSt → VltSt) : (s.modVlt g).aud = s.aud := rfl
@[simp] theorem State.modVlt_tim (g : VltSt → VltSt) : (s.modVlt g).tim = s.tim := rfl
@[simp] theorem State.modVlt_tst (g : VltSt → VltSt) : (s.modVlt g).tst = s.tst := rfl
@[simp] theorem State.modVlt_net (g : VltSt → VltSt) : (s.modVlt g).net = s.net := rfl
@[simp] theorem State.modVlt_out (g : VltSt → VltSt) : (s.modVlt g).out = s.out := rfl
@[simp] theorem State.modVlt_freeCtr (g : VltSt → VltSt) : (s.modVlt g).freeCtr = s.freeCtr := rfl
@[simp] theorem State.modVlt_pending (g : VltSt → VltSt) : (s.modVlt g).pending = s.pending := rfl
@[simp] theorem State.modVlt_vlt (g : VltSt → VltSt) : (s.modVlt g).vlt = g s.vlt := rfl
@[simp] theorem State.modVlt_rd (g : VltSt → VltSt) (r : Nat) : (s.modVlt g).rd r = s.rd r := rfl
@[simp] theorem State.modVlt_rn (g : VltSt → VltSt) (r : Nat) : (s.modVlt g).rn r = s.rn r := rfl
@[simp] theorem State.modVlt_f (g : VltSt → VltSt) (y : Fld) : (s.modVlt g).f y = s.f y := rfl
@[simp] theorem State.modVlt_on (g : VltSt → VltSt) (y : Fld) : (s.modVlt g).on y = s.on y := rfl
@[simp] theorem State.modVlt_bit (g : VltSt → VltSt) (y : Fld) (j : Nat) : (s.modVlt g).bit y j = s.bit y j := rfl

/-! ### State.modVq -/

@[simp] theorem State.modVq_regs (g : VqSt → VqSt) : (s.modVq g).regs = s.regs := rfl
@[simp] theorem State.modVq_latch (g : VqSt → VqSt) : (s.modVq g).latch = s.latch := rfl
@[simp] theorem State.modVq_mem (g : VqSt → VqSt) : (s.modVq g).mem = s.mem := rfl
@[simp] theorem State.modVq_host (g : VqSt → VqSt) : (s.modVq g).host = s.host := rfl
@[simp] theorem State.modVq_bar2 (g : VqSt → VqSt) : (s.modVq g).bar2 = s.bar2 := rfl
@[simp] theorem State.modVq_dev (g : VqSt → VqSt) : (s.modVq g).dev = s.dev := rfl
@[simp] theorem State.modVq_cmd (g : VqSt → VqSt) : (s.modVq g).cmd = s.cmd := rfl
@[simp] theorem State.modVq_evt (g : VqSt → VqSt) : (s.modVq g).evt = s.evt := rfl
@[simp] theorem State.modVq_cxl (g : VqSt → VqSt) : (s.modVq g).cxl = s.cxl := rfl
@[simp] theorem State.modVq_mbx (g : VqSt → VqSt) : (s.modVq g).mbx = s.mbx := rfl
@[simp] theorem State.modVq_dlt (g : VqSt → VqSt) : (s.modVq g).dlt = s.dlt := rfl
@[simp] theorem State.modVq_lane (g : VqSt → VqSt) : (s.modVq g).lane = s.lane := rfl
@[simp] theorem State.modVq_port (g : VqSt → VqSt) : (s.modVq g).port = s.port := rfl
@[simp] theorem State.modVq_raw (g : VqSt → VqSt) : (s.modVq g).raw = s.raw := rfl
@[simp] theorem State.modVq_ctx (g : VqSt → VqSt) : (s.modVq g).ctx = s.ctx := rfl
@[simp] theorem State.modVq_ladle (g : VqSt → VqSt) : (s.modVq g).ladle = s.ladle := rfl
@[simp] theorem State.modVq_tap (g : VqSt → VqSt) : (s.modVq g).tap = s.tap := rfl
@[simp] theorem State.modVq_vlt (g : VqSt → VqSt) : (s.modVq g).vlt = s.vlt := rfl
@[simp] theorem State.modVq_dfl (g : VqSt → VqSt) : (s.modVq g).dfl = s.dfl := rfl
@[simp] theorem State.modVq_dmc (g : VqSt → VqSt) : (s.modVq g).dmc = s.dmc := rfl
@[simp] theorem State.modVq_flash (g : VqSt → VqSt) : (s.modVq g).flash = s.flash := rfl
@[simp] theorem State.modVq_pwr (g : VqSt → VqSt) : (s.modVq g).pwr = s.pwr := rfl
@[simp] theorem State.modVq_cdc (g : VqSt → VqSt) : (s.modVq g).cdc = s.cdc := rfl
@[simp] theorem State.modVq_cmp (g : VqSt → VqSt) : (s.modVq g).cmp = s.cmp := rfl
@[simp] theorem State.modVq_dsp (g : VqSt → VqSt) : (s.modVq g).dsp = s.dsp := rfl
@[simp] theorem State.modVq_aud (g : VqSt → VqSt) : (s.modVq g).aud = s.aud := rfl
@[simp] theorem State.modVq_tim (g : VqSt → VqSt) : (s.modVq g).tim = s.tim := rfl
@[simp] theorem State.modVq_tst (g : VqSt → VqSt) : (s.modVq g).tst = s.tst := rfl
@[simp] theorem State.modVq_net (g : VqSt → VqSt) : (s.modVq g).net = s.net := rfl
@[simp] theorem State.modVq_out (g : VqSt → VqSt) : (s.modVq g).out = s.out := rfl
@[simp] theorem State.modVq_freeCtr (g : VqSt → VqSt) : (s.modVq g).freeCtr = s.freeCtr := rfl
@[simp] theorem State.modVq_pending (g : VqSt → VqSt) : (s.modVq g).pending = s.pending := rfl
@[simp] theorem State.modVq_vq (g : VqSt → VqSt) : (s.modVq g).vq = g s.vq := rfl
@[simp] theorem State.modVq_rd (g : VqSt → VqSt) (r : Nat) : (s.modVq g).rd r = s.rd r := rfl
@[simp] theorem State.modVq_rn (g : VqSt → VqSt) (r : Nat) : (s.modVq g).rn r = s.rn r := rfl
@[simp] theorem State.modVq_f (g : VqSt → VqSt) (y : Fld) : (s.modVq g).f y = s.f y := rfl
@[simp] theorem State.modVq_on (g : VqSt → VqSt) (y : Fld) : (s.modVq g).on y = s.on y := rfl
@[simp] theorem State.modVq_bit (g : VqSt → VqSt) (y : Fld) (j : Nat) : (s.modVq g).bit y j = s.bit y j := rfl

/-! ### State.modVp -/

@[simp] theorem State.modVp_regs (n : Nat) (g : VqPair → VqPair) : (s.modVp n g).regs = s.regs := rfl
@[simp] theorem State.modVp_latch (n : Nat) (g : VqPair → VqPair) : (s.modVp n g).latch = s.latch := rfl
@[simp] theorem State.modVp_mem (n : Nat) (g : VqPair → VqPair) : (s.modVp n g).mem = s.mem := rfl
@[simp] theorem State.modVp_host (n : Nat) (g : VqPair → VqPair) : (s.modVp n g).host = s.host := rfl
@[simp] theorem State.modVp_bar2 (n : Nat) (g : VqPair → VqPair) : (s.modVp n g).bar2 = s.bar2 := rfl
@[simp] theorem State.modVp_dev (n : Nat) (g : VqPair → VqPair) : (s.modVp n g).dev = s.dev := rfl
@[simp] theorem State.modVp_cmd (n : Nat) (g : VqPair → VqPair) : (s.modVp n g).cmd = s.cmd := rfl
@[simp] theorem State.modVp_evt (n : Nat) (g : VqPair → VqPair) : (s.modVp n g).evt = s.evt := rfl
@[simp] theorem State.modVp_cxl (n : Nat) (g : VqPair → VqPair) : (s.modVp n g).cxl = s.cxl := rfl
@[simp] theorem State.modVp_mbx (n : Nat) (g : VqPair → VqPair) : (s.modVp n g).mbx = s.mbx := rfl
@[simp] theorem State.modVp_dlt (n : Nat) (g : VqPair → VqPair) : (s.modVp n g).dlt = s.dlt := rfl
@[simp] theorem State.modVp_lane (n : Nat) (g : VqPair → VqPair) : (s.modVp n g).lane = s.lane := rfl
@[simp] theorem State.modVp_port (n : Nat) (g : VqPair → VqPair) : (s.modVp n g).port = s.port := rfl
@[simp] theorem State.modVp_raw (n : Nat) (g : VqPair → VqPair) : (s.modVp n g).raw = s.raw := rfl
@[simp] theorem State.modVp_ctx (n : Nat) (g : VqPair → VqPair) : (s.modVp n g).ctx = s.ctx := rfl
@[simp] theorem State.modVp_ladle (n : Nat) (g : VqPair → VqPair) : (s.modVp n g).ladle = s.ladle := rfl
@[simp] theorem State.modVp_tap (n : Nat) (g : VqPair → VqPair) : (s.modVp n g).tap = s.tap := rfl
@[simp] theorem State.modVp_vlt (n : Nat) (g : VqPair → VqPair) : (s.modVp n g).vlt = s.vlt := rfl
@[simp] theorem State.modVp_dfl (n : Nat) (g : VqPair → VqPair) : (s.modVp n g).dfl = s.dfl := rfl
@[simp] theorem State.modVp_dmc (n : Nat) (g : VqPair → VqPair) : (s.modVp n g).dmc = s.dmc := rfl
@[simp] theorem State.modVp_flash (n : Nat) (g : VqPair → VqPair) : (s.modVp n g).flash = s.flash := rfl
@[simp] theorem State.modVp_pwr (n : Nat) (g : VqPair → VqPair) : (s.modVp n g).pwr = s.pwr := rfl
@[simp] theorem State.modVp_cdc (n : Nat) (g : VqPair → VqPair) : (s.modVp n g).cdc = s.cdc := rfl
@[simp] theorem State.modVp_cmp (n : Nat) (g : VqPair → VqPair) : (s.modVp n g).cmp = s.cmp := rfl
@[simp] theorem State.modVp_dsp (n : Nat) (g : VqPair → VqPair) : (s.modVp n g).dsp = s.dsp := rfl
@[simp] theorem State.modVp_aud (n : Nat) (g : VqPair → VqPair) : (s.modVp n g).aud = s.aud := rfl
@[simp] theorem State.modVp_tim (n : Nat) (g : VqPair → VqPair) : (s.modVp n g).tim = s.tim := rfl
@[simp] theorem State.modVp_tst (n : Nat) (g : VqPair → VqPair) : (s.modVp n g).tst = s.tst := rfl
@[simp] theorem State.modVp_net (n : Nat) (g : VqPair → VqPair) : (s.modVp n g).net = s.net := rfl
@[simp] theorem State.modVp_out (n : Nat) (g : VqPair → VqPair) : (s.modVp n g).out = s.out := rfl
@[simp] theorem State.modVp_freeCtr (n : Nat) (g : VqPair → VqPair) : (s.modVp n g).freeCtr = s.freeCtr := rfl
@[simp] theorem State.modVp_pending (n : Nat) (g : VqPair → VqPair) : (s.modVp n g).pending = s.pending := rfl
@[simp] theorem State.modVp_rd (n : Nat) (g : VqPair → VqPair) (r : Nat) : (s.modVp n g).rd r = s.rd r := rfl
@[simp] theorem State.modVp_rn (n : Nat) (g : VqPair → VqPair) (r : Nat) : (s.modVp n g).rn r = s.rn r := rfl
@[simp] theorem State.modVp_f (n : Nat) (g : VqPair → VqPair) (y : Fld) : (s.modVp n g).f y = s.f y := rfl
@[simp] theorem State.modVp_on (n : Nat) (g : VqPair → VqPair) (y : Fld) : (s.modVp n g).on y = s.on y := rfl
@[simp] theorem State.modVp_bit (n : Nat) (g : VqPair → VqPair) (y : Fld) (j : Nat) : (s.modVp n g).bit y j = s.bit y j := rfl

/-! ### State.modEs -/

@[simp] theorem State.modEs_regs (i : Nat) (g : EncSt → EncSt) : (s.modEs i g).regs = s.regs := rfl
@[simp] theorem State.modEs_latch (i : Nat) (g : EncSt → EncSt) : (s.modEs i g).latch = s.latch := rfl
@[simp] theorem State.modEs_mem (i : Nat) (g : EncSt → EncSt) : (s.modEs i g).mem = s.mem := rfl
@[simp] theorem State.modEs_host (i : Nat) (g : EncSt → EncSt) : (s.modEs i g).host = s.host := rfl
@[simp] theorem State.modEs_bar2 (i : Nat) (g : EncSt → EncSt) : (s.modEs i g).bar2 = s.bar2 := rfl
@[simp] theorem State.modEs_dev (i : Nat) (g : EncSt → EncSt) : (s.modEs i g).dev = s.dev := rfl
@[simp] theorem State.modEs_cmd (i : Nat) (g : EncSt → EncSt) : (s.modEs i g).cmd = s.cmd := rfl
@[simp] theorem State.modEs_evt (i : Nat) (g : EncSt → EncSt) : (s.modEs i g).evt = s.evt := rfl
@[simp] theorem State.modEs_cxl (i : Nat) (g : EncSt → EncSt) : (s.modEs i g).cxl = s.cxl := rfl
@[simp] theorem State.modEs_mbx (i : Nat) (g : EncSt → EncSt) : (s.modEs i g).mbx = s.mbx := rfl
@[simp] theorem State.modEs_dlt (i : Nat) (g : EncSt → EncSt) : (s.modEs i g).dlt = s.dlt := rfl
@[simp] theorem State.modEs_lane (i : Nat) (g : EncSt → EncSt) : (s.modEs i g).lane = s.lane := rfl
@[simp] theorem State.modEs_port (i : Nat) (g : EncSt → EncSt) : (s.modEs i g).port = s.port := rfl
@[simp] theorem State.modEs_raw (i : Nat) (g : EncSt → EncSt) : (s.modEs i g).raw = s.raw := rfl
@[simp] theorem State.modEs_ctx (i : Nat) (g : EncSt → EncSt) : (s.modEs i g).ctx = s.ctx := rfl
@[simp] theorem State.modEs_ladle (i : Nat) (g : EncSt → EncSt) : (s.modEs i g).ladle = s.ladle := rfl
@[simp] theorem State.modEs_tap (i : Nat) (g : EncSt → EncSt) : (s.modEs i g).tap = s.tap := rfl
@[simp] theorem State.modEs_vlt (i : Nat) (g : EncSt → EncSt) : (s.modEs i g).vlt = s.vlt := rfl
@[simp] theorem State.modEs_vq (i : Nat) (g : EncSt → EncSt) : (s.modEs i g).vq = s.vq := rfl
@[simp] theorem State.modEs_dfl (i : Nat) (g : EncSt → EncSt) : (s.modEs i g).dfl = s.dfl := rfl
@[simp] theorem State.modEs_dmc (i : Nat) (g : EncSt → EncSt) : (s.modEs i g).dmc = s.dmc := rfl
@[simp] theorem State.modEs_flash (i : Nat) (g : EncSt → EncSt) : (s.modEs i g).flash = s.flash := rfl
@[simp] theorem State.modEs_pwr (i : Nat) (g : EncSt → EncSt) : (s.modEs i g).pwr = s.pwr := rfl
@[simp] theorem State.modEs_cmp (i : Nat) (g : EncSt → EncSt) : (s.modEs i g).cmp = s.cmp := rfl
@[simp] theorem State.modEs_dsp (i : Nat) (g : EncSt → EncSt) : (s.modEs i g).dsp = s.dsp := rfl
@[simp] theorem State.modEs_aud (i : Nat) (g : EncSt → EncSt) : (s.modEs i g).aud = s.aud := rfl
@[simp] theorem State.modEs_tim (i : Nat) (g : EncSt → EncSt) : (s.modEs i g).tim = s.tim := rfl
@[simp] theorem State.modEs_tst (i : Nat) (g : EncSt → EncSt) : (s.modEs i g).tst = s.tst := rfl
@[simp] theorem State.modEs_net (i : Nat) (g : EncSt → EncSt) : (s.modEs i g).net = s.net := rfl
@[simp] theorem State.modEs_out (i : Nat) (g : EncSt → EncSt) : (s.modEs i g).out = s.out := rfl
@[simp] theorem State.modEs_freeCtr (i : Nat) (g : EncSt → EncSt) : (s.modEs i g).freeCtr = s.freeCtr := rfl
@[simp] theorem State.modEs_pending (i : Nat) (g : EncSt → EncSt) : (s.modEs i g).pending = s.pending := rfl
@[simp] theorem State.modEs_rd (i : Nat) (g : EncSt → EncSt) (r : Nat) : (s.modEs i g).rd r = s.rd r := rfl
@[simp] theorem State.modEs_rn (i : Nat) (g : EncSt → EncSt) (r : Nat) : (s.modEs i g).rn r = s.rn r := rfl
@[simp] theorem State.modEs_f (i : Nat) (g : EncSt → EncSt) (y : Fld) : (s.modEs i g).f y = s.f y := rfl
@[simp] theorem State.modEs_on (i : Nat) (g : EncSt → EncSt) (y : Fld) : (s.modEs i g).on y = s.on y := rfl
@[simp] theorem State.modEs_bit (i : Nat) (g : EncSt → EncSt) (y : Fld) (j : Nat) : (s.modEs i g).bit y j = s.bit y j := rfl

/-! ### State.modDs -/

@[simp] theorem State.modDs_regs (i : Nat) (g : DecSt → DecSt) : (s.modDs i g).regs = s.regs := rfl
@[simp] theorem State.modDs_latch (i : Nat) (g : DecSt → DecSt) : (s.modDs i g).latch = s.latch := rfl
@[simp] theorem State.modDs_mem (i : Nat) (g : DecSt → DecSt) : (s.modDs i g).mem = s.mem := rfl
@[simp] theorem State.modDs_host (i : Nat) (g : DecSt → DecSt) : (s.modDs i g).host = s.host := rfl
@[simp] theorem State.modDs_bar2 (i : Nat) (g : DecSt → DecSt) : (s.modDs i g).bar2 = s.bar2 := rfl
@[simp] theorem State.modDs_dev (i : Nat) (g : DecSt → DecSt) : (s.modDs i g).dev = s.dev := rfl
@[simp] theorem State.modDs_cmd (i : Nat) (g : DecSt → DecSt) : (s.modDs i g).cmd = s.cmd := rfl
@[simp] theorem State.modDs_evt (i : Nat) (g : DecSt → DecSt) : (s.modDs i g).evt = s.evt := rfl
@[simp] theorem State.modDs_cxl (i : Nat) (g : DecSt → DecSt) : (s.modDs i g).cxl = s.cxl := rfl
@[simp] theorem State.modDs_mbx (i : Nat) (g : DecSt → DecSt) : (s.modDs i g).mbx = s.mbx := rfl
@[simp] theorem State.modDs_dlt (i : Nat) (g : DecSt → DecSt) : (s.modDs i g).dlt = s.dlt := rfl
@[simp] theorem State.modDs_lane (i : Nat) (g : DecSt → DecSt) : (s.modDs i g).lane = s.lane := rfl
@[simp] theorem State.modDs_port (i : Nat) (g : DecSt → DecSt) : (s.modDs i g).port = s.port := rfl
@[simp] theorem State.modDs_raw (i : Nat) (g : DecSt → DecSt) : (s.modDs i g).raw = s.raw := rfl
@[simp] theorem State.modDs_ctx (i : Nat) (g : DecSt → DecSt) : (s.modDs i g).ctx = s.ctx := rfl
@[simp] theorem State.modDs_ladle (i : Nat) (g : DecSt → DecSt) : (s.modDs i g).ladle = s.ladle := rfl
@[simp] theorem State.modDs_tap (i : Nat) (g : DecSt → DecSt) : (s.modDs i g).tap = s.tap := rfl
@[simp] theorem State.modDs_vlt (i : Nat) (g : DecSt → DecSt) : (s.modDs i g).vlt = s.vlt := rfl
@[simp] theorem State.modDs_vq (i : Nat) (g : DecSt → DecSt) : (s.modDs i g).vq = s.vq := rfl
@[simp] theorem State.modDs_dfl (i : Nat) (g : DecSt → DecSt) : (s.modDs i g).dfl = s.dfl := rfl
@[simp] theorem State.modDs_dmc (i : Nat) (g : DecSt → DecSt) : (s.modDs i g).dmc = s.dmc := rfl
@[simp] theorem State.modDs_flash (i : Nat) (g : DecSt → DecSt) : (s.modDs i g).flash = s.flash := rfl
@[simp] theorem State.modDs_pwr (i : Nat) (g : DecSt → DecSt) : (s.modDs i g).pwr = s.pwr := rfl
@[simp] theorem State.modDs_cmp (i : Nat) (g : DecSt → DecSt) : (s.modDs i g).cmp = s.cmp := rfl
@[simp] theorem State.modDs_dsp (i : Nat) (g : DecSt → DecSt) : (s.modDs i g).dsp = s.dsp := rfl
@[simp] theorem State.modDs_aud (i : Nat) (g : DecSt → DecSt) : (s.modDs i g).aud = s.aud := rfl
@[simp] theorem State.modDs_tim (i : Nat) (g : DecSt → DecSt) : (s.modDs i g).tim = s.tim := rfl
@[simp] theorem State.modDs_tst (i : Nat) (g : DecSt → DecSt) : (s.modDs i g).tst = s.tst := rfl
@[simp] theorem State.modDs_net (i : Nat) (g : DecSt → DecSt) : (s.modDs i g).net = s.net := rfl
@[simp] theorem State.modDs_out (i : Nat) (g : DecSt → DecSt) : (s.modDs i g).out = s.out := rfl
@[simp] theorem State.modDs_freeCtr (i : Nat) (g : DecSt → DecSt) : (s.modDs i g).freeCtr = s.freeCtr := rfl
@[simp] theorem State.modDs_pending (i : Nat) (g : DecSt → DecSt) : (s.modDs i g).pending = s.pending := rfl
@[simp] theorem State.modDs_rd (i : Nat) (g : DecSt → DecSt) (r : Nat) : (s.modDs i g).rd r = s.rd r := rfl
@[simp] theorem State.modDs_rn (i : Nat) (g : DecSt → DecSt) (r : Nat) : (s.modDs i g).rn r = s.rn r := rfl
@[simp] theorem State.modDs_f (i : Nat) (g : DecSt → DecSt) (y : Fld) : (s.modDs i g).f y = s.f y := rfl
@[simp] theorem State.modDs_on (i : Nat) (g : DecSt → DecSt) (y : Fld) : (s.modDs i g).on y = s.on y := rfl
@[simp] theorem State.modDs_bit (i : Nat) (g : DecSt → DecSt) (y : Fld) (j : Nat) : (s.modDs i g).bit y j = s.bit y j := rfl

/-! ### State.modCmp -/

@[simp] theorem State.modCmp_regs (n : Nat) (g : CmpSt → CmpSt) : (s.modCmp n g).regs = s.regs := rfl
@[simp] theorem State.modCmp_latch (n : Nat) (g : CmpSt → CmpSt) : (s.modCmp n g).latch = s.latch := rfl
@[simp] theorem State.modCmp_mem (n : Nat) (g : CmpSt → CmpSt) : (s.modCmp n g).mem = s.mem := rfl
@[simp] theorem State.modCmp_host (n : Nat) (g : CmpSt → CmpSt) : (s.modCmp n g).host = s.host := rfl
@[simp] theorem State.modCmp_bar2 (n : Nat) (g : CmpSt → CmpSt) : (s.modCmp n g).bar2 = s.bar2 := rfl
@[simp] theorem State.modCmp_dev (n : Nat) (g : CmpSt → CmpSt) : (s.modCmp n g).dev = s.dev := rfl
@[simp] theorem State.modCmp_cmd (n : Nat) (g : CmpSt → CmpSt) : (s.modCmp n g).cmd = s.cmd := rfl
@[simp] theorem State.modCmp_evt (n : Nat) (g : CmpSt → CmpSt) : (s.modCmp n g).evt = s.evt := rfl
@[simp] theorem State.modCmp_cxl (n : Nat) (g : CmpSt → CmpSt) : (s.modCmp n g).cxl = s.cxl := rfl
@[simp] theorem State.modCmp_mbx (n : Nat) (g : CmpSt → CmpSt) : (s.modCmp n g).mbx = s.mbx := rfl
@[simp] theorem State.modCmp_dlt (n : Nat) (g : CmpSt → CmpSt) : (s.modCmp n g).dlt = s.dlt := rfl
@[simp] theorem State.modCmp_lane (n : Nat) (g : CmpSt → CmpSt) : (s.modCmp n g).lane = s.lane := rfl
@[simp] theorem State.modCmp_port (n : Nat) (g : CmpSt → CmpSt) : (s.modCmp n g).port = s.port := rfl
@[simp] theorem State.modCmp_raw (n : Nat) (g : CmpSt → CmpSt) : (s.modCmp n g).raw = s.raw := rfl
@[simp] theorem State.modCmp_ctx (n : Nat) (g : CmpSt → CmpSt) : (s.modCmp n g).ctx = s.ctx := rfl
@[simp] theorem State.modCmp_ladle (n : Nat) (g : CmpSt → CmpSt) : (s.modCmp n g).ladle = s.ladle := rfl
@[simp] theorem State.modCmp_tap (n : Nat) (g : CmpSt → CmpSt) : (s.modCmp n g).tap = s.tap := rfl
@[simp] theorem State.modCmp_vlt (n : Nat) (g : CmpSt → CmpSt) : (s.modCmp n g).vlt = s.vlt := rfl
@[simp] theorem State.modCmp_vq (n : Nat) (g : CmpSt → CmpSt) : (s.modCmp n g).vq = s.vq := rfl
@[simp] theorem State.modCmp_dfl (n : Nat) (g : CmpSt → CmpSt) : (s.modCmp n g).dfl = s.dfl := rfl
@[simp] theorem State.modCmp_dmc (n : Nat) (g : CmpSt → CmpSt) : (s.modCmp n g).dmc = s.dmc := rfl
@[simp] theorem State.modCmp_flash (n : Nat) (g : CmpSt → CmpSt) : (s.modCmp n g).flash = s.flash := rfl
@[simp] theorem State.modCmp_pwr (n : Nat) (g : CmpSt → CmpSt) : (s.modCmp n g).pwr = s.pwr := rfl
@[simp] theorem State.modCmp_cdc (n : Nat) (g : CmpSt → CmpSt) : (s.modCmp n g).cdc = s.cdc := rfl
@[simp] theorem State.modCmp_dsp (n : Nat) (g : CmpSt → CmpSt) : (s.modCmp n g).dsp = s.dsp := rfl
@[simp] theorem State.modCmp_aud (n : Nat) (g : CmpSt → CmpSt) : (s.modCmp n g).aud = s.aud := rfl
@[simp] theorem State.modCmp_tim (n : Nat) (g : CmpSt → CmpSt) : (s.modCmp n g).tim = s.tim := rfl
@[simp] theorem State.modCmp_tst (n : Nat) (g : CmpSt → CmpSt) : (s.modCmp n g).tst = s.tst := rfl
@[simp] theorem State.modCmp_net (n : Nat) (g : CmpSt → CmpSt) : (s.modCmp n g).net = s.net := rfl
@[simp] theorem State.modCmp_out (n : Nat) (g : CmpSt → CmpSt) : (s.modCmp n g).out = s.out := rfl
@[simp] theorem State.modCmp_freeCtr (n : Nat) (g : CmpSt → CmpSt) : (s.modCmp n g).freeCtr = s.freeCtr := rfl
@[simp] theorem State.modCmp_pending (n : Nat) (g : CmpSt → CmpSt) : (s.modCmp n g).pending = s.pending := rfl
@[simp] theorem State.modCmp_rd (n : Nat) (g : CmpSt → CmpSt) (r : Nat) : (s.modCmp n g).rd r = s.rd r := rfl
@[simp] theorem State.modCmp_rn (n : Nat) (g : CmpSt → CmpSt) (r : Nat) : (s.modCmp n g).rn r = s.rn r := rfl
@[simp] theorem State.modCmp_f (n : Nat) (g : CmpSt → CmpSt) (y : Fld) : (s.modCmp n g).f y = s.f y := rfl
@[simp] theorem State.modCmp_on (n : Nat) (g : CmpSt → CmpSt) (y : Fld) : (s.modCmp n g).on y = s.on y := rfl
@[simp] theorem State.modCmp_bit (n : Nat) (g : CmpSt → CmpSt) (y : Fld) (j : Nat) : (s.modCmp n g).bit y j = s.bit y j := rfl

/-! ### State.modFcg -/

@[simp] theorem State.modFcg_regs (k : Nat) (g : FcgSt → FcgSt) : (s.modFcg k g).regs = s.regs := rfl
@[simp] theorem State.modFcg_latch (k : Nat) (g : FcgSt → FcgSt) : (s.modFcg k g).latch = s.latch := rfl
@[simp] theorem State.modFcg_mem (k : Nat) (g : FcgSt → FcgSt) : (s.modFcg k g).mem = s.mem := rfl
@[simp] theorem State.modFcg_host (k : Nat) (g : FcgSt → FcgSt) : (s.modFcg k g).host = s.host := rfl
@[simp] theorem State.modFcg_bar2 (k : Nat) (g : FcgSt → FcgSt) : (s.modFcg k g).bar2 = s.bar2 := rfl
@[simp] theorem State.modFcg_dev (k : Nat) (g : FcgSt → FcgSt) : (s.modFcg k g).dev = s.dev := rfl
@[simp] theorem State.modFcg_cmd (k : Nat) (g : FcgSt → FcgSt) : (s.modFcg k g).cmd = s.cmd := rfl
@[simp] theorem State.modFcg_evt (k : Nat) (g : FcgSt → FcgSt) : (s.modFcg k g).evt = s.evt := rfl
@[simp] theorem State.modFcg_cxl (k : Nat) (g : FcgSt → FcgSt) : (s.modFcg k g).cxl = s.cxl := rfl
@[simp] theorem State.modFcg_mbx (k : Nat) (g : FcgSt → FcgSt) : (s.modFcg k g).mbx = s.mbx := rfl
@[simp] theorem State.modFcg_dlt (k : Nat) (g : FcgSt → FcgSt) : (s.modFcg k g).dlt = s.dlt := rfl
@[simp] theorem State.modFcg_lane (k : Nat) (g : FcgSt → FcgSt) : (s.modFcg k g).lane = s.lane := rfl
@[simp] theorem State.modFcg_port (k : Nat) (g : FcgSt → FcgSt) : (s.modFcg k g).port = s.port := rfl
@[simp] theorem State.modFcg_raw (k : Nat) (g : FcgSt → FcgSt) : (s.modFcg k g).raw = s.raw := rfl
@[simp] theorem State.modFcg_ctx (k : Nat) (g : FcgSt → FcgSt) : (s.modFcg k g).ctx = s.ctx := rfl
@[simp] theorem State.modFcg_ladle (k : Nat) (g : FcgSt → FcgSt) : (s.modFcg k g).ladle = s.ladle := rfl
@[simp] theorem State.modFcg_tap (k : Nat) (g : FcgSt → FcgSt) : (s.modFcg k g).tap = s.tap := rfl
@[simp] theorem State.modFcg_vlt (k : Nat) (g : FcgSt → FcgSt) : (s.modFcg k g).vlt = s.vlt := rfl
@[simp] theorem State.modFcg_vq (k : Nat) (g : FcgSt → FcgSt) : (s.modFcg k g).vq = s.vq := rfl
@[simp] theorem State.modFcg_dfl (k : Nat) (g : FcgSt → FcgSt) : (s.modFcg k g).dfl = s.dfl := rfl
@[simp] theorem State.modFcg_dmc (k : Nat) (g : FcgSt → FcgSt) : (s.modFcg k g).dmc = s.dmc := rfl
@[simp] theorem State.modFcg_flash (k : Nat) (g : FcgSt → FcgSt) : (s.modFcg k g).flash = s.flash := rfl
@[simp] theorem State.modFcg_pwr (k : Nat) (g : FcgSt → FcgSt) : (s.modFcg k g).pwr = s.pwr := rfl
@[simp] theorem State.modFcg_cdc (k : Nat) (g : FcgSt → FcgSt) : (s.modFcg k g).cdc = s.cdc := rfl
@[simp] theorem State.modFcg_cmp (k : Nat) (g : FcgSt → FcgSt) : (s.modFcg k g).cmp = s.cmp := rfl
@[simp] theorem State.modFcg_dsp (k : Nat) (g : FcgSt → FcgSt) : (s.modFcg k g).dsp = s.dsp := rfl
@[simp] theorem State.modFcg_aud (k : Nat) (g : FcgSt → FcgSt) : (s.modFcg k g).aud = s.aud := rfl
@[simp] theorem State.modFcg_tst (k : Nat) (g : FcgSt → FcgSt) : (s.modFcg k g).tst = s.tst := rfl
@[simp] theorem State.modFcg_net (k : Nat) (g : FcgSt → FcgSt) : (s.modFcg k g).net = s.net := rfl
@[simp] theorem State.modFcg_out (k : Nat) (g : FcgSt → FcgSt) : (s.modFcg k g).out = s.out := rfl
@[simp] theorem State.modFcg_freeCtr (k : Nat) (g : FcgSt → FcgSt) : (s.modFcg k g).freeCtr = s.freeCtr := rfl
@[simp] theorem State.modFcg_pending (k : Nat) (g : FcgSt → FcgSt) : (s.modFcg k g).pending = s.pending := rfl
@[simp] theorem State.modFcg_rd (k : Nat) (g : FcgSt → FcgSt) (r : Nat) : (s.modFcg k g).rd r = s.rd r := rfl
@[simp] theorem State.modFcg_rn (k : Nat) (g : FcgSt → FcgSt) (r : Nat) : (s.modFcg k g).rn r = s.rn r := rfl
@[simp] theorem State.modFcg_f (k : Nat) (g : FcgSt → FcgSt) (y : Fld) : (s.modFcg k g).f y = s.f y := rfl
@[simp] theorem State.modFcg_on (k : Nat) (g : FcgSt → FcgSt) (y : Fld) : (s.modFcg k g).on y = s.on y := rfl
@[simp] theorem State.modFcg_bit (k : Nat) (g : FcgSt → FcgSt) (y : Fld) (j : Nat) : (s.modFcg k g).bit y j = s.bit y j := rfl

/-! ### State.modTg -/

@[simp] theorem State.modTg_regs (n : Nat) (g : TgSt → TgSt) : (s.modTg n g).regs = s.regs := rfl
@[simp] theorem State.modTg_latch (n : Nat) (g : TgSt → TgSt) : (s.modTg n g).latch = s.latch := rfl
@[simp] theorem State.modTg_mem (n : Nat) (g : TgSt → TgSt) : (s.modTg n g).mem = s.mem := rfl
@[simp] theorem State.modTg_host (n : Nat) (g : TgSt → TgSt) : (s.modTg n g).host = s.host := rfl
@[simp] theorem State.modTg_bar2 (n : Nat) (g : TgSt → TgSt) : (s.modTg n g).bar2 = s.bar2 := rfl
@[simp] theorem State.modTg_dev (n : Nat) (g : TgSt → TgSt) : (s.modTg n g).dev = s.dev := rfl
@[simp] theorem State.modTg_cmd (n : Nat) (g : TgSt → TgSt) : (s.modTg n g).cmd = s.cmd := rfl
@[simp] theorem State.modTg_evt (n : Nat) (g : TgSt → TgSt) : (s.modTg n g).evt = s.evt := rfl
@[simp] theorem State.modTg_cxl (n : Nat) (g : TgSt → TgSt) : (s.modTg n g).cxl = s.cxl := rfl
@[simp] theorem State.modTg_mbx (n : Nat) (g : TgSt → TgSt) : (s.modTg n g).mbx = s.mbx := rfl
@[simp] theorem State.modTg_dlt (n : Nat) (g : TgSt → TgSt) : (s.modTg n g).dlt = s.dlt := rfl
@[simp] theorem State.modTg_lane (n : Nat) (g : TgSt → TgSt) : (s.modTg n g).lane = s.lane := rfl
@[simp] theorem State.modTg_port (n : Nat) (g : TgSt → TgSt) : (s.modTg n g).port = s.port := rfl
@[simp] theorem State.modTg_raw (n : Nat) (g : TgSt → TgSt) : (s.modTg n g).raw = s.raw := rfl
@[simp] theorem State.modTg_ctx (n : Nat) (g : TgSt → TgSt) : (s.modTg n g).ctx = s.ctx := rfl
@[simp] theorem State.modTg_ladle (n : Nat) (g : TgSt → TgSt) : (s.modTg n g).ladle = s.ladle := rfl
@[simp] theorem State.modTg_tap (n : Nat) (g : TgSt → TgSt) : (s.modTg n g).tap = s.tap := rfl
@[simp] theorem State.modTg_vlt (n : Nat) (g : TgSt → TgSt) : (s.modTg n g).vlt = s.vlt := rfl
@[simp] theorem State.modTg_vq (n : Nat) (g : TgSt → TgSt) : (s.modTg n g).vq = s.vq := rfl
@[simp] theorem State.modTg_dfl (n : Nat) (g : TgSt → TgSt) : (s.modTg n g).dfl = s.dfl := rfl
@[simp] theorem State.modTg_dmc (n : Nat) (g : TgSt → TgSt) : (s.modTg n g).dmc = s.dmc := rfl
@[simp] theorem State.modTg_flash (n : Nat) (g : TgSt → TgSt) : (s.modTg n g).flash = s.flash := rfl
@[simp] theorem State.modTg_pwr (n : Nat) (g : TgSt → TgSt) : (s.modTg n g).pwr = s.pwr := rfl
@[simp] theorem State.modTg_cdc (n : Nat) (g : TgSt → TgSt) : (s.modTg n g).cdc = s.cdc := rfl
@[simp] theorem State.modTg_cmp (n : Nat) (g : TgSt → TgSt) : (s.modTg n g).cmp = s.cmp := rfl
@[simp] theorem State.modTg_aud (n : Nat) (g : TgSt → TgSt) : (s.modTg n g).aud = s.aud := rfl
@[simp] theorem State.modTg_tim (n : Nat) (g : TgSt → TgSt) : (s.modTg n g).tim = s.tim := rfl
@[simp] theorem State.modTg_tst (n : Nat) (g : TgSt → TgSt) : (s.modTg n g).tst = s.tst := rfl
@[simp] theorem State.modTg_net (n : Nat) (g : TgSt → TgSt) : (s.modTg n g).net = s.net := rfl
@[simp] theorem State.modTg_out (n : Nat) (g : TgSt → TgSt) : (s.modTg n g).out = s.out := rfl
@[simp] theorem State.modTg_freeCtr (n : Nat) (g : TgSt → TgSt) : (s.modTg n g).freeCtr = s.freeCtr := rfl
@[simp] theorem State.modTg_pending (n : Nat) (g : TgSt → TgSt) : (s.modTg n g).pending = s.pending := rfl
@[simp] theorem State.modTg_rd (n : Nat) (g : TgSt → TgSt) (r : Nat) : (s.modTg n g).rd r = s.rd r := rfl
@[simp] theorem State.modTg_rn (n : Nat) (g : TgSt → TgSt) (r : Nat) : (s.modTg n g).rn r = s.rn r := rfl
@[simp] theorem State.modTg_f (n : Nat) (g : TgSt → TgSt) (y : Fld) : (s.modTg n g).f y = s.f y := rfl
@[simp] theorem State.modTg_on (n : Nat) (g : TgSt → TgSt) (y : Fld) : (s.modTg n g).on y = s.on y := rfl
@[simp] theorem State.modTg_bit (n : Nat) (g : TgSt → TgSt) (y : Fld) (j : Nat) : (s.modTg n g).bit y j = s.bit y j := rfl

/-! ### State.modDpt -/

@[simp] theorem State.modDpt_regs (n : Nat) (g : DspPort → DspPort) : (s.modDpt n g).regs = s.regs := rfl
@[simp] theorem State.modDpt_latch (n : Nat) (g : DspPort → DspPort) : (s.modDpt n g).latch = s.latch := rfl
@[simp] theorem State.modDpt_mem (n : Nat) (g : DspPort → DspPort) : (s.modDpt n g).mem = s.mem := rfl
@[simp] theorem State.modDpt_host (n : Nat) (g : DspPort → DspPort) : (s.modDpt n g).host = s.host := rfl
@[simp] theorem State.modDpt_bar2 (n : Nat) (g : DspPort → DspPort) : (s.modDpt n g).bar2 = s.bar2 := rfl
@[simp] theorem State.modDpt_dev (n : Nat) (g : DspPort → DspPort) : (s.modDpt n g).dev = s.dev := rfl
@[simp] theorem State.modDpt_cmd (n : Nat) (g : DspPort → DspPort) : (s.modDpt n g).cmd = s.cmd := rfl
@[simp] theorem State.modDpt_evt (n : Nat) (g : DspPort → DspPort) : (s.modDpt n g).evt = s.evt := rfl
@[simp] theorem State.modDpt_cxl (n : Nat) (g : DspPort → DspPort) : (s.modDpt n g).cxl = s.cxl := rfl
@[simp] theorem State.modDpt_mbx (n : Nat) (g : DspPort → DspPort) : (s.modDpt n g).mbx = s.mbx := rfl
@[simp] theorem State.modDpt_dlt (n : Nat) (g : DspPort → DspPort) : (s.modDpt n g).dlt = s.dlt := rfl
@[simp] theorem State.modDpt_lane (n : Nat) (g : DspPort → DspPort) : (s.modDpt n g).lane = s.lane := rfl
@[simp] theorem State.modDpt_port (n : Nat) (g : DspPort → DspPort) : (s.modDpt n g).port = s.port := rfl
@[simp] theorem State.modDpt_raw (n : Nat) (g : DspPort → DspPort) : (s.modDpt n g).raw = s.raw := rfl
@[simp] theorem State.modDpt_ctx (n : Nat) (g : DspPort → DspPort) : (s.modDpt n g).ctx = s.ctx := rfl
@[simp] theorem State.modDpt_ladle (n : Nat) (g : DspPort → DspPort) : (s.modDpt n g).ladle = s.ladle := rfl
@[simp] theorem State.modDpt_tap (n : Nat) (g : DspPort → DspPort) : (s.modDpt n g).tap = s.tap := rfl
@[simp] theorem State.modDpt_vlt (n : Nat) (g : DspPort → DspPort) : (s.modDpt n g).vlt = s.vlt := rfl
@[simp] theorem State.modDpt_vq (n : Nat) (g : DspPort → DspPort) : (s.modDpt n g).vq = s.vq := rfl
@[simp] theorem State.modDpt_dfl (n : Nat) (g : DspPort → DspPort) : (s.modDpt n g).dfl = s.dfl := rfl
@[simp] theorem State.modDpt_dmc (n : Nat) (g : DspPort → DspPort) : (s.modDpt n g).dmc = s.dmc := rfl
@[simp] theorem State.modDpt_flash (n : Nat) (g : DspPort → DspPort) : (s.modDpt n g).flash = s.flash := rfl
@[simp] theorem State.modDpt_pwr (n : Nat) (g : DspPort → DspPort) : (s.modDpt n g).pwr = s.pwr := rfl
@[simp] theorem State.modDpt_cdc (n : Nat) (g : DspPort → DspPort) : (s.modDpt n g).cdc = s.cdc := rfl
@[simp] theorem State.modDpt_cmp (n : Nat) (g : DspPort → DspPort) : (s.modDpt n g).cmp = s.cmp := rfl
@[simp] theorem State.modDpt_aud (n : Nat) (g : DspPort → DspPort) : (s.modDpt n g).aud = s.aud := rfl
@[simp] theorem State.modDpt_tim (n : Nat) (g : DspPort → DspPort) : (s.modDpt n g).tim = s.tim := rfl
@[simp] theorem State.modDpt_tst (n : Nat) (g : DspPort → DspPort) : (s.modDpt n g).tst = s.tst := rfl
@[simp] theorem State.modDpt_net (n : Nat) (g : DspPort → DspPort) : (s.modDpt n g).net = s.net := rfl
@[simp] theorem State.modDpt_out (n : Nat) (g : DspPort → DspPort) : (s.modDpt n g).out = s.out := rfl
@[simp] theorem State.modDpt_freeCtr (n : Nat) (g : DspPort → DspPort) : (s.modDpt n g).freeCtr = s.freeCtr := rfl
@[simp] theorem State.modDpt_pending (n : Nat) (g : DspPort → DspPort) : (s.modDpt n g).pending = s.pending := rfl
@[simp] theorem State.modDpt_rd (n : Nat) (g : DspPort → DspPort) (r : Nat) : (s.modDpt n g).rd r = s.rd r := rfl
@[simp] theorem State.modDpt_rn (n : Nat) (g : DspPort → DspPort) (r : Nat) : (s.modDpt n g).rn r = s.rn r := rfl
@[simp] theorem State.modDpt_f (n : Nat) (g : DspPort → DspPort) (y : Fld) : (s.modDpt n g).f y = s.f y := rfl
@[simp] theorem State.modDpt_on (n : Nat) (g : DspPort → DspPort) (y : Fld) : (s.modDpt n g).on y = s.on y := rfl
@[simp] theorem State.modDpt_bit (n : Nat) (g : DspPort → DspPort) (y : Fld) (j : Nat) : (s.modDpt n g).bit y j = s.bit y j := rfl

/-! ### State.modAp -/

@[simp] theorem State.modAp_regs (n : Nat) (g : AudPort → AudPort) : (s.modAp n g).regs = s.regs := rfl
@[simp] theorem State.modAp_latch (n : Nat) (g : AudPort → AudPort) : (s.modAp n g).latch = s.latch := rfl
@[simp] theorem State.modAp_mem (n : Nat) (g : AudPort → AudPort) : (s.modAp n g).mem = s.mem := rfl
@[simp] theorem State.modAp_host (n : Nat) (g : AudPort → AudPort) : (s.modAp n g).host = s.host := rfl
@[simp] theorem State.modAp_bar2 (n : Nat) (g : AudPort → AudPort) : (s.modAp n g).bar2 = s.bar2 := rfl
@[simp] theorem State.modAp_dev (n : Nat) (g : AudPort → AudPort) : (s.modAp n g).dev = s.dev := rfl
@[simp] theorem State.modAp_cmd (n : Nat) (g : AudPort → AudPort) : (s.modAp n g).cmd = s.cmd := rfl
@[simp] theorem State.modAp_evt (n : Nat) (g : AudPort → AudPort) : (s.modAp n g).evt = s.evt := rfl
@[simp] theorem State.modAp_cxl (n : Nat) (g : AudPort → AudPort) : (s.modAp n g).cxl = s.cxl := rfl
@[simp] theorem State.modAp_mbx (n : Nat) (g : AudPort → AudPort) : (s.modAp n g).mbx = s.mbx := rfl
@[simp] theorem State.modAp_dlt (n : Nat) (g : AudPort → AudPort) : (s.modAp n g).dlt = s.dlt := rfl
@[simp] theorem State.modAp_lane (n : Nat) (g : AudPort → AudPort) : (s.modAp n g).lane = s.lane := rfl
@[simp] theorem State.modAp_port (n : Nat) (g : AudPort → AudPort) : (s.modAp n g).port = s.port := rfl
@[simp] theorem State.modAp_raw (n : Nat) (g : AudPort → AudPort) : (s.modAp n g).raw = s.raw := rfl
@[simp] theorem State.modAp_ctx (n : Nat) (g : AudPort → AudPort) : (s.modAp n g).ctx = s.ctx := rfl
@[simp] theorem State.modAp_ladle (n : Nat) (g : AudPort → AudPort) : (s.modAp n g).ladle = s.ladle := rfl
@[simp] theorem State.modAp_tap (n : Nat) (g : AudPort → AudPort) : (s.modAp n g).tap = s.tap := rfl
@[simp] theorem State.modAp_vlt (n : Nat) (g : AudPort → AudPort) : (s.modAp n g).vlt = s.vlt := rfl
@[simp] theorem State.modAp_vq (n : Nat) (g : AudPort → AudPort) : (s.modAp n g).vq = s.vq := rfl
@[simp] theorem State.modAp_dfl (n : Nat) (g : AudPort → AudPort) : (s.modAp n g).dfl = s.dfl := rfl
@[simp] theorem State.modAp_dmc (n : Nat) (g : AudPort → AudPort) : (s.modAp n g).dmc = s.dmc := rfl
@[simp] theorem State.modAp_flash (n : Nat) (g : AudPort → AudPort) : (s.modAp n g).flash = s.flash := rfl
@[simp] theorem State.modAp_pwr (n : Nat) (g : AudPort → AudPort) : (s.modAp n g).pwr = s.pwr := rfl
@[simp] theorem State.modAp_cdc (n : Nat) (g : AudPort → AudPort) : (s.modAp n g).cdc = s.cdc := rfl
@[simp] theorem State.modAp_cmp (n : Nat) (g : AudPort → AudPort) : (s.modAp n g).cmp = s.cmp := rfl
@[simp] theorem State.modAp_dsp (n : Nat) (g : AudPort → AudPort) : (s.modAp n g).dsp = s.dsp := rfl
@[simp] theorem State.modAp_tim (n : Nat) (g : AudPort → AudPort) : (s.modAp n g).tim = s.tim := rfl
@[simp] theorem State.modAp_tst (n : Nat) (g : AudPort → AudPort) : (s.modAp n g).tst = s.tst := rfl
@[simp] theorem State.modAp_net (n : Nat) (g : AudPort → AudPort) : (s.modAp n g).net = s.net := rfl
@[simp] theorem State.modAp_out (n : Nat) (g : AudPort → AudPort) : (s.modAp n g).out = s.out := rfl
@[simp] theorem State.modAp_freeCtr (n : Nat) (g : AudPort → AudPort) : (s.modAp n g).freeCtr = s.freeCtr := rfl
@[simp] theorem State.modAp_pending (n : Nat) (g : AudPort → AudPort) : (s.modAp n g).pending = s.pending := rfl
@[simp] theorem State.modAp_rd (n : Nat) (g : AudPort → AudPort) (r : Nat) : (s.modAp n g).rd r = s.rd r := rfl
@[simp] theorem State.modAp_rn (n : Nat) (g : AudPort → AudPort) (r : Nat) : (s.modAp n g).rn r = s.rn r := rfl
@[simp] theorem State.modAp_f (n : Nat) (g : AudPort → AudPort) (y : Fld) : (s.modAp n g).f y = s.f y := rfl
@[simp] theorem State.modAp_on (n : Nat) (g : AudPort → AudPort) (y : Fld) : (s.modAp n g).on y = s.on y := rfl
@[simp] theorem State.modAp_bit (n : Nat) (g : AudPort → AudPort) (y : Fld) (j : Nat) : (s.modAp n g).bit y j = s.bit y j := rfl

/-! ### State.finishF -/

@[simp] theorem State.finishF_regs (h : Hdr) (o : Outc) : (s.finishF h o).regs = s.regs := rfl
@[simp] theorem State.finishF_latch (h : Hdr) (o : Outc) : (s.finishF h o).latch = s.latch := rfl
@[simp] theorem State.finishF_mem (h : Hdr) (o : Outc) : (s.finishF h o).mem = s.mem := rfl
@[simp] theorem State.finishF_host (h : Hdr) (o : Outc) : (s.finishF h o).host = s.host := rfl
@[simp] theorem State.finishF_bar2 (h : Hdr) (o : Outc) : (s.finishF h o).bar2 = s.bar2 := rfl
@[simp] theorem State.finishF_dev (h : Hdr) (o : Outc) : (s.finishF h o).dev = s.dev := rfl
@[simp] theorem State.finishF_evt (h : Hdr) (o : Outc) : (s.finishF h o).evt = s.evt := rfl
@[simp] theorem State.finishF_cxl (h : Hdr) (o : Outc) : (s.finishF h o).cxl = s.cxl := rfl
@[simp] theorem State.finishF_mbx (h : Hdr) (o : Outc) : (s.finishF h o).mbx = s.mbx := rfl
@[simp] theorem State.finishF_dlt (h : Hdr) (o : Outc) : (s.finishF h o).dlt = s.dlt := rfl
@[simp] theorem State.finishF_lane (h : Hdr) (o : Outc) : (s.finishF h o).lane = s.lane := rfl
@[simp] theorem State.finishF_port (h : Hdr) (o : Outc) : (s.finishF h o).port = s.port := rfl
@[simp] theorem State.finishF_raw (h : Hdr) (o : Outc) : (s.finishF h o).raw = s.raw := rfl
@[simp] theorem State.finishF_ctx (h : Hdr) (o : Outc) : (s.finishF h o).ctx = s.ctx := rfl
@[simp] theorem State.finishF_ladle (h : Hdr) (o : Outc) : (s.finishF h o).ladle = s.ladle := rfl
@[simp] theorem State.finishF_tap (h : Hdr) (o : Outc) : (s.finishF h o).tap = s.tap := rfl
@[simp] theorem State.finishF_vlt (h : Hdr) (o : Outc) : (s.finishF h o).vlt = s.vlt := rfl
@[simp] theorem State.finishF_vq (h : Hdr) (o : Outc) : (s.finishF h o).vq = s.vq := rfl
@[simp] theorem State.finishF_dfl (h : Hdr) (o : Outc) : (s.finishF h o).dfl = s.dfl := rfl
@[simp] theorem State.finishF_dmc (h : Hdr) (o : Outc) : (s.finishF h o).dmc = s.dmc := rfl
@[simp] theorem State.finishF_flash (h : Hdr) (o : Outc) : (s.finishF h o).flash = s.flash := rfl
@[simp] theorem State.finishF_pwr (h : Hdr) (o : Outc) : (s.finishF h o).pwr = s.pwr := rfl
@[simp] theorem State.finishF_cdc (h : Hdr) (o : Outc) : (s.finishF h o).cdc = s.cdc := rfl
@[simp] theorem State.finishF_cmp (h : Hdr) (o : Outc) : (s.finishF h o).cmp = s.cmp := rfl
@[simp] theorem State.finishF_dsp (h : Hdr) (o : Outc) : (s.finishF h o).dsp = s.dsp := rfl
@[simp] theorem State.finishF_aud (h : Hdr) (o : Outc) : (s.finishF h o).aud = s.aud := rfl
@[simp] theorem State.finishF_tim (h : Hdr) (o : Outc) : (s.finishF h o).tim = s.tim := rfl
@[simp] theorem State.finishF_tst (h : Hdr) (o : Outc) : (s.finishF h o).tst = s.tst := rfl
@[simp] theorem State.finishF_net (h : Hdr) (o : Outc) : (s.finishF h o).net = s.net := rfl
@[simp] theorem State.finishF_out (h : Hdr) (o : Outc) : (s.finishF h o).out = s.out := rfl
@[simp] theorem State.finishF_freeCtr (h : Hdr) (o : Outc) : (s.finishF h o).freeCtr = s.freeCtr := rfl
@[simp] theorem State.finishF_pending (h : Hdr) (o : Outc) : (s.finishF h o).pending = s.pending := rfl
@[simp] theorem State.finishF_rd (h : Hdr) (o : Outc) (r : Nat) : (s.finishF h o).rd r = s.rd r := rfl
@[simp] theorem State.finishF_rn (h : Hdr) (o : Outc) (r : Nat) : (s.finishF h o).rn r = s.rn r := rfl
@[simp] theorem State.finishF_f (h : Hdr) (o : Outc) (y : Fld) : (s.finishF h o).f y = s.f y := rfl
@[simp] theorem State.finishF_on (h : Hdr) (o : Outc) (y : Fld) : (s.finishF h o).on y = s.on y := rfl
@[simp] theorem State.finishF_bit (h : Hdr) (o : Outc) (y : Fld) (j : Nat) : (s.finishF h o).bit y j = s.bit y j := rfl

end Sys2Proof.Machine
end

