-- ==== Sys2Proof/Laws/Reset.lean ====
section
/-!
SUPPORT. Laws of the resets: which registers a reset of the logic keeps, and which parts of the state pass through it.
-/
namespace Sys2Proof.Machine
open Sys2Proof

variable {s t : State}

theorem keepOnly_out {l : List Nat} {a : Nat} (ha : a ∉ l) (m : List (Nat × W32)) : storeFind (keepOnly l m) a = none := by
  induction m with
  | nil => rfl
  | cons e m ih =>
    unfold keepOnly at ih ⊢
    rw [List.filter_cons]
    split
    · rename_i hk
      unfold storeFind
      rw [if_neg]
      · exact ih
      · rintro rfl
        exact ha (List.contains_iff_mem.mp hk)
    · exact ih

theorem State.warmBase_rd (clear : Bool) (type : Nat) (a : Nat) :
    (s.warmBase clear type).rd a = storeGet (regReset s.dev.variant) (keepOnly keptRegs s.regs) a := rfl

/-- A register that the reset does not keep reads its reset value. -/
theorem State.warmFrom_rd (clear : Bool) (type : Nat) {a : Nat} (ha : a ∉ keptRegs) (hp : a ≠ PWR_STAT) :
    (s.warmFrom clear type).rd a = regReset s.dev.variant a := by
  unfold State.warmFrom
  rw [State.rd_setF_ne _ _ (by simpa [PWR_STAT__LAST_CAUSE] using hp), State.rd_setB_ne _ _ (by simpa [PWR_STAT__VIN_LOW] using hp)]
  rw [State.warmBase_rd]
  unfold storeGet
  rw [keepOnly_out ha]
  rfl

theorem State.warmFrom_mem (s : State) (clear : Bool) (type : Nat) : (s.warmFrom clear type).mem = s.mem := by
  unfold State.warmFrom
  rw [State.setF_mem, State.setB_mem]
  rfl
theorem State.warmFrom_host (s : State) (clear : Bool) (type : Nat) : (s.warmFrom clear type).host = s.host := by
  unfold State.warmFrom
  rw [State.setF_host, State.setB_host]
  rfl
theorem State.warmFrom_staged (s : State) (clear : Bool) (type : Nat) : (s.warmFrom clear type).flash.staged = s.flash.staged := by
  unfold State.warmFrom
  rw [State.setF_flash, State.setB_flash]
  rfl
theorem State.warmFrom_cmd (s : State) (clear : Bool) (type : Nat) : (s.warmFrom clear type).cmd = {} := by
  unfold State.warmFrom
  rw [State.setF_cmd, State.setB_cmd]
  rfl
theorem State.warmFrom_dev (s : State) (clear : Bool) (type : Nat) :
    (s.warmFrom clear type).dev
      = { variant := s.dev.variant, bootType := type, clearDue := clear || s.dev.clearDue, vin := s.dev.vin } := by
  unfold State.warmFrom
  rw [State.setF_dev, State.setB_dev]
  rfl

/-- The parts of the state that ending DEFLATE jobs and pins leaves alone. -/
structure Ended (s t : State) : Prop where
  host : t.host = s.host
  flash : t.flash = s.flash

theorem Ended.refl (s : State) : Ended s s := ⟨rfl, rfl⟩
theorem Ended.trans {u : State} (h : Ended s t) (k : Ended t u) : Ended s u := ⟨k.host.trans h.host, k.flash.trans h.flash⟩
theorem Ended.ite {u : State} {c : Prop} {_ : Decidable c} (h : Ended s t) (k : Ended s u) : Ended s (if c then t else u) := by
  split <;> assumption
theorem Ended.foldl {β : Type} (g : State → β → State) (hg : ∀ s x, Ended s (g s x)) (l : List β) (s : State) : Ended s (l.foldl g s) := by
  induction l generalizing s with
  | nil => exact .refl s
  | cons x l ih => exact (hg s x).trans (ih (g s x))
theorem LogFrame.ended (h : LogFrame s t) : Ended s t := by
  unfold LogFrame at h
  constructor <;> rw [h]

theorem State.dflLost_ended (s : State) : Ended s s.dflLost := by
  unfold State.dflLost
  have q : Ended s (s.dfl.queue.foldl (fun s (j : DflJob) => s.leaveB (.dfl j.id)) s) :=
    .foldl (fun s (j : DflJob) => s.leaveB (.dfl j.id)) (fun _ _ => ⟨rfl, rfl⟩) _ _
  have e (u : State) : Ended u (u.modDfl (fun d => { d with queue := [], engine := [none, none] })) := ⟨rfl, rfl⟩
  exact .ite (q.trans (e _)) ((q.trans (e _)).trans (State.log_logs _ _ _ _ _ _ _).frame.ended)

theorem State.pinsOff_ended (s : State) : Ended s s.pinsOff := by
  unfold State.pinsOff
  refine (Ended.foldl (fun s i => if s.bit VLT_TALLY__OUT i then s.emit (.pin (if i = 0 then "TALLY0" else "TALLY1") false) else s)
    (fun s i => .ite ⟨rfl, rfl⟩ (.refl s)) (List.range 2) s).trans ?_
  exact .foldl (fun s p => if (s.pt p).trg then s.driveTrg p false else s) (fun s p => .ite ⟨rfl, rfl⟩ (.refl s)) _ _

end Sys2Proof.Machine
end

