-- ==== Sys2Proof/Laws/Boot.lean ====
section
/-!
SUPPORT. Laws of the boot sequence: step 10 makes the device ready, and what follows it leaves that so.
-/
namespace Sys2Proof.Machine
open Sys2Proof

variable {s : State} {r : BootRep}

theorem State.stepMark_dev (s : State) (k : Nat) : (s.stepMark k).dev = s.dev := by
  unfold State.stepMark
  split
  · rfl
  · rw [State.setF_dev]
theorem State.causeMark_dev (s : State) (type : Nat) : (s.causeMark type).dev = s.dev := by
  unfold State.causeMark
  split
  · rw [State.setF_dev]
  · rfl
theorem State.log_dev (s : State) (b : Blk) (c t a0 a1 a2 : Nat) : (s.log b c t a0 a1 a2).dev = s.dev :=
  (State.log_logs s b c t a0 a1 a2).frame.parts.2.2.2.1
theorem State.bootDone_dev (s : State) (r : BootRep) (type : Nat) : (s.bootDone r type).dev = s.dev := by
  unfold State.bootDone
  rw [State.log_dev, State.causeMark_dev, State.wn_dev, State.modCxl_dev]
theorem State.bootEnd_dev (s : State) (r : BootRep) (type : Nat) : (s.bootEnd r type).dev = s.dev := by
  unfold State.bootEnd
  split
  · exact State.bootDone_dev s r type
  · rfl
theorem State.bootJudge_ten (s : State) (r : BootRep) : s.bootJudge r 10 = s := by
  unfold State.bootJudge
  rw [if_neg (by decide), if_neg (by decide), if_neg (by decide)]
theorem State.bootAct_ten (s : State) (r : BootRep) (clear cold : Bool) :
    s.bootAct r clear cold 10 = (s.fabTicks r.ticks).modDev (fun d => { d with ready := true }) := rfl

theorem State.bootStep_ten (s : State) (r : BootRep) (clear cold : Bool) :
    State.bootStep r clear cold s 10 = (s.bootAct r clear cold 10).stepMark 10 := State.bootJudge_ten _ r

theorem State.bootAct_ready (s : State) (r : BootRep) (clear cold : Bool) : (s.bootAct r clear cold 10).dev.ready = true := by
  rw [State.bootAct_ten, State.modDev_dev]

theorem State.bootStep_ready (s : State) (r : BootRep) (clear cold : Bool) : (State.bootStep r clear cold s 10).dev.ready = true := by
  have e : (State.bootStep r clear cold s 10).dev = (s.bootAct r clear cold 10).dev :=
    (congrArg State.dev (State.bootStep_ten s r clear cold)).trans (State.stepMark_dev _ _)
  exact (congrArg DevSt.ready e).trans (State.bootAct_ready s r clear cold)

theorem State.bootRun_ready (s : State) (clear cold : Bool) (h : 10 ≤ r.upTo) : (s.bootRun r clear cold).dev.ready = true := by
  unfold State.bootRun
  have steps : (List.range 11).filter (fun k => decide (3 ≤ k) && decide (k ≤ r.upTo)) = [3, 4, 5, 6, 7, 8, 9] ++ [10] := by
    have g : ∀ k, k ≤ 10 → k ≤ r.upTo := fun k hk => Nat.le_trans hk h
    simp [List.range_succ, g]
  rw [steps, List.foldl_append, List.foldl_cons, List.foldl_nil]
  generalize List.foldl _ _ [3, 4, 5, 6, 7, 8, 9] = w
  exact State.bootStep_ready w r clear cold

/-- A boot with fewer than three failed attempts, a sound calibration record and no reset in it leaves the device ready. -/
theorem State.boot_ready (s : State) (hf : r.fails.length < 3) (hc : (calRecord r).isSome = true) (h : 10 ≤ r.upTo) :
    (s.boot r).dev.ready = true := by
  unfold State.boot
  rw [if_neg (by omega), if_neg (by simp [Option.isNone_iff_eq_none, Option.isSome_iff_ne_none.mp hc]), State.bootEnd_dev]
  exact State.bootRun_ready _ _ _ h

end Sys2Proof.Machine
end

