-- ==== Sys2Proof/Laws/Bytes.lean ====
section
/-!
SUPPORT. Laws of runs of bytes: what each byte reads as after bytes are written to host memory, to the working region and to BAR2
ring storage.
-/
namespace Sys2Proof.Machine
open Sys2Proof

variable {s : State}

/-- The byte of a run of bytes at `a` that lies at `x`. -/
def runAt (bs : List Byte) (a x : Nat) : Option Byte := if a ≤ x then bs[x - a]? else none

theorem runAt_nil (a x : Nat) : runAt [] a x = none := by simp [runAt]
theorem runAt_self (b : Byte) (t : List Byte) (a : Nat) : runAt (b :: t) a a = some b := by simp [runAt]
theorem runAt_tail_self (t : List Byte) (a : Nat) : runAt t (a + 1) a = none := by simp [runAt]
theorem runAt_cons {x a : Nat} (b : Byte) (t : List Byte) (h : x ≠ a) : runAt (b :: t) a x = runAt t (a + 1) x := by
  unfold runAt
  by_cases hx : a ≤ x
  · obtain ⟨k, rfl⟩ : ∃ k, x = a + 1 + k := ⟨x - (a + 1), by omega⟩
    rw [if_pos hx, if_pos (by omega), show a + 1 + k - a = k + 1 by omega, show a + 1 + k - (a + 1) = k by omega]
    rfl
  · rw [if_neg hx, if_neg (by omega)]

/-- A byte of host memory after a write. -/
theorem hostPut_find (h : List (Nat × Byte)) (a x : Nat) (bs : List Byte) :
    storeFind (hostPut h a bs) x = (runAt bs a x).or (storeFind h x) := by
  induction bs generalizing h a with
  | nil => simp [hostPut, runAt_nil]
  | cons b t ih =>
    unfold hostPut
    rw [ih]
    by_cases hx : x = a
    · subst hx
      simp [runAt_self, runAt_tail_self]
    · rw [runAt_cons b t hx, storeFind_put_ne h b hx]

/-- Host memory outside a written run keeps its bytes. -/
theorem hostPut_find_out (h : List (Nat × Byte)) {a x : Nat} {bs : List Byte} (hx : x < a ∨ a + bs.length ≤ x) :
    storeFind (hostPut h a bs) x = storeFind h x := by
  rw [hostPut_find]
  have : runAt bs a x = none := by
    unfold runAt
    split
    · exact List.getElem?_eq_none (by omega)
    · rfl
  simp [this]

theorem bar2Put_get (h : List (Nat × Byte)) (a x : Nat) (bs : List Byte) (hr : storeRising h = true) :
    storeGet memDefault (bar2Put h a bs) x = (runAt bs a x).getD (storeGet memDefault h x) := by
  induction bs generalizing h a with
  | nil => simp [bar2Put, runAt_nil]
  | cons b t ih =>
    unfold bar2Put
    have hr' : storeRising (storeSet memDefault h a b) = true := by
      unfold storeSet
      split
      · exact storeRising_erase a hr
      · exact storeRising_put a b hr
    rw [ih _ _ hr']
    by_cases hx : x = a
    · subst hx
      simp [runAt_self, runAt_tail_self, storeGet_set_self _ _ hr]
    · rw [runAt_cons b t hx, storeGet_set_ne _ _ _ hx]

/-- A byte of the working region after one byte is written. -/
theorem State.memB_setMemB_self (h : storeRising s.mem = true) (a : Nat) (b : Byte) : (s.setMemB a b).memB a = b :=
  storeGet_set_self a b h
theorem State.memB_setMemB_ne (s : State) {a x : Nat} (b : Byte) (h : x ≠ a) : (s.setMemB a b).memB x = s.memB x :=
  storeGet_set_ne _ _ _ h
theorem State.setMemB_mem_rising (h : storeRising s.mem = true) (a : Nat) (b : Byte) : storeRising (s.setMemB a b).mem = true := by
  unfold State.setMemB storeSet
  dsimp only
  split
  · exact storeRising_erase a h
  · exact storeRising_put a b h

/-- A byte of the working region after a run of bytes is written. -/
theorem State.memB_writeMem (s : State) (a x : Nat) (bs : List Byte) (h : storeRising s.mem = true) :
    (s.writeMem a bs).memB x = (runAt bs a x).getD (s.memB x) := by
  induction bs generalizing s a with
  | nil => simp [State.writeMem, runAt_nil]
  | cons b t ih =>
    unfold State.writeMem
    rw [ih _ _ (State.setMemB_mem_rising h a b)]
    by_cases hx : x = a
    · subst hx
      simp [runAt_self, runAt_tail_self, State.memB_setMemB_self h]
    · rw [runAt_cons b t hx, State.memB_setMemB_ne _ _ hx]

end Sys2Proof.Machine
end

