-- ==== Sys2Proof/Laws/Ops.lean ====
section
/-!
SUPPORT. Laws of the shared operations of command packets: what an opcode row does once its packet passes its checks, and what completing a
packet leaves unchanged.
-/
namespace Sys2Proof.Machine
open Sys2Proof

variable {s : State}

/-- An accepted packet runs the body of its meaning and its outcome is settled. -/
theorem runOp_some {op : Nat} {p : Pkt} {body : Body} {t : State} {o : Outc} (ha : accepted op p s = true)
    (hb : body (entered op p s) = (t, some o)) : runOp op p s body = settled op (s.pktHdr op p) t o := by
  unfold accepted at ha
  cases hs : opSpec op with
  | none => simp [hs] at ha
  | some sp =>
    simp only [hs, Bool.and_eq_true, Bool.not_eq_true', Option.isNone_iff_eq_none, Bool.or_eq_true] at ha
    obtain ⟨⟨⟨h1, h2⟩, h3⟩, h4⟩ := ha
    unfold entered fastOp at hb
    unfold runOp settled fastOp
    simp only [hs, Option.any_some] at hb ⊢
    simp only [h1, h2, h3, Bool.false_eq_true, if_false]
    cases hf : sp.fast with
    | true =>
      simp only [hf, if_true] at hb ⊢
      rw [hb]
    | false =>
      simp only [hf, Bool.false_eq_true, if_false, false_or] at hb h4 ⊢
      rw [if_neg (by simp [h4]), hb]

/-- An accepted packet that then waits for an event. -/
theorem runOp_none {op : Nat} {p : Pkt} {body : Body} {t : State} (ha : accepted op p s = true)
    (hb : body (entered op p s) = (t, none)) : runOp op p s body = t := by
  unfold accepted at ha
  cases hs : opSpec op with
  | none => simp [hs] at ha
  | some sp =>
    simp only [hs, Bool.and_eq_true, Bool.not_eq_true', Option.isNone_iff_eq_none, Bool.or_eq_true] at ha
    obtain ⟨⟨⟨h1, h2⟩, h3⟩, h4⟩ := ha
    unfold entered fastOp at hb
    unfold runOp
    simp only [hs, Option.any_some] at hb ⊢
    simp only [h1, h2, h3, Bool.false_eq_true, if_false]
    cases hf : sp.fast with
    | true =>
      simp only [hf, if_true] at hb ⊢
      rw [hb]
    | false =>
      simp only [hf, Bool.false_eq_true, if_false, false_or] at hb h4 ⊢
      rw [if_neg (by simp [h4]), hb]

/-! ### Paths -/

/-- A packet that is answered OK has used its buffer; one that is refused has not. -/
@[simp] theorem State.refDone_ok (s : State) (r : BufRef) (l : List Nat) : s.refDone r (some (ok l)) = s.refUse r := rfl
@[simp] theorem State.refDone_badWord (s : State) (r : BufRef) (i : Nat) : s.refDone r (some (badWord i)) = s := rfl
@[simp] theorem State.refDone_badParam (s : State) (r : BufRef) (d : Nat) (l : List Nat) :
    s.refDone r (some (refuse stBadParam d l)) = s := rfl
@[simp] theorem State.refDone_state (s : State) (r : BufRef) (d : Nat) (l : List Nat) :
    s.refDone r (some (refuse stState d l)) = s := rfl
@[simp] theorem State.refDone_noResource (s : State) (r : BufRef) (d : Nat) (l : List Nat) :
    s.refDone r (some (refuse stNoResource d l)) = s := rfl

theorem State.refGuard_run {r : BufRef} {w : Nat} {k : State → State × Option Outc} {t : State} {o : Option Outc}
    (h : s.refOk r = true) (hk : k s = (t, o)) : s.refGuard r w k = (t.refDone r o, o) := by
  unfold State.refGuard
  rw [if_pos h, hk]
theorem State.refGuard_bad {r : BufRef} {w : Nat} {k : State → State × Option Outc} (h : s.refOk r = false) :
    s.refGuard r w k = (s, some (badWord w)) := by
  unfold State.refGuard
  rw [if_neg (by simp [h])]

theorem entered_fast {op : Nat} (p : Pkt) (s : State) (h : fastOp op = true) : entered op p s = s := by simp [entered, h]
theorem entered_slow {op : Nat} (p : Pkt) (s : State) (h : fastOp op = false) :
    entered op p s = s.restart (s.pktHdr op p) (fun e => { e with queued := false }) := by simp [entered, h]
theorem settled_fast {op : Nat} (h : Hdr) (s : State) (o : Outc) (hf : fastOp op = true) : settled op h s o = s.complete h o := by
  simp [settled, hf]
theorem settled_slow {op : Nat} (h : Hdr) (s : State) (o : Outc) (hf : fastOp op = false) : settled op h s o = s.finishF h o := by
  simp [settled, hf]

/-- Entering changes nothing but the packet's own record. -/
theorem entered_cmd (op : Nat) (p : Pkt) (s : State) : ∃ c, entered op p s = { s with cmd := c } ∧ c.done = s.cmd.done := by
  unfold entered
  split
  · exact ⟨s.cmd, rfl, rfl⟩
  · exact ⟨_, rfl, rfl⟩

end Sys2Proof.Machine
end

