-- ==== Sys2Proof/Laws/Complete.lean ====
section
/-!
SUPPORT. Laws of completion: the reply of a packet, where it lies, and what writing it leaves unchanged.
-/
namespace Sys2Proof.Machine
open Sys2Proof

variable {s : State}

theorem leBytes_length (k v : Nat) : (leBytes k v).length = k := by
  induction k generalizing v with
  | zero => rfl
  | succ k ih => simp [leBytes, ih]

theorem replyBytes_length (r : Reply) (p : Bool) (n : Nat) : (replyBytes r p n).length = 64 := by
  simp [replyBytes, leBytes_length, List.length_flatMap]

/-- The address of the reply slot at the tail of reply ring `n` (R22). -/
def State.replyAt (s : State) (n : Nat) : Nat :=
  s.rn (CMD_RP_BASE_HI n) * 0x100000000 + s.f (CMD_RP_BASE_LO__BASE_LO n) * 0x1000
    + 64 * (s.f (CMD_RP_TAIL__TAIL n) % 2 ^ s.f (CMD_CR_CFG__LOG2N n))

/-- The bytes of a reply at the tail of its ring. -/
def State.replyImage (s : State) (r : Reply) : List Byte :=
  replyBytes r (bitAt (s.f (CMD_RP_TAIL__TAIL r.hdr.ring)) (s.f (CMD_CR_CFG__LOG2N r.hdr.ring)) == false) s.ns

/-- The bytes of a reply stand in host memory and the tail of its ring has moved on. -/
def State.replyMoved (s : State) (r : Reply) : State :=
  ((s.unstart r.hdr).writeHost (s.replyAt r.hdr.ring) (s.replyImage r)).setF (CMD_RP_TAIL__TAIL r.hdr.ring)
    ((s.f (CMD_RP_TAIL__TAIL r.hdr.ring) + 1) % 2 ^ (s.f (CMD_CR_CFG__LOG2N r.hdr.ring) + 1))

/-- The state once a reply stands in its ring and is counted. -/
def State.replyPlaced (s : State) (r : Reply) : State := (s.replyMoved r).countReply

theorem State.complete_writes {h : Hdr} {o : Outc} (late : s.isLate h = false) (nr : noReply h o = false)
    (full : s.rpFull h.ring = false) (held : s.cmd.held.any (fun r => r.hdr.ring == h.ring) = false) :
    s.complete h o = s.writeReply ⟨h, false, o⟩ := by
  unfold State.complete State.deliver
  rw [if_neg (by simp [late]), if_neg (by simp [nr]), if_neg (by simp [full, held])]

theorem State.complete_silent {h : Hdr} {o : Outc} (late : s.isLate h = false) (nr : noReply h o = true) :
    s.complete h o = s.unstart h := by
  unfold State.complete
  rw [if_neg (by simp [late]), if_pos nr]

theorem State.writeReply_host {r : Reply} (ploc : s.on (CMD_CR_CFG__PLOC r.hdr.ring) = false) :
    s.writeReply r = (s.replyPlaced r).pend CMD_IRQ__PEND r.hdr.ring ((s.replyPlaced r).bit CMD_IRQ__EN r.hdr.ring) 1 := by
  have e : (s.unstart r.hdr).on (CMD_CR_CFG__PLOC r.hdr.ring) = false := ploc
  unfold State.writeReply
  simp only [e]
  rfl

theorem State.countReply_wf (h : RegsWf s) : RegsWf s.countReply := ⟨h.rising⟩
theorem State.countReply_only {l : List Nat} {t : State} (h : OnlyRegs l s t) : OnlyRegs l s t.countReply := h
theorem State.countReply_f (s : State) (x : Fld) : s.countReply.f x = s.f x := rfl
theorem State.replyPlaced_tail (s : State) (r : Reply) (x : Fld) : (s.replyPlaced r).f x = (s.replyMoved r).f x :=
  State.countReply_f _ x
theorem State.countReply_stores (s : State) :
    s.countReply.host = s.host ∧ s.countReply.mem = s.mem ∧ s.countReply.bar2 = s.bar2 := ⟨rfl, rfl, rfl⟩

theorem State.replyMoved_wf {r : Reply} (wf : RegsWf s) : RegsWf (s.replyMoved r) := by
  unfold State.replyMoved
  generalize s.replyAt _ = a, s.replyImage r = bs
  have w : RegsWf ((s.unstart r.hdr).writeHost a bs) := ⟨wf.rising⟩
  exact State.setF_rising w _ _
theorem State.replyPlaced_wf {r : Reply} (wf : RegsWf s) : RegsWf (s.replyPlaced r) :=
  State.countReply_wf (State.replyMoved_wf wf)

theorem State.replyMoved_only {r : Reply} : OnlyRegs [CMD_RP_TAIL r.hdr.ring, CMD_IRQ] s (s.replyMoved r) := by
  unfold State.replyMoved
  generalize s.replyAt _ = a, s.replyImage r = bs
  have k : OnlyRegs [CMD_RP_TAIL r.hdr.ring, CMD_IRQ] s ((s.unstart r.hdr).writeHost a bs) := .of_eq rfl rfl
  exact k.trans (.setF _ (x := CMD_RP_TAIL__TAIL r.hdr.ring) _ (by simp [CMD_RP_TAIL__TAIL]))
theorem State.replyPlaced_only {r : Reply} : OnlyRegs [CMD_RP_TAIL r.hdr.ring, CMD_IRQ] s (s.replyPlaced r) :=
  State.countReply_only State.replyMoved_only

theorem State.replyMoved_host (s : State) (r : Reply) :
    (s.replyMoved r).host = hostPut s.host (s.replyAt r.hdr.ring) (s.replyImage r) := by
  unfold State.replyMoved
  generalize s.replyAt _ = a, s.replyImage r = bs
  rfl
theorem State.replyMoved_mem (s : State) (r : Reply) : (s.replyMoved r).mem = s.mem := by
  unfold State.replyMoved
  generalize s.replyAt _ = a, s.replyImage r = bs
  rfl
theorem State.replyMoved_bar2 (s : State) (r : Reply) : (s.replyMoved r).bar2 = s.bar2 := by
  unfold State.replyMoved
  generalize s.replyAt _ = a, s.replyImage r = bs
  rfl
theorem State.replyPlaced_host (s : State) (r : Reply) :
    (s.replyPlaced r).host = hostPut s.host (s.replyAt r.hdr.ring) (s.replyImage r) :=
  (State.countReply_stores _).1.trans (State.replyMoved_host s r)
theorem State.replyPlaced_mem (s : State) (r : Reply) : (s.replyPlaced r).mem = s.mem :=
  (State.countReply_stores _).2.1.trans (State.replyMoved_mem s r)
theorem State.replyPlaced_bar2 (s : State) (r : Reply) : (s.replyPlaced r).bar2 = s.bar2 :=
  (State.countReply_stores _).2.2.trans (State.replyMoved_bar2 s r)

/-- Setting a PEND bit makes it stand. -/
theorem State.pend_bit (wf : RegsWf s) {x : Fld} (i : Nat) (e : Bool) (v : Nat) (hi : i < x.w) (hx : x.lo + x.w ≤ 32) :
    (s.pend x i e v).bit x i = true := by
  have set : (s.setBit x i true).bit x i = true := by
    unfold State.setBit State.bit
    have hl : putBits (s.f x) i 1 (b2n true) < 2 ^ x.w := putBits_lt _ _ (by omega) (bitsAt_lt _ _ _)
    rw [State.f_setF_self wf _ _ hx, Nat.mod_eq_of_lt hl]
    have b := bitsAt_put_self (s.f x) i 1 (b2n true)
    simpa [bitAt, bitsAt] using b
  have vec : ((s.setBit x i true).vector v).bit x i = true := by
    unfold State.bit State.f State.rn
    rw [(State.vector_logs [] (s.setBit x i true) v).rd (by simp)]
    exact set
  unfold State.pend
  split
  · exact vec
  · exact set

end Sys2Proof.Machine
end

