-- ==== Sys2Proof/Laws/Dispatch.lean ====
section
/-!
SUPPORT. The meaning of each command, one law per arm of exec.
-/
namespace Sys2Proof.Machine
open Sys2Proof

variable (s : State)

theorem exec_nop (p : Pkt) : exec (.nop p) s = execNop p s := rfl
theorem exec_devStatus (p : Pkt) : exec (.devStatus p) s = execDevStatus p s := rfl
theorem exec_devReset (p : Pkt) : exec (.devReset p) s = execDevReset p s := rfl
theorem exec_devSetPstate (p : Pkt) : exec (.devSetPstate p) s = execDevSetPstate p s := rfl
theorem exec_devGetFingerprint (p : Pkt) : exec (.devGetFingerprint p) s = execDevGetFingerprint p s := rfl
theorem exec_fwStage (p : Pkt) : exec (.fwStage p) s = execFwStage p s := rfl
theorem exec_fwVerify (p : Pkt) : exec (.fwVerify p) s = execFwVerify p s := rfl
theorem exec_fwActivate (p : Pkt) : exec (.fwActivate p) s = execFwActivate p s := rfl
theorem exec_evtDrain (p : Pkt) : exec (.evtDrain p) s = execEvtDrain p s := rfl
theorem exec_lnkConfigPort (p : Pkt) : exec (.lnkConfigPort p) s = execLnkConfigPort p s := rfl
theorem exec_lnkMapQuads (p : Pkt) : exec (.lnkMapQuads p) s = execLnkMapQuads p s := rfl
theorem exec_lnkStart (p : Pkt) : exec (.lnkStart p) s = execLnkStart p s := rfl
theorem exec_lnkStop (p : Pkt) : exec (.lnkStop p) s = execLnkStop p s := rfl
theorem exec_snsLoadProfile (p : Pkt) : exec (.snsLoadProfile p) s = execSnsLoadProfile p s := rfl
theorem exec_snsCtrlXfer (p : Pkt) : exec (.snsCtrlXfer p) s = execSnsCtrlXfer p s := rfl
theorem exec_snsQueueSettings (p : Pkt) : exec (.snsQueueSettings p) s = execSnsQueueSettings p s := rfl
theorem exec_lnkPattern (p : Pkt) : exec (.lnkPattern p) s = execLnkPattern p s := rfl
theorem exec_lnkStatus (p : Pkt) : exec (.lnkStatus p) s = execLnkStatus p s := rfl
theorem exec_rawSetLin (p : Pkt) : exec (.rawSetLin p) s = execRawSetLin p s := rfl
theorem exec_rawSetBlack (p : Pkt) : exec (.rawSetBlack p) s = execRawSetBlack p s := rfl
theorem exec_rawSetMerge (p : Pkt) : exec (.rawSetMerge p) s = execRawSetMerge p s := rfl
theorem exec_rawLoadDefects (p : Pkt) : exec (.rawLoadDefects p) s = execRawLoadDefects p s := rfl
theorem exec_rawSetFormat (p : Pkt) : exec (.rawSetFormat p) s = execRawSetFormat p s := rfl
theorem exec_rawGetStats (p : Pkt) : exec (.rawGetStats p) s = execRawGetStats p s := rfl
theorem exec_ctxConfigure (p : Pkt) : exec (.ctxConfigure p) s = execCtxConfigure p s := rfl
theorem exec_ctxCommit (p : Pkt) : exec (.ctxCommit p) s = execCtxCommit p s := rfl
theorem exec_ctxStart (p : Pkt) : exec (.ctxStart p) s = execCtxStart p s := rfl
theorem exec_ctxStop (p : Pkt) : exec (.ctxStop p) s = execCtxStop p s := rfl
theorem exec_ctxSetPolicy (p : Pkt) : exec (.ctxSetPolicy p) s = execCtxSetPolicy p s := rfl
theorem exec_ctxPlaybackSource (p : Pkt) : exec (.ctxPlaybackSource p) s = execCtxPlaybackSource p s := rfl
theorem exec_ctxStatus (p : Pkt) : exec (.ctxStatus p) s = execCtxStatus p s := rfl
theorem exec_clrSetShading (p : Pkt) : exec (.clrSetShading p) s = execClrSetShading p s := rfl
theorem exec_clrSetWbMatrix (p : Pkt) : exec (.clrSetWbMatrix p) s = execClrSetWbMatrix p s := rfl
theorem exec_clrSetWorkspace (p : Pkt) : exec (.clrSetWorkspace p) s = execClrSetWorkspace p s := rfl
theorem exec_tapConfigure (p : Pkt) : exec (.tapConfigure p) s = execTapConfigure p s := rfl
theorem exec_tapLoadLut (p : Pkt) : exec (.tapLoadLut p) s = execTapLoadLut p s := rfl
theorem exec_tapEnable (p : Pkt) : exec (.tapEnable p) s = execTapEnable p s := rfl
theorem exec_tapDisable (p : Pkt) : exec (.tapDisable p) s = execTapDisable p s := rfl
theorem exec_clrGetZonestats (p : Pkt) : exec (.clrGetZonestats p) s = execClrGetZonestats p s := rfl
theorem exec_vltSetLayout (p : Pkt) : exec (.vltSetLayout p) s = execVltSetLayout p s := rfl
theorem exec_takeOpen (p : Pkt) : exec (.takeOpen p) s = execTakeOpen p s := rfl
theorem exec_takeClose (p : Pkt) : exec (.takeClose p) s = execTakeClose p s := rfl
theorem exec_vltPin (p : Pkt) : exec (.vltPin p) s = execVltPin p s := rfl
theorem exec_vltUnpin (p : Pkt) : exec (.vltUnpin p) s = execVltUnpin p s := rfl
theorem exec_vltQueryFrame (p : Pkt) : exec (.vltQueryFrame p) s = execVltQueryFrame p s := rfl
theorem exec_vqCreateQueue (p : Pkt) : exec (.vqCreateQueue p) s = execVqCreateQueue p s := rfl
theorem exec_vqDeleteQueue (p : Pkt) : exec (.vqDeleteQueue p) s = execVqDeleteQueue p s := rfl
theorem exec_vqResetQueue (p : Pkt) : exec (.vqResetQueue p) s = execVqResetQueue p s := rfl
theorem exec_vltSetVpstate (p : Pkt) : exec (.vltSetVpstate p) s = execVltSetVpstate p s := rfl
theorem exec_recConfig (p : Pkt) : exec (.recConfig p) s = execRecConfig p s := rfl
theorem exec_cdcStreamCreate (p : Pkt) : exec (.cdcStreamCreate p) s = execCdcStreamCreate p s := rfl
theorem exec_cdcStreamStart (p : Pkt) : exec (.cdcStreamStart p) s = execCdcStreamStart p s := rfl
theorem exec_cdcStreamStop (p : Pkt) : exec (.cdcStreamStop p) s = execCdcStreamStop p s := rfl
theorem exec_cdcSetRate (p : Pkt) : exec (.cdcSetRate p) s = execCdcSetRate p s := rfl
theorem exec_cdcSetRoi (p : Pkt) : exec (.cdcSetRoi p) s = execCdcSetRoi p s := rfl
theorem exec_cdcForceIrap (p : Pkt) : exec (.cdcForceIrap p) s = execCdcForceIrap p s := rfl
theorem exec_cdcDecodeOpen (p : Pkt) : exec (.cdcDecodeOpen p) s = execCdcDecodeOpen p s := rfl
theorem exec_cdcDecodeData (p : Pkt) : exec (.cdcDecodeData p) s = execCdcDecodeData p s := rfl
theorem exec_cdcDecodeClose (p : Pkt) : exec (.cdcDecodeClose p) s = execCdcDecodeClose p s := rfl
theorem exec_setHost (p : Pkt) : exec (.setHost p) s = execSetHost p s := rfl
theorem exec_clearHost (p : Pkt) : exec (.clearHost p) s = execClearHost p s := rfl
theorem exec_clearOut (p : Pkt) : exec (.clearOut p) s = execClearOut p s := rfl
theorem exec_cdcStreamerTemplate (p : Pkt) : exec (.cdcStreamerTemplate p) s = execCdcStreamerTemplate p s := rfl
theorem exec_cmpConfigureLayer (p : Pkt) : exec (.cmpConfigureLayer p) s = execCmpConfigureLayer p s := rfl
theorem exec_cmpLoadLut (p : Pkt) : exec (.cmpLoadLut p) s = execCmpLoadLut p s := rfl
theorem exec_cmpCommit (p : Pkt) : exec (.cmpCommit p) s = execCmpCommit p s := rfl
theorem exec_cmpFlip (p : Pkt) : exec (.cmpFlip p) s = execCmpFlip p s := rfl
theorem exec_cmpSetWriteback (p : Pkt) : exec (.cmpSetWriteback p) s = execCmpSetWriteback p s := rfl
theorem exec_cmpRindStatus (p : Pkt) : exec (.cmpRindStatus p) s = execCmpRindStatus p s := rfl
theorem exec_dspSetTiming (p : Pkt) : exec (.dspSetTiming p) s = execDspSetTiming p s := rfl
theorem exec_dspRoute (p : Pkt) : exec (.dspRoute p) s = execDspRoute p s := rfl
theorem exec_dspPortEnable (p : Pkt) : exec (.dspPortEnable p) s = execDspPortEnable p s := rfl
theorem exec_dspPortDisable (p : Pkt) : exec (.dspPortDisable p) s = execDspPortDisable p s := rfl
theorem exec_dspDcsXfer (p : Pkt) : exec (.dspDcsXfer p) s = execDspDcsXfer p s := rfl
theorem exec_dspSdiAnc (p : Pkt) : exec (.dspSdiAnc p) s = execDspSdiAnc p s := rfl
theorem exec_dspStatus (p : Pkt) : exec (.dspStatus p) s = execDspStatus p s := rfl
theorem exec_audConfigurePort (p : Pkt) : exec (.audConfigurePort p) s = execAudConfigurePort p s := rfl
theorem exec_audStart (p : Pkt) : exec (.audStart p) s = execAudStart p s := rfl
theorem exec_audStop (p : Pkt) : exec (.audStop p) s = execAudStop p s := rfl
theorem exec_audSetChstatus (p : Pkt) : exec (.audSetChstatus p) s = execAudSetChstatus p s := rfl
theorem exec_audStatus (p : Pkt) : exec (.audStatus p) s = execAudStatus p s := rfl
theorem exec_timSetAddend (p : Pkt) : exec (.timSetAddend p) s = execTimSetAddend p s := rfl
theorem exec_timStep (p : Pkt) : exec (.timStep p) s = execTimStep p s := rfl
theorem exec_timGet (p : Pkt) : exec (.timGet p) s = execTimGet p s := rfl
theorem exec_fcgConfigure (p : Pkt) : exec (.fcgConfigure p) s = execFcgConfigure p s := rfl
theorem exec_netConfigure (p : Pkt) : exec (.netConfigure p) s = execNetConfigure p s := rfl
theorem exec_netLinkControl (p : Pkt) : exec (.netLinkControl p) s = execNetLinkControl p s := rfl
theorem exec_netSetPtp (p : Pkt) : exec (.netSetPtp p) s = execNetSetPtp p s := rfl
theorem exec_dflSubmit (p : Pkt) : exec (.dflSubmit p) s = execDflSubmit p s := rfl
theorem exec_dflResume (p : Pkt) : exec (.dflResume p) s = execDflResume p s := rfl
theorem exec_dflAbort (p : Pkt) : exec (.dflAbort p) s = execDflAbort p s := rfl
theorem exec_dflStatus (p : Pkt) : exec (.dflStatus p) s = execDflStatus p s := rfl
theorem exec_pwrSetInputLimit (p : Pkt) : exec (.pwrSetInputLimit p) s = execPwrSetInputLimit p s := rfl
theorem exec_pwrAxConfigure (p : Pkt) : exec (.pwrAxConfigure p) s = execPwrAxConfigure p s := rfl
theorem exec_pwrAxSwitch (p : Pkt) : exec (.pwrAxSwitch p) s = execPwrAxSwitch p s := rfl
theorem exec_pwrGetHk (p : Pkt) : exec (.pwrGetHk p) s = execPwrGetHk p s := rfl
theorem exec_thmGetBand (p : Pkt) : exec (.thmGetBand p) s = execThmGetBand p s := rfl
theorem exec_tstRunAnalogue (p : Pkt) : exec (.tstRunAnalogue p) s = execTstRunAnalogue p s := rfl
theorem exec_tstRunLbist (p : Pkt) : exec (.tstRunLbist p) s = execTstRunLbist p s := rfl
theorem exec_tstRunMbist (p : Pkt) : exec (.tstRunMbist p) s = execTstRunMbist p s := rfl
theorem exec_tstGetResult (p : Pkt) : exec (.tstGetResult p) s = execTstGetResult p s := rfl
theorem exec_tstSetTmux (p : Pkt) : exec (.tstSetTmux p) s = execTstSetTmux p s := rfl
theorem exec_rprGetStatus (p : Pkt) : exec (.rprGetStatus p) s = execRprGetStatus p s := rfl
theorem exec_rprCommitPpr (p : Pkt) : exec (.rprCommitPpr p) s = execRprCommitPpr p s := rfl
theorem exec_mbxBind (p : Pkt) : exec (.mbxBind p) s = execMbxBind p s := rfl
theorem exec_mbxLock (p : Pkt) : exec (.mbxLock p) s = execMbxLock p s := rfl
theorem exec_dltRefresh (p : Pkt) : exec (.dltRefresh p) s = execDltRefresh p s := rfl
theorem exec_semForceRelease (p : Pkt) : exec (.semForceRelease p) s = execSemForceRelease p s := rfl
theorem exec_packetFetch (ring : Fin 4) (slot : Slot) : exec (.packetFetch ring slot) s = execPacketFetch ring slot s := rfl
theorem exec_packetComplete (ring : Fin 4) (seq : W32) : exec (.packetComplete ring seq) s = execPacketComplete ring seq s := rfl
theorem exec_replyBoundExpiry (ring : Fin 4) (seq : W32) (opcode : BitVec 16) : exec (.replyBoundExpiry ring seq opcode) s = execReplyBoundExpiry ring seq opcode s := rfl
theorem exec_cmdLateDone (ring : Fin 4) (seq : W32) : exec (.cmdLateDone ring seq) s = execCmdLateDone ring seq s := rfl
theorem exec_fwqUrgentAge (ring : Fin 4) (seq : W32) : exec (.fwqUrgentAge ring seq) s = execFwqUrgentAge ring seq s := rfl
theorem exec_cmdRpStall (ring : Fin 4) : exec (.cmdRpStall ring) s = execCmdRpStall ring s := rfl
theorem exec_cmdDb (ring : Fin 4) (v : W32) : exec (.cmdDb ring v) s = execCmdDb ring v s := rfl
theorem exec_cmdRpHead (ring : Fin 4) (v : W32) : exec (.cmdRpHead ring v) s = execCmdRpHead ring v s := rfl
theorem exec_registerWrite (master : Byte) (loc : Loc) (v : W32) : exec (.registerWrite master loc v) s = execRegisterWrite master loc v s := rfl
theorem exec_readClear (master : Byte) (loc : Loc) : exec (.readClear master loc) s = execReadClear master loc s := rfl
theorem exec_lowWordRead (master : Byte) (loc : Loc) : exec (.lowWordRead master loc) s = execLowWordRead master loc s := rfl
theorem exec_msixUnmask (v : Fin 64) : exec (.msixUnmask v) s = execMsixUnmask v s := rfl
theorem exec_txData (m : Byte) (ch : Fin 16) (w : W32) : exec (.txData m ch w) s = execTxData m ch w s := rfl
theorem exec_rxWordLo (m : Byte) (ch : Fin 16) : exec (.rxWordLo m ch) s = execRxWordLo m ch s := rfl
theorem exec_semAcquire (m : Byte) (n : Fin 32) : exec (.semAcquire m n) s = execSemAcquire m n s := rfl
theorem exec_semRelease (m : Byte) (n : Fin 32) : exec (.semRelease m n) s = execSemRelease m n s := rfl
theorem exec_mbxCtrlLock : exec .mbxCtrlLock s = execMbxCtrlLock s := rfl
theorem exec_mbxTmo (ch : Fin 16) (toB : Bool) : exec (.mbxTmo ch toB) s = execMbxTmo ch toB s := rfl
theorem exec_coreReset (core : Fin 4) : exec (.coreReset core) s = execCoreReset core s := rfl
theorem exec_hvmBridgeRestart : exec .hvmBridgeRestart s = execHvmBridgeRestart s := rfl
theorem exec_injectSingle (lane : Fin 24) : exec (.injectSingle lane) s = execInjectSingle lane s := rfl
theorem exec_injectBurst (lane : Fin 24) (len : Fin 64) : exec (.injectBurst lane len) s = execInjectBurst lane len s := rfl
theorem exec_tapHoldSet (tap : Fin 10) (v : W32) : exec (.tapHoldSet tap v) s = execTapHoldSet tap v s := rfl
theorem exec_wbHoldSet (composer : Fin 4) (v : W32) : exec (.wbHoldSet composer v) s = execWbHoldSet composer v s := rfl
theorem exec_dlyLock : exec .dlyLock s = execDlyLock s := rfl
theorem exec_evtErrClear : exec .evtErrClear s = execEvtErrClear s := rfl
theorem exec_timNowNs (master : Byte) : exec (.timNowNs master) s = execTimNowNs master s := rfl
theorem exec_tstStartAnalogue (master : Byte) (item : BitVec 6) : exec (.tstStartAnalogue master item) s = execTstStartAnalogue master item s := rfl
theorem exec_tstStartLbist (master : Byte) (item : BitVec 6) : exec (.tstStartLbist master item) s = execTstStartLbist master item s := rfl
theorem exec_tstStartMbist (master : Byte) (item : BitVec 6) : exec (.tstStartMbist master item) s = execTstStartMbist master item s := rfl
theorem exec_tstAdmitExpiry : exec .tstAdmitExpiry s = execTstAdmitExpiry s := rfl
theorem exec_testDone (e : TestEnd) : exec (.testDone e) s = execTestDone e s := rfl
theorem exec_vqSqDb (pair : Fin 16) (v : W32) : exec (.vqSqDb pair v) s = execVqSqDb pair v s := rfl
theorem exec_vqCqHead (pair : Fin 16) (v : W32) : exec (.vqCqHead pair v) s = execVqCqHead pair v s := rfl
theorem exec_vqNop (pair : Fin 16) (slot : VqSlot) : exec (.vqNop pair slot) s = execVqNop pair slot s := rfl
theorem exec_vqRead (pair : Fin 16) (slot : VqSlot) : exec (.vqRead pair slot) s = execVqRead pair slot s := rfl
theorem exec_vqWrite (pair : Fin 16) (slot : VqSlot) : exec (.vqWrite pair slot) s = execVqWrite pair slot s := rfl
theorem exec_vqCopy (pair : Fin 16) (slot : VqSlot) : exec (.vqCopy pair slot) s = execVqCopy pair slot s := rfl
theorem exec_vqReadFrame (pair : Fin 16) (slot : VqSlot) : exec (.vqReadFrame pair slot) s = execVqReadFrame pair slot s := rfl
theorem exec_vqFlush (pair : Fin 16) (slot : VqSlot) : exec (.vqFlush pair slot) s = execVqFlush pair slot s := rfl
theorem exec_vqAbort (pair : Fin 16) (slot : VqSlot) (target : AbortAt) : exec (.vqAbort pair slot target) s = execVqAbort pair slot target s := rfl
theorem exec_vqCmdStart (pair : Fin 16) (target : AbortAt) : exec (.vqCmdStart pair target) s = execVqCmdStart pair target s := rfl
theorem exec_vqTransferDone (pair : Fin 16) (tag : BitVec 13) (data : HostRead) (moved : Nat) : exec (.vqTransferDone pair tag data moved) s = execVqTransferDone pair tag data moved s := rfl
theorem exec_vqCplPost (pair : Fin 16) : exec (.vqCplPost pair) s = execVqCplPost pair s := rfl
theorem exec_vqDeferExpiry (pair : Fin 16) (tag : BitVec 13) : exec (.vqDeferExpiry pair tag) s = execVqDeferExpiry pair tag s := rfl
theorem exec_vqTmoExpiry (pair : Fin 16) (tag : BitVec 13) (moved : Nat) (data : HostRead) : exec (.vqTmoExpiry pair tag moved data) s = execVqTmoExpiry pair tag moved data s := rfl
theorem exec_vqCqStall (pair : Fin 16) : exec (.vqCqStall pair) s = execVqCqStall pair s := rfl
theorem exec_memrd (addr : Nat) : exec (.memrd addr) s = execMemrd addr s := rfl
theorem exec_memrddata (addr : Nat) : exec (.memrddata addr) s = execMemrddata addr s := rfl
theorem exec_meminv (addr : Nat) : exec (.meminv addr) s = execMeminv addr s := rfl
theorem exec_memspecrd (addr : Nat) : exec (.memspecrd addr) s = execMemspecrd addr s := rfl
theorem exec_memwr (addr : Nat) (data : List Byte) : exec (.memwr addr data) s = execMemwr addr data s := rfl
theorem exec_memwrptl (addr : Nat) (data : List Byte) (mask : BitVec 64) : exec (.memwrptl addr data mask) s = execMemwrptl addr data mask s := rfl
theorem exec_hdmCommit (dec : Fin 2) (base size ways : Nat) : exec (.hdmCommit dec base size ways) s = execHdmCommit dec base size ways s := rfl
theorem exec_snpinv (line : BitVec 58) (data : HostRead) : exec (.snpinv line data) s = execSnpinv line data s := rfl
theorem exec_fencePoll (addr : BitVec 64) (data : HostRead) : exec (.fencePoll addr data) s = execFencePoll addr data s := rfl
theorem exec_dmaReadError (src : Fin 24) (who : BitVec 16) (addr : Nat) (poisoned : Bool) : exec (.dmaReadError src who addr poisoned) s = execDmaReadError src who addr poisoned s := rfl
theorem exec_cacheWriteError (src : Fin 24) (who : BitVec 16) (addr : Nat) : exec (.cacheWriteError src who addr) s = execCacheWriteError src who addr s := rfl
theorem exec_linkTrainingDone (full : Bool) (width : Nat) (rate : Nat) : exec (.linkTrainingDone full width rate) s = execLinkTrainingDone full width rate s := rfl
theorem exec_linkDown : exec .linkDown s = execLinkDown s := rfl
theorem exec_flr : exec .flr s = execFlr s := rfl
theorem exec_perstNAssert : exec .perstNAssert s = execPerstNAssert s := rfl
theorem exec_warmBoot (rep : BootRep) : exec (.warmBoot rep) s = execWarmBoot rep s := rfl
theorem exec_coldBoot (rep : BootRep) : exec (.coldBoot rep) s = execColdBoot rep s := rfl
theorem exec_wake (recPin early : Bool) : exec (.wake recPin early) s = execWake recPin early s := rfl
theorem exec_fwRunState : exec .fwRunState s = execFwRunState s := rfl
theorem exec_fwActivateTimeout : exec .fwActivateTimeout s = execFwActivateTimeout s := rfl
theorem exec_uvlo : exec .uvlo s = execUvlo s := rfl
theorem exec_ovlo : exec .ovlo s = execOvlo s := rfl
theorem exec_vinWarn (falling : Bool) : exec (.vinWarn falling) s = execVinWarn falling s := rfl
theorem exec_recPress (src : Fin 3) : exec (.recPress src) s = execRecPress src s := rfl
theorem exec_recRelease (src : Fin 3) : exec (.recRelease src) s = execRecRelease src s := rfl
theorem exec_ubMark (ub : Fin 2) : exec (.ubMark ub) s = execUbMark ub s := rfl
theorem exec_recFailFlashEnd : exec .recFailFlashEnd s = execRecFailFlashEnd s := rfl
theorem exec_comma (lane : Fin 24) (at_ : Nat) (bits : List Bool) : exec (.comma lane at_ bits) s = execComma lane at_ bits s := rfl
theorem exec_cdrLockLoss (lane : Fin 24) : exec (.cdrLockLoss lane) s = execCdrLockLoss lane s := rfl
theorem exec_linkWord (port : Fin 4) : exec (.linkWord port) s = execLinkWord port s := rfl
theorem exec_idle (port : Fin 4) : exec (.idle port) s = execIdle port s := rfl
theorem exec_frameStart (port : Fin 4) : exec (.frameStart port) s = execFrameStart port s := rfl
theorem exec_frameEnd (port : Fin 4) : exec (.frameEnd port) s = execFrameEnd port s := rfl
theorem exec_lineStart (port : Fin 4) : exec (.lineStart port) s = execLineStart port s := rfl
theorem exec_lineData (port : Fin 4) (full : Bool) : exec (.lineData port full) s = execLineData port full s := rfl
theorem exec_lineEnd (port : Fin 4) : exec (.lineEnd port) s = execLineEnd port s := rfl
theorem exec_embedded (port : Fin 4) : exec (.embedded port) s = execEmbedded port s := rfl
theorem exec_frameTimeout (port : Fin 4) : exec (.frameTimeout port) s = execFrameTimeout port s := rfl
theorem exec_lnkLockTimeout (port : Fin 4) : exec (.lnkLockTimeout port) s = execLnkLockTimeout port s := rfl
theorem exec_snsXferStart (port : Fin 4) : exec (.snsXferStart port) s = execSnsXferStart port s := rfl
theorem exec_snsXferDone (port : Fin 4) (e : XferEnd) : exec (.snsXferDone port e) s = execSnsXferDone port e s := rfl
theorem exec_settingsWriteDone (port : Fin 4) (e : XferEnd) : exec (.settingsWriteDone port e) s = execSettingsWriteDone port e s := rfl
theorem exec_setWindowExpiry (port : Fin 4) : exec (.setWindowExpiry port) s = execSetWindowExpiry port s := rfl
theorem exec_trgAssert (port : Fin 4) : exec (.trgAssert port) s = execTrgAssert port s := rfl
theorem exec_trgDeassert (port : Fin 4) : exec (.trgDeassert port) s = execTrgDeassert port s := rfl
theorem exec_stripeLanded (port : Fin 4) : exec (.stripeLanded port) s = execStripeLanded port s := rfl
theorem exec_stripeStart : exec .stripeStart s = execStripeStart s := rfl
theorem exec_stripeDone : exec .stripeDone s = execStripeDone s := rfl
theorem exec_ladleTrigger (ctx : Fin 6) : exec (.ladleTrigger ctx) s = execLadleTrigger ctx s := rfl
theorem exec_readbackStale (ctx : Fin 6) : exec (.readbackStale ctx) s = execReadbackStale ctx s := rfl
theorem exec_paceTick (pc : Fin 2) : exec (.paceTick pc) s = execPaceTick pc s := rfl
theorem exec_vp1Entry (request : Bool) : exec (.vp1Entry request) s = execVp1Entry request s := rfl
theorem exec_vp2Entry (request : Bool) : exec (.vp2Entry request) s = execVp2Entry request s := rfl
theorem exec_peRowStart : exec .peRowStart s = execPeRowStart s := rfl
theorem exec_peRowDone (r : RowOut) : exec (.peRowDone r) s = execPeRowDone r s := rfl
theorem exec_entropySliceDone (o : EntropyOut) : exec (.entropySliceDone o) s = execEntropySliceDone o s := rfl
theorem exec_spoolDrain (stream : Fin 16) : exec (.spoolDrain stream) s = execSpoolDrain stream s := rfl
theorem exec_cdcDrHead (stream : Fin 16) (v : W32) : exec (.cdcDrHead stream v) s = execCdcDrHead stream v s := rfl
theorem exec_cdcDdHead (stream : Fin 16) (v : W32) : exec (.cdcDdHead stream v) s = execCdcDdHead stream v s := rfl
theorem exec_cdcRingStall (stream : Fin 16) : exec (.cdcRingStall stream) s = execCdcRingStall stream s := rfl
theorem exec_streamerSend (stream : Fin 16) : exec (.streamerSend stream) s = execStreamerSend stream s := rfl
theorem exec_decodePictureEnd (session : Fin 2) : exec (.decodePictureEnd session) s = execDecodePictureEnd session s := rfl
theorem exec_decodeOutput (session : Fin 2) : exec (.decodeOutput session) s = execDecodeOutput session s := rfl
theorem exec_poolWaitEnd (session : Fin 2) : exec (.poolWaitEnd session) s = execPoolWaitEnd session s := rfl
theorem exec_cdcDecStall (session : Fin 2) : exec (.cdcDecStall session) s = execCdcDecStall session s := rfl
theorem exec_cmpLatch (composer : Fin 4) (line : BitVec 16) (torn : BitVec 8) : exec (.cmpLatch composer line torn) s = execCmpLatch composer line torn s := rfl
theorem exec_fenceTimeout (composer : Fin 4) (layer : Fin 8) (tag : BitVec 16) : exec (.fenceTimeout composer layer tag) s = execFenceTimeout composer layer tag s := rfl
theorem exec_vblankStart (t : Fin 4) (phase : W32) (torn : BitVec 8) : exec (.vblankStart t phase torn) s = execVblankStart t phase torn s := rfl
theorem exec_hotplug (port : Fin 4) (present : Bool) : exec (.hotplug port present) s = execHotplug port present s := rfl
theorem exec_dcsXferRun (port : Fin 4) (acked : Bool) (report : W32) (data : List Byte) : exec (.dcsXferRun port acked report data) s = execDcsXferRun port acked report data s := rfl
theorem exec_audBlockBoundary (port : Fin 8) (ppm : Int) : exec (.audBlockBoundary port ppm) s = execAudBlockBoundary port ppm s := rfl
theorem exec_playFetch (port : Fin 8) : exec (.playFetch port) s = execPlayFetch port s := rfl
theorem exec_audFrameIn (port : Fin 8) (slotA slotB : W32) (full : Bool) : exec (.audFrameIn port slotA slotB full) s = execAudFrameIn port slotA slotB full s := rfl
theorem exec_audStartInstant : exec .audStartInstant s = execAudStartInstant s := rfl
theorem exec_audClockStop (port : Fin 8) : exec (.audClockStop port) s = execAudClockStop port s := rfl
theorem exec_audGlitch (port : Fin 8) : exec (.audGlitch port) s = execAudGlitch port s := rfl
theorem exec_audRateChange (port : Fin 8) : exec (.audRateChange port) s = execAudRateChange port s := rfl
theorem exec_holdoverExit (port : Fin 8) : exec (.holdoverExit port) s = execHoldoverExit port s := rfl
theorem exec_tbWrap : exec .tbWrap s = execTbWrap s := rfl
theorem exec_fcgTick (fcg : Fin 4) : exec (.fcgTick fcg) s = execFcgTick fcg s := rfl
theorem exec_netRxFrame (frame : List Byte) (fcsOk : Bool) (desc : HostRead) : exec (.netRxFrame frame fcsOk desc) s = execNetRxFrame frame fcsOk desc s := rfl
theorem exec_netTxEgress (queue : Fin 2) (fetch : List NetFetch) : exec (.netTxEgress queue fetch) s = execNetTxEgress queue fetch s := rfl
theorem exec_netLaunch : exec .netLaunch s = execNetLaunch s := rfl
theorem exec_netLinkChange (up : Bool) (fetch0 : List NetFetch) (fetch1 : List NetFetch) : exec (.netLinkChange up fetch0 fetch1) s = execNetLinkChange up fetch0 fetch1 s := rfl
theorem exec_netDb (ring : Fin 3) (v : W32) (fetch : List NetFetch) : exec (.netDb ring v fetch) s = execNetDb ring v fetch s := rfl
theorem exec_dflJobStart (src : HostRead) (list : HostRead) (st : HostRead) : exec (.dflJobStart src list st) s = execDflJobStart src list st s := rfl
theorem exec_dflJobEnd (engine : Fin 2) : exec (.dflJobEnd engine) s = execDflJobEnd engine s := rfl
theorem exec_dflDeferExpiry (tag : BitVec 16) : exec (.dflDeferExpiry tag) s = execDflDeferExpiry tag s := rfl
theorem exec_dmcRefresh (chan : Fin 32) (wait : Bool) : exec (.dmcRefresh chan wait) s = execDmcRefresh chan wait s := rfl
theorem exec_dmcUncorrectable (dpa : Nat) (fails corrected : Bool) : exec (.dmcUncorrectable dpa fails corrected) s = execDmcUncorrectable dpa fails corrected s := rfl
theorem exec_suspectAppend (row : Fin 32) : exec (.suspectAppend row) s = execSuspectAppend row s := rfl
theorem exec_dmcDelayPass : exec .dmcDelayPass s = execDmcDelayPass s := rfl
theorem exec_hkRoundComplete (v : Vector (BitVec 16) 16) : exec (.hkRoundComplete v) s = execHkRoundComplete v s := rfl
theorem exec_budgetTick (t : DmcTick) : exec (.budgetTick t) s = execBudgetTick t s := rfl
theorem exec_axTrip (port : Fin 4) (off : Bool) : exec (.axTrip port off) s = execAxTrip port off s := rfl
theorem exec_axRetryExpiry (port : Fin 4) : exec (.axRetryExpiry port) s = execAxRetryExpiry port s := rfl
theorem exec_axRetryReset (port : Fin 4) : exec (.axRetryReset port) s = execAxRetryReset port s := rfl
theorem exec_axLoadChange (port : Fin 4) (present : Bool) : exec (.axLoadChange port present) s = execAxLoadChange port present s := rfl
theorem exec_axReverseCurrent (port : Fin 4) : exec (.axReverseCurrent port) s = execAxReverseCurrent port s := rfl
theorem exec_hcrcFail (port : Fin 4) : exec (.hcrcFail port) s = execHcrcFail port s := rfl
theorem exec_reservedTypePacket (port : Fin 4) : exec (.reservedTypePacket port) s = execReservedTypePacket port s := rfl
theorem exec_patSyncChange (lane : Fin 24) (bits : List Bool) : exec (.patSyncChange lane bits) s = execPatSyncChange lane bits s := rfl
theorem exec_ovloExit : exec .ovloExit s = execOvloExit s := rfl
theorem exec_axReverseClear (port : Fin 4) : exec (.axReverseClear port) s = execAxReverseClear port s := rfl
theorem exec_axLimiting (port : Fin 4) (above : Bool) : exec (.axLimiting port above) s = execAxLimiting port above s := rfl
theorem exec_lnkStopWaitExpiry (port : Fin 4) : exec (.lnkStopWaitExpiry port) s = execLnkStopWaitExpiry port s := rfl
theorem exec_doeRequest : exec .doeRequest s = execDoeRequest s := rfl
theorem exec_linkCrcError : exec .linkCrcError s = execLinkCrcError s := rfl
theorem exec_cxlCacheProtocolError (inAddr : Bool) : exec (.cxlCacheProtocolError inAddr) s = execCxlCacheProtocolError inAddr s := rfl

end Sys2Proof.Machine
end

