-- ==== Sys2Proof/Laws/Host.lean ====
section
/-!
SUPPORT. What a CXL.mem write leaves in memory, byte by byte (R51), and what a register read keeps (R6, R9).
-/
namespace Sys2Proof.Machine
open Sys2Proof

theorem State.writeMasked_mem_rising (a mask : Nat) (bs : List Byte) : ∀ (i : Nat) {s : State}, storeRising s.mem = true →
    storeRising (s.writeMasked a mask i bs).mem = true := by
  induction bs with
  | nil => intro i s h; exact h
  | cons b t ih =>
    intro i s h
    refine ih (i + 1) ?_
    split
    · exact State.setMemB_mem_rising h _ _
    · exact h

/-- A byte after a masked write: the data's byte where it lies in the line and the mask enables it, else what it was. -/
theorem State.memB_writeMasked (a mask x : Nat) (bs : List Byte) : ∀ (i : Nat) {s : State}, storeRising s.mem = true →
    (s.writeMasked a mask i bs).memB x =
      if a + i ≤ x ∧ x < a + i + bs.length ∧ bitAt mask (x - a) = true then bs.getD (x - a - i) 0 else s.memB x := by
  induction bs with
  | nil =>
    intro i s _
    rw [if_neg (by simp only [List.length_nil]; omega)]
    rfl
  | cons b t ih =>
    intro i s h
    have hr : storeRising (if bitAt mask i then s.setMemB (a + i) b else s).mem = true := by
      split
      · exact State.setMemB_mem_rising h _ _
      · exact h
    refine (ih (i + 1) hr).trans ?_
    by_cases hx : x = a + i
    · subst hx
      rw [if_neg (by omega)]
      have e : a + i - a = i := by omega
      by_cases hm : bitAt mask i = true
      · rw [if_pos hm, State.memB_setMemB_self h, if_pos ⟨Nat.le_refl _, by simp, by rw [e]; exact hm⟩, e, Nat.sub_self]
        rfl
      · rw [if_neg hm, if_neg (by rw [e]; exact fun c => hm c.2.2)]
    · have keep : (if bitAt mask i then s.setMemB (a + i) b else s).memB x = s.memB x := by
        split
        · exact State.memB_setMemB_ne s b hx
        · rfl
      rw [keep]
      by_cases c : a + (i + 1) ≤ x ∧ x < a + (i + 1) + t.length ∧ bitAt mask (x - a) = true
      · rw [if_pos c, if_pos ⟨by omega, by simp only [List.length_cons]; omega, c.2.2⟩]
        have e : x - a - i = (x - a - (i + 1)) + 1 := by omega
        rw [e, List.getD_cons_succ]
      · rw [if_neg c, if_neg]
        rintro ⟨c1, c2, c3⟩
        simp only [List.length_cons] at c2
        exact c ⟨by omega, by omega, c3⟩

/-- A read that clears leaves latched words, outputs and the device state. -/
theorem State.readClear_keeps (s : State) (a : Nat) :
    (s.readClear a).latch = s.latch ∧ (s.readClear a).out = s.out ∧ (s.readClear a).dev = s.dev := by
  unfold State.readClear
  split
  · exact ⟨rfl, rfl, rfl⟩
  · simp only []
    split <;> exact ⟨rfl, rfl, rfl⟩

/-- A low word of a pair is not a semaphore's register nor TIM_NOW_NS, and neither is the word after it. -/
theorem pairLow_plain {a : Nat} (h : isPairLow a = true) :
    a ≠ TIM_NOW_NS ∧ a + 4 ≠ TIM_NOW_NS ∧ ¬ (0x200400 ≤ a ∧ a < 0x200600 ∧ a % 0x10 = 0) ∧
      ¬ (0x200400 ≤ a + 4 ∧ a + 4 < 0x200600 ∧ (a + 4) % 0x10 = 0) := by
  have k : ∀ n : Fin 32, isPairLow (0x200400 + 0x10 * n.val) = false ∧ isPairLow (0x2003FC + 0x10 * n.val) = false := by
    decide +kernel
  refine ⟨fun e => ?_, fun e => ?_, fun ⟨x, y, z⟩ => ?_, fun ⟨x, y, z⟩ => ?_⟩
  · rw [e] at h; exact absurd h (by decide +kernel)
  · have e' : a = TIM_NOW_NS - 4 := by omega
    rw [e'] at h; exact absurd h (by decide +kernel)
  · have e : a = 0x200400 + 0x10 * ((a - 0x200400) / 0x10) := by omega
    have q := (k ⟨(a - 0x200400) / 0x10, by omega⟩).1
    simp only at q
    rw [← e, h] at q
    exact absurd q (by decide)
  · have e : a = 0x2003FC + 0x10 * ((a + 4 - 0x200400) / 0x10) := by omega
    have q := (k ⟨(a + 4 - 0x200400) / 0x10, by omega⟩).2
    simp only at q
    rw [← e, h] at q
    exact absurd q (by decide)

end Sys2Proof.Machine
end

