-- ==== Sys2Proof/Laws/Kept.lean ====
section
/-!
SUPPORT. What every operation of the model keeps: `Kept fx s₀ s` relates a state to the state an operation started from.
The shared operations over registers, memory and outputs are here; the other files hold the rest, one lemma per operation.
-/
namespace Sys2Proof.Machine
open Sys2Proof

/-- What `Kept` reads of a state, field by field. -/
structure KeptP (fx : Bool) (s₀ : State) (pending : List Instr) (v : Variant) (regs : List (Nat × W32))
    (mem bar2 host : List (Nat × Byte)) (out : List Out) (ctr : Nat) : Prop where
  queue : pending = s₀.pending
  same_variant : v = s₀.dev.variant
  regsWf : storeWf (regReset s₀.dev.variant) s₀.regs = true → storeWf (regReset s₀.dev.variant) regs = true
  memWf : storeWf memDefault s₀.mem = true → storeWf memDefault mem = true
  bar2Wf : storeWf memDefault s₀.bar2 = true → storeWf memDefault bar2 = true
  hostWf : storeRising s₀.host = true → storeRising host = true
  same : fx = true → mem = s₀.mem
  grows : s₀.out <+: out
  ctrUp : s₀.freeCtr ≤ ctr

/-- From `s₀` to `s` the queue and the variant stay, every store stays canonical, the record of outputs and the counter of
free values only grow and, where `fx` says so, the working region stays as it is. -/
structure Kept (fx : Bool) (s₀ s : State) : Prop where
  parts : KeptP fx s₀ s.pending s.dev.variant s.regs s.mem s.bar2 s.host s.out s.freeCtr

variable {fx : Bool} {s₀ s : State}

@[simp] theorem Kept.refl (m : Bool) (s : State) : Kept m s s :=
  ⟨⟨rfl, rfl, id, id, id, id, fun _ => rfl, List.prefix_refl _, Nat.le_refl _⟩⟩

theorem Kept.trans {m : Bool} {a b c : State} (h : Kept m a b) (k : Kept m b c) : Kept m a c := by
  obtain ⟨h⟩ := h
  obtain ⟨k⟩ := k
  have r := k.regsWf
  rw [h.same_variant] at r
  exact ⟨⟨k.queue.trans h.queue, k.same_variant.trans h.same_variant, fun w => r (h.regsWf w), fun w => k.memWf (h.memWf w),
    fun w => k.bar2Wf (h.bar2Wf w), fun w => k.hostWf (h.hostWf w), fun w => (k.same w).trans (h.same w),
    h.grows.trans k.grows, Nat.le_trans h.ctrUp k.ctrUp⟩⟩

theorem Kept.weaken {a c : State} (h : Kept true a c) (m : Bool) : Kept m a c := by
  obtain ⟨h⟩ := h
  exact ⟨⟨h.queue, h.same_variant, h.regsWf, h.memWf, h.bar2Wf, h.hostWf, fun _ => h.same rfl, h.grows, h.ctrUp⟩⟩

/-- A record update outside the parts that `Kept` reads. -/
@[simp] theorem KeptP.fold :
    KeptP fx s₀ s.pending s.dev.variant s.regs s.mem s.bar2 s.host s.out s.freeCtr = Kept fx s₀ s :=
  propext ⟨fun h => ⟨h⟩, fun h => h.parts⟩

@[simp] theorem Kept.of_record (pending regs latch mem host bar2 dev cmd evt cxl mbx dlt lane port raw ctx ladle tap vlt vq dfl dmc
    flash pwr cdc cmp dsp aud tim tst net out ctr) :
    Kept fx s₀ (State.mk regs latch mem host bar2 dev cmd evt cxl mbx dlt lane port raw ctx ladle tap vlt vq dfl dmc flash pwr
      cdc cmp dsp aud tim tst net out ctr pending)
      = KeptP fx s₀ pending dev.variant regs mem bar2 host out ctr :=
  propext ⟨fun h => h.parts, fun h => ⟨h⟩⟩

@[simp] theorem Kept.ite {c : Prop} {_ : Decidable c} {x y : State} (hx : Kept fx s₀ x) (hy : Kept fx s₀ y) :
    Kept fx s₀ (if c then x else y) := by
  split <;> assumption

@[simp] theorem Kept.foldl {β : Type} (g : State → β → State) (l : List β) (hg : ∀ s x, Kept fx s (g s x)) (h : Kept fx s₀ s) :
    Kept fx s₀ (l.foldl g s) := by
  induction l generalizing s with
  | nil => exact h
  | cons x t ih => exact ih (h.trans (hg s x))

/-- The same of a row's outcome, where it is a next state. -/
structure KeptR (fx : Bool) (s₀ : State) (r : Res) : Prop where
  next_kept : ∀ t, r = .next t → Kept fx s₀ t

/-- The same of a state that may be there. -/
structure KeptO (fx : Bool) (s₀ : State) (r : Option State) : Prop where
  some_kept : ∀ t, r = some t → Kept fx s₀ t

/-- The same of the state in a pair, first or last. -/
structure KeptB {β : Type} (fx : Bool) (s₀ : State) (x : State × β) : Prop where
  fst_kept : Kept fx s₀ x.1
structure KeptS {β : Type} (fx : Bool) (s₀ : State) (x : β × State) : Prop where
  snd_kept : Kept fx s₀ x.2

@[simp] theorem KeptB.pair {β : Type} {t : State} {y : β} : KeptB fx s₀ (t, y) = Kept fx s₀ t :=
  propext ⟨fun h => h.fst_kept, fun h => ⟨h⟩⟩
@[simp] theorem KeptS.pair {β : Type} {t : State} {y : β} : KeptS fx s₀ (y, t) = Kept fx s₀ t :=
  propext ⟨fun h => h.snd_kept, fun h => ⟨h⟩⟩
@[simp] theorem KeptB.ite {β : Type} {c : Prop} {_ : Decidable c} {x y : State × β} (hx : KeptB fx s₀ x) (hy : KeptB fx s₀ y) :
    KeptB fx s₀ (if c then x else y) := by
  split <;> assumption
@[simp] theorem KeptS.ite {β : Type} {c : Prop} {_ : Decidable c} {x y : β × State} (hx : KeptS fx s₀ x) (hy : KeptS fx s₀ y) :
    KeptS fx s₀ (if c then x else y) := by
  split <;> assumption
theorem Kept.of_fst {β : Type} {x : State × β} {t : State} {y : β} (e : x = (t, y)) (h : KeptB fx s₀ x) : Kept fx s₀ t := by
  cases e; exact h.fst_kept
theorem Kept.of_snd {β : Type} {x : β × State} {t : State} {y : β} (e : x = (y, t)) (h : KeptS fx s₀ x) : Kept fx s₀ t := by
  cases e; exact h.snd_kept
@[simp] theorem Kept.fst {β : Type} {x : State × β} (h : KeptB fx s₀ x) : Kept fx s₀ x.1 := h.fst_kept
@[simp] theorem Kept.snd {β : Type} {x : β × State} (h : KeptS fx s₀ x) : Kept fx s₀ x.2 := h.snd_kept

@[simp] theorem KeptR.next {t : State} : KeptR fx s₀ (.next t) = Kept fx s₀ t :=
  propext ⟨fun h => h.next_kept t rfl, fun h => ⟨fun _ e => (by cases e; exact h)⟩⟩
@[simp] theorem KeptR.fault (e : Fault) : KeptR fx s₀ (.fault e) := ⟨fun _ h => nomatch h⟩
@[simp] theorem KeptR.ite {c : Prop} {_ : Decidable c} {x y : Res} (hx : KeptR fx s₀ x) (hy : KeptR fx s₀ y) :
    KeptR fx s₀ (if c then x else y) := by
  split <;> assumption
@[simp] theorem KeptO.some {t : State} : KeptO fx s₀ (some t) = Kept fx s₀ t :=
  propext ⟨fun h => h.some_kept t rfl, fun h => ⟨fun _ e => (by cases e; exact h)⟩⟩
@[simp] theorem KeptO.none : KeptO fx s₀ none := ⟨fun _ h => nomatch h⟩
@[simp] theorem KeptO.ite {c : Prop} {_ : Decidable c} {x y : Option State} (hx : KeptO fx s₀ x) (hy : KeptO fx s₀ y) :
    KeptO fx s₀ (if c then x else y) := by
  split <;> assumption

/-! ### Registers, outputs and free values -/

@[simp] theorem State.wr_kept (a : Nat) (v : W32) (h : Kept fx s₀ s) : Kept fx s₀ (s.wr a v) :=
  h.trans ⟨⟨rfl, rfl, fun w => storeWf_set a v w, id, id, id, fun _ => rfl, List.prefix_refl _, Nat.le_refl _⟩⟩

@[simp] theorem State.emit_kept (o : Out) (h : Kept fx s₀ s) : Kept fx s₀ (s.emit o) :=
  h.trans ⟨⟨rfl, rfl, id, id, id, id, fun _ => rfl, List.prefix_append _ _, Nat.le_refl _⟩⟩

@[simp] theorem State.draw_kept (h : Kept fx s₀ s) : KeptS fx s₀ s.draw :=
  ⟨h.trans ⟨⟨rfl, rfl, id, id, id, id, fun _ => rfl, List.prefix_refl _, Nat.le_succ _⟩⟩⟩

@[simp] theorem State.drawnTo_kept (n : Nat) (h : Kept fx s₀ s) : Kept fx s₀ (s.drawnTo n) :=
  h.trans ⟨⟨rfl, rfl, id, id, id, id, fun _ => rfl, List.prefix_refl _, Nat.le_max_left _ _⟩⟩

/-- Registers filtered out of the file hold their reset values again. -/
theorem State.regs_filter_kept (p : Nat × W32 → Bool) (h : Kept fx s₀ s) : Kept fx s₀ { s with regs := s.regs.filter p } :=
  h.trans ⟨⟨rfl, rfl, fun w => storeWf_filter p w, id, id, id, fun _ => rfl, List.prefix_refl _, Nat.le_refl _⟩⟩

/-! ### Memory -/

@[simp] theorem State.setMemB_kept (a : Nat) (x : Byte) (h : Kept false s₀ s) : Kept false s₀ (s.setMemB a x) :=
  h.trans ⟨⟨rfl, rfl, id, fun w => storeWf_set a x w, id, id, fun h => (nomatch h), List.prefix_refl _, Nat.le_refl _⟩⟩

@[simp] theorem State.writeMem_kept (a : Nat) (bs : List Byte) (h : Kept false s₀ s) : Kept false s₀ (s.writeMem a bs) := by
  induction bs generalizing a s with
  | nil => exact h
  | cons x t ih => exact ih (a + 1) (State.setMemB_kept a x h)

theorem hostPut_rising (l : List (Nat × Byte)) (a : Nat) (bs : List Byte) (h : storeRising l = true) :
    storeRising (hostPut l a bs) = true := by
  induction bs generalizing l a with
  | nil => exact h
  | cons x t ih => exact ih _ _ (storeRising_put a x h)

theorem bar2Put_wf (l : List (Nat × Byte)) (a : Nat) (bs : List Byte) (h : storeWf memDefault l = true) :
    storeWf memDefault (bar2Put l a bs) = true := by
  induction bs generalizing l a with
  | nil => exact h
  | cons x t ih => exact ih _ _ (storeWf_set a x h)

@[simp] theorem State.writeHost_kept (a : Nat) (bs : List Byte) (h : Kept fx s₀ s) : Kept fx s₀ (s.writeHost a bs) :=
  h.trans ⟨⟨rfl, rfl, id, id, id, fun w => hostPut_rising _ a bs w, fun _ => rfl, List.prefix_refl _, Nat.le_refl _⟩⟩

@[simp] theorem State.writeBar2_kept (a : Nat) (bs : List Byte) (h : Kept fx s₀ s) : Kept fx s₀ (s.writeBar2 a bs) :=
  h.trans ⟨⟨rfl, rfl, id, id, fun w => bar2Put_wf _ a bs w, id, fun _ => rfl, List.prefix_refl _, Nat.le_refl _⟩⟩

end Sys2Proof.Machine
end

