-- ==== Sys2Proof/Laws/KeptFlags.lean ====
section
/-!
SUPPORT. What the operations of Machine/Flags.lean keep.
-/
namespace Sys2Proof.Machine
open Sys2Proof

set_option linter.unusedSimpArgs false

variable {fx : Bool} {s₀ s : State}

@[simp] theorem State.wn_kept (a : Nat) (v : Nat) (hk : Kept fx s₀ s) : Kept fx s₀ (State.wn s a v) := by
  simp [State.wn, hk]

@[simp] theorem State.setF_kept (x : Fld) (v : Nat) (hk : Kept fx s₀ s) : Kept fx s₀ (State.setF s x v) := by
  simp [State.setF, hk]

@[simp] theorem State.setB_kept (x : Fld) (b : Bool) (hk : Kept fx s₀ s) : Kept fx s₀ (State.setB s x b) := by
  simp [State.setB, hk]

@[simp] theorem State.raise_kept (x : Fld) (hk : Kept fx s₀ s) : Kept fx s₀ (State.raise s x) := by
  simp [State.raise, hk]

@[simp] theorem State.setBit_kept (x : Fld) (i : Nat) (b : Bool) (hk : Kept fx s₀ s) :
    Kept fx s₀ (State.setBit s x i b) := by
  simp [State.setBit, hk]

@[simp] theorem State.vector_kept (v : Nat) (hk : Kept fx s₀ s) : Kept fx s₀ (State.vector s v) := by
  simp [State.vector, hk]

@[simp] theorem State.pend_kept (x : Fld) (i : Nat) (enabled : Bool) (v : Nat) (hk : Kept fx s₀ s) :
    Kept fx s₀ (State.pend s x i enabled v) := by
  simp only [State.pend]
  repeat' first
    | with_reducible exact hk
    | simp only [Kept.of_record, KeptP.fold]
    | with_reducible first | apply Kept.refl | apply Kept.ite | apply State.setBit_kept | apply State.vector_kept
    | intro _
    | split
    | (simp; done)

@[simp] theorem State.pendIf_kept (x : Fld) (i : Nat) (enabled : Bool) (v : Nat) (hk : Kept fx s₀ s) :
    Kept fx s₀ (State.pendIf s x i enabled v) := by
  simp [State.pendIf, hk]

@[simp] theorem State.aer_kept (e : Aer) (hk : Kept fx s₀ s) : Kept fx s₀ (State.aer s e) := by
  simp [State.aer, hk]

@[simp] theorem State.bumpStat_kept (a : Nat) (n : Nat) (hk : Kept fx s₀ s) : Kept fx s₀ (State.bumpStat s a n) := by
  simp [State.bumpStat, hk]

@[simp] theorem State.highWater_kept (a : Nat) (v : Nat) (hk : Kept fx s₀ s) : Kept fx s₀ (State.highWater s a v) := by
  simp [State.highWater, hk]

@[simp] theorem State.evtDev_kept (code sev : Nat) (hk : Kept fx s₀ s) : Kept fx s₀ (State.evtDev s code sev) := by
  simp [State.evtDev, hk]

@[simp] theorem State.evtVectors_kept (code sev : Nat) (hk : Kept fx s₀ s) : Kept fx s₀ (State.evtVectors s code sev) := by
  simp only [State.evtVectors]
  repeat' first
    | with_reducible exact hk
    | simp only [Kept.of_record, KeptP.fold]
    | with_reducible first | apply Kept.refl | apply Kept.ite | apply Kept.foldl | apply State.pend_kept
    | with_reducible first | apply State.evtDev_kept
    | intro _
    | split
    | (simp; done)

@[simp] theorem State.dropOldest_kept (full : Bool) (hk : Kept fx s₀ s) : Kept fx s₀ (State.dropOldest s full) := by
  simp only [State.dropOldest]
  repeat' first
    | with_reducible exact hk
    | simp only [Kept.of_record, KeptP.fold]
    | with_reducible first | apply Kept.refl | apply Kept.ite | apply State.bumpStat_kept
    | intro _
    | split
    | (simp; done)

@[simp] theorem State.errEntry_kept (e : EvtEntry) (hk : Kept fx s₀ s) : Kept fx s₀ (State.errEntry s e) := by
  simp [State.errEntry, hk]

@[simp] theorem State.logEntry_kept (e : EvtEntry) (hk : Kept fx s₀ s) : Kept fx s₀ (State.logEntry s e) := by
  simp only [State.logEntry]
  repeat' first
    | with_reducible exact hk
    | simp only [Kept.of_record, KeptP.fold]
    | with_reducible first | apply Kept.refl | apply Kept.ite | apply State.dropOldest_kept
    | with_reducible first | apply State.errEntry_kept | apply State.wr_kept
    | intro _
    | split
    | (simp; done)

@[simp] theorem State.log_kept (b : Blk) (code : Nat) (target : Nat) (a0 : Nat) (a1 : Nat) (a2 : Nat) (hk : Kept fx s₀ s) :
    Kept fx s₀ (State.log s b code target a0 a1 a2) := by
  simp only [State.log]
  repeat' first
    | with_reducible exact hk
    | simp only [Kept.of_record, KeptP.fold]
    | with_reducible first | apply Kept.refl | apply Kept.ite | apply State.bumpStat_kept
    | with_reducible first | apply State.evtVectors_kept | apply State.logEntry_kept | apply State.boot_kept
    | intro _
    | split
    | (simp; done)

@[simp] theorem State.logMany_kept (b : Blk) (es : List (Nat × Nat × Nat × Nat)) (hk : Kept fx s₀ s) :
    Kept fx s₀ (State.logMany s b es) := by
  simp only [State.logMany]
  repeat' first
    | with_reducible exact hk
    | simp only [Kept.of_record, KeptP.fold]
    | with_reducible first | apply Kept.refl | apply Kept.ite | apply Kept.foldl | apply State.bumpStat_kept
    | with_reducible first | apply State.log_kept
    | intro _
    | split
    | (simp; done)

@[simp] theorem State.bumpEvt_kept (b : Blk) (a : Nat) (n : Nat) (hk : Kept fx s₀ s) :
    Kept fx s₀ (State.bumpEvt s b a n) := by
  simp only [State.bumpEvt]
  repeat' first
    | with_reducible exact hk
    | simp only [Kept.of_record, KeptP.fold]
    | with_reducible first | apply Kept.refl | apply Kept.ite | apply State.wn_kept | apply State.log_kept
    | intro _
    | split
    | (simp; done)

end Sys2Proof.Machine
end

