-- ==== Sys2Proof/Laws/KeptMedia.lean ====
section
/-!
SUPPORT. What the operations of Machine/Media.lean keep.
-/
namespace Sys2Proof.Machine
open Sys2Proof

set_option linter.unusedSimpArgs false

variable {fx : Bool} {s₀ s : State}

@[simp] theorem State.suspect_kept (v : Nat) (hk : Kept fx s₀ s) : Kept fx s₀ (State.suspect s v) := by
  simp only [State.suspect]
  repeat' first
    | with_reducible exact hk
    | simp only [Kept.of_record, KeptP.fold]
    | with_reducible first | apply Kept.refl | apply Kept.ite | apply State.wn_kept | apply State.raise_kept
    | intro _
    | split
    | (simp; done)

@[simp] theorem State.poisonLine_kept (dpa : Nat) (hk : Kept fx s₀ s) : Kept fx s₀ (State.poisonLine s dpa) := by
  simp only [State.poisonLine]
  repeat' first
    | with_reducible exact hk
    | simp only [Kept.of_record, KeptP.fold]
    | with_reducible first | apply Kept.refl | apply Kept.ite | apply State.raise_kept | apply State.bumpStat_kept
    | with_reducible first | apply State.log_kept | apply State.suspect_kept
    | intro _
    | split
    | (simp; done)

end Sys2Proof.Machine
end

