-- ==== Sys2Proof/Laws/KeptOperands.lean ====
section
/-!
SUPPORT. What the operations of Machine/Operands.lean keep.
-/
namespace Sys2Proof.Machine
open Sys2Proof

set_option linter.unusedSimpArgs false

variable {fx : Bool} {s₀ s : State}

@[simp] theorem State.dmaWrite_kept (a : Nat) (bs : List Byte) (bulk : Bool) (hk : Kept fx s₀ s) :
    Kept fx s₀ (State.dmaWrite s a bs bulk) := by
  simp [State.dmaWrite, hk]

@[simp] theorem State.writeRef_kept (r : BufRef) (bs : List Byte) (bulk : Bool) (hk : Kept false s₀ s) :
    Kept false s₀ (State.writeRef s r bs bulk) := by
  simp only [State.writeRef]
  repeat' first
    | with_reducible exact hk
    | simp only [Kept.of_record, KeptP.fold]
    | with_reducible first | apply Kept.refl | apply Kept.ite | apply State.dmaWrite_kept
    | with_reducible first | apply State.writeMem_kept
    | intro _
    | split
    | (simp; done)

end Sys2Proof.Machine
end

