-- ==== Sys2Proof/Laws/KeptFprint.lean ====
section
/-!
SUPPORT. What the operations of Machine/Fprint.lean keep.
-/
namespace Sys2Proof.Machine
open Sys2Proof

set_option linter.unusedSimpArgs false

variable {fx : Bool} {s₀ s : State}

@[simp] theorem State.commitSince_kept (s0 : State) (hk : Kept fx s₀ s) : Kept fx s₀ (State.commitSince s s0) := by
  simp only [State.commitSince]
  repeat' first
    | with_reducible exact hk
    | simp only [Kept.of_record, KeptP.fold]
    | with_reducible first | apply Kept.refl | apply Kept.ite
    | intro _
    | split
    | (simp; done)

end Sys2Proof.Machine
end

