-- ==== Sys2Proof/Laws/KeptOps.lean ====
section
/-!
SUPPORT. What the operations of Machine/Ops.lean keep.
-/
namespace Sys2Proof.Machine
open Sys2Proof

set_option linter.unusedSimpArgs false

variable {fx : Bool} {s₀ s : State}

@[simp] theorem State.unstart_kept (h : Hdr) (hk : Kept fx s₀ s) : Kept fx s₀ (State.unstart s h) := by
  simp [State.unstart, hk]

@[simp] theorem State.restart_kept (h : Hdr) (g : Started → Started) (hk : Kept fx s₀ s) :
    Kept fx s₀ (State.restart s h g) := by
  simp [State.restart, hk]

@[simp] theorem State.countReply_kept (hk : Kept fx s₀ s) : Kept fx s₀ (State.countReply s) := by
  simp [State.countReply, hk]

@[simp] theorem State.writeReply_kept (r : Reply) (hk : Kept fx s₀ s) : Kept fx s₀ (State.writeReply s r) := by
  simp only [State.writeReply]
  repeat' first
    | with_reducible exact hk
    | simp only [Kept.of_record, KeptP.fold]
    | with_reducible first | apply Kept.refl | apply Kept.ite | apply State.setF_kept | apply State.pend_kept
    | with_reducible first | apply State.unstart_kept | apply State.countReply_kept | apply State.writeBar2_kept
    | with_reducible first | apply State.writeHost_kept
    | intro _
    | split
    | (simp; done)

@[simp] theorem State.deliver_kept (r : Reply) (hk : Kept fx s₀ s) : Kept fx s₀ (State.deliver s r) := by
  simp [State.deliver, hk]

@[simp] theorem State.flushHeld_kept (n k : Nat) (hk : Kept fx s₀ s) : Kept fx s₀ (State.flushHeld n k s) := by
  induction k generalizing s with
  | zero => exact hk
  | succ k ih =>
    unfold State.flushHeld
    split
    · exact hk
    · split
      · exact hk
      · exact ih (State.writeReply_kept _ (by simp [hk]))

@[simp] theorem State.finishF_kept (h : Hdr) (o : Outc) (hk : Kept fx s₀ s) : Kept fx s₀ (State.finishF s h o) := by
  simp [State.finishF, hk]

@[simp] theorem State.complete_kept (h : Hdr) (o : Outc) (hk : Kept fx s₀ s) : Kept fx s₀ (State.complete s h o) := by
  simp only [State.complete]
  repeat' first
    | with_reducible exact hk
    | simp only [Kept.of_record, KeptP.fold]
    | with_reducible first | apply Kept.refl | apply Kept.ite | apply State.unstart_kept | apply State.deliver_kept
    | with_reducible first | apply State.finishF_kept
    | intro _
    | split
    | (simp; done)

/-- An opcode row keeps what the body of its meaning keeps. -/
@[simp] theorem runOp_kept (op : Nat) (p : Pkt) (body : Body) (hb : ∀ s, KeptB fx s (body s)) (hk : Kept fx s₀ s) :
    Kept fx s₀ (runOp op p s body) := by
  have done {t : State} (h : Hdr) (o : Outc) (ht : Kept fx s₀ t) : Kept fx s₀ (t.complete h o) := by simp [ht]
  have fin {t : State} (h : Hdr) (o : Outc) (ht : Kept fx s₀ t) : Kept fx s₀ (t.finishF h o) := by simp [ht]
  have run {t u : State} {o : Option Outc} (e : body t = (u, o)) (ht : Kept fx s₀ t) : Kept fx s₀ u := by
    exact ht.trans (Kept.of_fst e (hb t))
  have hr (g : Started → Started) : Kept fx s₀ (s.restart (s.pktHdr op p) g) := by simp [hk]
  cases hs : opSpec op with
  | none => simpa [runOp, hs] using done _ _ hk
  | some sp =>
    simp only [runOp, hs]
    refine Kept.ite (by simp [hk]) ?_
    cases hc : headerCheck sp s.dev.safe s.dlt.disabled (s.pktHdr op p).ring p.params.length (s.pktHdr op p).flags p.target.toNat 0 p.params with
    | some o => exact done _ _ hk
    | none =>
      refine Kept.ite ?_ (Kept.ite hk ?_)
      · cases hw : reservedWord sp p.params with
        | some i => exact done _ _ hk
        | none =>
          cases hbs : body s with
          | mk u o => cases o with
            | some o => exact done _ _ (run hbs hk)
            | none => exact run hbs hk
      · cases hw : reservedWord sp p.params with
        | some i => exact fin _ _ (hr _)
        | none =>
          cases hbs : body (s.restart (s.pktHdr op p) (fun e => { e with queued := false })) with
          | mk u o => cases o with
            | some o => simpa [hbs] using fin _ _ (run hbs (hr _))
            | none => simpa [hbs] using run hbs (hr _)

end Sys2Proof.Machine
end

