-- ==== Sys2Proof/Laws/KeptCmd.lean ====
section
/-!
SUPPORT. What the operations of Machine/Cmd.lean keep.
-/
namespace Sys2Proof.Machine
open Sys2Proof

set_option linter.unusedSimpArgs false

variable {fx : Bool} {s₀ s : State}

@[simp] theorem State.setWait_kept (n : Nat) (fwq barrier : Bool) (hk : Kept fx s₀ s) :
    Kept fx s₀ (State.setWait s n fwq barrier) := by
  simp [State.setWait, hk]

@[simp] theorem State.headNext_kept (n : Nat) (hk : Kept fx s₀ s) : Kept fx s₀ (State.headNext s n) := by
  simp [State.headNext, hk]

@[simp] theorem State.start_kept (e : Started) (hk : Kept fx s₀ s) : Kept fx s₀ (State.start s e) := by
  simp [State.start, hk]

@[simp] theorem State.startPacket_kept (n : Nat) (opcode flags : Nat) (seq : W32) (len target rsv : Nat) (params : List W32) (hk : Kept fx s₀ s) :
    Kept fx s₀ (State.startPacket s n opcode flags seq len target rsv params) := by
  simp only [State.startPacket]
  repeat' first
    | with_reducible exact hk
    | simp only [Kept.of_record, KeptP.fold]
    | with_reducible first | apply Kept.refl | apply Kept.ite | apply State.complete_kept
    | with_reducible first | apply State.setWait_kept | apply State.headNext_kept | apply State.start_kept
    | intro _
    | split
    | (simp; done)

@[simp] theorem execPacketFetch_kept (ring : Fin 4) (slot : Slot) (hk : Kept fx s₀ s) :
    KeptR fx s₀ (execPacketFetch ring slot s) := by
  simp only [execPacketFetch, KeptR.next]
  repeat' first
    | with_reducible exact hk
    | simp only [Kept.of_record, KeptP.fold, KeptR.next]
    | with_reducible first | apply Kept.refl | apply Kept.ite | apply State.setF_kept | apply State.raise_kept
    | with_reducible first | apply State.aer_kept | apply State.log_kept | apply State.startPacket_kept
    | with_reducible first | apply KeptR.ite | apply KeptR.fault
    | intro _
    | split
    | (simp; done)

@[simp] theorem execFwqUrgentAge_kept (ring : Fin 4) (seq : W32) (hk : Kept fx s₀ s) :
    KeptR fx s₀ (execFwqUrgentAge ring seq s) := by
  simp only [execFwqUrgentAge, KeptR.next]
  repeat' first
    | with_reducible exact hk
    | simp only [Kept.of_record, KeptP.fold, KeptR.next]
    | with_reducible first | apply Kept.refl | apply Kept.ite | apply KeptR.ite | apply KeptR.fault
    | intro _
    | split
    | (simp; done)

@[simp] theorem execCmdRpStall_kept (ring : Fin 4) (hk : Kept fx s₀ s) : KeptR fx s₀ (execCmdRpStall ring s) := by
  simp [execCmdRpStall, hk]

@[simp] theorem execCmdDb_kept (ring : Fin 4) (v : W32) (hk : Kept fx s₀ s) : KeptR fx s₀ (execCmdDb ring v s) := by
  simp only [execCmdDb, KeptR.next]
  repeat' first
    | with_reducible exact hk
    | simp only [Kept.of_record, KeptP.fold, KeptR.next]
    | with_reducible first | apply Kept.refl | apply Kept.ite | apply State.raise_kept | apply KeptR.ite
    | with_reducible first | apply KeptR.fault
    | intro _
    | split
    | (simp; done)

end Sys2Proof.Machine
end

