-- ==== Sys2Proof/Laws/KeptMbx.lean ====
section
/-!
SUPPORT. What the operations of Machine/Mbx.lean keep.
-/
namespace Sys2Proof.Machine
open Sys2Proof

set_option linter.unusedSimpArgs false

variable {fx : Bool} {s₀ s : State}

@[simp] theorem State.mbxSet_kept (n : Nat) (b : Bool) (x : MbxSide) (hk : Kept fx s₀ s) :
    Kept fx s₀ (State.mbxSet s n b x) := by
  simp [State.mbxSet, hk]

@[simp] theorem State.mbxDeny_kept (m : Byte) (hk : Kept fx s₀ s) : Kept fx s₀ (State.mbxDeny s m) := by
  simp [State.mbxDeny, hk]

@[simp] theorem execTxData_kept (m : Byte) (ch : Fin 16) (w : W32) (hk : Kept fx s₀ s) :
    KeptR fx s₀ (execTxData m ch w s) := by
  simp only [execTxData, KeptR.next]
  repeat' first
    | with_reducible exact hk
    | simp only [Kept.of_record, KeptP.fold, KeptR.next]
    | with_reducible first | apply Kept.refl | apply Kept.ite | apply State.setBit_kept | apply State.pend_kept
    | with_reducible first | apply State.aer_kept | apply State.bumpStat_kept | apply State.mbxSet_kept
    | with_reducible first | apply State.mbxDeny_kept | apply State.emit_kept | apply KeptR.ite | apply KeptR.fault
    | intro _
    | split
    | (simp; done)

@[simp] theorem execRxWordLo_kept (m : Byte) (ch : Fin 16) (hk : Kept fx s₀ s) : KeptR fx s₀ (execRxWordLo m ch s) := by
  simp only [execRxWordLo, KeptR.next]
  repeat' first
    | with_reducible exact hk
    | simp only [Kept.of_record, KeptP.fold, KeptR.next]
    | with_reducible first | apply Kept.refl | apply Kept.ite | apply State.mbxSet_kept | apply State.emit_kept
    | with_reducible first | apply KeptR.ite | apply KeptR.fault
    | intro _
    | split
    | (simp; done)

@[simp] theorem State.windowRead_kept (m : Byte) (n o : Nat) (hk : Kept fx s₀ s) :
    KeptR fx s₀ (State.windowRead s m n o) := by
  simp only [State.windowRead, KeptR.next]
  repeat' first
    | with_reducible exact hk
    | simp only [Kept.of_record, KeptP.fold, KeptR.next]
    | with_reducible first | apply Kept.refl | apply Kept.ite | apply execRxWordLo_kept | apply State.emit_kept
    | with_reducible first | apply KeptR.ite | apply KeptR.fault
    | intro _
    | split
    | (simp; done)

@[simp] theorem execMbxTmo_kept (ch : Fin 16) (toB : Bool) (hk : Kept fx s₀ s) : KeptR fx s₀ (execMbxTmo ch toB s) := by
  simp only [execMbxTmo, KeptR.next]
  repeat' first
    | with_reducible exact hk
    | simp only [Kept.of_record, KeptP.fold, KeptR.next]
    | with_reducible first | apply Kept.refl | apply Kept.ite | apply State.setBit_kept | apply State.log_kept
    | with_reducible first | apply State.mbxSet_kept | apply KeptR.ite | apply KeptR.fault
    | intro _
    | split
    | (simp; done)

@[simp] theorem State.mbxResetSide_kept (n : Nat) (b : Bool) (hk : Kept fx s₀ s) :
    Kept fx s₀ (State.mbxResetSide s n b) := by
  simp [State.mbxResetSide, hk]

@[simp] theorem State.masterReset_kept (m : Byte) (hk : Kept fx s₀ s) : Kept fx s₀ (State.masterReset s m) := by
  simp only [State.masterReset]
  repeat' first
    | with_reducible exact hk
    | simp only [Kept.of_record, KeptP.fold]
    | with_reducible first | apply Kept.refl | apply Kept.ite | apply Kept.foldl | apply State.logMany_kept
    | with_reducible first | apply State.mbxResetSide_kept
    | intro _
    | split
    | (simp; done)

@[simp] theorem execCoreReset_kept (core : Fin 4) (hk : Kept fx s₀ s) : KeptR fx s₀ (execCoreReset core s) := by
  simp [execCoreReset, hk]

@[simp] theorem execHvmBridgeRestart_kept (hk : Kept fx s₀ s) : KeptR fx s₀ (execHvmBridgeRestart s) := by
  simp [execHvmBridgeRestart, hk]

@[simp] theorem execSemAcquire_kept (m : Byte) (n : Fin 32) (hk : Kept fx s₀ s) : KeptR fx s₀ (execSemAcquire m n s) := by
  simp only [execSemAcquire, KeptR.next]
  repeat' first
    | with_reducible exact hk
    | simp only [Kept.of_record, KeptP.fold, KeptR.next]
    | with_reducible first | apply Kept.refl | apply Kept.ite | apply State.emit_kept | apply KeptR.ite
    | with_reducible first | apply KeptR.fault
    | intro _
    | split
    | (simp; done)

@[simp] theorem execSemRelease_kept (m : Byte) (n : Fin 32) (hk : Kept fx s₀ s) : KeptR fx s₀ (execSemRelease m n s) := by
  simp only [execSemRelease, KeptR.next]
  repeat' first
    | with_reducible exact hk
    | simp only [Kept.of_record, KeptP.fold, KeptR.next]
    | with_reducible first | apply Kept.refl | apply Kept.ite | apply State.log_kept | apply KeptR.ite
    | with_reducible first | apply KeptR.fault
    | intro _
    | split
    | (simp; done)

@[simp] theorem State.rwlDenied_kept (b : Blk) (a : Nat) (hk : Kept fx s₀ s) : Kept fx s₀ (State.rwlDenied s b a) := by
  simp [State.rwlDenied, hk]

@[simp] theorem execMbxCtrlLock_kept (hk : Kept fx s₀ s) : KeptR fx s₀ (execMbxCtrlLock s) := by
  simp only [execMbxCtrlLock, KeptR.next]
  repeat' first
    | with_reducible exact hk
    | simp only [Kept.of_record, KeptP.fold, KeptR.next]
    | with_reducible first | apply Kept.refl | apply Kept.ite | apply State.raise_kept | apply State.rwlDenied_kept
    | with_reducible first | apply KeptR.ite | apply KeptR.fault
    | intro _
    | split
    | (simp; done)

@[simp] theorem State.bindChannel_kept (n v : Nat) (hk : Kept fx s₀ s) : KeptO fx s₀ (State.bindChannel s n v) := by
  simp only [State.bindChannel]
  repeat' first
    | with_reducible exact hk
    | simp only [Kept.of_record, KeptP.fold, KeptO.some]
    | with_reducible first | apply Kept.refl | apply Kept.ite | apply State.wn_kept | apply State.setBit_kept
    | with_reducible first | apply State.mbxSet_kept | apply KeptO.ite | exact KeptO.none
    | intro _
    | split
    | (simp; done)

@[simp] theorem execMbxBind_kept (p : Pkt) (hk : Kept fx s₀ s) : KeptR fx s₀ (execMbxBind p s) := by
  simp only [execMbxBind, KeptR.next]
  repeat' first
    | with_reducible exact hk
    | simp only [Kept.of_record, KeptP.fold, KeptB.pair, KeptR.next]
    | with_reducible first | apply Kept.refl | apply Kept.ite | apply KeptB.ite | apply Kept.fst | apply runOp_kept
    | with_reducible first | apply State.bindChannel_kept | apply KeptR.ite | apply KeptR.fault
    | with_reducible refine KeptO.some_kept ?_ _ ‹_›
    | with_reducible refine Kept.of_fst ‹_› ?_
    | intro _
    | split
    | (simp; done)

@[simp] theorem execMbxLock_kept (p : Pkt) (hk : Kept fx s₀ s) : KeptR fx s₀ (execMbxLock p s) := by
  simp [execMbxLock, hk]

@[simp] theorem execSemForceRelease_kept (p : Pkt) (hk : Kept fx s₀ s) : KeptR fx s₀ (execSemForceRelease p s) := by
  simp [execSemForceRelease, hk]

end Sys2Proof.Machine
end

