-- ==== Sys2Proof/Laws/KeptVault.lean ====
section
/-!
SUPPORT. What the operations of Machine/Vault.lean keep.
-/
namespace Sys2Proof.Machine
open Sys2Proof

set_option linter.unusedSimpArgs false

variable {fx : Bool} {s₀ s : State}

@[simp] theorem State.modVlt_kept (g : VltSt → VltSt) (hk : Kept fx s₀ s) : Kept fx s₀ (State.modVlt s g) := by
  simp [State.modVlt, hk]

@[simp] theorem State.vaultUse_kept (hk : Kept fx s₀ s) : Kept fx s₀ (State.vaultUse s) := by
  simp [State.vaultUse, hk]

@[simp] theorem State.setAreaWp_kept (a : Area) (v : Nat) (hk : Kept fx s₀ s) : Kept fx s₀ (State.setAreaWp s a v) := by
  simp [State.setAreaWp, hk]

@[simp] theorem State.setIdx_kept (c f : Nat) (e : IdxEntry) (hk : Kept fx s₀ s) : Kept fx s₀ (State.setIdx s c f e) := by
  simp [State.setIdx, hk]

@[simp] theorem State.modRec_kept (c f : Nat) (g : Rec → Rec) (hk : Kept fx s₀ s) : Kept fx s₀ (State.modRec s c f g) := by
  simp [State.modRec, hk]

@[simp] theorem State.reclaim_kept (r : Rec) (hk : Kept fx s₀ s) : Kept fx s₀ (State.reclaim s r) := by
  simp only [State.reclaim]
  repeat' first
    | with_reducible exact hk
    | simp only [Kept.of_record, KeptP.fold]
    | with_reducible first | apply Kept.refl | apply Kept.ite | apply State.wn_kept | apply State.bumpEvt_kept
    | with_reducible first | apply State.setIdx_kept | apply State.modRec_kept
    | intro _
    | split
    | (simp; done)

@[simp] theorem State.notRecorded_kept (c : Nat) (hk : Kept fx s₀ s) : Kept fx s₀ (State.notRecorded s c) := by
  simp only [State.notRecorded]
  repeat' first
    | with_reducible exact hk
    | simp only [Kept.of_record, KeptP.fold]
    | with_reducible first | apply Kept.refl | apply Kept.ite | apply State.raise_kept | apply State.log_kept
    | with_reducible first | apply State.bumpEvt_kept | apply State.modVlt_kept
    | intro _
    | split
    | (simp; done)

@[simp] theorem State.writeRecord_kept (i : FrameInfo) (a : Area) (p f : Nat) (hk : Kept fx s₀ s) :
    Kept fx s₀ (State.writeRecord s i a p f) := by
  simp only [State.writeRecord]
  repeat' first
    | with_reducible exact hk
    | simp only [Kept.of_record, KeptP.fold]
    | with_reducible first | apply Kept.refl | apply Kept.ite | apply Kept.foldl | apply State.wn_kept
    | with_reducible first | apply State.setB_kept | apply State.raise_kept | apply State.log_kept
    | with_reducible first | apply State.bumpEvt_kept | apply State.modVlt_kept | apply State.setAreaWp_kept
    | with_reducible first | apply State.setIdx_kept | apply State.reclaim_kept
    | intro _
    | split
    | (simp; done)

@[simp] theorem State.place_kept (i : FrameInfo) (hk : Kept fx s₀ s) : KeptS fx s₀ (State.place s i) := by
  simp only [State.place]
  repeat' first
    | with_reducible exact hk
    | simp only [Kept.of_record, KeptP.fold, KeptS.pair]
    | with_reducible first | apply Kept.refl | apply Kept.ite | apply KeptS.ite | apply Kept.snd
    | with_reducible first | apply State.raise_kept | apply State.notRecorded_kept | apply State.writeRecord_kept
    | intro _
    | split
    | (simp; done)

@[simp] theorem State.moveWp_kept (r : Rec) (v : Nat) (hk : Kept fx s₀ s) : Kept fx s₀ (State.moveWp s r v) := by
  simp only [State.moveWp]
  repeat' first
    | with_reducible exact hk
    | simp only [Kept.of_record, KeptP.fold]
    | with_reducible first | apply Kept.refl | apply Kept.ite | apply State.setAreaWp_kept
    | intro _
    | split
    | (simp; done)

@[simp] theorem State.landRec_kept (c f : Nat) (payload : List Byte) (dmg : Nat) (hk : Kept fx s₀ s) :
    Kept fx s₀ (State.landRec s c f payload dmg) := by
  simp only [State.landRec]
  repeat' first
    | with_reducible exact hk
    | simp only [Kept.of_record, KeptP.fold]
    | with_reducible first | apply Kept.refl | apply Kept.ite | apply State.modVlt_kept | apply State.modRec_kept
    | with_reducible first | apply State.moveWp_kept
    | intro _
    | split
    | (simp; done)

@[simp] theorem State.modTake_kept (i : Nat) (g : Take → Take) (hk : Kept fx s₀ s) : Kept fx s₀ (State.modTake s i g) := by
  simp [State.modTake, hk]

@[simp] theorem State.countTakes_kept (r : Rec) (hk : Kept fx s₀ s) : Kept fx s₀ (State.countTakes s r) := by
  simp [State.countTakes, hk]

@[simp] theorem State.closeTakes_kept (hk : Kept fx s₀ s) : Kept fx s₀ (State.closeTakes s) := by
  simp only [State.closeTakes]
  repeat' first
    | with_reducible exact hk
    | simp only [Kept.of_record, KeptP.fold]
    | with_reducible first | apply Kept.refl | apply Kept.ite | apply Kept.foldl | apply State.modTake_kept
    | intro _
    | split
    | (simp; done)

@[simp] theorem State.closeRec_kept (c f : Nat) (fp : BitVec 64) (g : Rec → Rec) (hk : Kept fx s₀ s) :
    Kept fx s₀ (State.closeRec s c f fp g) := by
  simp only [State.closeRec]
  repeat' first
    | with_reducible exact hk
    | simp only [Kept.of_record, KeptP.fold]
    | with_reducible first | apply Kept.refl | apply Kept.ite | apply State.modVlt_kept | apply State.setIdx_kept
    | with_reducible first | apply State.modRec_kept | apply State.moveWp_kept | apply State.countTakes_kept
    | with_reducible first | apply State.closeTakes_kept
    | intro _
    | split
    | (simp; done)

@[simp] theorem State.recProcessed_kept (c f gen : Nat) (cnt : ProcCnt) (zone : Option ZoneBlk) (fp : BitVec 64) (hk : Kept fx s₀ s) :
    Kept fx s₀ (State.recProcessed s c f gen cnt zone fp) := by
  simp only [State.recProcessed]
  repeat' first
    | with_reducible exact hk
    | simp only [Kept.of_record, KeptP.fold]
    | with_reducible first | apply Kept.refl | apply Kept.ite | apply State.setIdx_kept | apply State.modRec_kept
    | intro _
    | split
    | (simp; done)

end Sys2Proof.Machine
end

