-- ==== Sys2Proof/Laws/KeptDlt.lean ====
section
/-!
SUPPORT. What the operations of Machine/Dlt.lean keep.
-/
namespace Sys2Proof.Machine
open Sys2Proof

set_option linter.unusedSimpArgs false

variable {fx : Bool} {s₀ s : State}

@[simp] theorem State.publish_kept (hk : Kept fx s₀ s) : Kept fx s₀ (State.publish s) := by
  simp [State.publish, hk]

@[simp] theorem State.republish_kept (hk : Kept fx s₀ s) : Kept fx s₀ (State.republish s) := by
  simp [State.republish, hk]

end Sys2Proof.Machine
end

