-- ==== Sys2Proof/Laws/KeptTakes.lean ====
section
/-!
SUPPORT. What the operations of Machine/Takes.lean keep.
-/
namespace Sys2Proof.Machine
open Sys2Proof

set_option linter.unusedSimpArgs false

variable {fx : Bool} {s₀ s : State}

@[simp] theorem State.tallies_kept (hk : Kept fx s₀ s) : Kept fx s₀ (State.tallies s) := by
  simp only [State.tallies]
  repeat' first
    | with_reducible exact hk
    | simp only [Kept.of_record, KeptP.fold]
    | with_reducible first | apply Kept.refl | apply Kept.ite | apply Kept.foldl | apply State.wn_kept
    | with_reducible first | apply State.setF_kept | apply State.setB_kept | apply State.emit_kept
    | intro _
    | split
    | (simp; done)

@[simp] theorem State.openTake_kept (i mask : Nat) (st : TakeStart) (isRec : Bool) (hk : Kept fx s₀ s) :
    KeptB fx s₀ (State.openTake s i mask st isRec) := by
  simp only [State.openTake]
  repeat' first
    | with_reducible exact hk
    | simp only [Kept.of_record, KeptP.fold, KeptB.pair]
    | with_reducible first | apply Kept.refl | apply Kept.ite | apply KeptB.ite | apply Kept.fst
    | with_reducible first | apply State.log_kept | apply State.modVlt_kept
    | intro _
    | split
    | (simp; done)

@[simp] theorem State.closeTake_kept (i : Nat) (hk : Kept fx s₀ s) : Kept fx s₀ (State.closeTake s i) := by
  simp only [State.closeTake]
  repeat' first
    | with_reducible exact hk
    | simp only [Kept.of_record, KeptP.fold]
    | with_reducible first | apply Kept.refl | apply Kept.ite | apply State.modTake_kept
    | with_reducible first | apply State.closeTakes_kept
    | intro _
    | split
    | (simp; done)

@[simp] theorem State.recFail_kept (hk : Kept fx s₀ s) : Kept fx s₀ (State.recFail s) := by
  simp only [State.recFail]
  repeat' first
    | with_reducible exact hk
    | simp only [Kept.of_record, KeptP.fold]
    | with_reducible first | apply Kept.refl | apply Kept.ite | apply State.raise_kept | apply State.log_kept
    | with_reducible first | apply State.modVlt_kept | apply State.tallies_kept
    | intro _
    | split
    | (simp; done)

@[simp] theorem State.recOpenTake_kept (hk : Kept fx s₀ s) : Kept fx s₀ (State.recOpenTake s) := by
  simp only [State.recOpenTake]
  repeat' first
    | with_reducible exact hk
    | simp only [Kept.of_record, KeptP.fold, KeptB.pair]
    | with_reducible first | apply Kept.refl | apply Kept.ite | apply KeptB.ite | apply Kept.fst
    | with_reducible first | apply State.log_kept | apply State.tallies_kept | apply State.openTake_kept
    | with_reducible first | apply State.recFail_kept
    | with_reducible refine Kept.of_fst ‹_› ?_
    | intro _
    | split
    | (simp; done)

@[simp] theorem State.recCloseTake_kept (i : Nat) (hk : Kept fx s₀ s) : Kept fx s₀ (State.recCloseTake s i) := by
  simp only [State.recCloseTake]
  repeat' first
    | with_reducible exact hk
    | simp only [Kept.of_record, KeptP.fold]
    | with_reducible first | apply Kept.refl | apply Kept.ite | apply State.log_kept | apply State.tallies_kept
    | with_reducible first | apply State.closeTake_kept
    | intro _
    | split
    | (simp; done)

@[simp] theorem State.setLevel_kept (src : Nat) (b : Bool) (hk : Kept fx s₀ s) : Kept fx s₀ (State.setLevel s src b) := by
  simp [State.setLevel, hk]

@[simp] theorem execRecPress_kept (src : Fin 3) (hk : Kept fx s₀ s) : KeptR fx s₀ (execRecPress src s) := by
  simp only [execRecPress, KeptR.next]
  repeat' first
    | with_reducible exact hk
    | simp only [Kept.of_record, KeptP.fold, KeptR.next]
    | with_reducible first | apply Kept.refl | apply Kept.ite | apply State.recOpenTake_kept
    | with_reducible first | apply State.recCloseTake_kept | apply State.setLevel_kept | apply State.hold_kept
    | with_reducible first | apply KeptR.ite | apply KeptR.fault
    | intro _
    | split
    | (simp; done)

@[simp] theorem execRecRelease_kept (src : Fin 3) (hk : Kept fx s₀ s) : KeptR fx s₀ (execRecRelease src s) := by
  simp only [execRecRelease, KeptR.next]
  repeat' first
    | with_reducible exact hk
    | simp only [Kept.of_record, KeptP.fold, KeptR.next]
    | with_reducible first | apply Kept.refl | apply Kept.ite | apply State.recCloseTake_kept
    | with_reducible first | apply State.setLevel_kept | apply State.hold_kept | apply KeptR.ite
    | with_reducible first | apply KeptR.fault
    | intro _
    | split
    | (simp; done)

@[simp] theorem execUbMark_kept (ub : Fin 2) (hk : Kept fx s₀ s) : KeptR fx s₀ (execUbMark ub s) := by
  simp only [execUbMark, KeptR.next]
  repeat' first
    | with_reducible exact hk
    | simp only [Kept.of_record, KeptP.fold, KeptR.next]
    | with_reducible first | apply Kept.refl | apply Kept.ite | apply State.logMany_kept
    | with_reducible first | apply State.setLevel_kept | apply KeptR.ite | apply KeptR.fault
    | intro _
    | split
    | (simp; done)

@[simp] theorem execRecFailFlashEnd_kept (hk : Kept fx s₀ s) : KeptR fx s₀ (execRecFailFlashEnd s) := by
  simp [execRecFailFlashEnd, hk]

@[simp] theorem execTakeOpen_kept (p : Pkt) (hk : Kept fx s₀ s) : KeptR fx s₀ (execTakeOpen p s) := by
  simp only [execTakeOpen, KeptR.next]
  repeat' first
    | with_reducible exact hk
    | simp only [Kept.of_record, KeptP.fold, KeptB.pair, KeptR.next]
    | with_reducible first | apply Kept.refl | apply Kept.ite | apply KeptB.ite | apply Kept.fst | apply runOp_kept
    | with_reducible first | apply State.tallies_kept | apply State.openTake_kept | apply State.start_kept
    | with_reducible first | apply KeptR.ite | apply KeptR.fault
    | with_reducible refine Kept.of_fst ‹_› ?_
    | intro _
    | split
    | (simp; done)

@[simp] theorem execTakeClose_kept (p : Pkt) (hk : Kept fx s₀ s) : KeptR fx s₀ (execTakeClose p s) := by
  simp only [execTakeClose, KeptR.next]
  repeat' first
    | with_reducible exact hk
    | simp only [Kept.of_record, KeptP.fold, KeptB.pair, KeptR.next]
    | with_reducible first | apply Kept.refl | apply Kept.ite | apply KeptB.ite | apply Kept.fst | apply runOp_kept
    | with_reducible first | apply State.vaultUse_kept | apply State.tallies_kept | apply State.closeTake_kept
    | with_reducible first | apply KeptR.ite | apply KeptR.fault
    | with_reducible refine Kept.of_fst ‹_› ?_
    | intro _
    | split
    | (simp; done)

@[simp] theorem execVltPin_kept (p : Pkt) (hk : Kept fx s₀ s) : KeptR fx s₀ (execVltPin p s) := by
  simp only [execVltPin, KeptR.next]
  repeat' first
    | with_reducible exact hk
    | simp only [Kept.of_record, KeptP.fold, KeptB.pair, KeptR.next]
    | with_reducible first | apply Kept.refl | apply Kept.ite | apply KeptB.ite | apply Kept.fst | apply runOp_kept
    | with_reducible first | apply State.modVlt_kept | apply State.vaultUse_kept | apply KeptR.ite
    | with_reducible first | apply KeptR.fault
    | with_reducible refine Kept.of_fst ‹_› ?_
    | intro _
    | split
    | (simp; done)

@[simp] theorem execVltUnpin_kept (p : Pkt) (hk : Kept fx s₀ s) : KeptR fx s₀ (execVltUnpin p s) := by
  simp only [execVltUnpin, KeptR.next]
  repeat' first
    | with_reducible exact hk
    | simp only [Kept.of_record, KeptP.fold, KeptB.pair, KeptR.next]
    | with_reducible first | apply Kept.refl | apply Kept.ite | apply KeptB.ite | apply Kept.fst | apply runOp_kept
    | with_reducible first | apply State.modVlt_kept | apply State.vaultUse_kept | apply KeptR.ite
    | with_reducible first | apply KeptR.fault
    | with_reducible refine Kept.of_fst ‹_› ?_
    | intro _
    | split
    | (simp; done)

@[simp] theorem execVltQueryFrame_kept (p : Pkt) (hk : Kept fx s₀ s) : KeptR fx s₀ (execVltQueryFrame p s) := by
  simp only [execVltQueryFrame, KeptR.next]
  repeat' first
    | with_reducible exact hk
    | simp only [Kept.of_record, KeptP.fold, KeptB.pair, KeptR.next]
    | with_reducible first | apply Kept.refl | apply Kept.ite | apply Kept.foldl | apply KeptB.ite | apply Kept.fst
    | with_reducible first | apply runOp_kept | apply State.vaultUse_kept | apply KeptR.ite | apply KeptR.fault
    | with_reducible refine Kept.of_fst ‹_› ?_
    | intro _
    | split
    | (simp; done)

@[simp] theorem execRecConfig_kept (p : Pkt) (hk : Kept fx s₀ s) : KeptR fx s₀ (execRecConfig p s) := by
  simp only [execRecConfig, KeptR.next]
  repeat' first
    | with_reducible exact hk
    | simp only [Kept.of_record, KeptP.fold, KeptB.pair, KeptR.next]
    | with_reducible first | apply Kept.refl | apply Kept.ite | apply KeptB.ite | apply Kept.fst | apply runOp_kept
    | with_reducible first | apply State.commitSince_kept | apply State.modVlt_kept | apply State.tallies_kept
    | with_reducible first | apply State.hold_kept | apply KeptR.ite | apply KeptR.fault
    | with_reducible refine Kept.of_fst ‹_› ?_
    | intro _
    | split
    | (simp; done)

end Sys2Proof.Machine
end

