-- ==== Sys2Proof/Laws/KeptCtx.lean ====
section
/-!
SUPPORT. What the operations of Machine/Ctx.lean keep.
-/
namespace Sys2Proof.Machine
open Sys2Proof

set_option linter.unusedSimpArgs false

variable {fx : Bool} {s₀ s : State}

@[simp] theorem State.modCx_kept (c : Nat) (g : CtxSt → CtxSt) (hk : Kept fx s₀ s) : Kept fx s₀ (State.modCx s c g) := by
  simp [State.modCx, hk]

@[simp] theorem State.modPt_kept (p : Nat) (g : PortSt → PortSt) (hk : Kept fx s₀ s) : Kept fx s₀ (State.modPt s p g) := by
  simp [State.modPt, hk]

@[simp] theorem State.modRw_kept (p : Nat) (g : RawSt → RawSt) (hk : Kept fx s₀ s) : Kept fx s₀ (State.modRw s p g) := by
  simp [State.modRw, hk]

@[simp] theorem State.modTp_kept (t : Nat) (g : TapSt → TapSt) (hk : Kept fx s₀ s) : Kept fx s₀ (State.modTp s t g) := by
  simp [State.modTp, hk]

@[simp] theorem State.setCst_kept (c v : Nat) (hk : Kept fx s₀ s) : Kept fx s₀ (State.setCst s c v) := by
  simp [State.setCst, hk]

@[simp] theorem execCtxCommit_kept (p : Pkt) (hk : Kept fx s₀ s) : KeptR fx s₀ (execCtxCommit p s) := by
  simp only [execCtxCommit, KeptR.next]
  repeat' first
    | with_reducible exact hk
    | simp only [Kept.of_record, KeptP.fold, KeptB.pair, KeptR.next]
    | with_reducible first | apply Kept.refl | apply Kept.ite | apply KeptB.ite | apply Kept.fst | apply runOp_kept
    | with_reducible first | apply State.raise_kept | apply State.modCx_kept | apply State.modRw_kept
    | with_reducible first | apply State.setCst_kept | apply KeptR.ite | apply KeptR.fault
    | with_reducible refine Kept.of_fst ‹_› ?_
    | intro _
    | split
    | (simp; done)

@[simp] theorem execCtxConfigure_kept (p : Pkt) (hk : Kept fx s₀ s) : KeptR fx s₀ (execCtxConfigure p s) := by
  simp only [execCtxConfigure, KeptR.next]
  repeat' first
    | with_reducible exact hk
    | simp only [Kept.of_record, KeptP.fold, KeptB.pair, KeptR.next]
    | with_reducible first | apply Kept.refl | apply Kept.ite | apply KeptB.ite | apply Kept.fst | apply runOp_kept
    | with_reducible first | apply State.wn_kept | apply KeptR.ite | apply KeptR.fault
    | with_reducible refine Kept.of_fst ‹_› ?_
    | intro _
    | split
    | (simp; done)

@[simp] theorem execCtxSetPolicy_kept (p : Pkt) (hk : Kept fx s₀ s) : KeptR fx s₀ (execCtxSetPolicy p s) := by
  simp only [execCtxSetPolicy, KeptR.next]
  repeat' first
    | with_reducible exact hk
    | simp only [Kept.of_record, KeptP.fold, KeptB.pair, KeptR.next]
    | with_reducible first | apply Kept.refl | apply Kept.ite | apply KeptB.ite | apply Kept.fst | apply runOp_kept
    | with_reducible first | apply State.setF_kept | apply State.setB_kept | apply KeptR.ite | apply KeptR.fault
    | with_reducible refine Kept.of_fst ‹_› ?_
    | intro _
    | split
    | (simp; done)

@[simp] theorem execCtxStatus_kept (p : Pkt) (hk : Kept fx s₀ s) : KeptR fx s₀ (execCtxStatus p s) := by
  simp [execCtxStatus, hk]

end Sys2Proof.Machine
end

