-- ==== Sys2Proof/Laws/KeptRawOps.lean ====
section
/-!
SUPPORT. What the operations of Machine/RawOps.lean keep.
-/
namespace Sys2Proof.Machine
open Sys2Proof

set_option linter.unusedSimpArgs false

variable {fx : Bool} {s₀ s : State}

@[simp] theorem State.refUse_kept (r : BufRef) (hk : Kept fx s₀ s) : Kept fx s₀ (State.refUse s r) := by
  simp [State.refUse, hk]

@[simp] theorem State.refDone_kept (r : BufRef) (o : Option Outc) (hk : Kept fx s₀ s) :
    Kept fx s₀ (State.refDone s r o) := by
  simp only [State.refDone]
  repeat' first
    | with_reducible exact hk
    | simp only [Kept.of_record, KeptP.fold]
    | with_reducible first | apply Kept.refl | apply Kept.ite | apply State.refUse_kept
    | intro _
    | split
    | (simp; done)

@[simp] theorem State.refGuard_kept (r : BufRef) (w : Nat) (k : State → State × Option Outc) (hb : ∀ s, KeptB fx s (k s))
    (hk : Kept fx s₀ s) : KeptB fx s₀ (State.refGuard s r w k) := by
  unfold State.refGuard
  refine KeptB.ite ⟨?_⟩ ⟨hk⟩
  have h := hk.trans (hb s).fst_kept
  simp [h]

@[simp] theorem State.dmaError_kept (b : Blk) (who addr : Nat) (poisoned : Bool) (hk : Kept fx s₀ s) :
    Kept fx s₀ (State.dmaError s b who addr poisoned) := by
  simp [State.dmaError, hk]

@[simp] theorem State.hostError_kept (b : Blk) (h : HostRead) (hk : Kept fx s₀ s) : Kept fx s₀ (State.hostError s b h) := by
  simp only [State.hostError]
  repeat' first
    | with_reducible exact hk
    | simp only [Kept.of_record, KeptP.fold]
    | with_reducible first | apply Kept.refl | apply Kept.ite | apply State.dmaError_kept
    | intro _
    | split
    | (simp; done)

@[simp] theorem State.bufError_kept (b : Blk) (r : BufRef) (h : HostRead) (hk : Kept fx s₀ s) :
    Kept fx s₀ (State.bufError s b r h) := by
  simp only [State.bufError]
  repeat' first
    | with_reducible exact hk
    | simp only [Kept.of_record, KeptP.fold]
    | with_reducible first | apply Kept.refl | apply Kept.ite | apply State.dmaError_kept
    | with_reducible first | apply State.poisonLine_kept | apply State.hostError_kept
    | intro _
    | split
    | (simp; done)

@[simp] theorem execRawSetLin_kept (p : Pkt) (hk : Kept fx s₀ s) : KeptR fx s₀ (execRawSetLin p s) := by
  simp only [execRawSetLin, KeptR.next]
  repeat' first
    | with_reducible exact hk
    | simp only [Kept.of_record, KeptP.fold, KeptB.pair, KeptR.next]
    | with_reducible first | apply Kept.refl | apply Kept.ite | apply KeptB.ite | apply Kept.fst | apply runOp_kept
    | with_reducible first | apply State.modRw_kept | apply State.refGuard_kept | apply State.bufError_kept
    | with_reducible first | apply KeptR.ite | apply KeptR.fault
    | with_reducible refine Kept.of_fst ‹_› ?_
    | intro _
    | split
    | (simp; done)

@[simp] theorem execRawSetBlack_kept (p : Pkt) (hk : Kept fx s₀ s) : KeptR fx s₀ (execRawSetBlack p s) := by
  simp only [execRawSetBlack, KeptR.next]
  repeat' first
    | with_reducible exact hk
    | simp only [Kept.of_record, KeptP.fold, KeptB.pair, KeptR.next]
    | with_reducible first | apply Kept.refl | apply Kept.ite | apply KeptB.ite | apply Kept.fst | apply runOp_kept
    | with_reducible first | apply State.setF_kept | apply State.modRw_kept | apply State.refGuard_kept
    | with_reducible first | apply State.bufError_kept | apply KeptR.ite | apply KeptR.fault
    | with_reducible refine Kept.of_fst ‹_› ?_
    | intro _
    | split
    | (simp; done)

@[simp] theorem execRawSetMerge_kept (p : Pkt) (hk : Kept fx s₀ s) : KeptR fx s₀ (execRawSetMerge p s) := by
  simp only [execRawSetMerge, KeptR.next]
  repeat' first
    | with_reducible exact hk
    | simp only [Kept.of_record, KeptP.fold, KeptB.pair, KeptR.next]
    | with_reducible first | apply Kept.refl | apply Kept.ite | apply Kept.foldl | apply KeptB.ite | apply Kept.fst
    | with_reducible first | apply runOp_kept | apply State.wn_kept | apply State.setF_kept
    | with_reducible first | apply State.modRw_kept | apply KeptR.ite | apply KeptR.fault
    | with_reducible refine Kept.of_fst ‹_› ?_
    | intro _
    | split
    | (simp; done)

@[simp] theorem execRawLoadDefects_kept (p : Pkt) (hk : Kept fx s₀ s) : KeptR fx s₀ (execRawLoadDefects p s) := by
  simp only [execRawLoadDefects, KeptR.next]
  repeat' first
    | with_reducible exact hk
    | simp only [Kept.of_record, KeptP.fold, KeptB.pair, KeptR.next]
    | with_reducible first | apply Kept.refl | apply Kept.ite | apply KeptB.ite | apply Kept.fst | apply runOp_kept
    | with_reducible first | apply State.wn_kept | apply State.setF_kept | apply State.modRw_kept
    | with_reducible first | apply State.refGuard_kept | apply State.bufError_kept | apply KeptR.ite
    | with_reducible first | apply KeptR.fault
    | with_reducible refine Kept.of_fst ‹_› ?_
    | intro _
    | split
    | (simp; done)

@[simp] theorem execRawSetFormat_kept (p : Pkt) (hk : Kept fx s₀ s) : KeptR fx s₀ (execRawSetFormat p s) := by
  simp only [execRawSetFormat, KeptR.next]
  repeat' first
    | with_reducible exact hk
    | simp only [Kept.of_record, KeptP.fold, KeptB.pair, KeptR.next]
    | with_reducible first | apply Kept.refl | apply Kept.ite | apply KeptB.ite | apply Kept.fst | apply runOp_kept
    | with_reducible first | apply State.wn_kept | apply State.setF_kept | apply KeptR.ite | apply KeptR.fault
    | with_reducible refine Kept.of_fst ‹_› ?_
    | intro _
    | split
    | (simp; done)

@[simp] theorem execRawGetStats_kept (p : Pkt) (hk : Kept false s₀ s) : KeptR false s₀ (execRawGetStats p s) := by
  simp only [execRawGetStats, KeptR.next]
  repeat' first
    | with_reducible exact hk
    | simp only [Kept.of_record, KeptP.fold, KeptB.pair, KeptR.next]
    | with_reducible first | apply Kept.refl | apply Kept.ite | apply KeptB.ite | apply Kept.fst | apply runOp_kept
    | with_reducible first | apply State.writeRef_kept | apply State.refGuard_kept | apply State.lastStripe_kept
    | with_reducible first | apply KeptR.ite | apply KeptR.fault
    | with_reducible refine Kept.of_fst ‹_› ?_
    | intro _
    | split
    | (simp; done)

end Sys2Proof.Machine
end

