-- ==== Sys2Proof/Laws/KeptTapOps.lean ====
section
/-!
SUPPORT. What the operations of Machine/TapOps.lean keep.
-/
namespace Sys2Proof.Machine
open Sys2Proof

set_option linter.unusedSimpArgs false

variable {fx : Bool} {s₀ s : State}

@[simp] theorem execClrSetShading_kept (p : Pkt) (hk : Kept fx s₀ s) : KeptR fx s₀ (execClrSetShading p s) := by
  simp only [execClrSetShading, KeptR.next]
  repeat' first
    | with_reducible exact hk
    | simp only [Kept.of_record, KeptP.fold, KeptB.pair, KeptR.next]
    | with_reducible first | apply Kept.refl | apply Kept.ite | apply KeptB.ite | apply Kept.fst | apply runOp_kept
    | with_reducible first | apply State.setF_kept | apply State.modCx_kept | apply State.refGuard_kept
    | with_reducible first | apply State.bufError_kept | apply KeptR.ite | apply KeptR.fault
    | with_reducible refine Kept.of_fst ‹_› ?_
    | intro _
    | split
    | (simp; done)

@[simp] theorem execClrSetWbMatrix_kept (p : Pkt) (hk : Kept fx s₀ s) : KeptR fx s₀ (execClrSetWbMatrix p s) := by
  simp only [execClrSetWbMatrix, KeptR.next]
  repeat' first
    | with_reducible exact hk
    | simp only [Kept.of_record, KeptP.fold, KeptB.pair, KeptR.next]
    | with_reducible first | apply Kept.refl | apply Kept.ite | apply Kept.foldl | apply KeptB.ite | apply Kept.fst
    | with_reducible first | apply runOp_kept | apply State.wn_kept | apply State.setF_kept | apply KeptR.ite
    | with_reducible first | apply KeptR.fault
    | with_reducible refine Kept.of_fst ‹_› ?_
    | intro _
    | split
    | (simp; done)

@[simp] theorem execClrSetWorkspace_kept (p : Pkt) (hk : Kept fx s₀ s) : KeptR fx s₀ (execClrSetWorkspace p s) := by
  simp only [execClrSetWorkspace, KeptR.next]
  repeat' first
    | with_reducible exact hk
    | simp only [Kept.of_record, KeptP.fold, KeptB.pair, KeptR.next]
    | with_reducible first | apply Kept.refl | apply Kept.ite | apply Kept.foldl | apply KeptB.ite | apply Kept.fst
    | with_reducible first | apply runOp_kept | apply State.wn_kept | apply State.setF_kept | apply KeptR.ite
    | with_reducible first | apply KeptR.fault
    | with_reducible refine Kept.of_fst ‹_› ?_
    | intro _
    | split
    | (simp; done)

@[simp] theorem execClrGetZonestats_kept (p : Pkt) (hk : Kept false s₀ s) : KeptR false s₀ (execClrGetZonestats p s) := by
  simp only [execClrGetZonestats, KeptR.next]
  repeat' first
    | with_reducible exact hk
    | simp only [Kept.of_record, KeptP.fold, KeptB.pair, KeptR.next]
    | with_reducible first | apply Kept.refl | apply Kept.ite | apply KeptB.ite | apply Kept.fst | apply runOp_kept
    | with_reducible first | apply State.writeRef_kept | apply State.refGuard_kept | apply KeptR.ite
    | with_reducible first | apply KeptR.fault
    | with_reducible refine Kept.of_fst ‹_› ?_
    | intro _
    | split
    | (simp; done)

@[simp] theorem execTapConfigure_kept (p : Pkt) (hk : Kept fx s₀ s) : KeptR fx s₀ (execTapConfigure p s) := by
  simp only [execTapConfigure, KeptR.next]
  repeat' first
    | with_reducible exact hk
    | simp only [Kept.of_record, KeptP.fold, KeptB.pair, KeptR.next]
    | with_reducible first | apply Kept.refl | apply Kept.ite | apply KeptB.ite | apply Kept.fst | apply runOp_kept
    | with_reducible first | apply State.wn_kept | apply State.setF_kept | apply KeptR.ite | apply KeptR.fault
    | with_reducible refine Kept.of_fst ‹_› ?_
    | intro _
    | split
    | (simp; done)

@[simp] theorem execTapLoadLut_kept (p : Pkt) (hk : Kept fx s₀ s) : KeptR fx s₀ (execTapLoadLut p s) := by
  simp only [execTapLoadLut, KeptR.next]
  repeat' first
    | with_reducible exact hk
    | simp only [Kept.of_record, KeptP.fold, KeptB.pair, KeptR.next]
    | with_reducible first | apply Kept.refl | apply Kept.ite | apply KeptB.ite | apply Kept.fst | apply runOp_kept
    | with_reducible first | apply State.setF_kept | apply State.modTp_kept | apply State.refGuard_kept
    | with_reducible first | apply State.bufError_kept | apply KeptR.ite | apply KeptR.fault
    | with_reducible refine Kept.of_fst ‹_› ?_
    | intro _
    | split
    | (simp; done)

@[simp] theorem execTapEnable_kept (p : Pkt) (hk : Kept fx s₀ s) : KeptR fx s₀ (execTapEnable p s) := by
  simp only [execTapEnable, KeptR.next]
  repeat' first
    | with_reducible exact hk
    | simp only [Kept.of_record, KeptP.fold, KeptB.pair, KeptR.next]
    | with_reducible first | apply Kept.refl | apply Kept.ite | apply KeptB.ite | apply Kept.fst | apply runOp_kept
    | with_reducible first | apply State.setF_kept | apply State.modTp_kept | apply KeptR.ite | apply KeptR.fault
    | with_reducible refine Kept.of_fst ‹_› ?_
    | intro _
    | split
    | (simp; done)

@[simp] theorem execTapDisable_kept (p : Pkt) (hk : Kept fx s₀ s) : KeptR fx s₀ (execTapDisable p s) := by
  simp only [execTapDisable, KeptR.next]
  repeat' first
    | with_reducible exact hk
    | simp only [Kept.of_record, KeptP.fold, KeptB.pair, KeptR.next]
    | with_reducible first | apply Kept.refl | apply Kept.ite | apply KeptB.ite | apply Kept.fst | apply runOp_kept
    | with_reducible first | apply State.modTp_kept | apply KeptR.ite | apply KeptR.fault
    | with_reducible refine Kept.of_fst ‹_› ?_
    | intro _
    | split
    | (simp; done)

end Sys2Proof.Machine
end

