-- ==== Sys2Proof/Laws/KeptBudget.lean ====
section
/-!
SUPPORT. What the operations of Machine/Budget.lean keep.
-/
namespace Sys2Proof.Machine
open Sys2Proof

set_option linter.unusedSimpArgs false

variable {fx : Bool} {s₀ s : State}

@[simp] theorem State.modPwr_kept (g : PwrSt → PwrSt) (hk : Kept fx s₀ s) : Kept fx s₀ (State.modPwr s g) := by
  simp [State.modPwr, hk]

@[simp] theorem State.modEs_kept (i : Nat) (g : EncSt → EncSt) (hk : Kept fx s₀ s) : Kept fx s₀ (State.modEs s i g) := by
  simp [State.modEs, hk]

@[simp] theorem State.modCmp_kept (n : Nat) (g : CmpSt → CmpSt) (hk : Kept fx s₀ s) : Kept fx s₀ (State.modCmp s n g) := by
  simp [State.modCmp, hk]

@[simp] theorem State.letIn_kept (j : BJob) (hk : Kept fx s₀ s) : Kept fx s₀ (State.letIn s j) := by
  simp only [State.letIn]
  repeat' first
    | with_reducible exact hk
    | simp only [Kept.of_record, KeptP.fold]
    | with_reducible first | apply Kept.refl | apply Kept.ite | apply State.wn_kept | apply State.bumpEvt_kept
    | with_reducible first | apply State.modPwr_kept
    | intro _
    | split
    | (simp; done)

@[simp] theorem State.admitHead_kept (k : Nat) (hk : Kept fx s₀ s) : Kept fx s₀ (State.admitHead k s) := by
  induction k generalizing s with
  | zero => exact hk
  | succ k ih =>
    unfold State.admitHead
    split
    · exact hk
    · split
      · exact ih (by simp [hk])
      · exact hk

@[simp] theorem State.arrive_kept (j : BJob) (hk : Kept fx s₀ s) : Kept fx s₀ (State.arrive s j) := by
  simp [State.arrive, hk]

@[simp] theorem State.leaveB_kept (j : BJob) (hk : Kept fx s₀ s) : Kept fx s₀ (State.leaveB s j) := by
  simp [State.leaveB, hk]

@[simp] theorem State.deferB_kept (j : BJob) (hk : Kept fx s₀ s) : Kept fx s₀ (State.deferB s j) := by
  simp [State.deferB, hk]

@[simp] theorem State.setDeg_kept (i : Nat) (hk : Kept fx s₀ s) : Kept fx s₀ (State.setDeg s i) := by
  simp only [State.setDeg]
  repeat' first
    | with_reducible exact hk
    | simp only [Kept.of_record, KeptP.fold]
    | with_reducible first | apply Kept.refl | apply Kept.ite | apply State.setF_kept | apply State.modEs_kept
    | intro _
    | split
    | (simp; done)

@[simp] theorem State.takeStep_kept (l : Nat) (hk : Kept fx s₀ s) : Kept fx s₀ (State.takeStep s l) := by
  simp only [State.takeStep]
  repeat' first
    | with_reducible exact hk
    | simp only [Kept.of_record, KeptP.fold]
    | with_reducible first | apply Kept.refl | apply Kept.ite | apply Kept.foldl | apply State.setF_kept
    | with_reducible first | apply State.pendIf_kept | apply State.log_kept | apply State.bumpEvt_kept
    | with_reducible first | apply State.modPwr_kept | apply State.setDeg_kept
    | intro _
    | split
    | (simp; done)

end Sys2Proof.Machine
end

