-- ==== Sys2Proof/Laws/KeptEncoder.lean ====
section
/-!
SUPPORT. What the operations of Machine/Encoder.lean keep.
-/
namespace Sys2Proof.Machine
open Sys2Proof

set_option linter.unusedSimpArgs false

variable {fx : Bool} {s₀ s : State}

@[simp] theorem State.setMark_kept (b i : Nat) (v : Bool) (hk : Kept fx s₀ s) : Kept fx s₀ (State.setMark s b i v) := by
  simp [State.setMark, hk]

@[simp] theorem State.clearMarks_kept (i : Nat) (hk : Kept fx s₀ s) : Kept fx s₀ (State.clearMarks s i) := by
  simp only [State.clearMarks]
  repeat' first
    | with_reducible exact hk
    | simp only [Kept.of_record, KeptP.fold]
    | with_reducible first | apply Kept.refl | apply Kept.ite | apply Kept.foldl | apply State.setMark_kept
    | intro _
    | split
    | (simp; done)

@[simp] theorem State.encIrq_kept (i cause : Nat) (hk : Kept fx s₀ s) : Kept fx s₀ (State.encIrq s i cause) := by
  simp [State.encIrq, hk]

@[simp] theorem State.encErr_kept (i : Nat) (x : Nat → Fld) (hk : Kept fx s₀ s) : Kept fx s₀ (State.encErr s i x) := by
  simp [State.encErr, hk]

@[simp] theorem State.askIrap_kept (i : Nat) (hk : Kept fx s₀ s) : Kept fx s₀ (State.askIrap s i) := by
  simp [State.askIrap, hk]

@[simp] theorem State.settleEnc_kept (i : Nat) (hk : Kept fx s₀ s) : Kept fx s₀ (State.settleEnc s i) := by
  simp [State.settleEnc, hk]

@[simp] theorem State.slotMissed_kept (i : Nat) (hk : Kept fx s₀ s) : Kept fx s₀ (State.slotMissed s i) := by
  simp only [State.slotMissed]
  repeat' first
    | with_reducible exact hk
    | simp only [Kept.of_record, KeptP.fold]
    | with_reducible first | apply Kept.refl | apply Kept.ite | apply State.bumpEvt_kept | apply State.modEs_kept
    | with_reducible first | apply State.encErr_kept
    | intro _
    | split
    | (simp; done)

@[simp] theorem State.encSlot_kept (c t : Nat) (src : EncSrc) (hk : Kept fx s₀ s) :
    Kept fx s₀ (State.encSlot s c t src) := by
  simp [State.encSlot, hk]

@[simp] theorem State.encMiss_kept (c t : Nat) (hk : Kept fx s₀ s) : Kept fx s₀ (State.encMiss s c t) := by
  simp only [State.encMiss]
  repeat' first
    | with_reducible exact hk
    | simp only [Kept.of_record, KeptP.fold]
    | with_reducible first | apply Kept.refl | apply Kept.ite | apply Kept.foldl | apply State.modEs_kept
    | with_reducible first | apply State.settleEnc_kept | apply State.slotMissed_kept
    | intro _
    | split
    | (simp; done)

@[simp] theorem State.encPartial_kept (i : Nat) (hk : Kept fx s₀ s) : Kept fx s₀ (State.encPartial s i) := by
  simp only [State.encPartial]
  repeat' first
    | with_reducible exact hk
    | simp only [Kept.of_record, KeptP.fold]
    | with_reducible first | apply Kept.refl | apply Kept.ite | apply State.modEs_kept | apply State.encErr_kept
    | intro _
    | split
    | (simp; done)

@[simp] theorem State.encLines_kept (c t fid lines : Nat) (fin : Option (Bool × BitVec 64)) (hk : Kept fx s₀ s) :
    Kept fx s₀ (State.encLines s c t fid lines fin) := by
  simp only [State.encLines]
  repeat' first
    | with_reducible exact hk
    | simp only [Kept.of_record, KeptP.fold]
    | with_reducible first | apply Kept.refl | apply Kept.ite | apply Kept.foldl | apply State.modEs_kept
    | with_reducible first | apply State.encPartial_kept
    | intro _
    | split
    | (simp; done)

@[simp] theorem State.flagOver_kept (i : Nat) (hk : Kept fx s₀ s) : Kept fx s₀ (State.flagOver s i) := by
  simp only [State.flagOver]
  repeat' first
    | with_reducible exact hk
    | simp only [Kept.of_record, KeptP.fold]
    | with_reducible first | apply Kept.refl | apply Kept.ite | apply State.bumpStat_kept | apply State.log_kept
    | with_reducible first | apply State.encErr_kept
    | intro _
    | split
    | (simp; done)

@[simp] theorem State.ringWrite_kept (work : Bool) (a : Nat) (bs : List Byte) (hk : Kept false s₀ s) :
    Kept false s₀ (State.ringWrite s work a bs) := by
  simp [State.ringWrite, hk]

@[simp] theorem State.unitOut_kept (i : Nat) (u : EmUnit) (hk : Kept false s₀ s) : Kept false s₀ (State.unitOut s i u) := by
  simp only [State.unitOut]
  repeat' first
    | with_reducible exact hk
    | simp only [Kept.of_record, KeptP.fold]
    | with_reducible first | apply Kept.refl | apply Kept.ite | apply State.setF_kept | apply State.encIrq_kept
    | with_reducible first | apply State.ringWrite_kept
    | intro _
    | split
    | (simp; done)

@[simp] theorem State.hostUnit_kept (i : Nat) (u : EmUnit) (hk : Kept false s₀ s) :
    Kept false s₀ (State.hostUnit s i u) := by
  simp only [State.hostUnit]
  repeat' first
    | with_reducible exact hk
    | simp only [Kept.of_record, KeptP.fold]
    | with_reducible first | apply Kept.refl | apply Kept.ite | apply State.bumpStat_kept | apply State.log_kept
    | with_reducible first | apply State.modEs_kept | apply State.encErr_kept | apply State.askIrap_kept
    | with_reducible first | apply State.unitOut_kept
    | intro _
    | split
    | (simp; done)

@[simp] theorem State.drainSpool_kept (i k : Nat) (hk : Kept false s₀ s) : Kept false s₀ (State.drainSpool i k s) := by
  induction k generalizing s with
  | zero => exact hk
  | succ k ih =>
    unfold State.drainSpool
    split
    · exact hk
    · exact Kept.ite (ih (by simp [hk])) hk

end Sys2Proof.Machine
end

