-- ==== Sys2Proof/Laws/KeptStreamer.lean ====
section
/-!
SUPPORT. What the operations of Machine/Streamer.lean keep.
-/
namespace Sys2Proof.Machine
open Sys2Proof

set_option linter.unusedSimpArgs false

variable {fx : Bool} {s₀ s : State}

@[simp] theorem State.dropUnit_kept (i n : Nat) (hk : Kept fx s₀ s) : Kept fx s₀ (State.dropUnit s i n) := by
  simp only [State.dropUnit]
  repeat' first
    | with_reducible exact hk
    | simp only [Kept.of_record, KeptP.fold]
    | with_reducible first | apply Kept.refl | apply Kept.ite | apply State.bumpStat_kept | apply State.log_kept
    | with_reducible first | apply State.modEs_kept | apply State.encErr_kept | apply State.askIrap_kept
    | intro _
    | split
    | (simp; done)

@[simp] theorem State.strUnit_kept (i : Nat) (u : EmUnit) (hk : Kept fx s₀ s) : Kept fx s₀ (State.strUnit s i u) := by
  simp only [State.strUnit]
  repeat' first
    | with_reducible exact hk
    | simp only [Kept.of_record, KeptP.fold]
    | with_reducible first | apply Kept.refl | apply Kept.ite | apply State.modEs_kept | apply State.dropUnit_kept
    | intro _
    | split
    | (simp; done)

@[simp] theorem State.strLinkDown_kept (hk : Kept fx s₀ s) : Kept fx s₀ (State.strLinkDown s) := by
  simp only [State.strLinkDown]
  repeat' first
    | with_reducible exact hk
    | simp only [Kept.of_record, KeptP.fold]
    | with_reducible first | apply Kept.refl | apply Kept.ite | apply Kept.foldl | apply State.modEs_kept
    | with_reducible first | apply State.dropUnit_kept
    | intro _
    | split
    | (simp; done)

@[simp] theorem execStreamerSend_kept (stream : Fin 16) (hk : Kept fx s₀ s) : KeptR fx s₀ (execStreamerSend stream s) := by
  simp only [execStreamerSend, KeptR.next]
  repeat' first
    | with_reducible exact hk
    | simp only [Kept.of_record, KeptP.fold, KeptR.next]
    | with_reducible first | apply Kept.refl | apply Kept.ite | apply State.bumpEvt_kept | apply State.modEs_kept
    | with_reducible first | apply State.emit_kept | apply KeptR.ite | apply KeptR.fault
    | intro _
    | split
    | (simp; done)

@[simp] theorem execCdcStreamCreate_kept (p : Pkt) (hk : Kept fx s₀ s) : KeptR fx s₀ (execCdcStreamCreate p s) := by
  simp only [execCdcStreamCreate, KeptR.next]
  repeat' first
    | with_reducible exact hk
    | simp only [Kept.of_record, KeptP.fold, KeptB.pair, KeptR.next]
    | with_reducible first | apply Kept.refl | apply Kept.ite | apply Kept.foldl | apply KeptB.ite | apply Kept.fst
    | with_reducible first | apply runOp_kept | apply State.wn_kept | apply State.commitSince_kept
    | with_reducible first | apply State.modEs_kept | apply State.setDeg_kept | apply State.setMark_kept
    | with_reducible first | apply State.clearMarks_kept | apply KeptR.ite | apply KeptR.fault
    | with_reducible refine Kept.of_fst ‹_› ?_
    | intro _
    | split
    | (simp; done)

@[simp] theorem execCdcStreamStart_kept (p : Pkt) (hk : Kept fx s₀ s) : KeptR fx s₀ (execCdcStreamStart p s) := by
  simp only [execCdcStreamStart, KeptR.next]
  repeat' first
    | with_reducible exact hk
    | simp only [Kept.of_record, KeptP.fold, KeptB.pair, KeptR.next]
    | with_reducible first | apply Kept.refl | apply Kept.ite | apply KeptB.ite | apply Kept.fst | apply runOp_kept
    | with_reducible first | apply State.wn_kept | apply State.setF_kept | apply State.modEs_kept | apply KeptR.ite
    | with_reducible first | apply KeptR.fault
    | with_reducible refine Kept.of_fst ‹_› ?_
    | intro _
    | split
    | (simp; done)

@[simp] theorem State.encStopped_kept (i : Nat) (hk : Kept fx s₀ s) : Kept fx s₀ (State.encStopped s i) := by
  simp only [State.encStopped]
  repeat' first
    | with_reducible exact hk
    | simp only [Kept.of_record, KeptP.fold]
    | with_reducible first | apply Kept.refl | apply Kept.ite | apply State.setF_kept | apply State.log_kept
    | with_reducible first | apply State.modEs_kept | apply State.encIrq_kept
    | intro _
    | split
    | (simp; done)

@[simp] theorem execCdcStreamStop_kept (p : Pkt) (hk : Kept fx s₀ s) : KeptR fx s₀ (execCdcStreamStop p s) := by
  simp only [execCdcStreamStop, KeptR.next]
  repeat' first
    | with_reducible exact hk
    | simp only [Kept.of_record, KeptP.fold, KeptB.pair, KeptR.next]
    | with_reducible first | apply Kept.refl | apply Kept.ite | apply KeptB.ite | apply Kept.fst | apply runOp_kept
    | with_reducible first | apply State.setF_kept | apply State.modEs_kept | apply State.encStopped_kept
    | with_reducible first | apply KeptR.ite | apply KeptR.fault
    | with_reducible refine Kept.of_fst ‹_› ?_
    | intro _
    | split
    | (simp; done)

@[simp] theorem execCdcSetRate_kept (p : Pkt) (hk : Kept fx s₀ s) : KeptR fx s₀ (execCdcSetRate p s) := by
  simp only [execCdcSetRate, KeptR.next]
  repeat' first
    | with_reducible exact hk
    | simp only [Kept.of_record, KeptP.fold, KeptB.pair, KeptR.next]
    | with_reducible first | apply Kept.refl | apply Kept.ite | apply KeptB.ite | apply Kept.fst | apply runOp_kept
    | with_reducible first | apply State.raise_kept | apply State.modEs_kept | apply KeptR.ite | apply KeptR.fault
    | with_reducible refine Kept.of_fst ‹_› ?_
    | intro _
    | split
    | (simp; done)

@[simp] theorem execCdcSetRoi_kept (p : Pkt) (hk : Kept fx s₀ s) : KeptR fx s₀ (execCdcSetRoi p s) := by
  simp only [execCdcSetRoi, KeptR.next]
  repeat' first
    | with_reducible exact hk
    | simp only [Kept.of_record, KeptP.fold, KeptB.pair, KeptR.next]
    | with_reducible first | apply Kept.refl | apply Kept.ite | apply KeptB.ite | apply Kept.fst | apply runOp_kept
    | with_reducible first | apply State.modEs_kept | apply KeptR.ite | apply KeptR.fault
    | with_reducible refine Kept.of_fst ‹_› ?_
    | intro _
    | split
    | (simp; done)

@[simp] theorem execCdcForceIrap_kept (p : Pkt) (hk : Kept fx s₀ s) : KeptR fx s₀ (execCdcForceIrap p s) := by
  simp only [execCdcForceIrap, KeptR.next]
  repeat' first
    | with_reducible exact hk
    | simp only [Kept.of_record, KeptP.fold, KeptB.pair, KeptR.next]
    | with_reducible first | apply Kept.refl | apply Kept.ite | apply KeptB.ite | apply Kept.fst | apply runOp_kept
    | with_reducible first | apply State.askIrap_kept | apply KeptR.ite | apply KeptR.fault
    | with_reducible refine Kept.of_fst ‹_› ?_
    | intro _
    | split
    | (simp; done)

@[simp] theorem execCdcStreamerTemplate_kept (p : Pkt) (hk : Kept fx s₀ s) : KeptR fx s₀ (execCdcStreamerTemplate p s) := by
  simp only [execCdcStreamerTemplate, KeptR.next]
  repeat' first
    | with_reducible exact hk
    | simp only [Kept.of_record, KeptP.fold, KeptB.pair, KeptR.next]
    | with_reducible first | apply Kept.refl | apply Kept.ite | apply KeptB.ite | apply Kept.fst | apply runOp_kept
    | with_reducible first | apply State.modEs_kept | apply KeptR.ite | apply KeptR.fault
    | with_reducible refine Kept.of_fst ‹_› ?_
    | intro _
    | split
    | (simp; done)

@[simp] theorem execCdcDrHead_kept (stream : Fin 16) (v : W32) (hk : Kept fx s₀ s) :
    KeptR fx s₀ (execCdcDrHead stream v s) := by
  simp [execCdcDrHead, hk]

@[simp] theorem execCdcDdHead_kept (stream : Fin 16) (v : W32) (hk : Kept fx s₀ s) :
    KeptR fx s₀ (execCdcDdHead stream v s) := by
  simp [execCdcDdHead, hk]

@[simp] theorem execSpoolDrain_kept (stream : Fin 16) (hk : Kept false s₀ s) : KeptR false s₀ (execSpoolDrain stream s) := by
  simp [execSpoolDrain, hk]

@[simp] theorem execCdcRingStall_kept (stream : Fin 16) (hk : Kept fx s₀ s) : KeptR fx s₀ (execCdcRingStall stream s) := by
  simp only [execCdcRingStall, KeptR.next]
  repeat' first
    | with_reducible exact hk
    | simp only [Kept.of_record, KeptP.fold, KeptR.next]
    | with_reducible first | apply Kept.refl | apply Kept.ite | apply State.log_kept | apply State.encErr_kept
    | with_reducible first | apply KeptR.ite | apply KeptR.fault
    | intro _
    | split
    | (simp; done)

@[simp] theorem State.encFlr_kept (hk : Kept fx s₀ s) : Kept fx s₀ (State.encFlr s) := by
  simp only [State.encFlr]
  repeat' first
    | with_reducible exact hk
    | simp only [Kept.of_record, KeptP.fold]
    | with_reducible first | apply Kept.refl | apply Kept.ite | apply Kept.foldl | apply State.wn_kept
    | with_reducible first | apply State.modEs_kept
    | intro _
    | split
    | (simp; done)

end Sys2Proof.Machine
end

