-- ==== Sys2Proof/Laws/KeptDecoder.lean ====
section
/-!
SUPPORT. What the operations of Machine/Decoder.lean keep.
-/
namespace Sys2Proof.Machine
open Sys2Proof

set_option linter.unusedSimpArgs false

variable {fx : Bool} {s₀ s : State}

@[simp] theorem State.modDs_kept (d : Nat) (g : DecSt → DecSt) (hk : Kept fx s₀ s) : Kept fx s₀ (State.modDs s d g) := by
  simp [State.modDs, hk]

@[simp] theorem State.setBsFree_kept (d : Nat) (hk : Kept fx s₀ s) : Kept fx s₀ (State.setBsFree s d) := by
  simp [State.setBsFree, hk]

@[simp] theorem State.feed_kept (hk : Kept fx s₀ s) : Kept fx s₀ (State.feed s) := by
  simp [State.feed, hk]

@[simp] theorem State.enqueue_kept (j : EntJob) (hk : Kept fx s₀ s) : Kept fx s₀ (State.enqueue s j) := by
  simp [State.enqueue, hk]

@[simp] theorem State.freeEngine_kept (k : Nat) (hk : Kept fx s₀ s) : Kept fx s₀ (State.freeEngine s k) := by
  simp [State.freeEngine, hk]

@[simp] theorem State.feedDec_kept (d : Nat) (hk : Kept fx s₀ s) : Kept fx s₀ (State.feedDec s d) := by
  simp [State.feedDec, hk]

@[simp] theorem State.decArrive_kept (d : Nat) (hk : Kept fx s₀ s) : Kept fx s₀ (State.decArrive s d) := by
  simp only [State.decArrive]
  repeat' first
    | with_reducible exact hk
    | simp only [Kept.of_record, KeptP.fold]
    | with_reducible first | apply Kept.refl | apply Kept.ite | apply State.setB_kept | apply State.bumpEvt_kept
    | with_reducible first | apply State.arrive_kept | apply State.leaveB_kept | apply State.modDs_kept
    | with_reducible first | apply State.feedDec_kept
    | intro _
    | split
    | (simp; done)

@[simp] theorem State.decAdmitted_kept (d : Nat) (hk : Kept fx s₀ s) : Kept fx s₀ (State.decAdmitted s d) := by
  simp only [State.decAdmitted]
  repeat' first
    | with_reducible exact hk
    | simp only [Kept.of_record, KeptP.fold]
    | with_reducible first | apply Kept.refl | apply Kept.ite | apply State.setB_kept | apply State.leaveB_kept
    | with_reducible first | apply State.modDs_kept | apply State.feedDec_kept
    | intro _
    | split
    | (simp; done)

@[simp] theorem State.decErr_kept (d code : Nat) (hk : Kept fx s₀ s) : Kept fx s₀ (State.decErr s d code) := by
  simp only [State.decErr]
  repeat' first
    | with_reducible exact hk
    | simp only [Kept.of_record, KeptP.fold]
    | with_reducible first | apply Kept.refl | apply Kept.ite | apply State.wn_kept | apply State.pendIf_kept
    | with_reducible first | apply State.log_kept | apply State.bumpEvt_kept | apply State.modDs_kept
    | intro _
    | split
    | (simp; done)

@[simp] theorem State.decReport_kept (d : Nat) (p : DecPic) (fid : Nat) (again : Bool) (hk : Kept false s₀ s) :
    Kept false s₀ (State.decReport s d p fid again) := by
  simp only [State.decReport]
  repeat' first
    | with_reducible exact hk
    | simp only [Kept.of_record, KeptP.fold, KeptS.pair]
    | with_reducible first | apply Kept.refl | apply Kept.ite | apply KeptS.ite | apply Kept.snd
    | with_reducible first | apply State.pendIf_kept | apply State.bumpStat_kept | apply State.modDs_kept
    | with_reducible first | apply State.writeMem_kept | apply State.draw_kept
    | with_reducible refine Kept.of_snd ‹_› ?_
    | intro _
    | split
    | (simp; done)

@[simp] theorem State.grey_kept (p : DecPic) (hk : Kept false s₀ s) : Kept false s₀ (State.grey s p) := by
  simp only [State.grey]
  repeat' first
    | with_reducible exact hk
    | simp only [Kept.of_record, KeptP.fold]
    | with_reducible first | apply Kept.refl | apply Kept.ite | apply Kept.foldl | apply State.writeMem_kept
    | intro _
    | split
    | (simp; done)

@[simp] theorem State.conceal_kept (p : DecPic) (src : Option Nat) (a : Nat) (hk : Kept false s₀ s) :
    Kept false s₀ (State.conceal s p src a) := by
  simp only [State.conceal]
  repeat' first
    | with_reducible exact hk
    | simp only [Kept.of_record, KeptP.fold]
    | with_reducible first | apply Kept.refl | apply Kept.ite | apply Kept.foldl | apply State.writeMem_kept
    | intro _
    | split
    | (simp; done)

@[simp] theorem State.poolInfo_kept (p : DecPic) (hk : Kept fx s₀ s) : Kept fx s₀ (State.poolInfo s p) := by
  simp [State.poolInfo, hk]

@[simp] theorem State.prune_kept (d : Nat) (hk : Kept fx s₀ s) : Kept fx s₀ (State.prune s d) := by
  simp only [State.prune]
  repeat' first
    | with_reducible exact hk
    | simp only [Kept.of_record, KeptP.fold]
    | with_reducible first | apply Kept.refl | apply Kept.ite | apply Kept.foldl | apply State.setMark_kept
    | with_reducible first | apply State.modDs_kept
    | intro _
    | split
    | (simp; done)

@[simp] theorem State.decLand_kept (d buf lines : Nat) (whole : Bool) (hk : Kept fx s₀ s) :
    Kept fx s₀ (State.decLand s d buf lines whole) := by
  simp [State.decLand, hk]

@[simp] theorem State.ladleMarks_kept (d : Nat) (hk : Kept fx s₀ s) : Kept fx s₀ (State.ladleMarks s d) := by
  simp only [State.ladleMarks]
  repeat' first
    | with_reducible exact hk
    | simp only [Kept.of_record, KeptP.fold]
    | with_reducible first | apply Kept.refl | apply Kept.ite | apply Kept.foldl | apply State.setMark_kept
    | intro _
    | split
    | (simp; done)

@[simp] theorem State.takePic_kept (d fid : Nat) (hk : Kept false s₀ s) : KeptS false s₀ (State.takePic s d fid) := by
  simp only [State.takePic]
  repeat' first
    | with_reducible exact hk
    | simp only [Kept.of_record, KeptP.fold, KeptS.pair]
    | with_reducible first | apply Kept.refl | apply Kept.ite | apply KeptS.ite | apply Kept.snd
    | with_reducible first | apply State.setMark_kept | apply State.modDs_kept | apply State.decReport_kept
    | with_reducible first | apply State.prune_kept | apply State.ladleMarks_kept | apply State.hold_kept
    | intro _
    | split
    | (simp; done)

@[simp] theorem State.decClose_kept (d : Nat) (hk : Kept fx s₀ s) : Kept fx s₀ (State.decClose s d) := by
  simp only [State.decClose]
  repeat' first
    | with_reducible exact hk
    | simp only [Kept.of_record, KeptP.fold]
    | with_reducible first | apply Kept.refl | apply Kept.ite | apply State.wn_kept | apply State.log_kept
    | with_reducible first | apply State.leaveB_kept | apply State.clearMarks_kept | apply State.modDs_kept
    | intro _
    | split
    | (simp; done)

@[simp] theorem State.decFlush_kept (d : Nat) (hk : Kept fx s₀ s) : Kept fx s₀ (State.decFlush s d) := by
  simp [State.decFlush, hk]

@[simp] theorem execDecOpen_kept (p : Pkt) (hk : Kept fx s₀ s) : KeptB fx s₀ (execDecOpen p s) := by
  simp only [execDecOpen]
  repeat' first
    | with_reducible exact hk
    | simp only [Kept.of_record, KeptP.fold, KeptB.pair]
    | with_reducible first | apply Kept.refl | apply Kept.ite | apply KeptB.ite | apply Kept.fst
    | with_reducible first | apply State.wn_kept | apply State.setB_kept | apply State.commitSince_kept
    | with_reducible first | apply State.bufError_kept | apply State.modDs_kept | apply State.setBsFree_kept
    | intro _
    | split
    | (simp; done)

@[simp] theorem State.ringFill_kept (d : Nat) (bs : List Byte) (hk : Kept false s₀ s) :
    Kept false s₀ (State.ringFill s d bs) := by
  simp only [State.ringFill]
  repeat' first
    | with_reducible exact hk
    | simp only [Kept.of_record, KeptP.fold]
    | with_reducible first | apply Kept.refl | apply Kept.ite | apply State.modDs_kept | apply State.wr_kept
    | with_reducible first | apply State.writeMem_kept
    | intro _
    | split
    | (simp; done)

@[simp] theorem execDecData_kept (p : Pkt) (hk : Kept false s₀ s) : KeptB false s₀ (execDecData p s) := by
  simp only [execDecData]
  repeat' first
    | with_reducible exact hk
    | simp only [Kept.of_record, KeptP.fold, KeptB.pair]
    | with_reducible first | apply Kept.refl | apply Kept.ite | apply KeptB.ite | apply Kept.fst
    | with_reducible first | apply State.bufError_kept | apply State.modDs_kept | apply State.setBsFree_kept
    | with_reducible first | apply State.feedDec_kept | apply State.decArrive_kept | apply State.decFlush_kept
    | with_reducible first | apply State.ringFill_kept
    | intro _
    | split
    | (simp; done)

@[simp] theorem execDecClose_kept (p : Pkt) (hk : Kept fx s₀ s) : KeptB fx s₀ (execDecClose p s) := by
  simp only [execDecClose]
  repeat' first
    | with_reducible exact hk
    | simp only [Kept.of_record, KeptP.fold, KeptB.pair]
    | with_reducible first | apply Kept.refl | apply Kept.ite | apply KeptB.ite | apply Kept.fst
    | with_reducible first | apply State.setB_kept | apply State.leaveB_kept | apply State.modDs_kept
    | with_reducible first | apply State.setBsFree_kept | apply State.decClose_kept | apply State.decFlush_kept
    | with_reducible first | apply State.wr_kept
    | intro _
    | split
    | (simp; done)

@[simp] theorem decodeSubmit_kept (p : Pkt) (hk : Kept false s₀ s) : KeptB false s₀ (decodeSubmit p s) := by
  simp only [decodeSubmit]
  repeat' first
    | with_reducible exact hk
    | simp only [Kept.of_record, KeptP.fold, KeptB.pair]
    | with_reducible first | apply Kept.refl | apply Kept.ite | apply KeptB.ite | apply Kept.fst
    | with_reducible first | apply execDecOpen_kept | apply execDecData_kept | apply execDecClose_kept
    | with_reducible refine Kept.of_fst ‹_› ?_
    | intro _
    | split
    | (simp; done)

@[simp] theorem decodeRun_kept (p : Pkt) (hk : Kept false s₀ s) : KeptR false s₀ (decodeRun p s) := by
  simp only [decodeRun, KeptR.next]
  repeat' first
    | with_reducible exact hk
    | simp only [Kept.of_record, KeptP.fold, KeptB.pair, KeptR.next]
    | with_reducible first | apply Kept.refl | apply Kept.ite | apply KeptB.ite | apply Kept.fst | apply runOp_kept
    | with_reducible first | apply State.refGuard_kept | apply decodeSubmit_kept | apply KeptR.ite
    | with_reducible first | apply KeptR.fault
    | with_reducible refine Kept.of_fst ‹_› ?_
    | intro _
    | split
    | (simp; done)

@[simp] theorem execCdcDecodeOpen_kept (p : Pkt) (hk : Kept false s₀ s) : KeptR false s₀ (execCdcDecodeOpen p s) := by
  simp [execCdcDecodeOpen, hk]

@[simp] theorem execCdcDecodeData_kept (p : Pkt) (hk : Kept false s₀ s) : KeptR false s₀ (execCdcDecodeData p s) := by
  simp [execCdcDecodeData, hk]

@[simp] theorem execCdcDecodeClose_kept (p : Pkt) (hk : Kept false s₀ s) : KeptR false s₀ (execCdcDecodeClose p s) := by
  simp [execCdcDecodeClose, hk]

@[simp] theorem refMark_kept (p : Pkt) (hk : Kept fx s₀ s) : KeptR fx s₀ (refMark p s) := by
  simp only [refMark, KeptR.next]
  repeat' first
    | with_reducible exact hk
    | simp only [Kept.of_record, KeptP.fold, KeptB.pair, KeptR.next]
    | with_reducible first | apply Kept.refl | apply Kept.ite | apply KeptB.ite | apply Kept.fst | apply runOp_kept
    | with_reducible first | apply State.setMark_kept | apply KeptR.ite | apply KeptR.fault
    | with_reducible refine Kept.of_fst ‹_› ?_
    | intro _
    | split
    | (simp; done)

@[simp] theorem execSetHost_kept (p : Pkt) (hk : Kept fx s₀ s) : KeptR fx s₀ (execSetHost p s) := by
  simp [execSetHost, hk]

@[simp] theorem execClearHost_kept (p : Pkt) (hk : Kept fx s₀ s) : KeptR fx s₀ (execClearHost p s) := by
  simp [execClearHost, hk]

@[simp] theorem execClearOut_kept (p : Pkt) (hk : Kept fx s₀ s) : KeptR fx s₀ (execClearOut p s) := by
  simp [execClearOut, hk]

@[simp] theorem State.consume_kept (d n : Nat) (hk : Kept fx s₀ s) : Kept fx s₀ (State.consume s d n) := by
  simp [State.consume, hk]

@[simp] theorem State.generate_kept (d : Nat) (h : SliceHdr) (missing : List (Int × Bool)) (hk : Kept false s₀ s) :
    Kept false s₀ (State.generate s d h missing) := by
  simp only [State.generate]
  repeat' first
    | with_reducible exact hk
    | simp only [Kept.of_record, KeptP.fold]
    | with_reducible first | apply Kept.refl | apply Kept.ite | apply Kept.foldl | apply State.bumpStat_kept
    | with_reducible first | apply State.setMark_kept | apply State.modDs_kept | apply State.decErr_kept
    | with_reducible first | apply State.grey_kept | apply State.poolInfo_kept
    | intro _
    | split
    | (simp; done)

@[simp] theorem State.startPic_kept (d : Nat) (h : SliceHdr) (seq : W32) (hk : Kept false s₀ s) :
    KeptO false s₀ (State.startPic s d h seq) := by
  simp only [State.startPic]
  repeat' first
    | with_reducible exact hk
    | simp only [Kept.of_record, KeptP.fold, KeptO.some]
    | with_reducible first | apply Kept.refl | apply Kept.ite | apply State.setB_kept | apply State.setMark_kept
    | with_reducible first | apply State.modDs_kept | apply State.poolInfo_kept | apply State.prune_kept
    | with_reducible first | apply State.generate_kept | apply KeptO.ite | exact KeptO.none
    | intro _
    | split
    | (simp; done)

@[simp] theorem State.addCtus_kept (d a n : Nat) (hk : Kept fx s₀ s) : Kept fx s₀ (State.addCtus s d a n) := by
  simp [State.addCtus, hk]

@[simp] theorem State.sliceIn_kept (d : Nat) (p : DecPic) (h : SliceHdr) (decoded total code : Nat) (hk : Kept fx s₀ s) :
    Kept fx s₀ (State.sliceIn s d p h decoded total code) := by
  simp only [State.sliceIn]
  repeat' first
    | with_reducible exact hk
    | simp only [Kept.of_record, KeptP.fold]
    | with_reducible first | apply Kept.refl | apply Kept.ite | apply State.decErr_kept | apply State.addCtus_kept
    | intro _
    | split
    | (simp; done)

@[simp] theorem State.decItem_kept (d : Nat) (i : DecItem) (hk : Kept false s₀ s) : Kept false s₀ (State.decItem s d i) := by
  simp only [State.decItem]
  repeat' first
    | with_reducible exact hk
    | simp only [Kept.of_record, KeptP.fold]
    | with_reducible first | apply Kept.refl | apply Kept.ite | apply State.setB_kept | apply State.modDs_kept
    | with_reducible first | apply State.freeEngine_kept | apply State.feedDec_kept | apply State.decArrive_kept
    | with_reducible first | apply State.decErr_kept | apply State.decFlush_kept | apply State.consume_kept
    | with_reducible first | apply State.startPic_kept | apply State.sliceIn_kept
    | with_reducible refine KeptO.some_kept ?_ _ ‹_›
    | intro _
    | split
    | (simp; done)

@[simp] theorem execDecodePictureEnd_kept (session : Fin 2) (hk : Kept false s₀ s) :
    KeptR false s₀ (execDecodePictureEnd session s) := by
  simp only [execDecodePictureEnd, KeptR.next]
  repeat' first
    | with_reducible exact hk
    | simp only [Kept.of_record, KeptP.fold, KeptR.next]
    | with_reducible first | apply Kept.refl | apply Kept.ite | apply Kept.foldl | apply State.bumpStat_kept
    | with_reducible first | apply State.modDs_kept | apply State.decArrive_kept | apply State.conceal_kept
    | with_reducible first | apply State.poolInfo_kept | apply State.prune_kept | apply State.decLand_kept
    | with_reducible first | apply State.decClose_kept | apply State.decFlush_kept | apply KeptR.ite
    | with_reducible first | apply KeptR.fault
    | intro _
    | split
    | (simp; done)

@[simp] theorem execDecodeOutput_kept (session : Fin 2) (hk : Kept false s₀ s) :
    KeptR false s₀ (execDecodeOutput session s) := by
  simp only [execDecodeOutput, KeptR.next]
  repeat' first
    | with_reducible exact hk
    | simp only [Kept.of_record, KeptP.fold, KeptR.next]
    | with_reducible first | apply Kept.refl | apply Kept.ite | apply State.bumpEvt_kept | apply State.setMark_kept
    | with_reducible first | apply State.modDs_kept | apply State.decReport_kept | apply State.prune_kept
    | with_reducible first | apply State.decClose_kept | apply KeptR.ite | apply KeptR.fault
    | intro _
    | split
    | (simp; done)

@[simp] theorem execPoolWaitEnd_kept (session : Fin 2) (hk : Kept fx s₀ s) : KeptR fx s₀ (execPoolWaitEnd session s) := by
  simp only [execPoolWaitEnd, KeptR.next]
  repeat' first
    | with_reducible exact hk
    | simp only [Kept.of_record, KeptP.fold, KeptR.next]
    | with_reducible first | apply Kept.refl | apply Kept.ite | apply State.setB_kept | apply State.feedDec_kept
    | with_reducible first | apply KeptR.ite | apply KeptR.fault
    | intro _
    | split
    | (simp; done)

@[simp] theorem execCdcDecStall_kept (session : Fin 2) (hk : Kept fx s₀ s) : KeptR fx s₀ (execCdcDecStall session s) := by
  simp [execCdcDecStall, hk]

end Sys2Proof.Machine
end

