-- ==== Sys2Proof/Laws/KeptPixel.lean ====
section
/-!
SUPPORT. What the operations of Machine/Pixel.lean keep.
-/
namespace Sys2Proof.Machine
open Sys2Proof

set_option linter.unusedSimpArgs false

variable {fx : Bool} {s₀ s : State}

@[simp] theorem State.rowIn_kept (i : Nat) (p : EncPic) (qp : Nat) (hk : Kept fx s₀ s) :
    Kept fx s₀ (State.rowIn s i p qp) := by
  simp only [State.rowIn]
  repeat' first
    | with_reducible exact hk
    | simp only [Kept.of_record, KeptP.fold]
    | with_reducible first | apply Kept.refl | apply Kept.ite | apply State.setF_kept | apply State.setB_kept
    | with_reducible first | apply State.modEs_kept | apply State.encErr_kept
    | intro _
    | split
    | (simp; done)

@[simp] theorem State.picIn_kept (i slot : Nat) (q : EncSrc) (hk : Kept fx s₀ s) : Kept fx s₀ (State.picIn s i slot q) := by
  simp only [State.picIn]
  repeat' first
    | with_reducible exact hk
    | simp only [Kept.of_record, KeptP.fold]
    | with_reducible first | apply Kept.refl | apply Kept.ite | apply State.wn_kept | apply State.setB_kept
    | with_reducible first | apply State.modEs_kept | apply State.rowIn_kept | apply State.encPartial_kept
    | intro _
    | split
    | (simp; done)

@[simp] theorem State.nextIn_kept (i : Nat) (p : EncPic) (hk : Kept fx s₀ s) : Kept fx s₀ (State.nextIn s i p) := by
  simp only [State.nextIn]
  repeat' first
    | with_reducible exact hk
    | simp only [Kept.of_record, KeptP.fold]
    | with_reducible first | apply Kept.refl | apply Kept.ite | apply State.flagOver_kept | apply State.rowIn_kept
    | intro _
    | split
    | (simp; done)

@[simp] theorem execPeRowStart_kept (hk : Kept fx s₀ s) : KeptR fx s₀ (execPeRowStart s) := by
  simp only [execPeRowStart, KeptR.next]
  repeat' first
    | with_reducible exact hk
    | simp only [Kept.of_record, KeptP.fold, KeptR.next]
    | with_reducible first | apply Kept.refl | apply Kept.ite | apply State.modEs_kept | apply State.settleEnc_kept
    | with_reducible first | apply State.slotMissed_kept | apply State.picIn_kept | apply State.nextIn_kept
    | with_reducible first | apply KeptR.ite | apply KeptR.fault
    | intro _
    | split
    | (simp; done)

@[simp] theorem State.writeIn_kept (ok : Nat → Nat → Bool) (l : List (Nat × List Byte)) (hk : Kept false s₀ s) :
    Kept false s₀ (State.writeIn s ok l) := by
  simp only [State.writeIn]
  repeat' first
    | with_reducible exact hk
    | simp only [Kept.of_record, KeptP.fold]
    | with_reducible first | apply Kept.refl | apply Kept.ite | apply Kept.foldl | apply State.writeMem_kept
    | intro _
    | split
    | (simp; done)

@[simp] theorem State.encRowDone_kept (w : Nat) (e : EncSt) (p : EncPic) (j : Nat) (hk : Kept false s₀ s) :
    Kept false s₀ (State.encRowDone s w e p j) := by
  simp only [State.encRowDone]
  repeat' first
    | with_reducible exact hk
    | simp only [Kept.of_record, KeptP.fold]
    | with_reducible first | apply Kept.refl | apply Kept.ite | apply Kept.foldl | apply State.bumpStat_kept
    | with_reducible first | apply State.modEs_kept | apply State.encErr_kept | apply State.flagOver_kept
    | with_reducible first | apply State.enqueue_kept | apply State.writeMem_kept
    | intro _
    | split
    | (simp; done)

@[simp] theorem execPeRowDone_kept (r : RowOut) (hk : Kept false s₀ s) : KeptR false s₀ (execPeRowDone r s) := by
  simp only [execPeRowDone, KeptR.next]
  repeat' first
    | with_reducible exact hk
    | simp only [Kept.of_record, KeptP.fold, KeptR.next]
    | with_reducible first | apply Kept.refl | apply Kept.ite | apply State.modDs_kept | apply State.decLand_kept
    | with_reducible first | apply State.writeIn_kept | apply State.encRowDone_kept | apply KeptR.ite
    | with_reducible first | apply KeptR.fault
    | intro _
    | split
    | (simp; done)

@[simp] theorem State.emitRow_kept (i : Nat) (p : EncPic) (j : Nat) (filler : List (List Byte)) (hk : Kept false s₀ s) :
    Kept false s₀ (State.emitRow s i p j filler) := by
  simp only [State.emitRow]
  repeat' first
    | with_reducible exact hk
    | simp only [Kept.of_record, KeptP.fold]
    | with_reducible first | apply Kept.refl | apply Kept.ite | apply State.hostUnit_kept
    | with_reducible first | apply State.strUnit_kept
    | intro _
    | split
    | (simp; done)

@[simp] theorem State.picDone_kept (i : Nat) (p : EncPic) (b : Nat) (hk : Kept fx s₀ s) :
    Kept fx s₀ (State.picDone s i p b) := by
  simp only [State.picDone]
  repeat' first
    | with_reducible exact hk
    | simp only [Kept.of_record, KeptP.fold]
    | with_reducible first | apply Kept.refl | apply Kept.ite | apply State.wn_kept | apply State.bumpEvt_kept
    | with_reducible first | apply State.modEs_kept | apply State.settleEnc_kept | apply State.encStopped_kept
    | intro _
    | split
    | (simp; done)

@[simp] theorem State.emitRows_kept (i k : Nat) (hk : Kept false s₀ s) : Kept false s₀ (State.emitRows i k s) := by
  induction k generalizing s with
  | zero => exact hk
  | succ k ih =>
    unfold State.emitRows
    dsimp only
    split
    · exact hk
    · split
      · exact hk
      · refine Kept.ite (ih ?_) ?_
        · simp (maxDischargeDepth := 99) [hk]
        · simp (maxDischargeDepth := 99) [hk]

@[simp] theorem execEntropySliceDone_kept (o : EntropyOut) (hk : Kept false s₀ s) :
    KeptR false s₀ (execEntropySliceDone o s) := by
  simp only [execEntropySliceDone, KeptR.next]
  repeat' first
    | with_reducible exact hk
    | simp only [Kept.of_record, KeptP.fold, KeptR.next]
    | with_reducible first | apply Kept.refl | apply Kept.ite | apply State.modEs_kept
    | with_reducible first | apply State.freeEngine_kept | apply State.decItem_kept | apply State.emitRows_kept
    | with_reducible first | apply KeptR.ite | apply KeptR.fault
    | intro _
    | split
    | (simp; done)

@[simp] theorem State.cdcReset_kept (hk : Kept fx s₀ s) : Kept fx s₀ (State.cdcReset s) := by
  simp [State.cdcReset, hk]

end Sys2Proof.Machine
end

