-- ==== Sys2Proof/Laws/KeptDsp.lean ====
section
/-!
SUPPORT. What the operations of Machine/Dsp.lean keep.
-/
namespace Sys2Proof.Machine
open Sys2Proof

set_option linter.unusedSimpArgs false

variable {fx : Bool} {s₀ s : State}

@[simp] theorem State.modFcg_kept (k : Nat) (g : FcgSt → FcgSt) (hk : Kept fx s₀ s) : Kept fx s₀ (State.modFcg s k g) := by
  simp [State.modFcg, hk]

@[simp] theorem State.fcgShow_kept (k : Nat) (hk : Kept fx s₀ s) : Kept fx s₀ (State.fcgShow s k) := by
  simp [State.fcgShow, hk]

@[simp] theorem State.fcgMove_kept (k : Nat) (hk : Kept fx s₀ s) : Kept fx s₀ (State.fcgMove s k) := by
  simp only [State.fcgMove]
  repeat' first
    | with_reducible exact hk
    | simp only [Kept.of_record, KeptP.fold]
    | with_reducible first | apply Kept.refl | apply Kept.ite | apply State.bumpStat_kept | apply State.modFcg_kept
    | with_reducible first | apply State.fcgShow_kept
    | intro _
    | split
    | (simp; done)

@[simp] theorem State.modTg_kept (t : Nat) (g : TgSt → TgSt) (hk : Kept fx s₀ s) : Kept fx s₀ (State.modTg s t g) := by
  simp [State.modTg, hk]

@[simp] theorem State.modDpt_kept (p : Nat) (g : DspPort → DspPort) (hk : Kept fx s₀ s) :
    Kept fx s₀ (State.modDpt s p g) := by
  simp [State.modDpt, hk]

@[simp] theorem State.showTg_kept (t : Nat) (hk : Kept fx s₀ s) : Kept fx s₀ (State.showTg s t) := by
  simp only [State.showTg]
  repeat' first
    | with_reducible exact hk
    | simp only [Kept.of_record, KeptP.fold]
    | with_reducible first | apply Kept.refl | apply Kept.ite | apply State.wn_kept | apply State.setF_kept
    | with_reducible first | apply State.setB_kept
    | intro _
    | split
    | (simp; done)

@[simp] theorem execDspSetTiming_kept (p : Pkt) (hk : Kept fx s₀ s) : KeptR fx s₀ (execDspSetTiming p s) := by
  simp only [execDspSetTiming, KeptR.next]
  repeat' first
    | with_reducible exact hk
    | simp only [Kept.of_record, KeptP.fold, KeptB.pair, KeptR.next]
    | with_reducible first | apply Kept.refl | apply Kept.ite | apply KeptB.ite | apply Kept.fst | apply runOp_kept
    | with_reducible first | apply State.commitSince_kept | apply State.modTg_kept | apply State.showTg_kept
    | with_reducible first | apply KeptR.ite | apply KeptR.fault
    | with_reducible refine Kept.of_fst ‹_› ?_
    | intro _
    | split
    | (simp; done)

@[simp] theorem execDspRoute_kept (p : Pkt) (hk : Kept fx s₀ s) : KeptR fx s₀ (execDspRoute p s) := by
  simp only [execDspRoute, KeptR.next]
  repeat' first
    | with_reducible exact hk
    | simp only [Kept.of_record, KeptP.fold, KeptB.pair, KeptR.next]
    | with_reducible first | apply Kept.refl | apply Kept.ite | apply Kept.foldl | apply KeptB.ite | apply Kept.fst
    | with_reducible first | apply runOp_kept | apply State.setF_kept | apply State.commitSince_kept
    | with_reducible first | apply State.modDpt_kept | apply State.showTg_kept | apply KeptR.ite
    | with_reducible first | apply KeptR.fault
    | with_reducible refine Kept.of_fst ‹_› ?_
    | intro _
    | split
    | (simp; done)

@[simp] theorem execDspPortEnable_kept (p : Pkt) (hk : Kept fx s₀ s) : KeptR fx s₀ (execDspPortEnable p s) := by
  simp only [execDspPortEnable, KeptR.next]
  repeat' first
    | with_reducible exact hk
    | simp only [Kept.of_record, KeptP.fold, KeptB.pair, KeptR.next]
    | with_reducible first | apply Kept.refl | apply Kept.ite | apply KeptB.ite | apply Kept.fst | apply runOp_kept
    | with_reducible first | apply State.setF_kept | apply State.modTg_kept | apply State.modDpt_kept
    | with_reducible first | apply KeptR.ite | apply KeptR.fault
    | with_reducible refine Kept.of_fst ‹_› ?_
    | intro _
    | split
    | (simp; done)

@[simp] theorem State.endEnable_kept (q : Nat) (o : Outc) (hk : Kept fx s₀ s) : Kept fx s₀ (State.endEnable s q o) := by
  simp only [State.endEnable]
  repeat' first
    | with_reducible exact hk
    | simp only [Kept.of_record, KeptP.fold]
    | with_reducible first | apply Kept.refl | apply Kept.ite | apply State.finishF_kept | apply State.modDpt_kept
    | intro _
    | split
    | (simp; done)

@[simp] theorem State.endDcs_kept (q : Nat) (o : Outc) (hk : Kept fx s₀ s) : Kept fx s₀ (State.endDcs s q o) := by
  simp only [State.endDcs]
  repeat' first
    | with_reducible exact hk
    | simp only [Kept.of_record, KeptP.fold]
    | with_reducible first | apply Kept.refl | apply Kept.ite | apply Kept.foldl | apply State.finishF_kept
    | with_reducible first | apply State.modDpt_kept
    | intro _
    | split
    | (simp; done)

@[simp] theorem execDspPortDisable_kept (p : Pkt) (hk : Kept fx s₀ s) : KeptR fx s₀ (execDspPortDisable p s) := by
  simp only [execDspPortDisable, KeptR.next]
  repeat' first
    | with_reducible exact hk
    | simp only [Kept.of_record, KeptP.fold, KeptB.pair, KeptR.next]
    | with_reducible first | apply Kept.refl | apply Kept.ite | apply KeptB.ite | apply Kept.fst | apply runOp_kept
    | with_reducible first | apply State.setF_kept | apply State.modDpt_kept | apply State.endEnable_kept
    | with_reducible first | apply State.endDcs_kept | apply KeptR.ite | apply KeptR.fault
    | with_reducible refine Kept.of_fst ‹_› ?_
    | intro _
    | split
    | (simp; done)

@[simp] theorem execDspDcsXfer_kept (p : Pkt) (hk : Kept fx s₀ s) : KeptR fx s₀ (execDspDcsXfer p s) := by
  simp only [execDspDcsXfer, KeptR.next]
  repeat' first
    | with_reducible exact hk
    | simp only [Kept.of_record, KeptP.fold, KeptB.pair, KeptR.next]
    | with_reducible first | apply Kept.refl | apply Kept.ite | apply KeptB.ite | apply Kept.fst | apply runOp_kept
    | with_reducible first | apply State.modDpt_kept | apply KeptR.ite | apply KeptR.fault
    | with_reducible refine Kept.of_fst ‹_› ?_
    | intro _
    | split
    | (simp; done)

@[simp] theorem execDspSdiAnc_kept (p : Pkt) (hk : Kept fx s₀ s) : KeptR fx s₀ (execDspSdiAnc p s) := by
  simp only [execDspSdiAnc, KeptR.next]
  repeat' first
    | with_reducible exact hk
    | simp only [Kept.of_record, KeptP.fold, KeptB.pair, KeptR.next]
    | with_reducible first | apply Kept.refl | apply Kept.ite | apply KeptB.ite | apply Kept.fst | apply runOp_kept
    | with_reducible first | apply State.modDpt_kept | apply KeptR.ite | apply KeptR.fault
    | with_reducible refine Kept.of_fst ‹_› ?_
    | intro _
    | split
    | (simp; done)

@[simp] theorem execDspStatus_kept (p : Pkt) (hk : Kept fx s₀ s) : KeptR fx s₀ (execDspStatus p s) := by
  simp [execDspStatus, hk]

@[simp] theorem execDcsXferRun_kept (port : Fin 4) (acked : Bool) (report : W32) (data : List Byte) (hk : Kept fx s₀ s) :
    KeptR fx s₀ (execDcsXferRun port acked report data s) := by
  simp only [execDcsXferRun, KeptR.next]
  repeat' first
    | with_reducible exact hk
    | simp only [Kept.of_record, KeptP.fold, KeptR.next]
    | with_reducible first | apply Kept.refl | apply Kept.ite | apply State.raise_kept | apply State.finishF_kept
    | with_reducible first | apply State.modDpt_kept | apply State.emit_kept | apply KeptR.ite | apply KeptR.fault
    | intro _
    | split
    | (simp; done)

@[simp] theorem execHotplug_kept (port : Fin 4) (present : Bool) (hk : Kept fx s₀ s) :
    KeptR fx s₀ (execHotplug port present s) := by
  simp only [execHotplug, KeptR.next]
  repeat' first
    | with_reducible exact hk
    | simp only [Kept.of_record, KeptP.fold, KeptR.next]
    | with_reducible first | apply Kept.refl | apply Kept.ite | apply State.setF_kept | apply State.setB_kept
    | with_reducible first | apply State.raise_kept | apply State.pendIf_kept | apply State.log_kept
    | with_reducible first | apply State.bumpEvt_kept | apply State.endEnable_kept | apply State.endDcs_kept
    | with_reducible first | apply KeptR.ite | apply KeptR.fault
    | intro _
    | split
    | (simp; done)

end Sys2Proof.Machine
end

