-- ==== Sys2Proof/Laws/KeptCmp.lean ====
section
/-!
SUPPORT. What the operations of Machine/Cmp.lean keep.
-/
namespace Sys2Proof.Machine
open Sys2Proof

set_option linter.unusedSimpArgs false

variable {fx : Bool} {s₀ s : State}

@[simp] theorem State.cmpIrq_kept (n : Nat) (x : Nat → Fld) (hk : Kept fx s₀ s) : Kept fx s₀ (State.cmpIrq s n x) := by
  simp [State.cmpIrq, hk]

@[simp] theorem State.cmpErr_kept (n : Nat) (x : Nat → Fld) (hk : Kept fx s₀ s) : Kept fx s₀ (State.cmpErr s n x) := by
  simp [State.cmpErr, hk]

@[simp] theorem State.modLayer_kept (n l : Nat) (g : LayerSt → LayerSt) (hk : Kept fx s₀ s) :
    Kept fx s₀ (State.modLayer s n l g) := by
  simp [State.modLayer, hk]

@[simp] theorem State.evalFences_kept (hk : Kept fx s₀ s) : Kept fx s₀ (State.evalFences s) := by
  simp [State.evalFences, hk]

@[simp] theorem State.holdFence_kept (line : Nat) (bs : List Byte) (hk : Kept fx s₀ s) :
    Kept fx s₀ (State.holdFence s line bs) := by
  simp [State.holdFence, hk]

@[simp] theorem State.release_kept (n l v : Nat) (hk : Kept fx s₀ s) : Kept fx s₀ (State.release s n l v) := by
  simp [State.release, hk]

@[simp] theorem State.showFlips_kept (n l : Nat) (hk : Kept fx s₀ s) : Kept fx s₀ (State.showFlips s n l) := by
  simp [State.showFlips, hk]

@[simp] theorem State.flipReplaced_kept (n l : Nat) (f : Flip) (hk : Kept fx s₀ s) :
    Kept fx s₀ (State.flipReplaced s n l f) := by
  simp only [State.flipReplaced]
  repeat' first
    | with_reducible exact hk
    | simp only [Kept.of_record, KeptP.fold]
    | with_reducible first | apply Kept.refl | apply Kept.ite | apply State.bumpStat_kept | apply State.cmpErr_kept
    | with_reducible first | apply State.release_kept
    | intro _
    | split
    | (simp; done)

@[simp] theorem State.rindSelect_kept (n mask pos : Nat) (hk : Kept fx s₀ s) :
    KeptB fx s₀ (State.rindSelect s n mask pos) := by
  simp only [State.rindSelect]
  repeat' first
    | with_reducible exact hk
    | simp only [Kept.of_record, KeptP.fold, KeptB.pair]
    | with_reducible first | apply Kept.refl | apply Kept.ite | apply KeptB.ite | apply Kept.fst
    | with_reducible first | apply State.modCmp_kept
    | intro _
    | split
    | (simp; done)

@[simp] theorem execCmpConfigureLayer_kept (p : Pkt) (hk : Kept fx s₀ s) : KeptR fx s₀ (execCmpConfigureLayer p s) := by
  simp only [execCmpConfigureLayer, KeptR.next]
  repeat' first
    | with_reducible exact hk
    | simp only [Kept.of_record, KeptP.fold, KeptB.pair, KeptR.next]
    | with_reducible first | apply Kept.refl | apply Kept.ite | apply KeptB.ite | apply Kept.fst | apply runOp_kept
    | with_reducible first | apply State.modCmp_kept | apply State.evalFences_kept | apply State.holdFence_kept
    | with_reducible first | apply State.rindSelect_kept | apply State.hostError_kept | apply KeptR.ite
    | with_reducible first | apply KeptR.fault
    | with_reducible refine Kept.of_fst ‹_› ?_
    | intro _
    | split
    | (simp; done)

@[simp] theorem execCmpLoadLut_kept (p : Pkt) (hk : Kept fx s₀ s) : KeptR fx s₀ (execCmpLoadLut p s) := by
  simp only [execCmpLoadLut, KeptR.next]
  repeat' first
    | with_reducible exact hk
    | simp only [Kept.of_record, KeptP.fold, KeptB.pair, KeptR.next]
    | with_reducible first | apply Kept.refl | apply Kept.ite | apply KeptB.ite | apply Kept.fst | apply runOp_kept
    | with_reducible first | apply State.refGuard_kept | apply State.bufError_kept | apply State.modCmp_kept
    | with_reducible first | apply KeptR.ite | apply KeptR.fault
    | with_reducible refine Kept.of_fst ‹_› ?_
    | intro _
    | split
    | (simp; done)

@[simp] theorem execCmpSetWriteback_kept (p : Pkt) (hk : Kept fx s₀ s) : KeptR fx s₀ (execCmpSetWriteback p s) := by
  simp only [execCmpSetWriteback, KeptR.next]
  repeat' first
    | with_reducible exact hk
    | simp only [Kept.of_record, KeptP.fold, KeptB.pair, KeptR.next]
    | with_reducible first | apply Kept.refl | apply Kept.ite | apply KeptB.ite | apply Kept.fst | apply runOp_kept
    | with_reducible first | apply State.modCmp_kept | apply KeptR.ite | apply KeptR.fault
    | with_reducible refine Kept.of_fst ‹_› ?_
    | intro _
    | split
    | (simp; done)

@[simp] theorem State.joinFlips_kept (n : Nat) (old l : List (Nat × Flip)) (hk : Kept fx s₀ s) :
    KeptB fx s₀ (State.joinFlips s n old l) := by
  induction l generalizing s old with
  | nil => exact ⟨hk⟩
  | cons d t ih =>
    unfold State.joinFlips
    split
    · exact ih _ (by simp [hk])
    · exact ih _ hk

@[simp] theorem execCmpCommit_kept (p : Pkt) (hk : Kept fx s₀ s) : KeptR fx s₀ (execCmpCommit p s) := by
  simp only [execCmpCommit, KeptR.next]
  repeat' first
    | with_reducible exact hk
    | simp only [Kept.of_record, KeptP.fold, KeptB.pair, KeptR.next]
    | with_reducible first | apply Kept.refl | apply Kept.ite | apply Kept.foldl | apply KeptB.ite | apply Kept.fst
    | with_reducible first | apply runOp_kept | apply State.setB_kept | apply State.modCmp_kept
    | with_reducible first | apply State.cmpErr_kept | apply State.showFlips_kept | apply State.joinFlips_kept
    | with_reducible first | apply KeptR.ite | apply KeptR.fault
    | with_reducible refine Kept.of_fst ‹_› ?_
    | intro _
    | split
    | (simp; done)

@[simp] theorem execCmpFlip_kept (p : Pkt) (hk : Kept fx s₀ s) : KeptR fx s₀ (execCmpFlip p s) := by
  simp only [execCmpFlip, KeptR.next]
  repeat' first
    | with_reducible exact hk
    | simp only [Kept.of_record, KeptP.fold, KeptB.pair, KeptR.next]
    | with_reducible first | apply Kept.refl | apply Kept.ite | apply KeptB.ite | apply Kept.fst | apply runOp_kept
    | with_reducible first | apply State.modCmp_kept | apply State.modLayer_kept | apply State.showFlips_kept
    | with_reducible first | apply State.flipReplaced_kept | apply State.joinFlips_kept | apply KeptR.ite
    | with_reducible first | apply KeptR.fault
    | with_reducible refine Kept.of_fst ‹_› ?_
    | intro _
    | split
    | (simp; done)

@[simp] theorem State.takeStuck_kept (n l : Nat) (stuck : Flip → Bool) (hk : Kept fx s₀ s) :
    KeptS fx s₀ (State.takeStuck s n l stuck) := by
  simp only [State.takeStuck]
  repeat' first
    | with_reducible exact hk
    | simp only [Kept.of_record, KeptP.fold, KeptS.pair]
    | with_reducible first | apply Kept.refl | apply Kept.ite | apply KeptS.ite | apply Kept.snd
    | with_reducible first | apply State.modCmp_kept | apply State.modLayer_kept
    | intro _
    | split
    | (simp; done)

@[simp] theorem execFenceTimeout_kept (composer : Fin 4) (layer : Fin 8) (tag : BitVec 16) (hk : Kept fx s₀ s) :
    KeptR fx s₀ (execFenceTimeout composer layer tag s) := by
  simp only [execFenceTimeout, KeptR.next]
  repeat' first
    | with_reducible exact hk
    | simp only [Kept.of_record, KeptP.fold, KeptS.pair, KeptR.next]
    | with_reducible first | apply Kept.refl | apply Kept.ite | apply KeptS.ite | apply Kept.snd
    | with_reducible first | apply State.bumpStat_kept | apply State.log_kept | apply State.cmpErr_kept
    | with_reducible first | apply State.release_kept | apply State.showFlips_kept | apply State.takeStuck_kept
    | with_reducible first | apply KeptR.ite | apply KeptR.fault
    | with_reducible refine Kept.of_snd ‹_› ?_
    | intro _
    | split
    | (simp; done)

@[simp] theorem execCmpRindStatus_kept (p : Pkt) (hk : Kept fx s₀ s) : KeptR fx s₀ (execCmpRindStatus p s) := by
  simp [execCmpRindStatus, hk]

@[simp] theorem State.raceHold_kept (c t k : Nat) (hk : Kept fx s₀ s) : Kept fx s₀ (State.raceHold s c t k) := by
  simp [State.raceHold, hk]

@[simp] theorem State.latchTap_kept (n l : Nat) (g : LayerCfg) (hk : Kept fx s₀ s) :
    Kept fx s₀ (State.latchTap s n l g) := by
  simp only [State.latchTap]
  repeat' first
    | with_reducible exact hk
    | simp only [Kept.of_record, KeptP.fold]
    | with_reducible first | apply Kept.refl | apply Kept.ite | apply State.bumpEvt_kept | apply State.cmpErr_kept
    | with_reducible first | apply State.modLayer_kept
    | intro _
    | split
    | (simp; done)

@[simp] theorem State.leave_kept (n l : Nat) (b : Option Shown) (hk : Kept fx s₀ s) : Kept fx s₀ (State.leave s n l b) := by
  simp only [State.leave]
  repeat' first
    | with_reducible exact hk
    | simp only [Kept.of_record, KeptP.fold]
    | with_reducible first | apply Kept.refl | apply Kept.ite | apply State.release_kept
    | intro _
    | split
    | (simp; done)

@[simp] theorem State.showFlip_kept (n l : Nat) (f : Flip) (hk : Kept fx s₀ s) : Kept fx s₀ (State.showFlip s n l f) := by
  simp [State.showFlip, hk]

@[simp] theorem State.lateLayer_kept (n l : Nat) (hk : Kept fx s₀ s) : Kept fx s₀ (State.lateLayer s n l) := by
  simp only [State.lateLayer]
  repeat' first
    | with_reducible exact hk
    | simp only [Kept.of_record, KeptP.fold]
    | with_reducible first | apply Kept.refl | apply Kept.ite | apply State.setB_kept | apply State.bumpStat_kept
    | with_reducible first | apply State.cmpErr_kept
    | intro _
    | split
    | (simp; done)

@[simp] theorem State.latchFlips_kept (n : Nat) (hk : Kept fx s₀ s) : Kept fx s₀ (State.latchFlips s n) := by
  simp only [State.latchFlips]
  repeat' first
    | with_reducible exact hk
    | simp only [Kept.of_record, KeptP.fold]
    | with_reducible first | apply Kept.refl | apply Kept.ite | apply Kept.foldl | apply State.wn_kept
    | with_reducible first | apply State.setB_kept | apply State.pend_kept | apply State.commitSince_kept
    | with_reducible first | apply State.modCmp_kept | apply State.cmpIrq_kept | apply State.modLayer_kept
    | with_reducible first | apply State.leave_kept | apply State.showFlip_kept | apply State.lateLayer_kept
    | intro _
    | split
    | (simp; done)

@[simp] theorem State.latchWb_kept (n : Nat) (hk : Kept fx s₀ s) : KeptS fx s₀ (State.latchWb s n) := by
  simp only [State.latchWb]
  repeat' first
    | with_reducible exact hk
    | simp only [Kept.of_record, KeptP.fold, KeptS.pair]
    | with_reducible first | apply Kept.refl | apply Kept.ite | apply KeptS.ite | apply Kept.snd
    | with_reducible first | apply State.setB_kept | apply State.modPwr_kept | apply State.modCmp_kept
    | with_reducible first | apply State.cmpErr_kept
    | intro _
    | split
    | (simp; done)

@[simp] theorem State.latchNow_kept (n : Nat) (tc : Nat) (hk : Kept fx s₀ s) : Kept fx s₀ (State.latchNow s n tc) := by
  simp only [State.latchNow]
  repeat' first
    | with_reducible exact hk
    | simp only [Kept.of_record, KeptP.fold, KeptS.pair]
    | with_reducible first | apply Kept.refl | apply Kept.ite | apply Kept.foldl | apply KeptS.ite | apply Kept.snd
    | with_reducible first | apply State.wn_kept | apply State.setF_kept | apply State.setB_kept
    | with_reducible first | apply State.bumpEvt_kept | apply State.modCmp_kept | apply State.cmpIrq_kept
    | with_reducible first | apply State.showFlips_kept | apply State.latchTap_kept | apply State.latchFlips_kept
    | with_reducible first | apply State.latchWb_kept
    | with_reducible refine Kept.of_snd ‹_› ?_
    | intro _
    | split
    | (simp; done)

end Sys2Proof.Machine
end

