-- ==== Sys2Proof/Laws/KeptCmpRows.lean ====
section
/-!
SUPPORT. What the operations of Machine/CmpRows.lean keep.
-/
namespace Sys2Proof.Machine
open Sys2Proof

set_option linter.unusedSimpArgs false

variable {fx : Bool} {s₀ s : State}

@[simp] theorem State.layerCrcs_kept (n cfn : Nat) (hk : Kept fx s₀ s) : Kept fx s₀ (State.layerCrcs s n cfn) := by
  simp only [State.layerCrcs]
  repeat' first
    | with_reducible exact hk
    | simp only [Kept.of_record, KeptP.fold]
    | with_reducible first | apply Kept.refl | apply Kept.ite | apply Kept.foldl | apply State.wn_kept
    | intro _
    | split
    | (simp; done)

@[simp] theorem State.tearFrame_kept (n : Nat) (torn : BitVec 8) (hk : Kept fx s₀ s) :
    Kept fx s₀ (State.tearFrame s n torn) := by
  simp only [State.tearFrame]
  repeat' first
    | with_reducible exact hk
    | simp only [Kept.of_record, KeptP.fold]
    | with_reducible first | apply Kept.refl | apply Kept.ite | apply Kept.foldl | apply State.setB_kept
    | with_reducible first | apply State.bumpStat_kept | apply State.cmpErr_kept
    | intro _
    | split
    | (simp; done)

@[simp] theorem State.writeBack_kept (n : Nat) (f : CmpFrame) (pic : List (List Rgb)) (hk : Kept false s₀ s) :
    Kept false s₀ (State.writeBack s n f pic) := by
  simp only [State.writeBack]
  repeat' first
    | with_reducible exact hk
    | simp only [Kept.of_record, KeptP.fold]
    | with_reducible first | apply Kept.refl | apply Kept.ite | apply Kept.foldl | apply State.setF_kept
    | with_reducible first | apply State.setB_kept | apply State.modCmp_kept | apply State.writeMem_kept
    | intro _
    | split
    | (simp; done)

@[simp] theorem State.finishFrame_kept (n : Nat) (torn : BitVec 8) (hk : Kept false s₀ s) :
    KeptB false s₀ (State.finishFrame s n torn) := by
  simp only [State.finishFrame]
  repeat' first
    | with_reducible exact hk
    | simp only [Kept.of_record, KeptP.fold, KeptB.pair]
    | with_reducible first | apply Kept.refl | apply Kept.ite | apply KeptB.ite | apply Kept.fst
    | with_reducible first | apply State.modCmp_kept | apply State.layerCrcs_kept | apply State.tearFrame_kept
    | with_reducible first | apply State.writeBack_kept
    | intro _
    | split
    | (simp; done)

@[simp] theorem State.lockSlip_kept (t : Nat) (slip : Bool) (hk : Kept fx s₀ s) : Kept fx s₀ (State.lockSlip s t slip) := by
  simp only [State.lockSlip]
  repeat' first
    | with_reducible exact hk
    | simp only [Kept.of_record, KeptP.fold]
    | with_reducible first | apply Kept.refl | apply Kept.ite | apply State.setB_kept | apply State.raise_kept
    | with_reducible first | apply State.pendIf_kept | apply State.bumpStat_kept | apply State.log_kept
    | with_reducible first | apply State.modTg_kept
    | intro _
    | split
    | (simp; done)

@[simp] theorem State.startActive_kept (t v : Nat) (hk : Kept fx s₀ s) : Kept fx s₀ (State.startActive s t v) := by
  simp only [State.startActive]
  repeat' first
    | with_reducible exact hk
    | simp only [Kept.of_record, KeptP.fold]
    | with_reducible first | apply Kept.refl | apply Kept.ite | apply State.wn_kept | apply State.setF_kept
    | with_reducible first | apply State.modTg_kept
    | intro _
    | split
    | (simp; done)

@[simp] theorem State.armAnc_kept (t : Nat) (at_ : Int) (hk : Kept fx s₀ s) : Kept fx s₀ (State.armAnc s t at_) := by
  simp only [State.armAnc]
  repeat' first
    | with_reducible exact hk
    | simp only [Kept.of_record, KeptP.fold]
    | with_reducible first | apply Kept.refl | apply Kept.ite | apply Kept.foldl | apply State.modDpt_kept
    | intro _
    | split
    | (simp; done)

@[simp] theorem State.nextTc_kept (t : Nat) (at_ : Int) (hk : Kept fx s₀ s) : Kept fx s₀ (State.nextTc s t at_) := by
  simp [State.nextTc, hk]

@[simp] theorem State.tgLatch_kept (t : Nat) (slip : Bool) (at_ : Int) (hk : Kept fx s₀ s) :
    Kept fx s₀ (State.tgLatch s t slip at_) := by
  simp only [State.tgLatch]
  repeat' first
    | with_reducible exact hk
    | simp only [Kept.of_record, KeptP.fold]
    | with_reducible first | apply Kept.refl | apply Kept.ite | apply State.lockSlip_kept | apply State.nextTc_kept
    | intro _
    | split
    | (simp; done)

@[simp] theorem State.latchAlone_kept (t v : Nat) (slip : Bool) (hk : Kept fx s₀ s) :
    Kept fx s₀ (State.latchAlone s t v slip) := by
  simp only [State.latchAlone]
  repeat' first
    | with_reducible exact hk
    | simp only [Kept.of_record, KeptP.fold]
    | with_reducible first | apply Kept.refl | apply Kept.ite | apply State.startActive_kept
    | with_reducible first | apply State.armAnc_kept | apply State.tgLatch_kept
    | intro _
    | split
    | (simp; done)

@[simp] theorem State.latchDriven_kept (n t v : Nat) (slip : Bool) (hk : Kept fx s₀ s) :
    Kept fx s₀ (State.latchDriven s n t v slip) := by
  simp only [State.latchDriven]
  repeat' first
    | with_reducible exact hk
    | simp only [Kept.of_record, KeptP.fold]
    | with_reducible first | apply Kept.refl | apply Kept.ite | apply State.latchNow_kept
    | with_reducible first | apply State.startActive_kept | apply State.armAnc_kept | apply State.tgLatch_kept
    | intro _
    | split
    | (simp; done)

@[simp] theorem execCmpLatch_kept (composer : Fin 4) (line : BitVec 16) (torn : BitVec 8) (hk : Kept false s₀ s) :
    KeptR false s₀ (execCmpLatch composer line torn s) := by
  simp only [execCmpLatch, KeptR.next]
  repeat' first
    | with_reducible exact hk
    | simp only [Kept.of_record, KeptP.fold, KeptB.pair, KeptR.next]
    | with_reducible first | apply Kept.refl | apply Kept.ite | apply KeptB.ite | apply Kept.fst
    | with_reducible first | apply State.setB_kept | apply State.latchNow_kept | apply State.finishFrame_kept
    | with_reducible first | apply State.latchDriven_kept | apply KeptR.ite | apply KeptR.fault
    | with_reducible refine Kept.of_fst ‹_› ?_
    | intro _
    | split
    | (simp; done)

@[simp] theorem State.sendAnc_kept (q : Nat) (g : TgSt) (n : Option Nat) (tc : Nat) (hk : Kept fx s₀ s) :
    Kept fx s₀ (State.sendAnc s q g n tc) := by
  simp only [State.sendAnc]
  repeat' first
    | with_reducible exact hk
    | simp only [Kept.of_record, KeptP.fold]
    | with_reducible first | apply Kept.refl | apply Kept.ite | apply Kept.foldl | apply State.modDpt_kept
    | with_reducible first | apply State.emit_kept
    | intro _
    | split
    | (simp; done)

@[simp] theorem State.sendFrame_kept (t : Nat) (cfn tc : Nat) (pic : Option (List (List Rgb))) (hk : Kept fx s₀ s) :
    Kept fx s₀ (State.sendFrame s t cfn tc pic) := by
  simp only [State.sendFrame]
  repeat' first
    | with_reducible exact hk
    | simp only [Kept.of_record, KeptP.fold]
    | with_reducible first | apply Kept.refl | apply Kept.ite | apply Kept.foldl | apply State.sendAnc_kept
    | with_reducible first | apply State.emit_kept
    | intro _
    | split
    | (simp; done)

@[simp] theorem State.portsUp_kept (t : Nat) (hk : Kept fx s₀ s) : Kept fx s₀ (State.portsUp s t) := by
  simp only [State.portsUp]
  repeat' first
    | with_reducible exact hk
    | simp only [Kept.of_record, KeptP.fold]
    | with_reducible first | apply Kept.refl | apply Kept.ite | apply Kept.foldl | apply State.setF_kept
    | with_reducible first | apply State.commitSince_kept | apply State.modDpt_kept | apply State.endEnable_kept
    | intro _
    | split
    | (simp; done)

@[simp] theorem State.judgePhase_kept (t : Nat) (phase : Int) (hk : Kept fx s₀ s) :
    Kept fx s₀ (State.judgePhase s t phase) := by
  simp only [State.judgePhase]
  repeat' first
    | with_reducible exact hk
    | simp only [Kept.of_record, KeptP.fold]
    | with_reducible first | apply Kept.refl | apply Kept.ite | apply State.wn_kept | apply State.setB_kept
    | with_reducible first | apply State.raise_kept | apply State.pendIf_kept | apply State.bumpStat_kept
    | with_reducible first | apply State.log_kept | apply State.modTg_kept
    | intro _
    | split
    | (simp; done)

@[simp] theorem execVblankStart_kept (t : Fin 4) (phase : W32) (torn : BitVec 8) (hk : Kept false s₀ s) :
    KeptR false s₀ (execVblankStart t phase torn s) := by
  simp only [execVblankStart, KeptR.next]
  repeat' first
    | with_reducible exact hk
    | simp only [Kept.of_record, KeptP.fold, KeptB.pair, KeptR.next]
    | with_reducible first | apply Kept.refl | apply Kept.ite | apply KeptB.ite | apply Kept.fst
    | with_reducible first | apply State.bumpEvt_kept | apply State.modTg_kept | apply State.showTg_kept
    | with_reducible first | apply State.finishFrame_kept | apply State.sendFrame_kept | apply State.portsUp_kept
    | with_reducible first | apply State.judgePhase_kept | apply State.latchAlone_kept | apply KeptR.ite
    | with_reducible first | apply KeptR.fault
    | with_reducible refine Kept.of_fst ‹_› ?_
    | intro _
    | split
    | (simp; done)

@[simp] theorem execSnpinv_kept (line : BitVec 58) (data : HostRead) (hk : Kept fx s₀ s) :
    KeptR fx s₀ (execSnpinv line data s) := by
  simp only [execSnpinv, KeptR.next]
  repeat' first
    | with_reducible exact hk
    | simp only [Kept.of_record, KeptP.fold, KeptR.next]
    | with_reducible first | apply Kept.refl | apply Kept.ite | apply State.evalFences_kept
    | with_reducible first | apply State.holdFence_kept | apply State.hostError_kept | apply KeptR.ite
    | with_reducible first | apply KeptR.fault
    | intro _
    | split
    | (simp; done)

@[simp] theorem execFencePoll_kept (addr : BitVec 64) (data : HostRead) (hk : Kept fx s₀ s) :
    KeptR fx s₀ (execFencePoll addr data s) := by
  simp only [execFencePoll, KeptR.next]
  repeat' first
    | with_reducible exact hk
    | simp only [Kept.of_record, KeptP.fold, KeptR.next]
    | with_reducible first | apply Kept.refl | apply Kept.ite | apply State.evalFences_kept
    | with_reducible first | apply State.holdFence_kept | apply State.hostError_kept | apply KeptR.ite
    | with_reducible first | apply KeptR.fault
    | intro _
    | split
    | (simp; done)

@[simp] theorem execWbHoldSet_kept (composer : Fin 4) (v : W32) (hk : Kept fx s₀ s) :
    KeptR fx s₀ (execWbHoldSet composer v s) := by
  simp [execWbHoldSet, hk]

@[simp] theorem State.cmpFlr_kept (hk : Kept fx s₀ s) : Kept fx s₀ (State.cmpFlr s) := by
  simp only [State.cmpFlr]
  repeat' first
    | with_reducible exact hk
    | simp only [Kept.of_record, KeptP.fold]
    | with_reducible first | apply Kept.refl | apply Kept.ite | apply Kept.foldl | apply State.modCmp_kept
    | with_reducible first | apply State.release_kept | apply State.showFlips_kept
    | intro _
    | split
    | (simp; done)

end Sys2Proof.Machine
end

