-- ==== Sys2Proof/Laws/KeptFrames.lean ====
section
/-!
SUPPORT. What the operations of Machine/Frames.lean keep.
-/
namespace Sys2Proof.Machine
open Sys2Proof

set_option linter.unusedSimpArgs false

variable {fx : Bool} {s₀ s : State}

@[simp] theorem State.showFp_kept (c : Nat) (id : W32) (fp : BitVec 64) (hk : Kept fx s₀ s) :
    Kept fx s₀ (State.showFp s c id fp) := by
  simp only [State.showFp]
  repeat' first
    | with_reducible exact hk
    | simp only [Kept.of_record, KeptP.fold]
    | with_reducible first | apply Kept.refl | apply Kept.ite | apply State.wn_kept | apply State.wr_kept
    | intro _
    | split
    | (simp; done)

@[simp] theorem State.bindImage_kept (c fid : Nat) (hk : Kept fx s₀ s) : Kept fx s₀ (State.bindImage s c fid) := by
  simp only [State.bindImage]
  repeat' first
    | with_reducible exact hk
    | simp only [Kept.of_record, KeptP.fold]
    | with_reducible first | apply Kept.refl | apply Kept.ite | apply State.commitSince_kept
    | with_reducible first | apply State.modCx_kept | apply State.modRw_kept | apply State.showFp_kept
    | intro _
    | split
    | (simp; done)

@[simp] theorem State.armedLive_kept (c : Nat) (a : RawCfg) (hk : Kept fx s₀ s) : Kept fx s₀ (State.armedLive s c a) := by
  simp only [State.armedLive]
  repeat' first
    | with_reducible exact hk
    | simp only [Kept.of_record, KeptP.fold]
    | with_reducible first | apply Kept.refl | apply Kept.ite | apply State.commitSince_kept
    | with_reducible first | apply State.modCx_kept | apply State.modRw_kept | apply State.showFp_kept
    | intro _
    | split
    | (simp; done)

@[simp] theorem State.replayFrame_kept (r : Rec) (g : RawCfg) (i : Nat) (hk : Kept fx s₀ s) :
    KeptS fx s₀ (State.replayFrame s r g i) :=
  ⟨State.drawnTo_kept _ hk⟩

@[simp] theorem State.recBand_kept (r : Rec) (g : RawCfg) (w h i : Nat) (hk : Kept fx s₀ s) :
    KeptS fx s₀ (State.recBand s r g w h i).2 := by
  unfold State.recBand
  split
  · exact ⟨(State.replayFrame_kept r g i hk).snd_kept⟩
  · exact ⟨hk⟩

@[simp] theorem State.pressReport_kept (c fid src i : Nat) (fs : List PressFail) (hk : Kept fx s₀ s) :
    Kept fx s₀ (State.pressReport s c fid src i fs) := by
  simp only [State.pressReport]
  repeat' first
    | with_reducible exact hk
    | simp only [Kept.of_record, KeptP.fold]
    | with_reducible first | apply Kept.refl | apply Kept.ite | apply Kept.foldl | apply State.wn_kept
    | with_reducible first | apply State.bumpStat_kept | apply State.log_kept | apply State.decErr_kept
    | intro _
    | split
    | (simp; done)

@[simp] theorem State.modFrame_kept (c fid : Nat) (g : ProcFrame → ProcFrame) (hk : Kept fx s₀ s) :
    Kept fx s₀ (State.modFrame s c fid g) := by
  simp [State.modFrame, hk]

@[simp] theorem State.tapEnd_kept (c t fid : Nat) (partly : Bool) (fp : BitVec 64) (hk : Kept fx s₀ s) :
    Kept fx s₀ (State.tapEnd s c t fid partly fp) := by
  simp only [State.tapEnd]
  repeat' first
    | with_reducible exact hk
    | simp only [Kept.of_record, KeptP.fold]
    | with_reducible first | apply Kept.refl | apply Kept.ite | apply State.wn_kept | apply State.setF_kept
    | with_reducible first | apply State.bumpEvt_kept | apply State.modTp_kept | apply State.encLines_kept
    | intro _
    | split
    | (simp; done)

@[simp] theorem State.skipEvent_kept (c fid : Nat) (k : ProcCnt) (hk : Kept fx s₀ s) :
    Kept fx s₀ (State.skipEvent s c fid k) := by
  simp only [State.skipEvent]
  repeat' first
    | with_reducible exact hk
    | simp only [Kept.of_record, KeptP.fold]
    | with_reducible first | apply Kept.refl | apply Kept.ite | apply State.raise_kept | apply State.vector_kept
    | with_reducible first | apply State.log_kept | apply State.bumpEvt_kept
    | intro _
    | split
    | (simp; done)

@[simp] theorem State.frameDone_kept (c : Nat) (hk : Kept fx s₀ s) : Kept fx s₀ (State.frameDone s c) := by
  simp [State.frameDone, hk]

@[simp] theorem State.settleDrain_kept (c : Nat) (hk : Kept fx s₀ s) : Kept fx s₀ (State.settleDrain s c) := by
  simp [State.settleDrain, hk]

@[simp] theorem State.procEnd_kept (c fid cause : Nat) (trig : Nat × Nat) (hk : Kept fx s₀ s) :
    Kept fx s₀ (State.procEnd s c fid cause trig) := by
  simp only [State.procEnd]
  repeat' first
    | with_reducible exact hk
    | simp only [Kept.of_record, KeptP.fold]
    | with_reducible first | apply Kept.refl | apply Kept.ite | apply Kept.foldl | apply State.wn_kept
    | with_reducible first | apply State.raise_kept | apply State.bumpEvt_kept | apply State.closeRec_kept
    | with_reducible first | apply State.recProcessed_kept | apply State.modCx_kept | apply State.encMiss_kept
    | with_reducible first | apply State.ladleMarks_kept | apply State.tapEnd_kept | apply State.skipEvent_kept
    | with_reducible first | apply State.frameDone_kept | apply State.settleDrain_kept
    | intro _
    | split
    | (simp; done)

@[simp] theorem State.settleFrames_kept (c : Nat) (hk : Kept fx s₀ s) : Kept fx s₀ (State.settleFrames s c) := by
  simp only [State.settleFrames]
  repeat' first
    | with_reducible exact hk
    | simp only [Kept.of_record, KeptP.fold]
    | with_reducible first | apply Kept.refl | apply Kept.ite | apply Kept.foldl | apply State.procEnd_kept
    | intro _
    | split
    | (simp; done)

@[simp] theorem State.procBoundary_kept (c fid cause : Nat) (trig : Nat × Nat) (hk : Kept fx s₀ s) :
    Kept fx s₀ (State.procBoundary s c fid cause trig) := by
  simp only [State.procBoundary]
  repeat' first
    | with_reducible exact hk
    | simp only [Kept.of_record, KeptP.fold]
    | with_reducible first | apply Kept.refl | apply Kept.ite | apply State.procEnd_kept
    | with_reducible first | apply State.settleFrames_kept
    | intro _
    | split
    | (simp; done)

@[simp] theorem State.noteSource_kept (c fid gen : Nat) (hk : Kept fx s₀ s) : Kept fx s₀ (State.noteSource s c fid gen) := by
  simp [State.noteSource, hk]

end Sys2Proof.Machine
end

