-- ==== Sys2Proof/Laws/KeptLadle.lean ====
section
/-!
SUPPORT. What the operations of Machine/Ladle.lean keep.
-/
namespace Sys2Proof.Machine
open Sys2Proof

set_option linter.unusedSimpArgs false

variable {fx : Bool} {s₀ s : State}

@[simp] theorem State.tapsLive_kept (c : Nat) (due : List Image) (i : Image) (hk : Kept fx s₀ s) :
    Kept fx s₀ (State.tapsLive s c due i) := by
  simp only [State.tapsLive]
  repeat' first
    | with_reducible exact hk
    | simp only [Kept.of_record, KeptP.fold]
    | with_reducible first | apply Kept.refl | apply Kept.ite | apply Kept.foldl | apply State.setB_kept
    | with_reducible first | apply State.modTp_kept
    | intro _
    | split
    | (simp; done)

@[simp] theorem State.freeTaps_kept (c : Nat) (i : Image) (hk : Kept fx s₀ s) : Kept fx s₀ (State.freeTaps s c i) := by
  simp only [State.freeTaps]
  repeat' first
    | with_reducible exact hk
    | simp only [Kept.of_record, KeptP.fold]
    | with_reducible first | apply Kept.refl | apply Kept.ite | apply Kept.foldl | apply State.setF_kept
    | with_reducible first | apply State.modTp_kept
    | intro _
    | split
    | (simp; done)

@[simp] theorem State.promote_kept (c fid : Nat) (hk : Kept fx s₀ s) : Kept fx s₀ (State.promote s c fid) := by
  simp only [State.promote]
  repeat' first
    | with_reducible exact hk
    | simp only [Kept.of_record, KeptP.fold]
    | with_reducible first | apply Kept.refl | apply Kept.ite | apply State.modCx_kept | apply State.freeTaps_kept
    | with_reducible first | apply State.tapsLive_kept
    | intro _
    | split
    | (simp; done)

@[simp] theorem State.tapDrop_kept (c t : Nat) (held : Bool) (hk : Kept fx s₀ s) :
    Kept fx s₀ (State.tapDrop s c t held) := by
  simp only [State.tapDrop]
  repeat' first
    | with_reducible exact hk
    | simp only [Kept.of_record, KeptP.fold]
    | with_reducible first | apply Kept.refl | apply Kept.ite | apply State.raise_kept | apply State.bumpEvt_kept
    | with_reducible first | apply State.encMiss_kept
    | intro _
    | split
    | (simp; done)

@[simp] theorem State.visionTurn_kept (t : Nat) (hk : Kept fx s₀ s) : KeptS fx s₀ (State.visionTurn s t) := by
  simp [State.visionTurn, hk]

@[simp] theorem State.tapBegin_kept (c : Nat) (f : ProcFrame) (id : Nat) (t : Nat) (g : TapCfg) (hk : Kept fx s₀ s) :
    Kept fx s₀ (State.tapBegin s c f id t g) := by
  simp only [State.tapBegin]
  repeat' first
    | with_reducible exact hk
    | simp only [Kept.of_record, KeptP.fold, KeptS.pair]
    | with_reducible first | apply Kept.refl | apply Kept.ite | apply KeptS.ite | apply Kept.snd
    | with_reducible first | apply State.setB_kept | apply State.modTp_kept | apply State.encSlot_kept
    | with_reducible first | apply State.raceHold_kept | apply State.tapDrop_kept | apply State.visionTurn_kept
    | with_reducible refine Kept.of_snd ‹_› ?_
    | intro _
    | split
    | (simp; done)

@[simp] theorem State.frameBegin_kept (c : Nat) (f : ProcFrame) (hk : Kept fx s₀ s) :
    Kept fx s₀ (State.frameBegin s c f) := by
  simp only [State.frameBegin]
  repeat' first
    | with_reducible exact hk
    | simp only [Kept.of_record, KeptP.fold]
    | with_reducible first | apply Kept.refl | apply Kept.ite | apply Kept.foldl | apply State.modFrame_kept
    | with_reducible first | apply State.promote_kept | apply State.tapBegin_kept
    | intro _
    | split
    | (simp; done)

@[simp] theorem State.bandOf_kept (c : Nat) (f : ProcFrame) (g : CtxCfg) (i : Nat) (hk : Kept fx s₀ s) :
    KeptS fx s₀ (State.bandOf s c f g i).2 := by
  simp only [State.bandOf]
  repeat' first
    | with_reducible exact hk
    | simp only [Kept.of_record, KeptP.fold, KeptS.pair]
    | with_reducible first | apply Kept.refl | apply Kept.ite | apply KeptS.ite | apply Kept.snd
    | with_reducible first | apply State.recBand_kept
    | with_reducible refine Kept.of_snd ‹_› ?_
    | intro _
    | split
    | (simp; done)

@[simp] theorem State.stripeIn_kept (c : Nat) (f : ProcFrame) (i : Nat) (hk : Kept fx s₀ s) :
    Kept fx s₀ (State.stripeIn s c f i) := by
  simp only [State.stripeIn]
  repeat' first
    | with_reducible exact hk
    | simp only [Kept.of_record, KeptP.fold, KeptS.pair]
    | with_reducible first | apply Kept.refl | apply Kept.ite | apply KeptS.ite | apply Kept.snd
    | with_reducible first | apply State.wn_kept | apply State.setF_kept | apply State.setB_kept
    | with_reducible first | apply State.bumpEvt_kept | apply State.pressReport_kept | apply State.modFrame_kept
    | with_reducible first | apply State.frameBegin_kept | apply State.bandOf_kept | apply State.drawnTo_kept
    | with_reducible refine Kept.of_snd ‹_› ?_
    | intro _
    | split
    | (simp; done)

@[simp] theorem execStripeStart_kept (hk : Kept fx s₀ s) : KeptR fx s₀ (execStripeStart s) := by
  simp only [execStripeStart, KeptR.next]
  repeat' first
    | with_reducible exact hk
    | simp only [Kept.of_record, KeptP.fold, KeptR.next]
    | with_reducible first | apply Kept.refl | apply Kept.ite | apply State.vaultUse_kept
    | with_reducible first | apply State.procBoundary_kept | apply State.stripeIn_kept | apply KeptR.ite
    | with_reducible first | apply KeptR.fault
    | intro _
    | split
    | (simp; done)

@[simp] theorem State.tapWrite_kept (g : TapCfg) (clr : ClrCfg) (base : Nat) (out : List (List Rgb)) (a b : Nat) (hk : Kept false s₀ s) :
    Kept false s₀ (State.tapWrite s g clr base out a b) := by
  simp only [State.tapWrite]
  repeat' first
    | with_reducible exact hk
    | simp only [Kept.of_record, KeptP.fold]
    | with_reducible first | apply Kept.refl | apply Kept.ite | apply Kept.foldl | apply State.writeMem_kept
    | intro _
    | split
    | (simp; done)

@[simp] theorem State.tapStripe_kept (q : CurStripe) (t : Nat) (hk : Kept false s₀ s) :
    Kept false s₀ (State.tapStripe s q t) := by
  simp only [State.tapStripe]
  repeat' first
    | with_reducible exact hk
    | simp only [Kept.of_record, KeptP.fold]
    | with_reducible first | apply Kept.refl | apply Kept.ite | apply State.modTp_kept | apply State.encLines_kept
    | with_reducible first | apply State.tapWrite_kept
    | intro _
    | split
    | (simp; done)

@[simp] theorem State.stripeLate_kept (c ovr : Nat) (first : Bool) (hk : Kept fx s₀ s) :
    Kept fx s₀ (State.stripeLate s c ovr first) := by
  simp only [State.stripeLate]
  repeat' first
    | with_reducible exact hk
    | simp only [Kept.of_record, KeptP.fold]
    | with_reducible first | apply Kept.refl | apply Kept.ite | apply State.raise_kept | apply State.vector_kept
    | with_reducible first | apply State.bumpStat_kept | apply State.highWater_kept | apply State.log_kept
    | intro _
    | split
    | (simp; done)

@[simp] theorem State.stripeOut_kept (q : CurStripe) (f : ProcFrame) (hk : Kept false s₀ s) :
    Kept false s₀ (State.stripeOut s q f) := by
  simp only [State.stripeOut]
  repeat' first
    | with_reducible exact hk
    | simp only [Kept.of_record, KeptP.fold]
    | with_reducible first | apply Kept.refl | apply Kept.ite | apply Kept.foldl | apply State.wn_kept
    | with_reducible first | apply State.setF_kept | apply State.setB_kept | apply State.pressReport_kept
    | with_reducible first | apply State.modFrame_kept | apply State.tapStripe_kept | apply State.stripeLate_kept
    | intro _
    | split
    | (simp; done)

@[simp] theorem State.lastStripe_kept (c fid i : Nat) (hk : Kept fx s₀ s) : Kept fx s₀ (State.lastStripe s c fid i) := by
  simp only [State.lastStripe]
  repeat' first
    | with_reducible exact hk
    | simp only [Kept.of_record, KeptP.fold]
    | with_reducible first | apply Kept.refl | apply Kept.ite | apply State.procBoundary_kept
    | intro _
    | split
    | (simp; done)

@[simp] theorem execStripeDone_kept (hk : Kept false s₀ s) : KeptR false s₀ (execStripeDone s) := by
  simp only [execStripeDone, KeptR.next]
  repeat' first
    | with_reducible exact hk
    | simp only [Kept.of_record, KeptP.fold, KeptR.next]
    | with_reducible first | apply Kept.refl | apply Kept.ite | apply State.stripeOut_kept
    | with_reducible first | apply State.lastStripe_kept | apply KeptR.ite | apply KeptR.fault
    | intro _
    | split
    | (simp; done)

@[simp] theorem execReadbackStale_kept (ctx : Fin 6) (hk : Kept fx s₀ s) : KeptR fx s₀ (execReadbackStale ctx s) := by
  simp only [execReadbackStale, KeptR.next]
  repeat' first
    | with_reducible exact hk
    | simp only [Kept.of_record, KeptP.fold, KeptR.next]
    | with_reducible first | apply Kept.refl | apply Kept.ite | apply State.wn_kept | apply State.setF_kept
    | with_reducible first | apply State.setB_kept | apply State.procBoundary_kept | apply KeptR.ite
    | with_reducible first | apply KeptR.fault
    | intro _
    | split
    | (simp; done)

@[simp] theorem execLadleTrigger_kept (ctx : Fin 6) (hk : Kept fx s₀ s) : KeptR fx s₀ (execLadleTrigger ctx s) := by
  simp only [execLadleTrigger, KeptR.next]
  repeat' first
    | with_reducible exact hk
    | simp only [Kept.of_record, KeptP.fold, KeptR.next]
    | with_reducible first | apply Kept.refl | apply Kept.ite | apply State.raise_kept | apply State.modCx_kept
    | with_reducible first | apply State.modFrame_kept | apply State.skipEvent_kept | apply State.frameDone_kept
    | with_reducible first | apply State.procBoundary_kept | apply KeptR.ite | apply KeptR.fault
    | intro _
    | split
    | (simp; done)

@[simp] theorem State.playFrame_kept (c : Nat) (q : PlaySource) (hk : Kept false s₀ s) :
    Kept false s₀ (State.playFrame s c q) := by
  simp only [State.playFrame]
  repeat' first
    | with_reducible exact hk
    | simp only [Kept.of_record, KeptP.fold, KeptS.pair]
    | with_reducible first | apply Kept.refl | apply Kept.ite | apply Kept.foldl | apply KeptS.ite | apply Kept.snd
    | with_reducible first | apply State.place_kept | apply State.closeRec_kept | apply State.recProcessed_kept
    | with_reducible first | apply State.modCx_kept | apply State.encMiss_kept | apply State.ladleMarks_kept
    | with_reducible first | apply State.takePic_kept | apply State.bindImage_kept | apply State.settleFrames_kept
    | with_reducible refine Kept.of_snd ‹_› ?_
    | intro _
    | split
    | (simp; done)

@[simp] theorem State.paceTick_kept (c : Nat) (hk : Kept false s₀ s) : Kept false s₀ (State.paceTick s c) := by
  simp only [State.paceTick]
  repeat' first
    | with_reducible exact hk
    | simp only [Kept.of_record, KeptP.fold]
    | with_reducible first | apply Kept.refl | apply Kept.ite | apply State.modCx_kept | apply State.playFrame_kept
    | intro _
    | split
    | (simp; done)

@[simp] theorem execPaceTick_kept (pc : Fin 2) (hk : Kept false s₀ s) : KeptR false s₀ (execPaceTick pc s) := by
  simp [execPaceTick, hk]

@[simp] theorem State.fcgPace_kept (g : Nat) (hk : Kept false s₀ s) : Kept false s₀ (State.fcgPace s g) := by
  simp only [State.fcgPace]
  repeat' first
    | with_reducible exact hk
    | simp only [Kept.of_record, KeptP.fold]
    | with_reducible first | apply Kept.refl | apply Kept.ite | apply Kept.foldl | apply State.paceTick_kept
    | intro _
    | split
    | (simp; done)

@[simp] theorem execCtxPlaybackSource_kept (p : Pkt) (hk : Kept fx s₀ s) : KeptR fx s₀ (execCtxPlaybackSource p s) := by
  simp only [execCtxPlaybackSource, KeptR.next]
  repeat' first
    | with_reducible exact hk
    | simp only [Kept.of_record, KeptP.fold, KeptB.pair, KeptR.next]
    | with_reducible first | apply Kept.refl | apply Kept.ite | apply KeptB.ite | apply Kept.fst | apply runOp_kept
    | with_reducible first | apply State.modCx_kept | apply KeptR.ite | apply KeptR.fault
    | with_reducible refine Kept.of_fst ‹_› ?_
    | intro _
    | split
    | (simp; done)

@[simp] theorem execCtxStart_kept (p : Pkt) (hk : Kept fx s₀ s) : KeptR fx s₀ (execCtxStart p s) := by
  simp only [execCtxStart, KeptR.next]
  repeat' first
    | with_reducible exact hk
    | simp only [Kept.of_record, KeptP.fold, KeptB.pair, KeptR.next]
    | with_reducible first | apply Kept.refl | apply Kept.ite | apply KeptB.ite | apply Kept.fst | apply runOp_kept
    | with_reducible first | apply State.vaultUse_kept | apply State.modCx_kept | apply State.modRw_kept
    | with_reducible first | apply State.setCst_kept | apply KeptR.ite | apply KeptR.fault
    | with_reducible refine Kept.of_fst ‹_› ?_
    | intro _
    | split
    | (simp; done)

@[simp] theorem State.disarm_kept (c : Nat) (hk : Kept fx s₀ s) : Kept fx s₀ (State.disarm s c) := by
  simp [State.disarm, hk]

@[simp] theorem execCtxStop_kept (p : Pkt) (hk : Kept fx s₀ s) : KeptR fx s₀ (execCtxStop p s) := by
  simp only [execCtxStop, KeptR.next]
  repeat' first
    | with_reducible exact hk
    | simp only [Kept.of_record, KeptP.fold, KeptB.pair, KeptR.next]
    | with_reducible first | apply Kept.refl | apply Kept.ite | apply KeptB.ite | apply Kept.fst | apply runOp_kept
    | with_reducible first | apply State.modCx_kept | apply State.setCst_kept | apply State.settleFrames_kept
    | with_reducible first | apply State.disarm_kept | apply KeptR.ite | apply KeptR.fault
    | with_reducible refine Kept.of_fst ‹_› ?_
    | intro _
    | split
    | (simp; done)

@[simp] theorem execTapHoldSet_kept (tap : Fin 10) (v : W32) (hk : Kept fx s₀ s) : KeptR fx s₀ (execTapHoldSet tap v s) := by
  simp only [execTapHoldSet, KeptR.next]
  repeat' first
    | with_reducible exact hk
    | simp only [Kept.of_record, KeptP.fold, KeptR.next]
    | with_reducible first | apply Kept.refl | apply Kept.ite | apply State.setF_kept | apply State.raise_kept
    | with_reducible first | apply KeptR.ite | apply KeptR.fault
    | intro _
    | split
    | (simp; done)

end Sys2Proof.Machine
end

