-- ==== Sys2Proof/Laws/KeptRaw.lean ====
section
/-!
SUPPORT. What the operations of Machine/Raw.lean keep.
-/
namespace Sys2Proof.Machine
open Sys2Proof

set_option linter.unusedSimpArgs false

variable {fx : Bool} {s₀ s : State}

@[simp] theorem State.lnkFault_kept (p b o : Nat) (hk : Kept fx s₀ s) : Kept fx s₀ (State.lnkFault s p b o) := by
  simp only [State.lnkFault]
  repeat' first
    | with_reducible exact hk
    | simp only [Kept.of_record, KeptP.fold]
    | with_reducible first | apply Kept.refl | apply Kept.ite | apply State.wn_kept | apply State.log_kept
    | with_reducible first | apply State.modPt_kept
    | intro _
    | split
    | (simp; done)

@[simp] theorem State.packetOff_kept (p : Nat) (w : W32) (hk : Kept fx s₀ s) : Kept fx s₀ (State.packetOff s p w) := by
  simp [State.packetOff, hk]

@[simp] theorem State.packetJudge_kept (p : Nat) (len : Option Nat) (w : W32) (t : List W32) (hk : Kept fx s₀ s) :
    KeptS fx s₀ (State.packetJudge s p len w t) := by
  simp only [State.packetJudge]
  repeat' first
    | with_reducible exact hk
    | simp only [Kept.of_record, KeptP.fold, KeptS.pair]
    | with_reducible first | apply Kept.refl | apply Kept.ite | apply KeptS.ite | apply Kept.snd
    | with_reducible first | apply State.bumpStat_kept | apply State.lnkFault_kept
    | intro _
    | split
    | (simp; done)

@[simp] theorem State.packetIn_kept (p ty : Nat) (len : Option Nat) (hk : Kept fx s₀ s) :
    KeptS fx s₀ (State.packetIn s p ty len) := by
  simp only [State.packetIn]
  repeat' first
    | with_reducible exact hk
    | simp only [Kept.of_record, KeptP.fold, KeptS.pair]
    | with_reducible first | apply Kept.refl | apply Kept.ite | apply KeptS.ite | apply Kept.snd
    | with_reducible first | apply State.packetOff_kept | apply State.packetJudge_kept
    | with_reducible refine Kept.of_snd ‹_› ?_
    | intro _
    | split
    | (simp; done)

@[simp] theorem State.modIngest_kept (p : Nat) (g : Ingest → Ingest) (hk : Kept fx s₀ s) :
    Kept fx s₀ (State.modIngest s p g) := by
  simp [State.modIngest, hk]

@[simp] theorem State.lineDone_kept (p r : Nat) (got : List Nat) (damaged received : Bool) (hk : Kept fx s₀ s) :
    Kept fx s₀ (State.lineDone s p r got damaged received) := by
  simp only [State.lineDone]
  repeat' first
    | with_reducible exact hk
    | simp only [Kept.of_record, KeptP.fold]
    | with_reducible first | apply Kept.refl | apply Kept.ite | apply State.bumpStat_kept
    | with_reducible first | apply State.modIngest_kept
    | intro _
    | split
    | (simp; done)

@[simp] theorem State.fillTo_kept (p r y k : Nat) (hk : Kept fx s₀ s) : Kept fx s₀ (State.fillTo s p r y k) := by
  induction k generalizing s with
  | zero => exact hk
  | succ k ih =>
    unfold State.fillTo
    split
    · exact hk
    · exact Kept.ite (ih (by simp [hk])) hk

@[simp] theorem State.closeLine_kept (p r : Nat) (hk : Kept fx s₀ s) : Kept fx s₀ (State.closeLine s p r) := by
  simp only [State.closeLine]
  repeat' first
    | with_reducible exact hk
    | simp only [Kept.of_record, KeptP.fold]
    | with_reducible first | apply Kept.refl | apply Kept.ite | apply State.lnkFault_kept
    | with_reducible first | apply State.modIngest_kept | apply State.lineDone_kept
    | intro _
    | split
    | (simp; done)

@[simp] theorem State.landStripe_kept (p : Nat) (hk : Kept fx s₀ s) : Kept fx s₀ (State.landStripe s p) := by
  simp only [State.landStripe]
  repeat' first
    | with_reducible exact hk
    | simp only [Kept.of_record, KeptP.fold]
    | with_reducible first | apply Kept.refl | apply Kept.ite | apply State.setF_kept | apply State.setB_kept
    | with_reducible first | apply State.raise_kept | apply State.bumpStat_kept | apply State.vaultUse_kept
    | with_reducible first | apply State.landRec_kept | apply State.modFrame_kept | apply State.modIngest_kept
    | intro _
    | split
    | (simp; done)

@[simp] theorem State.landUpTo_kept (p m k : Nat) (hk : Kept fx s₀ s) : Kept fx s₀ (State.landUpTo s p m k) := by
  induction k generalizing s with
  | zero => exact hk
  | succ k ih =>
    unfold State.landUpTo
    split
    · exact hk
    · exact Kept.ite (ih (by simp [hk])) hk

@[simp] theorem State.sendSeq_kept (p : Nat) (l : List (List Byte)) (e : Option Nat) (hk : Kept fx s₀ s) :
    Kept fx s₀ (s.sendSeq p l e) := by
  induction l generalizing s e with
  | nil => cases e <;> exact hk
  | cons bs t ih =>
    cases e with
    | none => exact ih none (by simp [hk])
    | some i => exact Kept.ite (by simp [hk]) (ih _ (by simp [hk]))

@[simp] theorem State.sendXfer_kept (p : Nat) (x : Xfer) (e : Option Nat) (hk : Kept fx s₀ s) :
    Kept fx s₀ (State.sendXfer s p x e) := by
  simp only [State.sendXfer]
  repeat' first
    | with_reducible exact hk
    | simp only [Kept.of_record, KeptP.fold]
    | with_reducible first | apply Kept.refl | apply Kept.ite | apply State.emit_kept
    | intro _
    | split
    | (simp; done)

@[simp] theorem State.startXfer_kept (p : Nat) (hk : Kept fx s₀ s) : Kept fx s₀ (State.startXfer s p) := by
  simp only [State.startXfer]
  repeat' first
    | with_reducible exact hk
    | simp only [Kept.of_record, KeptP.fold]
    | with_reducible first | apply Kept.refl | apply Kept.ite | apply State.modPt_kept
    | intro _
    | split
    | (simp; done)

@[simp] theorem State.startSettings_kept (p : Nat) (hk : Kept fx s₀ s) : Kept fx s₀ (State.startSettings s p) := by
  simp only [State.startSettings]
  repeat' first
    | with_reducible exact hk
    | simp only [Kept.of_record, KeptP.fold]
    | with_reducible first | apply Kept.refl | apply Kept.ite | apply State.modPt_kept
    | intro _
    | split
    | (simp; done)

@[simp] theorem State.channelNext_kept (p : Nat) (hk : Kept fx s₀ s) : Kept fx s₀ (State.channelNext s p) := by
  simp only [State.channelNext]
  repeat' first
    | with_reducible exact hk
    | simp only [Kept.of_record, KeptP.fold]
    | with_reducible first | apply Kept.refl | apply Kept.ite | apply State.startSettings_kept
    | with_reducible first | apply State.startXfer_kept
    | intro _
    | split
    | (simp; done)

@[simp] theorem State.queueSeq_kept (p : Nat) (f : Profile) (es : List Nat) (hk : Kept fx s₀ s) :
    Kept fx s₀ (State.queueSeq s p f es) := by
  simp only [State.queueSeq]
  repeat' first
    | with_reducible exact hk
    | simp only [Kept.of_record, KeptP.fold]
    | with_reducible first | apply Kept.refl | apply Kept.ite | apply State.modPt_kept
    | with_reducible first | apply State.channelNext_kept
    | intro _
    | split
    | (simp; done)

@[simp] theorem State.lnkStopped_kept (p : Nat) (hk : Kept fx s₀ s) : Kept fx s₀ (State.lnkStopped s p) := by
  simp only [State.lnkStopped]
  repeat' first
    | with_reducible exact hk
    | simp only [Kept.of_record, KeptP.fold]
    | with_reducible first | apply Kept.refl | apply Kept.ite | apply State.setB_kept | apply State.finishF_kept
    | with_reducible first | apply State.modPt_kept | apply State.channelNext_kept
    | intro _
    | split
    | (simp; done)

@[simp] theorem State.pressJudge_kept (p : Nat) (f : Ingest) (hk : Kept fx s₀ s) : Kept fx s₀ (State.pressJudge s p f) := by
  simp only [State.pressJudge]
  repeat' first
    | with_reducible exact hk
    | simp only [Kept.of_record, KeptP.fold]
    | with_reducible first | apply Kept.refl | apply Kept.ite | apply State.wn_kept | apply State.setB_kept
    | with_reducible first | apply State.bumpStat_kept | apply State.log_kept | apply State.modRw_kept
    | intro _
    | split
    | (simp; done)

@[simp] theorem State.ingestEnd_kept (p cause m : Nat) (hk : Kept fx s₀ s) : Kept fx s₀ (State.ingestEnd s p cause m) := by
  simp only [State.ingestEnd]
  repeat' first
    | with_reducible exact hk
    | simp only [Kept.of_record, KeptP.fold]
    | with_reducible first | apply Kept.refl | apply Kept.ite | apply Kept.foldl | apply State.setF_kept
    | with_reducible first | apply State.setB_kept | apply State.bumpEvt_kept | apply State.closeRec_kept
    | with_reducible first | apply State.modRw_kept | apply State.armedLive_kept | apply State.modFrame_kept
    | with_reducible first | apply State.settleDrain_kept | apply State.settleFrames_kept
    | with_reducible first | apply State.lastStripe_kept | apply State.landUpTo_kept | apply State.lnkStopped_kept
    | with_reducible first | apply State.pressJudge_kept
    | intro _
    | split
    | (simp; done)

@[simp] theorem State.truncateFrame_kept (p cause : Nat) (hk : Kept fx s₀ s) :
    Kept fx s₀ (State.truncateFrame s p cause) := by
  simp only [State.truncateFrame]
  repeat' first
    | with_reducible exact hk
    | simp only [Kept.of_record, KeptP.fold]
    | with_reducible first | apply Kept.refl | apply Kept.ite | apply State.ingestEnd_kept
    | intro _
    | split
    | (simp; done)

@[simp] theorem State.overflow_kept (p cause : Nat) (hk : Kept fx s₀ s) : Kept fx s₀ (State.overflow s p cause) := by
  simp only [State.overflow]
  repeat' first
    | with_reducible exact hk
    | simp only [Kept.of_record, KeptP.fold]
    | with_reducible first | apply Kept.refl | apply Kept.ite | apply State.raise_kept | apply State.bumpEvt_kept
    | with_reducible first | apply State.ingestEnd_kept
    | intro _
    | split
    | (simp; done)

@[simp] theorem State.checkWaiting_kept (p : Nat) (hk : Kept fx s₀ s) : Kept fx s₀ (State.checkWaiting s p) := by
  simp only [State.checkWaiting]
  repeat' first
    | with_reducible exact hk
    | simp only [Kept.of_record, KeptP.fold]
    | with_reducible first | apply Kept.refl | apply Kept.ite | apply State.overflow_kept
    | intro _
    | split
    | (simp; done)

@[simp] theorem State.takeTags_kept (p fid : Nat) (hk : Kept fx s₀ s) : KeptS fx s₀ (State.takeTags s p fid) := by
  simp only [State.takeTags]
  repeat' first
    | with_reducible exact hk
    | simp only [Kept.of_record, KeptP.fold, KeptS.pair]
    | with_reducible first | apply Kept.refl | apply Kept.ite | apply KeptS.ite | apply Kept.snd
    | with_reducible first | apply State.modPt_kept
    | intro _
    | split
    | (simp; done)

@[simp] theorem State.placeFrame_kept (p : Nat) (f : Profile) (hk : Kept fx s₀ s) :
    KeptS fx s₀ (State.placeFrame s p f) := by
  simp only [State.placeFrame]
  repeat' first
    | with_reducible exact hk
    | simp only [Kept.of_record, KeptP.fold, KeptS.pair]
    | with_reducible first | apply Kept.refl | apply Kept.ite | apply KeptS.ite | apply Kept.snd
    | with_reducible first | apply State.place_kept
    | with_reducible refine Kept.of_snd ‹_› ?_
    | intro _
    | split
    | (simp; done)

@[simp] theorem State.beginFrame_kept (p fid : Nat) (prof : Profile) (flags : W32) (hk : Kept fx s₀ s) :
    Kept fx s₀ (State.beginFrame s p fid prof flags) := by
  simp only [State.beginFrame]
  repeat' first
    | with_reducible exact hk
    | simp only [Kept.of_record, KeptP.fold, KeptS.pair]
    | with_reducible first | apply Kept.refl | apply Kept.ite | apply KeptS.ite | apply Kept.snd
    | with_reducible first | apply State.wn_kept | apply State.setF_kept | apply State.setB_kept
    | with_reducible first | apply State.modCx_kept | apply State.modRw_kept | apply State.bindImage_kept
    | with_reducible first | apply State.armedLive_kept | apply State.noteSource_kept | apply State.takeTags_kept
    | with_reducible refine Kept.of_snd ‹_› ?_
    | intro _
    | split
    | (simp; done)

@[simp] theorem State.ghostFrame_kept (p : Nat) (prof : Profile) (hk : Kept fx s₀ s) :
    Kept fx s₀ (State.ghostFrame s p prof) := by
  simp [State.ghostFrame, hk]

@[simp] theorem State.gapCheck_kept (p : Nat) (last : Option Nat) (fn : Nat) (hk : Kept fx s₀ s) :
    Kept fx s₀ (State.gapCheck s p last fn) := by
  simp only [State.gapCheck]
  repeat' first
    | with_reducible exact hk
    | simp only [Kept.of_record, KeptP.fold]
    | with_reducible first | apply Kept.refl | apply Kept.ite | apply State.lnkFault_kept
    | intro _
    | split
    | (simp; done)

@[simp] theorem State.endOpen_kept (p : Nat) (hk : Kept fx s₀ s) : Kept fx s₀ (State.endOpen s p) := by
  simp only [State.endOpen]
  repeat' first
    | with_reducible exact hk
    | simp only [Kept.of_record, KeptP.fold]
    | with_reducible first | apply Kept.refl | apply Kept.ite | apply State.lnkFault_kept
    | with_reducible first | apply State.truncateFrame_kept
    | intro _
    | split
    | (simp; done)

@[simp] theorem State.frameOpens_kept (p fn : Nat) (hk : Kept fx s₀ s) : Kept fx s₀ (State.frameOpens s p fn) := by
  simp only [State.frameOpens]
  repeat' first
    | with_reducible exact hk
    | simp only [Kept.of_record, KeptP.fold]
    | with_reducible first | apply Kept.refl | apply Kept.ite | apply State.wn_kept | apply State.setB_kept
    | with_reducible first | apply State.bumpEvt_kept | apply State.modPt_kept | apply State.gapCheck_kept
    | intro _
    | split
    | (simp; done)

@[simp] theorem execFrameStart_kept (port : Fin 4) (hk : Kept fx s₀ s) : KeptR fx s₀ (execFrameStart port s) := by
  simp only [execFrameStart, KeptR.next]
  repeat' first
    | with_reducible exact hk
    | simp only [Kept.of_record, KeptP.fold, KeptS.pair, KeptR.next]
    | with_reducible first | apply Kept.refl | apply Kept.ite | apply KeptS.ite | apply Kept.snd
    | with_reducible first | apply State.bumpEvt_kept | apply State.packetIn_kept | apply State.placeFrame_kept
    | with_reducible first | apply State.beginFrame_kept | apply State.ghostFrame_kept | apply State.endOpen_kept
    | with_reducible first | apply State.frameOpens_kept | apply KeptR.ite | apply KeptR.fault
    | with_reducible refine Kept.of_snd ‹_› ?_
    | intro _
    | split
    | (simp; done)

@[simp] theorem execFrameEnd_kept (port : Fin 4) (hk : Kept fx s₀ s) : KeptR fx s₀ (execFrameEnd port s) := by
  simp only [execFrameEnd, KeptR.next]
  repeat' first
    | with_reducible exact hk
    | simp only [Kept.of_record, KeptP.fold, KeptS.pair, KeptR.next]
    | with_reducible first | apply Kept.refl | apply Kept.ite | apply Kept.foldl | apply KeptS.ite | apply Kept.snd
    | with_reducible first | apply State.raise_kept | apply State.lnkFault_kept | apply State.packetIn_kept
    | with_reducible first | apply State.modIngest_kept | apply State.fillTo_kept | apply State.closeLine_kept
    | with_reducible first | apply State.ingestEnd_kept | apply KeptR.ite | apply KeptR.fault
    | with_reducible refine Kept.of_snd ‹_› ?_
    | intro _
    | split
    | (simp; done)

@[simp] theorem State.lineTimed_kept (p r y : Nat) (hk : Kept fx s₀ s) : Kept fx s₀ (State.lineTimed s p r y) := by
  simp only [State.lineTimed]
  repeat' first
    | with_reducible exact hk
    | simp only [Kept.of_record, KeptP.fold]
    | with_reducible first | apply Kept.refl | apply Kept.ite | apply State.modPt_kept
    | intro _
    | split
    | (simp; done)

@[simp] theorem execLineStart_kept (port : Fin 4) (hk : Kept fx s₀ s) : KeptR fx s₀ (execLineStart port s) := by
  simp only [execLineStart, KeptR.next]
  repeat' first
    | with_reducible exact hk
    | simp only [Kept.of_record, KeptP.fold, KeptS.pair, KeptR.next]
    | with_reducible first | apply Kept.refl | apply Kept.ite | apply KeptS.ite | apply Kept.snd
    | with_reducible first | apply State.lnkFault_kept | apply State.packetIn_kept | apply State.modIngest_kept
    | with_reducible first | apply State.fillTo_kept | apply State.closeLine_kept | apply State.checkWaiting_kept
    | with_reducible first | apply State.startSettings_kept | apply State.lineTimed_kept | apply KeptR.ite
    | with_reducible first | apply KeptR.fault
    | with_reducible refine Kept.of_snd ‹_› ?_
    | intro _
    | split
    | (simp; done)

@[simp] theorem execLineData_kept (port : Fin 4) (full : Bool) (hk : Kept fx s₀ s) :
    KeptR fx s₀ (execLineData port full s) := by
  simp only [execLineData, KeptR.next]
  repeat' first
    | with_reducible exact hk
    | simp only [Kept.of_record, KeptP.fold, KeptS.pair, KeptR.next]
    | with_reducible first | apply Kept.refl | apply Kept.ite | apply KeptS.ite | apply Kept.snd
    | with_reducible first | apply State.lnkFault_kept | apply State.packetIn_kept | apply State.modIngest_kept
    | with_reducible first | apply State.overflow_kept | apply KeptR.ite | apply KeptR.fault
    | with_reducible refine Kept.of_snd ‹_› ?_
    | intro _
    | split
    | (simp; done)

@[simp] theorem execLineEnd_kept (port : Fin 4) (hk : Kept fx s₀ s) : KeptR fx s₀ (execLineEnd port s) := by
  simp only [execLineEnd, KeptR.next]
  repeat' first
    | with_reducible exact hk
    | simp only [Kept.of_record, KeptP.fold, KeptS.pair, KeptR.next]
    | with_reducible first | apply Kept.refl | apply Kept.ite | apply KeptS.ite | apply Kept.snd
    | with_reducible first | apply State.lnkFault_kept | apply State.packetIn_kept | apply State.closeLine_kept
    | with_reducible first | apply State.checkWaiting_kept | apply KeptR.ite | apply KeptR.fault
    | with_reducible refine Kept.of_snd ‹_› ?_
    | intro _
    | split
    | (simp; done)

@[simp] theorem execEmbedded_kept (port : Fin 4) (hk : Kept fx s₀ s) : KeptR fx s₀ (execEmbedded port s) := by
  simp only [execEmbedded, KeptR.next]
  repeat' first
    | with_reducible exact hk
    | simp only [Kept.of_record, KeptP.fold, KeptS.pair, KeptR.next]
    | with_reducible first | apply Kept.refl | apply Kept.ite | apply KeptS.ite | apply Kept.snd
    | with_reducible first | apply State.lnkFault_kept | apply State.packetIn_kept | apply State.modIngest_kept
    | with_reducible first | apply KeptR.ite | apply KeptR.fault
    | with_reducible refine Kept.of_snd ‹_› ?_
    | intro _
    | split
    | (simp; done)

@[simp] theorem execIdle_kept (port : Fin 4) (hk : Kept fx s₀ s) : KeptR fx s₀ (execIdle port s) := by
  simp [execIdle, hk]

@[simp] theorem execReservedTypePacket_kept (port : Fin 4) (hk : Kept fx s₀ s) :
    KeptR fx s₀ (execReservedTypePacket port s) := by
  simp only [execReservedTypePacket, KeptR.next]
  repeat' first
    | with_reducible exact hk
    | simp only [Kept.of_record, KeptP.fold, KeptR.next]
    | with_reducible first | apply Kept.refl | apply Kept.ite | apply State.lnkFault_kept
    | with_reducible first | apply State.packetOff_kept | apply KeptR.ite | apply KeptR.fault
    | intro _
    | split
    | (simp; done)

@[simp] theorem execFrameTimeout_kept (port : Fin 4) (hk : Kept fx s₀ s) : KeptR fx s₀ (execFrameTimeout port s) := by
  simp only [execFrameTimeout, KeptR.next]
  repeat' first
    | with_reducible exact hk
    | simp only [Kept.of_record, KeptP.fold, KeptR.next]
    | with_reducible first | apply Kept.refl | apply Kept.ite | apply State.lnkFault_kept
    | with_reducible first | apply State.truncateFrame_kept | apply KeptR.ite | apply KeptR.fault
    | intro _
    | split
    | (simp; done)

@[simp] theorem execStripeLanded_kept (port : Fin 4) (hk : Kept fx s₀ s) : KeptR fx s₀ (execStripeLanded port s) := by
  simp only [execStripeLanded, KeptR.next]
  repeat' first
    | with_reducible exact hk
    | simp only [Kept.of_record, KeptP.fold, KeptR.next]
    | with_reducible first | apply Kept.refl | apply Kept.ite | apply State.landStripe_kept | apply KeptR.ite
    | with_reducible first | apply KeptR.fault
    | intro _
    | split
    | (simp; done)

end Sys2Proof.Machine
end

