-- ==== Sys2Proof/Laws/KeptLnk.lean ====
section
/-!
SUPPORT. What the operations of Machine/Lnk.lean keep.
-/
namespace Sys2Proof.Machine
open Sys2Proof

set_option linter.unusedSimpArgs false

variable {fx : Bool} {s₀ s : State}

@[simp] theorem State.modLn_kept (l : Nat) (g : LaneSt → LaneSt) (hk : Kept fx s₀ s) : Kept fx s₀ (State.modLn s l g) := by
  simp [State.modLn, hk]

@[simp] theorem State.dropWords_kept (p : Nat) (hk : Kept fx s₀ s) : Kept fx s₀ (State.dropWords s p) := by
  simp [State.dropWords, hk]

@[simp] theorem State.lockLost_kept (p b : Nat) (hk : Kept fx s₀ s) : Kept fx s₀ (State.lockLost s p b) := by
  simp only [State.lockLost]
  repeat' first
    | with_reducible exact hk
    | simp only [Kept.of_record, KeptP.fold]
    | with_reducible first | apply Kept.refl | apply Kept.ite | apply State.setB_kept | apply State.bumpEvt_kept
    | with_reducible first | apply State.modPt_kept | apply State.lnkFault_kept | apply State.truncateFrame_kept
    | with_reducible first | apply State.dropWords_kept
    | intro _
    | split
    | (simp; done)

@[simp] theorem State.laneLost_kept (l : Nat) (hk : Kept fx s₀ s) : Kept fx s₀ (State.laneLost s l) := by
  simp only [State.laneLost]
  repeat' first
    | with_reducible exact hk
    | simp only [Kept.of_record, KeptP.fold]
    | with_reducible first | apply Kept.refl | apply Kept.ite | apply State.setB_kept | apply State.modLn_kept
    | with_reducible first | apply State.lockLost_kept
    | intro _
    | split
    | (simp; done)

@[simp] theorem State.lockCheck_kept (p : Nat) (hk : Kept fx s₀ s) : Kept fx s₀ (State.lockCheck s p) := by
  simp [State.lockCheck, hk]

@[simp] theorem State.powerLanes_kept (hk : Kept fx s₀ s) : Kept fx s₀ (State.powerLanes s) := by
  simp only [State.powerLanes]
  repeat' first
    | with_reducible exact hk
    | simp only [Kept.of_record, KeptP.fold]
    | with_reducible first | apply Kept.refl | apply Kept.ite | apply Kept.foldl | apply State.setB_kept
    | with_reducible first | apply State.modLn_kept
    | intro _
    | split
    | (simp; done)

@[simp] theorem State.locked_kept (p : Nat) (hk : Kept fx s₀ s) : Kept fx s₀ (State.locked s p) := by
  simp only [State.locked]
  repeat' first
    | with_reducible exact hk
    | simp only [Kept.of_record, KeptP.fold]
    | with_reducible first | apply Kept.refl | apply Kept.ite | apply State.setB_kept | apply State.finishF_kept
    | with_reducible first | apply State.modPt_kept
    | intro _
    | split
    | (simp; done)

@[simp] theorem State.portInterval_kept (p : Nat) (hk : Kept fx s₀ s) : Kept fx s₀ (State.portInterval s p) := by
  simp only [State.portInterval]
  repeat' first
    | with_reducible exact hk
    | simp only [Kept.of_record, KeptP.fold]
    | with_reducible first | apply Kept.refl | apply Kept.ite | apply Kept.foldl | apply State.setF_kept
    | with_reducible first | apply State.modPt_kept | apply State.lnkFault_kept | apply State.modLn_kept
    | with_reducible first | apply State.lockLost_kept | apply State.locked_kept
    | intro _
    | split
    | (simp; done)

@[simp] theorem State.wholeWords_kept (n : Nat) (ws : List W32) (hk : Kept fx s₀ s) :
    KeptS fx s₀ (State.wholeWords s n ws) := by
  simp [State.wholeWords, hk]

@[simp] theorem State.laneComma_kept (l p at_ : Nat) (bits : List Bool) (hk : Kept fx s₀ s) :
    Kept fx s₀ (State.laneComma s l p at_ bits) := by
  unfold State.laneComma
  have hx := State.wholeWords_kept (16 * (s.f (LNK_P_CFG__CW p) + 1))
    (intervalWords (16 * (s.f (LNK_P_CFG__CW p) + 1)) bits).1 hk
  have hx := hx.snd_kept
  refine Kept.ite (State.portInterval_kept _ ?_) ?_ <;>
    exact Kept.ite (State.setB_kept _ _ (State.modLn_kept _ _ hx))
      (Kept.ite (State.laneLost_kept _ (State.modLn_kept _ _ hx)) (State.modLn_kept _ _ hx))

@[simp] theorem State.bumpBits_kept (l n : Nat) (hk : Kept fx s₀ s) : Kept fx s₀ (State.bumpBits s l n) := by
  simp only [State.bumpBits]
  repeat' first
    | with_reducible exact hk
    | simp only [Kept.of_record, KeptP.fold]
    | with_reducible first | apply Kept.refl | apply Kept.ite | apply State.wn_kept | apply State.setF_kept
    | intro _
    | split
    | (simp; done)

@[simp] theorem State.checkBits_kept (l : Nat) (bits : List Bool) (hk : Kept fx s₀ s) :
    Kept fx s₀ (State.checkBits s l bits) := by
  simp only [State.checkBits]
  repeat' first
    | with_reducible exact hk
    | simp only [Kept.of_record, KeptP.fold]
    | with_reducible first | apply Kept.refl | apply Kept.ite | apply Kept.foldl | apply State.setB_kept
    | with_reducible first | apply State.bumpStat_kept | apply State.modLn_kept | apply State.bumpBits_kept
    | intro _
    | split
    | (simp; done)

@[simp] theorem State.sensorBits_kept (l : Nat) (bits : List Bool) (hk : Kept fx s₀ s) :
    Kept fx s₀ (State.sensorBits s l bits) := by
  simp [State.sensorBits, hk]

@[simp] theorem execComma_kept (lane : Fin 24) (at_ : Nat) (bits : List Bool) (hk : Kept fx s₀ s) :
    KeptR fx s₀ (execComma lane at_ bits s) := by
  simp only [execComma, KeptR.next]
  repeat' first
    | with_reducible exact hk
    | simp only [Kept.of_record, KeptP.fold, KeptR.next]
    | with_reducible first | apply Kept.refl | apply Kept.ite | apply State.setF_kept | apply State.setB_kept
    | with_reducible first | apply State.modLn_kept | apply State.laneComma_kept | apply State.sensorBits_kept
    | with_reducible first | apply KeptR.ite | apply KeptR.fault
    | intro _
    | split
    | (simp; done)

@[simp] theorem execCdrLockLoss_kept (lane : Fin 24) (hk : Kept fx s₀ s) : KeptR fx s₀ (execCdrLockLoss lane s) := by
  simp only [execCdrLockLoss, KeptR.next]
  repeat' first
    | with_reducible exact hk
    | simp only [Kept.of_record, KeptP.fold, KeptR.next]
    | with_reducible first | apply Kept.refl | apply Kept.ite | apply State.setB_kept | apply State.modLn_kept
    | with_reducible first | apply State.laneLost_kept | apply KeptR.ite | apply KeptR.fault
    | intro _
    | split
    | (simp; done)

@[simp] theorem execLinkWord_kept (port : Fin 4) (hk : Kept fx s₀ s) : KeptR fx s₀ (execLinkWord port s) := by
  simp only [execLinkWord, KeptR.next]
  repeat' first
    | with_reducible exact hk
    | simp only [Kept.of_record, KeptP.fold, KeptR.next]
    | with_reducible first | apply Kept.refl | apply Kept.ite | apply State.setB_kept | apply State.modPt_kept
    | with_reducible first | apply State.lnkFault_kept | apply State.dropWords_kept | apply KeptR.ite
    | with_reducible first | apply KeptR.fault
    | intro _
    | split
    | (simp; done)

@[simp] theorem execHcrcFail_kept (port : Fin 4) (hk : Kept fx s₀ s) : KeptR fx s₀ (execHcrcFail port s) := by
  simp only [execHcrcFail, KeptR.next]
  repeat' first
    | with_reducible exact hk
    | simp only [Kept.of_record, KeptP.fold, KeptR.next]
    | with_reducible first | apply Kept.refl | apply Kept.ite | apply State.setB_kept | apply State.bumpStat_kept
    | with_reducible first | apply State.lnkFault_kept | apply State.dropWords_kept | apply KeptR.ite
    | with_reducible first | apply KeptR.fault
    | intro _
    | split
    | (simp; done)

@[simp] theorem execLnkConfigPort_kept (p : Pkt) (hk : Kept fx s₀ s) : KeptR fx s₀ (execLnkConfigPort p s) := by
  simp only [execLnkConfigPort, KeptR.next]
  repeat' first
    | with_reducible exact hk
    | simp only [Kept.of_record, KeptP.fold, KeptB.pair, KeptR.next]
    | with_reducible first | apply Kept.refl | apply Kept.ite | apply Kept.foldl | apply KeptB.ite | apply Kept.fst
    | with_reducible first | apply runOp_kept | apply State.wn_kept | apply State.setF_kept
    | with_reducible first | apply State.commitSince_kept | apply State.lockCheck_kept
    | with_reducible first | apply State.powerLanes_kept | apply KeptR.ite | apply KeptR.fault
    | with_reducible refine Kept.of_fst ‹_› ?_
    | intro _
    | split
    | (simp; done)

@[simp] theorem State.setQmap_kept (m : Nat) (hk : Kept fx s₀ s) : Kept fx s₀ (State.setQmap s m) := by
  simp only [State.setQmap]
  repeat' first
    | with_reducible exact hk
    | simp only [Kept.of_record, KeptP.fold]
    | with_reducible first | apply Kept.refl | apply Kept.ite | apply Kept.foldl | apply State.setF_kept
    | with_reducible first | apply State.commitSince_kept | apply State.lockCheck_kept
    | with_reducible first | apply State.powerLanes_kept
    | intro _
    | split
    | (simp; done)

@[simp] theorem execLnkMapQuads_kept (p : Pkt) (hk : Kept fx s₀ s) : KeptR fx s₀ (execLnkMapQuads p s) := by
  simp only [execLnkMapQuads, KeptR.next]
  repeat' first
    | with_reducible exact hk
    | simp only [Kept.of_record, KeptP.fold, KeptB.pair, KeptR.next]
    | with_reducible first | apply Kept.refl | apply Kept.ite | apply KeptB.ite | apply Kept.fst | apply runOp_kept
    | with_reducible first | apply State.setF_kept | apply State.setQmap_kept | apply KeptR.ite | apply KeptR.fault
    | with_reducible refine Kept.of_fst ‹_› ?_
    | intro _
    | split
    | (simp; done)

@[simp] theorem execLnkStart_kept (p : Pkt) (hk : Kept fx s₀ s) : KeptR fx s₀ (execLnkStart p s) := by
  simp only [execLnkStart, KeptR.next]
  repeat' first
    | with_reducible exact hk
    | simp only [Kept.of_record, KeptP.fold, KeptB.pair, KeptR.next]
    | with_reducible first | apply Kept.refl | apply Kept.ite | apply KeptB.ite | apply Kept.fst | apply runOp_kept
    | with_reducible first | apply State.setB_kept | apply State.modPt_kept | apply State.queueSeq_kept
    | with_reducible first | apply State.dropWords_kept | apply KeptR.ite | apply KeptR.fault
    | with_reducible refine Kept.of_fst ‹_› ?_
    | intro _
    | split
    | (simp; done)

@[simp] theorem execLnkLockTimeout_kept (port : Fin 4) (hk : Kept fx s₀ s) : KeptR fx s₀ (execLnkLockTimeout port s) := by
  simp only [execLnkLockTimeout, KeptR.next]
  repeat' first
    | with_reducible exact hk
    | simp only [Kept.of_record, KeptP.fold, KeptR.next]
    | with_reducible first | apply Kept.refl | apply Kept.ite | apply State.finishF_kept | apply State.modPt_kept
    | with_reducible first | apply KeptR.ite | apply KeptR.fault
    | intro _
    | split
    | (simp; done)

@[simp] theorem execLnkStop_kept (p : Pkt) (hk : Kept fx s₀ s) : KeptR fx s₀ (execLnkStop p s) := by
  simp only [execLnkStop, KeptR.next]
  repeat' first
    | with_reducible exact hk
    | simp only [Kept.of_record, KeptP.fold, KeptB.pair, KeptR.next]
    | with_reducible first | apply Kept.refl | apply Kept.ite | apply KeptB.ite | apply Kept.fst | apply runOp_kept
    | with_reducible first | apply State.setB_kept | apply State.modPt_kept | apply State.truncateFrame_kept
    | with_reducible first | apply State.channelNext_kept | apply State.queueSeq_kept | apply KeptR.ite
    | with_reducible first | apply KeptR.fault
    | with_reducible refine Kept.of_fst ‹_› ?_
    | intro _
    | split
    | (simp; done)

@[simp] theorem execLnkStopWaitExpiry_kept (port : Fin 4) (hk : Kept fx s₀ s) :
    KeptR fx s₀ (execLnkStopWaitExpiry port s) := by
  simp only [execLnkStopWaitExpiry, KeptR.next]
  repeat' first
    | with_reducible exact hk
    | simp only [Kept.of_record, KeptP.fold, KeptR.next]
    | with_reducible first | apply Kept.refl | apply Kept.ite | apply State.lnkStopped_kept
    | with_reducible first | apply State.truncateFrame_kept | apply KeptR.ite | apply KeptR.fault
    | intro _
    | split
    | (simp; done)

@[simp] theorem execLnkStatus_kept (p : Pkt) (hk : Kept fx s₀ s) : KeptR fx s₀ (execLnkStatus p s) := by
  simp [execLnkStatus, hk]

@[simp] theorem execSnsLoadProfile_kept (p : Pkt) (hk : Kept fx s₀ s) : KeptR fx s₀ (execSnsLoadProfile p s) := by
  simp only [execSnsLoadProfile, KeptR.next]
  repeat' first
    | with_reducible exact hk
    | simp only [Kept.of_record, KeptP.fold, KeptB.pair, KeptR.next]
    | with_reducible first | apply Kept.refl | apply Kept.ite | apply KeptB.ite | apply Kept.fst | apply runOp_kept
    | with_reducible first | apply State.setF_kept | apply State.setB_kept | apply State.commitSince_kept
    | with_reducible first | apply State.modPt_kept | apply State.refGuard_kept | apply State.bufError_kept
    | with_reducible first | apply KeptR.ite | apply KeptR.fault
    | with_reducible refine Kept.of_fst ‹_› ?_
    | intro _
    | split
    | (simp; done)

@[simp] theorem execSnsQueueSettings_kept (p : Pkt) (hk : Kept fx s₀ s) : KeptR fx s₀ (execSnsQueueSettings p s) := by
  simp only [execSnsQueueSettings, KeptR.next]
  repeat' first
    | with_reducible exact hk
    | simp only [Kept.of_record, KeptP.fold, KeptB.pair, KeptR.next]
    | with_reducible first | apply Kept.refl | apply Kept.ite | apply KeptB.ite | apply Kept.fst | apply runOp_kept
    | with_reducible first | apply State.modPt_kept | apply KeptR.ite | apply KeptR.fault
    | with_reducible refine Kept.of_fst ‹_› ?_
    | intro _
    | split
    | (simp; done)

@[simp] theorem execSnsCtrlXfer_kept (p : Pkt) (hk : Kept fx s₀ s) : KeptR fx s₀ (execSnsCtrlXfer p s) := by
  simp only [execSnsCtrlXfer, KeptR.next]
  repeat' first
    | with_reducible exact hk
    | simp only [Kept.of_record, KeptP.fold, KeptB.pair, KeptR.next]
    | with_reducible first | apply Kept.refl | apply Kept.ite | apply KeptB.ite | apply Kept.fst | apply runOp_kept
    | with_reducible first | apply State.modPt_kept | apply State.refGuard_kept | apply State.bufError_kept
    | with_reducible first | apply State.channelNext_kept | apply KeptR.ite | apply KeptR.fault
    | with_reducible refine Kept.of_fst ‹_› ?_
    | intro _
    | split
    | (simp; done)

@[simp] theorem execSnsXferStart_kept (port : Fin 4) (hk : Kept fx s₀ s) : KeptR fx s₀ (execSnsXferStart port s) := by
  simp only [execSnsXferStart, KeptR.next]
  repeat' first
    | with_reducible exact hk
    | simp only [Kept.of_record, KeptP.fold, KeptR.next]
    | with_reducible first | apply Kept.refl | apply Kept.ite | apply State.startXfer_kept | apply KeptR.ite
    | with_reducible first | apply KeptR.fault
    | intro _
    | split
    | (simp; done)

@[simp] theorem execSnsXferDone_kept (port : Fin 4) (e : XferEnd) (hk : Kept false s₀ s) :
    KeptR false s₀ (execSnsXferDone port e s) := by
  simp only [execSnsXferDone, KeptR.next]
  repeat' first
    | with_reducible exact hk
    | simp only [Kept.of_record, KeptP.fold, KeptR.next]
    | with_reducible first | apply Kept.refl | apply Kept.ite | apply State.raise_kept | apply State.writeRef_kept
    | with_reducible first | apply State.finishF_kept | apply State.modPt_kept | apply State.sendSeq_kept
    | with_reducible first | apply State.channelNext_kept | apply State.sendXfer_kept | apply KeptR.ite
    | with_reducible first | apply KeptR.fault
    | intro _
    | split
    | (simp; done)

@[simp] theorem State.setTag_kept (p : Nat) (w : SetWrite) (hk : Kept fx s₀ s) : Kept fx s₀ (State.setTag s p w) := by
  simp only [State.setTag]
  repeat' first
    | with_reducible exact hk
    | simp only [Kept.of_record, KeptP.fold]
    | with_reducible first | apply Kept.refl | apply Kept.ite | apply State.wn_kept | apply State.modPt_kept
    | with_reducible first | apply State.modIngest_kept
    | intro _
    | split
    | (simp; done)

@[simp] theorem execSettingsWriteDone_kept (port : Fin 4) (e : XferEnd) (hk : Kept fx s₀ s) :
    KeptR fx s₀ (execSettingsWriteDone port e s) := by
  simp only [execSettingsWriteDone, KeptR.next]
  repeat' first
    | with_reducible exact hk
    | simp only [Kept.of_record, KeptP.fold, KeptR.next]
    | with_reducible first | apply Kept.refl | apply Kept.ite | apply State.raise_kept | apply State.modPt_kept
    | with_reducible first | apply State.sendSeq_kept | apply State.channelNext_kept | apply State.setTag_kept
    | with_reducible first | apply KeptR.ite | apply KeptR.fault
    | intro _
    | split
    | (simp; done)

@[simp] theorem execSetWindowExpiry_kept (port : Fin 4) (hk : Kept fx s₀ s) : KeptR fx s₀ (execSetWindowExpiry port s) := by
  simp only [execSetWindowExpiry, KeptR.next]
  repeat' first
    | with_reducible exact hk
    | simp only [Kept.of_record, KeptP.fold, KeptR.next]
    | with_reducible first | apply Kept.refl | apply Kept.ite | apply State.raise_kept | apply State.modPt_kept
    | with_reducible first | apply KeptR.ite | apply KeptR.fault
    | intro _
    | split
    | (simp; done)

@[simp] theorem State.driveTrg_kept (p : Nat) (a : Bool) (hk : Kept fx s₀ s) : Kept fx s₀ (State.driveTrg s p a) := by
  simp [State.driveTrg, hk]

@[simp] theorem State.trgTick_kept (f : Nat) (hk : Kept fx s₀ s) : Kept fx s₀ (State.trgTick s f) := by
  simp only [State.trgTick]
  repeat' first
    | with_reducible exact hk
    | simp only [Kept.of_record, KeptP.fold]
    | with_reducible first | apply Kept.refl | apply Kept.ite | apply Kept.foldl | apply State.log_kept
    | with_reducible first | apply State.modPt_kept
    | intro _
    | split
    | (simp; done)

@[simp] theorem execTrgAssert_kept (port : Fin 4) (hk : Kept fx s₀ s) : KeptR fx s₀ (execTrgAssert port s) := by
  simp only [execTrgAssert, KeptR.next]
  repeat' first
    | with_reducible exact hk
    | simp only [Kept.of_record, KeptP.fold, KeptR.next]
    | with_reducible first | apply Kept.refl | apply Kept.ite | apply State.modPt_kept | apply State.driveTrg_kept
    | with_reducible first | apply KeptR.ite | apply KeptR.fault
    | intro _
    | split
    | (simp; done)

@[simp] theorem execTrgDeassert_kept (port : Fin 4) (hk : Kept fx s₀ s) : KeptR fx s₀ (execTrgDeassert port s) := by
  simp [execTrgDeassert, hk]

@[simp] theorem State.setPat_kept (l v : Nat) (hk : Kept fx s₀ s) : Kept fx s₀ (State.setPat s l v) := by
  simp only [State.setPat]
  repeat' first
    | with_reducible exact hk
    | simp only [Kept.of_record, KeptP.fold]
    | with_reducible first | apply Kept.refl | apply Kept.ite | apply State.wn_kept | apply State.setF_kept
    | with_reducible first | apply State.setB_kept | apply State.modLn_kept | apply State.laneLost_kept
    | with_reducible first | apply State.powerLanes_kept
    | intro _
    | split
    | (simp; done)

@[simp] theorem execLnkPattern_kept (p : Pkt) (hk : Kept fx s₀ s) : KeptR fx s₀ (execLnkPattern p s) := by
  simp only [execLnkPattern, KeptR.next]
  repeat' first
    | with_reducible exact hk
    | simp only [Kept.of_record, KeptP.fold, KeptB.pair, KeptR.next]
    | with_reducible first | apply Kept.refl | apply Kept.ite | apply Kept.foldl | apply KeptB.ite | apply Kept.fst
    | with_reducible first | apply runOp_kept | apply State.setF_kept | apply State.commitSince_kept
    | with_reducible first | apply State.setPat_kept | apply KeptR.ite | apply KeptR.fault
    | with_reducible refine Kept.of_fst ‹_› ?_
    | intro _
    | split
    | (simp; done)

@[simp] theorem execPatSyncChange_kept (lane : Fin 24) (bits : List Bool) (hk : Kept fx s₀ s) :
    KeptR fx s₀ (execPatSyncChange lane bits s) := by
  simp only [execPatSyncChange, KeptR.next]
  repeat' first
    | with_reducible exact hk
    | simp only [Kept.of_record, KeptP.fold, KeptR.next]
    | with_reducible first | apply Kept.refl | apply Kept.ite | apply State.sensorBits_kept | apply KeptR.ite
    | with_reducible first | apply KeptR.fault
    | intro _
    | split
    | (simp; done)

@[simp] theorem State.injectBits_kept (l n : Nat) (hk : Kept fx s₀ s) : Kept fx s₀ (State.injectBits s l n) := by
  simp only [State.injectBits]
  repeat' first
    | with_reducible exact hk
    | simp only [Kept.of_record, KeptP.fold]
    | with_reducible first | apply Kept.refl | apply Kept.ite | apply State.modLn_kept
    | intro _
    | split
    | (simp; done)

@[simp] theorem execInjectSingle_kept (lane : Fin 24) (hk : Kept fx s₀ s) : KeptR fx s₀ (execInjectSingle lane s) := by
  simp [execInjectSingle, hk]

@[simp] theorem execInjectBurst_kept (lane : Fin 24) (len : Fin 64) (hk : Kept fx s₀ s) :
    KeptR fx s₀ (execInjectBurst lane len s) := by
  simp [execInjectBurst, hk]

@[simp] theorem State.patTicks_kept (l k : Nat) (hk : Kept fx s₀ s) : Kept fx s₀ (State.patTicks s l k) := by
  simp only [State.patTicks]
  repeat' first
    | with_reducible exact hk
    | simp only [Kept.of_record, KeptP.fold]
    | with_reducible first | apply Kept.refl | apply Kept.ite | apply State.generate_kept | apply State.modLn_kept
    | with_reducible first | apply State.checkBits_kept
    | intro _
    | split
    | (simp; done)

end Sys2Proof.Machine
end

