-- ==== Sys2Proof/Laws/KeptAud.lean ====
section
/-!
SUPPORT. What the operations of Machine/Aud.lean keep.
-/
namespace Sys2Proof.Machine
open Sys2Proof

set_option linter.unusedSimpArgs false

variable {fx : Bool} {s₀ s : State}

@[simp] theorem State.modAp_kept (p : Nat) (g : AudPort → AudPort) (hk : Kept fx s₀ s) : Kept fx s₀ (State.modAp s p g) := by
  simp [State.modAp, hk]

@[simp] theorem State.audErr_kept (p : Nat) (x : Fld) (hk : Kept fx s₀ s) : Kept fx s₀ (State.audErr s p x) := by
  simp [State.audErr, hk]

@[simp] theorem State.audFlag_kept (p i : Nat) (hk : Kept fx s₀ s) : Kept fx s₀ (State.audFlag s p i) := by
  simp [State.audFlag, hk]

@[simp] theorem State.writeSlot_kept (p : Nat) (hk : Kept false s₀ s) : Kept false s₀ (State.writeSlot s p) := by
  simp only [State.writeSlot]
  repeat' first
    | with_reducible exact hk
    | simp only [Kept.of_record, KeptP.fold]
    | with_reducible first | apply Kept.refl | apply Kept.ite | apply State.modAp_kept | apply State.writeMem_kept
    | intro _
    | split
    | (simp; done)

@[simp] theorem State.embed_kept (p : Nat) (fs : List AudFrame) (hk : Kept fx s₀ s) : Kept fx s₀ (State.embed s p fs) := by
  simp only [State.embed]
  repeat' first
    | with_reducible exact hk
    | simp only [Kept.of_record, KeptP.fold]
    | with_reducible first | apply Kept.refl | apply Kept.ite | apply Kept.foldl | apply State.emit_kept
    | intro _
    | split
    | (simp; done)

@[simp] theorem State.monitor_kept (p : Nat) (f : AudFrame) (hk : Kept fx s₀ s) : Kept fx s₀ (State.monitor s p f) := by
  simp only [State.monitor]
  repeat' first
    | with_reducible exact hk
    | simp only [Kept.of_record, KeptP.fold]
    | with_reducible first | apply Kept.refl | apply Kept.ite | apply Kept.foldl | apply State.modAp_kept
    | with_reducible first | apply State.embed_kept
    | intro _
    | split
    | (simp; done)

@[simp] theorem State.showMute_kept (p : Nat) (hk : Kept fx s₀ s) : Kept fx s₀ (State.showMute s p) := by
  simp [State.showMute, hk]

@[simp] theorem State.nonAudioAt_kept (p : Nat) (f : AudFrame) (hk : Kept fx s₀ s) :
    Kept fx s₀ (State.nonAudioAt s p f) := by
  simp only [State.nonAudioAt]
  repeat' first
    | with_reducible exact hk
    | simp only [Kept.of_record, KeptP.fold]
    | with_reducible first | apply Kept.refl | apply Kept.ite | apply State.log_kept | apply State.modAp_kept
    | with_reducible first | apply State.audFlag_kept | apply State.showMute_kept
    | intro _
    | split
    | (simp; done)

@[simp] theorem State.showBlock_kept (p k : Nat) (hk : Kept fx s₀ s) : Kept fx s₀ (State.showBlock s p k) := by
  simp only [State.showBlock]
  repeat' first
    | with_reducible exact hk
    | simp only [Kept.of_record, KeptP.fold]
    | with_reducible first | apply Kept.refl | apply Kept.ite | apply State.wn_kept | apply State.log_kept
    | intro _
    | split
    | (simp; done)

@[simp] theorem State.playFetch_kept (p k : Nat) (hk : Kept fx s₀ s) : Kept fx s₀ (State.playFetch s p k) := by
  simp only [State.playFetch]
  repeat' first
    | with_reducible exact hk
    | simp only [Kept.of_record, KeptP.fold]
    | with_reducible first | apply Kept.refl | apply Kept.ite | apply State.bumpStat_kept | apply State.log_kept
    | with_reducible first | apply State.modAp_kept | apply State.audErr_kept
    | intro _
    | split
    | (simp; done)

@[simp] theorem State.audSend_kept (p : Nat) (fs : List AudFrame) (cs : List Byte) (hk : Kept fx s₀ s) :
    Kept fx s₀ (State.audSend s p fs cs) := by
  simp [State.audSend, hk]

@[simp] theorem State.playHost_kept (p k : Nat) (hk : Kept fx s₀ s) : Kept fx s₀ (State.playHost s p k) := by
  simp only [State.playHost]
  repeat' first
    | with_reducible exact hk
    | simp only [Kept.of_record, KeptP.fold]
    | with_reducible first | apply Kept.refl | apply Kept.ite | apply State.modAp_kept | apply State.playFetch_kept
    | with_reducible first | apply State.audSend_kept
    | intro _
    | split
    | (simp; done)

@[simp] theorem State.playLoop_kept (p : Nat) (hk : Kept fx s₀ s) : Kept fx s₀ (State.playLoop s p) := by
  simp only [State.playLoop]
  repeat' first
    | with_reducible exact hk
    | simp only [Kept.of_record, KeptP.fold]
    | with_reducible first | apply Kept.refl | apply Kept.ite | apply State.bumpStat_kept | apply State.modAp_kept
    | with_reducible first | apply State.audErr_kept | apply State.audSend_kept
    | intro _
    | split
    | (simp; done)

@[simp] theorem State.beginBlock_kept (p k : Nat) (hk : Kept fx s₀ s) : Kept fx s₀ (State.beginBlock s p k) := by
  simp only [State.beginBlock]
  repeat' first
    | with_reducible exact hk
    | simp only [Kept.of_record, KeptP.fold]
    | with_reducible first | apply Kept.refl | apply Kept.ite | apply State.wn_kept | apply State.setB_kept
    | with_reducible first | apply State.modAp_kept | apply State.showBlock_kept | apply State.playHost_kept
    | with_reducible first | apply State.hold_kept
    | intro _
    | split
    | (simp; done)

@[simp] theorem State.endBlock_kept (p : Nat) (hk : Kept false s₀ s) : Kept false s₀ (State.endBlock s p) := by
  simp only [State.endBlock]
  repeat' first
    | with_reducible exact hk
    | simp only [Kept.of_record, KeptP.fold]
    | with_reducible first | apply Kept.refl | apply Kept.ite | apply State.writeSlot_kept
    | with_reducible first | apply State.showBlock_kept | apply State.playLoop_kept
    | intro _
    | split
    | (simp; done)

@[simp] theorem State.audRun_kept (p : Nat) (hk : Kept fx s₀ s) : Kept fx s₀ (State.audRun s p) := by
  simp only [State.audRun]
  repeat' first
    | with_reducible exact hk
    | simp only [Kept.of_record, KeptP.fold]
    | with_reducible first | apply Kept.refl | apply Kept.ite | apply State.setB_kept | apply State.modAp_kept
    | with_reducible first | apply State.beginBlock_kept
    | intro _
    | split
    | (simp; done)

@[simp] theorem State.audHalt_kept (p : Nat) (hk : Kept fx s₀ s) : Kept fx s₀ (State.audHalt s p) := by
  simp only [State.audHalt]
  repeat' first
    | with_reducible exact hk
    | simp only [Kept.of_record, KeptP.fold]
    | with_reducible first | apply Kept.refl | apply Kept.ite | apply State.wn_kept | apply State.finishF_kept
    | with_reducible first | apply State.modAp_kept
    | intro _
    | split
    | (simp; done)

@[simp] theorem State.audStartMask_kept (mask : Nat) (hk : Kept fx s₀ s) : Kept fx s₀ (State.audStartMask s mask) := by
  simp only [State.audStartMask]
  repeat' first
    | with_reducible exact hk
    | simp only [Kept.of_record, KeptP.fold]
    | with_reducible first | apply Kept.refl | apply Kept.ite | apply Kept.foldl | apply State.modAp_kept
    | with_reducible first | apply State.audRun_kept
    | intro _
    | split
    | (simp; done)

@[simp] theorem execAudBlockBoundary_kept (port : Fin 8) (ppm : Int) (hk : Kept false s₀ s) :
    KeptR false s₀ (execAudBlockBoundary port ppm s) := by
  simp only [execAudBlockBoundary, KeptR.next]
  repeat' first
    | with_reducible exact hk
    | simp only [Kept.of_record, KeptP.fold, KeptR.next]
    | with_reducible first | apply Kept.refl | apply Kept.ite | apply State.wn_kept | apply State.modAp_kept
    | with_reducible first | apply State.showMute_kept | apply State.beginBlock_kept | apply State.endBlock_kept
    | with_reducible first | apply State.audRun_kept | apply State.audHalt_kept | apply KeptR.ite
    | with_reducible first | apply KeptR.fault
    | intro _
    | split
    | (simp; done)

@[simp] theorem execPlayFetch_kept (port : Fin 8) (hk : Kept fx s₀ s) : KeptR fx s₀ (execPlayFetch port s) := by
  simp only [execPlayFetch, KeptR.next]
  repeat' first
    | with_reducible exact hk
    | simp only [Kept.of_record, KeptP.fold, KeptR.next]
    | with_reducible first | apply Kept.refl | apply Kept.ite | apply State.playFetch_kept | apply KeptR.ite
    | with_reducible first | apply KeptR.fault
    | intro _
    | split
    | (simp; done)

@[simp] theorem execAudFrameIn_kept (port : Fin 8) (slotA slotB : W32) (full : Bool) (hk : Kept fx s₀ s) :
    KeptR fx s₀ (execAudFrameIn port slotA slotB full s) := by
  simp only [execAudFrameIn, KeptR.next]
  repeat' first
    | with_reducible exact hk
    | simp only [Kept.of_record, KeptP.fold, KeptR.next]
    | with_reducible first | apply Kept.refl | apply Kept.ite | apply State.bumpStat_kept | apply State.log_kept
    | with_reducible first | apply State.modAp_kept | apply State.audErr_kept | apply State.audFlag_kept
    | with_reducible first | apply State.monitor_kept | apply State.nonAudioAt_kept | apply KeptR.ite
    | with_reducible first | apply KeptR.fault
    | intro _
    | split
    | (simp; done)

@[simp] theorem execAudClockStop_kept (port : Fin 8) (hk : Kept fx s₀ s) : KeptR fx s₀ (execAudClockStop port s) := by
  simp only [execAudClockStop, KeptR.next]
  repeat' first
    | with_reducible exact hk
    | simp only [Kept.of_record, KeptP.fold, KeptR.next]
    | with_reducible first | apply Kept.refl | apply Kept.ite | apply State.setB_kept | apply State.log_kept
    | with_reducible first | apply State.audErr_kept | apply State.audFlag_kept | apply KeptR.ite
    | with_reducible first | apply KeptR.fault
    | intro _
    | split
    | (simp; done)

@[simp] theorem execHoldoverExit_kept (port : Fin 8) (hk : Kept fx s₀ s) : KeptR fx s₀ (execHoldoverExit port s) := by
  simp only [execHoldoverExit, KeptR.next]
  repeat' first
    | with_reducible exact hk
    | simp only [Kept.of_record, KeptP.fold, KeptR.next]
    | with_reducible first | apply Kept.refl | apply Kept.ite | apply State.setB_kept | apply KeptR.ite
    | with_reducible first | apply KeptR.fault
    | intro _
    | split
    | (simp; done)

@[simp] theorem execAudGlitch_kept (port : Fin 8) (hk : Kept fx s₀ s) : KeptR fx s₀ (execAudGlitch port s) := by
  simp only [execAudGlitch, KeptR.next]
  repeat' first
    | with_reducible exact hk
    | simp only [Kept.of_record, KeptP.fold, KeptR.next]
    | with_reducible first | apply Kept.refl | apply Kept.ite | apply State.bumpStat_kept | apply State.log_kept
    | with_reducible first | apply State.modAp_kept | apply State.audErr_kept | apply State.audFlag_kept
    | with_reducible first | apply State.emit_kept | apply KeptR.ite | apply KeptR.fault
    | intro _
    | split
    | (simp; done)

@[simp] theorem execAudRateChange_kept (port : Fin 8) (hk : Kept fx s₀ s) : KeptR fx s₀ (execAudRateChange port s) := by
  simp only [execAudRateChange, KeptR.next]
  repeat' first
    | with_reducible exact hk
    | simp only [Kept.of_record, KeptP.fold, KeptR.next]
    | with_reducible first | apply Kept.refl | apply Kept.ite | apply State.log_kept | apply State.modAp_kept
    | with_reducible first | apply State.audErr_kept | apply State.audFlag_kept | apply State.showMute_kept
    | with_reducible first | apply State.emit_kept | apply KeptR.ite | apply KeptR.fault
    | intro _
    | split
    | (simp; done)

@[simp] theorem execAudConfigurePort_kept (p : Pkt) (hk : Kept fx s₀ s) : KeptR fx s₀ (execAudConfigurePort p s) := by
  simp only [execAudConfigurePort, KeptR.next]
  repeat' first
    | with_reducible exact hk
    | simp only [Kept.of_record, KeptP.fold, KeptB.pair, KeptR.next]
    | with_reducible first | apply Kept.refl | apply Kept.ite | apply KeptB.ite | apply Kept.fst | apply runOp_kept
    | with_reducible first | apply State.wn_kept | apply State.commitSince_kept | apply State.modAp_kept
    | with_reducible first | apply KeptR.ite | apply KeptR.fault
    | with_reducible refine Kept.of_fst ‹_› ?_
    | intro _
    | split
    | (simp; done)

@[simp] theorem execAudStart_kept (p : Pkt) (hk : Kept fx s₀ s) : KeptR fx s₀ (execAudStart p s) := by
  simp only [execAudStart, KeptR.next]
  repeat' first
    | with_reducible exact hk
    | simp only [Kept.of_record, KeptP.fold, KeptB.pair, KeptR.next]
    | with_reducible first | apply Kept.refl | apply Kept.ite | apply KeptB.ite | apply Kept.fst | apply runOp_kept
    | with_reducible first | apply State.audStartMask_kept | apply KeptR.ite | apply KeptR.fault
    | with_reducible refine Kept.of_fst ‹_› ?_
    | intro _
    | split
    | (simp; done)

@[simp] theorem State.audStartDue_kept (due : AudStart → Bool) (hk : Kept fx s₀ s) :
    Kept fx s₀ (State.audStartDue s due) := by
  simp [State.audStartDue, hk]

@[simp] theorem execAudStartInstant_kept (hk : Kept fx s₀ s) : KeptR fx s₀ (execAudStartInstant s) := by
  simp [execAudStartInstant, hk]

@[simp] theorem execAudStop_kept (p : Pkt) (hk : Kept fx s₀ s) : KeptR fx s₀ (execAudStop p s) := by
  simp only [execAudStop, KeptR.next]
  repeat' first
    | with_reducible exact hk
    | simp only [Kept.of_record, KeptP.fold, KeptB.pair, KeptR.next]
    | with_reducible first | apply Kept.refl | apply Kept.ite | apply KeptB.ite | apply Kept.fst | apply runOp_kept
    | with_reducible first | apply State.modAp_kept | apply State.audHalt_kept | apply KeptR.ite
    | with_reducible first | apply KeptR.fault
    | with_reducible refine Kept.of_fst ‹_› ?_
    | intro _
    | split
    | (simp; done)

@[simp] theorem execAudSetChstatus_kept (p : Pkt) (hk : Kept fx s₀ s) : KeptR fx s₀ (execAudSetChstatus p s) := by
  simp only [execAudSetChstatus, KeptR.next]
  repeat' first
    | with_reducible exact hk
    | simp only [Kept.of_record, KeptP.fold, KeptB.pair, KeptR.next]
    | with_reducible first | apply Kept.refl | apply Kept.ite | apply KeptB.ite | apply Kept.fst | apply runOp_kept
    | with_reducible first | apply State.modAp_kept | apply KeptR.ite | apply KeptR.fault
    | with_reducible refine Kept.of_fst ‹_› ?_
    | intro _
    | split
    | (simp; done)

@[simp] theorem execAudStatus_kept (p : Pkt) (hk : Kept fx s₀ s) : KeptR fx s₀ (execAudStatus p s) := by
  simp [execAudStatus, hk]

end Sys2Proof.Machine
end

