-- ==== Sys2Proof/Laws/KeptTmux.lean ====
section
/-!
SUPPORT. What the operations of Machine/Tmux.lean keep.
-/
namespace Sys2Proof.Machine
open Sys2Proof

set_option linter.unusedSimpArgs false

variable {fx : Bool} {s₀ s : State}

@[simp] theorem State.tmuxTick_kept (hk : Kept fx s₀ s) : Kept fx s₀ (State.tmuxTick s) := by
  simp [State.tmuxTick, hk]

end Sys2Proof.Machine
end

