-- ==== Sys2Proof/Laws/KeptTim.lean ====
section
/-!
SUPPORT. What the operations of Machine/Tim.lean keep.
-/
namespace Sys2Proof.Machine
open Sys2Proof

set_option linter.unusedSimpArgs false

variable {fx : Bool} {s₀ s : State}

@[simp] theorem State.putTime_kept (v : Nat) (back : Bool) (hk : Kept fx s₀ s) : Kept fx s₀ (State.putTime s v back) := by
  simp only [State.putTime]
  repeat' first
    | with_reducible exact hk
    | simp only [Kept.of_record, KeptP.fold]
    | with_reducible first | apply Kept.refl | apply Kept.ite | apply State.wn_kept | apply State.pendIf_kept
    | with_reducible first | apply State.log_kept
    | intro _
    | split
    | (simp; done)

@[simp] theorem State.laneTicks_kept (n : Nat) (hk : Kept fx s₀ s) : Kept fx s₀ (State.laneTicks s n) := by
  simp [State.laneTicks, hk]

@[simp] theorem State.fabTicks_kept (n : Nat) (hk : Kept fx s₀ s) : Kept fx s₀ (State.fabTicks s n) := by
  simp only [State.fabTicks]
  repeat' first
    | with_reducible exact hk
    | simp only [Kept.of_record, KeptP.fold]
    | with_reducible first | apply Kept.refl | apply Kept.ite | apply State.putTime_kept
    | with_reducible first | apply State.laneTicks_kept
    | intro _
    | split
    | (simp; done)

@[simp] theorem State.fabTick_kept (hk : Kept fx s₀ s) : Kept fx s₀ (State.fabTick s) := by
  simp [State.fabTick, hk]

@[simp] theorem execTbWrap_kept (hk : Kept fx s₀ s) : KeptR fx s₀ (execTbWrap s) := by
  simp [execTbWrap, hk]

@[simp] theorem State.hold_kept (master : Byte) (reg : Nat) (v : W32) (hk : Kept fx s₀ s) :
    Kept fx s₀ (State.hold s master reg v) := by
  simp [State.hold, hk]

@[simp] theorem execTimNowNs_kept (master : Byte) (hk : Kept fx s₀ s) : KeptR fx s₀ (execTimNowNs master s) := by
  simp only [execTimNowNs, KeptR.next]
  repeat' first
    | with_reducible exact hk
    | simp only [Kept.of_record, KeptP.fold, KeptR.next]
    | with_reducible first | apply Kept.refl | apply Kept.ite | apply State.hold_kept | apply State.emit_kept
    | with_reducible first | apply KeptR.ite | apply KeptR.fault
    | intro _
    | split
    | (simp; done)

@[simp] theorem execTimGet_kept (p : Pkt) (hk : Kept fx s₀ s) : KeptR fx s₀ (execTimGet p s) := by
  simp [execTimGet, hk]

@[simp] theorem execTimSetAddend_kept (p : Pkt) (hk : Kept fx s₀ s) : KeptR fx s₀ (execTimSetAddend p s) := by
  simp only [execTimSetAddend, KeptR.next]
  repeat' first
    | with_reducible exact hk
    | simp only [Kept.of_record, KeptP.fold, KeptB.pair, KeptR.next]
    | with_reducible first | apply Kept.refl | apply Kept.ite | apply KeptB.ite | apply Kept.fst | apply runOp_kept
    | with_reducible first | apply State.wn_kept | apply KeptR.ite | apply KeptR.fault
    | with_reducible refine Kept.of_fst ‹_› ?_
    | intro _
    | split
    | (simp; done)

@[simp] theorem State.stepConsumers_kept (d : Int) (hk : Kept fx s₀ s) : Kept fx s₀ (State.stepConsumers s d) := by
  simp only [State.stepConsumers]
  repeat' first
    | with_reducible exact hk
    | simp only [Kept.of_record, KeptP.fold]
    | with_reducible first | apply Kept.refl | apply Kept.ite | apply Kept.foldl | apply State.modCx_kept
    | with_reducible first | apply State.modPt_kept | apply State.modEs_kept | apply State.modFcg_kept
    | with_reducible first | apply State.fcgMove_kept | apply State.modTg_kept | apply State.modDpt_kept
    | intro _
    | split
    | (simp; done)

@[simp] theorem execTimStep_kept (p : Pkt) (hk : Kept fx s₀ s) : KeptR fx s₀ (execTimStep p s) := by
  simp only [execTimStep, KeptR.next]
  repeat' first
    | with_reducible exact hk
    | simp only [Kept.of_record, KeptP.fold, KeptB.pair, KeptR.next]
    | with_reducible first | apply Kept.refl | apply Kept.ite | apply KeptB.ite | apply Kept.fst | apply runOp_kept
    | with_reducible first | apply State.raise_kept | apply State.log_kept | apply State.bumpEvt_kept
    | with_reducible first | apply State.putTime_kept | apply State.stepConsumers_kept | apply State.laneTicks_kept
    | with_reducible first | apply KeptR.ite | apply KeptR.fault
    | with_reducible refine Kept.of_fst ‹_› ?_
    | intro _
    | split
    | (simp; done)

@[simp] theorem State.fcgApply_kept (k : Nat) (c : FcgCfg) (hk : Kept fx s₀ s) : Kept fx s₀ (State.fcgApply s k c) := by
  simp only [State.fcgApply]
  repeat' first
    | with_reducible exact hk
    | simp only [Kept.of_record, KeptP.fold]
    | with_reducible first | apply Kept.refl | apply Kept.ite | apply State.wn_kept | apply State.setB_kept
    | with_reducible first | apply State.commitSince_kept | apply State.modFcg_kept | apply State.fcgMove_kept
    | intro _
    | split
    | (simp; done)

@[simp] theorem execFcgConfigure_kept (p : Pkt) (hk : Kept fx s₀ s) : KeptR fx s₀ (execFcgConfigure p s) := by
  simp only [execFcgConfigure, KeptR.next]
  repeat' first
    | with_reducible exact hk
    | simp only [Kept.of_record, KeptP.fold, KeptB.pair, KeptR.next]
    | with_reducible first | apply Kept.refl | apply Kept.ite | apply KeptB.ite | apply Kept.fst | apply runOp_kept
    | with_reducible first | apply State.modFcg_kept | apply State.fcgApply_kept | apply KeptR.ite
    | with_reducible first | apply KeptR.fault
    | with_reducible refine Kept.of_fst ‹_› ?_
    | intro _
    | split
    | (simp; done)

@[simp] theorem State.fcgCmp_kept (g : Nat) (hk : Kept fx s₀ s) : Kept fx s₀ (State.fcgCmp s g) := by
  simp only [State.fcgCmp]
  repeat' first
    | with_reducible exact hk
    | simp only [Kept.of_record, KeptP.fold]
    | with_reducible first | apply Kept.refl | apply Kept.ite | apply Kept.foldl | apply State.modCmp_kept
    | intro _
    | split
    | (simp; done)

@[simp] theorem execFcgTick_kept (fcg : Fin 4) (hk : Kept false s₀ s) : KeptR false s₀ (execFcgTick fcg s) := by
  simp only [execFcgTick, KeptR.next]
  repeat' first
    | with_reducible exact hk
    | simp only [Kept.of_record, KeptP.fold, KeptR.next]
    | with_reducible first | apply Kept.refl | apply Kept.ite | apply State.bumpEvt_kept | apply State.modFcg_kept
    | with_reducible first | apply State.fcgShow_kept | apply State.fcgPace_kept | apply State.trgTick_kept
    | with_reducible first | apply State.audStartDue_kept | apply State.fcgApply_kept | apply State.fcgCmp_kept
    | with_reducible first | apply KeptR.ite | apply KeptR.fault
    | intro _
    | split
    | (simp; done)

end Sys2Proof.Machine
end

