-- ==== Sys2Proof/Laws/KeptNet.lean ====
section
/-!
SUPPORT. What the operations of Machine/Net.lean keep.
-/
namespace Sys2Proof.Machine
open Sys2Proof

set_option linter.unusedSimpArgs false

variable {fx : Bool} {s₀ s : State}

@[simp] theorem State.modNet_kept (g : NetSt → NetSt) (hk : Kept fx s₀ s) : Kept fx s₀ (State.modNet s g) := by
  simp [State.modNet, hk]

@[simp] theorem State.netBack_kept (q : Nat) (bs : List Byte) (hk : Kept false s₀ s) :
    Kept false s₀ (State.netBack s q bs) := by
  simp only [State.netBack]
  repeat' first
    | with_reducible exact hk
    | simp only [Kept.of_record, KeptP.fold]
    | with_reducible first | apply Kept.refl | apply Kept.ite | apply State.setF_kept | apply State.pendIf_kept
    | with_reducible first | apply State.writeRef_kept | apply State.refUse_kept
    | intro _
    | split
    | (simp; done)

@[simp] theorem State.netFetch_kept (q k : Nat) (fs : List NetFetch) (hk : Kept false s₀ s) :
    Kept false s₀ (State.netFetch q k fs s) := by
  induction k generalizing s fs with
  | zero => exact hk
  | succ k ih =>
    have next (r : BufRef) (b : HostRead) (bs : List Byte) (t : State) (ht : Kept false s₀ t) :
        Kept false s₀ (State.netFetch q k fs.tail ((t.bufError .net r b).netBack q bs)) := ih _ (by simp [ht])
    have back (bs : List Byte) (t : State) (ht : Kept false s₀ t) : Kept false s₀ (State.netFetch q k fs.tail (t.netBack q bs)) :=
      ih _ (by simp [ht])
    have used (r : BufRef) : Kept false s₀ (s.refUse r) := by simp [hk]
    unfold State.netFetch
    dsimp only
    refine Kept.ite hk (Kept.ite (used _) ?_)
    split
    · exact next _ _ _ _ (used _)
    · refine Kept.ite (back _ _ (used _)) ?_
      split
      · exact next _ _ _ _ (used _)
      · exact Kept.ite (back _ _ (used _)) (by simp [hk])

@[simp] theorem State.netMore_kept (q : Nat) (fs : List NetFetch) (hk : Kept false s₀ s) :
    Kept false s₀ (State.netMore s q fs) := by
  simp [State.netMore, hk]

@[simp] theorem execNetDb_kept (ring : Fin 3) (v : W32) (fetch : List NetFetch) (hk : Kept false s₀ s) :
    KeptR false s₀ (execNetDb ring v fetch s) := by
  simp only [execNetDb, KeptR.next]
  repeat' first
    | with_reducible exact hk
    | simp only [Kept.of_record, KeptP.fold, KeptR.next]
    | with_reducible first | apply Kept.refl | apply Kept.ite | apply State.modNet_kept | apply State.netMore_kept
    | with_reducible first | apply KeptR.ite | apply KeptR.fault
    | intro _
    | split
    | (simp; done)

@[simp] theorem execNetLaunch_kept (hk : Kept fx s₀ s) : KeptR fx s₀ (execNetLaunch s) := by
  simp only [execNetLaunch, KeptR.next]
  repeat' first
    | with_reducible exact hk
    | simp only [Kept.of_record, KeptP.fold, KeptR.next]
    | with_reducible first | apply Kept.refl | apply Kept.ite | apply State.modNet_kept | apply KeptR.ite
    | with_reducible first | apply KeptR.fault
    | intro _
    | split
    | (simp; done)

@[simp] theorem execNetTxEgress_kept (queue : Fin 2) (fetch : List NetFetch) (hk : Kept false s₀ s) :
    KeptR false s₀ (execNetTxEgress queue fetch s) := by
  simp only [execNetTxEgress, KeptR.next]
  repeat' first
    | with_reducible exact hk
    | simp only [Kept.of_record, KeptP.fold, KeptR.next]
    | with_reducible first | apply Kept.refl | apply Kept.ite | apply State.bumpEvt_kept | apply State.modNet_kept
    | with_reducible first | apply State.netBack_kept | apply State.netMore_kept | apply State.emit_kept
    | with_reducible first | apply KeptR.ite | apply KeptR.fault
    | intro _
    | split
    | (simp; done)

@[simp] theorem execNetRxFrame_kept (frame : List Byte) (fcsOk : Bool) (desc : HostRead) (hk : Kept false s₀ s) :
    KeptR false s₀ (execNetRxFrame frame fcsOk desc s) := by
  simp only [execNetRxFrame, KeptR.next]
  repeat' first
    | with_reducible exact hk
    | simp only [Kept.of_record, KeptP.fold, KeptR.next]
    | with_reducible first | apply Kept.refl | apply Kept.ite | apply State.bumpStat_kept
    | with_reducible first | apply State.bumpEvt_kept | apply State.writeRef_kept | apply State.dmaError_kept
    | with_reducible first | apply State.bufError_kept | apply State.netBack_kept | apply KeptR.ite
    | with_reducible first | apply KeptR.fault
    | intro _
    | split
    | (simp; done)

@[simp] theorem State.netLink_kept (up : Bool) (f0 f1 : List NetFetch) (hk : Kept false s₀ s) :
    Kept false s₀ (State.netLink s up f0 f1) := by
  simp only [State.netLink]
  repeat' first
    | with_reducible exact hk
    | simp only [Kept.of_record, KeptP.fold]
    | with_reducible first | apply Kept.refl | apply Kept.ite | apply Kept.foldl | apply State.setB_kept
    | with_reducible first | apply State.pendIf_kept | apply State.finishF_kept | apply State.strLinkDown_kept
    | with_reducible first | apply State.modNet_kept | apply State.netBack_kept | apply State.netMore_kept
    | intro _
    | split
    | (simp; done)

@[simp] theorem execNetLinkChange_kept (up : Bool) (fetch0 : List NetFetch) (fetch1 : List NetFetch) (hk : Kept false s₀ s) :
    KeptR false s₀ (execNetLinkChange up fetch0 fetch1 s) := by
  simp [execNetLinkChange, hk]

@[simp] theorem execNetLinkControl_kept (p : Pkt) (hk : Kept false s₀ s) : KeptR false s₀ (execNetLinkControl p s) := by
  simp only [execNetLinkControl, KeptR.next]
  repeat' first
    | with_reducible exact hk
    | simp only [Kept.of_record, KeptP.fold, KeptB.pair, KeptR.next]
    | with_reducible first | apply Kept.refl | apply Kept.ite | apply KeptB.ite | apply Kept.fst | apply runOp_kept
    | with_reducible first | apply State.setB_kept | apply State.modNet_kept | apply State.netLink_kept
    | with_reducible first | apply KeptR.ite | apply KeptR.fault
    | with_reducible refine Kept.of_fst ‹_› ?_
    | intro _
    | split
    | (simp; done)

@[simp] theorem execNetConfigure_kept (p : Pkt) (hk : Kept fx s₀ s) : KeptR fx s₀ (execNetConfigure p s) := by
  simp only [execNetConfigure, KeptR.next]
  repeat' first
    | with_reducible exact hk
    | simp only [Kept.of_record, KeptP.fold, KeptB.pair, KeptR.next]
    | with_reducible first | apply Kept.refl | apply Kept.ite | apply Kept.foldl | apply KeptB.ite | apply Kept.fst
    | with_reducible first | apply runOp_kept | apply State.wn_kept | apply State.setB_kept
    | with_reducible first | apply State.commitSince_kept | apply State.modNet_kept | apply KeptR.ite
    | with_reducible first | apply KeptR.fault
    | with_reducible refine Kept.of_fst ‹_› ?_
    | intro _
    | split
    | (simp; done)

@[simp] theorem execNetSetPtp_kept (p : Pkt) (hk : Kept fx s₀ s) : KeptR fx s₀ (execNetSetPtp p s) := by
  simp only [execNetSetPtp, KeptR.next]
  repeat' first
    | with_reducible exact hk
    | simp only [Kept.of_record, KeptP.fold, KeptB.pair, KeptR.next]
    | with_reducible first | apply Kept.refl | apply Kept.ite | apply KeptB.ite | apply Kept.fst | apply runOp_kept
    | with_reducible first | apply State.modNet_kept | apply KeptR.ite | apply KeptR.fault
    | with_reducible refine Kept.of_fst ‹_› ?_
    | intro _
    | split
    | (simp; done)

end Sys2Proof.Machine
end

