-- ==== Sys2Proof/Laws/KeptVq.lean ====
section
/-!
SUPPORT. What the operations of Machine/Vq.lean keep.
-/
namespace Sys2Proof.Machine
open Sys2Proof

set_option linter.unusedSimpArgs false

variable {fx : Bool} {s₀ s : State}

@[simp] theorem State.modVq_kept (g : VqSt → VqSt) (hk : Kept fx s₀ s) : Kept fx s₀ (State.modVq s g) := by
  simp [State.modVq, hk]

@[simp] theorem State.modVp_kept (n : Nat) (g : VqPair → VqPair) (hk : Kept fx s₀ s) : Kept fx s₀ (State.modVp s n g) := by
  simp [State.modVp, hk]

@[simp] theorem State.modVc_kept (n seq : Nat) (g : VqCmd → VqCmd) (hk : Kept fx s₀ s) :
    Kept fx s₀ (State.modVc s n seq g) := by
  simp [State.modVc, hk]

@[simp] theorem State.vqCountWait_kept (n : Nat) (c : VqCmd) (hk : Kept fx s₀ s) : Kept fx s₀ (State.vqCountWait s n c) := by
  simp only [State.vqCountWait]
  repeat' first
    | with_reducible exact hk
    | simp only [Kept.of_record, KeptP.fold]
    | with_reducible first | apply Kept.refl | apply Kept.ite | apply State.bumpEvt_kept | apply State.modVc_kept
    | intro _
    | split
    | (simp; done)

@[simp] theorem State.vqFinish_kept (n seq status count info : Nat) (hk : Kept fx s₀ s) :
    Kept fx s₀ (State.vqFinish s n seq status count info) := by
  simp only [State.vqFinish]
  repeat' first
    | with_reducible exact hk
    | simp only [Kept.of_record, KeptP.fold]
    | with_reducible first | apply Kept.refl | apply Kept.ite | apply State.bumpEvt_kept | apply State.modVp_kept
    | with_reducible first | apply State.modVc_kept
    | intro _
    | split
    | (simp; done)

@[simp] theorem State.cplWrite_kept (n : Nat) (c : VqCmd) (hk : Kept fx s₀ s) : Kept fx s₀ (State.cplWrite s n c) := by
  simp only [State.cplWrite]
  repeat' first
    | with_reducible exact hk
    | simp only [Kept.of_record, KeptP.fold]
    | with_reducible first | apply Kept.refl | apply Kept.ite | apply State.setF_kept | apply State.pendIf_kept
    | with_reducible first | apply State.writeBar2_kept | apply State.writeHost_kept
    | intro _
    | split
    | (simp; done)

@[simp] theorem State.vqPostOne_kept (n : Nat) (hk : Kept fx s₀ s) : Kept fx s₀ (State.vqPostOne s n) := by
  simp only [State.vqPostOne]
  repeat' first
    | with_reducible exact hk
    | simp only [Kept.of_record, KeptP.fold]
    | with_reducible first | apply Kept.refl | apply Kept.ite | apply State.modVp_kept | apply State.cplWrite_kept
    | intro _
    | split
    | (simp; done)

@[simp] theorem State.vqOnce_kept (hk : Kept fx s₀ s) : KeptO fx s₀ (State.vqOnce s) := by
  simp only [State.vqOnce]
  repeat' first
    | with_reducible exact hk
    | simp only [Kept.of_record, KeptP.fold, KeptO.some]
    | with_reducible first | apply Kept.refl | apply Kept.ite | apply State.vqFinish_kept
    | with_reducible first | apply State.vqPostOne_kept | apply KeptO.ite | exact KeptO.none
    | intro _
    | split
    | (simp; done)

@[simp] theorem State.vqLoop_kept (k : Nat) (hk : Kept fx s₀ s) : Kept fx s₀ (State.vqLoop k s) := by
  induction k generalizing s with
  | zero => exact hk
  | succ k ih =>
    unfold State.vqLoop
    split
    · rename_i t e
      exact ih ((State.vqOnce_kept hk).some_kept _ e)
    · exact hk

@[simp] theorem State.vqSettle_kept (hk : Kept fx s₀ s) : Kept fx s₀ (State.vqSettle s) := by
  simp [State.vqSettle, hk]

@[simp] theorem State.vqAdmit_kept (hk : Kept fx s₀ s) : Kept fx s₀ (State.vqAdmit s) := by
  simp only [State.vqAdmit]
  repeat' first
    | with_reducible exact hk
    | simp only [Kept.of_record, KeptP.fold]
    | with_reducible first | apply Kept.refl | apply Kept.ite | apply Kept.foldl | apply State.arrive_kept
    | with_reducible first | apply State.modVc_kept | apply State.vqCountWait_kept
    | intro _
    | split
    | (simp; done)

@[simp] theorem State.frameStart_kept (n : Nat) (c : VqCmd) (hk : Kept fx s₀ s) : Kept fx s₀ (State.frameStart s n c) := by
  simp only [State.frameStart]
  repeat' first
    | with_reducible exact hk
    | simp only [Kept.of_record, KeptP.fold]
    | with_reducible first | apply Kept.refl | apply Kept.ite | apply State.modVc_kept | apply State.vqFinish_kept
    | intro _
    | split
    | (simp; done)

@[simp] theorem State.vqMove_kept (c : VqCmd) (k : Nat) (data : HostRead) (hk : Kept false s₀ s) :
    Kept false s₀ (State.vqMove s c k data) := by
  simp only [State.vqMove]
  repeat' first
    | with_reducible exact hk
    | simp only [Kept.of_record, KeptP.fold]
    | with_reducible first | apply Kept.refl | apply Kept.ite | apply State.dmaWrite_kept
    | with_reducible first | apply State.writeMem_kept
    | intro _
    | split
    | (simp; done)

@[simp] theorem State.vqEnd_kept (n : Nat) (c : VqCmd) (status moved : Nat) (data : HostRead) (hk : Kept false s₀ s) :
    Kept false s₀ (State.vqEnd s n c status moved data) := by
  simp only [State.vqEnd]
  repeat' first
    | with_reducible exact hk
    | simp only [Kept.of_record, KeptP.fold]
    | with_reducible first | apply Kept.refl | apply Kept.ite | apply State.leaveB_kept | apply State.vqFinish_kept
    | with_reducible first | apply State.vqMove_kept
    | intro _
    | split
    | (simp; done)

@[simp] theorem State.vqHeadOne_kept (n : Nat) (hk : Kept fx s₀ s) : Kept fx s₀ (State.vqHeadOne s n) := by
  simp [State.vqHeadOne, hk]

@[simp] theorem State.vqSkip_kept (n k : Nat) (hk : Kept fx s₀ s) : Kept fx s₀ (State.vqSkip n k s) := by
  induction k generalizing s with
  | zero => exact hk
  | succ k ih =>
    unfold State.vqSkip
    exact Kept.ite (ih (by simp [hk])) hk

@[simp] theorem State.vqSkipAll_kept (n : Nat) (hk : Kept fx s₀ s) : Kept fx s₀ (State.vqSkipAll s n) := by
  simp [State.vqSkipAll, hk]

@[simp] theorem State.vqHeadNext_kept (n : Nat) (hk : Kept fx s₀ s) : Kept fx s₀ (State.vqHeadNext s n) := by
  simp (maxDischargeDepth := 99) [State.vqHeadNext, hk]

@[simp] theorem State.vqEndSlot_kept (n i tag status : Nat) (hk : Kept fx s₀ s) :
    Kept fx s₀ (State.vqEndSlot s n i tag status) := by
  simp only [State.vqEndSlot]
  repeat' first
    | with_reducible exact hk
    | simp only [Kept.of_record, KeptP.fold]
    | with_reducible first | apply Kept.refl | apply Kept.ite | apply State.modVq_kept | apply State.modVp_kept
    | with_reducible first | apply State.vqFinish_kept
    | intro _
    | split
    | (simp; done)

@[simp] theorem State.abortStart_kept (n : Nat) (c : VqCmd) (a : AbortAt) (hk : Kept false s₀ s) :
    Kept false s₀ (State.abortStart s n c a) := by
  simp only [State.abortStart]
  repeat' first
    | with_reducible exact hk
    | simp only [Kept.of_record, KeptP.fold]
    | with_reducible first | apply Kept.refl | apply Kept.ite | apply State.bumpEvt_kept | apply State.modVc_kept
    | with_reducible first | apply State.vqEnd_kept | apply State.vqSkipAll_kept | apply State.vqEndSlot_kept
    | intro _
    | split
    | (simp; done)

@[simp] theorem State.vqBegin_kept (n : Nat) (c : VqCmd) (a : AbortAt) (hk : Kept false s₀ s) :
    Kept false s₀ (State.vqBegin s n c a) := by
  simp only [State.vqBegin]
  repeat' first
    | with_reducible exact hk
    | simp only [Kept.of_record, KeptP.fold]
    | with_reducible first | apply Kept.refl | apply Kept.ite | apply State.vaultUse_kept | apply State.leaveB_kept
    | with_reducible first | apply State.modVc_kept | apply State.vqFinish_kept | apply State.frameStart_kept
    | with_reducible first | apply State.abortStart_kept
    | intro _
    | split
    | (simp; done)

@[simp] theorem State.vqTry_kept (n : Nat) (c : VqCmd) (a : AbortAt) (hk : Kept false s₀ s) :
    Kept false s₀ (State.vqTry s n c a) := by
  simp only [State.vqTry]
  repeat' first
    | with_reducible exact hk
    | simp only [Kept.of_record, KeptP.fold]
    | with_reducible first | apply Kept.refl | apply Kept.ite | apply State.vqBegin_kept
    | with_reducible first | apply State.vqCountWait_kept
    | intro _
    | split
    | (simp; done)

@[simp] theorem execVqCmdStart_kept (pair : Fin 16) (target : AbortAt) (hk : Kept false s₀ s) :
    KeptR false s₀ (execVqCmdStart pair target s) := by
  simp only [execVqCmdStart, KeptR.next]
  repeat' first
    | with_reducible exact hk
    | simp only [Kept.of_record, KeptP.fold, KeptR.next]
    | with_reducible first | apply Kept.refl | apply Kept.ite | apply State.vqAdmit_kept
    | with_reducible first | apply State.vqSettle_kept | apply State.vqTry_kept | apply KeptR.ite
    | with_reducible first | apply KeptR.fault
    | intro _
    | split
    | (simp; done)

@[simp] theorem State.vqFetch_kept (n opc : Nat) (slot : VqSlot) (a : AbortAt) (hk : Kept false s₀ s) :
    Kept false s₀ (State.vqFetch s n opc slot a) := by
  simp only [State.vqFetch]
  repeat' first
    | with_reducible exact hk
    | simp only [Kept.of_record, KeptP.fold]
    | with_reducible first | apply Kept.refl | apply Kept.ite | apply State.raise_kept | apply State.dmaError_kept
    | with_reducible first | apply State.modVq_kept | apply State.modVp_kept | apply State.vqFinish_kept
    | with_reducible first | apply State.vqAdmit_kept | apply State.vqHeadNext_kept | apply State.vqSettle_kept
    | with_reducible first | apply State.vqTry_kept
    | intro _
    | split
    | (simp; done)

@[simp] theorem execVqNop_kept (pair : Fin 16) (slot : VqSlot) (hk : Kept false s₀ s) :
    KeptR false s₀ (execVqNop pair slot s) := by
  simp [execVqNop, hk]

@[simp] theorem execVqRead_kept (pair : Fin 16) (slot : VqSlot) (hk : Kept false s₀ s) :
    KeptR false s₀ (execVqRead pair slot s) := by
  simp [execVqRead, hk]

@[simp] theorem execVqWrite_kept (pair : Fin 16) (slot : VqSlot) (hk : Kept false s₀ s) :
    KeptR false s₀ (execVqWrite pair slot s) := by
  simp [execVqWrite, hk]

@[simp] theorem execVqCopy_kept (pair : Fin 16) (slot : VqSlot) (hk : Kept false s₀ s) :
    KeptR false s₀ (execVqCopy pair slot s) := by
  simp [execVqCopy, hk]

@[simp] theorem execVqReadFrame_kept (pair : Fin 16) (slot : VqSlot) (hk : Kept false s₀ s) :
    KeptR false s₀ (execVqReadFrame pair slot s) := by
  simp [execVqReadFrame, hk]

@[simp] theorem execVqFlush_kept (pair : Fin 16) (slot : VqSlot) (hk : Kept false s₀ s) :
    KeptR false s₀ (execVqFlush pair slot s) := by
  simp [execVqFlush, hk]

@[simp] theorem execVqAbort_kept (pair : Fin 16) (slot : VqSlot) (target : AbortAt) (hk : Kept false s₀ s) :
    KeptR false s₀ (execVqAbort pair slot target s) := by
  simp [execVqAbort, hk]

@[simp] theorem execVqTransferDone_kept (pair : Fin 16) (tag : BitVec 13) (data : HostRead) (moved : Nat) (hk : Kept false s₀ s) :
    KeptR false s₀ (execVqTransferDone pair tag data moved s) := by
  simp only [execVqTransferDone, KeptR.next]
  repeat' first
    | with_reducible exact hk
    | simp only [Kept.of_record, KeptP.fold, KeptR.next]
    | with_reducible first | apply Kept.refl | apply Kept.ite | apply State.log_kept | apply State.dmaError_kept
    | with_reducible first | apply State.vqFinish_kept | apply State.vqAdmit_kept | apply State.vqSettle_kept
    | with_reducible first | apply State.vqMove_kept | apply KeptR.ite | apply KeptR.fault
    | intro _
    | split
    | (simp; done)

@[simp] theorem execVqTmoExpiry_kept (pair : Fin 16) (tag : BitVec 13) (moved : Nat) (data : HostRead) (hk : Kept false s₀ s) :
    KeptR false s₀ (execVqTmoExpiry pair tag moved data s) := by
  simp only [execVqTmoExpiry, KeptR.next]
  repeat' first
    | with_reducible exact hk
    | simp only [Kept.of_record, KeptP.fold, KeptR.next]
    | with_reducible first | apply Kept.refl | apply Kept.ite | apply State.vqAdmit_kept
    | with_reducible first | apply State.vqSettle_kept | apply State.vqEnd_kept | apply KeptR.ite
    | with_reducible first | apply KeptR.fault
    | intro _
    | split
    | (simp; done)

@[simp] theorem execVqDeferExpiry_kept (pair : Fin 16) (tag : BitVec 13) (hk : Kept fx s₀ s) :
    KeptR fx s₀ (execVqDeferExpiry pair tag s) := by
  simp only [execVqDeferExpiry, KeptR.next]
  repeat' first
    | with_reducible exact hk
    | simp only [Kept.of_record, KeptP.fold, KeptR.next]
    | with_reducible first | apply Kept.refl | apply Kept.ite | apply State.deferB_kept | apply State.vqFinish_kept
    | with_reducible first | apply State.vqAdmit_kept | apply State.vqSettle_kept | apply KeptR.ite
    | with_reducible first | apply KeptR.fault
    | intro _
    | split
    | (simp; done)

@[simp] theorem execVqCqStall_kept (pair : Fin 16) (hk : Kept fx s₀ s) : KeptR fx s₀ (execVqCqStall pair s) := by
  simp only [execVqCqStall, KeptR.next]
  repeat' first
    | with_reducible exact hk
    | simp only [Kept.of_record, KeptP.fold, KeptR.next]
    | with_reducible first | apply Kept.refl | apply Kept.ite | apply State.raise_kept | apply State.log_kept
    | with_reducible first | apply KeptR.ite | apply KeptR.fault
    | intro _
    | split
    | (simp; done)

@[simp] theorem State.vqLost_kept (n lost : Nat) (hk : Kept fx s₀ s) : Kept fx s₀ (State.vqLost s n lost) := by
  simp only [State.vqLost]
  repeat' first
    | with_reducible exact hk
    | simp only [Kept.of_record, KeptP.fold]
    | with_reducible first | apply Kept.refl | apply Kept.ite | apply State.bumpStat_kept | apply State.log_kept
    | intro _
    | split
    | (simp; done)

@[simp] theorem State.vqResetEnd_kept (n lost : Nat) (hk : Kept fx s₀ s) : Kept fx s₀ (State.vqResetEnd s n lost) := by
  simp only [State.vqResetEnd]
  repeat' first
    | with_reducible exact hk
    | simp only [Kept.of_record, KeptP.fold]
    | with_reducible first | apply Kept.refl | apply Kept.ite | apply State.setF_kept | apply State.finishF_kept
    | with_reducible first | apply State.modVp_kept | apply State.vqLost_kept
    | intro _
    | split
    | (simp; done)

@[simp] theorem State.vqCut_kept (n : Nat) (c : VqCmd) (hk : Kept false s₀ s) : Kept false s₀ (State.vqCut s n c) := by
  simp only [State.vqCut]
  repeat' first
    | with_reducible exact hk
    | simp only [Kept.of_record, KeptP.fold, KeptS.pair]
    | with_reducible first | apply Kept.refl | apply Kept.ite | apply KeptS.ite | apply Kept.snd
    | with_reducible first | apply State.vqEnd_kept | apply State.draw_kept | apply State.drawnTo_kept
    | with_reducible refine Kept.of_snd ‹_› ?_
    | intro _
    | split
    | (simp; done)

@[simp] theorem State.slotTag_kept (n i : Nat) (slots : Option (List Byte)) (hk : Kept fx s₀ s) :
    KeptS fx s₀ (State.slotTag s n i slots) := by
  simp only [State.slotTag]
  repeat' first
    | with_reducible exact hk
    | simp only [Kept.of_record, KeptP.fold, KeptS.pair]
    | with_reducible first | apply Kept.refl | apply Kept.ite | apply KeptS.ite | apply Kept.snd
    | with_reducible first | apply State.draw_kept
    | with_reducible refine Kept.of_snd ‹_› ?_
    | intro _
    | split
    | (simp; done)

@[simp] theorem State.vqEndAll_kept (n : Nat) (slots : Option (List Byte)) (hk : Kept false s₀ s) :
    Kept false s₀ (State.vqEndAll s n slots) := by
  simp only [State.vqEndAll]
  repeat' first
    | with_reducible exact hk
    | simp only [Kept.of_record, KeptP.fold, KeptS.pair]
    | with_reducible first | apply Kept.refl | apply Kept.ite | apply Kept.foldl | apply KeptS.ite | apply Kept.snd
    | with_reducible first | apply State.vqSkipAll_kept | apply State.vqEndSlot_kept | apply State.vqCut_kept
    | with_reducible first | apply State.slotTag_kept
    | with_reducible refine Kept.of_snd ‹_› ?_
    | intro _
    | split
    | (simp; done)

@[simp] theorem State.vqResetDone_kept (n : Nat) (hk : Kept fx s₀ s) : Kept fx s₀ (State.vqResetDone s n) := by
  simp [State.vqResetDone, hk]

@[simp] theorem execVqResetQueue_kept (p : Pkt) (hk : Kept false s₀ s) : KeptR false s₀ (execVqResetQueue p s) := by
  simp only [execVqResetQueue, KeptR.next]
  repeat' first
    | with_reducible exact hk
    | simp only [Kept.of_record, KeptP.fold, KeptB.pair, KeptR.next]
    | with_reducible first | apply Kept.refl | apply Kept.ite | apply KeptB.ite | apply Kept.fst | apply runOp_kept
    | with_reducible first | apply State.dmaError_kept | apply State.modVp_kept | apply State.vqAdmit_kept
    | with_reducible first | apply State.vqResetDone_kept | apply State.vqSettle_kept | apply State.vqEndAll_kept
    | with_reducible first | apply KeptR.ite | apply KeptR.fault
    | with_reducible refine Kept.of_fst ‹_› ?_
    | intro _
    | split
    | (simp; done)

@[simp] theorem State.vqRoom_kept (n : Nat) (hk : Kept fx s₀ s) : Kept fx s₀ (State.vqRoom s n) := by
  simp only [State.vqRoom]
  repeat' first
    | with_reducible exact hk
    | simp only [Kept.of_record, KeptP.fold]
    | with_reducible first | apply Kept.refl | apply Kept.ite | apply State.vqAdmit_kept
    | with_reducible first | apply State.vqResetDone_kept | apply State.vqSettle_kept
    | intro _
    | split
    | (simp; done)

@[simp] theorem execVqCplPost_kept (pair : Fin 16) (hk : Kept fx s₀ s) : KeptR fx s₀ (execVqCplPost pair s) := by
  simp [execVqCplPost, hk]

@[simp] theorem execVqCqHead_kept (pair : Fin 16) (v : W32) (hk : Kept fx s₀ s) : KeptR fx s₀ (execVqCqHead pair v s) := by
  simp only [execVqCqHead, KeptR.next]
  repeat' first
    | with_reducible exact hk
    | simp only [Kept.of_record, KeptP.fold, KeptR.next]
    | with_reducible first | apply Kept.refl | apply Kept.ite | apply State.setF_kept | apply State.raise_kept
    | with_reducible first | apply State.vqRoom_kept | apply KeptR.ite | apply KeptR.fault
    | intro _
    | split
    | (simp; done)

@[simp] theorem execVqSqDb_kept (pair : Fin 16) (v : W32) (hk : Kept fx s₀ s) : KeptR fx s₀ (execVqSqDb pair v s) := by
  simp only [execVqSqDb, KeptR.next]
  repeat' first
    | with_reducible exact hk
    | simp only [Kept.of_record, KeptP.fold, KeptR.next]
    | with_reducible first | apply Kept.refl | apply Kept.ite | apply State.raise_kept | apply State.modVq_kept
    | with_reducible first | apply State.modVp_kept | apply KeptR.ite | apply KeptR.fault
    | intro _
    | split
    | (simp; done)

@[simp] theorem execVqCreateQueue_kept (p : Pkt) (hk : Kept fx s₀ s) : KeptR fx s₀ (execVqCreateQueue p s) := by
  simp only [execVqCreateQueue, KeptR.next]
  repeat' first
    | with_reducible exact hk
    | simp only [Kept.of_record, KeptP.fold, KeptB.pair, KeptR.next]
    | with_reducible first | apply Kept.refl | apply Kept.ite | apply KeptB.ite | apply Kept.fst | apply runOp_kept
    | with_reducible first | apply State.wn_kept | apply State.setBit_kept | apply State.modVp_kept
    | with_reducible first | apply KeptR.ite | apply KeptR.fault
    | with_reducible refine Kept.of_fst ‹_› ?_
    | intro _
    | split
    | (simp; done)

@[simp] theorem State.vqFree_kept (n : Nat) (hk : Kept fx s₀ s) : Kept fx s₀ (State.vqFree s n) := by
  simp only [State.vqFree]
  repeat' first
    | with_reducible exact hk
    | simp only [Kept.of_record, KeptP.fold]
    | with_reducible first | apply Kept.refl | apply Kept.ite | apply Kept.foldl | apply State.wn_kept
    | with_reducible first | apply State.setBit_kept | apply State.modVp_kept
    | intro _
    | split
    | (simp; done)

@[simp] theorem execVqDeleteQueue_kept (p : Pkt) (hk : Kept fx s₀ s) : KeptR fx s₀ (execVqDeleteQueue p s) := by
  simp only [execVqDeleteQueue, KeptR.next]
  repeat' first
    | with_reducible exact hk
    | simp only [Kept.of_record, KeptP.fold, KeptB.pair, KeptR.next]
    | with_reducible first | apply Kept.refl | apply Kept.ite | apply KeptB.ite | apply Kept.fst | apply runOp_kept
    | with_reducible first | apply State.vqFree_kept | apply KeptR.ite | apply KeptR.fault
    | with_reducible refine Kept.of_fst ‹_› ?_
    | intro _
    | split
    | (simp; done)

@[simp] theorem State.vqFlr_kept (hk : Kept false s₀ s) : Kept false s₀ (State.vqFlr s) := by
  simp only [State.vqFlr]
  repeat' first
    | with_reducible exact hk
    | simp only [Kept.of_record, KeptP.fold]
    | with_reducible first | apply Kept.refl | apply Kept.ite | apply Kept.foldl | apply State.modVq_kept
    | with_reducible first | apply State.vqFree_kept | apply State.vqSettle_kept | apply State.vqEndAll_kept
    | with_reducible first | apply State.vqLost_kept | apply State.wr_kept
    | intro _
    | split
    | (simp; done)

@[simp] theorem State.vqSafeEntry_kept (hk : Kept false s₀ s) : Kept false s₀ (State.vqSafeEntry s) := by
  simp only [State.vqSafeEntry]
  repeat' first
    | with_reducible exact hk
    | simp only [Kept.of_record, KeptP.fold]
    | with_reducible first | apply Kept.refl | apply Kept.ite | apply Kept.foldl | apply State.vqSettle_kept
    | with_reducible first | apply State.vqEndAll_kept
    | intro _
    | split
    | (simp; done)

@[simp] theorem State.vqBarrier_kept (hk : Kept fx s₀ s) : Kept fx s₀ (State.vqBarrier s) := by
  simp only [State.vqBarrier]
  repeat' first
    | with_reducible exact hk
    | simp only [Kept.of_record, KeptP.fold]
    | with_reducible first | apply Kept.refl | apply Kept.ite | apply Kept.foldl | apply State.leaveB_kept
    | with_reducible first | apply State.modVq_kept | apply State.modVc_kept
    | intro _
    | split
    | (simp; done)

@[simp] theorem State.vqLift_kept (hk : Kept fx s₀ s) : Kept fx s₀ (State.vqLift s) := by
  simp [State.vqLift, hk]

@[simp] theorem execVltSetVpstate_kept (p : Pkt) (hk : Kept fx s₀ s) : KeptR fx s₀ (execVltSetVpstate p s) := by
  simp only [execVltSetVpstate, KeptR.next]
  repeat' first
    | with_reducible exact hk
    | simp only [Kept.of_record, KeptP.fold, KeptB.pair, KeptR.next]
    | with_reducible first | apply Kept.refl | apply Kept.ite | apply Kept.foldl | apply KeptB.ite | apply Kept.fst
    | with_reducible first | apply runOp_kept | apply State.setF_kept | apply State.reclaim_kept | apply KeptR.ite
    | with_reducible first | apply KeptR.fault
    | with_reducible refine Kept.of_fst ‹_› ?_
    | intro _
    | split
    | (simp; done)

end Sys2Proof.Machine
end

