-- ==== Sys2Proof/Laws/KeptDfl.lean ====
section
/-!
SUPPORT. What the operations of Machine/Dfl.lean keep.
-/
namespace Sys2Proof.Machine
open Sys2Proof

set_option linter.unusedSimpArgs false

variable {fx : Bool} {s₀ s : State}

@[simp] theorem State.modDfl_kept (g : DflSt → DflSt) (hk : Kept fx s₀ s) : Kept fx s₀ (State.modDfl s g) := by
  simp [State.modDfl, hk]

@[simp] theorem State.writeChain_kept (space : Nat) (l : List (Nat × Nat)) (bs : List Byte) (hk : Kept false s₀ s) :
    Kept false s₀ (State.writeChain s space l bs) := by
  induction l generalizing s bs with
  | nil => exact hk
  | cons e t ih =>
    unfold State.writeChain
    exact Kept.ite hk (ih _ (by simp [hk]))

@[simp] theorem State.dflRecord_kept (j : DflJob) (res : DflRes) (resumable : Bool) (used : Nat) (hk : Kept false s₀ s) :
    Kept false s₀ (State.dflRecord s j res resumable used) := by
  simp only [State.dflRecord]
  repeat' first
    | with_reducible exact hk
    | simp only [Kept.of_record, KeptP.fold]
    | with_reducible first | apply Kept.refl | apply Kept.ite | apply State.pendIf_kept | apply State.bumpStat_kept
    | with_reducible first | apply State.bumpEvt_kept | apply State.writeRef_kept | apply State.refUse_kept
    | intro _
    | split
    | (simp; done)

@[simp] theorem State.dflFault_kept (r : DflRun) (hk : Kept fx s₀ s) : Kept fx s₀ (State.dflFault s r) := by
  simp only [State.dflFault]
  repeat' first
    | with_reducible exact hk
    | simp only [Kept.of_record, KeptP.fold]
    | with_reducible first | apply Kept.refl | apply Kept.ite | apply State.dmaError_kept
    | with_reducible first | apply State.bufError_kept
    | intro _
    | split
    | (simp; done)

@[simp] theorem State.dflFinish_kept (e : Nat) (r : DflRun) (hk : Kept false s₀ s) :
    Kept false s₀ (State.dflFinish s e r) := by
  simp only [State.dflFinish]
  repeat' first
    | with_reducible exact hk
    | simp only [Kept.of_record, KeptP.fold]
    | with_reducible first | apply Kept.refl | apply Kept.ite | apply Kept.foldl | apply State.wn_kept
    | with_reducible first | apply State.writeRef_kept | apply State.modDfl_kept | apply State.writeChain_kept
    | with_reducible first | apply State.dflRecord_kept | apply State.refUse_kept | apply State.dflFault_kept
    | intro _
    | split
    | (simp; done)

@[simp] theorem execDflJobEnd_kept (engine : Fin 2) (hk : Kept false s₀ s) : KeptR false s₀ (execDflJobEnd engine s) := by
  simp only [execDflJobEnd, KeptR.next]
  repeat' first
    | with_reducible exact hk
    | simp only [Kept.of_record, KeptP.fold, KeptR.next]
    | with_reducible first | apply Kept.refl | apply Kept.ite | apply State.dflFinish_kept | apply KeptR.ite
    | with_reducible first | apply KeptR.fault
    | intro _
    | split
    | (simp; done)

@[simp] theorem execDflJobStart_kept (src : HostRead) (list : HostRead) (st : HostRead) (hk : Kept fx s₀ s) :
    KeptR fx s₀ (execDflJobStart src list st s) := by
  simp only [execDflJobStart, KeptR.next]
  repeat' first
    | with_reducible exact hk
    | simp only [Kept.of_record, KeptP.fold, KeptR.next]
    | with_reducible first | apply Kept.refl | apply Kept.ite | apply State.wn_kept | apply State.leaveB_kept
    | with_reducible first | apply State.modDfl_kept | apply KeptR.ite | apply KeptR.fault
    | intro _
    | split
    | (simp; done)

@[simp] theorem execDflDeferExpiry_kept (tag : BitVec 16) (hk : Kept false s₀ s) :
    KeptR false s₀ (execDflDeferExpiry tag s) := by
  simp only [execDflDeferExpiry, KeptR.next]
  repeat' first
    | with_reducible exact hk
    | simp only [Kept.of_record, KeptP.fold, KeptR.next]
    | with_reducible first | apply Kept.refl | apply Kept.ite | apply State.deferB_kept | apply State.modDfl_kept
    | with_reducible first | apply State.dflRecord_kept | apply KeptR.ite | apply KeptR.fault
    | intro _
    | split
    | (simp; done)

@[simp] theorem State.dflQueue_kept (p : Pkt) (resume : Bool) (hk : Kept fx s₀ s) :
    KeptB fx s₀ (State.dflQueue s p resume) := by
  simp only [State.dflQueue]
  repeat' first
    | with_reducible exact hk
    | simp only [Kept.of_record, KeptP.fold, KeptB.pair]
    | with_reducible first | apply Kept.refl | apply Kept.ite | apply KeptB.ite | apply Kept.fst
    | with_reducible first | apply State.arrive_kept | apply State.modDfl_kept
    | intro _
    | split
    | (simp; done)

@[simp] theorem execDflSubmit_kept (p : Pkt) (hk : Kept fx s₀ s) : KeptR fx s₀ (execDflSubmit p s) := by
  simp only [execDflSubmit, KeptR.next]
  repeat' first
    | with_reducible exact hk
    | simp only [Kept.of_record, KeptP.fold, KeptB.pair, KeptR.next]
    | with_reducible first | apply Kept.refl | apply Kept.ite | apply KeptB.ite | apply Kept.fst | apply runOp_kept
    | with_reducible first | apply State.dflQueue_kept | apply KeptR.ite | apply KeptR.fault
    | with_reducible refine Kept.of_fst ‹_› ?_
    | intro _
    | split
    | (simp; done)

@[simp] theorem execDflResume_kept (p : Pkt) (hk : Kept fx s₀ s) : KeptR fx s₀ (execDflResume p s) := by
  simp [execDflResume, hk]

@[simp] theorem execDflAbort_kept (p : Pkt) (hk : Kept false s₀ s) : KeptR false s₀ (execDflAbort p s) := by
  simp only [execDflAbort, KeptR.next]
  repeat' first
    | with_reducible exact hk
    | simp only [Kept.of_record, KeptP.fold, KeptB.pair, KeptS.pair, KeptR.next]
    | with_reducible first | apply Kept.refl | apply Kept.ite | apply KeptB.ite | apply Kept.fst | apply KeptS.ite
    | with_reducible first | apply Kept.snd | apply runOp_kept | apply State.leaveB_kept | apply State.modDfl_kept
    | with_reducible first | apply State.writeChain_kept | apply State.dflRecord_kept | apply State.draw_kept
    | with_reducible first | apply KeptR.ite | apply KeptR.fault
    | with_reducible refine Kept.of_fst ‹_› ?_
    | with_reducible refine Kept.of_snd ‹_› ?_
    | intro _
    | split
    | (simp; done)

@[simp] theorem execDflStatus_kept (p : Pkt) (hk : Kept fx s₀ s) : KeptR fx s₀ (execDflStatus p s) := by
  simp only [execDflStatus, KeptR.next]
  repeat' first
    | with_reducible exact hk
    | simp only [Kept.of_record, KeptP.fold, KeptB.pair, KeptS.pair, KeptR.next]
    | with_reducible first | apply Kept.refl | apply Kept.ite | apply KeptB.ite | apply Kept.fst | apply KeptS.ite
    | with_reducible first | apply Kept.snd | apply runOp_kept | apply State.draw_kept | apply KeptR.ite
    | with_reducible first | apply KeptR.fault
    | with_reducible refine Kept.of_fst ‹_› ?_
    | with_reducible refine Kept.of_snd ‹_› ?_
    | intro _
    | split
    | (simp; done)

@[simp] theorem State.dflLost_kept (hk : Kept fx s₀ s) : Kept fx s₀ (State.dflLost s) := by
  simp only [State.dflLost]
  repeat' first
    | with_reducible exact hk
    | simp only [Kept.of_record, KeptP.fold]
    | with_reducible first | apply Kept.refl | apply Kept.ite | apply Kept.foldl | apply State.log_kept
    | with_reducible first | apply State.leaveB_kept | apply State.modDfl_kept
    | intro _
    | split
    | (simp; done)

@[simp] theorem State.dflSafe_kept (hk : Kept false s₀ s) : Kept false s₀ (State.dflSafe s) := by
  simp only [State.dflSafe]
  repeat' first
    | with_reducible exact hk
    | simp only [Kept.of_record, KeptP.fold]
    | with_reducible first | apply Kept.refl | apply Kept.ite | apply Kept.foldl | apply State.leaveB_kept
    | with_reducible first | apply State.modDfl_kept | apply State.dflRecord_kept
    | intro _
    | split
    | (simp; done)

end Sys2Proof.Machine
end

