-- ==== Sys2Proof/Laws/KeptReset.lean ====
section
/-!
SUPPORT. What the operations of Machine/Reset.lean keep.
-/
namespace Sys2Proof.Machine
open Sys2Proof

set_option linter.unusedSimpArgs false

variable {fx : Bool} {s₀ s : State}

@[simp] theorem State.emptyVault_kept (hk : Kept fx s₀ s) : Kept fx s₀ (State.emptyVault s) := by
  simp [State.emptyVault, hk]

@[simp] theorem State.firstValues_kept (hk : Kept fx s₀ s) : Kept fx s₀ (State.firstValues s) := by
  simp (maxDischargeDepth := 99) [State.firstValues, hk]

@[simp] theorem State.clearVault_kept (hk : Kept fx s₀ s) : Kept fx s₀ (State.clearVault s) := by
  simp (maxDischargeDepth := 99) [State.clearVault, hk]

@[simp] theorem State.pinsOff_kept (hk : Kept fx s₀ s) : Kept fx s₀ (State.pinsOff s) := by
  simp only [State.pinsOff]
  repeat' first
    | with_reducible exact hk
    | simp only [Kept.of_record, KeptP.fold]
    | with_reducible first | apply Kept.refl | apply Kept.ite | apply Kept.foldl | apply State.driveTrg_kept
    | with_reducible first | apply State.emit_kept
    | intro _
    | split
    | (simp; done)

@[simp] theorem State.warmBase_kept (clear : Bool) (type : Nat) (hk : Kept fx s₀ s) :
    Kept fx s₀ (State.warmBase s clear type) := by
  refine hk.trans ?_
  exact ⟨⟨rfl, rfl, fun w => storeWf_filter _ w, id, fun _ => rfl, id, fun _ => rfl, List.prefix_refl _, Nat.le_refl _⟩⟩

@[simp] theorem State.warmFrom_kept (clear : Bool) (type : Nat) (hk : Kept fx s₀ s) :
    Kept fx s₀ (State.warmFrom s clear type) := by
  simp (maxDischargeDepth := 99) [State.warmFrom, hk]

@[simp] theorem State.warmReset_kept (clear : Bool) (type : Nat) (hk : Kept fx s₀ s) :
    Kept fx s₀ (State.warmReset s clear type) := by
  simp (maxDischargeDepth := 99) [State.warmReset, hk]

@[simp] theorem State.coldReset_kept (type : Nat) (hk : Kept false s₀ s) : Kept false s₀ (State.coldReset s type) := by
  unfold State.coldReset
  dsimp only
  have hp : Kept false s₀ s.pinsOff := by simp [hk]
  generalize s.pinsOff = u at hp ⊢
  refine State.emptyVault_kept (hp.trans ?_)
  exact ⟨⟨rfl, rfl, fun _ => rfl, fun _ => rfl, fun _ => rfl, id, fun h => (nomatch h), List.prefix_refl _, Nat.le_refl _⟩⟩

@[simp] theorem State.axOff_kept (n : Nat) (hk : Kept fx s₀ s) : Kept fx s₀ (State.axOff s n) := by
  simp (maxDischargeDepth := 99) [State.axOff, hk]

@[simp] theorem State.enterSleep_kept (ps : Nat) (wakeRec : Bool) (cause : Nat) (hk : Kept false s₀ s) :
    Kept false s₀ (State.enterSleep s ps wakeRec cause) := by
  simp only [State.enterSleep]
  repeat' first
    | with_reducible exact hk
    | simp only [Kept.of_record, KeptP.fold]
    | with_reducible first | apply Kept.refl | apply Kept.ite | apply Kept.foldl | apply State.warmReset_kept
    | with_reducible first | apply State.coldReset_kept | apply State.axOff_kept | apply State.modPwr_kept
    | intro _
    | split
    | (simp; done)

@[simp] theorem State.stopContext_kept (c : Nat) (hk : Kept fx s₀ s) : Kept fx s₀ (State.stopContext s c) := by
  simp (maxDischargeDepth := 99) [State.stopContext, hk]

@[simp] theorem State.stopPicture_kept (hk : Kept fx s₀ s) : Kept fx s₀ (State.stopPicture s) := by
  simp (maxDischargeDepth := 99) [State.stopPicture, hk]

@[simp] theorem State.enterSafe_kept (cause detail : Nat) (hk : Kept false s₀ s) :
    Kept false s₀ (State.enterSafe s cause detail) := by
  simp only [State.enterSafe]
  repeat' first
    | with_reducible exact hk
    | simp only [Kept.of_record, KeptP.fold]
    | with_reducible first | apply Kept.refl | apply Kept.ite | apply Kept.foldl | apply State.stopContext_kept
    | with_reducible first | apply State.stopPicture_kept | apply State.setF_kept | apply State.aer_kept
    | with_reducible first | apply State.log_kept | apply State.tallies_kept | apply State.closeTake_kept
    | with_reducible first | apply State.truncateFrame_kept | apply State.audHalt_kept
    | with_reducible first | apply State.vqSafeEntry_kept | apply State.dflSafe_kept
    | intro _
    | split
    | (simp; done)

end Sys2Proof.Machine
end

