-- ==== Sys2Proof/Laws/KeptDmc.lean ====
section
/-!
SUPPORT. What the operations of Machine/Dmc.lean keep.
-/
namespace Sys2Proof.Machine
open Sys2Proof

set_option linter.unusedSimpArgs false

variable {fx : Bool} {s₀ s : State}

@[simp] theorem State.modChan_kept (c : Nat) (g : ChanSt → ChanSt) (hk : Kept fx s₀ s) :
    Kept fx s₀ (State.modChan s c g) := by
  simp [State.modChan, hk]

@[simp] theorem execDmcRefresh_kept (chan : Fin 32) (wait : Bool) (hk : Kept fx s₀ s) :
    KeptR fx s₀ (execDmcRefresh chan wait s) := by
  simp only [execDmcRefresh, KeptR.next]
  repeat' first
    | with_reducible exact hk
    | simp only [Kept.of_record, KeptP.fold, KeptR.next]
    | with_reducible first | apply Kept.refl | apply Kept.ite | apply State.setF_kept | apply State.modChan_kept
    | with_reducible first | apply KeptR.ite | apply KeptR.fault
    | intro _
    | split
    | (simp; done)

@[simp] theorem State.applyDelays_kept (c : Nat) (hk : Kept fx s₀ s) : Kept fx s₀ (State.applyDelays s c) := by
  simp only [State.applyDelays]
  repeat' first
    | with_reducible exact hk
    | simp only [Kept.of_record, KeptP.fold]
    | with_reducible first | apply Kept.refl | apply Kept.ite | apply State.raise_kept | apply State.modChan_kept
    | intro _
    | split
    | (simp; done)

@[simp] theorem State.delayPass_kept (hk : Kept fx s₀ s) : Kept fx s₀ (State.delayPass s) := by
  simp [State.delayPass, hk]

@[simp] theorem execDmcDelayPass_kept (hk : Kept fx s₀ s) : KeptR fx s₀ (execDmcDelayPass s) := by
  simp [execDmcDelayPass, hk]

@[simp] theorem execDmcUncorrectable_kept (dpa : Nat) (fails corrected : Bool) (hk : Kept fx s₀ s) :
    KeptR fx s₀ (execDmcUncorrectable dpa fails corrected s) := by
  simp only [execDmcUncorrectable, KeptR.next]
  repeat' first
    | with_reducible exact hk
    | simp only [Kept.of_record, KeptP.fold, KeptR.next]
    | with_reducible first | apply Kept.refl | apply Kept.ite | apply State.bumpStat_kept
    | with_reducible first | apply State.poisonLine_kept | apply KeptR.ite | apply KeptR.fault
    | intro _
    | split
    | (simp; done)

@[simp] theorem execSuspectAppend_kept (row : Fin 32) (hk : Kept fx s₀ s) : KeptR fx s₀ (execSuspectAppend row s) := by
  simp [execSuspectAppend, hk]

@[simp] theorem execDlyLock_kept (hk : Kept fx s₀ s) : KeptR fx s₀ (execDlyLock s) := by
  simp only [execDlyLock, KeptR.next]
  repeat' first
    | with_reducible exact hk
    | simp only [Kept.of_record, KeptP.fold, KeptR.next]
    | with_reducible first | apply Kept.refl | apply Kept.ite | apply State.raise_kept | apply State.rwlDenied_kept
    | with_reducible first | apply KeptR.ite | apply KeptR.fault
    | intro _
    | split
    | (simp; done)

@[simp] theorem execVp1Entry_kept (request : Bool) (hk : Kept fx s₀ s) : KeptR fx s₀ (execVp1Entry request s) := by
  simp [execVp1Entry, hk]

@[simp] theorem execVp2Entry_kept (request : Bool) (hk : Kept fx s₀ s) : KeptR fx s₀ (execVp2Entry request s) := by
  simp [execVp2Entry, hk]

end Sys2Proof.Machine
end

