-- ==== Sys2Proof/Laws/KeptPwr.lean ====
section
/-!
SUPPORT. What the operations of Machine/Pwr.lean keep.
-/
namespace Sys2Proof.Machine
open Sys2Proof

set_option linter.unusedSimpArgs false

variable {fx : Bool} {s₀ s : State}

@[simp] theorem State.pwrIrq_kept (cause : Fld) (hk : Kept fx s₀ s) : Kept fx s₀ (State.pwrIrq s cause) := by
  simp [State.pwrIrq, hk]

@[simp] theorem State.pwrErr_kept (x : Fld) (hk : Kept fx s₀ s) : Kept fx s₀ (State.pwrErr s x) := by
  simp [State.pwrErr, hk]

@[simp] theorem execVinWarn_kept (falling : Bool) (hk : Kept fx s₀ s) : KeptR fx s₀ (execVinWarn falling s) := by
  simp only [execVinWarn, KeptR.next]
  repeat' first
    | with_reducible exact hk
    | simp only [Kept.of_record, KeptP.fold, KeptR.next]
    | with_reducible first | apply Kept.refl | apply Kept.ite | apply State.setB_kept | apply State.raise_kept
    | with_reducible first | apply State.pendIf_kept | apply State.log_kept | apply KeptR.ite | apply KeptR.fault
    | intro _
    | split
    | (simp; done)

@[simp] theorem State.railsOff_kept (vin : Nat) (hk : Kept false s₀ s) : Kept false s₀ (State.railsOff s vin) := by
  simp [State.railsOff, hk]

@[simp] theorem execUvlo_kept (hk : Kept false s₀ s) : KeptR false s₀ (execUvlo s) := by
  simp [execUvlo, hk]

@[simp] theorem execOvlo_kept (hk : Kept false s₀ s) : KeptR false s₀ (execOvlo s) := by
  simp [execOvlo, hk]

@[simp] theorem execOvloExit_kept (hk : Kept fx s₀ s) : KeptR fx s₀ (execOvloExit s) := by
  simp [execOvloExit, hk]

@[simp] theorem execPwrAxConfigure_kept (p : Pkt) (hk : Kept fx s₀ s) : KeptR fx s₀ (execPwrAxConfigure p s) := by
  simp only [execPwrAxConfigure, KeptR.next]
  repeat' first
    | with_reducible exact hk
    | simp only [Kept.of_record, KeptP.fold, KeptB.pair, KeptR.next]
    | with_reducible first | apply Kept.refl | apply Kept.ite | apply KeptB.ite | apply Kept.fst | apply runOp_kept
    | with_reducible first | apply State.setF_kept | apply State.setB_kept | apply KeptR.ite | apply KeptR.fault
    | with_reducible refine Kept.of_fst ‹_› ?_
    | intro _
    | split
    | (simp; done)

@[simp] theorem execPwrAxSwitch_kept (p : Pkt) (hk : Kept fx s₀ s) : KeptR fx s₀ (execPwrAxSwitch p s) := by
  simp only [execPwrAxSwitch, KeptR.next]
  repeat' first
    | with_reducible exact hk
    | simp only [Kept.of_record, KeptP.fold, KeptB.pair, KeptR.next]
    | with_reducible first | apply Kept.refl | apply Kept.ite | apply KeptB.ite | apply Kept.fst | apply runOp_kept
    | with_reducible first | apply State.axOff_kept | apply State.setF_kept | apply KeptR.ite | apply KeptR.fault
    | with_reducible refine Kept.of_fst ‹_› ?_
    | intro _
    | split
    | (simp; done)

@[simp] theorem execAxTrip_kept (port : Fin 4) (off : Bool) (hk : Kept fx s₀ s) : KeptR fx s₀ (execAxTrip port off s) := by
  simp only [execAxTrip, KeptR.next]
  repeat' first
    | with_reducible exact hk
    | simp only [Kept.of_record, KeptP.fold, KeptR.next]
    | with_reducible first | apply Kept.refl | apply Kept.ite | apply State.axOff_kept | apply State.setF_kept
    | with_reducible first | apply State.setB_kept | apply State.bumpStat_kept | apply State.log_kept
    | with_reducible first | apply KeptR.ite | apply KeptR.fault
    | intro _
    | split
    | (simp; done)

@[simp] theorem execAxRetryExpiry_kept (port : Fin 4) (hk : Kept fx s₀ s) : KeptR fx s₀ (execAxRetryExpiry port s) := by
  simp only [execAxRetryExpiry, KeptR.next]
  repeat' first
    | with_reducible exact hk
    | simp only [Kept.of_record, KeptP.fold, KeptR.next]
    | with_reducible first | apply Kept.refl | apply Kept.ite | apply State.setF_kept | apply KeptR.ite
    | with_reducible first | apply KeptR.fault
    | intro _
    | split
    | (simp; done)

@[simp] theorem execAxRetryReset_kept (port : Fin 4) (hk : Kept fx s₀ s) : KeptR fx s₀ (execAxRetryReset port s) := by
  simp [execAxRetryReset, hk]

@[simp] theorem execAxLoadChange_kept (port : Fin 4) (present : Bool) (hk : Kept fx s₀ s) :
    KeptR fx s₀ (execAxLoadChange port present s) := by
  simp only [execAxLoadChange, KeptR.next]
  repeat' first
    | with_reducible exact hk
    | simp only [Kept.of_record, KeptP.fold, KeptR.next]
    | with_reducible first | apply Kept.refl | apply Kept.ite | apply State.axOff_kept | apply State.setB_kept
    | with_reducible first | apply State.log_kept | apply State.pwrIrq_kept | apply KeptR.ite | apply KeptR.fault
    | intro _
    | split
    | (simp; done)

@[simp] theorem execAxLimiting_kept (port : Fin 4) (above : Bool) (hk : Kept fx s₀ s) :
    KeptR fx s₀ (execAxLimiting port above s) := by
  simp [execAxLimiting, hk]

@[simp] theorem execAxReverseCurrent_kept (port : Fin 4) (hk : Kept fx s₀ s) :
    KeptR fx s₀ (execAxReverseCurrent port s) := by
  simp [execAxReverseCurrent, hk]

@[simp] theorem execAxReverseClear_kept (port : Fin 4) (hk : Kept fx s₀ s) : KeptR fx s₀ (execAxReverseClear port s) := by
  simp [execAxReverseClear, hk]

@[simp] theorem State.stepBand_kept (b : Nat) (hk : Kept fx s₀ s) : Kept fx s₀ (State.stepBand s b) := by
  simp only [State.stepBand]
  repeat' first
    | with_reducible exact hk
    | simp only [Kept.of_record, KeptP.fold]
    | with_reducible first | apply Kept.refl | apply Kept.ite | apply State.setF_kept | apply State.log_kept
    | with_reducible first | apply State.bumpEvt_kept | apply State.pwrIrq_kept
    | intro _
    | split
    | (simp; done)

@[simp] theorem State.walkBand_kept (b k : Nat) (hk : Kept fx s₀ s) : Kept fx s₀ (State.walkBand b k s) := by
  induction k generalizing s with
  | zero => exact hk
  | succ k ih =>
    unfold State.walkBand
    exact Kept.ite hk (ih (by simp [hk]))

@[simp] theorem State.setBand_kept (b : Nat) (hk : Kept fx s₀ s) : Kept fx s₀ (State.setBand s b) := by
  simp only [State.setBand]
  repeat' first
    | with_reducible exact hk
    | simp only [Kept.of_record, KeptP.fold]
    | with_reducible first | apply Kept.refl | apply Kept.ite | apply State.setF_kept | apply State.walkBand_kept
    | intro _
    | split
    | (simp; done)

@[simp] theorem State.sensorFault_kept (hk : Kept fx s₀ s) : Kept fx s₀ (State.sensorFault s) := by
  simp (maxDischargeDepth := 99) [State.sensorFault, hk]

@[simp] theorem State.reading_kept (v : Nat) (hk : Kept fx s₀ s) : Kept fx s₀ (State.reading s v) := by
  unfold State.reading
  have hx := State.setB_kept THM_STAT__SENSOR_FAULT false (State.setF_kept THM_STAT__TEMP v hk)
  exact State.setBand_kept _ (Kept.ite (State.modPwr_kept _ (State.setF_kept _ _ hx)) hx)

@[simp] theorem State.noteRound_kept (good : Bool) (hk : Kept fx s₀ s) : Kept fx s₀ (State.noteRound s good) := by
  simp only [State.noteRound]
  repeat' first
    | with_reducible exact hk
    | simp only [Kept.of_record, KeptP.fold]
    | with_reducible first | apply Kept.refl | apply Kept.ite
    | intro _
    | split
    | (simp; done)

@[simp] theorem execHkRoundComplete_kept (v : Vector (BitVec 16) 16) (hk : Kept false s₀ s) :
    KeptR false s₀ (execHkRoundComplete v s) := by
  simp only [execHkRoundComplete, KeptR.next]
  repeat' first
    | with_reducible exact hk
    | simp only [Kept.of_record, KeptP.fold, KeptR.next]
    | with_reducible first | apply Kept.refl | apply Kept.ite | apply Kept.foldl | apply State.wn_kept
    | with_reducible first | apply State.log_kept | apply State.modPwr_kept | apply State.pwrErr_kept
    | with_reducible first | apply State.sensorFault_kept | apply State.reading_kept | apply State.enterSleep_kept
    | with_reducible first | apply State.enterSafe_kept | apply State.noteRound_kept | apply KeptR.ite
    | with_reducible first | apply KeptR.fault
    | intro _
    | split
    | (simp; done)

@[simp] theorem execPwrSetInputLimit_kept (p : Pkt) (hk : Kept fx s₀ s) : KeptR fx s₀ (execPwrSetInputLimit p s) := by
  simp only [execPwrSetInputLimit, KeptR.next]
  repeat' first
    | with_reducible exact hk
    | simp only [Kept.of_record, KeptP.fold, KeptB.pair, KeptR.next]
    | with_reducible first | apply Kept.refl | apply Kept.ite | apply KeptB.ite | apply Kept.fst | apply runOp_kept
    | with_reducible first | apply State.setF_kept | apply KeptR.ite | apply KeptR.fault
    | with_reducible refine Kept.of_fst ‹_› ?_
    | intro _
    | split
    | (simp; done)

@[simp] theorem execPwrGetHk_kept (p : Pkt) (hk : Kept fx s₀ s) : KeptR fx s₀ (execPwrGetHk p s) := by
  simp [execPwrGetHk, hk]

@[simp] theorem execThmGetBand_kept (p : Pkt) (hk : Kept fx s₀ s) : KeptR fx s₀ (execThmGetBand p s) := by
  simp [execThmGetBand, hk]

end Sys2Proof.Machine
end

