-- ==== Sys2Proof/Laws/KeptTst.lean ====
section
/-!
SUPPORT. What the operations of Machine/Tst.lean keep.
-/
namespace Sys2Proof.Machine
open Sys2Proof

set_option linter.unusedSimpArgs false

variable {fx : Bool} {s₀ s : State}

@[simp] theorem State.modTst_kept (g : TstSt → TstSt) (hk : Kept fx s₀ s) : Kept fx s₀ (State.modTst s g) := by
  simp [State.modTst, hk]

@[simp] theorem State.beginTest_kept (hk : Kept fx s₀ s) : Kept fx s₀ (State.beginTest s) := by
  simp only [State.beginTest]
  repeat' first
    | with_reducible exact hk
    | simp only [Kept.of_record, KeptP.fold]
    | with_reducible first | apply Kept.refl | apply Kept.ite | apply Kept.foldl | apply State.setF_kept
    | with_reducible first | apply State.bumpEvt_kept | apply State.finishF_kept | apply State.leaveB_kept
    | with_reducible first | apply State.laneLost_kept | apply State.modTst_kept
    | intro _
    | split
    | (simp; done)

@[simp] theorem State.offerTest_kept (r : TstRun) (hk : Kept fx s₀ s) : Kept fx s₀ (State.offerTest s r) := by
  simp only [State.offerTest]
  repeat' first
    | with_reducible exact hk
    | simp only [Kept.of_record, KeptP.fold]
    | with_reducible first | apply Kept.refl | apply Kept.ite | apply State.arrive_kept | apply State.modTst_kept
    | with_reducible first | apply State.beginTest_kept
    | intro _
    | split
    | (simp; done)

@[simp] theorem State.testOp_kept (h : Hdr) (r : TstRun) (hk : Kept fx s₀ s) : KeptB fx s₀ (State.testOp s h r) := by
  simp only [State.testOp]
  repeat' first
    | with_reducible exact hk
    | simp only [Kept.of_record, KeptP.fold, KeptB.pair]
    | with_reducible first | apply Kept.refl | apply Kept.ite | apply KeptB.ite | apply Kept.fst
    | with_reducible first | apply State.restart_kept | apply State.offerTest_kept
    | intro _
    | split
    | (simp; done)

@[simp] theorem execTstRunAnalogue_kept (p : Pkt) (hk : Kept fx s₀ s) : KeptR fx s₀ (execTstRunAnalogue p s) := by
  simp [execTstRunAnalogue, hk]

@[simp] theorem execTstRunLbist_kept (p : Pkt) (hk : Kept fx s₀ s) : KeptR fx s₀ (execTstRunLbist p s) := by
  simp [execTstRunLbist, hk]

@[simp] theorem execTstRunMbist_kept (p : Pkt) (hk : Kept fx s₀ s) : KeptR fx s₀ (execTstRunMbist p s) := by
  simp [execTstRunMbist, hk]

@[simp] theorem State.testStart_kept (master : Byte) (kind : Nat) (item : BitVec 6) (hk : Kept fx s₀ s) :
    Kept fx s₀ (State.testStart s master kind item) := by
  simp only [State.testStart]
  repeat' first
    | with_reducible exact hk
    | simp only [Kept.of_record, KeptP.fold]
    | with_reducible first | apply Kept.refl | apply Kept.ite | apply State.setF_kept | apply State.raise_kept
    | with_reducible first | apply State.offerTest_kept
    | intro _
    | split
    | (simp; done)

@[simp] theorem execTstStartAnalogue_kept (master : Byte) (item : BitVec 6) (hk : Kept fx s₀ s) :
    KeptR fx s₀ (execTstStartAnalogue master item s) := by
  simp [execTstStartAnalogue, hk]

@[simp] theorem execTstStartLbist_kept (master : Byte) (item : BitVec 6) (hk : Kept fx s₀ s) :
    KeptR fx s₀ (execTstStartLbist master item s) := by
  simp [execTstStartLbist, hk]

@[simp] theorem execTstStartMbist_kept (master : Byte) (item : BitVec 6) (hk : Kept fx s₀ s) :
    KeptR fx s₀ (execTstStartMbist master item s) := by
  simp [execTstStartMbist, hk]

@[simp] theorem State.postResult_kept (r : TstRun) (status : Nat) (words : List Nat) (hk : Kept fx s₀ s) :
    Kept fx s₀ (State.postResult s r status words) := by
  simp only [State.postResult]
  repeat' first
    | with_reducible exact hk
    | simp only [Kept.of_record, KeptP.fold]
    | with_reducible first | apply Kept.refl | apply Kept.ite | apply State.setF_kept | apply State.bumpStat_kept
    | with_reducible first | apply State.modTst_kept
    | intro _
    | split
    | (simp; done)

@[simp] theorem execTstAdmitExpiry_kept (hk : Kept fx s₀ s) : KeptR fx s₀ (execTstAdmitExpiry s) := by
  simp only [execTstAdmitExpiry, KeptR.next]
  repeat' first
    | with_reducible exact hk
    | simp only [Kept.of_record, KeptP.fold, KeptR.next]
    | with_reducible first | apply Kept.refl | apply Kept.ite | apply State.setF_kept | apply State.bumpEvt_kept
    | with_reducible first | apply State.deferB_kept | apply State.postResult_kept | apply KeptR.ite
    | with_reducible first | apply KeptR.fault
    | intro _
    | split
    | (simp; done)

@[simp] theorem State.resetRange_kept (a b : Nat) (keep : List Nat) (hk : Kept fx s₀ s) :
    Kept fx s₀ (State.resetRange s a b keep) := State.regs_filter_kept _ hk

@[simp] theorem State.resetPart_kept (bit : Nat) (hk : Kept fx s₀ s) : Kept fx s₀ (State.resetPart s bit) := by
  simp only [State.resetPart]
  repeat' first
    | with_reducible exact hk
    | simp only [Kept.of_record, KeptP.fold]
    | with_reducible first | apply Kept.refl | apply Kept.ite | apply State.cdcReset_kept
    | with_reducible first | apply State.resetRange_kept
    | intro _
    | split
    | (simp; done)

@[simp] theorem State.endLbist_kept (r : TstRun) (e : TestEnd) (hk : Kept false s₀ s) :
    Kept false s₀ (State.endLbist s r e) := by
  simp only [State.endLbist]
  repeat' first
    | with_reducible exact hk
    | simp only [Kept.of_record, KeptP.fold]
    | with_reducible first | apply Kept.refl | apply Kept.ite | apply Kept.foldl | apply State.postResult_kept
    | with_reducible first | apply State.resetPart_kept | apply State.enterSafe_kept | apply State.wr_kept
    | intro _
    | split
    | (simp; done)

@[simp] theorem State.restoreCommitted_kept (bit : Nat) (hk : Kept fx s₀ s) : Kept fx s₀ (State.restoreCommitted s bit) := by
  simp only [State.restoreCommitted]
  repeat' first
    | with_reducible exact hk
    | simp only [Kept.of_record, KeptP.fold]
    | with_reducible first | apply Kept.refl | apply Kept.ite | apply Kept.foldl | apply State.modCx_kept
    | with_reducible first | apply State.modRw_kept | apply State.modTp_kept | apply State.modCmp_kept
    | intro _
    | split
    | (simp; done)

@[simp] theorem State.setRepair_kept (unit v : Nat) (hk : Kept fx s₀ s) : Kept fx s₀ (State.setRepair s unit v) := by
  simp only [State.setRepair]
  repeat' first
    | with_reducible exact hk
    | simp only [Kept.of_record, KeptP.fold]
    | with_reducible first | apply Kept.refl | apply Kept.ite | apply State.republish_kept
    | with_reducible first | apply State.modTst_kept
    | intro _
    | split
    | (simp; done)

@[simp] theorem State.endMbist_kept (r : TstRun) (e : TestEnd) (hk : Kept false s₀ s) :
    Kept false s₀ (State.endMbist s r e) := by
  simp only [State.endMbist]
  repeat' first
    | with_reducible exact hk
    | simp only [Kept.of_record, KeptP.fold]
    | with_reducible first | apply Kept.refl | apply Kept.ite | apply Kept.foldl | apply State.modTst_kept
    | with_reducible first | apply State.postResult_kept | apply State.restoreCommitted_kept
    | with_reducible first | apply State.setRepair_kept | apply State.enterSafe_kept
    | intro _
    | split
    | (simp; done)

@[simp] theorem execTestDone_kept (e : TestEnd) (hk : Kept false s₀ s) : KeptR false s₀ (execTestDone e s) := by
  simp only [execTestDone, KeptR.next]
  repeat' first
    | with_reducible exact hk
    | simp only [Kept.of_record, KeptP.fold, KeptR.next]
    | with_reducible first | apply Kept.refl | apply Kept.ite | apply State.log_kept | apply State.postResult_kept
    | with_reducible first | apply State.endLbist_kept | apply State.endMbist_kept | apply KeptR.ite
    | with_reducible first | apply KeptR.fault
    | intro _
    | split
    | (simp; done)

@[simp] theorem execTstGetResult_kept (p : Pkt) (hk : Kept fx s₀ s) : KeptR fx s₀ (execTstGetResult p s) := by
  simp only [execTstGetResult, KeptR.next]
  repeat' first
    | with_reducible exact hk
    | simp only [Kept.of_record, KeptP.fold, KeptB.pair, KeptR.next]
    | with_reducible first | apply Kept.refl | apply Kept.ite | apply KeptB.ite | apply Kept.fst | apply runOp_kept
    | with_reducible first | apply KeptR.ite | apply KeptR.fault
    | with_reducible refine Kept.of_fst ‹_› ?_
    | intro _
    | split
    | (simp; done)

@[simp] theorem execTstSetTmux_kept (p : Pkt) (hk : Kept fx s₀ s) : KeptR fx s₀ (execTstSetTmux p s) := by
  simp only [execTstSetTmux, KeptR.next]
  repeat' first
    | with_reducible exact hk
    | simp only [Kept.of_record, KeptP.fold, KeptB.pair, KeptR.next]
    | with_reducible first | apply Kept.refl | apply Kept.ite | apply KeptB.ite | apply Kept.fst | apply runOp_kept
    | with_reducible first | apply State.wn_kept | apply KeptR.ite | apply KeptR.fault
    | with_reducible refine Kept.of_fst ‹_› ?_
    | intro _
    | split
    | (simp; done)

@[simp] theorem execRprGetStatus_kept (p : Pkt) (hk : Kept fx s₀ s) : KeptR fx s₀ (execRprGetStatus p s) := by
  simp [execRprGetStatus, hk]

@[simp] theorem execRprCommitPpr_kept (p : Pkt) (hk : Kept fx s₀ s) : KeptR fx s₀ (execRprCommitPpr p s) := by
  simp only [execRprCommitPpr, KeptR.next]
  repeat' first
    | with_reducible exact hk
    | simp only [Kept.of_record, KeptP.fold, KeptB.pair, KeptR.next]
    | with_reducible first | apply Kept.refl | apply Kept.ite | apply KeptB.ite | apply Kept.fst | apply runOp_kept
    | with_reducible first | apply State.publish_kept | apply State.clearVault_kept | apply State.modTst_kept
    | with_reducible first | apply KeptR.ite | apply KeptR.fault
    | with_reducible refine Kept.of_fst ‹_› ?_
    | intro _
    | split
    | (simp; done)

end Sys2Proof.Machine
end

