-- ==== Sys2Proof/Laws/KeptBoot.lean ====
section
/-!
SUPPORT. What the operations of Machine/Boot.lean keep.
-/
namespace Sys2Proof.Machine
open Sys2Proof

set_option linter.unusedSimpArgs false

variable {fx : Bool} {s₀ s : State}

@[simp] theorem State.modDev_kept (g : DevSt → DevSt) (hg : ∀ d, (g d).variant = d.variant) (hk : Kept fx s₀ s) :
    Kept fx s₀ (State.modDev s g) :=
  hk.trans ⟨⟨rfl, hg _, id, id, id, id, fun _ => rfl, List.prefix_refl _, Nat.le_refl _⟩⟩

@[simp] theorem State.modFlash_kept (g : FwSt → FwSt) (hk : Kept fx s₀ s) : Kept fx s₀ (State.modFlash s g) := by
  simp [State.modFlash, hk]

@[simp] theorem State.modCxl_kept (g : CxlSt → CxlSt) (hk : Kept fx s₀ s) : Kept fx s₀ (State.modCxl s g) := by
  simp [State.modCxl, hk]

@[simp] theorem State.linkUp_kept (full : Bool) (width rate : Nat) (hk : Kept fx s₀ s) :
    Kept fx s₀ (State.linkUp s full width rate) := by
  simp [State.linkUp, hk]

@[simp] theorem State.bootLoad_kept (r : BootRep) (hk : Kept fx s₀ s) : Kept fx s₀ (State.bootLoad s r) := by
  simp only [State.bootLoad]
  repeat' first
    | with_reducible exact hk
    | simp only [Kept.of_record, KeptP.fold]
    | with_reducible first | apply Kept.refl | apply Kept.ite | apply State.setF_kept | apply State.setB_kept
    | with_reducible first | apply State.log_kept | apply State.locked_kept | apply State.modFlash_kept
    | intro _
    | split
    | (simp; done)

@[simp] theorem State.newLayout_kept (cold : Bool) (lost : Nat) (hk : Kept fx s₀ s) :
    Kept fx s₀ (State.newLayout s cold lost) := by
  simp only [State.newLayout]
  repeat' first
    | with_reducible exact hk
    | simp only [Kept.of_record, KeptP.fold]
    | with_reducible first | apply Kept.refl | apply Kept.ite | apply State.log_kept | apply State.modVlt_kept
    | intro _
    | split
    | (simp; done)

@[simp] theorem State.bootRepair_kept (r : BootRep) (clear cold : Bool) (hk : Kept fx s₀ s) :
    Kept fx s₀ (State.bootRepair s r clear cold) := by
  simp only [State.bootRepair]
  repeat' first
    | with_reducible exact hk
    | simp only [Kept.of_record, KeptP.fold]
    | with_reducible first | apply Kept.refl | apply Kept.ite | apply Kept.foldl | apply State.wn_kept
    | with_reducible first | apply State.setF_kept | apply State.log_kept | apply State.modTst_kept
    | with_reducible first | apply State.modCxl_kept | apply State.newLayout_kept
    | intro _
    | split
    | (simp; done)

@[simp] theorem State.bootDelays_kept (r : BootRep) (hk : Kept fx s₀ s) : Kept fx s₀ (State.bootDelays s r) := by
  simp only [State.bootDelays]
  repeat' first
    | with_reducible exact hk
    | simp only [Kept.of_record, KeptP.fold]
    | with_reducible first | apply Kept.refl | apply Kept.ite | apply Kept.foldl | apply State.wn_kept
    | with_reducible first | apply State.raise_kept | apply State.log_kept | apply State.delayPass_kept
    | intro _
    | split
    | (simp; done)

@[simp] theorem State.resumeLogs_kept (hk : Kept fx s₀ s) : Kept fx s₀ (State.resumeLogs s) := by
  simp only [State.resumeLogs]
  repeat' first
    | with_reducible exact hk
    | simp only [Kept.of_record, KeptP.fold]
    | with_reducible first | apply Kept.refl | apply Kept.ite | apply Kept.foldl | apply State.logEntry_kept
    | with_reducible first | apply State.boot_kept | apply State.wr_kept
    | intro _
    | split
    | (simp; done)

@[simp] theorem State.rebuildOpen_kept (hk : Kept fx s₀ s) : Kept fx s₀ (State.rebuildOpen s) := by
  simp only [State.rebuildOpen]
  repeat' first
    | with_reducible exact hk
    | simp only [Kept.of_record, KeptP.fold]
    | with_reducible first | apply Kept.refl | apply Kept.ite | apply Kept.foldl | apply State.modRec_kept
    | with_reducible first | apply State.countTakes_kept
    | intro _
    | split
    | (simp; done)

@[simp] theorem State.rebuildIndex_kept (late : Option Nat) (hk : Kept fx s₀ s) :
    Kept fx s₀ (State.rebuildIndex s late) := by
  simp only [State.rebuildIndex]
  repeat' first
    | with_reducible exact hk
    | simp only [Kept.of_record, KeptP.fold]
    | with_reducible first | apply Kept.refl | apply Kept.ite | apply Kept.foldl | apply State.modVlt_kept
    | with_reducible first | apply State.setIdx_kept
    | intro _
    | split
    | (simp; done)

@[simp] theorem State.rebuildCounters_kept (hk : Kept fx s₀ s) : Kept fx s₀ (State.rebuildCounters s) := by
  simp only [State.rebuildCounters]
  repeat' first
    | with_reducible exact hk
    | simp only [Kept.of_record, KeptP.fold]
    | with_reducible first | apply Kept.refl | apply Kept.ite | apply Kept.foldl | apply State.wn_kept
    | with_reducible first | apply State.setB_kept | apply State.setAreaWp_kept
    | intro _
    | split
    | (simp; done)

@[simp] theorem State.rebuildTakes_kept (lost : List Nat) (hk : Kept fx s₀ s) : Kept fx s₀ (State.rebuildTakes s lost) := by
  simp only [State.rebuildTakes]
  repeat' first
    | with_reducible exact hk
    | simp only [Kept.of_record, KeptP.fold]
    | with_reducible first | apply Kept.refl | apply Kept.ite | apply Kept.foldl | apply State.log_kept
    | with_reducible first | apply State.modVlt_kept | apply State.modTake_kept
    | intro _
    | split
    | (simp; done)

@[simp] theorem State.rebuild_kept (r : BootRep) (hk : Kept fx s₀ s) : Kept fx s₀ (State.rebuild s r) := by
  simp only [State.rebuild]
  repeat' first
    | with_reducible exact hk
    | simp only [Kept.of_record, KeptP.fold]
    | with_reducible first | apply Kept.refl | apply Kept.ite | apply Kept.foldl | apply State.log_kept
    | with_reducible first | apply State.modVlt_kept | apply State.rebuildOpen_kept | apply State.rebuildIndex_kept
    | with_reducible first | apply State.rebuildCounters_kept | apply State.rebuildTakes_kept
    | intro _
    | split
    | (simp; done)

@[simp] theorem State.bootVault_kept (r : BootRep) (clear : Bool) (hk : Kept fx s₀ s) :
    Kept fx s₀ (State.bootVault s r clear) := by
  simp only [State.bootVault]
  repeat' first
    | with_reducible exact hk
    | simp only [Kept.of_record, KeptP.fold]
    | with_reducible first | apply Kept.refl | apply Kept.ite | apply State.clearVault_kept | apply State.setB_kept
    | with_reducible first | apply State.tallies_kept | apply State.modDev_kept | apply State.rebuild_kept
    | intro _
    | split
    | (simp; done)

@[simp] theorem State.bootFault_kept (k : Nat) (code cause detail : Nat) (hk : Kept false s₀ s) :
    Kept false s₀ (State.bootFault s k code cause detail) := by
  simp only [State.bootFault]
  repeat' first
    | with_reducible exact hk
    | simp only [Kept.of_record, KeptP.fold]
    | with_reducible first | apply Kept.refl | apply Kept.ite | apply State.setF_kept | apply State.enterSafe_kept
    | intro _
    | split
    | (simp; done)

@[simp] theorem State.bootJudge_kept (r : BootRep) (k : Nat) (hk : Kept false s₀ s) :
    Kept false s₀ (State.bootJudge s r k) := by
  simp only [State.bootJudge]
  repeat' first
    | with_reducible exact hk
    | simp only [Kept.of_record, KeptP.fold]
    | with_reducible first | apply Kept.refl | apply Kept.ite | apply State.bootFault_kept
    | intro _
    | split
    | (simp; done)

@[simp] theorem State.bootAct_kept (r : BootRep) (clear cold : Bool) (k : Nat) (hk : Kept fx s₀ s) :
    Kept fx s₀ (State.bootAct s r clear cold k) := by
  simp only [State.bootAct]
  repeat' first
    | with_reducible exact hk
    | simp only [Kept.of_record, KeptP.fold]
    | with_reducible first | apply Kept.refl | apply Kept.ite | apply State.publish_kept
    | with_reducible first | apply State.fabTicks_kept | apply State.modDev_kept | apply State.modCxl_kept
    | with_reducible first | apply State.linkUp_kept | apply State.bootLoad_kept | apply State.bootRepair_kept
    | with_reducible first | apply State.bootDelays_kept | apply State.resumeLogs_kept | apply State.bootVault_kept
    | intro _
    | split
    | (simp; done)

@[simp] theorem State.stepMark_kept (k : Nat) (hk : Kept fx s₀ s) : Kept fx s₀ (State.stepMark s k) := by
  simp [State.stepMark, hk]

@[simp] theorem State.bootStep_kept (r : BootRep) (clear cold : Bool) (k : Nat) (hk : Kept false s₀ s) :
    Kept false s₀ (State.bootStep r clear cold s k) := by
  simp only [State.bootStep]
  repeat' first
    | with_reducible exact hk
    | simp only [Kept.of_record, KeptP.fold]
    | with_reducible first | apply Kept.refl | apply Kept.ite | apply State.bootAct_kept
    | with_reducible first | apply State.stepMark_kept | apply State.bootJudge_kept
    | intro _
    | split
    | (simp; done)

@[simp] theorem State.causeMark_kept (type : Nat) (hk : Kept fx s₀ s) : Kept fx s₀ (State.causeMark s type) := by
  simp [State.causeMark, hk]

@[simp] theorem State.bootDone_kept (r : BootRep) (type : Nat) (hk : Kept fx s₀ s) :
    Kept fx s₀ (State.bootDone s r type) := by
  simp only [State.bootDone]
  repeat' first
    | with_reducible exact hk
    | simp only [Kept.of_record, KeptP.fold]
    | with_reducible first | apply Kept.refl | apply Kept.ite | apply State.wn_kept | apply State.log_kept
    | with_reducible first | apply State.modCxl_kept | apply State.causeMark_kept
    | intro _
    | split
    | (simp; done)

@[simp] theorem State.bootShow_kept (r : BootRep) (type : Nat) (hk : Kept fx s₀ s) :
    Kept fx s₀ (State.bootShow s r type) := by
  simp only [State.bootShow]
  repeat' first
    | with_reducible exact hk
    | simp only [Kept.of_record, KeptP.fold]
    | with_reducible first | apply Kept.refl | apply Kept.ite | apply State.setF_kept
    | intro _
    | split
    | (simp; done)

@[simp] theorem State.bootRun_kept (r : BootRep) (clear cold : Bool) (hk : Kept false s₀ s) :
    Kept false s₀ (State.bootRun s r clear cold) := by
  simp [State.bootRun, hk]

@[simp] theorem State.bootEnd_kept (r : BootRep) (type : Nat) (hk : Kept fx s₀ s) : Kept fx s₀ (State.bootEnd s r type) := by
  simp [State.bootEnd, hk]

@[simp] theorem State.boot_kept (r : BootRep) (hk : Kept false s₀ s) : Kept false s₀ (State.boot s r) := by
  simp only [State.boot]
  repeat' first
    | with_reducible exact hk
    | simp only [Kept.of_record, KeptP.fold]
    | with_reducible first | apply Kept.refl | apply Kept.ite | apply State.modDev_kept | apply State.bootShow_kept
    | with_reducible first | apply State.bootEnd_kept | apply State.bootRun_kept
    | intro _
    | split
    | (simp; done)

@[simp] theorem execColdBoot_kept (rep : BootRep) (hk : Kept false s₀ s) : KeptR false s₀ (execColdBoot rep s) := by
  simp only [execColdBoot, KeptR.next]
  repeat' first
    | with_reducible exact hk
    | simp only [Kept.of_record, KeptP.fold, KeptR.next]
    | with_reducible first | apply Kept.refl | apply Kept.ite | apply State.modDev_kept | apply State.boot_kept
    | with_reducible first | apply KeptR.ite | apply KeptR.fault
    | intro _
    | split
    | (simp; done)

@[simp] theorem execWarmBoot_kept (rep : BootRep) (hk : Kept false s₀ s) : KeptR false s₀ (execWarmBoot rep s) := by
  simp [execWarmBoot, hk]

@[simp] theorem execPerstNAssert_kept (hk : Kept fx s₀ s) : KeptR fx s₀ (execPerstNAssert s) := by
  simp [execPerstNAssert, hk]

@[simp] theorem execWake_kept (recPin early : Bool) (hk : Kept fx s₀ s) : KeptR fx s₀ (execWake recPin early s) := by
  simp [execWake, hk]

@[simp] theorem State.planAfter_kept (h : Hdr) (a : AfterAct) (hk : Kept fx s₀ s) : Kept fx s₀ (State.planAfter s h a) := by
  simp [State.planAfter, hk]

@[simp] theorem execDevReset_kept (p : Pkt) (hk : Kept fx s₀ s) : KeptR fx s₀ (execDevReset p s) := by
  simp [execDevReset, hk]

@[simp] theorem execDevSetPstate_kept (p : Pkt) (hk : Kept fx s₀ s) : KeptR fx s₀ (execDevSetPstate p s) := by
  simp only [execDevSetPstate, KeptR.next]
  repeat' first
    | with_reducible exact hk
    | simp only [Kept.of_record, KeptP.fold, KeptB.pair, KeptR.next]
    | with_reducible first | apply Kept.refl | apply Kept.ite | apply KeptB.ite | apply Kept.fst | apply runOp_kept
    | with_reducible first | apply State.planAfter_kept | apply KeptR.ite | apply KeptR.fault
    | with_reducible refine Kept.of_fst ‹_› ?_
    | intro _
    | split
    | (simp; done)

@[simp] theorem State.stageDo_kept (h : Hdr) (hk : Kept fx s₀ s) : Kept fx s₀ (State.stageDo s h) := by
  simp only [State.stageDo]
  repeat' first
    | with_reducible exact hk
    | simp only [Kept.of_record, KeptP.fold]
    | with_reducible first | apply Kept.refl | apply Kept.ite | apply State.finishF_kept | apply State.leaveB_kept
    | with_reducible first | apply State.modFlash_kept
    | intro _
    | split
    | (simp; done)

@[simp] theorem execFwStage_kept (p : Pkt) (hk : Kept fx s₀ s) : KeptR fx s₀ (execFwStage p s) := by
  simp only [execFwStage, KeptR.next]
  repeat' first
    | with_reducible exact hk
    | simp only [Kept.of_record, KeptP.fold, KeptB.pair, KeptR.next]
    | with_reducible first | apply Kept.refl | apply Kept.ite | apply KeptB.ite | apply Kept.fst | apply runOp_kept
    | with_reducible first | apply State.restart_kept | apply State.refGuard_kept | apply State.bufError_kept
    | with_reducible first | apply State.arrive_kept | apply State.modFlash_kept | apply State.stageDo_kept
    | with_reducible first | apply KeptR.ite | apply KeptR.fault
    | with_reducible refine Kept.of_fst ‹_› ?_
    | intro _
    | split
    | (simp; done)

@[simp] theorem execFwVerify_kept (p : Pkt) (hk : Kept fx s₀ s) : KeptR fx s₀ (execFwVerify p s) := by
  simp only [execFwVerify, KeptR.next]
  repeat' first
    | with_reducible exact hk
    | simp only [Kept.of_record, KeptP.fold, KeptB.pair, KeptR.next]
    | with_reducible first | apply Kept.refl | apply Kept.ite | apply KeptB.ite | apply Kept.fst | apply runOp_kept
    | with_reducible first | apply State.modFlash_kept | apply KeptR.ite | apply KeptR.fault
    | with_reducible refine Kept.of_fst ‹_› ?_
    | intro _
    | split
    | (simp; done)

@[simp] theorem State.coresReset_kept (hk : Kept fx s₀ s) : Kept fx s₀ (State.coresReset s) := by
  simp only [State.coresReset]
  repeat' first
    | with_reducible exact hk
    | simp only [Kept.of_record, KeptP.fold]
    | with_reducible first | apply Kept.refl | apply Kept.ite | apply Kept.foldl | apply State.masterReset_kept
    | intro _
    | split
    | (simp; done)

@[simp] theorem State.coresRestart_kept (hk : Kept fx s₀ s) : Kept fx s₀ (State.coresRestart s) := by
  simp only [State.coresRestart]
  repeat' first
    | with_reducible exact hk
    | simp only [Kept.of_record, KeptP.fold]
    | with_reducible first | apply Kept.refl | apply Kept.ite | apply State.modDev_kept
    | with_reducible first | apply State.coresReset_kept
    | intro _
    | split
    | (simp; done)

@[simp] theorem execFwActivate_kept (p : Pkt) (hk : Kept fx s₀ s) : KeptR fx s₀ (execFwActivate p s) := by
  simp only [execFwActivate, KeptR.next]
  repeat' first
    | with_reducible exact hk
    | simp only [Kept.of_record, KeptP.fold, KeptB.pair, KeptR.next]
    | with_reducible first | apply Kept.refl | apply Kept.ite | apply KeptB.ite | apply Kept.fst | apply runOp_kept
    | with_reducible first | apply State.vqBarrier_kept | apply State.modFlash_kept | apply State.coresRestart_kept
    | with_reducible first | apply KeptR.ite | apply KeptR.fault
    | with_reducible refine Kept.of_fst ‹_› ?_
    | intro _
    | split
    | (simp; done)

@[simp] theorem execFwRunState_kept (hk : Kept fx s₀ s) : KeptR fx s₀ (execFwRunState s) := by
  simp only [execFwRunState, KeptR.next]
  repeat' first
    | with_reducible exact hk
    | simp only [Kept.of_record, KeptP.fold, KeptR.next]
    | with_reducible first | apply Kept.refl | apply Kept.ite | apply State.publish_kept | apply State.setF_kept
    | with_reducible first | apply State.finishF_kept | apply State.vqLift_kept | apply State.modDev_kept
    | with_reducible first | apply State.modFlash_kept | apply KeptR.ite | apply KeptR.fault
    | intro _
    | split
    | (simp; done)

@[simp] theorem execFwActivateTimeout_kept (hk : Kept fx s₀ s) : KeptR fx s₀ (execFwActivateTimeout s) := by
  simp only [execFwActivateTimeout, KeptR.next]
  repeat' first
    | with_reducible exact hk
    | simp only [Kept.of_record, KeptP.fold, KeptR.next]
    | with_reducible first | apply Kept.refl | apply Kept.ite | apply State.finishF_kept | apply State.vqLift_kept
    | with_reducible first | apply State.modDev_kept | apply State.modFlash_kept | apply State.coresReset_kept
    | with_reducible first | apply KeptR.ite | apply KeptR.fault
    | intro _
    | split
    | (simp; done)

@[simp] theorem execVltSetLayout_kept (p : Pkt) (hk : Kept fx s₀ s) : KeptR fx s₀ (execVltSetLayout p s) := by
  simp only [execVltSetLayout, KeptR.next]
  repeat' first
    | with_reducible exact hk
    | simp only [Kept.of_record, KeptP.fold, KeptB.pair, KeptR.next]
    | with_reducible first | apply Kept.refl | apply Kept.ite | apply KeptB.ite | apply Kept.fst | apply runOp_kept
    | with_reducible first | apply State.publish_kept | apply State.clearVault_kept | apply State.setF_kept
    | with_reducible first | apply State.commitSince_kept | apply State.modVlt_kept | apply KeptR.ite
    | with_reducible first | apply KeptR.fault
    | with_reducible refine Kept.of_fst ‹_› ?_
    | intro _
    | split
    | (simp; done)

end Sys2Proof.Machine
end

