-- ==== Sys2Proof/Laws/KeptCxl.lean ====
section
/-!
SUPPORT. What the operations of Machine/Cxl.lean keep.
-/
namespace Sys2Proof.Machine
open Sys2Proof

set_option linter.unusedSimpArgs false

variable {fx : Bool} {s₀ s : State}

@[simp] theorem State.drawBytes_kept (n : Nat) (hk : Kept fx s₀ s) : KeptS fx s₀ (State.drawBytes n s) := by
  induction n generalizing s with
  | zero => exact ⟨hk⟩
  | succ n ih =>
    unfold State.drawBytes
    exact ⟨(ih (State.draw_kept hk).snd_kept).snd_kept⟩

@[simp] theorem State.cxlRead_kept (addr : Nat) (hk : Kept fx s₀ s) : KeptR fx s₀ (State.cxlRead s addr) := by
  simp only [State.cxlRead, KeptR.next]
  repeat' first
    | with_reducible exact hk
    | simp only [Kept.of_record, KeptP.fold, KeptS.pair, KeptR.next]
    | with_reducible first | apply Kept.refl | apply Kept.ite | apply KeptS.ite | apply Kept.snd
    | with_reducible first | apply State.aer_kept | apply State.vaultUse_kept | apply State.poisonLine_kept
    | with_reducible first | apply State.drawBytes_kept | apply State.emit_kept | apply KeptR.ite
    | with_reducible first | apply KeptR.fault
    | with_reducible refine Kept.of_snd ‹_› ?_
    | intro _
    | split
    | (simp; done)

@[simp] theorem execMemrd_kept (addr : Nat) (hk : Kept fx s₀ s) : KeptR fx s₀ (execMemrd addr s) := by
  simp [execMemrd, hk]

@[simp] theorem execMemrddata_kept (addr : Nat) (hk : Kept fx s₀ s) : KeptR fx s₀ (execMemrddata addr s) := by
  simp [execMemrddata, hk]

@[simp] theorem execMeminv_kept (addr : Nat) (hk : Kept fx s₀ s) : KeptR fx s₀ (execMeminv addr s) := by
  simp only [execMeminv, KeptR.next]
  repeat' first
    | with_reducible exact hk
    | simp only [Kept.of_record, KeptP.fold, KeptR.next]
    | with_reducible first | apply Kept.refl | apply Kept.ite | apply State.vaultUse_kept | apply State.emit_kept
    | with_reducible first | apply KeptR.ite | apply KeptR.fault
    | intro _
    | split
    | (simp; done)

@[simp] theorem execMemspecrd_kept (addr : Nat) (hk : Kept fx s₀ s) : KeptR fx s₀ (execMemspecrd addr s) := by
  simp only [execMemspecrd, KeptR.next]
  repeat' first
    | with_reducible exact hk
    | simp only [Kept.of_record, KeptP.fold, KeptR.next]
    | with_reducible first | apply Kept.refl | apply Kept.ite | apply State.vaultUse_kept | apply KeptR.ite
    | with_reducible first | apply KeptR.fault
    | intro _
    | split
    | (simp; done)

@[simp] theorem State.writeMasked_kept (a mask i : Nat) (l : List Byte) (hk : Kept false s₀ s) :
    Kept false s₀ (State.writeMasked s a mask i l) := by
  induction l generalizing s i with
  | nil => exact hk
  | cons b t ih =>
    unfold State.writeMasked
    exact ih _ (Kept.ite (by simp [hk]) hk)

@[simp] theorem State.cxlWrite_kept (addr mask : Nat) (data : List Byte) (hk : Kept false s₀ s) :
    KeptR false s₀ (State.cxlWrite s addr mask data) := by
  simp only [State.cxlWrite, KeptR.next]
  repeat' first
    | with_reducible exact hk
    | simp only [Kept.of_record, KeptP.fold, KeptR.next]
    | with_reducible first | apply Kept.refl | apply Kept.ite | apply State.bumpStat_kept | apply State.log_kept
    | with_reducible first | apply State.vaultUse_kept | apply State.modCxl_kept | apply State.writeMasked_kept
    | with_reducible first | apply State.emit_kept | apply KeptR.ite | apply KeptR.fault
    | intro _
    | split
    | (simp; done)

@[simp] theorem execMemwr_kept (addr : Nat) (data : List Byte) (hk : Kept false s₀ s) :
    KeptR false s₀ (execMemwr addr data s) := by
  simp [execMemwr, hk]

@[simp] theorem execMemwrptl_kept (addr : Nat) (data : List Byte) (mask : BitVec 64) (hk : Kept false s₀ s) :
    KeptR false s₀ (execMemwrptl addr data mask s) := by
  simp [execMemwrptl, hk]

@[simp] theorem execHdmCommit_kept (dec : Fin 2) (base size ways : Nat) (hk : Kept fx s₀ s) :
    KeptR fx s₀ (execHdmCommit dec base size ways s) := by
  simp [execHdmCommit, hk]

@[simp] theorem execDoeRequest_kept (hk : Kept fx s₀ s) : KeptR fx s₀ (execDoeRequest s) := by
  simp [execDoeRequest, hk]

@[simp] theorem execDmaReadError_kept (src : Fin 24) (who : BitVec 16) (addr : Nat) (poisoned : Bool) (hk : Kept fx s₀ s) :
    KeptR fx s₀ (execDmaReadError src who addr poisoned s) := by
  simp [execDmaReadError, hk]

@[simp] theorem execCacheWriteError_kept (src : Fin 24) (who : BitVec 16) (addr : Nat) (hk : Kept fx s₀ s) :
    KeptR fx s₀ (execCacheWriteError src who addr s) := by
  simp [execCacheWriteError, hk]

@[simp] theorem execLinkCrcError_kept (hk : Kept fx s₀ s) : KeptR fx s₀ (execLinkCrcError s) := by
  simp [execLinkCrcError, hk]

@[simp] theorem execCxlCacheProtocolError_kept (inAddr : Bool) (hk : Kept fx s₀ s) :
    KeptR fx s₀ (execCxlCacheProtocolError inAddr s) := by
  simp [execCxlCacheProtocolError, hk]

@[simp] theorem execLinkTrainingDone_kept (full : Bool) (width : Nat) (rate : Nat) (hk : Kept fx s₀ s) :
    KeptR fx s₀ (execLinkTrainingDone full width rate s) := by
  simp only [execLinkTrainingDone, KeptR.next]
  repeat' first
    | with_reducible exact hk
    | simp only [Kept.of_record, KeptP.fold, KeptR.next]
    | with_reducible first | apply Kept.refl | apply Kept.ite | apply State.republish_kept
    | with_reducible first | apply State.modCxl_kept | apply State.linkUp_kept | apply KeptR.ite
    | with_reducible first | apply KeptR.fault
    | intro _
    | split
    | (simp; done)

@[simp] theorem execLinkDown_kept (hk : Kept fx s₀ s) : KeptR fx s₀ (execLinkDown s) := by
  simp only [execLinkDown, KeptR.next]
  repeat' first
    | with_reducible exact hk
    | simp only [Kept.of_record, KeptP.fold, KeptR.next]
    | with_reducible first | apply Kept.refl | apply Kept.ite | apply State.log_kept | apply State.modCxl_kept
    | with_reducible first | apply KeptR.ite | apply KeptR.fault
    | intro _
    | split
    | (simp; done)

@[simp] theorem State.sendPend_kept (v : Nat) (hk : Kept fx s₀ s) : Kept fx s₀ (State.sendPend s v) := by
  simp only [State.sendPend]
  repeat' first
    | with_reducible exact hk
    | simp only [Kept.of_record, KeptP.fold]
    | with_reducible first | apply Kept.refl | apply Kept.ite | apply State.modCxl_kept | apply State.emit_kept
    | intro _
    | split
    | (simp; done)

@[simp] theorem State.sendAll_kept (hk : Kept fx s₀ s) : Kept fx s₀ (State.sendAll s) := by
  simp [State.sendAll, hk]

@[simp] theorem State.maskVec_kept (v : Nat) (mask : Bool) (hk : Kept fx s₀ s) : Kept fx s₀ (State.maskVec s v mask) := by
  simp [State.maskVec, hk]

@[simp] theorem execMsixUnmask_kept (v : Fin 64) (hk : Kept fx s₀ s) : KeptR fx s₀ (execMsixUnmask v s) := by
  simp [execMsixUnmask, hk]

@[simp] theorem State.enableFn_kept (msix master : Bool) (hk : Kept fx s₀ s) :
    Kept fx s₀ (State.enableFn s msix master) := by
  simp [State.enableFn, hk]

@[simp] theorem State.cmdFlr_kept (hk : Kept fx s₀ s) : Kept fx s₀ (State.cmdFlr s) := by
  simp only [State.cmdFlr]
  repeat' first
    | with_reducible exact hk
    | simp only [Kept.of_record, KeptP.fold]
    | with_reducible first | apply Kept.refl | apply Kept.ite | apply Kept.foldl | apply State.unstart_kept
    | with_reducible first | apply State.resetRange_kept
    | intro _
    | split
    | (simp; done)

@[simp] theorem State.netFlr_kept (hk : Kept fx s₀ s) : Kept fx s₀ (State.netFlr s) := by
  simp only [State.netFlr]
  repeat' first
    | with_reducible exact hk
    | simp only [Kept.of_record, KeptP.fold]
    | with_reducible first | apply Kept.refl | apply Kept.ite | apply Kept.foldl | apply State.wn_kept
    | with_reducible first | apply State.modNet_kept | apply State.wr_kept
    | intro _
    | split
    | (simp; done)

@[simp] theorem execFlr_kept (hk : Kept false s₀ s) : KeptR false s₀ (execFlr s) := by
  simp only [execFlr, KeptR.next]
  repeat' first
    | with_reducible exact hk
    | simp only [Kept.of_record, KeptP.fold, KeptR.next]
    | with_reducible first | apply Kept.refl | apply Kept.ite | apply Kept.foldl | apply State.masterReset_kept
    | with_reducible first | apply State.encFlr_kept | apply State.cmpFlr_kept | apply State.vqResetEnd_kept
    | with_reducible first | apply State.dflLost_kept | apply State.modCxl_kept | apply State.cmdFlr_kept
    | with_reducible first | apply State.netFlr_kept | apply State.vqFlr_kept | apply State.wr_kept
    | with_reducible first | apply KeptR.ite | apply KeptR.fault
    | intro _
    | split
    | (simp; done)

end Sys2Proof.Machine
end

