-- ==== Sys2Proof/Laws/KeptDev.lean ====
section
/-!
SUPPORT. What the operations of Machine/Dev.lean keep.
-/
namespace Sys2Proof.Machine
open Sys2Proof

set_option linter.unusedSimpArgs false

variable {fx : Bool} {s₀ s : State}

@[simp] theorem execNop_kept (p : Pkt) (hk : Kept fx s₀ s) : KeptR fx s₀ (execNop p s) := by
  simp [execNop, hk]

@[simp] theorem execDevStatus_kept (p : Pkt) (hk : Kept fx s₀ s) : KeptR fx s₀ (execDevStatus p s) := by
  simp [execDevStatus, hk]

@[simp] theorem execDevGetFingerprint_kept (p : Pkt) (hk : Kept fx s₀ s) : KeptR fx s₀ (execDevGetFingerprint p s) := by
  simp only [execDevGetFingerprint, KeptR.next]
  repeat' first
    | with_reducible exact hk
    | simp only [Kept.of_record, KeptP.fold, KeptB.pair, KeptR.next]
    | with_reducible first | apply Kept.refl | apply Kept.ite | apply KeptB.ite | apply Kept.fst | apply runOp_kept
    | with_reducible first | apply KeptR.ite | apply KeptR.fault
    | with_reducible refine Kept.of_fst ‹_› ?_
    | intro _
    | split
    | (simp; done)

@[simp] theorem execDltRefresh_kept (p : Pkt) (hk : Kept false s₀ s) : KeptR false s₀ (execDltRefresh p s) := by
  simp only [execDltRefresh, KeptR.next]
  repeat' first
    | with_reducible exact hk
    | simp only [Kept.of_record, KeptP.fold, KeptB.pair, KeptR.next]
    | with_reducible first | apply Kept.refl | apply Kept.ite | apply KeptB.ite | apply Kept.fst | apply runOp_kept
    | with_reducible first | apply State.publish_kept | apply State.writeRef_kept | apply State.refGuard_kept
    | with_reducible first | apply State.writeHost_kept | apply KeptR.ite | apply KeptR.fault
    | with_reducible refine Kept.of_fst ‹_› ?_
    | intro _
    | split
    | (simp; done)

@[simp] theorem execEvtDrain_kept (p : Pkt) (hk : Kept false s₀ s) : KeptR false s₀ (execEvtDrain p s) := by
  simp only [execEvtDrain, KeptR.next]
  repeat' first
    | with_reducible exact hk
    | simp only [Kept.of_record, KeptP.fold, KeptB.pair, KeptR.next]
    | with_reducible first | apply Kept.refl | apply Kept.ite | apply KeptB.ite | apply Kept.fst | apply runOp_kept
    | with_reducible first | apply State.wn_kept | apply State.writeRef_kept | apply State.refGuard_kept
    | with_reducible first | apply State.start_kept | apply KeptR.ite | apply KeptR.fault
    | with_reducible refine Kept.of_fst ‹_› ?_
    | intro _
    | split
    | (simp; done)

@[simp] theorem execEvtErrClear_kept (hk : Kept fx s₀ s) : KeptR fx s₀ (execEvtErrClear s) := by
  simp [execEvtErrClear, hk]

end Sys2Proof.Machine
end

