-- ==== Sys2Proof/Laws/KeptArb.lean ====
section
/-!
SUPPORT. What the operations of Machine/Arb.lean keep.
-/
namespace Sys2Proof.Machine
open Sys2Proof

set_option linter.unusedSimpArgs false

variable {fx : Bool} {s₀ s : State}

@[simp] theorem State.dmcServe_kept (l : List DmcReq) (hk : Kept fx s₀ s) : KeptB fx s₀ (State.dmcServe s l) := by
  simp [State.dmcServe, hk]

end Sys2Proof.Machine
end

