-- ==== Sys2Proof/Laws/KeptBounds.lean ====
section
/-!
SUPPORT. What the operations of Machine/Bounds.lean keep.
-/
namespace Sys2Proof.Machine
open Sys2Proof

set_option linter.unusedSimpArgs false

variable {fx : Bool} {s₀ s : State}

@[simp] theorem State.runAfter_kept (hk : Kept false s₀ s) : Kept false s₀ (State.runAfter s) := by
  simp only [State.runAfter]
  repeat' first
    | with_reducible exact hk
    | simp only [Kept.of_record, KeptP.fold]
    | with_reducible first | apply Kept.refl | apply Kept.ite | apply State.warmReset_kept
    | with_reducible first | apply State.enterSleep_kept
    | intro _
    | split
    | (simp; done)

@[simp] theorem State.afterEnd_kept (opcode : Nat) (hk : Kept false s₀ s) : Kept false s₀ (State.afterEnd s opcode) := by
  simp only [State.afterEnd]
  repeat' first
    | with_reducible exact hk
    | simp only [Kept.of_record, KeptP.fold]
    | with_reducible first | apply Kept.refl | apply Kept.ite | apply State.coresRestart_kept
    | with_reducible first | apply State.runAfter_kept
    | intro _
    | split
    | (simp; done)

@[simp] theorem State.dropAfter_kept (h : Hdr) (o : Outc) (hk : Kept fx s₀ s) : Kept fx s₀ (State.dropAfter s h o) := by
  simp [State.dropAfter, hk]

@[simp] theorem execPacketComplete_kept (ring : Fin 4) (seq : W32) (hk : Kept false s₀ s) :
    KeptR false s₀ (execPacketComplete ring seq s) := by
  simp only [execPacketComplete, KeptR.next]
  repeat' first
    | with_reducible exact hk
    | simp only [Kept.of_record, KeptP.fold, KeptR.next]
    | with_reducible first | apply Kept.refl | apply Kept.ite | apply State.complete_kept
    | with_reducible first | apply State.dropAfter_kept | apply State.afterEnd_kept | apply KeptR.ite
    | with_reducible first | apply KeptR.fault
    | intro _
    | split
    | (simp; done)

@[simp] theorem State.giveUpB_kept (h : Hdr) (hk : Kept fx s₀ s) : Kept fx s₀ (State.giveUpB s h) := by
  simp only [State.giveUpB]
  repeat' first
    | with_reducible exact hk
    | simp only [Kept.of_record, KeptP.fold]
    | with_reducible first | apply Kept.refl | apply Kept.ite | apply State.deferB_kept | apply State.modTst_kept
    | with_reducible first | apply State.modFlash_kept
    | intro _
    | split
    | (simp; done)

@[simp] theorem State.expire_kept (e : Started) (hk : Kept fx s₀ s) : Kept fx s₀ (State.expire s e) := by
  simp only [State.expire]
  repeat' first
    | with_reducible exact hk
    | simp only [Kept.of_record, KeptP.fold]
    | with_reducible first | apply Kept.refl | apply Kept.ite | apply State.bumpEvt_kept | apply State.deliver_kept
    | with_reducible first | apply State.complete_kept | apply State.vqResetEnd_kept | apply State.dropAfter_kept
    | with_reducible first | apply State.giveUpB_kept
    | intro _
    | split
    | (simp; done)

@[simp] theorem execReplyBoundExpiry_kept (ring : Fin 4) (seq : W32) (opcode : BitVec 16) (hk : Kept false s₀ s) :
    KeptR false s₀ (execReplyBoundExpiry ring seq opcode s) := by
  simp only [execReplyBoundExpiry, KeptR.next]
  repeat' first
    | with_reducible exact hk
    | simp only [Kept.of_record, KeptP.fold, KeptR.next]
    | with_reducible first | apply Kept.refl | apply Kept.ite | apply State.expire_kept | apply State.afterEnd_kept
    | with_reducible first | apply KeptR.ite | apply KeptR.fault
    | intro _
    | split
    | (simp; done)

@[simp] theorem execCmdLateDone_kept (ring : Fin 4) (seq : W32) (hk : Kept false s₀ s) :
    KeptR false s₀ (execCmdLateDone ring seq s) := by
  simp only [execCmdLateDone, KeptR.next]
  repeat' first
    | with_reducible exact hk
    | simp only [Kept.of_record, KeptP.fold, KeptR.next]
    | with_reducible first | apply Kept.refl | apply Kept.ite | apply State.log_kept | apply State.unstart_kept
    | with_reducible first | apply State.dropAfter_kept | apply State.afterEnd_kept | apply KeptR.ite
    | with_reducible first | apply KeptR.fault
    | intro _
    | split
    | (simp; done)

@[simp] theorem execCmdRpHead_kept (ring : Fin 4) (v : W32) (hk : Kept false s₀ s) :
    KeptR false s₀ (execCmdRpHead ring v s) := by
  simp only [execCmdRpHead, KeptR.next]
  repeat' first
    | with_reducible exact hk
    | simp only [Kept.of_record, KeptP.fold, KeptR.next]
    | with_reducible first | apply Kept.refl | apply Kept.ite | apply State.setF_kept | apply State.raise_kept
    | with_reducible first | apply State.flushHeld_kept | apply State.afterEnd_kept | apply KeptR.ite
    | with_reducible first | apply KeptR.fault
    | intro _
    | split
    | (simp; done)

@[simp] theorem State.dmcServed_kept (t : DmcTick) (hk : Kept fx s₀ s) : Kept fx s₀ (State.dmcServed s t) := by
  simp only [State.dmcServed]
  repeat' first
    | with_reducible exact hk
    | simp only [Kept.of_record, KeptP.fold, KeptB.pair]
    | with_reducible first | apply Kept.refl | apply Kept.ite | apply Kept.foldl | apply KeptB.ite | apply Kept.fst
    | with_reducible first | apply State.wn_kept | apply State.bumpStat_kept | apply State.highWater_kept
    | with_reducible first | apply State.log_kept | apply State.dmcServe_kept
    | with_reducible refine Kept.of_fst ‹_› ?_
    | intro _
    | split
    | (simp; done)

@[simp] theorem State.budget_kept (t : DmcTick) (hk : Kept fx s₀ s) : Kept fx s₀ (State.budget s t) := by
  simp only [State.budget]
  repeat' first
    | with_reducible exact hk
    | simp only [Kept.of_record, KeptP.fold]
    | with_reducible first | apply Kept.refl | apply Kept.ite | apply State.wn_kept | apply State.setF_kept
    | with_reducible first | apply State.modPwr_kept
    | intro _
    | split
    | (simp; done)

@[simp] theorem State.ladderTick_kept (hk : Kept fx s₀ s) : Kept fx s₀ (State.ladderTick s) := by
  simp only [State.ladderTick]
  repeat' first
    | with_reducible exact hk
    | simp only [Kept.of_record, KeptP.fold]
    | with_reducible first | apply Kept.refl | apply Kept.ite | apply State.takeStep_kept
    | intro _
    | split
    | (simp; done)

@[simp] theorem State.overK_kept (hk : Kept fx s₀ s) : Kept fx s₀ (State.overK s) := by
  simp only [State.overK]
  repeat' first
    | with_reducible exact hk
    | simp only [Kept.of_record, KeptP.fold]
    | with_reducible first | apply Kept.refl | apply Kept.ite | apply State.setB_kept | apply State.raise_kept
    | with_reducible first | apply State.log_kept | apply State.pwrErr_kept
    | intro _
    | split
    | (simp; done)

@[simp] theorem State.startAdmitted_kept (hk : Kept fx s₀ s) : Kept fx s₀ (State.startAdmitted s) := by
  simp only [State.startAdmitted]
  repeat' first
    | with_reducible exact hk
    | simp only [Kept.of_record, KeptP.fold]
    | with_reducible first | apply Kept.refl | apply Kept.ite | apply Kept.foldl | apply State.decAdmitted_kept
    | with_reducible first | apply State.beginTest_kept | apply State.stageDo_kept
    | intro _
    | split
    | (simp; done)

@[simp] theorem execBudgetTick_kept (t : DmcTick) (hk : Kept fx s₀ s) : KeptR fx s₀ (execBudgetTick t s) := by
  simp only [execBudgetTick, KeptR.next]
  repeat' first
    | with_reducible exact hk
    | simp only [Kept.of_record, KeptP.fold, KeptR.next]
    | with_reducible first | apply Kept.refl | apply Kept.ite | apply State.admitHead_kept
    | with_reducible first | apply State.modCxl_kept | apply State.dmcServed_kept | apply State.budget_kept
    | with_reducible first | apply State.ladderTick_kept | apply State.overK_kept | apply State.startAdmitted_kept
    | with_reducible first | apply KeptR.ite | apply KeptR.fault
    | intro _
    | split
    | (simp; done)

end Sys2Proof.Machine
end

