-- ==== Sys2Proof/Laws/KeptRegisters.lean ====
section
/-!
SUPPORT. What the operations of Machine/Registers.lean keep.
-/
namespace Sys2Proof.Machine
open Sys2Proof

set_option linter.unusedSimpArgs false

variable {fx : Bool} {s₀ s : State}

@[simp] theorem State.readClear_kept (a : Nat) (hk : Kept fx s₀ s) : Kept fx s₀ (State.readClear s a) := by
  simp only [State.readClear]
  repeat' first
    | with_reducible exact hk
    | simp only [Kept.of_record, KeptP.fold]
    | with_reducible first | apply Kept.refl | apply Kept.ite | apply State.modPwr_kept | apply State.wr_kept
    | intro _
    | split
    | (simp; done)

@[simp] theorem State.regRead_kept (m : Byte) (a : Nat) (hk : Kept fx s₀ s) : KeptR fx s₀ (State.regRead s m a) := by
  simp only [State.regRead, KeptR.next]
  repeat' first
    | with_reducible exact hk
    | simp only [Kept.of_record, KeptP.fold, KeptR.next]
    | with_reducible first | apply Kept.refl | apply Kept.ite | apply execSemAcquire_kept | apply State.hold_kept
    | with_reducible first | apply execTimNowNs_kept | apply State.readClear_kept | apply State.emit_kept
    | with_reducible first | apply KeptR.ite | apply KeptR.fault
    | intro _
    | split
    | (simp; done)

@[simp] theorem State.bar2Read_kept (m : Byte) (a : Nat) (hk : Kept fx s₀ s) : KeptR fx s₀ (State.bar2Read s m a) := by
  simp only [State.bar2Read, KeptR.next]
  repeat' first
    | with_reducible exact hk
    | simp only [Kept.of_record, KeptP.fold, KeptR.next]
    | with_reducible first | apply Kept.refl | apply Kept.ite | apply State.windowRead_kept | apply State.emit_kept
    | with_reducible first | apply KeptR.ite | apply KeptR.fault
    | intro _
    | split
    | (simp; done)

@[simp] theorem State.bar4Read_kept (a : Nat) (hk : Kept fx s₀ s) : KeptR fx s₀ (State.bar4Read s a) := by
  simp only [State.bar4Read, KeptR.next]
  repeat' first
    | with_reducible exact hk
    | simp only [Kept.of_record, KeptP.fold, KeptS.pair, KeptR.next]
    | with_reducible first | apply Kept.refl | apply Kept.ite | apply KeptS.ite | apply Kept.snd
    | with_reducible first | apply State.emit_kept | apply State.draw_kept | apply KeptR.ite | apply KeptR.fault
    | with_reducible refine Kept.of_snd ‹_› ?_
    | intro _
    | split
    | (simp; done)

@[simp] theorem State.cfgRead_kept (f : CfgField) (hk : Kept fx s₀ s) : KeptR fx s₀ (State.cfgRead s f) := by
  simp [State.cfgRead, hk]

@[simp] theorem State.locRead_kept (m : Byte) (l : Loc) (hk : Kept fx s₀ s) : KeptR fx s₀ (State.locRead s m l) := by
  simp only [State.locRead, KeptR.next]
  repeat' first
    | with_reducible exact hk
    | simp only [Kept.of_record, KeptP.fold, KeptR.next]
    | with_reducible first | apply Kept.refl | apply Kept.ite | apply State.regRead_kept
    | with_reducible first | apply State.bar2Read_kept | apply State.bar4Read_kept | apply State.cfgRead_kept
    | with_reducible first | apply KeptR.ite | apply KeptR.fault
    | intro _
    | split
    | (simp; done)

@[simp] theorem execReadClear_kept (master : Byte) (loc : Loc) (hk : Kept fx s₀ s) :
    KeptR fx s₀ (execReadClear master loc s) := by
  simp [execReadClear, hk]

@[simp] theorem execLowWordRead_kept (master : Byte) (loc : Loc) (hk : Kept fx s₀ s) :
    KeptR fx s₀ (execLowWordRead master loc s) := by
  simp [execLowWordRead, hk]

@[simp] theorem State.writePlain_kept (a v : Nat) (free : Bool) (hk : Kept fx s₀ s) :
    Kept fx s₀ (State.writePlain s a v free) := by
  simp only [State.writePlain]
  repeat' first
    | with_reducible exact hk
    | simp only [Kept.of_record, KeptP.fold]
    | with_reducible first | apply Kept.refl | apply Kept.ite | apply State.wr_kept
    | intro _
    | split
    | (simp; done)

@[simp] theorem State.writeCmd_kept (a i v : Nat) (hk : Kept false s₀ s) : KeptR false s₀ (State.writeCmd s a i v) := by
  simp only [State.writeCmd, KeptR.next]
  repeat' first
    | with_reducible exact hk
    | simp only [Kept.of_record, KeptP.fold, KeptR.next]
    | with_reducible first | apply Kept.refl | apply Kept.ite | apply State.setF_kept | apply State.raise_kept
    | with_reducible first | apply execCmdDb_kept | apply State.writePlain_kept | apply execCmdRpHead_kept
    | with_reducible first | apply KeptR.ite | apply KeptR.fault
    | intro _
    | split
    | (simp; done)

@[simp] theorem State.writeMbx_kept (m : Byte) (a i v : Nat) (hk : Kept fx s₀ s) : KeptR fx s₀ (State.writeMbx s m a i v) := by
  unfold State.writeMbx
  refine KeptR.ite (KeptR.ite (by simp [hk]) (by simp [hk])) (KeptR.ite (KeptR.ite (by simp [hk]) ?_) (KeptR.ite (by simp [hk]) (by simp [hk])))
  rw [KeptR.next]
  cases e : s.bindChannel i v with
  | none => exact hk
  | some t => exact (State.bindChannel_kept i v hk).some_kept t e

@[simp] theorem State.writeLnkCfg_kept (a i v : Nat) (hk : Kept fx s₀ s) : Kept fx s₀ (State.writeLnkCfg s a i v) := by
  simp only [State.writeLnkCfg]
  repeat' first
    | with_reducible exact hk
    | simp only [Kept.of_record, KeptP.fold]
    | with_reducible first | apply Kept.refl | apply Kept.ite | apply Kept.foldl | apply State.setF_kept
    | with_reducible first | apply State.raise_kept | apply State.modPt_kept | apply State.lockCheck_kept
    | with_reducible first | apply State.setQmap_kept | apply State.driveTrg_kept | apply State.setPat_kept
    | with_reducible first | apply State.injectBits_kept | apply State.writePlain_kept
    | with_reducible first | apply State.powerLanes_kept
    | intro _
    | split
    | (simp; done)

@[simp] theorem State.writeRaw_kept (a i v : Nat) (hk : Kept fx s₀ s) : Kept fx s₀ (State.writeRaw s a i v) := by
  simp only [State.writeRaw]
  repeat' first
    | with_reducible exact hk
    | simp only [Kept.of_record, KeptP.fold]
    | with_reducible first | apply Kept.refl | apply Kept.ite | apply State.raise_kept | apply State.modRw_kept
    | with_reducible first | apply State.writePlain_kept
    | intro _
    | split
    | (simp; done)

@[simp] theorem State.writeClr_kept (a i v : Nat) (hk : Kept fx s₀ s) : Kept fx s₀ (State.writeClr s a i v) := by
  simp [State.writeClr, hk]

@[simp] theorem State.writeTap_kept (a i v : Nat) (hk : Kept fx s₀ s) : KeptR fx s₀ (State.writeTap s a i v) := by
  simp only [State.writeTap, KeptR.next]
  repeat' first
    | with_reducible exact hk
    | simp only [Kept.of_record, KeptP.fold, KeptR.next]
    | with_reducible first | apply Kept.refl | apply Kept.ite | apply State.raise_kept | apply execTapHoldSet_kept
    | with_reducible first | apply State.writePlain_kept | apply KeptR.ite | apply KeptR.fault
    | intro _
    | split
    | (simp; done)

@[simp] theorem State.writeVq_kept (a i v : Nat) (hk : Kept fx s₀ s) : KeptR fx s₀ (State.writeVq s a i v) := by
  simp only [State.writeVq, KeptR.next]
  repeat' first
    | with_reducible exact hk
    | simp only [Kept.of_record, KeptP.fold, KeptR.next]
    | with_reducible first | apply Kept.refl | apply Kept.ite | apply State.setF_kept | apply execVqSqDb_kept
    | with_reducible first | apply State.writePlain_kept | apply execVqCqHead_kept | apply KeptR.ite
    | with_reducible first | apply KeptR.fault
    | intro _
    | split
    | (simp; done)

@[simp] theorem State.writeCdc_kept (a i v : Nat) (hk : Kept fx s₀ s) : KeptR fx s₀ (State.writeCdc s a i v) := by
  simp only [State.writeCdc, KeptR.next]
  repeat' first
    | with_reducible exact hk
    | simp only [Kept.of_record, KeptP.fold, KeptR.next]
    | with_reducible first | apply Kept.refl | apply Kept.ite | apply State.raise_kept | apply execCdcDrHead_kept
    | with_reducible first | apply execCdcDdHead_kept | apply State.writePlain_kept | apply KeptR.ite
    | with_reducible first | apply KeptR.fault
    | intro _
    | split
    | (simp; done)

@[simp] theorem State.writeDmc_kept (a v : Nat) (hk : Kept fx s₀ s) : KeptR fx s₀ (State.writeDmc s a v) := by
  simp only [State.writeDmc, KeptR.next]
  repeat' first
    | with_reducible exact hk
    | simp only [Kept.of_record, KeptP.fold, KeptR.next]
    | with_reducible first | apply Kept.refl | apply Kept.ite | apply State.rwlDenied_kept | apply execDlyLock_kept
    | with_reducible first | apply State.writePlain_kept | apply KeptR.ite | apply KeptR.fault
    | intro _
    | split
    | (simp; done)

@[simp] theorem State.writeTst_kept (m : Byte) (a v : Nat) (hk : Kept fx s₀ s) : Kept fx s₀ (State.writeTst s m a v) := by
  simp only [State.writeTst]
  repeat' first
    | with_reducible exact hk
    | simp only [Kept.of_record, KeptP.fold]
    | with_reducible first | apply Kept.refl | apply Kept.ite | apply State.raise_kept | apply State.testStart_kept
    | with_reducible first | apply State.writePlain_kept
    | intro _
    | split
    | (simp; done)

@[simp] theorem State.regWrite_kept (m : Byte) (a v : Nat) (hk : Kept false s₀ s) :
    KeptR false s₀ (State.regWrite s m a v) := by
  simp only [State.regWrite, KeptR.next]
  repeat' first
    | with_reducible exact hk
    | simp only [Kept.of_record, KeptP.fold, KeptR.next]
    | with_reducible first | apply Kept.refl | apply Kept.ite | apply State.commitSince_kept
    | with_reducible first | apply State.tallies_kept | apply execWbHoldSet_kept | apply execNetDb_kept
    | with_reducible first | apply execEvtErrClear_kept | apply State.writePlain_kept | apply State.writeMbx_kept
    | with_reducible first | apply State.writeLnkCfg_kept | apply State.writeRaw_kept | apply State.writeClr_kept
    | with_reducible first | apply State.writeTap_kept | apply State.writeCdc_kept | apply State.writeDmc_kept
    | with_reducible first | apply State.writeTst_kept | apply State.writeCmd_kept | apply State.writeVq_kept
    | with_reducible first | apply KeptR.ite | apply KeptR.fault
    | intro _
    | split
    | (simp; done)

@[simp] theorem State.writeChStat_kept (m : Byte) (n v : Nat) (hk : Kept fx s₀ s) :
    Kept fx s₀ (State.writeChStat s m n v) := by
  simp only [State.writeChStat]
  repeat' first
    | with_reducible exact hk
    | simp only [Kept.of_record, KeptP.fold]
    | with_reducible first | apply Kept.refl | apply Kept.ite | apply State.mbxSet_kept | apply State.mbxDeny_kept
    | intro _
    | split
    | (simp; done)

@[simp] theorem State.bar2Write_kept (m : Byte) (a : Nat) (v : W32) (hk : Kept fx s₀ s) :
    KeptR fx s₀ (State.bar2Write s m a v) := by
  simp only [State.bar2Write, KeptR.next]
  repeat' first
    | with_reducible exact hk
    | simp only [Kept.of_record, KeptP.fold, KeptR.next]
    | with_reducible first | apply Kept.refl | apply Kept.ite | apply State.mbxDeny_kept | apply execTxData_kept
    | with_reducible first | apply State.writeChStat_kept | apply State.writeBar2_kept | apply KeptR.ite
    | with_reducible first | apply KeptR.fault
    | intro _
    | split
    | (simp; done)

@[simp] theorem State.bar4Write_kept (a : Nat) (v : W32) (hk : Kept fx s₀ s) : KeptR fx s₀ (State.bar4Write s a v) := by
  simp only [State.bar4Write, KeptR.next]
  repeat' first
    | with_reducible exact hk
    | simp only [Kept.of_record, KeptP.fold, KeptR.next]
    | with_reducible first | apply Kept.refl | apply Kept.ite | apply State.modCxl_kept | apply State.maskVec_kept
    | with_reducible first | apply KeptR.ite | apply KeptR.fault
    | intro _
    | split
    | (simp; done)

@[simp] theorem State.cfgPut_kept (f : CfgField) (v : Nat) (hk : Kept fx s₀ s) : Kept fx s₀ (State.cfgPut s f v) := by
  simp only [State.cfgPut]
  repeat' first
    | with_reducible exact hk
    | simp only [Kept.of_record, KeptP.fold]
    | with_reducible first | apply Kept.refl | apply Kept.ite | apply State.modCxl_kept | apply State.enableFn_kept
    | intro _
    | split
    | (simp; done)

@[simp] theorem State.cfgWrite_kept (f : CfgField) (v : Nat) (hk : Kept fx s₀ s) : KeptR fx s₀ (State.cfgWrite s f v) := by
  simp [State.cfgWrite, hk]

@[simp] theorem execRegisterWrite_kept (master : Byte) (loc : Loc) (v : W32) (hk : Kept false s₀ s) :
    KeptR false s₀ (execRegisterWrite master loc v s) := by
  simp only [execRegisterWrite, KeptR.next]
  repeat' first
    | with_reducible exact hk
    | simp only [Kept.of_record, KeptP.fold, KeptR.next]
    | with_reducible first | apply Kept.refl | apply Kept.ite | apply State.bar2Write_kept
    | with_reducible first | apply State.regWrite_kept | apply State.bar4Write_kept | apply State.cfgWrite_kept
    | with_reducible first | apply KeptR.ite | apply KeptR.fault
    | intro _
    | split
    | (simp; done)

end Sys2Proof.Machine
end

