-- ==== Sys2Proof/Laws/Runs.lean ====
section
/-!
SUPPORT. Which commands complete: every command but a CXL.mem request or a register access answers a next state.
-/
namespace Sys2Proof.Machine
open Sys2Proof

/-- An outcome that is a next state. -/
structure Runs (r : Res) : Prop where
  out : ∃ t, r = .next t

variable {s : State} {r q : Res}

theorem Runs.next (s : State) : Runs (.next s) := ⟨s, rfl⟩
theorem Runs.ite {c : Prop} {_ : Decidable c} (h : Runs r) (k : Runs q) : Runs (if c then r else q) := by split <;> assumption

/-- A command whose arm answers a next state is not refused. -/
theorem Runs.safe (h : Runs r) (b : Prop) : (∀ x, r ≠ .refused x) ∧ (b → ∃ t, r = .next t) := by
  obtain ⟨t, rfl⟩ := h.out
  exact ⟨nofun, fun _ => ⟨t, rfl⟩⟩

theorem execPacketFetch_runs (ring : Fin 4) (slot : Slot) (s : State) : Runs (execPacketFetch ring slot s) := by
  unfold execPacketFetch
  repeat' with_reducible first | exact .next _ | refine .ite ?_ ?_ | split | dsimp only
theorem execFwqUrgentAge_runs (ring : Fin 4) (seq : W32) (s : State) : Runs (execFwqUrgentAge ring seq s) := by
  unfold execFwqUrgentAge
  repeat' with_reducible first | exact .next _ | refine .ite ?_ ?_ | split | dsimp only
theorem execCmdRpStall_runs (ring : Fin 4) (s : State) : Runs (execCmdRpStall ring s) := by
  unfold execCmdRpStall
  repeat' with_reducible first | exact .next _ | refine .ite ?_ ?_ | split | dsimp only
theorem execCmdDb_runs (ring : Fin 4) (v : W32) (s : State) : Runs (execCmdDb ring v s) := by
  unfold execCmdDb
  repeat' with_reducible first | exact .next _ | refine .ite ?_ ?_ | split | dsimp only
theorem execTxData_runs (m : Byte) (ch : Fin 16) (w : W32) (s : State) : Runs (execTxData m ch w s) := by
  unfold execTxData
  repeat' with_reducible first | exact .next _ | refine .ite ?_ ?_ | split | dsimp only
theorem execRxWordLo_runs (m : Byte) (ch : Fin 16) (s : State) : Runs (execRxWordLo m ch s) := by
  unfold execRxWordLo
  repeat' with_reducible first | exact .next _ | refine .ite ?_ ?_ | split | dsimp only
theorem State.windowRead_runs (s : State) (m : Byte) (n o : Nat) : Runs (State.windowRead s m n o) := by
  unfold State.windowRead
  repeat' with_reducible first | exact .next _ | refine .ite ?_ ?_ | exact execRxWordLo_runs _ _ _ | split | dsimp only
theorem execMbxTmo_runs (ch : Fin 16) (toB : Bool) (s : State) : Runs (execMbxTmo ch toB s) := by
  unfold execMbxTmo
  repeat' with_reducible first | exact .next _ | refine .ite ?_ ?_ | split | dsimp only
theorem execCoreReset_runs (core : Fin 4) (s : State) : Runs (execCoreReset core s) := by
  unfold execCoreReset
  repeat' with_reducible first | exact .next _ | refine .ite ?_ ?_ | split | dsimp only
theorem execHvmBridgeRestart_runs (s : State) : Runs (execHvmBridgeRestart s) := by
  unfold execHvmBridgeRestart
  repeat' with_reducible first | exact .next _ | refine .ite ?_ ?_ | split | dsimp only
theorem execSemAcquire_runs (m : Byte) (n : Fin 32) (s : State) : Runs (execSemAcquire m n s) := by
  unfold execSemAcquire
  repeat' with_reducible first | exact .next _ | refine .ite ?_ ?_ | split | dsimp only
theorem execSemRelease_runs (m : Byte) (n : Fin 32) (s : State) : Runs (execSemRelease m n s) := by
  unfold execSemRelease
  repeat' with_reducible first | exact .next _ | refine .ite ?_ ?_ | split | dsimp only
theorem execMbxCtrlLock_runs (s : State) : Runs (execMbxCtrlLock s) := by
  unfold execMbxCtrlLock
  repeat' with_reducible first | exact .next _ | refine .ite ?_ ?_ | split | dsimp only
theorem execMbxBind_runs (p : Pkt) (s : State) : Runs (execMbxBind p s) := by
  unfold execMbxBind
  repeat' with_reducible first | exact .next _ | refine .ite ?_ ?_ | split | dsimp only
theorem execMbxLock_runs (p : Pkt) (s : State) : Runs (execMbxLock p s) := by
  unfold execMbxLock
  repeat' with_reducible first | exact .next _ | refine .ite ?_ ?_ | split | dsimp only
theorem execSemForceRelease_runs (p : Pkt) (s : State) : Runs (execSemForceRelease p s) := by
  unfold execSemForceRelease
  repeat' with_reducible first | exact .next _ | refine .ite ?_ ?_ | split | dsimp only
theorem execRecPress_runs (src : Fin 3) (s : State) : Runs (execRecPress src s) := by
  unfold execRecPress
  repeat' with_reducible first | exact .next _ | refine .ite ?_ ?_ | split | dsimp only
theorem execRecRelease_runs (src : Fin 3) (s : State) : Runs (execRecRelease src s) := by
  unfold execRecRelease
  repeat' with_reducible first | exact .next _ | refine .ite ?_ ?_ | split | dsimp only
theorem execUbMark_runs (ub : Fin 2) (s : State) : Runs (execUbMark ub s) := by
  unfold execUbMark
  repeat' with_reducible first | exact .next _ | refine .ite ?_ ?_ | split | dsimp only
theorem execRecFailFlashEnd_runs (s : State) : Runs (execRecFailFlashEnd s) := by
  unfold execRecFailFlashEnd
  repeat' with_reducible first | exact .next _ | refine .ite ?_ ?_ | split | dsimp only
theorem execTakeOpen_runs (p : Pkt) (s : State) : Runs (execTakeOpen p s) := by
  unfold execTakeOpen
  repeat' with_reducible first | exact .next _ | refine .ite ?_ ?_ | split | dsimp only
theorem execTakeClose_runs (p : Pkt) (s : State) : Runs (execTakeClose p s) := by
  unfold execTakeClose
  repeat' with_reducible first | exact .next _ | refine .ite ?_ ?_ | split | dsimp only
theorem execVltPin_runs (p : Pkt) (s : State) : Runs (execVltPin p s) := by
  unfold execVltPin
  repeat' with_reducible first | exact .next _ | refine .ite ?_ ?_ | split | dsimp only
theorem execVltUnpin_runs (p : Pkt) (s : State) : Runs (execVltUnpin p s) := by
  unfold execVltUnpin
  repeat' with_reducible first | exact .next _ | refine .ite ?_ ?_ | split | dsimp only
theorem execVltQueryFrame_runs (p : Pkt) (s : State) : Runs (execVltQueryFrame p s) := by
  unfold execVltQueryFrame
  repeat' with_reducible first | exact .next _ | refine .ite ?_ ?_ | split | dsimp only
theorem execRecConfig_runs (p : Pkt) (s : State) : Runs (execRecConfig p s) := by
  unfold execRecConfig
  repeat' with_reducible first | exact .next _ | refine .ite ?_ ?_ | split | dsimp only
theorem execCtxCommit_runs (p : Pkt) (s : State) : Runs (execCtxCommit p s) := by
  unfold execCtxCommit
  repeat' with_reducible first | exact .next _ | refine .ite ?_ ?_ | split | dsimp only
theorem execCtxConfigure_runs (p : Pkt) (s : State) : Runs (execCtxConfigure p s) := by
  unfold execCtxConfigure
  repeat' with_reducible first | exact .next _ | refine .ite ?_ ?_ | split | dsimp only
theorem execCtxSetPolicy_runs (p : Pkt) (s : State) : Runs (execCtxSetPolicy p s) := by
  unfold execCtxSetPolicy
  repeat' with_reducible first | exact .next _ | refine .ite ?_ ?_ | split | dsimp only
theorem execCtxStatus_runs (p : Pkt) (s : State) : Runs (execCtxStatus p s) := by
  unfold execCtxStatus
  repeat' with_reducible first | exact .next _ | refine .ite ?_ ?_ | split | dsimp only
theorem execRawSetLin_runs (p : Pkt) (s : State) : Runs (execRawSetLin p s) := by
  unfold execRawSetLin
  repeat' with_reducible first | exact .next _ | refine .ite ?_ ?_ | split | dsimp only
theorem execRawSetBlack_runs (p : Pkt) (s : State) : Runs (execRawSetBlack p s) := by
  unfold execRawSetBlack
  repeat' with_reducible first | exact .next _ | refine .ite ?_ ?_ | split | dsimp only
theorem execRawSetMerge_runs (p : Pkt) (s : State) : Runs (execRawSetMerge p s) := by
  unfold execRawSetMerge
  repeat' with_reducible first | exact .next _ | refine .ite ?_ ?_ | split | dsimp only
theorem execRawLoadDefects_runs (p : Pkt) (s : State) : Runs (execRawLoadDefects p s) := by
  unfold execRawLoadDefects
  repeat' with_reducible first | exact .next _ | refine .ite ?_ ?_ | split | dsimp only
theorem execRawSetFormat_runs (p : Pkt) (s : State) : Runs (execRawSetFormat p s) := by
  unfold execRawSetFormat
  repeat' with_reducible first | exact .next _ | refine .ite ?_ ?_ | split | dsimp only
theorem execRawGetStats_runs (p : Pkt) (s : State) : Runs (execRawGetStats p s) := by
  unfold execRawGetStats
  repeat' with_reducible first | exact .next _ | refine .ite ?_ ?_ | split | dsimp only
theorem execClrSetShading_runs (p : Pkt) (s : State) : Runs (execClrSetShading p s) := by
  unfold execClrSetShading
  repeat' with_reducible first | exact .next _ | refine .ite ?_ ?_ | split | dsimp only
theorem execClrSetWbMatrix_runs (p : Pkt) (s : State) : Runs (execClrSetWbMatrix p s) := by
  unfold execClrSetWbMatrix
  repeat' with_reducible first | exact .next _ | refine .ite ?_ ?_ | split | dsimp only
theorem execClrSetWorkspace_runs (p : Pkt) (s : State) : Runs (execClrSetWorkspace p s) := by
  unfold execClrSetWorkspace
  repeat' with_reducible first | exact .next _ | refine .ite ?_ ?_ | split | dsimp only
theorem execClrGetZonestats_runs (p : Pkt) (s : State) : Runs (execClrGetZonestats p s) := by
  unfold execClrGetZonestats
  repeat' with_reducible first | exact .next _ | refine .ite ?_ ?_ | split | dsimp only
theorem execTapConfigure_runs (p : Pkt) (s : State) : Runs (execTapConfigure p s) := by
  unfold execTapConfigure
  repeat' with_reducible first | exact .next _ | refine .ite ?_ ?_ | split | dsimp only
theorem execTapLoadLut_runs (p : Pkt) (s : State) : Runs (execTapLoadLut p s) := by
  unfold execTapLoadLut
  repeat' with_reducible first | exact .next _ | refine .ite ?_ ?_ | split | dsimp only
theorem execTapEnable_runs (p : Pkt) (s : State) : Runs (execTapEnable p s) := by
  unfold execTapEnable
  repeat' with_reducible first | exact .next _ | refine .ite ?_ ?_ | split | dsimp only
theorem execTapDisable_runs (p : Pkt) (s : State) : Runs (execTapDisable p s) := by
  unfold execTapDisable
  repeat' with_reducible first | exact .next _ | refine .ite ?_ ?_ | split | dsimp only
theorem execStreamerSend_runs (stream : Fin 16) (s : State) : Runs (execStreamerSend stream s) := by
  unfold execStreamerSend
  repeat' with_reducible first | exact .next _ | refine .ite ?_ ?_ | split | dsimp only
theorem execCdcStreamCreate_runs (p : Pkt) (s : State) : Runs (execCdcStreamCreate p s) := by
  unfold execCdcStreamCreate
  repeat' with_reducible first | exact .next _ | refine .ite ?_ ?_ | split | dsimp only
theorem execCdcStreamStart_runs (p : Pkt) (s : State) : Runs (execCdcStreamStart p s) := by
  unfold execCdcStreamStart
  repeat' with_reducible first | exact .next _ | refine .ite ?_ ?_ | split | dsimp only
theorem execCdcStreamStop_runs (p : Pkt) (s : State) : Runs (execCdcStreamStop p s) := by
  unfold execCdcStreamStop
  repeat' with_reducible first | exact .next _ | refine .ite ?_ ?_ | split | dsimp only
theorem execCdcSetRate_runs (p : Pkt) (s : State) : Runs (execCdcSetRate p s) := by
  unfold execCdcSetRate
  repeat' with_reducible first | exact .next _ | refine .ite ?_ ?_ | split | dsimp only
theorem execCdcSetRoi_runs (p : Pkt) (s : State) : Runs (execCdcSetRoi p s) := by
  unfold execCdcSetRoi
  repeat' with_reducible first | exact .next _ | refine .ite ?_ ?_ | split | dsimp only
theorem execCdcForceIrap_runs (p : Pkt) (s : State) : Runs (execCdcForceIrap p s) := by
  unfold execCdcForceIrap
  repeat' with_reducible first | exact .next _ | refine .ite ?_ ?_ | split | dsimp only
theorem execCdcStreamerTemplate_runs (p : Pkt) (s : State) : Runs (execCdcStreamerTemplate p s) := by
  unfold execCdcStreamerTemplate
  repeat' with_reducible first | exact .next _ | refine .ite ?_ ?_ | split | dsimp only
theorem execCdcDrHead_runs (stream : Fin 16) (v : W32) (s : State) : Runs (execCdcDrHead stream v s) := by
  unfold execCdcDrHead
  repeat' with_reducible first | exact .next _ | refine .ite ?_ ?_ | split | dsimp only
theorem execCdcDdHead_runs (stream : Fin 16) (v : W32) (s : State) : Runs (execCdcDdHead stream v s) := by
  unfold execCdcDdHead
  repeat' with_reducible first | exact .next _ | refine .ite ?_ ?_ | split | dsimp only
theorem execSpoolDrain_runs (stream : Fin 16) (s : State) : Runs (execSpoolDrain stream s) := by
  unfold execSpoolDrain
  repeat' with_reducible first | exact .next _ | refine .ite ?_ ?_ | split | dsimp only
theorem execCdcRingStall_runs (stream : Fin 16) (s : State) : Runs (execCdcRingStall stream s) := by
  unfold execCdcRingStall
  repeat' with_reducible first | exact .next _ | refine .ite ?_ ?_ | split | dsimp only
theorem decodeRun_runs (p : Pkt) (s : State) : Runs (decodeRun p s) := by
  unfold decodeRun
  repeat' with_reducible first | exact .next _ | refine .ite ?_ ?_ | split | dsimp only
theorem execCdcDecodeOpen_runs (p : Pkt) (s : State) : Runs (execCdcDecodeOpen p s) := by
  unfold execCdcDecodeOpen
  repeat' with_reducible first | exact .next _ | refine .ite ?_ ?_ | exact decodeRun_runs _ _ | split | dsimp only
theorem execCdcDecodeData_runs (p : Pkt) (s : State) : Runs (execCdcDecodeData p s) := by
  unfold execCdcDecodeData
  repeat' with_reducible first | exact .next _ | refine .ite ?_ ?_ | exact decodeRun_runs _ _ | split | dsimp only
theorem execCdcDecodeClose_runs (p : Pkt) (s : State) : Runs (execCdcDecodeClose p s) := by
  unfold execCdcDecodeClose
  repeat' with_reducible first | exact .next _ | refine .ite ?_ ?_ | exact decodeRun_runs _ _ | split | dsimp only
theorem refMark_runs (p : Pkt) (s : State) : Runs (refMark p s) := by
  unfold refMark
  repeat' with_reducible first | exact .next _ | refine .ite ?_ ?_ | split | dsimp only
theorem execSetHost_runs (p : Pkt) (s : State) : Runs (execSetHost p s) := by
  unfold execSetHost
  repeat' with_reducible first | exact .next _ | refine .ite ?_ ?_ | exact refMark_runs _ _ | split | dsimp only
theorem execClearHost_runs (p : Pkt) (s : State) : Runs (execClearHost p s) := by
  unfold execClearHost
  repeat' with_reducible first | exact .next _ | refine .ite ?_ ?_ | exact refMark_runs _ _ | split | dsimp only
theorem execClearOut_runs (p : Pkt) (s : State) : Runs (execClearOut p s) := by
  unfold execClearOut
  repeat' with_reducible first | exact .next _ | refine .ite ?_ ?_ | exact refMark_runs _ _ | split | dsimp only
theorem execDecodePictureEnd_runs (session : Fin 2) (s : State) : Runs (execDecodePictureEnd session s) := by
  unfold execDecodePictureEnd
  repeat' with_reducible first | exact .next _ | refine .ite ?_ ?_ | split | dsimp only
theorem execDecodeOutput_runs (session : Fin 2) (s : State) : Runs (execDecodeOutput session s) := by
  unfold execDecodeOutput
  repeat' with_reducible first | exact .next _ | refine .ite ?_ ?_ | split | dsimp only
theorem execPoolWaitEnd_runs (session : Fin 2) (s : State) : Runs (execPoolWaitEnd session s) := by
  unfold execPoolWaitEnd
  repeat' with_reducible first | exact .next _ | refine .ite ?_ ?_ | split | dsimp only
theorem execCdcDecStall_runs (session : Fin 2) (s : State) : Runs (execCdcDecStall session s) := by
  unfold execCdcDecStall
  repeat' with_reducible first | exact .next _ | refine .ite ?_ ?_ | split | dsimp only
theorem execPeRowStart_runs (s : State) : Runs (execPeRowStart s) := by
  unfold execPeRowStart
  repeat' with_reducible first | exact .next _ | refine .ite ?_ ?_ | split | dsimp only
theorem execPeRowDone_runs (r : RowOut) (s : State) : Runs (execPeRowDone r s) := by
  unfold execPeRowDone
  repeat' with_reducible first | exact .next _ | refine .ite ?_ ?_ | split | dsimp only
theorem execEntropySliceDone_runs (o : EntropyOut) (s : State) : Runs (execEntropySliceDone o s) := by
  unfold execEntropySliceDone
  repeat' with_reducible first | exact .next _ | refine .ite ?_ ?_ | split | dsimp only
theorem execDspSetTiming_runs (p : Pkt) (s : State) : Runs (execDspSetTiming p s) := by
  unfold execDspSetTiming
  repeat' with_reducible first | exact .next _ | refine .ite ?_ ?_ | split | dsimp only
theorem execDspRoute_runs (p : Pkt) (s : State) : Runs (execDspRoute p s) := by
  unfold execDspRoute
  repeat' with_reducible first | exact .next _ | refine .ite ?_ ?_ | split | dsimp only
theorem execDspPortEnable_runs (p : Pkt) (s : State) : Runs (execDspPortEnable p s) := by
  unfold execDspPortEnable
  repeat' with_reducible first | exact .next _ | refine .ite ?_ ?_ | split | dsimp only
theorem execDspPortDisable_runs (p : Pkt) (s : State) : Runs (execDspPortDisable p s) := by
  unfold execDspPortDisable
  repeat' with_reducible first | exact .next _ | refine .ite ?_ ?_ | split | dsimp only
theorem execDspDcsXfer_runs (p : Pkt) (s : State) : Runs (execDspDcsXfer p s) := by
  unfold execDspDcsXfer
  repeat' with_reducible first | exact .next _ | refine .ite ?_ ?_ | split | dsimp only
theorem execDspSdiAnc_runs (p : Pkt) (s : State) : Runs (execDspSdiAnc p s) := by
  unfold execDspSdiAnc
  repeat' with_reducible first | exact .next _ | refine .ite ?_ ?_ | split | dsimp only
theorem execDspStatus_runs (p : Pkt) (s : State) : Runs (execDspStatus p s) := by
  unfold execDspStatus
  repeat' with_reducible first | exact .next _ | refine .ite ?_ ?_ | split | dsimp only
theorem execDcsXferRun_runs (port : Fin 4) (acked : Bool) (report : W32) (data : List Byte) (s : State) : Runs (execDcsXferRun port acked report data s) := by
  unfold execDcsXferRun
  repeat' with_reducible first | exact .next _ | refine .ite ?_ ?_ | split | dsimp only
theorem execHotplug_runs (port : Fin 4) (present : Bool) (s : State) : Runs (execHotplug port present s) := by
  unfold execHotplug
  repeat' with_reducible first | exact .next _ | refine .ite ?_ ?_ | split | dsimp only
theorem execCmpConfigureLayer_runs (p : Pkt) (s : State) : Runs (execCmpConfigureLayer p s) := by
  unfold execCmpConfigureLayer
  repeat' with_reducible first | exact .next _ | refine .ite ?_ ?_ | split | dsimp only
theorem execCmpLoadLut_runs (p : Pkt) (s : State) : Runs (execCmpLoadLut p s) := by
  unfold execCmpLoadLut
  repeat' with_reducible first | exact .next _ | refine .ite ?_ ?_ | split | dsimp only
theorem execCmpSetWriteback_runs (p : Pkt) (s : State) : Runs (execCmpSetWriteback p s) := by
  unfold execCmpSetWriteback
  repeat' with_reducible first | exact .next _ | refine .ite ?_ ?_ | split | dsimp only
theorem execCmpCommit_runs (p : Pkt) (s : State) : Runs (execCmpCommit p s) := by
  unfold execCmpCommit
  repeat' with_reducible first | exact .next _ | refine .ite ?_ ?_ | split | dsimp only
theorem execCmpFlip_runs (p : Pkt) (s : State) : Runs (execCmpFlip p s) := by
  unfold execCmpFlip
  repeat' with_reducible first | exact .next _ | refine .ite ?_ ?_ | split | dsimp only
theorem execFenceTimeout_runs (composer : Fin 4) (layer : Fin 8) (tag : BitVec 16) (s : State) : Runs (execFenceTimeout composer layer tag s) := by
  unfold execFenceTimeout
  repeat' with_reducible first | exact .next _ | refine .ite ?_ ?_ | split | dsimp only
theorem execCmpRindStatus_runs (p : Pkt) (s : State) : Runs (execCmpRindStatus p s) := by
  unfold execCmpRindStatus
  repeat' with_reducible first | exact .next _ | refine .ite ?_ ?_ | split | dsimp only
theorem execCmpLatch_runs (composer : Fin 4) (line : BitVec 16) (torn : BitVec 8) (s : State) : Runs (execCmpLatch composer line torn s) := by
  unfold execCmpLatch
  repeat' with_reducible first | exact .next _ | refine .ite ?_ ?_ | split | dsimp only
theorem execVblankStart_runs (t : Fin 4) (phase : W32) (torn : BitVec 8) (s : State) : Runs (execVblankStart t phase torn s) := by
  unfold execVblankStart
  repeat' with_reducible first | exact .next _ | refine .ite ?_ ?_ | split | dsimp only
theorem execSnpinv_runs (line : BitVec 58) (data : HostRead) (s : State) : Runs (execSnpinv line data s) := by
  unfold execSnpinv
  repeat' with_reducible first | exact .next _ | refine .ite ?_ ?_ | split | dsimp only
theorem execFencePoll_runs (addr : BitVec 64) (data : HostRead) (s : State) : Runs (execFencePoll addr data s) := by
  unfold execFencePoll
  repeat' with_reducible first | exact .next _ | refine .ite ?_ ?_ | split | dsimp only
theorem execWbHoldSet_runs (composer : Fin 4) (v : W32) (s : State) : Runs (execWbHoldSet composer v s) := by
  unfold execWbHoldSet
  repeat' with_reducible first | exact .next _ | refine .ite ?_ ?_ | split | dsimp only
theorem execStripeStart_runs (s : State) : Runs (execStripeStart s) := by
  unfold execStripeStart
  repeat' with_reducible first | exact .next _ | refine .ite ?_ ?_ | split | dsimp only
theorem execStripeDone_runs (s : State) : Runs (execStripeDone s) := by
  unfold execStripeDone
  repeat' with_reducible first | exact .next _ | refine .ite ?_ ?_ | split | dsimp only
theorem execReadbackStale_runs (ctx : Fin 6) (s : State) : Runs (execReadbackStale ctx s) := by
  unfold execReadbackStale
  repeat' with_reducible first | exact .next _ | refine .ite ?_ ?_ | split | dsimp only
theorem execLadleTrigger_runs (ctx : Fin 6) (s : State) : Runs (execLadleTrigger ctx s) := by
  unfold execLadleTrigger
  repeat' with_reducible first | exact .next _ | refine .ite ?_ ?_ | split | dsimp only
theorem execPaceTick_runs (pc : Fin 2) (s : State) : Runs (execPaceTick pc s) := by
  unfold execPaceTick
  repeat' with_reducible first | exact .next _ | refine .ite ?_ ?_ | split | dsimp only
theorem execCtxPlaybackSource_runs (p : Pkt) (s : State) : Runs (execCtxPlaybackSource p s) := by
  unfold execCtxPlaybackSource
  repeat' with_reducible first | exact .next _ | refine .ite ?_ ?_ | split | dsimp only
theorem execCtxStart_runs (p : Pkt) (s : State) : Runs (execCtxStart p s) := by
  unfold execCtxStart
  repeat' with_reducible first | exact .next _ | refine .ite ?_ ?_ | split | dsimp only
theorem execCtxStop_runs (p : Pkt) (s : State) : Runs (execCtxStop p s) := by
  unfold execCtxStop
  repeat' with_reducible first | exact .next _ | refine .ite ?_ ?_ | split | dsimp only
theorem execTapHoldSet_runs (tap : Fin 10) (v : W32) (s : State) : Runs (execTapHoldSet tap v s) := by
  unfold execTapHoldSet
  repeat' with_reducible first | exact .next _ | refine .ite ?_ ?_ | split | dsimp only
theorem execFrameStart_runs (port : Fin 4) (s : State) : Runs (execFrameStart port s) := by
  unfold execFrameStart
  repeat' with_reducible first | exact .next _ | refine .ite ?_ ?_ | split | dsimp only
theorem execFrameEnd_runs (port : Fin 4) (s : State) : Runs (execFrameEnd port s) := by
  unfold execFrameEnd
  repeat' with_reducible first | exact .next _ | refine .ite ?_ ?_ | split | dsimp only
theorem execLineStart_runs (port : Fin 4) (s : State) : Runs (execLineStart port s) := by
  unfold execLineStart
  repeat' with_reducible first | exact .next _ | refine .ite ?_ ?_ | split | dsimp only
theorem execLineData_runs (port : Fin 4) (full : Bool) (s : State) : Runs (execLineData port full s) := by
  unfold execLineData
  repeat' with_reducible first | exact .next _ | refine .ite ?_ ?_ | split | dsimp only
theorem execLineEnd_runs (port : Fin 4) (s : State) : Runs (execLineEnd port s) := by
  unfold execLineEnd
  repeat' with_reducible first | exact .next _ | refine .ite ?_ ?_ | split | dsimp only
theorem execEmbedded_runs (port : Fin 4) (s : State) : Runs (execEmbedded port s) := by
  unfold execEmbedded
  repeat' with_reducible first | exact .next _ | refine .ite ?_ ?_ | split | dsimp only
theorem execIdle_runs (port : Fin 4) (s : State) : Runs (execIdle port s) := by
  unfold execIdle
  repeat' with_reducible first | exact .next _ | refine .ite ?_ ?_ | split | dsimp only
theorem execReservedTypePacket_runs (port : Fin 4) (s : State) : Runs (execReservedTypePacket port s) := by
  unfold execReservedTypePacket
  repeat' with_reducible first | exact .next _ | refine .ite ?_ ?_ | split | dsimp only
theorem execFrameTimeout_runs (port : Fin 4) (s : State) : Runs (execFrameTimeout port s) := by
  unfold execFrameTimeout
  repeat' with_reducible first | exact .next _ | refine .ite ?_ ?_ | split | dsimp only
theorem execStripeLanded_runs (port : Fin 4) (s : State) : Runs (execStripeLanded port s) := by
  unfold execStripeLanded
  repeat' with_reducible first | exact .next _ | refine .ite ?_ ?_ | split | dsimp only
theorem execComma_runs (lane : Fin 24) (at_ : Nat) (bits : List Bool) (s : State) : Runs (execComma lane at_ bits s) := by
  unfold execComma
  repeat' with_reducible first | exact .next _ | refine .ite ?_ ?_ | split | dsimp only
theorem execCdrLockLoss_runs (lane : Fin 24) (s : State) : Runs (execCdrLockLoss lane s) := by
  unfold execCdrLockLoss
  repeat' with_reducible first | exact .next _ | refine .ite ?_ ?_ | split | dsimp only
theorem execLinkWord_runs (port : Fin 4) (s : State) : Runs (execLinkWord port s) := by
  unfold execLinkWord
  repeat' with_reducible first | exact .next _ | refine .ite ?_ ?_ | split | dsimp only
theorem execHcrcFail_runs (port : Fin 4) (s : State) : Runs (execHcrcFail port s) := by
  unfold execHcrcFail
  repeat' with_reducible first | exact .next _ | refine .ite ?_ ?_ | split | dsimp only
theorem execLnkConfigPort_runs (p : Pkt) (s : State) : Runs (execLnkConfigPort p s) := by
  unfold execLnkConfigPort
  repeat' with_reducible first | exact .next _ | refine .ite ?_ ?_ | split | dsimp only
theorem execLnkMapQuads_runs (p : Pkt) (s : State) : Runs (execLnkMapQuads p s) := by
  unfold execLnkMapQuads
  repeat' with_reducible first | exact .next _ | refine .ite ?_ ?_ | split | dsimp only
theorem execLnkStart_runs (p : Pkt) (s : State) : Runs (execLnkStart p s) := by
  unfold execLnkStart
  repeat' with_reducible first | exact .next _ | refine .ite ?_ ?_ | split | dsimp only
theorem execLnkLockTimeout_runs (port : Fin 4) (s : State) : Runs (execLnkLockTimeout port s) := by
  unfold execLnkLockTimeout
  repeat' with_reducible first | exact .next _ | refine .ite ?_ ?_ | split | dsimp only
theorem execLnkStop_runs (p : Pkt) (s : State) : Runs (execLnkStop p s) := by
  unfold execLnkStop
  repeat' with_reducible first | exact .next _ | refine .ite ?_ ?_ | split | dsimp only
theorem execLnkStopWaitExpiry_runs (port : Fin 4) (s : State) : Runs (execLnkStopWaitExpiry port s) := by
  unfold execLnkStopWaitExpiry
  repeat' with_reducible first | exact .next _ | refine .ite ?_ ?_ | split | dsimp only
theorem execLnkStatus_runs (p : Pkt) (s : State) : Runs (execLnkStatus p s) := by
  unfold execLnkStatus
  repeat' with_reducible first | exact .next _ | refine .ite ?_ ?_ | split | dsimp only
theorem execSnsLoadProfile_runs (p : Pkt) (s : State) : Runs (execSnsLoadProfile p s) := by
  unfold execSnsLoadProfile
  repeat' with_reducible first | exact .next _ | refine .ite ?_ ?_ | split | dsimp only
theorem execSnsQueueSettings_runs (p : Pkt) (s : State) : Runs (execSnsQueueSettings p s) := by
  unfold execSnsQueueSettings
  repeat' with_reducible first | exact .next _ | refine .ite ?_ ?_ | split | dsimp only
theorem execSnsCtrlXfer_runs (p : Pkt) (s : State) : Runs (execSnsCtrlXfer p s) := by
  unfold execSnsCtrlXfer
  repeat' with_reducible first | exact .next _ | refine .ite ?_ ?_ | split | dsimp only
theorem execSnsXferStart_runs (port : Fin 4) (s : State) : Runs (execSnsXferStart port s) := by
  unfold execSnsXferStart
  repeat' with_reducible first | exact .next _ | refine .ite ?_ ?_ | split | dsimp only
theorem execSnsXferDone_runs (port : Fin 4) (e : XferEnd) (s : State) : Runs (execSnsXferDone port e s) := by
  unfold execSnsXferDone
  repeat' with_reducible first | exact .next _ | refine .ite ?_ ?_ | split | dsimp only
theorem execSettingsWriteDone_runs (port : Fin 4) (e : XferEnd) (s : State) : Runs (execSettingsWriteDone port e s) := by
  unfold execSettingsWriteDone
  repeat' with_reducible first | exact .next _ | refine .ite ?_ ?_ | split | dsimp only
theorem execSetWindowExpiry_runs (port : Fin 4) (s : State) : Runs (execSetWindowExpiry port s) := by
  unfold execSetWindowExpiry
  repeat' with_reducible first | exact .next _ | refine .ite ?_ ?_ | split | dsimp only
theorem execTrgAssert_runs (port : Fin 4) (s : State) : Runs (execTrgAssert port s) := by
  unfold execTrgAssert
  repeat' with_reducible first | exact .next _ | refine .ite ?_ ?_ | split | dsimp only
theorem execTrgDeassert_runs (port : Fin 4) (s : State) : Runs (execTrgDeassert port s) := by
  unfold execTrgDeassert
  repeat' with_reducible first | exact .next _ | refine .ite ?_ ?_ | split | dsimp only
theorem execLnkPattern_runs (p : Pkt) (s : State) : Runs (execLnkPattern p s) := by
  unfold execLnkPattern
  repeat' with_reducible first | exact .next _ | refine .ite ?_ ?_ | split | dsimp only
theorem execPatSyncChange_runs (lane : Fin 24) (bits : List Bool) (s : State) : Runs (execPatSyncChange lane bits s) := by
  unfold execPatSyncChange
  repeat' with_reducible first | exact .next _ | refine .ite ?_ ?_ | split | dsimp only
theorem execInjectSingle_runs (lane : Fin 24) (s : State) : Runs (execInjectSingle lane s) := by
  unfold execInjectSingle
  repeat' with_reducible first | exact .next _ | refine .ite ?_ ?_ | split | dsimp only
theorem execInjectBurst_runs (lane : Fin 24) (len : Fin 64) (s : State) : Runs (execInjectBurst lane len s) := by
  unfold execInjectBurst
  repeat' with_reducible first | exact .next _ | refine .ite ?_ ?_ | split | dsimp only
theorem execAudBlockBoundary_runs (port : Fin 8) (ppm : Int) (s : State) : Runs (execAudBlockBoundary port ppm s) := by
  unfold execAudBlockBoundary
  repeat' with_reducible first | exact .next _ | refine .ite ?_ ?_ | split | dsimp only
theorem execPlayFetch_runs (port : Fin 8) (s : State) : Runs (execPlayFetch port s) := by
  unfold execPlayFetch
  repeat' with_reducible first | exact .next _ | refine .ite ?_ ?_ | split | dsimp only
theorem execAudFrameIn_runs (port : Fin 8) (slotA slotB : W32) (full : Bool) (s : State) : Runs (execAudFrameIn port slotA slotB full s) := by
  unfold execAudFrameIn
  repeat' with_reducible first | exact .next _ | refine .ite ?_ ?_ | split | dsimp only
theorem execAudClockStop_runs (port : Fin 8) (s : State) : Runs (execAudClockStop port s) := by
  unfold execAudClockStop
  repeat' with_reducible first | exact .next _ | refine .ite ?_ ?_ | split | dsimp only
theorem execHoldoverExit_runs (port : Fin 8) (s : State) : Runs (execHoldoverExit port s) := by
  unfold execHoldoverExit
  repeat' with_reducible first | exact .next _ | refine .ite ?_ ?_ | split | dsimp only
theorem execAudGlitch_runs (port : Fin 8) (s : State) : Runs (execAudGlitch port s) := by
  unfold execAudGlitch
  repeat' with_reducible first | exact .next _ | refine .ite ?_ ?_ | split | dsimp only
theorem execAudRateChange_runs (port : Fin 8) (s : State) : Runs (execAudRateChange port s) := by
  unfold execAudRateChange
  repeat' with_reducible first | exact .next _ | refine .ite ?_ ?_ | split | dsimp only
theorem execAudConfigurePort_runs (p : Pkt) (s : State) : Runs (execAudConfigurePort p s) := by
  unfold execAudConfigurePort
  repeat' with_reducible first | exact .next _ | refine .ite ?_ ?_ | split | dsimp only
theorem execAudStart_runs (p : Pkt) (s : State) : Runs (execAudStart p s) := by
  unfold execAudStart
  repeat' with_reducible first | exact .next _ | refine .ite ?_ ?_ | split | dsimp only
theorem execAudStartInstant_runs (s : State) : Runs (execAudStartInstant s) := by
  unfold execAudStartInstant
  repeat' with_reducible first | exact .next _ | refine .ite ?_ ?_ | split | dsimp only
theorem execAudStop_runs (p : Pkt) (s : State) : Runs (execAudStop p s) := by
  unfold execAudStop
  repeat' with_reducible first | exact .next _ | refine .ite ?_ ?_ | split | dsimp only
theorem execAudSetChstatus_runs (p : Pkt) (s : State) : Runs (execAudSetChstatus p s) := by
  unfold execAudSetChstatus
  repeat' with_reducible first | exact .next _ | refine .ite ?_ ?_ | split | dsimp only
theorem execAudStatus_runs (p : Pkt) (s : State) : Runs (execAudStatus p s) := by
  unfold execAudStatus
  repeat' with_reducible first | exact .next _ | refine .ite ?_ ?_ | split | dsimp only
theorem execTbWrap_runs (s : State) : Runs (execTbWrap s) := by
  unfold execTbWrap
  repeat' with_reducible first | exact .next _ | refine .ite ?_ ?_ | split | dsimp only
theorem execTimNowNs_runs (master : Byte) (s : State) : Runs (execTimNowNs master s) := by
  unfold execTimNowNs
  repeat' with_reducible first | exact .next _ | refine .ite ?_ ?_ | split | dsimp only
theorem execTimGet_runs (p : Pkt) (s : State) : Runs (execTimGet p s) := by
  unfold execTimGet
  repeat' with_reducible first | exact .next _ | refine .ite ?_ ?_ | split | dsimp only
theorem execTimSetAddend_runs (p : Pkt) (s : State) : Runs (execTimSetAddend p s) := by
  unfold execTimSetAddend
  repeat' with_reducible first | exact .next _ | refine .ite ?_ ?_ | split | dsimp only
theorem execTimStep_runs (p : Pkt) (s : State) : Runs (execTimStep p s) := by
  unfold execTimStep
  repeat' with_reducible first | exact .next _ | refine .ite ?_ ?_ | split | dsimp only
theorem execFcgConfigure_runs (p : Pkt) (s : State) : Runs (execFcgConfigure p s) := by
  unfold execFcgConfigure
  repeat' with_reducible first | exact .next _ | refine .ite ?_ ?_ | split | dsimp only
theorem execFcgTick_runs (fcg : Fin 4) (s : State) : Runs (execFcgTick fcg s) := by
  unfold execFcgTick
  repeat' with_reducible first | exact .next _ | refine .ite ?_ ?_ | split | dsimp only
theorem execNetDb_runs (ring : Fin 3) (v : W32) (fetch : List NetFetch) (s : State) : Runs (execNetDb ring v fetch s) := by
  unfold execNetDb
  repeat' with_reducible first | exact .next _ | refine .ite ?_ ?_ | split | dsimp only
theorem execNetLaunch_runs (s : State) : Runs (execNetLaunch s) := by
  unfold execNetLaunch
  repeat' with_reducible first | exact .next _ | refine .ite ?_ ?_ | split | dsimp only
theorem execNetTxEgress_runs (queue : Fin 2) (fetch : List NetFetch) (s : State) : Runs (execNetTxEgress queue fetch s) := by
  unfold execNetTxEgress
  repeat' with_reducible first | exact .next _ | refine .ite ?_ ?_ | split | dsimp only
theorem execNetRxFrame_runs (frame : List Byte) (fcsOk : Bool) (desc : HostRead) (s : State) : Runs (execNetRxFrame frame fcsOk desc s) := by
  unfold execNetRxFrame
  repeat' with_reducible first | exact .next _ | refine .ite ?_ ?_ | split | dsimp only
theorem execNetLinkChange_runs (up : Bool) (fetch0 : List NetFetch) (fetch1 : List NetFetch) (s : State) : Runs (execNetLinkChange up fetch0 fetch1 s) := by
  unfold execNetLinkChange
  repeat' with_reducible first | exact .next _ | refine .ite ?_ ?_ | split | dsimp only
theorem execNetLinkControl_runs (p : Pkt) (s : State) : Runs (execNetLinkControl p s) := by
  unfold execNetLinkControl
  repeat' with_reducible first | exact .next _ | refine .ite ?_ ?_ | split | dsimp only
theorem execNetConfigure_runs (p : Pkt) (s : State) : Runs (execNetConfigure p s) := by
  unfold execNetConfigure
  repeat' with_reducible first | exact .next _ | refine .ite ?_ ?_ | split | dsimp only
theorem execNetSetPtp_runs (p : Pkt) (s : State) : Runs (execNetSetPtp p s) := by
  unfold execNetSetPtp
  repeat' with_reducible first | exact .next _ | refine .ite ?_ ?_ | split | dsimp only
theorem execVqCmdStart_runs (pair : Fin 16) (target : AbortAt) (s : State) : Runs (execVqCmdStart pair target s) := by
  unfold execVqCmdStart
  repeat' with_reducible first | exact .next _ | refine .ite ?_ ?_ | split | dsimp only
theorem execVqNop_runs (pair : Fin 16) (slot : VqSlot) (s : State) : Runs (execVqNop pair slot s) := by
  unfold execVqNop
  repeat' with_reducible first | exact .next _ | refine .ite ?_ ?_ | split | dsimp only
theorem execVqRead_runs (pair : Fin 16) (slot : VqSlot) (s : State) : Runs (execVqRead pair slot s) := by
  unfold execVqRead
  repeat' with_reducible first | exact .next _ | refine .ite ?_ ?_ | split | dsimp only
theorem execVqWrite_runs (pair : Fin 16) (slot : VqSlot) (s : State) : Runs (execVqWrite pair slot s) := by
  unfold execVqWrite
  repeat' with_reducible first | exact .next _ | refine .ite ?_ ?_ | split | dsimp only
theorem execVqCopy_runs (pair : Fin 16) (slot : VqSlot) (s : State) : Runs (execVqCopy pair slot s) := by
  unfold execVqCopy
  repeat' with_reducible first | exact .next _ | refine .ite ?_ ?_ | split | dsimp only
theorem execVqReadFrame_runs (pair : Fin 16) (slot : VqSlot) (s : State) : Runs (execVqReadFrame pair slot s) := by
  unfold execVqReadFrame
  repeat' with_reducible first | exact .next _ | refine .ite ?_ ?_ | split | dsimp only
theorem execVqFlush_runs (pair : Fin 16) (slot : VqSlot) (s : State) : Runs (execVqFlush pair slot s) := by
  unfold execVqFlush
  repeat' with_reducible first | exact .next _ | refine .ite ?_ ?_ | split | dsimp only
theorem execVqAbort_runs (pair : Fin 16) (slot : VqSlot) (target : AbortAt) (s : State) : Runs (execVqAbort pair slot target s) := by
  unfold execVqAbort
  repeat' with_reducible first | exact .next _ | refine .ite ?_ ?_ | split | dsimp only
theorem execVqTransferDone_runs (pair : Fin 16) (tag : BitVec 13) (data : HostRead) (moved : Nat) (s : State) : Runs (execVqTransferDone pair tag data moved s) := by
  unfold execVqTransferDone
  repeat' with_reducible first | exact .next _ | refine .ite ?_ ?_ | split | dsimp only
theorem execVqTmoExpiry_runs (pair : Fin 16) (tag : BitVec 13) (moved : Nat) (data : HostRead) (s : State) : Runs (execVqTmoExpiry pair tag moved data s) := by
  unfold execVqTmoExpiry
  repeat' with_reducible first | exact .next _ | refine .ite ?_ ?_ | split | dsimp only
theorem execVqDeferExpiry_runs (pair : Fin 16) (tag : BitVec 13) (s : State) : Runs (execVqDeferExpiry pair tag s) := by
  unfold execVqDeferExpiry
  repeat' with_reducible first | exact .next _ | refine .ite ?_ ?_ | split | dsimp only
theorem execVqCqStall_runs (pair : Fin 16) (s : State) : Runs (execVqCqStall pair s) := by
  unfold execVqCqStall
  repeat' with_reducible first | exact .next _ | refine .ite ?_ ?_ | split | dsimp only
theorem execVqResetQueue_runs (p : Pkt) (s : State) : Runs (execVqResetQueue p s) := by
  unfold execVqResetQueue
  repeat' with_reducible first | exact .next _ | refine .ite ?_ ?_ | split | dsimp only
theorem execVqCplPost_runs (pair : Fin 16) (s : State) : Runs (execVqCplPost pair s) := by
  unfold execVqCplPost
  repeat' with_reducible first | exact .next _ | refine .ite ?_ ?_ | split | dsimp only
theorem execVqCqHead_runs (pair : Fin 16) (v : W32) (s : State) : Runs (execVqCqHead pair v s) := by
  unfold execVqCqHead
  repeat' with_reducible first | exact .next _ | refine .ite ?_ ?_ | split | dsimp only
theorem execVqSqDb_runs (pair : Fin 16) (v : W32) (s : State) : Runs (execVqSqDb pair v s) := by
  unfold execVqSqDb
  repeat' with_reducible first | exact .next _ | refine .ite ?_ ?_ | split | dsimp only
theorem execVqCreateQueue_runs (p : Pkt) (s : State) : Runs (execVqCreateQueue p s) := by
  unfold execVqCreateQueue
  repeat' with_reducible first | exact .next _ | refine .ite ?_ ?_ | split | dsimp only
theorem execVqDeleteQueue_runs (p : Pkt) (s : State) : Runs (execVqDeleteQueue p s) := by
  unfold execVqDeleteQueue
  repeat' with_reducible first | exact .next _ | refine .ite ?_ ?_ | split | dsimp only
theorem execVltSetVpstate_runs (p : Pkt) (s : State) : Runs (execVltSetVpstate p s) := by
  unfold execVltSetVpstate
  repeat' with_reducible first | exact .next _ | refine .ite ?_ ?_ | split | dsimp only
theorem execDflJobEnd_runs (engine : Fin 2) (s : State) : Runs (execDflJobEnd engine s) := by
  unfold execDflJobEnd
  repeat' with_reducible first | exact .next _ | refine .ite ?_ ?_ | split | dsimp only
theorem execDflJobStart_runs (src : HostRead) (list : HostRead) (st : HostRead) (s : State) : Runs (execDflJobStart src list st s) := by
  unfold execDflJobStart
  repeat' with_reducible first | exact .next _ | refine .ite ?_ ?_ | split | dsimp only
theorem execDflDeferExpiry_runs (tag : BitVec 16) (s : State) : Runs (execDflDeferExpiry tag s) := by
  unfold execDflDeferExpiry
  repeat' with_reducible first | exact .next _ | refine .ite ?_ ?_ | split | dsimp only
theorem execDflSubmit_runs (p : Pkt) (s : State) : Runs (execDflSubmit p s) := by
  unfold execDflSubmit
  repeat' with_reducible first | exact .next _ | refine .ite ?_ ?_ | split | dsimp only
theorem execDflResume_runs (p : Pkt) (s : State) : Runs (execDflResume p s) := by
  unfold execDflResume
  repeat' with_reducible first | exact .next _ | refine .ite ?_ ?_ | split | dsimp only
theorem execDflAbort_runs (p : Pkt) (s : State) : Runs (execDflAbort p s) := by
  unfold execDflAbort
  repeat' with_reducible first | exact .next _ | refine .ite ?_ ?_ | split | dsimp only
theorem execDflStatus_runs (p : Pkt) (s : State) : Runs (execDflStatus p s) := by
  unfold execDflStatus
  repeat' with_reducible first | exact .next _ | refine .ite ?_ ?_ | split | dsimp only
theorem execDmcRefresh_runs (chan : Fin 32) (wait : Bool) (s : State) : Runs (execDmcRefresh chan wait s) := by
  unfold execDmcRefresh
  repeat' with_reducible first | exact .next _ | refine .ite ?_ ?_ | split | dsimp only
theorem execDmcDelayPass_runs (s : State) : Runs (execDmcDelayPass s) := by
  unfold execDmcDelayPass
  repeat' with_reducible first | exact .next _ | refine .ite ?_ ?_ | split | dsimp only
theorem execDmcUncorrectable_runs (dpa : Nat) (fails corrected : Bool) (s : State) : Runs (execDmcUncorrectable dpa fails corrected s) := by
  unfold execDmcUncorrectable
  repeat' with_reducible first | exact .next _ | refine .ite ?_ ?_ | split | dsimp only
theorem execSuspectAppend_runs (row : Fin 32) (s : State) : Runs (execSuspectAppend row s) := by
  unfold execSuspectAppend
  repeat' with_reducible first | exact .next _ | refine .ite ?_ ?_ | split | dsimp only
theorem execDlyLock_runs (s : State) : Runs (execDlyLock s) := by
  unfold execDlyLock
  repeat' with_reducible first | exact .next _ | refine .ite ?_ ?_ | split | dsimp only
theorem execVp1Entry_runs (request : Bool) (s : State) : Runs (execVp1Entry request s) := by
  unfold execVp1Entry
  repeat' with_reducible first | exact .next _ | refine .ite ?_ ?_ | split | dsimp only
theorem execVp2Entry_runs (request : Bool) (s : State) : Runs (execVp2Entry request s) := by
  unfold execVp2Entry
  repeat' with_reducible first | exact .next _ | refine .ite ?_ ?_ | split | dsimp only
theorem execVinWarn_runs (falling : Bool) (s : State) : Runs (execVinWarn falling s) := by
  unfold execVinWarn
  repeat' with_reducible first | exact .next _ | refine .ite ?_ ?_ | split | dsimp only
theorem execUvlo_runs (s : State) : Runs (execUvlo s) := by
  unfold execUvlo
  repeat' with_reducible first | exact .next _ | refine .ite ?_ ?_ | split | dsimp only
theorem execOvlo_runs (s : State) : Runs (execOvlo s) := by
  unfold execOvlo
  repeat' with_reducible first | exact .next _ | refine .ite ?_ ?_ | split | dsimp only
theorem execOvloExit_runs (s : State) : Runs (execOvloExit s) := by
  unfold execOvloExit
  repeat' with_reducible first | exact .next _ | refine .ite ?_ ?_ | split | dsimp only
theorem execPwrAxConfigure_runs (p : Pkt) (s : State) : Runs (execPwrAxConfigure p s) := by
  unfold execPwrAxConfigure
  repeat' with_reducible first | exact .next _ | refine .ite ?_ ?_ | split | dsimp only
theorem execPwrAxSwitch_runs (p : Pkt) (s : State) : Runs (execPwrAxSwitch p s) := by
  unfold execPwrAxSwitch
  repeat' with_reducible first | exact .next _ | refine .ite ?_ ?_ | split | dsimp only
theorem execAxTrip_runs (port : Fin 4) (off : Bool) (s : State) : Runs (execAxTrip port off s) := by
  unfold execAxTrip
  repeat' with_reducible first | exact .next _ | refine .ite ?_ ?_ | split | dsimp only
theorem execAxRetryExpiry_runs (port : Fin 4) (s : State) : Runs (execAxRetryExpiry port s) := by
  unfold execAxRetryExpiry
  repeat' with_reducible first | exact .next _ | refine .ite ?_ ?_ | split | dsimp only
theorem execAxRetryReset_runs (port : Fin 4) (s : State) : Runs (execAxRetryReset port s) := by
  unfold execAxRetryReset
  repeat' with_reducible first | exact .next _ | refine .ite ?_ ?_ | split | dsimp only
theorem execAxLoadChange_runs (port : Fin 4) (present : Bool) (s : State) : Runs (execAxLoadChange port present s) := by
  unfold execAxLoadChange
  repeat' with_reducible first | exact .next _ | refine .ite ?_ ?_ | split | dsimp only
theorem execAxLimiting_runs (port : Fin 4) (above : Bool) (s : State) : Runs (execAxLimiting port above s) := by
  unfold execAxLimiting
  repeat' with_reducible first | exact .next _ | refine .ite ?_ ?_ | split | dsimp only
theorem execAxReverseCurrent_runs (port : Fin 4) (s : State) : Runs (execAxReverseCurrent port s) := by
  unfold execAxReverseCurrent
  repeat' with_reducible first | exact .next _ | refine .ite ?_ ?_ | split | dsimp only
theorem execAxReverseClear_runs (port : Fin 4) (s : State) : Runs (execAxReverseClear port s) := by
  unfold execAxReverseClear
  repeat' with_reducible first | exact .next _ | refine .ite ?_ ?_ | split | dsimp only
theorem execHkRoundComplete_runs (v : Vector (BitVec 16) 16) (s : State) : Runs (execHkRoundComplete v s) := by
  unfold execHkRoundComplete
  repeat' with_reducible first | exact .next _ | refine .ite ?_ ?_ | split | dsimp only
theorem execPwrSetInputLimit_runs (p : Pkt) (s : State) : Runs (execPwrSetInputLimit p s) := by
  unfold execPwrSetInputLimit
  repeat' with_reducible first | exact .next _ | refine .ite ?_ ?_ | split | dsimp only
theorem execPwrGetHk_runs (p : Pkt) (s : State) : Runs (execPwrGetHk p s) := by
  unfold execPwrGetHk
  repeat' with_reducible first | exact .next _ | refine .ite ?_ ?_ | split | dsimp only
theorem execThmGetBand_runs (p : Pkt) (s : State) : Runs (execThmGetBand p s) := by
  unfold execThmGetBand
  repeat' with_reducible first | exact .next _ | refine .ite ?_ ?_ | split | dsimp only
theorem execTstRunAnalogue_runs (p : Pkt) (s : State) : Runs (execTstRunAnalogue p s) := by
  unfold execTstRunAnalogue
  repeat' with_reducible first | exact .next _ | refine .ite ?_ ?_ | split | dsimp only
theorem execTstRunLbist_runs (p : Pkt) (s : State) : Runs (execTstRunLbist p s) := by
  unfold execTstRunLbist
  repeat' with_reducible first | exact .next _ | refine .ite ?_ ?_ | split | dsimp only
theorem execTstRunMbist_runs (p : Pkt) (s : State) : Runs (execTstRunMbist p s) := by
  unfold execTstRunMbist
  repeat' with_reducible first | exact .next _ | refine .ite ?_ ?_ | split | dsimp only
theorem execTstStartAnalogue_runs (master : Byte) (item : BitVec 6) (s : State) : Runs (execTstStartAnalogue master item s) := by
  unfold execTstStartAnalogue
  repeat' with_reducible first | exact .next _ | refine .ite ?_ ?_ | split | dsimp only
theorem execTstStartLbist_runs (master : Byte) (item : BitVec 6) (s : State) : Runs (execTstStartLbist master item s) := by
  unfold execTstStartLbist
  repeat' with_reducible first | exact .next _ | refine .ite ?_ ?_ | split | dsimp only
theorem execTstStartMbist_runs (master : Byte) (item : BitVec 6) (s : State) : Runs (execTstStartMbist master item s) := by
  unfold execTstStartMbist
  repeat' with_reducible first | exact .next _ | refine .ite ?_ ?_ | split | dsimp only
theorem execTstAdmitExpiry_runs (s : State) : Runs (execTstAdmitExpiry s) := by
  unfold execTstAdmitExpiry
  repeat' with_reducible first | exact .next _ | refine .ite ?_ ?_ | split | dsimp only
theorem execTestDone_runs (e : TestEnd) (s : State) : Runs (execTestDone e s) := by
  unfold execTestDone
  repeat' with_reducible first | exact .next _ | refine .ite ?_ ?_ | split | dsimp only
theorem execTstGetResult_runs (p : Pkt) (s : State) : Runs (execTstGetResult p s) := by
  unfold execTstGetResult
  repeat' with_reducible first | exact .next _ | refine .ite ?_ ?_ | split | dsimp only
theorem execTstSetTmux_runs (p : Pkt) (s : State) : Runs (execTstSetTmux p s) := by
  unfold execTstSetTmux
  repeat' with_reducible first | exact .next _ | refine .ite ?_ ?_ | split | dsimp only
theorem execRprGetStatus_runs (p : Pkt) (s : State) : Runs (execRprGetStatus p s) := by
  unfold execRprGetStatus
  repeat' with_reducible first | exact .next _ | refine .ite ?_ ?_ | split | dsimp only
theorem execRprCommitPpr_runs (p : Pkt) (s : State) : Runs (execRprCommitPpr p s) := by
  unfold execRprCommitPpr
  repeat' with_reducible first | exact .next _ | refine .ite ?_ ?_ | split | dsimp only
theorem execColdBoot_runs (rep : BootRep) (s : State) : Runs (execColdBoot rep s) := by
  unfold execColdBoot
  repeat' with_reducible first | exact .next _ | refine .ite ?_ ?_ | split | dsimp only
theorem execWarmBoot_runs (rep : BootRep) (s : State) : Runs (execWarmBoot rep s) := by
  unfold execWarmBoot
  repeat' with_reducible first | exact .next _ | refine .ite ?_ ?_ | split | dsimp only
theorem execPerstNAssert_runs (s : State) : Runs (execPerstNAssert s) := by
  unfold execPerstNAssert
  repeat' with_reducible first | exact .next _ | refine .ite ?_ ?_ | split | dsimp only
theorem execWake_runs (recPin early : Bool) (s : State) : Runs (execWake recPin early s) := by
  unfold execWake
  repeat' with_reducible first | exact .next _ | refine .ite ?_ ?_ | split | dsimp only
theorem execDevReset_runs (p : Pkt) (s : State) : Runs (execDevReset p s) := by
  unfold execDevReset
  repeat' with_reducible first | exact .next _ | refine .ite ?_ ?_ | split | dsimp only
theorem execDevSetPstate_runs (p : Pkt) (s : State) : Runs (execDevSetPstate p s) := by
  unfold execDevSetPstate
  repeat' with_reducible first | exact .next _ | refine .ite ?_ ?_ | split | dsimp only
theorem execFwStage_runs (p : Pkt) (s : State) : Runs (execFwStage p s) := by
  unfold execFwStage
  repeat' with_reducible first | exact .next _ | refine .ite ?_ ?_ | split | dsimp only
theorem execFwVerify_runs (p : Pkt) (s : State) : Runs (execFwVerify p s) := by
  unfold execFwVerify
  repeat' with_reducible first | exact .next _ | refine .ite ?_ ?_ | split | dsimp only
theorem execFwActivate_runs (p : Pkt) (s : State) : Runs (execFwActivate p s) := by
  unfold execFwActivate
  repeat' with_reducible first | exact .next _ | refine .ite ?_ ?_ | split | dsimp only
theorem execFwRunState_runs (s : State) : Runs (execFwRunState s) := by
  unfold execFwRunState
  repeat' with_reducible first | exact .next _ | refine .ite ?_ ?_ | split | dsimp only
theorem execFwActivateTimeout_runs (s : State) : Runs (execFwActivateTimeout s) := by
  unfold execFwActivateTimeout
  repeat' with_reducible first | exact .next _ | refine .ite ?_ ?_ | split | dsimp only
theorem execVltSetLayout_runs (p : Pkt) (s : State) : Runs (execVltSetLayout p s) := by
  unfold execVltSetLayout
  repeat' with_reducible first | exact .next _ | refine .ite ?_ ?_ | split | dsimp only
theorem execHdmCommit_runs (dec : Fin 2) (base size ways : Nat) (s : State) : Runs (execHdmCommit dec base size ways s) := by
  unfold execHdmCommit
  repeat' with_reducible first | exact .next _ | refine .ite ?_ ?_ | split | dsimp only
theorem execDoeRequest_runs (s : State) : Runs (execDoeRequest s) := by
  unfold execDoeRequest
  repeat' with_reducible first | exact .next _ | refine .ite ?_ ?_ | split | dsimp only
theorem execDmaReadError_runs (src : Fin 24) (who : BitVec 16) (addr : Nat) (poisoned : Bool) (s : State) : Runs (execDmaReadError src who addr poisoned s) := by
  unfold execDmaReadError
  repeat' with_reducible first | exact .next _ | refine .ite ?_ ?_ | split | dsimp only
theorem execCacheWriteError_runs (src : Fin 24) (who : BitVec 16) (addr : Nat) (s : State) : Runs (execCacheWriteError src who addr s) := by
  unfold execCacheWriteError
  repeat' with_reducible first | exact .next _ | refine .ite ?_ ?_ | split | dsimp only
theorem execLinkCrcError_runs (s : State) : Runs (execLinkCrcError s) := by
  unfold execLinkCrcError
  repeat' with_reducible first | exact .next _ | refine .ite ?_ ?_ | split | dsimp only
theorem execCxlCacheProtocolError_runs (inAddr : Bool) (s : State) : Runs (execCxlCacheProtocolError inAddr s) := by
  unfold execCxlCacheProtocolError
  repeat' with_reducible first | exact .next _ | refine .ite ?_ ?_ | split | dsimp only
theorem execLinkTrainingDone_runs (full : Bool) (width : Nat) (rate : Nat) (s : State) : Runs (execLinkTrainingDone full width rate s) := by
  unfold execLinkTrainingDone
  repeat' with_reducible first | exact .next _ | refine .ite ?_ ?_ | split | dsimp only
theorem execLinkDown_runs (s : State) : Runs (execLinkDown s) := by
  unfold execLinkDown
  repeat' with_reducible first | exact .next _ | refine .ite ?_ ?_ | split | dsimp only
theorem execMsixUnmask_runs (v : Fin 64) (s : State) : Runs (execMsixUnmask v s) := by
  unfold execMsixUnmask
  repeat' with_reducible first | exact .next _ | refine .ite ?_ ?_ | split | dsimp only
theorem execFlr_runs (s : State) : Runs (execFlr s) := by
  unfold execFlr
  repeat' with_reducible first | exact .next _ | refine .ite ?_ ?_ | split | dsimp only
theorem execNop_runs (p : Pkt) (s : State) : Runs (execNop p s) := by
  unfold execNop
  repeat' with_reducible first | exact .next _ | refine .ite ?_ ?_ | split | dsimp only
theorem execDevStatus_runs (p : Pkt) (s : State) : Runs (execDevStatus p s) := by
  unfold execDevStatus
  repeat' with_reducible first | exact .next _ | refine .ite ?_ ?_ | split | dsimp only
theorem execDevGetFingerprint_runs (p : Pkt) (s : State) : Runs (execDevGetFingerprint p s) := by
  unfold execDevGetFingerprint
  repeat' with_reducible first | exact .next _ | refine .ite ?_ ?_ | split | dsimp only
theorem execDltRefresh_runs (p : Pkt) (s : State) : Runs (execDltRefresh p s) := by
  unfold execDltRefresh
  repeat' with_reducible first | exact .next _ | refine .ite ?_ ?_ | split | dsimp only
theorem execEvtDrain_runs (p : Pkt) (s : State) : Runs (execEvtDrain p s) := by
  unfold execEvtDrain
  repeat' with_reducible first | exact .next _ | refine .ite ?_ ?_ | split | dsimp only
theorem execEvtErrClear_runs (s : State) : Runs (execEvtErrClear s) := by
  unfold execEvtErrClear
  repeat' with_reducible first | exact .next _ | refine .ite ?_ ?_ | split | dsimp only
theorem execPacketComplete_runs (ring : Fin 4) (seq : W32) (s : State) : Runs (execPacketComplete ring seq s) := by
  unfold execPacketComplete
  repeat' with_reducible first | exact .next _ | refine .ite ?_ ?_ | split | dsimp only
theorem execReplyBoundExpiry_runs (ring : Fin 4) (seq : W32) (opcode : BitVec 16) (s : State) : Runs (execReplyBoundExpiry ring seq opcode s) := by
  unfold execReplyBoundExpiry
  repeat' with_reducible first | exact .next _ | refine .ite ?_ ?_ | split | dsimp only
theorem execCmdLateDone_runs (ring : Fin 4) (seq : W32) (s : State) : Runs (execCmdLateDone ring seq s) := by
  unfold execCmdLateDone
  repeat' with_reducible first | exact .next _ | refine .ite ?_ ?_ | split | dsimp only
theorem execCmdRpHead_runs (ring : Fin 4) (v : W32) (s : State) : Runs (execCmdRpHead ring v s) := by
  unfold execCmdRpHead
  repeat' with_reducible first | exact .next _ | refine .ite ?_ ?_ | split | dsimp only
theorem execBudgetTick_runs (t : DmcTick) (s : State) : Runs (execBudgetTick t s) := by
  unfold execBudgetTick
  repeat' with_reducible first | exact .next _ | refine .ite ?_ ?_ | split | dsimp only
theorem State.cfgRead_runs (s : State) (f : CfgField) : Runs (State.cfgRead s f) := by
  unfold State.cfgRead
  repeat' with_reducible first | exact .next _ | refine .ite ?_ ?_ | split | dsimp only
theorem State.writeCmd_runs (s : State) (a i v : Nat) : Runs (State.writeCmd s a i v) := by
  unfold State.writeCmd
  repeat' with_reducible first | exact .next _ | refine .ite ?_ ?_ | exact execCmdDb_runs _ _ _ | exact execCmdRpHead_runs _ _ _ | split | dsimp only
theorem State.writeMbx_runs (s : State) (m : Byte) (a i v : Nat) : Runs (State.writeMbx s m a i v) := by
  unfold State.writeMbx
  repeat' with_reducible first | exact .next _ | refine .ite ?_ ?_ | exact execSemRelease_runs _ _ _ | exact execMbxCtrlLock_runs _ | split | dsimp only
theorem State.writeTap_runs (s : State) (a i v : Nat) : Runs (State.writeTap s a i v) := by
  unfold State.writeTap
  repeat' with_reducible first | exact .next _ | refine .ite ?_ ?_ | exact execTapHoldSet_runs _ _ _ | split | dsimp only
theorem State.writeVq_runs (s : State) (a i v : Nat) : Runs (State.writeVq s a i v) := by
  unfold State.writeVq
  repeat' with_reducible first | exact .next _ | refine .ite ?_ ?_ | exact execVqCqHead_runs _ _ _ | exact execVqSqDb_runs _ _ _ | split | dsimp only
theorem State.writeCdc_runs (s : State) (a i v : Nat) : Runs (State.writeCdc s a i v) := by
  unfold State.writeCdc
  repeat' with_reducible first | exact .next _ | refine .ite ?_ ?_ | exact execCdcDrHead_runs _ _ _ | exact execCdcDdHead_runs _ _ _ | split | dsimp only
theorem State.writeDmc_runs (s : State) (a v : Nat) : Runs (State.writeDmc s a v) := by
  unfold State.writeDmc
  repeat' with_reducible first | exact .next _ | refine .ite ?_ ?_ | exact execDlyLock_runs _ | split | dsimp only
theorem State.cfgWrite_runs (s : State) (f : CfgField) (v : Nat) : Runs (State.cfgWrite s f v) := by
  unfold State.cfgWrite
  repeat' with_reducible first | exact .next _ | refine .ite ?_ ?_ | split | dsimp only

/-- An outcome that is no refusal. -/
structure Unrefused (r : Res) : Prop where
  out : ∀ x, r ≠ .refused x

theorem Unrefused.next (s : State) : Unrefused (.next s) := ⟨nofun⟩
theorem Unrefused.fault (f : Fault) : Unrefused (.fault f) := ⟨nofun⟩
theorem Unrefused.ite {c : Prop} {_ : Decidable c} (h : Unrefused r) (k : Unrefused q) : Unrefused (if c then r else q) := by
  split <;> assumption
theorem Runs.unrefused (h : Runs r) : Unrefused r := ⟨(h.safe True).1⟩

theorem State.cxlRead_unrefused (s : State) (addr : Nat) : Unrefused (State.cxlRead s addr) := by
  unfold State.cxlRead
  repeat' with_reducible first
    | exact .next _ | exact .fault _ | refine .ite ?_ ?_ | split | dsimp only
theorem execMemrd_unrefused (addr : Nat) (s : State) : Unrefused (execMemrd addr s) := by
  unfold execMemrd
  repeat' with_reducible first
    | exact .next _ | exact .fault _ | refine .ite ?_ ?_ | exact State.cxlRead_unrefused _ _ | split | dsimp only
theorem execMemrddata_unrefused (addr : Nat) (s : State) : Unrefused (execMemrddata addr s) := by
  unfold execMemrddata
  repeat' with_reducible first
    | exact .next _ | exact .fault _ | refine .ite ?_ ?_ | exact State.cxlRead_unrefused _ _ | split | dsimp only
theorem execMeminv_unrefused (addr : Nat) (s : State) : Unrefused (execMeminv addr s) := by
  unfold execMeminv
  repeat' with_reducible first
    | exact .next _ | exact .fault _ | refine .ite ?_ ?_ | split | dsimp only
theorem execMemspecrd_unrefused (addr : Nat) (s : State) : Unrefused (execMemspecrd addr s) := by
  unfold execMemspecrd
  repeat' with_reducible first
    | exact .next _ | exact .fault _ | refine .ite ?_ ?_ | split | dsimp only
theorem State.cxlWrite_unrefused (s : State) (addr mask : Nat) (data : List Byte) : Unrefused (State.cxlWrite s addr mask data) := by
  unfold State.cxlWrite
  repeat' with_reducible first
    | exact .next _ | exact .fault _ | refine .ite ?_ ?_ | split | dsimp only
theorem execMemwr_unrefused (addr : Nat) (data : List Byte) (s : State) : Unrefused (execMemwr addr data s) := by
  unfold execMemwr
  repeat' with_reducible first
    | exact .next _ | exact .fault _ | refine .ite ?_ ?_ | exact State.cxlWrite_unrefused _ _ _ _ | split | dsimp only
theorem execMemwrptl_unrefused (addr : Nat) (data : List Byte) (mask : BitVec 64) (s : State) : Unrefused (execMemwrptl addr data mask s) := by
  unfold execMemwrptl
  repeat' with_reducible first
    | exact .next _ | exact .fault _ | refine .ite ?_ ?_ | exact State.cxlWrite_unrefused _ _ _ _ | split | dsimp only
theorem State.regRead_unrefused (s : State) (m : Byte) (a : Nat) : Unrefused (State.regRead s m a) := by
  unfold State.regRead
  repeat' with_reducible first
    | exact .next _ | exact .fault _ | refine .ite ?_ ?_ | exact (execSemAcquire_runs _ _ _).unrefused
    | exact (execTimNowNs_runs _ _).unrefused | split | dsimp only
theorem State.bar2Read_unrefused (s : State) (m : Byte) (a : Nat) : Unrefused (State.bar2Read s m a) := by
  unfold State.bar2Read
  repeat' with_reducible first
    | exact .next _ | exact .fault _ | refine .ite ?_ ?_ | exact (State.windowRead_runs _ _ _ _).unrefused
    | split | dsimp only
theorem State.bar4Read_unrefused (s : State) (a : Nat) : Unrefused (State.bar4Read s a) := by
  unfold State.bar4Read
  repeat' with_reducible first
    | exact .next _ | exact .fault _ | refine .ite ?_ ?_ | split | dsimp only
theorem State.locRead_unrefused (s : State) (m : Byte) (l : Loc) : Unrefused (State.locRead s m l) := by
  unfold State.locRead
  repeat' with_reducible first
    | exact .next _ | exact .fault _ | refine .ite ?_ ?_ | exact State.regRead_unrefused _ _ _
    | exact State.bar2Read_unrefused _ _ _ | exact State.bar4Read_unrefused _ _
    | exact (State.cfgRead_runs _ _).unrefused | split | dsimp only
theorem execReadClear_unrefused (master : Byte) (loc : Loc) (s : State) : Unrefused (execReadClear master loc s) := by
  unfold execReadClear
  repeat' with_reducible first
    | exact .next _ | exact .fault _ | refine .ite ?_ ?_ | exact State.locRead_unrefused _ _ _ | split | dsimp only
theorem execLowWordRead_unrefused (master : Byte) (loc : Loc) (s : State) : Unrefused (execLowWordRead master loc s) := by
  unfold execLowWordRead
  repeat' with_reducible first
    | exact .next _ | exact .fault _ | refine .ite ?_ ?_ | exact State.locRead_unrefused _ _ _ | split | dsimp only
theorem State.regWrite_unrefused (s : State) (m : Byte) (a v : Nat) : Unrefused (State.regWrite s m a v) := by
  unfold State.regWrite
  repeat' with_reducible first
    | exact .next _ | exact .fault _ | refine .ite ?_ ?_ | exact (execWbHoldSet_runs _ _ _).unrefused
    | exact (execNetDb_runs _ _ _ _).unrefused | exact (execEvtErrClear_runs _).unrefused
    | exact (State.writeCmd_runs _ _ _ _).unrefused | exact (State.writeMbx_runs _ _ _ _ _).unrefused
    | exact (State.writeTap_runs _ _ _ _).unrefused | exact (State.writeVq_runs _ _ _ _).unrefused
    | exact (State.writeCdc_runs _ _ _ _).unrefused | exact (State.writeDmc_runs _ _ _).unrefused | split | dsimp only
theorem State.bar2Write_unrefused (s : State) (m : Byte) (a : Nat) (v : W32) : Unrefused (State.bar2Write s m a v) := by
  unfold State.bar2Write
  repeat' with_reducible first
    | exact .next _ | exact .fault _ | refine .ite ?_ ?_ | exact (execTxData_runs _ _ _ _).unrefused | split | dsimp only
theorem State.bar4Write_unrefused (s : State) (a : Nat) (v : W32) : Unrefused (State.bar4Write s a v) := by
  unfold State.bar4Write
  repeat' with_reducible first
    | exact .next _ | exact .fault _ | refine .ite ?_ ?_ | split | dsimp only
theorem execRegisterWrite_unrefused (master : Byte) (loc : Loc) (v : W32) (s : State) : Unrefused (execRegisterWrite master loc v s) := by
  unfold execRegisterWrite
  repeat' with_reducible first
    | exact .next _ | exact .fault _ | refine .ite ?_ ?_ | exact State.regWrite_unrefused _ _ _ _
    | exact State.bar2Write_unrefused _ _ _ _ | exact State.bar4Write_unrefused _ _ _
    | exact (State.cfgWrite_runs _ _ _).unrefused | split | dsimp only

end Sys2Proof.Machine
end

