-- ==== Sys2Proof/Laws/Steps.lean ====
section
/-!
SUPPORT. What every command keeps, and with it what every step keeps.
-/
namespace Sys2Proof.Machine
open Sys2Proof

variable {s : State}

theorem exec_kept (i : Instr) (s : State) : KeptR (!writesRegion i) s (exec i s) := by
  cases i with
  | nop => exact execNop_kept _ (Kept.refl _ s)
  | devStatus => exact execDevStatus_kept _ (Kept.refl _ s)
  | devReset => exact execDevReset_kept _ (Kept.refl _ s)
  | devSetPstate => exact execDevSetPstate_kept _ (Kept.refl _ s)
  | devGetFingerprint => exact execDevGetFingerprint_kept _ (Kept.refl _ s)
  | fwStage => exact execFwStage_kept _ (Kept.refl _ s)
  | fwVerify => exact execFwVerify_kept _ (Kept.refl _ s)
  | fwActivate => exact execFwActivate_kept _ (Kept.refl _ s)
  | evtDrain => exact execEvtDrain_kept _ (Kept.refl _ s)
  | lnkConfigPort => exact execLnkConfigPort_kept _ (Kept.refl _ s)
  | lnkMapQuads => exact execLnkMapQuads_kept _ (Kept.refl _ s)
  | lnkStart => exact execLnkStart_kept _ (Kept.refl _ s)
  | lnkStop => exact execLnkStop_kept _ (Kept.refl _ s)
  | snsLoadProfile => exact execSnsLoadProfile_kept _ (Kept.refl _ s)
  | snsCtrlXfer => exact execSnsCtrlXfer_kept _ (Kept.refl _ s)
  | snsQueueSettings => exact execSnsQueueSettings_kept _ (Kept.refl _ s)
  | lnkPattern => exact execLnkPattern_kept _ (Kept.refl _ s)
  | lnkStatus => exact execLnkStatus_kept _ (Kept.refl _ s)
  | rawSetLin => exact execRawSetLin_kept _ (Kept.refl _ s)
  | rawSetBlack => exact execRawSetBlack_kept _ (Kept.refl _ s)
  | rawSetMerge => exact execRawSetMerge_kept _ (Kept.refl _ s)
  | rawLoadDefects => exact execRawLoadDefects_kept _ (Kept.refl _ s)
  | rawSetFormat => exact execRawSetFormat_kept _ (Kept.refl _ s)
  | rawGetStats => exact execRawGetStats_kept _ (Kept.refl _ s)
  | ctxConfigure => exact execCtxConfigure_kept _ (Kept.refl _ s)
  | ctxCommit => exact execCtxCommit_kept _ (Kept.refl _ s)
  | ctxStart => exact execCtxStart_kept _ (Kept.refl _ s)
  | ctxStop => exact execCtxStop_kept _ (Kept.refl _ s)
  | ctxSetPolicy => exact execCtxSetPolicy_kept _ (Kept.refl _ s)
  | ctxPlaybackSource => exact execCtxPlaybackSource_kept _ (Kept.refl _ s)
  | ctxStatus => exact execCtxStatus_kept _ (Kept.refl _ s)
  | clrSetShading => exact execClrSetShading_kept _ (Kept.refl _ s)
  | clrSetWbMatrix => exact execClrSetWbMatrix_kept _ (Kept.refl _ s)
  | clrSetWorkspace => exact execClrSetWorkspace_kept _ (Kept.refl _ s)
  | tapConfigure => exact execTapConfigure_kept _ (Kept.refl _ s)
  | tapLoadLut => exact execTapLoadLut_kept _ (Kept.refl _ s)
  | tapEnable => exact execTapEnable_kept _ (Kept.refl _ s)
  | tapDisable => exact execTapDisable_kept _ (Kept.refl _ s)
  | clrGetZonestats => exact execClrGetZonestats_kept _ (Kept.refl _ s)
  | vltSetLayout => exact execVltSetLayout_kept _ (Kept.refl _ s)
  | takeOpen => exact execTakeOpen_kept _ (Kept.refl _ s)
  | takeClose => exact execTakeClose_kept _ (Kept.refl _ s)
  | vltPin => exact execVltPin_kept _ (Kept.refl _ s)
  | vltUnpin => exact execVltUnpin_kept _ (Kept.refl _ s)
  | vltQueryFrame => exact execVltQueryFrame_kept _ (Kept.refl _ s)
  | vqCreateQueue => exact execVqCreateQueue_kept _ (Kept.refl _ s)
  | vqDeleteQueue => exact execVqDeleteQueue_kept _ (Kept.refl _ s)
  | vqResetQueue => exact execVqResetQueue_kept _ (Kept.refl _ s)
  | vltSetVpstate => exact execVltSetVpstate_kept _ (Kept.refl _ s)
  | recConfig => exact execRecConfig_kept _ (Kept.refl _ s)
  | cdcStreamCreate => exact execCdcStreamCreate_kept _ (Kept.refl _ s)
  | cdcStreamStart => exact execCdcStreamStart_kept _ (Kept.refl _ s)
  | cdcStreamStop => exact execCdcStreamStop_kept _ (Kept.refl _ s)
  | cdcSetRate => exact execCdcSetRate_kept _ (Kept.refl _ s)
  | cdcSetRoi => exact execCdcSetRoi_kept _ (Kept.refl _ s)
  | cdcForceIrap => exact execCdcForceIrap_kept _ (Kept.refl _ s)
  | cdcDecodeOpen => exact execCdcDecodeOpen_kept _ (Kept.refl _ s)
  | cdcDecodeData => exact execCdcDecodeData_kept _ (Kept.refl _ s)
  | cdcDecodeClose => exact execCdcDecodeClose_kept _ (Kept.refl _ s)
  | setHost => exact execSetHost_kept _ (Kept.refl _ s)
  | clearHost => exact execClearHost_kept _ (Kept.refl _ s)
  | clearOut => exact execClearOut_kept _ (Kept.refl _ s)
  | cdcStreamerTemplate => exact execCdcStreamerTemplate_kept _ (Kept.refl _ s)
  | cmpConfigureLayer => exact execCmpConfigureLayer_kept _ (Kept.refl _ s)
  | cmpLoadLut => exact execCmpLoadLut_kept _ (Kept.refl _ s)
  | cmpCommit => exact execCmpCommit_kept _ (Kept.refl _ s)
  | cmpFlip => exact execCmpFlip_kept _ (Kept.refl _ s)
  | cmpSetWriteback => exact execCmpSetWriteback_kept _ (Kept.refl _ s)
  | cmpRindStatus => exact execCmpRindStatus_kept _ (Kept.refl _ s)
  | dspSetTiming => exact execDspSetTiming_kept _ (Kept.refl _ s)
  | dspRoute => exact execDspRoute_kept _ (Kept.refl _ s)
  | dspPortEnable => exact execDspPortEnable_kept _ (Kept.refl _ s)
  | dspPortDisable => exact execDspPortDisable_kept _ (Kept.refl _ s)
  | dspDcsXfer => exact execDspDcsXfer_kept _ (Kept.refl _ s)
  | dspSdiAnc => exact execDspSdiAnc_kept _ (Kept.refl _ s)
  | dspStatus => exact execDspStatus_kept _ (Kept.refl _ s)
  | audConfigurePort => exact execAudConfigurePort_kept _ (Kept.refl _ s)
  | audStart => exact execAudStart_kept _ (Kept.refl _ s)
  | audStop => exact execAudStop_kept _ (Kept.refl _ s)
  | audSetChstatus => exact execAudSetChstatus_kept _ (Kept.refl _ s)
  | audStatus => exact execAudStatus_kept _ (Kept.refl _ s)
  | timSetAddend => exact execTimSetAddend_kept _ (Kept.refl _ s)
  | timStep => exact execTimStep_kept _ (Kept.refl _ s)
  | timGet => exact execTimGet_kept _ (Kept.refl _ s)
  | fcgConfigure => exact execFcgConfigure_kept _ (Kept.refl _ s)
  | netConfigure => exact execNetConfigure_kept _ (Kept.refl _ s)
  | netLinkControl => exact execNetLinkControl_kept _ (Kept.refl _ s)
  | netSetPtp => exact execNetSetPtp_kept _ (Kept.refl _ s)
  | dflSubmit => exact execDflSubmit_kept _ (Kept.refl _ s)
  | dflResume => exact execDflResume_kept _ (Kept.refl _ s)
  | dflAbort => exact execDflAbort_kept _ (Kept.refl _ s)
  | dflStatus => exact execDflStatus_kept _ (Kept.refl _ s)
  | pwrSetInputLimit => exact execPwrSetInputLimit_kept _ (Kept.refl _ s)
  | pwrAxConfigure => exact execPwrAxConfigure_kept _ (Kept.refl _ s)
  | pwrAxSwitch => exact execPwrAxSwitch_kept _ (Kept.refl _ s)
  | pwrGetHk => exact execPwrGetHk_kept _ (Kept.refl _ s)
  | thmGetBand => exact execThmGetBand_kept _ (Kept.refl _ s)
  | tstRunAnalogue => exact execTstRunAnalogue_kept _ (Kept.refl _ s)
  | tstRunLbist => exact execTstRunLbist_kept _ (Kept.refl _ s)
  | tstRunMbist => exact execTstRunMbist_kept _ (Kept.refl _ s)
  | tstGetResult => exact execTstGetResult_kept _ (Kept.refl _ s)
  | tstSetTmux => exact execTstSetTmux_kept _ (Kept.refl _ s)
  | rprGetStatus => exact execRprGetStatus_kept _ (Kept.refl _ s)
  | rprCommitPpr => exact execRprCommitPpr_kept _ (Kept.refl _ s)
  | mbxBind => exact execMbxBind_kept _ (Kept.refl _ s)
  | mbxLock => exact execMbxLock_kept _ (Kept.refl _ s)
  | dltRefresh => exact execDltRefresh_kept _ (Kept.refl _ s)
  | semForceRelease => exact execSemForceRelease_kept _ (Kept.refl _ s)
  | packetFetch => exact execPacketFetch_kept _ _ (Kept.refl _ s)
  | packetComplete => exact execPacketComplete_kept _ _ (Kept.refl _ s)
  | replyBoundExpiry => exact execReplyBoundExpiry_kept _ _ _ (Kept.refl _ s)
  | cmdLateDone => exact execCmdLateDone_kept _ _ (Kept.refl _ s)
  | fwqUrgentAge => exact execFwqUrgentAge_kept _ _ (Kept.refl _ s)
  | cmdRpStall => exact execCmdRpStall_kept _ (Kept.refl _ s)
  | cmdDb => exact execCmdDb_kept _ _ (Kept.refl _ s)
  | cmdRpHead => exact execCmdRpHead_kept _ _ (Kept.refl _ s)
  | registerWrite => exact execRegisterWrite_kept _ _ _ (Kept.refl _ s)
  | readClear => exact execReadClear_kept _ _ (Kept.refl _ s)
  | lowWordRead => exact execLowWordRead_kept _ _ (Kept.refl _ s)
  | msixUnmask => exact execMsixUnmask_kept _ (Kept.refl _ s)
  | txData => exact execTxData_kept _ _ _ (Kept.refl _ s)
  | rxWordLo => exact execRxWordLo_kept _ _ (Kept.refl _ s)
  | semAcquire => exact execSemAcquire_kept _ _ (Kept.refl _ s)
  | semRelease => exact execSemRelease_kept _ _ (Kept.refl _ s)
  | mbxCtrlLock => exact execMbxCtrlLock_kept (Kept.refl _ s)
  | mbxTmo => exact execMbxTmo_kept _ _ (Kept.refl _ s)
  | coreReset => exact execCoreReset_kept _ (Kept.refl _ s)
  | hvmBridgeRestart => exact execHvmBridgeRestart_kept (Kept.refl _ s)
  | injectSingle => exact execInjectSingle_kept _ (Kept.refl _ s)
  | injectBurst => exact execInjectBurst_kept _ _ (Kept.refl _ s)
  | tapHoldSet => exact execTapHoldSet_kept _ _ (Kept.refl _ s)
  | wbHoldSet => exact execWbHoldSet_kept _ _ (Kept.refl _ s)
  | dlyLock => exact execDlyLock_kept (Kept.refl _ s)
  | evtErrClear => exact execEvtErrClear_kept (Kept.refl _ s)
  | timNowNs => exact execTimNowNs_kept _ (Kept.refl _ s)
  | tstStartAnalogue => exact execTstStartAnalogue_kept _ _ (Kept.refl _ s)
  | tstStartLbist => exact execTstStartLbist_kept _ _ (Kept.refl _ s)
  | tstStartMbist => exact execTstStartMbist_kept _ _ (Kept.refl _ s)
  | tstAdmitExpiry => exact execTstAdmitExpiry_kept (Kept.refl _ s)
  | testDone => exact execTestDone_kept _ (Kept.refl _ s)
  | vqSqDb => exact execVqSqDb_kept _ _ (Kept.refl _ s)
  | vqCqHead => exact execVqCqHead_kept _ _ (Kept.refl _ s)
  | vqNop => exact execVqNop_kept _ _ (Kept.refl _ s)
  | vqRead => exact execVqRead_kept _ _ (Kept.refl _ s)
  | vqWrite => exact execVqWrite_kept _ _ (Kept.refl _ s)
  | vqCopy => exact execVqCopy_kept _ _ (Kept.refl _ s)
  | vqReadFrame => exact execVqReadFrame_kept _ _ (Kept.refl _ s)
  | vqFlush => exact execVqFlush_kept _ _ (Kept.refl _ s)
  | vqAbort => exact execVqAbort_kept _ _ _ (Kept.refl _ s)
  | vqCmdStart => exact execVqCmdStart_kept _ _ (Kept.refl _ s)
  | vqTransferDone => exact execVqTransferDone_kept _ _ _ _ (Kept.refl _ s)
  | vqCplPost => exact execVqCplPost_kept _ (Kept.refl _ s)
  | vqDeferExpiry => exact execVqDeferExpiry_kept _ _ (Kept.refl _ s)
  | vqTmoExpiry => exact execVqTmoExpiry_kept _ _ _ _ (Kept.refl _ s)
  | vqCqStall => exact execVqCqStall_kept _ (Kept.refl _ s)
  | memrd => exact execMemrd_kept _ (Kept.refl _ s)
  | memrddata => exact execMemrddata_kept _ (Kept.refl _ s)
  | meminv => exact execMeminv_kept _ (Kept.refl _ s)
  | memspecrd => exact execMemspecrd_kept _ (Kept.refl _ s)
  | memwr => exact execMemwr_kept _ _ (Kept.refl _ s)
  | memwrptl => exact execMemwrptl_kept _ _ _ (Kept.refl _ s)
  | hdmCommit => exact execHdmCommit_kept _ _ _ _ (Kept.refl _ s)
  | snpinv => exact execSnpinv_kept _ _ (Kept.refl _ s)
  | fencePoll => exact execFencePoll_kept _ _ (Kept.refl _ s)
  | dmaReadError => exact execDmaReadError_kept _ _ _ _ (Kept.refl _ s)
  | cacheWriteError => exact execCacheWriteError_kept _ _ _ (Kept.refl _ s)
  | linkTrainingDone => exact execLinkTrainingDone_kept _ _ _ (Kept.refl _ s)
  | linkDown => exact execLinkDown_kept (Kept.refl _ s)
  | flr => exact execFlr_kept (Kept.refl _ s)
  | perstNAssert => exact execPerstNAssert_kept (Kept.refl _ s)
  | warmBoot => exact execWarmBoot_kept _ (Kept.refl _ s)
  | coldBoot => exact execColdBoot_kept _ (Kept.refl _ s)
  | wake => exact execWake_kept _ _ (Kept.refl _ s)
  | fwRunState => exact execFwRunState_kept (Kept.refl _ s)
  | fwActivateTimeout => exact execFwActivateTimeout_kept (Kept.refl _ s)
  | uvlo => exact execUvlo_kept (Kept.refl _ s)
  | ovlo => exact execOvlo_kept (Kept.refl _ s)
  | vinWarn => exact execVinWarn_kept _ (Kept.refl _ s)
  | recPress => exact execRecPress_kept _ (Kept.refl _ s)
  | recRelease => exact execRecRelease_kept _ (Kept.refl _ s)
  | ubMark => exact execUbMark_kept _ (Kept.refl _ s)
  | recFailFlashEnd => exact execRecFailFlashEnd_kept (Kept.refl _ s)
  | comma => exact execComma_kept _ _ _ (Kept.refl _ s)
  | cdrLockLoss => exact execCdrLockLoss_kept _ (Kept.refl _ s)
  | linkWord => exact execLinkWord_kept _ (Kept.refl _ s)
  | idle => exact execIdle_kept _ (Kept.refl _ s)
  | frameStart => exact execFrameStart_kept _ (Kept.refl _ s)
  | frameEnd => exact execFrameEnd_kept _ (Kept.refl _ s)
  | lineStart => exact execLineStart_kept _ (Kept.refl _ s)
  | lineData => exact execLineData_kept _ _ (Kept.refl _ s)
  | lineEnd => exact execLineEnd_kept _ (Kept.refl _ s)
  | embedded => exact execEmbedded_kept _ (Kept.refl _ s)
  | frameTimeout => exact execFrameTimeout_kept _ (Kept.refl _ s)
  | lnkLockTimeout => exact execLnkLockTimeout_kept _ (Kept.refl _ s)
  | snsXferStart => exact execSnsXferStart_kept _ (Kept.refl _ s)
  | snsXferDone => exact execSnsXferDone_kept _ _ (Kept.refl _ s)
  | settingsWriteDone => exact execSettingsWriteDone_kept _ _ (Kept.refl _ s)
  | setWindowExpiry => exact execSetWindowExpiry_kept _ (Kept.refl _ s)
  | trgAssert => exact execTrgAssert_kept _ (Kept.refl _ s)
  | trgDeassert => exact execTrgDeassert_kept _ (Kept.refl _ s)
  | stripeLanded => exact execStripeLanded_kept _ (Kept.refl _ s)
  | stripeStart => exact execStripeStart_kept (Kept.refl _ s)
  | stripeDone => exact execStripeDone_kept (Kept.refl _ s)
  | ladleTrigger => exact execLadleTrigger_kept _ (Kept.refl _ s)
  | readbackStale => exact execReadbackStale_kept _ (Kept.refl _ s)
  | paceTick => exact execPaceTick_kept _ (Kept.refl _ s)
  | vp1Entry => exact execVp1Entry_kept _ (Kept.refl _ s)
  | vp2Entry => exact execVp2Entry_kept _ (Kept.refl _ s)
  | peRowStart => exact execPeRowStart_kept (Kept.refl _ s)
  | peRowDone => exact execPeRowDone_kept _ (Kept.refl _ s)
  | entropySliceDone => exact execEntropySliceDone_kept _ (Kept.refl _ s)
  | spoolDrain => exact execSpoolDrain_kept _ (Kept.refl _ s)
  | cdcDrHead => exact execCdcDrHead_kept _ _ (Kept.refl _ s)
  | cdcDdHead => exact execCdcDdHead_kept _ _ (Kept.refl _ s)
  | cdcRingStall => exact execCdcRingStall_kept _ (Kept.refl _ s)
  | streamerSend => exact execStreamerSend_kept _ (Kept.refl _ s)
  | decodePictureEnd => exact execDecodePictureEnd_kept _ (Kept.refl _ s)
  | decodeOutput => exact execDecodeOutput_kept _ (Kept.refl _ s)
  | poolWaitEnd => exact execPoolWaitEnd_kept _ (Kept.refl _ s)
  | cdcDecStall => exact execCdcDecStall_kept _ (Kept.refl _ s)
  | cmpLatch => exact execCmpLatch_kept _ _ _ (Kept.refl _ s)
  | fenceTimeout => exact execFenceTimeout_kept _ _ _ (Kept.refl _ s)
  | vblankStart => exact execVblankStart_kept _ _ _ (Kept.refl _ s)
  | hotplug => exact execHotplug_kept _ _ (Kept.refl _ s)
  | dcsXferRun => exact execDcsXferRun_kept _ _ _ _ (Kept.refl _ s)
  | audBlockBoundary => exact execAudBlockBoundary_kept _ _ (Kept.refl _ s)
  | playFetch => exact execPlayFetch_kept _ (Kept.refl _ s)
  | audFrameIn => exact execAudFrameIn_kept _ _ _ _ (Kept.refl _ s)
  | audStartInstant => exact execAudStartInstant_kept (Kept.refl _ s)
  | audClockStop => exact execAudClockStop_kept _ (Kept.refl _ s)
  | audGlitch => exact execAudGlitch_kept _ (Kept.refl _ s)
  | audRateChange => exact execAudRateChange_kept _ (Kept.refl _ s)
  | holdoverExit => exact execHoldoverExit_kept _ (Kept.refl _ s)
  | tbWrap => exact execTbWrap_kept (Kept.refl _ s)
  | fcgTick => exact execFcgTick_kept _ (Kept.refl _ s)
  | netRxFrame => exact execNetRxFrame_kept _ _ _ (Kept.refl _ s)
  | netTxEgress => exact execNetTxEgress_kept _ _ (Kept.refl _ s)
  | netLaunch => exact execNetLaunch_kept (Kept.refl _ s)
  | netLinkChange => exact execNetLinkChange_kept _ _ _ (Kept.refl _ s)
  | netDb => exact execNetDb_kept _ _ _ (Kept.refl _ s)
  | dflJobStart => exact execDflJobStart_kept _ _ _ (Kept.refl _ s)
  | dflJobEnd => exact execDflJobEnd_kept _ (Kept.refl _ s)
  | dflDeferExpiry => exact execDflDeferExpiry_kept _ (Kept.refl _ s)
  | dmcRefresh => exact execDmcRefresh_kept _ _ (Kept.refl _ s)
  | dmcUncorrectable => exact execDmcUncorrectable_kept _ _ _ (Kept.refl _ s)
  | suspectAppend => exact execSuspectAppend_kept _ (Kept.refl _ s)
  | dmcDelayPass => exact execDmcDelayPass_kept (Kept.refl _ s)
  | hkRoundComplete => exact execHkRoundComplete_kept _ (Kept.refl _ s)
  | budgetTick => exact execBudgetTick_kept _ (Kept.refl _ s)
  | axTrip => exact execAxTrip_kept _ _ (Kept.refl _ s)
  | axRetryExpiry => exact execAxRetryExpiry_kept _ (Kept.refl _ s)
  | axRetryReset => exact execAxRetryReset_kept _ (Kept.refl _ s)
  | axLoadChange => exact execAxLoadChange_kept _ _ (Kept.refl _ s)
  | axReverseCurrent => exact execAxReverseCurrent_kept _ (Kept.refl _ s)
  | hcrcFail => exact execHcrcFail_kept _ (Kept.refl _ s)
  | reservedTypePacket => exact execReservedTypePacket_kept _ (Kept.refl _ s)
  | patSyncChange => exact execPatSyncChange_kept _ _ (Kept.refl _ s)
  | ovloExit => exact execOvloExit_kept (Kept.refl _ s)
  | axReverseClear => exact execAxReverseClear_kept _ (Kept.refl _ s)
  | axLimiting => exact execAxLimiting_kept _ _ (Kept.refl _ s)
  | lnkStopWaitExpiry => exact execLnkStopWaitExpiry_kept _ (Kept.refl _ s)
  | doeRequest => exact execDoeRequest_kept (Kept.refl _ s)
  | linkCrcError => exact execLinkCrcError_kept (Kept.refl _ s)
  | cxlCacheProtocolError => exact execCxlCacheProtocolError_kept _ (Kept.refl _ s)

end Sys2Proof.Machine
end

