-- ==== Sys2Proof/Laws/Units.lean ====
section
/-!
SUPPORT. Laws of the units: the inner state of a port, lane, context, tap, stream, session, composer, generator, output or queue pair
after an update of one of them.
-/
namespace Sys2Proof.Machine
open Sys2Proof

theorem vec_get_set {α : Type} {n : Nat} (v : Vector α n) (i : Nat) (x d : α) (h : i < n) :
    (v.setIfInBounds i x).toList.getD i d = x := by
  simp [List.getD, h]

theorem vec_get_set_ne {α : Type} {n : Nat} (v : Vector α n) {i j : Nat} (x d : α) (h : j ≠ i) :
    (v.setIfInBounds i x).toList.getD j d = v.toList.getD j d := by
  have h' : ¬ i = j := fun e => h e.symm
  simp [List.getD, h']

theorem vec_get_out {α : Type} {n : Nat} (v : Vector α n) {i : Nat} (d : α) (h : n ≤ i) : v.toList.getD i d = d := by
  have : v.toList.length ≤ i := by simpa using h
  simp [List.getD, List.getElem?_eq_none this]

variable (s : State)

@[simp] theorem State.pt_modPt {i : Nat} (g : PortSt → PortSt) (h : i < 4) : (s.modPt i g).pt i = g (s.pt i) :=
  vec_get_set _ _ _ _ h
@[simp] theorem State.pt_modPt_ne {i j : Nat} (g : PortSt → PortSt) (h : j ≠ i) : (s.modPt i g).pt j = s.pt j :=
  vec_get_set_ne _ _ _ h
theorem State.pt_out {i : Nat} (h : 4 ≤ i) : s.pt i = {} := vec_get_out _ _ h
@[simp] theorem State.rw__modRw {i : Nat} (g : RawSt → RawSt) (h : i < 4) : (s.modRw i g).rw_ i = g (s.rw_ i) :=
  vec_get_set _ _ _ _ h
@[simp] theorem State.rw__modRw_ne {i j : Nat} (g : RawSt → RawSt) (h : j ≠ i) : (s.modRw i g).rw_ j = s.rw_ j :=
  vec_get_set_ne _ _ _ h
theorem State.rw__out {i : Nat} (h : 4 ≤ i) : s.rw_ i = {} := vec_get_out _ _ h
@[simp] theorem State.ln_modLn {i : Nat} (g : LaneSt → LaneSt) (h : i < 24) : (s.modLn i g).ln i = g (s.ln i) :=
  vec_get_set _ _ _ _ h
@[simp] theorem State.ln_modLn_ne {i j : Nat} (g : LaneSt → LaneSt) (h : j ≠ i) : (s.modLn i g).ln j = s.ln j :=
  vec_get_set_ne _ _ _ h
theorem State.ln_out {i : Nat} (h : 24 ≤ i) : s.ln i = {} := vec_get_out _ _ h
@[simp] theorem State.cx_modCx {i : Nat} (g : CtxSt → CtxSt) (h : i < 6) : (s.modCx i g).cx i = g (s.cx i) :=
  vec_get_set _ _ _ _ h
@[simp] theorem State.cx_modCx_ne {i j : Nat} (g : CtxSt → CtxSt) (h : j ≠ i) : (s.modCx i g).cx j = s.cx j :=
  vec_get_set_ne _ _ _ h
theorem State.cx_out {i : Nat} (h : 6 ≤ i) : s.cx i = {} := vec_get_out _ _ h
@[simp] theorem State.tp_modTp {i : Nat} (g : TapSt → TapSt) (h : i < 10) : (s.modTp i g).tp i = g (s.tp i) :=
  vec_get_set _ _ _ _ h
@[simp] theorem State.tp_modTp_ne {i j : Nat} (g : TapSt → TapSt) (h : j ≠ i) : (s.modTp i g).tp j = s.tp j :=
  vec_get_set_ne _ _ _ h
theorem State.tp_out {i : Nat} (h : 10 ≤ i) : s.tp i = {} := vec_get_out _ _ h
@[simp] theorem State.es_modEs {i : Nat} (g : EncSt → EncSt) (h : i < 16) : (s.modEs i g).es i = g (s.es i) :=
  vec_get_set _ _ _ _ h
@[simp] theorem State.es_modEs_ne {i j : Nat} (g : EncSt → EncSt) (h : j ≠ i) : (s.modEs i g).es j = s.es j :=
  vec_get_set_ne _ _ _ h
theorem State.es_out {i : Nat} (h : 16 ≤ i) : s.es i = {} := vec_get_out _ _ h
@[simp] theorem State.ds_modDs {i : Nat} (g : DecSt → DecSt) (h : i < 2) : (s.modDs i g).ds i = g (s.ds i) :=
  vec_get_set _ _ _ _ h
@[simp] theorem State.ds_modDs_ne {i j : Nat} (g : DecSt → DecSt) (h : j ≠ i) : (s.modDs i g).ds j = s.ds j :=
  vec_get_set_ne _ _ _ h
theorem State.ds_out {i : Nat} (h : 2 ≤ i) : s.ds i = {} := vec_get_out _ _ h
@[simp] theorem State.cmpU_modCmp {i : Nat} (g : CmpSt → CmpSt) (h : i < 4) : (s.modCmp i g).cmpU i = g (s.cmpU i) :=
  vec_get_set _ _ _ _ h
@[simp] theorem State.cmpU_modCmp_ne {i j : Nat} (g : CmpSt → CmpSt) (h : j ≠ i) : (s.modCmp i g).cmpU j = s.cmpU j :=
  vec_get_set_ne _ _ _ h
theorem State.cmpU_out {i : Nat} (h : 4 ≤ i) : s.cmpU i = {} := vec_get_out _ _ h
@[simp] theorem State.fcg_modFcg {i : Nat} (g : FcgSt → FcgSt) (h : i < 4) : (s.modFcg i g).fcg i = g (s.fcg i) :=
  vec_get_set _ _ _ _ h
@[simp] theorem State.fcg_modFcg_ne {i j : Nat} (g : FcgSt → FcgSt) (h : j ≠ i) : (s.modFcg i g).fcg j = s.fcg j :=
  vec_get_set_ne _ _ _ h
theorem State.fcg_out {i : Nat} (h : 4 ≤ i) : s.fcg i = {} := vec_get_out _ _ h
@[simp] theorem State.tg_modTg {i : Nat} (g : TgSt → TgSt) (h : i < 4) : (s.modTg i g).tg i = g (s.tg i) :=
  vec_get_set _ _ _ _ h
@[simp] theorem State.tg_modTg_ne {i j : Nat} (g : TgSt → TgSt) (h : j ≠ i) : (s.modTg i g).tg j = s.tg j :=
  vec_get_set_ne _ _ _ h
theorem State.tg_out {i : Nat} (h : 4 ≤ i) : s.tg i = {} := vec_get_out _ _ h
@[simp] theorem State.dpt_modDpt {i : Nat} (g : DspPort → DspPort) (h : i < 4) : (s.modDpt i g).dpt i = g (s.dpt i) :=
  vec_get_set _ _ _ _ h
@[simp] theorem State.dpt_modDpt_ne {i j : Nat} (g : DspPort → DspPort) (h : j ≠ i) : (s.modDpt i g).dpt j = s.dpt j :=
  vec_get_set_ne _ _ _ h
theorem State.dpt_out {i : Nat} (h : 4 ≤ i) : s.dpt i = {} := vec_get_out _ _ h
@[simp] theorem State.ap_modAp {i : Nat} (g : AudPort → AudPort) (h : i < 8) : (s.modAp i g).ap i = g (s.ap i) :=
  vec_get_set _ _ _ _ h
@[simp] theorem State.ap_modAp_ne {i j : Nat} (g : AudPort → AudPort) (h : j ≠ i) : (s.modAp i g).ap j = s.ap j :=
  vec_get_set_ne _ _ _ h
theorem State.ap_out {i : Nat} (h : 8 ≤ i) : s.ap i = {} := vec_get_out _ _ h
@[simp] theorem State.vp_modVp {i : Nat} (g : VqPair → VqPair) (h : i < 16) : (s.modVp i g).vp i = g (s.vp i) :=
  vec_get_set _ _ _ _ h
@[simp] theorem State.vp_modVp_ne {i j : Nat} (g : VqPair → VqPair) (h : j ≠ i) : (s.modVp i g).vp j = s.vp j :=
  vec_get_set_ne _ _ _ h
theorem State.vp_out {i : Nat} (h : 16 ≤ i) : s.vp i = {} := vec_get_out _ _ h

/-- The control channel's queue is apart from the registers. -/
theorem State.startSettings_on (p : Nat) (x : Fld) : (s.startSettings p).on x = s.on x := by
  unfold State.startSettings
  dsimp only
  cases (s.pt p).queue with
  | nil => rfl
  | cons a t =>
    cases (s.pt p).profile with
    | none => rfl
    | some f =>
      dsimp only
      split <;> rfl
theorem State.channelNext_on (p : Nat) (x : Fld) : (s.channelNext p).on x = s.on x := by
  unfold State.channelNext
  split
  · exact State.startSettings_on s p x
  · split <;> rfl
theorem State.queueSeq_on (p : Nat) (f : Profile) (es : List Nat) (x : Fld) : (s.queueSeq p f es).on x = s.on x := by
  unfold State.queueSeq
  split
  · rfl
  · exact State.channelNext_on _ p x

end Sys2Proof.Machine
end

