-- ==== Sys2Proof/Tests/Slice0.lean ====
section
/-!
SUPPORT. Tests: a witness for the hypotheses of every clause of every statement, terms that well-formedness refuses, and single steps
whose results come from the spec.
-/
open Sys2Proof Sys2Proof.Machine

/-- A packet for a test: its target, its parameter words, its header flags and its ring. -/
def Sys2Proof.Tests.pkt (target : Nat) (ws : List Nat) (flags : Nat := 0) (ring : Fin 4 := 0) : Pkt :=
  {
    ring := ring, seq := 0, flags := BitVec.ofNat 16 flags, target := BitVec.ofNat 16 target, params := ws.map (BitVec.ofNat 32)
    buf := .bytes [] }

namespace Sys2Proof.Tests
set_option Elab.async false

/-- A table of entries whose fields are at most 16 bytes wide is no longer than this. -/
def dltBound (es : List DltEntry) : Nat := 32 + (es.map (fun e => 16 + 16 * e.body.length)).sum

def narrow (es : List DltEntry) : Bool := es.all (fun e => e.body.all (fun f => decide (f.width.getD 8 ≤ 16)))

theorem leBytes_size (k v : Nat) : (leBytes k v).length = k := by
  induction k generalizing v with
  | zero => rfl
  | succ k ih => simp [leBytes, ih]

theorem body_size (ty k : Nat) (fs : List DltFld) (h : fs.all (fun f => decide (f.width.getD 8 ≤ 16)) = true) :
    ((fs.zipIdx k).flatMap (fun x => leBytes (x.1.width.getD ((Config.dltWidth ty x.2).toNat + 1)) x.1.val)).length ≤ 16 * fs.length := by
  induction fs generalizing k with
  | nil => simp
  | cons f t ih =>
    have h1 : f.width.getD 8 ≤ 16 := by simpa using (List.all_eq_true.mp h) f (by simp)
    have h2 := ih (k + 1) (List.all_eq_true.mpr (fun x hx => (List.all_eq_true.mp h) x (by simp [hx])))
    have h3 : f.width.getD ((Config.dltWidth ty k).toNat + 1) ≤ 16 := by
      have := (Config.dltWidth ty k).isLt
      cases hf : f.width with
      | none => simp; omega
      | some w => simpa [hf] using h1
    simp only [List.zipIdx_cons, List.flatMap_cons, List.length_append, Sys2Proof.Tests.leBytes_size, List.length_cons]
    omega

theorem table_size (k : Nat) (es : List DltEntry) (h : Sys2Proof.Tests.narrow es = true) :
    ((es.zipIdx k).flatMap (fun x => dltEntryBytes x.1 x.2)).length ≤ (es.map (fun e => 16 + 16 * e.body.length)).sum := by
  induction es generalizing k with
  | nil => simp
  | cons e t ih =>
    have h1 := (List.all_eq_true.mp h) e (by simp)
    have h2 := ih (k + 1) (List.all_eq_true.mpr (fun x hx => (List.all_eq_true.mp h) x (by simp [hx])))
    have h3 := Sys2Proof.Tests.body_size e.type 0 e.body h1
    have h4 : (dltEntryBytes e k).length ≤ 16 + 16 * e.body.length := by
      simp only [dltEntryBytes, bodyBytes, List.length_append, Sys2Proof.Tests.leBytes_size, List.length_replicate]
      omega
    simp only [List.zipIdx_cons, List.flatMap_cons, List.length_append, List.map_cons, List.sum_cons]
    omega

theorem dlt_fits (s : State) (h : Sys2Proof.Tests.narrow s.dlt.entries = true) (n : Nat) (k : Sys2Proof.Tests.dltBound s.dlt.entries ≤ n) :
    dltLength s.dlt.entries ≤ n := Nat.le_trans (Nat.add_le_add_left (Sys2Proof.Tests.table_size 0 _ h) 32) k

/-- The first 1,168 bytes of a calibration record (Table 19-3), and the record with its check word. -/
def calBody : List Byte := [0x46, 0x4C, 0x44, 0x43, 0x00, 0x01] ++ List.replicate 1162 0
def goodCal : List Byte := calBody ++ leBytes 4 (crc32 calBody)

theorem shiftR_lt (n c : Nat) (h : c < 2 ^ 32) : crcShiftR 0xEDB88320 n c < 2 ^ 32 := by
  induction n generalizing c with
  | zero => exact h
  | succ n ih =>
    have hs : c >>> 1 < 2 ^ 32 := by rw [Nat.shiftRight_eq_div_pow]; omega
    unfold crcShiftR
    apply ih
    split
    · exact Nat.xor_lt_two_pow hs (by decide)
    · exact hs

theorem crc32_lt (bs : List Byte) : crc32 bs < 2 ^ 32 := by
  have run : ∀ (bs : List Byte) (c : Nat), c < 2 ^ 32 → crc32Run c bs < 2 ^ 32 := by
    intro bs
    induction bs with
    | nil => intro c h; exact h
    | cons b t ih =>
      intro c h
      have hb : b.toNat < 2 ^ 32 := by have := b.isLt; omega
      exact ih _ (Sys2Proof.Tests.shiftR_lt 8 _ (Nat.xor_lt_two_pow h hb))
  exact Nat.xor_lt_two_pow (run bs _ (by decide)) (by decide)

theorem leNat_four (v : Nat) (h : v < 2 ^ 32) : leNat (leBytes 4 v) = v := by
  simp only [leBytes, leNat, BitVec.toNat_ofNat]
  omega

theorem goodCal_valid : calValid Sys2Proof.Tests.goodCal = true := by
  have hl : Sys2Proof.Tests.calBody.length = 1168 := by
    unfold Sys2Proof.Tests.calBody
    rw [List.length_append, List.length_replicate]
    rfl
  have h4 : (leBytes 4 (crc32 Sys2Proof.Tests.calBody)).length = 4 := rfl
  have hd : fldAt Sys2Proof.Tests.goodCal 1168 4 = crc32 Sys2Proof.Tests.calBody := by
    unfold fldAt Sys2Proof.Tests.goodCal
    rw [List.drop_left' hl, List.take_of_length_le (Nat.le_of_eq h4), Sys2Proof.Tests.leNat_four _ (Sys2Proof.Tests.crc32_lt _)]
  have ht : Sys2Proof.Tests.goodCal.take 1168 = Sys2Proof.Tests.calBody := List.take_left' hl
  have h0 : fldAt Sys2Proof.Tests.goodCal 0 4 = 0x43444C46 := rfl
  have h1 : fldAt Sys2Proof.Tests.goodCal 4 2 = 0x0100 := rfl
  have hn : Sys2Proof.Tests.goodCal.length = 1172 := by rw [Sys2Proof.Tests.goodCal, List.length_append, hl, h4]
  unfold calValid
  rw [hd, ht, h0, h1, hn]
  simp

/-- A boot in which nothing fails. -/
def goodBoot : BootRep := { cal := (Sys2Proof.Tests.goodCal, []) }

theorem goodBoot_cal : (calRecord Sys2Proof.Tests.goodBoot).isSome = true := by
  unfold calRecord
  rw [if_pos (show calValid Sys2Proof.Tests.goodBoot.cal.1 = true from Sys2Proof.Tests.goodCal_valid)]
  rfl

/-- Line bits of `2 * n` UI, a one and a zero in turn. -/
def pairs (n : Nat) : List Bool := n.rec [] (fun _ r => true :: false :: r)

/-- The comma of R89. -/
def commaBits : List Bool := List.replicate 28 true ++ List.replicate 12 false

theorem findComma_pairs (n : Nat) : ∀ (acc t : List Bool),
    findComma 0 acc (Sys2Proof.Tests.pairs n ++ t) = findComma 0 ((Sys2Proof.Tests.pairs n).reverse ++ acc) t := by
  induction n with
  | zero => intros; rfl
  | succ n ih =>
    intro acc t
    show findComma 0 (false :: true :: acc) (Sys2Proof.Tests.pairs n ++ t) = findComma 0 ((true :: false :: Sys2Proof.Tests.pairs n).reverse ++ acc) t
    rw [ih]
    simp

/-- The interval of a comma after `2 * n` UI. -/
theorem comma_found (n : Nat) :
    findComma 0 [] ([] ++ (Sys2Proof.Tests.pairs n ++ Sys2Proof.Tests.commaBits)) = some (Sys2Proof.Tests.pairs n, []) := by
  rw [List.nil_append, findComma_pairs]
  show some ((((Sys2Proof.Tests.pairs n).reverse ++ []).reverse), ([] : List Bool)) = _
  simp

/-- The state of a port of two lanes whose lane 0 has found a comma. -/
def commaState : State := (((((State.reset.setF (LNK_P_CFG__LANES 0) 2).setF (LNK_P_CFG__CW 0) 0).setF LNK_QMAP__QMAP 0).setB (LNK_L_STAT__CDR_LOCK 0) true).setF (LNK_QCFG__EQ 0) (((((State.reset.setF (LNK_P_CFG__LANES 0) 2).setF (LNK_P_CFG__CW 0) 0).setF LNK_QMAP__QMAP 0).setB (LNK_L_STAT__CDR_LOCK 0) true).eqPreset 0)).modLn 0 (fun q => { q with line := [] })

/-- A sensor profile of 1 × 2 pixels. -/
def prof : Profile := ⟨[], 1, 2, 0, 1, false, 0, 0, 0, [], [], [], []⟩

/-- Port 0 enabled and LOCKED, with a profile, every VC on. -/
def onPort : State :=
  ((((State.reset.setB (LNK_P_CFG__EN 0) true).setB (LNK_P_STAT__LOCKED 0) true).setF (LNK_P_CFG__VC_EN 0) 15).modPt 0
    (fun q => { q with profile := some prof }))

/-- The PCRC of a payload. -/
def pcrcOf (ws : List W32) : W32 := BitVec.ofNat 32 (payloadCrc ws)

/-- A header word of TYPE `ty`, VC `vc` and LENGTH `n` with its CRC. -/
def hdrOf (ty vc n : Nat) : W32 :=
  BitVec.ofNat 32 (ty * 0x10000000 + vc * 0x4000000 + n * 0x10000 +
    wordCrc (BitVec.ofNat 32 (ty * 0x10000000 + vc * 0x4000000 + n * 0x10000)))

/-- Port 0 with a packet in front. -/
def arrived (s : State) (ty vc : Nat) (ws : List W32) : State :=
  s.modPt 0 (fun q => { q with stream := hdrOf ty vc ws.length :: ws ++ (if ws = [] then [] else [pcrcOf ws]) })

/-- Context 0 RUNNING with a committed image. -/
def running : State :=
  (onPort.setCst 0 2).modCx 0 (fun q => { q with
    pending := some { id := 1, cfg := {}, raw := {}, clr := {}, taps := [], fp := 0 } })

/-- The frame of inFrame. -/
def frame0 : Ingest := {
  recorded := false, fid := 0, gen := 0, epoch := 0, ns := 0, frac := 0, width := 1, height := 2
  sbits := 10, cfg := {}, cur := [some ⟨0, [], false⟩, none, none] }

/-- A frame with no open line. -/
def frame1 : Ingest := {
  recorded := false, fid := 0, gen := 0, epoch := 0, ns := 0, frac := 0, width := 1, height := 2
  sbits := 10, cfg := {} }

/-- Port 0 with a frame in ingest, a line of it open. -/
def inFrame : State :=
  onPort.modRw 0 (fun r => { r with frame := some frame0 })

/-- Port 0 with a frame in ingest, no line of it open. -/
def inFrame1 : State := onPort.modRw 0 (fun r => { r with frame := some frame1 })

/-- The three states of FrameStarts once the packet is taken. -/
def taken (s : State) : State := (arrived s 1 0 [7, 0]).packetOff 0 (hdrOf 1 0 2)

theorem wordsOf_zero : ∀ (l : List Byte), (∀ b ∈ l, b = 0) → ∀ w ∈ wordsOf l, w = 0 := by
  intro l
  induction l using wordsOf.induct with
  | case1 a b c d t ih =>
    intro h w hw
    simp only [wordsOf, List.mem_cons] at hw
    rcases hw with rfl | hw
    · rw [h a (by simp), h b (by simp), h c (by simp), h d (by simp)]; decide
    · exact ih (fun x hx => h x (by simp [hx])) w hw
  | case2 x hx => intro _ w hw; simp [wordsOf] at hw

theorem words_small (n : Nat) : (wordsOf (List.replicate n 0)).any (fun w => decide (0x1000000 ≤ w)) = false := by
  rw [List.any_eq_false]
  intro w hw
  rw [Sys2Proof.Tests.wordsOf_zero _ (by intro b hb; exact (List.mem_replicate.mp hb).2) w hw]
  decide

theorem readZero (s : State) (r : BufRef) (n : Nat) (h : r.len = n) (hn : n ≠ 0) (hs : r.space ≠ 1) :
    s.readRef r (.bytes []) = some (List.replicate n 0) := by
  subst h
  unfold State.readRef
  rw [if_neg hn, if_neg hs]
  simp [padBytes]

/-- A sensor profile of 64 × 64 pixels. -/
def prof64 : Profile := ⟨[], 64, 64, 0, 1, false, 0, 0, 0, [], [], [], []⟩

/-- Context 0 set up for a commit: port 0 with a profile, the size, budget and vault it needs. -/
def committable : State :=
  (((((State.reset.modPt 0 (fun q => { q with profile := some prof64 })).wn (CTX_C_SIZE 0) 0x400040).wn (CTX_C_BUDGET 0) 0xFFFFF).setF (RAW_P_CFG__READOUTS 0) 1).setF (RAW_P_CFG__LANES 0) 4).setF (RAW_P_LINE_NS__LINE_NS_MIN 0) 0xFFFFF

/-- A committed image. -/
def image : Image := { id := 1, cfg := { width := 64, height := 64 }, raw := {}, clr := {}, taps := [], fp := 0 }

/-- One trigger more. -/
def triggered (s : State) : State := { s with ladle := { s.ladle with triggers := s.ladle.triggers + 1 } }

/-- A frame of one stripe, landed. -/
def frameA : ProcFrame := { fid := 7, gen := 0, width := 64, height := 64, landed := [0], closed := true }

/-- A frame of two stripes, both landed, the first started. -/
def frameB : ProcFrame := { fid := 7, gen := 0, width := 64, height := 128, landed := [0, 0], closed := true, started := 1 }

/-- Stripe 0 of frame 7 of context 0. -/
def stripe0 : CurStripe := ⟨0, 7, 0, 0, 64, 0, 0, [], image, 0, 0, none⟩

/-- Context c RUNNING with one frame. -/
def oneFrame (c : Nat) (f : ProcFrame) : State := ((State.reset.setCst c 2).setB (CTX_C_POLICY__ESSENTIAL c) false).modCx c (fun q => { q with frames := [f] })

/-- Stripe 0 under way on frame 7 of context 0. -/
def stripeOn : State := { oneFrame 0 frameA with ladle := { cur := some stripe0 } }

/-- Playback context 4 RUNNING with one frame and a next source. -/
def playing4 : State := (oneFrame 4 frameB).modCx 4 (fun q => { q with nextSource := some ⟨true, 0, false, 0, 0, 0, 0⟩ })

/-- Queue 0 on, with sixteen slots, sixty-four tags and one slot to fetch, on a device that is ready. -/
def oneSlot : State :=
  ((({ State.reset with dev := { State.reset.dev with ready := true } }.setB (VQ_SQ_CFG__EN 0) true).setF (VQ_SQ_CFG__LOG2N 0) 4).wn (VQ_Q_TAGS 0) 0x400000).modVp 0
    (fun q => { q with tail := 1 })

/-- The command that a slot of oneSlot holds. -/
def held (bs : List Byte) : VqCmd := { bytes := padBytes 64 bs, slot := 0, sqHead := 1, seq := 0, db := 0, tagged := true }

/-- oneSlot once it has fetched a command. -/
def fetched (bs : List Byte) : State := ((oneSlot.vqHeadNext 0).modVq (fun q => { q with seq := q.seq + 1, last := 0 })).modVp 0 (fun q => { q with cmds := q.cmds ++ [held bs] })

theorem vqFetch_some (s : State) (n opc : Nat) (slot : VqSlot) (bs : List Byte) (a : AbortAt) (c : VqCmd) (u : State) (h1 : s.vqCanFetch n = true)
    (h0 : s.vqPassed n = false) (hr : s.vqRead n slot = .entry bs)
    (h2 : ((padBytes 64 bs).getD 0 0).toNat = opc ∨ [0, 1, 2, 3, 4, 8, 9].contains ((padBytes 64 bs).getD 0 0).toNat = false)
    (h3 : c = { bytes := padBytes 64 bs, slot := s.f (VQ_SQ_HEAD__HEAD n) % (s.vqHeadNext n).vqN n, sqHead := (s.f (VQ_SQ_HEAD__HEAD n) + 1) % (2 * (s.vqHeadNext n).vqN n), seq := (s.vqHeadNext n).vq.seq, db := (match (s.vp n).dbs.head? with | some d => d.2 | none => s.vq.db), tagged := true })
    (h5 : u = ((s.vqHeadNext n).modVq (fun q => { q with seq := q.seq + 1, last := n })).modVp n (fun q => { q with cmds := q.cmds ++ [c] })) :
    ((s.vqHeadNext n).vqCheck n { c with tagged := false } = none → s.vqFetch n opc slot a = (u.vqAdmit.vqTry n c a).vqSettle.vqAdmit)
    ∧ (∀ x, (s.vqHeadNext n).vqCheck n { c with tagged := false } = some x → x.1 ≠ vqBadTag → x.1 ≠ vqDupTag → x.1 ≠ vqSafe →
      s.vqFetch n opc slot a = (u.vqFinish n c.seq x.1 0 x.2).vqSettle) := by
  have g : ¬ (((padBytes 64 bs).getD 0 0).toNat ≠ opc ∧ [0, 1, 2, 3, 4, 8, 9].contains ((padBytes 64 bs).getD 0 0).toNat = true) := by
    rintro ⟨a, b⟩
    rcases h2 with h | h
    · exact a h
    · exact absurd (h.symm.trans b) (by decide)
  have t : ¬ (s.vqCanFetch n = false ∨ s.vqPassed n = true) := by simp [h1, h0]
  constructor
  · intro h4
    unfold State.vqFetch
    rw [if_neg t, hr]
    cases hd : (s.vp n).dbs.head? <;> simp only [hd] at h3 <;> subst h5 h3 <;> dsimp only at h4 <;>
      simp only [if_neg g, hd, h4]
  · intro x h4 k1 k2 k3
    unfold State.vqFetch
    rw [if_neg t, hr]
    have hk : (x.1 != vqBadTag && x.1 != vqDupTag && x.1 != vqSafe) = true := by simp [k1, k2, k3]
    cases hd : (s.vp n).dbs.head? <;> simp only [hd] at h3 <;> subst h5 h3 <;> dsimp only at h4 <;>
      simp only [if_neg g, hd, h4, hk]

/-- A READ of one sector that has started. -/
def readCmd : VqCmd := { bytes := padBytes 64 [1, 0, 0, 0, 1], slot := 0, sqHead := 1, seq := 0, db := 0, tagged := true, started := true }

/-- A WRITE of one sector that has started. -/
def writeCmd : VqCmd := { readCmd with bytes := padBytes 64 [2, 0, 0, 0, 1] }

/-- Queue 0 on with one outstanding command. -/
def inQueue (c : VqCmd) : State :=
  (({ State.reset with dev := { State.reset.dev with ready := true } }.setB (VQ_SQ_CFG__EN 0) true).setF (VQ_SQ_CFG__LOG2N 0) 4).modVp 0
    (fun q => { q with cmds := [c] })

/-- Engine 4 set up as a 64 × 64 YUV tap whose buffers a coding stream can take. -/
def tapped : State :=
  ((State.reset.setF (TAP_T_OUT__OW 4) 64).setF (TAP_T_OUT__OH 4) 64).setF (TAP_T_FMT__PACK 4) 3

/-- A CDC_STREAM_CREATE of stream 0. -/
def createPkt : Pkt := pkt 0x4000 [0x780000, 0x20001, 0, 0, 0, 0, 0, 0, 0, 0, 0, 0, 0, 0, 0, 2]

/-- Stream 0 with one packet in its backlog and the link up. -/
def sending : State := (State.reset.setF NET_STAT__LINK 1).modEs 0 (fun e => { e with backlog := [⟨⟨0, 256, List.replicate 62 0⟩, none, 0, 0, [([7], true)]⟩] })

/-- Its packet. -/
def sendHead : Tq1Packet := (sending.tq1Head 0).getD ⟨[], 0, 0, 0⟩

/-- The same with an empty bucket. -/
def paced : State := sending.modEs 0 (fun e => { e with pace := 1, tokenNs := some 0 })

/-- Session 0 open with a bitstream ring of 64 KiB. -/
def opened : State := State.reset.modDs 0 (fun e => { e with open_ := true, pool := true, maxW := 64, maxH := 64, ring := 0x10000 })

/-- A source picture, whole. -/
def encSrc : EncSrc := { fid := 0, buf := 0, tag := 0, epoch := 0, ns := 0, commitId := 0, lines := 64, ended := true }

/-- A picture to code, no row of it in the engines. -/
def encPic : EncPic := {
  src := encSrc, slot := 0, poc := 0, irap := true, idr := true, qp0 := 0, d := 0, t := 0, l := 0, h := 0, lead := [], roi := [] }

/-- A picture of one CTU in buffer 0. -/
def pic0 : DecPic := { buf := 0, poc := 0, width := 64, height := 64, fmt422 := false, depth := 8, ctb := 64, ended := true, ctus := [0], peRow := 1 }

/-- Stream 0 RUNNING, its picture of one row in the engines, the row in the pixel engine. -/
def coding : State :=
  let t := ((State.reset.wn (CDC_S_STATE 0) 2).modEs 0 (fun e => { e with ow := 64, oh := 64, pic := some { encPic with rows := [⟨0, [], false, none, none, []⟩] } }))
  { t with cdc := { t.cdc with pe := some (0, 0) } }

/-- Session 0 with its row in the pixel engine. -/
def decoding : State :=
  let t := opened.modDs 0 (fun e => { e with cur := some pic0 })
  { t with cdc := { t.cdc with pe := some (16, 0) } }

/-- A flip of tag 7 that waits on its fence. -/
def flip7 : Flip := ⟨0, 64, 0, 7, true, false, 0⟩

/-- A composed frame. -/
def frm : CmpFrame := ⟨0, none, false, 0, false⟩

/-- Composer 0 on generator 0, whose timing is set and whose blanking may last 100 to 120 lines. -/
def driven : State :=
  { State.reset with dsp := { State.reset.dsp with route := [some 0, none, none, none] } }.modTg 0 (fun g => {
    g with set := true, blank := some 0, soft := { g.soft with vmin := 100, vmax := 120, lock := false } })

/-- The same with one blanking length. -/
def fixedDriven : State := driven.modTg 0 (fun g => { g with soft := { g.soft with vmin := 100, vmax := 100 } })

/-- A layer that takes its picture from memory. -/
def memLayer : LayerCfg := { en := true, sw := 64, sh := 64, dw := 64, dh := 64, ftmo := 1 }

/-- A DSP_SET_TIMING of generator 0: 64 × 64, 96 pixels a line, blanking 8 lines, 1 MHz. -/
def timingPkt : Pkt := pkt 0x6010 [0, 0x400040, 96, 0x80008, 1000, 0, 0, 0, 0xFFFFFFFF, 0, 0, 0]

/-- A DSP_PORT_ENABLE of a DSI port at 4,500 Mbit/s. -/
def dsiPkt : Pkt := pkt 0x6002 [0, 4500, 0, 0]

/-- Port 2 with a panel, on generator 0 with a small timing. -/
def dsiReady : State := ((State.reset.modTg 0 (fun _ => (timingOf timingPkt).getD {})).modDpt 2 (fun d => { d with tg := some 0 })).setB (DSP_P_STAT__ATTACHED 2) true

/-- Audio port 0 running, a master I²S input. -/
def audIn : State := (State.reset.setB (AUD_P_STAT__RUN 0) true).setB (AUD_P_CFG__CONFIGURED 0) true

/-- Audio port 0 running, an AES3 input. -/
def audAes : State := audIn.setB (AUD_P_CFG__AES3 0) true

/-- A grid generator 0 that is running. -/
def fcgOn : State := State.reset.modFcg 0 (fun f => { f with live := { en := true, origin := 0, period := 1000000 * 0x100000000 } })

/-- The network port configured with rings of 16 descriptors. -/
def netSet : State := (((State.reset.setF (NET_R_CFG__LOG2N 0) 4).setF (NET_R_CFG__LOG2N 1) 4).setF (NET_R_CFG__LOG2N 2) 4).modNet (fun n => { n with configured := true })

/-- The network port with its link up. -/
def netOn : State := (netSet.setB NET_STAT__LINK true).modNet (fun n => { n with up := true })

/-- A fetched frame for TQ0. -/
def txHead : TxFrame := { desc := List.replicate 32 0, data := [], held := false, lateLaunch := false, failed := false, stepped := false }

/-- A DEFLATE job with tag 0. -/
def job0 : DflJob := ⟨0, 0x11, 0, false, (0, 0, 0), (0, 0, 0), (0, 0, 0), (0, 0, 0)⟩

/-- The job in engine DE0. -/
def dflBusy : State := State.reset.modDfl (fun d => { d with engine := [some ⟨job0, .bytes [], .bytes [], .bytes []⟩, none] })

/-- The job waits in the queue. -/
def dflWait : State := State.reset.modDfl (fun d => { d with queue := [job0] })

/-- Accessory port 0 is on. -/
def axOn : State := (State.reset.setF (PWR_AX_STAT__STATE 0) 1).setF (PWR_AX_CFG__LIMIT 0) 30

/-- A device that has reached step 10 and runs. -/
def devReady : State := { State.reset with dev := { State.reset.dev with ready := true } }

/-- A test runs. -/
def testing : State := { State.reset with tst := { State.reset.tst with run := some ⟨1, 0, 2, 0, 0, 0, false, 0, true, none, []⟩ } }

/-- A logic BIST runs. -/
def testingL : State := { State.reset with tst := { State.reset.tst with run := some ⟨1, 1, 2, 0, 0, 0, false, 0, true, none, []⟩ } }

/-- An MBIST runs. -/
def testingM : State := { State.reset with tst := { State.reset.tst with run := some ⟨1, 2, 0, 0, 0, 0, false, 0, true, none, []⟩ } }

/-- A register start waits for the budget. -/
def testWaits : State := { State.reset with tst := { State.reset.tst with run := some ⟨1, 0, 2, 0, 0, 0, false, 0, false, none, []⟩ } }

/-- A port is enabled and the network link too. -/
def partsBusy : State := ({ State.reset with net := { up := true } } : State).setB (LNK_P_CFG__EN 0) true

/-- Context 0 runs. -/
def ctxBusy : State := State.reset.setF (CTX_C_STATE__STATE 0) 2

/-- A pin is set. -/
def pinHeld : State := State.reset.modVlt (fun q => { q with pins := q.pins.setIfInBounds 0 (some ⟨0, 3, 9, false⟩) })

/-- A device that is ready. -/
def regReady : State := { State.reset with dev := { State.reset.dev with ready := true } }

/-- The link is up in CXL mode with both decoders committed and memory active. -/
def hostMem : State := { State.reset with cxl := { State.reset.cxl with
    up := true, memActive := true
    hdm := #v[⟨true, false, 0, State.reset.wBytes, 1⟩, ⟨true, false, 0x4000000000, 0x1000000, 1⟩] } }

/-! ### Witnesses -/

theorem witness_StepIdle :
    (∃ (s : State),
      s.pending = [] ∧ s.clocked = true)
    ∧ (∃ (s : State),
      s.pending = [] ∧ s.clocked = false) :=
  ⟨⟨{ State.reset with dev := { State.reset.dev with ready := true } }, by decide⟩,
    ⟨State.reset, by decide⟩⟩

theorem witness_StepKeepsInv :
    ∃ (s : State) (t : State),
      Inv s ∧ step s = .next t :=
  ⟨{ State.reset with pending := [.evtErrClear] }, State.reset, by exact ⟨by decide, rfl⟩⟩

theorem witness_CommandsKeep :
    ∃ (i : Instr) (s : State) (t : State),
      exec i s = .next t :=
  ⟨.evtErrClear, State.reset, State.reset, by rfl⟩

theorem witness_RegionFrame :
    ∃ (i : Instr) (s : State) (t : State),
      writesRegion i = false ∧ exec i s = .next t :=
  ⟨.evtErrClear, State.reset, State.reset, by exact ⟨by decide, rfl⟩⟩

theorem witness_ReplyWritten :
    ∃ (s : State) (h : Hdr) (o : Outc),
      storeRising s.regs = true ∧ s.isLate h = false ∧ noReply h o = false ∧ h.ring < 4 ∧ s.f (CMD_CR_CFG__LOG2N h.ring) ≤ 8 ∧ s.rpFull h.ring = false ∧ s.cmd.held.any (fun r => r.hdr.ring == h.ring) = false ∧ s.on (CMD_CR_CFG__PLOC h.ring) = false :=
  ⟨State.reset, ⟨0, 0, 0, 0, 0⟩, {}, by decide⟩

theorem witness_PacketStarts :
    (∃ (ring : Fin 4) (slot : Slot) (opcode : BitVec 16) (flags : BitVec 16) (seq : W32) (len : BitVec 16) (target : BitVec 16) (rsv : W32) (ps : List W32) (sp : OpSpec) (s : State),
      s.fetchable ring = true ∧ s.passedBy ring = false ∧ s.slotRead ring slot = .packet opcode flags seq len target rsv ps ∧ s.inflight ring = [] ∧ opSpec opcode.toNat = some sp ∧ headerCheck sp s.dev.safe s.dlt.disabled ring len.toNat flags.toNat target.toNat rsv.toNat ps = none ∧ sp.fast = true)
    ∧ (∃ (ring : Fin 4) (slot : Slot) (opcode : BitVec 16) (flags : BitVec 16) (seq : W32) (len : BitVec 16) (target : BitVec 16) (rsv : W32) (ps : List W32) (sp : OpSpec) (s : State),
      s.fetchable ring = true ∧ s.passedBy ring = false ∧ s.slotRead ring slot = .packet opcode flags seq len target rsv ps ∧ s.inflight ring = [] ∧ opSpec opcode.toNat = some sp ∧ headerCheck sp s.dev.safe s.dlt.disabled ring len.toNat flags.toNat target.toNat rsv.toNat ps = none ∧ sp.fast = false ∧ s.busyHolder ring target.toNat = none ∧ s.flash.activating = none ∧ s.fwqUsed < 64)
    ∧ (∃ (ring : Fin 4) (slot : Slot) (opcode : BitVec 16) (flags : BitVec 16) (seq : W32) (len : BitVec 16) (target : BitVec 16) (rsv : W32) (ps : List W32) (sp : OpSpec) (o : Outc) (s : State),
      s.fetchable ring = true ∧ s.passedBy ring = false ∧ s.slotRead ring slot = .packet opcode flags seq len target rsv ps ∧ s.inflight ring = [] ∧ opSpec opcode.toNat = some sp ∧ headerCheck sp s.dev.safe s.dlt.disabled ring len.toNat flags.toNat target.toNat rsv.toNat ps = some o)
    ∧ (∃ (ring : Fin 4) (slot : Slot) (addr : Nat) (poisoned : Bool) (s : State),
      s.fetchable ring = true ∧ s.passedBy ring = false ∧ s.slotRead ring slot = .failed addr poisoned)
    ∧ (∃ (ring : Fin 4) (slot : Slot) (s : State),
      (s.fetchable ring = false ∨ s.passedBy ring = true)) :=
  ⟨⟨0, .packet 0 0 7 0 0 0 [], 0, 0, 7, 0, 0, 0, [], ⟨0, true, 0, false, some 0, .dev, []⟩, ({ State.reset with dev := { State.reset.dev with ready := true }, cmd := { State.reset.cmd with tail := #v[1, 0, 0, 0] } } : State).setB (CMD_CR_CFG__EN 0) true, by decide⟩,
    ⟨0, .packet 0x0300 4 7 4 0x2000 0 [0, 0, 0, 0], 0x0300, 4, 7, 4, 0x2000, 0, [0, 0, 0, 0], ⟨0x0300, false, 1, false, some 4, .ctx, [fw, 0xFFFFF, fw]⟩, ({ State.reset with dev := { State.reset.dev with ready := true }, cmd := { State.reset.cmd with tail := #v[1, 0, 0, 0] } } : State).setB (CMD_CR_CFG__EN 0) true, by decide⟩,
    ⟨0, .packet 0 0 7 4 0 0 [], 0, 0, 7, 4, 0, 0, [], ⟨0, true, 0, false, some 0, .dev, []⟩, refuse stBadLength 0, ({ State.reset with dev := { State.reset.dev with ready := true }, cmd := { State.reset.cmd with tail := #v[1, 0, 0, 0] } } : State).setB (CMD_CR_CFG__EN 0) true, by decide⟩,
    ⟨0, .failed 0 false, 0, false, ({ State.reset with dev := { State.reset.dev with ready := true }, cmd := { State.reset.cmd with tail := #v[1, 0, 0, 0] } } : State).setB (CMD_CR_CFG__EN 0) true, by decide⟩,
    ⟨0, .failed 0 false, State.reset, by decide⟩⟩

theorem witness_Doorbells :
    (∃ (ring : Fin 4) (v : W32) (s : State),
      s.dev.ready = true)
    ∧ (∃ (ring : Fin 4) (v : W32) (s : State),
      s.dev.ready = false) :=
  ⟨⟨0, 0, { State.reset with dev := { State.reset.dev with ready := true } }, by decide⟩,
    ⟨0, 0, State.reset, by decide⟩⟩

theorem witness_PacketEnds :
    (∃ (ring : Fin 4) (seq : W32) (r : Reply) (s : State),
      s.cmd.done.find? (fun r => r.hdr.ring == ring.val && r.hdr.seq == seq && !s.isLate r.hdr) = some r ∧ s.dev.after = none)
    ∧ (∃ (ring : Fin 4) (seq : W32) (r : Reply) (s : State),
      s.cmd.done.find? (fun r => r.hdr.ring == ring.val && r.hdr.seq == seq && s.isLate r.hdr) = some r ∧ s.dev.after = none)
    ∧ (∃ (ring : Fin 4) (seq : W32) (opcode : BitVec 16) (e : Started) (s : State),
      s.cmd.started.find? (fun (e : Started) => e.ring == ring.val && e.seq == seq && e.opcode == opcode.toNat && !e.late) = some e ∧ s.rpFull e.ring = false ∧ e.queued = true ∧ e.waitB = false ∧ s.cmd.done = [] ∧ s.resetOf ⟨e.ring, e.seq, e.opcode, e.flags, e.id⟩ = none ∧ s.port.toList.any (fun q => q.xfer.any (fun x => x.hdr == some ⟨e.ring, e.seq, e.opcode, e.flags, e.id⟩ && !x.running)) = false)
    ∧ (∃ (ring : Fin 4) (seq : W32) (opcode : BitVec 16) (e : Started) (s : State),
      s.cmd.started.find? (fun (e : Started) => e.ring == ring.val && e.seq == seq && e.opcode == opcode.toNat && !e.late) = some e ∧ s.rpFull e.ring = false ∧ e.queued = false ∧ e.fast = false ∧ e.waitB = false ∧ s.cmd.done = [] ∧ s.resetOf ⟨e.ring, e.seq, e.opcode, e.flags, e.id⟩ = none ∧ s.port.toList.any (fun q => q.xfer.any (fun x => x.hdr == some ⟨e.ring, e.seq, e.opcode, e.flags, e.id⟩ && !x.running)) = false)
    ∧ (∃ (ring : Fin 4) (seq : W32) (e : Started) (s : State),
      s.cmd.started.find? (fun (e : Started) => e.ring == ring.val && e.seq == seq && e.queued && !e.urgent) = some e)
    ∧ (∃ (ring : Fin 4) (seq : W32) (s : State),
      s.cmd.started.find? (fun (e : Started) => e.ring == ring.val && e.seq == seq && e.queued && !e.urgent) = none) :=
  ⟨⟨0, 7, ⟨⟨0, 7, 0x0300, 0, 0⟩, false, {}⟩, { State.reset with cmd := { State.reset.cmd with done := [⟨⟨0, 7, 0x0300, 0, 0⟩, false, {}⟩] } }, by decide⟩,
    ⟨0, 7, ⟨⟨0, 7, 0x0300, 0, 0⟩, false, {}⟩, { State.reset with cmd := { State.reset.cmd with done := [⟨⟨0, 7, 0x0300, 0, 0⟩, false, {}⟩], started := [({ ring := 0, seq := 7, opcode := 0x0300, target := 0x2000, flags := 0, fast := false, queued := false, urgent := false, late := true, waitB := false } : Started)] } }, by decide⟩,
    ⟨0, 7, 0x0300, ({ ring := 0, seq := 7, opcode := 0x0300, target := 0x2000, flags := 0, fast := false, queued := true, urgent := false, late := false, waitB := false } : Started), { State.reset with cmd := { State.reset.cmd with started := [({ ring := 0, seq := 7, opcode := 0x0300, target := 0x2000, flags := 0, fast := false, queued := true, urgent := false, late := false, waitB := false } : Started)] } }, by decide⟩,
    ⟨0, 7, 0x0300, ({ ring := 0, seq := 7, opcode := 0x0300, target := 0x2000, flags := 0, fast := false, queued := false, urgent := false, late := false, waitB := false } : Started), { State.reset with cmd := { State.reset.cmd with started := [({ ring := 0, seq := 7, opcode := 0x0300, target := 0x2000, flags := 0, fast := false, queued := false, urgent := false, late := false, waitB := false } : Started)] } }, by decide⟩,
    ⟨0, 7, ({ ring := 0, seq := 7, opcode := 0x0300, target := 0x2000, flags := 0, fast := false, queued := true, urgent := false, late := false, waitB := false } : Started), { State.reset with cmd := { State.reset.cmd with started := [({ ring := 0, seq := 7, opcode := 0x0300, target := 0x2000, flags := 0, fast := false, queued := true, urgent := false, late := false, waitB := false } : Started)] } }, by decide⟩,
    ⟨0, 7, State.reset, by decide⟩⟩

theorem witness_DeviceReports :
    (∃ (p : Pkt) (s : State),
      accepted 0x0000 p s = true)
    ∧ (∃ (p : Pkt) (s : State),
      accepted 0x0001 p s = true)
    ∧ (∃ (p : Pkt) (s : State),
      accepted 0x0004 p s = true)
    ∧ (∃ (p : Pkt) (sel : List EvtEntry) (first : Nat) (next : Nat) (u : State) (t : State) (s : State),
      accepted 0x0020 p s = true ∧ (entered 0x0020 p s).refOk (p.ref 4) = true ∧ p.b 1 0 2 = 0 ∧ (p.ref 4).len % 32 = 0 ∧ serialLt (p.w 0) (((entered 0x0020 p s).evt.live.head?.map (·.seq.toNat)).getD (p.w 0)) = false ∧ sel = ((entered 0x0020 p s).evt.live.filter (fun e => !serialLt e.seq.toNat (p.w 0))).take ((p.ref 4).len / 32) ∧ first = (sel.head?.map (·.seq.toNat)).getD (p.w 0) ∧ next = (sel.getLast?.map (fun e => (e.seq.toNat + 1) % 0x100000000)).getD first ∧ u = ((entered 0x0020 p s).writeRef (p.ref 4) (sel.flatMap EvtEntry.image)).wn EVT_RD_SEQ next ∧ (t = if p.t 1 8 then { u with evt := { u.evt with err := [] } } else u))
    ∧ (∃ (p : Pkt) (s : State),
      accepted 0x0020 p s = true ∧ (entered 0x0020 p s).refOk (p.ref 4) = true ∧ (p.b 1 0 2 = 3 ∨ (p.ref 4).len % 32 ≠ 0))
    ∧ (∃ (p : Pkt) (s : State),
      accepted 0x0E02 p s = true ∧ (p.ref 0).len = 0)
    ∧ (∃ (p : Pkt) (u : State) (v : State) (s : State),
      accepted 0x0E02 p s = true ∧ (entered 0x0E02 p s).refOk (p.ref 0) = true ∧ (p.ref 0).len ≠ 0 ∧ u = (entered 0x0E02 p s).publish ∧ dltLength u.dlt.entries ≤ (p.ref 0).len ∧ (v = if (p.ref 0).space = 0 ∧ u.cxl.fallback = false then u.writeHost (p.ref 0).addr u.dltExport else u.writeRef (p.ref 0) u.dltExport))
    ∧ (∃ (p : Pkt) (s : State),
      accepted 0x0E02 p s = true ∧ (entered 0x0E02 p s).refOk (p.ref 0) = true ∧ (p.ref 0).len ≠ 0 ∧ (p.ref 0).len < dltLength (entered 0x0E02 p s).publish.dlt.entries) :=
  ⟨⟨pkt 0 [], State.reset, by decide⟩,
    ⟨pkt 0 [], State.reset, by decide⟩,
    ⟨pkt 0 [], State.reset, by decide⟩,
    ⟨pkt 0 [0, 0, 0, 0, 0, 0, 0, 0], [], 0, 0, State.reset.wn EVT_RD_SEQ 0, State.reset.wn EVT_RD_SEQ 0, State.reset, by decide⟩,
    ⟨pkt 0 [0, 3, 0, 0, 0, 0, 0, 0], State.reset, by decide⟩,
    ⟨pkt 0 [0, 0, 0, 0], State.reset, by decide⟩,
    ⟨pkt 0 [0, 0, 1048576, 0], (entered 0x0E02 (pkt 0 [0, 0, 1048576, 0]) State.reset).publish, (if ((pkt 0 [0, 0, 1048576, 0]).ref 0).space = 0 ∧ (entered 0x0E02 (pkt 0 [0, 0, 1048576, 0]) State.reset).publish.cxl.fallback = false then (entered 0x0E02 (pkt 0 [0, 0, 1048576, 0]) State.reset).publish.writeHost ((pkt 0 [0, 0, 1048576, 0]).ref 0).addr (entered 0x0E02 (pkt 0 [0, 0, 1048576, 0]) State.reset).publish.dltExport else (entered 0x0E02 (pkt 0 [0, 0, 1048576, 0]) State.reset).publish.writeRef ((pkt 0 [0, 0, 1048576, 0]).ref 0) (entered 0x0E02 (pkt 0 [0, 0, 1048576, 0]) State.reset).publish.dltExport), State.reset, by refine ⟨by decide, by decide, by decide, rfl, ?_, rfl⟩; exact dlt_fits _ (by decide +kernel) _ (by decide +kernel)⟩,
    ⟨pkt 0 [0, 0, 1, 0], State.reset, by refine ⟨by decide, by decide, by decide, ?_⟩; show 1 < 32 + _; omega⟩⟩

theorem witness_MailboxesAndSemaphores :
    (∃ (m : Byte) (ch : Fin 16) (w : W32) (b : Bool) (s : State),
      s.mbxSide ch m = some b ∧ (s.mbxGet ch (!b)).rx.length < 8)
    ∧ (∃ (m : Byte) (ch : Fin 16) (w : W32) (b : Bool) (s : State),
      s.mbxSide ch m = some b ∧ 8 ≤ (s.mbxGet ch (!b)).rx.length)
    ∧ (∃ (m : Byte) (ch : Fin 16) (w : W32) (s : State),
      s.mbxSide ch m = none)
    ∧ (∃ (m : Byte) (ch : Fin 16) (w : W32) (ep : Bool) (r : List (W32 × Bool)) (b : Bool) (s : State),
      s.mbxSide ch m = some b ∧ (s.mbxGet ch b).rx = (w, ep) :: r)
    ∧ (∃ (m : Byte) (ch : Fin 16) (b : Bool) (s : State),
      s.mbxSide ch m = some b ∧ (s.mbxGet ch b).rx = [])
    ∧ (∃ (m : Byte) (n : Fin 32) (s : State),
      s.shut m = false ∧ s.mbx.sem[n] = none)
    ∧ (∃ (m : Byte) (o : Byte) (n : Fin 32) (s : State),
      s.shut m = false ∧ s.mbx.sem[n] = some o)
    ∧ (∃ (m : Byte) (n : Fin 32) (s : State),
      s.shut m = false ∧ s.mbx.sem[n] = some m)
    ∧ (∃ (m : Byte) (n : Fin 32) (s : State),
      s.shut m = false ∧ s.mbx.sem[n] ≠ some m)
    ∧ (∃ (p : Pkt) (s : State),
      accepted 0x0E03 p s = true)
    ∧ (∃ (p : Pkt) (t : State) (s : State),
      accepted 0x0E00 p s = true ∧ (entered 0x0E00 p s).on MBX_CTRL__LOCK = false ∧ (entered 0x0E00 p s).bindChannel (p.b 0 0 4) (p.w 1) = some t)
    ∧ (∃ (p : Pkt) (s : State),
      accepted 0x0E00 p s = true ∧ (entered 0x0E00 p s).on MBX_CTRL__LOCK = false ∧ (entered 0x0E00 p s).bindChannel (p.b 0 0 4) (p.w 1) = none)
    ∧ (∃ (p : Pkt) (s : State),
      accepted 0x0E00 p s = true ∧ (entered 0x0E00 p s).on MBX_CTRL__LOCK = true)
    ∧ (∃ (p : Pkt) (s : State),
      accepted 0x0E01 p s = true)
    ∧ (∃ (s : State),
      s.dev.ready = true)
    ∧ (∃ (ch : Fin 16) (toB : Bool) (s : State),
      s.f (MBX_TMO__TMO_US ch) ≠ 0 ∧ (s.mbxGet ch toB).rx ≠ []) :=
  ⟨⟨0, 0, 5, false, ((State.reset.setB (MBX_BIND__EN 0) true).setF (MBX_BIND__SIDE_B 0) 0x10), by decide⟩,
    ⟨0, 0, 5, false, (((State.reset.setB (MBX_BIND__EN 0) true).setF (MBX_BIND__SIDE_B 0) 0x10)).mbxSet 0 true { rx := List.replicate 8 (0, false) }, by decide⟩,
    ⟨0x30, 0, 5, State.reset, by decide⟩,
    ⟨0, 0, 5, true, [], false, (((State.reset.setB (MBX_BIND__EN 0) true).setF (MBX_BIND__SIDE_B 0) 0x10)).mbxSet 0 false { rx := [(5, true)] }, by decide⟩,
    ⟨0, 0, false, ((State.reset.setB (MBX_BIND__EN 0) true).setF (MBX_BIND__SIDE_B 0) 0x10), by decide⟩,
    ⟨0, 3, { State.reset with dev := { State.reset.dev with ready := true } }, by decide⟩,
    ⟨0, 0x10, 3, { State.reset with dev := { State.reset.dev with ready := true }, mbx := { State.reset.mbx with sem := State.reset.mbx.sem.set 3 (some 0x10) } }, by decide⟩,
    ⟨0x10, 3, { State.reset with dev := { State.reset.dev with ready := true }, mbx := { State.reset.mbx with sem := State.reset.mbx.sem.set 3 (some 0x10) } }, by decide⟩,
    ⟨0, 3, { State.reset with dev := { State.reset.dev with ready := true }, mbx := { State.reset.mbx with sem := State.reset.mbx.sem.set 3 (some 0x10) } }, by decide⟩,
    ⟨pkt 0 [8, 0, 0, 0], { State.reset with dev := { State.reset.dev with ready := true }, mbx := { State.reset.mbx with sem := State.reset.mbx.sem.set 3 (some 0x10) } }, by decide⟩,
    ⟨pkt 0 [0, 0x11000, 0, 0], (((entered 0x0E00 (pkt 0 [0, 0x11000, 0, 0]) State.reset).wn (MBX_BIND 0) 0x11000).mbxSet 0 false {}).mbxSet 0 true {}, State.reset, by decide⟩,
    ⟨pkt 0 [0, 0x155, 0, 0], State.reset, by decide⟩,
    ⟨pkt 0 [0, 0x155, 0, 0], State.reset.raise MBX_CTRL__LOCK, by decide⟩,
    ⟨pkt 0 [], State.reset, by decide⟩,
    ⟨{ State.reset with dev := { State.reset.dev with ready := true } }, by decide⟩,
    ⟨0, true, (State.reset.setF (MBX_TMO__TMO_US 0) 1).mbxSet 0 true { rx := [(0, false)] }, by decide⟩⟩

theorem witness_ResetsAndBoots :
    (∃ (p : Pkt) (s : State),
      accepted 0x0002 p s = true)
    ∧ (∃ (p : Pkt) (s : State),
      accepted 0x0003 p s = true ∧ 2 ≤ p.b 0 0 2 ∧ (entered 0x0003 p s).restCheck (p.b 0 0 2) (p.t 0 5) = none)
    ∧ (∃ (p : Pkt) (o : Outc) (s : State),
      accepted 0x0003 p s = true ∧ 2 ≤ p.b 0 0 2 ∧ (entered 0x0003 p s).restCheck (p.b 0 0 2) (p.t 0 5) = some o)
    ∧ (∃ (p : Pkt) (s : State),
      accepted 0x0003 p s = true ∧ p.b 0 0 2 < 2)
    ∧ (∃ (ring : Fin 4) (seq : W32) (r : Reply) (clear : Bool) (u : State) (s : State),
      s.cmd.done.find? (fun r => r.hdr.ring == ring.val && r.hdr.seq == seq && !s.isLate r.hdr) = some r ∧ r.hdr.opcode = 0x0002 ∧ r.out.status = stOk ∧ s.dev.after = some ⟨r.hdr, .reset clear⟩ ∧ u = (State.complete { s with cmd := { s.cmd with done := s.cmd.done.erase r } } r.hdr r.out).coresRestart ∧ u.started? r.hdr = none ∧ u.dev.after = some ⟨r.hdr, .reset clear⟩)
    ∧ (∃ (ring : Fin 4) (seq : W32) (r : Reply) (ps : Nat) (wakeRec : Bool) (discard : Bool) (u : State) (s : State),
      s.cmd.done.find? (fun r => r.hdr.ring == ring.val && r.hdr.seq == seq && !s.isLate r.hdr) = some r ∧ r.hdr.opcode = 0x0003 ∧ r.out.status = stOk ∧ s.dev.after = some ⟨r.hdr, .sleep ps wakeRec discard⟩ ∧ s.cmd.started.any (fun e => !e.is r.hdr) = false ∧ s.restCheck ps discard = none ∧ u = (State.complete { s with cmd := { s.cmd with done := s.cmd.done.erase r } } r.hdr r.out).coresRestart ∧ u.started? r.hdr = none ∧ u.dev.after = some ⟨r.hdr, .sleep ps wakeRec discard⟩)
    ∧ (∃ (recPin : Bool) (early : Bool) (s : State),
      s.pwr.sleep ≠ 0 ∧ (recPin = true → s.pwr.wakeRec = true) ∧ (early = true → s.pwr.trip = false))
    ∧ (∃ (s : State),
      s.dev.vin = 0 ∧ s.pwr.sleep = 0 ∧ s.dev.awaits = false)
    ∧ (∃ (s : State),
      (s.dev.vin ≠ 0 ∨ s.pwr.sleep ≠ 0 ∨ s.dev.awaits = true))
    ∧ (∃ (r : BootRep) (s : State),
      s.dev.awaits = true ∧ s.dev.vin ≠ 2 ∧ s.pwr.sleep = 0 ∧ (s.dev.bootType = 0 ∨ s.dev.bootType = 5) ∧ r.fails.length < 3 ∧ (calRecord r).isSome = true ∧ 10 ≤ r.upTo)
    ∧ (∃ (r : BootRep) (s : State),
      s.dev.awaits = true ∧ s.dev.vin = 0 ∧ s.pwr.sleep = 0 ∧ s.dev.bootType ≠ 0 ∧ s.dev.bootType ≠ 5 ∧ r.fails.length < 3 ∧ (calRecord r).isSome = true ∧ 10 ≤ r.upTo) :=
  ⟨⟨pkt 0 [1, 0, 0, 0], State.reset, by decide⟩,
    ⟨pkt 0 [2, 0, 0, 0], State.reset, by decide⟩,
    ⟨pkt 0 [2, 0, 0, 0], refuse stState 0x8010, State.reset.setCst 0 2, by decide⟩,
    ⟨pkt 0 [1, 0, 0, 0], State.reset, by decide⟩,
    ⟨0, 7, ⟨⟨0, 7, 0x0002, 0, 0⟩, false, {}⟩, true, (State.complete ({ { State.reset with dev := { State.reset.dev with after := some ⟨⟨0, 7, 0x0002, 0, 0⟩, .reset true⟩ }, cmd := { State.reset.cmd with done := [⟨⟨0, 7, 0x0002, 0, 0⟩, false, {}⟩] } } with cmd := State.reset.cmd }) ⟨0, 7, 0x0002, 0, 0⟩ {}).coresRestart, { State.reset with dev := { State.reset.dev with after := some ⟨⟨0, 7, 0x0002, 0, 0⟩, .reset true⟩ }, cmd := { State.reset.cmd with done := [⟨⟨0, 7, 0x0002, 0, 0⟩, false, {}⟩] } }, by refine ⟨?_, rfl, rfl, rfl, rfl, ?_, ?_⟩ <;> decide +kernel⟩,
    ⟨0, 7, ⟨⟨0, 7, 0x0003, 0, 0⟩, false, {}⟩, 2, false, false, (State.complete ({ { State.reset with dev := { State.reset.dev with after := some ⟨⟨0, 7, 0x0003, 0, 0⟩, .sleep 2 false false⟩ }, cmd := { State.reset.cmd with done := [⟨⟨0, 7, 0x0003, 0, 0⟩, false, {}⟩] } } with cmd := State.reset.cmd }) ⟨0, 7, 0x0003, 0, 0⟩ {}).coresRestart, { State.reset with dev := { State.reset.dev with after := some ⟨⟨0, 7, 0x0003, 0, 0⟩, .sleep 2 false false⟩ }, cmd := { State.reset.cmd with done := [⟨⟨0, 7, 0x0003, 0, 0⟩, false, {}⟩] } }, by refine ⟨?_, rfl, rfl, rfl, by decide, ?_, rfl, ?_, ?_⟩ <;> decide +kernel⟩,
    ⟨false, false, State.reset.modPwr (fun p => { p with sleep := 2 }), by decide⟩,
    ⟨{ State.reset with dev := { State.reset.dev with awaits := false } }, by decide⟩,
    ⟨State.reset, by decide⟩,
    ⟨goodBoot, State.reset, by exact ⟨by decide, by decide, by decide, by decide, by decide, goodBoot_cal, by decide⟩⟩,
    ⟨goodBoot, { State.reset with dev := { State.reset.dev with bootType := 1 } }, by exact ⟨by decide, by decide, by decide, by decide, by decide, by decide, goodBoot_cal, by decide⟩⟩⟩

theorem witness_FirmwareAndLayout :
    (∃ (p : Pkt) (bs : List Byte) (u : State) (s : State),
      accepted 0x0008 p s = true ∧ (entered 0x0008 p s).refOk (p.ref 4) = true ∧ (entered 0x0008 p s).flash.activating = none ∧ p.w 0 % 4096 = 0 ∧ (p.ref 4).len % 4096 = 0 ∧ (p.ref 4).len ≤ 0x400000 ∧ p.w 0 + (p.ref 4).len ≤ 0x1000000 ∧ (entered 0x0008 p s).readRef (p.ref 4) p.buf = some bs ∧ u = ((entered 0x0008 p s).modFlash (fun f => { f with jobs := f.jobs ++ [⟨s.pktHdr 0x0008 p, p.w 0, bs⟩] })).arrive (.stage (s.pktHdr 0x0008 p)))
    ∧ (∃ (p : Pkt) (s : State),
      accepted 0x0009 p s = true)
    ∧ (∃ (p : Pkt) (s : State),
      accepted 0x0010 p s = true ∧ (entered 0x0010 p s).flash.activating = none ∧ (entered 0x0010 p s).flash.verified = true)
    ∧ (∃ (p : Pkt) (s : State),
      accepted 0x0010 p s = true ∧ (entered 0x0010 p s).flash.activating = none ∧ (entered 0x0010 p s).flash.verified = false)
    ∧ (∃ (h : Hdr) (s : State),
      s.flash.activating = some h ∧ s.dev.fwRun = false)
    ∧ (∃ (h : Hdr) (s : State),
      s.flash.activating = some h)
    ∧ (∃ (p : Pkt) (e : Nat) (u : State) (s : State),
      accepted 0x0500 p s = true ∧ (entered 0x0500 p s).hdmCommitted = false ∧ (entered 0x0500 p s).partOk 1 = true ∧ (entered 0x0500 p s).takesUsed.isEmpty = true ∧ (entered 0x0500 p s).vlt.pins.toList.any (fun q => q.any (fun x => x.retain)) = false ∧ 8 ≤ p.b 0 0 7 ∧ p.b 0 0 7 ≤ 64 ∧ (List.range 6).find? (fun c => decide (16 < ((List.range 6).map (fun c => p.b (1 + c) 16 5)).getD c 0)) = none ∧ e = layoutEnd (p.b 0 0 7 * 0x40000 + 0x8000) ((List.range 6).map (fun c => p.b (1 + c) 0 16)) ∧ e ≤ (entered 0x0500 p s).vlt.usable ∧ u = ((entered 0x0500 p s).setF VLT_LAYOUT__W_GIB (p.b 0 0 7)).modVlt (fun q => { q with units := (List.range 6).map (fun c => p.b (1 + c) 0 16), emb := (List.range 6).map (fun c => p.b (1 + c) 16 5) }))
    ∧ (∃ (p : Pkt) (s : State),
      accepted 0x0500 p s = true ∧ (entered 0x0500 p s).hdmCommitted = false ∧ (entered 0x0500 p s).partOk 1 = true ∧ (entered 0x0500 p s).takesUsed.isEmpty = true ∧ (entered 0x0500 p s).vlt.pins.toList.any (fun q => q.any (fun x => x.retain)) = false ∧ 8 ≤ p.b 0 0 7 ∧ p.b 0 0 7 ≤ 64 ∧ (List.range 6).find? (fun c => decide (16 < ((List.range 6).map (fun c => p.b (1 + c) 16 5)).getD c 0)) = none ∧ (entered 0x0500 p s).vlt.usable < layoutEnd (p.b 0 0 7 * 0x40000 + 0x8000) ((List.range 6).map (fun c => p.b (1 + c) 0 16))) :=
  ⟨⟨pkt 0 [0, 0, 0, 0, 0, 0, 0, 0], [], ((entered 0x0008 (pkt 0 [0, 0, 0, 0, 0, 0, 0, 0]) State.reset).modFlash (fun f => { f with jobs := f.jobs ++ [⟨State.reset.pktHdr 0x0008 (pkt 0 [0, 0, 0, 0, 0, 0, 0, 0]), (pkt 0 [0, 0, 0, 0, 0, 0, 0, 0]).w 0, []⟩] })).arrive (.stage (State.reset.pktHdr 0x0008 (pkt 0 [0, 0, 0, 0, 0, 0, 0, 0]))), State.reset, by refine ⟨by decide, by decide, by decide, by decide, by decide, by decide, by decide, by decide, rfl⟩⟩,
    ⟨pkt 0 [], State.reset, by decide⟩,
    ⟨pkt 0 [], State.reset.modFlash (fun f => { f with verified := true }), by decide⟩,
    ⟨pkt 0 [], State.reset, by decide⟩,
    ⟨⟨0, 0, 0x0010, 0, 0⟩, State.reset.modFlash (fun f => { f with activating := some ⟨0, 0, 0x0010, 0, 0⟩ }), by decide⟩,
    ⟨⟨0, 0, 0x0010, 0, 0⟩, State.reset.modFlash (fun f => { f with activating := some ⟨0, 0, 0x0010, 0, 0⟩ }), by decide⟩,
    ⟨pkt 0 [16, 1, 1, 1, 1, 1, 1, 0], layoutEnd (16 * 0x40000 + 0x8000) (List.replicate 6 1), ((entered 0x0500 (pkt 0 [16, 1, 1, 1, 1, 1, 1, 0]) State.reset).setF VLT_LAYOUT__W_GIB 16).modVlt (fun q => { q with units := List.replicate 6 1, emb := List.replicate 6 0 }), State.reset, by decide⟩,
    ⟨pkt 0 [64, 0xFFFF, 0xFFFF, 0xFFFF, 0xFFFF, 0xFFFF, 0xFFFF, 0], State.reset, by decide⟩⟩

theorem witness_LinkPorts :
    (∃ (p : Pkt) (v : State) (s : State),
      accepted 0x0100 p s = true ∧ (entered 0x0100 p s).on (LNK_P_CFG__EN p.idx) = false ∧ p.b 0 8 4 ≤ 7 ∧ lanesOk (p.b 0 1 5) = true ∧ 20 ≤ p.w 2 ∧ p.w 2 ≤ 128 ∧ v = ((entered 0x0100 p s).wn (LNK_P_CFG p.idx) (p.w 0 / 2 * 2)).setF (LNK_P_FRAME_TMO__TMO_US p.idx) (p.w 1))
    ∧ (∃ (p : Pkt) (s : State),
      accepted 0x0100 p s = true ∧ (entered 0x0100 p s).on (LNK_P_CFG__EN p.idx) = true)
    ∧ (∃ (p : Pkt) (s : State),
      accepted 0x0101 p s = true ∧ qmapOk (p.b 0 0 18) = true ∧ (qmapMoved ((entered 0x0101 p s).f LNK_QMAP__QMAP) (p.b 0 0 18)).any (fun q => (entered 0x0101 p s).on (LNK_P_CFG__EN q)) = false)
    ∧ (∃ (p : Pkt) (f : Profile) (u : State) (s : State),
      accepted 0x0102 p s = true ∧ (entered 0x0102 p s).on (LNK_P_CFG__EN p.idx) = false ∧ (entered 0x0102 p s).linkTested p.idx = false ∧ ((entered 0x0102 p s).pt p.idx).profile = some f ∧ (((entered 0x0102 p s).portQuads p.idx).map (fun q => (entered 0x0102 p s).f (LNK_QCFG__RATE q))).any (fun r => r != (((entered 0x0102 p s).portQuads p.idx).map (fun q => (entered 0x0102 p s).f (LNK_QCFG__RATE q))).getD 0 r) = false ∧ u = (((((entered 0x0102 p s).setB (LNK_P_CFG__EN p.idx) true).setB (LNK_P_STAT__RESYNC p.idx) false).modPt p.idx (fun q => { q with lastFn := none, relock := false })).dropWords p.idx).queueSeq p.idx f f.startSeq ∧ u.on (LNK_P_STAT__LOCKED p.idx) = true)
    ∧ (∃ (p : Pkt) (f : Profile) (u : State) (s : State),
      accepted 0x0102 p s = true ∧ (entered 0x0102 p s).on (LNK_P_CFG__EN p.idx) = false ∧ (entered 0x0102 p s).linkTested p.idx = false ∧ ((entered 0x0102 p s).pt p.idx).profile = some f ∧ (((entered 0x0102 p s).portQuads p.idx).map (fun q => (entered 0x0102 p s).f (LNK_QCFG__RATE q))).any (fun r => r != (((entered 0x0102 p s).portQuads p.idx).map (fun q => (entered 0x0102 p s).f (LNK_QCFG__RATE q))).getD 0 r) = false ∧ u = (((((entered 0x0102 p s).setB (LNK_P_CFG__EN p.idx) true).setB (LNK_P_STAT__RESYNC p.idx) false).modPt p.idx (fun q => { q with lastFn := none, relock := false })).dropWords p.idx).queueSeq p.idx f f.startSeq ∧ u.on (LNK_P_STAT__LOCKED p.idx) = false)
    ∧ (∃ (p : Pkt) (s : State),
      accepted 0x0102 p s = true ∧ ((entered 0x0102 p s).on (LNK_P_CFG__EN p.idx) = true ∨ (entered 0x0102 p s).linkTested p.idx = true))
    ∧ (∃ (p : Pkt) (s : State),
      accepted 0x0108 p s = true)
    ∧ (∃ (p : Pkt) (u : State) (s : State),
      accepted 0x0103 p s = true ∧ (u = match (((entered 0x0103 p s).modPt p.idx (fun q => { q with queue := [], setDue := false })).pt p.idx).profile with
        | some f => ((entered 0x0103 p s).modPt p.idx (fun q => { q with queue := [], setDue := false })).queueSeq p.idx f f.stopSeq
        | none => ((entered 0x0103 p s).modPt p.idx (fun q => { q with queue := [], setDue := false }))) ∧ u.on (LNK_P_CFG__EN p.idx) = false)
    ∧ (∃ (p : Pkt) (u : State) (v : State) (s : State),
      accepted 0x0103 p s = true ∧ (u = match (((entered 0x0103 p s).modPt p.idx (fun q => { q with queue := [], setDue := false })).pt p.idx).profile with
        | some f => ((entered 0x0103 p s).modPt p.idx (fun q => { q with queue := [], setDue := false })).queueSeq p.idx f f.stopSeq
        | none => ((entered 0x0103 p s).modPt p.idx (fun q => { q with queue := [], setDue := false }))) ∧ u.on (LNK_P_CFG__EN p.idx) = true ∧ (v = if p.t 0 0 then u.truncateFrame p.idx 3 else u) ∧ (v.rw_ p.idx).frame = none)
    ∧ (∃ (p : Pkt) (u : State) (v : State) (s : State),
      accepted 0x0103 p s = true ∧ (u = match (((entered 0x0103 p s).modPt p.idx (fun q => { q with queue := [], setDue := false })).pt p.idx).profile with
        | some f => ((entered 0x0103 p s).modPt p.idx (fun q => { q with queue := [], setDue := false })).queueSeq p.idx f f.stopSeq
        | none => ((entered 0x0103 p s).modPt p.idx (fun q => { q with queue := [], setDue := false }))) ∧ u.on (LNK_P_CFG__EN p.idx) = true ∧ (v = if p.t 0 0 then u.truncateFrame p.idx 3 else u) ∧ (v.rw_ p.idx).frame.isSome = true)
    ∧ (∃ (port : Fin 4) (h : Hdr) (s : State),
      (s.pt port).startWait = some h)
    ∧ (∃ (port : Fin 4) (s : State),
      (s.pt port).stopWait.isSome = true) :=
  ⟨⟨pkt 0x1000 [2, 0, 20, 0], ((entered 0x0100 (pkt 0x1000 [2, 0, 20, 0]) State.reset).wn (LNK_P_CFG 0) 2).setF (LNK_P_FRAME_TMO__TMO_US 0) 0, State.reset, by decide⟩,
    ⟨pkt 0x1000 [2, 0, 20, 0], State.reset.setB (LNK_P_CFG__EN 0) true, by decide⟩,
    ⟨pkt 0 [0, 0, 0, 0], State.reset, by decide⟩,
    ⟨pkt 0x1000 [], ⟨[], 1, 2, 0, 1, false, 0, 0, 0, [], [], [], []⟩, (((((entered 0x0102 (pkt 0x1000 []) ((State.reset.modPt 0 (fun q => { q with profile := some (⟨[], 1, 2, 0, 1, false, 0, 0, 0, [], [], [], []⟩) })).setB (LNK_P_STAT__LOCKED 0) true)).setB (LNK_P_CFG__EN 0) true).setB (LNK_P_STAT__RESYNC 0) false).modPt 0 (fun q => { q with lastFn := none, relock := false })).dropWords 0).queueSeq 0 (⟨[], 1, 2, 0, 1, false, 0, 0, 0, [], [], [], []⟩) [], (State.reset.modPt 0 (fun q => { q with profile := some (⟨[], 1, 2, 0, 1, false, 0, 0, 0, [], [], [], []⟩) })).setB (LNK_P_STAT__LOCKED 0) true, by decide⟩,
    ⟨pkt 0x1000 [], ⟨[], 1, 2, 0, 1, false, 0, 0, 0, [], [], [], []⟩, (((((entered 0x0102 (pkt 0x1000 []) ((State.reset.modPt 0 (fun q => { q with profile := some (⟨[], 1, 2, 0, 1, false, 0, 0, 0, [], [], [], []⟩) })))).setB (LNK_P_CFG__EN 0) true).setB (LNK_P_STAT__RESYNC 0) false).modPt 0 (fun q => { q with lastFn := none, relock := false })).dropWords 0).queueSeq 0 (⟨[], 1, 2, 0, 1, false, 0, 0, 0, [], [], [], []⟩) [], (State.reset.modPt 0 (fun q => { q with profile := some (⟨[], 1, 2, 0, 1, false, 0, 0, 0, [], [], [], []⟩) })), by decide⟩,
    ⟨pkt 0x1000 [], State.reset.setB (LNK_P_CFG__EN 0) true, by decide⟩,
    ⟨pkt 0x1000 [], State.reset, by decide⟩,
    ⟨pkt 0x1000 [0, 0, 0, 0], ((entered 0x0103 (pkt 0x1000 [0, 0, 0, 0]) (State.reset.modPt 0 (fun q => { q with profile := some (⟨[], 1, 2, 0, 1, false, 0, 0, 0, [], [], [], []⟩) }))).modPt 0 (fun q => { q with queue := [], setDue := false })).queueSeq 0 (⟨[], 1, 2, 0, 1, false, 0, 0, 0, [], [], [], []⟩) [], (State.reset.modPt 0 (fun q => { q with profile := some (⟨[], 1, 2, 0, 1, false, 0, 0, 0, [], [], [], []⟩) })), by decide⟩,
    ⟨pkt 0x1000 [0, 0, 0, 0], ((entered 0x0103 (pkt 0x1000 [0, 0, 0, 0]) ((State.reset.modPt 0 (fun q => { q with profile := some (⟨[], 1, 2, 0, 1, false, 0, 0, 0, [], [], [], []⟩) })).setB (LNK_P_CFG__EN 0) true)).modPt 0 (fun q => { q with queue := [], setDue := false })).queueSeq 0 (⟨[], 1, 2, 0, 1, false, 0, 0, 0, [], [], [], []⟩) [], ((entered 0x0103 (pkt 0x1000 [0, 0, 0, 0]) ((State.reset.modPt 0 (fun q => { q with profile := some (⟨[], 1, 2, 0, 1, false, 0, 0, 0, [], [], [], []⟩) })).setB (LNK_P_CFG__EN 0) true)).modPt 0 (fun q => { q with queue := [], setDue := false })).queueSeq 0 (⟨[], 1, 2, 0, 1, false, 0, 0, 0, [], [], [], []⟩) [], ((State.reset.modPt 0 (fun q => { q with profile := some (⟨[], 1, 2, 0, 1, false, 0, 0, 0, [], [], [], []⟩) })).setB (LNK_P_CFG__EN 0) true), by decide⟩,
    ⟨pkt 0x1000 [0, 0, 0, 0], ((entered 0x0103 (pkt 0x1000 [0, 0, 0, 0]) (((State.reset.modPt 0 (fun q => { q with profile := some (⟨[], 1, 2, 0, 1, false, 0, 0, 0, [], [], [], []⟩) })).setB (LNK_P_CFG__EN 0) true).modRw 0 (fun r => { r with frame := some { recorded := false, fid := 0, gen := 0, epoch := 0, ns := 0, frac := 0, width := 1, height := 2, sbits := 0, cfg := {} } }))).modPt 0 (fun q => { q with queue := [], setDue := false })).queueSeq 0 (⟨[], 1, 2, 0, 1, false, 0, 0, 0, [], [], [], []⟩) [], ((entered 0x0103 (pkt 0x1000 [0, 0, 0, 0]) (((State.reset.modPt 0 (fun q => { q with profile := some (⟨[], 1, 2, 0, 1, false, 0, 0, 0, [], [], [], []⟩) })).setB (LNK_P_CFG__EN 0) true).modRw 0 (fun r => { r with frame := some { recorded := false, fid := 0, gen := 0, epoch := 0, ns := 0, frac := 0, width := 1, height := 2, sbits := 0, cfg := {} } }))).modPt 0 (fun q => { q with queue := [], setDue := false })).queueSeq 0 (⟨[], 1, 2, 0, 1, false, 0, 0, 0, [], [], [], []⟩) [], (((State.reset.modPt 0 (fun q => { q with profile := some (⟨[], 1, 2, 0, 1, false, 0, 0, 0, [], [], [], []⟩) })).setB (LNK_P_CFG__EN 0) true).modRw 0 (fun r => { r with frame := some { recorded := false, fid := 0, gen := 0, epoch := 0, ns := 0, frac := 0, width := 1, height := 2, sbits := 0, cfg := {} } })), by decide⟩,
    ⟨0, ⟨0, 1, 0x0102, 0, 0⟩, (State.reset.modPt 0 (fun q => { q with startWait := some ⟨0, 1, 0x0102, 0, 0⟩ })), by decide⟩,
    ⟨0, State.reset.modPt 0 (fun q => { q with stopWait := some ⟨0, 1, 0x0103, 0, 0⟩ }), by decide⟩⟩

theorem witness_SensorChannel :
    (∃ (p : Pkt) (bs : List Byte) (f : Profile) (u : State) (v : State) (s : State),
      accepted 0x0104 p s = true ∧ (entered 0x0104 p s).refOk (p.ref 0) = true ∧ (entered 0x0104 p s).on (LNK_P_CFG__EN p.idx) = false ∧ (entered 0x0104 p s).readRef (p.ref 0) p.buf = some bs ∧ parseProfile bs = some f ∧ u = ((((entered 0x0104 p s).modPt p.idx (fun q => { q with profile := some f })).setF (LNK_P_SCC__STRETCH_MAX p.idx) (ceilDiv (fieldAt bs 40 2) 10)).setF (LNK_P_SCC__DIV p.idx) (fieldAt bs 38 2)).setB (LNK_P_SCC__SPI p.idx) (bitAt (fieldAt bs 30 1) 1) ∧ v = ((u.setB (LNK_P_SCC__SPI_MODE3 p.idx) (bitAt (fieldAt bs 30 1) 2)).setF (LNK_P_SET_CFG__SET_WINDOW_US p.idx) (fieldAt bs 34 2)).setF (LNK_P_SET_CFG__SET_LINE p.idx) (fieldAt bs 32 2))
    ∧ (∃ (p : Pkt) (bs : List Byte) (s : State),
      accepted 0x0104 p s = true ∧ (entered 0x0104 p s).refOk (p.ref 0) = true ∧ (entered 0x0104 p s).on (LNK_P_CFG__EN p.idx) = false ∧ (entered 0x0104 p s).readRef (p.ref 0) p.buf = some bs ∧ parseProfile bs = none)
    ∧ (∃ (p : Pkt) (f : Profile) (s : State),
      accepted 0x0106 p s = true ∧ p.w 0 ≠ 0 ∧ ((entered 0x0106 p s).pt p.idx).profile = some f ∧ (entered 0x0106 p s).setTime p.idx f ((List.range (p.b 1 0 8)).map (fun i => p.w (4 + i))) ≤ 3000 * (entered 0x0106 p s).f (LNK_P_SET_CFG__SET_WINDOW_US p.idx) ∧ ((entered 0x0106 p s).pt p.idx).queue.length < 8)
    ∧ (∃ (p : Pkt) (n : Nat) (m : Nat) (bs : List Byte) (u : State) (s : State),
      accepted 0x0105 p s = true ∧ n = p.b 1 0 16 ∧ m = p.b 1 16 16 ∧ n ≤ 4096 ∧ m ≤ 4096 ∧ n ≤ (p.ref 4).len ∧ m ≤ (p.ref 8).len ∧ (entered 0x0105 p s).refOk (p.ref 4) = true ∧ (entered 0x0105 p s).refOk (p.ref 8) = true ∧ ((entered 0x0105 p s).on (LNK_P_CFG__EN p.idx) = true → ((entered 0x0105 p s).pt p.idx).frameNs ≠ 0 → (entered 0x0105 p s).bitTime p.idx ((entered 0x0105 p s).xferBits p.idx ((entered 0x0105 p s).wireBytes p.idx n m)) ≤ 3 * (((entered 0x0105 p s).pt p.idx).frameNs - 1000 * (entered 0x0105 p s).f (LNK_P_SET_CFG__SET_WINDOW_US p.idx))) ∧ ((if n = 0 then some [] else (entered 0x0105 p s).readRef (p.ref 4) p.buf) = some bs) ∧ u = (entered 0x0105 p s).modPt p.idx (fun q => { q with xfer := q.xfer ++ [{ hdr := some (s.pktHdr 0x0105 p), addr := p.b 0 0 7, noStop := p.t 0 8, write := bs.take n, readLen := m, readRef := ((p.ref 8).addr, (p.ref 8).len, (p.ref 8).space), running := false }] }))
    ∧ (∃ (port : Fin 4) (x : Xfer) (r : List Xfer) (s : State),
      (s.pt port).xfer = x :: r)
    ∧ (∃ (port : Fin 4) (s : State),
      (s.pt port).xfer = [])
    ∧ (∃ (port : Fin 4) (bs : List Byte) (x : Xfer) (h : Hdr) (r : List Xfer) (s : State),
      (s.pt port).xfer = x :: r ∧ x.running = true ∧ x.hdr = some h)
    ∧ (∃ (port : Fin 4) (i : Nat) (x : Xfer) (h : Hdr) (r : List Xfer) (s : State),
      (s.pt port).xfer = x :: r ∧ x.running = true ∧ x.hdr = some h)
    ∧ (∃ (port : Fin 4) (bs : List Byte) (i : Nat) (x : Xfer) (r : List Xfer) (s : State),
      (s.pt port).xfer = x :: r ∧ x.running = true ∧ x.hdr = none)
    ∧ (∃ (port : Fin 4) (e : XferEnd) (w : SetWrite) (f : Profile) (s : State),
      (s.pt port).writing = some w ∧ (s.pt port).profile = some f)
    ∧ (∃ (port : Fin 4) (s : State),
      (s.pt port).setDue = true)
    ∧ (∃ (port : Fin 4) (w : SetWrite) (s : State),
      (s.pt port).setDue = false ∧ (s.pt port).writing = some w) :=
  ⟨⟨{ pkt 0x1000 [0, 0, 64, 0] with buf := .bytes ([0x46, 0x4C, 0x53, 0x50, 0, 1, 64, 0] ++ List.replicate 16 0 ++ [1, 0, 2, 0, 0, 1, 0, 0, 0, 0, 0, 0, 0, 0, 14, 0] ++ List.replicate 24 0) }, ([0x46, 0x4C, 0x53, 0x50, 0, 1, 64, 0] ++ List.replicate 16 0 ++ [1, 0, 2, 0, 0, 1, 0, 0, 0, 0, 0, 0, 0, 0, 14, 0] ++ List.replicate 24 0), ⟨List.replicate 16 0, 1, 2, 0, 1, false, 0, 0, 0, [], [], [], []⟩, ((((entered 0x0104 ({ pkt 0x1000 [0, 0, 64, 0] with buf := .bytes ([0x46, 0x4C, 0x53, 0x50, 0, 1, 64, 0] ++ List.replicate 16 0 ++ [1, 0, 2, 0, 0, 1, 0, 0, 0, 0, 0, 0, 0, 0, 14, 0] ++ List.replicate 24 0) }) State.reset).modPt 0 (fun q => { q with profile := some (⟨List.replicate 16 0, 1, 2, 0, 1, false, 0, 0, 0, [], [], [], []⟩) })).setF (LNK_P_SCC__STRETCH_MAX 0) 0).setF (LNK_P_SCC__DIV 0) 14).setB (LNK_P_SCC__SPI 0) false, ((((((((entered 0x0104 ({ pkt 0x1000 [0, 0, 64, 0] with buf := .bytes ([0x46, 0x4C, 0x53, 0x50, 0, 1, 64, 0] ++ List.replicate 16 0 ++ [1, 0, 2, 0, 0, 1, 0, 0, 0, 0, 0, 0, 0, 0, 14, 0] ++ List.replicate 24 0) }) State.reset).modPt 0 (fun q => { q with profile := some (⟨List.replicate 16 0, 1, 2, 0, 1, false, 0, 0, 0, [], [], [], []⟩) })).setF (LNK_P_SCC__STRETCH_MAX 0) 0).setF (LNK_P_SCC__DIV 0) 14).setB (LNK_P_SCC__SPI 0) false).setB (LNK_P_SCC__SPI_MODE3 0) false).setF (LNK_P_SET_CFG__SET_WINDOW_US 0) 0).setF (LNK_P_SET_CFG__SET_LINE 0) 0), State.reset, by decide⟩,
    ⟨pkt 0x1000 [0, 0, 0, 0], [], State.reset, by decide⟩,
    ⟨pkt 0x1000 [5, 1, 0, 0, 0, 0, 0, 0], ⟨[], 1, 2, 0, 1, false, 0, 0, 0, [], [], [], []⟩, ((State.reset.setF (LNK_P_SET_CFG__SET_WINDOW_US 0) 0xFFFF).modPt 0 (fun q => { q with profile := some (⟨[], 1, 2, 0, 1, false, 0, 0, 0, [], [], [], []⟩) })), by decide⟩,
    ⟨{ pkt 0x1000 [0, 1, 0, 0, 0, 0, 1, 0, 0, 0, 0, 0] with buf := .bytes [7] }, 1, 0, [7], (entered 0x0105 ({ pkt 0x1000 [0, 1, 0, 0, 0, 0, 1, 0, 0, 0, 0, 0] with buf := .bytes [7] }) State.reset).modPt 0 (fun q => { q with xfer := q.xfer ++ [{ hdr := some ⟨0, 0, 0x0105, 0, 0⟩, addr := 0, noStop := false, write := [7], readLen := 0, readRef := (0, 0, 0), running := false }] }), State.reset, by decide⟩,
    ⟨0, { hdr := some ⟨0, 1, 0x0105, 0, 0⟩, seq := [], addr := 0, noStop := false, write := [], readLen := 0, readRef := (0, 0, 0), running := true }, [], (State.reset.modPt 0 (fun q => { q with xfer := [{ hdr := some ⟨0, 1, 0x0105, 0, 0⟩, seq := [], addr := 0, noStop := false, write := [], readLen := 0, readRef := (0, 0, 0), running := true }] })), by decide⟩,
    ⟨0, State.reset, by decide⟩,
    ⟨0, [], { hdr := some ⟨0, 1, 0x0105, 0, 0⟩, seq := [], addr := 0, noStop := false, write := [], readLen := 0, readRef := (0, 0, 0), running := true }, ⟨0, 1, 0x0105, 0, 0⟩, [], (State.reset.modPt 0 (fun q => { q with xfer := [{ hdr := some ⟨0, 1, 0x0105, 0, 0⟩, seq := [], addr := 0, noStop := false, write := [], readLen := 0, readRef := (0, 0, 0), running := true }] })), by decide⟩,
    ⟨0, 3, { hdr := some ⟨0, 1, 0x0105, 0, 0⟩, seq := [], addr := 0, noStop := false, write := [], readLen := 0, readRef := (0, 0, 0), running := true }, ⟨0, 1, 0x0105, 0, 0⟩, [], (State.reset.modPt 0 (fun q => { q with xfer := [{ hdr := some ⟨0, 1, 0x0105, 0, 0⟩, seq := [], addr := 0, noStop := false, write := [], readLen := 0, readRef := (0, 0, 0), running := true }] })), by decide⟩,
    ⟨0, [], 3, { hdr := none, seq := [[1]], addr := 0, noStop := false, write := [], readLen := 0, readRef := (0, 0, 0), running := true }, [], (State.reset.modPt 0 (fun q => { q with xfer := [{ hdr := none, seq := [[1]], addr := 0, noStop := false, write := [], readLen := 0, readRef := (0, 0, 0), running := true }] })), by decide⟩,
    ⟨0, .nack 0, ⟨⟨5, []⟩, 0, false⟩, ⟨[], 1, 2, 0, 1, false, 0, 0, 0, [], [], [], []⟩, ((State.reset.modPt 0 (fun q => { q with writing := some (⟨⟨5, []⟩, 0, false⟩) })).modPt 0 (fun q => { q with profile := some (⟨[], 1, 2, 0, 1, false, 0, 0, 0, [], [], [], []⟩) })), by decide⟩,
    ⟨0, State.reset.modPt 0 (fun q => { q with setDue := true }), by decide⟩,
    ⟨0, ⟨⟨5, []⟩, 0, false⟩, (State.reset.modPt 0 (fun q => { q with writing := some (⟨⟨5, []⟩, 0, false⟩) })), by decide⟩⟩

theorem witness_LinkLanes :
    (∃ (lane : Fin 24) (at_ : Nat) (bits : List Bool) (s : State),
      s.f (LNK_L_PAT__MODE lane) ≠ 0)
    ∧ (∃ (lane : Fin 24) (at_ : Nat) (bits : List Bool) (s : State),
      s.f (LNK_L_PAT__MODE lane) = 0 ∧ s.laneOwner lane = none)
    ∧ (∃ (lane : Fin 24) (at_ : Nat) (p : Nat) (bits : List Bool) (s : State),
      s.f (LNK_L_PAT__MODE lane) = 0 ∧ s.laneOwner lane = some p ∧ findComma 0 [] ((s.ln lane).line ++ bits) = none)
    ∧ (∃ (lane : Fin 24) (at_ : Nat) (bits : List Bool) (before : List Bool) (after : List Bool) (p : Nat) (w : List W32 × Option Nat) (x : List W32 × State) (u : State) (v : State) (s : State),
      s.f (LNK_L_PAT__MODE lane) = 0 ∧ s.laneOwner lane = some p ∧ findComma 0 [] ((s.ln lane).line ++ bits) = some (before, after) ∧ u = ((s.setB (LNK_L_STAT__CDR_LOCK lane) true).setF (LNK_QCFG__EQ (lane / 4)) ((s.setB (LNK_L_STAT__CDR_LOCK lane) true).eqPreset (lane / 4))).modLn lane (fun q => { q with line := after }) ∧ w = intervalWords (16 * (u.f (LNK_P_CFG__CW p) + 1)) before ∧ x = u.wholeWords (16 * (u.f (LNK_P_CFG__CW p) + 1)) w.1 ∧ w.2.any (fun fill => decide (fill ≤ 184)) = true ∧ v = x.2.modLn lane (fun q => { q with at_ := some at_, words := x.1, good := q.good + 1, bad := 0 }))
    ∧ (∃ (lane : Fin 24) (at_ : Nat) (bits : List Bool) (before : List Bool) (after : List Bool) (p : Nat) (w : List W32 × Option Nat) (x : List W32 × State) (u : State) (v : State) (s : State),
      s.f (LNK_L_PAT__MODE lane) = 0 ∧ s.laneOwner lane = some p ∧ findComma 0 [] ((s.ln lane).line ++ bits) = some (before, after) ∧ u = ((s.setB (LNK_L_STAT__CDR_LOCK lane) true).setF (LNK_QCFG__EQ (lane / 4)) ((s.setB (LNK_L_STAT__CDR_LOCK lane) true).eqPreset (lane / 4))).modLn lane (fun q => { q with line := after }) ∧ w = intervalWords (16 * (u.f (LNK_P_CFG__CW p) + 1)) before ∧ x = u.wholeWords (16 * (u.f (LNK_P_CFG__CW p) + 1)) w.1 ∧ w.2.any (fun fill => decide (fill ≤ 184)) = false ∧ v = x.2.modLn lane (fun q => { q with at_ := some at_, words := x.1, good := 0, bad := q.bad + 1 }))
    ∧ (∃ (port : Fin 4) (w : W32) (rest : List W32) (more : List (List W32)) (u : State) (s : State),
      (s.pt port).waiting = (w :: rest) :: more ∧ u = s.modPt port (fun q => { q with waiting := more }) ∧ (u.on (LNK_P_CFG__EN port) && u.on (LNK_P_STAT__LOCKED port) && !u.dev.safe) = false)
    ∧ (∃ (port : Fin 4) (w : W32) (rest : List W32) (more : List (List W32)) (u : State) (v : State) (s : State),
      (s.pt port).waiting = (w :: rest) :: more ∧ u = s.modPt port (fun q => { q with waiting := more }) ∧ (u.on (LNK_P_CFG__EN port) && u.on (LNK_P_STAT__LOCKED port) && !u.dev.safe) = true ∧ (v = if wordOk w then u else u.lnkFault port lfLwCrc loLwCrc))
    ∧ (∃ (port : Fin 4) (w : W32) (r : List W32) (s : State),
      (s.pt port).stream = w :: r ∧ s.portOn port = true ∧ wordOk w = false)
    ∧ (∃ (p : Pkt) (quads : List Nat) (s : State),
      accepted 0x0107 p s = true ∧ ((List.range 24).filter (fun l => p.t 0 l)).any (fun l => ((entered 0x0107 p s).laneOwner l).any (fun o => (entered 0x0107 p s).on (LNK_P_CFG__EN o))) = false ∧ quads = (List.range 6).filter (fun q => ((List.range 24).filter (fun l => p.t 0 l)).any (fun l => l / 4 == q) && qmapOf ((entered 0x0107 p s).f LNK_QMAP__QMAP) q == 7) ∧ 20 ≤ p.w 2 ∧ p.w 2 ≤ 128)
    ∧ (∃ (p : Pkt) (s : State),
      accepted 0x0107 p s = true ∧ ((List.range 24).filter (fun l => p.t 0 l)).any (fun l => ((entered 0x0107 p s).laneOwner l).any (fun o => (entered 0x0107 p s).on (LNK_P_CFG__EN o))) = true)
    ∧ (∃ (lane : Fin 24) (bits : List Bool) (x : PatRun) (s : State),
      s.on (LNK_L_PAT__CHK lane) = true ∧ s.f (LNK_L_PAT__MODE lane) ≠ 0 ∧ s.on (LNK_L_PAT__NEAR_LOOP lane) = false ∧ x = bits.foldl (PatRun.take (s.f (LNK_L_PAT__MODE lane))) { check := (s.ln lane).check, sync := s.on (LNK_L_STAT__PAT_SYNC lane) })
    ∧ (∃ (lane : Fin 24) (bits : List Bool) (s : State),
      (s.on (LNK_L_PAT__CHK lane) = false ∨ s.f (LNK_L_PAT__MODE lane) = 0 ∨ s.on (LNK_L_PAT__NEAR_LOOP lane) = true))
    ∧ (∃ (port : Fin 4) (s : State),
      (s.pt port).trgDue ≠ 0)
    ∧ (∃ (port : Fin 4) (s : State),
      (s.pt port).trgDue = 0) :=
  ⟨⟨23, 0, [], State.reset.setF (LNK_L_PAT__MODE 23) 1, by decide⟩,
    ⟨23, 0, [], State.reset, by decide⟩,
    ⟨0, 0, 0, [true], (((State.reset.setF (LNK_P_CFG__LANES 0) 2).setF (LNK_P_CFG__CW 0) 0).setF LNK_QMAP__QMAP 0), by decide⟩,
    ⟨0, 0, pairs 300 ++ commaBits, (pairs 300), [], 0, intervalWords (16 * (commaState.f (LNK_P_CFG__CW 0) + 1)) (pairs 300), commaState.wholeWords (16 * (commaState.f (LNK_P_CFG__CW 0) + 1)) (intervalWords (16 * (commaState.f (LNK_P_CFG__CW 0) + 1)) (pairs 300)).1, commaState, (commaState.wholeWords (16 * (commaState.f (LNK_P_CFG__CW 0) + 1)) (intervalWords (16 * (commaState.f (LNK_P_CFG__CW 0) + 1)) (pairs 300)).1).2.modLn 0 (fun q => { q with at_ := some 0, words := (commaState.wholeWords (16 * (commaState.f (LNK_P_CFG__CW 0) + 1)) (intervalWords (16 * (commaState.f (LNK_P_CFG__CW 0) + 1)) (pairs 300)).1).1, good := q.good + 1, bad := 0 }), (((State.reset.setF (LNK_P_CFG__LANES 0) 2).setF (LNK_P_CFG__CW 0) 0).setF LNK_QMAP__QMAP 0), by exact ⟨by decide, by decide, comma_found _, rfl, rfl, rfl, by decide +kernel, rfl⟩⟩,
    ⟨0, 0, commaBits, [], [], 0, intervalWords (16 * (commaState.f (LNK_P_CFG__CW 0) + 1)) [], commaState.wholeWords (16 * (commaState.f (LNK_P_CFG__CW 0) + 1)) (intervalWords (16 * (commaState.f (LNK_P_CFG__CW 0) + 1)) []).1, commaState, (commaState.wholeWords (16 * (commaState.f (LNK_P_CFG__CW 0) + 1)) (intervalWords (16 * (commaState.f (LNK_P_CFG__CW 0) + 1)) []).1).2.modLn 0 (fun q => { q with at_ := some 0, words := (commaState.wholeWords (16 * (commaState.f (LNK_P_CFG__CW 0) + 1)) (intervalWords (16 * (commaState.f (LNK_P_CFG__CW 0) + 1)) []).1).1, good := 0, bad := q.bad + 1 }), (((State.reset.setF (LNK_P_CFG__LANES 0) 2).setF (LNK_P_CFG__CW 0) 0).setF LNK_QMAP__QMAP 0), by refine ⟨by decide, by decide, ?_, rfl, rfl, rfl, ?_, rfl⟩ <;> decide +kernel⟩,
    ⟨0, 5, [], [], State.reset.modPt 0 (fun q => { q with waiting := [] }), State.reset.modPt 0 (fun q => { q with waiting := [[5]] }), by decide⟩,
    ⟨0, 5, [], [], (((State.reset.modPt 0 (fun q => { q with waiting := [[5]] })).setB (LNK_P_CFG__EN 0) true).setB (LNK_P_STAT__LOCKED 0) true).modPt 0 (fun q => { q with waiting := [] }), (((((State.reset.modPt 0 (fun q => { q with waiting := [[5]] })).setB (LNK_P_CFG__EN 0) true).setB (LNK_P_STAT__LOCKED 0) true).modPt 0 (fun q => { q with waiting := [] })).lnkFault 0 lfLwCrc loLwCrc), ((State.reset.modPt 0 (fun q => { q with waiting := [[5]] })).setB (LNK_P_CFG__EN 0) true).setB (LNK_P_STAT__LOCKED 0) true, by exact ⟨by decide, rfl, by decide, rfl⟩⟩,
    ⟨0, 5, [], (((State.reset.setB (LNK_P_CFG__EN 0) true).setB (LNK_P_STAT__LOCKED 0) true).modPt 0 (fun q => { q with stream := [5] })), by decide⟩,
    ⟨pkt 0 [1, 0, 20, 0], [0], State.reset, by decide⟩,
    ⟨pkt 0 [1, 0, 20, 0], (((State.reset.setF (LNK_P_CFG__LANES 0) 2).setF (LNK_P_CFG__CW 0) 0).setF LNK_QMAP__QMAP 0).setB (LNK_P_CFG__EN 0) true, by decide⟩,
    ⟨0, [], { check := {}, sync := false }, (State.reset.setB (LNK_L_PAT__CHK 0) true).setF (LNK_L_PAT__MODE 0) 1, by decide⟩,
    ⟨0, [], State.reset, by decide⟩,
    ⟨0, (State.reset.modPt 0 (fun q => { q with trg := true, trgDue := 1 })), by decide⟩,
    ⟨0, State.reset, by decide⟩⟩

theorem witness_FrameStarts :
    (∃ (port : Fin 4) (k : Packet) (prof : Profile) (fid : Nat) (u : State) (v : State) (x : State) (z : State) (s : State),
      s.packetIn port 1 (some 2) = (some k, u) ∧ v = u.endOpen port ∧ (v.pt port).profile = some prof ∧ v.on (LNK_P_CFG__EN port) = true ∧ x = v.frameOpens port (k.words.getD 0 0).toNat ∧ (x.cst port = 2 ∨ x.cst port = 3) ∧ x.placeFrame port prof = (some fid, z))
    ∧ (∃ (port : Fin 4) (k : Packet) (prof : Profile) (u : State) (v : State) (x : State) (z : State) (s : State),
      s.packetIn port 1 (some 2) = (some k, u) ∧ v = u.endOpen port ∧ (v.pt port).profile = some prof ∧ v.on (LNK_P_CFG__EN port) = true ∧ x = v.frameOpens port (k.words.getD 0 0).toNat ∧ (x.cst port = 2 ∨ x.cst port = 3) ∧ x.placeFrame port prof = (none, z))
    ∧ (∃ (port : Fin 4) (k : Packet) (prof : Profile) (u : State) (v : State) (x : State) (s : State),
      s.packetIn port 1 (some 2) = (some k, u) ∧ v = u.endOpen port ∧ (v.pt port).profile = some prof ∧ v.on (LNK_P_CFG__EN port) = true ∧ x = v.frameOpens port (k.words.getD 0 0).toNat ∧ x.cst port ≠ 2 ∧ x.cst port ≠ 3)
    ∧ (∃ (port : Fin 4) (k : Packet) (u : State) (v : State) (s : State),
      s.packetIn port 1 (some 2) = (some k, u) ∧ v = u.endOpen port ∧ ((v.pt port).profile = none ∨ v.on (LNK_P_CFG__EN port) = false))
    ∧ (∃ (port : Fin 4) (u : State) (s : State),
      s.packetIn port 1 (some 2) = (none, u)) :=
  ⟨⟨0, ⟨0, [7, 0], true⟩, prof, (((taken running).frameOpens 0 7).placeFrame 0 prof).1.getD 0, (taken running), (taken running), (taken running).frameOpens 0 7, (((taken running).frameOpens 0 7).placeFrame 0 prof).2, arrived running 1 0 [7, 0], by refine ⟨?_, rfl, ?_, ?_, rfl, ?_, ?_⟩ <;> decide +kernel⟩,
    ⟨0, ⟨0, [7, 0], true⟩, prof, (taken (onPort.setCst 0 2)), (taken (onPort.setCst 0 2)), (taken (onPort.setCst 0 2)).frameOpens 0 7, (((taken (onPort.setCst 0 2)).frameOpens 0 7).placeFrame 0 prof).2, arrived (onPort.setCst 0 2) 1 0 [7, 0], by refine ⟨?_, rfl, ?_, ?_, rfl, ?_, ?_⟩ <;> decide +kernel⟩,
    ⟨0, ⟨0, [7, 0], true⟩, prof, (taken onPort), (taken onPort), (taken onPort).frameOpens 0 7, arrived onPort 1 0 [7, 0], by refine ⟨?_, rfl, ?_, ?_, rfl, ?_, ?_⟩ <;> decide +kernel⟩,
    ⟨0, ⟨0, [7, 0], true⟩, (arrived (onPort.modPt 0 (fun q => { q with profile := none })) 1 0 [7, 0]).packetOff 0 (hdrOf 1 0 2), (arrived (onPort.modPt 0 (fun q => { q with profile := none })) 1 0 [7, 0]).packetOff 0 (hdrOf 1 0 2), arrived (onPort.modPt 0 (fun q => { q with profile := none })) 1 0 [7, 0], by decide +kernel⟩,
    ⟨0, State.reset, State.reset, by decide⟩⟩

theorem witness_LinePackets :
    (∃ (port : Fin 4) (k : Packet) (f : Ingest) (g : Ingest) (y : Nat) (u : State) (v : State) (w : State) (x : State) (s : State),
      s.packetIn port 3 (some 1) = (some k, u) ∧ y = (k.words.getD 0 0).toNat % 0x10000 ∧ (u.rw_ port).frame = some f ∧ k.vc < f.cfg.readouts ∧ v = (u.lineTimed port k.vc y).closeLine port k.vc ∧ (v.rw_ port).frame = some g ∧ (g.lines.getD k.vc []).length ≤ y ∧ y < g.height ∧ (w = if (g.lines.getD k.vc []).length < y then (v.lnkFault port lfSeq loSkipAhead).fillTo port k.vc y g.height else v) ∧ x = (w.modIngest port (fun f => { f with skip := f.skip.set k.vc false, cur := f.cur.set k.vc (some ⟨y, [], !k.good⟩) })).checkWaiting port)
    ∧ (∃ (port : Fin 4) (k : Packet) (f : Ingest) (g : Ingest) (y : Nat) (u : State) (v : State) (s : State),
      s.packetIn port 3 (some 1) = (some k, u) ∧ y = (k.words.getD 0 0).toNat % 0x10000 ∧ (u.rw_ port).frame = some f ∧ k.vc < f.cfg.readouts ∧ v = (u.lineTimed port k.vc y).closeLine port k.vc ∧ (v.rw_ port).frame = some g ∧ (y < (g.lines.getD k.vc []).length ∨ g.height ≤ y))
    ∧ (∃ (port : Fin 4) (full : Bool) (k : Packet) (f : Ingest) (l : OpenLine) (u : State) (s : State),
      s.packetIn port 4 (none) = (some k, u) ∧ (u.rw_ port).frame = some f ∧ f.cur.getD k.vc none = some l)
    ∧ (∃ (port : Fin 4) (full : Bool) (k : Packet) (f : Ingest) (u : State) (s : State),
      s.packetIn port 4 (none) = (some k, u) ∧ (u.rw_ port).frame = some f ∧ f.cur.getD k.vc none = none)
    ∧ (∃ (port : Fin 4) (k : Packet) (f : Ingest) (u : State) (s : State),
      s.packetIn port 5 (some 0) = (some k, u) ∧ (u.rw_ port).frame = some f)
    ∧ (∃ (port : Fin 4) (k : Packet) (f : Ingest) (n : Nat) (u : State) (s : State),
      s.packetIn port 6 (none) = (some k, u) ∧ (u.rw_ port).frame = some f ∧ n = 4096 * ((u.rec? port f.fid).map (·.embSect)).getD 0) :=
  ⟨⟨0, ⟨0, [0], true⟩, frame1, frame1, 0, ((arrived inFrame1 3 0 [0]).packetOff 0 (hdrOf 3 0 ([0] : List W32).length)), (((arrived inFrame1 3 0 [0]).packetOff 0 (hdrOf 3 0 ([0] : List W32).length)).lineTimed 0 0 0).closeLine 0 0, (((arrived inFrame1 3 0 [0]).packetOff 0 (hdrOf 3 0 ([0] : List W32).length)).lineTimed 0 0 0).closeLine 0 0, ((((((arrived inFrame1 3 0 [0]).packetOff 0 (hdrOf 3 0 ([0] : List W32).length)).lineTimed 0 0 0).closeLine 0 0).modIngest 0 (fun f => { f with skip := f.skip.set 0 false, cur := f.cur.set 0 (some ⟨0, [], false⟩) })).checkWaiting 0), arrived inFrame1 3 0 [0], by refine ⟨?_, ?_, ?_, ?_, rfl, ?_, ?_, ?_, ?_, rfl⟩ <;> decide +kernel⟩,
    ⟨0, ⟨0, [2], true⟩, frame1, frame1, 2, ((arrived inFrame1 3 0 [2]).packetOff 0 (hdrOf 3 0 ([2] : List W32).length)), (((arrived inFrame1 3 0 [2]).packetOff 0 (hdrOf 3 0 ([2] : List W32).length)).lineTimed 0 0 2).closeLine 0 0, arrived inFrame1 3 0 [2], by refine ⟨?_, ?_, ?_, ?_, rfl, ?_, ?_⟩ <;> decide +kernel⟩,
    ⟨0, true, ⟨0, [5], true⟩, frame0, ⟨0, [], false⟩, ((arrived inFrame 4 0 [5]).packetOff 0 (hdrOf 4 0 ([5] : List W32).length)), arrived inFrame 4 0 [5], by decide +kernel⟩,
    ⟨0, false, ⟨0, [5], true⟩, frame1, ((arrived inFrame1 4 0 [5]).packetOff 0 (hdrOf 4 0 ([5] : List W32).length)), arrived inFrame1 4 0 [5], by decide +kernel⟩,
    ⟨0, ⟨0, [], true⟩, frame0, ((arrived inFrame 5 0 []).packetOff 0 (hdrOf 5 0 ([] : List W32).length)), arrived inFrame 5 0 [], by decide +kernel⟩,
    ⟨0, ⟨0, [5], true⟩, frame0, 0, ((arrived inFrame 6 0 [5]).packetOff 0 (hdrOf 6 0 ([5] : List W32).length)), arrived inFrame 6 0 [5], by decide +kernel⟩⟩

theorem witness_FrameEnds :
    (∃ (port : Fin 4) (k : Packet) (f : Ingest) (g : Ingest) (j : Ingest) (u : State) (v : State) (w : State) (x : State) (s : State),
      s.packetIn port 2 (some 1) = (some k, u) ∧ (u.rw_ port).frame = some f ∧ v = (List.range f.cfg.readouts).foldl (fun s r => s.closeLine port r) u ∧ (v.rw_ port).frame = some g ∧ (w = if (List.range g.cfg.readouts).any (fun r => g.got.getD r 0 != (k.words.getD 0 0).toNat % 0x10000) then (v.lnkFault port lfLen loCount).modIngest port (fun f => { f with countBad := true }) else v) ∧ (x = (List.range g.cfg.readouts).foldl (fun s r => s.fillTo port r g.height g.height) (if (List.range g.cfg.readouts).any (fun r => decide ((g.lines.getD r []).length < g.height)) then w.raise (RAW_P_ERR__DMG port) else w)) ∧ (x.rw_ port).frame = some j)
    ∧ (∃ (port : Fin 4) (k : Packet) (u : State) (s : State),
      s.packetIn port 3 (some 1) = (some k, u) ∧ (u.rw_ port).frame = none)
    ∧ (∃ (port : Fin 4) (k : Packet) (u : State) (s : State),
      s.packetIn port 2 (some 1) = (some k, u) ∧ (u.rw_ port).frame = none)
    ∧ (∃ (port : Fin 4) (full : Bool) (k : Packet) (u : State) (s : State),
      s.packetIn port 4 (none) = (some k, u) ∧ (u.rw_ port).frame = none)
    ∧ (∃ (port : Fin 4) (k : Packet) (u : State) (s : State),
      s.packetIn port 6 (none) = (some k, u) ∧ (u.rw_ port).frame = none)
    ∧ (∃ (port : Fin 4) (k : Packet) (u : State) (s : State),
      s.packetIn port 5 (some 0) = (some k, u) ∧ (u.rw_ port).frame = none)
    ∧ (∃ (port : Fin 4) (w : W32) (t : List W32) (s : State),
      s.packetAt port = some (w, t) ∧ s.portOn port = true ∧ 7 ≤ hdrType w)
    ∧ (∃ (port : Fin 4) (s : State),
      (s.packetAt port = none ∨ s.portOn port = false ∨ (s.packetAt port).any (fun x => decide (hdrType x.1 < 7)) = true))
    ∧ (∃ (port : Fin 4) (s : State),
      s.on (LNK_P_STAT__IN_FRAME port) = true ∧ s.f (LNK_P_FRAME_TMO__TMO_US port) ≠ 0)
    ∧ (∃ (port : Fin 4) (s : State),
      (s.on (LNK_P_STAT__IN_FRAME port) = false ∨ s.f (LNK_P_FRAME_TMO__TMO_US port) = 0))
    ∧ (∃ (port : Fin 4) (f : Ingest) (s : State),
      (s.rw_ port).frame = some f)
    ∧ (∃ (port : Fin 4) (s : State),
      (s.rw_ port).frame = none) :=
  ⟨⟨0, ⟨0, [0], true⟩, frame1, frame1, ((((arrived inFrame1 2 0 [0]).packetOff 0 (hdrOf 2 0 ([0] : List W32).length)).raise (RAW_P_ERR__DMG 0)).fillTo 0 0 2 2 |>.rw_ 0).frame.getD frame1, ((arrived inFrame1 2 0 [0]).packetOff 0 (hdrOf 2 0 ([0] : List W32).length)), ((arrived inFrame1 2 0 [0]).packetOff 0 (hdrOf 2 0 ([0] : List W32).length)), ((arrived inFrame1 2 0 [0]).packetOff 0 (hdrOf 2 0 ([0] : List W32).length)), (((arrived inFrame1 2 0 [0]).packetOff 0 (hdrOf 2 0 ([0] : List W32).length)).raise (RAW_P_ERR__DMG 0)).fillTo 0 0 2 2, arrived inFrame1 2 0 [0], by decide +kernel⟩,
    ⟨0, ⟨0, [5], true⟩, ((arrived onPort 3 0 [5]).packetOff 0 (hdrOf 3 0 ([5] : List W32).length)), arrived onPort 3 0 [5], by decide +kernel⟩,
    ⟨0, ⟨0, [5], true⟩, ((arrived onPort 2 0 [5]).packetOff 0 (hdrOf 2 0 ([5] : List W32).length)), arrived onPort 2 0 [5], by decide +kernel⟩,
    ⟨0, true, ⟨0, [5], true⟩, ((arrived onPort 4 0 [5]).packetOff 0 (hdrOf 4 0 ([5] : List W32).length)), arrived onPort 4 0 [5], by decide +kernel⟩,
    ⟨0, ⟨0, [5], true⟩, ((arrived onPort 6 0 [5]).packetOff 0 (hdrOf 6 0 ([5] : List W32).length)), arrived onPort 6 0 [5], by decide +kernel⟩,
    ⟨0, ⟨0, [], true⟩, ((arrived onPort 5 0 []).packetOff 0 (hdrOf 5 0 ([] : List W32).length)), arrived onPort 5 0 [], by decide +kernel⟩,
    ⟨0, hdrOf 7 0 0, [], arrived onPort 7 0 [], by decide +kernel⟩,
    ⟨0, State.reset, by decide⟩,
    ⟨0, (State.reset.setB (LNK_P_STAT__IN_FRAME 0) true).setF (LNK_P_FRAME_TMO__TMO_US 0) 5, by decide⟩,
    ⟨0, State.reset, by decide⟩,
    ⟨0, { frame1 with recorded := true, lines := [[[0], [0]], [], []] }, onPort.modRw 0 (fun r => { r with frame := some { frame1 with recorded := true, lines := [[[0], [0]], [], []] } }), by decide⟩,
    ⟨0, State.reset, by decide⟩⟩

theorem witness_RawFrontEnd :
    (∃ (p : Pkt) (bs : List Byte) (s : State),
      accepted 0x0200 p s = true ∧ (entered 0x0200 p s).refOk (p.ref 4) = true ∧ p.b 0 0 2 ≠ 3 ∧ (p.ref 4).len = 16388 ∧ (entered 0x0200 p s).readRef (p.ref 4) p.buf = some bs ∧ (wordsOf bs).any (fun w => decide (0x1000000 ≤ w)) = false)
    ∧ (∃ (p : Pkt) (s : State),
      accepted 0x0200 p s = true ∧ (entered 0x0200 p s).refOk (p.ref 4) = true ∧ p.b 0 0 2 = 3)
    ∧ (∃ (p : Pkt) (s : State),
      accepted 0x0200 p s = true ∧ (entered 0x0200 p s).refOk (p.ref 4) = true ∧ p.b 0 0 2 ≠ 3 ∧ (p.ref 4).len ≠ 16388)
    ∧ (∃ (p : Pkt) (bs : List Byte) (s : State),
      accepted 0x0201 p s = true ∧ (entered 0x0201 p s).refOk (p.ref 4) = true ∧ (p.b 0 0 2 ≠ 3 ∨ p.t 0 8 = true) ∧ (p.ref 4).len = 4096 ∧ (entered 0x0201 p s).readRef (p.ref 4) p.buf = some bs ∧ (wordsOf bs).any (fun w => decide (0x1000000 ≤ w)) = false)
    ∧ (∃ (p : Pkt) (f : Profile) (bs : List Byte) (l : List (Nat × Nat × Nat)) (u : State) (s : State),
      accepted 0x0203 p s = true ∧ (entered 0x0203 p s).refOk (p.ref 4) = true ∧ ((entered 0x0203 p s).pt p.idx).profile = some f ∧ p.b 0 0 19 ≤ 262144 ∧ 4 * p.b 0 0 19 ≤ (p.ref 4).len ∧ (entered 0x0203 p s).readRef (p.ref 4) p.buf = some bs ∧ l = ((wordsOf bs).take (p.b 0 0 19)).map defectOf ∧ defectsOk f.width f.height (sameStep ((entered 0x0203 p s).f (RAW_P_CFG__CFA p.idx))) l = true ∧ u = (entered 0x0203 p s).modRw p.idx (fun q => { q with defects := l }))
    ∧ (∃ (p : Pkt) (v : State) (w : State) (s : State),
      accepted 0x0202 p s = true ∧ 0 < p.b 0 0 2 ∧ p.b 0 4 2 < p.b 0 0 2 ∧ p.b 2 16 7 ≤ 64 ∧ (List.range 3).find? (fun r => decide (p.w (10 + r) < p.w (7 + r))) = none ∧ (entered 0x0202 p s).r112 p.idx { (entered 0x0202 p s).shadowRaw p.idx with readouts := p.b 0 0 2 } none = true ∧ v = ((entered 0x0202 p s).setF (RAW_P_CFG__READOUTS p.idx) (p.b 0 0 2)).wn (RAW_P_APPLY_TAG p.idx) (p.w 1) ∧ w = (v.wn (RAW_P_GHOST p.idx) (p.b 2 0 16 + p.b 2 16 7 * 0x10000 + p.b 0 4 2 * 0x10000000 + p.b 0 8 1 * 0x80000000)).wn (RAW_P_NOISE_FLOOR p.idx) (p.w 3))
    ∧ (∃ (p : Pkt) (s : State),
      accepted 0x0202 p s = true ∧ 0 < p.b 0 0 2 ∧ p.b 0 4 2 < p.b 0 0 2 ∧ p.b 2 16 7 ≤ 64 ∧ (List.range 3).find? (fun r => decide (p.w (10 + r) < p.w (7 + r))) = none ∧ (entered 0x0202 p s).r112 p.idx { (entered 0x0202 p s).shadowRaw p.idx with readouts := p.b 0 0 2 } none = false)
    ∧ (∃ (p : Pkt) (s : State),
      accepted 0x0202 p s = true ∧ p.b 0 0 2 = 0)
    ∧ (∃ (p : Pkt) (v : State) (s : State),
      accepted 0x0204 p s = true ∧ (entered 0x0204 p s).formatCheck p = none ∧ v = (((entered 0x0204 p s).wn (RAW_P_CFG p.idx) (p.w 0)).setF (RAW_P_CFG__DYN_EN p.idx) ((entered 0x0204 p s).f (RAW_P_CFG__DYN_EN p.idx))).wn (RAW_P_LINE_NS p.idx) (p.w 1))
    ∧ (∃ (p : Pkt) (o : Outc) (s : State),
      accepted 0x0204 p s = true ∧ (entered 0x0204 p s).formatCheck p = some o)
    ∧ (∃ (p : Pkt) (b : IngestBlk) (s : State),
      accepted 0x0205 p s = true ∧ s.refOk (p.ref 0) = true ∧ ((p.ref 0).len = 0 ∨ 2144 ≤ (p.ref 0).len) ∧ b = (s.rw_ p.idx).latch) :=
  ⟨⟨{ pkt 0x2000 [0, 0, 0, 0, 0, 0, 16388, 0] with buf := .bytes [] }, List.replicate 16388 0, State.reset, by refine ⟨?_, ?_, ?_, ?_, readZero _ _ _ (by decide +kernel) (by decide) (by decide +kernel), words_small _⟩ <;> decide +kernel⟩,
    ⟨pkt 0x2000 [3, 0, 0, 0, 0, 0, 0, 0], State.reset, by decide⟩,
    ⟨pkt 0x2000 [0, 0, 0, 0, 0, 0, 0, 0], State.reset, by decide⟩,
    ⟨{ pkt 0x2000 [0, 0, 0, 0, 0, 0, 4096, 0] with buf := .bytes [] }, List.replicate 4096 0, State.reset, by refine ⟨?_, ?_, ?_, ?_, readZero _ _ _ (by decide +kernel) (by decide) (by decide +kernel), words_small _⟩ <;> decide +kernel⟩,
    ⟨{ pkt 0x2000 [0, 1, 5, 6, 0, 0, 0, 0] with buf := .bytes [] }, prof, [], [], (entered 0x0203 ({ pkt 0x2000 [0, 1, 5, 6, 0, 0, 0, 0] with buf := .bytes [] }) (State.reset.modPt 0 (fun q => { q with profile := some prof }))).modRw 0 (fun q => { q with defects := [] }), State.reset.modPt 0 (fun q => { q with profile := some prof }), by decide +kernel⟩,
    ⟨pkt 0x2000 (1 :: List.replicate 15 0), ((entered 0x0202 (pkt 0x2000 (1 :: List.replicate 15 0)) State.reset).setF (RAW_P_CFG__READOUTS 0) 1).wn (RAW_P_APPLY_TAG 0) 0, ((((entered 0x0202 (pkt 0x2000 (1 :: List.replicate 15 0)) State.reset).setF (RAW_P_CFG__READOUTS 0) 1).wn (RAW_P_APPLY_TAG 0) 0).wn (RAW_P_GHOST 0) 0).wn (RAW_P_NOISE_FLOOR 0) 0, State.reset, by decide +kernel⟩,
    ⟨pkt 0x2000 (1 :: List.replicate 15 0), ((State.reset.setF (RAW_P_LINE_NS__LINE_NS_MIN 0) 1).setF (CTX_C_SIZE__WIDTH 0) 16384), by decide +kernel⟩,
    ⟨pkt 0x2000 (List.replicate 16 0), State.reset, by decide⟩,
    ⟨pkt 0x2000 [0x40010, 0xFFFFF, 0, 0], (((entered 0x0204 (pkt 0x2000 [0x40010, 0xFFFFF, 0, 0]) State.reset).wn (RAW_P_CFG 0) 0x40010).setF (RAW_P_CFG__DYN_EN 0) 0).wn (RAW_P_LINE_NS 0) 0xFFFFF, State.reset, by decide +kernel⟩,
    ⟨pkt 0x2000 [4, 0, 0, 0], badWord 0, State.reset, by decide⟩,
    ⟨pkt 0x2000 [0, 0, 0, 0], (State.reset.rw_ 0).latch, State.reset, by decide⟩⟩

theorem witness_ContextSets :
    (∃ (p : Pkt) (s : State),
      accepted 0x0300 p s = true ∧ 64 ≤ p.b 0 0 16 ∧ p.b 0 0 16 ≤ 16384 ∧ 64 ≤ p.b 0 16 16 ∧ p.b 0 16 16 ≤ 16384 ∧ 1000000 ≤ p.w 2)
    ∧ (∃ (p : Pkt) (s : State),
      accepted 0x0300 p s = true ∧ (p.b 0 0 16 < 64 ∨ 16384 < p.b 0 0 16 ∨ p.b 0 16 16 < 64 ∨ 16384 < p.b 0 16 16))
    ∧ (∃ (p : Pkt) (s : State),
      accepted 0x0300 p s = true ∧ 64 ≤ p.b 0 0 16 ∧ p.b 0 0 16 ≤ 16384 ∧ 64 ≤ p.b 0 16 16 ∧ p.b 0 16 16 ≤ 16384 ∧ p.w 2 < 1000000)
    ∧ (∃ (p : Pkt) (s : State),
      accepted 0x0304 p s = true ∧ (p.t 0 0 = false ∨ (entered 0x0304 p s).cst p.idx = 0 ∨ (entered 0x0304 p s).essSum p.idx (max ((entered 0x0304 p s).liveLoad p.idx) ((entered 0x0304 p s).pendLoad p.idx)) true ≤ 1000))
    ∧ (∃ (p : Pkt) (s : State),
      accepted 0x0304 p s = true ∧ p.t 0 0 = true ∧ (entered 0x0304 p s).cst p.idx ≠ 0 ∧ 1000 < (entered 0x0304 p s).essSum p.idx (max ((entered 0x0304 p s).liveLoad p.idx) ((entered 0x0304 p s).pendLoad p.idx)) true)
    ∧ (∃ (p : Pkt) (s : State),
      accepted 0x0306 p s = true)
    ∧ (∃ (p : Pkt) (mark : Bool) (arming : Bool) (carries : Bool) (sh : RawCfg) (raw : RawCfg) (ts : List TapCfg) (id : W32) (i : Image) (u : State) (v : State) (w : State) (s : State),
      accepted 0x0301 p s = true ∧ s.commitCheck p.idx = none ∧ mark = (decide (p.idx < 4) && (s.rw_ p.idx).mergeMark) ∧ (sh = (if p.idx < 4 then s.shadowRaw p.idx else {})) ∧ arming = (mark && sh.applyTag != 0) ∧ (carries = ((mark && sh.applyTag == 0) || (match (s.cx p.idx).pending with | some i => i.carries && !mark | none => false))) ∧ (raw = (if carries || decide (p.idx ≥ 4) then sh else sh.withMerge (s.rw_ p.idx).live)) ∧ ts = (s.ownedTaps p.idx).map s.shadowTap ∧ (id = (if (s.cx p.idx).commitId + 1 = 0 then 1 else (s.cx p.idx).commitId + 1)) ∧ i = { id := id, cfg := s.shadowCtx p.idx, raw := raw, clr := s.shadowClr p.idx, taps := ts, fp := imageFp (s.shadowCtx p.idx) raw (s.shadowClr p.idx) ts, carries := carries } ∧ (u = (if (s.cx p.idx).pending.isSome then s.raise (CTX_C_ERR__COMMIT_REPLACED p.idx) else s).modCx p.idx (fun q => { q with commitId := id, pending := some i })) ∧ (v = (if u.cst p.idx = 0 then u.setCst p.idx 1 else u)) ∧ (w = (if p.idx < 4 ∧ arming ∧ (v.rw_ p.idx).armed.isSome then v.raise (RAW_P_ERR__ARM_REPLACED p.idx) else v)))
    ∧ (∃ (p : Pkt) (o : Outc) (s : State),
      accepted 0x0301 p s = true ∧ s.commitCheck p.idx = some o) :=
  ⟨⟨pkt 0x2000 [0x400040, 0, 1000000, 0], State.reset, by decide⟩,
    ⟨pkt 0x2000 [0x400020, 0, 1000000, 0], State.reset, by decide⟩,
    ⟨pkt 0x2000 [0x400040, 0, 999999, 0], State.reset, by decide⟩,
    ⟨pkt 0x2000 [1, 0, 0, 0], State.reset, by decide⟩,
    ⟨pkt 0x2000 [1, 0, 0, 0], (committable.setCst 0 1).modCx 0 (fun q => { q with live := some { id := 1, cfg := { width := 16384, height := 16384, frameNs := 1 }, raw := {}, clr := {}, taps := [], fp := 0 } }), by decide⟩,
    ⟨pkt 0x2000 [], State.reset, by decide⟩,
    ⟨pkt 0x2000 [], _, _, _, _, _, _, _, _, _, _, _, committable, by refine ⟨?_, ?_, rfl, rfl, rfl, rfl, rfl, rfl, rfl, rfl, rfl, rfl, rfl⟩ <;> decide +kernel⟩,
    ⟨pkt 0x2000 [], refuse stState 0x8005, State.reset, by decide⟩⟩

theorem witness_ContextRuns :
    (∃ (p : Pkt) (s : State),
      accepted 0x0302 p s = true ∧ (entered 0x0302 p s).cst p.idx = 0)
    ∧ (∃ (p : Pkt) (s : State),
      accepted 0x0302 p s = true ∧ (entered 0x0302 p s).cst p.idx ≠ 0 ∧ 4 ≤ p.idx ∧ ((entered 0x0302 p s).cx p.idx).source = none ∧ ((entered 0x0302 p s).cx p.idx).nextSource = none)
    ∧ (∃ (p : Pkt) (s : State),
      accepted 0x0302 p s = true ∧ (p.idx < 4 ∨ ((entered 0x0302 p s).cx p.idx).source.isSome = true ∨ ((entered 0x0302 p s).cx p.idx).nextSource.isSome = true) ∧ (entered 0x0302 p s).cst p.idx = 2)
    ∧ (∃ (p : Pkt) (u : State) (v : State) (s : State),
      accepted 0x0302 p s = true ∧ (p.idx < 4 ∨ ((entered 0x0302 p s).cx p.idx).source.isSome = true ∨ ((entered 0x0302 p s).cx p.idx).nextSource.isSome = true) ∧ (entered 0x0302 p s).cst p.idx ≠ 0 ∧ (entered 0x0302 p s).cst p.idx ≠ 2 ∧ (entered 0x0302 p s).bist 1 = false ∧ u = (entered 0x0302 p s).vaultUse.modCx p.idx (fun q => { q with firstFid := none }) ∧ (v = if p.idx < 4 then u.modRw p.idx (fun r => { r with latch := {}, firstFrame := true }) else u))
    ∧ (∃ (p : Pkt) (s : State),
      accepted 0x0303 p s = true ∧ (entered 0x0303 p s).cst p.idx ≠ 2 ∧ ((entered 0x0303 p s).cst p.idx ≠ 3 ∨ p.t 0 0 = true))
    ∧ (∃ (p : Pkt) (u : State) (v : State) (s : State),
      accepted 0x0303 p s = true ∧ ((entered 0x0303 p s).cst p.idx = 2 ∨ (entered 0x0303 p s).cst p.idx = 3) ∧ p.t 0 0 = false ∧ u = ((entered 0x0303 p s).disarm p.idx).modCx p.idx (fun q => { q with skipNext := none }) ∧ (v = u.setCst p.idx (if (u.cx p.idx).frames.isEmpty && !u.ingesting p.idx then 1 else 4)))
    ∧ (∃ (p : Pkt) (u : State) (v : State) (s : State),
      accepted 0x0303 p s = true ∧ (entered 0x0303 p s).cst p.idx = 2 ∧ p.t 0 0 = true ∧ u = ((entered 0x0303 p s).disarm p.idx).modCx p.idx (fun q => { q with skipNext := none }) ∧ (v = u.modCx p.idx (fun q => { q with stopAt := ((u.cx p.idx).frames.find? (fun f => f.started != 0)).map (·.fid), frames := q.frames.map (fun f => if f.started = 0 then { f with procStop := true } else f) })))
    ∧ (∃ (p : Pkt) (q : PlaySource) (g : CtxCfg) (s : State),
      accepted 0x0305 p s = true ∧ p.b 0 0 2 ≤ 1 ∧ p.b 0 4 3 ≤ 3 ∧ p.b 0 16 3 ≤ 4 ∧ (p.b 0 0 2 = 1 ∨ ((entered 0x0305 p s).rec? (p.b 0 4 3) (p.w 1)).isSome = true) ∧ q = { decoder := p.b 0 0 2 == 1, ctx := p.b 0 4 3, loop := p.t 0 12, pace := p.b 0 16 3, firstFid := p.w 1, count := p.w 2 } ∧ (g = (match (entered 0x0305 p s).liveImage p.idx, ((entered 0x0305 p s).cx p.idx).pending with | _, some i => i.cfg | some i, none => i.cfg | none, none => (entered 0x0305 p s).shadowCtx p.idx)) ∧ ((entered 0x0305 p s).sensorSource (some q) = false ∨ (entered 0x0305 p s).r112 (p.b 0 8 2) ((entered 0x0305 p s).rw_ (p.b 0 8 2)).live (some (p.idx, g)) = true))
    ∧ (∃ (p : Pkt) (s : State),
      accepted 0x0305 p s = true ∧ p.b 0 0 2 = 0 ∧ p.b 0 4 3 ≤ 3 ∧ p.b 0 16 3 ≤ 4 ∧ (entered 0x0305 p s).rec? (p.b 0 4 3) (p.w 1) = none) :=
  ⟨⟨pkt 0x2000 [], State.reset, by decide⟩,
    ⟨pkt 0x2004 [], State.reset.setCst 4 1, by decide⟩,
    ⟨pkt 0x2000 [], State.reset.setCst 0 2, by decide⟩,
    ⟨pkt 0x2000 [], _, _, State.reset.setCst 0 1, by exact ⟨by decide, by decide, by decide, by decide, by decide, rfl, rfl⟩⟩,
    ⟨pkt 0x2000 [0, 0, 0, 0], State.reset, by decide⟩,
    ⟨pkt 0x2000 [0, 0, 0, 0], _, _, State.reset.setCst 0 2, by exact ⟨by decide, by decide, by decide, rfl, rfl⟩⟩,
    ⟨pkt 0x2000 [1, 0, 0, 0], _, _, State.reset.setCst 0 2, by exact ⟨by decide, by decide, by decide, rfl, rfl⟩⟩,
    ⟨pkt 0x2004 [1, 0, 0, 0], _, _, State.reset, by exact ⟨by decide, by decide, by decide, by decide, by decide, rfl, rfl, by decide⟩⟩,
    ⟨pkt 0x2004 [0, 0, 0, 0], State.reset, by decide⟩⟩

theorem witness_Ladle :
    (∃ (c : Nat) (f : ProcFrame) (i : Nat) (s : State),
      s.ladle.cur = none ∧ s.dev.safe = false ∧ s.ladlePick = some c ∧ s.head c = some (f, i) ∧ ((∃ k, f.src = some (.decoder k)) ∨ (s.vaultUse.readRec c f).isSome = true))
    ∧ (∃ (c : Nat) (f : ProcFrame) (i : Nat) (s : State),
      s.ladle.cur = none ∧ s.dev.safe = false ∧ s.ladlePick = some c ∧ s.head c = some (f, i) ∧ (∀ k, f.src ≠ some (.decoder k)) ∧ s.vaultUse.readRec c f = none)
    ∧ (∃ (s : State),
      (s.ladle.cur.isSome = true ∨ s.dev.safe = true ∨ s.ladlePick = none))
    ∧ (∃ (q : CurStripe) (f : ProcFrame) (s : State),
      s.ladle.cur = some q ∧ s.frame? q.ctx q.fid = some f)
    ∧ (∃ (s : State),
      s.ladle.cur = none)
    ∧ (∃ (ctx : Fin 6) (q : CurStripe) (f : ProcFrame) (s : State),
      s.ladle.cur = some q ∧ q.ctx = ctx.val ∧ s.frame? ctx.val q.fid = some f ∧ (∀ k, f.src ≠ some (.decoder k)) ∧ s.readRec ctx.val f = none)
    ∧ (∃ (ctx : Fin 6) (s : State),
      (∀ q, s.ladle.cur = some q → q.ctx ≠ ctx.val))
    ∧ (∃ (ctx : Fin 6) (f : ProcFrame) (i : Nat) (t : State) (u : State) (s : State),
      s.head ctx.val = some (f, i) ∧ s.headReady ctx.val = true ∧ f.triggered = false ∧ t = s.modFrame ctx.val f.fid (fun g => { g with triggered := true }) ∧ u = { t with ladle := { t.ladle with triggers := t.ladle.triggers + 1 } } ∧ u.victim = none)
    ∧ (∃ (ctx : Fin 6) (f : ProcFrame) (i : Nat) (v : Nat) (fid : Nat) (t : State) (u : State) (s : State),
      s.head ctx.val = some (f, i) ∧ s.headReady ctx.val = true ∧ f.triggered = false ∧ t = s.modFrame ctx.val f.fid (fun g => { g with triggered := true }) ∧ u = { t with ladle := { t.ladle with triggers := t.ladle.triggers + 1 } } ∧ u.victim = some v ∧ u.skippable v = some (some fid))
    ∧ (∃ (ctx : Fin 6) (f : ProcFrame) (i : Nat) (v : Nat) (k : ProcCnt) (t : State) (u : State) (w : State) (s : State),
      s.head ctx.val = some (f, i) ∧ s.headReady ctx.val = true ∧ f.triggered = false ∧ t = s.modFrame ctx.val f.fid (fun g => { g with triggered := true }) ∧ u = { t with ladle := { t.ladle with triggers := t.ladle.triggers + 1 } } ∧ u.victim = some v ∧ u.skippable v = some none ∧ k = { cause := 1, trigCtx := ctx.val, trigFid := f.fid, endNs := u.ns } ∧ w = u.modCx v (fun q => { q with skipNext := some k }))
    ∧ (∃ (ctx : Fin 6) (s : State),
      (∀ f i, s.head ctx.val = some (f, i) → s.headReady ctx.val = false ∨ f.triggered = true)) :=
  ⟨⟨0, { frameA with src := some (.decoder none) }, 0, oneFrame 0 { frameA with src := some (.decoder none) }, by exact ⟨by decide, by decide, by decide, by decide, .inl ⟨none, rfl⟩⟩⟩,
    ⟨0, frameA, 0, oneFrame 0 frameA, by exact ⟨by decide, by decide, by decide, by decide, (by intro k h; cases h), by decide⟩⟩,
    ⟨State.reset, by decide⟩,
    ⟨stripe0, frameA, stripeOn, by decide⟩,
    ⟨State.reset, by decide⟩,
    ⟨0, stripe0, frameA, stripeOn, by exact ⟨by decide, by decide, by decide, (by intro k h; cases h), by decide +kernel⟩⟩,
    ⟨0, State.reset, by exact (by intro q h; cases h)⟩,
    ⟨0, frameB, 1, (oneFrame 0 frameB).modFrame 0 7 (fun g => { g with triggered := true }), triggered ((oneFrame 0 frameB).modFrame 0 7 (fun g => { g with triggered := true })), oneFrame 0 frameB, by decide⟩,
    ⟨0, frameA, 0, 0, 7, (oneFrame 0 frameA).modFrame 0 7 (fun g => { g with triggered := true }), triggered ((oneFrame 0 frameA).modFrame 0 7 (fun g => { g with triggered := true })), oneFrame 0 frameA, by decide⟩,
    ⟨4, frameB, 1, 4, { cause := 1, trigCtx := 4, trigFid := 7, endNs := ((triggered (playing4.modFrame 4 7 (fun g => { g with triggered := true })))).ns }, playing4.modFrame 4 7 (fun g => { g with triggered := true }), (triggered (playing4.modFrame 4 7 (fun g => { g with triggered := true }))), (triggered (playing4.modFrame 4 7 (fun g => { g with triggered := true }))).modCx 4 (fun q => { q with skipNext := some { cause := 1, trigCtx := 4, trigFid := 7, endNs := ((triggered (playing4.modFrame 4 7 (fun g => { g with triggered := true })))).ns } }), playing4, by decide⟩,
    ⟨0, State.reset, by exact (by intro f i h; cases h)⟩⟩

theorem witness_ColourAndTaps :
    (∃ (p : Pkt) (s : State),
      accepted 0x0400 p s = true ∧ (entered 0x0400 p s).refOk (p.ref 4) = true ∧ (p.ref 4).len = 0)
    ∧ (∃ (p : Pkt) (bs : List Byte) (s : State),
      accepted 0x0400 p s = true ∧ (entered 0x0400 p s).refOk (p.ref 4) = true ∧ (p.ref 4).len = 67080 ∧ (entered 0x0400 p s).readRef (p.ref 4) p.buf = some bs)
    ∧ (∃ (p : Pkt) (s : State),
      accepted 0x0400 p s = true ∧ (entered 0x0400 p s).refOk (p.ref 4) = true ∧ (p.ref 4).len ≠ 0 ∧ (p.ref 4).len ≠ 67080)
    ∧ (∃ (p : Pkt) (u : State) (v : State) (w : State) (s : State),
      accepted 0x0401 p s = true ∧ p.w 14 ≠ 0 ∧ u = ((entered 0x0401 p s).wn (CLR_C_WB01 p.idx) (p.w 0)).wn (CLR_C_WB23 p.idx) (p.w 1) ∧ v = (List.range 9).foldl (fun s k => s.wn (CLR_C_CM p.idx k) (p.w (2 + k))) u ∧ w = (List.range 3).foldl (fun s k => s.wn (CLR_C_OFF p.idx k) (p.w (11 + k))) v)
    ∧ (∃ (p : Pkt) (s : State),
      accepted 0x0401 p s = true ∧ p.w 14 = 0)
    ∧ (∃ (p : Pkt) (u : State) (v : State) (s : State),
      accepted 0x0402 p s = true ∧ p.b 10 0 16 + p.b 10 16 16 ≤ 65536 ∧ u = (entered 0x0402 p s).setF (CLR_C_CFG__WSPACE p.idx) (p.b 0 0 2) ∧ (v = if p.b 0 0 2 = 3 then (List.range 9).foldl (fun s k => s.wn (CLR_C_WS p.idx k) (p.w (1 + k))) u else u))
    ∧ (∃ (p : Pkt) (s : State),
      accepted 0x0402 p s = true ∧ 65536 < p.b 10 0 16 + p.b 10 16 16)
    ∧ (∃ (p : Pkt) (z : ZoneBlk) (s : State),
      accepted 0x0407 p s = true ∧ s.refOk (p.ref 0) = true ∧ ((p.ref 0).len = 0 ∨ 90176 ≤ (p.ref 0).len) ∧ z = (s.cx p.idx).zone)
    ∧ (∃ (p : Pkt) (u : State) (v : State) (s : State),
      accepted 0x0403 p s = true ∧ p.b 3 12 2 ≠ 3 ∧ p.b 3 16 3 ≠ 0 ∧ 2 ≤ p.b 7 0 4 ∧ p.b 7 0 4 ≤ 8 ∧ (entered 0x0403 p s).mayOwn (Pkt.tapCtx p) (Pkt.tapEng p) = true ∧ u = (((entered 0x0403 p s).setF (TAP_T_OWNER__CTX (Pkt.tapEng p)) (Pkt.tapCtx p)).wn (TAP_T_CROP0 (Pkt.tapEng p)) (p.w 0)).wn (TAP_T_CROP1 (Pkt.tapEng p)) (p.w 1) ∧ v = ((u.wn (TAP_T_OUT (Pkt.tapEng p)) (p.w 2)).wn (TAP_T_FMT (Pkt.tapEng p)) (p.w 3)).wn (TAP_T_EXP (Pkt.tapEng p)) (p.w 4))
    ∧ (∃ (p : Pkt) (s : State),
      accepted 0x0403 p s = true ∧ p.b 3 12 2 ≠ 3 ∧ p.b 3 16 3 ≠ 0 ∧ 2 ≤ p.b 7 0 4 ∧ p.b 7 0 4 ≤ 8 ∧ (entered 0x0403 p s).mayOwn (Pkt.tapCtx p) (Pkt.tapEng p) = false)
    ∧ (∃ (p : Pkt) (bs : List Byte) (s : State),
      accepted 0x0404 p s = true ∧ (entered 0x0404 p s).refOk (p.ref 4) = true ∧ p.b 0 0 3 ≤ 4 ∧ (entered 0x0404 p s).mayOwn (Pkt.tapCtx p) (Pkt.tapEng p) = true ∧ (3 ≤ p.b 0 0 3 ∨ (Pkt.tapEng p) < 8) ∧ ((p.ref 4).len = (match p.b 0 0 3 with | 0 => 24576 | 1 => 1647750 | 2 => 24576 | _ => 1024)) ∧ (entered 0x0404 p s).bankHeld (Pkt.tapEng p) = false ∧ (entered 0x0404 p s).readRef (p.ref 4) p.buf = some bs ∧ (p.b 0 0 3 < 3 ∨ phasesOk (halfWords bs) = true))
    ∧ (∃ (p : Pkt) (s : State),
      accepted 0x0405 p s = true ∧ (entered 0x0405 p s).mayOwn (Pkt.tapCtx p) (Pkt.tapEng p) = true)
    ∧ (∃ (p : Pkt) (s : State),
      accepted 0x0405 p s = true ∧ (entered 0x0405 p s).mayOwn (Pkt.tapCtx p) (Pkt.tapEng p) = false)
    ∧ (∃ (p : Pkt) (s : State),
      accepted 0x0406 p s = true)
    ∧ (∃ (tap : Fin 10) (v : W32) (s : State),
      s.shut 0 = false) :=
  ⟨⟨pkt 0x2000 [1, 0, 0, 0, 0, 0, 0, 0], State.reset, by decide⟩,
    ⟨{ pkt 0x2000 [1, 0, 0, 0, 0, 0, 67080, 0] with buf := .bytes [] }, List.replicate 67080 0, State.reset, by exact ⟨by decide, by decide, by decide, readZero _ _ _ (by decide) (by decide) (by decide)⟩⟩,
    ⟨pkt 0x2000 [1, 0, 0, 0, 0, 0, 4, 0], State.reset, by decide⟩,
    ⟨pkt 0x2000 (List.replicate 14 0 ++ [1, 0]), _, _, _, State.reset, by exact ⟨by decide, by decide, rfl, rfl, rfl⟩⟩,
    ⟨pkt 0x2000 (List.replicate 16 0), State.reset, by decide⟩,
    ⟨pkt 0x2000 (List.replicate 12 0), _, _, State.reset, by exact ⟨by decide, by decide, rfl, rfl⟩⟩,
    ⟨pkt 0x2000 (List.replicate 10 0 ++ [0xFFFFFFFF, 0]), State.reset, by decide⟩,
    ⟨pkt 0x2000 [0, 0, 0, 0], (State.reset.cx 0).zone, State.reset, by decide⟩,
    ⟨pkt 0x3000 [0, 0, 0, 0x10000, 0, 0, 0, 2, 0, 0, 0, 0], _, _, State.reset, by exact ⟨by decide, by decide, by decide, by decide, by decide, by decide, rfl, rfl⟩⟩,
    ⟨pkt 0x3000 [0, 0, 0, 0x10000, 0, 0, 0, 2, 0, 0, 0, 0], State.reset.setF (TAP_T_OWNER__CTX 0) 1, by decide⟩,
    ⟨{ pkt 0x3000 [0, 0, 0, 0, 0, 0, 24576, 0] with buf := .bytes [] }, List.replicate 24576 0, State.reset, by exact ⟨by decide, by decide, by decide, by decide, by decide, by decide, by decide, readZero _ _ _ (by decide) (by decide) (by decide), .inl (by decide)⟩⟩,
    ⟨pkt 0x3000 [], State.reset, by decide⟩,
    ⟨pkt 0x3000 [], State.reset.setF (TAP_T_OWNER__CTX 0) 1, by decide⟩,
    ⟨pkt 0x3000 [], State.reset, by decide⟩,
    ⟨0, 0, { State.reset with dev := { State.reset.dev with ready := true } }, by decide⟩⟩

theorem witness_Takes :
    (∃ (p : Pkt) (i : Nat) (st : TakeStart) (r : State × Option Nat) (u : State) (es : List TakeCtx) (res : List Nat) (s : State),
      accepted 0x0501 p s = true ∧ p.b 0 0 4 ≠ 0 ∧ (List.range 4).any (fun c => bitAt (p.b 0 0 4) c && !s.capturing c) = false ∧ s.freeSlot (List.range 64) = some i ∧ (st = (match p.b 0 8 2 with | 0 => TakeStart.next | 1 => .fid [p.w 4, p.w 5, p.w 6, p.w 7] | 2 => .time (p.w 1) (p.w 2) | _ => .preroll [p.w 4, p.w 5, p.w 6, p.w 7])) ∧ r = s.openTake i (p.b 0 0 4) st (p.t 0 12) ∧ u = r.1.tallies ∧ (es = (match u.vlt.takes.toList.getD i none with | some t => t.ctx.toList | none => [])) ∧ res = [u.vlt.takeNo, i] ++ (List.range 4).map (fun c => (es.getD c {}).first))
    ∧ (∃ (p : Pkt) (s : State),
      accepted 0x0501 p s = true ∧ p.b 0 0 4 = 0)
    ∧ (∃ (p : Pkt) (s : State),
      accepted 0x0501 p s = true ∧ p.b 0 0 4 ≠ 0 ∧ (List.range 4).any (fun c => bitAt (p.b 0 0 4) c && !s.capturing c) = true)
    ∧ (∃ (p : Pkt) (i : Nat) (u : State) (es : List TakeCtx) (s : State),
      accepted 0x0502 p s = true ∧ s.vaultUse.takeSlot (p.w 0) = some i ∧ u = (s.vaultUse.closeTake i).tallies ∧ (es = (match u.vlt.takes.toList.getD i none with | some t => t.ctx.toList | none => [])))
    ∧ (∃ (p : Pkt) (s : State),
      accepted 0x0502 p s = true ∧ s.vaultUse.takeSlot (p.w 0) = none)
    ∧ (∃ (p : Pkt) (u : State) (i : Nat) (got : Nat) (s : State),
      accepted 0x0503 p s = true ∧ serialLt (p.w 1) (p.w 0) = false ∧ serialAge (p.w 1) (p.w 0) < 0x100000 ∧ u = s.vaultUse ∧ (List.range 64).find? (fun i => (u.vlt.pins.toList.getD i none).isNone) = some i ∧ (got = (if serialLt (p.w 0) ((u.oldestFid p.idx).getD (p.w 0)) then (u.oldestFid p.idx).getD (p.w 0) else p.w 0)))
    ∧ (∃ (p : Pkt) (s : State),
      accepted 0x0504 p s = true ∧ p.t 0 0 = false ∧ (s.vaultUse.vlt.pins.toList.getD (p.w 1) none).isSome = true)
    ∧ (∃ (p : Pkt) (i : Nat) (t : Take) (s : State),
      accepted 0x0504 p s = true ∧ p.t 0 0 = true ∧ s.vaultUse.takeSlot (p.w 1) = some i ∧ s.vaultUse.vlt.takes.toList.getD i none = some t ∧ t.closed = true)
    ∧ (∃ (p : Pkt) (s : State),
      accepted 0x0504 p s = true ∧ p.t 0 0 = true ∧ s.vaultUse.takeSlot (p.w 1) = none)
    ∧ (∃ (p : Pkt) (u : State) (f : Nat) (e : IdxEntry) (no : Nat) (s : State),
      accepted 0x0505 p s = true ∧ u = s.vaultUse ∧ (p.b 1 0 2 = 0 ∧ f = p.w 0 ∨ p.b 1 0 2 = 1 ∧ u.oldestFid p.idx = some f ∨ p.b 1 0 2 = 2 ∧ f = u.rn (VLT_C_NEWEST_FID p.idx)) ∧ e = u.idx p.idx f ∧ e.valid = true ∧ e.fid = f ∧ (no = (match (u.takesUsed.filter (fun t => t.2.holds p.idx f)).map (fun t => t.2.no) with | [] => 0 | a :: t => t.foldl min a)))
    ∧ (∃ (p : Pkt) (u : State) (s : State),
      accepted 0x0505 p s = true ∧ p.b 1 0 2 = 0 ∧ u = s.vaultUse ∧ ((u.idx p.idx (p.w 0)).valid = false ∨ (u.idx p.idx (p.w 0)).fid ≠ p.w 0)) :=
  ⟨⟨pkt 0 [1, 0, 0, 0, 0, 0, 0, 0], 0, _, _, _, _, _, State.reset.setCst 0 2, by exact ⟨by decide, by decide, by decide, by decide, rfl, rfl, rfl, rfl, rfl⟩⟩,
    ⟨pkt 0 [0, 0, 0, 0, 0, 0, 0, 0], State.reset, by decide⟩,
    ⟨pkt 0 [1, 0, 0, 0, 0, 0, 0, 0], State.reset, by decide⟩,
    ⟨pkt 0 [5, 0, 0, 0], 0, _, _, (State.reset.modVlt (fun q => { q with takes := q.takes.setIfInBounds 0 (some { no := 5, closed := true }) })), by exact ⟨by decide, by decide, rfl, rfl⟩⟩,
    ⟨pkt 0 [5, 0, 0, 0], State.reset, by decide⟩,
    ⟨pkt 0x2000 [3, 9, 0, 0], _, 0, 3, State.reset, by exact ⟨by decide, by decide, by decide, rfl, by decide, by decide⟩⟩,
    ⟨pkt 0 [0, 0, 0, 0], State.reset.modVlt (fun q => { q with pins := q.pins.setIfInBounds 0 (some ⟨0, 3, 9, false⟩) }), by decide⟩,
    ⟨pkt 0 [1, 5, 0, 0], 0, { no := 5, closed := true }, (State.reset.modVlt (fun q => { q with takes := q.takes.setIfInBounds 0 (some { no := 5, closed := true }) })), by decide⟩,
    ⟨pkt 0 [1, 5, 0, 0], State.reset, by decide⟩,
    ⟨pkt 0x2000 [0, 0, 0, 0], _, 0, _, _, State.reset.setIdx 0 0 { valid := true }, by exact ⟨by decide, rfl, .inl (by decide), rfl, by decide, by decide, rfl⟩⟩,
    ⟨pkt 0x2000 [0, 0, 0, 0], _, State.reset, by exact ⟨by decide, by decide, rfl, by decide⟩⟩⟩

theorem witness_RecInputs :
    (∃ (p : Pkt) (r : RecCfg) (s : State),
      accepted 0x050A p s = true ∧ 1 ≤ p.b 0 8 6 ∧ p.b 0 8 6 ≤ 50 ∧ p.b 5 0 4 ≤ 2 ∧ p.b 5 4 4 ≤ 2 ∧ p.b 6 0 4 ≤ 4 ∧ p.b 6 4 4 ≤ 4 ∧ r = { en := p.t 0 16, hold := p.t 0 4, debounceMs := p.b 0 8 6, ctxs := p.b 0 0 4, preroll := [p.b 1 0 16, p.b 2 0 16, p.b 3 0 16, p.b 4 0 16], ub := [p.b 5 0 4, p.b 5 4 4], tally := [p.b 6 0 4, p.b 6 4 4] })
    ∧ (∃ (src : Fin 3) (u : State) (s : State),
      s.dev.safe = false ∧ u = s.setLevel src.val true ∧ u.vlt.recCfg.en = true ∧ u.recInput src.val = true)
    ∧ (∃ (src : Fin 3) (i : Nat) (k : Take) (u : State) (s : State),
      s.dev.safe = false ∧ u = s.setLevel src.val false ∧ u.vlt.recCfg.en = true ∧ u.recInput src.val = true ∧ u.vlt.recCfg.hold = true ∧ u.recTake = some (i, k))
    ∧ (∃ (ub : Fin 2) (u : State) (s : State),
      s.dev.safe = false ∧ u = s.setLevel (ub.val + 1) true ∧ u.vlt.recCfg.ub.getD ub.val 0 = 2)
    ∧ (∃ (src : Fin 3) (ub : Fin 2) (s : State),
      s.dev.safe = true) :=
  ⟨⟨pkt 0 [0x100, 0, 0, 0, 0, 0, 0, 0], _, State.reset, by exact ⟨by decide, by decide, by decide, by decide, by decide, by decide, by decide, rfl⟩⟩,
    ⟨0, _, (State.reset.modVlt (fun q => { q with recCfg := { en := true } })), by exact ⟨by decide, rfl, by decide, by decide⟩⟩,
    ⟨0, 0, { no := 5, isRec := true }, _, (State.reset.modVlt (fun q => { q with recCfg := { en := true, hold := true, ub := [2, 0], ctxs := 1 } })).modVlt (fun q => { q with takes := q.takes.setIfInBounds 0 (some { no := 5, isRec := true }) }), by exact ⟨by decide, rfl, by decide, by decide, by decide, by decide⟩⟩,
    ⟨0, _, (State.reset.modVlt (fun q => { q with recCfg := { en := true, hold := true, ub := [2, 0], ctxs := 1 } })), by exact ⟨by decide, rfl, by decide⟩⟩,
    ⟨0, 0, { State.reset with dev := { State.reset.dev with safe := true } }, by decide⟩⟩

theorem witness_VaultFetch :
    (∃ (pair : Fin 16) (slot : VqSlot) (bs : List Byte) (c : VqCmd) (u : State) (s : State),
      s.vqCanFetch pair = true ∧ s.vqPassed pair = false ∧ s.vqRead pair slot = .entry bs ∧ ((padBytes 64 bs).getD 0 0).toNat = 0 ∧ (c = { bytes := padBytes 64 bs, slot := s.f (VQ_SQ_HEAD__HEAD pair) % (s.vqHeadNext pair).vqN pair, sqHead := (s.f (VQ_SQ_HEAD__HEAD pair) + 1) % (2 * (s.vqHeadNext pair).vqN pair), seq := (s.vqHeadNext pair).vq.seq, db := (match (s.vp pair).dbs.head? with | some d => d.2 | none => s.vq.db), tagged := true }) ∧ (s.vqHeadNext pair).vqCheck pair { c with tagged := false } = none ∧ u = ((s.vqHeadNext pair).modVq (fun q => { q with seq := q.seq + 1, last := pair })).modVp pair (fun q => { q with cmds := q.cmds ++ [c] }))
    ∧ (∃ (pair : Fin 16) (slot : VqSlot) (bs : List Byte) (c : VqCmd) (u : State) (s : State),
      s.vqCanFetch pair = true ∧ s.vqPassed pair = false ∧ s.vqRead pair slot = .entry bs ∧ ((padBytes 64 bs).getD 0 0).toNat = 1 ∧ (c = { bytes := padBytes 64 bs, slot := s.f (VQ_SQ_HEAD__HEAD pair) % (s.vqHeadNext pair).vqN pair, sqHead := (s.f (VQ_SQ_HEAD__HEAD pair) + 1) % (2 * (s.vqHeadNext pair).vqN pair), seq := (s.vqHeadNext pair).vq.seq, db := (match (s.vp pair).dbs.head? with | some d => d.2 | none => s.vq.db), tagged := true }) ∧ (s.vqHeadNext pair).vqCheck pair { c with tagged := false } = none ∧ u = ((s.vqHeadNext pair).modVq (fun q => { q with seq := q.seq + 1, last := pair })).modVp pair (fun q => { q with cmds := q.cmds ++ [c] }))
    ∧ (∃ (pair : Fin 16) (slot : VqSlot) (bs : List Byte) (c : VqCmd) (u : State) (s : State),
      s.vqCanFetch pair = true ∧ s.vqPassed pair = false ∧ s.vqRead pair slot = .entry bs ∧ ((padBytes 64 bs).getD 0 0).toNat = 2 ∧ (c = { bytes := padBytes 64 bs, slot := s.f (VQ_SQ_HEAD__HEAD pair) % (s.vqHeadNext pair).vqN pair, sqHead := (s.f (VQ_SQ_HEAD__HEAD pair) + 1) % (2 * (s.vqHeadNext pair).vqN pair), seq := (s.vqHeadNext pair).vq.seq, db := (match (s.vp pair).dbs.head? with | some d => d.2 | none => s.vq.db), tagged := true }) ∧ (s.vqHeadNext pair).vqCheck pair { c with tagged := false } = none ∧ u = ((s.vqHeadNext pair).modVq (fun q => { q with seq := q.seq + 1, last := pair })).modVp pair (fun q => { q with cmds := q.cmds ++ [c] }))
    ∧ (∃ (pair : Fin 16) (slot : VqSlot) (bs : List Byte) (c : VqCmd) (u : State) (s : State),
      s.vqCanFetch pair = true ∧ s.vqPassed pair = false ∧ s.vqRead pair slot = .entry bs ∧ ((padBytes 64 bs).getD 0 0).toNat = 3 ∧ (c = { bytes := padBytes 64 bs, slot := s.f (VQ_SQ_HEAD__HEAD pair) % (s.vqHeadNext pair).vqN pair, sqHead := (s.f (VQ_SQ_HEAD__HEAD pair) + 1) % (2 * (s.vqHeadNext pair).vqN pair), seq := (s.vqHeadNext pair).vq.seq, db := (match (s.vp pair).dbs.head? with | some d => d.2 | none => s.vq.db), tagged := true }) ∧ (s.vqHeadNext pair).vqCheck pair { c with tagged := false } = none ∧ u = ((s.vqHeadNext pair).modVq (fun q => { q with seq := q.seq + 1, last := pair })).modVp pair (fun q => { q with cmds := q.cmds ++ [c] }))
    ∧ (∃ (pair : Fin 16) (slot : VqSlot) (bs : List Byte) (c : VqCmd) (u : State) (s : State),
      s.vqCanFetch pair = true ∧ s.vqPassed pair = false ∧ s.vqRead pair slot = .entry bs ∧ ((padBytes 64 bs).getD 0 0).toNat = 4 ∧ (c = { bytes := padBytes 64 bs, slot := s.f (VQ_SQ_HEAD__HEAD pair) % (s.vqHeadNext pair).vqN pair, sqHead := (s.f (VQ_SQ_HEAD__HEAD pair) + 1) % (2 * (s.vqHeadNext pair).vqN pair), seq := (s.vqHeadNext pair).vq.seq, db := (match (s.vp pair).dbs.head? with | some d => d.2 | none => s.vq.db), tagged := true }) ∧ (s.vqHeadNext pair).vqCheck pair { c with tagged := false } = none ∧ u = ((s.vqHeadNext pair).modVq (fun q => { q with seq := q.seq + 1, last := pair })).modVp pair (fun q => { q with cmds := q.cmds ++ [c] }))
    ∧ (∃ (pair : Fin 16) (slot : VqSlot) (bs : List Byte) (c : VqCmd) (u : State) (s : State),
      s.vqCanFetch pair = true ∧ s.vqPassed pair = false ∧ s.vqRead pair slot = .entry bs ∧ ((padBytes 64 bs).getD 0 0).toNat = 8 ∧ (c = { bytes := padBytes 64 bs, slot := s.f (VQ_SQ_HEAD__HEAD pair) % (s.vqHeadNext pair).vqN pair, sqHead := (s.f (VQ_SQ_HEAD__HEAD pair) + 1) % (2 * (s.vqHeadNext pair).vqN pair), seq := (s.vqHeadNext pair).vq.seq, db := (match (s.vp pair).dbs.head? with | some d => d.2 | none => s.vq.db), tagged := true }) ∧ (s.vqHeadNext pair).vqCheck pair { c with tagged := false } = none ∧ u = ((s.vqHeadNext pair).modVq (fun q => { q with seq := q.seq + 1, last := pair })).modVp pair (fun q => { q with cmds := q.cmds ++ [c] }))
    ∧ (∃ (pair : Fin 16) (slot : VqSlot) (bs : List Byte) (target : AbortAt) (c : VqCmd) (u : State) (s : State),
      s.vqCanFetch pair = true ∧ s.vqPassed pair = false ∧ s.vqRead pair slot = .entry bs ∧ ((padBytes 64 bs).getD 0 0).toNat = 9 ∧ (c = { bytes := padBytes 64 bs, slot := s.f (VQ_SQ_HEAD__HEAD pair) % (s.vqHeadNext pair).vqN pair, sqHead := (s.f (VQ_SQ_HEAD__HEAD pair) + 1) % (2 * (s.vqHeadNext pair).vqN pair), seq := (s.vqHeadNext pair).vq.seq, db := (match (s.vp pair).dbs.head? with | some d => d.2 | none => s.vq.db), tagged := true }) ∧ (s.vqHeadNext pair).vqCheck pair { c with tagged := false } = none ∧ u = ((s.vqHeadNext pair).modVq (fun q => { q with seq := q.seq + 1, last := pair })).modVp pair (fun q => { q with cmds := q.cmds ++ [c] }))
    ∧ (∃ (pair : Fin 16) (slot : VqSlot) (bs : List Byte) (target : AbortAt) (c : VqCmd) (u : State) (s : State),
      s.vqCanFetch pair = true ∧ s.vqPassed pair = false ∧ s.vqRead pair slot = .entry bs ∧ [0, 1, 2, 3, 4, 8, 9].contains ((padBytes 64 bs).getD 0 0).toNat = false ∧ (c = { bytes := padBytes 64 bs, slot := s.f (VQ_SQ_HEAD__HEAD pair) % (s.vqHeadNext pair).vqN pair, sqHead := (s.f (VQ_SQ_HEAD__HEAD pair) + 1) % (2 * (s.vqHeadNext pair).vqN pair), seq := (s.vqHeadNext pair).vq.seq, db := (match (s.vp pair).dbs.head? with | some d => d.2 | none => s.vq.db), tagged := true }) ∧ (s.vqHeadNext pair).vqCheck pair { c with tagged := false } = some (vqInvalidOpcode, 0) ∧ u = ((s.vqHeadNext pair).modVq (fun q => { q with seq := q.seq + 1, last := pair })).modVp pair (fun q => { q with cmds := q.cmds ++ [c] }))
    ∧ (∃ (pair : Fin 16) (slot : VqSlot) (addr : Nat) (poisoned : Bool) (target : AbortAt) (s : State),
      s.vqCanFetch pair = true ∧ s.vqPassed pair = false ∧ s.vqRead pair slot = .failed addr poisoned)
    ∧ (∃ (pair : Fin 16) (slot : VqSlot) (target : AbortAt) (s : State),
      (s.vqCanFetch pair = false ∨ s.vqPassed pair = true)) :=
  ⟨⟨0, .entry ([0, 0, 0, 0]), [0, 0, 0, 0], held ([0, 0, 0, 0]), fetched ([0, 0, 0, 0]), oneSlot, by refine ⟨?_, ?_, ?_, ?_, ?_, ?_, rfl⟩ <;> decide +kernel⟩,
    ⟨0, .entry ([1, 0, 0, 0, 1]), [1, 0, 0, 0, 1], held ([1, 0, 0, 0, 1]), fetched ([1, 0, 0, 0, 1]), oneSlot, by refine ⟨?_, ?_, ?_, ?_, ?_, ?_, rfl⟩ <;> decide +kernel⟩,
    ⟨0, .entry ([2, 0, 0, 0, 1]), [2, 0, 0, 0, 1], held ([2, 0, 0, 0, 1]), fetched ([2, 0, 0, 0, 1]), oneSlot, by refine ⟨?_, ?_, ?_, ?_, ?_, ?_, rfl⟩ <;> decide +kernel⟩,
    ⟨0, .entry ([3, 0, 0, 0, 1]), [3, 0, 0, 0, 1], held ([3, 0, 0, 0, 1]), fetched ([3, 0, 0, 0, 1]), oneSlot, by refine ⟨?_, ?_, ?_, ?_, ?_, ?_, rfl⟩ <;> decide +kernel⟩,
    ⟨0, .entry ([4, 0, 0, 0, 1]), [4, 0, 0, 0, 1], held ([4, 0, 0, 0, 1]), fetched ([4, 0, 0, 0, 1]), oneSlot, by refine ⟨?_, ?_, ?_, ?_, ?_, ?_, rfl⟩ <;> decide +kernel⟩,
    ⟨0, .entry ([8]), [8], held ([8]), fetched ([8]), oneSlot, by refine ⟨?_, ?_, ?_, ?_, ?_, ?_, rfl⟩ <;> decide +kernel⟩,
    ⟨0, .entry (List.replicate 1 9 ++ List.replicate 39 0 ++ [1]), List.replicate 1 9 ++ List.replicate 39 0 ++ [1], {}, held (List.replicate 1 9 ++ List.replicate 39 0 ++ [1]), fetched (List.replicate 1 9 ++ List.replicate 39 0 ++ [1]), oneSlot, by refine ⟨?_, ?_, ?_, ?_, ?_, ?_, rfl⟩ <;> decide +kernel⟩,
    ⟨0, .entry [7], [7], {}, held [7], fetched [7], oneSlot, by refine ⟨?_, ?_, ?_, ?_, ?_, ?_, rfl⟩ <;> decide +kernel⟩,
    ⟨0, .failed 0 false, 0, false, {}, oneSlot, by decide +kernel⟩,
    ⟨0, .entry [], {}, State.reset, by decide⟩⟩

theorem witness_VaultTransfers :
    (∃ (pair : Fin 16) (tag : BitVec 13) (data : HostRead) (moved : Nat) (c : VqCmd) (s : State),
      s.vqRunning pair tag.toNat = some c ∧ (c.opc = 2 → ∃ bs, data = .bytes bs) ∧ (c.opc = 4 → s.genStands c = true) ∧ (c.opc ≠ 2 → c.source.length ≤ s.soundSectors c.source))
    ∧ (∃ (pair : Fin 16) (tag : BitVec 13) (bs : List Byte) (moved : Nat) (a : Nat) (c : VqCmd) (s : State) (t : State),
      s.vqRunning pair tag.toNat = some c ∧ c.opc = 2 ∧ Machine.Inv s ∧ exec (.vqTransferDone pair tag (.bytes bs) moved) s = .next t ∧ (a < 4096 * c.vsa ∨ 4096 * c.vsa + 4096 * c.nsect ≤ a))
    ∧ (∃ (pair : Fin 16) (tag : BitVec 13) (addr : Nat) (poisoned : Bool) (moved : Nat) (c : VqCmd) (s : State),
      s.vqRunning pair tag.toNat = some c ∧ c.opc = 2)
    ∧ (∃ (pair : Fin 16) (tag : BitVec 13) (data : HostRead) (moved : Nat) (s : State),
      s.vqRunning pair tag.toNat = none)
    ∧ (∃ (pair : Fin 16) (target : AbortAt) (c : VqCmd) (s : State),
      (s.vp pair).cmds.find? (fun c => !c.started && c.fin.isNone) = some c)
    ∧ (∃ (pair : Fin 16) (tag : BitVec 13) (moved : Nat) (data : HostRead) (c : VqCmd) (s : State),
      (s.vp pair).cmds.find? (fun c => c.tagged && c.tag == tag.toNat && c.started && c.fin.isNone && !s.cqFull pair) = some c)
    ∧ (∃ (pair : Fin 16) (tag : BitVec 13) (c : VqCmd) (s : State),
      s.f VQ_CTRL__DEFER_MS ≠ 0 ∧ (s.vp pair).cmds.find? (fun c => c.tagged && c.tag == tag.toNat && c.queued && !c.started && c.fin.isNone) = some c ∧ s.isAdmitted (.vq pair c.tag) = false) :=
  ⟨⟨0, 0, .bytes [], 0, readCmd, inQueue readCmd, by exact ⟨by decide +kernel, fun h => absurd h (by decide), fun h => absurd h (by decide), fun _ => by decide +kernel⟩⟩,
    ⟨0, 0, [], 0, 4096, writeCmd, inQueue writeCmd, _, by refine ⟨?_, ?_, ?_, rfl, .inr (by decide +kernel)⟩ <;> decide +kernel⟩,
    ⟨0, 0, 0, false, 0, writeCmd, inQueue writeCmd, by decide +kernel⟩,
    ⟨0, 0, .bytes [], 0, State.reset, by decide +kernel⟩,
    ⟨0, {}, { readCmd with started := false }, inQueue { readCmd with started := false }, by decide +kernel⟩,
    ⟨0, 0, 0, .bytes [], readCmd, inQueue readCmd, by decide +kernel⟩,
    ⟨0, 0, { readCmd with started := false, queued := true }, (inQueue { readCmd with started := false, queued := true }).setF VQ_CTRL__DEFER_MS 5, by decide +kernel⟩⟩

theorem witness_VaultQueues :
    (∃ (p : Pkt) (u : State) (v : State) (w : State) (s : State),
      accepted 0x0506 p s = true ∧ (entered 0x0506 p s).vqOn p.idx = false ∧ 4 ≤ p.b 0 0 4 ∧ p.b 0 0 4 ≤ 12 ∧ p.q 4 % 4096 = 0 ∧ p.q 6 % 4096 = 0 ∧ 64 ≤ p.b 2 0 14 ∧ p.b 2 0 14 % 64 = 0 ∧ p.b 1 0 13 + p.b 2 0 14 ≤ 8192 ∧ (List.range 16).any (fun m => (entered 0x0506 p s).vqOn m && decide ((entered 0x0506 p s).f (VQ_Q_TAGS__TAG_BASE m) < p.b 1 0 13 + p.b 2 0 14) && decide (p.b 1 0 13 < (entered 0x0506 p s).f (VQ_Q_TAGS__TAG_BASE m) + (entered 0x0506 p s).f (VQ_Q_TAGS__TAG_COUNT m))) = false ∧ (bar2Fits (p.t 0 4) (p.q 4) (64 * 2 ^ p.b 0 0 4) && bar2Fits (p.t 0 5) (p.q 6) (16 * 2 ^ p.b 0 0 4)) = true ∧ u = ((((entered 0x0506 p s).wn (VQ_SQ_BASE_LO p.idx) (p.w 4)).wn (VQ_SQ_BASE_HI p.idx) (p.w 5)).wn (VQ_CQ_BASE_LO p.idx) (p.w 6)).wn (VQ_CQ_BASE_HI p.idx) (p.w 7) ∧ v = (u.wn (VQ_SQ_CFG p.idx) (p.b 0 0 4 + 32 * b2n (p.t 0 4) + 64 * b2n (p.t 0 5) + 128)).wn (VQ_Q_TAGS p.idx) (p.b 1 0 13 + 0x10000 * p.b 2 0 14) ∧ w = ((v.wn (VQ_SQ_HEAD p.idx) 0).wn (VQ_CQ_HEAD p.idx) 0).wn (VQ_CQ_TAIL p.idx) 0)
    ∧ (∃ (p : Pkt) (s : State),
      accepted 0x0507 p s = true ∧ (entered 0x0507 p s).vqOn p.idx = true ∧ (entered 0x0507 p s).vqOut p.idx = 0)
    ∧ (∃ (p : Pkt) (s : State),
      accepted 0x0507 p s = true ∧ (entered 0x0507 p s).vqOn p.idx = false)
    ∧ (∃ (p : Pkt) (bs : List Byte) (u : State) (s : State),
      accepted 0x0508 p s = true ∧ (entered 0x0508 p s).vqOn p.idx = true ∧ p.buf = .bytes bs ∧ u = (entered 0x0508 p s).modVp p.idx (fun q => { q with resetting := some (s.pktHdr 0x0508 p, (entered 0x0508 p s).vqOut p.idx) }))
    ∧ (∃ (p : Pkt) (addr : Nat) (poisoned : Bool) (u : State) (v : State) (s : State),
      accepted 0x0508 p s = true ∧ (entered 0x0508 p s).vqOn p.idx = true ∧ p.buf = .failed addr poisoned ∧ u = (entered 0x0508 p s).modVp p.idx (fun q => { q with resetting := some (s.pktHdr 0x0508 p, (entered 0x0508 p s).vqOut p.idx) }) ∧ (v = if (!u.on (VQ_SQ_CFG__SQLOC p.idx) && !(u.vqSlots p.idx).isEmpty) = true then u.dmaError .vq p.idx addr poisoned else u))
    ∧ (∃ (p : Pkt) (s : State),
      accepted 0x0508 p s = true ∧ (entered 0x0508 p s).vqOn p.idx = false)
    ∧ (∃ (pair : Fin 16) (v : W32) (m : Nat) (ahead : Nat) (u : State) (s : State),
      s.vqOn pair = true ∧ (s.vp pair).resetting = none ∧ m = 2 * s.vqN pair ∧ v.toNat % 0x2000 < m ∧ ahead = (v.toNat % 0x2000 + m - s.f (VQ_SQ_HEAD__HEAD pair) % m) % m ∧ ahead ≤ s.vqN pair ∧ s.vqUnfetched pair ≤ ahead ∧ u = s.modVq (fun q => { q with db := q.db + 1 }))
    ∧ (∃ (pair : Fin 16) (v : W32) (m : Nat) (ahead : Nat) (s : State),
      s.vqOn pair = true ∧ (s.vp pair).resetting = none ∧ m = 2 * s.vqN pair ∧ ahead = (v.toNat % 0x2000 + m - s.f (VQ_SQ_HEAD__HEAD pair) % m) % m ∧ (m ≤ v.toNat % 0x2000 ∨ s.vqN pair < ahead ∨ ahead < s.vqUnfetched pair))
    ∧ (∃ (pair : Fin 16) (v : W32) (m : Nat) (s : State),
      s.vqOn pair = true ∧ m = 2 * s.vqN pair ∧ v.toNat % 0x2000 < m ∧ (v.toNat % 0x2000 + m - s.f (VQ_CQ_HEAD__HEAD pair) % m) % m ≤ s.cqUsed pair)
    ∧ (∃ (pair : Fin 16) (v : W32) (m : Nat) (s : State),
      s.vqOn pair = true ∧ m = 2 * s.vqN pair ∧ (m ≤ v.toNat % 0x2000 ∨ s.cqUsed pair < (v.toNat % 0x2000 + m - s.f (VQ_CQ_HEAD__HEAD pair) % m) % m))
    ∧ (∃ (pair : Fin 16) (v : W32) (s : State),
      s.vqOn pair = false)
    ∧ (∃ (p : Pkt) (gone : List Rec) (s : State),
      accepted 0x0509 p s = true ∧ (p.b 0 0 2 = 0 ∨ p.b 0 0 2 = 3) ∧ p.b 1 0 2 ≠ 3 ∧ (p.b 0 0 2 = 3 → ((List.range 6).any (fun c => decide (2 ≤ (entered 0x0509 p s).cst c)) || (List.range 16).any (fun n => (entered 0x0509 p s).vqOut n != 0)) = false) ∧ (gone = if p.b 0 0 2 = 3 then (entered 0x0509 p s).vlt.recs.filter (fun r => !r.reclaimed && !(entered 0x0509 p s).pinned r.ctx r.fid) else [])) :=
  ⟨⟨pkt 0x9000 [4, 0, 64, 0, 0, 0, 0, 0], _, _, _, State.reset, by refine ⟨?_, ?_, ?_, ?_, ?_, ?_, ?_, ?_, ?_, ?_, ?_, rfl, rfl, rfl⟩ <;> decide +kernel⟩,
    ⟨pkt 0x9000 [], State.reset.setB (VQ_SQ_CFG__EN 0) true, by decide +kernel⟩,
    ⟨pkt 0x9000 [], State.reset, by decide +kernel⟩,
    ⟨pkt 0x9000 [], [], _, State.reset.setB (VQ_SQ_CFG__EN 0) true, by refine ⟨?_, ?_, rfl, rfl⟩ <;> decide +kernel⟩,
    ⟨{ pkt 0x9000 [] with buf := .failed 0 false }, 0, false, _, _, State.reset.setB (VQ_SQ_CFG__EN 0) true, by refine ⟨?_, ?_, ?_, rfl, rfl⟩ <;> decide +kernel⟩,
    ⟨pkt 0x9000 [], State.reset, by decide +kernel⟩,
    ⟨0, 1, 32, 1, _, inQueue readCmd, by refine ⟨?_, ?_, ?_, ?_, ?_, ?_, ?_, rfl⟩ <;> decide +kernel⟩,
    ⟨0, 32, 32, 0, inQueue readCmd, by decide +kernel⟩,
    ⟨0, 0, 32, inQueue readCmd, by decide +kernel⟩,
    ⟨0, 32, 32, inQueue readCmd, by decide +kernel⟩,
    ⟨0, 32, State.reset, by decide +kernel⟩,
    ⟨pkt 0 [3, 1, 0, 0], [], State.reset, by refine ⟨?_, ?_, ?_, ?_, ?_⟩ <;> decide +kernel⟩⟩

theorem witness_EncodeStreams :
    (∃ (p : Pkt) (t : TapCfg) (e : EncSt) (mine : List Nat) (need : Nat) (u : State) (v : State) (w : State) (s : State),
      accepted 0x0600 p s = true ∧ t = (entered 0x0600 p s).tapFor ({ words := (List.range 16).map p.w, tgtBr := p.w 4, maxBr := p.w 5, cpb := p.w 6 } : EncSt).ctx (({ words := (List.range 16).map p.w, tgtBr := p.w 4, maxBr := p.w 5, cpb := p.w 6 } : EncSt).tap + 4) ∧ e = { words := (List.range 16).map p.w, tgtBr := p.w 4, maxBr := p.w 5, cpb := p.w 6, ow := t.ow, oh := t.oh, pack := t.pack, tp := (entered 0x0600 p s).frameNsOf ({ words := (List.range 16).map p.w, tgtBr := p.w 4, maxBr := p.w 5, cpb := p.w 6 } : EncSt).ctx * t.decim } ∧ e.badField = none ∧ (entered 0x0600 p s).encState p.idx < 2 ∧ e.profileOk = true ∧ e.levelOk = true ∧ (entered 0x0600 p s).encMpix (some p.idx) + (entered 0x0600 p s).decMpix + e.load ≤ 4500 ∧ e.rateOk = true ∧ mine = (List.range (entered 0x0600 p s).poolCount).filter (fun b => (entered 0x0600 p s).marks b == 0 || (entered 0x0600 p s).marks b == 2 ^ p.idx) ∧ (need = (if e.irapPeriod = 1 then 0 else e.numRef + 1)) ∧ need ≤ mine.length ∧ e.placed (entered 0x0600 p s).wBytes = true ∧ ((List.range 16).filter (fun k => k != p.idx && (entered 0x0600 p s).encState k != 0 && ((entered 0x0600 p s).es k).ctx == e.ctx && ((entered 0x0600 p s).es k).tap == e.tap)).length < 4 ∧ u = ((mine.take need).foldl (fun s b => s.setMark b p.idx true) ((entered 0x0600 p s).clearMarks p.idx)).modEs p.idx (fun _ => e) ∧ v = (u.wn (CDC_S_CFG p.idx) (p.w 0)).wn (CDC_S_STATE p.idx) 1 ∧ w = ([CDC_S_DR_HEAD p.idx, CDC_S_DR_TAIL p.idx, CDC_S_DD_HEAD p.idx, CDC_S_DD_TAIL p.idx].foldl (fun s a => s.wn a 0) v).setDeg p.idx)
    ∧ (∃ (p : Pkt) (e : EncSt) (u : State) (s : State),
      accepted 0x0603 p s = true ∧ (entered 0x0603 p s).encState p.idx ≠ 0 ∧ e = { (entered 0x0603 p s).es p.idx with tgtBr := p.w 0, maxBr := p.w 1, cpb := p.w 2 } ∧ e.levelOk = true ∧ e.rateOk = true ∧ (u = (entered 0x0603 p s).modEs p.idx (fun _ => { e with rateChange := ((entered 0x0603 p s).es p.idx).rateChange || decide (((entered 0x0603 p s).es p.idx).maxBr ≠ p.w 1 ∨ ((entered 0x0603 p s).es p.idx).cpb ≠ p.w 2) })))
    ∧ (∃ (p : Pkt) (r : List (Nat × Nat × Nat × Nat × Int)) (s : State),
      accepted 0x0604 p s = true ∧ (entered 0x0604 p s).encState p.idx ≠ 0 ∧ r = ((List.range 16).filter (fun k => p.t 0 k)).map (fun k => (p.b (4 + 2 * k) 0 16, p.b (4 + 2 * k) 16 16, p.b (5 + 2 * k) 0 9, p.b (5 + 2 * k) 9 9, sext 8 (p.b (5 + 2 * k) 24 8))) ∧ r.any (fun r => decide (((entered 0x0604 p s).es p.idx).ctuW < r.1 + r.2.2.1) || decide (((entered 0x0604 p s).es p.idx).rowsN < r.2.1 + r.2.2.2.1) || decide (r.2.2.2.2 < -51) || decide (51 < r.2.2.2.2)) = false)
    ∧ (∃ (p : Pkt) (s : State),
      accepted 0x0605 p s = true ∧ s.encState p.idx = 2)
    ∧ (∃ (p : Pkt) (s : State),
      accepted 0x0605 p s = true ∧ s.encState p.idx ≠ 2)
    ∧ (∃ (p : Pkt) (bs : List Byte) (s : State),
      accepted 0x0608 p s = true ∧ (entered 0x0608 p s).encState p.idx ≠ 0 ∧ 256 ≤ p.b 0 16 14 ∧ p.b 0 16 14 ≤ 9018 ∧ bs = (List.range 32).flatMap (fun k => leBytes 4 (p.w (4 + k))) ∧ (bs.drop (tmplLen (p.b 0 0 2))).any (fun b => b != 0) = false)
    ∧ (∃ (p : Pkt) (u : State) (v : State) (s : State),
      accepted 0x0601 p s = true ∧ (entered 0x0601 p s).encState p.idx = 1 ∧ (entered 0x0601 p s).bist 2 = false ∧ (entered 0x0601 p s).tapLive ((entered 0x0601 p s).es p.idx) = true ∧ u = (entered 0x0601 p s).modEs p.idx (fun e => { e with first := true, irapReq := false, resume := false, slots := 0, lastIrap := 0, lastIdr := 0, v := 0, prev := none, prevOver := false, queue := [], pic := none }) ∧ v = (u.setF (CDC_S_STATE__STATE p.idx) 2).setF (CDC_S_STATE__IRAP_PEND p.idx) 0)
    ∧ (∃ (p : Pkt) (s : State),
      accepted 0x0601 p s = true ∧ (entered 0x0601 p s).encState p.idx = 2)
    ∧ (∃ (p : Pkt) (s : State),
      accepted 0x0601 p s = true ∧ (entered 0x0601 p s).encState p.idx ≠ 1 ∧ (entered 0x0601 p s).encState p.idx ≠ 2)
    ∧ (∃ (p : Pkt) (s : State),
      accepted 0x0602 p s = true ∧ (entered 0x0602 p s).encState p.idx = 2)
    ∧ (∃ (p : Pkt) (s : State),
      accepted 0x0602 p s = true ∧ (entered 0x0602 p s).encState p.idx = 3)
    ∧ (∃ (p : Pkt) (s : State),
      accepted 0x0602 p s = true ∧ (entered 0x0602 p s).encState p.idx < 2) :=
  ⟨⟨createPkt, _, _, _, _, _, _, _, tapped, by refine ⟨?_, rfl, rfl, ?_, ?_, ?_, ?_, ?_, ?_, rfl, rfl, ?_, ?_, ?_, rfl, rfl, rfl⟩ <;> decide +kernel⟩,
    ⟨pkt 0x4000 [0, 0, 0, 0], _, _, (tapped.wn (CDC_S_STATE 0) 1).modEs 0 (fun e => { e with words := [0x780000], ow := 64, oh := 64, tp := 16666667 }), by refine ⟨?_, ?_, rfl, ?_, ?_, rfl⟩ <;> decide +kernel⟩,
    ⟨pkt 0x4000 (List.replicate 36 0), [], tapped.wn (CDC_S_STATE 0) 1, by decide +kernel⟩,
    ⟨pkt 0x4000 [], tapped.wn (CDC_S_STATE 0) 2, by decide +kernel⟩,
    ⟨pkt 0x4000 [], tapped, by decide +kernel⟩,
    ⟨pkt 0x4000 (0x1000000 :: List.replicate 35 0), List.replicate 128 0, tapped.wn (CDC_S_STATE 0) 1, by decide +kernel⟩,
    ⟨pkt 0x4000 [], _, _, (tapped.wn (CDC_S_STATE 0) 1).modCx 0 (fun q => { q with live := some { id := 1, cfg := {}, raw := {}, clr := {}, taps := [{ State.reset.shadowTap 4 with enable := true }], fp := 0 } }), by refine ⟨?_, ?_, ?_, ?_, rfl, rfl⟩ <;> decide +kernel⟩,
    ⟨pkt 0x4000 [], tapped.wn (CDC_S_STATE 0) 2, by decide +kernel⟩,
    ⟨pkt 0x4000 [], tapped, by decide +kernel⟩,
    ⟨pkt 0x4000 [], tapped.wn (CDC_S_STATE 0) 2, by decide +kernel⟩,
    ⟨pkt 0x4000 [], tapped.wn (CDC_S_STATE 0) 3, by decide +kernel⟩,
    ⟨pkt 0x4000 [], tapped, by decide +kernel⟩⟩

theorem witness_StreamRings :
    (∃ (stream : Fin 16) (v : W32) (m : Nat) (s : State),
      s.shut 0 = false ∧ m = 2 ^ ((s.es stream).qlog + 1) ∧ v.toNat % 0x20000 < m ∧ (v.toNat % 0x20000 + m - s.f (CDC_S_DD_HEAD__HEAD stream) % m) % m ≤ s.ddUsed stream)
    ∧ (∃ (stream : Fin 16) (v : W32) (m : Nat) (s : State),
      m = 2 ^ ((s.es stream).qlog + 1) ∧ (m ≤ v.toNat % 0x20000 ∨ s.ddUsed stream < (v.toNat % 0x20000 + m - s.f (CDC_S_DD_HEAD__HEAD stream) % m) % m))
    ∧ (∃ (stream : Fin 16) (q : Tq1Packet) (u : State) (s : State),
      s.tq1Head stream = some q ∧ s.tq1May q = true ∧ u = ((s.emit (.netFrame (q.frame ++ List.replicate (60 - q.frame.length) 0))).bumpEvt .cdc (CDC_S_PKT_CNT stream)).bumpEvt .net NET_TX_CNT)
    ∧ (∃ (stream : Fin 16) (q : Tq1Packet) (s : State),
      s.tq1Head stream = some q ∧ s.tq1May q = false)
    ∧ (∃ (stream : Fin 16) (s : State),
      s.tq1Head stream = none) :=
  ⟨⟨0, 0, 2, { State.reset with dev := { State.reset.dev with ready := true } }, by decide +kernel⟩,
    ⟨0, 2, 2, State.reset, by decide +kernel⟩,
    ⟨0, sendHead, _, sending, by exact ⟨rfl, by decide +kernel, rfl⟩⟩,
    ⟨0, (paced.tq1Head 0).getD ⟨[], 0, 0, 0⟩, paced, by exact ⟨rfl, by decide +kernel⟩⟩,
    ⟨0, State.reset, by rfl⟩⟩

theorem witness_Decoding :
    (∃ (p : Pkt) (d : Nat) (ring : Nat) (m : Nat) (u : State) (v : State) (s : State),
      accepted 0x0606 p s = true ∧ p.b 0 0 2 = 0 ∧ p.t 0 8 = false ∧ p.t 0 4 = true ∧ (entered 0x0606 p s).refOk (p.ref 8) = true ∧ (entered 0x0606 p s).bist 2 = false ∧ d = p.idx - 4 ∧ ((entered 0x0606 p s).ds d).open_ = false ∧ ring = p.b 3 0 16 * 0x10000 ∧ ring ≠ 0 ∧ p.q 4 % 4096 = 0 ∧ p.q 4 + 4096 + ring + p.b 3 16 16 * 0x10000 ≤ (entered 0x0606 p s).wBytes ∧ m = ceilDiv (p.b 1 0 16 * p.b 1 16 16 * p.w 2) 1000000000 ∧ (entered 0x0606 p s).encMpix none + (entered 0x0606 p s).decMpix + m ≤ 4500 ∧ poolNeed (p.b 1 0 16) (p.b 1 16 16) ≤ (entered 0x0606 p s).poolStride ∧ u = (entered 0x0606 p s).modDs d (fun e => { open_ := true, pool := true, checkHash := p.t 0 5, maxW := p.b 1 0 16, maxH := p.b 1 16 16, maxRate := p.w 2, mpix := m, base := p.q 4, ring := ring, syntaxBytes := p.b 3 16 16 * 0x10000, expand := halfWords [], taken := e.taken }) ∧ v = ((u.wn (CDC_D_STAT d) 0).setB (CDC_D_STAT__OPEN d) true).setB (CDC_D_STAT__OUT d) true)
    ∧ (∃ (p : Pkt) (d : Nat) (bs : List Byte) (u : State) (v : State) (s : State),
      accepted 0x0606 p s = true ∧ p.b 0 0 2 = 1 ∧ p.t 0 4 = false ∧ p.t 0 5 = false ∧ (entered 0x0606 p s).refOk (p.ref 8) = true ∧ d = p.idx - 4 ∧ ((entered 0x0606 p s).ds d).open_ = true ∧ ((entered 0x0606 p s).ds d).closing = false ∧ (p.ref 8).len ≤ ((entered 0x0606 p s).ds d).free ∧ (entered 0x0606 p s).readRef (p.ref 8) p.buf = some bs ∧ (u = (if bs.isEmpty then ((entered 0x0606 p s).ringFill d bs).modDs d (fun e => { e with flush := e.flush || p.t 0 8, cur := e.cur.map (fun q => { q with ended := q.ended || p.t 0 8 }) }) else ((entered 0x0606 p s).ringFill d bs).modDs d (fun e => { e with chunks := e.chunks ++ [(p.seq, bs.length, p.t 0 8)] }))) ∧ v = (((u.decFlush d).setBsFree d).decArrive d).feedDec d)
    ∧ (∃ (p : Pkt) (d : Nat) (s : State),
      accepted 0x0606 p s = true ∧ p.b 0 0 2 = 1 ∧ p.t 0 4 = false ∧ p.t 0 5 = false ∧ (entered 0x0606 p s).refOk (p.ref 8) = true ∧ d = p.idx - 4 ∧ ((entered 0x0606 p s).ds d).open_ = true ∧ ((entered 0x0606 p s).ds d).closing = false ∧ ((entered 0x0606 p s).ds d).free < (p.ref 8).len)
    ∧ (∃ (p : Pkt) (d : Nat) (u : State) (v : State) (w : State) (s : State),
      accepted 0x0606 p s = true ∧ p.b 0 0 2 = 2 ∧ p.t 0 4 = false ∧ p.t 0 5 = false ∧ p.t 0 8 = false ∧ d = p.idx - 4 ∧ ((entered 0x0606 p s).ds d).open_ = true ∧ ((entered 0x0606 p s).ds d).closing = false ∧ u = (entered 0x0606 p s).modDs d (fun e => { e with closing := true, drain := false, flush := true }) ∧ v = u.modDs d (fun e => { e with fill := 0, wr := 0, chunks := [], waiting := false, cur := e.cur.map (fun q => { q with ended := true }) }) ∧ w = (State.leaveB { v with cdc := { v.cdc with waiting := v.cdc.waiting.erase (.dec d) } } (.dec d)).setB (CDC_D_STAT__DEFERRED d) false)
    ∧ (∃ (p : Pkt) (s : State),
      accepted 0x0606 p s = true ∧ p.b 0 0 2 = 2 ∧ p.t 0 4 = false ∧ p.t 0 5 = false ∧ ((entered 0x0606 p s).ds (p.idx - 4)).open_ = false)
    ∧ (∃ (p : Pkt) (u : State) (s : State),
      accepted 0x0607 p s = true ∧ p.b 0 8 2 = 0 ∧ p.b 0 0 6 < s.poolCount ∧ s.marks (p.b 0 0 6) ≠ 0 ∧ u = s.setMark (p.b 0 0 6) markHost true)
    ∧ (∃ (p : Pkt) (u : State) (s : State),
      accepted 0x0607 p s = true ∧ p.b 0 8 2 = 1 ∧ p.b 0 0 6 < s.poolCount ∧ u = s.setMark (p.b 0 0 6) markHost false)
    ∧ (∃ (p : Pkt) (u : State) (s : State),
      accepted 0x0607 p s = true ∧ p.b 0 8 2 = 2 ∧ p.b 0 0 6 < s.poolCount ∧ u = (s.setMark (p.b 0 0 6) (markOut 0) false).setMark (p.b 0 0 6) (markOut 1) false)
    ∧ (∃ (session : Fin 2) (p : DecPic) (q : DecPic) (bad : List Nat) (u : State) (v : State) (w : State) (s : State),
      (s.ds session).cur = some p ∧ p.ended = true ∧ (s.ds session).peRow = none ∧ (∀ r, s.cdc.pe = some r → r.1 ≠ 16 + session.val) ∧ bad = (List.range (ceilDiv p.width p.ctb * ceilDiv p.height p.ctb)).filter (fun a => !p.ctus.contains a) ∧ u = bad.foldl (fun t a => t.conceal p ((s.ds session).concealSource p) a) s ∧ (v = if bad.isEmpty then u else u.bumpStat (CDC_D_CONC_CNT session) bad.length) ∧ q = { p with damaged := bad.length, concealed := p.concealed || !bad.isEmpty, err := (s.ds session).err, lines := p.height } ∧ (w = ((v.poolInfo q).modDs session (fun e => DecSt.after { e with cur := none, err := 0, admitted := false, taken := e.taken.map (fun r => if r.buf = q.buf then q else r) } q)).decLand session q.buf q.height true))
    ∧ (∃ (session : Fin 2) (b : Nat) (t : List Nat) (p : DecPic) (q : DecPic) (u : State) (s : State),
      (s.ds session).outq = b :: t ∧ (s.ds session).dpb.find? (fun p => p.buf == b) = some p ∧ (s.ds session).pool = true ∧ q = { p with output := true, outNs := s.ns } ∧ (u = (s.bumpEvt .cdc (CDC_D_PIC_CNT session)).modDs session (fun e => { e with outq := t, dpb := e.dpb.map (fun r => if r.buf = b then q else r), avail := if e.pool || p.takenBy.isSome then e.avail else e.avail ++ [b] })))
    ∧ (∃ (session : Fin 2) (b : Nat) (t : List Nat) (p : DecPic) (q : DecPic) (s : State),
      (s.ds session).outq = b :: t ∧ (s.ds session).dpb.find? (fun p => p.buf == b) = some p ∧ (s.ds session).pool = false ∧ p.takenBy = none ∧ q = { p with output := true, outNs := s.ns })
    ∧ (∃ (session : Fin 2) (s : State),
      (s.ds session).cur = none ∧ (s.ds session).outq = []) :=
  ⟨⟨pkt 0x2004 [0x10, 0, 0, 1, 0, 0, 0, 0, 0, 0, 0, 0], 0, 0x10000, 0, _, _, State.reset, by refine ⟨?_, ?_, ?_, ?_, ?_, ?_, ?_, ?_, ?_, ?_, ?_, ?_, ?_, ?_, ?_, rfl, rfl⟩ <;> decide +kernel⟩,
    ⟨{ pkt 0x2004 [1, 0, 0, 0, 0, 0, 0, 0, 0, 0, 1, 0] with buf := .bytes [5] }, 0, [5], _, _, opened, by refine ⟨?_, ?_, ?_, ?_, ?_, ?_, ?_, ?_, ?_, ?_, rfl, rfl⟩ <;> decide +kernel⟩,
    ⟨pkt 0x2004 [1, 0, 0, 0, 0, 0, 0, 0, 0, 0, 0x20000, 0], 0, opened, by decide +kernel⟩,
    ⟨pkt 0x2004 [2, 0, 0, 0, 0, 0, 0, 0, 0, 0, 0, 0], 0, _, _, _, opened, by refine ⟨?_, ?_, ?_, ?_, ?_, ?_, ?_, ?_, rfl, rfl, rfl⟩ <;> decide +kernel⟩,
    ⟨pkt 0x2004 [2, 0, 0, 0, 0, 0, 0, 0, 0, 0, 0, 0], State.reset, by decide +kernel⟩,
    ⟨pkt 0 [0, 0, 0, 0], _, (State.reset.wn CDC_POOL_CFG 4).setMark 0 2 true, by refine ⟨?_, ?_, ?_, ?_, rfl⟩ <;> decide +kernel⟩,
    ⟨pkt 0 [0x100, 0, 0, 0], _, (State.reset.wn CDC_POOL_CFG 4).setMark 0 2 true, by refine ⟨?_, ?_, ?_, rfl⟩ <;> decide +kernel⟩,
    ⟨pkt 0 [0x200, 0, 0, 0], _, (State.reset.wn CDC_POOL_CFG 4).setMark 0 2 true, by refine ⟨?_, ?_, ?_, rfl⟩ <;> decide +kernel⟩,
    ⟨0, pic0, { pic0 with lines := 64 }, [], _, _, _, opened.modDs 0 (fun e => { e with cur := some pic0 }), by refine ⟨?_, ?_, ?_, (by intro r h; cases h), ?_, rfl, rfl, rfl, rfl⟩ <;> decide +kernel⟩,
    ⟨0, 0, [], pic0, { pic0 with output := true }, _, opened.modDs 0 (fun e => { e with dpb := [pic0], outq := [0] }), by refine ⟨?_, ?_, ?_, ?_, rfl⟩ <;> decide +kernel⟩,
    ⟨0, 0, [], pic0, { pic0 with output := true }, opened.modDs 0 (fun e => { e with pool := false, dpb := [pic0], outq := [0] }), by decide +kernel⟩,
    ⟨0, State.reset, by decide +kernel⟩⟩

theorem witness_CodingEngines :
    (∃ (s : State),
      (s.cdc.pe.isSome = true ∨ s.peNext = none))
    ∧ (∃ (w : Nat) (p : EncPic) (s : State),
      s.cdc.pe = none ∧ s.peNext = some w ∧ w < 16 ∧ (s.es w).pic = some p)
    ∧ (∃ (w : Nat) (slot : Nat) (q : EncSrc) (t : List EncSlot) (s : State),
      s.cdc.pe = none ∧ s.peNext = some w ∧ w < 16 ∧ (s.es w).pic = none ∧ (s.es w).queue = ⟨slot, some q⟩ :: t ∧ (s.es w).omits (s.f (CDC_S_STATE__DEG w)) slot = false)
    ∧ (∃ (w : Nat) (r : Nat) (s : State),
      s.cdc.pe = none ∧ s.peNext = some w ∧ 16 ≤ w ∧ (s.ds (w - 16)).peRow = some r)
    ∧ (∃ (r : RowOut) (w : Nat) (j : Nat) (p : EncPic) (u : State) (s : State),
      s.cdc.pe = some (w, j) ∧ w < 16 ∧ (s.es w).pic = some p ∧ u = { s with cdc := { s.cdc with pe := none } })
    ∧ (∃ (r : RowOut) (w : Nat) (j : Nat) (p : DecPic) (u : State) (v : State) (s : State),
      s.cdc.pe = some (w, j) ∧ 16 ≤ w ∧ (s.ds (w - 16)).cur = some p ∧ u = { s with cdc := { s.cdc with pe := none } } ∧ v = (u.writeIn (fun a n => decide (u.poolAddr p.buf ≤ a) && decide (a + n ≤ u.poolAddr p.buf + u.poolStride)) r.writes).modDs (w - 16) (fun e => { e with cur := some { p with peRow := j + 1, lines := max p.lines (min r.final p.height) } }))
    ∧ (∃ (r : RowOut) (s : State),
      s.cdc.pe = none)
    ∧ (∃ (k : Fin 2) (i : Nat) (j : Nat) (u : State) (s : State),
      s.cdc.ee.getD k none = some (.enc i j) ∧ (u = s.modEs i (fun e => { e with pic := e.pic.map (fun p => p.modRow j (fun r => { r with slice := some (e.sliceNal p j r, if j + 1 = (s.es i).rowsN ∧ (s.es i).hashSei = true then [(s.es i).hashNal p.recon] else []) })) })))
    ∧ (∃ (k : Fin 2) (s : State),
      (∀ i j, s.cdc.ee.getD k none ≠ some (.enc i j))) :=
  ⟨⟨State.reset, by decide +kernel⟩,
    ⟨0, encPic, (State.reset.wn (CDC_S_STATE 0) 2).modEs 0 (fun e => { e with ow := 64, oh := 64, pic := some encPic }), by decide +kernel⟩,
    ⟨0, 0, encSrc, [], (State.reset.wn (CDC_S_STATE 0) 2).modEs 0 (fun e => { e with ow := 64, oh := 64, queue := [⟨0, some encSrc⟩] }), by decide +kernel⟩,
    ⟨16, 0, opened.modDs 0 (fun e => { e with cur := some { pic0 with peRow := 0 } }), by decide +kernel⟩,
    ⟨⟨[], 0⟩, 0, 0, { encPic with rows := [⟨0, [], false, none, none, []⟩] }, _, coding, by refine ⟨?_, ?_, ?_, rfl⟩ <;> decide +kernel⟩,
    ⟨⟨[], 0⟩, 16, 0, pic0, _, _, decoding, by refine ⟨?_, ?_, ?_, rfl, rfl⟩ <;> decide +kernel⟩,
    ⟨⟨[], 0⟩, State.reset, by decide +kernel⟩,
    ⟨0, 0, 0, _, { coding with cdc := { coding.cdc with ee := [some (.enc 0 0), none] } }, by exact ⟨by decide +kernel, rfl⟩⟩,
    ⟨0, State.reset, by exact (fun _ _ h => by cases h)⟩⟩

theorem witness_CompositionSets :
    (∃ (p : Pkt) (l : Nat) (g : LayerCfg) (others : List Nat) (u : State) (v : State) (x : State) (s : State),
      accepted 0x0700 p s = true ∧ l = p.b 0 0 4 ∧ l < 8 ∧ g = { en := p.t 0 4, src := p.b 0 5 2, pack := p.b 0 8 4, solid := p.t 0 12, premult := p.t 0 13, crcEn := p.t 0 14, matrix := p.b 0 15 1, range := p.b 0 16 1, tapEng := p.b 0 17 2, tapCtx := p.b 0 20 3, sw := p.b 1 0 16, sh := p.b 1 16 16, dx := p.b 2 0 16, dy := p.b 2 16 16, dw := p.b 3 0 16, dh := p.b 3 16 16, galpha := p.b 4 0 16, ftmo := p.b 4 16 16, race := p.b 5 0 14, acq := p.q 6, rel := p.q 8, lut := (((entered 0x0700 p s).cmpU p.idx).shadowLayer l).lut } ∧ others = ((entered 0x0700 p s).modCmp p.idx (fun u => { u with shadow := u.shadow.set l { g with acq := 0 } })).fenceNamed ∧ p.t 0 7 = false ∧ p.t 0 19 = false ∧ p.b 0 23 9 = 0 ∧ g.src ≠ 3 ∧ g.tapCtx ≤ 5 ∧ g.ftmo ≠ 0 ∧ (g.src = 2 → 64 ≤ g.race ∧ g.race ≤ 8192 ∧ g.race % 64 = 0) ∧ (g.acq = 0 ∨ others.contains (g.acq / 64) = true ∨ others.length < 256) ∧ u = (entered 0x0700 p s).modCmp p.idx (fun u => { u with shadow := u.shadow.set l g }) ∧ (v = (if g.acq ≠ 0 ∧ u.cxl.fallback = false ∧ others.contains (g.acq / 64) = false then (match p.buf with | .bytes b => u.holdFence (g.acq / 64) b | .failed _ _ => u.hostError .cmp p.buf) else u)) ∧ x = v.evalFences)
    ∧ (∃ (p : Pkt) (t : State) (o : Outc) (s : State),
      accepted 0x0700 p s = true ∧ p.b 0 0 4 = 8 ∧ p.b 0 4 18 = 0 ∧ (List.range 11).find? (fun i => p.w (i + 1) != 0) = none ∧ (entered 0x0700 p s).rindSelect p.idx (p.b 0 24 8) (p.b 0 22 2) = (t, some o))
    ∧ (∃ (p : Pkt) (bs : List Byte) (s : State),
      accepted 0x0701 p s = true ∧ (entered 0x0701 p s).refOk (p.ref 4) = true ∧ p.b 0 0 4 ≤ 7 ∧ (p.ref 4).len = 2048 ∧ ((entered 0x0701 p s).cmpU p.idx).set = none ∧ (entered 0x0701 p s).readRef (p.ref 4) p.buf = some bs)
    ∧ (∃ (p : Pkt) (bs : List Byte) (s : State),
      accepted 0x0701 p s = true ∧ (entered 0x0701 p s).refOk (p.ref 4) = true ∧ p.b 0 0 4 = 15 ∧ (p.ref 4).len = 24576 ∧ ((entered 0x0701 p s).cmpU p.idx).set = none ∧ (entered 0x0701 p s).readRef (p.ref 4) p.buf = some bs)
    ∧ (∃ (p : Pkt) (s : State),
      accepted 0x0701 p s = true ∧ (entered 0x0701 p s).refOk (p.ref 4) = true ∧ p.b 0 0 4 ≤ 7 ∧ (p.ref 4).len ≠ 2048)
    ∧ (∃ (p : Pkt) (g : WbCfg) (s : State),
      accepted 0x0704 p s = true ∧ g = { en := p.t 0 0, oneshot := p.t 0 1, pack := p.b 0 2 4, matrix := p.b 0 8 1, range := p.b 0 9 1, nbuf := p.b 0 16 4, stride := p.w 1 * 4096, base := p.q 2 } ∧ g.pack ≤ 2 ∧ (g.en = true → 2 ≤ g.nbuf ∧ g.nbuf ≤ 8 ∧ g.base % 4096 = 0 ∧ g.base + g.nbuf * g.stride ≤ (entered 0x0704 p s).wBytes))
    ∧ (∃ (p : Pkt) (s : State),
      accepted 0x0704 p s = true ∧ 2 < p.b 0 2 4)
    ∧ (∃ (p : Pkt) (s : State),
      accepted 0x0705 p s = true)
    ∧ (∃ (p : Pkt) (w : Nat) (h : Nat) (c : CmpSt) (r : State × List (Nat × Flip)) (g : CmpSet) (u : State) (fp : Nat) (s : State),
      accepted 0x0702 p s = true ∧ w = p.b 0 0 16 ∧ h = p.b 0 16 16 ∧ 64 ≤ w ∧ w ≤ 8192 ∧ 64 ≤ h ∧ h ≤ 8192 ∧ c = (entered 0x0702 p s).cmpU p.idx ∧ (c.shadow.filter (·.en)).findSome? (entered 0x0702 p s).layerCheck = none ∧ c.shadowWb.fits w h = true ∧ (entered 0x0702 p s).fetchOk p.idx w h c.shadow (p.b 2 17 2) = true ∧ ((match (entered 0x0702 p s).tgOf p.idx with | some t => ((entered 0x0702 p s).tg t).set && (((entered 0x0702 p s).tg t).hactive != w || ((entered 0x0702 p s).tg t).vactive != h) | none => false) = false) ∧ (r = (if c.set.isSome then (entered 0x0702 p s).cmpErr p.idx CMP_C_ERR__COMMIT_REPLACED else (entered 0x0702 p s)).joinFlips p.idx ((c.set.map (·.flips)).getD []) c.deferred) ∧ g = { outW := w, outH := h, bg := (p.b 1 0 16, p.b 1 16 16, p.b 2 0 16), pace := p.t 2 16, fcg := p.b 2 17 2, layers := c.shadow, post := c.shadowPost, wb := c.shadowWb, lines := c.shadowLines, tcPos := c.shadowTcPos, flips := r.2 } ∧ u = (List.range 8).foldl (fun s l => s.showFlips p.idx l) ((r.1.modCmp p.idx (fun u => { u with set := some g, deferred := [] })).setB (CMP_C_STAT__COMMIT_PEND p.idx) true) ∧ fp = ((u.modCmp p.idx (fun u => { u with live := some g })).instFp .cmp).toNat)
    ∧ (∃ (p : Pkt) (l : Nat) (c : CmpSt) (g : LayerCfg) (f0 : Flip) (f : Flip) (u : State) (v : State) (s : State),
      accepted 0x0703 p s = true ∧ l = p.b 0 0 4 ∧ l ≤ 7 ∧ p.t 0 8 = false ∧ c = s.cmpU p.idx ∧ g = c.liveLayer l ∧ g.en = true ∧ g.src = 0 ∧ p.q 2 + g.bytes ≤ s.wBytes ∧ f0 = { addr := p.q 2, acq := p.q 4, rel := p.q 6, tag := p.b 1 0 16, wait := p.t 0 9, ready := false, order := c.order } ∧ f = { f0 with ready := s.flipReady g f0 } ∧ u = s.modCmp p.idx (fun u => { u with order := u.order + 1 }) ∧ (v = (match (c.layerSt l).pending with | some o => u.flipReplaced p.idx l o | none => u)))
    ∧ (∃ (p : Pkt) (l : Nat) (c : CmpSt) (g : LayerCfg) (f0 : Flip) (f : Flip) (r : State × List (Nat × Flip)) (s : State),
      accepted 0x0703 p s = true ∧ l = p.b 0 0 4 ∧ l ≤ 7 ∧ p.t 0 8 = true ∧ c = s.cmpU p.idx ∧ g = c.shadowLayer l ∧ g.en = true ∧ g.src = 0 ∧ p.q 2 + g.bytes ≤ s.wBytes ∧ f0 = { addr := p.q 2, acq := p.q 4, rel := p.q 6, tag := p.b 1 0 16, wait := p.t 0 9, ready := false, order := c.order } ∧ f = { f0 with ready := s.flipReady g f0 } ∧ r = (s.modCmp p.idx (fun u => { u with order := u.order + 1 })).joinFlips p.idx c.deferred [(l, f)])
    ∧ (∃ (p : Pkt) (g : LayerCfg) (s : State),
      accepted 0x0703 p s = true ∧ p.b 0 0 4 ≤ 7 ∧ (g = (if p.t 0 8 then (s.cmpU p.idx).shadowLayer (p.b 0 0 4) else (s.cmpU p.idx).liveLayer (p.b 0 0 4))) ∧ (g.en = false ∨ g.src ≠ 0)) :=
  ⟨⟨pkt 0x5000 [0x10, 0, 0, 0, 0x10000, 0, 0, 0, 0, 0, 0, 0], 0, { en := true, ftmo := 1 }, [], _, _, _, State.reset, by refine ⟨?_, ?_, ?_, ?_, ?_, ?_, ?_, ?_, ?_, ?_, ?_, (fun h => absurd h (by decide)), ?_, rfl, rfl, rfl⟩ <;> decide +kernel⟩,
    ⟨pkt 0x5000 [8, 0, 0, 0, 0, 0, 0, 0, 0, 0, 0, 0], _, _, State.reset, by refine ⟨?_, ?_, ?_, ?_, rfl⟩ <;> decide +kernel⟩,
    ⟨{ pkt 0x5000 [0, 0, 0, 0, 0, 0, 2048, 0] with buf := .bytes [] }, List.replicate 2048 0, State.reset, by refine ⟨?_, ?_, ?_, ?_, ?_, readZero _ _ _ (by decide) (by decide) (by decide)⟩ <;> decide +kernel⟩,
    ⟨{ pkt 0x5000 [15, 0, 0, 0, 0, 0, 24576, 0] with buf := .bytes [] }, List.replicate 24576 0, State.reset, by refine ⟨?_, ?_, ?_, ?_, ?_, readZero _ _ _ (by decide) (by decide) (by decide)⟩ <;> decide +kernel⟩,
    ⟨pkt 0x5000 [0, 0, 0, 0, 0, 0, 4, 0], State.reset, by decide +kernel⟩,
    ⟨pkt 0x5000 [0x20000, 0, 0, 0, 0, 0, 0, 0], { nbuf := 2 }, State.reset, by refine ⟨?_, ?_, ?_, (fun h => absurd h (by decide))⟩ <;> decide +kernel⟩,
    ⟨pkt 0x5000 [0x0C, 0, 0, 0, 0, 0, 0, 0], State.reset, by decide +kernel⟩,
    ⟨pkt 0x5000 [], State.reset, by decide +kernel⟩,
    ⟨pkt 0x5000 [0x400040, 0, 0, 0], 64, 64, _, _, _, _, _, State.reset, by refine ⟨?_, ?_, ?_, ?_, ?_, ?_, ?_, rfl, ?_, ?_, ?_, ?_, rfl, rfl, rfl, rfl⟩ <;> decide +kernel⟩,
    ⟨pkt 0x5000 [0, 0, 0, 0, 0, 0, 0, 0], 0, _, memLayer, _, _, _, _, State.reset.modCmp 0 (fun u => { u with live := some { outW := 64, outH := 64, bg := (0, 0, 0), pace := false, fcg := 0, layers := memLayer :: List.replicate 7 {}, post := none, wb := {}, lines := none, tcPos := none, flips := [] } }), by refine ⟨?_, ?_, ?_, ?_, rfl, ?_, ?_, ?_, ?_, rfl, rfl, rfl, rfl⟩ <;> decide +kernel⟩,
    ⟨pkt 0x5000 [0x100, 0, 0, 0, 0, 0, 0, 0], 0, _, memLayer, _, _, _, State.reset.modCmp 0 (fun u => { u with shadow := memLayer :: List.replicate 7 {} }), by refine ⟨?_, ?_, ?_, ?_, rfl, ?_, ?_, ?_, ?_, rfl, rfl, rfl⟩ <;> decide +kernel⟩,
    ⟨pkt 0x5000 [0, 0, 0, 0, 0, 0, 0, 0], _, State.reset, by refine ⟨?_, ?_, rfl, ?_⟩ <;> decide +kernel⟩⟩

theorem witness_CompositionRuns :
    (∃ (composer : Fin 4) (line : BitVec 16) (torn : BitVec 8) (s : State),
      s.tgOf composer = none ∧ (s.cmpU composer).due = true)
    ∧ (∃ (composer : Fin 4) (line : BitVec 16) (torn : BitVec 8) (t : Nat) (v : Nat) (slip : Bool) (s : State),
      s.tgOf composer = some t ∧ (s.tg t).set = true ∧ (s.tg t).blank.isSome = true ∧ s.fixedBlank t = some (v, slip))
    ∧ (∃ (composer : Fin 4) (line : BitVec 16) (torn : BitVec 8) (s : State),
      (s.tgOf composer = none ∧ (s.cmpU composer).due = false ∨ (s.tgOf composer).any (fun t => (s.tg t).set = false || (s.tg t).blank.isNone || (s.fixedBlank t).isNone && (line.toNat + 4 < (s.tg t).soft.vmin || (s.tg t).soft.vmax < line.toNat + 4)) = true))
    ∧ (∃ (composer : Fin 4) (line : BitVec 16) (torn : BitVec 8) (t : Nat) (s : State),
      s.tgOf composer = some t ∧ (s.tg t).set = true ∧ (s.tg t).blank.isSome = true ∧ s.fixedBlank t = none ∧ (s.tg t).soft.vmin ≤ line.toNat + 4 ∧ line.toNat + 4 ≤ (s.tg t).soft.vmax ∧ (s.allReady composer = true ∨ line.toNat + 4 = (s.tg t).soft.vmax))
    ∧ (∃ (composer : Fin 4) (line : BitVec 16) (torn : BitVec 8) (t : Nat) (s : State),
      s.tgOf composer = some t ∧ (s.tg t).set = true ∧ (s.tg t).blank.isSome = true ∧ s.fixedBlank t = none ∧ (s.tg t).soft.vmin ≤ line.toNat + 4 ∧ line.toNat + 4 < (s.tg t).soft.vmax ∧ s.allReady composer = false)
    ∧ (∃ (t : Fin 4) (phase : W32) (torn : BitVec 8) (x : State) (u : State) (v : State) (s : State),
      (s.tg t).set = true ∧ s.cmpOf t = none ∧ (x = if (s.tg t).blank.isSome then s.latchAlone t ((s.fixedBlank t).getD ((s.tg t).soft.vmin, false)).1 ((s.fixedBlank t).getD ((s.tg t).soft.vmin, false)).2 else s) ∧ x.cmpOf t = none ∧ u = x.sendFrame t 0 ((x.tg t).tcWord (x.tg t).tc) none ∧ v = (((u.modTg t (fun g => { g with blank := some (g.active + g.vactive) })).bumpEvt .dsp (DSP_TG_FRAME_CNT t)).judgePhase t (sext 32 phase.toNat)).modTg t TgSt.takeNext)
    ∧ (∃ (t : Fin 4) (phase : W32) (torn : BitVec 8) (n : Nat) (r : State × List (List Rgb)) (u : State) (v : State) (s : State),
      (s.tg t).set = true ∧ (s.tg t).blank = none ∧ s.cmpOf t = some n ∧ r = s.finishFrame n torn ∧ (u = (match (s.cmpU n).frame with
        | some f => r.1.sendFrame t f.cfn f.tc (if (s.cmpU n).live.isSome then some r.2 else none)
        | none => s.sendFrame t 0 ((s.tg t).tcWord (s.tg t).tc) none)) ∧ v = (((u.modTg t (fun g => { g with blank := some (g.active + g.vactive) })).bumpEvt .dsp (DSP_TG_FRAME_CNT t)).judgePhase t (sext 32 phase.toNat)).modTg t TgSt.takeNext)
    ∧ (∃ (t : Fin 4) (phase : W32) (torn : BitVec 8) (s : State),
      ((s.tg t).set = false ∨ (s.tg t).blank.isSome = true ∧ (s.cmpOf t).isSome = true))
    ∧ (∃ (line : BitVec 58) (b : List Byte) (s : State),
      s.cxl.up = true ∧ s.cxl.fallback = false ∧ s.fenceNamed.contains line.toNat = true)
    ∧ (∃ (addr : BitVec 64) (b : List Byte) (old : List Byte) (s : State),
      s.cxl.up = true ∧ s.cxl.fallback = true ∧ s.fenceNamed.contains (addr.toNat / 64) = true ∧ old = ((s.cmp.fence.find? (fun f => f.1 == addr.toNat / 64)).map (fun f => f.2)).getD (List.replicate 64 0))
    ∧ (∃ (composer : Fin 4) (layer : Fin 8) (tag : BitVec 16) (f : Flip) (u : State) (v : State) (s : State),
      s.takeStuck composer layer (Flip.stuck tag.toNat) = (some f, u) ∧ v = ((u.release composer layer f.rel).bumpStat (CMP_C_FTMO_CNT composer)).cmpErr composer CMP_C_ERR__FENCE_TMO) :=
  ⟨⟨0, 0, 0, State.reset.modCmp 0 (fun u => { u with due := true }), by decide +kernel⟩,
    ⟨0, 96, 0, 0, _, _, fixedDriven, by refine ⟨?_, ?_, ?_, rfl⟩ <;> decide +kernel⟩,
    ⟨0, 0, 0, State.reset, by decide +kernel⟩,
    ⟨0, 96, 0, 0, driven, by decide +kernel⟩,
    ⟨0, 96, 0, 0, driven.modLayer 0 0 (fun x => { x with pending := some flip7 }), by decide +kernel⟩,
    ⟨0, 0, 0, _, _, _, State.reset.modTg 0 (fun g => { g with set := true, blank := none }), by refine ⟨?_, ?_, rfl, ?_, rfl, rfl⟩ <;> decide +kernel⟩,
    ⟨0, 0, 0, 0, _, _, _, (driven.modTg 0 (fun g => { g with blank := none })).modCmp 0 (fun u => { u with frame := some frm }), by refine ⟨?_, ?_, ?_, rfl, rfl, rfl⟩ <;> decide +kernel⟩,
    ⟨0, 0, 0, State.reset, by decide +kernel⟩,
    ⟨1, [], ({ State.reset with cxl := { State.reset.cxl with up := true, fallback := false } }.modCmp 0 (fun u => { u with shadow := [{ acq := 64 }] })), by decide +kernel⟩,
    ⟨64, [], List.replicate 64 0, ({ State.reset with cxl := { State.reset.cxl with up := true, fallback := true } }.modCmp 0 (fun u => { u with shadow := [{ acq := 64 }] })), by decide +kernel⟩,
    ⟨0, 0, 7, flip7, _, _, State.reset.modLayer 0 0 (fun x => { x with pending := some flip7 }), by exact ⟨rfl, rfl⟩⟩⟩

theorem witness_Displays :
    (∃ (p : Pkt) (t : Nat) (n : TgSt) (s : State),
      accepted 0x0800 p s = true ∧ t = p.idx - 0x10 ∧ timingOf p = some n ∧ n.limitsOk = true ∧ (((entered 0x0800 p s).tg t).set = false ∨ ((entered 0x0800 p s).tg t).sdi ≠ n.sdi ∨ ((entered 0x0800 p s).tg t).raster ≠ n.raster ∨ ((entered 0x0800 p s).tg t).rate ≠ n.rate ∨ ((entered 0x0800 p s).tg t).hactive ≠ n.hactive ∨ ((entered 0x0800 p s).tg t).vactive ≠ n.vactive ∨ ((entered 0x0800 p s).tg t).htotal ≠ n.htotal ∨ ((entered 0x0800 p s).tg t).khz ≠ n.khz ∨ ((entered 0x0800 p s).tg t).div ≠ n.div) ∧ (entered 0x0800 p s).portsOn t = [] ∧ (((entered 0x0800 p s).tg t).hactive = n.hactive ∧ ((entered 0x0800 p s).tg t).vactive = n.vactive ∨ (entered 0x0800 p s).sizeClash ((entered 0x0800 p s).cmpOf t) n = false))
    ∧ (∃ (p : Pkt) (t : Nat) (n : TgSt) (s : State),
      accepted 0x0800 p s = true ∧ t = p.idx - 0x10 ∧ timingOf p = some n ∧ n.limitsOk = true ∧ (¬ (((entered 0x0800 p s).tg t).set = false ∨ ((entered 0x0800 p s).tg t).sdi ≠ n.sdi ∨ ((entered 0x0800 p s).tg t).raster ≠ n.raster ∨ ((entered 0x0800 p s).tg t).rate ≠ n.rate ∨ ((entered 0x0800 p s).tg t).hactive ≠ n.hactive ∨ ((entered 0x0800 p s).tg t).vactive ≠ n.vactive ∨ ((entered 0x0800 p s).tg t).htotal ≠ n.htotal ∨ ((entered 0x0800 p s).tg t).khz ≠ n.khz ∨ ((entered 0x0800 p s).tg t).div ≠ n.div)))
    ∧ (∃ (p : Pkt) (t : Nat) (n : TgSt) (s : State),
      accepted 0x0800 p s = true ∧ t = p.idx - 0x10 ∧ timingOf p = some n ∧ n.limitsOk = true ∧ (((entered 0x0800 p s).tg t).set = false ∨ ((entered 0x0800 p s).tg t).sdi ≠ n.sdi ∨ ((entered 0x0800 p s).tg t).raster ≠ n.raster ∨ ((entered 0x0800 p s).tg t).rate ≠ n.rate ∨ ((entered 0x0800 p s).tg t).hactive ≠ n.hactive ∨ ((entered 0x0800 p s).tg t).vactive ≠ n.vactive ∨ ((entered 0x0800 p s).tg t).htotal ≠ n.htotal ∨ ((entered 0x0800 p s).tg t).khz ≠ n.khz ∨ ((entered 0x0800 p s).tg t).div ≠ n.div) ∧ (entered 0x0800 p s).portsOn t ≠ [])
    ∧ (∃ (p : Pkt) (n : TgSt) (s : State),
      accepted 0x0800 p s = true ∧ timingOf p = some n ∧ n.limitsOk = false)
    ∧ (∃ (p : Pkt) (cs : List (Option Nat)) (gs : List (Option Nat)) (u : State) (v : State) (s : State),
      accepted 0x0801 p s = true ∧ cs = (List.range 4).map (routeAt (p.w 0)) ∧ gs = (List.range 4).map (routeAt (p.w 1)) ∧ ((cs ++ gs).all (fun v => match v with | some k => decide (k ≤ 3) | none => true) = true) ∧ (List.range 4).all (fun n => decide ((cs.filter (fun v => v == some n)).length ≤ 1)) = true ∧ ([0, 1].all (fun q => match gs.getD q none with | some t => ((entered 0x0801 p s).tg t).sdiOk | none => true) = true) ∧ (List.range 4).all (fun q => ((entered 0x0801 p s).portState q != 1 && (entered 0x0801 p s).portState q != 2) || ((entered 0x0801 p s).dpt q).tg == gs.getD q none && (((entered 0x0801 p s).dpt q).tg.bind (fun t => (entered 0x0801 p s).dsp.route.getD t none)) == ((gs.getD q none).bind (fun t => cs.getD t none))) = true ∧ (List.range 4).all (fun t => !(((entered 0x0801 p s).tg t).set && (entered 0x0801 p s).sizeClash (cs.getD t none) ((entered 0x0801 p s).tg t))) = true ∧ u = { (entered 0x0801 p s) with dsp := { (entered 0x0801 p s).dsp with route := cs } } ∧ v = (List.range 4).foldl (fun s q => (s.modDpt q (fun d => { d with tg := gs.getD q none })).setF (DSP_P_STAT__TG q) ((gs.getD q none).getD 7)) u)
    ∧ (∃ (p : Pkt) (s : State),
      accepted 0x0806 p s = true)
    ∧ (∃ (p : Pkt) (q : Nat) (t : Nat) (u : State) (s : State),
      accepted 0x0802 p s = true ∧ q = p.idx ∧ q < 2 ∧ ((entered 0x0802 p s).portState q = 0 ∨ (entered 0x0802 p s).portState q = 3) ∧ (entered 0x0802 p s).bist 3 = false ∧ ((entered 0x0802 p s).analogue 4).any (fun m => bitAt m q) = false ∧ ((entered 0x0802 p s).dpt q).tg = some t ∧ ((entered 0x0802 p s).tg t).sdiOk = true ∧ (p.t 0 6 = true → (audioTaken (p.w 0)).any (fun a => (entered 0x0802 p s).f (AUD_P_CFG__RATE a) != 1 || !(entered 0x0802 p s).on (AUD_P_CFG__CONFIGURED a)) = false) ∧ u = ((entered 0x0802 p s).setF (DSP_P_STAT__STATE q) 1).modDpt q (fun d => { d with asked := (p.w 0 &&& 0x7778, 0), enabling := some (s.pktHdr 0x0802 p) }))
    ∧ (∃ (p : Pkt) (q : Nat) (t : Nat) (u : State) (s : State),
      accepted 0x0802 p s = true ∧ q = p.idx ∧ 2 ≤ q ∧ ((entered 0x0802 p s).portState q = 0 ∨ (entered 0x0802 p s).portState q = 3) ∧ (entered 0x0802 p s).bist 3 = false ∧ ((entered 0x0802 p s).analogue 5).any (fun m => bitAt m q) = false ∧ p.b 0 0 2 ≠ 3 ∧ 80 ≤ p.w 1 ∧ p.w 1 ≤ 4500 ∧ ((entered 0x0802 p s).dpt q).tg = some t ∧ (entered 0x0802 p s).on (DSP_P_STAT__ATTACHED q) = true ∧ dsiFits ((entered 0x0802 p s).tg t) (p.w 0) (p.w 1) = true ∧ q < 4 ∧ u = ((entered 0x0802 p s).setF (DSP_P_STAT__STATE q) 1).modDpt q (fun d => { d with asked := (p.w 0 &&& 0x3F, p.w 1), enabling := some (s.pktHdr 0x0802 p) }))
    ∧ (∃ (p : Pkt) (s : State),
      accepted 0x0802 p s = true ∧ ((entered 0x0802 p s).portState p.idx = 1 ∨ (entered 0x0802 p s).portState p.idx = 2))
    ∧ (∃ (p : Pkt) (u : State) (s : State),
      accepted 0x0803 p s = true ∧ u = ((entered 0x0803 p s).endEnable p.idx (refuse stAborted 0)).endDcs p.idx (refuse stState 0x8008))
    ∧ (∃ (p : Pkt) (bs : List Byte) (s : State),
      accepted 0x0804 p s = true ∧ 2 ≤ p.idx ∧ p.b 0 8 8 ≤ 128 ∧ p.b 0 16 8 ≤ 16 ∧ ((entered 0x0804 p s).portState p.idx = 1 ∨ (entered 0x0804 p s).portState p.idx = 2) ∧ bs = ((List.range 32).flatMap (fun k => leBytes 4 (p.w (1 + k)))).take (p.b 0 8 8))
    ∧ (∃ (p : Pkt) (udw : List Nat) (u : State) (s : State),
      accepted 0x0805 p s = true ∧ p.idx < 2 ∧ udw = (List.range 256).map (fun k => p.b (1 + k / 2) (16 * (k % 2)) 16) ∧ ((List.range 256).find? (fun k => if k < p.b 0 16 8 then decide (0x3FF < udw.getD k 0) else udw.getD k 0 != 0) = none) ∧ ((entered 0x0805 p s).dpt p.idx).anc.length < 4 ∧ u = (entered 0x0805 p s).modDpt p.idx (fun d => { d with anc := d.anc ++ [⟨p.b 0 0 8, p.b 0 8 8, udw.take (p.b 0 16 8), (entered 0x0805 p s).now, false⟩] }))
    ∧ (∃ (port : Fin 4) (report : W32) (data : List Byte) (h : Hdr) (type : Nat) (n : Nat) (bs : List Byte) (rest : List (Hdr × Nat × List Byte × Nat)) (u : State) (s : State),
      (s.dpt port).dcs = (h, type, bs, n) :: rest ∧ (s.portState port ≠ 2 ∨ (∃ t, (s.dpt port).tg = some t ∧ (s.tg t).blank.isSome = true)) ∧ u = (s.emit (.dcs port type bs)).modDpt port (fun d => { d with dcs := rest }))
    ∧ (∃ (port : Fin 4) (report : W32) (data : List Byte) (acked : Bool) (s : State),
      (s.dpt port).dcs = [])
    ∧ (∃ (port : Fin 4) (present : Bool) (u : State) (v : State) (s : State),
      s.on (DSP_P_STAT__ATTACHED port) ≠ present ∧ (u = (((s.setB (DSP_P_STAT__ATTACHED port) present).raise (if present then DSP_P_ERR__HPD_GAIN port else DSP_P_ERR__HPD_LOSS port)).bumpEvt .dsp (DSP_P_HPD_CNT port)).log .dsp evDspHotplug (0x6000 + port.val) (b2n present)) ∧ (v = (match (u.dpt port).tg with | some t => u.pendIf (DSP_TG_IRQ__PEND t) 0 (u.on (DSP_TG_IRQ__HPD t)) (18 + t) | none => u)) ∧ (present = true ∨ port.val < 2 ∨ v.portState port ≠ 1 ∧ v.portState port ≠ 2))
    ∧ (∃ (port : Fin 4) (u : State) (v : State) (w : State) (s : State),
      s.on (DSP_P_STAT__ATTACHED port) = true ∧ u = (((s.setB (DSP_P_STAT__ATTACHED port) false).raise (DSP_P_ERR__HPD_LOSS port)).bumpEvt .dsp (DSP_P_HPD_CNT port)).log .dsp evDspHotplug (0x6000 + port.val) 0 ∧ (v = (match (u.dpt port).tg with | some t => u.pendIf (DSP_TG_IRQ__PEND t) 0 (u.on (DSP_TG_IRQ__HPD t)) (18 + t) | none => u)) ∧ 2 ≤ port.val ∧ (v.portState port = 1 ∨ v.portState port = 2) ∧ (w = (if v.portState port = 1 then v.endEnable port (refuse stState 0x8006) else v)))
    ∧ (∃ (port : Fin 4) (present : Bool) (s : State),
      s.on (DSP_P_STAT__ATTACHED port) = present) :=
  ⟨⟨timingPkt, 0, _, State.reset, by refine ⟨?_, ?_, rfl, ?_, ?_, ?_, ?_⟩ <;> decide +kernel⟩,
    ⟨timingPkt, 0, _, State.reset.modTg 0 (fun _ => (timingOf timingPkt).getD {}), by refine ⟨?_, ?_, rfl, ?_, ?_⟩ <;> decide +kernel⟩,
    ⟨timingPkt, 0, _, (State.reset.modDpt 0 (fun d => { d with tg := some 0 })).setF (DSP_P_STAT__STATE 0) 2, by refine ⟨?_, ?_, rfl, ?_, ?_, ?_⟩ <;> decide +kernel⟩,
    ⟨pkt 0x6010 (List.replicate 12 0), _, State.reset, by refine ⟨?_, rfl, ?_⟩ <;> decide +kernel⟩,
    ⟨pkt 0 [0xFFF0, 0xFFFF, 0, 0], [some 0, none, none, none], [none, none, none, none], _, _, State.reset, by refine ⟨?_, ?_, ?_, ?_, ?_, ?_, ?_, ?_, rfl, rfl⟩ <;> decide +kernel⟩,
    ⟨pkt 0x6000 [], State.reset, by decide⟩,
    ⟨pkt 0x6000 [0, 0, 0, 0], 0, 0, _, (State.reset.modTg 0 (fun g => { g with set := true, sdi := true, soft := { g.soft with vmin := 45, vmax := 45 } })).modDpt 0 (fun d => { d with tg := some 0 }), by refine ⟨?_, ?_, ?_, ?_, ?_, ?_, ?_, ?_, (fun h => absurd h (by decide)), rfl⟩ <;> decide +kernel⟩,
    ⟨dsiPkt, 2, 0, _, dsiReady, by refine ⟨?_, ?_, ?_, ?_, ?_, ?_, ?_, ?_, ?_, ?_, ?_, ?_, ?_, rfl⟩ <;> decide +kernel⟩,
    ⟨pkt 0x6000 [0, 0, 0, 0], State.reset.setF (DSP_P_STAT__STATE 0) 2, by decide +kernel⟩,
    ⟨pkt 0x6000 [], _, State.reset, by exact ⟨by decide +kernel, rfl⟩⟩,
    ⟨pkt 0x6002 (List.replicate 40 0), [], State.reset.setF (DSP_P_STAT__STATE 2) 2, by decide +kernel⟩,
    ⟨pkt 0x6000 (List.replicate 132 0), List.replicate 256 0, _, State.reset, by refine ⟨?_, ?_, ?_, ?_, ?_, rfl⟩ <;> decide +kernel⟩,
    ⟨2, 0, [], ⟨0, 1, 0x0804, 0, 0⟩, 0, 0, [], [], _, State.reset.modDpt 2 (fun d => { d with dcs := [(⟨0, 1, 0x0804, 0, 0⟩, 0, [], 0)] }), by exact ⟨by decide +kernel, .inl (by decide +kernel), rfl⟩⟩,
    ⟨0, 0, [], true, State.reset, by decide +kernel⟩,
    ⟨2, true, _, _, State.reset, by refine ⟨?_, rfl, rfl, ?_⟩ <;> decide +kernel⟩,
    ⟨2, _, _, _, (State.reset.setB (DSP_P_STAT__ATTACHED 2) true).setF (DSP_P_STAT__STATE 2) 2, by refine ⟨?_, rfl, rfl, ?_, ?_, rfl⟩ <;> decide +kernel⟩,
    ⟨2, false, State.reset, by decide +kernel⟩⟩

theorem witness_AudioSettings :
    (∃ (p : Pkt) (u : State) (s : State),
      accepted 0x0900 p s = true ∧ (entered 0x0900 p s).audBusy p.idx = false ∧ (p.t 0 3 && p.t 0 4) = false ∧ 3 ≤ p.b 0 12 4 ∧ p.b 0 12 4 ≤ 12 ∧ (p.t 0 2 && p.b 0 8 4 != 15 && (decide (8 ≤ p.b 0 8 4) || p.b 0 8 4 == p.idx || (entered 0x0900 p s).audOut (p.b 0 8 4))) = false ∧ p.q 2 % 4096 = 0 ∧ p.q 2 + 2048 * 2 ^ p.b 0 12 4 ≤ (entered 0x0900 p s).wBytes ∧ u = (((entered 0x0900 p s).wn (AUD_P_CFG p.idx) (p.w 0 / 2 * 2 + 1)).wn (AUD_P_RING_LO p.idx) (p.w 2)).wn (AUD_P_RING_HI p.idx) (p.w 3))
    ∧ (∃ (p : Pkt) (s : State),
      accepted 0x0900 p s = true ∧ (entered 0x0900 p s).audBusy p.idx = true)
    ∧ (∃ (p : Pkt) (s : State),
      accepted 0x0901 p s = true ∧ p.b 1 0 2 ≠ 3 ∧ ((List.range 8).filter (bitAt (p.b 0 0 8))).any (entered 0x0901 p s).audBusy = false ∧ ((List.range 8).filter (bitAt (p.b 0 0 8))).any (fun q => !(entered 0x0901 p s).on (AUD_P_CFG__CONFIGURED q)) = false)
    ∧ (∃ (p : Pkt) (s : State),
      accepted 0x0901 p s = true ∧ p.b 1 0 2 ≠ 3 ∧ ((List.range 8).filter (bitAt (p.b 0 0 8))).any (entered 0x0901 p s).audBusy = true)
    ∧ (∃ (p : Pkt) (s : State),
      accepted 0x0902 p s = true ∧ (entered 0x0902 p s).on (AUD_P_STAT__RUN p.idx) = true)
    ∧ (∃ (p : Pkt) (s : State),
      accepted 0x0902 p s = true ∧ (entered 0x0902 p s).on (AUD_P_STAT__RUN p.idx) = false)
    ∧ (∃ (p : Pkt) (s : State),
      accepted 0x0903 p s = true ∧ ((entered 0x0903 p s).on (AUD_P_CFG__AES3 p.idx) && (entered 0x0903 p s).audOut p.idx && (entered 0x0903 p s).audHost p.idx) = true)
    ∧ (∃ (p : Pkt) (s : State),
      accepted 0x0904 p s = true) :=
  ⟨⟨pkt 0x7000 [0x3000, 0, 0, 0], _, State.reset, by refine ⟨?_, ?_, ?_, ?_, ?_, ?_, ?_, ?_, rfl⟩ <;> decide +kernel⟩,
    ⟨pkt 0x7000 [0x3000, 0, 0, 0], audIn, by decide +kernel⟩,
    ⟨pkt 0 [1, 0, 0, 0], State.reset.setB (AUD_P_CFG__CONFIGURED 0) true, by decide +kernel⟩,
    ⟨pkt 0 [1, 0, 0, 0], audIn, by decide +kernel⟩,
    ⟨pkt 0x7000 [], audIn, by decide +kernel⟩,
    ⟨pkt 0x7000 [], State.reset, by decide +kernel⟩,
    ⟨pkt 0x7000 (List.replicate 12 0), ((State.reset.setB (AUD_P_CFG__AES3 0) true).setB (AUD_P_CFG__DIR 0) true).setF (AUD_P_CFG__SOURCE 0) 15, by decide +kernel⟩,
    ⟨pkt 0x7000 [], State.reset, by decide⟩⟩

theorem witness_AudioRuns :
    (∃ (port : Fin 8) (ppm : Int) (s : State),
      (s.ap port).armed = true)
    ∧ (∃ (port : Fin 8) (ppm : Int) (u : State) (s : State),
      (s.ap port).armed = false ∧ s.on (AUD_P_STAT__RUN port) = true ∧ u = s.endBlock port ∧ (u.ap port).stopping.isSome = true)
    ∧ (∃ (port : Fin 8) (ppm : Int) (u : State) (v : State) (s : State),
      (s.ap port).armed = false ∧ s.on (AUD_P_STAT__RUN port) = true ∧ u = s.endBlock port ∧ (u.ap port).stopping = none ∧ (v = (if u.audExt port then u.wn (AUD_P_RATE_PPM port) (ofInt 32 ppm) else u)) ∧ (v.ap port).rateMute = none)
    ∧ (∃ (port : Fin 8) (ppm : Int) (n : Nat) (u : State) (v : State) (w : State) (s : State),
      (s.ap port).armed = false ∧ s.on (AUD_P_STAT__RUN port) = true ∧ u = s.endBlock port ∧ (u.ap port).stopping = none ∧ (v = (if u.audExt port then u.wn (AUD_P_RATE_PPM port) (ofInt 32 ppm) else u)) ∧ (v.ap port).rateMute = some n ∧ (w = (v.modAp port (fun q => { q with rateMute := if 2 ≤ (if -500 ≤ ppm ∧ ppm ≤ 500 then n + 1 else 0) then none else some (if -500 ≤ ppm ∧ ppm ≤ 500 then n + 1 else 0) })).showMute port))
    ∧ (∃ (port : Fin 8) (s : State),
      s.audOut port = true ∧ s.audHost port = true ∧ (s.ap port).fetched = none ∧ s.on (AUD_P_STAT__RUN port) = true)
    ∧ (∃ (port : Fin 8) (s : State),
      s.audOut port = true ∧ s.audHost port = true ∧ (s.ap port).fetched = none ∧ s.on (AUD_P_STAT__RUN port) = false ∧ ((s.ap port).armed = true ∨ s.aud.starts.any (fun x => bitAt x.mask port.val) = true))
    ∧ (∃ (port : Fin 8) (slotA : W32) (slotB : W32) (full : Bool) (zero : Bool) (f : AudFrame) (kept : AudFrame) (par : Nat) (u : State) (v : State) (w : State) (s : State),
      s.on (AUD_P_STAT__RUN port) = true ∧ s.audOut port = false ∧ (s.ap port).frames.length < 192 ∧ (f = (if s.on (AUD_P_CFG__AES3 port) then ⟨aesSub slotA.toNat, aesSub slotB.toNat⟩ else ⟨i2sSub slotA.toNat, i2sSub slotB.toNat⟩)) ∧ zero = (full || (s.ap port).glitched || (s.ap port).rateMute.isSome || s.on (AUD_P_STAT__HOLDOVER port)) ∧ (u = (if full then (s.audErr port (AUD_P_ERR__OVERRUN port)).audFlag port 2 else s)) ∧ (v = (if (full && !(s.ap port).ovr) then (u.bumpStat (AUD_P_OVR_CNT port)).log .aud evAudOverrun (audTarget port) (u.ap port).k else u)) ∧ (par = (if zero then 0 else b2n f.a.p + b2n f.b.p)) ∧ (w = (if par = 0 then v else ((v.audErr port (AUD_P_ERR__PARITY port)).audFlag port 8).bumpStat (AUD_P_PARITY_CNT port) par)) ∧ (kept = (if zero then {} else f)))
    ∧ (∃ (port : Fin 8) (slotA : W32) (slotB : W32) (full : Bool) (s : State),
      (s.on (AUD_P_STAT__RUN port) = false ∨ s.audOut port = true ∨ 192 ≤ (s.ap port).frames.length))
    ∧ (∃ (port : Fin 8) (s : State),
      s.on (AUD_P_STAT__RUN port) = true ∧ s.audExt port = true ∧ s.on (AUD_P_STAT__HOLDOVER port) = false)
    ∧ (∃ (port : Fin 8) (t : State) (u : State) (s : State),
      s.on (AUD_P_STAT__RUN port) = true ∧ s.audExt port = true ∧ t = (s.modAp port (fun q => { q with glitched := true })).bumpStat (AUD_P_GLITCH_CNT port) ∧ (u = (if t.audOut port then t.emit (.audioMuted port) else t)))
    ∧ (∃ (port : Fin 8) (ppm : Int) (t : State) (u : State) (s : State),
      s.on (AUD_P_STAT__RUN port) = true ∧ s.audExt port = true ∧ ppm = sext 32 (s.rn (AUD_P_RATE_PPM port)) ∧ (ppm < -1000 ∨ 1000 < ppm) ∧ t = (s.modAp port (fun q => { q with rateMute := some 0 })).showMute port ∧ (u = ((if t.audOut port then t.emit (.audioMuted port) else t).audErr port (AUD_P_ERR__RATE_ERR port)).audFlag port 6))
    ∧ (∃ (port : Fin 8) (s : State),
      s.on (AUD_P_STAT__RUN port) = false) :=
  ⟨⟨0, 0, State.reset.modAp 0 (fun q => { q with armed := true }), by decide +kernel⟩,
    ⟨0, 0, _, audIn.modAp 0 (fun q => { q with stopping := some ⟨0, 1, 0x0902, 0, 0⟩ }), by refine ⟨?_, ?_, rfl, ?_⟩ <;> decide +kernel⟩,
    ⟨0, 0, _, _, audIn, by refine ⟨?_, ?_, rfl, ?_, rfl, ?_⟩ <;> decide +kernel⟩,
    ⟨0, 0, 0, _, _, _, audIn.modAp 0 (fun q => { q with rateMute := some 0 }), by refine ⟨?_, ?_, rfl, ?_, rfl, ?_, rfl⟩ <;> decide +kernel⟩,
    ⟨0, (audIn.setB (AUD_P_CFG__DIR 0) true).setF (AUD_P_CFG__SOURCE 0) 15, by decide +kernel⟩,
    ⟨0, (((State.reset.setB (AUD_P_CFG__CONFIGURED 0) true).setB (AUD_P_CFG__DIR 0) true).setF (AUD_P_CFG__SOURCE 0) 15).modAp 0 (fun q => { q with armed := true }), by decide +kernel⟩,
    ⟨0, 0, 0, false, false, _, _, _, _, _, _, audIn, by refine ⟨?_, ?_, ?_, rfl, ?_, rfl, rfl, rfl, rfl, rfl⟩ <;> decide +kernel⟩,
    ⟨0, 0, 0, true, State.reset, by decide +kernel⟩,
    ⟨0, audAes, by decide +kernel⟩,
    ⟨0, _, _, audAes, by refine ⟨?_, ?_, rfl, rfl⟩ <;> decide +kernel⟩,
    ⟨0, 2000, _, _, audAes.wn (AUD_P_RATE_PPM 0) 2000, by refine ⟨?_, ?_, ?_, ?_, rfl, rfl⟩ <;> decide +kernel⟩,
    ⟨0, State.reset, by decide +kernel⟩⟩

theorem witness_Time :
    (∃ (master : Byte) (s : State),
      s.shut master = false)
    ∧ (∃ (master : Byte) (s : State),
      s.shut master = true)
    ∧ (∃ (p : Pkt) (s : State),
      accepted 0x0A02 p s = true)
    ∧ (∃ (p : Pkt) (s : State),
      accepted 0x0A00 p s = true ∧ 0x154FDF3B6 ≤ p.q 0 ∧ p.q 0 ≤ 0x155ACB6F4)
    ∧ (∃ (p : Pkt) (s : State),
      accepted 0x0A00 p s = true ∧ (p.q 0 < 0x154FDF3B6 ∨ 0x155ACB6F4 < p.q 0))
    ∧ (∃ (p : Pkt) (s : State),
      accepted 0x0A03 p s = true ∧ 1000000 * 0x100000000 ≤ p.q 3 ∧ p.q 3 ≤ 2000000000 * 0x100000000 ∧ ((entered 0x0A03 p s).fcg (p.b 0 0 2)).live.en = false)
    ∧ (∃ (p : Pkt) (s : State),
      accepted 0x0A03 p s = true ∧ 1000000 * 0x100000000 ≤ p.q 3 ∧ p.q 3 ≤ 2000000000 * 0x100000000 ∧ ((entered 0x0A03 p s).fcg (p.b 0 0 2)).live.en = true)
    ∧ (∃ (p : Pkt) (s : State),
      accepted 0x0A03 p s = true ∧ (p.q 3 < 1000000 * 0x100000000 ∨ 2000000000 * 0x100000000 < p.q 3))
    ∧ (∃ (fcg : Fin 4) (s : State),
      ((s.fcg fcg).live.en = false ∨ (s.nowFx : Int) < (s.fcg fcg).live.at_ (s.fcg fcg).k))
    ∧ (∃ (fcg : Fin 4) (u : State) (v : State) (s : State),
      (s.fcg fcg).live.en = true ∧ (s.fcg fcg).live.at_ (s.fcg fcg).k ≤ (s.nowFx : Int) ∧ (s.fcg fcg).next = none ∧ u = (s.bumpEvt .tim (FCG_TICK_CNT fcg)).modFcg fcg (fun q => { q with last := some ((s.fcg fcg).live.at_ (s.fcg fcg).k) }) ∧ v = (((u.modFcg fcg (fun q => { q with k := q.k + 1 })).fcgShow fcg).trgTick fcg).fcgCmp fcg)
    ∧ (∃ (fcg : Fin 4) (c : FcgCfg) (u : State) (v : State) (s : State),
      (s.fcg fcg).live.en = true ∧ (s.fcg fcg).live.at_ (s.fcg fcg).k ≤ (s.nowFx : Int) ∧ (s.fcg fcg).next = some c ∧ u = (s.bumpEvt .tim (FCG_TICK_CNT fcg)).modFcg fcg (fun q => { q with last := some ((s.fcg fcg).live.at_ (s.fcg fcg).k) }) ∧ v = ((u.fcgApply fcg c).trgTick fcg).fcgCmp fcg) :=
  ⟨⟨1, State.reset, by decide +kernel⟩,
    ⟨0, State.reset, by decide +kernel⟩,
    ⟨pkt 0 [], State.reset, by decide⟩,
    ⟨pkt 0 [0x55555555, 1, 0, 0], State.reset, by decide +kernel⟩,
    ⟨pkt 0 [0, 0, 0, 0], State.reset, by decide +kernel⟩,
    ⟨pkt 0 [0x10, 0, 0, 0, 1000000, 0, 0, 0], State.reset, by decide +kernel⟩,
    ⟨pkt 0 [0x10, 0, 0, 0, 1000000, 0, 0, 0], fcgOn, by decide +kernel⟩,
    ⟨pkt 0 [0, 0, 0, 0, 0, 0, 0, 0], State.reset, by decide +kernel⟩,
    ⟨0, State.reset, by decide +kernel⟩,
    ⟨0, _, _, fcgOn, by refine ⟨?_, ?_, ?_, rfl, rfl⟩ <;> decide +kernel⟩,
    ⟨0, {}, _, _, fcgOn.modFcg 0 (fun f => { f with next := some {} }), by refine ⟨?_, ?_, ?_, rfl, rfl⟩ <;> decide +kernel⟩⟩

theorem witness_StepLimit :
    (∃ (p : Pkt) (d : Int) (whole : Nat) (s : State),
      accepted 0x0A01 p s = true ∧ (d = (if p.t 0 1 then short96 ((p.w 2 * 0x10000000000000000 + p.w 1 * 0x100000000 + p.w 3 : Nat) -
          (((s.nowFx + s.addend : Nat) : Int) % 2 ^ 96)) else sext 64 (p.q 1) * 0x100000000)) ∧ s.rn TIM_STEP_LIMIT * 0x100000000 < d.natAbs ∧ p.t 0 0 = false ∧ whole = ofInt 64 (d / 0x100000000))
    ∧ (∃ (p : Pkt) (tick : Int) (d : Int) (whole : Nat) (u : State) (v : State) (s : State),
      accepted 0x0A01 p s = true ∧ tick = ((s.nowFx + s.addend : Nat) : Int) % 2 ^ 96 ∧ (d = (if p.t 0 1 then short96 ((p.w 2 * 0x10000000000000000 + p.w 1 * 0x100000000 + p.w 3 : Nat) - tick)
          else sext 64 (p.q 1) * 0x100000000)) ∧ (d.natAbs ≤ s.rn TIM_STEP_LIMIT * 0x100000000 ∨ p.t 0 0 = true) ∧ whole = ofInt 64 (d / 0x100000000) ∧ (v = (if p.t 0 0 then s.raise TIM_ERR__FORCED else s)) ∧ u = (((v.laneTicks 1).putTime (((tick + d) % 2 ^ 96).toNat) (decide (d + v.addend < 0))).bumpEvt .tim TIM_STEP_CNT).stepConsumers d) :=
  ⟨⟨pkt 0 [0, 0x10000000, 0, 0], 0x1000000000000000, _, State.reset, by refine ⟨?_, ?_, ?_, ?_, rfl⟩ <;> decide +kernel⟩,
    ⟨pkt 0 [1, 0, 1, 0], _, _, _, _, _, State.reset, by refine ⟨?_, rfl, rfl, ?_, rfl, rfl, rfl⟩ <;> decide +kernel⟩⟩

theorem witness_NetworkSettings :
    (∃ (p : Pkt) (u : State) (v : State) (s : State),
      accepted 0x0A04 p s = true ∧ (entered 0x0A04 p s).net.up = false ∧ (p.t 0 1 && !p.t 0 0) = false ∧ 42 ≤ p.b 0 16 14 ∧ p.b 0 16 14 ≤ 9000 ∧ ([35, 38, 41].all ((entered 0x0A04 p s).netRingOk p)) = true ∧ u = (((entered 0x0A04 p s).setB NET_STAT__SPEED (p.t 0 0)).setB NET_STAT__FEC (p.t 0 1)).modNet (fun n => { n with
            configured := true, promisc := p.t 0 2, mtu := p.b 0 16 14, mac := p.w 1 + p.b 2 0 16 * 0x100000000
            mcast := (List.range 16).map (fun i => p.w (3 + 2 * i) + p.b (3 + 2 * i + 1) 0 16 * 0x100000000)
            tail := [0, 0, 0], tx := [none, none] }) ∧ v = [0, 1, 2].foldl (fun v q => (((v.wn (NET_R_BASE_LO q) (p.w (35 + 3 * q))).wn (NET_R_BASE_HI q) (p.w (35 + 3 * q + 1))).wn (NET_R_CFG q)
          (p.w (35 + 3 * q + 2))).wn (NET_R_HEAD q) 0) u)
    ∧ (∃ (p : Pkt) (s : State),
      accepted 0x0A04 p s = true ∧ (entered 0x0A04 p s).net.up = true)
    ∧ (∃ (p : Pkt) (s : State),
      accepted 0x0A04 p s = true ∧ (entered 0x0A04 p s).net.up = false ∧ ((p.t 0 1 && !p.t 0 0) = true ∨ p.b 0 16 14 < 42 ∨ 9000 < p.b 0 16 14 ∨ ([35, 38, 41].all ((entered 0x0A04 p s).netRingOk p)) = false))
    ∧ (∃ (p : Pkt) (s : State),
      accepted 0x0A06 p s = true ∧ (entered 0x0A06 p s).net.configured = true)
    ∧ (∃ (p : Pkt) (s : State),
      accepted 0x0A06 p s = true ∧ (entered 0x0A06 p s).net.configured = false)
    ∧ (∃ (p : Pkt) (s : State),
      accepted 0x0A05 p s = true ∧ (entered 0x0A05 p s).net.configured = false)
    ∧ (∃ (p : Pkt) (s : State),
      accepted 0x0A05 p s = true ∧ (entered 0x0A05 p s).net.configured = true ∧ p.t 0 0 = true ∧ (((entered 0x0A05 p s).analogue 2).isSome || ((entered 0x0A05 p s).analogue 3).isSome) = true)
    ∧ (∃ (p : Pkt) (s : State),
      accepted 0x0A05 p s = true ∧ (entered 0x0A05 p s).net.configured = true ∧ p.t 0 0 = false)
    ∧ (∃ (p : Pkt) (s : State),
      accepted 0x0A05 p s = true ∧ (entered 0x0A05 p s).net.configured = true ∧ p.t 0 0 = true ∧ (((entered 0x0A05 p s).analogue 2).isSome || ((entered 0x0A05 p s).analogue 3).isSome) = false ∧ ((entered 0x0A05 p s).setB NET_STAT__LOOP (p.t 0 1)).on NET_STAT__LINK = false)
    ∧ (∃ (p : Pkt) (s : State),
      accepted 0x0A05 p s = true ∧ (entered 0x0A05 p s).net.configured = true ∧ p.t 0 0 = true ∧ (((entered 0x0A05 p s).analogue 2).isSome || ((entered 0x0A05 p s).analogue 3).isSome) = false ∧ ((entered 0x0A05 p s).setB NET_STAT__LOOP (p.t 0 1)).on NET_STAT__LINK = true) :=
  ⟨⟨pkt 0 ([1500 * 65536] ++ List.replicate 36 0 ++ [4, 0, 0, 4, 0, 0, 4]), _, _, State.reset, by refine ⟨?_, ?_, ?_, ?_, ?_, ?_, rfl, rfl⟩ <;> decide +kernel⟩,
    ⟨pkt 0 (List.replicate 44 0), netOn, by decide +kernel⟩,
    ⟨pkt 0 (List.replicate 44 0), State.reset, by decide +kernel⟩,
    ⟨pkt 0 [1, 2, 0, 0], netSet, by decide +kernel⟩,
    ⟨pkt 0 [1, 2, 0, 0], State.reset, by decide +kernel⟩,
    ⟨pkt 0 [1, 0, 0, 0], State.reset, by decide +kernel⟩,
    ⟨pkt 0 [1, 0, 0, 0], { netSet with tst := { netSet.tst with run := some ⟨1, 0, 2, 0, 0, 0, false, 0, true, none, []⟩ } }, by decide +kernel⟩,
    ⟨pkt 0 [0, 0, 0, 0], netSet, by decide +kernel⟩,
    ⟨pkt 0 [1, 0, 0, 0], netSet, by decide +kernel⟩,
    ⟨pkt 0 [1, 0, 0, 0], netOn, by decide +kernel⟩⟩

theorem witness_NetworkFrames :
    (∃ (ring : Fin 3) (v : W32) (fetch : List NetFetch) (t : Nat) (m : Nat) (ahead : Nat) (s : State) (u : State),
      t = v.toNat % 0x2000 ∧ m = 2 * s.netN ring ∧ ahead = (t + m - s.f (NET_R_HEAD__HEAD ring) % m) % m ∧ s.shut 0 = false ∧ s.net.configured = true ∧ t < m ∧ ahead ≤ s.netN ring ∧ s.netWaiting ring ≤ ahead ∧ u = s.modNet (fun n => { n with tail := n.tail.set ring t }))
    ∧ (∃ (ring : Fin 3) (v : W32) (fetch : List NetFetch) (t : Nat) (m : Nat) (ahead : Nat) (s : State),
      t = v.toNat % 0x2000 ∧ m = 2 * s.netN ring ∧ ahead = (t + m - s.f (NET_R_HEAD__HEAD ring) % m) % m ∧ (s.shut 0 = true ∨ s.net.configured = false ∨ m ≤ t ∨ s.netN ring < ahead ∨ ahead < s.netWaiting ring))
    ∧ (∃ (t : TxFrame) (s : State),
      s.net.tx.getD 0 none = some t)
    ∧ (∃ (s : State),
      s.net.tx.getD 0 none = none)
    ∧ (∃ (queue : Fin 2) (fetch : List NetFetch) (s : State),
      s.net.tx.getD queue none = none)
    ∧ (∃ (queue : Fin 2) (fetch : List NetFetch) (t : TxFrame) (s : State),
      s.net.tx.getD queue none = some t ∧ s.mayLeave queue t = false)
    ∧ (∃ (queue : Fin 2) (fetch : List NetFetch) (t : TxFrame) (data : List Byte) (s : State) (u : State),
      s.net.tx.getD queue none = some t ∧ s.mayLeave queue t = true ∧ (data = (if bitAt (txFlags t.desc) 1 then oneStep t.desc t.data (s.netStamp s.net.txAdj) else t.data)) ∧ (u = ((s.emit (.netFrame (data ++ List.replicate (60 - data.length) 0))).bumpEvt .net NET_TX_CNT).netBack queue
          (txBack t.desc (if txFlags t.desc % 4 = 0 then 0 else s.netStamp s.net.txAdj) 0 (b2n (t.stepped && bitAt (txFlags t.desc) 1) + 2 * b2n t.lateLaunch))))
    ∧ (∃ (frame : List Byte) (fcsOk : Bool) (desc : HostRead) (s : State),
      s.on NET_STAT__LINK = false)
    ∧ (∃ (frame : List Byte) (desc : HostRead) (s : State),
      s.on NET_STAT__LINK = true)
    ∧ (∃ (frame : List Byte) (desc : HostRead) (s : State),
      s.on NET_STAT__LINK = true ∧ beNat ((frame.drop 12).take 2) = 0x8808)
    ∧ (∃ (frame : List Byte) (desc : HostRead) (s : State),
      s.on NET_STAT__LINK = true ∧ beNat ((frame.drop 12).take 2) ≠ 0x8808 ∧ (frame.length < 60 ∨ s.net.mtu + 18 < frame.length ∨ s.netAccepts frame = false ∨ s.netWaiting 2 = 0))
    ∧ (∃ (frame : List Byte) (desc : HostRead) (s : State),
      s.on NET_STAT__LINK = true ∧ beNat ((frame.drop 12).take 2) ≠ 0x8808 ∧ 60 ≤ frame.length ∧ frame.length ≤ s.net.mtu + 18 ∧ s.netAccepts frame = true ∧ 0 < s.netWaiting 2 ∧ s.netRead 2 (s.netAddr 2) 32 desc = none)
    ∧ (∃ (frame : List Byte) (desc : HostRead) (d : List Byte) (s : State),
      s.on NET_STAT__LINK = true ∧ beNat ((frame.drop 12).take 2) ≠ 0x8808 ∧ 60 ≤ frame.length ∧ frame.length ≤ s.net.mtu + 18 ∧ s.netAccepts frame = true ∧ 0 < s.netWaiting 2 ∧ s.netRead 2 (s.netAddr 2) 32 desc = some d ∧ descF d 8 2 < frame.length)
    ∧ (∃ (frame : List Byte) (desc : HostRead) (d : List Byte) (s : State),
      s.on NET_STAT__LINK = true ∧ beNat ((frame.drop 12).take 2) ≠ 0x8808 ∧ 60 ≤ frame.length ∧ frame.length ≤ s.net.mtu + 18 ∧ s.netAccepts frame = true ∧ 0 < s.netWaiting 2 ∧ s.netRead 2 (s.netAddr 2) 32 desc = some d ∧ frame.length ≤ descF d 8 2 ∧ s.refOk (s.netRef 2 (descF d 0 8) frame.length) = false)
    ∧ (∃ (frame : List Byte) (desc : HostRead) (d : List Byte) (da : Nat) (fl : Nat) (stamp : Nat) (s : State) (u : State),
      s.on NET_STAT__LINK = true ∧ beNat ((frame.drop 12).take 2) ≠ 0x8808 ∧ 60 ≤ frame.length ∧ frame.length ≤ s.net.mtu + 18 ∧ s.netAccepts frame = true ∧ 0 < s.netWaiting 2 ∧ s.netRead 2 (s.netAddr 2) 32 desc = some d ∧ frame.length ≤ descF d 8 2 ∧ s.refOk (s.netRef 2 (descF d 0 8) frame.length) = true ∧ da = leNat (frame.take 6) ∧ fl = b2n (isPtp frame) + 2 * b2n (typeOfs frame == 16) + 4 * b2n (da % 2 == 1 && da != 0xFFFFFFFFFFFF)
          + 8 * b2n (da == 0xFFFFFFFFFFFF) ∧ stamp = s.netStamp s.net.rxAdj ∧ u = (s.writeRef (s.netRef 2 (descF d 0 8) frame.length) frame).netBack 2 (padBytes 8 d ++ leBytes 2 frame.length ++
          leBytes 2 fl ++ leBytes 4 (stamp / 0x100000000) ++ leBytes 4 (stamp / 0x10000000000000000) ++ leBytes 2 (stamp / 0x10000))) :=
  ⟨⟨0, 1, [], _, _, _, { netSet with dev := { netSet.dev with ready := true } }, _, by refine ⟨rfl, rfl, rfl, ?_, ?_, ?_, ?_, ?_, rfl⟩ <;> decide +kernel⟩,
    ⟨0, 1, [], _, _, _, State.reset, by exact ⟨rfl, rfl, rfl, by decide +kernel⟩⟩,
    ⟨txHead, netOn.modNet (fun n => { n with tx := [some txHead, none] }), by decide +kernel⟩,
    ⟨State.reset, by decide +kernel⟩,
    ⟨0, [], State.reset, by decide +kernel⟩,
    ⟨0, [], txHead, State.reset.modNet (fun n => { n with tx := [some txHead, none] }), by decide +kernel⟩,
    ⟨0, [], txHead, _, netOn.modNet (fun n => { n with tx := [some txHead, none] }), _, by refine ⟨?_, ?_, rfl, rfl⟩ <;> decide +kernel⟩,
    ⟨[], true, .bytes [], State.reset, by decide +kernel⟩,
    ⟨[], .bytes [], netOn, by decide +kernel⟩,
    ⟨List.replicate 12 0 ++ [0x88, 8], .bytes [], netOn, by decide +kernel⟩,
    ⟨[], .bytes [], netOn, by decide +kernel⟩,
    ⟨List.replicate 60 0, .failed 0 false, netOn.modNet (fun n => { n with promisc := true, tail := [0, 0, 1] }), by decide +kernel⟩,
    ⟨List.replicate 60 0, .bytes (List.replicate 32 0), List.replicate 32 0, netOn.modNet (fun n => { n with promisc := true, tail := [0, 0, 1] }), by decide +kernel⟩,
    ⟨List.replicate 60 0, .bytes [], List.replicate 32 255, ((netOn.setB (NET_R_CFG__SPACE 2) true).modNet (fun n => { n with promisc := true, tail := [0, 0, 1] })).writeMem 0 (List.replicate 32 255), by decide +kernel⟩,
    ⟨List.replicate 60 0, .bytes (List.replicate 32 255), List.replicate 32 255, _, _, _, netOn.modNet (fun n => { n with promisc := true, tail := [0, 0, 1] }), _, by refine ⟨?_, ?_, ?_, ?_, ?_, ?_, ?_, ?_, ?_, rfl, rfl, rfl, rfl⟩ <;> decide +kernel⟩⟩

theorem witness_Deflate :
    (∃ (p : Pkt) (u : State) (s : State),
      accepted 0x0B00 p s = true ∧ (¬ ((dflInflate (p.w 0) = false ∧ (dflLevel (p.w 0) < 1 ∨ 9 < dflLevel (p.w 0))) ∨ dflFrame (p.w 0) = 3 ∨ dflHuff (p.w 0) = 3 ∨ dflCheck (p.w 0) = 3 ∨ (dflFrame (p.w 0) ≠ 0 ∧ dflCheck (p.w 0) ≠ 0))) ∧ ((p.ref 12).len = 0 ∨ (p.ref 12).len = 40960) ∧ s.refOk (p.ref 4) = true ∧ s.refOk (p.ref 8) = true ∧ s.refOk (p.ref 12) = true ∧ s.refOk (p.ref 16) = true ∧ 32 ≤ (p.ref 16).len ∧ s.dflTag (p.b 1 0 16) = false ∧ s.dfl.queue.length < 64 ∧ u = (s.modDfl (fun d => { d with
            queue := d.queue ++ [⟨s.dfl.nextId, p.w 0, p.b 1 0 16, false, ((p.ref 4).addr, (p.ref 4).len, (p.ref 4).space), ((p.ref 8).addr,
              (p.ref 8).len, (p.ref 8).space), ((p.ref 12).addr, (p.ref 12).len, (p.ref 12).space), ((p.ref 16).addr, (p.ref 16).len, (p.ref 16).space)⟩]
            nextId := d.nextId + 1 })).arrive (.dfl s.dfl.nextId))
    ∧ (∃ (p : Pkt) (s : State),
      accepted 0x0B00 p s = true ∧ ((dflInflate (p.w 0) = false ∧ (dflLevel (p.w 0) < 1 ∨ 9 < dflLevel (p.w 0))) ∨ dflFrame (p.w 0) = 3 ∨ dflHuff (p.w 0) = 3 ∨ dflCheck (p.w 0) = 3 ∨ (dflFrame (p.w 0) ≠ 0 ∧ dflCheck (p.w 0) ≠ 0)))
    ∧ (∃ (p : Pkt) (u : State) (s : State),
      accepted 0x0B01 p s = true ∧ ((p.ref 12).len = 0 ∨ (p.ref 12).len = 40960) ∧ s.refOk (p.ref 4) = true ∧ s.refOk (p.ref 8) = true ∧ s.refOk (p.ref 12) = true ∧ s.refOk (p.ref 16) = true ∧ 32 ≤ (p.ref 16).len ∧ s.dflTag (p.b 1 0 16) = false ∧ s.dfl.queue.length < 64 ∧ u = (s.modDfl (fun d => { d with
            queue := d.queue ++ [⟨s.dfl.nextId, p.w 0, p.b 1 0 16, true, ((p.ref 4).addr, (p.ref 4).len, (p.ref 4).space), ((p.ref 8).addr,
              (p.ref 8).len, (p.ref 8).space), ((p.ref 12).addr, (p.ref 12).len, (p.ref 12).space), ((p.ref 16).addr, (p.ref 16).len, (p.ref 16).space)⟩]
            nextId := d.nextId + 1 })).arrive (.dfl s.dfl.nextId))
    ∧ (∃ (p : Pkt) (j : DflJob) (s : State),
      accepted 0x0B02 p s = true ∧ s.dfl.queue.find? (fun j => j.tag == p.b 0 0 16) = some j)
    ∧ (∃ (p : Pkt) (s : State),
      accepted 0x0B02 p s = true ∧ s.dfl.queue.find? (fun j => j.tag == p.b 0 0 16) = none ∧ (List.range 2).findSome? (fun e => ((s.dfl.engine.getD e none).filter (fun r => r.job.tag == p.b 0 0 16)).map (fun r => (e, r))) = none)
    ∧ (∃ (p : Pkt) (e : Nat) (r : DflRun) (d : W32 × State) (q : DflRes × List Byte × Nat × List (Nat × Nat)) (n : Nat) (c : W32 × State) (v : State) (u : State) (s : State),
      accepted 0x0B02 p s = true ∧ s.dfl.queue.find? (fun j => j.tag == p.b 0 0 16) = none ∧ (List.range 2).findSome? (fun e => ((s.dfl.engine.getD e none).filter (fun r => r.job.tag == p.b 0 0 16)).map (fun r => (e, r))) = some (e, r) ∧ d = s.draw ∧ q = d.2.dflResult r ∧ n = min q.2.1.length (4096 * (d.1.toNat / 2 % (q.2.1.length / 4096 + 1))) ∧ c = d.2.draw ∧ v = (c.2.writeChain (refOf r.job.dst).space q.2.2.2 (q.2.1.take n)).modDfl (fun d => { d with engine := d.engine.set e none }) ∧ (u = v.draw.2.dflRecord r.job {
            status := dsAborted, consumed := min q.1.consumed c.1.toNat, produced := q.1.produced - (q.2.1.length - n)
            check := v.draw.1.toNat } false (if bitAt r.job.word 12 then chainUsed q.2.2.2 n else 0)))
    ∧ (∃ (p : Pkt) (j : DflJob) (s : State),
      accepted 0x0B03 p s = true ∧ s.dfl.queue.find? (fun j => j.tag == p.b 0 0 16) = some j)
    ∧ (∃ (p : Pkt) (s : State),
      accepted 0x0B03 p s = true ∧ s.dfl.queue.find? (fun j => j.tag == p.b 0 0 16) = none ∧ s.dflTag (p.b 0 0 16) = false)
    ∧ (∃ (p : Pkt) (a : W32 × State) (b : W32 × State) (s : State),
      accepted 0x0B03 p s = true ∧ s.dfl.queue.find? (fun j => j.tag == p.b 0 0 16) = none ∧ s.dflTag (p.b 0 0 16) = true ∧ a = s.draw ∧ b = a.2.draw)
    ∧ (∃ (j : DflJob) (t : List DflJob) (e : Nat) (src : HostRead) (list : HostRead) (st : HostRead) (s : State),
      s.dfl.queue = j :: t ∧ (List.range 2).find? (fun e => (s.dfl.engine.getD e none).isNone) = some e ∧ s.isAdmitted (.dfl j.id) = true ∧ s.dev.safe = false)
    ∧ (∃ (j : DflJob) (t : List DflJob) (src : HostRead) (list : HostRead) (st : HostRead) (s : State),
      s.dfl.queue = j :: t ∧ ((List.range 2).find? (fun e => (s.dfl.engine.getD e none).isNone) = none ∨ s.isAdmitted (.dfl j.id) = false ∨ s.dev.safe = true))
    ∧ (∃ (src : HostRead) (list : HostRead) (st : HostRead) (s : State),
      s.dfl.queue = [])
    ∧ (∃ (engine : Fin 2) (r : DflRun) (s : State),
      s.dfl.engine.getD engine none = some r)
    ∧ (∃ (engine : Fin 2) (s : State),
      s.dfl.engine.getD engine none = none)
    ∧ (∃ (tag : BitVec 16) (j : DflJob) (s : State),
      s.dfl.queue.find? (fun j => j.tag == tag.toNat) = some j ∧ s.f DFL_CTRL__DEFER_MS ≠ 0 ∧ s.isAdmitted (.dfl j.id) = false)
    ∧ (∃ (tag : BitVec 16) (s : State),
      s.dfl.queue.find? (fun j => j.tag == tag.toNat) = none)
    ∧ (∃ (tag : BitVec 16) (s : State),
      s.f DFL_CTRL__DEFER_MS = 0) :=
  ⟨⟨pkt 0 ([0x11, 0, 0, 0] ++ [0, 0, 16, 1, 0, 0, 16, 1, 0, 0, 0, 1, 0, 0, 32, 1]), _, State.reset, by refine ⟨?_, ?_, ?_, ?_, ?_, ?_, ?_, ?_, ?_, ?_, rfl⟩ <;> decide +kernel⟩,
    ⟨pkt 0 ([0, 0, 0, 0] ++ [0, 0, 16, 1, 0, 0, 16, 1, 0, 0, 0, 1, 0, 0, 32, 1]), State.reset, by decide +kernel⟩,
    ⟨pkt 0 ([0, 0, 0, 0] ++ [0, 0, 16, 1, 0, 0, 16, 1, 0, 0, 0, 1, 0, 0, 32, 1]), _, State.reset, by refine ⟨?_, ?_, ?_, ?_, ?_, ?_, ?_, ?_, ?_, rfl⟩ <;> decide +kernel⟩,
    ⟨pkt 0 [0, 0, 0, 0], job0, dflWait, by decide +kernel⟩,
    ⟨pkt 0 [0, 0, 0, 0], State.reset, by decide +kernel⟩,
    ⟨pkt 0 [0, 0, 0, 0], 0, ⟨job0, .bytes [], .bytes [], .bytes []⟩, _, _, _, _, _, _, dflBusy, by refine ⟨?_, ?_, ?_, rfl, rfl, rfl, rfl, rfl, rfl⟩ <;> decide +kernel⟩,
    ⟨pkt 0 [0, 0, 0, 0], job0, dflWait, by decide +kernel⟩,
    ⟨pkt 0 [0, 0, 0, 0], State.reset, by decide +kernel⟩,
    ⟨pkt 0 [0, 0, 0, 0], _, _, dflBusy, by refine ⟨?_, ?_, ?_, rfl, rfl⟩ <;> decide +kernel⟩,
    ⟨job0, [], 0, .bytes [], .bytes [], .bytes [], { dflWait with pwr := { dflWait.pwr with admitted := [.dfl 0] } }, by decide +kernel⟩,
    ⟨job0, [], .bytes [], .bytes [], .bytes [], dflWait, by decide +kernel⟩,
    ⟨.bytes [], .bytes [], .bytes [], State.reset, by decide +kernel⟩,
    ⟨0, ⟨job0, .bytes [], .bytes [], .bytes []⟩, dflBusy, by decide +kernel⟩,
    ⟨0, State.reset, by decide +kernel⟩,
    ⟨0, job0, dflWait.setF DFL_CTRL__DEFER_MS 5, by decide +kernel⟩,
    ⟨0, State.reset, by decide +kernel⟩,
    ⟨0, State.reset.setF DFL_CTRL__DEFER_MS 0, by decide +kernel⟩⟩

theorem witness_MemoryController :
    (∃ (chan : Fin 32) (wait : Bool) (k : Nat) (u : State) (s : State),
      (chan : Nat) < s.f DMC_STAT__CHANNELS ∧ s.f VQ_VPSTATE__VP < 2 ∧ u = s.setF DMC_STAT__REF_MULT (refMult (s.f DMC_STAT__BAND)) ∧ k = (u.dmc.chan.toList.getD chan {}).postponed)
    ∧ (∃ (chan : Fin 32) (wait : Bool) (s : State),
      (s.f DMC_STAT__CHANNELS ≤ chan ∨ 2 ≤ s.f VQ_VPSTATE__VP))
    ∧ (∃ (dpa : Nat) (corrected : Bool) (s : State),
      dpa < nominalSect s.dev.variant * 4096)
    ∧ (∃ (dpa : Nat) (fails : Bool) (corrected : Bool) (s : State),
      nominalSect s.dev.variant * 4096 ≤ dpa)
    ∧ (∃ (row : Fin 32) (v : Nat) (s : State),
      v = s.rn (DMC_SUSPECT row) ∧ s.on (DMC_SUSPECT__VALID row) = true ∧ s.dev.fwRun = true ∧ s.tst.records.any (fun q => q.kind == 4 && q.inst == bitsAt v 26 5 && q.addr == v % 0x400000) = false)
    ∧ (∃ (row : Fin 32) (v : Nat) (s : State),
      v = s.rn (DMC_SUSPECT row) ∧ (s.on (DMC_SUSPECT__VALID row) = false ∨ s.dev.fwRun = false ∨
          s.tst.records.any (fun q => q.kind == 4 && q.inst == bitsAt v 26 5 && q.addr == v % 0x400000) = true))
    ∧ (∃ (t : DmcTick) (u : State) (s : State),
      s.dev.ready = true ∧ u = ((((s.modCxl (fun c => { c with roWrite := false })).dmcServed t).budget t).ladderTick).overK)
    ∧ (∃ (t : DmcTick) (s : State),
      s.dev.ready = false) :=
  ⟨⟨0, true, _, _, State.reset, by refine ⟨?_, ?_, rfl, rfl⟩ <;> decide +kernel⟩,
    ⟨0, true, State.reset.setF VQ_VPSTATE__VP 2, by decide +kernel⟩,
    ⟨0, true, State.reset, by decide +kernel⟩,
    ⟨0x10000000000, true, true, State.reset, by decide +kernel⟩,
    ⟨0, _, { (State.reset.setB (DMC_SUSPECT__VALID 0) true) with dev := { State.reset.dev with fwRun := true } }, by refine ⟨rfl, ?_, ?_, ?_⟩ <;> decide +kernel⟩,
    ⟨0, _, State.reset, by refine ⟨rfl, ?_⟩; decide +kernel⟩,
    ⟨{}, _, { State.reset with dev := { State.reset.dev with ready := true } }, by exact ⟨by decide +kernel, rfl⟩⟩,
    ⟨{}, State.reset, by decide +kernel⟩⟩

theorem witness_PowerAndHousekeeping :
    (∃ (falling : Bool) (s : State),
      (falling = false ∨ s.dev.awaits = true))
    ∧ (∃ (s : State) (u : State),
      s.dev.awaits = false ∧ s.on PWR_STAT__VIN_LOW = false ∧ u = ((s.setB PWR_STAT__VIN_LOW true).raise PWR_ERR__VIN_LOW).log .pwr evPwrVinLow)
    ∧ (∃ (s : State),
      s.dev.awaits = false ∧ s.on PWR_STAT__VIN_LOW = true)
    ∧ (∃ (p : Pkt) (s : State),
      accepted 0x0C00 p s = true ∧ (p.b 0 0 18 = 0 ∨ (10000 ≤ p.b 0 0 18 ∧ p.b 0 0 18 ≤ 58000)) ∧ 6000 ≤ p.b 1 0 16 ∧ p.b 1 0 16 ≤ 48000)
    ∧ (∃ (p : Pkt) (s : State),
      accepted 0x0C00 p s = true ∧ ((p.b 0 0 18 ≠ 0 ∧ (p.b 0 0 18 < 10000 ∨ 58000 < p.b 0 0 18)) ∨ p.b 1 0 16 < 6000 ∨ 48000 < p.b 1 0 16))
    ∧ (∃ (p : Pkt) (s : State),
      accepted 0x0C03 p s = true)
    ∧ (∃ (p : Pkt) (s : State),
      accepted 0x0C04 p s = true)
    ∧ (∃ (v : Vector (BitVec 16) 16) (round : Nat) (vals : List Nat) (u : State) (s : State),
      s.dev.ready = true ∧ round = s.pwr.rounds ∧ vals = v.toList.map (·.toNat) ∧ u = ((List.range 16).foldl (fun u n => u.wn (PWR_HK_CH n) (vals.getD n 0 + 0x10000 * (round % 0x10000)))
          (s.modPwr (fun p => { p with rounds := round + 1 }))).noteRound (refOkay (vals.getD 15 0) && (railsOut vals).isEmpty) ∧ refOkay (vals.getD 15 0) = false)
    ∧ (∃ (v : Vector (BitVec 16) 16) (round : Nat) (vals : List Nat) (u : State) (w : State) (s : State),
      s.dev.ready = true ∧ round = s.pwr.rounds ∧ vals = v.toList.map (·.toNat) ∧ u = ((List.range 16).foldl (fun u n => u.wn (PWR_HK_CH n) (vals.getD n 0 + 0x10000 * (round % 0x10000)))
          (s.modPwr (fun p => { p with rounds := round + 1 }))).noteRound (refOkay (vals.getD 15 0) && (railsOut vals).isEmpty) ∧ refOkay (vals.getD 15 0) = true ∧ w = ((railsOut vals).filter (fun c => u.pwr.railOut.contains c)).foldl (fun w c => (w.pwrErr PWR_ERR__RAIL).enterSafe 1 c)
          (u.modPwr (fun p => { p with railOut := railsOut vals, hk := vals })) ∧ (sext 16 (vals.getD 0 0) < -400 ∨ 1200 < sext 16 (vals.getD 0 0)))
    ∧ (∃ (v : Vector (BitVec 16) 16) (round : Nat) (vals : List Nat) (u : State) (w : State) (s : State),
      s.dev.ready = true ∧ round = s.pwr.rounds ∧ vals = v.toList.map (·.toNat) ∧ u = ((List.range 16).foldl (fun u n => u.wn (PWR_HK_CH n) (vals.getD n 0 + 0x10000 * (round % 0x10000)))
          (s.modPwr (fun p => { p with rounds := round + 1 }))).noteRound (refOkay (vals.getD 15 0) && (railsOut vals).isEmpty) ∧ refOkay (vals.getD 15 0) = true ∧ w = ((railsOut vals).filter (fun c => u.pwr.railOut.contains c)).foldl (fun w c => (w.pwrErr PWR_ERR__RAIL).enterSafe 1 c)
          (u.modPwr (fun p => { p with railOut := railsOut vals, hk := vals })) ∧ -400 ≤ sext 16 (vals.getD 0 0) ∧ sext 16 (vals.getD 0 0) < 880)
    ∧ (∃ (v : Vector (BitVec 16) 16) (round : Nat) (vals : List Nat) (u : State) (w : State) (s : State),
      s.dev.ready = true ∧ round = s.pwr.rounds ∧ vals = v.toList.map (·.toNat) ∧ u = ((List.range 16).foldl (fun u n => u.wn (PWR_HK_CH n) (vals.getD n 0 + 0x10000 * (round % 0x10000)))
          (s.modPwr (fun p => { p with rounds := round + 1 }))).noteRound (refOkay (vals.getD 15 0) && (railsOut vals).isEmpty) ∧ refOkay (vals.getD 15 0) = true ∧ w = ((railsOut vals).filter (fun c => u.pwr.railOut.contains c)).foldl (fun w c => (w.pwrErr PWR_ERR__RAIL).enterSafe 1 c)
          (u.modPwr (fun p => { p with railOut := railsOut vals, hk := vals })) ∧ 880 ≤ sext 16 (vals.getD 0 0) ∧ sext 16 (vals.getD 0 0) ≤ 1200)
    ∧ (∃ (v : Vector (BitVec 16) 16) (s : State),
      s.dev.ready = false) :=
  ⟨⟨false, State.reset, by decide +kernel⟩,
    ⟨{ State.reset with dev := { State.reset.dev with awaits := false } }, _, by refine ⟨?_, ?_, rfl⟩ <;> decide +kernel⟩,
    ⟨({ State.reset with dev := { State.reset.dev with awaits := false } } : State).setB PWR_STAT__VIN_LOW true, by decide +kernel⟩,
    ⟨pkt 0 [0, 6000, 0, 0], State.reset, by decide +kernel⟩,
    ⟨pkt 0 [1, 6000, 0, 0], State.reset, by decide +kernel⟩,
    ⟨pkt 0 [], State.reset, by decide⟩,
    ⟨pkt 0 [], State.reset, by decide⟩,
    ⟨(Vector.replicate 16 0), _, _, _, devReady, by refine ⟨?_, rfl, rfl, rfl, ?_⟩ <;> decide +kernel⟩,
    ⟨#v[2000, 0, 0, 0, 0, 0, 0, 0, 0, 0, 0, 0, 0, 0, 0, 1200], _, _, _, _, devReady, by refine ⟨?_, rfl, rfl, rfl, ?_, rfl, ?_⟩ <;> decide +kernel⟩,
    ⟨#v[250, 0, 0, 0, 0, 0, 0, 0, 0, 0, 0, 0, 0, 0, 0, 1200], _, _, _, _, devReady, by refine ⟨?_, rfl, rfl, rfl, ?_, rfl, ?_, ?_⟩ <;> decide +kernel⟩,
    ⟨#v[900, 0, 0, 0, 0, 0, 0, 0, 0, 0, 0, 0, 0, 0, 0, 1200], _, _, _, _, devReady, by refine ⟨?_, rfl, rfl, rfl, ?_, rfl, ?_, ?_⟩ <;> decide +kernel⟩,
    ⟨Vector.replicate 16 0, State.reset, by decide +kernel⟩⟩

theorem witness_AccessoryPorts :
    (∃ (p : Pkt) (n : Nat) (s : State),
      accepted 0x0C01 p s = true ∧ n = p.b 0 0 2 ∧ 5 ≤ p.b 0 8 5 ∧ p.b 0 8 5 ≤ 30 ∧ (entered 0x0C01 p s).axState n ≠ 1 ∧ (entered 0x0C01 p s).axState n ≠ 2)
    ∧ (∃ (p : Pkt) (s : State),
      accepted 0x0C01 p s = true ∧ (p.b 0 8 5 < 5 ∨ 30 < p.b 0 8 5))
    ∧ (∃ (p : Pkt) (s : State),
      accepted 0x0C01 p s = true ∧ 5 ≤ p.b 0 8 5 ∧ p.b 0 8 5 ≤ 30 ∧ ((entered 0x0C01 p s).axState (p.b 0 0 2) = 1 ∨ (entered 0x0C01 p s).axState (p.b 0 0 2) = 2))
    ∧ (∃ (p : Pkt) (s : State),
      accepted 0x0C02 p s = true ∧ p.t 0 4 = false)
    ∧ (∃ (p : Pkt) (s : State),
      accepted 0x0C02 p s = true ∧ p.t 0 4 = true ∧ 8000 < (entered 0x0C02 p s).axSum (p.b 0 0 2))
    ∧ (∃ (p : Pkt) (s : State),
      accepted 0x0C02 p s = true ∧ p.t 0 4 = true ∧ (entered 0x0C02 p s).axSum (p.b 0 0 2) ≤ 8000 ∧ (entered 0x0C02 p s).on PWR_STAT__VIN_LOW = true)
    ∧ (∃ (p : Pkt) (u : State) (s : State),
      accepted 0x0C02 p s = true ∧ p.t 0 4 = true ∧ (entered 0x0C02 p s).axSum (p.b 0 0 2) ≤ 8000 ∧ (entered 0x0C02 p s).on PWR_STAT__VIN_LOW = false ∧ (u = (if (entered 0x0C02 p s).axState (p.b 0 0 2) = 1 then (entered 0x0C02 p s) else ((entered 0x0C02 p s).setF (PWR_AX_STAT__STATE (p.b 0 0 2)) 1).setF (PWR_AX_STAT__RETRIES (p.b 0 0 2)) 0)))
    ∧ (∃ (port : Fin 4) (off : Bool) (u : State) (s : State),
      s.axState port = 1 ∧ u = ((s.bumpStat (PWR_AX_FAULT_CNT port)).log .pwr evPwrAxTrip).setB (PWR_AX_STAT__LIMITING port) false)
    ∧ (∃ (port : Fin 4) (s : State),
      s.axState port = 2)
    ∧ (∃ (port : Fin 4) (s : State),
      s.axState port ≠ 2)
    ∧ (∃ (port : Fin 4) (above : Bool) (s : State),
      s.axState port = 1)
    ∧ (∃ (port : Fin 4) (off : Bool) (above : Bool) (s : State),
      s.axState port ≠ 1)
    ∧ (∃ (port : Fin 4) (present : Bool) (u : State) (s : State),
      s.axState port < 2 ∧ s.on (PWR_AX_STAT__LOAD port) = !present ∧ u = ((s.setB (PWR_AX_STAT__LOAD port) present).log .pwr evPwrAxLoad).pwrIrq PWR_IRQ__AX)
    ∧ (∃ (port : Fin 4) (present : Bool) (s : State),
      (2 ≤ s.axState port ∨ s.on (PWR_AX_STAT__LOAD port) = present)) :=
  ⟨⟨pkt 0 [5 * 256, 0, 0, 0], _, State.reset, by refine ⟨?_, rfl, ?_, ?_, ?_, ?_⟩ <;> decide +kernel⟩,
    ⟨pkt 0 [0, 0, 0, 0], State.reset, by decide +kernel⟩,
    ⟨pkt 0 [5 * 256, 0, 0, 0], axOn, by decide +kernel⟩,
    ⟨pkt 0 [0, 0, 0, 0], axOn, by decide +kernel⟩,
    ⟨pkt 0 [0x10, 0, 0, 0], ((((axOn.setF (PWR_AX_CFG__LIMIT 1) 30).setF (PWR_AX_CFG__LIMIT 2) 30).setF (PWR_AX_STAT__STATE 1) 1)).setF (PWR_AX_STAT__STATE 2) 1, by decide +kernel⟩,
    ⟨pkt 0 [0x10, 0, 0, 0], State.reset.setB PWR_STAT__VIN_LOW true, by decide +kernel⟩,
    ⟨pkt 0 [0x10, 0, 0, 0], _, State.reset, by refine ⟨?_, ?_, ?_, ?_, rfl⟩ <;> decide +kernel⟩,
    ⟨0, true, _, axOn, by exact ⟨by decide +kernel, rfl⟩⟩,
    ⟨0, State.reset.setF (PWR_AX_STAT__STATE 0) 2, by decide +kernel⟩,
    ⟨0, State.reset, by decide +kernel⟩,
    ⟨0, true, axOn, by decide +kernel⟩,
    ⟨0, true, true, State.reset, by decide +kernel⟩,
    ⟨0, true, _, State.reset, by refine ⟨?_, ?_, rfl⟩ <;> decide +kernel⟩,
    ⟨0, false, State.reset, by decide +kernel⟩⟩

theorem witness_DeviceTests :
    (∃ (p : Pkt) (r : TstRun) (u : State) (s : State),
      accepted 0x0D00 p s = true ∧ r = ⟨0, 0, p.b 0 0 4, p.w 1, p.w 2, 0, false, 0, false, none, []⟩ ∧ badArgs r = none ∧ (entered 0x0D00 p s).tst.run.isSome = false ∧ (entered 0x0D00 p s).testOk r = true ∧ u = (entered 0x0D00 p s).offerTest { r with hdr := some (s.pktHdr 0x0D00 p) })
    ∧ (∃ (p : Pkt) (r : TstRun) (o : Outc) (s : State),
      accepted 0x0D00 p s = true ∧ r = ⟨0, 0, p.b 0 0 4, p.w 1, p.w 2, 0, false, 0, false, none, []⟩ ∧ badArgs r = some o)
    ∧ (∃ (p : Pkt) (r : TstRun) (s : State),
      accepted 0x0D00 p s = true ∧ r = ⟨0, 0, p.b 0 0 4, p.w 1, p.w 2, 0, false, 0, false, none, []⟩ ∧ badArgs r = none ∧ (entered 0x0D00 p s).tst.run.isSome = true)
    ∧ (∃ (p : Pkt) (r : TstRun) (s : State),
      accepted 0x0D00 p s = true ∧ r = ⟨0, 0, p.b 0 0 4, p.w 1, p.w 2, 0, false, 0, false, none, []⟩ ∧ badArgs r = none ∧ (entered 0x0D00 p s).tst.run.isSome = false ∧ (entered 0x0D00 p s).testOk r = false)
    ∧ (∃ (p : Pkt) (r : TstRun) (u : State) (s : State),
      accepted 0x0D01 p s = true ∧ r = ⟨0, 1, p.b 0 8 2, p.b 0 0 4, p.w 1, p.w 2, false, 0, false, none, []⟩ ∧ badArgs r = none ∧ (entered 0x0D01 p s).tst.run.isSome = false ∧ (entered 0x0D01 p s).testOk r = true ∧ u = (entered 0x0D01 p s).offerTest { r with hdr := some (s.pktHdr 0x0D01 p) })
    ∧ (∃ (p : Pkt) (r : TstRun) (o : Outc) (s : State),
      accepted 0x0D01 p s = true ∧ r = ⟨0, 1, p.b 0 8 2, p.b 0 0 4, p.w 1, p.w 2, false, 0, false, none, []⟩ ∧ badArgs r = some o)
    ∧ (∃ (p : Pkt) (r : TstRun) (s : State),
      accepted 0x0D01 p s = true ∧ r = ⟨0, 1, p.b 0 8 2, p.b 0 0 4, p.w 1, p.w 2, false, 0, false, none, []⟩ ∧ badArgs r = none ∧ (entered 0x0D01 p s).tst.run.isSome = true)
    ∧ (∃ (p : Pkt) (r : TstRun) (s : State),
      accepted 0x0D01 p s = true ∧ r = ⟨0, 1, p.b 0 8 2, p.b 0 0 4, p.w 1, p.w 2, false, 0, false, none, []⟩ ∧ badArgs r = none ∧ (entered 0x0D01 p s).tst.run.isSome = false ∧ (entered 0x0D01 p s).testOk r = false)
    ∧ (∃ (p : Pkt) (r : TstRun) (u : State) (s : State),
      accepted 0x0D02 p s = true ∧ r = ⟨0, 2, 0, p.b 0 0 5, 0, 0, p.t 0 8, 0, false, none, []⟩ ∧ badArgs r = none ∧ (entered 0x0D02 p s).tst.run.isSome = false ∧ (entered 0x0D02 p s).testOk r = true ∧ u = (entered 0x0D02 p s).offerTest { r with hdr := some (s.pktHdr 0x0D02 p) })
    ∧ (∃ (p : Pkt) (r : TstRun) (o : Outc) (s : State),
      accepted 0x0D02 p s = true ∧ r = ⟨0, 2, 0, p.b 0 0 5, 0, 0, p.t 0 8, 0, false, none, []⟩ ∧ badArgs r = some o)
    ∧ (∃ (p : Pkt) (r : TstRun) (s : State),
      accepted 0x0D02 p s = true ∧ r = ⟨0, 2, 0, p.b 0 0 5, 0, 0, p.t 0 8, 0, false, none, []⟩ ∧ badArgs r = none ∧ (entered 0x0D02 p s).tst.run.isSome = true)
    ∧ (∃ (p : Pkt) (r : TstRun) (s : State),
      accepted 0x0D02 p s = true ∧ r = ⟨0, 2, 0, p.b 0 0 5, 0, 0, p.t 0 8, 0, false, none, []⟩ ∧ badArgs r = none ∧ (entered 0x0D02 p s).tst.run.isSome = false ∧ (entered 0x0D02 p s).testOk r = false)
    ∧ (∃ (master : Byte) (kind : Nat) (item : BitVec 6) (r : TstRun) (s : State),
      (r = ⟨0, kind, if kind = 2 then 0 else item.toNat, if kind = 0 then s.rn TST_ARG0 else if kind = 1 then s.rn TST_ARG0 % 16
          else s.rn TST_ARG0 % 32, s.rn TST_ARG1, s.rn TST_ARG2, kind == 2 && bitAt (s.rn TST_ARG0) 8, master.toNat, false, none, []⟩) ∧ s.shut master = false)
    ∧ (∃ (master : Byte) (kind : Nat) (item : BitVec 6) (s : State),
      s.shut master = true)
    ∧ (∃ (r : TstRun) (u : State) (s : State),
      s.tst.run = some r ∧ r.began = false ∧ r.hdr = none ∧ u = ((s.deferB testJob).bumpEvt .tst TST_RUN_ID).setF TST_STAT__OWNER r.owner)
    ∧ (∃ (s : State),
      s.tst.run = none)
    ∧ (∃ (r : TstRun) (s : State),
      s.tst.run = some r ∧ r.began = true)
    ∧ (∃ (e : TestEnd) (r : TstRun) (s : State),
      s.tst.run = some r ∧ r.began = false)
    ∧ (∃ (e : TestEnd) (r : TstRun) (s : State),
      s.tst.run = some r ∧ r.began = true ∧ r.kind = 1)
    ∧ (∃ (e : TestEnd) (r : TstRun) (s : State),
      s.tst.run = some r ∧ r.began = true ∧ r.kind = 2)
    ∧ (∃ (e : TestEnd) (r : TstRun) (pass : Bool) (u : State) (s : State),
      s.tst.run = some r ∧ r.began = true ∧ r.kind = 0 ∧ ¬ (r.item = 0 ∧ r.rounds.length < 4) ∧ (pass = (if r.item = 0 then (r.rounds.take 4).all id else e.pass && ((r.item != 1 && r.item != 2) || e.errs == 0))) ∧ (u = s.postResult r (if pass then 1 else 2) [e.errs, e.bits, 0, 0]))
    ∧ (∃ (e : TestEnd) (r : TstRun) (s : State),
      s.tst.run = some r ∧ r.began = true ∧ r.kind = 0 ∧ r.item = 0 ∧ r.rounds.length < 4)
    ∧ (∃ (p : Pkt) (r : TstResult) (s : State),
      accepted 0x0D03 p s = true ∧ ((if p.w 0 = 0 then s.testRuns.head? else s.testRuns.find? (fun r => r.id == p.w 0)) = some r))
    ∧ (∃ (p : Pkt) (s : State),
      accepted 0x0D03 p s = true ∧ ((if p.w 0 = 0 then s.testRuns.head? else s.testRuns.find? (fun r => r.id == p.w 0)) = none))
    ∧ (∃ (p : Pkt) (s : State),
      accepted 0x0D04 p s = true ∧ tmuxOk (p.w 0) = true)
    ∧ (∃ (p : Pkt) (s : State),
      accepted 0x0D04 p s = true ∧ tmuxOk (p.w 0) = false)
    ∧ (∃ (p : Pkt) (s : State),
      accepted 0x0D05 p s = true)
    ∧ (∃ (p : Pkt) (s : State),
      accepted 0x0D06 p s = true ∧ ((entered 0x0D06 p s).partOk 1 = false ∨ (entered 0x0D06 p s).partOk 4 = false))
    ∧ (∃ (p : Pkt) (s : State),
      accepted 0x0D06 p s = true ∧ (entered 0x0D06 p s).partOk 1 = true ∧ (entered 0x0D06 p s).partOk 4 = true ∧ p.t 0 0 = false ∧ (entered 0x0D06 p s).vaultHeld = true)
    ∧ (∃ (p : Pkt) (rows : List Nat) (done : List Repair) (u : State) (s : State),
      accepted 0x0D06 p s = true ∧ (entered 0x0D06 p s).partOk 1 = true ∧ (entered 0x0D06 p s).partOk 4 = true ∧ (p.t 0 0 = true ∨ (entered 0x0D06 p s).vaultHeld = false) ∧ rows = (pprRows (entered 0x0D06 p s).tst.records).take 4 ∧ done = rows.filterMap (fun i => (entered 0x0D06 p s).tst.records[i]?) ∧ u = { (entered 0x0D06 p s) with cxl := { (entered 0x0D06 p s).cxl with poisoned := (entered 0x0D06 p s).cxl.poisoned.filter (fun x => !done.any (fun r =>
          r.inst == bitsAt ((entered 0x0D06 p s).suspectWord (64 * x)) 26 5 && r.addr == (entered 0x0D06 p s).suspectWord (64 * x) % 0x400000)) } }) :=
  ⟨⟨pkt 0 [2, 0, 1, 0], _, _, State.reset, by refine ⟨?_, rfl, ?_, ?_, ?_, rfl⟩ <;> decide +kernel⟩,
    ⟨pkt 0 [9, 0, 0, 0], _, (badArgs (⟨0, 0, (pkt 0 [9, 0, 0, 0]).b 0 0 4, (pkt 0 [9, 0, 0, 0]).w 1, (pkt 0 [9, 0, 0, 0]).w 2, 0, false, 0, false, none, []⟩)).getD ok, State.reset, by refine ⟨?_, rfl, ?_⟩ <;> decide +kernel⟩,
    ⟨pkt 0 [2, 0, 1, 0], _, testing, by refine ⟨?_, rfl, ?_, ?_⟩ <;> decide +kernel⟩,
    ⟨pkt 0 [2, 0, 1, 0], _, partsBusy, by refine ⟨?_, rfl, ?_, ?_, ?_⟩ <;> decide +kernel⟩,
    ⟨pkt 0 [1, 0, 0, 0], _, _, State.reset, by refine ⟨?_, rfl, ?_, ?_, ?_, rfl⟩ <;> decide +kernel⟩,
    ⟨pkt 0 [0, 0, 0, 0], _, (badArgs (⟨0, 1, (pkt 0 [0, 0, 0, 0]).b 0 8 2, (pkt 0 [0, 0, 0, 0]).b 0 0 4, (pkt 0 [0, 0, 0, 0]).w 1, (pkt 0 [0, 0, 0, 0]).w 2, false, 0, false, none, []⟩)).getD ok, State.reset, by refine ⟨?_, rfl, ?_⟩ <;> decide +kernel⟩,
    ⟨pkt 0 [1, 0, 0, 0], _, testing, by refine ⟨?_, rfl, ?_, ?_⟩ <;> decide +kernel⟩,
    ⟨pkt 0 [1, 0, 0, 0], _, partsBusy, by refine ⟨?_, rfl, ?_, ?_, ?_⟩ <;> decide +kernel⟩,
    ⟨pkt 0 [1, 0, 0, 0], _, _, State.reset, by refine ⟨?_, rfl, ?_, ?_, ?_, rfl⟩ <;> decide +kernel⟩,
    ⟨pkt 0 [0, 0, 0, 0], _, (badArgs (⟨0, 2, 0, (pkt 0 [0, 0, 0, 0]).b 0 0 5, 0, 0, (pkt 0 [0, 0, 0, 0]).t 0 8, 0, false, none, []⟩)).getD ok, State.reset, by refine ⟨?_, rfl, ?_⟩ <;> decide +kernel⟩,
    ⟨pkt 0 [1, 0, 0, 0], _, testing, by refine ⟨?_, rfl, ?_, ?_⟩ <;> decide +kernel⟩,
    ⟨pkt 0 [1, 0, 0, 0], _, partsBusy, by refine ⟨?_, rfl, ?_, ?_, ?_⟩ <;> decide +kernel⟩,
    ⟨1, 0, 2, _, State.reset, by exact ⟨rfl, by decide +kernel⟩⟩,
    ⟨0, 0, 0, State.reset, by decide +kernel⟩,
    ⟨⟨1, 0, 2, 0, 0, 0, false, 0, false, none, []⟩, _, testWaits, by refine ⟨?_, ?_, ?_, rfl⟩ <;> decide +kernel⟩,
    ⟨State.reset, by decide +kernel⟩,
    ⟨⟨1, 0, 2, 0, 0, 0, false, 0, true, none, []⟩, testing, by decide +kernel⟩,
    ⟨{}, ⟨1, 0, 2, 0, 0, 0, false, 0, false, none, []⟩, testWaits, by decide +kernel⟩,
    ⟨{}, ⟨1, 1, 2, 0, 0, 0, false, 0, true, none, []⟩, testingL, by decide +kernel⟩,
    ⟨{}, ⟨1, 2, 0, 0, 0, 0, false, 0, true, none, []⟩, testingM, by decide +kernel⟩,
    ⟨{}, ⟨1, 0, 2, 0, 0, 0, false, 0, true, none, []⟩, _, _, testing, by refine ⟨?_, ?_, ?_, ?_, rfl, rfl⟩ <;> decide +kernel⟩,
    ⟨{}, ⟨1, 0, 0, 0, 0, 0, false, 0, true, none, []⟩, { State.reset with tst := { State.reset.tst with run := some ⟨1, 0, 0, 0, 0, 0, false, 0, true, none, []⟩ } }, by decide +kernel⟩,
    ⟨pkt 0 [0, 0, 0, 0], ⟨1, 0, 2, 0, 0, [0, 0, 0, 0]⟩, testing, by decide +kernel⟩,
    ⟨pkt 0 [0, 0, 0, 0], State.reset, by decide +kernel⟩,
    ⟨pkt 0 [0, 0, 0, 0], State.reset, by decide +kernel⟩,
    ⟨pkt 0 [1, 0, 0, 0], State.reset, by decide +kernel⟩,
    ⟨pkt 0 [], State.reset, by decide⟩,
    ⟨pkt 0 [0, 0, 0, 0], ctxBusy, by decide +kernel⟩,
    ⟨pkt 0 [0, 0, 0, 0], pinHeld, by decide +kernel⟩,
    ⟨pkt 0 [1, 0, 0, 0], _, _, _, State.reset, by refine ⟨?_, ?_, ?_, ?_, rfl, rfl, rfl⟩ <;> decide +kernel⟩⟩

theorem witness_PairReads :
    ∃ (m : Byte) (a : Nat) (s : State),
      a % 4 = 0 ∧ isPairLow a = true ∧ s.reaches m a = true ∧ s.reaches m (a + 4) = true ∧ s.latch.find? (fun x => x.1 == m && x.2.1 == a) = none :=
  ⟨1, CMD_CR_BASE_LO 0, State.reset, by decide +kernel⟩

theorem witness_RegisterReads :
    (∃ (m : Byte) (a : Nat) (v : W32) (s : State),
      a % 4 ≠ 0)
    ∧ (∃ (m : Byte) (a : Nat) (v : W32) (s : State),
      a % 4 = 0 ∧ s.reaches m a = false)
    ∧ (∃ (m : Byte) (a : Nat) (s : State),
      a % 4 = 0)
    ∧ (∃ (m : Byte) (a : Nat) (s : State),
      Machine.Inv s ∧ a % 4 = 0 ∧ s.reaches m a = true ∧ s.latch.find? (fun x => x.1 == m && x.2.1 == a) = none ∧ a ≠ TIM_NOW_NS ∧ ¬ (0x200400 ≤ a ∧ a < 0x200600 ∧ a % 0x10 = 0) ∧ isPairLow a = false) :=
  ⟨⟨0, 1, 0, State.reset, by decide +kernel⟩,
    ⟨0, 0x300000, 0, State.reset, by decide +kernel⟩,
    ⟨0, 0, State.reset, by decide +kernel⟩,
    ⟨1, TIM_STEP_CNT, State.reset, by decide +kernel⟩⟩

theorem witness_RegisterWrites :
    (∃ (m : Byte) (a : Nat) (i : Nat) (j : Nat) (d : RegDef) (v : W32) (s : State),
      Machine.Inv s ∧ a % 4 = 0 ∧ s.reaches m a = true ∧ (a / 0x100000 = 5 ∨ a / 0x100000 = 12 ∨ a / 0x100000 = 13 ∨ a / 0x100000 = 14 ∨ a / 0x100000 = 16 ∨ a / 0x100000 = 18 ∨ a / 0x100000 = 19) ∧ regFind a = some (d, i, j))
    ∧ (∃ (m : Byte) (a : Nat) (v : W32) (s : State),
      a % 4 = 0 ∧ s.reaches m a = true ∧ regFind a = none)
    ∧ (∃ (m : Byte) (a : Nat) (v : W32) (s : State),
      a % 4 = 0 ∧ 0x1000000 ≤ a ∧ a < 0x5000000)
    ∧ (∃ (m : Byte) (a : Nat) (v : W32) (s : State),
      a % 4 = 0 ∧ (a < 0x100000 ∨ (0x110000 ≤ a ∧ a < 0x1000000) ∨ 0x5000000 ≤ a))
    ∧ (∃ (m : Byte) (a : Nat) (v : W32) (s : State),
      a % 4 = 0 ∧ 0x10000 ≤ a ∧ a < 0x10400) :=
  ⟨⟨1, TIM_STEP_LIMIT, 0, 0, ((regFind TIM_STEP_LIMIT).get (by decide +kernel)).1, 5, State.reset, by decide +kernel⟩,
    ⟨1, 0x5FFFFC, 0, State.reset, by decide +kernel⟩,
    ⟨0, 0x1000000, 7, State.reset, by decide +kernel⟩,
    ⟨0, 0, 7, State.reset, by decide +kernel⟩,
    ⟨0, 0x10000, 7, State.reset, by decide +kernel⟩⟩

theorem witness_HostReads :
    (∃ (addr : Nat) (data : List Byte) (mask : BitVec 64) (s : State),
      s.cxlMem = false)
    ∧ (∃ (addr : Nat) (s : State),
      s.cxlMem = true ∧ s.cxl.memActive = false)
    ∧ (∃ (addr : Nat) (d : Nat) (dpa : Nat) (s : State) (u : State),
      s.cxlMem = true ∧ s.cxl.memActive = true ∧ s.hdmDpa (addr / 64 * 64) = some (d, dpa) ∧ u = s.vaultUse ∧ u.cxl.poisoned.contains (dpa / 64) = false)
    ∧ (∃ (addr : Nat) (d : Nat) (dpa : Nat) (s : State) (u : State) (r : List Byte × State),
      s.cxlMem = true ∧ s.cxl.memActive = true ∧ s.hdmDpa (addr / 64 * 64) = some (d, dpa) ∧ u = s.vaultUse ∧ u.cxl.poisoned.contains (dpa / 64) = true ∧ r = State.drawBytes 64 ((u.poisonLine dpa).aer .rasMemPoison))
    ∧ (∃ (addr : Nat) (x : Nat × Nat) (s : State),
      s.cxlMem = true ∧ s.cxl.memActive = true ∧ s.hdmDpa (addr / 64 * 64) = some x)
    ∧ (∃ (addr : Nat) (data : List Byte) (mask : BitVec 64) (s : State),
      s.cxlMem = true ∧ s.cxl.memActive = true ∧ s.hdmDpa (addr / 64 * 64) = none) :=
  ⟨⟨0, [], 0, State.reset, by decide +kernel⟩,
    ⟨0, { State.reset with cxl := { State.reset.cxl with up := true } }, by decide +kernel⟩,
    ⟨70, 0, 64, hostMem, _, by refine ⟨?_, ?_, ?_, rfl, ?_⟩ <;> decide +kernel⟩,
    ⟨70, 0, 64, { hostMem with cxl := { hostMem.cxl with poisoned := [1] } }, _, _, by refine ⟨?_, ?_, ?_, rfl, ?_, rfl⟩ <;> decide +kernel⟩,
    ⟨70, (0, 64), hostMem, by decide +kernel⟩,
    ⟨0x10000000000, [], 0, hostMem, by decide +kernel⟩⟩

theorem witness_HostWrites :
    (∃ (addr : Nat) (dpa : Nat) (data : List Byte) (mask : BitVec 64) (s : State),
      s.cxlMem = true ∧ s.cxl.memActive = true ∧ Machine.Inv s ∧ s.hdmDpa (addr / 64 * 64) = some (0, dpa))
    ∧ (∃ (addr : Nat) (d : Nat) (dpa : Nat) (data : List Byte) (mask : BitVec 64) (s : State) (u : State),
      s.cxlMem = true ∧ s.cxl.memActive = true ∧ s.hdmDpa (addr / 64 * 64) = some (d + 1, dpa) ∧ u = s.vaultUse.bumpStat VLT_HOST_RING_WR)
    ∧ (∃ (addr : Nat) (data : List Byte) (mask : BitVec 64) (s : State),
      s.cxlMem = true ∧ s.cxl.memActive = false) :=
  ⟨⟨70, 64, [1, 2], 3, hostMem, by decide +kernel⟩,
    ⟨0x4000000000, 0, State.reset.wBytes, [], 0, hostMem, _, by refine ⟨?_, ?_, ?_, rfl⟩ <;> decide +kernel⟩,
    ⟨0, [], 0, { State.reset with cxl := { State.reset.cxl with up := true } }, by decide +kernel⟩⟩

theorem witness_HdmDecoders :
    (∃ (dec : Fin 2) (base : Nat) (size : Nat) (ways : Nat) (good : Bool) (s : State),
      s.cxlMem = true ∧ (good = (decide (size = if (dec : Nat) = 0 then s.wBytes else s.vlt.usable * 4096 - s.wBytes) && decide (ways = 1))))
    ∧ (∃ (a : Nat) (s : State),
      s.cxl.hdm[0].committed = true ∧ s.cxl.hdm[0].base ≤ a ∧ a < s.cxl.hdm[0].base + s.cxl.hdm[0].size)
    ∧ (∃ (a : Nat) (s : State),
      s.cxl.hdm[1].committed = true ∧ s.cxl.hdm[1].base ≤ a ∧ a < s.cxl.hdm[1].base + s.cxl.hdm[1].size ∧ ¬ (s.cxl.hdm[0].committed = true ∧ s.cxl.hdm[0].base ≤ a ∧ a < s.cxl.hdm[0].base + s.cxl.hdm[0].size))
    ∧ (∃ (p : Pkt) (s : State),
      accepted 0x0500 p s = true ∧ (entered 0x0500 p s).hdmCommitted = true) :=
  ⟨⟨0, 0, 5, 1, false, { State.reset with cxl := { State.reset.cxl with up := true } }, by decide +kernel⟩,
    ⟨64, hostMem, by decide +kernel⟩,
    ⟨0x4000000000, hostMem, by decide +kernel⟩,
    ⟨pkt 0 [16, 1, 1, 1, 1, 1, 1, 0], { State.reset with cxl := { State.reset.cxl with hdm := #v[⟨true, false, 0, 0, 1⟩, {}] } }, by decide +kernel⟩⟩

theorem witness_HostLink :
    (∃ (full : Bool) (width : Nat) (rate : Nat) (u : State) (s : State),
      s.dev.awaits = false ∧ s.dev.vin = 0 ∧ s.pwr.sleep = 0 ∧ u = (s.linkUp full width rate).modCxl (fun c => { c with
            memInfoValid := (s.linkUp full width rate).dlt.valid && !c.fallback
            memActive := (s.linkUp full width rate).dev.ready && !c.fallback }))
    ∧ (∃ (full : Bool) (width : Nat) (rate : Nat) (s : State),
      (s.dev.awaits = true ∨ s.dev.vin ≠ 0 ∨ s.pwr.sleep ≠ 0))
    ∧ (∃ (s : State),
      s.cxl.up = false)
    ∧ (∃ (s : State) (u : State) (v : State),
      s.cxl.up = true ∧ u = (((((List.range 16).foldl (fun u n => u.vqResetEnd n (u.vp n).cmds.length) s).vqFlr.dflLost.cmpFlr.encFlr).masterReset 0).netFlr).cmdFlr ∧ v = flrRegs.foldl (fun v a => v.wr a (regReset v.dev.variant a)) u) :=
  ⟨⟨true, 8, 32, _, { State.reset with dev := { State.reset.dev with awaits := false } }, by refine ⟨?_, ?_, ?_, rfl⟩ <;> decide +kernel⟩,
    ⟨true, 8, 32, { State.reset with pwr := { State.reset.pwr with sleep := 2 } }, by decide +kernel⟩,
    ⟨State.reset, by decide +kernel⟩,
    ⟨hostMem, _, _, by exact ⟨by decide +kernel, rfl, rfl⟩⟩⟩

theorem witness_SafeStateOpcodes :
    (∃ (op : Nat) (sp : OpSpec) (p : Pkt) (s : State) (body : Body),
      opSpec op = some sp ∧ s.dev.safe = true ∧ s.cmd.abandoned.any (·.is (s.pktHdr op p)) = false ∧ headerCheck sp false s.dlt.disabled p.ring p.params.length p.flags.toNat p.target.toNat 0 p.params = none ∧ op ∉ [0x0000, 0x0001, 0x0002, 0x0020, 0x0D03, 0x0D05, 0x0E02])
    ∧ (∃ (op : Nat) (sp : OpSpec) (p : Pkt) (off : List Nat),
      opSpec op = some sp ∧ op ∈ [0x0000, 0x0001, 0x0002, 0x0020, 0x0D03, 0x0D05, 0x0E02])
    ∧ (∃ (op : Nat) (sp : OpSpec) (p : Pkt) (s : State) (body : Body),
      opSpec op = some sp ∧ sp.cr0 = true ∧ (p.ring : Nat) ≠ 0 ∧ s.cmd.abandoned.any (·.is (s.pktHdr op p)) = false ∧ headerCheck sp false s.dlt.disabled 0 p.params.length p.flags.toNat p.target.toNat 0 p.params = none) :=
  ⟨⟨0x0A02, (opSpec 0x0A02).get (by decide), pkt 0 [], { State.reset with dev := { State.reset.dev with safe := true } }, fun s => (s, none), by decide +kernel⟩,
    ⟨0, (opSpec 0).get (by decide), pkt 0 [], [], by decide +kernel⟩,
    ⟨0x0C00, (opSpec 0x0C00).get (by decide), pkt 0 [0, 0, 0, 0] 0 1, State.reset, fun s => (s, none), by decide +kernel⟩⟩

theorem witness_HeaderRefusals :
    (∃ (op : Nat) (p : Pkt) (s : State) (body : Body),
      (opSpec op).isSome = true ∧ s.cmd.abandoned.any (·.is (s.pktHdr op p)) = true)
    ∧ (∃ (op : Nat) (sp : OpSpec) (p : Pkt) (s : State) (body : Body) (o : Outc),
      opSpec op = some sp ∧ s.cmd.abandoned.any (·.is (s.pktHdr op p)) = false ∧ headerCheck sp s.dev.safe s.dlt.disabled p.ring p.params.length p.flags.toNat p.target.toNat 0 p.params = some o)
    ∧ (∃ (op : Nat) (sp : OpSpec) (p : Pkt) (s : State) (body : Body) (i : Nat),
      opSpec op = some sp ∧ s.cmd.abandoned.any (·.is (s.pktHdr op p)) = false ∧ headerCheck sp s.dev.safe s.dlt.disabled p.ring p.params.length p.flags.toNat p.target.toNat 0 p.params = none ∧ reservedWord sp p.params = some i ∧ sp.fast = true)
    ∧ (∃ (op : Nat) (sp : OpSpec) (p : Pkt) (s : State) (body : Body) (i : Nat),
      opSpec op = some sp ∧ s.cmd.abandoned.any (·.is (s.pktHdr op p)) = false ∧ headerCheck sp s.dev.safe s.dlt.disabled p.ring p.params.length p.flags.toNat p.target.toNat 0 p.params = none ∧ reservedWord sp p.params = some i ∧ sp.fast = false ∧ s.turn (s.pktHdr op p) = true)
    ∧ (∃ (op : Nat) (sp : OpSpec) (p : Pkt) (s : State) (body : Body),
      opSpec op = some sp ∧ s.cmd.abandoned.any (·.is (s.pktHdr op p)) = false ∧ headerCheck sp s.dev.safe s.dlt.disabled p.ring p.params.length p.flags.toNat p.target.toNat 0 p.params = none ∧ sp.fast = false ∧ s.turn (s.pktHdr op p) = false) :=
  ⟨⟨0, pkt 0 [], { State.reset with cmd := { State.reset.cmd with abandoned := [⟨0, 0, 0, 0, 0, false, false, false, true, false, 0, false⟩] } }, fun s => (s, none), by decide +kernel⟩,
    ⟨0, (opSpec 0).get (by decide), pkt 0 [1], State.reset, fun s => (s, none), refuse stBadLength 0, by decide +kernel⟩,
    ⟨0x0A01, (opSpec 0x0A01).get (by decide), pkt 0 [4, 0, 0, 0], State.reset, fun s => (s, none), 0, by decide +kernel⟩,
    ⟨0x0A05, (opSpec 0x0A05).get (by decide), pkt 0 [4, 0, 0, 0], State.reset, fun s => (s, none), 0, by decide +kernel⟩,
    ⟨0x0A05, (opSpec 0x0A05).get (by decide), pkt 0 [4, 0, 0, 0], { State.reset with cmd := { State.reset.cmd with started := [⟨0, 0, 0x0A05, 0, 0, false, true, false, false, false, 0, false⟩] } }, fun s => (s, none), by decide +kernel⟩⟩

/-! ### Terms that well-formedness refuses, one per check -/

theorem test_wf_len_multiple : Instr.wf (.nop (pkt 0 [0])) = false := by decide
theorem test_wf_len_limit : Instr.wf (.nop (pkt 0 (List.replicate 256 0))) = false := by decide +kernel
theorem test_wf_flags : Instr.wf (.nop (pkt 0 [] 8)) = false := by decide
theorem test_wf_buffer : Instr.wf (.nop { pkt 0 [] with buf := .failed (2 ^ 64) false }) = false := by decide
theorem test_wf_packet : Instr.wf (.nop (pkt 0 [] 7)) = true := by decide
theorem test_wf_slot_address : Instr.wf (.packetFetch 0 (.failed (2 ^ 64) false)) = false := by decide
theorem test_wf_slot_words : Instr.wf (.packetFetch 0 (.packet 0 0 0 0 0 0 (List.replicate 253 0))) = false := by decide +kernel
theorem test_wf_vq_slot : Instr.wf (.vqNop 0 (.entry [])) = false := by decide
theorem test_wf_vq_slot_address : Instr.wf (.vqNop 0 (.failed (2 ^ 64) false)) = false := by decide
theorem test_wf_master : Instr.wf (.readClear 0x11 (.bar0 0)) = true ∧ Instr.wf (.readClear 0x14 (.bar0 0)) = false := by decide
theorem test_wf_write_master : Instr.wf (.registerWrite 0x14 (.bar0 0) 0) = false := by decide
theorem test_wf_bar0_end : Instr.wf (.registerWrite 0 (.bar0 0x4000000) 0) = false := by decide
theorem test_wf_bar2_end : Instr.wf (.registerWrite 0 (.bar2 0x10000000) 0) = false := by decide
theorem test_wf_bar4_end : Instr.wf (.registerWrite 0 (.bar4 0x20000) 0) = false := by decide
theorem test_wf_read_end : Instr.wf (.readClear 0 (.bar0 0x4000000)) = false ∧ Instr.wf (.lowWordRead 0 (.bar0 0x4000000)) = false := by decide
theorem test_wf_low_word_master : Instr.wf (.lowWordRead 0x14 (.bar0 0)) = false := by decide
theorem test_wf_mailbox_master : Instr.wf (.txData 0x14 0 0) = false ∧ Instr.wf (.rxWordLo 0x14 0) = false := by decide
theorem test_wf_semaphore_master : Instr.wf (.semAcquire 0x14 0) = false ∧ Instr.wf (.semRelease 0x14 0) = false := by decide
theorem test_wf_time_master : Instr.wf (.timNowNs 0x14) = false := by decide
theorem test_wf_test_master : Instr.wf (.tstStartAnalogue 0x14 0) = false ∧ Instr.wf (.tstStartLbist 0x14 0) = false
    ∧ Instr.wf (.tstStartMbist 0x14 0) = false := by decide
theorem test_wf_signatures : Instr.wf (.testDone { sigs := [0, 0, 0, 0, 0] }) = false := by decide
theorem test_wf_signature_table : Instr.wf (.testDone { table := [none, none, none, none, none] }) = false := by decide
theorem test_wf_vq_data : Instr.wf (.vqTransferDone 0 0 (.failed (2 ^ 64) false) 0) = false := by decide
theorem test_wf_vq_late_data : Instr.wf (.vqTmoExpiry 0 0 0 (.failed (2 ^ 64) false)) = false := by decide
theorem test_wf_mem_address : Instr.wf (.memrd (2 ^ 64)) = false ∧ Instr.wf (.memrddata (2 ^ 64)) = false
    ∧ Instr.wf (.meminv (2 ^ 64)) = false ∧ Instr.wf (.memspecrd (2 ^ 64)) = false := by decide
theorem test_wf_line : Instr.wf (.memwr 0 [0]) = false ∧ Instr.wf (.memwrptl 0 [0] 1) = false := by decide
theorem test_wf_line_address : Instr.wf (.memwr (2 ^ 64) (List.replicate 64 0)) = false
    ∧ Instr.wf (.memwrptl (2 ^ 64) (List.replicate 64 0) 1) = false := by decide
theorem test_wf_decoder : Instr.wf (.hdmCommit 0 (2 ^ 64) 0 1) = false ∧ Instr.wf (.hdmCommit 0 0 (2 ^ 64) 1) = false := by decide
theorem test_wf_fence : Instr.wf (.snpinv 0 (.failed (2 ^ 64) false)) = false
    ∧ Instr.wf (.fencePoll 0 (.failed (2 ^ 64) false)) = false := by decide
theorem test_wf_dma : Instr.wf (.dmaReadError 0 0 (2 ^ 64) false) = false
    ∧ Instr.wf (.cacheWriteError 0 0 (2 ^ 64)) = false := by decide
theorem test_wf_link_width : Instr.wf (.linkTrainingDone true 3 16) = false := by decide
theorem test_wf_link_rate : Instr.wf (.linkTrainingDone true 4 33) = false := by decide
theorem test_wf_boot_fails : Instr.wf (.warmBoot { fails := [4] }) = false
    ∧ Instr.wf (.coldBoot { fails := [1, 1, 1, 1] }) = false := by decide
theorem test_wf_boot_step : Instr.wf (.coldBoot { upTo := 11 }) = false := by decide
theorem test_wf_boot_calibration (n : Nat) (h : 65536 < n) : BootRep.wf { cal := (List.replicate n 0, []) } = false
    ∧ BootRep.wf { cal := ([], List.replicate n 0) } = false := by
  constructor <;> simp [BootRep.wf, Nat.not_le.mpr h]
theorem test_wf_boot_remap : Instr.wf (.coldBoot { remap := [(0x4000000, 0)] }) = false := by decide
theorem test_wf_abort_data : Instr.wf (.vqAbort 0 (.entry (List.replicate 64 0)) { data := .failed (2 ^ 64) false }) = false
    ∧ Instr.wf (.vqCmdStart 0 { data := .failed (2 ^ 64) false }) = false := by decide
theorem test_wf_frame : Instr.wf (.netRxFrame [] true (.bytes [])) = false
    ∧ Instr.wf (.netRxFrame (List.replicate 60 0) true (.failed (2 ^ 64) false)) = false := by decide
theorem test_wf_dpa : Instr.wf (.dmcUncorrectable (2 ^ 38) true false) = false := by decide

/-! ### Words, and values the spec prints -/

/-- No row of the opcode table has bits, so no word spells a command. -/
theorem test_no_word_spells_a_command : decodeTableWord 32 0 = none := rfl

def digits : List Byte := [0x31, 0x32, 0x33, 0x34, 0x35, 0x36, 0x37, 0x38, 0x39]

/-- Check values over "123456789": R73 and R93. -/
theorem test_crc64_check : crc64 digits = 0x6C40DF5F0B497347 := by decide +kernel
theorem test_crc16_check : crc16 digits = 0x29B1 := by decide +kernel

/-! ### Single steps -/

/-- NOP on a fresh device: the reply goes to slot 0 of ring 0 with STATUS OK and PHASE 1 (Table 2-3, R33). -/
theorem test_nop_replies :
    (match step { State.reset with pending := [.nop (pkt 0 [])] } with
      | .next t => some (t.f (CMD_RP_TAIL__TAIL 0), t.pending)
      | _ => none) = some (1, []) := by decide +kernel

/-- An opcode that the safe state bars leaves the time base as it was (R44). -/
theorem test_safe_state_bars :
    (match step { State.reset with
        dev := { State.reset.dev with safe := true }, pending := [.timSetAddend (pkt 0 [0x55555556, 1, 0, 0])] } with
      | .next t => some (t.rn TIM_ADDEND_LO)
      | _ => none) = some 0x55555555 := by decide +kernel

/-- An addend in range is taken (R339); one 1,000 ppm and one unit below nominal is not. -/
theorem test_addend_taken :
    (match step { State.reset with pending := [.timSetAddend (pkt 0 [0x54FDF3B6, 1, 0, 0])] } with
      | .next t => some (t.rn TIM_ADDEND_LO)
      | _ => none) = some 0x54FDF3B6 := by decide +kernel
theorem test_addend_refused :
    (match step { State.reset with pending := [.timSetAddend (pkt 0 [0x54FDF3B5, 1, 0, 0])] } with
      | .next t => some (t.rn TIM_ADDEND_LO)
      | _ => none) = some 0x55555555 := by decide +kernel

/-- The first master to read a free semaphore takes it; the second reads the owner (R81). -/
theorem test_semaphore_owner :
    (match step { State.reset with pending := [.semAcquire 0x10 3] } with
      | .next t => (match step { t with pending := [.semAcquire 0x11 3] } with
        | .next u => some (u.mbx.sem[3])
        | _ => none)
      | _ => none) = some (some 0x10) := by decide +kernel

/-- An access that is no multiple of four faults (R5). -/
theorem test_unaligned_access_faults :
    (match step { State.reset with pending := [.registerWrite 0x10 (.bar0 0x300002) 0] } with
      | .fault f => some f
      | _ => none) = some .unalignedAccess := by decide +kernel

/-- A write of a write-one-to-clear bit clears it and no other (R9). -/
theorem test_w1c_clears :
    (match step { (State.reset.raise TIM_ERR__FORCED).raise TIM_ERR__TB_STEP_REFUSED with
        pending := [.registerWrite 0x10 (.bar0 TIM_ERR) 1] } with
      | .next t => some (t.on TIM_ERR__TB_STEP_REFUSED, t.on TIM_ERR__FORCED)
      | _ => none) = some (false, true) := by decide +kernel

/-- An accessory port's limit codes 5 to 30 are 500 to 3,000 mA; 31 is refused (R381). -/
theorem test_ax_limit_refused :
    (match step { State.reset with pending := [.pwrAxConfigure (pkt 0 [31 * 256, 0, 0, 0])] } with
      | .next t => some (t.f (PWR_AX_CFG__LIMIT 0))
      | _ => none) = some 5 := by decide +kernel

end Sys2Proof.Tests
end

/-! ## The scope family: what every step keeps, register accesses, time and reset (spec/00, R5 to R9) -/

namespace Sys2Proof.Machine
open Sys2Proof

variable {s t : State} {fx : Bool}

/-! ### The invariant -/

theorem Inv.regsWf (h : Inv s) : RegsWf s := by
  obtain ⟨-, -, -, hregs, -⟩ := h
  simp only [storeWf, Bool.and_eq_true] at hregs
  exact ⟨hregs.1⟩

/-- An operation that keeps what `Kept` lists keeps the invariant. -/
theorem Inv.of_kept (h : Inv s) (hk : Kept fx s t) : Inv t := by
  obtain ⟨hmem, hbar2, hhost, hregs, hqueue⟩ := h
  obtain ⟨k⟩ := hk
  refine ⟨k.memWf hmem, k.bar2Wf hbar2, k.hostWf hhost, ?_, ?_⟩
  · rw [k.same_variant]; exact k.regsWf hregs
  · rw [k.queue]; exact hqueue

/-- Taking the front command off the queue keeps the invariant. -/
theorem Inv.dequeue {c : Instr} {rest : List Instr} (h : Inv s) (hq : s.pending = c :: rest) :
    Inv { s with pending := rest } := by
  obtain ⟨hmem, hbar2, hhost, hregs, hqueue⟩ := h
  rw [hq, List.all_cons, Bool.and_eq_true] at hqueue
  exact ⟨hmem, hbar2, hhost, hregs, hqueue.2⟩

theorem idle_kept (s : State) : KeptR fx s (idle s) := by
  unfold idle
  rw [KeptR.next]
  exact Kept.ite (State.fabTick_kept (Kept.refl fx s)) (Kept.refl fx s)

theorem exec_keeps_inv {i : Instr} (h : Inv s) (e : exec i s = .next t) : Inv t :=
  h.of_kept ((exec_kept i s).next_kept t e)

theorem step_of_empty (hq : s.pending = []) : step s = idle s := by
  unfold step; rw [hq]

theorem step_of_cons {c : Instr} {rest : List Instr} (hq : s.pending = c :: rest) :
    step s = exec c { s with pending := rest } := by
  unfold step; rw [hq]

/-- Settles O4, from what every command keeps and what a step on an empty queue keeps. -/
theorem stepKeepsInv : Obligations.StepKeepsInv := by
  unfold Obligations.StepKeepsInv
  intro s t h e
  cases hq : s.pending with
  | nil =>
    rw [step_of_empty hq] at e
    exact h.of_kept ((idle_kept (fx := true) s).next_kept t e)
  | cons c rest =>
    rw [step_of_cons hq] at e
    exact exec_keeps_inv (h.dequeue hq) e

/-- Settles O3: reset leaves every store and the queue empty. -/
theorem resetInv : Obligations.ResetInv := by
  unfold Obligations.ResetInv
  exact ⟨rfl, rfl, rfl, rfl, rfl⟩

/-- Settles O6, four of the facts that every command keeps. -/
theorem commandsKeep : Obligations.CommandsKeep := by
  unfold Obligations.CommandsKeep
  intro i s t e
  obtain ⟨k⟩ := (exec_kept i s).next_kept t e
  exact ⟨k.queue, k.same_variant, k.grows, k.ctrUp⟩

/-! ### Reads of BAR0, case by case (R5 to R9) -/

section Reads
variable {m : Byte} {a : Nat}

theorem State.regRead_unaligned (s : State) (m : Byte) (ha : a % 4 ≠ 0) : s.regRead m a = .fault .unalignedAccess := by
  unfold State.regRead
  rw [if_pos ha]

theorem State.regRead_unreached (ha : a % 4 = 0) (hr : s.reaches m a = false) : s.regRead m a = .next (s.emit (.word 0)) := by
  unfold State.regRead
  rw [if_neg (by simp [ha]), if_pos hr]

/-- A latched word is handed back once (R6). -/
theorem State.regRead_latched {x : Byte × Nat × W32} (ha : a % 4 = 0) (hr : s.reaches m a = true)
    (hl : s.latch.find? (fun x => x.1 == m && x.2.1 == a) = some x) :
    s.regRead m a = .next (State.emit { s with latch := s.latch.filter (fun y => !(y.1 == m && y.2.1 == a)) } (.word x.2.2)) := by
  unfold State.regRead
  rw [if_neg (by simp [ha]), if_neg (by simp [hr]), hl]

/-- A register whose read has no meaning of its own and for which nothing is latched. -/
theorem State.regRead_unlatched (ha : a % 4 = 0) (hr : s.reaches m a = true)
    (hl : s.latch.find? (fun x => x.1 == m && x.2.1 == a) = none) (hns : a ≠ TIM_NOW_NS)
    (hsem : ¬ (0x200400 ≤ a ∧ a < 0x200600 ∧ a % 0x10 = 0)) :
    s.regRead m a = .next (((if isPairLow a then (s.hold m (a + 4) (s.readReg (a + 4))).readClear (a + 4) else s).readClear a).emit
      (.word (s.readReg a))) := by
  unfold State.regRead
  rw [if_neg (by simp [ha]), if_neg (by simp [hr]), hl]
  simp only [if_neg hns, if_neg hsem]

theorem State.regRead_pairLow (ha : a % 4 = 0) (hr : s.reaches m a = true)
    (hl : s.latch.find? (fun x => x.1 == m && x.2.1 == a) = none) (hp : isPairLow a = true) :
    s.regRead m a = .next ((((s.hold m (a + 4) (s.readReg (a + 4))).readClear (a + 4)).readClear a).emit (.word (s.readReg a))) := by
  obtain ⟨hns, -, hsem, -⟩ := pairLow_plain hp
  rw [State.regRead_unlatched ha hr hl hns hsem, if_pos hp]

theorem State.regRead_single (ha : a % 4 = 0) (hr : s.reaches m a = true)
    (hl : s.latch.find? (fun x => x.1 == m && x.2.1 == a) = none) (hns : a ≠ TIM_NOW_NS)
    (hsem : ¬ (0x200400 ≤ a ∧ a < 0x200600 ∧ a % 0x10 = 0)) (hp : isPairLow a = false) :
    s.regRead m a = .next ((s.readClear a).emit (.word (s.readReg a))) := by
  rw [State.regRead_unlatched ha hr hl hns hsem, if_neg (by simp [hp])]

/-- A held word is the first one found for its master and register. -/
theorem State.hold_find (s : State) (m : Byte) (a : Nat) (v : W32) :
    (s.hold m a v).latch.find? (fun x => x.1 == m && x.2.1 == a) = some (m, a, v) := by
  simp [State.hold]

/-- The read's RC bits are cleared. -/
theorem State.rd_readClear_self (wf : RegsWf s) (a : Nat) :
    (s.readClear a).rd a = s.rd a &&& ~~~(BitVec.ofNat 32 (rcBits a)) := by
  unfold State.readClear
  by_cases h0 : rcBits a = 0
  · rw [if_pos h0, h0, BitVec.not_zero, BitVec.and_allOnes]
  · rw [if_neg h0]
    dsimp only
    split
    · rw [State.modPwr_rd, State.rd_wr_self wf]
    · rw [State.rd_wr_self wf]

theorem State.rd_readClear_ne (s : State) {a b : Nat} (hb : b ≠ a) : (s.readClear a).rd b = s.rd b := by
  unfold State.readClear
  split
  · rfl
  · dsimp only
    split
    · rw [State.modPwr_rd, State.rd_wr_ne _ _ hb]
    · rw [State.rd_wr_ne _ _ hb]

end Reads

/-- Settles O50, from the three cases of a read: nothing latched at a low word, a word latched, nothing latched at a high word. -/
theorem pairReads : Obligations.PairReads := by
  unfold Obligations.PairReads
  intro m a s ha hp hr hr4 hl
  have ha4 : (a + 4) % 4 = 0 := by omega
  obtain ⟨-, hns4, -, hsem4⟩ := pairLow_plain hp
  refine ⟨⟨_, State.regRead_pairLow ha hr hl hp, ?_, ?_⟩, fun v t hv hrt => ?_, fun hl4 hp4 => ?_⟩
  · rw [State.emit_out, (State.readClear_keeps _ _).2.1, (State.readClear_keeps _ _).2.1]
    rfl
  · rw [State.emit_latch, (State.readClear_keeps _ _).1, (State.readClear_keeps _ _).1]
    exact State.hold_find s m (a + 4) _
  · exact ⟨_, State.regRead_latched ha4 hrt hv, rfl, rfl⟩
  · refine ⟨_, State.regRead_single ha4 hr4 hl4 hns4 hsem4 hp4, ?_⟩
    rw [State.emit_out, (State.readClear_keeps _ _).2.1]

/-! ### Reads and writes of BAR2 and BAR4, and writes of BAR0 -/

section Accesses
variable {m : Byte} {a : Nat}

theorem State.bar2Read_unaligned (s : State) (m : Byte) (ha : a % 4 ≠ 0) : s.bar2Read m a = .fault .unalignedAccess := by
  unfold State.bar2Read
  rw [if_pos ha]

theorem State.bar2Read_table (s : State) (m : Byte) (ha : a % 4 = 0) (h : a < 0x100000) :
    s.bar2Read m a = .next (s.emit (.word (BitVec.ofNat 32 (s.dltWord a)))) := by
  unfold State.bar2Read
  rw [if_neg (by simp [ha]), if_pos h]

theorem State.bar2Read_storage (s : State) (m : Byte) (ha : a % 4 = 0) (h : 0x1000000 ≤ a) (h' : a < 0x5000000) :
    s.bar2Read m a = .next (s.emit (.word (wordAt (storeGet memDefault s.bar2) a))) := by
  unfold State.bar2Read
  rw [if_neg (by simp [ha]), if_neg (by omega), if_neg (by omega), if_pos ⟨h, h'⟩]

theorem State.bar2Read_reserved (s : State) (m : Byte) (ha : a % 4 = 0)
    (h : (0x110000 ≤ a ∧ a < 0x1000000) ∨ 0x5000000 ≤ a) : s.bar2Read m a = .next (s.emit (.word 0)) := by
  unfold State.bar2Read
  rw [if_neg (by simp [ha]), if_neg (by omega), if_neg (by omega), if_neg (by omega)]

theorem State.bar4Read_unaligned (s : State) (ha : a % 4 ≠ 0) : s.bar4Read a = .fault .unalignedAccess := by
  unfold State.bar4Read
  simp only [if_pos ha]

theorem State.regWrite_unaligned (s : State) (m : Byte) (v : Nat) (ha : a % 4 ≠ 0) :
    s.regWrite m a v = .fault .unalignedAccess := by
  unfold State.regWrite
  rw [if_pos ha]

theorem State.regWrite_unreached (v : Nat) (ha : a % 4 = 0) (hr : s.reaches m a = false) : s.regWrite m a v = .next s := by
  unfold State.regWrite
  rw [if_neg (by simp [ha]), if_pos hr]

theorem State.regWrite_nowhere (v : Nat) (ha : a % 4 = 0) (hr : s.reaches m a = true) (hf : regFind a = none) :
    s.regWrite m a v = .next s := by
  unfold State.regWrite
  rw [if_neg (by simp [ha]), if_neg (by simp [hr]), hf]

/-- In a block with no rule of its own a write follows the access codes alone (R7). -/
theorem State.regWrite_plain {d : RegDef} {i j : Nat} (v : Nat) (ha : a % 4 = 0) (hr : s.reaches m a = true)
    (hb : a / 0x100000 = 5 ∨ a / 0x100000 = 12 ∨ a / 0x100000 = 13 ∨ a / 0x100000 = 14 ∨ a / 0x100000 = 16 ∨ a / 0x100000 = 18
      ∨ a / 0x100000 = 19) (hf : regFind a = some (d, i, j)) : s.regWrite m a v = .next (s.writePlain a v) := by
  unfold State.regWrite
  rw [if_neg (by simp [ha]), if_neg (by simp [hr]), hf]
  rcases hb with hb | hb | hb | hb | hb | hb | hb <;> simp only [hb]

theorem State.writePlain_found {d : RegDef} {i j : Nat} (s : State) (v : W32) (hf : regFind a = some (d, i, j)) :
    s.writePlain a v.toNat = s.wr a (((s.rd a &&& ~~~(BitVec.ofNat 32 d.rw)) ||| (v &&& BitVec.ofNat 32 d.rw))
      &&& ~~~(v &&& BitVec.ofNat 32 d.w1c)) := by
  unfold State.writePlain
  rw [hf]
  simp

theorem State.bar2Write_unaligned (s : State) (m : Byte) (v : W32) (ha : a % 4 ≠ 0) :
    s.bar2Write m a v = .fault .unalignedAccess := by
  unfold State.bar2Write
  rw [if_pos ha]

theorem State.bar2Write_storage (s : State) (m : Byte) (v : W32) (ha : a % 4 = 0) (h : 0x1000000 ≤ a) (h' : a < 0x5000000) :
    s.bar2Write m a v = .next (s.writeBar2 a (leBytes 4 v.toNat)) := by
  unfold State.bar2Write
  rw [if_neg (by simp [ha]), if_neg (by omega), if_pos ⟨h, h'⟩]

theorem State.bar2Write_ignored (s : State) (m : Byte) (v : W32) (ha : a % 4 = 0)
    (h : a < 0x100000 ∨ (0x110000 ≤ a ∧ a < 0x1000000) ∨ 0x5000000 ≤ a) : s.bar2Write m a v = .next s := by
  unfold State.bar2Write
  rw [if_neg (by simp [ha]), if_neg (by omega), if_neg (by omega)]

theorem State.bar4Write_unaligned (s : State) (v : W32) (ha : a % 4 ≠ 0) : s.bar4Write a v = .fault .unalignedAccess := by
  unfold State.bar4Write
  rw [if_pos ha]

/-- The MSI-X table: every fourth word is a vector's mask (R64). -/
theorem State.bar4Write_table (s : State) (v : W32) (ha : a % 4 = 0) (h : 0x10000 ≤ a) (h' : a < 0x10400) :
    s.bar4Write a v = .next (if a % 16 = 12 then s.maskVec ((a - 0x10000) / 16) (v.getLsbD 0)
      else s.modCxl (fun c => { c with msixTab := storeSet (fun _ => 0) c.msixTab a v })) := by
  unfold State.bar4Write
  rw [if_neg (by simp [ha]), if_pos ⟨h, h'⟩]
  split <;> rfl

end Accesses

/-- Settles O51, a case of the three kinds of read for each clause. -/
theorem registerReads : Obligations.RegisterReads := by
  unfold Obligations.RegisterReads
  refine ⟨fun m a v s ha => ?_, fun m a v s ha hr => ?_, fun m a s ha => ?_, fun m f s => rfl,
    fun m a s hi ha hr hl hns hsem hp => ?_⟩
  · exact ⟨s.regRead_unaligned m ha, s.regRead_unaligned m ha, s.regWrite_unaligned m _ ha, s.bar2Read_unaligned m ha,
      s.bar2Write_unaligned m v ha, s.bar4Read_unaligned ha, s.bar4Write_unaligned v ha⟩
  · exact ⟨State.regRead_unreached ha hr, State.regRead_unreached ha hr, State.regWrite_unreached _ ha hr⟩
  · exact ⟨s.bar2Read_table m ha, fun h => s.bar2Read_storage m ha h.1 h.2, s.bar2Read_reserved m ha⟩
  · exact ⟨State.regRead_single ha hr hl hns hsem hp, State.rd_readClear_self hi.regsWf a, fun b hb => s.rd_readClear_ne hb⟩

/-- Settles O52, a case of the three kinds of write for each clause. -/
theorem registerWrites : Obligations.RegisterWrites := by
  unfold Obligations.RegisterWrites
  refine ⟨fun m a i j d v s hi ha hr hb hf => ?_, fun m a v s => State.regWrite_nowhere _, fun m a v s => s.bar2Write_storage m v,
    fun m a v s => s.bar2Write_ignored m v, fun m a v s => s.bar4Write_table v, fun m f v s => rfl⟩
  refine ⟨_, State.regWrite_plain _ ha hr hb hf, ?_⟩
  rw [State.writePlain_found s v hf]
  exact ⟨State.rd_wr_self hi.regsWf a _, fun b hb => State.rd_wr_ne s _ hb, rfl, rfl⟩

/-! ### Time (spec/17) -/

section Timebase
variable {p : Pkt}

theorem execTimNowNs_open {master : Byte} (h : s.shut master = false) :
    execTimNowNs master s =
      .next (((s.hold master TIM_NOW_EPOCH (s.rd TIM_NOW_EPOCH)).hold master TIM_NOW_FRAC (s.rd TIM_NOW_FRAC)).emit (.word
        (((s.hold master TIM_NOW_EPOCH (s.rd TIM_NOW_EPOCH)).hold master TIM_NOW_FRAC (s.rd TIM_NOW_FRAC)).rd TIM_NOW_NS))) := by
  unfold execTimNowNs
  rw [if_neg (by simp [h])]

theorem execTimNowNs_shut {master : Byte} (h : s.shut master = true) : execTimNowNs master s = .next (s.emit (.word 0)) := by
  unfold execTimNowNs
  rw [if_pos h]

theorem execTimGet_accepted (ha : accepted 0x0A02 p s = true) :
    execTimGet p s = .next (settled 0x0A02 (s.pktHdr 0x0A02 p) s
      (ok [s.rn TIM_NOW_NS, s.rn TIM_NOW_EPOCH, s.rn TIM_NOW_FRAC, s.rn TIM_ADDEND_LO, s.rn TIM_ADDEND_HI])) :=
  congrArg Host.Outcome.next (runOp_some ha (by rw [entered_fast p s rfl]))

theorem execTimSetAddend_stored (ha : accepted 0x0A00 p s = true) (hlo : 0x154FDF3B6 ≤ p.q 0) (hhi : p.q 0 ≤ 0x155ACB6F4) :
    execTimSetAddend p s =
      .next (settled 0x0A00 (s.pktHdr 0x0A00 p) ((s.wn TIM_ADDEND_LO (p.w 0)).wn TIM_ADDEND_HI (p.w 1)) ok) :=
  congrArg Host.Outcome.next (runOp_some ha (by rw [entered_fast p s rfl, if_neg (by omega)]))

theorem execTimSetAddend_refused (ha : accepted 0x0A00 p s = true) (h : p.q 0 < 0x154FDF3B6 ∨ 0x155ACB6F4 < p.q 0) :
    execTimSetAddend p s = .next (settled 0x0A00 (s.pktHdr 0x0A00 p) s (refuse stBadParam 0x8002)) :=
  congrArg Host.Outcome.next (runOp_some ha (by rw [entered_fast p s rfl, if_pos h]))

/-- A period in range: a running generator keeps the setting for its next pulse, a stopped one takes it now (R346). -/
theorem execFcgConfigure_taken (ha : accepted 0x0A03 p s = true) (hlo : 1000000 * 0x100000000 ≤ p.q 3)
    (hhi : p.q 3 ≤ 2000000000 * 0x100000000) :
    execFcgConfigure p s = .next (settled 0x0A03 (s.pktHdr 0x0A03 p)
      (if ((entered 0x0A03 p s).fcg (p.b 0 0 2)).live.en then
        (entered 0x0A03 p s).modFcg (p.b 0 0 2) (fun f =>
          { f with next := some { en := p.t 0 4, origin := p.w 2 * 0x100000000 + p.w 1, period := p.q 3 } })
      else (entered 0x0A03 p s).fcgApply (p.b 0 0 2)
        { en := p.t 0 4, origin := p.w 2 * 0x100000000 + p.w 1, period := p.q 3 }) ok) :=
  congrArg Host.Outcome.next (runOp_some ha (by rw [if_neg (by omega)]))

theorem execFcgConfigure_refused (ha : accepted 0x0A03 p s = true)
    (h : p.q 3 < 1000000 * 0x100000000 ∨ 2000000000 * 0x100000000 < p.q 3) :
    execFcgConfigure p s = .next (settled 0x0A03 (s.pktHdr 0x0A03 p) (entered 0x0A03 p s) (refuse stBadParam 0x8003)) :=
  congrArg Host.Outcome.next (runOp_some ha (by rw [if_pos h]))

theorem execFcgTick_early {g : Fin 4} (h : (s.fcg g).live.en = false ∨ (s.nowFx : Int) < (s.fcg g).live.at_ (s.fcg g).k) :
    execFcgTick g s = .next s := by
  unfold execFcgTick
  exact if_pos h

/-- A pulse is counted and its instant kept. -/
def State.fcgPulse (s : State) (g : Nat) : State :=
  (s.bumpEvt .tim (FCG_TICK_CNT g)).modFcg g (fun q => { q with last := some ((s.fcg g).live.at_ (s.fcg g).k) })

/-- A pulse reaches the triggers, the compositors, the audio starts and the pacing that follow generator `g`. -/
def State.fcgPassOn (s : State) (g : Nat) : State :=
  (((s.trgTick g).fcgCmp g).audStartDue (fun x => x.fcg == some g)).fcgPace g

/-- A generator that is due: its pulse, then the waiting setting or the next instant. -/
theorem execFcgTick_due {g : Fin 4} (hen : (s.fcg g).live.en = true) (hdue : (s.fcg g).live.at_ (s.fcg g).k ≤ (s.nowFx : Int)) :
    execFcgTick g s = .next ((match (s.fcg g).next with
      | some c => (s.fcgPulse g).fcgApply g c
      | none => ((s.fcgPulse g).modFcg g (fun q => { q with k := q.k + 1 })).fcgShow g).fcgPassOn g) := by
  have h : ¬ ((s.fcg g).live.en = false ∨ (s.nowFx : Int) < (s.fcg g).live.at_ (s.fcg g).k) := by
    simp only [hen, Bool.true_eq_false, false_or, not_lt]
    exact hdue
  unfold execFcgTick
  refine (if_neg h).trans ?_
  cases (s.fcg g).next <;> rfl

end Timebase

/-- Settles O41, one law of the timebase and its generators for each clause. -/
theorem time : Obligations.Time := by
  unfold Obligations.Time
  refine ⟨fun s => rfl, fun m s => execTimNowNs_open, fun m s => execTimNowNs_shut, fun p s => execTimGet_accepted,
    fun p s => execTimSetAddend_stored, fun p s => execTimSetAddend_refused, fun p s ha hlo hhi hen => ?_,
    fun p s ha hlo hhi hen => ?_, fun p s => execFcgConfigure_refused, fun g s => execFcgTick_early,
    fun g u v s hen hdue hnext hu hv => ?_, fun g c u v s hen hdue hnext hu hv => ?_⟩
  · rw [exec_fcgConfigure, execFcgConfigure_taken ha hlo hhi, if_neg (by simp [hen])]
  · rw [exec_fcgConfigure, execFcgConfigure_taken ha hlo hhi, if_pos hen]
  · rw [exec_fcgTick, execFcgTick_due hen hdue, hnext, hv, hu]
    rfl
  · rw [exec_fcgTick, execFcgTick_due hen hdue, hnext, hv, hu]
    rfl

/-! ### Reset -/

/-- Reset lists no register, so each reads as its Reset column gives it (R8). -/
theorem State.reset_rn (a : Nat) : State.reset.rn a = (regReset State.reset.dev.variant a).toNat := rfl

/-- Settles O57: the Reset column of each register, at every index. -/
theorem resetValues : Obligations.ResetValues := by
  unfold Obligations.ResetValues
  simp only [State.reset_rn]
  and_intros <;> decide +kernel

end Sys2Proof.Machine

/-! ## The command packet family: the working region, replies, packets from fetch to end, header checks (spec/02) -/

namespace Sys2Proof.Machine
open Sys2Proof

variable {s t : State}

/-! ### The working region (R453) -/

/-- Equal stores of the working region read alike at every address. -/
theorem State.memB_congr (h : t.mem = s.mem) (a : Nat) : t.memB a = s.memB a := congrArg (fun m => storeGet memDefault m a) h

/-- A command that `writesRegion` does not list leaves the store of the working region as it is. -/
theorem exec_mem {i : Instr} (hw : writesRegion i = false) (e : exec i s = .next t) : t.mem = s.mem := by
  obtain ⟨k⟩ := (exec_kept i s).next_kept t e
  exact k.same (by simp [hw])

/-- Settles O7: the region's store stays, so each of its bytes does. -/
theorem regionFrame : Obligations.RegionFrame := by
  unfold Obligations.RegionFrame
  exact fun i s t hw e a => State.memB_congr (exec_mem hw e) a

/-! ### Replies (R22, R31, R33) -/

section Replies
variable {r : Reply}

theorem runAt_add (bs : List Byte) (a i : Nat) : runAt bs a (a + i) = bs[i]? := by simp [runAt]

/-- A written run of bytes reads back from host memory. -/
theorem hostPut_find_in (m : List (Nat × Byte)) (a : Nat) {i : Nat} {bs : List Byte} (hi : i < bs.length) :
    storeFind (hostPut m a bs) (a + i) = bs[i]? := by
  rw [hostPut_find, runAt_add, List.getElem?_eq_getElem hi]
  rfl

theorem State.replyImage_length (s : State) (r : Reply) : (s.replyImage r).length = 64 := replyBytes_length r _ _

/-- Setting a PEND bit leaves every field of another register. -/
theorem State.f_pend_ne (s : State) {x y : Fld} (i : Nat) (e : Bool) (v : Nat) (hy : y.addr ≠ x.addr) :
    (s.pend x i e v).f y = s.f y := by
  unfold State.f State.rn
  rw [(State.pend_logs (l := [x.addr]) s i e v (by simp)).rd (by simp [hy])]

/-- The tail of the reply ring after a reply, as CMD_RP_TAIL shows it: nine bits hold it for rings of up to 256 slots. -/
theorem State.replyPlaced_f_tail (wf : RegsWf s) (hlg : s.f (CMD_CR_CFG__LOG2N r.hdr.ring) ≤ 8) :
    (s.replyPlaced r).f (CMD_RP_TAIL__TAIL r.hdr.ring) =
      (s.f (CMD_RP_TAIL__TAIL r.hdr.ring) + 1) % 2 ^ (s.f (CMD_CR_CFG__LOG2N r.hdr.ring) + 1) := by
  rw [State.replyPlaced_tail]
  unfold State.replyMoved
  generalize s.replyAt _ = a, s.replyImage r = bs
  have wf' : RegsWf ((s.unstart r.hdr).writeHost a bs) := ⟨wf.rising⟩
  have fits : 2 ^ (s.f (CMD_CR_CFG__LOG2N r.hdr.ring) + 1) ≤ 2 ^ 9 := Nat.pow_le_pow_right (by decide) (by omega)
  rw [State.f_setF_self wf' _ _ (by simp [CMD_RP_TAIL__TAIL])]
  exact Nat.mod_eq_of_lt (Nat.lt_of_lt_of_le (Nat.mod_lt _ (Nat.two_pow_pos _)) fits)

/-- What setting a ring's PEND bit leaves alone once a reply stands in its ring (R33). -/
theorem State.replyPend_logs (s : State) (r : Reply) (e : Bool) :
    Logs [CMD_RP_TAIL r.hdr.ring, CMD_IRQ] (s.replyPlaced r) ((s.replyPlaced r).pend CMD_IRQ__PEND r.hdr.ring e 1) :=
  State.pend_logs _ _ _ _ (by simp [CMD_IRQ__PEND])

/-- CMD_IRQ lies apart from the tails of the reply rings. -/
theorem CMD_RP_TAIL_ne_IRQ {n : Nat} (hn : n < 4) : (CMD_RP_TAIL__TAIL n).addr ≠ CMD_IRQ__PEND.addr := by
  simp only [CMD_RP_TAIL__TAIL, CMD_RP_TAIL, CMD_IRQ__PEND, CMD_IRQ]
  omega

end Replies

/-- Settles O8: the reply is placed, its tail moves on and its PEND bit is set. -/
theorem replyWritten : Obligations.ReplyWritten := by
  unfold Obligations.ReplyWritten
  intro s h o rising late nr hring hlg full held ploc
  have wf : RegsWf s := ⟨rising⟩
  have logs := State.replyPend_logs s ⟨h, false, o⟩ ((s.replyPlaced ⟨h, false, o⟩).bit CMD_IRQ__EN h.ring)
  obtain ⟨hmem, hhost, hbar2, -⟩ := logs.frame.parts
  have host := hhost.trans (State.replyPlaced_host s ⟨h, false, o⟩)
  have len := State.replyImage_length s ⟨h, false, o⟩
  have e := (State.complete_writes late nr full held).trans (State.writeReply_host ploc)
  dsimp only
  rw [e]
  refine ⟨fun i hi => ?_, fun x hx => ?_, ?_, ?_, ?_, ?_, ?_⟩
  · rw [host, ← beq_false]
    exact hostPut_find_in s.host (s.replyAt h.ring) (len.symm ▸ hi)
  · rw [host]
    exact hostPut_find_out s.host (a := s.replyAt h.ring) (by rw [len]; exact hx)
  · rw [State.f_pend_ne _ _ _ _ (CMD_RP_TAIL_ne_IRQ hring)]
    exact State.replyPlaced_f_tail (r := ⟨h, false, o⟩) wf hlg
  · exact State.pend_bit (State.replyPlaced_wf wf) _ _ _ hring (by decide)
  · exact (State.replyPlaced_only (r := ⟨h, false, o⟩)).trans logs.regs
  · exact hmem.trans (State.replyPlaced_mem s _)
  · exact hbar2.trans (State.replyPlaced_bar2 s _)

/-! ### Fetching (R25, R26, R34, R35, R37, R38, R40, R452) -/

section Fetch
variable {ring : Fin 4} {slot : Slot} {n opcode flags len target rsv : Nat} {seq : W32} {ps : List W32} {sp : OpSpec}

theorem execPacketFetch_unserved (h : s.fetchable ring = false ∨ s.passedBy ring = true) :
    execPacketFetch ring slot s = .next s := by
  unfold execPacketFetch
  exact if_pos h

/-- A slot that reads as a packet: it starts, waits or is refused, with its ring the one served last. -/
theorem execPacketFetch_packet {opcode flags len target : BitVec 16} {rsv : W32} (hf : s.fetchable ring = true)
    (hp : s.passedBy ring = false) (hr : s.slotRead ring slot = .packet opcode flags seq len target rsv ps) :
    execPacketFetch ring slot s = .next (({ s with cmd := { s.cmd with turn := ring } } : State).startPacket ring
      opcode.toNat flags.toNat seq len.toNat target.toNat rsv.toNat ps) := by
  have hr' : ({ s with cmd := { s.cmd with turn := ring } } : State).slotRead ring slot = .packet opcode flags seq len target rsv ps := hr
  unfold execPacketFetch
  rw [if_neg (by simp [hf, hp])]
  simp only [hr']

theorem execPacketFetch_failed {addr : Nat} {poisoned : Bool} (hf : s.fetchable ring = true) (hp : s.passedBy ring = false)
    (hr : s.slotRead ring slot = .failed addr poisoned) :
    execPacketFetch ring slot s =
      let u := ({ s with cmd := { s.cmd with turn := ring } } : State)
      let v := ((u.setF (CMD_CR_CFG__EN ring) 0).raise (CMD_CR_STAT__FETCH_ERR ring)).log .cmd evDmaError 0xFFFF addr (addr / 0x100000000)
        (ring + 0x10000 * b2n poisoned)
      .next (if v.cxl.fallback then v.aer .advisoryNonFatal else v) := by
  have hr' : ({ s with cmd := { s.cmd with turn := ring } } : State).slotRead ring slot = .failed addr poisoned := hr
  unfold execPacketFetch
  rw [if_neg (by simp [hf, hp])]
  simp only [hr']

/-- With nothing of the ring in flight no barrier holds a packet (R35). -/
theorem barrier_open (hi : s.inflight n = []) (flags : Nat) :
    ¬ ((s.inflight n).any (fun e => bitAt e.flags 0) || (bitAt flags 0 && !(s.inflight n).isEmpty)) = true := by
  simp [hi]

theorem State.startPacket_refused {o : Outc} (hi : s.inflight n = []) (hs : opSpec opcode = some sp)
    (hc : headerCheck sp s.dev.safe s.dlt.disabled n len flags target rsv ps = some o) :
    s.startPacket n opcode flags seq len target rsv ps =
      ((s.setWait n false false).headNext n).complete { ring := n, seq := seq, opcode := opcode, flags := flags } o := by
  unfold State.startPacket
  simp only [if_neg (barrier_open hi flags), hs, hc]

theorem State.startPacket_fast (hi : s.inflight n = []) (hs : opSpec opcode = some sp)
    (hc : headerCheck sp s.dev.safe s.dlt.disabled n len flags target rsv ps = none) (hf : sp.fast = true) :
    s.startPacket n opcode flags seq len target rsv ps = ((s.setWait n false false).headNext n).start {
      ring := n, seq := seq, opcode := opcode, target := target, flags := flags, fast := true
      queued := false, urgent := false, late := false, waitB := false } := by
  unfold State.startPacket
  simp only [if_neg (barrier_open hi flags), hs, hc, hf]
  rfl

theorem State.startPacket_queued (hi : s.inflight n = []) (hs : opSpec opcode = some sp)
    (hc : headerCheck sp s.dev.safe s.dlt.disabled n len flags target rsv ps = none) (hf : sp.fast = false)
    (hb : s.busyHolder n target = none) (ha : s.flash.activating = none) (hu : s.fwqUsed < 64) :
    s.startPacket n opcode flags seq len target rsv ps = ((s.setWait n false false).headNext n).start {
      ring := n, seq := seq, opcode := opcode, target := target, flags := flags, fast := false
      queued := true, urgent := bitAt flags 2, late := false, waitB := false } := by
  have room : ¬ 64 ≤ s.fwqUsed := by omega
  unfold State.startPacket
  simp only [if_neg (barrier_open hi flags), hs, hc, hf, hb, ha, room]
  rfl

end Fetch

/-- Settles O9: the slot read and the header checks choose the case. -/
theorem packetStarts : Obligations.PacketStarts := by
  unfold Obligations.PacketStarts
  refine ⟨fun ring slot opcode flags seq len target rsv ps sp s hf hp hr hi hs hc hfast => ?_,
    fun ring slot opcode flags seq len target rsv ps sp s hf hp hr hi hs hc hslow hb ha hu => ?_,
    fun ring slot opcode flags seq len target rsv ps sp o s hf hp hr hi hs hc => ?_,
    fun ring slot addr poisoned s => execPacketFetch_failed, fun ring slot s => execPacketFetch_unserved⟩
  · exact (execPacketFetch_packet hf hp hr).trans (congrArg Host.Outcome.next (State.startPacket_fast hi hs hc hfast))
  · exact (execPacketFetch_packet hf hp hr).trans (congrArg Host.Outcome.next (State.startPacket_queued hi hs hc hslow hb ha hu))
  · exact (execPacketFetch_packet hf hp hr).trans (congrArg Host.Outcome.next (State.startPacket_refused hi hs hc))

/-! ### Doorbells (R24, R25, R32) -/

/-- The test of a command doorbell, said as what lets it through. -/
theorem execCmdDb_eq (ring : Fin 4) (v : W32) (s : State) :
    execCmdDb ring v s = .next
      (if v.toNat % 512 < 2 * s.ringN ring ∧ s.crAhead ring (v.toNat % 512) ≤ s.ringN ring
          ∧ s.crAhead ring (s.cmd.tail.getD ring 0) ≤ s.crAhead ring (v.toNat % 512)
        then { s with cmd := { s.cmd with tail := s.cmd.tail.setIfInBounds ring (v.toNat % 512) } }
        else s.raise (CMD_CR_STAT__DB_RANGE ring)) := by
  unfold execCmdDb
  dsimp only
  split
  · rw [if_neg (by omega)]
  · rw [if_pos (by omega)]

theorem execCmdRpHead_shut {ring : Fin 4} {v : W32} (h : s.dev.ready = false) : execCmdRpHead ring v s = .next s := by
  unfold execCmdRpHead
  rw [if_pos (by simp [State.shut, h])]

theorem execCmdRpHead_ready (ring : Fin 4) (v : W32) (h : s.dev.ready = true) :
    execCmdRpHead ring v s = .next
      (if v.toNat % 512 < 2 * s.ringN ring
          ∧ (v.toNat % 512 + 2 * s.ringN ring - s.f (CMD_RP_HEAD__HEAD ring) % (2 * s.ringN ring)) % (2 * s.ringN ring) ≤ s.rpUsed ring
        then (State.flushHeld ring (s.setF (CMD_RP_HEAD__HEAD ring) (v.toNat % 512)).cmd.held.length
          (s.setF (CMD_RP_HEAD__HEAD ring) (v.toNat % 512))).afterEnd 0
        else s.raise (CMD_CR_STAT__DB_RANGE ring)) := by
  unfold execCmdRpHead
  dsimp only
  rw [if_neg (by simp [State.shut, h])]
  split
  · rw [if_neg (by omega)]
  · rw [if_pos (by omega)]

/-- Settles O10, one law per doorbell and state of the device. -/
theorem doorbells : Obligations.Doorbells := by
  unfold Obligations.Doorbells
  exact ⟨fun ring v s => execCmdDb_eq ring v s, fun ring v s h => execCmdRpHead_ready ring v h,
    fun ring v s => execCmdRpHead_shut⟩

/-! ### The ends of packets (R32, R34, R36, R37, R41, R47) -/

section Ends
variable {ring : Fin 4} {seq : W32} {opcode : BitVec 16} {r : Reply} {e : Started}

/-- While no reset or sleep is planned an ended operation has its own outcome (R396). -/
theorem State.pstateOut_none (h : s.dev.after = none) (r : Reply) : s.pstateOut r = some r.out := by
  unfold State.pstateOut
  rw [h]

theorem execPacketComplete_found
    (hr : s.cmd.done.find? (fun r => r.hdr.ring == ring.val && r.hdr.seq == seq && !s.isLate r.hdr) = some r)
    (ha : s.dev.after = none) :
    execPacketComplete ring seq s = .next (((State.complete { s with cmd := { s.cmd with done := s.cmd.done.erase r } }
      r.hdr r.out).dropAfter r.hdr r.out).afterEnd r.hdr.opcode) := by
  unfold execPacketComplete
  simp only [hr, State.pstateOut_none ha]

theorem execCmdLateDone_found
    (hr : s.cmd.done.find? (fun r => r.hdr.ring == ring.val && r.hdr.seq == seq && s.isLate r.hdr) = some r)
    (ha : s.dev.after = none) :
    execCmdLateDone ring seq s = .next ((((State.unstart { s with cmd := { s.cmd with done := s.cmd.done.erase r } } r.hdr).log
      .cmd evCmdLateDone 0xFFFF seq.toNat r.out.status).dropAfter r.hdr r.out).afterEnd r.hdr.opcode) := by
  unfold execCmdLateDone
  simp only [hr, State.pstateOut_none ha]

/-- The header of a started packet. -/
def Started.hdr (e : Started) : Hdr := ⟨e.ring, e.seq, e.opcode, e.flags, e.id⟩

/-- A sensor transfer of packet `h` waits for its channel. -/
def State.xferWaits (s : State) (h : Hdr) : Bool := s.port.toList.any (fun q => q.xfer.any (fun x => x.hdr == some h && !x.running))

theorem execReplyBoundExpiry_found
    (he : s.cmd.started.find? (fun e => e.ring == ring.val && e.seq == seq && e.opcode == opcode.toNat && !e.late) = some e)
    (full : s.rpFull e.ring = false) : execReplyBoundExpiry ring seq opcode s = .next ((s.expire e).afterEnd 0) := by
  unfold execReplyBoundExpiry
  simp only [he, full]
  rfl

section Expire
variable (hb : e.waitB = false) (hd : s.cmd.done = []) (hq : s.resetOf e.hdr = none) (hx : s.xferWaits e.hdr = false)
include hb hd hq hx

/-- A packet that never left the firmware queue is abandoned at its bound (R41). -/
theorem State.expire_queued (hqd : e.queued = true) :
    s.expire e = State.deliver
      { s.bumpEvt .cmd CMD_TIMEOUT_CNT with
        cmd := { (s.bumpEvt .cmd CMD_TIMEOUT_CNT).cmd with abandoned := (s.bumpEvt .cmd CMD_TIMEOUT_CNT).cmd.abandoned ++ [e] } }
      ⟨e.hdr, false, refuse stTimeout 0x0000⟩ := by
  unfold Started.hdr State.xferWaits at hx
  unfold Started.hdr at hq ⊢
  unfold State.expire
  simp only [hd, List.find?_nil, hq, hx, hb, hqd]
  rfl

/-- A firmware-path packet being executed is answered and kept as cut off from its reply (R41). -/
theorem State.expire_executing (hqd : e.queued = false) (hf : e.fast = false) :
    s.expire e =
      let u := (s.bumpEvt .cmd CMD_TIMEOUT_CNT).deliver ⟨e.hdr, true, refuse stTimeout 0x0001⟩
      { u with cmd := { u.cmd with started := u.cmd.started ++ [{ e with late := true }] } } := by
  unfold Started.hdr State.xferWaits at hx
  unfold Started.hdr at hq ⊢
  unfold State.expire
  simp only [hd, List.find?_nil, hq, hx, hb, hqd, hf]
  rfl

end Expire

theorem execFwqUrgentAge_found
    (he : s.cmd.started.find? (fun e => e.ring == ring.val && e.seq == seq && e.queued && !e.urgent) = some e) :
    execFwqUrgentAge ring seq s =
      .next { s with cmd := { s.cmd with started := s.cmd.started.map (fun x => if x.id = e.id then { x with urgent := true } else x) } } := by
  unfold execFwqUrgentAge
  simp only [he]

theorem execFwqUrgentAge_none
    (he : s.cmd.started.find? (fun e => e.ring == ring.val && e.seq == seq && e.queued && !e.urgent) = none) :
    execFwqUrgentAge ring seq s = .next s := by
  unfold execFwqUrgentAge
  simp only [he]

end Ends

/-- Settles O11, one law per way a packet ends. -/
theorem packetEnds : Obligations.PacketEnds := by
  unfold Obligations.PacketEnds
  refine ⟨fun ring seq r s => execPacketComplete_found, fun ring seq r s => execCmdLateDone_found,
    fun ring seq opcode e s he full hqd hb hd hq hx => ?_, fun ring seq opcode e s he full hqd hf hb hd hq hx => ?_,
    fun ring seq e s => execFwqUrgentAge_found, fun ring seq s => execFwqUrgentAge_none, fun ring s => rfl⟩
  · rw [exec_replyBoundExpiry, execReplyBoundExpiry_found he full, State.expire_queued hb hd hq hx hqd]
    rfl
  · rw [exec_replyBoundExpiry, execReplyBoundExpiry_found he full, State.expire_executing hb hd hq hx hqd hf]
    rfl

/-! ### Header checks and reserved words (R27, R44, R45, R452) -/

section Header
variable {sp : OpSpec} {safe : Bool} {off : List Nat} {ring len flags target rsv : Nat} {ps : List W32}

/-- The header checks of R452 that ask for no right: those of LEN, of the reserved bits and of TARGET. -/
def headerForm (sp : OpSpec) (off : List Nat) (len flags target rsv : Nat) (ps : List W32) : Option Outc :=
  headerCheck { sp with cr0 := false } false off 0 len flags target rsv ps

/-- The header checks of R452 that ask for a right: CR0's (R45), then the safe state's (R44). -/
def headerRight (sp : OpSpec) (safe : Bool) (ring : Nat) : Option Outc :=
  if sp.cr0 ∧ ring ≠ 0 then some (refuse stNotPermitted 0x0001)
  else if safe ∧ safeOps.contains sp.code = false then some (refuse stSafe 0)
  else none

/-- The header checks judge a packet's form first, then its rights. -/
theorem headerCheck_eq_or :
    headerCheck sp safe off ring len flags target rsv ps = (headerForm sp off len flags target rsv ps).or (headerRight sp safe ring) := by
  have hl : lenCheck { sp with cr0 := false } len ps = lenCheck sp len ps := rfl
  unfold headerForm headerRight headerCheck
  rw [hl]
  cases lenCheck sp len ps with
  | some o => split <;> rfl
  | none =>
    dsimp only
    by_cases h1 : len % 4 ≠ 0 ∨ 252 < len
    · rw [if_pos h1, if_pos h1]; rfl
    · rw [if_neg h1, if_neg h1]
      by_cases h2 : flags / 8 ≠ 0 ∨ rsv ≠ 0
      · rw [if_pos h2, if_pos h2]; rfl
      · rw [if_neg h2, if_neg h2]
        by_cases h3 : tgtOk sp.kind off target = false
        · rw [if_pos h3, if_pos h3]; rfl
        · rw [if_neg h3, if_neg h3]; rfl

/-- A packet that passes has good form, whatever its rights on another ring or in another state. -/
theorem headerForm_of_pass (h : headerCheck sp safe off ring len flags target rsv ps = none) :
    headerForm sp off len flags target rsv ps = none ∧ headerRight sp safe ring = none := by
  rw [headerCheck_eq_or] at h
  exact Option.or_eq_none_iff.mp h

/-- The safe state refuses an opcode that it does not list (R44). -/
theorem headerCheck_safe (h : headerCheck sp false off ring len flags target rsv ps = none) (hc : sp.code ∉ safeOps) :
    headerCheck sp true off ring len flags target rsv ps = some (refuse stSafe 0) := by
  obtain ⟨hform, hright⟩ := headerForm_of_pass h
  have ring0 : ¬ (sp.cr0 ∧ ring ≠ 0) := fun c => by simp [headerRight, c] at hright
  rw [headerCheck_eq_or, hform]
  unfold headerRight
  rw [if_neg ring0, if_pos (by simp [hc])]
  rfl

/-- The safe state changes nothing for an opcode that it lists (R44). -/
theorem headerCheck_safe_listed (hc : sp.code ∈ safeOps) :
    headerCheck sp true off ring len flags target rsv ps = headerCheck sp false off ring len flags target rsv ps := by
  have same : headerRight sp true ring = headerRight sp false ring := by simp [headerRight, hc]
  rw [headerCheck_eq_or, same, ← headerCheck_eq_or]

/-- An opcode listed as CR0 is refused on another ring (R45), in the safe state too. -/
theorem headerCheck_notPermitted (h : headerCheck sp false off 0 len flags target rsv ps = none) (hcr : sp.cr0 = true)
    (hr : ring ≠ 0) : headerCheck sp safe off ring len flags target rsv ps = some (refuse stNotPermitted 0x0001) := by
  rw [headerCheck_eq_or, (headerForm_of_pass h).1]
  unfold headerRight
  rw [if_pos ⟨hcr, hr⟩]
  rfl

end Header

/-- The row of an opcode is the row that carries it. -/
theorem opSpec_code {op : Nat} {sp : OpSpec} (h : opSpec op = some sp) : sp.code = op := by
  simpa using List.find?_some h

section Rows
variable {op : Nat} {p : Pkt} {body : Body} {sp : OpSpec} {o : Outc} {i : Nat}

/-- A packet abandoned at its bound is forgotten (R41). -/
theorem runOp_abandoned (hs : (opSpec op).isSome = true) (ha : s.cmd.abandoned.any (·.is (s.pktHdr op p)) = true) :
    runOp op p s body = { s with cmd := { s.cmd with abandoned := s.cmd.abandoned.eraseP (·.is (s.pktHdr op p)) } } := by
  obtain ⟨sp, hs⟩ := Option.isSome_iff_exists.mp hs
  unfold runOp
  simp only [hs, ha]
  rfl

section Live
variable (hs : opSpec op = some sp) (ha : s.cmd.abandoned.any (·.is (s.pktHdr op p)) = false)
include hs ha

theorem runOp_headerRefused
    (hc : headerCheck sp s.dev.safe s.dlt.disabled (s.pktHdr op p).ring p.params.length (s.pktHdr op p).flags p.target.toNat 0 p.params
      = some o) :
    runOp op p s body = s.complete (s.pktHdr op p) o := by
  unfold runOp
  simp only [hs, ha, hc]
  rfl

variable (hc : headerCheck sp s.dev.safe s.dlt.disabled (s.pktHdr op p).ring p.params.length (s.pktHdr op p).flags p.target.toNat 0
  p.params = none)
include hc

theorem runOp_reserved_fast (hw : reservedWord sp p.params = some i) (hf : sp.fast = true) :
    runOp op p s body = s.complete (s.pktHdr op p) (firstBad i (body s).2) := by
  unfold runOp
  simp only [hs, ha, hc, hf, hw]
  rfl

theorem runOp_reserved_slow (hw : reservedWord sp p.params = some i) (hf : sp.fast = false) (ht : s.turn (s.pktHdr op p) = true) :
    runOp op p s body = (s.restart (s.pktHdr op p) (fun e => { e with queued := false })).finishF (s.pktHdr op p)
      (firstBad i (body (s.restart (s.pktHdr op p) (fun e => { e with queued := false }))).2) := by
  unfold runOp
  simp only [hs, ha, hc, hf, hw, ht]
  rfl

theorem runOp_waits (hf : sp.fast = false) (ht : s.turn (s.pktHdr op p) = false) : runOp op p s body = s := by
  unfold runOp
  simp only [hs, ha, hc, hf, ht]
  rfl

end Live
end Rows

/-- Settles O58: the header checks answer, so the row completes with their answer. -/
theorem safeStateOpcodes : Obligations.SafeStateOpcodes := by
  unfold Obligations.SafeStateOpcodes
  refine ⟨fun op sp p s body hs hsafe ha hc hop => ?_, fun op sp p off hs hop => ?_, fun op sp p s body hs hcr hring ha hc => ?_⟩
  · refine runOp_headerRefused hs ha ?_
    rw [hsafe]
    exact headerCheck_safe hc (by rw [opSpec_code hs]; exact hop)
  · exact headerCheck_safe_listed (by rw [opSpec_code hs]; exact hop)
  · exact runOp_headerRefused hs ha (headerCheck_notPermitted hc hcr hring)

/-- Settles O59, one law per way a row ends before its meaning takes effect. -/
theorem headerRefusals : Obligations.HeaderRefusals := by
  unfold Obligations.HeaderRefusals
  exact ⟨fun op p s body => runOp_abandoned, fun op sp p s body o hs ha hc => runOp_headerRefused hs ha hc,
    fun op sp p s body i hs ha hc => runOp_reserved_fast hs ha hc, fun op sp p s body i hs ha hc => runOp_reserved_slow hs ha hc,
    fun op sp p s body hs ha hc => runOp_waits hs ha hc⟩

end Sys2Proof.Machine

/-! ## The sensor control channel (spec/05, R103 to R106, R108, R451) -/

namespace Sys2Proof.Machine
open Sys2Proof

variable {s : State}

/-! ### Guarded buffers (R30, R453) -/

section Guard
variable {r : BufRef} {w : Nat} {k : State → State × Option Outc} {t : State}

/-- A guarded body that answers OK has used its buffer. -/
theorem State.refGuard_ok {l : List Nat} (h : s.refOk r = true) (hk : k s = (t, some (ok l))) :
    s.refGuard r w k = (t.refUse r, some (ok l)) := State.refGuard_run h hk

/-- A guarded body that waits for an event has used its buffer. -/
theorem State.refGuard_waits (h : s.refOk r = true) (hk : k s = (t, none)) : s.refGuard r w k = (t.refUse r, none) :=
  State.refGuard_run h hk

/-- A guarded body that refuses a parameter has not used its buffer. -/
theorem State.refGuard_badParam {d : Nat} (h : s.refOk r = true) (hk : k s = (t, some (refuse stBadParam d))) :
    s.refGuard r w k = (t, some (refuse stBadParam d)) := State.refGuard_run h hk

end Guard

/-! ### Profiles, settings and transfers that packets ask for (R105, R106, R108, R451) -/

section Channel
variable {p : Pkt} {bs : List Byte} {f : Profile}

/-- Port `c` holds the profile that `bs` spells: its fields, and the control channel's registers, the settings window and line and K. -/
def State.profileLoaded (s : State) (c : Nat) (bs : List Byte) (f : Profile) : State :=
  let u := ((((s.modPt c (fun q => { q with profile := some f })).setF (LNK_P_SCC__STRETCH_MAX c) (ceilDiv (fieldAt bs 40 2) 10)).setF
    (LNK_P_SCC__DIV c) (fieldAt bs 38 2)).setB (LNK_P_SCC__SPI c) (bitAt (fieldAt bs 30 1) 1)).setB (LNK_P_SCC__SPI_MODE3 c)
    (bitAt (fieldAt bs 30 1) 2)
  ((u.setF (LNK_P_SET_CFG__SET_WINDOW_US c) (fieldAt bs 34 2)).setF (LNK_P_SET_CFG__SET_LINE c) (fieldAt bs 32 2)).setF (LNK_P_SETQ__K c) f.k

theorem execSnsLoadProfile_loaded (ha : accepted 0x0104 p s = true) (hr : (entered 0x0104 p s).refOk (p.ref 0) = true)
    (hen : (entered 0x0104 p s).on (LNK_P_CFG__EN p.idx) = false) (hb : (entered 0x0104 p s).readRef (p.ref 0) p.buf = some bs)
    (hf : parseProfile bs = some f) :
    execSnsLoadProfile p s = .next (settled 0x0104 (s.pktHdr 0x0104 p)
      ((((entered 0x0104 p s).profileLoaded p.idx bs f).commitSince (entered 0x0104 p s)).refUse (p.ref 0)) ok) := by
  refine congrArg Host.Outcome.next (runOp_some ha (State.refGuard_ok hr ?_))
  rw [if_neg (by simp [hen])]
  simp only [hb, hf]
  rfl

theorem execSnsLoadProfile_malformed (ha : accepted 0x0104 p s = true) (hr : (entered 0x0104 p s).refOk (p.ref 0) = true)
    (hen : (entered 0x0104 p s).on (LNK_P_CFG__EN p.idx) = false) (hb : (entered 0x0104 p s).readRef (p.ref 0) p.buf = some bs)
    (hf : parseProfile bs = none) :
    execSnsLoadProfile p s = .next (settled 0x0104 (s.pktHdr 0x0104 p) (entered 0x0104 p s) (refuse stBadParam 0x8005)) := by
  refine congrArg Host.Outcome.next (runOp_some ha (State.refGuard_badParam hr ?_))
  rw [if_neg (by simp [hen])]
  simp only [hb, hf]

/-- Only the four ports hold a profile. -/
theorem State.profile_port {c : Nat} (h : (s.pt c).profile = some f) : c < 4 := by
  by_contra hc
  rw [State.pt_out s (by omega)] at h
  exact nomatch h

/-- The entries that SNS_QUEUE_SETTINGS brings, in order. -/
def Pkt.entries (p : Pkt) : List Nat := (List.range (p.b 1 0 8)).map (fun i => p.w (4 + i))

theorem execSnsQueueSettings_queued (ha : accepted 0x0106 p s = true) (htag : p.w 0 ≠ 0)
    (hf : ((entered 0x0106 p s).pt p.idx).profile = some f)
    (ht : (entered 0x0106 p s).setTime p.idx f (Pkt.entries p) ≤ 3000 * (entered 0x0106 p s).f (LNK_P_SET_CFG__SET_WINDOW_US p.idx))
    (hq : ((entered 0x0106 p s).pt p.idx).queue.length < 8) :
    execSnsQueueSettings p s = .next (settled 0x0106 (s.pktHdr 0x0106 p)
      ((entered 0x0106 p s).modPt p.idx (fun q => { q with queue := q.queue ++ [⟨p.w 0, Pkt.entries p⟩] }))
      (ok [((entered 0x0106 p s).pt p.idx).queue.length + 1])) := by
  unfold Pkt.entries at *
  exact congrArg Host.Outcome.next (runOp_some ha (by
    simp only [if_neg htag, hf, if_neg (Nat.not_lt.mpr ht), if_neg (Nat.not_le.mpr hq), State.pt_modPt _ _ (State.profile_port hf),
      List.length_append, List.length_singleton]))

/-- The transfer that SNS_CTRL_XFER asks for, with the bytes to write. -/
def ctrlXfer (h : Hdr) (p : Pkt) (bs : List Byte) : Xfer :=
  { hdr := some h, addr := p.b 0 0 7, noStop := p.t 0 8, write := bs.take (p.b 1 0 16), readLen := p.b 1 16 16
    readRef := ((p.ref 8).addr, (p.ref 8).len, (p.ref 8).space), running := false }

theorem execSnsCtrlXfer_waits (ha : accepted 0x0105 p s = true) (hn : p.b 1 0 16 ≤ 4096) (hm : p.b 1 16 16 ≤ 4096)
    (hnl : p.b 1 0 16 ≤ (p.ref 4).len) (hml : p.b 1 16 16 ≤ (p.ref 8).len)
    (h4 : (entered 0x0105 p s).refOk (p.ref 4) = true) (h8 : (entered 0x0105 p s).refOk (p.ref 8) = true)
    (hfit : (entered 0x0105 p s).on (LNK_P_CFG__EN p.idx) = true → ((entered 0x0105 p s).pt p.idx).frameNs ≠ 0 →
      (entered 0x0105 p s).bitTime p.idx ((entered 0x0105 p s).xferBits p.idx
        ((entered 0x0105 p s).wireBytes p.idx (p.b 1 0 16) (p.b 1 16 16))) ≤
        3 * (((entered 0x0105 p s).pt p.idx).frameNs - 1000 * (entered 0x0105 p s).f (LNK_P_SET_CFG__SET_WINDOW_US p.idx)))
    (hb : (if p.b 1 0 16 = 0 then some [] else (entered 0x0105 p s).readRef (p.ref 4) p.buf) = some bs) :
    execSnsCtrlXfer p s = .next (((((entered 0x0105 p s).modPt p.idx (fun q => { q with
      xfer := q.xfer ++ [ctrlXfer (s.pktHdr 0x0105 p) p bs] })).channelNext p.idx).refUse (p.ref 8)).refUse (p.ref 4)) := by
  refine congrArg Host.Outcome.next (runOp_none ha ((if_neg (by omega)).trans
    (State.refGuard_waits h4 (State.refGuard_waits h8 ?_))))
  rw [if_neg (fun c => Nat.not_lt.mpr (hfit c.1 c.2.1) c.2.2)]
  simp only [hb]
  rfl

end Channel

/-! ### The channel's own events (R103 to R106) -/

section Transfers
variable {port : Fin 4} {x : Xfer} {r : List Xfer} {h : Hdr} {bs : List Byte} {i : Nat}

theorem execSnsXferStart_head (hx : (s.pt port).xfer = x :: r) :
    execSnsXferStart port s = .next
      (if s.channelFree port ∧ (s.on (LNK_P_CFG__EN port) = false ∨ x.hdr.isNone ∨ s.xferFits port x = true) then s.startXfer port
        else s) := by
  unfold execSnsXferStart
  simp only [hx]

theorem execSnsXferStart_empty (hx : (s.pt port).xfer = []) : execSnsXferStart port s = .next s := by
  unfold execSnsXferStart
  simp only [hx]

section Running
variable (hx : (s.pt port).xfer = x :: r) (hrun : x.running = true)
include hx hrun

/-- A control transfer that runs to its end: its bytes go out, and what was read is written to the packet's buffer. -/
theorem execSnsXferDone_read (hh : x.hdr = some h) :
    execSnsXferDone port (.done bs) s = .next ((((((s.modPt port (fun q => { q with xfer := r })).sendXfer port x none).writeRef
      ⟨x.readRef.1, x.readRef.2.1, x.readRef.2.2⟩ (padBytes x.readLen bs)).finishF h (ok [x.write.length + x.readLen])).channelNext
      port)) := by
  unfold execSnsXferDone
  simp only [hx, hrun, hh]
  rfl

theorem execSnsXferDone_nacked (hh : x.hdr = some h) :
    execSnsXferDone port (.nack i) s = .next (((((s.modPt port (fun q => { q with xfer := r })).raise (LNK_P_ERR__NACK port)).sendXfer
      port x (some i)).finishF h (refuse stHwFault 0x8007 [i, i])).channelNext port) := by
  unfold execSnsXferDone
  simp only [hx, hrun, hh]
  rfl

theorem execSnsXferDone_sequence (hh : x.hdr = none) :
    execSnsXferDone port (.done bs) s =
      .next (((s.modPt port (fun q => { q with xfer := r })).sendSeq port x.seq none).channelNext port) := by
  unfold execSnsXferDone
  simp only [hx, hrun, hh]
  rfl

theorem execSnsXferDone_sequence_nacked (hh : x.hdr = none) :
    execSnsXferDone port (.nack i) s =
      .next ((((s.modPt port (fun q => { q with xfer := r })).raise (LNK_P_ERR__NACK port)).sendSeq port x.seq (some i)).channelNext
        port) := by
  unfold execSnsXferDone
  simp only [hx, hrun, hh]
  rfl

end Running

theorem execSettingsWriteDone_written {e : XferEnd} {w : SetWrite} {f : Profile} (hw : (s.pt port).writing = some w)
    (hf : (s.pt port).profile = some f) :
    execSettingsWriteDone port e s =
      let u := s.modPt port (fun q => { q with writing := none })
      let v := u.sendSeq port (u.seqBytes port f (f.holdBegin ++ w.set.entries ++ f.holdEnd)) (xferStop e)
      .next ((if (xferStop e).isSome then v.raise (LNK_P_ERR__NACK port) else v.setTag port w).channelNext port) := by
  have hf' : ((s.modPt port (fun q => { q with writing := none })).pt port).profile = some f := by
    rw [State.pt_modPt _ _ port.isLt]
    exact hf
  unfold execSettingsWriteDone
  simp only [hw, hf']

theorem execSetWindowExpiry_due (hd : (s.pt port).setDue = true) :
    execSetWindowExpiry port s = .next ((s.raise (LNK_P_ERR__SET_LATE port)).modPt port (fun q => { q with setDue := false })) := by
  unfold execSetWindowExpiry
  exact if_pos hd

theorem execSetWindowExpiry_writing {w : SetWrite} (hd : (s.pt port).setDue = false) (hw : (s.pt port).writing = some w) :
    execSetWindowExpiry port s =
      .next ((s.raise (LNK_P_ERR__SET_LATE port)).modPt port (fun q => { q with writing := some { w with late := true } })) := by
  unfold execSetWindowExpiry
  refine (if_neg (by simp [hd])).trans ?_
  simp only [hw]

end Transfers

/-- Settles O17, one law per command of the channel and way it ends. -/
theorem sensorChannel : Obligations.SensorChannel := by
  unfold Obligations.SensorChannel
  refine ⟨fun p bs f u v s ha hr hen hb hf hu hv => ?_, fun p bs s => execSnsLoadProfile_malformed,
    fun p f s => execSnsQueueSettings_queued, fun p n m bs u s ha hn hm hn4 hm4 hnl hml h4 h8 hfit hb hu => ?_,
    fun port x r s => execSnsXferStart_head, fun port s => execSnsXferStart_empty,
    fun port bs x h r s => execSnsXferDone_read, fun port i x h r s => execSnsXferDone_nacked,
    fun port bs i x r s hx hrun hh => ⟨execSnsXferDone_sequence hx hrun hh, execSnsXferDone_sequence_nacked hx hrun hh⟩,
    fun port e w f s => execSettingsWriteDone_written, fun port s => execSetWindowExpiry_due,
    fun port w s => execSetWindowExpiry_writing⟩
  · subst hu hv
    exact execSnsLoadProfile_loaded ha hr hen hb hf
  · subst hn hm hu
    exact execSnsCtrlXfer_waits ha hn4 hm4 hnl hml h4 h8 hfit hb

end Sys2Proof.Machine

/-! ## Network frames (spec/17, R24, R347 to R352) -/

namespace Sys2Proof.Machine
open Sys2Proof

variable {s : State}

section Doorbell
variable {ring : Fin 3} {v : W32} {fetch : List NetFetch}

/-- How far ahead of HEAD the tail that a doorbell of ring `q` writes lies. -/
def State.netAhead (s : State) (q : Nat) (v : W32) : Nat :=
  (v.toNat % 0x2000 + 2 * s.netN q - s.f (NET_R_HEAD__HEAD q) % (2 * s.netN q)) % (2 * s.netN q)

theorem execNetDb_moves (hsh : s.shut 0 = false) (hc : s.net.configured = true) (hr : v.toNat % 0x2000 < 2 * s.netN ring)
    (hn : s.netAhead ring v ≤ s.netN ring) (hl : s.netWaiting ring ≤ s.netAhead ring v) :
    execNetDb ring v fetch s =
      let u := s.modNet (fun n => { n with tail := n.tail.set ring (v.toNat % 0x2000) })
      .next (if (ring : Nat) < 2 then u.netMore ring fetch else u) := by
  unfold State.netAhead at hn hl
  unfold execNetDb
  exact if_neg (by simp only [hsh, hc, Bool.false_eq_true, Bool.true_eq_false, false_or]; omega)

theorem execNetDb_ignored (h : s.shut 0 = true ∨ s.net.configured = false ∨ 2 * s.netN ring ≤ v.toNat % 0x2000
      ∨ s.netN ring < s.netAhead ring v ∨ s.netAhead ring v < s.netWaiting ring) : execNetDb ring v fetch s = .next s := by
  unfold execNetDb
  exact if_pos h

end Doorbell

section Transmit
variable {queue : Fin 2} {fetch : List NetFetch} {x : TxFrame}

theorem execNetLaunch_held (hx : s.net.tx.getD 0 none = some x) :
    execNetLaunch s =
      .next (if x.launch ≤ s.now then s.modNet (fun n => { n with tx := n.tx.set 0 (some { x with held := false }) }) else s) := by
  unfold execNetLaunch
  simp only [hx]

theorem execNetLaunch_empty (hx : s.net.tx.getD 0 none = none) : execNetLaunch s = .next s := by
  unfold execNetLaunch
  simp only [hx]

theorem execNetTxEgress_empty (hx : s.net.tx.getD queue none = none) :
    execNetTxEgress queue fetch s = .next (s.netMore queue fetch) := by
  unfold execNetTxEgress
  simp only [hx]

theorem execNetTxEgress_stays (hx : s.net.tx.getD queue none = some x) (hl : s.mayLeave queue x = false) :
    execNetTxEgress queue fetch s = .next s := by
  unfold execNetTxEgress
  simp only [hx]
  exact if_pos hl

/-- The bytes of a frame as it leaves: a ONESTEP frame is corrected by its stamp (R352). -/
def State.txData (s : State) (x : TxFrame) : List Byte :=
  if bitAt (txFlags x.desc) 1 then oneStep x.desc x.data (s.netStamp s.net.txAdj) else x.data

/-- The state once the frame at the head of a transmit queue has been sent, counted and written back. -/
def State.txSent (s : State) (queue : Fin 2) (x : TxFrame) : State :=
  ((s.emit (.netFrame (s.txData x ++ List.replicate (60 - (s.txData x).length) 0))).bumpEvt .net NET_TX_CNT).netBack queue
    (txBack x.desc (if txFlags x.desc % 4 = 0 then 0 else s.netStamp s.net.txAdj) 0
      (b2n (x.stepped && bitAt (txFlags x.desc) 1) + 2 * b2n x.lateLaunch))

theorem execNetTxEgress_leaves (hx : s.net.tx.getD queue none = some x) (hl : s.mayLeave queue x = true) :
    execNetTxEgress queue fetch s = .next (((s.txSent queue x).modNet (fun n => { n with
      tx := n.tx.set queue none, ptpSent := n.ptpSent + b2n (isPtp (s.txData x)) })).netMore queue fetch) := by
  unfold execNetTxEgress
  simp only [hx]
  exact if_neg (by simp [hl])

end Transmit

section Receive
variable {frame d : List Byte} {desc : HostRead}

theorem execNetRxFrame_down {fcsOk : Bool} (h : s.on NET_STAT__LINK = false) : execNetRxFrame frame fcsOk desc s = .next s := by
  unfold execNetRxFrame
  exact if_pos h

theorem execNetRxFrame_badFcs (h : s.on NET_STAT__LINK = true) :
    execNetRxFrame frame false desc s = .next (s.bumpStat NET_RX_FCS) := by
  unfold execNetRxFrame
  exact if_neg (by simp [h])

theorem execNetRxFrame_pause (h : s.on NET_STAT__LINK = true) (hp : beNat ((frame.drop 12).take 2) = 0x8808) :
    execNetRxFrame frame true desc s = .next (s.bumpStat NET_RX_PAUSE) := by
  unfold execNetRxFrame
  exact (if_neg (by simp [h])).trans ((if_neg (by decide)).trans (if_pos hp))

theorem execNetRxFrame_unwanted (h : s.on NET_STAT__LINK = true) (hp : beNat ((frame.drop 12).take 2) ≠ 0x8808)
    (hu : frame.length < 60 ∨ s.net.mtu + 18 < frame.length ∨ s.netAccepts frame = false ∨ s.netWaiting 2 = 0) :
    execNetRxFrame frame true desc s = .next (s.bumpStat NET_RX_DROP) := by
  unfold execNetRxFrame
  exact (if_neg (by simp [h])).trans ((if_neg (by decide)).trans ((if_neg hp).trans (if_pos hu)))

/-- A frame that the port takes in: the link is up, it is no pause frame, of a good length, to an address that passes, and a descriptor
waits (R347, R348). -/
structure State.RxTaken (s : State) (frame : List Byte) : Prop where
  link : s.on NET_STAT__LINK = true
  noPause : beNat ((frame.drop 12).take 2) ≠ 0x8808
  wanted : ¬ (frame.length < 60 ∨ s.net.mtu + 18 < frame.length ∨ s.netAccepts frame = false ∨ s.netWaiting 2 = 0)

theorem State.rxTaken_of (h : s.on NET_STAT__LINK = true) (hp : beNat ((frame.drop 12).take 2) ≠ 0x8808) (hmin : 60 ≤ frame.length)
    (hmax : frame.length ≤ s.net.mtu + 18) (ha : s.netAccepts frame = true) (hw : 0 < s.netWaiting 2) : s.RxTaken frame :=
  ⟨h, hp, by simp only [ha, Bool.true_eq_false, false_or]; omega⟩

theorem execNetRxFrame_unreadable (ht : s.RxTaken frame) (hd : s.netRead 2 (s.netAddr 2) 32 desc = none) :
    execNetRxFrame frame true desc s = .next ((s.bufError .net (s.netRef 2 (s.netAddr 2) 32) desc).bumpStat NET_RX_DROP) := by
  obtain ⟨link, noPause, wanted⟩ := ht
  unfold execNetRxFrame
  rw [if_neg (by simp [link]), if_neg (by decide), if_neg noPause, if_neg wanted]
  simp only [hd]

/-- The flags that a received frame's descriptor shows (R350). -/
def rxFlags (frame : List Byte) : Nat :=
  let da := leNat (frame.take 6)
  b2n (isPtp frame) + 2 * b2n (typeOfs frame == 16) + 4 * b2n (da % 2 == 1 && da != 0xFFFFFFFFFFFF) + 8 * b2n (da == 0xFFFFFFFFFFFF)

/-- What a received frame's descriptor is written back with: its first 8 bytes, length, flags and stamp. -/
def rxBack (d frame : List Byte) (stamp : Nat) : List Byte :=
  padBytes 8 d ++ leBytes 2 frame.length ++ leBytes 2 (rxFlags frame) ++ leBytes 4 (stamp / 0x100000000)
    ++ leBytes 4 (stamp / 0x10000000000000000) ++ leBytes 2 (stamp / 0x10000)

/-- A frame taken in with a readable descriptor: too long for its buffer, its buffer outside the space, or received. -/
theorem execNetRxFrame_read (ht : s.RxTaken frame) (hd : s.netRead 2 (s.netAddr 2) 32 desc = some d) :
    execNetRxFrame frame true desc s =
      if descF d 8 2 < frame.length then .next (s.bumpStat NET_RX_DROP)
      else if s.refOk (s.netRef 2 (descF d 0 8) frame.length) = false then
        .next ((s.dmaError .net 0xFFFF (s.netRef 2 (descF d 0 8) frame.length).addr false).bumpStat NET_RX_DROP)
      else .next (((s.writeRef (s.netRef 2 (descF d 0 8) frame.length) frame).netBack 2
        (rxBack d frame (s.netStamp s.net.rxAdj))).bumpEvt .net NET_RX_CNT) := by
  obtain ⟨link, noPause, wanted⟩ := ht
  unfold execNetRxFrame
  rw [if_neg (by simp [link]), if_neg (by decide), if_neg noPause, if_neg wanted]
  simp only [hd]
  rfl

end Receive

/-- Settles O44, one law per doorbell, queue and frame case. -/
theorem networkFrames : Obligations.NetworkFrames := by
  unfold Obligations.NetworkFrames
  refine ⟨fun ring v fetch t m ahead s u ht hm ha hsh hc hr hn hl hu => ?_, fun ring v fetch t m ahead s ht hm ha h => ?_,
    fun x s => execNetLaunch_held, fun s => execNetLaunch_empty, fun queue fetch s => execNetTxEgress_empty,
    fun queue fetch x s => execNetTxEgress_stays, fun queue fetch x data s u hx hl hd hu => ?_,
    fun frame fcsOk desc s => execNetRxFrame_down, fun frame desc s => execNetRxFrame_badFcs,
    fun frame desc s => execNetRxFrame_pause, fun frame desc s => execNetRxFrame_unwanted,
    fun frame desc s h hp hmin hmax ha hw => execNetRxFrame_unreadable (State.rxTaken_of h hp hmin hmax ha hw),
    fun frame desc d s h hp hmin hmax ha hw hd hl =>
      (execNetRxFrame_read (State.rxTaken_of h hp hmin hmax ha hw) hd).trans (if_pos hl),
    fun frame desc d s h hp hmin hmax ha hw hd hl hr =>
      (execNetRxFrame_read (State.rxTaken_of h hp hmin hmax ha hw) hd).trans ((if_neg (Nat.not_lt.mpr hl)).trans (if_pos hr)),
    fun frame desc d da fl stamp s u h hp hmin hmax ha hw hd hl hr hda hfl hst hu => ?_⟩
  · subst ht hm ha hu
    exact execNetDb_moves hsh hc hr hn hl
  · subst ht hm ha
    exact execNetDb_ignored h
  · subst hd hu
    exact execNetTxEgress_leaves hx hl
  · subst hda hfl hst hu
    exact (execNetRxFrame_read (State.rxTaken_of h hp hmin hmax ha hw) hd).trans
      ((if_neg (Nat.not_lt.mpr hl)).trans (if_neg (by simp [hr])))

end Sys2Proof.Machine

/-! ## The host link (spec/03, R47 to R51, R58 to R66) -/

namespace Sys2Proof.Machine
open Sys2Proof

variable {s : State}

section Link
variable {full : Bool} {width rate : Nat}

/-- What the trained link shows of the device's memory (R51). -/
def State.memShown (s : State) : State :=
  s.modCxl (fun c => { c with memInfoValid := s.dlt.valid && !c.fallback, memActive := s.dev.ready && !c.fallback })

theorem execLinkTrainingDone_trains (ha : s.dev.awaits = false) (hv : s.dev.vin = 0) (hs : s.pwr.sleep = 0) :
    execLinkTrainingDone full width rate s =
      let u := (s.linkUp full width rate).memShown
      .next (if s.cxl.fallback = u.cxl.fallback ∧ s.cxl.width = width ∧ s.cxl.rate = rate then u else u.republish) := by
  unfold execLinkTrainingDone
  exact if_neg (by simp [ha, hv, hs])

theorem execLinkTrainingDone_idle (h : s.dev.awaits = true ∨ s.dev.vin ≠ 0 ∨ s.pwr.sleep ≠ 0) :
    execLinkTrainingDone full width rate s = .next s := by
  unfold execLinkTrainingDone
  exact if_pos h

/-- FLR ends the queues' work, then that of the host's other rings. -/
def State.flrWork (s : State) : State :=
  (((((List.range 16).foldl (fun u n => u.vqResetEnd n (u.vp n).cmds.length) s).vqFlr.dflLost.cmpFlr.encFlr).masterReset 0).netFlr).cmdFlr

/-- FLR resets the interrupt registers of the host-facing blocks. -/
def State.flrRegsReset (s : State) : State := flrRegs.foldl (fun v a => v.wr a (regReset v.dev.variant a)) s

theorem execFlr_down (h : s.cxl.up = false) : execFlr s = .next s := by
  unfold execFlr
  exact if_pos h

theorem execFlr_up (h : s.cxl.up = true) :
    execFlr s = .next (s.flrWork.flrRegsReset.modCxl (fun c => { c with
      fenceLines := [], msixMask := BitVec.allOnes 64, msixPend := 0, msixTab := [], msixOn := false, busMaster := false })) := by
  unfold execFlr
  exact if_neg (by simp [h])

end Link

/-- Unmasking a vector clears its mask bit, then sends what may be sent (R64). -/
theorem State.maskVec_false (s : State) (v : Nat) :
    s.maskVec v false = State.sendAll (s.modCxl (fun c => { c with msixMask := c.msixMask &&& ~~~(BitVec.ofNat 64 (2 ^ v)) })) := rfl

/-- Settles O56, one law per event of the link. -/
theorem hostLink : Obligations.HostLink := by
  unfold Obligations.HostLink
  refine ⟨fun full width rate u s ha hv hs hu => ?_, fun full width rate s => execLinkTrainingDone_idle, fun s => rfl,
    fun s => execFlr_down, fun s u v h hu hv => ?_, fun v s => congrArg Host.Outcome.next (State.maskVec_false s v),
    fun src who addr poisoned inAddr s => ⟨rfl, rfl, rfl, rfl, rfl⟩⟩
  · subst hu
    exact execLinkTrainingDone_trains ha hv hs
  · subst hu hv
    exact execFlr_up h

end Sys2Proof.Machine

/-! ## CXL.mem and the HDM decoders (spec/03, R51, R54, R55, R57, R63) -/

namespace Sys2Proof.Machine
open Sys2Proof

variable {s : State} {addr a d dpa mask : Nat} {data : List Byte}

/-! ### HDM decoders (R54, R63) -/

theorem State.hdm_getD (s : State) {i : Nat} (hi : i < 2) : s.cxl.hdm.toList.getD i {} = s.cxl.hdm[i] := by
  rw [List.getD_eq_getElem _ _ (by simpa using hi), Vector.getElem_toList]

/-- Decoder 0 is asked first, then decoder 1. -/
theorem State.hdmDpa_eq (s : State) (a : Nat) :
    s.hdmDpa a =
      if s.cxl.hdm[0].committed ∧ s.cxl.hdm[0].base ≤ a ∧ a < s.cxl.hdm[0].base + s.cxl.hdm[0].size then
        some (0, a - s.cxl.hdm[0].base)
      else if s.cxl.hdm[1].committed ∧ s.cxl.hdm[1].base ≤ a ∧ a < s.cxl.hdm[1].base + s.cxl.hdm[1].size then
        some (1, a - s.cxl.hdm[1].base + s.wBytes)
      else none := by
  unfold State.hdmDpa
  rw [show List.range 2 = [0, 1] from rfl]
  simp only [List.findSome?, State.hdm_getD s Nat.zero_lt_two, State.hdm_getD s Nat.one_lt_two, if_true, Nat.add_zero,
    if_neg Nat.one_ne_zero]
  by_cases h0 : s.cxl.hdm[0].committed = true ∧ s.cxl.hdm[0].base ≤ a ∧ a < s.cxl.hdm[0].base + s.cxl.hdm[0].size
  · rw [if_pos h0, if_pos h0]
  · rw [if_neg h0, if_neg h0]
    dsimp only
    split <;> symm <;> assumption

theorem State.hdmDpa_working (hc : s.cxl.hdm[0].committed = true) (hb : s.cxl.hdm[0].base ≤ a)
    (he : a < s.cxl.hdm[0].base + s.cxl.hdm[0].size) : s.hdmDpa a = some (0, a - s.cxl.hdm[0].base) :=
  (s.hdmDpa_eq a).trans (if_pos ⟨hc, hb, he⟩)

theorem State.hdmDpa_rings (hc : s.cxl.hdm[1].committed = true) (hb : s.cxl.hdm[1].base ≤ a)
    (he : a < s.cxl.hdm[1].base + s.cxl.hdm[1].size)
    (hn : ¬ (s.cxl.hdm[0].committed = true ∧ s.cxl.hdm[0].base ≤ a ∧ a < s.cxl.hdm[0].base + s.cxl.hdm[0].size)) :
    s.hdmDpa a = some (1, a - s.cxl.hdm[1].base + s.wBytes) :=
  (s.hdmDpa_eq a).trans ((if_neg hn).trans (if_pos ⟨hc, hb, he⟩))

/-- In CXL mode a commit takes the decoder's range and is good where it covers exactly its region one-way. -/
theorem execHdmCommit_cxlMem {dec : Fin 2} {base size ways : Nat} (hm : s.cxlMem = true) :
    execHdmCommit dec base size ways s =
      let good := decide (size = if (dec : Nat) = 0 then s.wBytes else s.vlt.usable * 4096 - s.wBytes) && decide (ways = 1)
      .next (s.modCxl (fun c =>
        { c with hdm := c.hdm.setIfInBounds dec { committed := good, err := !good, base := base, size := size, ways := ways } })) := by
  unfold execHdmCommit
  exact if_neg (by simp [hm])

/-- A committed decoder bars a new layout. -/
theorem execVltSetLayout_committed {p : Pkt} (ha : accepted 0x0500 p s = true) (hc : (entered 0x0500 p s).hdmCommitted = true) :
    execVltSetLayout p s =
      .next (settled 0x0500 (s.pktHdr 0x0500 p) (entered 0x0500 p s) (refuse stState 0x8001)) :=
  congrArg Host.Outcome.next (runOp_some ha (if_pos hc))

/-- Settles O55, from the order in which the decoders are asked and a law for the commit and for the layout. -/
theorem hdmDecoders : Obligations.HdmDecoders := by
  unfold Obligations.HdmDecoders
  refine ⟨fun dec base size ways good s hm hg => ?_, fun a s => State.hdmDpa_working, fun a s => State.hdmDpa_rings,
    fun p s => execVltSetLayout_committed⟩
  subst hg
  exact execHdmCommit_cxlMem hm

/-! ### Masked writes of a line -/

theorem padBytes_length (n : Nat) (bs : List Byte) : (padBytes n bs).length = n := by
  unfold padBytes
  rw [List.length_append, List.length_take, List.length_replicate]
  omega

theorem bitAt_eq_testBit (v i : Nat) : bitAt v i = v.testBit i := by
  rw [Nat.testBit_eq_decide_div_mod_eq, ← Nat.shiftRight_eq_div_pow]
  rfl

/-- The mask of a full line enables each of its bytes. -/
theorem bitAt_fullLine {i : Nat} (hi : i < 64) : bitAt (2 ^ 64 - 1) i = true := by
  rw [bitAt_eq_testBit, Nat.testBit_two_pow_sub_one]
  exact decide_eq_true hi

theorem State.writeMasked_out (a mask : Nat) (bs : List Byte) (i : Nat) (s : State) : (s.writeMasked a mask i bs).out = s.out := by
  induction bs generalizing i s with
  | nil => rfl
  | cons b t ih =>
    unfold State.writeMasked
    rw [ih]
    split <;> rfl

theorem Inv.memRising (h : Inv s) : storeRising s.mem = true := by
  obtain ⟨hmem, -⟩ := h
  simp only [storeWf, Bool.and_eq_true] at hmem
  exact hmem.1

/-! ### Requests that reach no line (R51, R54, R63) -/

theorem State.cxlRead_down (h : s.cxlMem = false) : s.cxlRead addr = .next s := if_pos h
theorem State.cxlWrite_down (h : s.cxlMem = false) : s.cxlWrite addr mask data = .next s := if_pos h
theorem execMeminv_down (h : s.cxlMem = false) : execMeminv addr s = .next s := if_pos h
theorem execMemspecrd_down (h : s.cxlMem = false) : execMemspecrd addr s = .next s := if_pos (.inl h)

theorem execMemspecrd_inactive (hact : s.cxl.memActive = false) : execMemspecrd addr s = .next s := if_pos (.inr hact)

section Up
variable (hm : s.cxlMem = true)
include hm

section Inactive
variable (hact : s.cxl.memActive = false)
include hact

/-- Before Memory_Active a read answers a poisoned line of ones. -/
theorem State.cxlRead_inactive : s.cxlRead addr = .next (s.emit (.drs (List.replicate 64 0xFF) true)) := by
  unfold State.cxlRead
  exact (if_neg (by simp [hm])).trans (if_pos hact)

theorem State.cxlWrite_inactive : s.cxlWrite addr mask data = .next (s.emit .ndr) := by
  unfold State.cxlWrite
  exact (if_neg (by simp [hm])).trans (if_pos hact)

theorem execMeminv_inactive : execMeminv addr s = .next (s.emit .ndr) := by
  unfold execMeminv
  exact (if_neg (by simp [hm])).trans (if_pos hact)

end Inactive

section Active
variable (hact : s.cxl.memActive = true)
include hact

section Unmapped
variable (hd : s.hdmDpa (addr / 64 * 64) = none)
include hd

theorem State.cxlRead_unmapped : s.cxlRead addr = .fault .unmappedHpa := by
  unfold State.cxlRead
  simp only [hm, hact, hd]
  rfl

theorem State.cxlWrite_unmapped : s.cxlWrite addr mask data = .fault .unmappedHpa := by
  unfold State.cxlWrite
  simp only [hm, hact, hd]
  rfl

theorem execMeminv_unmapped : execMeminv addr s = .fault .unmappedHpa := by
  unfold execMeminv
  exact (if_neg (by simp [hm])).trans ((if_neg (by simp [hact])).trans (if_pos hd))

theorem execMemspecrd_unmapped : execMemspecrd addr s = .fault .unmappedHpa := by
  unfold execMemspecrd
  exact (if_neg (by simp [hm, hact])).trans (if_pos hd)

end Unmapped

/-! ### Requests of a mapped line (R55, R57) -/

theorem execMeminv_mapped {x : Nat × Nat} (hd : s.hdmDpa (addr / 64 * 64) = some x) :
    execMeminv addr s = .next (s.vaultUse.emit .ndr) := by
  unfold execMeminv
  exact (if_neg (by simp [hm])).trans ((if_neg (by simp [hact])).trans (if_neg (by simp [hd])))

theorem execMemspecrd_mapped {x : Nat × Nat} (hd : s.hdmDpa (addr / 64 * 64) = some x) :
    execMemspecrd addr s = .next s.vaultUse := by
  unfold execMemspecrd
  exact (if_neg (by simp [hm, hact])).trans (if_neg (by simp [hd]))

theorem State.cxlRead_mapped (hd : s.hdmDpa (addr / 64 * 64) = some (d, dpa)) :
    s.cxlRead addr =
      let u := s.vaultUse
      let r := State.drawBytes 64 ((u.poisonLine dpa).aer .rasMemPoison)
      if u.cxl.poisoned.contains (dpa / 64) then .next (r.2.emit (.drs r.1 true))
      else .next (u.emit (.drs (bytesAt u.vaultByte dpa 64) false)) := by
  unfold State.cxlRead
  simp only [hm, hact, hd]
  rfl

/-- The working region takes the bytes that the mask enables; a line written whole holds good data again. -/
def State.lineStored (s : State) (dpa mask : Nat) (data : List Byte) : State :=
  let u := s.vaultUse.writeMasked dpa mask 0 (padBytes 64 data)
  if mask % 2 ^ 64 = 2 ^ 64 - 1 then u.modCxl (fun c => { c with poisoned := c.poisoned.erase (dpa / 64) }) else u

theorem State.cxlWrite_working (hd : s.hdmDpa (addr / 64 * 64) = some (0, dpa)) :
    s.cxlWrite addr mask data = .next ((s.lineStored dpa mask data).emit .ndr) := by
  unfold State.cxlWrite
  simp only [hm, hact, hd]
  rfl

/-- HDM_RO_WRITE is logged once in a tick. -/
def State.roWriteLogged (s : State) : State :=
  if s.cxl.roWrite then s else (s.log .link evHdmRoWrite).modCxl (fun c => { c with roWrite := true })

theorem State.cxlWrite_rings (hd : s.hdmDpa (addr / 64 * 64) = some (d + 1, dpa)) :
    s.cxlWrite addr mask data = .next ((s.vaultUse.bumpStat VLT_HOST_RING_WR).roWriteLogged.emit .ndr) := by
  unfold State.cxlWrite
  simp only [hm, hact, hd]
  rfl

end Active
end Up

/-! ### The line that a write stores (R55) -/

theorem State.lineStored_out (s : State) (dpa mask : Nat) (data : List Byte) : (s.lineStored dpa mask data).out = s.out := by
  unfold State.lineStored
  dsimp only
  split <;> exact State.writeMasked_out _ _ _ _ _

/-- A byte after a write: the data's where it lies in the line and the mask enables it, else what it was. -/
theorem State.memB_lineStored (h : storeRising s.mem = true) (dpa mask : Nat) (data : List Byte) (x : Nat) :
    (s.lineStored dpa mask data).memB x =
      if dpa ≤ x ∧ x < dpa + 64 ∧ bitAt mask (x - dpa) = true then (padBytes 64 data).getD (x - dpa) 0 else s.memB x := by
  have stored := State.memB_writeMasked dpa mask x (padBytes 64 data) 0 (s := s.vaultUse) h
  rw [padBytes_length] at stored
  unfold State.lineStored
  dsimp only
  split <;> exact stored

theorem State.memB_lineStored_outside (h : storeRising s.mem = true) {x : Nat} (hx : x < dpa ∨ dpa + 64 ≤ x) :
    (s.lineStored dpa mask data).memB x = s.memB x :=
  (State.memB_lineStored h dpa mask data x).trans (if_neg (by omega))

theorem State.memB_lineStored_inside (h : storeRising s.mem = true) {i : Nat} (hi : i < 64) :
    (s.lineStored dpa mask data).memB (dpa + i) = if bitAt mask i then (padBytes 64 data).getD i 0 else s.memB (dpa + i) := by
  simp [State.memB_lineStored h, hi]

/-- Settles O54: a write of the working region stores its line, byte by byte. -/
theorem hostWrites : Obligations.HostWrites := by
  unfold Obligations.HostWrites
  refine ⟨fun addr dpa data mask s hm hact hi hd => ⟨?_, ?_⟩, fun addr d dpa data mask s u hm hact hd hu => ?_,
    fun addr data mask s hm hact => ⟨State.cxlWrite_inactive hm hact, State.cxlWrite_inactive hm hact⟩⟩
  · exact ⟨_, State.cxlWrite_working hm hact hd, congrArg (· ++ [Out.ndr]) (State.lineStored_out _ _ _ _),
      fun a => State.memB_lineStored_outside hi.memRising, fun i => State.memB_lineStored_inside hi.memRising⟩
  · exact ⟨_, State.cxlWrite_working hm hact hd, congrArg (· ++ [Out.ndr]) (State.lineStored_out _ _ _ _),
      fun a => State.memB_lineStored_outside hi.memRising,
      fun i hlt => (State.memB_lineStored_inside hi.memRising hlt).trans (if_pos (bitAt_fullLine hlt))⟩
  · subst hu
    exact ⟨State.cxlWrite_rings hm hact hd, State.cxlWrite_rings hm hact hd⟩

/-- Settles O53, one law per kind of request and state of the link and of the line. -/
theorem hostReads : Obligations.HostReads := by
  unfold Obligations.HostReads
  refine ⟨fun addr data mask s h => ?_, fun addr s hm hact => ?_, fun addr d dpa s u hm hact hd hu hgood => ?_,
    fun addr d dpa s u r hm hact hd hu hbad hr => ?_, fun addr x s hm hact hd => ?_, fun addr data mask s hm hact hd => ?_⟩
  · exact ⟨State.cxlRead_down h, State.cxlRead_down h, execMeminv_down h, execMemspecrd_down h, State.cxlWrite_down h,
      State.cxlWrite_down h⟩
  · exact ⟨State.cxlRead_inactive hm hact, State.cxlRead_inactive hm hact, execMeminv_inactive hm hact,
      execMemspecrd_inactive hact⟩
  · subst hu
    have good := (State.cxlRead_mapped hm hact hd).trans (if_neg (ne_true_of_eq_false hgood))
    exact ⟨good, good⟩
  · subst hu hr
    have poisoned := (State.cxlRead_mapped hm hact hd).trans (if_pos hbad)
    exact ⟨poisoned, poisoned⟩
  · exact ⟨execMeminv_mapped hm hact hd, execMemspecrd_mapped hm hact hd⟩
  · exact ⟨State.cxlRead_unmapped hm hact hd, State.cxlRead_unmapped hm hact hd, execMeminv_unmapped hm hact hd,
      execMemspecrd_unmapped hm hact hd, State.cxlWrite_unmapped hm hact hd, State.cxlWrite_unmapped hm hact hd⟩

end Sys2Proof.Machine

/-! ## Mailboxes and semaphores (spec/04, R76 to R82) -/

namespace Sys2Proof.Machine
open Sys2Proof

variable {s : State}

/-! ### Words of a channel (R76, R77, R79, R80) -/

section Words
variable {m : Byte} {ch : Fin 16} {b : Bool}

/-- Word `w` joins the queue of the side across from `b`, with the epoch flag of side `b`, which is then cleared. -/
def State.mbxSend (s : State) (n : Nat) (b : Bool) (w : W32) : State :=
  let u := s.mbxSet n (!b) { s.mbxGet n (!b) with rx := (s.mbxGet n (!b)).rx ++ [(w, (s.mbxGet n b).epochNext)] }
  u.mbxSet n b { u.mbxGet n b with epochNext := false }

theorem execTxData_sent (w : W32) (hb : s.mbxSide ch m = some b) (room : (s.mbxGet ch (!b)).rx.length < 8) :
    execTxData m ch w s = .next
      (if (s.mbxSend ch b w).mbxMaster ch (!b) = 0 then
        (s.mbxSend ch b w).pend MBX_IRQ_PEND__PEND ch ((s.mbxSend ch b w).bit MBX_IRQ__EN ch) 32
      else s.mbxSend ch b w) := by
  unfold execTxData
  simp only [hb, if_neg (Nat.not_le.mpr room), ← apply_ite Host.Outcome.next]
  rfl

theorem execTxData_full (w : W32) (hb : s.mbxSide ch m = some b) (full : 8 ≤ (s.mbxGet ch (!b)).rx.length) :
    execTxData m ch w s = .next
      (if m = 0 then ((s.setBit MBX_STAT__WFULL_ERR ch true).bumpStat MBX_WFULL_CNT).aer .advisoryNonFatal
      else s.emit .errResponse) := by
  unfold execTxData
  simp only [hb, if_pos full, ← apply_ite Host.Outcome.next]

theorem execTxData_unbound (w : W32) (hb : s.mbxSide ch m = none) : execTxData m ch w s = .next (s.mbxDeny m) := by
  unfold execTxData
  simp only [hb]

theorem execRxWordLo_unbound (hb : s.mbxSide ch m = none) :
    execRxWordLo m ch s = .next (if m = 0 then s.emit (.word 0) else s.emit .errResponse) := by
  unfold execRxWordLo
  simp only [hb]

theorem execRxWordLo_oldest {w : W32} {epoch : Bool} {r : List (W32 × Bool)} (hb : s.mbxSide ch m = some b)
    (hrx : (s.mbxGet ch b).rx = (w, epoch) :: r) :
    execRxWordLo m ch s =
      .next ((s.mbxSet ch b { s.mbxGet ch b with rx := r, hi := (true, epoch, r.length) }).emit (.word w)) := by
  unfold execRxWordLo
  simp only [hb, hrx]

theorem execRxWordLo_empty (hb : s.mbxSide ch m = some b) (hrx : (s.mbxGet ch b).rx = []) :
    execRxWordLo m ch s = .next ((s.mbxSet ch b { s.mbxGet ch b with hi := (false, false, 0) }).emit (.word 0)) := by
  unfold execRxWordLo
  simp only [hb, hrx]

theorem execMbxTmo_unread {toB : Bool} (ht : s.f (MBX_TMO__TMO_US ch) ≠ 0) (hrx : (s.mbxGet ch toB).rx ≠ []) :
    execMbxTmo ch toB s = .next (((s.mbxSet ch (!toB) { s.mbxGet ch (!toB) with txTmo := true }).setBit MBX_STAT__TMO ch true).log
      .mbx evMbxTmo 0xFFFF ch) := by
  unfold execMbxTmo
  exact if_neg (not_or.mpr ⟨ht, hrx⟩)

end Words

/-! ### Bindings and their lock (R76) -/

section Bindings
variable {p : Pkt}

theorem execMbxBind_bound {t : State} (ha : accepted 0x0E00 p s = true) (hl : (entered 0x0E00 p s).on MBX_CTRL__LOCK = false)
    (hb : (entered 0x0E00 p s).bindChannel (p.b 0 0 4) (p.w 1) = some t) :
    execMbxBind p s = .next (settled 0x0E00 (s.pktHdr 0x0E00 p) t ok) :=
  congrArg Host.Outcome.next (runOp_some ha (by rw [if_neg (by simp [hl]), hb]))

theorem execMbxBind_noMaster (ha : accepted 0x0E00 p s = true) (hl : (entered 0x0E00 p s).on MBX_CTRL__LOCK = false)
    (hb : (entered 0x0E00 p s).bindChannel (p.b 0 0 4) (p.w 1) = none) :
    execMbxBind p s = .next (settled 0x0E00 (s.pktHdr 0x0E00 p) (entered 0x0E00 p s) (badWord 1)) :=
  congrArg Host.Outcome.next (runOp_some ha (by rw [if_neg (by simp [hl]), hb]))

theorem execMbxBind_locked (ha : accepted 0x0E00 p s = true) (hl : (entered 0x0E00 p s).on MBX_CTRL__LOCK = true) :
    execMbxBind p s = .next (settled 0x0E00 (s.pktHdr 0x0E00 p) (entered 0x0E00 p s) (refuse stNotPermitted 0x0002)) :=
  congrArg Host.Outcome.next (runOp_some ha (if_pos hl))

theorem execMbxLock_accepted (ha : accepted 0x0E01 p s = true) :
    execMbxLock p s = .next (settled 0x0E01 (s.pktHdr 0x0E01 p) ((entered 0x0E01 p s).raise MBX_CTRL__LOCK) ok) :=
  congrArg Host.Outcome.next (runOp_some ha rfl)

theorem execMbxCtrlLock_ready (h : s.dev.ready = true) :
    execMbxCtrlLock s = .next (if s.on MBX_CTRL__LOCK then s.rwlDenied .mbx MBX_CTRL else s.raise MBX_CTRL__LOCK) := by
  unfold execMbxCtrlLock
  rw [if_neg (by simp [State.shut, h])]

end Bindings

/-! ### Semaphores (R81, R82) -/

section Semaphores
variable {m : Byte} {n : Fin 32}

theorem execSemAcquire_free (hr : s.shut m = false) (hs : s.mbx.sem[n] = none) :
    execSemAcquire m n s =
      .next (State.emit { s with mbx := { s.mbx with sem := s.mbx.sem.set n (some m) } } (.word 0)) := by
  unfold execSemAcquire
  rw [if_neg (by simp [hr]), hs]

theorem execSemAcquire_held {o : Byte} (hr : s.shut m = false) (hs : s.mbx.sem[n] = some o) :
    execSemAcquire m n s = .next (s.emit (.word (BitVec.ofNat 32 (o.toNat + 1)))) := by
  unfold execSemAcquire
  rw [if_neg (by simp [hr]), hs]

theorem execSemRelease_owner (hr : s.shut m = false) (hs : s.mbx.sem[n] = some m) :
    execSemRelease m n s = .next { s with mbx := { s.mbx with sem := s.mbx.sem.set n none } } := by
  unfold execSemRelease
  rw [if_neg (by simp [hr]), if_pos hs]

theorem execSemRelease_other (hr : s.shut m = false) (hs : s.mbx.sem[n] ≠ some m) :
    execSemRelease m n s = .next (s.log .mbx evSemBadRelease 0xFFFF n m.toNat) := by
  unfold execSemRelease
  rw [if_neg (by simp [hr]), if_neg hs]

/-- The semaphores of `sem` once those that `l` lists are freed. -/
def semsFreed (l : List Nat) (sem : Vector (Option Byte) 32) : Vector (Option Byte) 32 :=
  l.foldl (fun v i => v.setIfInBounds i none) sem

theorem semsFreed_get (l : List Nat) (sem : Vector (Option Byte) 32) {i : Nat} (hi : i < 32) :
    (semsFreed l sem)[i] = if i ∈ l then none else sem[i] := by
  induction l generalizing sem with
  | nil => rfl
  | cons j l ih =>
    have head : (semsFreed (j :: l) sem)[i] = (semsFreed l (sem.setIfInBounds j none))[i] := rfl
    rw [head, ih, Vector.getElem_setIfInBounds]
    by_cases hj : j = i
    · simp [hj]
    · simp [hj, Ne.symm hj]

/-- The semaphores of the mask of SEM_FORCE_RELEASE that some master holds. -/
def maskHeld (p : Pkt) (sem : Vector (Option Byte) 32) : List Nat :=
  (List.range 32).filter (fun i => p.t 0 i && (sem.getD i none).isSome)

/-- A semaphore of the mask that no master holds is free as it is, so freeing the held ones frees the whole mask. -/
theorem semsFreed_maskHeld (p : Pkt) (sem : Vector (Option Byte) 32) {i : Nat} (hi : i < 32) :
    (semsFreed (maskHeld p sem) sem)[i] = if p.t 0 i = true then none else sem[i] := by
  have picked : i ∈ maskHeld p sem ↔ p.t 0 i = true ∧ sem[i].isSome = true := by simp [maskHeld, Vector.getD, hi]
  rw [semsFreed_get _ _ hi]
  simp only [picked]
  cases hs : sem[i] <;> simp

/-- Entering leaves the mailboxes and semaphores as they are. -/
theorem entered_mbx (op : Nat) (p : Pkt) (s : State) : (entered op p s).mbx = s.mbx := by
  obtain ⟨c, e, -⟩ := entered_cmd op p s
  rw [e]

theorem execSemForceRelease_accepted {p : Pkt} (ha : accepted 0x0E03 p s = true) :
    execSemForceRelease p s = .next (settled 0x0E03 (s.pktHdr 0x0E03 p)
      { entered 0x0E03 p s with mbx := { s.mbx with sem := semsFreed (maskHeld p s.mbx.sem) s.mbx.sem } }
      (ok [(maskHeld p s.mbx.sem).foldl (fun a i => a + 2 ^ i) 0])) :=
  congrArg Host.Outcome.next (runOp_some ha (by simp only [entered_mbx]; rfl))

end Semaphores

/-- Settles O13, one law per access to a channel or a semaphore and way it ends. -/
theorem mailboxesAndSemaphores : Obligations.MailboxesAndSemaphores := by
  unfold Obligations.MailboxesAndSemaphores
  refine ⟨fun m ch w b s => execTxData_sent w, fun m ch w b s => execTxData_full w,
    fun m ch w s hb => ⟨execTxData_unbound w hb, execRxWordLo_unbound hb⟩, fun m ch w ep r b s => execRxWordLo_oldest,
    fun m ch b s => execRxWordLo_empty, fun m n s => execSemAcquire_free, fun m o n s => execSemAcquire_held,
    fun m n s => execSemRelease_owner, fun m n s => execSemRelease_other,
    fun p s ha => ⟨_, execSemForceRelease_accepted ha, fun i => semsFreed_maskHeld p s.mbx.sem⟩,
    fun p t s => execMbxBind_bound, fun p s => execMbxBind_noMaster, fun p s => execMbxBind_locked,
    fun p s => execMbxLock_accepted, fun s => execMbxCtrlLock_ready, fun ch toB s => execMbxTmo_unread, fun core s => ⟨rfl, rfl⟩⟩

end Sys2Proof.Machine

/-! ## Link ports: configuration, start and stop (spec/05, R83 to R85, R90, R99, R101, R102, R108) -/

namespace Sys2Proof.Machine
open Sys2Proof

variable {s : State}

section Ports
variable {p : Pkt} {f : Profile}

/-! ### Configuration (R83, R84, R102) -/

/-- Port `c` has the configuration of `p`: LNK_Pp_CFG with EN 0, the frame timeout and the rate of its quads. -/
def State.portConfigured (s : State) (c : Nat) (p : Pkt) : State :=
  let v := (s.wn (LNK_P_CFG c) (p.w 0 / 2 * 2)).setF (LNK_P_FRAME_TMO__TMO_US c) (p.w 1)
  (v.portQuads c).foldl (fun s q => s.setF (LNK_QCFG__RATE q) (p.w 2)) v

theorem execLnkConfigPort_configured (ha : accepted 0x0100 p s = true) (hen : (entered 0x0100 p s).on (LNK_P_CFG__EN p.idx) = false)
    (hcw : p.b 0 8 4 ≤ 7) (hl : lanesOk (p.b 0 1 5) = true) (hmin : 20 ≤ p.w 2) (hmax : p.w 2 ≤ 128) :
    execLnkConfigPort p s = .next (settled 0x0100 (s.pktHdr 0x0100 p)
      ((((entered 0x0100 p s).portConfigured p.idx p).lockCheck p.idx).powerLanes.commitSince (entered 0x0100 p s)) ok) := by
  refine congrArg Host.Outcome.next (runOp_some ha ?_)
  rw [if_neg (by simp [hen]), if_neg (by simp [hl, hcw]), if_neg (by omega)]
  rfl

theorem execLnkConfigPort_running (ha : accepted 0x0100 p s = true) (hen : (entered 0x0100 p s).on (LNK_P_CFG__EN p.idx) = true) :
    execLnkConfigPort p s = .next (settled 0x0100 (s.pktHdr 0x0100 p) (entered 0x0100 p s) (refuse stState 0x8002)) :=
  congrArg Host.Outcome.next (runOp_some ha (if_pos hen))

theorem execLnkMapQuads_mapped (ha : accepted 0x0101 p s = true) (hq : qmapOk (p.b 0 0 18) = true)
    (hm : (qmapMoved ((entered 0x0101 p s).f LNK_QMAP__QMAP) (p.b 0 0 18)).any
      (fun q => (entered 0x0101 p s).on (LNK_P_CFG__EN q)) = false) :
    execLnkMapQuads p s = .next (settled 0x0101 (s.pktHdr 0x0101 p)
      ((if p.t 0 31 then (entered 0x0101 p s).setF LNK_QMAP__QMAP_ERR 0 else entered 0x0101 p s).setQmap (p.b 0 0 18)) ok) :=
  congrArg Host.Outcome.next (runOp_some ha ((if_neg (by simp [hq])).trans (if_neg (by simp [hm]))))

/-! ### Start (R85, R90, R108, R410) -/

/-- The quads of port `c` share one rate (R85). -/
def State.ratesShared (s : State) (c : Nat) : Prop :=
  ((s.portQuads c).map (fun q => s.f (LNK_QCFG__RATE q))).any
    (fun r => r != ((s.portQuads c).map (fun q => s.f (LNK_QCFG__RATE q))).getD 0 r) = false

/-- Port `c` runs, out of RESYNC and without the words received before, and the start sequence of its profile waits for the channel. -/
def State.portStarted (s : State) (c : Nat) (f : Profile) : State :=
  ((((s.setB (LNK_P_CFG__EN c) true).setB (LNK_P_STAT__RESYNC c) false).modPt c (fun q => { q with
    lastFn := none, relock := false })).dropWords c).queueSeq c f f.startSeq

section Start
variable (ha : accepted 0x0102 p s = true)
include ha

theorem execLnkStart_refused (h : (entered 0x0102 p s).on (LNK_P_CFG__EN p.idx) = true ∨ (entered 0x0102 p s).linkTested p.idx = true) :
    execLnkStart p s = .next (settled 0x0102 (s.pktHdr 0x0102 p) (entered 0x0102 p s) (refuse stState 0x8002)) :=
  congrArg Host.Outcome.next (runOp_some ha (if_pos h))

variable (hen : (entered 0x0102 p s).on (LNK_P_CFG__EN p.idx) = false) (ht : (entered 0x0102 p s).linkTested p.idx = false)
  (hf : ((entered 0x0102 p s).pt p.idx).profile = some f) (hr : (entered 0x0102 p s).ratesShared p.idx)
include hen ht hf hr

theorem execLnkStart_locked (hl : ((entered 0x0102 p s).portStarted p.idx f).on (LNK_P_STAT__LOCKED p.idx) = true) :
    execLnkStart p s = .next (settled 0x0102 (s.pktHdr 0x0102 p) ((entered 0x0102 p s).portStarted p.idx f)
      (ok [((entered 0x0102 p s).portStarted p.idx f).f (LNK_P_SKEW__SKEW_UI p.idx)])) := by
  refine congrArg Host.Outcome.next (runOp_some ha ?_)
  rw [if_neg (by simp [hen, ht])]
  simp only [hf]
  exact (if_neg (ne_true_of_eq_false hr)).trans (if_pos hl)

theorem execLnkStart_waits (hl : ((entered 0x0102 p s).portStarted p.idx f).on (LNK_P_STAT__LOCKED p.idx) = false) :
    execLnkStart p s = .next (((entered 0x0102 p s).portStarted p.idx f).modPt p.idx (fun q => { q with
      startWait := some (s.pktHdr 0x0102 p) })) := by
  refine congrArg Host.Outcome.next (runOp_none ha ?_)
  rw [if_neg (by simp [hen, ht])]
  simp only [hf]
  exact (if_neg (ne_true_of_eq_false hr)).trans (if_neg (ne_true_of_eq_false hl))

end Start

theorem execLnkLockTimeout_waiting {port : Fin 4} {h : Hdr} (hw : (s.pt port).startWait = some h) :
    execLnkLockTimeout port s = .next ((s.modPt port (fun q => { q with startWait := none })).finishF h (refuse stState 0x8004)) := by
  unfold execLnkLockTimeout
  simp only [hw]

theorem execLnkStatus_accepted (ha : accepted 0x0108 p s = true) :
    execLnkStatus p s = .next (settled 0x0108 (s.pktHdr 0x0108 p) s (ok [s.lnkStat p.idx, s.rn (LNK_P_ERR p.idx),
      s.rn (LNK_P_SKEW p.idx), s.rn (LNK_P_RESYNC_CNT p.idx), s.rn (LNK_P_FRAME_CNT p.idx), s.rn (LNK_P_SNS_FN p.idx),
      s.lnkSetq p.idx, s.rn (LNK_P_LAST_TAG p.idx), s.rn (LNK_P_LAST_FID p.idx), s.rn (LNK_P_DMG_CNT p.idx)])) :=
  congrArg Host.Outcome.next (runOp_some ha (by rw [entered_fast p s rfl]))

/-! ### Stop (R101, R108) -/

/-- The settings that port `c` has waiting are dropped, and the stop sequence of its profile, where one is loaded, waits for the channel. -/
def State.stopQueued (s : State) (c : Nat) : State :=
  let t := s.modPt c (fun q => { q with queue := [], setDue := false })
  match (t.pt c).profile with
  | some f => t.queueSeq c f f.stopSeq
  | none => t

section Stop
variable {u v : State} (ha : accepted 0x0103 p s = true) (hu : u = (entered 0x0103 p s).stopQueued p.idx)
include ha hu

theorem execLnkStop_idle (hen : u.on (LNK_P_CFG__EN p.idx) = false) :
    execLnkStop p s = .next (settled 0x0103 (s.pktHdr 0x0103 p) u ok) := by
  subst hu
  exact congrArg Host.Outcome.next (runOp_some ha (if_pos hen))

variable (hen : u.on (LNK_P_CFG__EN p.idx) = true) (hv : v = if p.t 0 0 then u.truncateFrame p.idx 3 else u)
include hen hv

theorem execLnkStop_noFrame (hf : (v.rw_ p.idx).frame = none) :
    execLnkStop p s = .next (settled 0x0103 (s.pktHdr 0x0103 p) ((v.setB (LNK_P_CFG__EN p.idx) false).channelNext p.idx) ok) := by
  have ended : ¬ (v.rw_ p.idx).frame.isSome = true := by simp [hf]
  subst hu hv
  exact congrArg Host.Outcome.next (runOp_some ha ((if_neg (ne_false_of_eq_true hen)).trans (if_neg ended)))

theorem execLnkStop_waits (hf : (v.rw_ p.idx).frame.isSome = true) :
    execLnkStop p s = .next (v.modPt p.idx (fun q => { q with stopWait := some (s.pktHdr 0x0103 p) })) := by
  subst hu hv
  exact congrArg Host.Outcome.next (runOp_none ha ((if_neg (ne_false_of_eq_true hen)).trans (if_pos hf)))

end Stop

theorem execLnkStopWaitExpiry_waiting {port : Fin 4} (hw : (s.pt port).stopWait.isSome = true) :
    execLnkStopWaitExpiry port s = .next ((s.truncateFrame port 3).lnkStopped port) := by
  unfold execLnkStopWaitExpiry
  rw [if_neg (by simpa [Option.isSome_iff_ne_none] using hw)]

end Ports

/-- Settles O16, one law per packet or event of a port and way it ends. -/
theorem linkPorts : Obligations.LinkPorts := by
  unfold Obligations.LinkPorts
  refine ⟨fun p v s ha hen hcw hl hmin hmax hv => ?_, fun p s => execLnkConfigPort_running, fun p s => execLnkMapQuads_mapped,
    fun p f u s ha hen ht hf hr hu hl => ?_, fun p f u s ha hen ht hf hr hu hl => ?_, fun p s => execLnkStart_refused,
    fun p s => execLnkStatus_accepted, fun p u s ha hu => execLnkStop_idle ha hu, fun p u v s ha hu => execLnkStop_noFrame ha hu,
    fun p u v s ha hu => execLnkStop_waits ha hu, fun port h s => execLnkLockTimeout_waiting,
    fun port s => execLnkStopWaitExpiry_waiting, fun lane s => rfl⟩
  · subst hv
    exact execLnkConfigPort_configured ha hen hcw hl hmin hmax
  · subst hu
    exact execLnkStart_locked ha hen ht hf hr hl
  · subst hu
    exact execLnkStart_waits ha hen ht hf hr hl

end Sys2Proof.Machine

/-! ## Lanes, link words, patterns and triggers (spec/05, R86 to R93, R99, R107, R109, R110) -/

namespace Sys2Proof.Machine
open Sys2Proof

variable {s : State}

/-! ### Commas (R89 to R91) -/

section Comma
variable {lane : Fin 24} {p : Nat} {bits before after : List Bool} {x : List W32 × State}

theorem execComma_pattern (at_ : Nat) (bits : List Bool) (hm : s.f (LNK_L_PAT__MODE lane) ≠ 0) :
    execComma lane at_ bits s = .next ((s.setB (LNK_L_STAT__CDR_LOCK lane) true).sensorBits lane bits) := by
  unfold execComma
  exact if_pos hm

theorem execComma_unused (at_ : Nat) (bits : List Bool) (hm : s.f (LNK_L_PAT__MODE lane) = 0) (ho : s.laneOwner lane = none) :
    execComma lane at_ bits s = .next s := by
  unfold execComma
  simp only [ho]
  exact if_neg (not_not.mpr hm)

theorem execComma_noComma (at_ : Nat) (hm : s.f (LNK_L_PAT__MODE lane) = 0) (ho : s.laneOwner lane = some p)
    (hc : findComma 0 [] ((s.ln lane).line ++ bits) = none) :
    execComma lane at_ bits s =
      .next ((s.setB (LNK_L_STAT__CDR_LOCK lane) true).modLn lane (fun q => { q with line := q.line ++ bits })) := by
  have hc' : findComma 0 [] (((s.setB (LNK_L_STAT__CDR_LOCK lane) true).ln lane).line ++ bits) = none := hc
  unfold execComma
  simp only [ho, hc']
  exact if_neg (not_not.mpr hm)

/-- Lane `l` has found its comma: the EQ of its quad is set, and the bits after the comma wait for the next one. -/
def State.commaTaken (s : State) (l : Nat) (after : List Bool) : State :=
  let t := s.setB (LNK_L_STAT__CDR_LOCK l) true
  (t.setF (LNK_QCFG__EQ (l / 4)) (t.eqPreset (l / 4))).modLn l (fun q => { q with line := after })

theorem execComma_comma (at_ : Nat) (hm : s.f (LNK_L_PAT__MODE lane) = 0) (ho : s.laneOwner lane = some p)
    (hc : findComma 0 [] ((s.ln lane).line ++ bits) = some (before, after)) :
    execComma lane at_ bits s = .next ((s.commaTaken lane after).laneComma lane p at_ before) := by
  have hc' : findComma 0 [] (((s.setB (LNK_L_STAT__CDR_LOCK lane) true).ln lane).line ++ bits) = some (before, after) := hc
  unfold execComma
  simp only [ho, hc']
  exact if_neg (not_not.mpr hm)

/-- The port's interval follows once each of its lanes has its comma (R90). -/
def State.commasIn (y : State) (p : Nat) : State :=
  if (y.portLanes p).all (fun l => (y.ln l).at_.isSome) then y.portInterval p else y

section Interval
variable {u v : State} {w : List W32 × Option Nat} (at_ : Nat)
  (hw : w = intervalWords (16 * (u.f (LNK_P_CFG__CW p) + 1)) before) (hx : x = u.wholeWords (16 * (u.f (LNK_P_CFG__CW p) + 1)) w.1)
include hw hx

/-- A good interval adds to the lane's good run, which aligns it at two. -/
theorem State.laneComma_good (hg : w.2.any (fun fill => decide (fill ≤ 184)) = true)
    (hv : v = x.2.modLn lane (fun q => { q with at_ := some at_, words := x.1, good := q.good + 1, bad := 0 })) :
    u.laneComma lane p at_ before =
      (if 2 ≤ (v.ln lane).good then v.setB (LNK_L_STAT__ALIGNED lane) true else v).commasIn p := by
  have unbroken : (v.ln lane).bad = 0 := by rw [hv, State.ln_modLn _ _ lane.isLt]
  have kept : ¬ (2 ≤ (v.ln lane).bad ∧ v.on (LNK_L_STAT__ALIGNED lane) = true) := by omega
  unfold State.laneComma
  subst hw hx
  simp only [hg, if_true, ← hv, if_neg kept]
  rfl

/-- A broken interval adds to the lane's broken run, which at two loses an aligned lane. -/
theorem State.laneComma_broken (hg : w.2.any (fun fill => decide (fill ≤ 184)) = false)
    (hv : v = x.2.modLn lane (fun q => { q with at_ := some at_, words := x.1, good := 0, bad := q.bad + 1 })) :
    u.laneComma lane p at_ before =
      (if 2 ≤ (v.ln lane).bad ∧ v.on (LNK_L_STAT__ALIGNED lane) = true then v.laneLost lane else v).commasIn p := by
  have broken : (v.ln lane).good = 0 := by rw [hv, State.ln_modLn _ _ lane.isLt]
  have unaligned : ¬ 2 ≤ (v.ln lane).good := by omega
  unfold State.laneComma
  subst hw hx
  simp only [hg, Bool.false_eq_true, if_false, ← hv, if_neg unaligned]
  rfl

end Interval
end Comma

/-! ### Link words and headers (R92, R93, R99) -/

section Words
variable {port : Fin 4} {w : W32} {rest : List W32} {more : List (List W32)} {u v : State}

theorem execLinkWord_dropped (hw : (s.pt port).waiting = (w :: rest) :: more)
    (hu : u = s.modPt port (fun q => { q with waiting := more }))
    (hon : (u.on (LNK_P_CFG__EN port) && u.on (LNK_P_STAT__LOCKED port) && !u.dev.safe) = false) :
    execLinkWord port s = .next (u.dropWords port) := by
  subst hu
  unfold execLinkWord
  simp only [hw]
  exact if_pos hon

theorem execLinkWord_judged (hw : (s.pt port).waiting = (w :: rest) :: more)
    (hu : u = s.modPt port (fun q => { q with waiting := more }))
    (hon : (u.on (LNK_P_CFG__EN port) && u.on (LNK_P_STAT__LOCKED port) && !u.dev.safe) = true)
    (hv : v = if wordOk w then u else u.lnkFault port lfLwCrc loLwCrc) :
    execLinkWord port s = .next
      (if (v.pt port).inSync then v.modPt port (fun q => { q with stream := q.stream ++ rest })
      else if wordOk w = false ∨ w.toNat / 0x10000 = 0xFFFF then v
      else (v.setB (LNK_P_STAT__RESYNC port) false).modPt port (fun q => { q with
        stream := rest.drop (w.toNat / 0x10000), inSync := true })) := by
  subst hu
  unfold execLinkWord
  simp only [hw, ← hv, ← apply_ite Host.Outcome.next]
  rw [if_neg (ne_false_of_eq_true hon)]

theorem execHcrcFail_fails {r : List W32} (hw : (s.pt port).stream = w :: r) (hon : s.portOn port = true) (hbad : wordOk w = false) :
    execHcrcFail port s = .next ((((s.lnkFault port lfHcrc loHcrc).bumpStat (LNK_P_HCRC_CNT port)).setB (LNK_P_STAT__RESYNC port)
      true).dropWords port) := by
  unfold execHcrcFail
  simp only [hw]
  exact if_neg (by simp [hon, hbad])

end Words

/-! ### Lane patterns (R108 to R110) -/

section Patterns
variable {p : Pkt} {lane : Fin 24}

/-- The lanes that LNK_PATTERN names. -/
def Pkt.patLanes (p : Pkt) : List Nat := (List.range 24).filter (fun l => p.t 0 l)

/-- Lane `l` belongs to an enabled port. -/
def State.laneRuns (s : State) (l : Nat) : Bool := (s.laneOwner l).any (fun o => s.on (LNK_P_CFG__EN o))

section Set
variable (ha : accepted 0x0107 p s = true)
include ha

theorem execLnkPattern_set {quads : List Nat} (hl : (Pkt.patLanes p).any (entered 0x0107 p s).laneRuns = false)
    (hq : quads = (List.range 6).filter (fun q =>
      (Pkt.patLanes p).any (fun l => l / 4 == q) && qmapOf ((entered 0x0107 p s).f LNK_QMAP__QMAP) q == 7))
    (hmin : 20 ≤ p.w 2) (hmax : p.w 2 ≤ 128) :
    execLnkPattern p s = .next (settled 0x0107 (s.pktHdr 0x0107 p)
      (((Pkt.patLanes p).foldl (fun s l => s.setPat l (p.w 1))
        (quads.foldl (fun s q => s.setF (LNK_QCFG__RATE q) (p.w 2)) (entered 0x0107 p s))).commitSince (entered 0x0107 p s)) ok) := by
  subst hq
  exact congrArg Host.Outcome.next (runOp_some ha ((if_neg (ne_true_of_eq_false hl)).trans (if_neg (by omega))))

theorem execLnkPattern_running (hl : (Pkt.patLanes p).any (entered 0x0107 p s).laneRuns = true) :
    execLnkPattern p s = .next (settled 0x0107 (s.pktHdr 0x0107 p) (entered 0x0107 p s) (refuse stState 0x800A)) :=
  congrArg Host.Outcome.next (runOp_some ha (if_pos hl))

end Set

theorem execPatSyncChange_checked {bits : List Bool} {x : PatRun} (hc : s.on (LNK_L_PAT__CHK lane) = true)
    (hm : s.f (LNK_L_PAT__MODE lane) ≠ 0) (hn : s.on (LNK_L_PAT__NEAR_LOOP lane) = false)
    (hx : x = bits.foldl (PatRun.take (s.f (LNK_L_PAT__MODE lane)))
      { check := (s.ln lane).check, sync := s.on (LNK_L_STAT__PAT_SYNC lane) }) :
    execPatSyncChange lane bits s = .next ((((s.modLn lane (fun q => { q with check := x.check })).setB (LNK_L_STAT__PAT_SYNC lane)
      x.sync).bumpBits lane x.bits).bumpStat (LNK_L_ERRS lane) x.errs) := by
  subst hx
  unfold execPatSyncChange State.sensorBits State.checkBits
  rw [if_neg (by simp [hn])]
  exact congrArg Host.Outcome.next (if_neg (by simp [hc, hm]))

theorem execPatSyncChange_unchecked (bits : List Bool)
    (h : s.on (LNK_L_PAT__CHK lane) = false ∨ s.f (LNK_L_PAT__MODE lane) = 0 ∨ s.on (LNK_L_PAT__NEAR_LOOP lane) = true) :
    execPatSyncChange lane bits s = .next s := by
  unfold execPatSyncChange State.sensorBits
  split
  · rfl
  · next hn => exact congrArg Host.Outcome.next (if_pos (by simpa [hn] using h))

end Patterns

/-! ### Exposure triggers (R107) -/

section Triggers
variable {port : Fin 4}

theorem execTrgAssert_due (hd : (s.pt port).trgDue ≠ 0) :
    let u := s.modPt port (fun q => { q with trgDue := q.trgDue - 1 })
    execTrgAssert port s = .next (if s.f (LNK_P_TRG__MODE port) = 1 then
      (u.modPt port (fun q => { q with trgNs := s.now })).driveTrg port true else u) := by
  unfold execTrgAssert
  dsimp only
  rw [if_neg hd]
  by_cases hm : s.f (LNK_P_TRG__MODE port) = 1
  · rw [if_pos hm]
    exact if_neg (not_not.mpr hm)
  · rw [if_neg hm]
    exact if_pos hm

theorem execTrgAssert_notDue (hd : (s.pt port).trgDue = 0) : execTrgAssert port s = .next s := by
  unfold execTrgAssert
  exact if_pos hd

end Triggers

/-- Settles O18, one law per event of a lane, port or trigger and case of it. -/
theorem linkLanes : Obligations.LinkLanes := by
  unfold Obligations.LinkLanes
  refine ⟨fun lane at_ bits s => execComma_pattern at_ bits, fun lane at_ bits s => execComma_unused at_ bits,
    fun lane at_ p bits s => execComma_noComma at_, fun lane at_ bits before after p w x u v s hm ho hc hu hw hx hg hv => ?_,
    fun lane at_ bits before after p w x u v s hm ho hc hu hw hx hg hv => ?_, fun port w rest more u s => execLinkWord_dropped,
    fun port w rest more u v s => execLinkWord_judged, fun port w r s => execHcrcFail_fails, fun p quads s ha => execLnkPattern_set ha,
    fun p s ha => execLnkPattern_running ha, fun lane bits x s => execPatSyncChange_checked,
    fun lane bits s => execPatSyncChange_unchecked bits, fun lane len s => ⟨rfl, rfl⟩, fun port s hd => execTrgAssert_due hd,
    fun port s => execTrgAssert_notDue, fun port s => rfl⟩
  · subst hu
    exact (execComma_comma at_ hm ho hc).trans (congrArg Host.Outcome.next (State.laneComma_good at_ hw hx hg hv))
  · subst hu
    exact (execComma_comma at_ hm ho hc).trans (congrArg Host.Outcome.next (State.laneComma_broken at_ hw hx hg hv))

end Sys2Proof.Machine

/-! ## Frames and lines of a port (spec/05, R93 to R101, R104, R123, R124; spec/06, R125, R133) -/

namespace Sys2Proof.Machine
open Sys2Proof

variable {s : State}

section Packets
variable {port : Fin 4} {k : Packet} {f g : Ingest} {u v : State} {y : Nat}

/-! ### FRAME_START (R95, R98, R101, R125, R133, R191) -/

section FrameStart
variable {prof : Profile}

/-- A frame that has opened is recorded where its context captures and a place is found, and otherwise followed without a record. -/
def State.frameFollowed (x : State) (p : Nat) (prof : Profile) (flags : W32) : State :=
  if x.cst p ≠ 2 ∧ x.cst p ≠ 3 then (x.bumpEvt .ctx (CTX_C_DISC_CNT p)).ghostFrame p prof
  else
    match x.placeFrame p prof with
    | (none, z) => z.ghostFrame p prof
    | (some fid, z) => z.beginFrame p fid prof flags

theorem State.frameFollowed_recorded {x z : State} {p fid : Nat} {flags : W32} (hc : x.cst p = 2 ∨ x.cst p = 3)
    (hz : x.placeFrame p prof = (some fid, z)) : x.frameFollowed p prof flags = z.beginFrame p fid prof flags := by
  unfold State.frameFollowed
  rw [if_neg (by omega), hz]

theorem State.frameFollowed_unplaced {x z : State} {p : Nat} {flags : W32} (hc : x.cst p = 2 ∨ x.cst p = 3)
    (hz : x.placeFrame p prof = (none, z)) : x.frameFollowed p prof flags = z.ghostFrame p prof := by
  unfold State.frameFollowed
  rw [if_neg (by omega), hz]

theorem execFrameStart_refused (hk : s.packetIn port 1 (some 2) = (none, u)) : execFrameStart port s = .next u := by
  unfold execFrameStart
  simp only [hk]

variable (hk : s.packetIn port 1 (some 2) = (some k, u))
include hk

theorem execFrameStart_unused (h : ((u.endOpen port).pt port).profile = none ∨ (u.endOpen port).on (LNK_P_CFG__EN port) = false) :
    execFrameStart port s = .next (u.endOpen port) := by
  unfold execFrameStart
  simp only [hk]
  cases hp : ((u.endOpen port).pt port).profile with
  | none => rfl
  | some prof => exact if_pos (h.resolve_left (by simp [hp]))

theorem execFrameStart_opens (hp : ((u.endOpen port).pt port).profile = some prof)
    (hen : (u.endOpen port).on (LNK_P_CFG__EN port) = true) :
    execFrameStart port s = .next (((u.endOpen port).frameOpens port (k.words.getD 0 0).toNat).frameFollowed port prof
      (k.words.getD 1 0)) := by
  unfold execFrameStart State.frameFollowed
  simp only [hk, hp]
  rw [if_neg (by simp [hen])]
  split
  · rfl
  · rcases ((u.endOpen port).frameOpens port (k.words.getD 0 0).toNat).placeFrame port prof with ⟨_ | _, _⟩ <;> rfl

end FrameStart

/-! ### LINE_START (R96, R98 to R100, R104, R105) -/

/-- Stamping a line leaves the raw front end as it is. -/
@[simp] theorem State.lineTimed_rw (s : State) (p r y i : Nat) : (s.lineTimed p r y).rw_ i = s.rw_ i := by
  unfold State.lineTimed
  dsimp only
  split <;> rfl

/-- Line `y` of readout `k.vc` opens in frame `g`, once the lines that it skips are filled. -/
def State.lineOpens (v : State) (p : Nat) (k : Packet) (g : Ingest) (y : Nat) : State :=
  let w := if (g.lines.getD k.vc []).length < y then (v.lnkFault p lfSeq loSkipAhead).fillTo p k.vc y g.height else v
  (w.modIngest p (fun f => { f with
    skip := f.skip.set k.vc false, cur := f.cur.set k.vc (some ⟨y, [], !k.good⟩) })).checkWaiting p

section LineStart
variable (hk : s.packetIn port 3 (some 1) = (some k, u))
include hk

theorem execLineStart_outside (hf : (u.rw_ port).frame = none) :
    execLineStart port s =
      .next ((u.lineTimed port k.vc ((k.words.getD 0 0).toNat % 0x10000)).lnkFault port lfSeq loOutside) := by
  unfold execLineStart
  simp only [hk, State.lineTimed_rw, hf]

/-- A LINE_START of a readout of the frame: its line number is behind or beyond the frame, or the line opens. -/
theorem execLineStart_inFrame (hy : y = (k.words.getD 0 0).toNat % 0x10000) (hf : (u.rw_ port).frame = some f)
    (hr : k.vc < f.cfg.readouts) (hv : v = (u.lineTimed port k.vc y).closeLine port k.vc) (hg : (v.rw_ port).frame = some g) :
    execLineStart port s = .next
      (if y < (g.lines.getD k.vc []).length ∨ g.height ≤ y then
        (v.lnkFault port lfSeq loBadLine).modIngest port (fun f => { f with skip := f.skip.set k.vc true })
      else if k.vc = 0 ∧ y = (v.lineOpens port k g y).f (LNK_P_SET_CFG__SET_LINE port) ∧
          ((v.lineOpens port k g y).rw_ port).frame.isSome = true then (v.lineOpens port k g y).startSettings port
      else v.lineOpens port k g y) := by
  subst hy hv
  unfold execLineStart
  simp only [hk, State.lineTimed_rw, hf]
  rw [if_neg (Nat.not_le.mpr hr)]
  simp only [hg, Option.getD_some, ← apply_ite Host.Outcome.next]
  rfl

end LineStart

/-! ### LINE_DATA, LINE_END and EMBEDDED (R96, R97, R99, R100, R123, R124, R186) -/

section LineData
variable {full : Bool} (hk : s.packetIn port 4 none = (some k, u))
include hk

theorem execLineData_outside (hf : (u.rw_ port).frame = none) :
    execLineData port full s = .next (u.lnkFault port lfSeq loOutside) := by
  unfold execLineData
  simp only [hk, hf]

variable (hf : (u.rw_ port).frame = some f)
include hf

theorem execLineData_noLine (hl : f.cur.getD k.vc none = none) : execLineData port full s = .next u := by
  unfold execLineData
  simp only [hk, hf, hl]

/-- The words join the open line `l`, of which there may be too many. -/
def State.lineGrows (u : State) (p : Nat) (k : Packet) (f : Ingest) (l : OpenLine) : State :=
  let excess := decide (f.lineWords < (l.words ++ k.words).length)
  (if excess then u.lnkFault p lfLen loExcess else u).modIngest p (fun f => { f with
    cur := f.cur.set k.vc (some ⟨l.number, (l.words ++ k.words).take f.lineWords, l.damaged || excess || !k.good⟩) })

theorem execLineData_open {l : OpenLine} (hl : f.cur.getD k.vc none = some l) :
    execLineData port full s = .next
      (if full = true ∧ f.recorded = true then u.overflow port 4
      else if f.recorded = true ∧ f.lagBreach k.vc l.number = true then u.overflow port 6
      else u.lineGrows port k f l) := by
  unfold execLineData
  simp only [hk, hf, hl, ← apply_ite Host.Outcome.next]
  rfl

end LineData

section LineEnd
variable (hk : s.packetIn port 5 (some 0) = (some k, u))
include hk

theorem execLineEnd_outside (hf : (u.rw_ port).frame = none) : execLineEnd port s = .next (u.lnkFault port lfSeq loOutside) := by
  unfold execLineEnd
  simp only [hk]
  exact if_pos (by simp [hf])

theorem execLineEnd_inFrame (hf : (u.rw_ port).frame = some f) :
    execLineEnd port s = .next ((u.closeLine port k.vc).checkWaiting port) := by
  unfold execLineEnd
  simp only [hk]
  exact if_neg (by simp [hf])

end LineEnd

section Embedded
variable (hk : s.packetIn port 6 none = (some k, u))
include hk

theorem execEmbedded_outside (hf : (u.rw_ port).frame = none) : execEmbedded port s = .next (u.lnkFault port lfSeq loOutside) := by
  unfold execEmbedded
  simp only [hk, hf]

theorem execEmbedded_inFrame {n : Nat} (hf : (u.rw_ port).frame = some f)
    (hn : n = 4096 * ((u.rec? port f.fid).map (·.embSect)).getD 0) :
    let all := f.emb ++ leBytes 4 (k.vc * 0x4000000 + k.words.length) ++ k.words.flatMap (fun w => leBytes 4 w.toNat)
    execEmbedded port s = .next (if f.skip.getD k.vc false then u else u.modIngest port (fun f => { f with
      emb := all.take n, embTrunc := f.embTrunc || decide (n < all.length) })) := by
  subst hn
  unfold execEmbedded
  simp only [hk, hf, ← apply_ite Host.Outcome.next]
  cases u.rec? port f.fid <;> rfl

end Embedded

/-! ### FRAME_END and other packets (R95, R97, R99, R100, R123, R127) -/

section FrameEnd
variable (hk : s.packetIn port 2 (some 1) = (some k, u))
include hk

theorem execFrameEnd_outside (hf : (u.rw_ port).frame = none) :
    execFrameEnd port s = .next (u.lnkFault port lfSeq loOutside) := by
  unfold execFrameEnd
  simp only [hk, hf]

/-- Frame `g` is marked where a readout's line count differs from the one that FRAME_END sends. -/
def State.countChecked (v : State) (p : Nat) (k : Packet) (g : Ingest) : State :=
  if (List.range g.cfg.readouts).any (fun r => g.got.getD r 0 != (k.words.getD 0 0).toNat % 0x10000) then
    (v.lnkFault p lfLen loCount).modIngest p (fun f => { f with countBad := true })
  else v

/-- The lines that frame `g` lacks set DMG and are filled. -/
def State.frameFilled (w : State) (p : Nat) (g : Ingest) : State :=
  (List.range g.cfg.readouts).foldl (fun s r => s.fillTo p r g.height g.height)
    (if (List.range g.cfg.readouts).any (fun r => decide ((g.lines.getD r []).length < g.height)) then w.raise (RAW_P_ERR__DMG p)
    else w)

theorem execFrameEnd_inFrame {j : Ingest} (hf : (u.rw_ port).frame = some f)
    (hv : v = (List.range f.cfg.readouts).foldl (fun s r => s.closeLine port r) u) (hg : (v.rw_ port).frame = some g)
    (hj : (((v.countChecked port k g).frameFilled port g).rw_ port).frame = some j) :
    execFrameEnd port s = .next (((v.countChecked port k g).frameFilled port g).ingestEnd port 0 j.emitted) := by
  subst hv
  unfold State.countChecked State.frameFilled at *
  unfold execFrameEnd
  simp only [hk, hf, hg, hj, Option.getD_some]

end FrameEnd

section ReservedType
variable {w : W32} {t : List W32}

theorem execReservedTypePacket_taken (hw : s.packetAt port = some (w, t)) (hon : s.portOn port = true) (ht : 7 ≤ hdrType w) :
    execReservedTypePacket port s = .next
      (if (s.pt port).relock then s.packetOff port w else (s.packetOff port w).lnkFault port lfType loType) := by
  unfold execReservedTypePacket
  simp only [hw, ← apply_ite Host.Outcome.next]
  rw [if_neg (by simp [hon, ht])]

theorem execReservedTypePacket_other (h : s.packetAt port = none ∨ s.portOn port = false
    ∨ (s.packetAt port).any (fun x => decide (hdrType x.1 < 7)) = true) : execReservedTypePacket port s = .next s := by
  unfold execReservedTypePacket
  dsimp only
  cases hw : s.packetAt port with
  | none => rfl
  | some x => exact if_pos (by simpa [hw] using h)

end ReservedType

/-! ### Incidents (R99, R101, R122, R127) -/

theorem execFrameTimeout_passes (hin : s.on (LNK_P_STAT__IN_FRAME port) = true) (ht : s.f (LNK_P_FRAME_TMO__TMO_US port) ≠ 0) :
    execFrameTimeout port s = .next ((s.lnkFault port lfTimeout loTimeout).truncateFrame port 2) := by
  unfold execFrameTimeout
  exact if_neg (by simp [hin, ht])

theorem execFrameTimeout_off (h : s.on (LNK_P_STAT__IN_FRAME port) = false ∨ s.f (LNK_P_FRAME_TMO__TMO_US port) = 0) :
    execFrameTimeout port s = .next s := by
  unfold execFrameTimeout
  exact if_pos h

theorem execStripeLanded_inFrame (hf : (s.rw_ port).frame = some f) :
    execStripeLanded port s = .next (if f.recorded = true ∧ f.landed < f.emitted then s.landStripe port else s) := by
  unfold execStripeLanded
  simp only [hf]

theorem execStripeLanded_outside (hf : (s.rw_ port).frame = none) : execStripeLanded port s = .next s := by
  unfold execStripeLanded
  simp only [hf]

end Packets

/-- Settles O19, from the opening of a frame and its three continuations. -/
theorem frameStarts : Obligations.FrameStarts := by
  unfold Obligations.FrameStarts
  refine ⟨fun port k prof fid u v x z s hk hv hp hen hx hc hz => ?_, fun port k prof u v x z s hk hv hp hen hx hc hz => ?_,
    fun port k prof u v x s hk hv hp hen hx h2 h3 => ?_, fun port k u v s hk hv h => ?_, fun port u s => execFrameStart_refused⟩
  all_goals subst hv
  · subst hx
    exact (execFrameStart_opens hk hp hen).trans (congrArg Host.Outcome.next (State.frameFollowed_recorded hc hz))
  · subst hx
    exact (execFrameStart_opens hk hp hen).trans (congrArg Host.Outcome.next (State.frameFollowed_unplaced hc hz))
  · subst hx
    exact (execFrameStart_opens hk hp hen).trans (congrArg Host.Outcome.next (if_pos ⟨h2, h3⟩))
  · exact execFrameStart_unused hk h

/-- Settles O20, one law per packet of a frame in ingest. -/
theorem linePackets : Obligations.LinePackets := by
  unfold Obligations.LinePackets
  refine ⟨fun port k f g y u v w x s hk hy hf hr hv hg hle hlt hw hx => ?_, fun port k f g y u v s hk hy hf hr hv hg h => ?_,
    fun port full k f l u s hk hf hl => execLineData_open hk hf hl, fun port full k f u s => execLineData_noLine,
    fun port k f u s => execLineEnd_inFrame, fun port k f n u s hk hf hn => execEmbedded_inFrame hk hf hn⟩
  · have inside : ¬ (y < (g.lines.getD k.vc []).length ∨ g.height ≤ y) := by omega
    subst hw hx
    refine (execLineStart_inFrame hk hy hf hr hv hg).trans ?_
    rw [if_neg inside]
    rfl
  · refine (execLineStart_inFrame hk hy hf hr hv hg).trans ?_
    rw [if_pos h]

/-- Settles O21, one law per packet or incident and whether a frame is in ingest. -/
theorem frameEnds : Obligations.FrameEnds := by
  unfold Obligations.FrameEnds
  refine ⟨fun port k f g j u v w x s hk hf hv hg hw hx hj => ?_, fun port k u s => execLineStart_outside,
    fun port k u s => execFrameEnd_outside, fun port full k u s => execLineData_outside, fun port k u s => execEmbedded_outside,
    fun port k u s => execLineEnd_outside, fun port s => rfl, fun port w t s => execReservedTypePacket_taken,
    fun port s => execReservedTypePacket_other, fun port s => execFrameTimeout_passes, fun port s => execFrameTimeout_off,
    fun port f s => execStripeLanded_inFrame, fun port s => execStripeLanded_outside⟩
  subst hw hx
  exact execFrameEnd_inFrame hk hf hv hg hj

end Sys2Proof.Machine

/-! ## Raw front-end tables, settings and statistics (spec/06, R112 to R119, R126, R128, R130; spec/10, R218; R453) -/

namespace Sys2Proof.Machine
open Sys2Proof

variable {s : State}

section RawFrontEnd
variable {p : Pkt} {bs : List Byte}

/-! ### Tables from a buffer (R113, R114, R117 to R119) -/

section Linearisation
variable (ha : accepted 0x0200 p s = true) (hr : (entered 0x0200 p s).refOk (p.ref 4) = true)
include ha hr

theorem execRawSetLin_loaded (hro : p.b 0 0 2 ≠ 3) (hlen : (p.ref 4).len = 16388)
    (hb : (entered 0x0200 p s).readRef (p.ref 4) p.buf = some bs)
    (hw : (wordsOf bs).any (fun w => decide (0x1000000 ≤ w)) = false) :
    execRawSetLin p s = .next (settled 0x0200 (s.pktHdr 0x0200 p) (((entered 0x0200 p s).modRw p.idx (fun q => { q with
      lin := q.lin.set (p.b 0 0 2) (some (wordsOf bs)) })).refUse (p.ref 4)) ok) := by
  refine congrArg Host.Outcome.next (runOp_some ha (State.refGuard_ok hr ?_))
  refine (if_neg hro).trans ((if_neg (not_not.mpr hlen)).trans ?_)
  simp only [hb]
  exact if_neg (ne_true_of_eq_false hw)

theorem execRawSetLin_noReadout (hro : p.b 0 0 2 = 3) :
    execRawSetLin p s = .next (settled 0x0200 (s.pktHdr 0x0200 p) (entered 0x0200 p s) (badWord 0)) :=
  congrArg Host.Outcome.next (runOp_some ha (State.refGuard_badParam hr (if_pos hro)))

theorem execRawSetLin_badLength (hro : p.b 0 0 2 ≠ 3) (hlen : (p.ref 4).len ≠ 16388) :
    execRawSetLin p s = .next (settled 0x0200 (s.pktHdr 0x0200 p) (entered 0x0200 p s) (refuse stBadParam 0x8001)) :=
  congrArg Host.Outcome.next (runOp_some ha (State.refGuard_badParam hr ((if_neg hro).trans (if_pos hlen))))

end Linearisation

theorem execRawSetBlack_loaded (ha : accepted 0x0201 p s = true) (hr : (entered 0x0201 p s).refOk (p.ref 4) = true)
    (hro : p.b 0 0 2 ≠ 3 ∨ p.t 0 8 = true) (hlen : (p.ref 4).len = 4096)
    (hb : (entered 0x0201 p s).readRef (p.ref 4) p.buf = some bs)
    (hw : (wordsOf bs).any (fun w => decide (0x1000000 ≤ w)) = false) :
    execRawSetBlack p s = .next (settled 0x0201 (s.pktHdr 0x0201 p) ((((entered 0x0201 p s).modRw p.idx (fun q => { q with
      black := if p.t 0 8 then List.replicate 3 (some (wordsOf bs)) else q.black.set (p.b 0 0 2) (some (wordsOf bs)) })).setF
      (RAW_P_BLACK_ADJ__BLACK_ADJ p.idx) (p.b 1 0 24)).refUse (p.ref 4)) ok) := by
  have named : ¬ (p.b 0 0 2 = 3 ∧ p.t 0 8 = false) := fun c => hro.elim (· c.1) (ne_true_of_eq_false c.2)
  refine congrArg Host.Outcome.next (runOp_some ha (State.refGuard_ok hr ?_))
  refine (if_neg named).trans ((if_neg (not_not.mpr hlen)).trans ?_)
  simp only [hb]
  exact if_neg (ne_true_of_eq_false hw)

/-- Front-end `c` has the defect map `l`, with the dynamic correction and its thresholds as `p` gives them. -/
def State.defectsLoaded (s : State) (c : Nat) (p : Pkt) (l : List (Nat × Nat × Nat)) : State :=
  (((s.modRw c (fun q => { q with defects := l })).setF (RAW_P_CFG__DYN_EN c) (p.b 1 0 1)).wn (RAW_P_DYN_ABS c) (p.w 2)).wn
    (RAW_P_DYN_REL c) (p.w 3)

theorem execRawLoadDefects_loaded {f : Profile} {l : List (Nat × Nat × Nat)} (ha : accepted 0x0203 p s = true)
    (hr : (entered 0x0203 p s).refOk (p.ref 4) = true) (hf : ((entered 0x0203 p s).pt p.idx).profile = some f)
    (hmax : p.b 0 0 19 ≤ 262144) (hlen : 4 * p.b 0 0 19 ≤ (p.ref 4).len)
    (hb : (entered 0x0203 p s).readRef (p.ref 4) p.buf = some bs) (hl : l = ((wordsOf bs).take (p.b 0 0 19)).map defectOf)
    (hok : defectsOk f.width f.height (sameStep ((entered 0x0203 p s).f (RAW_P_CFG__CFA p.idx))) l = true) :
    execRawLoadDefects p s = .next (settled 0x0203 (s.pktHdr 0x0203 p)
      (((entered 0x0203 p s).defectsLoaded p.idx p l).refUse (p.ref 4)) (ok [p.b 0 0 19])) := by
  subst hl
  refine congrArg Host.Outcome.next (runOp_some ha (State.refGuard_ok hr ?_))
  simp only [hf, hb]
  exact (if_neg (by omega)).trans (if_neg (ne_false_of_eq_true hok))

/-! ### Merge settings (R112, R115, R116, R123, R126) -/

/-- The merge settings of `p` are the shadow settings of front-end `c`, marked for the next commit. -/
def State.mergeStored (s : State) (c : Nat) (p : Pkt) : State :=
  let v := (s.setF (RAW_P_CFG__READOUTS c) (p.b 0 0 2)).wn (RAW_P_APPLY_TAG c) (p.w 1)
  let w := (v.wn (RAW_P_GHOST c) (p.b 2 0 16 + p.b 2 16 7 * 0x10000 + p.b 0 4 2 * 0x10000000 + p.b 0 8 1 * 0x80000000)).wn
    (RAW_P_NOISE_FLOOR c) (p.w 3)
  ((List.range 3).foldl (fun s r =>
    (((s.wn (RAW_P_GAIN c r) (p.w (4 + r))).wn (RAW_P_KNEE c r) (p.w (7 + r))).wn (RAW_P_SAT c r) (p.w (10 + r))).wn
      (RAW_P_WEIGHT c r) (p.w (13 + r))) w).modRw c (fun q => { q with mergeMark := true })

section Merge
variable (ha : accepted 0x0202 p s = true)
include ha

theorem execRawSetMerge_noReadout (hro : p.b 0 0 2 = 0) :
    execRawSetMerge p s = .next (settled 0x0202 (s.pktHdr 0x0202 p) (entered 0x0202 p s) (badWord 0)) :=
  congrArg Host.Outcome.next (runOp_some ha (if_pos hro))

/-- Merge settings in range are stored or refused by the front-end rate that their readouts need. -/
theorem execRawSetMerge_inRange {t : State} {o : Outc} (hro : 0 < p.b 0 0 2) (hgr : p.b 0 4 2 < p.b 0 0 2) (hgw : p.b 2 16 7 ≤ 64)
    (hks : (List.range 3).find? (fun r => decide (p.w (10 + r) < p.w (7 + r))) = none)
    (hrate : (if (entered 0x0202 p s).r112 p.idx { (entered 0x0202 p s).shadowRaw p.idx with readouts := p.b 0 0 2 } none = false
      then (entered 0x0202 p s, some (refuse stBandwidth 0x8004))
      else ((entered 0x0202 p s).mergeStored p.idx p, some ok)) = (t, some o)) :
    execRawSetMerge p s = .next (settled 0x0202 (s.pktHdr 0x0202 p) t o) := by
  refine congrArg Host.Outcome.next (runOp_some ha ?_)
  refine (if_neg hro.ne').trans ((if_neg hgr.not_ge).trans ((if_neg hgw.not_gt).trans ?_))
  simp only [hks]
  exact hrate

end Merge

/-! ### Format (R112, R121, R218) -/

/-- The format of `p` is that of front-end `c`: RAW_Pp_CFG but for DYN_EN, the line time and, for the compressed form, its rate control. -/
def State.formatStored (s : State) (c : Nat) (p : Pkt) : State :=
  let v := ((s.wn (RAW_P_CFG c) (p.w 0)).setF (RAW_P_CFG__DYN_EN c) (s.f (RAW_P_CFG__DYN_EN c))).wn (RAW_P_LINE_NS c) (p.w 1)
  if p.b 0 0 3 = 2 then
    ((v.setF (RAW_P_PRESS_RC__RATIO c) (p.w 2)).setF (RAW_P_PRESS_RC__E_MIN c) (p.b 3 0 7)).setF (RAW_P_PRESS_RC__E_MAX c) (p.b 3 8 7)
  else v

section Format
variable {o : Outc} (ha : accepted 0x0204 p s = true)
include ha

theorem execRawSetFormat_stored (hc : (entered 0x0204 p s).formatCheck p = none) :
    execRawSetFormat p s = .next (settled 0x0204 (s.pktHdr 0x0204 p) ((entered 0x0204 p s).formatStored p.idx p) ok) := by
  refine congrArg Host.Outcome.next (runOp_some ha ?_)
  simp only [hc]
  rfl

theorem execRawSetFormat_refused (hc : (entered 0x0204 p s).formatCheck p = some o) :
    execRawSetFormat p s = .next (settled 0x0204 (s.pktHdr 0x0204 p) (entered 0x0204 p s) o) :=
  congrArg Host.Outcome.next (runOp_some ha (by simp only [hc]))

end Format

/-! ### Statistics (R128) -/

theorem execRawGetStats_written {b : IngestBlk} (ha : accepted 0x0205 p s = true) (hr : s.refOk (p.ref 0) = true)
    (hlen : (p.ref 0).len = 0 ∨ 2144 ≤ (p.ref 0).len) (hb : b = (s.rw_ p.idx).latch) :
    execRawGetStats p s = .next (settled 0x0205 (s.pktHdr 0x0205 p) ((s.writeRef (p.ref 0) b.bytes).refUse (p.ref 0))
      (ok [b.fid, b.tag, b.flags, b.lastStripe.getD 0xFFFFFFFF])) := by
  subst hb
  refine congrArg Host.Outcome.next (runOp_some ha ?_)
  rw [entered_fast p s rfl]
  exact State.refGuard_ok hr (if_neg (by omega))

end RawFrontEnd

/-- Settles O22, one law per opcode and way it ends. -/
theorem rawFrontEnd : Obligations.RawFrontEnd := by
  unfold Obligations.RawFrontEnd
  refine ⟨fun p bs s => execRawSetLin_loaded, fun p s => execRawSetLin_noReadout, fun p s => execRawSetLin_badLength,
    fun p bs s => execRawSetBlack_loaded, fun p f bs l u s ha hr hf hmax hlen hb hl hok hu => ?_,
    fun p v w s ha hro hgr hgw hks hrate hv hw => ?_, fun p s ha hro hgr hgw hks hrate => ?_,
    fun p s => execRawSetMerge_noReadout, fun p v s ha hc hv => ?_, fun p o s => execRawSetFormat_refused,
    fun p b s => execRawGetStats_written⟩
  · subst hu
    exact execRawLoadDefects_loaded ha hr hf hmax hlen hb hl hok
  · subst hv hw
    exact execRawSetMerge_inRange ha hro hgr hgw hks (if_neg (ne_false_of_eq_true hrate))
  · exact execRawSetMerge_inRange ha hro hgr hgw hks (if_pos hrate)
  · subst hv
    exact execRawSetFormat_stored ha hc

end Sys2Proof.Machine

/-! ## Contexts and the Ladle: settings, commits, starts and stops, stripes and triggers (spec/07, R126, R131 to R150) -/

namespace Sys2Proof.Machine
open Sys2Proof

variable {s : State}

section ContextSets
variable {p : Pkt}

/-! ### Size, budget and frame time (R150) -/

/-- A width or a height that a context can have. -/
def ctxMeasureOk (v : Nat) : Bool := decide (64 ≤ v) && decide (v ≤ 16384)

theorem ctxMeasureOk_iff (v : Nat) : ctxMeasureOk v = true ↔ 64 ≤ v ∧ v ≤ 16384 := by simp [ctxMeasureOk]

/-- Both measures in word 0 of `p` are in range. -/
def ctxSizeOk (p : Pkt) : Bool := ctxMeasureOk (p.b 0 0 16) && ctxMeasureOk (p.b 0 16 16)

theorem ctxSizeOk_iff (p : Pkt) :
    ctxSizeOk p = true ↔ (64 ≤ p.b 0 0 16 ∧ p.b 0 0 16 ≤ 16384) ∧ 64 ≤ p.b 0 16 16 ∧ p.b 0 16 16 ≤ 16384 := by
  rw [ctxSizeOk, Bool.and_eq_true, ctxMeasureOk_iff, ctxMeasureOk_iff]

theorem ctxSizeOk_of_out (h : p.b 0 0 16 < 64 ∨ 16384 < p.b 0 0 16 ∨ p.b 0 16 16 < 64 ∨ 16384 < p.b 0 16 16) :
    ctxSizeOk p = false := by
  rw [← Bool.not_eq_true, ctxSizeOk_iff]
  omega

section Configure
variable (ha : accepted 0x0300 p s = true)
include ha

theorem execCtxConfigure_badSize (h : ctxSizeOk p = false) :
    execCtxConfigure p s = .next (settled 0x0300 (s.pktHdr 0x0300 p) (entered 0x0300 p s) (badWord 0)) :=
  congrArg Host.Outcome.next (runOp_some ha (if_pos h))

theorem execCtxConfigure_shortFrame (h : ctxSizeOk p = true) (hf : p.w 2 < 1000000) :
    execCtxConfigure p s = .next (settled 0x0300 (s.pktHdr 0x0300 p) (entered 0x0300 p s) (badWord 2)) :=
  congrArg Host.Outcome.next (runOp_some ha ((if_neg (ne_false_of_eq_true h)).trans (if_pos hf)))

theorem execCtxConfigure_stored (h : ctxSizeOk p = true) (hf : 1000000 ≤ p.w 2) :
    execCtxConfigure p s = .next (settled 0x0300 (s.pktHdr 0x0300 p)
      ((((entered 0x0300 p s).wn (CTX_C_SIZE p.idx) (p.w 0)).wn (CTX_C_BUDGET p.idx) (p.w 1)).wn (CTX_C_FRAME_NS p.idx) (p.w 2)) ok) :=
  congrArg Host.Outcome.next (runOp_some ha ((if_neg (ne_false_of_eq_true h)).trans (if_neg hf.not_gt)))

end Configure

/-! ### Policy and status (R141, R150) -/

/-- The essential load with context `c` essential, at the greater of its live and its pending load. -/
def State.essentialWith (s : State) (c : Nat) : Nat := s.essSum c (max (s.liveLoad c) (s.pendLoad c)) true

section Policy
variable (ha : accepted 0x0304 p s = true)
include ha

theorem execCtxSetPolicy_stored (h : p.t 0 0 = false ∨ (entered 0x0304 p s).cst p.idx = 0
      ∨ (entered 0x0304 p s).essentialWith p.idx ≤ 1000) :
    execCtxSetPolicy p s = .next (settled 0x0304 (s.pktHdr 0x0304 p)
      (((entered 0x0304 p s).setB (CTX_C_POLICY__ESSENTIAL p.idx) (p.t 0 0)).setF (CTX_C_POLICY__PRIO p.idx) (p.b 0 8 3)) ok) := by
  refine congrArg Host.Outcome.next (runOp_some ha (if_neg ?_))
  rintro ⟨hess, hidle, hload⟩
  rcases h with h | h | h
  · exact ne_true_of_eq_false h hess
  · exact hidle h
  · exact h.not_gt hload

theorem execCtxSetPolicy_refused (hess : p.t 0 0 = true) (hidle : (entered 0x0304 p s).cst p.idx ≠ 0)
    (hload : 1000 < (entered 0x0304 p s).essentialWith p.idx) :
    execCtxSetPolicy p s = .next (settled 0x0304 (s.pktHdr 0x0304 p) (entered 0x0304 p s) (refuse stBandwidth 0x8002)) :=
  congrArg Host.Outcome.next (runOp_some ha (if_pos ⟨hess, hidle, hload⟩))

end Policy

/-- The twelve words of CTX_STATUS. -/
def State.ctxReport (s : State) (c : Nat) : List Nat :=
  [s.ctxStateWord c, s.rn (CTX_C_POLICY c), s.headFid c, s.headPos c, s.rn (CTX_C_COMMIT_ID c), (s.ctxFp c).toNat % 0x100000000,
    (s.ctxFp c).toNat / 0x100000000, s.rn (CTX_C_PROC_CNT c), s.rn (CTX_C_SKIP_CNT c), s.rn (CTX_C_LATE_CNT c),
    s.rn (CTX_C_MAX_LATE c), s.liveLoad c]

theorem execCtxStatus_accepted (ha : accepted 0x0306 p s = true) :
    execCtxStatus p s = .next (settled 0x0306 (s.pktHdr 0x0306 p) s (ok (s.ctxReport p.idx))) :=
  congrArg Host.Outcome.next (runOp_some ha (by rw [entered_fast p s rfl]; rfl))

/-! ### Commits (R126, R134, R136) -/

/-- The shadow front-end settings a commit of context `c` can take. -/
def State.commitShadow (s : State) (c : Nat) : RawCfg := if c < 4 then s.shadowRaw c else {}
/-- The shadow merge settings of context `c` are marked for its next commit. -/
def State.commitMark (s : State) (c : Nat) : Bool := decide (c < 4) && (s.rw_ c).mergeMark
/-- The marked settings wait for a frame with their tag. -/
def State.commitArms (s : State) (c : Nat) : Bool := s.commitMark c && (s.commitShadow c).applyTag != 0
/-- The image takes the shadow merge settings: they are marked with tag 0, or the image it replaces still carries them. -/
def State.commitCarries (s : State) (c : Nat) : Bool :=
  (s.commitMark c && (s.commitShadow c).applyTag == 0) ||
    (match (s.cx c).pending with | some i => i.carries && !s.commitMark c | none => false)
/-- The front-end settings of the image. -/
def State.commitRaw (s : State) (c : Nat) : RawCfg :=
  if s.commitCarries c || decide (c ≥ 4) then s.commitShadow c else (s.commitShadow c).withMerge (s.rw_ c).live
/-- The tap settings of the image. -/
def State.commitTaps (s : State) (c : Nat) : List TapCfg := (s.ownedTaps c).map s.shadowTap
/-- The number after the last commit's; 0 is left out. -/
def State.commitNext (s : State) (c : Nat) : W32 := if (s.cx c).commitId + 1 = 0 then 1 else (s.cx c).commitId + 1

/-- The image that a commit of context `c` makes. -/
def State.commitImage (s : State) (c : Nat) : Image :=
  { id := s.commitNext c, cfg := s.shadowCtx c, raw := s.commitRaw c, clr := s.shadowClr c, taps := s.commitTaps c,
    fp := imageFp (s.shadowCtx c) (s.commitRaw c) (s.shadowClr c) (s.commitTaps c), carries := s.commitCarries c }

/-- The image is pending in place of one that was, and an IDLE context is READY. -/
def State.imagePending (s : State) (c : Nat) : State :=
  let u := (if (s.cx c).pending.isSome then s.raise (CTX_C_ERR__COMMIT_REPLACED c) else s).modCx c
    (fun q => { q with commitId := s.commitNext c, pending := some (s.commitImage c) })
  if u.cst c = 0 then u.setCst c 1 else u

/-- The commit of context `c`: its image is pending, and marked merge settings are taken or armed. -/
def State.committed (s : State) (c : Nat) : State :=
  let v := s.imagePending c
  let w := if c < 4 ∧ s.commitArms c ∧ (v.rw_ c).armed.isSome then v.raise (RAW_P_ERR__ARM_REPLACED c) else v
  if c < 4 ∧ s.commitMark c then
    w.modRw c (fun r => { r with mergeMark := false, armed := if s.commitArms c then some (s.commitShadow c) else none })
  else w

section Commit
variable (ha : accepted 0x0301 p s = true)
include ha

theorem execCtxCommit_passed (hc : s.commitCheck p.idx = none) :
    execCtxCommit p s = .next (settled 0x0301 (s.pktHdr 0x0301 p) (s.committed p.idx) (ok [(s.commitImage p.idx).id.toNat,
      (s.commitImage p.idx).fp.toNat % 0x100000000, (s.commitImage p.idx).fp.toNat / 0x100000000])) := by
  refine congrArg Host.Outcome.next (runOp_some ha ?_)
  rw [entered_fast p s rfl]
  simp only [hc]
  rfl

theorem execCtxCommit_failed {o : Outc} (hc : s.commitCheck p.idx = some o) :
    execCtxCommit p s = .next (settled 0x0301 (s.pktHdr 0x0301 p) s o) :=
  congrArg Host.Outcome.next (runOp_some ha (by rw [entered_fast p s rfl]; simp only [hc]))

end Commit

end ContextSets

/-- Settles O23, one law per opcode and way it ends. -/
theorem contextSets : Obligations.ContextSets := by
  unfold Obligations.ContextSets
  refine ⟨fun p s ha hw hw' hh hh' => ?_, fun p s ha h => ?_, fun p s ha hw hw' hh hh' => ?_, fun p s => execCtxSetPolicy_stored,
    fun p s => execCtxSetPolicy_refused, fun p s => execCtxStatus_accepted,
    fun p mark arming carries sh raw ts id i u v w s ha hc hmark hsh harm hcar hraw hts hid hi hu hv hw => ?_,
    fun p o s ha hc => execCtxCommit_failed ha hc⟩
  · exact execCtxConfigure_stored ha ((ctxSizeOk_iff p).mpr ⟨⟨hw, hw'⟩, hh, hh'⟩)
  · exact execCtxConfigure_badSize ha (ctxSizeOk_of_out h)
  · exact execCtxConfigure_shortFrame ha ((ctxSizeOk_iff p).mpr ⟨⟨hw, hw'⟩, hh, hh'⟩)
  · subst hw hv hu hi hid hts hraw hcar harm hsh hmark
    exact execCtxCommit_passed ha hc

/-! ### Starts (R132, R133) -/

section ContextRuns
variable {p : Pkt}

/-- A context has what its frames come from: a sensor, or a playback source that it has or will take. -/
def State.sourced (s : State) (c : Nat) : Prop :=
  c < 4 ∨ (s.cx c).source.isSome = true ∨ (s.cx c).nextSource.isSome = true

theorem State.sourced_iff (s : State) (c : Nat) :
    s.sourced c ↔ ¬ (4 ≤ c ∧ (s.cx c).source.isNone ∧ (s.cx c).nextSource.isNone) := by
  cases hs : (s.cx c).source <;> cases hn : (s.cx c).nextSource <;> simp [sourced, hs, hn]

/-- Context `c` runs: the vault is in use, its first frame is to come, and from READY a playback source starts at its beginning. -/
def State.ctxStarted (s : State) (c : Nat) : State :=
  let u := s.vaultUse.modCx c (fun q => { q with firstFid := none })
  let v := if c < 4 then u.modRw c (fun r => { r with latch := {}, firstFrame := true }) else u
  (if s.cst c = 1 then v.modCx c (fun q => { q with source := q.source.map (fun x => { x with next := 0 }) }) else v).setCst c 2

section Start
variable (ha : accepted 0x0302 p s = true)
include ha

theorem execCtxStart_idle (hc : (entered 0x0302 p s).cst p.idx = 0) :
    execCtxStart p s = .next (settled 0x0302 (s.pktHdr 0x0302 p) (entered 0x0302 p s) (refuse stState 0x8004)) :=
  congrArg Host.Outcome.next (runOp_some ha (if_pos hc))

variable (hc : (entered 0x0302 p s).cst p.idx ≠ 0)
include hc

theorem execCtxStart_unsourced (hs : ¬ (entered 0x0302 p s).sourced p.idx) :
    execCtxStart p s = .next (settled 0x0302 (s.pktHdr 0x0302 p) (entered 0x0302 p s) (refuse stState 0x8007)) :=
  congrArg Host.Outcome.next (runOp_some ha
    ((if_neg hc).trans (if_pos (not_not.mp (mt (State.sourced_iff _ _).mpr hs)))))

variable (hs : (entered 0x0302 p s).sourced p.idx)
include hs

theorem execCtxStart_running (hr : (entered 0x0302 p s).cst p.idx = 2) :
    execCtxStart p s = .next (settled 0x0302 (s.pktHdr 0x0302 p) (entered 0x0302 p s) (ok [2])) :=
  congrArg Host.Outcome.next (runOp_some ha
    ((if_neg hc).trans ((if_neg ((State.sourced_iff _ _).mp hs)).trans (if_pos hr))))

theorem execCtxStart_started (hr : (entered 0x0302 p s).cst p.idx ≠ 2) (hb : (entered 0x0302 p s).bist 1 = false) :
    execCtxStart p s =
      .next (settled 0x0302 (s.pktHdr 0x0302 p) ((entered 0x0302 p s).ctxStarted p.idx) (ok [2])) :=
  congrArg Host.Outcome.next (runOp_some ha ((if_neg hc).trans
    ((if_neg ((State.sourced_iff _ _).mp hs)).trans ((if_neg hr).trans (if_neg (ne_true_of_eq_false hb))))))

end Start

/-! ### Stops (R126, R133) -/

/-- What both stops of context `c` discard: an armed merge set and a frame still to be skipped. -/
def State.ctxCleared (s : State) (c : Nat) : State := (s.disarm c).modCx c (fun q => { q with skipNext := none })

/-- After a full stop: READY with nothing of the context left, else DRAINING. -/
def State.ctxStopped (s : State) (c : Nat) : State :=
  (s.ctxCleared c).setCst c
    (if ((s.ctxCleared c).cx c).frames.isEmpty && !(s.ctxCleared c).ingesting c then 1 else 4)

/-- After a processing stop: the frame in processing is noted, those not begun are marked, and the frames settle. -/
def State.procStopped (s : State) (c : Nat) : State :=
  (((s.ctxCleared c).modCx c (fun q => { q with
    stopAt := (((s.ctxCleared c).cx c).frames.find? (fun f => f.started != 0)).map (·.fid),
    frames := q.frames.map (fun f => if f.started = 0 then { f with procStop := true } else f) })).setCst c 3).settleFrames c

section Stop
variable (ha : accepted 0x0303 p s = true)
include ha

theorem execCtxStop_stopped (hr : (entered 0x0303 p s).cst p.idx ≠ 2)
    (hp : (entered 0x0303 p s).cst p.idx ≠ 3 ∨ p.t 0 0 = true) :
    execCtxStop p s =
      .next (settled 0x0303 (s.pktHdr 0x0303 p) (entered 0x0303 p s) (ok [(entered 0x0303 p s).cst p.idx])) :=
  congrArg Host.Outcome.next (runOp_some ha (if_pos ⟨hr, hp⟩))

theorem execCtxStop_full (hr : (entered 0x0303 p s).cst p.idx = 2 ∨ (entered 0x0303 p s).cst p.idx = 3) (hf : p.t 0 0 = false) :
    execCtxStop p s = .next (settled 0x0303 (s.pktHdr 0x0303 p) ((entered 0x0303 p s).ctxStopped p.idx)
      (ok [((entered 0x0303 p s).ctxStopped p.idx).cst p.idx])) := by
  have live : ¬ ((entered 0x0303 p s).cst p.idx ≠ 2 ∧ ((entered 0x0303 p s).cst p.idx ≠ 3 ∨ p.t 0 0 = true)) := by
    rintro ⟨h2, h3 | hp⟩
    · exact hr.elim h2 h3
    · exact ne_true_of_eq_false hf hp
  exact congrArg Host.Outcome.next (runOp_some ha ((if_neg live).trans (if_neg (ne_true_of_eq_false hf))))

theorem execCtxStop_processing (hr : (entered 0x0303 p s).cst p.idx = 2) (hp : p.t 0 0 = true) :
    execCtxStop p s =
      .next (settled 0x0303 (s.pktHdr 0x0303 p) ((entered 0x0303 p s).procStopped p.idx) (ok [3])) :=
  congrArg Host.Outcome.next (runOp_some ha ((if_neg (fun h => h.1 hr)).trans (if_pos hp)))

end Stop

/-! ### Playback sources (R147 to R150) -/

/-- The source that CTX_PLAYBACK_SOURCE names. -/
def playSourceOf (p : Pkt) : PlaySource :=
  { decoder := p.b 0 0 2 == 1, ctx := p.b 0 4 3, loop := p.t 0 12, pace := p.b 0 16 3, firstFid := p.w 1, count := p.w 2 }

/-- The size and rate at which context `c` would replay: those of its pending image, else of its live one, else its shadow set. -/
def State.replayCfg (s : State) (c : Nat) : CtxCfg :=
  match s.liveImage c, (s.cx c).pending with
  | _, some i => i.cfg
  | some i, none => i.cfg
  | none, none => s.shadowCtx c

/-- Source `q` becomes that of context `c`: at the next pace tick where the context runs or is PROC_STOPPED, else at once. -/
def State.sourceTaken (s : State) (c : Nat) (q : PlaySource) (raw : Nat) : State :=
  s.modCx c (fun x => if s.cst c = 2 ∨ s.cst c = 3 then { x with nextSource := some q, rawSrc := raw }
    else { x with source := some q, nextSource := none, rawSrc := raw })

theorem State.sourceTaken_of_live {c : Nat} (q : PlaySource) (raw : Nat) (h : s.cst c = 2 ∨ s.cst c = 3) :
    s.sourceTaken c q raw = s.modCx c (fun x => { x with nextSource := some q, rawSrc := raw }) := by
  simp only [sourceTaken, if_pos h]

theorem State.sourceTaken_of_not_live {c : Nat} (q : PlaySource) (raw : Nat) (h : ¬ (s.cst c = 2 ∨ s.cst c = 3)) :
    s.sourceTaken c q raw = s.modCx c (fun x => { x with source := some q, nextSource := none, rawSrc := raw }) := by
  simp only [sourceTaken, if_neg h]

section Playback
variable (ha : accepted 0x0305 p s = true) (hc : p.b 0 4 3 ≤ 3) (hp : p.b 0 16 3 ≤ 4)
include ha hc hp

theorem execCtxPlaybackSource_taken (hk : p.b 0 0 2 ≤ 1)
    (hrec : p.b 0 0 2 = 1 ∨ ((entered 0x0305 p s).rec? (p.b 0 4 3) (p.w 1)).isSome = true)
    (hrate : (entered 0x0305 p s).sensorSource (some (playSourceOf p)) = false ∨ (entered 0x0305 p s).r112 (p.b 0 8 2)
      ((entered 0x0305 p s).rw_ (p.b 0 8 2)).live (some (p.idx, (entered 0x0305 p s).replayCfg p.idx)) = true) :
    execCtxPlaybackSource p s = .next (settled 0x0305 (s.pktHdr 0x0305 p)
      ((entered 0x0305 p s).sourceTaken p.idx (playSourceOf p) (p.b 0 8 2)) ok) := by
  have stands : ¬ (p.b 0 0 2 = 0 ∧ ((entered 0x0305 p s).rec? (p.b 0 4 3) (p.w 1)).isNone = true) := by
    rintro ⟨h0, hn⟩
    rcases hrec with h1 | h1
    · omega
    · simp [Option.isNone_iff_eq_none.mp hn] at h1
  have keeps : ¬ ((entered 0x0305 p s).sensorSource (some (playSourceOf p)) = true ∧ (entered 0x0305 p s).r112 (p.b 0 8 2)
      ((entered 0x0305 p s).rw_ (p.b 0 8 2)).live (some (p.idx, (entered 0x0305 p s).replayCfg p.idx)) = false) := by
    rintro ⟨h1, h2⟩
    exact hrate.elim (ne_false_of_eq_true h1) (ne_true_of_eq_false h2)
  refine congrArg Host.Outcome.next (runOp_some ha ?_)
  refine (if_neg (by omega)).trans ((if_neg stands).trans ((if_neg keeps).trans ?_))
  by_cases hl : (entered 0x0305 p s).cst p.idx = 2 ∨ (entered 0x0305 p s).cst p.idx = 3
  · rw [State.sourceTaken_of_live _ _ hl]
    exact if_pos hl
  · rw [State.sourceTaken_of_not_live _ _ hl]
    exact if_neg hl

theorem execCtxPlaybackSource_gone (hk : p.b 0 0 2 = 0) (hrec : (entered 0x0305 p s).rec? (p.b 0 4 3) (p.w 1) = none) :
    execCtxPlaybackSource p s =
      .next (settled 0x0305 (s.pktHdr 0x0305 p) (entered 0x0305 p s) (refuse stState 0x8007)) :=
  congrArg Host.Outcome.next (runOp_some ha
    ((if_neg (by omega)).trans (if_pos ⟨hk, Option.isNone_iff_eq_none.mpr hrec⟩)))

end Playback

end ContextRuns

/-- Settles O24, one law per opcode and state of the context. -/
theorem contextRuns : Obligations.ContextRuns := by
  unfold Obligations.ContextRuns
  refine ⟨fun p s => execCtxStart_idle, fun p s ha hc hi hs hn => ?_, fun p s ha hs hr => ?_,
    fun p u v s ha hs hc hr hb hu hv => ?_, fun p s => execCtxStop_stopped, fun p u v s ha hr hf hu hv => ?_,
    fun p u v s ha hr hp hu hv => ?_, fun p q g s ha hk hc hp hrec hq hg hrate => ?_,
    fun p s ha hk hc hp hrec => execCtxPlaybackSource_gone ha hc hp hk hrec⟩
  · refine execCtxStart_unsourced ha hc fun h => (State.sourced_iff _ _).mp h ⟨hi, ?_, ?_⟩
    · rw [hs]; rfl
    · rw [hn]; rfl
  · exact execCtxStart_running ha (by omega) hs hr
  · subst hv hu
    exact execCtxStart_started ha hc hs hr hb
  · subst hv hu
    exact execCtxStop_full ha hr hf
  · subst hv hu
    exact execCtxStop_processing ha hr hp
  · subst hq hg
    exact execCtxPlaybackSource_taken ha hc hp hk hrec hrate

/-! ### Stripes (R137 to R140, R143, R145, R146) -/

/-- What frame `f` of context `c` reads from is gone: a decoded picture never is, a record when the vault has reclaimed it. -/
def State.frameGone (s : State) (c : Nat) (f : ProcFrame) : Bool :=
  match f.src with
  | some (.decoder _) => false
  | _ => (s.readRec c f).isNone

section Ladle
variable {c i : Nat} {f : ProcFrame}

theorem State.frameGone_decoder {k : Option Nat} (h : f.src = some (.decoder k)) : s.frameGone c f = false := by
  unfold frameGone
  rw [h]

theorem State.frameGone_recorded (h : ∀ k, f.src ≠ some (.decoder k)) : s.frameGone c f = (s.readRec c f).isNone := by
  unfold frameGone
  split
  next k hk => exact absurd hk (h k)
  next => rfl

theorem State.frameGone_of_stands (h : (∃ k, f.src = some (.decoder k)) ∨ (s.readRec c f).isSome = true) :
    s.frameGone c f = false := by
  by_cases hd : ∃ k, f.src = some (.decoder k)
  · obtain ⟨k, hk⟩ := hd
    exact frameGone_decoder hk
  · rw [frameGone_recorded (not_exists.mp hd), Option.isNone_eq_false_iff]
    exact h.resolve_left hd

theorem State.frameGone_of_reclaimed (hd : ∀ k, f.src ≠ some (.decoder k)) (hr : s.readRec c f = none) :
    s.frameGone c f = true := by
  rw [frameGone_recorded hd, hr]
  rfl

/-- A free pipeline takes the head picked, or skips its frame where the record is gone. -/
theorem execStripeStart_picked (hcur : s.ladle.cur = none) (hsafe : s.dev.safe = false) (hpick : s.ladlePick = some c)
    (hhead : s.head c = some (f, i)) :
    execStripeStart s = .next (if s.vaultUse.frameGone c f then s.vaultUse.procBoundary c f.fid 3 else s.vaultUse.stripeIn c f i) := by
  unfold execStripeStart
  rw [if_neg (by simp [hcur, hsafe])]
  simp only [hpick, hhead]
  exact (apply_ite Host.Outcome.next _ _ _).symm

theorem execStripeStart_none (h : s.ladle.cur.isSome = true ∨ s.dev.safe = true ∨ s.ladlePick = none) :
    execStripeStart s = .next s := by
  unfold execStripeStart
  split
  next => rfl
  next hfree => rw [(or_assoc.mpr h).resolve_left hfree]

theorem execStripeDone_out {q : CurStripe} (hcur : s.ladle.cur = some q) (hf : s.frame? q.ctx q.fid = some f) :
    execStripeDone s = .next ((s.stripeOut q f).lastStripe q.ctx q.fid q.stripe) := by
  unfold execStripeDone
  simp only [hcur, hf]

theorem execStripeDone_none (hcur : s.ladle.cur = none) : execStripeDone s = .next s := by
  unfold execStripeDone
  rw [hcur]

/-- The stripe under way is given up and its frame is skipped. -/
def State.stripeAbandoned (s : State) (c fid : Nat) : State :=
  (((s.setB CTX_LADLE_STAT__BUSY false).setF CTX_LADLE_STAT__CUR 7).wn VLT_PD_STAT 0x70).procBoundary c fid 3

theorem execReadbackStale_underWay {ctx : Fin 6} {q : CurStripe} (hcur : s.ladle.cur = some q) (hq : q.ctx = ctx.val)
    (hf : s.frame? ctx.val q.fid = some f) :
    execReadbackStale ctx s = .next (if s.frameGone ctx.val f then s.stripeAbandoned ctx.val q.fid else s) := by
  unfold execReadbackStale
  simp only [hcur, hq, if_true, hf]
  exact (apply_ite Host.Outcome.next _ _ _).symm

theorem execReadbackStale_other {ctx : Fin 6} (h : ∀ q, s.ladle.cur = some q → q.ctx ≠ ctx.val) :
    execReadbackStale ctx s = .next s := by
  unfold execReadbackStale
  cases hcur : s.ladle.cur with
  | none => rfl
  | some q => simp only [if_neg (h q hcur)]

/-! ### Triggers (R143, R144, R146) -/

/-- Frame `f` of context `c` has triggered, and the trigger is counted. -/
def State.triggered (s : State) (c : Nat) (f : ProcFrame) : State :=
  let t := s.modFrame c f.fid (fun g => { g with triggered := true })
  { t with ladle := { t.ladle with triggers := t.ladle.triggers + 1 } }

/-- The record of a frame that frame `f` of context `c` has skipped before it began. -/
def State.skippedBy (s : State) (c : Nat) (f : ProcFrame) : ProcCnt :=
  { cause := 1, trigCtx := c, trigFid := f.fid, endNs := s.ns }

section Trigger
variable {ctx : Fin 6}

theorem execLadleTrigger_unready
    (h : ∀ f i, s.head ctx.val = some (f, i) → s.headReady ctx.val = false ∨ f.triggered = true) :
    execLadleTrigger ctx s = .next s := by
  unfold execLadleTrigger
  cases hh : s.head ctx.val with
  | none => simp only [hh]
  | some x =>
    simp only [hh]
    exact if_pos (h x.1 x.2 hh)

/-- What a trigger of frame `f` of context `c` does to the victim, or for want of one (R144). -/
def State.victimSkipped (s : State) (c : Nat) (f : ProcFrame) : State :=
  match s.victim with
  | none => (s.raise (CTX_C_ERR__NO_VICTIM c)).modFrame c f.fid (fun g => { g with cnt := { g.cnt with noVictim := true } })
  | some v =>
    match s.skippable v with
    | some (some fid) => s.procBoundary v fid 1 (c, f.fid)
    | some none =>
      let w := s.modCx v (fun q => { q with skipNext := some (s.skippedBy c f) })
      (w.skipEvent v (w.nextFid v) (s.skippedBy c f)).frameDone v
    | none => s

theorem execLadleTrigger_ready (hh : s.head ctx.val = some (f, i)) (hr : s.headReady ctx.val = true) (ht : f.triggered = false) :
    execLadleTrigger ctx s = .next ((s.triggered ctx.val f).victimSkipped ctx.val f) := by
  unfold execLadleTrigger State.victimSkipped
  simp only [hh]
  refine (if_neg (by simp [hr, ht])).trans ?_
  change (match (s.triggered ctx.val f).victim with | none => _ | some v => _) = _
  cases (s.triggered ctx.val f).victim with
  | none => rfl
  | some v =>
    dsimp only
    change (match (s.triggered ctx.val f).skippable v with | some (some fid) => _ | some none => _ | none => _) = _
    rcases (s.triggered ctx.val f).skippable v with _ | _ | fid <;> rfl

end Trigger

theorem State.victimSkipped_none (hv : s.victim = none) :
    s.victimSkipped c f = (s.raise (CTX_C_ERR__NO_VICTIM c)).modFrame c f.fid
      (fun g => { g with cnt := { g.cnt with noVictim := true } }) := by
  unfold victimSkipped
  rw [hv]

theorem State.victimSkipped_frame {v fid : Nat} (hv : s.victim = some v) (hk : s.skippable v = some (some fid)) :
    s.victimSkipped c f = s.procBoundary v fid 1 (c, f.fid) := by
  unfold victimSkipped
  simp only [hv, hk]

theorem State.victimSkipped_next {v : Nat} {w : State} (hv : s.victim = some v) (hk : s.skippable v = some none)
    (hw : w = s.modCx v (fun q => { q with skipNext := some (s.skippedBy c f) })) :
    s.victimSkipped c f = (w.skipEvent v (w.nextFid v) (s.skippedBy c f)).frameDone v := by
  unfold victimSkipped
  simp only [hv, hk, hw]

end Ladle

/-- Settles O25, from what each Ladle event does with the head or with the stripe under way. -/
theorem ladle : Obligations.Ladle := by
  unfold Obligations.Ladle
  refine ⟨fun c f i s hcur hsafe hpick hhead hs => ?_, fun c f i s hcur hsafe hpick hhead hd hr => ?_,
    fun s => execStripeStart_none, fun q f s => execStripeDone_out, fun s => execStripeDone_none,
    fun ctx q f s hcur hq hf hd hr => ?_, fun ctx s => execReadbackStale_other, fun ctx f i t u s hh hr ht he hu hv => ?_,
    fun ctx f i v fid t u s hh hr ht he hu hv hk => ?_, fun ctx f i v k t u w s hh hr ht he hu hv hs hk hw => ?_,
    fun ctx s => execLadleTrigger_unready, fun pc s => rfl⟩
  · rw [exec_stripeStart, execStripeStart_picked hcur hsafe hpick hhead, State.frameGone_of_stands hs]
    rfl
  · rw [exec_stripeStart, execStripeStart_picked hcur hsafe hpick hhead, if_pos (State.frameGone_of_reclaimed hd hr)]
  · rw [exec_readbackStale, execReadbackStale_underWay hcur hq hf, if_pos (State.frameGone_of_reclaimed hd hr)]
    rfl
  · subst hu he
    rw [exec_ladleTrigger, execLadleTrigger_ready hh hr ht]
    exact congrArg Host.Outcome.next (State.victimSkipped_none hv)
  · subst hu he
    rw [exec_ladleTrigger, execLadleTrigger_ready hh hr ht]
    exact congrArg Host.Outcome.next (State.victimSkipped_frame hv hk)
  · subst hk hu he
    rw [exec_ladleTrigger, execLadleTrigger_ready hh hr ht]
    exact congrArg Host.Outcome.next (State.victimSkipped_next hv hs hw)

end Sys2Proof.Machine

/-! ## Colour settings, zone statistics and tap engines (spec/08, R153 to R164, R166, R169 to R171, R177, R180, R182) -/

namespace Sys2Proof.Machine
open Sys2Proof

variable {s : State}

section ColourPipeline
variable {p : Pkt} {bs : List Byte}

/-! ### Shading (R153, R182) -/

/-- A reference of length 0 names no bytes, so there is nothing to fail in reading it (R453). -/
theorem State.readRef_empty {r : BufRef} {h : HostRead} (hlen : r.len = 0) : s.readRef r h = some [] := if_pos hlen

section Shading
variable (ha : accepted 0x0400 p s = true) (hr : (entered 0x0400 p s).refOk (p.ref 4) = true)
include ha hr

theorem execClrSetShading_enable (hlen : (p.ref 4).len = 0) :
    execClrSetShading p s = .next (settled 0x0400 (s.pktHdr 0x0400 p)
      (((entered 0x0400 p s).setF (CLR_C_CFG__SHADE_EN p.idx) (p.b 0 0 1)).refUse (p.ref 4)) ok) := by
  refine congrArg Host.Outcome.next (runOp_some ha (State.refGuard_ok hr ?_))
  refine (if_neg fun h => h.1 hlen).trans ?_
  simp only [State.readRef_empty hlen, if_pos hlen]

theorem execClrSetShading_loaded (hlen : (p.ref 4).len = 67080)
    (hb : (entered 0x0400 p s).readRef (p.ref 4) p.buf = some bs) :
    execClrSetShading p s = .next (settled 0x0400 (s.pktHdr 0x0400 p)
      ((((entered 0x0400 p s).modCx p.idx (fun q => { q with clrGrid := some (halfWords bs) })).setF
        (CLR_C_CFG__SHADE_EN p.idx) (p.b 0 0 1)).refUse (p.ref 4)) ok) := by
  have hfull : (p.ref 4).len ≠ 0 := by omega
  refine congrArg Host.Outcome.next (runOp_some ha (State.refGuard_ok hr ?_))
  refine (if_neg fun h => h.2 hlen).trans ?_
  simp only [hb, if_neg hfull]

theorem execClrSetShading_badLength (hfull : (p.ref 4).len ≠ 0) (hlen : (p.ref 4).len ≠ 67080) :
    execClrSetShading p s = .next (settled 0x0400 (s.pktHdr 0x0400 p) (entered 0x0400 p s) (refuse stBadParam 0x8001)) :=
  congrArg Host.Outcome.next (runOp_some ha (State.refGuard_badParam hr (if_pos ⟨hfull, hlen⟩)))

end Shading

/-! ### White balance, camera matrix and working space (R154, R157, R159, R160, R182) -/

/-- Context `c` has the white balance, camera matrix, offsets, demosaic threshold and false-colour suppression of `p`. -/
def State.wbMatrixStored (s : State) (c : Nat) (p : Pkt) : State :=
  let u := (s.wn (CLR_C_WB01 c) (p.w 0)).wn (CLR_C_WB23 c) (p.w 1)
  let v := (List.range 9).foldl (fun s k => s.wn (CLR_C_CM c k) (p.w (2 + k))) u
  let w := (List.range 3).foldl (fun s k => s.wn (CLR_C_OFF c k) (p.w (11 + k))) v
  ((w.wn (CLR_C_DM_EPS c) (p.w 14)).wn (CLR_C_FCS_KNEE c) (p.b 15 0 24)).setF (CLR_C_CFG__FCS_EN c) (p.b 15 24 1)

section WbMatrix
variable (ha : accepted 0x0401 p s = true)
include ha

theorem execClrSetWbMatrix_stored (heps : p.w 14 ≠ 0) :
    execClrSetWbMatrix p s = .next (settled 0x0401 (s.pktHdr 0x0401 p) ((entered 0x0401 p s).wbMatrixStored p.idx p) ok) :=
  congrArg Host.Outcome.next (runOp_some ha (if_neg heps))

theorem execClrSetWbMatrix_noEps (heps : p.w 14 = 0) :
    execClrSetWbMatrix p s = .next (settled 0x0401 (s.pktHdr 0x0401 p) (entered 0x0401 p s) (badWord 14)) :=
  congrArg Host.Outcome.next (runOp_some ha (if_pos heps))

end WbMatrix

/-- Context `c` has the working space and luma coefficients of `p`; space 3 is the matrix that `p` brings. -/
def State.workspaceStored (s : State) (c : Nat) (p : Pkt) : State :=
  let u := s.setF (CLR_C_CFG__WSPACE c) (p.b 0 0 2)
  let v := if p.b 0 0 2 = 3 then (List.range 9).foldl (fun s k => s.wn (CLR_C_WS c k) (p.w (1 + k))) u else u
  v.wn (CLR_C_LUMA_K c) (p.w 10)

section Workspace
variable (ha : accepted 0x0402 p s = true)
include ha

theorem execClrSetWorkspace_stored (hk : p.b 10 0 16 + p.b 10 16 16 ≤ 65536) :
    execClrSetWorkspace p s = .next (settled 0x0402 (s.pktHdr 0x0402 p) ((entered 0x0402 p s).workspaceStored p.idx p) ok) :=
  congrArg Host.Outcome.next (runOp_some ha (if_neg hk.not_gt))

theorem execClrSetWorkspace_lumaAboveOne (hk : 65536 < p.b 10 0 16 + p.b 10 16 16) :
    execClrSetWorkspace p s = .next (settled 0x0402 (s.pktHdr 0x0402 p) (entered 0x0402 p s) (badWord 10)) :=
  congrArg Host.Outcome.next (runOp_some ha (if_pos hk))

end Workspace

/-! ### Zone statistics (R163, R182) -/

theorem execClrGetZonestats_written {z : ZoneBlk} (ha : accepted 0x0407 p s = true) (hr : s.refOk (p.ref 0) = true)
    (hlen : (p.ref 0).len = 0 ∨ 90176 ≤ (p.ref 0).len) (hz : z = (s.cx p.idx).zone) :
    execClrGetZonestats p s = .next (settled 0x0407 (s.pktHdr 0x0407 p) ((s.writeRef (p.ref 0) z.bytes).refUse (p.ref 0))
      (ok [z.fid, z.commitId, z.flags, z.stripes])) := by
  subst hz
  refine congrArg Host.Outcome.next (runOp_some ha ?_)
  rw [entered_fast p s rfl]
  exact State.refGuard_ok hr (if_neg (by omega))

end ColourPipeline

section TapEngines
variable {p : Pkt} {bs : List Byte}

/-! ### Tap settings (R164, R182) -/

/-- Tap engine `t` is context `c`'s and has the eight words of `p`. -/
def State.tapStored (s : State) (c t : Nat) (p : Pkt) : State :=
  let u := ((s.setF (TAP_T_OWNER__CTX t) c).wn (TAP_T_CROP0 t) (p.w 0)).wn (TAP_T_CROP1 t) (p.w 1)
  let v := ((u.wn (TAP_T_OUT t) (p.w 2)).wn (TAP_T_FMT t) (p.w 3)).wn (TAP_T_EXP t) (p.w 4)
  ((v.wn (TAP_T_BUF_LO t) (p.w 5)).wn (TAP_T_BUF_HI t) (p.w 6)).wn (TAP_T_BUF_CFG t) (p.w 7)

section Configure
variable (ha : accepted 0x0403 p s = true) (hrange : p.b 3 12 2 ≠ 3) (hmatrix : p.b 3 16 3 ≠ 0) (hmin : 2 ≤ p.b 7 0 4)
  (hmax : p.b 7 0 4 ≤ 8)
include ha hrange hmatrix hmin hmax

/-- Parameters in range leave it to the engine's owner whether they are stored. -/
theorem execTapConfigure_inRange {t : State} {o : Outc}
    (hown : (if (entered 0x0403 p s).mayOwn (Pkt.tapCtx p) (Pkt.tapEng p) = false
      then (entered 0x0403 p s, some (refuse stNoResource 0x8005))
      else ((entered 0x0403 p s).tapStored (Pkt.tapCtx p) (Pkt.tapEng p) p, some ok)) = (t, some o)) :
    execTapConfigure p s = .next (settled 0x0403 (s.pktHdr 0x0403 p) t o) := by
  have fmtOk : ¬ (p.b 3 12 2 = 3 ∨ p.b 3 16 3 = 0) := not_or.mpr ⟨hrange, hmatrix⟩
  have buffersOk : ¬ (p.b 7 0 4 < 2 ∨ 8 < p.b 7 0 4) := not_or.mpr ⟨hmin.not_gt, hmax.not_gt⟩
  exact congrArg Host.Outcome.next (runOp_some ha ((if_neg fmtOk).trans ((if_neg buffersOk).trans hown)))

theorem execTapConfigure_stored (hown : (entered 0x0403 p s).mayOwn (Pkt.tapCtx p) (Pkt.tapEng p) = true) :
    execTapConfigure p s = .next (settled 0x0403 (s.pktHdr 0x0403 p)
      ((entered 0x0403 p s).tapStored (Pkt.tapCtx p) (Pkt.tapEng p) p) ok) :=
  execTapConfigure_inRange ha hrange hmatrix hmin hmax (if_neg (ne_false_of_eq_true hown))

theorem execTapConfigure_owned (hown : (entered 0x0403 p s).mayOwn (Pkt.tapCtx p) (Pkt.tapEng p) = false) :
    execTapConfigure p s = .next (settled 0x0403 (s.pktHdr 0x0403 p) (entered 0x0403 p s) (refuse stNoResource 0x8005)) :=
  execTapConfigure_inRange ha hrange hmatrix hmin hmax (if_pos hown)

end Configure

/-! ### Tables (R164, R166, R169 to R171, R180, R182) -/

/-- The bytes of a table of kind `k` (Table 8-7). -/
def tapTableBytes (k : Nat) : Nat :=
  match k with
  | 0 => 24576
  | 1 => 1647750
  | 2 => 24576
  | _ => 1024

/-- The shadow bank with `l` as its table of kind `k` (Table 8-7). -/
def TapSt.withTable (q : TapSt) (k : Nat) (l : List Nat) : TapSt :=
  match k with
  | 0 => { q with shaper := some l }
  | 1 => { q with lut3 := some l }
  | 2 => { q with outLut := some l }
  | 3 => { q with hScale := some l }
  | _ => { q with vScale := some l }

theorem execTapLoadLut_loaded (ha : accepted 0x0404 p s = true) (hr : (entered 0x0404 p s).refOk (p.ref 4) = true)
    (hkind : p.b 0 0 3 ≤ 4) (hown : (entered 0x0404 p s).mayOwn (Pkt.tapCtx p) (Pkt.tapEng p) = true)
    (htap : 3 ≤ p.b 0 0 3 ∨ Pkt.tapEng p < 8) (hlen : (p.ref 4).len = tapTableBytes (p.b 0 0 3))
    (hbank : (entered 0x0404 p s).bankHeld (Pkt.tapEng p) = false)
    (hb : (entered 0x0404 p s).readRef (p.ref 4) p.buf = some bs)
    (hphases : p.b 0 0 3 < 3 ∨ phasesOk (halfWords bs) = true) :
    execTapLoadLut p s = .next (settled 0x0404 (s.pktHdr 0x0404 p)
      ((((entered 0x0404 p s).setF (TAP_T_OWNER__CTX (Pkt.tapEng p)) (Pkt.tapCtx p)).modTp (Pkt.tapEng p)
        (·.withTable (p.b 0 0 3) (halfWords bs))).refUse (p.ref 4)) ok) := by
  have tapHasKind : ¬ (p.b 0 0 3 < 3 ∧ 8 ≤ Pkt.tapEng p) := by omega
  have phasesSum : ¬ (3 ≤ p.b 0 0 3 ∧ phasesOk (halfWords bs) = false) := fun h =>
    hphases.elim h.1.not_gt (ne_true_of_eq_false h.2)
  refine congrArg Host.Outcome.next (runOp_some ha (State.refGuard_ok hr ?_))
  refine (if_neg hkind.not_gt).trans ((if_neg (ne_false_of_eq_true hown)).trans ((if_neg tapHasKind).trans
    ((if_neg (not_not.mpr hlen)).trans ((if_neg (ne_true_of_eq_false hbank)).trans ?_))))
  simp only [hb]
  exact if_neg phasesSum

/-! ### Enables (R164, R182) -/

section Enable
variable (ha : accepted 0x0405 p s = true)
include ha

theorem execTapEnable_enabled (hown : (entered 0x0405 p s).mayOwn (Pkt.tapCtx p) (Pkt.tapEng p) = true) :
    execTapEnable p s = .next (settled 0x0405 (s.pktHdr 0x0405 p)
      (((entered 0x0405 p s).setF (TAP_T_OWNER__CTX (Pkt.tapEng p)) (Pkt.tapCtx p)).modTp (Pkt.tapEng p)
        (fun q => { q with enable := true })) ok) :=
  congrArg Host.Outcome.next (runOp_some ha (if_neg (ne_false_of_eq_true hown)))

theorem execTapEnable_owned (hown : (entered 0x0405 p s).mayOwn (Pkt.tapCtx p) (Pkt.tapEng p) = false) :
    execTapEnable p s = .next (settled 0x0405 (s.pktHdr 0x0405 p) (entered 0x0405 p s) (refuse stNoResource 0x8005)) :=
  congrArg Host.Outcome.next (runOp_some ha (if_pos hown))

end Enable

/-- TAP_DISABLE is answered OK whoever owns the engine; only its owner disables it. -/
theorem execTapDisable_ok (ha : accepted 0x0406 p s = true) :
    execTapDisable p s = .next (settled 0x0406 (s.pktHdr 0x0406 p)
      (if (entered 0x0406 p s).f (TAP_T_OWNER__CTX (Pkt.tapEng p)) = Pkt.tapCtx p
        then (entered 0x0406 p s).modTp (Pkt.tapEng p) (fun q => { q with enable := false }) else entered 0x0406 p s) ok) :=
  congrArg Host.Outcome.next (runOp_some ha (apply_ite (·, some ok) _ _ _).symm)

/-! ### Holds (R177) -/

theorem execTapHoldSet_ready {tap : Fin 10} {v : W32} (hready : s.shut 0 = false) :
    execTapHoldSet tap v s = .next (if s.f (TAP_T_OWNER__CTX tap.val) = 7 then s.raise (TAP_T_STAT__CFG_ERR tap.val)
      else s.setF (TAP_T_HOLD__HOLD tap.val) (s.f (TAP_T_HOLD__HOLD tap.val) ||| v.toNat % 256)) :=
  congrArg Host.Outcome.next (if_neg (ne_true_of_eq_false hready))

end TapEngines

/-- Settles O26, one law per opcode and way it ends. -/
theorem colourAndTaps : Obligations.ColourAndTaps := by
  unfold Obligations.ColourAndTaps
  refine ⟨fun p s => execClrSetShading_enable, fun p bs s => execClrSetShading_loaded, fun p s => execClrSetShading_badLength,
    fun p u v w s ha heps hu hv hw => ?_, fun p s => execClrSetWbMatrix_noEps, fun p u v s ha hk hu hv => ?_,
    fun p s => execClrSetWorkspace_lumaAboveOne, fun p z s => execClrGetZonestats_written,
    fun p u v s ha hrange hmatrix hmin hmax hown hu hv => ?_, fun p s => execTapConfigure_owned,
    fun p bs s => execTapLoadLut_loaded, fun p s => execTapEnable_enabled, fun p s => execTapEnable_owned,
    fun p s => execTapDisable_ok, fun tap v s => execTapHoldSet_ready⟩
  · subst hw hv hu
    exact execClrSetWbMatrix_stored ha heps
  · subst hv hu
    exact execClrSetWorkspace_stored ha hk
  · subst hv hu
    exact execTapConfigure_stored ha hrange hmatrix hmin hmax hown

end Sys2Proof.Machine

/-! ## Takes, pins and the REC inputs (spec/09, R190, R196 to R202, R205, R418, R454) -/

namespace Sys2Proof.Machine
open Sys2Proof

variable {s : State}

section Takes
variable {p : Pkt} {i : Nat}

/-- An accepted packet of the fast path acts on the state that it finds. -/
theorem next_runOp_fast {op : Nat} {body : Body} {t : State} {o : Outc} (hfast : fastOp op = true)
    (ha : accepted op p s = true) (hb : body s = (t, some o)) :
    (.next (runOp op p s body) : Res) = .next (settled op (s.pktHdr op p) t o) :=
  congrArg Host.Outcome.next (runOp_some ha (by rw [entered_fast p s hfast]; exact hb))

/-! ### Opening a take (R198) -/

/-- What TAKE_OPEN asks each context to start from (Table 9-7). -/
def takeStartOf (p : Pkt) : TakeStart :=
  match p.b 0 8 2 with
  | 0 => .next
  | 1 => .fid [p.w 4, p.w 5, p.w 6, p.w 7]
  | 2 => .time (p.w 1) (p.w 2)
  | _ => .preroll [p.w 4, p.w 5, p.w 6, p.w 7]

/-- TAKE_OPEN names a context that does not capture. -/
def State.namesIdle (s : State) (p : Pkt) : Bool := (List.range 4).any (fun c => bitAt (p.b 0 0 4) c && !s.capturing c)

/-- The context entries of the take in slot `i`. -/
def State.takeCtxs (s : State) (i : Nat) : List TakeCtx :=
  match s.vlt.takes.toList.getD i none with
  | some t => t.ctx.toList
  | none => []

/-- The results of TAKE_OPEN: the take's number, its slot and its four first FIDs. -/
def State.takeOpenResults (s : State) (i : Nat) : List Nat :=
  [s.vlt.takeNo, i] ++ (List.range 4).map (fun c => ((s.takeCtxs i).getD c {}).first)

/-- The answer to TAKE_OPEN: where a context was adjusted, its word is named, or word 1 for a TIME start. -/
def takeOpenAnswer (p : Pkt) (res : List Nat) : Option Nat → Outc
  | none => ok res
  | some c => ⟨stAdj, if p.b 0 8 2 = 2 then 1 else 4 + c, res⟩

/-- The take that TAKE_OPEN opens in slot `i`, with the first context that it had to adjust. -/
def State.openTakeOf (s : State) (i : Nat) (p : Pkt) : State × Option Nat :=
  s.openTake i (p.b 0 0 4) (takeStartOf p) (p.t 0 12)

section Open
variable (ha : accepted 0x0501 p s = true)
include ha

theorem execTakeOpen_noContext (hm : p.b 0 0 4 = 0) :
    execTakeOpen p s = .next (settled 0x0501 (s.pktHdr 0x0501 p) s (badWord 0)) :=
  next_runOp_fast rfl ha (if_pos hm)

variable (hm : p.b 0 0 4 ≠ 0)
include hm

theorem execTakeOpen_notCapturing (hc : s.namesIdle p = true) :
    execTakeOpen p s = .next (settled 0x0501 (s.pktHdr 0x0501 p) s (refuse stState 0x8005)) :=
  next_runOp_fast rfl ha ((if_neg hm).trans (if_pos hc))

theorem execTakeOpen_opened (hc : s.namesIdle p = false) (hi : s.freeSlot (List.range 64) = some i) :
    execTakeOpen p s = .next (settled 0x0501 (s.pktHdr 0x0501 p) (s.openTakeOf i p).1.tallies
      (takeOpenAnswer p ((s.openTakeOf i p).1.tallies.takeOpenResults i) (s.openTakeOf i p).2)) := by
  refine next_runOp_fast rfl ha ((if_neg hm).trans ((if_neg (ne_true_of_eq_false hc)).trans ?_))
  simp only [hi]
  rfl

end Open

/-! ### Closing a take (R199) -/

section Close
variable (ha : accepted 0x0502 p s = true)
include ha

theorem execTakeClose_closed (hi : s.vaultUse.takeSlot (p.w 0) = some i) :
    execTakeClose p s = .next (settled 0x0502 (s.pktHdr 0x0502 p) (s.vaultUse.closeTake i).tallies
      (ok ((List.range 4).map (fun c => (((s.vaultUse.closeTake i).tallies.takeCtxs i).getD c {}).last)))) := by
  refine next_runOp_fast rfl ha ?_
  simp only [hi]
  rfl

theorem execTakeClose_unknown (hi : s.vaultUse.takeSlot (p.w 0) = none) :
    execTakeClose p s = .next (settled 0x0502 (s.pktHdr 0x0502 p) s.vaultUse (refuse stBadParam 0x8009)) := by
  refine next_runOp_fast rfl ha ?_
  simp only [hi]

end Close

/-! ### Pins (R196) -/

/-- The first FID that a pin of context `c` from `first` on can have: the oldest the vault holds, where that is later. -/
def State.pinFrom (s : State) (c first : Nat) : Nat :=
  if serialLt first ((s.oldestFid c).getD first) then (s.oldestFid c).getD first else first

/-- The lowest pin that is free. -/
def State.freePin (s : State) : Option Nat := (List.range 64).find? (fun i => (s.vlt.pins.toList.getD i none).isNone)

theorem execVltPin_pinned (ha : accepted 0x0503 p s = true) (hordered : serialLt (p.w 1) (p.w 0) = false)
    (hrange : serialAge (p.w 1) (p.w 0) < 0x100000) (hi : s.vaultUse.freePin = some i) :
    execVltPin p s = .next (settled 0x0503 (s.pktHdr 0x0503 p)
      (s.vaultUse.modVlt (fun q => { q with
        pins := q.pins.setIfInBounds i (some ⟨p.idx, s.vaultUse.pinFrom p.idx (p.w 0), p.w 1, p.t 2 0⟩) }))
      ⟨if s.vaultUse.pinFrom p.idx (p.w 0) = p.w 0 then stOk else stAdj, 0, [i, s.vaultUse.pinFrom p.idx (p.w 0)]⟩) := by
  have inRange : ¬ (serialLt (p.w 1) (p.w 0) = true ∨ 0x100000 ≤ serialAge (p.w 1) (p.w 0)) :=
    not_or.mpr ⟨ne_true_of_eq_false hordered, hrange.not_ge⟩
  unfold State.freePin at hi
  refine next_runOp_fast rfl ha ((if_neg inRange).trans ?_)
  simp only [hi]
  rfl

section Unpin
variable (ha : accepted 0x0504 p s = true)
include ha

theorem execVltUnpin_pin (ht : p.t 0 0 = false) (hpin : (s.vaultUse.vlt.pins.toList.getD (p.w 1) none).isSome = true) :
    execVltUnpin p s = .next (settled 0x0504 (s.pktHdr 0x0504 p)
      (s.vaultUse.modVlt (fun q => { q with pins := q.pins.setIfInBounds (p.w 1) none })) ok) :=
  next_runOp_fast rfl ha ((if_neg (ne_true_of_eq_false ht)).trans
    (if_neg (ne_true_of_eq_false (Option.isNone_eq_false_iff.mpr hpin))))

theorem execVltUnpin_take {t : Take} (ht : p.t 0 0 = true) (hi : s.vaultUse.takeSlot (p.w 1) = some i)
    (hk : s.vaultUse.vlt.takes.toList.getD i none = some t) (hclosed : t.closed = true) :
    execVltUnpin p s = .next (settled 0x0504 (s.pktHdr 0x0504 p)
      (s.vaultUse.modVlt (fun q => { q with takes := q.takes.setIfInBounds i none })) ok) := by
  refine next_runOp_fast rfl ha ((if_pos ht).trans ?_)
  simp only [hi, hk]
  exact if_pos hclosed

theorem execVltUnpin_unknownTake (ht : p.t 0 0 = true) (hi : s.vaultUse.takeSlot (p.w 1) = none) :
    execVltUnpin p s = .next (settled 0x0504 (s.pktHdr 0x0504 p) s.vaultUse (refuse stBadParam 0x8009)) := by
  refine next_runOp_fast rfl ha ((if_pos ht).trans ?_)
  simp only [hi]

end Unpin

/-! ### Queries of the index (R190, R196) -/

/-- The FID that VLT_QUERY_FRAME asks for: the one of word 0, the oldest or the newest of its context. -/
def State.queriedFid (s : State) (p : Pkt) : Option Nat :=
  match p.b 1 0 2 with
  | 0 => some (p.w 0)
  | 1 => s.oldestFid p.idx
  | 2 => some (s.rn (VLT_C_NEWEST_FID p.idx))
  | _ => none

theorem State.queriedFid_eq_some {f : Nat} (h : p.b 1 0 2 = 0 ∧ f = p.w 0 ∨ p.b 1 0 2 = 1 ∧ s.oldestFid p.idx = some f
      ∨ p.b 1 0 2 = 2 ∧ f = s.rn (VLT_C_NEWEST_FID p.idx)) : p.b 1 0 2 ≠ 3 ∧ s.queriedFid p = some f := by
  unfold queriedFid
  obtain ⟨hsel, hf⟩ | ⟨hsel, hf⟩ | ⟨hsel, hf⟩ := h <;> simp [hsel, hf]

/-- The lowest number of the takes that hold frame `f` of context `c`; 0 with none. -/
def State.lowestTake (s : State) (c f : Nat) : Nat :=
  match (s.takesUsed.filter (fun t => t.2.holds c f)).map (fun t => t.2.no) with
  | [] => 0
  | a :: t => t.foldl min a

/-- The results of VLT_QUERY_FRAME for frame `f` of context `c`. -/
def State.frameReport (s : State) (c f : Nat) : List Nat :=
  let e := s.idx c f
  [f, e.gen, e.vsa, e.sectors, b2n e.valid + 2 * b2n e.guest + 4 * b2n e.truncated + 8 * b2n e.processed
    + 16 * b2n (s.pinned c f), s.lowestTake c f]

section Query
variable {f : Nat} (ha : accepted 0x0505 p s = true) (hsel : p.b 1 0 2 ≠ 3) (hf : s.vaultUse.queriedFid p = some f)
include ha hsel hf

/-- The index entry of the frame asked for decides the answer. -/
theorem execVltQueryFrame_asked :
    execVltQueryFrame p s = .next (settled 0x0505 (s.pktHdr 0x0505 p) s.vaultUse
      (if (s.vaultUse.idx p.idx f).valid = false ∨ (s.vaultUse.idx p.idx f).fid ≠ f
        then refuse stState 0x8008 [(s.vaultUse.oldestFid p.idx).getD 0] else ok (s.vaultUse.frameReport p.idx f))) := by
  refine next_runOp_fast rfl ha ((if_neg hsel).trans ?_)
  change (match s.vaultUse.queriedFid p with | none => _ | some f => _) = _
  rw [hf]
  exact (apply_ite (fun o => (s.vaultUse, some o)) _ _ _).symm

theorem execVltQueryFrame_held (hv : (s.vaultUse.idx p.idx f).valid = true) (he : (s.vaultUse.idx p.idx f).fid = f) :
    execVltQueryFrame p s =
      .next (settled 0x0505 (s.pktHdr 0x0505 p) s.vaultUse (ok (s.vaultUse.frameReport p.idx f))) := by
  rw [execVltQueryFrame_asked ha hsel hf, if_neg (not_or.mpr ⟨ne_false_of_eq_true hv, not_not.mpr he⟩)]

theorem execVltQueryFrame_missing (h : (s.vaultUse.idx p.idx f).valid = false ∨ (s.vaultUse.idx p.idx f).fid ≠ f) :
    execVltQueryFrame p s = .next (settled 0x0505 (s.pktHdr 0x0505 p) s.vaultUse
      (refuse stState 0x8008 [(s.vaultUse.oldestFid p.idx).getD 0])) := by
  rw [execVltQueryFrame_asked ha hsel hf, if_pos h]

end Query

end Takes

/-- Settles O27, one law per opcode and way it ends. -/
theorem takes : Obligations.Takes := by
  unfold Obligations.Takes
  refine ⟨fun p i st r u es res s ha hm hc hi hst hr hu hes hres => ?_, fun p s => execTakeOpen_noContext,
    fun p s => execTakeOpen_notCapturing, fun p i u es s ha hi hu hes => ?_, fun p s => execTakeClose_unknown,
    fun p u i got s ha hordered hrange hu hi hgot => ?_, fun p s => execVltUnpin_pin, fun p i t s ha => execVltUnpin_take ha,
    fun p s => execVltUnpin_unknownTake, fun p u f e no s ha hu hf he hv hfid hno => ?_, fun p u s ha hsel hu h => ?_⟩
  · subst hres hes hu hr hst
    exact execTakeOpen_opened ha hm hc hi
  · subst hes hu
    exact execTakeClose_closed ha hi
  · subst hgot hu
    exact execVltPin_pinned ha hordered hrange hi
  · subst hno he hu
    obtain ⟨hsel, hq⟩ := State.queriedFid_eq_some hf
    exact execVltQueryFrame_held ha hsel hq hv hfid
  · subst hu
    obtain ⟨hsel, hq⟩ := State.queriedFid_eq_some (s := s.vaultUse) (.inl ⟨hsel, rfl⟩)
    exact execVltQueryFrame_missing ha hsel hq h

section RecInputs

/-! ### The REC function's settings (R201, R205, R454) -/

/-- The settings that REC_CONFIG brings. -/
def recCfgOf (p : Pkt) : RecCfg :=
  { en := p.t 0 16, hold := p.t 0 4, debounceMs := p.b 0 8 6, ctxs := p.b 0 0 4,
    preroll := [p.b 1 0 16, p.b 2 0 16, p.b 3 0 16, p.b 4 0 16], ub := [p.b 5 0 4, p.b 5 4 4],
    tally := [p.b 6 0 4, p.b 6 4 4] }

/-- The REC settings are `r`: they count as a commit, and the tallies follow. -/
def State.recConfigured (s : State) (r : RecCfg) : State := ((s.modVlt (fun q => { q with recCfg := r })).commitSince s).tallies

theorem execRecConfig_stored {p : Pkt} (ha : accepted 0x050A p s = true) (hms : 1 ≤ p.b 0 8 6) (hms' : p.b 0 8 6 ≤ 50)
    (hub0 : p.b 5 0 4 ≤ 2) (hub1 : p.b 5 4 4 ≤ 2) (htally0 : p.b 6 0 4 ≤ 4) (htally1 : p.b 6 4 4 ≤ 4) :
    execRecConfig p s =
      .next (settled 0x050A (s.pktHdr 0x050A p) ((entered 0x050A p s).recConfigured (recCfgOf p)) ok) := by
  have timeOk : ¬ (p.b 0 8 6 < 1 ∨ 50 < p.b 0 8 6) := not_or.mpr ⟨hms.not_gt, hms'.not_gt⟩
  have functionsOk : ¬ (2 < p.b 5 0 4 ∨ 2 < p.b 5 4 4) := not_or.mpr ⟨hub0.not_gt, hub1.not_gt⟩
  have sourcesOk : ¬ (4 < p.b 6 0 4 ∨ 4 < p.b 6 4 4) := not_or.mpr ⟨htally0.not_gt, htally1.not_gt⟩
  exact congrArg Host.Outcome.next (runOp_some ha
    ((if_neg timeOk).trans ((if_neg functionsOk).trans (if_neg sourcesOk))))

/-! ### Presses, releases and marks (R201, R418) -/

/-- A press that acts: it opens a REC take when none is open, and closes the open one unless HOLD is set. -/
def State.recPressed (s : State) : State :=
  match s.recTake with
  | none => s.recOpenTake
  | some (i, _) => if s.vlt.recCfg.hold then s else s.recCloseTake i

theorem execRecPress_acts {src : Fin 3} (hsafe : s.dev.safe = false) (hen : (s.setLevel src.val true).vlt.recCfg.en = true)
    (hin : (s.setLevel src.val true).recInput src.val = true) :
    execRecPress src s = .next (s.setLevel src.val true).recPressed := by
  refine (if_neg (ne_true_of_eq_false hsafe)).trans ((if_neg ?_).trans ?_)
  · exact not_or.mpr ⟨ne_false_of_eq_true hen, ne_false_of_eq_true hin⟩
  · unfold State.recPressed
    cases (s.setLevel src.val true).recTake <;> rfl

theorem execRecRelease_closes {src : Fin 3} {i : Nat} {k : Take} (hsafe : s.dev.safe = false)
    (hen : (s.setLevel src.val false).vlt.recCfg.en = true) (hin : (s.setLevel src.val false).recInput src.val = true)
    (hhold : (s.setLevel src.val false).vlt.recCfg.hold = true) (htake : (s.setLevel src.val false).recTake = some (i, k)) :
    execRecRelease src s = .next ((s.setLevel src.val false).recCloseTake i) := by
  refine (if_neg (ne_true_of_eq_false hsafe)).trans ((if_neg ?_).trans ?_)
  · exact not_or.mpr ⟨ne_false_of_eq_true hen, not_or.mpr ⟨ne_false_of_eq_true hin, ne_false_of_eq_true hhold⟩⟩
  · simp only [htake]

/-- The marks of an input with the mark function: one for each context of REC_CTX, with its newest FID and VLT_REC_TAKE. -/
def State.recMarked (s : State) : State :=
  s.logMany .vlt (((List.range 4).filter (fun c => bitAt s.vlt.recCfg.ctxs c)).map (fun c =>
    (evRecMark, ctxTarget c, s.rn (VLT_C_NEWEST_FID c), s.rn VLT_REC_TAKE)))

theorem execUbMark_marks {ub : Fin 2} (hsafe : s.dev.safe = false)
    (hub : (s.setLevel (ub.val + 1) true).vlt.recCfg.ub.getD ub.val 0 = 2) :
    execUbMark ub s = .next (s.setLevel (ub.val + 1) true).recMarked :=
  (if_neg (ne_true_of_eq_false hsafe)).trans (if_neg (not_not.mpr hub))

section Safe
variable (hsafe : s.dev.safe = true)
include hsafe

theorem execRecPress_safe (src : Fin 3) : execRecPress src s = .next s := if_pos hsafe

theorem execRecRelease_safe (src : Fin 3) : execRecRelease src s = .next s := if_pos hsafe

theorem execUbMark_safe (ub : Fin 2) : execUbMark ub s = .next s := if_pos hsafe

end Safe

end RecInputs

/-- Settles O28, one law per input and way it acts. -/
theorem recInputs : Obligations.RecInputs := by
  unfold Obligations.RecInputs
  refine ⟨fun p r s ha hms hms' hub0 hub1 htally0 htally1 hr => ?_, fun src u s hsafe hu hen hin => ?_,
    fun src i k u s hsafe hu hen hin hhold htake => ?_, fun ub u s hsafe hu hub => ?_,
    fun src ub s hsafe => ⟨execRecPress_safe hsafe src, execRecRelease_safe hsafe src, execUbMark_safe hsafe ub⟩,
    fun s => rfl⟩
  · subst hr
    exact execRecConfig_stored ha hms hms' hub0 hub1 htally0 htally1
  · subst hu
    exact execRecPress_acts hsafe hen hin
  · subst hu
    exact execRecRelease_closes hsafe hen hin hhold htake
  · subst hu
    exact execUbMark_marks hsafe hub

end Sys2Proof.Machine

/-! ## Vault queue pairs: fetch, transfers and time limits, set-up and doorbells (spec/11, R223 to R245) -/

namespace Sys2Proof.Machine
open Sys2Proof

variable {s : State}

section VaultFetch
variable {n opc : Nat} {slot : VqSlot} {bs : List Byte} {a : AbortAt}

/-! ### Fetching a slot (R224 to R228, R242) -/

/-- The number of the doorbell that brought the slot at the head of pair `n`. -/
def State.vqHeadDb (s : State) (n : Nat) : Nat :=
  match (s.vp n).dbs.head? with
  | some d => d.2
  | none => s.vq.db

/-- The command that a fetch by pair `n` makes of the slot bytes `bs`. -/
def State.vqHeld (s : State) (n : Nat) (bs : List Byte) (tagged : Bool) : VqCmd :=
  { bytes := padBytes 64 bs, slot := s.f (VQ_SQ_HEAD__HEAD n) % (s.vqHeadNext n).vqN n,
    sqHead := (s.f (VQ_SQ_HEAD__HEAD n) + 1) % (2 * (s.vqHeadNext n).vqN n), seq := (s.vqHeadNext n).vq.seq,
    db := s.vqHeadDb n, tagged := tagged }

/-- What the checks say of that command. -/
def State.vqVerdict (s : State) (n : Nat) (bs : List Byte) : Option (Nat × Nat) :=
  (s.vqHeadNext n).vqCheck n (s.vqHeld n bs false)

/-- The head of pair `n` is past the slot, its command `c` is numbered and outstanding, and the pair was served. -/
def State.vqFetched (s : State) (n : Nat) (c : VqCmd) : State :=
  ((s.vqHeadNext n).modVq (fun q => { q with seq := q.seq + 1, last := n })).modVp n (fun q => { q with cmds := q.cmds ++ [c] })

/-- A command with this verdict holds its tag. -/
def vqHoldsTag (v : Option (Nat × Nat)) : Bool :=
  match v with
  | some x => x.1 != vqBadTag && x.1 != vqDupTag && x.1 != vqSafe
  | none => true

/-- The command of the slot ends as its verdict says, with COUNT 0; or it has started if it may. -/
def State.vqTaken (s : State) (n : Nat) (bs : List Byte) (a : AbortAt) : State :=
  let c := s.vqHeld n bs (vqHoldsTag (s.vqVerdict n bs))
  match s.vqVerdict n bs with
  | some x => ((s.vqFetched n c).vqFinish n c.seq x.1 0 x.2).vqSettle
  | none => ((s.vqFetched n c).vqAdmit.vqTry n c a).vqSettle.vqAdmit

/-- The row of `opc` is the one for a slot with bytes `bs`: it names that opcode, or none of Table 11-2. -/
def vqRowTakes (opc : Nat) (bs : List Byte) : Prop :=
  ((padBytes 64 bs).getD 0 0).toNat = opc ∨ [0, 1, 2, 3, 4, 8, 9].contains ((padBytes 64 bs).getD 0 0).toNat = false

theorem State.vqFetch_unserved (h : s.vqCanFetch n = false ∨ s.vqPassed n = true) : s.vqFetch n opc slot a = s := if_pos h

section Served
variable (hcan : s.vqCanFetch n = true) (hturn : s.vqPassed n = false)
include hcan hturn

theorem State.vqServed : ¬ (s.vqCanFetch n = false ∨ s.vqPassed n = true) :=
  not_or.mpr ⟨ne_false_of_eq_true hcan, ne_true_of_eq_false hturn⟩

theorem State.vqFetch_failed {addr : Nat} {poisoned : Bool} (hread : s.vqRead n slot = .failed addr poisoned) :
    s.vqFetch n opc slot a =
      ((s.modVq (fun q => { q with last := n })).raise (VQ_Q_STAT__FETCH_ERR n)).dmaError .vq n addr poisoned := by
  unfold State.vqFetch
  rw [if_neg (State.vqServed hcan hturn), hread]

theorem State.vqFetch_taken (hread : s.vqRead n slot = .entry bs) (hrow : vqRowTakes opc bs) :
    s.vqFetch n opc slot a = s.vqTaken n bs a := by
  have mine : ¬ (((padBytes 64 bs).getD 0 0).toNat ≠ opc ∧
      [0, 1, 2, 3, 4, 8, 9].contains ((padBytes 64 bs).getD 0 0).toNat = true) := fun h =>
    hrow.elim h.1 (ne_false_of_eq_true h.2)
  unfold State.vqFetch
  rw [if_neg (State.vqServed hcan hturn), hread]
  exact if_neg mine

end Served

/-- A fetch that ends alike whatever opcode its row names, in each of the seven rows. -/
theorem exec_vqRows {pair : Fin 16} {target : AbortAt} {t : State} (h : ∀ opc a, s.vqFetch pair opc slot a = t) :
    exec (.vqNop pair slot) s = .next t ∧ exec (.vqRead pair slot) s = .next t ∧ exec (.vqWrite pair slot) s = .next t ∧
      exec (.vqCopy pair slot) s = .next t ∧ exec (.vqReadFrame pair slot) s = .next t ∧
      exec (.vqFlush pair slot) s = .next t ∧ exec (.vqAbort pair slot target) s = .next t :=
  ⟨congrArg Host.Outcome.next (h 0 {}), congrArg Host.Outcome.next (h 1 {}), congrArg Host.Outcome.next (h 2 {}),
    congrArg Host.Outcome.next (h 3 {}), congrArg Host.Outcome.next (h 4 {}), congrArg Host.Outcome.next (h 8 {}),
    congrArg Host.Outcome.next (h 9 target)⟩

/-- The row of the opcode in the slot, its command past the checks. -/
theorem vqRow_passed {c : VqCmd} {u : State} (hcan : s.vqCanFetch n = true) (hturn : s.vqPassed n = false)
    (hread : s.vqRead n slot = .entry bs) (hop : ((padBytes 64 bs).getD 0 0).toNat = opc) (hc : c = s.vqHeld n bs true)
    (hv : (s.vqHeadNext n).vqCheck n { c with tagged := false } = none) (hu : u = s.vqFetched n c) :
    (.next (s.vqFetch n opc slot a) : Res) = .next (u.vqAdmit.vqTry n c a).vqSettle.vqAdmit := by
  subst hu hc
  rw [State.vqFetch_taken hcan hturn hread (.inl hop), State.vqTaken, show s.vqVerdict n bs = none from hv]
  rfl

/-- A slot with an opcode that Table 11-2 does not name, refused for that. -/
theorem State.vqFetch_unknown {c : VqCmd} {u : State} (hcan : s.vqCanFetch n = true) (hturn : s.vqPassed n = false)
    (hread : s.vqRead n slot = .entry bs) (hop : [0, 1, 2, 3, 4, 8, 9].contains ((padBytes 64 bs).getD 0 0).toNat = false)
    (hc : c = s.vqHeld n bs true)
    (hv : (s.vqHeadNext n).vqCheck n { c with tagged := false } = some (vqInvalidOpcode, 0)) (hu : u = s.vqFetched n c) :
    s.vqFetch n opc slot a = (u.vqFinish n c.seq vqInvalidOpcode 0 0).vqSettle := by
  subst hu hc
  rw [State.vqFetch_taken hcan hturn hread (.inr hop), State.vqTaken,
    show s.vqVerdict n bs = some (vqInvalidOpcode, 0) from hv]
  rfl

end VaultFetch

/-- Settles O29: a fetch that passes its checks, row by row, and the three that end alike in every row. -/
theorem vaultFetch : Obligations.VaultFetch := by
  unfold Obligations.VaultFetch
  exact ⟨fun pair slot bs c u s => vqRow_passed, fun pair slot bs c u s => vqRow_passed, fun pair slot bs c u s => vqRow_passed,
    fun pair slot bs c u s => vqRow_passed, fun pair slot bs c u s => vqRow_passed, fun pair slot bs c u s => vqRow_passed,
    fun pair slot bs target c u s => vqRow_passed,
    fun pair slot bs target c u s hcan hturn hread hop hc hv hu =>
      exec_vqRows fun opc a => State.vqFetch_unknown hcan hturn hread hop hc hv hu,
    fun pair slot addr poisoned target s hcan hturn hread => exec_vqRows fun opc a => State.vqFetch_failed hcan hturn hread,
    fun pair slot target s h => exec_vqRows fun opc a => State.vqFetch_unserved h⟩

section VaultTransfers
variable {pair : Fin 16} {tag : BitVec 13} {data : HostRead} {moved : Nat} {c : VqCmd} {bs : List Byte}

/-! ### The working region around a written run (R453) -/

theorem runAt_outside {a x : Nat} (h : x < a ∨ a + bs.length ≤ x) : runAt bs a x = none := by
  unfold runAt
  split
  · exact List.getElem?_eq_none (by omega)
  · rfl

theorem State.memB_writeMem_outside (hrise : storeRising s.mem = true) {a x : Nat} (hx : x < a ∨ a + bs.length ≤ x) :
    (s.writeMem a bs).memB x = s.memB x := by
  rw [State.memB_writeMem s a x bs hrise, runAt_outside hx]
  rfl

/-! ### A transfer that ends (R228 to R230, R234) -/

/-- The state once all sectors of `c` have moved and it has finished. -/
def State.vqMoved (s : State) (n : Nat) (c : VqCmd) (data : HostRead) : State :=
  (s.vqMove c c.total data).vqFinish n c.seq (if c.cut then vqNotLanded else vqSuccess) c.total (if c.opc = 4 then c.gen else 0)

theorem execVqTransferDone_none (hrun : s.vqRunning pair tag.toNat = none) : execVqTransferDone pair tag data moved s = .next s := by
  simp only [execVqTransferDone, hrun]

section Running
variable (hrun : s.vqRunning pair tag.toNat = some c)
include hrun

theorem execVqTransferDone_moved (hdata : c.opc = 2 → ∃ bs, data = .bytes bs) (hgen : c.opc = 4 → s.genStands c = true)
    (hsound : c.opc ≠ 2 → c.source.length ≤ s.soundSectors c.source) :
    execVqTransferDone pair tag data moved s = .next ((s.vqMoved pair c data).vqSettle.vqAdmit) := by
  have stands : ¬ (c.opc = 4 ∧ s.genStands c = false) := fun h => ne_true_of_eq_false h.2 (hgen h.1)
  have sound : ¬ (c.opc ≠ 2 ∧ s.soundSectors c.source < c.source.length) := fun h => h.2.not_ge (hsound h.1)
  simp only [execVqTransferDone, hrun]
  split
  · next hop =>
    obtain ⟨bs, he⟩ := hdata hop
    cases he
  · rw [if_neg stands, if_neg sound]
    rfl

theorem execVqTransferDone_written (hop : c.opc = 2) :
    execVqTransferDone pair tag (.bytes bs) moved s = .next ((s.vqMoved pair c (.bytes bs)).vqSettle.vqAdmit) :=
  execVqTransferDone_moved hrun (fun _ => ⟨bs, rfl⟩) (fun h => absurd (hop.symm.trans h) (by decide)) (absurd hop)

theorem execVqTransferDone_unread {addr : Nat} {poisoned : Bool} (hop : c.opc = 2) :
    execVqTransferDone pair tag (.failed addr poisoned) moved s =
      .next (((s.dmaError .vq pair addr poisoned).vqFinish pair c.seq vqDmaError 0 0).vqSettle.vqAdmit) := by
  simp only [execVqTransferDone, hrun, hop]

end Running

/-! ### What a WRITE leaves as it was (R228) -/

theorem State.vqMove_write (k : Nat) (hop : c.opc = 2) :
    s.vqMove c k (.bytes bs) = s.writeMem (4096 * c.vsa) (padBytes (4096 * k) bs) := by
  simp only [State.vqMove, hop]

/-- Finishing a command, posting and admission leave the working region as the move left it. -/
theorem State.vqMoved_mem (n : Nat) : (s.vqMoved n c data).vqSettle.vqAdmit.mem = (s.vqMove c c.total data).mem := by
  have kept : Kept true (s.vqMove c c.total data) (s.vqMoved n c data) := State.vqFinish_kept _ _ _ _ _ (Kept.refl _ _)
  obtain ⟨k⟩ := State.vqAdmit_kept (State.vqSettle_kept kept)
  exact k.same rfl

theorem State.memB_vqMoved_outside (n : Nat) (hop : c.opc = 2) (hrise : storeRising s.mem = true) {a : Nat}
    (ha : a < 4096 * c.vsa ∨ 4096 * c.vsa + 4096 * c.nsect ≤ a) :
    (s.vqMoved n c (.bytes bs)).vqSettle.vqAdmit.memB a = s.memB a := by
  have total : c.total = c.nsect := if_pos hop
  rw [State.memB_congr (State.vqMoved_mem n), State.vqMove_write _ hop, total]
  exact State.memB_writeMem_outside hrise (by rwa [padBytes_length])

/-! ### Starts and time limits (R225, R235, R236) -/

theorem execVqCmdStart_oldest {target : AbortAt} (h : (s.vp pair).cmds.find? (fun c => !c.started && c.fin.isNone) = some c) :
    execVqCmdStart pair target s = .next ((s.vqTry pair c target).vqSettle.vqAdmit) := by
  simp only [execVqCmdStart, h]

theorem execVqTmoExpiry_started
    (h : (s.vp pair).cmds.find? (fun c => c.tagged && c.tag == tag.toNat && c.started && c.fin.isNone && !s.cqFull pair) = some c) :
    execVqTmoExpiry pair tag moved data s = .next ((s.vqEnd pair c vqTimeout moved data).vqSettle.vqAdmit) := by
  simp only [execVqTmoExpiry, h]

theorem execVqDeferExpiry_waiting (hms : s.f VQ_CTRL__DEFER_MS ≠ 0)
    (h : (s.vp pair).cmds.find? (fun c => c.tagged && c.tag == tag.toNat && c.queued && !c.started && c.fin.isNone) = some c)
    (hadm : s.isAdmitted (.vq pair c.tag) = false) :
    execVqDeferExpiry pair tag s = .next (((s.deferB (.vq pair c.tag)).vqFinish pair c.seq vqThermal 0 0).vqSettle.vqAdmit) := by
  refine (if_neg hms).trans ?_
  simp only [h]
  exact if_neg (ne_true_of_eq_false hadm)

end VaultTransfers

/-- Settles O30: each way a transfer ends, the frame of a WRITE by the region around a written run, then starts and limits. -/
theorem vaultTransfers : Obligations.VaultTransfers := by
  unfold Obligations.VaultTransfers
  refine ⟨fun pair tag data moved c s => execVqTransferDone_moved, fun pair tag bs moved a c s t hrun hop hi e ha => ?_,
    fun pair tag addr poisoned moved c s hrun => execVqTransferDone_unread hrun, fun pair tag data moved s => execVqTransferDone_none,
    fun pair target c s => execVqCmdStart_oldest, fun pair tag moved data c s => execVqTmoExpiry_started,
    fun pair tag c s => execVqDeferExpiry_waiting, fun pair s => rfl⟩
  rw [exec_vqTransferDone, execVqTransferDone_written hrun hop] at e
  cases e
  exact State.memB_vqMoved_outside pair hop hi.memRising ha

section VaultQueues
variable {p : Pkt}

/-! ### Setting a pair up (R223, R245) -/

/-- The tags from `lo` on, `cnt` of them, overlap those of a pair in use. -/
def State.vqTagsClash (s : State) (lo cnt : Nat) : Bool :=
  (List.range 16).any (fun m => s.vqOn m && decide (s.f (VQ_Q_TAGS__TAG_BASE m) < lo + cnt)
    && decide (lo < s.f (VQ_Q_TAGS__TAG_BASE m) + s.f (VQ_Q_TAGS__TAG_COUNT m)))

/-- Pair `n` with the registers that VQ_CREATE_QUEUE brings, empty and enabled. -/
def State.vqCreated (s : State) (n : Nat) (p : Pkt) : State :=
  let u := (((s.wn (VQ_SQ_BASE_LO n) (p.w 4)).wn (VQ_SQ_BASE_HI n) (p.w 5)).wn (VQ_CQ_BASE_LO n) (p.w 6)).wn (VQ_CQ_BASE_HI n) (p.w 7)
  let v := (u.wn (VQ_SQ_CFG n) (p.b 0 0 4 + 32 * b2n (p.t 0 4) + 64 * b2n (p.t 0 5) + 128)).wn (VQ_Q_TAGS n)
    (p.b 1 0 13 + 0x10000 * p.b 2 0 14)
  let w := ((v.wn (VQ_SQ_HEAD n) 0).wn (VQ_CQ_HEAD n) 0).wn (VQ_CQ_TAIL n) 0
  (w.setBit VQ_IRQ__EN n (p.t 0 8)).modVp n (fun _ => {})

theorem execVqCreateQueue_created (ha : accepted 0x0506 p s = true) (hoff : (entered 0x0506 p s).vqOn p.idx = false)
    (hlog : 4 ≤ p.b 0 0 4) (hlog' : p.b 0 0 4 ≤ 12) (hsq : p.q 4 % 4096 = 0) (hcq : p.q 6 % 4096 = 0)
    (hcnt : 64 ≤ p.b 2 0 14) (hwhole : p.b 2 0 14 % 64 = 0) (hlast : p.b 1 0 13 + p.b 2 0 14 ≤ 8192)
    (hclash : (entered 0x0506 p s).vqTagsClash (p.b 1 0 13) (p.b 2 0 14) = false)
    (hfits : (bar2Fits (p.t 0 4) (p.q 4) (64 * 2 ^ p.b 0 0 4) && bar2Fits (p.t 0 5) (p.q 6) (16 * 2 ^ p.b 0 0 4)) = true) :
    execVqCreateQueue p s =
      .next (settled 0x0506 (s.pktHdr 0x0506 p) ((entered 0x0506 p s).vqCreated p.idx p) ok) := by
  have tagsOk : ¬ (p.b 2 0 14 < 64 ∨ p.b 2 0 14 % 64 ≠ 0 ∨ 8192 < p.b 1 0 13 + p.b 2 0 14
      ∨ (entered 0x0506 p s).vqTagsClash (p.b 1 0 13) (p.b 2 0 14) = true) := by
    simp [hcnt, hwhole, hlast, hclash]
  refine congrArg Host.Outcome.next (runOp_some ha ?_)
  exact (if_neg (ne_true_of_eq_false hoff)).trans ((if_neg (not_or.mpr ⟨hlog.not_gt, hlog'.not_gt⟩)).trans
    ((if_neg (not_not.mpr hsq)).trans ((if_neg (not_not.mpr hcq)).trans ((if_neg tagsOk).trans
      (if_neg (ne_false_of_eq_true hfits))))))

/-! ### Deleting and resetting a pair (R239, R245) -/

theorem execVqDeleteQueue_freed (ha : accepted 0x0507 p s = true) (hon : (entered 0x0507 p s).vqOn p.idx = true)
    (hout : (entered 0x0507 p s).vqOut p.idx = 0) :
    execVqDeleteQueue p s = .next (settled 0x0507 (s.pktHdr 0x0507 p) ((entered 0x0507 p s).vqFree p.idx) ok) :=
  congrArg Host.Outcome.next (runOp_some ha ((if_neg (ne_false_of_eq_true hon)).trans (if_neg (not_not.mpr hout))))

theorem execVqDeleteQueue_off (ha : accepted 0x0507 p s = true) (hoff : (entered 0x0507 p s).vqOn p.idx = false) :
    execVqDeleteQueue p s =
      .next (settled 0x0507 (s.pktHdr 0x0507 p) (entered 0x0507 p s) (refuse stState 0x8024)) :=
  congrArg Host.Outcome.next (runOp_some ha (if_pos hoff))

section Reset
variable (ha : accepted 0x0508 p s = true)
include ha

/-- Pair `n` notes the packet that resets it and how many commands that ends. -/
def State.vqResetting (s : State) (n : Nat) (h : Hdr) : State :=
  s.modVp n (fun q => { q with resetting := some (h, s.vqOut n) })

theorem execVqResetQueue_read {bs : List Byte} {u : State} (hon : (entered 0x0508 p s).vqOn p.idx = true)
    (hbuf : p.buf = .bytes bs) (hu : u = (entered 0x0508 p s).vqResetting p.idx (s.pktHdr 0x0508 p)) :
    execVqResetQueue p s = .next ((u.vqEndAll p.idx (some bs)).vqRoom p.idx) := by
  subst hu
  refine congrArg Host.Outcome.next (runOp_none ha ((if_neg (ne_false_of_eq_true hon)).trans ?_))
  simp only [hbuf]
  rfl

theorem execVqResetQueue_unread {addr : Nat} {poisoned : Bool} {u : State} (hon : (entered 0x0508 p s).vqOn p.idx = true)
    (hbuf : p.buf = .failed addr poisoned) (hu : u = (entered 0x0508 p s).vqResetting p.idx (s.pktHdr 0x0508 p)) :
    execVqResetQueue p s = .next (((if (!u.on (VQ_SQ_CFG__SQLOC p.idx) && !(u.vqSlots p.idx).isEmpty) = true
      then u.dmaError .vq p.idx addr poisoned else u).vqEndAll p.idx none).vqRoom p.idx) := by
  subst hu
  refine congrArg Host.Outcome.next (runOp_none ha ((if_neg (ne_false_of_eq_true hon)).trans ?_))
  simp only [hbuf]
  rfl

theorem execVqResetQueue_off (hoff : (entered 0x0508 p s).vqOn p.idx = false) :
    execVqResetQueue p s =
      .next (settled 0x0508 (s.pktHdr 0x0508 p) (entered 0x0508 p s) (refuse stState 0x8024)) :=
  congrArg Host.Outcome.next (runOp_some ha (if_pos hoff))

end Reset

/-! ### Doorbells and full completion queues (R225, R231) -/

section Doorbells
variable {pair : Fin 16} {v : W32}

/-- How far past the index `h` a value written to a doorbell of pair `n` points. -/
def State.vqAheadOf (s : State) (n h : Nat) (v : W32) : Nat := (v.toNat % 0x2000 + 2 * s.vqN n - h % (2 * s.vqN n)) % (2 * s.vqN n)

section InUse
variable (hon : s.vqOn pair = true)
include hon

section NotResetting
variable (hreset : (s.vp pair).resetting = none)
include hreset

theorem State.vqTakesDoorbell : ¬ (s.vqOn pair = false ∨ (s.vp pair).resetting.isSome = true) :=
  not_or.mpr ⟨ne_false_of_eq_true hon, by simp [hreset]⟩

theorem execVqSqDb_inRange {u : State} (hlt : v.toNat % 0x2000 < 2 * s.vqN pair)
    (hmost : s.vqAheadOf pair (s.f (VQ_SQ_HEAD__HEAD pair)) v ≤ s.vqN pair)
    (hleast : s.vqUnfetched pair ≤ s.vqAheadOf pair (s.f (VQ_SQ_HEAD__HEAD pair)) v)
    (hu : u = s.modVq (fun q => { q with db := q.db + 1 })) :
    execVqSqDb pair v s = .next (if s.vqAheadOf pair (s.f (VQ_SQ_HEAD__HEAD pair)) v = s.vqUnfetched pair then u
      else u.modVp pair (fun q => { q with tail := v.toNat % 0x2000, dbs := q.dbs ++ [(v.toNat % 0x2000, u.vq.db)] })) := by
  subst hu
  exact (if_neg (State.vqTakesDoorbell hon hreset)).trans
    (if_neg (not_or.mpr ⟨hlt.not_ge, not_or.mpr ⟨hmost.not_gt, hleast.not_gt⟩⟩))

theorem execVqSqDb_outOfRange (h : 2 * s.vqN pair ≤ v.toNat % 0x2000
      ∨ s.vqN pair < s.vqAheadOf pair (s.f (VQ_SQ_HEAD__HEAD pair)) v
      ∨ s.vqAheadOf pair (s.f (VQ_SQ_HEAD__HEAD pair)) v < s.vqUnfetched pair) :
    execVqSqDb pair v s = .next (s.raise (VQ_Q_STAT__DB_RANGE pair)) :=
  (if_neg (State.vqTakesDoorbell hon hreset)).trans (if_pos h)

end NotResetting

theorem execVqCqHead_inRange (hlt : v.toNat % 0x2000 < 2 * s.vqN pair)
    (hused : s.vqAheadOf pair (s.f (VQ_CQ_HEAD__HEAD pair)) v ≤ s.cqUsed pair) :
    execVqCqHead pair v s = .next ((s.setF (VQ_CQ_HEAD__HEAD pair) (v.toNat % 0x2000)).vqRoom pair) :=
  (if_neg (ne_false_of_eq_true hon)).trans (if_neg (not_or.mpr ⟨hlt.not_ge, hused.not_gt⟩))

theorem execVqCqHead_outOfRange (h : 2 * s.vqN pair ≤ v.toNat % 0x2000
      ∨ s.cqUsed pair < s.vqAheadOf pair (s.f (VQ_CQ_HEAD__HEAD pair)) v) :
    execVqCqHead pair v s = .next (s.raise (VQ_Q_STAT__DB_RANGE pair)) :=
  (if_neg (ne_false_of_eq_true hon)).trans (if_pos h)

end InUse

theorem execVqSqDb_off (hoff : s.vqOn pair = false) : execVqSqDb pair v s = .next s := if_pos (.inl hoff)

theorem execVqCqHead_off (hoff : s.vqOn pair = false) : execVqCqHead pair v s = .next s := if_pos hoff

end Doorbells

/-! ### The vault power state (R192, R244, R245) -/

/-- The frames that entering vault power state `v` reclaims: in 3 those that nothing pins. -/
def State.vpReclaims (s : State) (v : Nat) : List Rec :=
  if v = 3 then s.vlt.recs.filter (fun r => !r.reclaimed && !s.pinned r.ctx r.fid) else []

/-- A context is started or a command outstanding. -/
def State.vaultInUse (s : State) : Bool :=
  (List.range 6).any (fun c => decide (2 ≤ s.cst c)) || (List.range 16).any (fun n => s.vqOut n != 0)

theorem execVltSetVpstate_set (ha : accepted 0x0509 p s = true) (hv : p.b 0 0 2 = 0 ∨ p.b 0 0 2 = 3) (hauto : p.b 1 0 2 ≠ 3)
    (hidle : p.b 0 0 2 = 3 → (entered 0x0509 p s).vaultInUse = false) :
    execVltSetVpstate p s = .next (settled 0x0509 (s.pktHdr 0x0509 p)
      (((((entered 0x0509 p s).vpReclaims (p.b 0 0 2)).foldl State.reclaim (entered 0x0509 p s)).setF VQ_VPSTATE__VP
        (p.b 0 0 2)).setF VQ_VPSTATE__AUTO_MAX (p.b 1 0 2))
      (ok [p.b 0 0 2, ((entered 0x0509 p s).vpReclaims (p.b 0 0 2)).length])) := by
  have stateOk : ¬ (p.b 0 0 2 = 1 ∨ p.b 0 0 2 = 2) := by omega
  have unused : ¬ (p.b 0 0 2 = 3 ∧ (entered 0x0509 p s).vaultInUse = true) := fun h => ne_true_of_eq_false (hidle h.1) h.2
  exact congrArg Host.Outcome.next (runOp_some ha ((if_neg stateOk).trans ((if_neg hauto).trans (if_neg unused))))

end VaultQueues

/-- Settles O31, one law per opcode or doorbell and way it ends. -/
theorem vaultQueues : Obligations.VaultQueues := by
  unfold Obligations.VaultQueues
  refine ⟨fun p u v w s ha hoff hlog hlog' hsq hcq hcnt hwhole hlast hclash hfits hu hv hw => ?_,
    fun p s => execVqDeleteQueue_freed, fun p s => execVqDeleteQueue_off, fun p bs u s ha => execVqResetQueue_read ha,
    fun p addr poisoned u v s ha hon hbuf hu hv => ?_, fun p s => execVqResetQueue_off,
    fun pair v m ahead u s hon hreset hm hlt hahead hmost hleast hu => ?_,
    fun pair v m ahead s hon hreset hm hahead h => ?_, fun pair v m s hon hm hlt hused => ?_, fun pair v m s hon hm h => ?_,
    fun pair v s hoff => ⟨execVqSqDb_off hoff, execVqCqHead_off hoff⟩, fun pair s => rfl,
    fun p gone s ha hv hauto hidle hgone => ?_⟩
  · subst hw hv hu
    exact execVqCreateQueue_created ha hoff hlog hlog' hsq hcq hcnt hwhole hlast hclash hfits
  · subst hv
    exact execVqResetQueue_unread ha hon hbuf hu
  · subst hahead hm
    exact execVqSqDb_inRange hon hreset hlt hmost hleast hu
  · subst hahead hm
    exact execVqSqDb_outOfRange hon hreset h
  · subst hm
    exact execVqCqHead_inRange hon hlt hused
  · subst hm
    exact execVqCqHead_outOfRange hon h
  · subst hgone
    exact execVltSetVpstate_set ha hv hauto hidle

end Sys2Proof.Machine

/-! ## Input, power limit, vault power states and housekeeping rounds (spec/11, R243; spec/20, R379, R380, R384 to R391, R398) -/

namespace Sys2Proof.Machine
open Sys2Proof

variable {s : State}

section Power
variable {p : Pkt}

/-! ### The input (R380, R384) -/

theorem execVinWarn_shown {falling : Bool} (h : falling = false ∨ s.dev.awaits = true) :
    execVinWarn falling s = .next (s.setB PWR_STAT__VIN_LOW falling) := if_pos h

/-- VIN_LOW rises: the level, the error and its log entry. -/
def State.vinFell (s : State) : State := ((s.setB PWR_STAT__VIN_LOW true).raise PWR_ERR__VIN_LOW).log .pwr evPwrVinLow

section Falls
variable (hrun : s.dev.awaits = false)
include hrun

theorem State.vinFall_reported : ¬ (true = false ∨ s.dev.awaits = true) :=
  not_or.mpr ⟨Bool.true_eq_false.mp, ne_true_of_eq_false hrun⟩

theorem execVinWarn_falls (hlow : s.on PWR_STAT__VIN_LOW = false) :
    execVinWarn true s =
      .next (s.vinFell.pendIf PWR_IRQ__PEND 0 (s.vinFell.on PWR_IRQ__VIN || s.vinFell.on PWR_IRQ__ERR) 33) :=
  (if_neg (State.vinFall_reported hrun)).trans (if_neg (ne_true_of_eq_false hlow))

theorem execVinWarn_again (hlow : s.on PWR_STAT__VIN_LOW = true) : execVinWarn true s = .next s :=
  (if_neg (State.vinFall_reported hrun)).trans (if_pos hlow)

end Falls

theorem execOvloExit_eq (s : State) :
    execOvloExit s = .next (if s.dev.vin = 2 then { s with dev := { s.dev with vin := 0 } } else s) :=
  (apply_ite Host.Outcome.next _ _ _).symm

/-! ### The power limit and what the opcodes answer (R391, R398) -/

section Limit
variable (ha : accepted 0x0C00 p s = true)
include ha

theorem execPwrSetInputLimit_stored (hmw : p.b 0 0 18 = 0 ∨ (10000 ≤ p.b 0 0 18 ∧ p.b 0 0 18 ≤ 58000))
    (hmv : 6000 ≤ p.b 1 0 16) (hmv' : p.b 1 0 16 ≤ 48000) {u : State}
    (hu : u = ((entered 0x0C00 p s).setF PWR_HOST_LIMIT__MW (p.b 0 0 18)).setF PWR_VIN_WARN__MV (p.b 1 0 16)) :
    execPwrSetInputLimit p s =
      .next (settled 0x0C00 (s.pktHdr 0x0C00 p) u (ok [limitOf (p.b 0 0 18) (u.f THM_STAT__BAND)])) := by
  subst hu
  exact congrArg Host.Outcome.next (runOp_some ha (if_neg (by omega)))

theorem execPwrSetInputLimit_refused
    (h : (p.b 0 0 18 ≠ 0 ∧ (p.b 0 0 18 < 10000 ∨ 58000 < p.b 0 0 18)) ∨ p.b 1 0 16 < 6000 ∨ 48000 < p.b 1 0 16) :
    execPwrSetInputLimit p s =
      .next (settled 0x0C00 (s.pktHdr 0x0C00 p) (entered 0x0C00 p s) (refuse stBadParam 0x8001)) :=
  congrArg Host.Outcome.next (runOp_some ha (if_pos h))

end Limit

/-- The twelve words of PWR_GET_HK. -/
def State.hkReport (s : State) : List Nat :=
  (List.range 8).map (fun i => s.f (PWR_HK_CH__VALUE (2 * i)) + 0x10000 * s.f (PWR_HK_CH__VALUE (2 * i + 1))) ++
    [s.pwr.rounds - 1, s.f PWR_MEAS__MW, s.rn PWR_HEADROOM, s.f PWR_STAT__DEG_LEVEL]

theorem execPwrGetHk_answers (ha : accepted 0x0C03 p s = true) :
    execPwrGetHk p s = .next (settled 0x0C03 (s.pktHdr 0x0C03 p) s (ok s.hkReport)) :=
  congrArg Host.Outcome.next (runOp_some ha (by rw [entered_fast p s rfl]; rfl))

/-- The six words of THM_GET_BAND. -/
def State.bandReport (s : State) : List Nat :=
  [s.f THM_STAT__BAND, s.f THM_STAT__TEMP, (ceiling (s.f THM_STAT__BAND)).getD 0, refMult (s.f THM_STAT__BAND),
    sustainGb s.dev.variant.big (s.f THM_STAT__BAND), s.f THM_STAT__SENSOR_FAULT]

theorem execThmGetBand_answers (ha : accepted 0x0C04 p s = true) :
    execThmGetBand p s = .next (settled 0x0C04 (s.pktHdr 0x0C04 p) s (ok s.bandReport)) :=
  congrArg Host.Outcome.next (runOp_some ha (by rw [entered_fast p s rfl]; rfl))

end Power

section Housekeeping
variable {v : Vector (BitVec 16) 16} {vals : List Nat}

/-! ### The housekeeping round (R385 to R390) -/

/-- The sixteen channels hold the round `vals` with its number, and a self-test that asks notes whether it was in order. -/
def State.roundStored (s : State) (vals : List Nat) : State :=
  ((List.range 16).foldl (fun u n => u.wn (PWR_HK_CH n) (vals.getD n 0 + 0x10000 * (s.pwr.rounds % 0x10000)))
    (s.modPwr (fun p => { p with rounds := s.pwr.rounds + 1 }))).noteRound (refOkay (vals.getD 15 0) && (railsOut vals).isEmpty)

/-- The readings of a round are kept, and each rail out of range for the second round running is an error and enters the safe state. -/
def State.railsJudged (s : State) (vals : List Nat) : State :=
  ((railsOut vals).filter (fun c => s.pwr.railOut.contains c)).foldl (fun w c => (w.pwrErr PWR_ERR__RAIL).enterSafe 1 c)
    (s.modPwr (fun p => { p with railOut := railsOut vals, hk := vals }))

/-- The diode of a round is judged: a sensor fault, a reading, or a reading at which the device trips to PS2. -/
def State.diodeJudged (s : State) (d : Nat) : State :=
  if sext 16 d < -400 ∨ 1200 < sext 16 d then s.sensorFault
  else if sext 16 d < 880 then s.reading d
  else (((s.reading d).log .thm evThmTrip).modPwr (fun p => { p with trip := true })).enterSleep 2 false 2

theorem State.diodeJudged_fault {d : Nat} (h : sext 16 d < -400 ∨ 1200 < sext 16 d) : s.diodeJudged d = s.sensorFault := if_pos h

theorem State.diodeJudged_reading {d : Nat} (hlo : -400 ≤ sext 16 d) (hhi : sext 16 d < 880) : s.diodeJudged d = s.reading d :=
  (if_neg (by omega)).trans (if_pos hhi)

theorem State.diodeJudged_trip {d : Nat} (hlo : 880 ≤ sext 16 d) (hhi : sext 16 d ≤ 1200) :
    s.diodeJudged d = (((s.reading d).log .thm evThmTrip).modPwr (fun p => { p with trip := true })).enterSleep 2 false 2 :=
  (if_neg (by omega)).trans (if_neg hlo.not_gt)

theorem execHkRoundComplete_lost (hready : s.dev.ready = false) : execHkRoundComplete v s = .next s := if_pos hready

section Ready
variable (hready : s.dev.ready = true) (hvals : vals = v.toList.map (·.toNat))
include hready hvals

theorem execHkRoundComplete_badReference (href : refOkay (vals.getD 15 0) = false) :
    execHkRoundComplete v s =
      .next (((s.roundStored vals).pwrErr PWR_ERR__HK_REF).modPwr (fun p => { p with railOut := [] })).sensorFault := by
  subst hvals
  exact (if_neg (ne_false_of_eq_true hready)).trans (if_pos href)

theorem execHkRoundComplete_judged (href : refOkay (vals.getD 15 0) = true) :
    execHkRoundComplete v s = .next (((s.roundStored vals).railsJudged vals).diodeJudged (vals.getD 0 0)) := by
  subst hvals
  refine (if_neg (ne_false_of_eq_true hready)).trans ((if_neg (ne_false_of_eq_true href)).trans ?_)
  unfold State.diodeJudged
  rw [apply_ite Host.Outcome.next, apply_ite Host.Outcome.next]
  rfl

end Ready

end Housekeeping

/-- Settles O47: the input, the opcodes, then a round by its reference, its rails and its diode. -/
theorem powerAndHousekeeping : Obligations.PowerAndHousekeeping := by
  unfold Obligations.PowerAndHousekeeping
  refine ⟨fun falling s => execVinWarn_shown, fun s u hrun hlow hu => ?_, fun s => execVinWarn_again, fun s => ⟨rfl, rfl⟩,
    execOvloExit_eq, fun p s ha hmw hmv hmv' => execPwrSetInputLimit_stored ha hmw hmv hmv' rfl,
    fun p s => execPwrSetInputLimit_refused, fun p s => execPwrGetHk_answers, fun p s => execThmGetBand_answers,
    fun request s => ⟨rfl, rfl⟩, fun v round vals u s hready hround hvals hu href => ?_,
    fun v round vals u w s hready hround hvals hu href hw hd => ?_,
    fun v round vals u w s hready hround hvals hu href hw hlo hhi => ?_,
    fun v round vals u w s hready hround hvals hu href hw hlo hhi => ?_, fun v s => execHkRoundComplete_lost⟩
  · subst hu
    exact execVinWarn_falls hrun hlow
  · subst hround hu
    exact execHkRoundComplete_badReference hready hvals href
  · subst hround hu hw
    exact (execHkRoundComplete_judged hready hvals href).trans (congrArg Host.Outcome.next (State.diodeJudged_fault hd))
  · subst hround hu hw
    exact (execHkRoundComplete_judged hready hvals href).trans (congrArg Host.Outcome.next (State.diodeJudged_reading hlo hhi))
  · subst hround hu hw
    exact (execHkRoundComplete_judged hready hvals href).trans (congrArg Host.Outcome.next (State.diodeJudged_trip hlo hhi))

end Sys2Proof.Machine

/-! ## Encode streams, their rings and the coding engines (spec/12, R246 to R271; spec/13, R278, R279, R281; spec/17, R348) -/

namespace Sys2Proof.Machine
open Sys2Proof

variable {s : State}

section EncodeStreams
variable {p : Pkt}

/-! ### Creating a stream (R251, R252, R270, R271) -/

/-- The parameters that CDC_STREAM_CREATE brings (Table 12-5). -/
def encParamsOf (p : Pkt) : EncSt := { words := (List.range 16).map p.w, tgtBr := p.w 4, maxBr := p.w 5, cpb := p.w 6 }

/-- A stream of these parameters, with the geometry and the frame time of the tap that feeds it. -/
def State.encFed (s : State) (e : EncSt) : EncSt :=
  let t := s.tapFor e.ctx (e.tap + 4)
  { e with ow := t.ow, oh := t.oh, pack := t.pack, tp := s.frameNsOf e.ctx * t.decim }

/-- The pool buffers that a stream needs (R272). -/
def EncSt.poolNeed (e : EncSt) : Nat := if e.irapPeriod = 1 then 0 else e.numRef + 1

/-- The pool buffers that stream `i` may mark, lowest first: those FREE and those marked by it alone. -/
def State.poolFor (s : State) (i : Nat) : List Nat :=
  (List.range s.poolCount).filter (fun b => s.marks b == 0 || s.marks b == 2 ^ i)

/-- The streams apart from `i` that the tap of `e` feeds. -/
def State.tapShares (s : State) (i : Nat) (e : EncSt) : List Nat :=
  (List.range 16).filter (fun k => k != i && s.encState k != 0 && (s.es k).ctx == e.ctx && (s.es k).tap == e.tap)

/-- Every check that CDC_STREAM_CREATE makes of stream `i` lets `e` through. -/
structure State.MayCreate (s : State) (i : Nat) (e : EncSt) : Prop where
  fields : e.badField = none
  idle : s.encState i < 2
  profile : e.profileOk = true
  level : e.levelOk = true
  engine : s.encMpix (some i) + s.decMpix + e.load ≤ 4500
  rate : e.rateOk = true
  pool : e.poolNeed ≤ (s.poolFor i).length
  placed : e.placed s.wBytes = true
  shares : (s.tapShares i e).length < 4

/-- Stream `i` is `e`, STOPPED, with its pool buffers marked, CDC_Ss_CFG `cfg` and empty rings. -/
def State.encCreated (s : State) (i : Nat) (e : EncSt) (cfg : Nat) : State :=
  let u := (((s.poolFor i).take e.poolNeed).foldl (fun s b => s.setMark b i true) (s.clearMarks i)).modEs i (fun _ => e)
  let v := (u.wn (CDC_S_CFG i) cfg).wn (CDC_S_STATE i) 1
  ([CDC_S_DR_HEAD i, CDC_S_DR_TAIL i, CDC_S_DD_HEAD i, CDC_S_DD_TAIL i].foldl (fun s a => s.wn a 0) v).setDeg i

theorem execCdcStreamCreate_created {u : State} {e : EncSt} (ha : accepted 0x0600 p s = true) (hu : u = entered 0x0600 p s)
    (he : e = u.encFed (encParamsOf p)) (hok : u.MayCreate p.idx e) :
    execCdcStreamCreate p s =
      .next (settled 0x0600 (s.pktHdr 0x0600 p) ((u.encCreated p.idx e (p.w 0)).commitSince u) ok) := by
  subst he hu
  obtain ⟨hfields, hidle, hprofile, hlevel, hengine, hrate, hpool, hplaced, hshares⟩ := hok
  have engineOk : ¬ 4500 < (entered 0x0600 p s).encMpix (some p.idx) + (entered 0x0600 p s).decMpix +
    ((entered 0x0600 p s).encFed (encParamsOf p)).load := hengine.not_gt
  refine congrArg Host.Outcome.next (runOp_some ha ?_)
  dsimp only
  split
  · next k hk => exact absurd (hfields.symm.trans hk) nofun
  · exact (if_neg hidle.not_ge).trans ((if_neg (ne_false_of_eq_true hprofile)).trans
      ((if_neg (ne_false_of_eq_true hlevel)).trans ((if_neg engineOk).trans ((if_neg (ne_false_of_eq_true hrate)).trans
        ((if_neg hpool.not_gt).trans ((if_neg (ne_false_of_eq_true hplaced)).trans (if_neg hshares.not_ge)))))))

/-! ### Rates, rectangles, IRAPs and templates (R252, R255, R262, R267 to R269, R271) -/

/-- A stream with the rates that CDC_SET_RATE brings. -/
def EncSt.withRates (e : EncSt) (p : Pkt) : EncSt := { e with tgtBr := p.w 0, maxBr := p.w 1, cpb := p.w 2 }

/-- Stream `i` takes the rates of `p`; a changed MAX_BR or CPB waits for an IRAP, which a RUNNING stream shows in IRAP_PEND. -/
def State.ratesSet (s : State) (i : Nat) (p : Pkt) : State :=
  let e := s.es i
  let change := e.maxBr ≠ p.w 1 ∨ e.cpb ≠ p.w 2
  let u := s.modEs i (fun _ => { e.withRates p with rateChange := e.rateChange || decide change })
  if change ∧ u.encState i = 2 then u.raise (CDC_S_STATE__IRAP_PEND i) else u

theorem execCdcSetRate_stored {u : State} (ha : accepted 0x0603 p s = true) (hu : u = entered 0x0603 p s)
    (huse : u.encState p.idx ≠ 0) (hlevel : ((u.es p.idx).withRates p).levelOk = true)
    (hrate : ((u.es p.idx).withRates p).rateOk = true) :
    execCdcSetRate p s = .next (settled 0x0603 (s.pktHdr 0x0603 p) (u.ratesSet p.idx p) ok) := by
  subst hu
  exact congrArg Host.Outcome.next (runOp_some ha ((if_neg huse).trans
    ((if_neg (ne_false_of_eq_true hlevel)).trans (if_neg (ne_false_of_eq_true hrate)))))

/-- The rectangles that CDC_SET_ROI brings: left, top, width and height in CTUs, and the delta. -/
def roiRectsOf (p : Pkt) : List (Nat × Nat × Nat × Nat × Int) :=
  ((List.range 16).filter (fun k => p.t 0 k)).map (fun k =>
    (p.b (4 + 2 * k) 0 16, p.b (4 + 2 * k) 16 16, p.b (5 + 2 * k) 0 9, p.b (5 + 2 * k) 9 9, sext 8 (p.b (5 + 2 * k) 24 8)))

/-- A rectangle leaves the picture of `e`, or its delta leaves −51 to 51. -/
def EncSt.roiBad (e : EncSt) (rects : List (Nat × Nat × Nat × Nat × Int)) : Bool :=
  rects.any (fun r => decide (e.ctuW < r.1 + r.2.2.1) || decide (e.rowsN < r.2.1 + r.2.2.2.1)
    || decide (r.2.2.2.2 < -51) || decide (51 < r.2.2.2.2))

theorem execCdcSetRoi_stored {u : State} (ha : accepted 0x0604 p s = true) (hu : u = entered 0x0604 p s)
    (huse : u.encState p.idx ≠ 0) (hroi : (u.es p.idx).roiBad (roiRectsOf p) = false) :
    execCdcSetRoi p s =
      .next (settled 0x0604 (s.pktHdr 0x0604 p) (u.modEs p.idx (fun e => { e with roi := roiRectsOf p })) ok) := by
  subst hu
  exact congrArg Host.Outcome.next (runOp_some ha ((if_neg huse).trans (if_neg (ne_true_of_eq_false hroi))))

section ForceIrap
variable (ha : accepted 0x0605 p s = true)
include ha

theorem execCdcForceIrap_running (hrun : s.encState p.idx = 2) :
    execCdcForceIrap p s = .next (settled 0x0605 (s.pktHdr 0x0605 p) (s.askIrap p.idx) ok) :=
  next_runOp_fast (by decide) ha (if_neg (not_not.mpr hrun))

theorem execCdcForceIrap_notRunning (hrun : s.encState p.idx ≠ 2) :
    execCdcForceIrap p s = .next (settled 0x0605 (s.pktHdr 0x0605 p) s (refuse stState 0x8008)) :=
  next_runOp_fast (by decide) ha (if_pos hrun)

end ForceIrap

/-- The header bytes that CDC_STREAMER_TEMPLATE brings. -/
def tmplBytesOf (p : Pkt) : List Byte := (List.range 32).flatMap (fun k => leBytes 4 (p.w (4 + k)))

/-- A stream that will take the template of `p`, with its SEQ, TS_OFS and PACE_KBPS. -/
def EncSt.templated (e : EncSt) (p : Pkt) : EncSt :=
  let t : Tmpl := ⟨p.b 0 0 2, p.b 0 16 14, (tmplBytesOf p).take (tmplLen (p.b 0 0 2))⟩
  { e with newTmpl := some (t, if p.t 1 16 then some (p.b 1 0 16) else none, p.w 2, p.w 3) }

theorem execCdcStreamerTemplate_stored {u : State} (ha : accepted 0x0608 p s = true) (hu : u = entered 0x0608 p s)
    (huse : u.encState p.idx ≠ 0) (hmin : 256 ≤ p.b 0 16 14) (hmax : p.b 0 16 14 ≤ 9018)
    (hrest : ((tmplBytesOf p).drop (tmplLen (p.b 0 0 2))).any (fun b => b != 0) = false) :
    execCdcStreamerTemplate p s =
      .next (settled 0x0608 (s.pktHdr 0x0608 p) (u.modEs p.idx (fun e => e.templated p)) ok) := by
  subst hu
  exact congrArg Host.Outcome.next (runOp_some ha ((if_neg huse).trans
    (if_neg (not_or.mpr ⟨hmin.not_gt, not_or.mpr ⟨hmax.not_gt, ne_true_of_eq_false hrest⟩⟩))))

/-! ### Start and stop (R255, R257, R271) -/

/-- Stream `i` runs: no picture, no source waits, and its rate control starts anew. -/
def State.encStarted (s : State) (i : Nat) : State :=
  let u := s.modEs i (fun e => { e with
    first := true, irapReq := false, resume := false, slots := 0, lastIrap := 0, lastIdr := 0, v := 0
    prev := none, prevOver := false, queue := [], pic := none })
  let v := (u.setF (CDC_S_STATE__STATE i) 2).setF (CDC_S_STATE__IRAP_PEND i) 0
  (v.wn (CDC_S_CPB_V i) 0).wn (CDC_S_TARGET i) 0

section Start
variable {u : State} (ha : accepted 0x0601 p s = true) (hu : u = entered 0x0601 p s)
include ha hu

theorem execCdcStreamStart_started (hstopped : u.encState p.idx = 1) (htest : u.bist 2 = false)
    (htap : u.tapLive (u.es p.idx) = true) :
    execCdcStreamStart p s = .next (settled 0x0601 (s.pktHdr 0x0601 p) (u.encStarted p.idx) ok) := by
  subst hu
  have notRunning : ¬ (entered 0x0601 p s).encState p.idx = 2 := by omega
  exact congrArg Host.Outcome.next (runOp_some ha ((if_neg notRunning).trans ((if_neg (not_not.mpr hstopped)).trans
    ((if_neg (ne_true_of_eq_false htest)).trans (if_neg (ne_false_of_eq_true htap))))))

theorem execCdcStreamStart_running (hrun : u.encState p.idx = 2) :
    execCdcStreamStart p s = .next (settled 0x0601 (s.pktHdr 0x0601 p) u ok) := by
  subst hu
  exact congrArg Host.Outcome.next (runOp_some ha (if_pos hrun))

theorem execCdcStreamStart_refused (hstopped : u.encState p.idx ≠ 1) (hrun : u.encState p.idx ≠ 2) :
    execCdcStreamStart p s = .next (settled 0x0601 (s.pktHdr 0x0601 p) u (refuse stState 0x8008)) := by
  subst hu
  exact congrArg Host.Outcome.next (runOp_some ha ((if_neg hrun).trans (if_pos hstopped)))

end Start

/-- Stream `i` is STOPPING and drops the sources that wait; it is STOPPED at once when no picture is in progress. -/
def State.encStopping (s : State) (i : Nat) : State :=
  ((s.setF (CDC_S_STATE__STATE i) 3).modEs i (fun e => { e with queue := [] })).encStopped i

section Stop
variable {u : State} (ha : accepted 0x0602 p s = true) (hu : u = entered 0x0602 p s)
include ha hu

theorem execCdcStreamStop_stops (hrun : u.encState p.idx = 2) :
    execCdcStreamStop p s = .next (settled 0x0602 (s.pktHdr 0x0602 p) (u.encStopping p.idx) ok) := by
  subst hu
  have notStopping : ¬ (entered 0x0602 p s).encState p.idx = 3 := by omega
  exact congrArg Host.Outcome.next (runOp_some ha ((if_neg notStopping).trans (if_neg (not_not.mpr hrun))))

theorem execCdcStreamStop_stopping (hstopping : u.encState p.idx = 3) :
    execCdcStreamStop p s = .next (settled 0x0602 (s.pktHdr 0x0602 p) u ok) := by
  subst hu
  exact congrArg Host.Outcome.next (runOp_some ha (if_pos hstopping))

theorem execCdcStreamStop_refused (hidle : u.encState p.idx < 2) :
    execCdcStreamStop p s = .next (settled 0x0602 (s.pktHdr 0x0602 p) u (refuse stState 0x8008)) := by
  subst hu
  have notStopping : ¬ (entered 0x0602 p s).encState p.idx = 3 := by omega
  exact congrArg Host.Outcome.next (runOp_some ha ((if_neg notStopping).trans (if_pos hidle.ne)))

end Stop

end EncodeStreams

/-- Settles O32, one law per opcode and state of the stream. -/
theorem encodeStreams : Obligations.EncodeStreams := by
  unfold Obligations.EncodeStreams
  refine ⟨fun p t e mine need u v w s ha ht he hfields hidle hprofile hlevel hengine hrate hmine hneed hpool hplaced hshares
      hu hv hw => ?_, fun p e u s ha huse he hlevel hrate hu => ?_, fun p r s ha huse hr hroi => ?_,
    fun p s => execCdcForceIrap_running, fun p s => execCdcForceIrap_notRunning,
    fun p bs s ha huse hmin hmax hbs hrest => ?_, fun p u v s ha hstopped htest htap hu hv => ?_,
    fun p s ha => execCdcStreamStart_running ha rfl, fun p s ha => execCdcStreamStart_refused ha rfl,
    fun p s ha => execCdcStreamStop_stops ha rfl, fun p s ha => execCdcStreamStop_stopping ha rfl,
    fun p s ha => execCdcStreamStop_refused ha rfl⟩
  · subst hw hv hu hneed hmine he ht
    exact execCdcStreamCreate_created ha rfl rfl
      ⟨hfields, hidle, hprofile, hlevel, hengine, hrate, hpool, hplaced, hshares⟩
  · subst hu he
    exact execCdcSetRate_stored ha rfl huse hlevel hrate
  · subst hr
    exact execCdcSetRoi_stored ha rfl huse hroi
  · subst hbs
    exact execCdcStreamerTemplate_stored ha rfl huse hmin hmax hrest
  · subst hv hu
    exact execCdcStreamStart_started ha rfl hstopped htest htap

section StreamRings
variable {stream : Fin 16} {v : W32}

/-! ### Ring heads (R264) -/

/-- How many descriptors of stream `i` a value written to CDC_Ss_DD_HEAD returns. -/
def State.ddReturned (s : State) (i : Nat) (v : W32) : Nat :=
  (v.toNat % 0x20000 + 2 ^ ((s.es i).qlog + 1) - s.f (CDC_S_DD_HEAD__HEAD i) % 2 ^ ((s.es i).qlog + 1)) % 2 ^ ((s.es i).qlog + 1)

theorem execCdcDdHead_returned (hready : s.shut 0 = false) (hlt : v.toNat % 0x20000 < 2 ^ ((s.es stream).qlog + 1))
    (hheld : s.ddReturned stream v ≤ s.ddUsed stream) :
    execCdcDdHead stream v s = .next (s.setF (CDC_S_DD_HEAD__HEAD stream) (v.toNat % 0x20000)) :=
  if_neg (not_or.mpr ⟨ne_true_of_eq_false hready, not_or.mpr ⟨hlt.not_ge, hheld.not_gt⟩⟩)

theorem execCdcDdHead_ignored
    (h : 2 ^ ((s.es stream).qlog + 1) ≤ v.toNat % 0x20000 ∨ s.ddUsed stream < s.ddReturned stream v) :
    execCdcDdHead stream v s = .next s := if_pos (.inr h)

/-! ### A stalled ring (R265) -/

/-- The rings of stream `i` have no room for the next spooled unit or, none spooled, no room at all. -/
def State.ringsFull (s : State) (i : Nat) : Bool :=
  match (s.es i).spool with
  | u :: _ => !s.unitFits i u
  | [] => decide (2 ^ (s.es i).dlog ≤ s.drUsed i) || decide (2 ^ (s.es i).qlog ≤ s.ddUsed i)

theorem execCdcRingStall_eq (stream : Fin 16) (s : State) :
    execCdcRingStall stream s = .next (if s.encState stream != 0 && (s.es stream).hostOn && s.ringsFull stream
      then (s.encErr stream CDC_S_ERR__RING_STALL).log .cdc evCdcRingStall (streamTarget stream) else s) := rfl

/-! ### The streamer (R266 to R269, R348) -/

/-- The packet `q` of stream `i` has left: emitted, padded to 60 bytes, counted, and out of the backlog. -/
def State.tq1Sent (s : State) (i : Nat) (q : Tq1Packet) : State :=
  let u := ((s.emit (.netFrame (q.frame ++ List.replicate (60 - q.frame.length) 0))).bumpEvt .cdc (CDC_S_PKT_CNT i)).bumpEvt
    .net NET_TX_CNT
  u.modEs i (fun e => e.sent q.ident (q.tokens - q.frame.length * 8000000) u.now)

theorem execStreamerSend_idle (hhead : s.tq1Head stream = none) :
    execStreamerSend stream s =
      .next (s.modEs stream (fun e => { e with backlog := e.backlog.dropWhile (·.packets.isEmpty) })) := by
  simp only [execStreamerSend, hhead]

section Head
variable {q : Tq1Packet} (hhead : s.tq1Head stream = some q)
include hhead

theorem execStreamerSend_sent (hmay : s.tq1May q = true) : execStreamerSend stream s = .next (s.tq1Sent stream q) := by
  simp only [execStreamerSend, hhead]
  exact if_neg (ne_false_of_eq_true hmay)

theorem execStreamerSend_held (hmay : s.tq1May q = false) : execStreamerSend stream s = .next s := by
  simp only [execStreamerSend, hhead]
  exact if_pos hmay

end Head

end StreamRings

/-- Settles O33, one law per doorbell or event and way it acts. -/
theorem streamRings : Obligations.StreamRings := by
  unfold Obligations.StreamRings
  refine ⟨fun stream v s => rfl, fun stream v m s hready hm hlt hheld => ?_, fun stream v m s hm h => ?_,
    fun stream s => rfl, execCdcRingStall_eq, fun stream q u s hhead hmay hu => ?_,
    fun stream q s => execStreamerSend_held, fun stream s => execStreamerSend_idle⟩
  · subst hm
    exact execCdcDdHead_returned hready hlt hheld
  · subst hm
    exact execCdcDdHead_ignored h
  · subst hu
    exact execStreamerSend_sent hhead hmay

section CodingEngines

/-! ### A row enters the pixel engine (R246, R253, R255, R258, R263, R278) -/

theorem execPeRowStart_unmoved (h : s.cdc.pe.isSome = true ∨ s.peNext = none) : execPeRowStart s = .next s := by
  cases hpe : s.cdc.pe with
  | some x => exact if_pos (by rw [hpe]; rfl)
  | none =>
    have hnext : s.peNext = none := h.resolve_left (by simp [hpe])
    simp [execPeRowStart, hpe, hnext]

section Next
variable {w slot r : Nat} {p : EncPic} {q : EncSrc} {t : List EncSlot} (hpe : s.cdc.pe = none) (hnext : s.peNext = some w)
include hpe hnext

theorem execPeRowStart_nextRow (hw : w < 16) (hpic : (s.es w).pic = some p) :
    execPeRowStart s = .next (s.nextIn w p) := by
  simp [execPeRowStart, hpe, hnext, hw, hpic]

theorem execPeRowStart_newPicture (hw : w < 16) (hpic : (s.es w).pic = none)
    (hqueue : (s.es w).queue = ⟨slot, some q⟩ :: t) (hkept : (s.es w).omits (s.f (CDC_S_STATE__DEG w)) slot = false) :
    execPeRowStart s = .next (s.picIn w slot q) := by
  simp [execPeRowStart, hpe, hnext, hw, hpic, hqueue, hkept]

theorem execPeRowStart_sessionRow (hw : 16 ≤ w) (hrow : (s.ds (w - 16)).peRow = some r) :
    execPeRowStart s = .next { s with cdc := { s.cdc with pe := some (w, r), peLast := w } } := by
  simp [execPeRowStart, hpe, hnext, hw.not_gt, hrow]

end Next

/-! ### A row leaves the pixel engine (R253, R258, R260, R279) -/

/-- The pixel engine is free. -/
def State.peFreed (s : State) : State := { s with cdc := { s.cdc with pe := none } }

/-- What the pixel engine holds is no part of a stream or of a session. -/
theorem State.es_setPe (i : Nat) (x : Option (Nat × Nat)) : ({ s with cdc := { s.cdc with pe := x } } : State).es i = s.es i := rfl

theorem State.ds_setPe (d : Nat) (x : Option (Nat × Nat)) : ({ s with cdc := { s.cdc with pe := x } } : State).ds d = s.ds d := rfl

/-- The lines of picture `p` that have landed once a row with these final lines has left. -/
def DecPic.landed (p : DecPic) (r : RowOut) : Nat := max p.lines (min r.final p.height)

/-- What row `j` of session `d`'s picture `p` leaves, written where it lies in the picture's pool buffer and recorded. -/
def State.decRowWritten (s : State) (d : Nat) (p : DecPic) (j : Nat) (r : RowOut) : State :=
  (s.writeIn (fun a n => decide (s.poolAddr p.buf ≤ a) && decide (a + n ≤ s.poolAddr p.buf + s.poolStride)) r.writes).modDs d
    (fun e => { e with cur := some { p with peRow := j + 1, lines := p.landed r } })

theorem execPeRowDone_free {r : RowOut} (hpe : s.cdc.pe = none) : execPeRowDone r s = .next s := by
  simp only [execPeRowDone, hpe]

section Row
variable {r : RowOut} {w j : Nat} (hpe : s.cdc.pe = some (w, j))
include hpe

theorem execPeRowDone_stream {p : EncPic} (hw : w < 16) (hpic : (s.es w).pic = some p) :
    execPeRowDone r s = .next (s.peFreed.encRowDone w (s.es w) p j) := by
  simp only [execPeRowDone, hpe, if_pos hw, State.es_setPe, hpic]
  rfl

theorem execPeRowDone_session {p : DecPic} (hw : 16 ≤ w) (hcur : (s.ds (w - 16)).cur = some p) :
    execPeRowDone r s =
      .next ((s.peFreed.decRowWritten (w - 16) p j r).decLand (w - 16) p.buf (p.landed r) false) := by
  simp only [execPeRowDone, hpe, if_neg hw.not_gt, State.ds_setPe, hcur]
  rfl

end Row

/-! ### An entropy engine finishes a slice (R246, R249, R253) -/

/-- The NAL units after the slices of a picture whose row `j` is coded: the hash SEI, after the last row. -/
def EncSt.suffixNals (e : EncSt) (j : Nat) (p : EncPic) : List (List Byte) :=
  if j + 1 = e.rowsN ∧ e.hashSei = true then [e.hashNal p.recon] else []

/-- Row `j` of the picture of stream `i` has its slice. -/
def State.sliceCoded (s : State) (i j : Nat) : State :=
  s.modEs i (fun e => { e with pic := e.pic.map (fun p =>
    p.modRow j (fun r => { r with slice := some (e.sliceNal p j r, (s.es i).suffixNals j p) })) })

theorem execEntropySliceDone_coded {k : Fin 2} {i j : Nat} (hjob : s.cdc.ee.getD k none = some (.enc i j)) :
    execEntropySliceDone (.coded k) s =
      .next (State.emitRows i (s.es i).rowsN ((s.sliceCoded i j).freeEngine k)) := by
  simp only [execEntropySliceDone, hjob]
  rfl

theorem execEntropySliceDone_otherWork {k : Fin 2} (hjob : ∀ i j, s.cdc.ee.getD k none ≠ some (.enc i j)) :
    execEntropySliceDone (.coded k) s = .next s := by
  unfold execEntropySliceDone
  dsimp only
  split
  · next i j hrow => exact absurd hrow (hjob i j)
  · rfl

end CodingEngines

/-- Settles O35, one law per engine and the work that it takes or ends. -/
theorem codingEngines : Obligations.CodingEngines := by
  unfold Obligations.CodingEngines
  refine ⟨fun s => execPeRowStart_unmoved, fun w p s => execPeRowStart_nextRow,
    fun w slot q t s => execPeRowStart_newPicture, fun w r s => execPeRowStart_sessionRow,
    fun r w j p u s hpe hw hpic hu => ?_, fun r w j p u v s hpe hw hcur hu hv => ?_, fun r s => execPeRowDone_free,
    fun k i j u s hjob hu => ?_, fun k s => execEntropySliceDone_otherWork, fun d item s => rfl⟩
  · subst hu
    exact execPeRowDone_stream hpe hw hpic
  · subst hv hu
    exact execPeRowDone_session hpe hw hcur
  · subst hu
    exact execEntropySliceDone_coded hjob

end Sys2Proof.Machine

/-! ## Every command completes, and a step runs the front of the queue (spec/95; spec/17, R338) -/

namespace Sys2Proof.Machine
open Sys2Proof

variable {s : State}

/-- No command is refused, and one that cannot fault answers a next state: each arm of `exec` runs, or is an access that can fault. -/
theorem exec_safe (i : Instr) (s : State) :
    (∀ r, exec i s ≠ .refused r) ∧ (mayFault i = false → ∃ t, exec i s = .next t) := by
  cases i with
  | nop => exact (execNop_runs _ s).safe _
  | devStatus => exact (execDevStatus_runs _ s).safe _
  | devReset => exact (execDevReset_runs _ s).safe _
  | devSetPstate => exact (execDevSetPstate_runs _ s).safe _
  | devGetFingerprint => exact (execDevGetFingerprint_runs _ s).safe _
  | fwStage => exact (execFwStage_runs _ s).safe _
  | fwVerify => exact (execFwVerify_runs _ s).safe _
  | fwActivate => exact (execFwActivate_runs _ s).safe _
  | evtDrain => exact (execEvtDrain_runs _ s).safe _
  | lnkConfigPort => exact (execLnkConfigPort_runs _ s).safe _
  | lnkMapQuads => exact (execLnkMapQuads_runs _ s).safe _
  | lnkStart => exact (execLnkStart_runs _ s).safe _
  | lnkStop => exact (execLnkStop_runs _ s).safe _
  | snsLoadProfile => exact (execSnsLoadProfile_runs _ s).safe _
  | snsCtrlXfer => exact (execSnsCtrlXfer_runs _ s).safe _
  | snsQueueSettings => exact (execSnsQueueSettings_runs _ s).safe _
  | lnkPattern => exact (execLnkPattern_runs _ s).safe _
  | lnkStatus => exact (execLnkStatus_runs _ s).safe _
  | rawSetLin => exact (execRawSetLin_runs _ s).safe _
  | rawSetBlack => exact (execRawSetBlack_runs _ s).safe _
  | rawSetMerge => exact (execRawSetMerge_runs _ s).safe _
  | rawLoadDefects => exact (execRawLoadDefects_runs _ s).safe _
  | rawSetFormat => exact (execRawSetFormat_runs _ s).safe _
  | rawGetStats => exact (execRawGetStats_runs _ s).safe _
  | ctxConfigure => exact (execCtxConfigure_runs _ s).safe _
  | ctxCommit => exact (execCtxCommit_runs _ s).safe _
  | ctxStart => exact (execCtxStart_runs _ s).safe _
  | ctxStop => exact (execCtxStop_runs _ s).safe _
  | ctxSetPolicy => exact (execCtxSetPolicy_runs _ s).safe _
  | ctxPlaybackSource => exact (execCtxPlaybackSource_runs _ s).safe _
  | ctxStatus => exact (execCtxStatus_runs _ s).safe _
  | clrSetShading => exact (execClrSetShading_runs _ s).safe _
  | clrSetWbMatrix => exact (execClrSetWbMatrix_runs _ s).safe _
  | clrSetWorkspace => exact (execClrSetWorkspace_runs _ s).safe _
  | tapConfigure => exact (execTapConfigure_runs _ s).safe _
  | tapLoadLut => exact (execTapLoadLut_runs _ s).safe _
  | tapEnable => exact (execTapEnable_runs _ s).safe _
  | tapDisable => exact (execTapDisable_runs _ s).safe _
  | clrGetZonestats => exact (execClrGetZonestats_runs _ s).safe _
  | vltSetLayout => exact (execVltSetLayout_runs _ s).safe _
  | takeOpen => exact (execTakeOpen_runs _ s).safe _
  | takeClose => exact (execTakeClose_runs _ s).safe _
  | vltPin => exact (execVltPin_runs _ s).safe _
  | vltUnpin => exact (execVltUnpin_runs _ s).safe _
  | vltQueryFrame => exact (execVltQueryFrame_runs _ s).safe _
  | vqCreateQueue => exact (execVqCreateQueue_runs _ s).safe _
  | vqDeleteQueue => exact (execVqDeleteQueue_runs _ s).safe _
  | vqResetQueue => exact (execVqResetQueue_runs _ s).safe _
  | vltSetVpstate => exact (execVltSetVpstate_runs _ s).safe _
  | recConfig => exact (execRecConfig_runs _ s).safe _
  | cdcStreamCreate => exact (execCdcStreamCreate_runs _ s).safe _
  | cdcStreamStart => exact (execCdcStreamStart_runs _ s).safe _
  | cdcStreamStop => exact (execCdcStreamStop_runs _ s).safe _
  | cdcSetRate => exact (execCdcSetRate_runs _ s).safe _
  | cdcSetRoi => exact (execCdcSetRoi_runs _ s).safe _
  | cdcForceIrap => exact (execCdcForceIrap_runs _ s).safe _
  | cdcDecodeOpen => exact (execCdcDecodeOpen_runs _ s).safe _
  | cdcDecodeData => exact (execCdcDecodeData_runs _ s).safe _
  | cdcDecodeClose => exact (execCdcDecodeClose_runs _ s).safe _
  | setHost => exact (execSetHost_runs _ s).safe _
  | clearHost => exact (execClearHost_runs _ s).safe _
  | clearOut => exact (execClearOut_runs _ s).safe _
  | cdcStreamerTemplate => exact (execCdcStreamerTemplate_runs _ s).safe _
  | cmpConfigureLayer => exact (execCmpConfigureLayer_runs _ s).safe _
  | cmpLoadLut => exact (execCmpLoadLut_runs _ s).safe _
  | cmpCommit => exact (execCmpCommit_runs _ s).safe _
  | cmpFlip => exact (execCmpFlip_runs _ s).safe _
  | cmpSetWriteback => exact (execCmpSetWriteback_runs _ s).safe _
  | cmpRindStatus => exact (execCmpRindStatus_runs _ s).safe _
  | dspSetTiming => exact (execDspSetTiming_runs _ s).safe _
  | dspRoute => exact (execDspRoute_runs _ s).safe _
  | dspPortEnable => exact (execDspPortEnable_runs _ s).safe _
  | dspPortDisable => exact (execDspPortDisable_runs _ s).safe _
  | dspDcsXfer => exact (execDspDcsXfer_runs _ s).safe _
  | dspSdiAnc => exact (execDspSdiAnc_runs _ s).safe _
  | dspStatus => exact (execDspStatus_runs _ s).safe _
  | audConfigurePort => exact (execAudConfigurePort_runs _ s).safe _
  | audStart => exact (execAudStart_runs _ s).safe _
  | audStop => exact (execAudStop_runs _ s).safe _
  | audSetChstatus => exact (execAudSetChstatus_runs _ s).safe _
  | audStatus => exact (execAudStatus_runs _ s).safe _
  | timSetAddend => exact (execTimSetAddend_runs _ s).safe _
  | timStep => exact (execTimStep_runs _ s).safe _
  | timGet => exact (execTimGet_runs _ s).safe _
  | fcgConfigure => exact (execFcgConfigure_runs _ s).safe _
  | netConfigure => exact (execNetConfigure_runs _ s).safe _
  | netLinkControl => exact (execNetLinkControl_runs _ s).safe _
  | netSetPtp => exact (execNetSetPtp_runs _ s).safe _
  | dflSubmit => exact (execDflSubmit_runs _ s).safe _
  | dflResume => exact (execDflResume_runs _ s).safe _
  | dflAbort => exact (execDflAbort_runs _ s).safe _
  | dflStatus => exact (execDflStatus_runs _ s).safe _
  | pwrSetInputLimit => exact (execPwrSetInputLimit_runs _ s).safe _
  | pwrAxConfigure => exact (execPwrAxConfigure_runs _ s).safe _
  | pwrAxSwitch => exact (execPwrAxSwitch_runs _ s).safe _
  | pwrGetHk => exact (execPwrGetHk_runs _ s).safe _
  | thmGetBand => exact (execThmGetBand_runs _ s).safe _
  | tstRunAnalogue => exact (execTstRunAnalogue_runs _ s).safe _
  | tstRunLbist => exact (execTstRunLbist_runs _ s).safe _
  | tstRunMbist => exact (execTstRunMbist_runs _ s).safe _
  | tstGetResult => exact (execTstGetResult_runs _ s).safe _
  | tstSetTmux => exact (execTstSetTmux_runs _ s).safe _
  | rprGetStatus => exact (execRprGetStatus_runs _ s).safe _
  | rprCommitPpr => exact (execRprCommitPpr_runs _ s).safe _
  | mbxBind => exact (execMbxBind_runs _ s).safe _
  | mbxLock => exact (execMbxLock_runs _ s).safe _
  | dltRefresh => exact (execDltRefresh_runs _ s).safe _
  | semForceRelease => exact (execSemForceRelease_runs _ s).safe _
  | packetFetch => exact (execPacketFetch_runs _ _ s).safe _
  | packetComplete => exact (execPacketComplete_runs _ _ s).safe _
  | replyBoundExpiry => exact (execReplyBoundExpiry_runs _ _ _ s).safe _
  | cmdLateDone => exact (execCmdLateDone_runs _ _ s).safe _
  | fwqUrgentAge => exact (execFwqUrgentAge_runs _ _ s).safe _
  | cmdRpStall => exact (execCmdRpStall_runs _ s).safe _
  | cmdDb => exact (execCmdDb_runs _ _ s).safe _
  | cmdRpHead => exact (execCmdRpHead_runs _ _ s).safe _
  | registerWrite => exact ⟨(execRegisterWrite_unrefused _ _ _ s).out, nofun⟩
  | readClear => exact ⟨(execReadClear_unrefused _ _ s).out, nofun⟩
  | lowWordRead => exact ⟨(execLowWordRead_unrefused _ _ s).out, nofun⟩
  | msixUnmask => exact (execMsixUnmask_runs _ s).safe _
  | txData => exact (execTxData_runs _ _ _ s).safe _
  | rxWordLo => exact (execRxWordLo_runs _ _ s).safe _
  | semAcquire => exact (execSemAcquire_runs _ _ s).safe _
  | semRelease => exact (execSemRelease_runs _ _ s).safe _
  | mbxCtrlLock => exact (execMbxCtrlLock_runs s).safe _
  | mbxTmo => exact (execMbxTmo_runs _ _ s).safe _
  | coreReset => exact (execCoreReset_runs _ s).safe _
  | hvmBridgeRestart => exact (execHvmBridgeRestart_runs s).safe _
  | injectSingle => exact (execInjectSingle_runs _ s).safe _
  | injectBurst => exact (execInjectBurst_runs _ _ s).safe _
  | tapHoldSet => exact (execTapHoldSet_runs _ _ s).safe _
  | wbHoldSet => exact (execWbHoldSet_runs _ _ s).safe _
  | dlyLock => exact (execDlyLock_runs s).safe _
  | evtErrClear => exact (execEvtErrClear_runs s).safe _
  | timNowNs => exact (execTimNowNs_runs _ s).safe _
  | tstStartAnalogue => exact (execTstStartAnalogue_runs _ _ s).safe _
  | tstStartLbist => exact (execTstStartLbist_runs _ _ s).safe _
  | tstStartMbist => exact (execTstStartMbist_runs _ _ s).safe _
  | tstAdmitExpiry => exact (execTstAdmitExpiry_runs s).safe _
  | testDone => exact (execTestDone_runs _ s).safe _
  | vqSqDb => exact (execVqSqDb_runs _ _ s).safe _
  | vqCqHead => exact (execVqCqHead_runs _ _ s).safe _
  | vqNop => exact (execVqNop_runs _ _ s).safe _
  | vqRead => exact (execVqRead_runs _ _ s).safe _
  | vqWrite => exact (execVqWrite_runs _ _ s).safe _
  | vqCopy => exact (execVqCopy_runs _ _ s).safe _
  | vqReadFrame => exact (execVqReadFrame_runs _ _ s).safe _
  | vqFlush => exact (execVqFlush_runs _ _ s).safe _
  | vqAbort => exact (execVqAbort_runs _ _ _ s).safe _
  | vqCmdStart => exact (execVqCmdStart_runs _ _ s).safe _
  | vqTransferDone => exact (execVqTransferDone_runs _ _ _ _ s).safe _
  | vqCplPost => exact (execVqCplPost_runs _ s).safe _
  | vqDeferExpiry => exact (execVqDeferExpiry_runs _ _ s).safe _
  | vqTmoExpiry => exact (execVqTmoExpiry_runs _ _ _ _ s).safe _
  | vqCqStall => exact (execVqCqStall_runs _ s).safe _
  | memrd => exact ⟨(execMemrd_unrefused _ s).out, nofun⟩
  | memrddata => exact ⟨(execMemrddata_unrefused _ s).out, nofun⟩
  | meminv => exact ⟨(execMeminv_unrefused _ s).out, nofun⟩
  | memspecrd => exact ⟨(execMemspecrd_unrefused _ s).out, nofun⟩
  | memwr => exact ⟨(execMemwr_unrefused _ _ s).out, nofun⟩
  | memwrptl => exact ⟨(execMemwrptl_unrefused _ _ _ s).out, nofun⟩
  | hdmCommit => exact (execHdmCommit_runs _ _ _ _ s).safe _
  | snpinv => exact (execSnpinv_runs _ _ s).safe _
  | fencePoll => exact (execFencePoll_runs _ _ s).safe _
  | dmaReadError => exact (execDmaReadError_runs _ _ _ _ s).safe _
  | cacheWriteError => exact (execCacheWriteError_runs _ _ _ s).safe _
  | linkTrainingDone => exact (execLinkTrainingDone_runs _ _ _ s).safe _
  | linkDown => exact (execLinkDown_runs s).safe _
  | flr => exact (execFlr_runs s).safe _
  | perstNAssert => exact (execPerstNAssert_runs s).safe _
  | warmBoot => exact (execWarmBoot_runs _ s).safe _
  | coldBoot => exact (execColdBoot_runs _ s).safe _
  | wake => exact (execWake_runs _ _ s).safe _
  | fwRunState => exact (execFwRunState_runs s).safe _
  | fwActivateTimeout => exact (execFwActivateTimeout_runs s).safe _
  | uvlo => exact (execUvlo_runs s).safe _
  | ovlo => exact (execOvlo_runs s).safe _
  | vinWarn => exact (execVinWarn_runs _ s).safe _
  | recPress => exact (execRecPress_runs _ s).safe _
  | recRelease => exact (execRecRelease_runs _ s).safe _
  | ubMark => exact (execUbMark_runs _ s).safe _
  | recFailFlashEnd => exact (execRecFailFlashEnd_runs s).safe _
  | comma => exact (execComma_runs _ _ _ s).safe _
  | cdrLockLoss => exact (execCdrLockLoss_runs _ s).safe _
  | linkWord => exact (execLinkWord_runs _ s).safe _
  | idle => exact (execIdle_runs _ s).safe _
  | frameStart => exact (execFrameStart_runs _ s).safe _
  | frameEnd => exact (execFrameEnd_runs _ s).safe _
  | lineStart => exact (execLineStart_runs _ s).safe _
  | lineData => exact (execLineData_runs _ _ s).safe _
  | lineEnd => exact (execLineEnd_runs _ s).safe _
  | embedded => exact (execEmbedded_runs _ s).safe _
  | frameTimeout => exact (execFrameTimeout_runs _ s).safe _
  | lnkLockTimeout => exact (execLnkLockTimeout_runs _ s).safe _
  | snsXferStart => exact (execSnsXferStart_runs _ s).safe _
  | snsXferDone => exact (execSnsXferDone_runs _ _ s).safe _
  | settingsWriteDone => exact (execSettingsWriteDone_runs _ _ s).safe _
  | setWindowExpiry => exact (execSetWindowExpiry_runs _ s).safe _
  | trgAssert => exact (execTrgAssert_runs _ s).safe _
  | trgDeassert => exact (execTrgDeassert_runs _ s).safe _
  | stripeLanded => exact (execStripeLanded_runs _ s).safe _
  | stripeStart => exact (execStripeStart_runs s).safe _
  | stripeDone => exact (execStripeDone_runs s).safe _
  | ladleTrigger => exact (execLadleTrigger_runs _ s).safe _
  | readbackStale => exact (execReadbackStale_runs _ s).safe _
  | paceTick => exact (execPaceTick_runs _ s).safe _
  | vp1Entry => exact (execVp1Entry_runs _ s).safe _
  | vp2Entry => exact (execVp2Entry_runs _ s).safe _
  | peRowStart => exact (execPeRowStart_runs s).safe _
  | peRowDone => exact (execPeRowDone_runs _ s).safe _
  | entropySliceDone => exact (execEntropySliceDone_runs _ s).safe _
  | spoolDrain => exact (execSpoolDrain_runs _ s).safe _
  | cdcDrHead => exact (execCdcDrHead_runs _ _ s).safe _
  | cdcDdHead => exact (execCdcDdHead_runs _ _ s).safe _
  | cdcRingStall => exact (execCdcRingStall_runs _ s).safe _
  | streamerSend => exact (execStreamerSend_runs _ s).safe _
  | decodePictureEnd => exact (execDecodePictureEnd_runs _ s).safe _
  | decodeOutput => exact (execDecodeOutput_runs _ s).safe _
  | poolWaitEnd => exact (execPoolWaitEnd_runs _ s).safe _
  | cdcDecStall => exact (execCdcDecStall_runs _ s).safe _
  | cmpLatch => exact (execCmpLatch_runs _ _ _ s).safe _
  | fenceTimeout => exact (execFenceTimeout_runs _ _ _ s).safe _
  | vblankStart => exact (execVblankStart_runs _ _ _ s).safe _
  | hotplug => exact (execHotplug_runs _ _ s).safe _
  | dcsXferRun => exact (execDcsXferRun_runs _ _ _ _ s).safe _
  | audBlockBoundary => exact (execAudBlockBoundary_runs _ _ s).safe _
  | playFetch => exact (execPlayFetch_runs _ s).safe _
  | audFrameIn => exact (execAudFrameIn_runs _ _ _ _ s).safe _
  | audStartInstant => exact (execAudStartInstant_runs s).safe _
  | audClockStop => exact (execAudClockStop_runs _ s).safe _
  | audGlitch => exact (execAudGlitch_runs _ s).safe _
  | audRateChange => exact (execAudRateChange_runs _ s).safe _
  | holdoverExit => exact (execHoldoverExit_runs _ s).safe _
  | tbWrap => exact (execTbWrap_runs s).safe _
  | fcgTick => exact (execFcgTick_runs _ s).safe _
  | netRxFrame => exact (execNetRxFrame_runs _ _ _ s).safe _
  | netTxEgress => exact (execNetTxEgress_runs _ _ s).safe _
  | netLaunch => exact (execNetLaunch_runs s).safe _
  | netLinkChange => exact (execNetLinkChange_runs _ _ _ s).safe _
  | netDb => exact (execNetDb_runs _ _ _ s).safe _
  | dflJobStart => exact (execDflJobStart_runs _ _ _ s).safe _
  | dflJobEnd => exact (execDflJobEnd_runs _ s).safe _
  | dflDeferExpiry => exact (execDflDeferExpiry_runs _ s).safe _
  | dmcRefresh => exact (execDmcRefresh_runs _ _ s).safe _
  | dmcUncorrectable => exact (execDmcUncorrectable_runs _ _ _ s).safe _
  | suspectAppend => exact (execSuspectAppend_runs _ s).safe _
  | dmcDelayPass => exact (execDmcDelayPass_runs s).safe _
  | hkRoundComplete => exact (execHkRoundComplete_runs _ s).safe _
  | budgetTick => exact (execBudgetTick_runs _ s).safe _
  | axTrip => exact (execAxTrip_runs _ _ s).safe _
  | axRetryExpiry => exact (execAxRetryExpiry_runs _ s).safe _
  | axRetryReset => exact (execAxRetryReset_runs _ s).safe _
  | axLoadChange => exact (execAxLoadChange_runs _ _ s).safe _
  | axReverseCurrent => exact (execAxReverseCurrent_runs _ s).safe _
  | hcrcFail => exact (execHcrcFail_runs _ s).safe _
  | reservedTypePacket => exact (execReservedTypePacket_runs _ s).safe _
  | patSyncChange => exact (execPatSyncChange_runs _ _ s).safe _
  | ovloExit => exact (execOvloExit_runs s).safe _
  | axReverseClear => exact (execAxReverseClear_runs _ s).safe _
  | axLimiting => exact (execAxLimiting_runs _ _ s).safe _
  | lnkStopWaitExpiry => exact (execLnkStopWaitExpiry_runs _ s).safe _
  | doeRequest => exact (execDoeRequest_runs s).safe _
  | linkCrcError => exact (execLinkCrcError_runs s).safe _
  | cxlCacheProtocolError => exact (execCxlCacheProtocolError_runs _ s).safe _

/-- Settles O5, an arm of `exec` at a time. -/
theorem commandsComplete : Obligations.CommandsComplete := by
  unfold Obligations.CommandsComplete
  exact exec_safe

/-- Settles O1: the queue holds a front command. -/
theorem stepRunsFront : Obligations.StepRunsFront := by
  unfold Obligations.StepRunsFront
  exact fun c rest s => step_of_cons rfl

theorem idle_clocked (h : s.clocked = true) : idle s = .next s.fabTick := congrArg Host.Outcome.next (if_pos h)

theorem idle_unclocked (h : s.clocked = false) : idle s = .next s :=
  congrArg Host.Outcome.next (if_neg (ne_true_of_eq_false h))

/-- Settles O2: a step on an empty queue is `idle`. -/
theorem stepIdle : Obligations.StepIdle := by
  unfold Obligations.StepIdle
  exact ⟨fun s hq hc => (step_of_empty hq).trans (idle_clocked hc), fun s hq hc => (step_of_empty hq).trans (idle_unclocked hc)⟩

end Sys2Proof.Machine

/-! ## Steps of the timebase, and the network port's settings and link (spec/17, R342 to R344, R347, R348, R350, R353; spec/22, R410) -/

namespace Sys2Proof.Machine
open Sys2Proof

variable {s : State} {p : Pkt}

/-! ### An accepted packet and its answer -/

section Answer
variable {op : Nat} {body : Body} {t : State} {o : Outc}

/-- An accepted packet whose body answers. -/
theorem next_runOp (ha : accepted op p s = true) (hb : body (entered op p s) = (t, some o)) :
    (.next (runOp op p s body) : Res) = .next (settled op (s.pktHdr op p) t o) :=
  congrArg Host.Outcome.next (runOp_some ha hb)

/-- An accepted packet whose body leaves it to wait. -/
theorem next_runOp_none (ha : accepted op p s = true) (hb : body (entered op p s) = (t, none)) :
    (.next (runOp op p s body) : Res) = .next t :=
  congrArg Host.Outcome.next (runOp_none ha hb)

end Answer

/-! ### TIM_STEP (R342 to R344) -/

section TimeStep

/-- The time that the next tick would show, with its fraction. -/
def State.tickedTime (s : State) : Int := ((s.nowFx + s.addend : Nat) : Int) % 2 ^ 96

/-- The step that TIM_STEP asks for: the way to an absolute time, or a signed change. -/
def State.askedStep (s : State) (p : Pkt) : Int :=
  if p.t 0 1 then short96 ((p.w 2 * 0x10000000000000000 + p.w 1 * 0x100000000 + p.w 3 : Nat) - s.tickedTime)
  else sext 64 (p.q 1) * 0x100000000

/-- The whole nanoseconds of a step, as its 64 bits. -/
def wholeNs (d : Int) : Nat := ofInt 64 (d / 0x100000000)

/-- A refused step leaves its mark and its log entry. -/
def State.stepRefused (s : State) (d : Int) : State :=
  (s.raise TIM_ERR__TB_STEP_REFUSED).log .tim evTbStepRefused 0xFFFF (wholeNs d % 0x100000000) (wholeNs d / 0x100000000) (ofInt 32 d)

/-- A step of `d` from the time `tick` is made, counted and told to the consumers of the timebase. -/
def State.stepMade (s : State) (tick d : Int) : State :=
  (((s.laneTicks 1).putTime (((tick + d) % 2 ^ 96).toNat) (decide (d + s.addend < 0))).bumpEvt .tim TIM_STEP_CNT).stepConsumers d

/-- What a step answers: its whole nanoseconds, the new time and its fraction. -/
def State.stepReport (s : State) (d : Int) : List Nat :=
  [wholeNs d % 0x100000000, wholeNs d / 0x100000000, s.rn TIM_NOW_NS, s.rn TIM_NOW_EPOCH, ofInt 32 d]

/-- FORCED stands after a step with FORCE set. -/
def State.forceNoted (s : State) (p : Pkt) : State := if p.t 0 0 then s.raise TIM_ERR__FORCED else s

/-- TIM_STEP by `d` at a tick that makes the time `tick`: refused beyond the limit without FORCE, else made. -/
def State.stepBy (s : State) (p : Pkt) (tick d : Int) : State × Option Outc :=
  if s.rn TIM_STEP_LIMIT * 0x100000000 < d.natAbs ∧ p.t 0 0 = false then (s.stepRefused d, some (refuse stBadParam 0x8001))
  else ((s.forceNoted p).stepMade tick d, some (ok (((s.forceNoted p).stepMade tick d).stepReport d)))

theorem execTimStep_eq (p : Pkt) (s : State) :
    execTimStep p s = .next (runOp 0x0A01 p s (fun s => s.stepBy p s.tickedTime (s.askedStep p))) := rfl

variable {tick d : Int}

theorem State.stepBy_refused (hbig : s.rn TIM_STEP_LIMIT * 0x100000000 < d.natAbs) (hforce : p.t 0 0 = false) :
    s.stepBy p tick d = (s.stepRefused d, some (refuse stBadParam 0x8001)) := if_pos ⟨hbig, hforce⟩

theorem State.stepBy_made (h : d.natAbs ≤ s.rn TIM_STEP_LIMIT * 0x100000000 ∨ p.t 0 0 = true) :
    s.stepBy p tick d =
      ((s.forceNoted p).stepMade tick d, some (ok (((s.forceNoted p).stepMade tick d).stepReport d))) :=
  if_neg (fun c => h.elim c.1.not_ge (ne_true_of_eq_false c.2))

/-- An accepted TIM_STEP, with the time that the tick makes and the step that it asks for. -/
theorem execTimStep_by {t : State} {o : Outc} (ha : accepted 0x0A01 p s = true) (htick : tick = s.tickedTime)
    (hd : d = s.askedStep p) (hb : s.stepBy p tick d = (t, some o)) :
    execTimStep p s = .next (settled 0x0A01 (s.pktHdr 0x0A01 p) t o) := by
  subst htick hd
  exact (execTimStep_eq p s).trans (next_runOp_fast rfl ha hb)

theorem execTimStep_made {u : State} (ha : accepted 0x0A01 p s = true) (htick : tick = s.tickedTime) (hd : d = s.askedStep p)
    (h : d.natAbs ≤ s.rn TIM_STEP_LIMIT * 0x100000000 ∨ p.t 0 0 = true) (hu : u = (s.forceNoted p).stepMade tick d) :
    execTimStep p s = .next (settled 0x0A01 (s.pktHdr 0x0A01 p) u (ok (u.stepReport d))) := by
  have answer := State.stepBy_made (tick := tick) h
  rw [← hu] at answer
  exact execTimStep_by ha htick hd answer

end TimeStep

/-- Settles O42, by whether the step is larger than the limit and not forced. -/
theorem stepLimit : Obligations.StepLimit := by
  unfold Obligations.StepLimit
  refine ⟨fun p d whole s ha hd hbig hforce hwhole => ?_, fun p tick d whole u v s ha htick hd h hwhole hv hu => ?_⟩
  · subst hwhole
    exact execTimStep_by ha rfl hd (State.stepBy_refused hbig hforce)
  · have asked : d = s.askedStep p := by rw [hd, htick]; rfl
    subst hwhole hv
    exact execTimStep_made ha htick asked h hu

/-! ### NET_CONFIGURE and NET_SET_PTP (R347, R350, R353) -/

section NetSettings

/-- The MAC address at words `i` and `i` + 1. -/
def macOf (p : Pkt) (i : Nat) : Nat := p.w i + p.b (i + 1) 0 16 * 0x100000000

/-- Speed, FEC and filters of NET_CONFIGURE stand; the rings hold no tail and no frame. -/
def State.netFilters (s : State) (p : Pkt) : State :=
  ((s.setB NET_STAT__SPEED (p.t 0 0)).setB NET_STAT__FEC (p.t 0 1)).modNet (fun n => { n with
    configured := true, promisc := p.t 0 2, mtu := p.b 0 16 14, mac := macOf p 1
    mcast := (List.range 16).map (fun i => macOf p (3 + 2 * i)), tail := [0, 0, 0], tx := [none, none] })

/-- The three rings lie where NET_CONFIGURE puts them, at HEAD 0. -/
def State.netRings (s : State) (p : Pkt) : State :=
  [0, 1, 2].foldl (fun v q => (((v.wn (NET_R_BASE_LO q) (p.w (35 + 3 * q))).wn (NET_R_BASE_HI q) (p.w (35 + 3 * q + 1))).wn
    (NET_R_CFG q) (p.w (35 + 3 * q + 2))).wn (NET_R_HEAD q) 0) s

/-- NET_CONFIGURE asks for values that the port does not have (R353; log 38 for the MTU). -/
abbrev State.netBad (s : State) (p : Pkt) : Prop :=
  (p.t 0 1 && !p.t 0 0) = true ∨ p.b 0 16 14 < 42 ∨ 9000 < p.b 0 16 14 ∨ ([35, 38, 41].all (s.netRingOk p)) = false

section Configure
variable {u : State} (ha : accepted 0x0A04 p s = true) (hu : u = entered 0x0A04 p s)
include ha hu

theorem execNetConfigure_enabled (hup : u.net.up = true) :
    execNetConfigure p s = .next (settled 0x0A04 (s.pktHdr 0x0A04 p) u (refuse stState 0x8004)) := by
  subst hu
  exact next_runOp ha (if_pos hup)

theorem execNetConfigure_bad (hup : u.net.up = false) (hbad : u.netBad p) :
    execNetConfigure p s = .next (settled 0x0A04 (s.pktHdr 0x0A04 p) u (refuse stBadParam 0x8005)) := by
  subst hu
  exact next_runOp ha ((if_neg (ne_true_of_eq_false hup)).trans (if_pos hbad))

theorem execNetConfigure_stored (hup : u.net.up = false) (hgood : ¬ u.netBad p) :
    execNetConfigure p s =
      .next (settled 0x0A04 (s.pktHdr 0x0A04 p) (((u.netFilters p).netRings p).commitSince u) ok) := by
  subst hu
  exact next_runOp ha ((if_neg (ne_true_of_eq_false hup)).trans (if_neg hgood))

end Configure

section Ptp
variable (ha : accepted 0x0A06 p s = true)
include ha

theorem execNetSetPtp_stored (hc : (entered 0x0A06 p s).net.configured = true) :
    execNetSetPtp p s = .next (settled 0x0A06 (s.pktHdr 0x0A06 p)
      ((entered 0x0A06 p s).modNet (fun n => { n with txAdj := sext 32 (p.w 0), rxAdj := sext 32 (p.w 1) })) ok) :=
  next_runOp ha (if_neg (ne_false_of_eq_true hc))

theorem execNetSetPtp_unconfigured (hc : (entered 0x0A06 p s).net.configured = false) :
    execNetSetPtp p s = .next (settled 0x0A06 (s.pktHdr 0x0A06 p) (entered 0x0A06 p s) (refuse stState 0x8006)) :=
  next_runOp ha (if_pos hc)

end Ptp

/-! ### NET_LINK_CONTROL (R348, R353, R410) -/

/-- An analogue test drives the network lanes (R410). -/
def State.netTested (s : State) : Bool := (s.analogue 2).isSome || (s.analogue 3).isSome

/-- Loop-back is as NET_LINK_CONTROL asks. -/
def State.netLooped (s : State) (p : Pkt) : State := s.setB NET_STAT__LOOP (p.t 0 1)

section LinkControl
variable {u : State} (ha : accepted 0x0A05 p s = true) (hu : u = entered 0x0A05 p s)
include ha hu

theorem execNetLinkControl_unconfigured (hc : u.net.configured = false) :
    execNetLinkControl p s = .next (settled 0x0A05 (s.pktHdr 0x0A05 p) u (refuse stState 0x8006)) := by
  subst hu
  exact next_runOp ha (if_pos hc)

variable (hc : u.net.configured = true)
include hc

theorem execNetLinkControl_tested (hen : p.t 0 0 = true) (ht : u.netTested = true) :
    execNetLinkControl p s = .next (settled 0x0A05 (s.pktHdr 0x0A05 p) u (refuse stState 0x8002)) := by
  subst hu
  exact next_runOp ha ((if_neg (ne_false_of_eq_true hc)).trans (if_pos ⟨hen, ht⟩))

theorem execNetLinkControl_disabled (hen : p.t 0 0 = false) :
    execNetLinkControl p s = .next (settled 0x0A05 (s.pktHdr 0x0A05 p)
      (((u.netLooped p).modNet (fun n => { n with up := false })).netLink false [] []) ok) := by
  subst hu
  refine next_runOp ha ((if_neg (ne_false_of_eq_true hc)).trans ((if_neg (fun c => ne_true_of_eq_false hen c.1)).trans
    ((if_pos hen).trans ?_)))
  rw [hen]
  rfl

section Enabled
variable (hen : p.t 0 0 = true) (ht : u.netTested = false)
include hen ht

theorem execNetLinkControl_waits (hl : (u.netLooped p).on NET_STAT__LINK = false) :
    execNetLinkControl p s =
      .next ((u.netLooped p).modNet (fun n => { n with up := true, upWait := n.upWait ++ [s.pktHdr 0x0A05 p] })) := by
  subst hu
  refine next_runOp_none ha ((if_neg (ne_false_of_eq_true hc)).trans ((if_neg (fun c => ne_true_of_eq_false ht c.2)).trans
    ((if_neg (ne_false_of_eq_true hen)).trans ((if_neg (ne_true_of_eq_false hl)).trans ?_))))
  rw [hen]
  rfl

theorem execNetLinkControl_linked (hl : (u.netLooped p).on NET_STAT__LINK = true) :
    execNetLinkControl p s = .next (settled 0x0A05 (s.pktHdr 0x0A05 p)
      ((u.netLooped p).modNet (fun n => { n with up := true })) ok) := by
  subst hu
  refine next_runOp ha ((if_neg (ne_false_of_eq_true hc)).trans ((if_neg (fun c => ne_true_of_eq_false ht c.2)).trans
    ((if_neg (ne_false_of_eq_true hen)).trans ((if_pos hl).trans ?_))))
  rw [hen]
  rfl

end Enabled
end LinkControl

end NetSettings

/-- Settles O43, one law per opcode and state of the link. -/
theorem networkSettings : Obligations.NetworkSettings := by
  unfold Obligations.NetworkSettings
  refine ⟨fun p u v s ha hup hfec hmin hmax hrings hu hv => ?_, fun p s ha => execNetConfigure_enabled ha rfl,
    fun p s ha => execNetConfigure_bad ha rfl, fun p s => execNetSetPtp_stored, fun p s => execNetSetPtp_unconfigured,
    fun p s ha => execNetLinkControl_unconfigured ha rfl, fun p s ha => execNetLinkControl_tested ha rfl,
    fun p s ha => execNetLinkControl_disabled ha rfl, fun p s ha => execNetLinkControl_waits ha rfl,
    fun p s ha => execNetLinkControl_linked ha rfl, fun up fetch0 fetch1 s => rfl⟩
  subst hv hu
  exact execNetConfigure_stored ha rfl hup (by simp [State.netBad, hfec, hmin, hmax, hrings])

end Sys2Proof.Machine

/-! ## DEFLATE jobs: queued, aborted, reported, started, ended and timed out (spec/18, R354 to R368) -/

namespace Sys2Proof.Machine
open Sys2Proof

variable {s : State}

section Jobs
variable {p : Pkt} {j : DflJob} {t : List DflJob}

/-! ### Queueing a job (R354, R355, R363) -/

/-- The options word asks for what no job can be: a level, a framing, a code or a check that Table 18-1 does not give. -/
abbrev dflOptionsBad (w : Nat) : Prop :=
  (dflInflate w = false ∧ (dflLevel w < 1 ∨ 9 < dflLevel w)) ∨ dflFrame w = 3 ∨ dflHuff w = 3 ∨ dflCheck w = 3
    ∨ (dflFrame w ≠ 0 ∧ dflCheck w ≠ 0)

/-- The four references of a job lie where they may, its state reference and its completion record have their sizes, its tag is
unused and the queue has room. -/
structure DflQueueable (s : State) (p : Pkt) : Prop where
  state_size : (p.ref 12).len = 0 ∨ (p.ref 12).len = 40960
  src : s.refOk (p.ref 4) = true
  dst : s.refOk (p.ref 8) = true
  saved : s.refOk (p.ref 12) = true
  done : s.refOk (p.ref 16) = true
  record_fits : 32 ≤ (p.ref 16).len
  tag_unused : s.dflTag (p.b 1 0 16) = false
  room : s.dfl.queue.length < 64

/-- The job that a packet asks for. -/
def State.jobAsked (s : State) (p : Pkt) (resume : Bool) : DflJob :=
  ⟨s.dfl.nextId, p.w 0, p.b 1 0 16, resume, ((p.ref 4).addr, (p.ref 4).len, (p.ref 4).space),
    ((p.ref 8).addr, (p.ref 8).len, (p.ref 8).space), ((p.ref 12).addr, (p.ref 12).len, (p.ref 12).space),
    ((p.ref 16).addr, (p.ref 16).len, (p.ref 16).space)⟩

/-- The job stands at the end of the queue and asks for its budget. -/
def State.jobQueued (s : State) (p : Pkt) (resume : Bool) : State :=
  (s.modDfl (fun d => { d with queue := d.queue ++ [s.jobAsked p resume], nextId := d.nextId + 1 })).arrive (.dfl s.dfl.nextId)

theorem State.dflQueue_appends {resume : Bool} (h : DflQueueable s p) :
    s.dflQueue p resume = (s.jobQueued p resume, some (ok [(s.jobQueued p resume).dfl.queue.length])) := by
  have size : ¬ ((p.ref 12).len ≠ 0 ∧ (p.ref 12).len ≠ 40960) := fun c => h.state_size.elim c.1 c.2
  have record : ¬ (s.refOk (p.ref 16) = false ∨ (p.ref 16).len < 32) :=
    not_or.mpr ⟨ne_false_of_eq_true h.done, h.record_fits.not_gt⟩
  exact (if_neg size).trans ((if_neg (ne_false_of_eq_true h.src)).trans ((if_neg (ne_false_of_eq_true h.dst)).trans
    ((if_neg (ne_false_of_eq_true h.saved)).trans ((if_neg record).trans ((if_neg (ne_true_of_eq_false h.tag_unused)).trans
      (if_neg h.room.not_ge))))))

theorem execDflSubmit_queued (ha : accepted 0x0B00 p s = true) (hw : ¬ dflOptionsBad (p.w 0)) (h : DflQueueable s p) :
    execDflSubmit p s = .next (settled 0x0B00 (s.pktHdr 0x0B00 p) (s.jobQueued p false)
      (ok [(s.jobQueued p false).dfl.queue.length])) :=
  next_runOp_fast rfl ha ((if_neg hw).trans (State.dflQueue_appends h))

theorem execDflSubmit_refused (ha : accepted 0x0B00 p s = true) (hw : dflOptionsBad (p.w 0)) :
    execDflSubmit p s = .next (settled 0x0B00 (s.pktHdr 0x0B00 p) s (badWord 0)) :=
  next_runOp_fast rfl ha (if_pos hw)

theorem execDflResume_queued (ha : accepted 0x0B01 p s = true) (h : DflQueueable s p) :
    execDflResume p s = .next (settled 0x0B01 (s.pktHdr 0x0B01 p) (s.jobQueued p true)
      (ok [(s.jobQueued p true).dfl.queue.length])) :=
  next_runOp_fast rfl ha (State.dflQueue_appends h)

/-! ### DFL_ABORT (R366) -/

/-- The queued job that carries a tag. -/
def State.jobTagged (s : State) (tag : Nat) : Option DflJob := s.dfl.queue.find? (fun j => j.tag == tag)

/-- The engine that runs the job with a tag, and its run. -/
def State.runTagged (s : State) (tag : Nat) : Option (Nat × DflRun) :=
  (List.range 2).findSome? (fun e => ((s.dfl.engine.getD e none).filter (fun r => r.job.tag == tag)).map (fun r => (e, r)))

/-- A queued job leaves the queue and the scheduler, and its record says ABORTED. -/
def State.jobAborted (s : State) (j : DflJob) : State :=
  ((s.leaveB (.dfl j.id)).modDfl (fun d => { d with queue := d.queue.erase j })).dflRecord j { status := dsAborted } false 0

/-- How many of the bytes `made` a job has written when the free word `d` stops it: whole blocks, or all of them. -/
def stoppedAt (made : List Byte) (d : W32) : Nat :=
  min made.length (4096 * (d.toNat / 2 % (made.length / 4096 + 1)))

/-- Run `r` of engine `e` is stopped at the free word `d`: what was made is written, and its record says ABORTED (log 40). -/
def State.runStopped (s : State) (e : Nat) (r : DflRun) (d : W32) : State :=
  let q := s.dflResult r
  let n := stoppedAt q.2.1 d
  let c := s.draw
  let v := (c.2.writeChain (refOf r.job.dst).space q.2.2.2 (q.2.1.take n)).modDfl (fun d => { d with engine := d.engine.set e none })
  v.draw.2.dflRecord r.job { status := dsAborted, consumed := min q.1.consumed c.1.toNat
                             produced := q.1.produced - (q.2.1.length - n), check := v.draw.1.toNat } false
    (if bitAt r.job.word 12 then chainUsed q.2.2.2 n else 0)

section Abort
variable (ha : accepted 0x0B02 p s = true)
include ha

theorem execDflAbort_queued (hj : s.jobTagged (p.b 0 0 16) = some j) :
    execDflAbort p s = .next (settled 0x0B02 (s.pktHdr 0x0B02 p) (s.jobAborted j) (ok [0])) := by
  unfold State.jobTagged at hj
  refine next_runOp_fast rfl ha ?_
  simp only [hj]
  rfl

variable (hj : s.jobTagged (p.b 0 0 16) = none)
include hj

theorem execDflAbort_unknown (hr : s.runTagged (p.b 0 0 16) = none) :
    execDflAbort p s = .next (settled 0x0B02 (s.pktHdr 0x0B02 p) s (ok [2])) := by
  unfold State.jobTagged at hj
  unfold State.runTagged at hr
  refine next_runOp_fast rfl ha ?_
  simp only [hj, hr]

theorem execDflAbort_running {e : Nat} {r : DflRun} (hr : s.runTagged (p.b 0 0 16) = some (e, r)) :
    execDflAbort p s = .next (settled 0x0B02 (s.pktHdr 0x0B02 p)
      (if s.draw.1.toNat % 2 = 1 then s.draw.2 else s.draw.2.runStopped e r s.draw.1)
      (ok [if s.draw.1.toNat % 2 = 1 then 1 else 0])) := by
  unfold State.jobTagged at hj
  unfold State.runTagged at hr
  refine next_runOp_fast rfl ha ?_
  simp only [hj, hr]
  by_cases late : s.draw.1.toNat % 2 = 1
  · rw [if_pos late, if_pos late, if_pos late]
  · rw [if_neg late, if_neg late, if_neg late]
    rfl

end Abort

/-! ### DFL_STATUS (R368) -/

section Status
variable (ha : accepted 0x0B03 p s = true)
include ha

theorem execDflStatus_queued (hj : s.jobTagged (p.b 0 0 16) = some j) :
    execDflStatus p s = .next (settled 0x0B03 (s.pktHdr 0x0B03 p) s
      (ok [b2n (s.dfl.queue.head? == some j && !s.isAdmitted (.dfl j.id)), 0, 0])) := by
  unfold State.jobTagged at hj
  refine next_runOp_fast rfl ha ?_
  simp only [hj]

variable (hj : s.jobTagged (p.b 0 0 16) = none)
include hj

theorem execDflStatus_unknown (ht : s.dflTag (p.b 0 0 16) = false) :
    execDflStatus p s = .next (settled 0x0B03 (s.pktHdr 0x0B03 p) s (ok [3, 0, 0])) := by
  unfold State.jobTagged at hj
  refine next_runOp_fast rfl ha ?_
  simp only [hj]
  exact if_neg (ne_true_of_eq_false ht)

theorem execDflStatus_running (ht : s.dflTag (p.b 0 0 16) = true) :
    execDflStatus p s = .next (settled 0x0B03 (s.pktHdr 0x0B03 p) s.draw.2.draw.2
      (ok [2, s.draw.1.toNat, s.draw.2.draw.1.toNat])) := by
  unfold State.jobTagged at hj
  refine next_runOp_fast rfl ha ?_
  simp only [hj]
  exact if_pos ht

end Status

/-! ### Starting and ending a job (R355, R363, R365) -/

section Engines
variable {src list st : HostRead}

/-- The first engine that runs nothing. -/
def State.freeEngineDfl (s : State) : Option Nat := (List.range 2).find? (fun e => (s.dfl.engine.getD e none).isNone)

theorem execDflJobStart_empty (hq : s.dfl.queue = []) : execDflJobStart src list st s = .next s := by
  simp only [execDflJobStart, hq]

variable (hq : s.dfl.queue = j :: t)
include hq

theorem execDflJobStart_started {e : Nat} (he : s.freeEngineDfl = some e) (hadm : s.isAdmitted (.dfl j.id) = true)
    (hsafe : s.dev.safe = false) :
    execDflJobStart src list st s = .next (((s.leaveB (.dfl j.id)).modDfl (fun d => { d with
      queue := t, engine := d.engine.set e (some ⟨j, src, list, st⟩) })).wn (DFL_E_OUT e) 0) := by
  unfold State.freeEngineDfl at he
  simp only [execDflJobStart, hq, he]
  exact if_neg (not_or.mpr ⟨ne_false_of_eq_true hadm, ne_true_of_eq_false hsafe⟩)

theorem execDflJobStart_held (h : s.freeEngineDfl = none ∨ s.isAdmitted (.dfl j.id) = false ∨ s.dev.safe = true) :
    execDflJobStart src list st s = .next s := by
  cases he : s.freeEngineDfl with
  | none =>
    unfold State.freeEngineDfl at he
    simp only [execDflJobStart, hq, he]
  | some e =>
    have held : s.isAdmitted (.dfl j.id) = false ∨ s.dev.safe = true := h.resolve_left (by simp [he])
    unfold State.freeEngineDfl at he
    simp only [execDflJobStart, hq, he]
    exact if_pos held

end Engines

theorem execDflJobEnd_ended {engine : Fin 2} {r : DflRun} (hr : s.dfl.engine.getD engine none = some r) :
    execDflJobEnd engine s = .next (s.dflFinish engine r) := by
  simp only [execDflJobEnd, hr]

theorem execDflJobEnd_free {engine : Fin 2} (hr : s.dfl.engine.getD engine none = none) :
    execDflJobEnd engine s = .next s := by
  simp only [execDflJobEnd, hr]

/-! ### DFL_DEFER_EXPIRY (R355) -/

section Defer
variable {tag : BitVec 16}

theorem execDflDeferExpiry_unknown (hj : s.jobTagged tag.toNat = none) : execDflDeferExpiry tag s = .next s := by
  unfold State.jobTagged at hj
  simp only [execDflDeferExpiry, hj]

theorem execDflDeferExpiry_deferred (hj : s.jobTagged tag.toNat = some j) (hms : s.f DFL_CTRL__DEFER_MS ≠ 0)
    (hadm : s.isAdmitted (.dfl j.id) = false) :
    execDflDeferExpiry tag s = .next (((s.deferB (.dfl j.id)).modDfl (fun d => { d with queue := d.queue.erase j })).dflRecord j
      { status := dsThermal } false 0) := by
  unfold State.jobTagged at hj
  simp only [execDflDeferExpiry, hj]
  exact if_neg (not_or.mpr ⟨hms, ne_true_of_eq_false hadm⟩)

theorem execDflDeferExpiry_unlimited (hms : s.f DFL_CTRL__DEFER_MS = 0) : execDflDeferExpiry tag s = .next s := by
  cases hj : s.jobTagged tag.toNat with
  | none => exact execDflDeferExpiry_unknown hj
  | some j =>
    unfold State.jobTagged at hj
    simp only [execDflDeferExpiry, hj]
    exact if_pos (.inl hms)

end Defer

end Jobs

/-- Settles O45, one law per opcode or event and where the job stands. -/
theorem deflate : Obligations.Deflate := by
  unfold Obligations.Deflate
  refine ⟨fun p u s ha hw hst hsrc hdst hsaved hdone hrec htag hroom hu => ?_, fun p s => execDflSubmit_refused,
    fun p u s ha hst hsrc hdst hsaved hdone hrec htag hroom hu => ?_, fun p j s => execDflAbort_queued,
    fun p s => execDflAbort_unknown, fun p e r d q n c v u s ha hj hr hd hq hn hc hv hu => ?_,
    fun p j s => execDflStatus_queued, fun p s => execDflStatus_unknown, fun p a b s ha hj ht hA hB => ?_,
    fun j t e src list st s hq he => execDflJobStart_started hq he, fun j t src list st s => execDflJobStart_held,
    fun src list st s => execDflJobStart_empty, fun engine r s => execDflJobEnd_ended, fun engine s => execDflJobEnd_free,
    fun tag j s => execDflDeferExpiry_deferred, fun tag s => execDflDeferExpiry_unknown,
    fun tag s => execDflDeferExpiry_unlimited⟩
  · subst hu
    exact execDflSubmit_queued ha hw ⟨hst, hsrc, hdst, hsaved, hdone, hrec, htag, hroom⟩
  · subst hu
    exact execDflResume_queued ha ⟨hst, hsrc, hdst, hsaved, hdone, hrec, htag, hroom⟩
  · have stopped : u = d.2.runStopped e r d.1 := by subst hu hv hc hn hq; rfl
    rw [exec_dflAbort, execDflAbort_running ha hj hr, stopped, hd]
  · subst hB hA
    exact execDflStatus_running ha hj ht

end Sys2Proof.Machine

/-! ## The memory controller and the budget tick (spec/19, R373 to R378; spec/20, R391 to R394) -/

namespace Sys2Proof.Machine
open Sys2Proof

variable {s : State}

section MemoryController

/-! ### Refresh and uncorrectable errors (R373, R377) -/

section Refresh
variable {chan : Fin 32} {wait : Bool}

theorem execDmcRefresh_done {u : State} (hchan : (chan : Nat) < s.f DMC_STAT__CHANNELS) (hvp : s.f VQ_VPSTATE__VP < 2)
    (hu : u = s.setF DMC_STAT__REF_MULT (refMult (s.f DMC_STAT__BAND))) {k : Nat}
    (hk : k = (u.dmc.chan.toList.getD chan {}).postponed) :
    execDmcRefresh chan wait s = .next (u.modChan chan (fun q => { q with
      postponed := if wait ∧ k < 4 then k + 1 else 0, refs := if wait ∧ k < 4 then q.refs else q.refs + 1 })) := by
  subst hk hu
  exact if_neg (not_or.mpr ⟨hchan.not_ge, hvp.not_ge⟩)

theorem execDmcRefresh_idle (h : s.f DMC_STAT__CHANNELS ≤ chan ∨ 2 ≤ s.f VQ_VPSTATE__VP) :
    execDmcRefresh chan wait s = .next s := if_pos h

end Refresh

section Uncorrectable
variable {dpa : Nat} {corrected : Bool}

theorem execDmcUncorrectable_outside {fails : Bool} (h : nominalSect s.dev.variant * 4096 ≤ dpa) :
    execDmcUncorrectable dpa fails corrected s = .next s := if_pos h

theorem execDmcUncorrectable_fails (h : dpa < nominalSect s.dev.variant * 4096) :
    execDmcUncorrectable dpa true corrected s = .next (s.poisonLine dpa) := if_neg h.not_ge

theorem execDmcUncorrectable_recovers (h : dpa < nominalSect s.dev.variant * 4096) :
    execDmcUncorrectable dpa false corrected s = .next (if corrected then s.bumpStat DMC_CORR_CNT else s) := if_neg h.not_ge

end Uncorrectable

/-! ### Suspect rows (R377) -/

section Suspect
variable {row : Fin 32} {v : Nat}

/-- The repair record of a suspect row that reads `v`. -/
def suspectRepair (v : Nat) : Repair := { kind := 4, st := 2, inst := bitsAt v 26 5, addr := v % 0x400000 }

/-- A repair record stands for the suspect row that reads `v`. -/
def State.suspectKnown (s : State) (v : Nat) : Bool :=
  s.tst.records.any (fun q => q.kind == 4 && q.inst == bitsAt v 26 5 && q.addr == v % 0x400000)

theorem execSuspectAppend_added (hv : v = s.rn (DMC_SUSPECT row)) (hvalid : s.on (DMC_SUSPECT__VALID row) = true)
    (hrun : s.dev.fwRun = true) (hnew : s.suspectKnown v = false) :
    execSuspectAppend row s = .next { s with tst := { s.tst with records := s.tst.records ++ [suspectRepair v] } } := by
  subst hv
  exact if_neg (not_or.mpr ⟨ne_false_of_eq_true hvalid, not_or.mpr ⟨ne_false_of_eq_true hrun, ne_true_of_eq_false hnew⟩⟩)

theorem execSuspectAppend_unchanged (hv : v = s.rn (DMC_SUSPECT row))
    (h : s.on (DMC_SUSPECT__VALID row) = false ∨ s.dev.fwRun = false ∨ s.suspectKnown v = true) :
    execSuspectAppend row s = .next s := by
  subst hv
  exact if_pos h

end Suspect

/-! ### The budget tick (R391 to R394) -/

section Tick
variable {t : DmcTick}

/-- The DRAM's service, the budget, the ladder and OVER_K of one tick. -/
def State.ticked (s : State) (t : DmcTick) : State :=
  ((((s.modCxl (fun c => { c with roWrite := false })).dmcServed t).budget t).ladderTick).overK

theorem execBudgetTick_ticks (hready : s.dev.ready = true) :
    execBudgetTick t s = .next (State.admitHead (s.ticked t).pwr.queue.length (s.ticked t)).startAdmitted :=
  if_neg (ne_false_of_eq_true hready)

theorem execBudgetTick_early (hready : s.dev.ready = false) : execBudgetTick t s = .next s := if_pos hready

end Tick
end MemoryController

/-- Settles O46, one law per event and case. -/
theorem memoryController : Obligations.MemoryController := by
  unfold Obligations.MemoryController
  refine ⟨fun chan wait k u s hchan hvp hu => execDmcRefresh_done hchan hvp hu, fun chan wait s => execDmcRefresh_idle, fun s => rfl,
    fun dpa corrected s h => ⟨execDmcUncorrectable_fails h, execDmcUncorrectable_recovers h⟩,
    fun dpa fails corrected s => execDmcUncorrectable_outside, fun row v s => execSuspectAppend_added,
    fun row v s => execSuspectAppend_unchanged, fun s => rfl, fun t u s hready hu => ?_, fun t s => execBudgetTick_early⟩
  subst hu
  exact execBudgetTick_ticks hready

end Sys2Proof.Machine

/-! ## Accessory ports (spec/20, R381 to R384, R398; spec/24, R439) -/

namespace Sys2Proof.Machine
open Sys2Proof

variable {s : State}

section Accessory
variable {p : Pkt} {port : Fin 4}

/-! ### PWR_AX_CONFIGURE and PWR_AX_SWITCH (R381, R383, R398) -/

section Configure
variable {u : State} (ha : accepted 0x0C01 p s = true) (hu : u = entered 0x0C01 p s)
include ha hu

theorem execPwrAxConfigure_badLimit (h : p.b 0 8 5 < 5 ∨ 30 < p.b 0 8 5) :
    execPwrAxConfigure p s = .next (settled 0x0C01 (s.pktHdr 0x0C01 p) u (refuse stBadParam 0x8002)) := by
  subst hu
  exact next_runOp ha (if_pos h)

variable (hmin : 5 ≤ p.b 0 8 5) (hmax : p.b 0 8 5 ≤ 30)
include hmin hmax

theorem execPwrAxConfigure_busy (h : u.axState (p.b 0 0 2) = 1 ∨ u.axState (p.b 0 0 2) = 2) :
    execPwrAxConfigure p s = .next (settled 0x0C01 (s.pktHdr 0x0C01 p) u (refuse stState 0x8003)) := by
  subst hu
  exact next_runOp ha ((if_neg (not_or.mpr ⟨hmin.not_gt, hmax.not_gt⟩)).trans (if_pos h))

theorem execPwrAxConfigure_stored {n : Nat} (hn : n = p.b 0 0 2) (hon : u.axState n ≠ 1) (hwait : u.axState n ≠ 2) :
    execPwrAxConfigure p s = .next (settled 0x0C01 (s.pktHdr 0x0C01 p)
      ((((u.setF (PWR_AX_CFG__LIMIT n) (p.b 0 8 5)).setF (PWR_AX_CFG__RETRY_MAX n) (p.b 0 16 3)).setB
        (PWR_AX_CFG__STBY_KEEP n) (p.t 0 20)).setB (PWR_AX_CFG__AUTO_OFF n) (p.t 0 21)) ok) := by
  subst hu hn
  exact next_runOp ha ((if_neg (not_or.mpr ⟨hmin.not_gt, hmax.not_gt⟩)).trans (if_neg (not_or.mpr ⟨hon, hwait⟩)))

end Configure

/-- Port `n` is on with no retries counted; a port that was on keeps its count. -/
def State.axOn (s : State) (n : Nat) : State :=
  if s.axState n = 1 then s else (s.setF (PWR_AX_STAT__STATE n) 1).setF (PWR_AX_STAT__RETRIES n) 0

section Switch
variable {u : State} (ha : accepted 0x0C02 p s = true) (hu : u = entered 0x0C02 p s)
include ha hu

theorem execPwrAxSwitch_off (hoff : p.t 0 4 = false) :
    execPwrAxSwitch p s = .next (settled 0x0C02 (s.pktHdr 0x0C02 p) (u.axOff (p.b 0 0 2))
      (ok [(u.axOff (p.b 0 0 2)).rn (PWR_AX_STAT (p.b 0 0 2))])) := by
  subst hu
  exact next_runOp ha (if_pos hoff)

variable (hon : p.t 0 4 = true)
include hon

theorem execPwrAxSwitch_overSum (hsum : 8000 < u.axSum (p.b 0 0 2)) :
    execPwrAxSwitch p s = .next (settled 0x0C02 (s.pktHdr 0x0C02 p) u (refuse stNoResource 0x8004)) := by
  subst hu
  exact next_runOp ha ((if_neg (ne_false_of_eq_true hon)).trans (if_pos hsum))

variable (hsum : u.axSum (p.b 0 0 2) ≤ 8000)
include hsum

theorem execPwrAxSwitch_vinLow (hlow : u.on PWR_STAT__VIN_LOW = true) :
    execPwrAxSwitch p s = .next (settled 0x0C02 (s.pktHdr 0x0C02 p) u (refuse stState 0x8005)) := by
  subst hu
  exact next_runOp ha ((if_neg (ne_false_of_eq_true hon)).trans ((if_neg hsum.not_gt).trans (if_pos hlow)))

theorem execPwrAxSwitch_on (hlow : u.on PWR_STAT__VIN_LOW = false) :
    execPwrAxSwitch p s = .next (settled 0x0C02 (s.pktHdr 0x0C02 p) (u.axOn (p.b 0 0 2))
      (ok [(u.axOn (p.b 0 0 2)).rn (PWR_AX_STAT (p.b 0 0 2))])) := by
  subst hu
  exact next_runOp ha ((if_neg (ne_false_of_eq_true hon)).trans ((if_neg hsum.not_gt).trans
    (if_neg (ne_true_of_eq_false hlow))))

end Switch

/-! ### Trips and retries (R383, R384, Table 20-2) -/

/-- Port `n` has tripped: counted, logged, and no longer limiting. -/
def State.axTripped (s : State) (n : Nat) : State :=
  ((s.bumpStat (PWR_AX_FAULT_CNT n)).log .pwr evPwrAxTrip).setB (PWR_AX_STAT__LIMITING n) false

theorem execAxTrip_on {off : Bool} {u : State} (hon : s.axState port = 1) (hu : u = s.axTripped port) :
    execAxTrip port off s = .next (if off then u.axOff port else u.setF (PWR_AX_STAT__STATE port)
      (if u.f (PWR_AX_STAT__RETRIES port) < u.f (PWR_AX_CFG__RETRY_MAX port) then 2 else 3)) := by
  subst hu
  exact if_neg (not_not.mpr hon)

theorem execAxRetryExpiry_waiting (h : s.axState port = 2) :
    execAxRetryExpiry port s =
      .next ((s.setF (PWR_AX_STAT__STATE port) 1).setF (PWR_AX_STAT__RETRIES port) (s.f (PWR_AX_STAT__RETRIES port) + 1)) :=
  if_neg (not_not.mpr h)

theorem execAxRetryExpiry_other (h : s.axState port ≠ 2) : execAxRetryExpiry port s = .next s := if_pos h

section On
variable (hon : s.axState port = 1)
include hon

theorem execAxRetryReset_on : execAxRetryReset port s = .next (s.setF (PWR_AX_STAT__RETRIES port) 0) :=
  congrArg Host.Outcome.next (if_pos hon)

theorem execAxLimiting_on (above : Bool) : execAxLimiting port above s = .next (s.setB (PWR_AX_STAT__LIMITING port) above) :=
  congrArg Host.Outcome.next (if_pos hon)

theorem execAxReverseCurrent_on :
    execAxReverseCurrent port s = .next (s.modPwr (fun p => { p with axOpen := p.axOpen.set port true })) :=
  congrArg Host.Outcome.next (if_pos hon)

end On

section Other
variable (h : s.axState port ≠ 1)
include h

theorem execAxTrip_other (off : Bool) : execAxTrip port off s = .next s := if_pos h

theorem execAxRetryReset_other : execAxRetryReset port s = .next s := congrArg Host.Outcome.next (if_neg h)

theorem execAxLimiting_other (above : Bool) : execAxLimiting port above s = .next s := congrArg Host.Outcome.next (if_neg h)

theorem execAxReverseCurrent_other : execAxReverseCurrent port s = .next s := congrArg Host.Outcome.next (if_neg h)

end Other

/-! ### Loads (R382) -/

section Load
variable {present : Bool}

/-- The load of port `n` is shown, logged and tells the host. -/
def State.axLoadShown (s : State) (n : Nat) (present : Bool) : State :=
  ((s.setB (PWR_AX_STAT__LOAD n) present).log .pwr evPwrAxLoad).pwrIrq PWR_IRQ__AX

theorem execAxLoadChange_shown {u : State} (hstate : s.axState port < 2) (hload : s.on (PWR_AX_STAT__LOAD port) = !present)
    (hu : u = s.axLoadShown port present) :
    execAxLoadChange port present s =
      .next (if present = false ∧ u.on (PWR_AX_CFG__AUTO_OFF port) ∧ u.axState port = 1 then u.axOff port else u) := by
  subst hu
  exact if_neg (not_or.mpr ⟨hstate.not_ge, by simp [hload]⟩)

theorem execAxLoadChange_ignored (h : 2 ≤ s.axState port ∨ s.on (PWR_AX_STAT__LOAD port) = present) :
    execAxLoadChange port present s = .next s := if_pos h

end Load
end Accessory

/-- Settles O48, one law per opcode or event and state of the port. -/
theorem accessoryPorts : Obligations.AccessoryPorts := by
  unfold Obligations.AccessoryPorts
  refine ⟨fun p n s ha hn hmin hmax => execPwrAxConfigure_stored ha rfl hmin hmax hn,
    fun p s ha => execPwrAxConfigure_badLimit ha rfl, fun p s ha => execPwrAxConfigure_busy ha rfl,
    fun p s ha => execPwrAxSwitch_off ha rfl, fun p s ha => execPwrAxSwitch_overSum ha rfl,
    fun p s ha => execPwrAxSwitch_vinLow ha rfl, fun p u s ha hon hsum hlow hu => ?_,
    fun port off u s => execAxTrip_on, fun port s => execAxRetryExpiry_waiting, fun port s => execAxRetryExpiry_other,
    fun port above s hon => ⟨execAxRetryReset_on hon, execAxLimiting_on hon above, execAxReverseCurrent_on hon⟩, fun port s => rfl,
    fun port off above s h => ⟨execAxTrip_other h off, execAxRetryReset_other h, execAxLimiting_other h above,
      execAxReverseCurrent_other h⟩, fun port present u s => execAxLoadChange_shown, fun port present s => execAxLoadChange_ignored⟩
  subst hu
  exact execPwrAxSwitch_on ha rfl hon hsum hlow

end Sys2Proof.Machine

/-! ## Audio ports: settings, starts and stops, blocks, frames and clock faults (spec/16, R322 to R337) -/

namespace Sys2Proof.Machine
open Sys2Proof

variable {s : State}

section AudioSettings
variable {p : Pkt} {u : State}

/-! ### AUD_CONFIGURE_PORT (R322, R336, R337) -/

/-- The source that a port of `p` takes can not feed it: no such port, the port itself, or an output. -/
def State.audSourceBad (s : State) (p : Pkt) : Bool :=
  p.t 0 2 && p.b 0 8 4 != 15 && (decide (8 ≤ p.b 0 8 4) || p.b 0 8 4 == p.idx || s.audOut (p.b 0 8 4))

/-- The port that `p` names has its configuration and its ring, and of its earlier run only its channel status (log 61). -/
def State.audConfigured (s : State) (p : Pkt) : State :=
  ((((s.wn (AUD_P_CFG p.idx) (p.w 0 / 2 * 2 + 1)).wn (AUD_P_RING_LO p.idx) (p.w 2)).wn (AUD_P_RING_HI p.idx) (p.w 3)).modAp p.idx
    (fun x => { outCs := x.outCs, hostCs := x.hostCs })).commitSince s

section Configure
variable (ha : accepted 0x0900 p s = true) (hu : u = entered 0x0900 p s)
include ha hu

theorem execAudConfigurePort_busy (hbusy : u.audBusy p.idx = true) :
    execAudConfigurePort p s = .next (settled 0x0900 (s.pktHdr 0x0900 p) u (refuse stState 0x8001)) := by
  subst hu
  exact next_runOp ha (if_pos hbusy)

theorem execAudConfigurePort_stored (hidle : u.audBusy p.idx = false) (hmode : (p.t 0 3 && p.t 0 4) = false)
    (hmin : 3 ≤ p.b 0 12 4) (hmax : p.b 0 12 4 ≤ 12) (hsrc : u.audSourceBad p = false) (halign : p.q 2 % 4096 = 0)
    (hfits : p.q 2 + 2048 * 2 ^ p.b 0 12 4 ≤ u.wBytes) :
    execAudConfigurePort p s = .next (settled 0x0900 (s.pktHdr 0x0900 p) (u.audConfigured p) ok) := by
  subst hu
  exact next_runOp ha ((if_neg (ne_true_of_eq_false hidle)).trans (if_neg (not_or.mpr ⟨ne_true_of_eq_false hmode,
    not_or.mpr ⟨hmin.not_gt, not_or.mpr ⟨hmax.not_gt, not_or.mpr ⟨ne_true_of_eq_false hsrc,
      not_or.mpr ⟨not_not.mpr halign, hfits.not_gt⟩⟩⟩⟩⟩)))

end Configure

/-! ### Starts (R327, R334) -/

/-- The ports that a mask names. -/
def portsOf (mask : Nat) : List Nat := (List.range 8).filter (bitAt mask)

/-- A start of `p` waits for its generator's tick or its instant. -/
def State.startWaits (s : State) (p : Pkt) : State :=
  { s with aud := { s.aud with starts := s.aud.starts ++ [{
      mask := p.b 0 0 8, fcg := if p.b 1 0 2 = 2 then some (p.b 1 4 2) else none, time := p.w 2 * 0x100000000 + p.w 3 }] } }

section Start
variable (ha : accepted 0x0901 p s = true) (hu : u = entered 0x0901 p s) (hw : p.b 1 0 2 ≠ 3)
include ha hu hw

theorem execAudStart_busy (hbusy : (portsOf (p.b 0 0 8)).any u.audBusy = true) :
    execAudStart p s = .next (settled 0x0901 (s.pktHdr 0x0901 p) u (refuse stState 0x8003)) := by
  subst hu
  exact next_runOp ha ((if_neg hw).trans (if_pos hbusy))

theorem execAudStart_taken (hidle : (portsOf (p.b 0 0 8)).any u.audBusy = false)
    (hconf : (portsOf (p.b 0 0 8)).any (fun q => !u.on (AUD_P_CFG__CONFIGURED q)) = false) :
    execAudStart p s = .next (settled 0x0901 (s.pktHdr 0x0901 p)
      (if p.b 1 0 2 = 0 then u.audStartMask (p.b 0 0 8) else u.startWaits p) ok) := by
  subst hu
  refine next_runOp ha ((if_neg hw).trans ((if_neg (ne_true_of_eq_false hidle)).trans
    ((if_neg (ne_true_of_eq_false hconf)).trans ?_)))
  by_cases now : p.b 1 0 2 = 0
  · rw [if_pos now, if_pos now]
  · rw [if_neg now, if_neg now]
    rfl

end Start

/-! ### Stops, channel status and the report (R324, R337) -/

/-- No waiting start names port `q`. -/
def State.startsLeft (s : State) (q : Nat) : State :=
  { s with aud := { s.aud with starts := s.aud.starts.map (fun (x : AudStart) =>
      if bitAt x.mask q then { x with mask := x.mask - 2 ^ q } else x) } }

section Stop
variable (ha : accepted 0x0902 p s = true) (hu : u = entered 0x0902 p s)
include ha hu

theorem execAudStop_running (hrun : u.on (AUD_P_STAT__RUN p.idx) = true) :
    execAudStop p s = .next (u.modAp p.idx (fun x => { x with stopping := some (s.pktHdr 0x0902 p) })) := by
  subst hu
  exact next_runOp_none ha (if_pos hrun)

theorem execAudStop_stopped (hrun : u.on (AUD_P_STAT__RUN p.idx) = false) :
    execAudStop p s = .next (settled 0x0902 (s.pktHdr 0x0902 p) ((u.startsLeft p.idx).audHalt p.idx) ok) := by
  subst hu
  exact next_runOp ha (if_neg (ne_true_of_eq_false hrun))

end Stop

theorem execAudSetChstatus_stored (ha : accepted 0x0903 p s = true) (hu : u = entered 0x0903 p s)
    (h : (u.on (AUD_P_CFG__AES3 p.idx) && u.audOut p.idx && u.audHost p.idx) = true) :
    execAudSetChstatus p s = .next (settled 0x0903 (s.pktHdr 0x0903 p)
      (u.modAp p.idx (fun x => { x with hostCs := some ((List.range 12).flatMap (fun i => leBytes 4 (p.w i))) })) ok) := by
  subst hu
  exact next_runOp ha (if_neg (ne_false_of_eq_true h))

/-- The seven words of AUD_STATUS for port `q`. -/
def State.audReport (s : State) (q : Nat) : List Nat :=
  [s.rn (AUD_P_CFG q), s.rn (AUD_P_STAT q), s.rn (AUD_P_ERR q), s.rn (AUD_P_RATE_PPM q), s.rn (AUD_P_BLOCK q),
    s.rn (AUD_P_LAST_NS q), s.rn (AUD_P_UNDER_CNT q)]

theorem execAudStatus_answers (ha : accepted 0x0904 p s = true) :
    execAudStatus p s = .next (settled 0x0904 (s.pktHdr 0x0904 p) s (ok (s.audReport p.idx))) :=
  next_runOp_fast rfl ha rfl

end AudioSettings

/-- Settles O39, one law per opcode and state of the port. -/
theorem audioSettings : Obligations.AudioSettings := by
  unfold Obligations.AudioSettings
  refine ⟨fun p u s ha hidle hmode hmin hmax hsrc halign hfits hu => ?_, fun p s ha => execAudConfigurePort_busy ha rfl,
    fun p s ha => execAudStart_taken ha rfl, fun p s ha => execAudStart_busy ha rfl, fun s => rfl,
    fun p s ha => execAudStop_running ha rfl, fun p s ha => execAudStop_stopped ha rfl,
    fun p s ha => execAudSetChstatus_stored ha rfl, fun p s => execAudStatus_answers⟩
  subst hu
  exact execAudConfigurePort_stored ha rfl hidle hmode hmin hmax hsrc halign hfits

section AudioRuns
variable {port : Fin 8}

/-! ### Block boundaries (R324 to R328, R331 to R333, R335) -/

section Boundary
variable {ppm : Int}

theorem execAudBlockBoundary_armed (h : (s.ap port).armed = true) :
    execAudBlockBoundary port ppm s = .next (s.audRun port) := if_pos h

/-- The deviation that an external clock's block showed is kept. -/
def State.rateNoted (s : State) (q : Nat) (ppm : Int) : State :=
  if s.audExt q then s.wn (AUD_P_RATE_PPM q) (ofInt 32 ppm) else s

/-- How many blocks in a row have kept within 500 ppm, after one that deviates by `ppm`. -/
def steadyBlocks (n : Nat) (ppm : Int) : Nat := if -500 ≤ ppm ∧ ppm ≤ 500 then n + 1 else 0

/-- A rate-muted port counts its steady blocks and is unmuted after the second (R335). -/
def State.unmuteTowards (s : State) (q n : Nat) (ppm : Int) : State :=
  (s.modAp q (fun x => { x with rateMute := if 2 ≤ steadyBlocks n ppm then none else some (steadyBlocks n ppm) })).showMute q

section Running
variable {u : State} (harm : (s.ap port).armed = false) (hrun : s.on (AUD_P_STAT__RUN port) = true) (hu : u = s.endBlock port)
include harm hrun hu

theorem execAudBlockBoundary_stops (hstop : (u.ap port).stopping.isSome = true) :
    execAudBlockBoundary port ppm s = .next (u.audHalt port) := by
  subst hu
  exact (if_neg (ne_true_of_eq_false harm)).trans ((if_neg (ne_false_of_eq_true hrun)).trans (if_pos hstop))

variable {v : State} (hgo : (u.ap port).stopping = none) (hv : v = u.rateNoted port ppm)
include hgo hv

theorem execAudBlockBoundary_goesOn (hmute : (v.ap port).rateMute = none) :
    execAudBlockBoundary port ppm s = .next (v.beginBlock port (((v.ap port).k + 1) % 0x100000000)) := by
  subst hu hv
  unfold State.rateNoted at *
  refine (if_neg (ne_true_of_eq_false harm)).trans ((if_neg (ne_false_of_eq_true hrun)).trans ((if_neg (by simp [hgo])).trans ?_))
  simp only [hmute]

theorem execAudBlockBoundary_muted {n : Nat} {w : State} (hmute : (v.ap port).rateMute = some n)
    (hw : w = v.unmuteTowards port n ppm) :
    execAudBlockBoundary port ppm s = .next (w.beginBlock port (((w.ap port).k + 1) % 0x100000000)) := by
  subst hw hu hv
  unfold State.rateNoted at *
  refine (if_neg (ne_true_of_eq_false harm)).trans ((if_neg (ne_false_of_eq_true hrun)).trans ((if_neg (by simp [hgo])).trans ?_))
  simp only [hmute]
  rfl

end Running
end Boundary

/-! ### Fetching (R331) -/

section Fetch
variable (hout : s.audOut port = true) (hhost : s.audHost port = true) (hf : (s.ap port).fetched = none)
include hout hhost hf

theorem State.playFetch_wanted : ¬ (s.audOut port = false ∨ s.audHost port = false ∨ (s.ap port).fetched.isSome = true) := by
  simp [hout, hhost, hf]

theorem execPlayFetch_next (hrun : s.on (AUD_P_STAT__RUN port) = true) :
    execPlayFetch port s = .next (s.playFetch port (((s.ap port).k + 1) % 0x100000000)) :=
  (if_neg (State.playFetch_wanted hout hhost hf)).trans (if_pos hrun)

theorem execPlayFetch_first (hrun : s.on (AUD_P_STAT__RUN port) = false)
    (hdue : (s.ap port).armed = true ∨ s.aud.starts.any (fun x => bitAt x.mask port.val) = true) :
    execPlayFetch port s = .next (s.playFetch port 0) :=
  (if_neg (State.playFetch_wanted hout hhost hf)).trans ((if_neg (ne_true_of_eq_false hrun)).trans (if_pos hdue))

end Fetch

/-! ### Frames (R323, R324, R328 to R330, R332, R333, R335) -/

section Frame
variable {a b : W32} {full : Bool}

/-- The frame that two slots spell, as AES3 or as I²S. -/
def State.slotsFrame (s : State) (q : Nat) (a b : W32) : AudFrame :=
  if s.on (AUD_P_CFG__AES3 q) then ⟨aesSub a.toNat, aesSub b.toNat⟩ else ⟨i2sSub a.toNat, i2sSub b.toNat⟩

/-- A frame of port `q` is recorded as zeros. -/
def State.frameZeroed (s : State) (q : Nat) (full : Bool) : Bool :=
  full || (s.ap q).glitched || (s.ap q).rateMute.isSome || s.on (AUD_P_STAT__HOLDOVER q)

/-- A full FIFO is an error of port `q` and of its block. -/
def State.overrunFlagged (s : State) (q : Nat) (full : Bool) : State :=
  if full then (s.audErr q (AUD_P_ERR__OVERRUN q)).audFlag q 2 else s

/-- The first frame of an overrun is counted and logged. -/
def State.overrunLogged (s : State) (q : Nat) (first : Bool) : State :=
  if first then (s.bumpStat (AUD_P_OVR_CNT q)).log .aud evAudOverrun (audTarget q) (s.ap q).k else s

/-- How many parity errors a frame that is not zeroed shows. -/
def parityErrors (f : AudFrame) (zero : Bool) : Nat := if zero then 0 else b2n f.a.p + b2n f.b.p

/-- Parity errors of port `q` are shown and counted. -/
def State.parityNoted (s : State) (q n : Nat) : State :=
  if n = 0 then s else ((s.audErr q (AUD_P_ERR__PARITY q)).audFlag q 8).bumpStat (AUD_P_PARITY_CNT q) n

/-- A frame reaches the monitors and the block of port `q`. -/
def State.frameKept (s : State) (q : Nat) (kept : AudFrame) (zero full : Bool) : State :=
  (s.monitor q kept).modAp q (fun x => { x with frames := x.frames ++ [kept], zeros := x.zeros + b2n zero, ovr := full })

/-- Port `q` has noted what is wrong with frame `f` and keeps it, or zeros. -/
def State.frameTaken (s : State) (q : Nat) (f : AudFrame) (zero full : Bool) : State :=
  (((s.overrunFlagged q full).overrunLogged q (full && !(s.ap q).ovr)).parityNoted q (parityErrors f zero)).frameKept q
    (if zero then {} else f) zero full

theorem execAudFrameIn_ignored
    (h : s.on (AUD_P_STAT__RUN port) = false ∨ s.audOut port = true ∨ 192 ≤ (s.ap port).frames.length) :
    execAudFrameIn port a b full s = .next s := if_pos h

theorem execAudFrameIn_taken {f : AudFrame} {zero : Bool} (hrun : s.on (AUD_P_STAT__RUN port) = true)
    (hout : s.audOut port = false) (hroom : (s.ap port).frames.length < 192) (hf : f = s.slotsFrame port a b)
    (hz : zero = s.frameZeroed port full) :
    execAudFrameIn port a b full s = .next
      (if s.on (AUD_P_CFG__AES3 port) = true ∧ (s.ap port).frames.length = 1 ∧ zero = false then
        (s.frameTaken port f zero full).nonAudioAt port f
      else s.frameTaken port f zero full) := by
  subst hz hf
  have taken : ¬ (s.on (AUD_P_STAT__RUN port) = false ∨ s.audOut port = true ∨ 192 ≤ (s.ap port).frames.length) := by
    simp [hrun, hout, hroom]
  refine (if_neg taken).trans ?_
  cases aes : s.on (AUD_P_CFG__AES3 port) with
  | true =>
    simp only [State.slotsFrame, aes, if_true]
    rfl
  | false =>
    simp only [State.slotsFrame, aes, Bool.false_eq_true, if_false]
    rfl

end Frame

/-! ### Clock faults (R335) -/

section Clock

/-- The clock of port `q` has stopped: HOLDOVER, shown, flagged and logged. -/
def State.heldOver (s : State) (q : Nat) : State :=
  ((((s.setB (AUD_P_STAT__HOLDOVER q) true).setB (AUD_P_STAT__SIGNAL q) false).audErr q (AUD_P_ERR__HOLDOVER q)).audFlag q 4).log
    .aud evAudHoldover (audTarget q) (s.ap q).k

theorem execHoldoverExit_eq (port : Fin 8) (s : State) :
    execHoldoverExit port s = .next (if s.on (AUD_P_STAT__HOLDOVER port) then
      (s.setB (AUD_P_STAT__HOLDOVER port) false).setB (AUD_P_STAT__SIGNAL port) true else s) :=
  (apply_ite Host.Outcome.next _ _ _).symm

section Stopped
variable (hrun : s.on (AUD_P_STAT__RUN port) = false)
include hrun

theorem execAudClockStop_stopped : execAudClockStop port s = .next s := if_pos (.inl hrun)

theorem execAudGlitch_stopped : execAudGlitch port s = .next s := if_pos (.inl hrun)

theorem execAudRateChange_stopped : execAudRateChange port s = .next s := if_pos (.inl hrun)

end Stopped

/-- An output shows that it is muted (log 109). -/
def State.mutedShown (s : State) (q : Nat) : State := if s.audOut q then s.emit (.audioMuted q) else s

section External
variable (hrun : s.on (AUD_P_STAT__RUN port) = true) (hext : s.audExt port = true)
include hrun hext

theorem execAudClockStop_heldOver (hold : s.on (AUD_P_STAT__HOLDOVER port) = false) :
    execAudClockStop port s = .next (s.heldOver port) :=
  if_neg (by simp [hrun, hext, hold])

theorem execAudGlitch_marked {u : State}
    (hu : u = ((s.modAp port (fun q => { q with glitched := true })).bumpStat (AUD_P_GLITCH_CNT port)).mutedShown port) :
    execAudGlitch port s =
      .next (((u.audErr port (AUD_P_ERR__GLITCH port)).audFlag port 5).log .aud evAudGlitch (audTarget port) (u.ap port).k) := by
  subst hu
  exact if_neg (by simp [hrun, hext])

theorem execAudRateChange_muted {ppm : Int} (hppm : ppm = sext 32 (s.rn (AUD_P_RATE_PPM port)))
    (hfar : ppm < -1000 ∨ 1000 < ppm) {u : State}
    (hu : u = ((((s.modAp port (fun q => { q with rateMute := some 0 })).showMute port).mutedShown port).audErr port
      (AUD_P_ERR__RATE_ERR port)).audFlag port 6) :
    execAudRateChange port s =
      .next (if (s.ap port).rateMute.isNone then u.log .aud evAudRateErr (audTarget port) (ofInt 32 ppm) else u) := by
  subst hu hppm
  have far : ¬ (-1000 ≤ sext 32 (s.rn (AUD_P_RATE_PPM port)) ∧ sext 32 (s.rn (AUD_P_RATE_PPM port)) ≤ 1000) := by omega
  exact if_neg (not_or.mpr ⟨ne_false_of_eq_true hrun, not_or.mpr ⟨ne_false_of_eq_true hext, far⟩⟩)

end External
end Clock
end AudioRuns

/-- Settles O40, one law per event and state of the port. -/
theorem audioRuns : Obligations.AudioRuns := by
  unfold Obligations.AudioRuns
  refine ⟨fun port ppm s => execAudBlockBoundary_armed, fun port ppm u s => execAudBlockBoundary_stops,
    fun port ppm u v s harm hrun hu hgo => execAudBlockBoundary_goesOn harm hrun hu hgo,
    fun port ppm n u v w s harm hrun hu hgo hv => execAudBlockBoundary_muted harm hrun hu hgo hv,
    fun port s => execPlayFetch_next, fun port s => execPlayFetch_first,
    fun port a b full zero f kept par u v w s hrun hout hroom hf hz hu hv hpar hw hkept => ?_,
    fun port a b full s => execAudFrameIn_ignored, fun port s => execAudClockStop_heldOver, execHoldoverExit_eq,
    fun port t u s hrun hext ht hu => ?_, fun port ppm t u s hrun hext hppm hfar ht hu => ?_,
    fun port s hrun => ⟨execAudClockStop_stopped hrun, execAudGlitch_stopped hrun, execAudRateChange_stopped hrun⟩⟩
  · have taken : (w.monitor port kept).modAp port (fun q => { q with
        frames := q.frames ++ [kept], zeros := q.zeros + b2n zero, ovr := full }) = s.frameTaken port f zero full := by
      subst hkept hw hpar hv hu
      rfl
    rw [exec_audFrameIn, execAudFrameIn_taken hrun hout hroom hf hz, ← taken]
  · subst ht
    exact execAudGlitch_marked hrun hext hu
  · subst ht
    exact execAudRateChange_muted hrun hext hppm hfar hu

end Sys2Proof.Machine

/-! ## Composers: latches, frame starts, fences and write-back holds (spec/14, R288 to R303; spec/15, R309 to R316) -/

namespace Sys2Proof.Machine
open Sys2Proof

variable {s : State}

section CompositionRuns

/-! ### CMP_LATCH (R288, R292, R295) -/

section Latch
variable {composer : Fin 4} {line : BitVec 16} {torn : BitVec 8}

section Undriven
variable (hg : s.tgOf composer = none)
include hg

theorem execCmpLatch_due (hdue : (s.cmpU composer).due = true) :
    execCmpLatch composer line torn s = .next ((s.finishFrame composer torn).1.latchNow composer 0) := by
  simp only [execCmpLatch, hg, hdue, if_true]

theorem execCmpLatch_notDue (hdue : (s.cmpU composer).due = false) : execCmpLatch composer line torn s = .next s := by
  simp only [execCmpLatch, hg, hdue, Bool.false_eq_true, if_false]

end Undriven

/-- Line `v` ahead of the frame lies outside generator `t`'s soft range, and no line is fixed. -/
def State.outOfRange (s : State) (t v : Nat) : Bool :=
  (s.fixedBlank t).isNone && (v < (s.tg t).soft.vmin || (s.tg t).soft.vmax < v)

/-- A set generator in blanking takes the latch row. -/
theorem State.blanking_open {t : Nat} (hset : (s.tg t).set = true) (hblank : (s.tg t).blank.isSome = true) :
    ¬ ((s.tg t).set = false ∨ (s.tg t).blank.isNone = true) := by
  simp [hset, Option.isSome_iff_ne_none.mp hblank]

section Driven
variable {t : Nat} (hg : s.tgOf composer = some t)
include hg

theorem execCmpLatch_unset (h : (s.tg t).set = false ∨ (s.tg t).blank.isNone = true) :
    execCmpLatch composer line torn s = .next s := by
  simp only [execCmpLatch, hg]
  exact if_pos h

variable (hset : (s.tg t).set = true) (hblank : (s.tg t).blank.isSome = true)
include hset hblank

theorem execCmpLatch_fixed {v : Nat} {slip : Bool} (hv : s.fixedBlank t = some (v, slip)) :
    execCmpLatch composer line torn s =
      .next (if line.toNat + 4 = v then s.latchDriven composer t v slip else s) := by
  simp only [execCmpLatch, hg, hv]
  refine (if_neg (State.blanking_open hset hblank)).trans ?_
  by_cases atLine : line.toNat + 4 = v
  · rw [if_pos atLine, if_pos atLine, atLine]
  · rw [if_neg atLine, if_neg atLine]

variable (hv : s.fixedBlank t = none)
include hv

theorem execCmpLatch_outOfRange (h : line.toNat + 4 < (s.tg t).soft.vmin ∨ (s.tg t).soft.vmax < line.toNat + 4) :
    execCmpLatch composer line torn s = .next s := by
  simp only [execCmpLatch, hg, hv]
  exact (if_neg (State.blanking_open hset hblank)).trans (if_pos h)

variable (hmin : (s.tg t).soft.vmin ≤ line.toNat + 4)
include hmin

theorem execCmpLatch_ready (hmax : line.toNat + 4 ≤ (s.tg t).soft.vmax)
    (h : s.allReady composer = true ∨ line.toNat + 4 = (s.tg t).soft.vmax) :
    execCmpLatch composer line torn s = .next (s.latchDriven composer t (line.toNat + 4) false) := by
  have latches : ¬ (s.allReady composer = false ∧ line.toNat + 4 < (s.tg t).soft.vmax) :=
    fun c => h.elim (ne_true_of_eq_false c.1) c.2.ne
  simp only [execCmpLatch, hg, hv]
  exact (if_neg (State.blanking_open hset hblank)).trans ((if_neg (not_or.mpr ⟨hmin.not_gt, hmax.not_gt⟩)).trans (if_neg latches))

theorem execCmpLatch_waits (hmax : line.toNat + 4 < (s.tg t).soft.vmax) (h : s.allReady composer = false) :
    execCmpLatch composer line torn s = .next (s.setB (CMP_C_STAT__WAITING composer) true) := by
  simp only [execCmpLatch, hg, hv]
  exact (if_neg (State.blanking_open hset hblank)).trans ((if_neg (not_or.mpr ⟨hmin.not_gt, hmax.le.not_gt⟩)).trans
    (if_pos ⟨h, hmax⟩))

end Driven

/-- The row of a driven composer can not latch: its generator is not set or not in blanking, or the line is out of range. -/
def State.latchClosed (s : State) (v t : Nat) : Bool :=
  (s.tg t).set = false || (s.tg t).blank.isNone || s.outOfRange t v

theorem execCmpLatch_closed {t : Nat} (hg : s.tgOf composer = some t) (h : s.latchClosed (line.toNat + 4) t = true) :
    execCmpLatch composer line torn s = .next s := by
  unfold State.latchClosed State.outOfRange at h
  simp only [Bool.or_eq_true, Bool.and_eq_true, decide_eq_true_eq, Option.isNone_iff_eq_none] at h
  by_cases hopen : (s.tg t).set = false ∨ (s.tg t).blank = none
  · exact execCmpLatch_unset hg (hopen.imp id Option.isNone_iff_eq_none.mpr)
  · obtain ⟨hv, hrange⟩ := h.resolve_left hopen
    obtain ⟨hset, hblank⟩ := not_or.mp hopen
    exact execCmpLatch_outOfRange hg (Bool.not_eq_false _ ▸ hset) (Option.isSome_iff_ne_none.mpr hblank) hv hrange

end Latch

/-! ### VBLANK_START (R309, R310, R312, R314 to R316) -/

section Blanking
variable {t : Fin 4} {phase : W32} {torn : BitVec 8}

/-- Blanking of generator `t` begins: the frame counted, the phase judged, a waiting setting taken and enabling ports brought up. -/
def State.blankingBegun (s : State) (t : Nat) (phase : W32) : State :=
  let v := (((s.modTg t (fun g => { g with blank := some (g.active + g.vactive) })).bumpEvt .dsp (DSP_TG_FRAME_CNT t)).judgePhase t
    (sext 32 phase.toNat)).modTg t TgSt.takeNext
  (v.showTg t).portsUp t

/-- The latch that a generator without a composer makes alone when it is still in blanking. -/
def State.latchedAlone (s : State) (t : Nat) : State :=
  if (s.tg t).blank.isSome then
    s.latchAlone t ((s.fixedBlank t).getD ((s.tg t).soft.vmin, false)).1 ((s.fixedBlank t).getD ((s.tg t).soft.vmin, false)).2
  else s

/-- Generator `t` sends a frame that no composer made. -/
def State.sendBlank (s : State) (t : Nat) : State := s.sendFrame t 0 ((s.tg t).tcWord (s.tg t).tc) none

/-- Generator `t` sends the frame that its composer `n` has in progress, or one that no composer made. -/
def State.sendComposed (s : State) (t n : Nat) (torn : BitVec 8) : State :=
  match (s.cmpU n).frame with
  | some f => (s.finishFrame n torn).1.sendFrame t f.cfn f.tc
      (if (s.cmpU n).live.isSome then some (s.finishFrame n torn).2 else none)
  | none => s.sendBlank t

theorem execVblankStart_ignored
    (h : (s.tg t).set = false ∨ (s.tg t).blank.isSome = true ∧ (s.cmpOf t).isSome = true) :
    execVblankStart t phase torn s = .next s := if_pos h

variable (hset : (s.tg t).set = true)
include hset

theorem execVblankStart_alone (hc : s.cmpOf t = none) {x : State} (hx : x = s.latchedAlone t) (hcx : x.cmpOf t = none) :
    execVblankStart t phase torn s = .next ((x.sendBlank t).blankingBegun t phase) := by
  subst hx
  unfold State.latchedAlone at *
  refine (if_neg (by simp [hset, hc])).trans ?_
  cases hb : (s.tg t).blank.isSome with
  | false =>
    rw [hb] at hcx
    simp only [Bool.false_eq_true, if_false] at hcx ⊢
    simp only [hcx]
    rfl
  | true =>
    rw [hb] at hcx
    cases hf : s.fixedBlank t with
    | none =>
      simp only [hf, if_true, Option.getD_none] at hcx ⊢
      simp only [hcx]
      rfl
    | some v =>
      simp only [hf, if_true, Option.getD_some] at hcx ⊢
      simp only [hcx]
      rfl

theorem execVblankStart_composed {n : Nat} (hb : (s.tg t).blank = none) (hc : s.cmpOf t = some n) :
    execVblankStart t phase torn s = .next ((s.sendComposed t n torn).blankingBegun t phase) := by
  refine (if_neg (by simp [hset, hb])).trans ?_
  unfold State.sendComposed
  simp only [hb, hc, Option.isSome_none, Bool.false_eq_true, if_false]
  cases (s.cmpU n).frame <;> rfl

end Blanking

/-! ### Fences (R59, R63, R294, R296) -/

section Fences

theorem execSnpinv_stored {line : BitVec 58} {b : List Byte} (hup : s.cxl.up = true) (hlink : s.cxl.fallback = false)
    (hline : s.fenceNamed.contains line.toNat = true) :
    execSnpinv line (.bytes b) s = .next (s.holdFence line.toNat b).evalFences :=
  if_neg (not_or.mpr ⟨ne_false_of_eq_true hup, not_or.mpr ⟨ne_true_of_eq_false hlink, ne_false_of_eq_true hline⟩⟩)

/-- What the device holds of a fence line, zeros before it has been read. -/
def State.heldLine (s : State) (line : Nat) : List Byte :=
  ((s.cmp.fence.find? (fun f => f.1 == line)).map (fun f => f.2)).getD (List.replicate 64 0)

theorem execFencePoll_stored {addr : BitVec 64} {b old : List Byte} (hup : s.cxl.up = true) (hlink : s.cxl.fallback = true)
    (hline : s.fenceNamed.contains (addr.toNat / 64) = true) (hold : old = s.heldLine (addr.toNat / 64)) :
    execFencePoll addr (.bytes b) s = .next (s.holdFence (addr.toNat / 64)
      (old.take (addr.toNat % 64) ++ padBytes 8 b ++ old.drop (addr.toNat % 64 + 8))).evalFences := by
  subst hold
  exact if_neg (not_or.mpr ⟨ne_false_of_eq_true hup, not_or.mpr ⟨ne_false_of_eq_true hlink, ne_false_of_eq_true hline⟩⟩)

/-- A flip abandoned at its fence's time limit is released, counted and shown as an error. -/
def State.fenceGivenUp (s : State) (n l : Nat) (f : Flip) : State :=
  ((s.release n l f.rel).bumpStat (CMP_C_FTMO_CNT n)).cmpErr n CMP_C_ERR__FENCE_TMO

theorem execFenceTimeout_abandons {composer : Fin 4} {layer : Fin 8} {tag : BitVec 16} {f : Flip} {u : State}
    (hf : s.takeStuck composer layer (Flip.stuck tag.toNat) = (some f, u)) :
    execFenceTimeout composer layer tag s = .next (((u.fenceGivenUp composer layer f).log .cmp evCmpFenceTmo (cmpTarget composer)
      composer layer f.tag).showFlips composer layer) := by
  simp only [execFenceTimeout, hf]
  rfl

end Fences
end CompositionRuns

/-- Settles O37, one law per event and state of the composer, the generator or the fence. -/
theorem compositionRuns : Obligations.CompositionRuns := by
  unfold Obligations.CompositionRuns
  refine ⟨fun composer line torn s => execCmpLatch_due, fun composer line torn t v slip s hg hset hblank => execCmpLatch_fixed hg hset hblank,
    fun composer line torn s h => ?_, fun composer line torn t s => execCmpLatch_ready,
    fun composer line torn t s => execCmpLatch_waits, fun t phase torn x u v s hset hc hx hcx hu hv => ?_,
    fun t phase torn n r u v s hset hb hc hr hu hv => ?_, fun t phase torn s => execVblankStart_ignored,
    fun line b s => execSnpinv_stored, fun addr b old s => execFencePoll_stored,
    fun composer layer tag f u v s hf hv => ?_, fun composer v s => rfl⟩
  · rcases h with ⟨hg, hdue⟩ | h
    · exact execCmpLatch_notDue hg hdue
    · obtain ⟨t, hg, hclosed⟩ := (Option.any_eq_true _ _).mp h
      exact execCmpLatch_closed hg hclosed
  · subst hv hu
    exact execVblankStart_alone hset hc hx hcx
  · subst hv hu hr
    exact execVblankStart_composed hset hb hc
  · subst hv
    exact execFenceTimeout_abandons hf

end Sys2Proof.Machine

/-! ## Composition settings, commits and flips (spec/14, R285 to R308) -/

namespace Sys2Proof.Machine
open Sys2Proof

variable {s : State}

section CompositionSets
variable {p : Pkt}

/-! ### CMP_CONFIGURE_LAYER (R59, R296, R299, R304, R308) -/

section Layer

/-- The settings that a packet gives a layer, with its table `lut`. -/
def layerOf (p : Pkt) (lut : Option (List Nat)) : LayerCfg :=
  { en := p.t 0 4, src := p.b 0 5 2, pack := p.b 0 8 4, solid := p.t 0 12, premult := p.t 0 13, crcEn := p.t 0 14
    matrix := p.b 0 15 1, range := p.b 0 16 1, tapEng := p.b 0 17 2, tapCtx := p.b 0 20 3, sw := p.b 1 0 16, sh := p.b 1 16 16
    dx := p.b 2 0 16, dy := p.b 2 16 16, dw := p.b 3 0 16, dh := p.b 3 16 16, galpha := p.b 4 0 16, ftmo := p.b 4 16 16
    race := p.b 5 0 14, acq := p.q 6, rel := p.q 8, lut := lut }

/-- The shadow set of composer `n` has `g` as its layer `l`. -/
def State.shadowLayerSet (s : State) (n l : Nat) (g : LayerCfg) : State :=
  s.modCmp n (fun u => { u with shadow := u.shadow.set l g })

/-- The fence lines named by every layer but layer `l` of composer `n`, which is to be `g`. -/
def State.otherFences (s : State) (n l : Nat) (g : LayerCfg) : List Nat :=
  (s.shadowLayerSet n l { g with acq := 0 }).fenceNamed

/-- What a newly named fence line holds is kept, or its failed read reported (R59). -/
def State.fenceTaken (s : State) (p : Pkt) (g : LayerCfg) (others : List Nat) : State :=
  if g.acq ≠ 0 ∧ s.cxl.fallback = false ∧ others.contains (g.acq / 64) = false then
    match p.buf with
    | .bytes b => s.holdFence (g.acq / 64) b
    | .failed _ _ => s.hostError .cmp p.buf
  else s

/-- The fences are judged, and lines that no layer names are forgotten. -/
def State.fencesKept (s : State) : State :=
  let x := s.evalFences
  { x with cxl := { x.cxl with fenceLines := s.fenceNamed }
           cmp := { x.cmp with fence := x.cmp.fence.filter (fun f => s.fenceNamed.contains f.1) } }

/-- The fields of a packet that give a layer `g` are in range, and a fence line is left for it. -/
structure LayerSound (p : Pkt) (g : LayerCfg) (others : List Nat) : Prop where
  bit7 : p.t 0 7 = false
  bit19 : p.t 0 19 = false
  high : p.b 0 23 9 = 0
  source : g.src ≠ 3
  tap : g.tapCtx ≤ 5
  timeout : g.ftmo ≠ 0
  race : g.src = 2 → 64 ≤ g.race ∧ g.race ≤ 8192 ∧ g.race % 64 = 0
  line : g.acq = 0 ∨ others.contains (g.acq / 64) = true ∨ others.length < 256

theorem execCmpConfigureLayer_stored {l : Nat} {g : LayerCfg} {others : List Nat} {u : State} (ha : accepted 0x0700 p s = true)
    (hu : u = entered 0x0700 p s) (hl : l = p.b 0 0 4) (hl8 : l < 8)
    (hg : g = layerOf p ((u.cmpU p.idx).shadowLayer l).lut) (ho : others = u.otherFences p.idx l g) (h : LayerSound p g others) :
    execCmpConfigureLayer p s = .next (settled 0x0700 (s.pktHdr 0x0700 p)
      ((u.shadowLayerSet p.idx l g).fenceTaken p g others).fencesKept ok) := by
  subst ho hg hl hu
  have fields : ¬ (p.t 0 7 = true ∨ p.t 0 19 = true ∨ p.b 0 23 9 ≠ 0 ∨ p.b 0 5 2 = 3 ∨ 5 < p.b 0 20 3) :=
    not_or.mpr ⟨ne_true_of_eq_false h.bit7, not_or.mpr ⟨ne_true_of_eq_false h.bit19, not_or.mpr ⟨not_not.mpr h.high,
      not_or.mpr ⟨h.source, h.tap.not_gt⟩⟩⟩⟩
  have race : ¬ (p.b 0 5 2 = 2 ∧ (p.b 5 0 14 < 64 ∨ 8192 < p.b 5 0 14 ∨ p.b 5 0 14 % 64 ≠ 0)) := by
    rintro ⟨hsrc, hbad⟩
    obtain ⟨hmin, hmax, hmul⟩ := h.race hsrc
    exact hbad.elim hmin.not_gt (fun c => c.elim hmax.not_gt (not_not.mpr hmul))
  refine next_runOp ha ((if_neg (by omega)).trans ((if_neg hl8.ne).trans ((if_neg fields).trans ((if_neg h.timeout).trans
    ((if_neg race).trans ((if_neg (fun c => ?_)).trans ?_))))))
  · obtain ⟨hacq, hnew, hfull⟩ := c
    exact h.line.elim hacq (fun k => k.elim (ne_true_of_eq_false hnew) (Nat.not_lt.mpr hfull))
  · rfl

theorem execCmpConfigureLayer_rind {t : State} {o : Outc} (ha : accepted 0x0700 p s = true) (hl : p.b 0 0 4 = 8)
    (hw : p.b 0 4 18 = 0) (hz : (List.range 11).find? (fun i => p.w (i + 1) != 0) = none)
    (hr : (entered 0x0700 p s).rindSelect p.idx (p.b 0 24 8) (p.b 0 22 2) = (t, some o)) :
    execCmpConfigureLayer p s = .next (settled 0x0700 (s.pktHdr 0x0700 p) t o) := by
  refine next_runOp ha ((if_neg (by omega)).trans ((if_pos hl).trans ((if_neg (not_not.mpr hw)).trans ?_)))
  simp only [hz]
  exact hr

end Layer

/-! ### Tables (R289 to R291, R308) -/

section Table
variable {u : State} (ha : accepted 0x0701 p s = true) (hu : u = entered 0x0701 p s) (hr : u.refOk (p.ref 4) = true)
include ha hu hr

theorem execCmpLoadLut_badLength (hl : p.b 0 0 4 ≤ 7) (hlen : (p.ref 4).len ≠ 2048) :
    execCmpLoadLut p s = .next (settled 0x0701 (s.pktHdr 0x0701 p) u (refuse stBadParam 0x8004)) := by
  subst hu
  refine next_runOp ha (State.refGuard_badParam hr ((if_neg (by omega)).trans (if_pos ?_)))
  rwa [if_neg (by omega)]

variable {bs : List Byte} (hset : (u.cmpU p.idx).set = none) (hbs : u.readRef (p.ref 4) p.buf = some bs)
include hset hbs

theorem execCmpLoadLut_layer (hl : p.b 0 0 4 ≤ 7) (hlen : (p.ref 4).len = 2048) :
    execCmpLoadLut p s = .next (settled 0x0701 (s.pktHdr 0x0701 p)
      ((u.modCmp p.idx (fun c => { c with
        shadow := c.shadow.set (p.b 0 0 4) { c.shadowLayer (p.b 0 0 4) with lut := some (halfWords bs) } })).refUse (p.ref 4)) ok) := by
  subst hu
  have notPost : p.b 0 0 4 ≠ 15 := by omega
  refine next_runOp ha (State.refGuard_ok hr ((if_neg (by omega)).trans ((if_neg ?_).trans ((if_neg (by simp [hset])).trans ?_))))
  · rw [if_neg notPost]
    exact not_not.mpr hlen
  · simp only [hbs, if_neg notPost]

theorem execCmpLoadLut_post (hl : p.b 0 0 4 = 15) (hlen : (p.ref 4).len = 24576) :
    execCmpLoadLut p s = .next (settled 0x0701 (s.pktHdr 0x0701 p)
      ((u.modCmp p.idx (fun c => { c with shadowPost := some (halfWords bs) })).refUse (p.ref 4)) ok) := by
  subst hu
  refine next_runOp ha (State.refGuard_ok hr ((if_neg (by omega)).trans ((if_neg ?_).trans ((if_neg (by simp [hset])).trans ?_))))
  · rw [if_pos hl]
    exact not_not.mpr hlen
  · simp only [hbs, if_pos hl]

end Table

/-! ### Write-back and the Rind's report (R176, R302, R308) -/

section WriteBack
variable {u : State} (ha : accepted 0x0704 p s = true) (hu : u = entered 0x0704 p s)
include ha hu

/-- The write-back that a packet asks for. -/
def writeBackOf (p : Pkt) : WbCfg :=
  { en := p.t 0 0, oneshot := p.t 0 1, pack := p.b 0 2 4, matrix := p.b 0 8 1, range := p.b 0 9 1, nbuf := p.b 0 16 4
    stride := p.w 1 * 4096, base := p.q 2 }

theorem execCmpSetWriteback_stored {g : WbCfg} (hg : g = writeBackOf p) (hpack : g.pack ≤ 2)
    (hen : g.en = true → 2 ≤ g.nbuf ∧ g.nbuf ≤ 8 ∧ g.base % 4096 = 0 ∧ g.base + g.nbuf * g.stride ≤ u.wBytes) :
    execCmpSetWriteback p s = .next (settled 0x0704 (s.pktHdr 0x0704 p) (u.modCmp p.idx (fun c => { c with shadowWb := g })) ok) := by
  subst hg hu
  refine next_runOp ha (if_neg (not_or.mpr ⟨hpack.not_gt, fun ⟨on, bad⟩ => ?_⟩))
  obtain ⟨hmin, hmax, halign, hfits⟩ := hen on
  exact bad.elim hmin.not_gt (fun c => c.elim hmax.not_gt (fun c => c.elim (not_not.mpr halign) hfits.not_gt))

theorem execCmpSetWriteback_badPack (hpack : 2 < p.b 0 2 4) :
    execCmpSetWriteback p s = .next (settled 0x0704 (s.pktHdr 0x0704 p) u (refuse stBadParam 0x800A)) := by
  subst hu
  exact next_runOp ha (if_pos (.inl hpack))

end WriteBack

/-- The aspect lines and the timecode position that composer `n` shows: those of its live set, else of the policy. -/
def State.rindShown (s : State) (n : Nat) : Nat :=
  match (s.cmpU n).live with
  | some g => (g.lines.getD (s.rindEntry n).lineMask) + 256 * (g.tcPos.getD (s.rindEntry n).tcPos)
  | none => (s.rindEntry n).lineMask + 256 * (s.rindEntry n).tcPos

/-- The six words of CMP_RIND_STATUS. -/
def State.rindReport (s : State) (n : Nat) : List Nat :=
  [s.cmp.rind.version + 0x10000 * b2n s.cmp.rind.byDefault + 0x20000 * b2n s.cmp.rind.locked, s.cmp.rind.crc.toNat,
    (s.cmpU n).drawn, s.rindShown n, s.f (CMP_C_STAT__FAULT_CARD n), s.rn (CMP_C_CFN n)]

theorem execCmpRindStatus_answers (ha : accepted 0x0705 p s = true) :
    execCmpRindStatus p s = .next (settled 0x0705 (s.pktHdr 0x0705 p) s (ok (s.rindReport p.idx))) :=
  next_runOp_fast rfl ha rfl

/-! ### CMP_COMMIT (R288, R291, R300, R301) -/

section Commit

/-- A composed size that the generator of composer `n` does not have. -/
def State.sizeChanges (s : State) (n w h : Nat) : Bool :=
  match s.tgOf n with
  | some t => (s.tg t).set && ((s.tg t).hactive != w || (s.tg t).vactive != h)
  | none => false

/-- The shadow set `c` of composer `p.idx` may be committed with the size and the generator that `p` names. -/
structure Committable (s : State) (p : Pkt) (c : CmpSt) : Prop where
  min_width : 64 ≤ p.b 0 0 16
  max_width : p.b 0 0 16 ≤ 8192
  min_height : 64 ≤ p.b 0 16 16
  max_height : p.b 0 16 16 ≤ 8192
  layers : (c.shadow.filter (·.en)).findSome? s.layerCheck = none
  writeBack : c.shadowWb.fits (p.b 0 0 16) (p.b 0 16 16) = true
  fetch : s.fetchOk p.idx (p.b 0 0 16) (p.b 0 16 16) c.shadow (p.b 2 17 2) = true
  size : s.sizeChanges p.idx (p.b 0 0 16) (p.b 0 16 16) = false

/-- The flips that the set of a commit takes: those of a set that it replaces, joined by the deferred ones. -/
def State.flipsJoined (s : State) (n : Nat) (c : CmpSt) : State × List (Nat × Flip) :=
  (if c.set.isSome then s.cmpErr n CMP_C_ERR__COMMIT_REPLACED else s).joinFlips n ((c.set.map (·.flips)).getD []) c.deferred

/-- The set that CMP_COMMIT makes of the shadow settings `c`. -/
def setOf (p : Pkt) (c : CmpSt) (flips : List (Nat × Flip)) : CmpSet :=
  { outW := p.b 0 0 16, outH := p.b 0 16 16, bg := (p.b 1 0 16, p.b 1 16 16, p.b 2 0 16), pace := p.t 2 16, fcg := p.b 2 17 2
    layers := c.shadow, post := c.shadowPost, wb := c.shadowWb, lines := c.shadowLines, tcPos := c.shadowTcPos, flips := flips }

/-- Composer `n` has the committed set `g` to go live, which its status shows. -/
def State.setTaken (s : State) (n : Nat) (g : CmpSet) : State :=
  (List.range 8).foldl (fun s l => s.showFlips n l)
    ((s.modCmp n (fun u => { u with set := some g, deferred := [] })).setB (CMP_C_STAT__COMMIT_PEND n) true)

/-- The fingerprint of the composers once set `g` is live. -/
def State.fpOnceLive (s : State) (n : Nat) (g : CmpSet) : Nat := ((s.modCmp n (fun u => { u with live := some g })).instFp .cmp).toNat

theorem execCmpCommit_taken {v u : State} {c : CmpSt} {r : State × List (Nat × Flip)} {g : CmpSet} {fp : Nat}
    (ha : accepted 0x0702 p s = true) (hv : v = entered 0x0702 p s) (hc : c = v.cmpU p.idx) (h : Committable v p c)
    (hr : r = v.flipsJoined p.idx c) (hg : g = setOf p c r.2) (hu : u = r.1.setTaken p.idx g) (hfp : fp = u.fpOnceLive p.idx g) :
    execCmpCommit p s = .next (settled 0x0702 (s.pktHdr 0x0702 p) u (ok [fp % 0x100000000, fp / 0x100000000])) := by
  subst hfp hu hg hr hc hv
  have range : ¬ ((decide (64 ≤ p.b 0 0 16) && decide (p.b 0 0 16 ≤ 8192)) && (decide (64 ≤ p.b 0 16 16) &&
      decide (p.b 0 16 16 ≤ 8192))) = false := by
    simp [h.min_width, h.max_width, h.min_height, h.max_height]
  refine next_runOp ha ((if_neg range).trans ?_)
  simp only [h.layers]
  refine (if_neg (ne_false_of_eq_true h.writeBack)).trans ((if_neg (ne_false_of_eq_true h.fetch)).trans ((if_neg ?_).trans ?_))
  · exact ne_true_of_eq_false h.size
  · rfl

end Commit

/-! ### CMP_FLIP (R293, R308) -/

section Flip

/-- The flip that `p` asks for, the `order`-th of its composer. -/
def flipOf (p : Pkt) (order : Nat) : Flip :=
  { addr := p.q 2, acq := p.q 4, rel := p.q 6, tag := p.b 1 0 16, wait := p.t 0 9, ready := false, order := order }

/-- A flip of layer `g` as its fence stands. -/
def State.flipJudged (s : State) (g : LayerCfg) (f : Flip) : Flip := { f with ready := s.flipReady g f }

/-- Composer `n` has numbered one flip more. -/
def State.flipNumbered (s : State) (n : Nat) : State := s.modCmp n (fun u => { u with order := u.order + 1 })

/-- The pending flip of layer `l` that a newer one replaces is released. -/
def State.pendingReplaced (s : State) (n l : Nat) (x : LayerSt) : State :=
  match x.pending with
  | some o => s.flipReplaced n l o
  | none => s

/-- The layer that a flip is checked against: the shadow's for a deferred one, else the live one (log 52). -/
def CmpSt.flipLayer (c : CmpSt) (p : Pkt) : LayerCfg :=
  if p.t 0 8 then c.shadowLayer (p.b 0 0 4) else c.liveLayer (p.b 0 0 4)

/-- Flip `f` takes its place: pending at its layer, or among the flips of the next commit. -/
def State.flipPlaced (s : State) (p : Pkt) (f : Flip) : State :=
  if p.t 0 8 then
    let r := (s.flipNumbered p.idx).joinFlips p.idx (s.cmpU p.idx).deferred [(p.b 0 0 4, f)]
    r.1.modCmp p.idx (fun u => { u with deferred := r.2 })
  else ((s.flipNumbered p.idx).pendingReplaced p.idx (p.b 0 0 4) ((s.cmpU p.idx).layerSt (p.b 0 0 4))).modLayer p.idx (p.b 0 0 4)
    (fun x => { x with pending := some f })

/-- CMP_FLIP of flip `f` to layer `g`: its checks, and its place. -/
def State.flipBy (s : State) (p : Pkt) (g : LayerCfg) (f : Flip) : State × Option Outc :=
  if 7 < p.b 0 0 4 then (s, some (badWord 0))
  else if g.en = false ∨ g.src ≠ 0 then (s, some (refuse stState 0x8009))
  else if s.wBytes < p.q 2 + g.bytes then (s, some (refuse stBadParam 0x8008))
  else ((s.flipPlaced p f).showFlips p.idx (p.b 0 0 4), some ok)

theorem execCmpFlip_eq (p : Pkt) (s : State) :
    execCmpFlip p s = .next (runOp 0x0703 p s (fun s => s.flipBy p ((s.cmpU p.idx).flipLayer p)
      (s.flipJudged ((s.cmpU p.idx).flipLayer p) (flipOf p (s.cmpU p.idx).order)))) := rfl

variable {g : LayerCfg} {f : Flip}

theorem State.flipPlaced_pending (hnow : p.t 0 8 = false) {v : State}
    (hv : v = (s.flipNumbered p.idx).pendingReplaced p.idx (p.b 0 0 4) ((s.cmpU p.idx).layerSt (p.b 0 0 4))) :
    s.flipPlaced p f = v.modLayer p.idx (p.b 0 0 4) (fun x => { x with pending := some f }) := by
  subst hv
  exact if_neg (ne_true_of_eq_false hnow)

theorem State.flipPlaced_deferred (hlater : p.t 0 8 = true) {r : State × List (Nat × Flip)}
    (hr : r = (s.flipNumbered p.idx).joinFlips p.idx (s.cmpU p.idx).deferred [(p.b 0 0 4, f)]) :
    s.flipPlaced p f = r.1.modCmp p.idx (fun u => { u with deferred := r.2 }) := by
  subst hr
  exact if_pos hlater

variable (ha : accepted 0x0703 p s = true) (hl : p.b 0 0 4 ≤ 7) (hg : g = (s.cmpU p.idx).flipLayer p)
include ha hl hg

theorem execCmpFlip_noLayer (h : g.en = false ∨ g.src ≠ 0) :
    execCmpFlip p s = .next (settled 0x0703 (s.pktHdr 0x0703 p) s (refuse stState 0x8009)) := by
  subst hg
  exact (execCmpFlip_eq p s).trans (next_runOp_fast rfl ha ((if_neg hl.not_gt).trans (if_pos h)))

theorem execCmpFlip_placed (hen : g.en = true) (hsrc : g.src = 0) (hfits : p.q 2 + g.bytes ≤ s.wBytes)
    (hf : f = s.flipJudged g (flipOf p (s.cmpU p.idx).order)) :
    execCmpFlip p s = .next (settled 0x0703 (s.pktHdr 0x0703 p) ((s.flipPlaced p f).showFlips p.idx (p.b 0 0 4)) ok) := by
  rw [execCmpFlip_eq]
  refine next_runOp_fast rfl ha ?_
  rw [← hg, ← hf]
  exact (if_neg hl.not_gt).trans ((if_neg (not_or.mpr ⟨ne_false_of_eq_true hen, not_not.mpr hsrc⟩)).trans (if_neg hfits.not_gt))

end Flip
end CompositionSets

/-- Settles O36, one law per opcode and case of its checks. -/
theorem compositionSets : Obligations.CompositionSets := by
  unfold Obligations.CompositionSets
  refine ⟨fun p l g others u v x s ha hl hl8 hg ho h7 h19 hhigh hsrc htap htmo hrace hline hu hv hx => ?_,
    fun p t o s => execCmpConfigureLayer_rind, fun p bs s ha hr hl hlen hset hbs => execCmpLoadLut_layer ha rfl hr hset hbs hl hlen,
    fun p bs s ha hr hl hlen hset hbs => execCmpLoadLut_post ha rfl hr hset hbs hl hlen,
    fun p s ha => execCmpLoadLut_badLength ha rfl, fun p g s ha => execCmpSetWriteback_stored ha rfl,
    fun p s ha => execCmpSetWriteback_badPack ha rfl, fun p s => execCmpRindStatus_answers,
    fun p w h c r g u fp s ha hw hh hw1 hw2 hh1 hh2 hc hlay hwb hfetch hsize hr hg hu hfp => ?_,
    fun p l c g f0 f u v s ha hl hl7 hnow hc hg hen hsrc hfits hf0 hf hu hv => ?_,
    fun p l c g f0 f r s ha hl hl7 hlater hc hg hen hsrc hfits hf0 hf hr => ?_, fun p g s => execCmpFlip_noLayer⟩
  · subst hx hv hu
    exact execCmpConfigureLayer_stored ha rfl hl hl8 hg ho ⟨h7, h19, hhigh, hsrc, htap, htmo, hrace, hline⟩
  · subst hw hh
    exact execCmpCommit_taken ha rfl hc ⟨hw1, hw2, hh1, hh2, hlay, hwb, hfetch, hsize⟩ hr hg hu hfp
  · subst hu hf0 hc hl
    have live : g = (s.cmpU p.idx).flipLayer p := by rw [hg, CmpSt.flipLayer, if_neg (ne_true_of_eq_false hnow)]
    rw [exec_cmpFlip, execCmpFlip_placed ha hl7 live hen hsrc hfits hf, State.flipPlaced_pending hnow hv]
  · subst hf0 hc hl
    have shadow : g = (s.cmpU p.idx).flipLayer p := by rw [hg, CmpSt.flipLayer, if_pos hlater]
    rw [exec_cmpFlip, execCmpFlip_placed ha hl7 shadow hen hsrc hfits hf, State.flipPlaced_deferred hlater hr]

end Sys2Proof.Machine

/-! ## Timing generators and display ports (spec/15, R309 to R321) -/

namespace Sys2Proof.Machine
open Sys2Proof

variable {s : State}

section Displays
variable {p : Pkt}

/-! ### DSP_SET_TIMING (R310, R313, R315) -/

section Timing

/-- Setting `n` changes what generator `g` can not change at a frame start (R310). -/
abbrev TgSt.hardChange (g n : TgSt) : Prop :=
  g.set = false ∨ g.sdi ≠ n.sdi ∨ g.raster ≠ n.raster ∨ g.rate ≠ n.rate ∨ g.hactive ≠ n.hactive ∨ g.vactive ≠ n.vactive
    ∨ g.htotal ≠ n.htotal ∨ g.khz ≠ n.khz ∨ g.div ≠ n.div

theorem TgSt.size_of_soft {g n : TgSt} (h : ¬ g.hardChange n) : g.hactive = n.hactive ∧ g.vactive = n.vactive := by
  simp only [TgSt.hardChange, not_or, not_not] at h
  obtain ⟨-, -, -, -, hh, hv, -⟩ := h
  exact ⟨hh, hv⟩

variable {u : State} {t : Nat} {n : TgSt} (ha : accepted 0x0800 p s = true) (hu : u = entered 0x0800 p s)
  (hn : timingOf p = some n)
include ha hu hn

theorem execDspSetTiming_badLimits (hlim : n.limitsOk = false) :
    execDspSetTiming p s = .next (settled 0x0800 (s.pktHdr 0x0800 p) u (refuse stBadParam 0x8002)) := by
  subst hu
  refine next_runOp ha ?_
  simp only [hn]
  exact if_pos hlim

variable (ht : t = p.idx - 0x10) (hlim : n.limitsOk = true)
include ht hlim

theorem execDspSetTiming_portsOn (hhard : (u.tg t).hardChange n) (hports : u.portsOn t ≠ []) :
    execDspSetTiming p s = .next (settled 0x0800 (s.pktHdr 0x0800 p) u (refuse stState 0x8001)) := by
  subst hu ht
  refine next_runOp ha ?_
  simp only [hn]
  exact (if_neg (ne_false_of_eq_true hlim)).trans (if_pos ⟨hhard, hports⟩)

theorem execDspSetTiming_hard (hhard : (u.tg t).hardChange n) (hports : u.portsOn t = [])
    (hsize : (u.tg t).hactive = n.hactive ∧ (u.tg t).vactive = n.vactive ∨ u.sizeClash (u.cmpOf t) n = false) :
    execDspSetTiming p s = .next (settled 0x0800 (s.pktHdr 0x0800 p)
      (((u.modTg t (fun _ => { n with t0 := u.now })).showTg t).commitSince u) ok) := by
  subst hu ht
  refine next_runOp ha ?_
  simp only [hn]
  refine (if_neg (ne_false_of_eq_true hlim)).trans ((if_neg (fun c => c.2 hports)).trans ((if_neg ?_).trans ?_))
  · rintro ⟨hdiff, hclash⟩
    exact hsize.elim (fun same => hdiff.elim (· same.1) (· same.2)) (ne_false_of_eq_true hclash)
  · rw [if_pos hhard]

theorem execDspSetTiming_soft (hsoft : ¬ (u.tg t).hardChange n) :
    execDspSetTiming p s = .next (settled 0x0800 (s.pktHdr 0x0800 p)
      (((u.modTg t (fun g => { g with
        next := some { n.soft with preload := n.soft.preload.or (g.next.bind (·.preload)) } })).showTg t).commitSince u) ok) := by
  subst hu ht
  obtain ⟨hh, hv⟩ := TgSt.size_of_soft hsoft
  refine next_runOp ha ?_
  simp only [hn]
  refine (if_neg (ne_false_of_eq_true hlim)).trans ((if_neg (fun c => hsoft c.1)).trans ((if_neg (fun c => ?_)).trans ?_))
  · exact c.1.elim (· hh) (· hv)
  · rw [if_neg hsoft]

end Timing

/-! ### DSP_ROUTE (R309, R315) -/

section Route

/-- What each entry of a list passes, its opposite fails throughout. -/
theorem any_false_of_all {α : Type} {f g : α → Bool} {l : List α} (h : l.all f = true) (hfg : ∀ x, g x = !f x) :
    l.any g = false := by
  rw [List.any_eq_false]
  exact fun x hx => by simp [hfg, List.all_eq_true.mp h x hx]

/-- A route leads to one of the four composers or generators, or nowhere. -/
def routeInside (v : Option Nat) : Bool := match v with | some k => decide (k ≤ 3) | none => true

/-- A route leads past the four composers or generators. -/
def routeOutside (v : Option Nat) : Bool := match v with | some k => decide (3 < k) | none => false

/-- A generator that an SDI port takes holds an SDI timing (R315). -/
def State.sdiFed (s : State) (g : Option Nat) : Bool := match g with | some t => (s.tg t).sdiOk | none => true

/-- A generator that an SDI port takes holds no SDI timing. -/
def State.sdiUnfed (s : State) (g : Option Nat) : Bool := match g with | some t => !(s.tg t).sdiOk | none => false

/-- The composer that feeds generator `g` under the routes `rs`. -/
def sourceOf (rs : List (Option Nat)) (g : Option Nat) : Option Nat := match g with | some t => rs.getD t none | none => none

theorem routeOutside_eq_not (v : Option Nat) : routeOutside v = !routeInside v := by
  cases v with
  | none => rfl
  | some k => simp [routeOutside, routeInside, ← decide_not]

theorem State.sdiUnfed_eq_not (s : State) (g : Option Nat) : s.sdiUnfed g = !s.sdiFed g := by cases g <;> rfl

theorem sourceOf_eq_bind (rs : List (Option Nat)) (g : Option Nat) : sourceOf rs g = g.bind (fun t => rs.getD t none) := by
  cases g <;> rfl

/-- Port `q` keeps its generator and its composer under the routes `cs` and `gs`, or is not enabled. -/
def State.routeKept (s : State) (cs gs : List (Option Nat)) (q : Nat) : Bool :=
  (s.portState q != 1 && s.portState q != 2) || (s.dpt q).tg == gs.getD q none
    && ((s.dpt q).tg.bind (fun t => s.dsp.route.getD t none)) == ((gs.getD q none).bind (fun t => cs.getD t none))

/-- Port `q` is enabled and changes its generator or its composer under the routes `cs` and `gs`. -/
def State.routeMoved (s : State) (cs gs : List (Option Nat)) (q : Nat) : Bool :=
  (s.portState q == 1 || s.portState q == 2)
    && ((s.dpt q).tg != gs.getD q none || sourceOf s.dsp.route (s.dpt q).tg != sourceOf cs (gs.getD q none))

theorem State.routeMoved_eq_not (s : State) (cs gs : List (Option Nat)) (q : Nat) :
    s.routeMoved cs gs q = !s.routeKept cs gs q := by
  simp only [State.routeMoved, State.routeKept, sourceOf_eq_bind, bne, Bool.not_or, Bool.not_and, Bool.not_not]

/-- The routes `cs` of composers and `gs` of generators may be taken. -/
structure Routable (s : State) (cs gs : List (Option Nat)) : Prop where
  range : (cs ++ gs).all routeInside = true
  once : (List.range 4).all (fun n => decide ((cs.filter (fun v => v == some n)).length ≤ 1)) = true
  sdi : [0, 1].all (fun q => s.sdiFed (gs.getD q none)) = true
  kept : (List.range 4).all (s.routeKept cs gs) = true
  sizes : (List.range 4).all (fun t => !((s.tg t).set && s.sizeClash (cs.getD t none) (s.tg t))) = true

/-- The routes `cs` and `gs` stand, and the status of ports and generators shows them. -/
def State.routed (s : State) (cs gs : List (Option Nat)) : State :=
  (List.range 4).foldl State.showTg ((List.range 4).foldl (fun s q =>
    (s.modDpt q (fun d => { d with tg := gs.getD q none })).setF (DSP_P_STAT__TG q) ((gs.getD q none).getD 7))
    { s with dsp := { s.dsp with route := cs } })

section Sound
variable {cs gs : List (Option Nat)} (h : Routable s cs gs)
include h

theorem Routable.none_outside : (cs ++ gs).any routeOutside = false := any_false_of_all h.range routeOutside_eq_not

theorem Routable.none_twice : (List.range 4).any (fun n => decide (1 < (cs.filter (fun v => v == some n)).length)) = false :=
  any_false_of_all h.once (fun n => by simp [← decide_not])

theorem Routable.none_unfed : [0, 1].any (fun q => s.sdiUnfed (gs.getD q none)) = false :=
  any_false_of_all h.sdi (fun _ => s.sdiUnfed_eq_not _)

theorem Routable.none_moved : (List.range 4).any (s.routeMoved cs gs) = false :=
  any_false_of_all h.kept (s.routeMoved_eq_not cs gs)

theorem Routable.no_clash : (List.range 4).any (fun t => (s.tg t).set && s.sizeClash (cs.getD t none) (s.tg t)) = false :=
  any_false_of_all h.sizes (fun _ => (Bool.not_not _).symm)

end Sound

theorem execDspRoute_taken {u : State} {cs gs : List (Option Nat)} (ha : accepted 0x0801 p s = true) (hu : u = entered 0x0801 p s)
    (hcs : cs = (List.range 4).map (routeAt (p.w 0))) (hgs : gs = (List.range 4).map (routeAt (p.w 1))) (h : Routable u cs gs) :
    execDspRoute p s = .next (settled 0x0801 (s.pktHdr 0x0801 p) ((u.routed cs gs).commitSince u) ok) := by
  subst hcs hgs hu
  exact next_runOp ha ((if_neg (not_or.mpr ⟨ne_true_of_eq_false h.none_outside, ne_true_of_eq_false h.none_twice⟩)).trans
    ((if_neg (ne_true_of_eq_false h.none_unfed)).trans ((if_neg (ne_true_of_eq_false h.none_moved)).trans
      (if_neg (ne_true_of_eq_false h.no_clash)))))

end Route

/-- The status and phase of the generator that port `q` takes, zeros where it takes none. -/
def State.tgReport (s : State) (q : Nat) : List Nat :=
  match (s.dpt q).tg with
  | some t => [s.rn (DSP_TG_STAT t), s.rn (DSP_TG_PHASE t)]
  | none => [0, 0]

theorem execDspStatus_answers (ha : accepted 0x0806 p s = true) :
    execDspStatus p s = .next (settled 0x0806 (s.pktHdr 0x0806 p) s
      (ok ([s.rn (DSP_P_STAT p.idx), s.rn (DSP_P_ERR p.idx)] ++ s.tgReport p.idx))) :=
  next_runOp_fast rfl ha rfl

/-! ### DSP_PORT_ENABLE (R312, R315 to R317, R319) -/

section Enable

/-- Port `q` is ENABLING for the packet `h`, with the parameters `asked`. -/
def State.portEnabling (s : State) (q : Nat) (asked : Nat × Nat) (h : Hdr) : State :=
  (s.setF (DSP_P_STAT__STATE q) 1).modDpt q (fun d => { d with asked := asked, enabling := some h })

theorem State.portEnabling_tg {q : Nat} (hq : q < 4) (asked : Nat × Nat) (h : Hdr) :
    ((s.portEnabling q asked h).dpt q).tg = (s.dpt q).tg := by
  unfold State.portEnabling
  rw [State.dpt_modDpt _ _ hq]
  rfl

/-- A locked generator with one blanking length realigns (R312). -/
def State.realigning (s : State) (t : Nat) : State :=
  if (s.tg t).soft.vmin = (s.tg t).soft.vmax ∧ (s.tg t).soft.lock then s.modTg t (fun g => { g with realign := true }) else s

/-- An analogue test of item `i` drives port `q`. -/
def State.portTested (s : State) (i q : Nat) : Bool := match s.analogue i with | some m => bitAt m q | none => false

theorem State.portTested_eq_any (s : State) (i q : Nat) : s.portTested i q = (s.analogue i).any (fun m => bitAt m q) := by
  unfold State.portTested
  cases s.analogue i with
  | none => rfl
  | some m => rfl

/-- Audio that an SDI port is to embed does not run at 48 kHz, or is not configured. -/
def State.audioBad (s : State) (w : Nat) : Bool :=
  (audioTaken w).any (fun a => s.f (AUD_P_CFG__RATE a) != 1 || !s.on (AUD_P_CFG__CONFIGURED a))

section Ports
variable {u : State} {t : Nat} (ha : accepted 0x0802 p s = true) (hu : u = entered 0x0802 p s)
include ha hu

theorem execDspPortEnable_enabled (h : u.portState p.idx = 1 ∨ u.portState p.idx = 2) :
    execDspPortEnable p s = .next (settled 0x0802 (s.pktHdr 0x0802 p) u (refuse stState 0x8001)) := by
  subst hu
  exact next_runOp ha (if_pos h)

variable (hoff : u.portState p.idx = 0 ∨ u.portState p.idx = 3) (hbist : u.bist 3 = false) (htg : (u.dpt p.idx).tg = some t)
include hoff hbist htg

theorem execDspPortEnable_sdi (hq : p.idx < 2) (htest : u.portTested 4 p.idx = false) (hsdi : (u.tg t).sdiOk = true)
    (haud : p.t 0 6 = true → u.audioBad (p.w 0) = false) :
    execDspPortEnable p s =
      .next ((u.portEnabling p.idx (p.w 0 &&& 0x7778, 0) (s.pktHdr 0x0802 p)).realigning t) := by
  subst hu
  have idle : ¬ ((entered 0x0802 p s).portState p.idx = 1 ∨ (entered 0x0802 p s).portState p.idx = 2) := by omega
  have untested : (entered 0x0802 p s).portTested (if p.idx < 2 then 4 else 5) p.idx = false := by rwa [if_pos hq]
  have tg := State.portEnabling_tg (s := entered 0x0802 p s) (by omega : p.idx < 4) (p.w 0 &&& 0x7778, 0) (s.pktHdr 0x0802 p)
  refine next_runOp_none ha ((if_neg idle).trans ((if_neg (not_or.mpr ⟨ne_true_of_eq_false hbist,
    ne_true_of_eq_false untested⟩)).trans ((if_neg (fun c => hq.not_ge c.2)).trans ((if_neg (fun c => hq.not_ge c.1)).trans ?_))))
  simp only [htg, Option.map_some, if_pos hq]
  refine (if_neg (ne_false_of_eq_true hsdi)).trans ((if_neg (fun c => ne_true_of_eq_false (haud c.1) c.2)).trans ?_)
  rw [htg] at tg
  unfold State.portEnabling at *
  simp only [tg]
  rfl

theorem execDspPortEnable_dsi (hq : 2 ≤ p.idx) (hq4 : p.idx < 4) (htest : u.portTested 5 p.idx = false) (hlanes : p.b 0 0 2 ≠ 3)
    (hmin : 80 ≤ p.w 1) (hmax : p.w 1 ≤ 4500) (hatt : u.on (DSP_P_STAT__ATTACHED p.idx) = true)
    (hfits : dsiFits (u.tg t) (p.w 0) (p.w 1) = true) :
    execDspPortEnable p s =
      .next ((u.portEnabling p.idx (p.w 0 &&& 0x3F, p.w 1) (s.pktHdr 0x0802 p)).realigning t) := by
  subst hu
  have idle : ¬ ((entered 0x0802 p s).portState p.idx = 1 ∨ (entered 0x0802 p s).portState p.idx = 2) := by omega
  have untested : (entered 0x0802 p s).portTested (if p.idx < 2 then 4 else 5) p.idx = false := by rwa [if_neg hq.not_gt]
  have tg := State.portEnabling_tg (s := entered 0x0802 p s) hq4 (p.w 0 &&& 0x3F, p.w 1) (s.pktHdr 0x0802 p)
  refine next_runOp_none ha ((if_neg idle).trans ((if_neg (not_or.mpr ⟨ne_true_of_eq_false hbist,
    ne_true_of_eq_false untested⟩)).trans ((if_neg (fun c => hlanes c.1)).trans ((if_neg (by omega)).trans ?_))))
  simp only [htg, Option.map_some, if_neg hq.not_gt]
  refine (if_neg (ne_false_of_eq_true hatt)).trans ((if_neg (ne_false_of_eq_true hfits)).trans ?_)
  rw [htg] at tg
  unfold State.portEnabling at *
  simp only [tg]
  rfl

end Ports
end Enable

/-! ### DSP_PORT_DISABLE, DSP_DCS_XFER and DSP_SDI_ANC (R316, R318, R321) -/

section Commands
variable {u : State}

theorem execDspPortDisable_off (ha : accepted 0x0803 p s = true)
    (hu : u = ((entered 0x0803 p s).endEnable p.idx (refuse stAborted 0)).endDcs p.idx (refuse stState 0x8008)) :
    execDspPortDisable p s = .next (settled 0x0803 (s.pktHdr 0x0803 p)
      ((u.setF (DSP_P_STAT__STATE p.idx) 0).modDpt p.idx (fun d => { d with anc := [] })) ok) := by
  subst hu
  exact next_runOp ha rfl

theorem execDspDcsXfer_queued {bs : List Byte} (ha : accepted 0x0804 p s = true) (hu : u = entered 0x0804 p s)
    (hq : 2 ≤ p.idx) (hn : p.b 0 8 8 ≤ 128) (hr : p.b 0 16 8 ≤ 16) (hst : u.portState p.idx = 1 ∨ u.portState p.idx = 2)
    (hbs : bs = ((List.range 32).flatMap (fun k => leBytes 4 (p.w (1 + k)))).take (p.b 0 8 8)) :
    execDspDcsXfer p s = .next (u.modDpt p.idx (fun d => { d with
      dcs := d.dcs ++ [(s.pktHdr 0x0804 p, p.b 0 0 8, bs, p.b 0 16 8)] })) := by
  subst hbs hu
  exact next_runOp_none ha ((if_neg hq.not_gt).trans ((if_neg (not_or.mpr ⟨hn.not_gt, hr.not_gt⟩)).trans (if_neg (by omega))))

/-- The user data words of DSP_SDI_ANC. -/
def ancWords (p : Pkt) : List Nat := (List.range 256).map (fun k => p.b (1 + k / 2) (16 * (k % 2)) 16)

/-- The first user data word that is no ten-bit word, or lies past the packet's count and is not zero. -/
def ancBad (p : Pkt) (udw : List Nat) : Option Nat :=
  (List.range 256).find? (fun k => if k < p.b 0 16 8 then decide (0x3FF < udw.getD k 0) else udw.getD k 0 != 0)

theorem execDspSdiAnc_queued {udw : List Nat} (ha : accepted 0x0805 p s = true) (hq : p.idx < 2) (hudw : udw = ancWords p)
    (hbad : ancBad p udw = none) (hroom : ((entered 0x0805 p s).dpt p.idx).anc.length < 4)
    (hu : u = (entered 0x0805 p s).modDpt p.idx (fun d => { d with
      anc := d.anc ++ [⟨p.b 0 0 8, p.b 0 8 8, udw.take (p.b 0 16 8), (entered 0x0805 p s).now, false⟩] })) :
    execDspSdiAnc p s = .next (settled 0x0805 (s.pktHdr 0x0805 p) u (ok [(u.dpt p.idx).anc.length])) := by
  subst hu hudw
  unfold ancBad ancWords at *
  refine next_runOp ha ((if_neg hq.not_ge).trans ?_)
  simp only [hbad]
  exact if_neg hroom.not_ge

end Commands

/-! ### DCS_XFER_RUN and HOTPLUG (R318, R319) -/

section Events
variable {port : Fin 4}

section Dcs
variable {report : W32} {data : List Byte}

theorem execDcsXferRun_none {acked : Bool} (hd : (s.dpt port).dcs = []) : execDcsXferRun port acked report data s = .next s := by
  simp only [execDcsXferRun, hd]

/-- Port `q` may send a transfer: it is not ON, or its generator is in blanking. -/
def State.dcsMay (s : State) (q : Nat) : Prop :=
  s.portState q ≠ 2 ∨ ∃ t, (s.dpt q).tg = some t ∧ (s.tg t).blank.isSome = true

/-- The generator that port `q` takes is in blanking. -/
def State.portBlanking (s : State) (q : Nat) : Bool := match (s.dpt q).tg with | some t => (s.tg t).blank.isSome | none => false

theorem State.dcsMay.open {q : Nat} (h : s.dcsMay q) : ¬ (s.portState q = 2 ∧ s.portBlanking q = false) := by
  rintro ⟨hon, hblank⟩
  obtain ⟨t, ht, hb⟩ := h.resolve_left (not_not.mpr hon)
  unfold State.portBlanking at hblank
  rw [ht] at hblank
  exact ne_true_of_eq_false hblank hb

variable {h : Hdr} {type n : Nat} {bs : List Byte} {rest : List (Hdr × Nat × List Byte × Nat)} {u : State}
  (hd : (s.dpt port).dcs = (h, type, bs, n) :: rest) (hmay : s.dcsMay port)
  (hu : u = (s.emit (.dcs port type bs)).modDpt port (fun d => { d with dcs := rest }))
include hd hmay hu

theorem execDcsXferRun_acked :
    execDcsXferRun port true report data s =
      .next (u.finishF h (ok (wordsOf (padBytes 16 (data.take n)) ++ [(data.take n).length]))) := by
  subst hu
  have may := hmay.open
  unfold State.portBlanking at may
  simp only [execDcsXferRun, hd]
  exact if_neg may

theorem execDcsXferRun_refused :
    execDcsXferRun port false report data s =
      .next ((u.raise (DSP_P_ERR__DCS_ERR port)).finishF h (refuse stHwFault 0x8007 [0, report.toNat])) := by
  subst hu
  have may := hmay.open
  unfold State.portBlanking at may
  simp only [execDcsXferRun, hd]
  exact if_neg may

end Dcs

section Hotplug
variable {present : Bool}

/-- The presence of port `q` has changed: shown, counted and logged. -/
def State.presenceLogged (s : State) (q : Nat) (present : Bool) : State :=
  (((s.setB (DSP_P_STAT__ATTACHED q) present).raise (if present then DSP_P_ERR__HPD_GAIN q else DSP_P_ERR__HPD_LOSS q)).bumpEvt
    .dsp (DSP_P_HPD_CNT q)).log .dsp evDspHotplug (0x6000 + q) (b2n present)

/-- The host is told through the generator that port `q` takes. -/
def State.presenceTold (s : State) (q : Nat) : State :=
  match (s.dpt q).tg with
  | some t => s.pendIf (DSP_TG_IRQ__PEND t) 0 (s.on (DSP_TG_IRQ__HPD t)) (18 + t)
  | none => s

/-- What a change of presence of port `q` leaves to do on a port that loses a display. -/
def State.displayLost (s : State) (q : Nat) : State :=
  let w := if s.portState q = 1 then s.endEnable q (refuse stState 0x8006) else s
  if s.portState q = 1 ∨ s.portState q = 2 then (w.endDcs q (refuse stState 0x8008)).setF (DSP_P_STAT__STATE q) 3 else w

theorem execHotplug_same (h : s.on (DSP_P_STAT__ATTACHED port) = present) : execHotplug port present s = .next s := if_pos h

theorem execHotplug_changed (h : s.on (DSP_P_STAT__ATTACHED port) ≠ present) {v : State}
    (hv : v = (s.presenceLogged port present).presenceTold port) :
    execHotplug port present s = if port.val < 2 ∨ present then .next v else .next (v.displayLost port) := by
  subst hv
  exact if_neg h

theorem State.displayLost_unused {q : Nat} (h1 : s.portState q ≠ 1) (h2 : s.portState q ≠ 2) : s.displayLost q = s := by
  unfold State.displayLost
  simp only [if_neg h1]
  exact if_neg (not_or.mpr ⟨h1, h2⟩)

theorem State.displayLost_enabled {q : Nat} (h : s.portState q = 1 ∨ s.portState q = 2) :
    s.displayLost q = ((if s.portState q = 1 then s.endEnable q (refuse stState 0x8006) else s).endDcs q
      (refuse stState 0x8008)).setF (DSP_P_STAT__STATE q) 3 := if_pos h

end Hotplug
end Events
end Displays

/-- Settles O38, one law per opcode or event and case of its checks. -/
theorem displays : Obligations.Displays := by
  unfold Obligations.Displays
  refine ⟨fun p t n s ha ht hn hlim => execDspSetTiming_hard ha rfl hn ht hlim,
    fun p t n s ha ht hn hlim => execDspSetTiming_soft ha rfl hn ht hlim,
    fun p t n s ha ht hn hlim => execDspSetTiming_portsOn ha rfl hn ht hlim,
    fun p n s ha hn => execDspSetTiming_badLimits ha rfl hn,
    fun p cs gs u v s ha hcs hgs hrange honce hsdi hkept hsizes hu hv => ?_, fun p s => execDspStatus_answers,
    fun p q t u s ha hq hq2 hoff hbist htest htg hsdi haud hu => ?_,
    fun p q t u s ha hq hq2 hoff hbist htest hlanes hmin hmax htg hatt hfits hq4 hu => ?_,
    fun p s ha => execDspPortEnable_enabled ha rfl, fun p u s => execDspPortDisable_off,
    fun p bs s ha => execDspDcsXfer_queued ha rfl, fun p udw u s => execDspSdiAnc_queued,
    fun port report data h type n bs rest u s hd hmay hu => ⟨execDcsXferRun_acked hd hmay hu, execDcsXferRun_refused hd hmay hu⟩,
    fun port report data acked s => execDcsXferRun_none, fun port present u v s hne hu hv hkept => ?_,
    fun port u v w s hatt hu hv hq hst hw => ?_, fun port present s => execHotplug_same⟩
  · subst hv hu
    exact execDspRoute_taken ha rfl hcs hgs ⟨hrange, honce, hsdi, hkept, hsizes⟩
  · subst hu hq
    rw [← State.portTested_eq_any] at htest
    exact execDspPortEnable_sdi ha rfl hoff hbist htg hq2 htest hsdi haud
  · subst hu hq
    rw [← State.portTested_eq_any] at htest
    exact execDspPortEnable_dsi ha rfl hoff hbist htg hq2 hq4 htest hlanes hmin hmax hatt hfits
  · have noted : v = (s.presenceLogged port present).presenceTold port := by subst hu; exact hv
    rw [exec_hotplug, execHotplug_changed hne noted]
    rcases hkept with hp | hq | ⟨h1, h2⟩
    · exact if_pos (.inr hp)
    · exact if_pos (.inl hq)
    · rw [State.displayLost_unused h1 h2, ite_self]
  · have noted : v = (s.presenceLogged port false).presenceTold port := by subst hu; exact hv
    rw [exec_hotplug, execHotplug_changed (by simp [hatt]) noted, if_neg (not_or.mpr ⟨hq.not_gt, Bool.false_ne_true⟩), State.displayLost_enabled hst, hw]

end Sys2Proof.Machine

/-! ## Decode sessions: OPEN, DATA, CLOSE, marks and pictures (spec/13, R274 to R284) -/

namespace Sys2Proof.Machine
open Sys2Proof

variable {s : State}

section Decoding
variable {p : Pkt}

/-! ### CDC_DECODE_SUBMIT by ACTION (Table 13-6) -/

theorem decodeSubmit_open (hk : p.b 0 0 2 = 0) (h8 : p.t 0 8 = false) (hbist : s.bist 2 = false) :
    decodeSubmit p s = execDecOpen p s := by simp [decodeSubmit, hk, h8, hbist]

theorem decodeSubmit_data (hk : p.b 0 0 2 = 1) (h4 : p.t 0 4 = false) (h5 : p.t 0 5 = false) :
    decodeSubmit p s = execDecData p s := by simp [decodeSubmit, hk, h4, h5]

theorem decodeSubmit_close (hk : p.b 0 0 2 = 2) (h4 : p.t 0 4 = false) (h5 : p.t 0 5 = false) :
    decodeSubmit p s = execDecClose p s := by simp [decodeSubmit, hk, h4, h5]

section Session
variable {u t : State} {o : Outc} {d : Nat} (ha : accepted 0x0606 p s = true) (hu : u = entered 0x0606 p s)
include ha hu

/-- OPEN and DATA use their buffer, CLOSE does not (R453). -/
theorem decodeRun_guarded (hk : p.b 0 0 2 ≠ 2) (hb : u.refGuard (p.ref 8) 8 (decodeSubmit p) = (t, some o)) :
    decodeRun p s = .next (settled 0x0606 (s.pktHdr 0x0606 p) t o) := by
  subst hu
  exact next_runOp ha ((if_neg hk).trans hb)

theorem decodeRun_close (hk : p.b 0 0 2 = 2) (h4 : p.t 0 4 = false) (h5 : p.t 0 5 = false) (hb : execDecClose p u = (t, some o)) :
    decodeRun p s = .next (settled 0x0606 (s.pktHdr 0x0606 p) t o) := by
  subst hu
  exact next_runOp ha ((if_pos hk).trans ((decodeSubmit_close hk h4 h5).trans hb))

end Session

/-! ### OPEN to the pool (R276) -/

section Open
variable {d ring m : Nat} {u : State}

/-- The session that an OPEN to the pool makes of `e`. -/
def openedPool (p : Pkt) (m ring : Nat) (e : DecSt) : DecSt :=
  { open_ := true, pool := true, checkHash := p.t 0 5, maxW := p.b 1 0 16, maxH := p.b 1 16 16, maxRate := p.w 2, mpix := m
    base := p.q 4, ring := ring, syntaxBytes := p.b 3 16 16 * 0x10000, expand := halfWords [], taken := e.taken }

/-- Session `d` shows that it is open, with its pictures going out to the pool. -/
def State.openShown (s : State) (d : Nat) : State :=
  ((s.wn (CDC_D_STAT d) 0).setB (CDC_D_STAT__OPEN d) true).setB (CDC_D_STAT__OUT d) true

/-- OPEN asks the pool for a session that fits: its ring, its engine load `m` and its pictures. -/
structure PoolOpenable (s : State) (p : Pkt) (ring m : Nat) : Prop where
  pool : p.t 0 4 = true
  some_ring : ring ≠ 0
  aligned : p.q 4 % 4096 = 0
  inside : p.q 4 + 4096 + ring + p.b 3 16 16 * 0x10000 ≤ s.wBytes
  load : s.encMpix none + s.decMpix + m ≤ 4500
  stride : poolNeed (p.b 1 0 16) (p.b 1 16 16) ≤ s.poolStride

theorem execDecOpen_pool (hd : d = p.idx - 4) (hopen : (s.ds d).open_ = false) (hring : ring = p.b 3 0 16 * 0x10000)
    (hm : m = ceilDiv (p.b 1 0 16 * p.b 1 16 16 * p.w 2) 1000000000) (h : PoolOpenable s p ring m) :
    execDecOpen p s = (((((s.modDs d (openedPool p m ring)).openShown d).setBsFree d).commitSince s), some (ok [m])) := by
  subst hd hring hm
  have sound : ¬ ((p.t 0 4 = false ∧ (p.ref 8).len ≠ 2048) ∨ p.b 3 0 16 * 0x10000 = 0 ∨ p.q 4 % 4096 ≠ 0 ∨
      s.wBytes < p.q 4 + 4096 + p.b 3 0 16 * 0x10000 + p.b 3 16 16 * 0x10000) :=
    not_or.mpr ⟨fun c => ne_false_of_eq_true h.pool c.1, not_or.mpr ⟨h.some_ring, not_or.mpr ⟨not_not.mpr h.aligned, h.inside.not_gt⟩⟩⟩
  refine (if_neg (ne_true_of_eq_false hopen)).trans ((if_neg sound).trans ((if_neg h.load.not_gt).trans
    ((if_neg h.stride.not_gt).trans ?_)))
  simp only [h.pool, ↓reduceIte]
  rfl

theorem execCdcDecodeOpen_pool (ha : accepted 0x0606 p s = true) (hu : u = entered 0x0606 p s) (hk : p.b 0 0 2 = 0)
    (h8 : p.t 0 8 = false) (hr : u.refOk (p.ref 8) = true) (hbist : u.bist 2 = false) (hd : d = p.idx - 4)
    (hopen : (u.ds d).open_ = false) (hring : ring = p.b 3 0 16 * 0x10000)
    (hm : m = ceilDiv (p.b 1 0 16 * p.b 1 16 16 * p.w 2) 1000000000) (h : PoolOpenable u p ring m) :
    execCdcDecodeOpen p s = .next (settled 0x0606 (s.pktHdr 0x0606 p)
      (((((u.modDs d (openedPool p m ring)).openShown d).setBsFree d).commitSince u).refUse (p.ref 8)) (ok [m])) :=
  decodeRun_guarded ha hu (by omega)
    (State.refGuard_ok hr ((decodeSubmit_open hk h8 hbist).trans (execDecOpen_pool hd hopen hring hm h)))

end Open

/-! ### DATA (R277) -/

section Data
variable {d : Nat} {u : State} {bs : List Byte}

/-- Session `d` notes data that have come with `eos`: an empty chunk ends the picture at once, others are listed. -/
def State.chunkNoted (s : State) (d : Nat) (q : W32) (bs : List Byte) (eos : Bool) : State :=
  if bs.isEmpty then s.modDs d (fun e => { e with flush := e.flush || eos, cur := e.cur.map (fun q => { q with ended := q.ended || eos }) })
  else s.modDs d (fun e => { e with chunks := e.chunks ++ [(q, bs.length, eos)] })

/-- Session `d` goes on with what its ring holds. -/
def State.decFed (s : State) (d : Nat) : State := (((s.decFlush d).setBsFree d).decArrive d).feedDec d

variable (ha : accepted 0x0606 p s = true) (hu : u = entered 0x0606 p s) (hk : p.b 0 0 2 = 1) (h4 : p.t 0 4 = false)
  (h5 : p.t 0 5 = false) (hr : u.refOk (p.ref 8) = true) (hd : d = p.idx - 4) (hopen : (u.ds d).open_ = true)
  (hclosing : (u.ds d).closing = false)
include ha hu hk h4 h5 hr hd hopen hclosing

theorem execCdcDecodeData_taken {v : State} (hfree : (p.ref 8).len ≤ (u.ds d).free) (hbs : u.readRef (p.ref 8) p.buf = some bs)
    (hv : v = ((u.ringFill d bs).chunkNoted d p.seq bs (p.t 0 8)).decFed d) :
    execCdcDecodeData p s = .next (settled 0x0606 (s.pktHdr 0x0606 p) (v.refUse (p.ref 8)) (ok [(v.ds d).free / 256])) := by
  subst hv hd
  refine decodeRun_guarded ha hu (by omega) (State.refGuard_ok hr ((decodeSubmit_data hk h4 h5).trans
    ((if_neg (by simp [hopen, hclosing])).trans ((if_neg hfree.not_gt).trans ?_))))
  simp only [hbs]
  rfl

theorem execCdcDecodeData_full (hfull : (u.ds d).free < (p.ref 8).len) :
    execCdcDecodeData p s = .next (settled 0x0606 (s.pktHdr 0x0606 p) u (refuse stNoResource 0x8023)) := by
  subst hd
  exact decodeRun_guarded ha hu (by omega) (State.refGuard_run hr ((decodeSubmit_data hk h4 h5).trans
    ((if_neg (by simp [hopen, hclosing])).trans (if_pos hfull))))

end Data

/-! ### CLOSE (R284) -/

section Close
variable {d : Nat} {u : State}

/-- Session `d` drops what waits in its ring, and the scheduler forgets it. -/
def State.decDropped (s : State) (d : Nat) : State :=
  let v := s.modDs d (fun e => { e with
    fill := 0, wr := 0, chunks := [], waiting := false, cur := e.cur.map (fun q => { q with ended := true }) })
  (State.leaveB { v with cdc := { v.cdc with waiting := v.cdc.waiting.erase (.dec d) } } (.dec d)).setB (CDC_D_STAT__DEFERRED d) false

variable (ha : accepted 0x0606 p s = true) (hu : u = entered 0x0606 p s) (hk : p.b 0 0 2 = 2) (h4 : p.t 0 4 = false)
  (h5 : p.t 0 5 = false) (hd : d = p.idx - 4)
include ha hu hk h4 h5 hd

theorem execCdcDecodeClose_drops (h8 : p.t 0 8 = false) (hopen : (u.ds d).open_ = true) (hclosing : (u.ds d).closing = false) :
    execCdcDecodeClose p s = .next (settled 0x0606 (s.pktHdr 0x0606 p)
      ((((((u.modDs d (fun e => { e with closing := true, drain := false, flush := true })).decDropped d).decFlush d).setBsFree
        d).decClose d)) ok) := by
  subst hd
  refine decodeRun_close ha hu hk h4 h5 ((if_neg (by simp [hopen, hclosing])).trans ?_)
  simp only [h8, Bool.false_eq_true, false_and, ↓reduceIte]
  rfl

theorem execCdcDecodeClose_notOpen (hopen : (u.ds d).open_ = false) :
    execCdcDecodeClose p s = .next (settled 0x0606 (s.pktHdr 0x0606 p) u (refuse stState 0x8021)) := by
  subst hd
  exact decodeRun_close ha hu hk h4 h5 (if_pos (.inl hopen))

end Close

/-! ### CDC_REF_MARK (R274) -/

section Mark

/-- The marks of buffer `b` as ACTION `k` leaves them. -/
def State.marksSet (s : State) (k b : Nat) : State :=
  match k with
  | 0 => s.setMark b markHost true
  | 1 => s.setMark b markHost false
  | _ => (s.setMark b (markOut 0) false).setMark b (markOut 1) false

theorem refMark_marks {u : State} (ha : accepted 0x0607 p s = true) (hk : p.b 0 8 2 ≠ 3) (hb : p.b 0 0 6 < s.poolCount)
    (hfree : p.b 0 8 2 = 0 → s.marks (p.b 0 0 6) ≠ 0) (hu : u = s.marksSet (p.b 0 8 2) (p.b 0 0 6)) :
    refMark p s = .next (settled 0x0607 (s.pktHdr 0x0607 p) u (ok [u.marks (p.b 0 0 6)])) := by
  subst hu
  exact next_runOp_fast rfl ha ((if_neg (not_or.mpr ⟨hb.not_ge, hk⟩)).trans (if_neg (fun c => hfree c.1 c.2)))

end Mark

/-! ### The end of a picture (R281, R283) -/

section PictureEnd
variable {session : Fin 2}

theorem execDecodePictureEnd_none (hcur : (s.ds session).cur = none) : execDecodePictureEnd session s = .next s := by
  unfold execDecodePictureEnd
  simp only [hcur]

/-- CTUs of picture `p` that were not decoded. -/
def notDecoded (p : DecPic) : List Nat :=
  (List.range (ceilDiv p.width p.ctb * ceilDiv p.height p.ctb)).filter (fun a => !p.ctus.contains a)

/-- The CTUs `bad` of picture `p` are concealed from the picture `src`. -/
def State.concealAll (s : State) (p : DecPic) (src : Option Nat) (bad : List Nat) : State :=
  bad.foldl (fun t a => t.conceal p src a) s

/-- Concealed CTUs are counted. -/
def State.concealCounted (s : State) (d : Nat) (bad : List Nat) : State :=
  if bad.isEmpty then s else s.bumpStat (CDC_D_CONC_CNT d) bad.length

/-- Picture `p` at its end, with what was damaged and the error `err`. -/
def pictureEnded (p : DecPic) (bad : List Nat) (err : Nat) : DecPic :=
  { p with damaged := bad.length, concealed := p.concealed || !bad.isEmpty, err := err, lines := p.height }

/-- Picture `q` of session `d`, at its end, enters the decoded picture buffer. -/
def State.pictureKept (s : State) (d : Nat) (q : DecPic) : State :=
  ((s.poolInfo q).modDs d (fun e => DecSt.after { e with
    cur := none, err := 0, admitted := false, taken := e.taken.map (fun r => if r.buf = q.buf then q else r) } q)).decLand d q.buf q.height true

theorem execDecodePictureEnd_ended {p : DecPic} {bad : List Nat} (hcur : (s.ds session).cur = some p) (hended : p.ended = true)
    (hrow : (s.ds session).peRow = none) (hpe : ∀ r, s.cdc.pe = some r → r.1 ≠ 16 + session.val) (hbad : bad = notDecoded p) :
    execDecodePictureEnd session s = .next ((((((((s.concealAll p ((s.ds session).concealSource p) bad).concealCounted session
      bad).pictureKept session (pictureEnded p bad (s.ds session).err)).decFlush session).prune session).decArrive
      session).decClose session)) := by
  subst hbad
  have idle : (match s.cdc.pe with | some q => q.1 == 16 + session.val | none => false) = false := by
    cases hq : s.cdc.pe with
    | none => rfl
    | some q => exact beq_eq_false_iff_ne.mpr (hpe q hq)
  unfold execDecodePictureEnd
  simp only [hcur]
  refine (if_neg (not_or.mpr ⟨ne_false_of_eq_true hended, not_or.mpr ⟨?_, ne_true_of_eq_false idle⟩⟩)).trans rfl
  rw [hrow]
  exact Bool.false_ne_true

end PictureEnd

/-! ### Output (R279, R280) -/

section Output
variable {session : Fin 2}

theorem execDecodeOutput_none (hq : (s.ds session).outq = []) : execDecodeOutput session s = .next s := by
  unfold execDecodeOutput
  simp only [hq]

/-- Picture `q` in buffer `b` leaves the queue of the pictures due, whose rest is `t`, and one of a CONTEXT session that no
frame has taken is there to take. -/
def State.outputCounted (s : State) (d b : Nat) (t : List Nat) (q : DecPic) : State :=
  (s.bumpEvt .cdc (CDC_D_PIC_CNT d)).modDs d (fun e => { e with
    outq := t, dpb := e.dpb.map (fun r => if r.buf = b then q else r)
    avail := if e.pool || q.takenBy.isSome then e.avail else e.avail ++ [b] })

theorem State.outputCounted_untaken {d b : Nat} {t : List Nat} {q : DecPic} (h : q.takenBy = none) :
    s.outputCounted d b t q = (s.bumpEvt .cdc (CDC_D_PIC_CNT d)).modDs d (fun e => { e with
      outq := t, dpb := e.dpb.map (fun r => if r.buf = b then q else r), avail := if e.pool then e.avail else e.avail ++ [b] }) := by
  simp only [State.outputCounted, h, Option.isSome_none, Bool.or_false]

/-- Picture `p` as it goes out now. -/
def State.outputNow (s : State) (p : DecPic) : DecPic := { p with output := true, outNs := s.ns }

variable {b : Nat} {t : List Nat} {p : DecPic} (hq : (s.ds session).outq = b :: t)
  (hp : (s.ds session).dpb.find? (fun p => p.buf == b) = some p)
include hq hp

theorem execDecodeOutput_pool (hpool : (s.ds session).pool = true) :
    execDecodeOutput session s = .next ((((((s.outputCounted session b t (s.outputNow p)).setMark b (markOut session)
      true).decReport session (s.outputNow p) 0 false).prune session).decClose session)) := by
  unfold execDecodeOutput
  simp only [hq, hp, hpool, ↓reduceIte]
  rfl

theorem execDecodeOutput_context (hpool : (s.ds session).pool = false) (htaken : p.takenBy = none) :
    execDecodeOutput session s = .next (((s.outputCounted session b t (s.outputNow p)).prune session).decClose session) := by
  unfold execDecodeOutput
  simp only [hq, hp, hpool, htaken, Bool.false_eq_true, ↓reduceIte]
  simp only [State.outputCounted, State.outputNow, htaken]

end Output

/-! ### Waiting for the pool (R275) -/

section Wait

theorem execPoolWaitEnd_eq (session : Fin 2) (s : State) :
    execPoolWaitEnd session s = .next (if s.on (CDC_D_STAT__POOL_WAIT session) ∧ s.freeBufs ≠ [] then
      (s.setB (CDC_D_STAT__POOL_WAIT session) false).feedDec session else s) :=
  (apply_ite Host.Outcome.next _ _ _).symm

end Wait
end Decoding

/-- Settles O34, one law per ACTION and per row of the pictures. -/
theorem decoding : Obligations.Decoding := by
  unfold Obligations.Decoding
  refine ⟨fun p d ring m u v s ha hk h8 hpool hr hbist hd hopen hring hsome halign hin hm hload hstride hu hv => ?_,
    fun p d bs u v s ha hk h4 h5 hr hd hopen hclosing hfree hbs hu hv => ?_,
    fun p d s ha hk h4 h5 hr hd hopen hclosing hfull => execCdcDecodeData_full ha rfl hk h4 h5 hr hd hopen hclosing hfull,
    fun p d u v w s ha hk h4 h5 h8 hd hopen hclosing hu hv hw => ?_,
    fun p s ha hk h4 h5 hopen => execCdcDecodeClose_notOpen ha rfl hk h4 h5 rfl hopen,
    fun p u s ha hk hb hfree hu => refMark_marks ha (by omega) hb (fun _ => hfree) (by rw [hk]; exact hu),
    fun p u s ha hk hb hu => refMark_marks ha (by omega) hb (fun h => by omega) (by rw [hk]; exact hu),
    fun p u s ha hk hb hu => refMark_marks ha (by omega) hb (fun h => by omega) (by rw [hk]; exact hu),
    fun session p q bad u v w s hcur hended hrow hpe hbad hu hv hq hw => ?_,
    fun session b t p q u s hq hp hpool hqq hu => ?_, fun session b t p q s hq hp hpool htaken hqq => ?_,
    fun session s hcur hq => ⟨execDecodePictureEnd_none hcur, execDecodeOutput_none hq⟩, execPoolWaitEnd_eq, fun session s => rfl⟩
  · generalize he : entered 0x0606 p s = e at *
    rw [exec_cdcDecodeOpen, execCdcDecodeOpen_pool ha he.symm hk h8 hr hbist hd hopen hring hm
      ⟨hpool, hsome, halign, hin, hload, hstride⟩, hv, hu]
    rfl
  · have fed : v = ((((entered 0x0606 p s).ringFill d bs).chunkNoted d p.seq bs (p.t 0 8)).decFed d) := by
      rw [hv, hu]
      rfl
    exact execCdcDecodeData_taken ha rfl hk h4 h5 hr hd hopen hclosing hfree hbs fed
  · subst hw hv hu
    exact execCdcDecodeClose_drops ha rfl hk h4 h5 hd h8 hopen hclosing
  · subst hw hq hv hu
    exact execDecodePictureEnd_ended hcur hended hrow hpe hbad
  · subst hu hqq
    exact execDecodeOutput_pool hq hp hpool
  · have now : q = s.outputNow p := hqq
    have untaken : q.takenBy = none := by rw [now]; exact htaken
    rw [exec_decodeOutput, execDecodeOutput_context hq hp hpool htaken, ← now, State.outputCounted_untaken untaken]

end Sys2Proof.Machine

/-! ## The device's reports: status, fingerprints, the layout table and the event log (spec/04, spec/21, spec/23) -/

namespace Sys2Proof.Machine
open Sys2Proof

variable {s : State}

section DeviceReports
variable {p : Pkt}

/-! ### Status and fingerprints (R74, R75, R407) -/

theorem execNop_answers (ha : accepted 0x0000 p s = true) : execNop p s = .next (settled 0x0000 (s.pktHdr 0x0000 p) s ok) :=
  next_runOp_fast rfl ha rfl

theorem execDevStatus_answers (ha : accepted 0x0001 p s = true) :
    execDevStatus p s = .next (settled 0x0001 (s.pktHdr 0x0001 p) s (ok s.devStatus)) := next_runOp_fast rfl ha rfl

/-- A fingerprint as two words. -/
def fpWords (fp : BitVec 64) : List Nat := [fp.toNat % 0x100000000, fp.toNat / 0x100000000]

theorem execDevGetFingerprint_answers (ha : accepted 0x0004 p s = true) :
    execDevGetFingerprint p s = .next (settled 0x0004 (s.pktHdr 0x0004 p) s
      (ok (fpWords s.devFp ++ fpWords (s.targetFp p.target.toNat) ++ [s.dev.commitSeq.toNat, s.dev.commitTb.toNat]))) :=
  next_runOp_fast rfl ha rfl

/-! ### The layout table (R68) -/

/-- An empty reference names no buffer. -/
theorem State.refOk_empty {r : BufRef} (h : r.len = 0) : s.refOk r = true := by simp [State.refOk, h]

theorem State.refUse_empty {r : BufRef} (h : r.len = 0) : s.refUse r = s := if_neg (fun c => c.1 h)

/-- A guarded body that answers OK without a buffer. -/
theorem State.refGuard_empty {r : BufRef} {w : Nat} {k : State → State × Option Outc} {t : State} {l : List Nat} (h : r.len = 0)
    (hk : k s = (t, some (ok l))) : s.refGuard r w k = (t, some (ok l)) := by
  rw [State.refGuard_ok (State.refOk_empty h) hk, State.refUse_empty h]

section Dlt
variable {e u : State} (ha : accepted 0x0E02 p s = true) (he : e = entered 0x0E02 p s) (hu : u = e.publish)
include ha he hu

theorem execDltRefresh_publishes (hlen : (p.ref 0).len = 0) :
    execDltRefresh p s = .next (settled 0x0E02 (s.pktHdr 0x0E02 p) u
      (ok [u.dlt.gen.toNat, dltLength u.dlt.entries, u.dlt.crc.toNat])) := by
  subst hu he
  refine next_runOp ha (State.refGuard_empty hlen ((if_neg (fun c => c.1 hlen)).trans ?_))
  simp only [if_pos hlen]

variable (hr : e.refOk (p.ref 0) = true) (hlen : (p.ref 0).len ≠ 0)
include hr hlen

/-- The published table's export is written to the buffer `r`, to host memory through CXL.cache. -/
def State.exportTo (s : State) (r : BufRef) : State :=
  if r.space = 0 ∧ s.cxl.fallback = false then s.writeHost r.addr s.dltExport else s.writeRef r s.dltExport

theorem execDltRefresh_exports (hfits : dltLength u.dlt.entries ≤ (p.ref 0).len) :
    execDltRefresh p s = .next (settled 0x0E02 (s.pktHdr 0x0E02 p) ((u.exportTo (p.ref 0)).refUse (p.ref 0))
      (ok [u.dlt.gen.toNat, dltLength u.dlt.entries, u.dlt.crc.toNat])) := by
  subst hu he
  refine next_runOp ha (State.refGuard_ok hr ((if_neg (fun c => hfits.not_gt c.2)).trans ?_))
  simp only [if_neg hlen]
  rfl

theorem execDltRefresh_short (hshort : (p.ref 0).len < dltLength u.dlt.entries) :
    execDltRefresh p s = .next (settled 0x0E02 (s.pktHdr 0x0E02 p) e (badWord 2)) := by
  subst hu he
  exact next_runOp ha (State.refGuard_badParam hr (if_pos ⟨hlen, hshort⟩))

end Dlt

/-! ### The event log (R427, R434) -/

section Drain
variable {u : State} (ha : accepted 0x0020 p s = true) (hu : u = entered 0x0020 p s) (hr : u.refOk (p.ref 4) = true)
include ha hu hr

theorem execEvtDrain_bad (hbad : p.b 1 0 2 = 3 ∨ (p.ref 4).len % 32 ≠ 0) :
    execEvtDrain p s = .next (settled 0x0020 (s.pktHdr 0x0020 p) u (refuse stBadParam 0x8020)) := by
  subst hu
  exact next_runOp ha (State.refGuard_badParam hr (if_pos hbad))

/-- The entries of the live log from number `first` on, at most `n` of them. -/
def State.liveFrom (s : State) (first n : Nat) : List EvtEntry := (s.evt.live.filter (fun e => !serialLt e.seq.toNat first)).take n

/-- The number of the first of the entries `sel` that are drained from number `first` on, and the number after the last. -/
def drainFirst (sel : List EvtEntry) (first : Nat) : Nat := (sel.head?.map (·.seq.toNat)).getD first
def drainNext (sel : List EvtEntry) (first : Nat) : Nat :=
  (sel.getLast?.map (fun e => (e.seq.toNat + 1) % 0x100000000)).getD (drainFirst sel first)

/-- The entries `sel` are written to buffer `r`, and the host has read up to number `next`. -/
def State.liveDrained (s : State) (r : BufRef) (sel : List EvtEntry) (next : Nat) : State :=
  (s.writeRef r (sel.flatMap EvtEntry.image)).wn EVT_RD_SEQ next

/-- The error log is emptied where `clear` says so. -/
def State.errCleared (s : State) (clear : Bool) : State := if clear then { s with evt := { s.evt with err := [] } } else s

theorem execEvtDrain_live {sel : List EvtEntry} {t : State} (hsource : p.b 1 0 2 = 0) (hlen : (p.ref 4).len % 32 = 0)
    (hfirst : serialLt (p.w 0) ((u.evt.live.head?.map (·.seq.toNat)).getD (p.w 0)) = false)
    (hsel : sel = u.liveFrom (p.w 0) ((p.ref 4).len / 32))
    (ht : t = (u.liveDrained (p.ref 4) sel (drainNext sel (p.w 0))).errCleared (p.t 1 8)) :
    execEvtDrain p s = .next (settled 0x0020 (s.pktHdr 0x0020 p) (t.refUse (p.ref 4))
      (ok [sel.length, drainFirst sel (p.w 0), drainNext sel (p.w 0), t.rn EVT_LOST])) := by
  subst ht hsel hu
  refine next_runOp ha (State.refGuard_ok hr ((if_neg (by omega)).trans ?_))
  simp only [hsource, State.drainLog, ↓reduceIte, hfirst, Bool.false_eq_true]
  rfl

end Drain
end DeviceReports

/-- Settles O12, one law per opcode and case of its buffer. -/
theorem deviceReports : Obligations.DeviceReports := by
  unfold Obligations.DeviceReports
  refine ⟨fun p s => execNop_answers, fun p s => execDevStatus_answers, fun p s => execDevGetFingerprint_answers,
    fun p sel first next u t s ha hr hsource hlen hfirst hsel hf hn hu ht => ?_, fun p s ha hr => execEvtDrain_bad ha rfl hr,
    fun s => rfl, fun p s ha hlen => execDltRefresh_publishes ha rfl rfl hlen,
    fun p u v s ha hr hlen hu hfits hv => ?_, fun p s ha hr hlen => execDltRefresh_short ha rfl rfl hr hlen⟩
  · subst hu hn hf
    exact execEvtDrain_live ha rfl hr hsource hlen hfirst hsel ht
  · subst hv
    exact execDltRefresh_exports ha rfl hu hr hlen hfits

end Sys2Proof.Machine

/-! ## Firmware packages, activation and the vault's layout (spec/21, R405, R406; spec/09, R184, R205) -/

namespace Sys2Proof.Machine
open Sys2Proof

variable {s : State}

section FirmwareAndLayout
variable {p : Pkt}

/-! ### FW_STAGE (R394, R405) -/

section Stage

/-- A staging job of the bytes `bs` at offset `o` is queued for packet `h` and asks for admission. -/
def State.stageQueued (s : State) (h : Hdr) (o : Nat) (bs : List Byte) : State :=
  (s.modFlash (fun f => { f with jobs := f.jobs ++ [⟨h, o, bs⟩] })).arrive (.stage h)

/-- A queued staging job is done once it is admitted; else its packet waits. -/
def State.stageOffered (s : State) (h : Hdr) : State :=
  if s.isAdmitted (.stage h) then s.stageDo h else s.restart h (fun e => { e with waitB := true })

/-- A package's part of `n` bytes at offset `o` is whole pages that lie within a slot. -/
structure Stageable (o n : Nat) : Prop where
  offset : o % 4096 = 0
  length : n % 4096 = 0
  most : n ≤ 0x400000
  inside : o + n ≤ 0x1000000

theorem execFwStage_queued {u : State} {bs : List Byte} (ha : accepted 0x0008 p s = true) (hu : u = entered 0x0008 p s)
    (hr : u.refOk (p.ref 4) = true) (hact : u.flash.activating = none) (h : Stageable (p.w 0) (p.ref 4).len)
    (hbs : u.readRef (p.ref 4) p.buf = some bs) :
    execFwStage p s = .next (((u.stageQueued (s.pktHdr 0x0008 p) (p.w 0) bs).stageOffered (s.pktHdr 0x0008 p)).refUse (p.ref 4)) := by
  subst hu
  have sound : ¬ (p.w 0 % 4096 ≠ 0 ∨ (p.ref 4).len % 4096 ≠ 0 ∨ 0x400000 < (p.ref 4).len ∨ 0x1000000 < p.w 0 + (p.ref 4).len) :=
    not_or.mpr ⟨not_not.mpr h.offset, not_or.mpr ⟨not_not.mpr h.length, not_or.mpr ⟨h.most.not_gt, h.inside.not_gt⟩⟩⟩
  refine next_runOp_none ha (State.refGuard_waits hr ((if_neg (by simp [hact])).trans ((if_neg sound).trans ?_)))
  simp only [hbs]
  exact (apply_ite (·, none) _ _ _).symm

end Stage

/-! ### FW_VERIFY (R407) -/

section Verify
variable {u : State} (ha : accepted 0x0009 p s = true) (hu : u = entered 0x0009 p s)
include ha hu

theorem execFwVerify_good {v : BitVec 24} (hv : u.inactive = some v) :
    execFwVerify p s = .next (settled 0x0009 (s.pktHdr 0x0009 p) (u.modFlash (fun f => { f with verified := true }))
      (ok [v.toNat])) := by
  subst hu
  refine next_runOp ha ?_
  simp only [hv]

theorem execFwVerify_bad (hv : u.inactive = none) :
    execFwVerify p s = .next (settled 0x0009 (s.pktHdr 0x0009 p) (u.modFlash (fun f => { f with verified := false }))
      (refuse stBadParam 0x8003)) := by
  subst hu
  refine next_runOp ha ?_
  simp only [hv]

end Verify

/-! ### FW_ACTIVATE (R406) -/

section Activate
variable {u : State} (ha : accepted 0x0010 p s = true) (hu : u = entered 0x0010 p s) (hact : u.flash.activating = none)
include ha hu hact

theorem execFwActivate_begins (hv : u.flash.verified = true) :
    execFwActivate p s = .next ((u.vqBarrier.modFlash (fun f => { f with activating := some (s.pktHdr 0x0010 p) })).coresRestart) := by
  subst hu
  exact next_runOp_none ha ((if_neg (by simp [hact])).trans (if_neg (ne_false_of_eq_true hv)))

theorem execFwActivate_notVerified (hv : u.flash.verified = false) :
    execFwActivate p s = .next (settled 0x0010 (s.pktHdr 0x0010 p) u (refuse stState 0x8005)) := by
  subst hu
  exact next_runOp ha ((if_neg (by simp [hact])).trans (if_pos hv))

end Activate

section Activation
variable {h : Hdr} (hact : s.flash.activating = some h)
include hact

/-- The other slot runs, with the package found in it. -/
def State.slotSwitched (s : State) : State :=
  ((s.modFlash (fun f => { f with
    slot := 1 - f.slot, sel := 1 - f.slot, version := s.inactive, verified := false, activating := none })).setF
    EVT_BOOT_STAT__SLOT (1 - s.flash.slot)).modDev (fun d => { d with fwRun := true })

theorem execFwRunState_ends (hrun : s.dev.fwRun = false) :
    execFwRunState s = .next (s.slotSwitched.vqLift.publish.finishF h (ok [(s.inactive.getD 0).toNat])) := by
  unfold execFwRunState
  simp only [hact]
  exact if_neg (ne_true_of_eq_false hrun)

theorem execFwActivateTimeout_ends {u : State}
    (hu : u = (if s.dev.fwRun then s else s.coresReset.modDev (fun d => { d with fwRun := true })).modFlash
      (fun f => { f with activating := none })) :
    execFwActivateTimeout s = .next (u.vqLift.finishF h (refuse stHwFault 0x8004)) := by
  subst hu
  unfold execFwActivateTimeout
  simp only [hact]

end Activation

/-! ### VLT_SET_LAYOUT (R54, R184, R205) -/

section Layout

/-- The units and the embedded lines that a packet gives the six contexts, and the end of the layout they make. -/
def unitsOf (p : Pkt) : List Nat := (List.range 6).map (fun c => p.b (1 + c) 0 16)
def embeddedOf (p : Pkt) : List Nat := (List.range 6).map (fun c => p.b (1 + c) 16 5)
def endOf (p : Pkt) : Nat := layoutEnd (p.b 0 0 7 * 0x40000 + 0x8000) (unitsOf p)

/-- No decoder, capture, take or pin keeps the layout of `s`, and the sizes that `p` gives are in range. -/
structure LayoutFree (s : State) (p : Pkt) : Prop where
  decoders : s.hdmCommitted = false
  captures : s.partOk 1 = true
  takes : s.takesUsed.isEmpty = true
  pins : s.vlt.pins.toList.any (fun q => q.any (fun x => x.retain)) = false
  min : 8 ≤ p.b 0 0 7
  max : p.b 0 0 7 ≤ 64
  lines : (List.range 6).find? (fun c => decide (16 < (embeddedOf p).getD c 0)) = none

/-- The layout of `p` is set. -/
def State.layoutSet (s : State) (p : Pkt) : State :=
  (s.setF VLT_LAYOUT__W_GIB (p.b 0 0 7)).modVlt (fun q => { q with units := unitsOf p, emb := embeddedOf p })

/-- VLT_SET_LAYOUT once the layout is free to change and its sizes are in range. -/
def State.layoutFitted (s : State) (p : Pkt) : State × Option Outc :=
  if s.vlt.usable < endOf p then (s, some (refuse stNoResource 0x8002))
  else (((s.layoutSet p).clearVault.commitSince s).publish, some (ok [s.vlt.usable - endOf p]))

variable {u : State} (ha : accepted 0x0500 p s = true) (hu : u = entered 0x0500 p s) (h : LayoutFree u p)
include ha hu h

theorem execVltSetLayout_free {t : State} {o : Outc} (ht : u.layoutFitted p = (t, some o)) :
    execVltSetLayout p s = .next (settled 0x0500 (s.pktHdr 0x0500 p) t o) := by
  subst hu
  have unheld : ¬ ((entered 0x0500 p s).partOk 1 = false ∨ (entered 0x0500 p s).takesUsed.isEmpty = false ∨
      (entered 0x0500 p s).vlt.pins.toList.any (fun q => q.any (fun x => x.retain)) = true) :=
    not_or.mpr ⟨ne_false_of_eq_true h.captures, not_or.mpr ⟨ne_false_of_eq_true h.takes, ne_true_of_eq_false h.pins⟩⟩
  refine next_runOp ha ((if_neg (ne_true_of_eq_false h.decoders)).trans ((if_neg unheld).trans
    ((if_neg (not_or.mpr ⟨h.min.not_gt, h.max.not_gt⟩)).trans ?_)))
  have lines := h.lines
  unfold embeddedOf at lines
  simp only [lines]
  exact ht

theorem execVltSetLayout_fits (he : endOf p ≤ u.vlt.usable) :
    execVltSetLayout p s = .next (settled 0x0500 (s.pktHdr 0x0500 p) (((u.layoutSet p).clearVault.commitSince u).publish)
      (ok [u.vlt.usable - endOf p])) :=
  execVltSetLayout_free ha hu h (if_neg he.not_gt)

theorem execVltSetLayout_beyond (he : u.vlt.usable < endOf p) :
    execVltSetLayout p s = .next (settled 0x0500 (s.pktHdr 0x0500 p) u (refuse stNoResource 0x8002)) :=
  execVltSetLayout_free ha hu h (if_pos he)

end Layout
end FirmwareAndLayout

/-- Settles O15, one law per opcode or row and case of its checks. -/
theorem firmwareAndLayout : Obligations.FirmwareAndLayout := by
  unfold Obligations.FirmwareAndLayout
  refine ⟨fun p bs u s ha hr hact ho hn hmost hin hbs hu => ?_, fun p s ha => ?_,
    fun p s ha hact hv => execFwActivate_begins ha rfl hact hv, fun p s ha hact hv => execFwActivate_notVerified ha rfl hact hv,
    fun h s hact hrun => execFwRunState_ends hact hrun, fun h s hact => execFwActivateTimeout_ends hact rfl,
    fun p e u s ha hdec hcap htak hpin hmin hmax hlin he hfits hu => ?_,
    fun p s ha hdec hcap htak hpin hmin hmax hlin hend => ?_⟩
  · subst hu
    exact execFwStage_queued ha rfl hr hact ⟨ho, hn, hmost, hin⟩ hbs
  · cases hv : (entered 0x0009 p s).inactive with
    | none => exact execFwVerify_bad ha rfl hv
    | some v => exact execFwVerify_good ha rfl hv
  · subst hu he
    exact execVltSetLayout_fits ha rfl ⟨hdec, hcap, htak, hpin, hmin, hmax, hlin⟩ hfits
  · exact execVltSetLayout_beyond ha rfl ⟨hdec, hcap, htak, hpin, hmin, hmax, hlin⟩ hend

end Sys2Proof.Machine

/-! ## Device tests, the test multiplexer and repairs (spec/22, R408 to R421) -/

namespace Sys2Proof.Machine
open Sys2Proof

variable {s : State}

section DeviceTests
variable {p : Pkt}

/-! ### The test opcodes (R408 to R410) -/

section Opcode
variable {op : Nat} {r : TstRun} {u : State}

/-- A test opcode that asks for test `r`. -/
def testOpcode (op : Nat) (r : TstRun) (p : Pkt) (s : State) : Res := .next (runOp op p s (fun u => u.testOp (s.pktHdr op p) r))

/-- The tests that the three opcodes ask for. -/
def analogueRun (p : Pkt) : TstRun := ⟨0, 0, p.b 0 0 4, p.w 1, p.w 2, 0, false, 0, false, none, []⟩
def lbistRun (p : Pkt) : TstRun := ⟨0, 1, p.b 0 8 2, p.b 0 0 4, p.w 1, p.w 2, false, 0, false, none, []⟩
def mbistRun (p : Pkt) : TstRun := ⟨0, 2, 0, p.b 0 0 5, 0, 0, p.t 0 8, 0, false, none, []⟩

theorem execTstRunAnalogue_eq (hr : r = analogueRun p) : execTstRunAnalogue p s = testOpcode 0x0D00 r p s := by
  subst hr
  rfl
theorem execTstRunLbist_eq (hr : r = lbistRun p) : execTstRunLbist p s = testOpcode 0x0D01 r p s := by
  subst hr
  rfl
theorem execTstRunMbist_eq (hr : r = mbistRun p) : execTstRunMbist p s = testOpcode 0x0D02 r p s := by
  subst hr
  rfl

/-- Packet `h` whose test has not begun waits for admission. -/
def State.testWaits (s : State) (h : Hdr) : State :=
  if s.tst.run.any (fun q => q.began) then s else s.restart h (fun e => { e with waitB := true })

/-- A test with good arguments is held against the test that runs, then against its condition. -/
theorem State.testOp_good (hgood : badArgs r = none) (h : Hdr) :
    u.testOp h r = if u.tst.run.isSome then (u, some (refuse stState 0x8001))
      else if u.testOk r = false then (u, some (refuse stState 0x8002))
      else ((u.offerTest { r with hdr := some h }).testWaits h, none) := by
  unfold State.testOp
  simp only [hgood]
  exact if_congr Iff.rfl rfl (if_congr Iff.rfl rfl (apply_ite (·, none) _ _ _).symm)

variable (ha : accepted op p s = true) (hu : u = entered op p s)
include ha hu

theorem testOpcode_badArgs {o : Outc} (hbad : badArgs r = some o) :
    testOpcode op r p s = .next (settled op (s.pktHdr op p) u o) := by
  subst hu
  refine next_runOp ha ?_
  unfold State.testOp
  simp only [hbad]

variable (hgood : badArgs r = none)
include hgood

theorem testOpcode_running (hrun : u.tst.run.isSome = true) :
    testOpcode op r p s = .next (settled op (s.pktHdr op p) u (refuse stState 0x8001)) := by
  subst hu
  exact next_runOp ha ((State.testOp_good hgood _).trans (if_pos hrun))

variable (hrun : u.tst.run.isSome = false)
include hrun

theorem testOpcode_unfit (hok : u.testOk r = false) :
    testOpcode op r p s = .next (settled op (s.pktHdr op p) u (refuse stState 0x8002)) := by
  subst hu
  exact next_runOp ha ((State.testOp_good hgood _).trans ((if_neg (ne_true_of_eq_false hrun)).trans (if_pos hok)))

theorem testOpcode_offered (hok : u.testOk r = true) :
    testOpcode op r p s = .next ((u.offerTest { r with hdr := some (s.pktHdr op p) }).testWaits (s.pktHdr op p)) := by
  subst hu
  exact next_runOp_none ha ((State.testOp_good hgood _).trans ((if_neg (ne_true_of_eq_false hrun)).trans (if_neg (ne_false_of_eq_true hok))))

end Opcode

/-! ### Register starts (R408, R409) -/

section Start
variable {master : Byte} {kind : Nat} {item : BitVec 6}

theorem State.testStart_shut (h : s.shut master = true) : s.testStart master kind item = s := if_pos h

/-- The test that a register start asks for. -/
def State.registerRun (s : State) (master : Byte) (kind : Nat) (item : BitVec 6) : TstRun :=
  ⟨0, kind, if kind = 2 then 0 else item.toNat, if kind = 0 then s.rn TST_ARG0 else if kind = 1 then s.rn TST_ARG0 % 16
    else s.rn TST_ARG0 % 32, s.rn TST_ARG1, s.rn TST_ARG2, kind == 2 && bitAt (s.rn TST_ARG0) 8, master.toNat, false, none, []⟩

/-- An opcode would refuse test `r`. -/
def State.testRefused (s : State) (r : TstRun) : Bool := (badArgs r).isSome || s.tst.run.isSome || !s.testOk r

theorem State.testStart_open {r : TstRun} (hr : r = s.registerRun master kind item) (h : s.shut master = false) :
    s.testStart master kind item = if s.testRefused r = true then s.raise TST_STAT__REFUSED
      else ((s.setF TST_CTRL__KIND kind).setF TST_CTRL__ITEM item.toNat).offerTest r := by
  subst hr
  exact if_neg (ne_true_of_eq_false h)

end Start

/-! ### Ends of tests (R409, R411 to R415) -/

section Ends

theorem execTstAdmitExpiry_noTest (h : s.tst.run = none) : execTstAdmitExpiry s = .next s := by
  unfold execTstAdmitExpiry
  simp only [h]

theorem execTestDone_noTest (e : TestEnd) (h : s.tst.run = none) : execTestDone e s = .next s := by
  unfold execTestDone
  simp only [h]

variable {r : TstRun} {e : TestEnd} (hrun : s.tst.run = some r)
include hrun

theorem execTstAdmitExpiry_began (hb : r.began = true) : execTstAdmitExpiry s = .next s := by
  unfold execTstAdmitExpiry
  simp only [hrun]
  exact if_pos (.inl hb)

/-- The test that waits has a run number of its own and shows its owner. -/
def State.testNumbered (s : State) (r : TstRun) : State :=
  ((s.deferB testJob).bumpEvt .tst TST_RUN_ID).setF TST_STAT__OWNER r.owner

theorem execTstAdmitExpiry_defers {u : State} (hb : r.began = false) (hh : r.hdr = none) (hu : u = s.testNumbered r) :
    execTstAdmitExpiry s = .next (u.postResult { r with id := u.rn TST_RUN_ID } 3 [0, 0, 0, 0]) := by
  subst hu
  unfold execTstAdmitExpiry
  simp only [hrun]
  exact if_neg (by simp [hb, hh])

theorem execTestDone_waiting (hb : r.began = false) : execTestDone e s = .next s := by
  unfold execTestDone
  simp only [hrun]
  exact if_pos hb

variable (hb : r.began = true)
include hb

theorem execTestDone_lbist (hk : r.kind = 1) : execTestDone e s = .next (s.endLbist r e) := by
  unfold execTestDone
  simp only [hrun]
  exact (if_neg (ne_false_of_eq_true hb)).trans (if_pos hk)

theorem execTestDone_mbist (hk : r.kind = 2) : execTestDone e s = .next (s.endMbist r e) := by
  unfold execTestDone
  simp only [hrun]
  exact (if_neg (ne_false_of_eq_true hb)).trans ((if_neg (by omega)).trans (if_pos hk))

variable (hk : r.kind = 0)
include hk

theorem execTestDone_fewRounds (hfew : r.item = 0 ∧ r.rounds.length < 4) : execTestDone e s = .next s := by
  unfold execTestDone
  simp only [hrun]
  exact (if_neg (ne_false_of_eq_true hb)).trans ((if_neg (by omega)).trans ((if_neg (by omega)).trans (if_pos hfew)))

/-- An analogue test passes: the reference test by its rounds, the others by what their end shows. -/
def analoguePass (r : TstRun) (e : TestEnd) : Bool :=
  if r.item = 0 then (r.rounds.take 4).all id else e.pass && ((r.item != 1 && r.item != 2) || e.errs == 0)

/-- The verdict `pass` on the analogue test `r` is posted, and a failure logged. -/
def State.analogueEnded (s : State) (r : TstRun) (e : TestEnd) (pass : Bool) : State :=
  if pass then s.postResult r (if pass then 1 else 2) [e.errs, e.bits, 0, 0]
  else (s.postResult r (if pass then 1 else 2) [e.errs, e.bits, 0, 0]).log .tst evTstFail

theorem execTestDone_analogue (hmany : ¬ (r.item = 0 ∧ r.rounds.length < 4)) :
    execTestDone e s = .next (s.analogueEnded r e (analoguePass r e)) := by
  unfold execTestDone
  simp only [hrun]
  exact (if_neg (ne_false_of_eq_true hb)).trans ((if_neg (by omega)).trans ((if_neg (by omega)).trans (if_neg hmany)))

end Ends

/-! ### Results and the test multiplexer (R420, R421) -/

section Result

/-- The run that TST_GET_RESULT is asked for: by its number, or the newest. -/
def State.runAsked (s : State) (id : Nat) : Option TstResult :=
  if id = 0 then s.testRuns.head? else s.testRuns.find? (fun r => r.id == id)

/-- The words of a run. -/
def resultWords (r : TstResult) : List Nat := [r.id, r.item + 64 * r.kind, r.status, r.owner] ++ r.words

/-- What TST_GET_RESULT answers of run `r`. -/
def resultAnswer (r : Option TstResult) : Outc :=
  match r with
  | none => refuse stState 0x8003
  | some r => ok (resultWords r)

theorem execTstGetResult_answers {r : Option TstResult} (ha : accepted 0x0D03 p s = true) (hr : s.runAsked (p.w 0) = r) :
    execTstGetResult p s = .next (settled 0x0D03 (s.pktHdr 0x0D03 p) s (resultAnswer r)) := by
  refine next_runOp_fast rfl ha ?_
  unfold State.runAsked at hr
  simp only [hr]
  cases r <;> rfl

theorem execTstSetTmux_stored (ha : accepted 0x0D04 p s = true) (h : tmuxOk (p.w 0) = true) :
    execTstSetTmux p s = .next (settled 0x0D04 (s.pktHdr 0x0D04 p) (s.wn TST_TMUX (p.w 0)) ok) :=
  next_runOp_fast rfl ha (if_neg (ne_false_of_eq_true h))

theorem execTstSetTmux_badCode (ha : accepted 0x0D04 p s = true) (h : tmuxOk (p.w 0) = false) :
    execTstSetTmux p s = .next (settled 0x0D04 (s.pktHdr 0x0D04 p) s (refuse stBadParam 0x8006)) :=
  next_runOp_fast rfl ha (if_pos h)

/-- The words of RPR_GET_STATUS: each unit's spares, uses and status, then the records and the suspect ones. -/
def State.repairWords (s : State) : List Nat :=
  (List.range 4).map (fun u => spareCount u + 0x100 * (s.tst.used.getD u 0 % 256) + 0x10000 * s.tst.status.getD u 0) ++
    [s.tst.records.length, (s.tst.records.filter (fun r => r.st == 2)).length]

theorem execRprGetStatus_answers (ha : accepted 0x0D05 p s = true) :
    execRprGetStatus p s = .next (settled 0x0D05 (s.pktHdr 0x0D05 p) s (ok s.repairWords)) := next_runOp_fast rfl ha rfl

end Result

/-! ### RPR_COMMIT_PPR (R417) -/

section Repairs

/-- The repairs at positions `rows` of the records. -/
def State.repairsAt (s : State) (rows : List Nat) : List Repair := rows.filterMap (fun i => s.tst.records[i]?)

/-- The poisoned lines of the repaired rows are free. -/
def State.linesFreed (s : State) (done : List Repair) : State :=
  { s with cxl := { s.cxl with poisoned := s.cxl.poisoned.filter (fun x => !done.any (fun r =>
      r.inst == bitsAt (s.suspectWord (64 * x)) 26 5 && r.addr == s.suspectWord (64 * x) % 0x400000)) } }

/-- The rows at positions `rows` of the records are hard. -/
def State.rowsHardened (s : State) (rows : List Nat) : State := s.modTst (fun t => { t with records := hardened t.records rows })

variable {u : State} (ha : accepted 0x0D06 p s = true) (hu : u = entered 0x0D06 p s)
include ha hu

theorem execRprCommitPpr_busy (hbusy : u.partOk 1 = false ∨ u.partOk 4 = false) :
    execRprCommitPpr p s = .next (settled 0x0D06 (s.pktHdr 0x0D06 p) u (refuse stState 0x8002)) := by
  subst hu
  exact next_runOp ha (if_pos hbusy)

variable (hcx : u.partOk 1 = true) (hvq : u.partOk 4 = true)
include hcx hvq

theorem execRprCommitPpr_held (hforce : p.t 0 0 = false) (hheld : u.vaultHeld = true) :
    execRprCommitPpr p s = .next (settled 0x0D06 (s.pktHdr 0x0D06 p) u (refuse stState 0x8004)) := by
  subst hu
  exact next_runOp ha ((if_neg (not_or.mpr ⟨ne_false_of_eq_true hcx, ne_false_of_eq_true hvq⟩)).trans (if_pos ⟨hforce, hheld⟩))

theorem execRprCommitPpr_hardens {rows : List Nat} (hfree : p.t 0 0 = true ∨ u.vaultHeld = false)
    (hrows : rows = (pprRows u.tst.records).take 4) :
    execRprCommitPpr p s = .next (settled 0x0D06 (s.pktHdr 0x0D06 p)
      (((u.linesFreed (u.repairsAt rows)).rowsHardened rows).clearVault.publish)
      (ok [rows.length, (pprRows u.tst.records).length - rows.length])) := by
  subst hrows hu
  refine next_runOp ha ((if_neg (not_or.mpr ⟨ne_false_of_eq_true hcx, ne_false_of_eq_true hvq⟩)).trans (if_neg (fun c => ?_)))
  exact hfree.elim (ne_true_of_eq_false c.1) (ne_false_of_eq_true c.2)

end Repairs
end DeviceTests

/-- Settles O49, one law per case that the three test opcodes share, and one per case of the rows and the other opcodes. -/
theorem deviceTests : Obligations.DeviceTests := by
  unfold Obligations.DeviceTests
  refine ⟨fun p r u s ha hr hgood hrun hok hu => ?_,
    fun p r o s ha hr hbad => (execTstRunAnalogue_eq hr).trans (testOpcode_badArgs ha rfl hbad),
    fun p r s ha hr hgood hrun => (execTstRunAnalogue_eq hr).trans (testOpcode_running ha rfl hgood hrun),
    fun p r s ha hr hgood hrun hok => (execTstRunAnalogue_eq hr).trans (testOpcode_unfit ha rfl hgood hrun hok),
    fun p r u s ha hr hgood hrun hok hu => ?_,
    fun p r o s ha hr hbad => (execTstRunLbist_eq hr).trans (testOpcode_badArgs ha rfl hbad),
    fun p r s ha hr hgood hrun => (execTstRunLbist_eq hr).trans (testOpcode_running ha rfl hgood hrun),
    fun p r s ha hr hgood hrun hok => (execTstRunLbist_eq hr).trans (testOpcode_unfit ha rfl hgood hrun hok),
    fun p r u s ha hr hgood hrun hok hu => ?_,
    fun p r o s ha hr hbad => (execTstRunMbist_eq hr).trans (testOpcode_badArgs ha rfl hbad),
    fun p r s ha hr hgood hrun => (execTstRunMbist_eq hr).trans (testOpcode_running ha rfl hgood hrun),
    fun p r s ha hr hgood hrun hok => (execTstRunMbist_eq hr).trans (testOpcode_unfit ha rfl hgood hrun hok),
    fun master item s => ⟨rfl, rfl, rfl⟩, fun master kind item r s hr h => State.testStart_open hr h,
    fun master kind item s => State.testStart_shut, fun r u s hrun hb hh hu => execTstAdmitExpiry_defers hrun hb hh hu,
    fun s h => ⟨execTstAdmitExpiry_noTest h, fun e => execTestDone_noTest e h⟩,
    fun r s hrun hb => execTstAdmitExpiry_began hrun hb, fun e r s hrun hb => execTestDone_waiting hrun hb,
    fun e r s hrun hb hk => execTestDone_lbist hrun hb hk, fun e r s hrun hb hk => execTestDone_mbist hrun hb hk,
    fun e r pass u s hrun hb hk hmany hp hu => ?_, fun e r s hrun hb hk hfew => execTestDone_fewRounds hrun hb hk hfew,
    fun p r s ha hr => execTstGetResult_answers ha hr, fun p s ha hr => execTstGetResult_answers ha hr,
    fun p s => execTstSetTmux_stored, fun p s => execTstSetTmux_badCode, fun p s => execRprGetStatus_answers,
    fun p s ha hbusy => execRprCommitPpr_busy ha rfl hbusy,
    fun p s ha hcx hvq hforce hheld => execRprCommitPpr_held ha rfl hcx hvq hforce hheld,
    fun p rows done u s ha hcx hvq hfree hrows hdone hu => ?_⟩
  · subst hu
    exact (execTstRunAnalogue_eq hr).trans (testOpcode_offered ha rfl hgood hrun hok)
  · subst hu
    exact (execTstRunLbist_eq hr).trans (testOpcode_offered ha rfl hgood hrun hok)
  · subst hu
    exact (execTstRunMbist_eq hr).trans (testOpcode_offered ha rfl hgood hrun hok)
  · subst hu hp
    exact execTestDone_analogue hrun hb hk hmany
  · subst hu hdone
    exact execRprCommitPpr_hardens ha rfl hcx hvq hfree hrows

end Sys2Proof.Machine

/-! ## Resets, rest states and boots (spec/20, R396 to R398; spec/21, R399 to R407) -/

namespace Sys2Proof.Machine
open Sys2Proof

variable {s : State}

section ResetsAndBoots
variable {p : Pkt}

/-! ### DEV_RESET and DEV_SET_PSTATE (R396, R398, R400) -/

section Requests

theorem execDevReset_plans {u : State} (ha : accepted 0x0002 p s = true) (hu : u = entered 0x0002 p s) :
    execDevReset p s = .next (settled 0x0002 (s.pktHdr 0x0002 p) (u.planAfter (s.pktHdr 0x0002 p) (.reset (p.t 0 0))) ok) := by
  subst hu
  exact next_runOp ha rfl

variable {u : State} (ha : accepted 0x0003 p s = true) (hu : u = entered 0x0003 p s)
include ha hu

theorem execDevSetPstate_awake (hps : p.b 0 0 2 < 2) :
    execDevSetPstate p s = .next (settled 0x0003 (s.pktHdr 0x0003 p) u (badWord 0)) := by
  subst hu
  exact next_runOp ha (if_pos hps)

variable (hps : 2 ≤ p.b 0 0 2)
include hps

theorem execDevSetPstate_refused {o : Outc} (ho : u.restCheck (p.b 0 0 2) (p.t 0 5) = some o) :
    execDevSetPstate p s = .next (settled 0x0003 (s.pktHdr 0x0003 p) u o) := by
  subst hu
  refine next_runOp ha ((if_neg hps.not_gt).trans ?_)
  simp only [ho]

theorem execDevSetPstate_plans (ho : u.restCheck (p.b 0 0 2) (p.t 0 5) = none) :
    execDevSetPstate p s = .next (settled 0x0003 (s.pktHdr 0x0003 p)
      (u.planAfter (s.pktHdr 0x0003 p) (.sleep (p.b 0 0 2) (p.t 0 4) (p.t 0 5))) ok) := by
  subst hu
  refine next_runOp ha ((if_neg hps.not_gt).trans ?_)
  simp only [ho]

end Requests

/-! ### What follows a reply (R396, R400) -/

section After
variable {ring : Fin 4} {seq : W32} {r : Reply} {o : Outc}

theorem State.pstateOut_reset {h : Hdr} {clear : Bool} (ha : s.dev.after = some ⟨h, .reset clear⟩) (r : Reply) :
    s.pstateOut r = some r.out := by
  unfold State.pstateOut
  rw [ha]

/-- The reply of a packet that enters a rest state has its own outcome while no other packet is started and the conditions
of the entry still hold. -/
theorem State.pstateOut_rests {ps : Nat} {wakeRec discard : Bool} (ha : s.dev.after = some ⟨r.hdr, .sleep ps wakeRec discard⟩)
    (halone : s.cmd.started.any (fun e => !e.is r.hdr) = false) (hrest : s.restCheck ps discard = none) :
    s.pstateOut r = some r.out := by
  unfold State.pstateOut
  simp only [ha]
  rw [if_neg (not_not.mpr rfl), if_neg (ne_true_of_eq_false halone), hrest]
  rfl

theorem State.dropAfter_ok {h : Hdr} (ho : o.status = stOk) : s.dropAfter h o = s := if_pos ho

theorem State.runAfter_reset {h : Hdr} {clear : Bool} (ha : s.dev.after = some ⟨h, .reset clear⟩) (hended : s.started? h = none) :
    s.runAfter = s.warmReset clear (if clear then 3 else 2) := by
  unfold State.runAfter
  simp only [ha, hended]
  exact if_neg Bool.false_ne_true

theorem State.runAfter_sleep {h : Hdr} {ps : Nat} {wakeRec discard : Bool} (ha : s.dev.after = some ⟨h, .sleep ps wakeRec discard⟩)
    (hended : s.started? h = none) : s.runAfter = s.enterSleep ps wakeRec 1 := by
  unfold State.runAfter
  simp only [ha, hended]
  exact if_neg Bool.false_ne_true

/-- After packets other than the two that clear the vault, the asset area stays as it is. -/
theorem State.afterEnd_plain {op : Nat} (hop : ¬ (op = 0x0500 ∨ op = 0x0D06)) : s.afterEnd op = s.coresRestart.runAfter := by
  unfold State.afterEnd
  simp only [if_neg hop]

/-- The reply `r` is written, and the cores restart where they waited for its packet. -/
def State.replied (s : State) (r : Reply) : State :=
  (State.complete { s with cmd := { s.cmd with done := s.cmd.done.erase r } } r.hdr r.out).coresRestart

theorem execPacketComplete_follows
    (hr : s.cmd.done.find? (fun r => r.hdr.ring == ring.val && r.hdr.seq == seq && !s.isLate r.hdr) = some r)
    (hop : ¬ (r.hdr.opcode = 0x0500 ∨ r.hdr.opcode = 0x0D06)) (hok : r.out.status = stOk) (ho : s.pstateOut r = some r.out) :
    execPacketComplete ring seq s = .next (s.replied r).runAfter := by
  unfold execPacketComplete
  simp only [hr, ho]
  rw [State.dropAfter_ok hok, State.afterEnd_plain hop]
  rfl

end After

/-! ### Wakes and resets (R397, R400, R402) -/

section Reset

theorem execWake_wakes {recPin early : Bool} (hsleep : s.pwr.sleep ≠ 0) (hrec : recPin = true → s.pwr.wakeRec = true)
    (htrip : early = true → s.pwr.trip = false) :
    execWake recPin early s = .next (s.modPwr (fun p => { p with sleep := 0, trip := false })) :=
  if_neg (not_or.mpr ⟨hsleep, not_or.mpr ⟨fun c => ne_false_of_eq_true (hrec c.1) c.2, fun c => ne_true_of_eq_false (htrip c.1) c.2⟩⟩)

theorem execPerstNAssert_ignored (h : s.dev.vin ≠ 0 ∨ s.pwr.sleep ≠ 0 ∨ s.dev.awaits = true) : execPerstNAssert s = .next s := if_pos h

theorem execPerstNAssert_resets (hvin : s.dev.vin = 0) (hsleep : s.pwr.sleep = 0) (hawaits : s.dev.awaits = false) :
    execPerstNAssert s = .next (s.warmReset false 1) :=
  if_neg (not_or.mpr ⟨not_not.mpr hvin, not_or.mpr ⟨not_not.mpr hsleep, ne_true_of_eq_false hawaits⟩⟩)

/-- DEFLATE jobs and pins that end leave the variant and the working region. -/
theorem State.jobsAndPinsEnded_kept (s : State) : Kept true s s.dflLost.pinsOff :=
  State.pinsOff_kept (State.dflLost_kept (Kept.refl true s))

theorem State.jobsAndPinsEnded_ended (s : State) : Ended s s.dflLost.pinsOff := (State.dflLost_ended s).trans (State.pinsOff_ended _)

/-- A register that a reset of the logic does not keep reads its reset value. -/
theorem State.warmReset_rd (clear : Bool) (type : Nat) {a : Nat} (ha : a ∉ keptRegs) (hp : a ≠ PWR_STAT) :
    (s.warmReset clear type).rd a = regReset s.dev.variant a := by
  have same := s.jobsAndPinsEnded_kept.parts.same_variant
  exact (State.warmFrom_rd clear type ha hp).trans (by rw [same])

theorem State.warmReset_mem (s : State) (clear : Bool) (type : Nat) : (s.warmReset clear type).mem = s.mem :=
  (State.warmFrom_mem _ clear type).trans (s.jobsAndPinsEnded_kept.parts.same rfl)

theorem State.warmReset_host (s : State) (clear : Bool) (type : Nat) : (s.warmReset clear type).host = s.host :=
  (State.warmFrom_host _ clear type).trans s.jobsAndPinsEnded_ended.host

theorem State.warmReset_staged (s : State) (clear : Bool) (type : Nat) : (s.warmReset clear type).flash.staged = s.flash.staged :=
  (State.warmFrom_staged _ clear type).trans (congrArg FwSt.staged s.jobsAndPinsEnded_ended.flash)

/-- A device that a reset of the logic has left is not ready and waits for the boot of its TYPE. -/
theorem State.warmReset_awaits (s : State) (clear : Bool) (type : Nat) :
    (s.warmReset clear type).dev.ready = false ∧ (s.warmReset clear type).dev.awaits = true ∧
      (s.warmReset clear type).dev.bootType = type := by
  have dev := State.warmFrom_dev s.dflLost.pinsOff clear type
  unfold State.warmReset
  rw [dev]
  exact ⟨rfl, rfl, rfl⟩

end Reset

/-! ### Boots (R399, R400, R403) -/

section Boot
variable {r : BootRep} (hawaits : s.dev.awaits = true) (hsleep : s.pwr.sleep = 0)
include hawaits hsleep

theorem execColdBoot_boots (hvin : s.dev.vin ≠ 2) (htype : s.dev.bootType = 0 ∨ s.dev.bootType = 5) :
    execColdBoot r s = .next ((s.modDev (fun d => { d with vin := 0 })).boot r) :=
  if_neg (not_or.mpr ⟨ne_false_of_eq_true hawaits, not_or.mpr ⟨hvin, not_or.mpr ⟨not_not.mpr hsleep,
    fun c => htype.elim c.1 c.2⟩⟩⟩)

theorem execWarmBoot_boots (hvin : s.dev.vin = 0) (hcold : s.dev.bootType ≠ 0) (hrest : s.dev.bootType ≠ 5) :
    execWarmBoot r s = .next (s.boot r) :=
  if_neg (not_or.mpr ⟨ne_false_of_eq_true hawaits, not_or.mpr ⟨not_not.mpr hvin, not_or.mpr ⟨not_not.mpr hsleep,
    not_or.mpr ⟨hcold, hrest⟩⟩⟩⟩)

end Boot
end ResetsAndBoots

/-- Settles O14: each request plans what follows its reply, a reset of the logic keeps what its laws say, and a boot that
goes through is ready. -/
theorem resetsAndBoots : Obligations.ResetsAndBoots := by
  unfold Obligations.ResetsAndBoots
  refine ⟨fun p s ha => execDevReset_plans ha rfl, fun p s ha hps ho => execDevSetPstate_plans ha rfl hps ho,
    fun p o s ha hps ho => execDevSetPstate_refused ha rfl hps ho, fun p s ha hps => execDevSetPstate_awake ha rfl hps,
    fun ring seq r clear u s hr hop hok ha hu hended hafter => ?_,
    fun ring seq r ps wakeRec discard u s hr hop hok ha halone hrest hu hended hafter => ?_,
    fun recPin early s hsleep hrec htrip => execWake_wakes hsleep hrec htrip, fun s hvin hsleep hawaits => ?_,
    fun s => execPerstNAssert_ignored, fun r s hawaits hvin hsleep htype hf hcal hup => ?_,
    fun r s hawaits hvin hsleep hcold hrest hf hcal hup => ?_⟩
  · have replied : u = s.replied r := hu
    rw [exec_packetComplete, execPacketComplete_follows hr (by omega) hok (State.pstateOut_reset ha r), ← replied,
      State.runAfter_reset hafter hended]
  · have replied : u = s.replied r := hu
    rw [exec_packetComplete, execPacketComplete_follows hr (by omega) hok (State.pstateOut_rests ha halone hrest), ← replied,
      State.runAfter_sleep hafter hended]
  · exact ⟨s.warmReset false 1, execPerstNAssert_resets hvin hsleep hawaits, fun a => State.warmReset_rd false 1,
      s.warmReset_mem false 1, s.warmReset_host false 1, s.warmReset_staged false 1, State.warmFrom_cmd _ false 1,
      s.warmReset_awaits false 1⟩
  · exact ⟨_, execColdBoot_boots hawaits hsleep hvin htype, rfl, State.boot_ready _ hf hcal hup⟩
  · exact ⟨_, execWarmBoot_boots hawaits hsleep hvin hcold hrest, rfl, State.boot_ready _ hf hcal hup⟩

end Sys2Proof.Machine
